-- ==== Sys2Proof/Word.lean ====
section
/-! DEFINITION. The plain word types of the GW960: bytes, register words, vector elements and tray entries. -/

namespace Sys2Proof

/-- One byte of any memory of the device. -/
abbrev Byte := BitVec 8

/-- A BAR0 register, a doorbell value or a cell instruction word (R5, R53). -/
abbrev Word64 := BitVec 64

/-- One 32-bit element of a vector register (R109). -/
abbrev Elem := BitVec 32

/-- One 48-bit entry of a tray slot (R48, R94). -/
abbrev Entry := BitVec 48

/-- A sparse table: pairs of key and value, keys strictly rising, no value that an unlisted key reads as. -/
abbrev Tab (α : Type) := List (Nat × α)

end Sys2Proof
end

