-- ==== Sys2Proof/Syntax.lean ====
section
/-! DEFINITION. The commands of the GW960: one constructor of `Instr` for every row of the table of operations and events,
with the row's operands. A command of a cell or of a U list carries the instruction's fields; a command for a frame, packet or
message carries the fields of its header; a mailbox command names the channel whose request buffer holds its fields. -/

namespace Sys2Proof

/-- The issue streams of a cell (R50). -/
inductive Strm where
  | f | b
  deriving DecidableEq, Repr

/-- The fields of a cell instruction word beside its opcode (R53). -/
structure CellWord where
  fmta : BitVec 4 := 0
  fmtb : BitVec 4 := 0
  rm   : BitVec 3 := 0
  sat  : BitVec 1 := 0
  tidx : BitVec 5 := 0
  cnt  : BitVec 13 := 0
  opnd : BitVec 26 := 0
  deriving DecidableEq, Repr

/-- A PCIe memory request into BAR2 (R343): requester, BAR2 offset, and the bytes written or the length read. -/
structure AperReq where
  rid   : Nat
  off   : Nat
  write : Bool
  data  : List (BitVec 8)
  len   : Nat
  deriving DecidableEq, Repr

/-- A unit presented for admission (R39): an instruction block of a stream, or an access of a class with its cost. -/
inductive WorkUnit where
  | block (lc : Nat) (st : Strm)
  | access (cls cc hbm link : Nat)
  deriving DecidableEq, Repr

/-- A received tick frame (R330); delays and the arrival moment in units of 0.125 ns. -/
structure TickFrame where
  originPos : Nat
  lastPos   : Nat
  accDly    : Nat
  len       : Nat
  lenNext   : Nat
  rndNum    : Nat
  gtime     : Nat
  tAlign    : Nat
  crcOk     : Bool
  deriving DecidableEq, Repr

/-- A received management frame of the hoop (R333), payload as a little-endian number. -/
structure MgmtFrame where
  src     : Nat
  dst     : Nat
  hops    : Nat
  msg     : Nat
  len     : Nat
  payload : Nat
  crcOk   : Bool
  deriving DecidableEq, Repr

/-- What forces the hoop bypass closed at once (R335). -/
inductive ForcedClose where
  | reset | viodLoss | vaonLoss | lid
  deriving DecidableEq, Repr

/-- A Wale packet (R323): header, payload, seal tag, and whether it came CE-marked. -/
structure WalePkt where
  isSealed : Bool := false
  last     : Bool := false
  ece      : Bool := false
  ackReq   : Bool := false
  cls      : Nat := 0
  dstQpn   : Nat := 0
  srcQpn   : Nat := 0
  psn      : Nat := 0
  msgId    : Nat := 0
  offset   : Nat := 0
  keyId    : Nat := 0
  nonce    : Nat := 0
  reason   : Nat := 0
  payload  : List (BitVec 8) := []
  tag      : Nat := 0
  ce       : Bool := false
  deriving DecidableEq, Repr

/-- One segment entry of a segment table (R147). -/
structure SegEntry where
  handle   : Nat
  ctx      : Nat
  wver     : Nat
  row0     : Nat
  nrows    : Nat
  forms    : Nat
  baseOnly : Bool
  rankL    : Nat
  rankQ    : Nat
  deriving DecidableEq, Repr

/-- A segment table (R146) as the lead sends it: its header fields, segments and row list of job tag and queue pair. -/
structure SegTable where
  course : Nat
  sid    : Nat
  gen    : Nat
  lead   : Nat
  segs   : List SegEntry
  rows   : List (Nat × Nat)
  deriving DecidableEq, Repr

/-- A device's boundary report to the lead (R145): the handles it can run, each with a generation it is accepted on, the generations of stake
sets that courses may start on, and the stake sets that are nonresident. -/
structure ResReport where
  usable : List (Nat × Nat)
  gens   : List (Nat × Nat)
  nonres : List Nat
  deriving DecidableEq, Repr

/-- A received Twine frame (R290). -/
structure TwineFrame where
  wellFormed : Bool := true
  ovf        : Bool := false
  late       : Bool := false
  member     : Nat := 255
  nmemb      : Nat := 1
  group      : Nat := 0
  step       : Nat := 0
  bucket     : Nat := 0
  attempt    : Nat := 0
  owner      : Nat := 0
  rail       : Nat := 0
  seq        : Nat := 0
  exp        : Int := -128
  nfcnt      : Nat := 0
  keyId      : Nat := 0
  mask       : Nat := 0
  capacity   : Nat := 0
  payload    : List (BitVec 32) := []
  deriving DecidableEq, Repr

/-- A partial sum received on the ring path (R296). -/
structure RingMsg where
  bucket  : Nat
  attempt : Nat
  owner   : Nat
  rail    : Nat
  exp     : Int
  ovf     : Bool
  nfcnt   : Nat
  words   : List (BitVec 32)
  deriving DecidableEq, Repr

/-- The check result of an owner's report (R297). -/
inductive CheckRes where
  | notChecked | allEqual | differ (ringSame : Bool)
  deriving DecidableEq, Repr

/-- An owner's report of a bucket (R301). -/
structure OwnerRpt where
  part   : Nat
  bucket : Nat
  owner  : Nat
  ovf    : Bool
  exp    : Int
  nfcnt  : Nat
  lost   : List Nat
  bounce : List Nat
  check  : CheckRes
  badRails : List Nat
  mstat  : Nat
  deriving DecidableEq, Repr

/-- The lead's verdict for a bucket (R301), with the rails that are ring-reduced from then on (R293, R297). -/
inductive VerdictKind where
  | redo (k : Int) (ring : List Nat) | failed | done (k e : Int) (ring : List Nat)
  deriving DecidableEq, Repr

structure VerdictMsg where
  bucket : Nat
  kind   : VerdictKind
  deriving DecidableEq, Repr

/-- One bucket record of a step ledger entry (R304). -/
structure LedgerBucket where
  bucket   : Nat
  part     : Nat
  k        : Int
  e        : Int
  attempts : Nat
  verdict  : Nat
  checkv   : Nat
  ringRails : Nat
  nfcnt    : Nat
  mstat    : Nat
  deriving DecidableEq, Repr

/-- A step ledger entry (R303). -/
structure LedgerEntry where
  nbucket : Nat
  jobId   : Nat
  step    : Nat
  wverIn  : Nat
  wverOut : Nat
  gen     : Nat
  nmemb   : Nat
  npart   : Nat
  nrail   : Nat
  outcome : Nat
  saved   : Bool
  precCrc : Nat
  sample0 : Nat
  pubRnd  : Nat
  buckets : List LedgerBucket
  deriving DecidableEq, Repr

/-- A peer's request for a stake-set shard (R180). -/
structure ShardReq where
  peer  : Nat
  sid   : Nat
  gen   : Nat
  part  : Nat
  shard : Nat
  deriving DecidableEq, Repr

/-- How a requested shard arrived from its source (R179); plaintext bytes as pairs of offset in the shard and byte. -/
inductive ShardIn where
  | ok (data : List (Nat × BitVec 8)) | refused | crcBad | poisoned
  deriving DecidableEq, Repr

/-- A line that patrol scrub read with symbols in error (R268). -/
structure LineHit where
  frame : Nat
  line  : Nat
  errs  : List (Nat × Nat)
  deriving DecidableEq, Repr

/-- What a received Ethernet frame is before its payload is looked at (R313, R315). -/
inductive EthKind where
  | secured (valid : Bool) | noSecTag | pfc | eapol
  deriving DecidableEq, Repr

/-- A received Ethernet frame: length with FCS, priority, kind, whether FEC delivered it whole. -/
structure EthFrame where
  len   : Nat
  prio  : Nat
  kind  : EthKind
  fecOk : Bool
  deriving DecidableEq, Repr

/-- What MKA does on a sub-port (R315, R412). -/
inductive MkaEvent where
  | install | retire
  deriving DecidableEq, Repr

/-- The SRAM in which an uncorrectable error is met (R427). -/
inductive SramBlock where
  | directoryCache | staging | queuePair | frameSlice | keyBus | tally
  deriving DecidableEq, Repr

/-- The operations of a RoCE packet (R319, R320); `nak true` asks for a resend from its PSN on, `nak false` reports an access error. -/
inductive RoceOp where
  | send | sendImm | write | writeImm | readReq | readRsp | ack | nak (again : Bool) | cnp
  deriving DecidableEq, Repr

/-- A RoCE v2 packet (R320). -/
structure RocePkt where
  qpn     : Nat := 0
  op      : RoceOp
  psn     : Nat := 0
  ce      : Bool := false
  last    : Bool := true
  addr    : Nat := 0
  key     : Nat := 0
  len     : Nat := 0
  imm     : Nat := 0
  payload : List (BitVec 8) := []
  deriving DecidableEq, Repr

/-- What the host or peer side of a copy burst answers (R353, R354): the bytes read, an accepted write, or a failure. -/
inductive BurstIn where
  | data (bytes : List (BitVec 8)) | accepted | failed
  deriving DecidableEq, Repr

/-- The sources of a W-class reset (R447). -/
inductive WCause where
  | perst | hotReset | deviceReset | viod
  deriving DecidableEq, Repr

/-- The sources of an L-class reset (R447). -/
inductive LCause where
  | lidFail | operatorCleared | rail
  deriving DecidableEq, Repr

/-- A power and temperature reading of the clock loop (R463): package watts and the hottest sensor of each compute die. -/
structure PowerSample where
  watts : Nat
  tj    : List Nat
  deriving DecidableEq, Repr

/-- A KEY_RELEASE request (R409). -/
structure KeyRel where
  kind       : Nat
  target     : Nat
  keyId      : Nat
  dbg        : Bool
  prof       : Bool
  hostWindow : Bool
  requireIde : Bool
  denyRoce   : Bool
  rsvdZero   : Bool
  measDigest : Nat
  key        : Nat
  ckn        : Nat
  deriving DecidableEq, Repr

/-- A route entry of an Upsett image (R82). -/
structure Route where
  target : Nat
  bankKb : Nat
  evc    : Nat
  strm   : Strm
  valid  : Bool
  deriving DecidableEq, Repr

/-- The role that Upsett gives a cell (R55, R82). -/
inductive Role where
  | matrix | vector | reduce | stream | unused
  deriving DecidableEq, Repr

/-- An Upsett image (R82): the measurement that the Lid took of it, and its bytes by offset; an unlisted byte is 0. -/
structure UpsettImage where
  meas  : Nat
  bytes : List (Nat × BitVec 8)
  deriving DecidableEq, Repr

/-- A read of BAR0 that begins at a low half (R5): its offset, and whether it is of 32 bits or of 64. -/
structure LowRead where
  off  : Nat
  wide : Bool := false
  deriving DecidableEq, Repr

/-- The commands, one constructor for each row of the table. -/
inductive Instr where
  /-- BAR0_LOW_READ (R5). -/
  | bar0LowRead (fn : Nat) (rd : LowRead)
  /-- BAR0_HIGH_READ (R5). -/
  | bar0HighRead (fn off : Nat)
  /-- REGISTER_WRITE (R8). -/
  | registerWrite (fn off : Nat) (wide : Bool) (v : BitVec 64)
  /-- RND_SRC_SET (R30). -/
  | rndSrcSet (fn : Nat) (v : BitVec 64)
  /-- RND_ENABLE_SET (R485). -/
  | rndEnableSet (fn : Nat) (v : BitVec 64)
  /-- RND_LOCK (R8). -/
  | rndLock (fn : Nat) (v : BitVec 64)
  /-- RND_LEN_SET (R31). -/
  | rndLenSet (fn : Nat) (v : BitVec 64)
  /-- RND_NUM_SET (R32). -/
  | rndNumSet (fn : Nat) (v : BitVec 64)
  /-- BUD_SHARE_WRITE (R38). -/
  | budShareWrite (fn c : Nat) (v : BitVec 64)
  /-- MB_GO (R369). -/
  | mbGo (fn ch : Nat) (v : BitVec 64)
  /-- MB_ACK (R369). -/
  | mbAck (fn ch : Nat) (v : BitVec 64)
  /-- HOOP_JOIN (R336). -/
  | hoopJoin (fn : Nat) (v : BitVec 64)
  /-- HOOP_BYPASS_REQ (R335). -/
  | hoopBypassReq (fn : Nat) (v : BitVec 64)
  /-- HOOP_LOCK (R8). -/
  | hoopLock (fn : Nat) (v : BitVec 64)
  /-- GTIME_WRITE (R337). -/
  | gtimeWrite (fn : Nat) (v : BitVec 64)
  /-- PORT_ENABLE (R312). -/
  | portEnable (fn p : Nat) (v : BitVec 64)
  /-- PORT_LOCK (R8). -/
  | portLock (fn p : Nat) (v : BitVec 64)
  /-- BLK_RST_GO (R452). -/
  | blkRstGo (fn : Nat) (v : BitVec 64)
  /-- EVENT_HEAD_WRITE (R360). -/
  | eventHeadWrite (fn ring : Nat) (v : BitVec 64)
  /-- SQ_TAIL (R346). -/
  | sqTail (fn qpn off : Nat) (wide : Bool) (v : BitVec 64)
  /-- CQ_HEAD (R346). -/
  | cqHead (fn qpn off : Nat) (wide : Bool) (v : BitVec 64)
  /-- RQ_TAIL (R346). -/
  | rqTail (fn qpn off : Nat) (wide : Bool) (v : BitVec 64)
  /-- APERTURE_ACCESS (R343). -/
  | apertureAccess (r : AperReq)
  /-- LDW (R69). -/
  | ldw (lc : Nat) (st : Strm) (f : CellWord)
  /-- LDW_DATA_ARRIVED (R69). -/
  | ldwDataArrived (lc : Nat) (st : Strm)
  /-- STW (R69). -/
  | stw (lc : Nat) (st : Strm) (f : CellWord)
  /-- STW_ACCEPTED (R69). -/
  | stwAccepted (lc : Nat) (st : Strm)
  /-- MOV (R69). -/
  | mov (lc : Nat) (st : Strm) (f : CellWord)
  /-- VLD (R117). -/
  | vld (lc : Nat) (st : Strm) (f : CellWord)
  /-- VST (R117). -/
  | vst (lc : Nat) (st : Strm) (f : CellWord)
  /-- TBW (R69). -/
  | tbw (lc : Nat) (st : Strm) (f : CellWord)
  /-- PUT (R69). -/
  | put (lc : Nat) (st : Strm) (f : CellWord)
  /-- PUT_DELIVERED (R246). -/
  | putDelivered (lc : Nat) (st : Strm)
  /-- MMA (R60). -/
  | mma (lc : Nat) (st : Strm) (f : CellWord)
  /-- SLR (R63). -/
  | slr (lc : Nat) (st : Strm) (f : CellWord)
  /-- BEAT_WRITEBACK (R60). -/
  | beatWriteback (lc : Nat) (st : Strm)
  /-- DRN (R124). -/
  | drn (lc : Nat) (st : Strm) (f : CellWord)
  /-- TSV (R65). -/
  | tsv (lc : Nat) (st : Strm) (f : CellWord)
  /-- TLD (R66). -/
  | tld (lc : Nat) (st : Strm) (f : CellWord)
  /-- TZR (R67). -/
  | tzr (lc : Nat) (st : Strm) (f : CellWord)
  /-- NOP (R69). -/
  | nop (lc : Nat) (st : Strm) (f : CellWord)
  /-- SYN (R70). -/
  | syn (lc : Nat) (st : Strm) (f : CellWord)
  /-- SYN_TIMEOUT (R70). -/
  | synTimeout (lc : Nat) (st : Strm)
  /-- SIG (R69). -/
  | sig (lc : Nat) (st : Strm) (f : CellWord)
  /-- RCL (R69). -/
  | rcl (lc : Nat) (st : Strm) (f : CellWord)
  /-- END (R71). -/
  | endBlock (lc : Nat) (st : Strm) (f : CellWord)
  /-- BLOCK_LOAD (R71). -/
  | blockLoad (lc : Nat) (st : Strm)
  /-- VMOV (R112). -/
  | vmov (lc : Nat) (st : Strm) (f : CellWord)
  /-- VADD (R112). -/
  | vadd (lc : Nat) (st : Strm) (f : CellWord)
  /-- VSUB (R112). -/
  | vsub (lc : Nat) (st : Strm) (f : CellWord)
  /-- VMUL (R112). -/
  | vmul (lc : Nat) (st : Strm) (f : CellWord)
  /-- VFMA (R112). -/
  | vfma (lc : Nat) (st : Strm) (f : CellWord)
  /-- VMAX (R112). -/
  | vmax (lc : Nat) (st : Strm) (f : CellWord)
  /-- VMIN (R112). -/
  | vmin (lc : Nat) (st : Strm) (f : CellWord)
  /-- VABS (R112). -/
  | vabs (lc : Nat) (st : Strm) (f : CellWord)
  /-- VNEG (R112). -/
  | vneg (lc : Nat) (st : Strm) (f : CellWord)
  /-- VRCP (R112). -/
  | vrcp (lc : Nat) (st : Strm) (f : CellWord)
  /-- VRSQ (R112). -/
  | vrsq (lc : Nat) (st : Strm) (f : CellWord)
  /-- VEXP2 (R112). -/
  | vexp2 (lc : Nat) (st : Strm) (f : CellWord)
  /-- VCEQ (R112). -/
  | vceq (lc : Nat) (st : Strm) (f : CellWord)
  /-- VCGT (R112). -/
  | vcgt (lc : Nat) (st : Strm) (f : CellWord)
  /-- VCGE (R112). -/
  | vcge (lc : Nat) (st : Strm) (f : CellWord)
  /-- VSEL (R112). -/
  | vsel (lc : Nat) (st : Strm) (f : CellWord)
  /-- VCVT (R112). -/
  | vcvt (lc : Nat) (st : Strm) (f : CellWord)
  /-- VQNT (R112). -/
  | vqnt (lc : Nat) (st : Strm) (f : CellWord)
  /-- VRSUM (R114). -/
  | vrsum (lc : Nat) (st : Strm) (f : CellWord)
  /-- VRMAX (R114). -/
  | vrmax (lc : Nat) (st : Strm) (f : CellWord)
  /-- VIADD (R112). -/
  | viadd (lc : Nat) (st : Strm) (f : CellWord)
  /-- VISUB (R112). -/
  | visub (lc : Nat) (st : Strm) (f : CellWord)
  /-- VIMUL (R112). -/
  | vimul (lc : Nat) (st : Strm) (f : CellWord)
  /-- VSHL (R112). -/
  | vshl (lc : Nat) (st : Strm) (f : CellWord)
  /-- VSHR (R112). -/
  | vshr (lc : Nat) (st : Strm) (f : CellWord)
  /-- VAND (R112). -/
  | vand (lc : Nat) (st : Strm) (f : CellWord)
  /-- VOR (R112). -/
  | vor (lc : Nat) (st : Strm) (f : CellWord)
  /-- VXOR (R112). -/
  | vxor (lc : Nat) (st : Strm) (f : CellWord)
  /-- VIMAX (R112). -/
  | vimax (lc : Nat) (st : Strm) (f : CellWord)
  /-- VIMIN (R112). -/
  | vimin (lc : Nat) (st : Strm) (f : CellWord)
  /-- TLK (R120). -/
  | tlk (lc : Nat) (st : Strm) (f : CellWord)
  /-- TLKN (R120). -/
  | tlkn (lc : Nat) (st : Strm) (f : CellWord)
  /-- TLKM (R120). -/
  | tlkm (lc : Nat) (st : Strm) (f : CellWord)
  /-- ATTN (R254). -/
  | attn (cid die : Nat) (u : BitVec 512)
  /-- GEMV (R258). -/
  | gemv (cid die : Nat) (u : BitVec 512)
  /-- ADAMW (R261). -/
  | adamw (cid die : Nat) (u : BitVec 512)
  /-- SGDM (R261). -/
  | sgdm (cid die : Nat) (u : BitVec 512)
  /-- ACC (R263). -/
  | acc (cid die : Nat) (u : BitVec 512)
  /-- ULIST_TIMEOUT (R249). -/
  | ulistTimeout (cid die : Nat)
  /-- ROUND_TICK (R42). -/
  | roundTick
  /-- WEAVER_HEAT_DECAY (R156). -/
  | weaverHeatDecay
  /-- STAKE_USE_DECAY (R193). -/
  | stakeUseDecay
  /-- FRAME_HEAT_DECAY (R225). -/
  | frameHeatDecay
  /-- GEN_CLOSE (R177). -/
  | genClose (sid : Nat)
  /-- PARK_TIMEOUT (R159). -/
  | parkTimeout (qpn idx : Nat)
  /-- UNIT_ADMIT (R39). -/
  | unitAdmit (u : WorkUnit)
  /-- LOCAL_TICK (R27). -/
  | localTick
  /-- TICK_FRAME_SEND (R331). -/
  | tickFrameSend
  /-- TICK_FRAME_RECEIVE (R331). -/
  | tickFrameReceive (f : TickFrame) (arrival : Nat)
  /-- HOLDOVER_ENTRY (R29). -/
  | holdoverEntry
  /-- HOLDOVER_TICK (R29). -/
  | holdoverTick
  /-- ISOLATED_ENTRY (R29). -/
  | isolatedEntry
  /-- MGMT_FRAME_RECEIVE (R333). -/
  | mgmtFrameReceive (f : MgmtFrame)
  /-- PRESENT (R334). -/
  | present (src rnd : Nat)
  /-- STAKE_READY (R182). -/
  | stakeReady (src sid stamp part c : Nat)
  /-- STAKE_GO (R184). -/
  | stakeGo (sid stamp c : Nat)
  /-- STAKE_ABORT_MSG (R183). -/
  | stakeAbortMsg (sid stamp c : Nat)
  /-- STAKE_CURRENT (R184). -/
  | stakeCurrent (sid stamp : Nat)
  /-- COMMIT_ANNOUNCE (R182). -/
  | commitAnnounce (sid : Nat)
  /-- BYPASS_SWITCH (R336). -/
  | bypassSwitch
  /-- BYPASS_FORCED_CLOSE (R335). -/
  | bypassForcedClose (c : ForcedClose)
  /-- WALE_DATA (R325). -/
  | waleData (p : Nat) (w : WalePkt)
  /-- WALE_ACK (R325). -/
  | waleAck (p : Nat) (w : WalePkt)
  /-- WALE_NAK (R325). -/
  | waleNak (p : Nat) (w : WalePkt)
  /-- WALE_OPEN (R322). -/
  | waleOpen (p : Nat) (w : WalePkt)
  /-- WALE_OPEN_ACK (R322). -/
  | waleOpenAck (p : Nat) (w : WalePkt)
  /-- WALE_CLOSE (R322). -/
  | waleClose (p : Nat) (w : WalePkt)
  /-- WALE_ACK_TIMER (R325). -/
  | waleAckTimer (qpn : Nat)
  /-- WALE_RESEND_TIMEOUT (R325). -/
  | waleResendTimeout (qpn : Nat)
  /-- SEGMENT_TABLE_RECEIVE (R145). -/
  | segmentTableReceive (t : SegTable)
  /-- TWINE_RESULT (R293). -/
  | twineResult (p : Nat) (w : TwineFrame)
  /-- TWINE_BOUNCE (R293). -/
  | twineBounce (p : Nat) (w : TwineFrame)
  /-- TWINE_PROBE_REPLY (R273). -/
  | twineProbeReply (p : Nat) (w : TwineFrame)
  /-- PROBE_TIMEOUT (R273). -/
  | probeTimeout (job rail : Nat)
  /-- PIECE_LOST (R293). -/
  | pieceLost (job b rail : Nat)
  /-- RING_CONTRIB (R296). -/
  | ringContrib (job : Nat) (r : RingMsg)
  /-- BUCKET_SEND (R283). -/
  | bucketSend (job b : Nat)
  /-- BUCKET_LATE (R298). -/
  | bucketLate (job b : Nat)
  /-- OWNER_REPORT (R301). -/
  | ownerReport (job : Nat) (r : OwnerRpt)
  /-- VERDICT (R301). -/
  | verdict (job : Nat) (m : VerdictMsg)
  /-- WORKING_COPY_SHARD (R289). -/
  | workingCopyShard (job b owner : Nat) (data : List (BitVec 8))
  /-- PUBLISH (R302). -/
  | publish (job step rnd : Nat)
  /-- PUBLISH_APPLY (R161). -/
  | publishApply (job : Nat)
  /-- STEP_LEDGER (R303). -/
  | stepLedger (job : Nat) (e : LedgerEntry)
  /-- MEMBER_SILENCE (R300). -/
  | memberSilence (job member : Nat)
  /-- LEARNING_STEP_START (R278). -/
  | learningStepStart (handle : Nat)
  /-- PEER_SHARD_REQUEST (R180). -/
  | peerShardRequest (q : ShardReq)
  /-- BUILD_SHARD_FETCHED (R179). -/
  | buildShardFetched (sid : Nat) (r : ShardIn)
  /-- PEER_SHARD_TIMEOUT (R179). -/
  | peerShardTimeout (sid : Nat)
  /-- CARRY_CHECK (R189): the weaver, and the new generation on which its probe courses ran. -/
  | carryCheck (handle gen : Nat)
  /-- WEAVER_SHARD_FETCHED (R135). -/
  | weaverShardFetched (handle : Nat) (readOk : Bool)
  /-- FRAME_FILL_DONE (R214). -/
  | frameFillDone (fr : Nat)
  /-- PROMOTION_DONE (R214). -/
  | promotionDone (fr : Nat)
  /-- EVICTION_DONE (R231). -/
  | evictionDone (fr : Nat)
  /-- FRAME_ZERO_DONE (R217). -/
  | frameZeroDone (fr : Nat)
  /-- CLEANING_PASS_DONE (R230). -/
  | cleaningPassDone (fr : Nat)
  /-- WEAVER_REMOVE_COMPLETE (R135). -/
  | weaverRemoveComplete (handle : Nat)
  /-- PATROL_SCRUB (R268). -/
  | patrolScrub (die : Nat) (hits : List LineHit)
  /-- HBM_UNCORRECTABLE (R237). -/
  | hbmUncorrectable (fr line : Nat) (errs : List (Nat × Nat))
  /-- SLOW_TIER_POISON (R237). -/
  | slowTierPoison (fr granule : Nat)
  /-- REPAIR_SOURCE_TIMEOUT (R238). -/
  | repairSourceTimeout (fr granule : Nat)
  /-- REPAIR_DONE (R238). -/
  | repairDone (fr granule : Nat) (data : List (BitVec 8))
  /-- POISON_HOLD_EXPIRY (R239). -/
  | poisonHoldExpiry (cid : Nat)
  /-- CELL_FAILURE (R84). -/
  | cellFailure (lc : Nat)
  /-- SPARE_LOAD_DONE (R85). -/
  | spareLoadDone (lc : Nat)
  /-- CELL_SAVE_DONE (R78). -/
  | cellSaveDone (lc : Nat)
  /-- RESTORE_CHECK (R79). -/
  | restoreCheck (lc : Nat)
  /-- BANK_ZERO_DONE (R77). -/
  | bankZeroDone (lc : Nat)
  /-- FLIT_REPLAY_FAIL (R427). -/
  | flitReplayFail (warp : Bool) (link : Nat)
  /-- LINK_RETRAIN_DONE (R427). -/
  | linkRetrainDone (warp : Bool) (link : Nat) (ok : Bool)
  /-- FABRIC_FAILED (R427). -/
  | fabricFailed (warp : Bool) (link : Nat)
  /-- SRAM_UNCORRECTABLE (R427). -/
  | sramUncorrectable (b : SramBlock) (u : Nat)
  /-- SLATH_ENGINE_FAULT (R427). -/
  | slathEngineFault (die eng : Nat)
  /-- MIGRATION_ENGINE_FAULT (R427). -/
  | migrationEngineFault (die : Nat)
  /-- COPY_ENGINE_FAULT (R427). -/
  | copyEngineFault (e : Nat)
  /-- FIRMWARE_WATCHDOG (R427). -/
  | firmwareWatchdog
  /-- LID_SELF_CHECK_FAIL (R427). -/
  | lidSelfCheckFail
  /-- LINK_DOWN (R427). -/
  | linkDown (cxl : Bool) (p sub : Nat)
  /-- CXL_IDE_LOSS (R414). -/
  | cxlIdeLoss (p : Nat)
  /-- CXL_IDE_RETURN (R414). -/
  | cxlIdeReturn (p : Nat)
  /-- ETH_FRAME_RECEIVE (R315). -/
  | ethFrameReceive (p sub : Nat) (e : EthFrame)
  /-- PFC_FRAME (R318). -/
  | pfcFrame (p prio : Nat) (xoff : Bool)
  /-- PFC_XON_SEND (R318). -/
  | pfcXonSend (p prio : Nat)
  /-- PAUSE_FRAME (R312). -/
  | pauseFrame (p : Nat)
  /-- MKA_FRAME (R315). -/
  | mkaFrame (p sub : Nat) (m : MkaEvent)
  /-- NEIGHBOR_SOLICITATION (R316). -/
  | neighborSolicitation (p addr : Nat)
  /-- ECHO_REQUEST (R316). -/
  | echoRequest (p : Nat) (v6 : Bool) (addr : Nat)
  /-- ARP_REQUEST (R316). -/
  | arpRequest (p addr : Nat)
  /-- ROCE_PACKET (R320). -/
  | rocePacket (p : Nat) (k : RocePkt)
  /-- CNP (R319). -/
  | cnp (qpn : Nat)
  /-- ROCE_RATE_RESTORE (R319). -/
  | roceRateRestore (qpn : Nat)
  /-- DESC_NOP (R349). -/
  | descNop (qpn : Nat) (d : BitVec 512)
  /-- COPY (R350). -/
  | copy (qpn : Nat) (d : BitVec 512)
  /-- COPY_BURST (R353). -/
  | copyBurst (qpn idx : Nat) (b : BurstIn)
  /-- SERVE (R351). -/
  | serve (qpn : Nat) (d : BitVec 512)
  /-- COURSE_COMPLETE (R162). -/
  | courseComplete (cid : Nat)
  /-- SEND (R355). -/
  | send (qpn : Nat) (d : BitVec 512)
  /-- SEND_WITH_IMMEDIATE (R355). -/
  | sendWithImmediate (qpn : Nat) (d : BitVec 512)
  /-- RDMA_WRITE (R355). -/
  | rdmaWrite (qpn : Nat) (d : BitVec 512)
  /-- RDMA_WRITE_WITH_IMMEDIATE (R355). -/
  | rdmaWriteWithImmediate (qpn : Nat) (d : BitVec 512)
  /-- RDMA_READ (R355). -/
  | rdmaRead (qpn : Nat) (d : BitVec 512)
  /-- RECV (R355). -/
  | recv (qpn : Nat) (d : BitVec 512)
  /-- PATH_FENCE_READ (R358). -/
  | pathFenceRead (qpn idx : Nat) (ok : Bool)
  /-- CQ_STALLED (R348). -/
  | cqStalled (qpn : Nat)
  /-- DL_DOWN (R363). -/
  | dlDown
  /-- BME_RESTORED (R363). -/
  | bmeRestored (fn : Nat)
  /-- FLR (R363). -/
  | flr (fn : Nat)
  /-- PERST_ASSERT (R450). -/
  | perstAssert
  /-- PCIE_HOT_RESET (R450). -/
  | pcieHotReset
  /-- WARM_RESET (R450). -/
  | warmReset (c : WCause)
  /-- LID_RESET (R451). -/
  | lidReset (c : LCause)
  /-- PWROK_CYCLE (R447). -/
  | pwrokCycle
  /-- VAON_POWER_ON (R449). -/
  | vaonPowerOn
  /-- DEVICE_READY (R449). -/
  | deviceReady
  /-- FW_FALLBACK (R389). -/
  | fwFallback
  /-- RAIL_DIP (R461). -/
  | railDip (rail mv : Nat)
  /-- DIP_RECOVERED (R461). -/
  | dipRecovered (rail : Nat)
  /-- DIP_TIMEOUT (R461). -/
  | dipTimeout (rail mv : Nat)
  /-- RAIL_UV_RESET (R462). -/
  | railUvReset (rail : Nat)
  /-- D3COLD_ENTRY (R459). -/
  | d3coldEntry
  /-- D3COLD_WINDOW_EXPIRY (R459). -/
  | d3coldWindowExpiry (crossed : List Nat)
  /-- MAIN_POWER_RETURN (R459). -/
  | mainPowerReturn
  /-- REFCLK_LOSS (R467). -/
  | refclkLoss
  /-- REFCLK_RESTORE (R467). -/
  | refclkRestore
  /-- CLOCK_LOOP_EVAL (R463). -/
  | clockLoopEval (m : PowerSample)
  /-- VRC_ACK_RELEASE (R480). -/
  | vrcAckRelease (d : Nat)
  /-- THERMAL_THROTTLE (R465). -/
  | thermalThrottle (d tj : Nat)
  /-- POWER_OVER_TDP (R465). -/
  | powerOverTdp (watts : Nat)
  /-- THERMAL_TRIP (R465). -/
  | thermalTrip (d tj : Nat)
  /-- BLK_IDLE_WAIT_END (R452). -/
  | blkIdleWaitEnd (timedOut : Bool)
  /-- BLOCK_RELEASE (R452). -/
  | blockRelease
  /-- SHELF_ENTRY (R457). -/
  | shelfEntry
  /-- SHELF_EXIT_READY (R457). -/
  | shelfExitReady
  /-- PMCSR_D3HOT (R458). -/
  | pmcsrD3hot
  /-- PMCSR_D0 (R458). -/
  | pmcsrD0
  /-- IDE_INSECURE (R411). -/
  | ideInsecure
  /-- JTAG_INSTRUCTION (R419). -/
  | jtagInstruction (boundary : Bool)
  /-- GET_MEASUREMENTS (R404). -/
  | getMeasurements (sess idx : Nat)
  /-- IDE_KM (R413). -/
  | ideKm (sess stream : Nat)
  /-- KEY_RELEASE (R410). -/
  | keyRelease (sess : Nat) (r : KeyRel)
  /-- KEY_REVOKE (R408). -/
  | keyRevoke (sess ctx : Nat)
  /-- CONSENT_SET (R408). -/
  | consentSet (sess ctx : Nat) (dbg prof : Bool)
  /-- OPERATOR_SET (R408). -/
  | operatorSet (sess digest : Nat)
  /-- POLICY_SET (R408). -/
  | policySet (sess : Nat) (cxlPlainOk : Bool)
  /-- DEBUG_UNLOCK (R419). -/
  | debugUnlock (sess : Nat)
  /-- REMOVAL_DRAIN (R415). -/
  | removalDrain (ctx : Nat)
  /-- FORCED_ABORT (R416). -/
  | forcedAbort (ctx : Nat)
  /-- KEY_ZEROISE_DONE (R415). -/
  | keyZeroiseDone (ctx : Nat)
  /-- CONTEXT_SCRUB_DONE (R415). -/
  | contextScrubDone (ctx : Nat)
  /-- DEV_CAPS (R378). -/
  | devCaps (ch : Nat)
  /-- DEVICE_RESET (R380). -/
  | deviceReset (ch : Nat)
  /-- PORT_ADDR_SET (R316). -/
  | portAddrSet (ch : Nat)
  /-- CHANNEL_ASSIGN (R368). -/
  | channelAssign (ch : Nat)
  /-- FW_STAGE (R389). -/
  | fwStage (ch : Nat)
  /-- FW_ACTIVATE (R389). -/
  | fwActivate (ch : Nat)
  /-- FW_QUERY (R380). -/
  | fwQuery (ch : Nat)
  /-- CTX_CREATE (R391). -/
  | ctxCreate (ch : Nat)
  /-- CTX_SET (R391). -/
  | ctxSet (ch : Nat)
  /-- CTX_QUERY (R381). -/
  | ctxQuery (ch : Nat)
  /-- CTX_REMOVE (R415). -/
  | ctxRemove (ch : Nat)
  /-- CTX_RESET (R397). -/
  | ctxReset (ch : Nat)
  /-- QP_BLOCK_ALLOC (R344). -/
  | qpBlockAlloc (ch : Nat)
  /-- QP_BLOCK_FREE (R344). -/
  | qpBlockFree (ch : Nat)
  /-- QP_CREATE (R344). -/
  | qpCreate (ch : Nat)
  /-- QP_DESTROY (R365). -/
  | qpDestroy (ch : Nat)
  /-- QP_QUERY (R382). -/
  | qpQuery (ch : Nat)
  /-- QP_REARM (R364). -/
  | qpRearm (ch : Nat)
  /-- QP_UNDELIVERED (R364). -/
  | qpUndelivered (ch : Nat)
  /-- QP_REDELIVER (R364). -/
  | qpRedeliver (ch : Nat)
  /-- EVENT_RING_SET (R360). -/
  | eventRingSet (ch : Nat)
  /-- APERTURE_BIND (R342). -/
  | apertureBind (ch : Nat)
  /-- APERTURE_UNBIND (R343). -/
  | apertureUnbind (ch : Nat)
  /-- MR_REGISTER (R355). -/
  | mrRegister (ch : Nat)
  /-- MR_DEREGISTER (R365). -/
  | mrDeregister (ch : Nat)
  /-- AH_SET (R382). -/
  | ahSet (ch : Nat)
  /-- WEAVER_REGISTER (R141). -/
  | weaverRegister (ch : Nat)
  /-- WEAVER_PREFETCH (R135). -/
  | weaverPrefetch (ch : Nat)
  /-- WEAVER_PIN (R142). -/
  | weaverPin (ch : Nat)
  /-- WEAVER_QUERY (R133). -/
  | weaverQuery (ch : Nat)
  /-- WEAVER_REMOVE (R142). -/
  | weaverRemove (ch : Nat)
  /-- SIDE_CLAIM (R151). -/
  | sideClaim (ch : Nat)
  /-- SIDE_RELEASE (R153). -/
  | sideRelease (ch : Nat)
  /-- SIDE_QUERY (R383). -/
  | sideQuery (ch : Nat)
  /-- STAKE_REGISTER (R166). -/
  | stakeRegister (ch : Nat)
  /-- STAKE_BUILD (R178). -/
  | stakeBuild (ch : Nat)
  /-- STAKE_COMMIT (R181). -/
  | stakeCommit (ch : Nat)
  /-- STAKE_ABORT (R177). -/
  | stakeAbort (ch : Nat)
  /-- STAKE_QUERY (R176). -/
  | stakeQuery (ch : Nat)
  /-- STAKE_EVICT (R195). -/
  | stakeEvict (ch : Nat)
  /-- STAKE_CARRY_QUERY (R191). -/
  | stakeCarryQuery (ch : Nat)
  /-- MEM_REGION_REGISTER (R206). -/
  | memRegionRegister (ch : Nat)
  /-- MEM_REGION_REMOVE (R206). -/
  | memRegionRemove (ch : Nat)
  /-- MEM_SLOW_CONFIG (R205). -/
  | memSlowConfig (ch : Nat)
  /-- MEM_MAP (R208). -/
  | memMap (ch : Nat)
  /-- MEM_UNMAP (R209). -/
  | memUnmap (ch : Nat)
  /-- MEM_QUOTA_SET (R222). -/
  | memQuotaSet (ch : Nat)
  /-- MEM_POLICY_SET (R226). -/
  | memPolicySet (ch : Nat)
  /-- MEM_EVICT (R218). -/
  | memEvict (ch : Nat)
  /-- MEM_PIN (R219). -/
  | memPin (ch : Nat)
  /-- MEM_FLUSH (R232). -/
  | memFlush (ch : Nat)
  /-- MEM_QUERY (R385). -/
  | memQuery (ch : Nat)
  /-- MEM_POISON_QUERY (R385). -/
  | memPoisonQuery (ch : Nat)
  /-- TRAIN_JOB_START (R273). -/
  | trainJobStart (ch : Nat)
  /-- TRAIN_JOB_STOP (R308). -/
  | trainJobStop (ch : Nat)
  /-- TRAIN_JOB_QUERY (R386). -/
  | trainJobQuery (ch : Nat)
  /-- TRAIN_FEEDBACK (R280). -/
  | trainFeedback (ch : Nat)
  /-- TRAIN_LEARN_POLICY (R278). -/
  | trainLearnPolicy (ch : Nat)
  /-- TWINE_PROBE (R308). -/
  | twineProbe (ch : Nat)
  /-- KEY_QUERY (R399). -/
  | keyQuery (ch : Nat)
  /-- DEBUG_REQUEST (R418). -/
  | debugRequest (ch : Nat)
  /-- DEBUG_RELEASE (R418). -/
  | debugRelease (ch : Nat)
  /-- FAULT_QUERY (R433). -/
  | faultQuery (ch : Nat)
  /-- JOURNAL_READ (R436). -/
  | journalRead (ch : Nat)
  /-- POWER_LIMIT_SET (R464). -/
  | powerLimitSet (ch : Nat)
  /-- POWER_STATE_SET (R456). -/
  | powerStateSet (ch : Nat)
  /-- POWER_QUERY (R388). -/
  | powerQuery (ch : Nat)
  /-- LINK_UP (R427). -/
  | linkUp (cxl : Bool) (p sub : Nat)
  /-- PERST_DEASSERT (R449). -/
  | perstDeassert
  /-- HOOP_RX_LOCK_CHANGE (R335). -/
  | hoopRxLockChange (locked : Bool)
  /-- KEY_EXCHANGE (R405). -/
  | keyExchange (doe mutAuth : Bool) (requester : Nat)
  /-- SPDM_HEARTBEAT_TIMEOUT (R405). -/
  | spdmHeartbeatTimeout (sess : Nat)
  /-- EVT_MOD_EXPIRY (R361). -/
  | evtModExpiry (fn ring : Nat)
  /-- ROCE_ACK_TIMEOUT (R320). -/
  | roceAckTimeout (qpn : Nat)
  /-- PCIE_COMPLETION_TIMEOUT (R354). -/
  | pcieCompletionTimeout (qpn idx : Nat) (fetch : Bool)
  /-- RESIDENCY_REPORT (R145). -/
  | residencyReport (dev : Nat) (r : ResReport)
  /-- CARRY_OUTCOME (R190). -/
  | carryOutcome (handle : Nat) (passed : Bool)
  /-- VRC_ACK_TIMEOUT (R480). -/
  | vrcAckTimeout (d : Nat)
  /-- VF_ENABLE (R339). -/
  | vfEnable (n : Nat)
  /-- ATS_INVALIDATION (R339). -/
  | atsInvalidation (addr len : Nat)
  /-- REQUEST_BUFFER_WRITE (R370). -/
  | requestBufferWrite (fn ch off : Nat) (wide : Bool) (v : BitVec 64)
  /-- UPSETT_IMAGE_STAGE (R83). -/
  | upsettImageStage (img : UpsettImage)
  deriving DecidableEq, Repr

end Sys2Proof
end

