-- ==== Sys2Proof/Machine/Flags.lean ====
section
/-! DEFINITION. The codes the device reports: status codes (R377 and the status tables of each chapter), fault codes (R426,
R468), fault classes (R423), journal block codes (R435), event types (R361), completion flags (R356) and activity classes (R34). -/

namespace Sys2Proof.Machine

/-- Status or fault code 0x0000. -/
abbrev St.ok : Nat := 0x0000
/-- Status or fault code 0x0001. -/
abbrev St.pending : Nat := 0x0001
/-- Status or fault code 0x0002. -/
abbrev St.partialEnd : Nat := 0x0002
/-- Status or fault code 0x0010. -/
abbrev St.unitAbsent : Nat := 0x0010
/-- Status or fault code 0x0011. -/
abbrev St.revoked : Nat := 0x0011
/-- Status or fault code 0x0012. -/
abbrev St.quotaExceeded : Nat := 0x0012
/-- Status or fault code 0x0013. -/
abbrev St.slotBusy : Nat := 0x0013
/-- Status or fault code 0x0014. -/
abbrev St.noSideSlot : Nat := 0x0014
/-- Status or fault code 0x0015. -/
abbrev St.parked : Nat := 0x0015
/-- Status or fault code 0x0016. -/
abbrev St.weightUnavailable : Nat := 0x0016
/-- Status or fault code 0x0017. -/
abbrev St.hostLost : Nat := 0x0017
/-- Status or fault code 0x0018. -/
abbrev St.staleGeneration : Nat := 0x0018
/-- Status or fault code 0x0019. -/
abbrev St.carryFailed : Nat := 0x0019
/-- Status or fault code 0x001A. -/
abbrev St.planViolation : Nat := 0x001A
/-- Status or fault code 0x001B. -/
abbrev St.consentRequired : Nat := 0x001B
/-- Status or fault code 0x0101. -/
abbrev St.opcodeUnknown : Nat := 0x0101
/-- Status or fault code 0x0102. -/
abbrev St.lengthInvalid : Nat := 0x0102
/-- Status or fault code 0x0103. -/
abbrev St.adminOnly : Nat := 0x0103
/-- Status or fault code 0x0104. -/
abbrev St.fieldInvalid : Nat := 0x0104
/-- Status or fault code 0x0105. -/
abbrev St.notOwner : Nat := 0x0105
/-- Status or fault code 0x0106. -/
abbrev St.fwImageInvalid : Nat := 0x0106
/-- Status or fault code 0x0107. -/
abbrev St.fwSvnRefused : Nat := 0x0107
/-- Status or fault code 0x0108. -/
abbrev St.fwStageIncomplete : Nat := 0x0108
/-- Status or fault code 0x0201. -/
abbrev St.ctxInvalid : Nat := 0x0201
/-- Status or fault code 0x0202. -/
abbrev St.ctxBusy : Nat := 0x0202
/-- Status or fault code 0x0203. -/
abbrev St.funcInvalid : Nat := 0x0203
/-- Status or fault code 0x0204. -/
abbrev St.contextReset : Nat := 0x0204
/-- Status or fault code 0x0205. -/
abbrev St.keySlotEmpty : Nat := 0x0205
/-- Status or fault code 0x0301. -/
abbrev St.qpInvalid : Nat := 0x0301
/-- Status or fault code 0x0302. -/
abbrev St.noQpBlock : Nat := 0x0302
/-- Status or fault code 0x0303. -/
abbrev St.qpState : Nat := 0x0303
/-- Status or fault code 0x0304. -/
abbrev St.descInvalid : Nat := 0x0304
/-- Status or fault code 0x0305. -/
abbrev St.hostFault : Nat := 0x0305
/-- Status or fault code 0x0306. -/
abbrev St.notPrivileged : Nat := 0x0306
/-- Status or fault code 0x0307. -/
abbrev St.apertureBusy : Nat := 0x0307
/-- Status or fault code 0x0308. -/
abbrev St.redeliveryGone : Nat := 0x0308
/-- Status or fault code 0x0309. -/
abbrev St.weaverUnknown : Nat := 0x0309
/-- Status or fault code 0x030A. -/
abbrev St.sessionInvalid : Nat := 0x030A
/-- Status or fault code 0x0901. -/
abbrev St.jobUnknown : Nat := 0x0901
/-- Status or fault code 0x0902. -/
abbrev St.deviceFault : Nat := 0x0902
/-- Status or fault code 0x0903. -/
abbrev St.engineFault : Nat := 0x0903
/-- Status or fault code 0x0904. -/
abbrev St.fwRestarted : Nat := 0x0904
/-- Status or fault code 0x0910. -/
abbrev St.cellFailed : Nat := 0x0910
/-- Status or fault code 0x0911. -/
abbrev St.spareShortage : Nat := 0x0911
/-- Status or fault code 0x0912. -/
abbrev St.restoreFailed : Nat := 0x0912
/-- Status or fault code 0x0913. -/
abbrev St.fabricRetrain : Nat := 0x0913
/-- Status or fault code 0x0914. -/
abbrev St.fabricFailed : Nat := 0x0914
/-- Status or fault code 0x0915. -/
abbrev St.hbmPoison : Nat := 0x0915
/-- Status or fault code 0x0916. -/
abbrev St.repairResult : Nat := 0x0916
/-- Status or fault code 0x0917. -/
abbrev St.roundOverrun : Nat := 0x0917
/-- Status or fault code 0x0918. -/
abbrev St.groupTiming : Nat := 0x0918
/-- Status or fault code 0x0919. -/
abbrev St.budgetRefused : Nat := 0x0919
/-- Status or fault code 0x091A. -/
abbrev St.sourceMoved : Nat := 0x091A
/-- Status or fault code 0x091B. -/
abbrev St.reduceEvent : Nat := 0x091B
/-- Status or fault code 0x091C. -/
abbrev St.firmwareEvent : Nat := 0x091C
/-- Status or fault code 0x091D. -/
abbrev St.forcedAbort : Nat := 0x091D
/-- Status or fault code 0x091E. -/
abbrev St.protection : Nat := 0x091E
/-- Status or fault code 0x091F. -/
abbrev St.undervolt : Nat := 0x091F
/-- Status or fault code 0x0920. -/
abbrev St.sramUncorrectable : Nat := 0x0920
/-- Status or fault code 0x0921. -/
abbrev St.linkDown : Nat := 0x0921
/-- Status or fault code 0x0922. -/
abbrev St.engineReset : Nat := 0x0922
/-- Status or fault code 0x0A01. -/
abbrev St.powerBusy : Nat := 0x0A01
/-- Status or fault code 0x0A02. -/
abbrev St.notActive : Nat := 0x0A02
/-- Status or fault code 0x0A03. -/
abbrev St.thermalTrip : Nat := 0x0A03
/-- Status or fault code 0x0A04. -/
abbrev St.domainReset : Nat := 0x0A04
/-- Status or fault code 0x0A05. -/
abbrev St.idleTimeout : Nat := 0x0A05
/-- Status or fault code 0x0A06. -/
abbrev St.refclkLost : Nat := 0x0A06
/-- Status or fault code 0x0801. -/
abbrev St.authorityMismatch : Nat := 0x0801
/-- Status or fault code 0x0802. -/
abbrev St.keyidInUse : Nat := 0x0802
/-- Status or fault code 0x0803. -/
abbrev St.measurementChanged : Nat := 0x0803
/-- Status or fault code 0x0804. -/
abbrev St.ideRequired : Nat := 0x0804
/-- Status or fault code 0x0805. -/
abbrev St.linkInsecure : Nat := 0x0805
/-- Status or fault code 0x0806. -/
abbrev St.grantUnknown : Nat := 0x0806
/-- Status or fault code 0x0807. -/
abbrev St.grantLimit : Nat := 0x0807
/-- Status or fault code 0x0808. -/
abbrev St.targetInvalid : Nat := 0x0808
/-- Status or fault code 0x0401. -/
abbrev St.handleInUse : Nat := 0x0401
/-- Status or fault code 0x0402. -/
abbrev St.packageInvalid : Nat := 0x0402
/-- Status or fault code 0x0403. -/
abbrev St.structMismatch : Nat := 0x0403
/-- Status or fault code 0x0404. -/
abbrev St.rankInvalid : Nat := 0x0404
/-- Status or fault code 0x0405. -/
abbrev St.weaverInUse : Nat := 0x0405
/-- Status or fault code 0x0406. -/
abbrev St.weaverRemoved : Nat := 0x0406
/-- Status or fault code 0x0407. -/
abbrev St.notMoeLayer : Nat := 0x0407
/-- Status or fault code 0x0408. -/
abbrev St.sideIncomplete : Nat := 0x0408
/-- Status or fault code 0x0409. -/
abbrev St.versionExhausted : Nat := 0x0409
/-- Status or fault code 0x0501. -/
abbrev St.stakeUnknown : Nat := 0x0501
/-- Status or fault code 0x0502. -/
abbrev St.genInvalid : Nat := 0x0502
/-- Status or fault code 0x0503. -/
abbrev St.stakeBusy : Nat := 0x0503
/-- Status or fault code 0x0504. -/
abbrev St.buildFailed : Nat := 0x0504
/-- Status or fault code 0x0505. -/
abbrev St.commitAborted : Nat := 0x0505
/-- Status or fault code 0x0506. -/
abbrev St.stakeNotResident : Nat := 0x0506
/-- Status or fault code 0x0507. -/
abbrev St.commonsQMissing : Nat := 0x0507
/-- Status or fault code 0x0508. -/
abbrev St.noSourceBudget : Nat := 0x0508
/-- Status or fault code 0x0509. -/
abbrev St.stakeInUse : Nat := 0x0509
/-- Status or fault code 0x0601. -/
abbrev St.addrInvalid : Nat := 0x0601
/-- Status or fault code 0x0602. -/
abbrev St.mapConflict : Nat := 0x0602
/-- Status or fault code 0x0603. -/
abbrev St.regionInvalid : Nat := 0x0603
/-- Status or fault code 0x0604. -/
abbrev St.quotaOvercommit : Nat := 0x0604
/-- Status or fault code 0x0605. -/
abbrev St.quotaBelowPinned : Nat := 0x0605
/-- Status or fault code 0x0606. -/
abbrev St.dataPoisoned : Nat := 0x0606
/-- Status or fault code 0x0701. -/
abbrev St.jobInvalid : Nat := 0x0701
/-- Status or fault code 0x0702. -/
abbrev St.weaverNotTrainable : Nat := 0x0702
/-- Status or fault code 0x0703. -/
abbrev St.jobBusy : Nat := 0x0703
/-- Status or fault code 0x0704. -/
abbrev St.reduceFailed : Nat := 0x0704
/-- Status or fault code 0x0705. -/
abbrev St.memberLost : Nat := 0x0705
/-- Status or fault code 0x0706. -/
abbrev St.ledgerMismatch : Nat := 0x0706
/-- Status or fault code 0x0707. -/
abbrev St.twineUnsupported : Nat := 0x0707
/-- Status or fault code 0x0708. -/
abbrev St.jobStopped : Nat := 0x0708
/-- Status or fault code 0x0709. -/
abbrev St.feedbackFull : Nat := 0x0709

/-- Fault classes (R423). -/
abbrev Cls.info : Nat := 0
abbrev Cls.recovered : Nat := 1
abbrev Cls.workEnded : Nat := 2
abbrev Cls.blockReset : Nat := 3
abbrev Cls.device : Nat := 4

/-- Journal BLOCK codes (R435). -/
abbrev Blk.cell : Nat := 0x01
abbrev Blk.warp : Nat := 0x02
abbrev Blk.weft : Nat := 0x03
abbrev Blk.hbm : Nat := 0x04
abbrev Blk.slath : Nat := 0x05
abbrev Blk.mig : Nat := 0x06
abbrev Blk.copy : Nat := 0x07
abbrev Blk.eth : Nat := 0x08
abbrev Blk.wale : Nat := 0x09
abbrev Blk.twine : Nat := 0x0A
abbrev Blk.hoop : Nat := 0x0B
abbrev Blk.round : Nat := 0x0C
abbrev Blk.cxl : Nat := 0x0D
abbrev Blk.pcie : Nat := 0x0E
abbrev Blk.border : Nat := 0x0F
abbrev Blk.lid : Nat := 0x10
abbrev Blk.power : Nat := 0x11
abbrev Blk.upsett : Nat := 0x12
abbrev Blk.plan : Nat := 0x13

/-- Event types (R361). -/
abbrev Ev.cqNotify : Nat := 1
abbrev Ev.qpError : Nat := 2
abbrev Ev.cqStalled : Nat := 3
abbrev Ev.hostLost : Nat := 4
abbrev Ev.mailboxDone : Nat := 5
abbrev Ev.fault : Nat := 6
abbrev Ev.contextRevoked : Nat := 7

/-- Completion record FLAGS (R356). -/
abbrev Fl.visAll : Nat := 1
abbrev Fl.parkedNonzero : Nat := 2
abbrev Fl.carried : Nat := 4
abbrev Fl.redelivered : Nat := 8
abbrev Fl.sessOpen : Nat := 16
abbrev Fl.imm : Nat := 32
abbrev Fl.phase : Nat := 128

/-- Activity classes (R34). -/
abbrev Act.serve : Nat := 0
abbrev Act.tune : Nat := 1
abbrev Act.update : Nat := 2
abbrev Act.migrate : Nat := 3
abbrev Act.swap : Nat := 4
abbrev Act.reduce : Nat := 5
abbrev Act.scrub : Nat := 6
abbrev Act.mgmt : Nat := 7

end Sys2Proof.Machine
end

