-- ==== Sys2Proof/Config.lean ====
section
/-! DEFINITION. What one part or one run fixes and the manual leaves open: opaque constants, which nothing can evaluate. -/

namespace Sys2Proof.Config

/-- A free natural number, applied to the counter `State.free`: one fresh value for every open choice. -/
opaque freeNat : Nat → Nat

/-- The AES-256 block encryption of the standard the manual names: key and block as numbers, byte 0 lowest. -/
opaque aes256 : Nat → Nat → Nat

/-- What AES-256-XTS, the standard the manual names, does to a 16-byte block under a key, for a data unit's number and a block of the unit: a
permutation of the blocks, as the pairs that it exchanges one after the other, which every permutation of a finite set can be given as. How
the two keys of the standard come from one key slot is not stated. -/
opaque xts : Nat → Nat → Nat → List (BitVec 128 × BitVec 128)

/-- AES-256-GCM, the standard the manual names, under a key of two blocks and an IV: byte `i` of the key stream, and the tag of authenticated
data and ciphertext (R324). -/
opaque gcmStream : Nat × Nat → Nat → Nat → BitVec 8
opaque gcmTag : Nat × Nat → Nat → List (BitVec 8) → List (BitVec 8) → Nat

/-- Whether a retrain of a sub-port is due at a round's boundary (R444): what the pre-FEC bit error ratio of its link asks for. -/
opaque retrainDue : Nat → Nat → Nat → Bool

/-- The SHA-384 digest of a byte string, as a number (R403, R404). -/
opaque sha384 : List Nat → Nat

/-- The digests of measurement blocks 1, 2 and 5 (R403): block index and, for the firmware, what names its image. -/
opaque measuredDigest : Nat → Nat → Nat

/-- The 64 bytes of measurement block 7 (R403), whose layout the manual does not give: of the anchor digest, CXL_PLAIN_OK, the link IDE
state and the MACsec state of each sub-port. -/
opaque policyBlock : Nat → Nat → Nat → Nat → Nat

/-- The device identity key, and the certificate chain that Utysil's certificate authority issued for it at manufacture (R406). -/
opaque identityKey : Nat
opaque identityChain : Nat

/-- The alias key that the identity key and the digests of measurement blocks 1 and 2 give, and its certificate, signed with the identity key
(R406). -/
opaque aliasKey : Nat → Nat → Nat → Nat
opaque aliasCert : Nat → Nat → Nat

/-- The ECDSA P-384 signature of a byte string under a key (R405, R406). -/
opaque sign : Nat → List Nat → Nat

/-- The 32 bytes of fuse state of measurement block 6 (R403). -/
opaque fuseState : Nat

/-- The fused voltage in mV that compute die `d` needs to run at `mhz` (R461, R463). -/
opaque vfVoltage : Nat → Nat → Nat

/-- The capacity in bytes of the expander behind CXL port `p` (R205). -/
opaque expanderBytes : Nat → Nat

/-- The firmware version word of a boot-flash bank as shipped: PATCH, MINOR, MAJOR from bit 0 up. -/
opaque shippedFw : Nat → Nat

/-- The security version of the firmware in a bank as shipped. -/
opaque shippedSvn : Nat → Nat

/-- The minimum firmware security version that the fuses hold (R389). -/
opaque minSvn : Nat

/-- Whether the Lid accepts the signature of the image of that CRC and length (R389). -/
opaque fwSignatureOk : Nat → Nat → Bool

/-- The security version of the staged image of that CRC (R389). -/
opaque fwSvn : Nat → Nat

/-- The version word of the staged image of that CRC (R389). -/
opaque fwVersion : Nat → Nat

/-- The link bytes of a report, a verdict and a PUBLISH announcement (R270, R301, R302), which the manual gives no size. -/
opaque reportBytes : Nat
opaque verdictBytes : Nat
opaque publishBytes : Nat

/-- The SEED that firmware's update commands carry (R277, R289): the manual names none. -/
opaque updateSeed : Nat

/-- What the connection of a RoCE queue pair fixes and no command names (R320): the code of its path MTU, 256 bytes doubled that often, and
its retry count. -/
opaque roceMtuCode : Nat → Nat
opaque roceRetries : Nat → Nat

/-- The failed cells that a power-on self-test finds, each named by its logical position (R87). -/
opaque selfTest : Nat → List Nat

/-- Whether the traffic of a course on these cells crosses a link of a warp, named by its die and number: the manual does not lay out the
warp's mesh. -/
opaque crossesWarp : Nat → List Nat → Bool

/-- The bytes of a RoCE packet on the wire beside its payload. -/
opaque roceOverhead : Nat

end Sys2Proof.Config
end

