-- ==== Sys2Proof/Machine/State.lean ====
section
/-! DEFINITION. The state of the GW960 as plain data, its faults and refusals, and the state after reset.
Sparse tables (`Tab`) list only what differs from the default that `Machine/Ops.lean` reads for an unlisted key.
A field that is the model's own and not the manual's says so. -/

namespace Sys2Proof.Machine

/-- Why the machine stops. -/
inductive Fault where
  /-- Raised by a command that names a unit, cell, port or register instance beyond the architecture's range (the address
  does not exist). Safe: the machine stops where the device has no such unit to act. -/
  | noSuchUnit
  deriving DecidableEq, Repr

/-- Why a command has no meaning. -/
inductive Refusal where
  /-- Raised by the dispatcher for a command that has no meaning yet. Safe: the machine stops. -/
  | notModelled (mnemonic : String)
  deriving DecidableEq, Repr

/-- The variants of the part (R2, R483). -/
inductive Variant where
  | t | s | c
  deriving DecidableEq, Repr

/-- An exact number of the datapath (R94, R95): NaN, a signed infinity, or sign, significand and binary exponent. -/
inductive FVal where
  | nan
  | inf (neg : Bool)
  | fin (neg : Bool) (man : Nat) (exp : Int)
  deriving DecidableEq, Repr

/-! ### The round and its budgets -/

/-- An amount in the three currencies (R35). -/
structure Cost where
  cc : Nat := 0
  hbm : Nat := 0
  link : Nat := 0
  deriving DecidableEq, Repr

/-- How a FOLLOWER stands to the hoop (R29). -/
inductive Lock where
  | locked | holdover | isolated
  deriving DecidableEq, Repr

/-- A tick asserted and not yet worked off by the boundary sequence: what a hoop frame makes the device adopt (R29, R337). -/
structure Tick where
  num   : Option Nat := none
  gtime : Option Nat := none
  len   : Option Nat := none
  deriving DecidableEq, Repr

structure Rnd where
  src      : Nat := 0
  active   : Nat := 0
  enable   : Bool := false
  holdMax  : Nat := 16
  lock     : Bool := false
  mode     : Lock := .locked
  holdCnt  : Nat := 0
  len      : Nat := 2
  lenEff   : Nat := 2
  lenDue   : List (Nat × Nat) := []
  awaitHoop : Bool := false
  srcDue   : Bool := false
  num      : Nat := 0
  overruns : Nat := 0
  overrunNow : Bool := false
  srcSwitch : Nat := 0
  numJump  : Nat := 0
  tick     : Option Tick := none
  hoopLen  : Nat := 2
  predicted : Option Nat := none
  undervolt : Bool := false
  gtime    : Nat := 0
  gtimeNext : Option Nat := none
  lidTimed : Bool := false
  refBack  : Bool := false
  weaverDecay : Nat := 0
  stakeDecay  : Nat := 0
  frameDecay  : Nat := 0
  deriving DecidableEq, Repr

structure WaitCnt where
  units    : Nat := 0
  rounds   : Nat := 0
  debtLost : Nat := 0
  deriving DecidableEq, Repr

/-- A unit refused admission and held for the next boundary (R39). -/
structure WaitUnit where
  unit : WorkUnit
  cls  : Nat
  cost : Cost
  deriving DecidableEq, Repr

/-- What moves bytes beside the courses' units: a frame's fill, move or cleaning pass (R214, R230), its zeroing (R217), the shard in turn of a
weaver's fetch (R135) or of a build (R179), a U command (R245), a HOSTOUT copy and a re-delivery (R353). -/
inductive MoveOf where
  | frame (f : Nat)
  | zero (f : Nat)
  | fetch (h : Nat)
  | build (sid : Nat)
  | ucmd (cid die : Nat)
  | rewrite (f line : Nat)
  | update (key b : Nat)
  | bucket (key b : Nat)
  | hostOut (qpn idx : Nat)
  | redeliver (qpn : Nat)
  deriving DecidableEq, Repr

/-- A move whose units are not all admitted (R39): its class, the currencies that its bytes cost, and the bytes that still wait, in units of
4 KiB. -/
structure Move where
  what  : MoveOf
  cls   : Nat
  hbm   : Bool := true
  link  : Bool := true
  bytes : Nat
  deriving DecidableEq, Repr

/-- `turned` names the units of the engines that were refused in this round: class, engine, and two numbers of the unit; they ask again
after the next boundary (R39). `moves` wait in the order in which they were started. -/
structure Bud where
  shadow : Tab Cost := []
  share  : Tab Cost := []
  tally  : Tab Cost := []
  final  : Tab Cost := []
  cap    : Cost := {}
  guard  : Cost := { cc := 32, hbm := 32, link := 32 }
  sumErr : Bool := false
  floorClamp : Nat := 0
  wait   : Tab WaitCnt := []
  refusedNow : List Nat := []
  turned : List (Nat × Nat × Nat × Nat) := []
  borrow : Option Cost := none
  isOpen : Bool := false
  queue  : List WaitUnit := []
  moves  : List Move := []
  deriving DecidableEq, Repr

/-! ### Cells -/

/-- A tray slot (R48, R61): format bit (true WA48I), LIVE bit, entry (m, n) at key 64 m + n. -/
structure Slot where
  fmtI    : Bool := true
  live    : Bool := false
  entries : Tab Entry := []
  deriving DecidableEq, Repr

/-- A vector register (R109). -/
structure VReg where
  live  : Bool := false
  elems : Tab Elem := []
  deriving DecidableEq, Repr

/-- A beat between its issue and its write (R60, R73): the 64 tree sums of one row of a slot. -/
structure Beat where
  slot  : Nat
  row   : Nat
  fmtI  : Bool
  sat   : Bool
  zero  : Bool
  sums  : List FVal
  deriving DecidableEq, Repr

/-- What a delivered PUT or a SIG adds to: an event counter of a cell, or a gate counter of a U list (R69, R246). -/
inductive SigTo where
  | cell (lc : Nat) (st : Strm) (evc : Nat)
  | gate (cid die gate : Nat)
  deriving DecidableEq, Repr

/-- An LDW between its issue and its data's arrival: event counter, bank address, bytes. -/
structure Load where
  evc   : Nat
  base  : Nat
  bytes : List Byte
  deriving DecidableEq, Repr

/-- An STW that HBM has not accepted: event counter, whether through the course view, addresses and bytes. -/
structure Store where
  evc   : Nat
  view  : Bool
  parts : List (Nat × List Byte)
  deriving DecidableEq, Repr

/-- A PUT that has not been delivered: the counter, the target address in bytes, and the bytes. -/
structure Put where
  tgt    : SigTo
  base  : Nat
  bytes : List Byte
  deriving DecidableEq, Repr

/-- One issue stream of a cell (R50, R70, R71): running block, program counter, idle buffer, counters, beats in flight. An `orphan` block
is one whose course has ended while it ran (R76). -/
structure StreamS where
  running : Bool := false
  blk     : Nat := 0
  off     : Nat := 0
  code    : List Word64 := []
  idle    : Option (Nat × List Word64) := none
  next    : Nat := 0
  evc     : Tab Nat := []
  beats   : List Beat := []
  ldws    : List Load := []
  stws    : List Store := []
  puts    : List Put := []
  synFrom : Option Nat := none
  cycles  : Nat := 0
  declared : Nat := 0
  orphan  : Bool := false
  deriving DecidableEq, Repr

/-- A cell save image (R78). -/
structure SaveImage where
  tag     : Nat := 0x09605A4E
  version : Nat := 1
  ctx     : Nat := 0
  lcell   : Nat := 0
  fsplit  : Nat := 16
  slots   : Tab Slot := []
  vregs   : Tab VReg := []
  rnd     : Nat := 0
  evcF    : Tab Nat := []
  evcB    : Tab Nat := []
  nextF   : Nat := 0
  nextB   : Nat := 0
  check   : Nat := 0
  deriving DecidableEq, Repr

/-- A cell (R48). `incoming` is the context that it changes to, `late` marks a change that waits for a running block (R76), `saving` is the
outgoing state on its way to the save area, `restore` an incoming image that awaits its check (R78, R79). -/
structure Cell where
  ctx      : Option Nat := none
  course   : Option Nat := none
  f        : StreamS := {}
  b        : StreamS := {}
  bank     : Tab Byte := []
  table    : Tab Byte := []
  slots    : Tab Slot := []
  vregs    : Tab VReg := []
  incoming : Option Nat := none
  late     : Bool := false
  saving   : Option SaveImage := none
  zeroing  : Bool := false
  restore  : Bool := false
  failRnd  : Option Nat := none
  cls      : Nat := 0
  deriving DecidableEq, Repr

/-- Upsett (R81 to R87): images, the binding of logical cells that differ from home, failed physical cells, spares in use,
cells fenced since the last boundary, cells whose spare is loading, logical cells left without a physical one; and the save areas (R78):
`areas` in the order in which each context's were laid out, `saved` those that hold an image. -/
structure Upsett where
  cur     : Option UpsettImage := none
  staged  : Option UpsettImage := none
  bind    : Tab Nat := []
  failed  : List Nat := []
  used    : List Nat := []
  fenced  : List Nat := []
  loading : List Nat := []
  lost    : List Nat := []
  areas   : List Nat := []
  saved   : List Nat := []
  deriving DecidableEq, Repr

/-! ### Course plans and courses -/

structure Block where
  words : List Word64
  cost  : Cost
  seg   : Nat
  deriving DecidableEq, Repr

structure CellPlan where
  lc     : Nat
  st     : Strm
  blocks : List Block
  deriving DecidableEq, Repr

/-- A window table entry (R233); `zero` is what stands in its reserved fields. -/
structure Window where
  va      : Nat
  len     : Nat
  cstride : Nat
  write   : Bool
  wrap    : Bool
  view    : Bool
  valid   : Bool
  zero    : Nat := 0
  deriving DecidableEq, Repr

/-- A U list (R247); `zero` is what stands in its header's reserved bytes. -/
structure UList where
  tag     : Nat
  version : Nat
  die     : Nat
  stageKb : Nat
  zero    : Nat := 0
  cmds    : List (BitVec 512)
  deriving DecidableEq, Repr

/-- What a page of the course view's upper part shows (R395, R486): a page of a row's own context, a frame of a segment's weaver, a frame from the
one on in which the weights of a segment's virtual expert begin (R150), or a frame of the commons Q weaver (R130). -/
inductive MapSrc where
  | page (row dva : Nat)
  | weaver (seg frame : Nat)
  | expert (seg layer j frame : Nat)
  | commonsQ (frame : Nat)
  deriving DecidableEq, Repr

/-- Where a bucket of a tuning plan set lies in its context's private space: the member's FP32 gradient, and for the owner's shard the
INT32 sums, the FP32 master copy and the optimizer state (R274, R281, R289). -/
structure BucketArea where
  grad   : Nat := 0
  sums   : Nat := 0
  master : Nat := 0
  opt    : Nat := 0
  deriving DecidableEq, Repr

/-- A course plan set as the device decodes it (the manual gives no byte layout for it). -/
structure Plan where
  cls      : Nat := 0
  image    : Nat := 0
  cells    : Nat := 0
  msds     : Nat := 0
  nseg     : Nat := 1
  multi    : Bool := false
  lead     : Nat := 0
  devices  : List Nat := []
  cellPlans : List CellPlan := []
  windows  : List (Nat × Window) := []
  ulists   : List UList := []
  tokens   : Nat := 1
  inRec    : Nat := 0
  outRec   : Nat := 0
  stLDown  : Nat := 0
  stLUp    : Nat := 0
  stQDown  : Nat := 0
  stQUp    : Nat := 0
  kch      : Nat := 0
  kcDown   : Nat := 32
  maps     : List (Nat × MapSrc) := []
  tensors  : List (Nat × Nat) := []
  seals    : List (Nat × Nat) := []
  areas    : List BucketArea := []
  deriving DecidableEq, Repr

/-- An accepted sequence (R351): descriptor fields, acceptance order, tokens produced, parked-round count, and
whether its row's context was taken away while its course ran. -/
structure Seq where
  qpn     : Nat
  idx     : Nat
  tag     : Nat
  ctx     : Nat
  handle  : Option Nat
  sid     : Nat
  session : Nat
  oneShot : Bool
  opens   : Bool
  closes  : Bool
  plan    : Nat
  inp     : Nat
  nin     : Nat
  maxtok  : Nat
  out     : Nat
  hostout : Nat
  fence   : Bool
  order   : Nat
  produced : Nat
  parked  : Nat
  parkRounds : Nat
  carried : Bool
  gone    : Bool
  deriving DecidableEq, Repr

/-- Seed record (R103). -/
structure Seed where
  ctxSeed : Nat := 0
  gen     : Nat := 0
  wver    : Nat := 0
  course  : Nat := 0
  deriving DecidableEq, Repr

/-- An active U list on a memory-side die (R247, R249); `asked` says that the units of its command in turn have been asked for, and
under which slot and context generation (R245, R400). -/
structure UState where
  cid   : Nat
  idx   : Nat := 0
  gates : Tab Nat := []
  stage : Tab Byte := []
  kb    : Nat := 1
  since : Nat := 0
  ended : Bool := false
  asked : Option (Nat × Nat) := none
  deriving DecidableEq, Repr

/-- An entry of a course's side map (R150, R151): a weaver's virtual expert in a layer, its side slot, and the slot's owner with the expert's index
and the version that it runs on. -/
structure SideRow where
  handle : Nat
  layer  : Nat
  j      : Nat
  slot   : Nat
  owner  : Nat
  ownerJ : Nat
  wver   : Nat
  deriving DecidableEq, Repr

/-- What a write of a course replaced: the bytes at an offset of a page, or of a frame of a result buffer (R175). -/
structure Undo where
  frame : Bool
  place : Nat
  off   : Nat
  old   : List Byte
  deriving DecidableEq, Repr

/-- A running course. Its checkpoint (`ck…`) names for each cell the image to restore, none where it is the one in the save area; `undo` keeps
what its writes since the checkpoint found, newest first. A probe course names the stake set and the new generation that it checks (R189). -/
structure Course where
  id       : Nat
  plan     : Plan
  ctx      : Nat
  sid      : Nat
  gen      : Nat
  rows     : List Seq
  segs     : List SegEntry
  seg      : Nat := 0
  segRnd   : Nat := 0
  segEnded : Bool := false
  committed : Nat := 0
  startRnd : Nat := 0
  lastRnd  : Nat := 0
  violated : Bool := false
  stopped  : Bool := false
  held     : Option (Nat × Nat × Nat) := none
  ended    : Option Nat := none
  finished : Bool := false
  cursors  : Tab Nat := []
  ckCursors : Tab Nat := []
  ckCells  : List (Nat × Option SaveImage) := []
  ckLists  : List (Nat × UState) := []
  undo     : List Undo := []
  seed     : Seed := {}
  pins     : List Nat := []
  ovf      : Tab Nat := []
  curFrame : Option Nat := none
  job      : Option (Nat × Nat) := none
  samples  : List Nat := []
  side     : List SideRow := []
  qver     : Nat := 0
  probe    : Option (Nat × Nat) := none
  deriving DecidableEq, Repr

/-- The numeric check that runs (R189): the new generation of a stake set, the weavers whose probes are packed together, the position of the next
probe course, and whether both courses of the pack are over, or have been turned away. -/
structure ProbeRun where
  sid    : Nat
  gen    : Nat
  pack   : List Nat
  pos    : Nat := 0
  ready  : Bool := false
  failed : Bool := false
  deriving DecidableEq, Repr

structure Courses where
  plans   : List ((Nat × Nat) × Plan) := []
  waiting : List Seq := []
  running : List Course := []
  nextId  : Nat := 1
  order   : Nat := 0
  tables  : List SegTable := []
  reports : List (Nat × ResReport) := []
  probe   : Option ProbeRun := none
  deriving DecidableEq, Repr

/-! ### Weavers -/

/-- What is owed to a WORK queue pair when a piece of long mailbox work ends (R352, R372). -/
structure Notice where
  qpn : Nat
  tag : Nat
  ctx : Nat
  deriving DecidableEq, Repr

inductive WState where
  | free | registered | fetching | resident | evicting | removing
  deriving DecidableEq, Repr

inductive Carry where
  | none | pending | passed | failed
  deriving DecidableEq, Repr

/-- A directory entry (R133) with the progress of a fetch or removal beside it; `copy` is the working copy that is published. -/
structure Weaver where
  ctx      : Nat := 0
  state    : WState := .free
  carry    : Carry := .none
  forms    : Nat := 0
  commons  : Bool := false
  trainable : Bool := false
  adminPin : Bool := false
  shareX   : Bool := false
  sid      : Nat := 0
  version  : Nat := 0
  nextVersion : Nat := 0
  genBound : Nat := 0
  carryGen : Nat := 0
  rankL    : Nat := 0
  rankQ    : Nat := 0
  wfmt     : Nat := 0
  xcount   : Nat := 0
  heat     : Nat := 0
  lastRnd  : Nat := 0
  slow     : Nat := 0
  pkgPages : Nat := 0
  keySlot  : Nat := 0
  pkgCheck : Nat := 0
  structSig : Nat := 0
  nshard   : Nat := 0
  kcDown   : Nat := 32
  headPages : Nat := 1
  frames   : List Nat := []
  copy     : Nat := 0
  wantFetch : Bool := false
  shard    : Nat := 0
  retried  : Bool := false
  usableFrom : Nat := 0
  removers : List Notice := []
  carrySum : Nat := 0
  carryMax : Nat := 0
  training : Bool := false
  byCarry  : Bool := false
  burst    : Option Nat := none
  xparts   : List (Nat × Nat × Nat) := []
  refs     : List Nat := []
  deriving DecidableEq, Repr

/-- A side slot (R150 to R153), keyed 16 × layer + slot. -/
structure SideSlot where
  owned    : Bool := false
  owner    : Nat := 0
  j        : Nat := 0
  share    : Bool := false
  sharers  : List (Nat × Nat) := []
  joining  : List (Nat × Nat) := []
  leaving  : List (Nat × Nat) := []
  releasing : Option Nat := none
  boundRnd : Nat := 0
  deriving DecidableEq, Repr

/-- A session (R158, R351), keyed 2^32 × context + number; `accepted` and the two fields after `pos` say how it will stand after
every accepted descriptor, `cut` that it ended with its weaver's removal (R135). -/
structure Session where
  isOpen  : Bool := false
  accepted : Bool := false
  handle  : Option Nat := none
  sid     : Nat := 0
  gen     : Nat := 0
  parked  : Bool := false
  pos     : Nat := 0
  accHandle : Option Nat := none
  accSid  : Nat := 0
  cut     : Bool := false
  deriving DecidableEq, Repr

structure Weav where
  dir      : Tab Weaver := []
  side     : Tab SideSlot := []
  sessions : Tab Session := []
  deriving DecidableEq, Repr

/-! ### Stake sets -/

/-- A layer table entry (R170). -/
structure Layer where
  kind  : Nat
  sets  : Nat
  e     : Nat
  topk  : Nat
  width : Nat
  deriving DecidableEq, Repr

/-- A section of an image part (R171). -/
structure Section where
  layer  : Nat
  kind   : Nat
  mat    : Nat
  expert : Nat
  fmt    : Nat
  split  : Nat
  zero   : Nat := 0
  k      : Nat
  n      : Nat
  offset : Nat
  length : Nat
  deriving DecidableEq, Repr

inductive GState where
  | absent | building | ready | current | isOpen | closed | freeing
  deriving DecidableEq, Repr

/-- A generation slot (R176) with what its build and freeing need. -/
structure Gen where
  gen       : Nat := 0
  state     : GState := .absent
  structSig : Nat := 0
  done      : Nat := 0
  closeRnd  : Nat := 0
  imgPages  : Nat := 0
  nshard    : Nat := 0
  part      : Nat := 0
  parts     : Nat := 1
  layers    : List Layer := []
  sections  : List Section := []
  frames    : List Nat := []
  qSel      : Bool := false
  commonsQ  : Nat := 0
  checkMode : Nat := 0
  agreeMin  : Nat := 0
  divMax    : Nat := 0
  image     : Nat := 0
  mirror    : Nat := 0
  host      : Nat := 0
  peers     : List Nat := []
  failed    : Bool := false
  restores  : Bool := false
  deriving DecidableEq, Repr

/-- A build in progress (R179): generation slot, shard and source in turn, round of the request. -/
structure Build where
  slot   : Nat
  shard  : Nat
  source : Nat
  since  : Nat
  note   : Notice
  burst  : Option Nat := none
  deriving DecidableEq, Repr

/-- An accepted STAKE_COMMIT (R181, R182). -/
structure Commit where
  gen    : Nat
  c      : Nat
  openRounds : Nat
  ready  : List Nat
  go     : Bool
  late   : Bool
  note   : Notice
  deriving DecidableEq, Repr

/-- A registered stake set (R166); `tables` are the leaf frames of its generation slots' page tables (R207). -/
structure Stake where
  reg       : Bool := false
  keySlot   : Nat := 0
  autoEvict : Bool := false
  use       : Nat := 0
  lastRnd   : Nat := 0
  nonresident : Bool := false
  lastCurrent : Nat := 0
  maxStamp  : Nat := 0
  gens      : Tab Gen := []
  build     : Option Build := none
  commit    : Option Commit := none
  evictNotes : List Notice := []
  tables    : List (Nat × Nat) := []
  deriving DecidableEq, Repr

/-! ### Memory -/

inductive Tier where
  | t1 | t2 | zero
  deriving DecidableEq, Repr

/-- A page table entry (R208), keyed 2^25 × context + page; `held` is the context's holding of R218. -/
structure Pte where
  valid   : Bool := false
  tier    : Tier := .zero
  ro      : Bool := false
  shared  : Bool := false
  movable : Bool := false
  backed  : Bool := false
  poison  : Bool := false
  kind    : Nat := 0
  stack   : Nat := 15
  heat    : Nat := 0
  frame   : Nat := 0
  sda     : Nat := 0
  held    : Bool := false
  epins   : List Nat := []
  sharedOf : Option Nat := none
  unmapDue : Bool := false
  deriving DecidableEq, Repr

inductive FState where
  | free | filling | resident | dirty | evicting | promoting | demoting
  deriving DecidableEq, Repr

/-- A frame table entry (R211). `zeroing` marks a frame whose content has left and which is being zeroed (R217);
`coursePins` and `fixedPins` with the explicit pins make up PINS (R219), HOLDERS are counted from what holds the frame (R218),
`fillFrom` is the source of a mapped fill, `pass` the granules that a cleaning pass has still to write (R230), `byHeat` the die chosen for the
page that a move of heat placement brings up (R227), `leftTo` the slow-tier page to which the content of a frame that is being zeroed has
gone (R216). -/
structure FrameE where
  state   : FState := .free
  kind    : Nat := 0
  commons : Bool := false
  backed  : Bool := false
  movable : Bool := false
  poison  : Bool := false
  defer   : Bool := false
  stakeKey : Bool := false
  ctx     : Nat := 0
  key     : Nat := 0
  coursePins : Nat := 0
  fixedPins : Nat := 0
  heat    : Nat := 0
  page    : Nat := 0
  mapped  : Bool := false
  dirty   : Nat := 0
  back    : Nat := 0
  lastRnd : Nat := 0
  zeroing : Bool := false
  cleaning : Bool := false
  pass    : Nat := 0
  byHeat  : Option Nat := none
  leftTo  : Option Nat := none
  fillFrom : Option Nat := none
  burst   : Option Nat := none
  deriving DecidableEq, Repr

structure Region where
  reg  : Bool := false
  base : Nat := 0
  len  : Nat := 0
  ro   : Bool := false
  deriving DecidableEq, Repr

structure Pool where
  ways : Nat
  map  : List Nat
  base : List Nat
  deriving DecidableEq, Repr

/-- Heat placement bounds (R226) and the POLICY_LIMITED counts of an account (R227, R385). -/
structure Policy where
  placeEn : Bool := true
  thr     : Nat := 64
  hyst    : Nat := 16
  moves   : Nat := 8
  limQuota : Nat := 0
  limMoves : Nat := 0
  limBudget : Nat := 0
  limSpace : Nat := 0
  deriving DecidableEq, Repr

structure Account where
  q1   : Nat := 0
  q2   : Nat := 0
  next : Option (Nat × Nat) := none
  pol  : Policy := {}
  deriving DecidableEq, Repr

/-- What waits for frames (R222): a page of a context, by its page-table key; a save area's frame; a weaver's fetch; a build; a mailbox
command on its channel. -/
inductive WaitFor where
  | page (k : Nat)
  | save (ctx lc : Nat)
  | fetch (h : Nat)
  | build (sid : Nat)
  | cmd (ch : Nat)
  deriving DecidableEq, Repr

/-- A waiting allocation (R208, R222): `past` once a boundary has counted every candidate without finding room, `short` while only FREE
frames lack. -/
structure AllocWait where
  what  : WaitFor
  past  : Bool := false
  short : Bool := false
  deriving DecidableEq, Repr

/-- A deferred eviction request (R216). -/
structure DeferReq where
  frame : Nat
  ctx   : Nat
  page  : Nat
  note  : Notice
  deriving DecidableEq, Repr

structure Repair where
  frame   : Nat
  granule : Nat
  source  : Nat
  since   : Nat
  detected : Nat
  back    : Option Nat
  failed  : Bool
  rnd     : Nat
  deriving DecidableEq, Repr

inductive MemWorkKind where
  | unmap | flush | evict
  deriving DecidableEq, Repr

/-- A long memory command in progress (R209, R218, R232). -/
structure MemWork where
  kind  : MemWorkKind
  ctx   : Nat
  page  : Nat
  pages : Nat
  note  : Notice
  deriving DecidableEq, Repr

structure MigCnt where
  promoted : Nat := 0
  demoted  : Nat := 0
  evicted  : Nat := 0
  deferred : Nat := 0
  limQuota : Nat := 0
  limMoves : Nat := 0
  limBudget : Nat := 0
  limSpace : Nat := 0
  detected : Nat := 0
  repaired : Nat := 0
  failed   : Nat := 0
  deriving DecidableEq, Repr

structure Mem where
  hbm     : Tab Byte := []
  slow    : Tab Byte := []
  pte     : Tab Pte := []
  frames  : Tab FrameE := []
  leaves  : List (Nat × Nat) := []
  lines   : List (Nat × Nat) := []
  slowBad : List Nat := []
  marks   : List (Nat × Nat × Nat) := []
  scrubNext : Nat := 0
  regions : Tab Region := []
  pool    : Option Pool := none
  acct    : Tab Account := []
  heatShift : Nat := 8
  waits   : List AllocWait := []
  defers  : List DeferReq := []
  repairs : List Repair := []
  works   : List MemWork := []
  mig     : Tab MigCnt := []
  deriving DecidableEq, Repr

structure Msd where
  lists     : List UState := []
  done      : Nat := 0
  timeout   : Nat := 0
  viol      : Nat := 0
  corrected : Nat := 0
  uncorrected : Nat := 0
  tagErr    : Nat := 0
  stale     : Nat := 0
  noKey     : Nat := 0
  scrubEn   : Bool := true
  scrubUnit : Nat := 0
  passes    : Nat := 0
  disabled  : List Nat := []
  lastFail  : List (Nat × Nat) := []
  deriving DecidableEq, Repr

/-! ### Training -/

/-- A tuning job descriptor (R272). -/
structure JobDesc where
  handle : Nat := 0
  sgdm   : Bool := false
  resume : Bool := false
  keepState : Bool := false
  replay : Bool := false
  carry  : Bool := false
  sr     : Bool := false
  jobId  : Nat := 0
  nonce  : Nat := 0
  steps  : Nat := 1
  micro  : Nat := 1
  batch  : Nat := 1
  nsample : Nat := 1
  plan   : Nat := 0
  sched  : Nat := 0
  nsched : Nat := 1
  samples : Nat := 0
  ledger : Nat := 0
  nledger : Nat := 1
  stateSda : Nat := 0
  saveEvery : Nat := 0
  start  : Nat := 0
  members : Nat := 0
  member : Nat := 0
  m      : Nat := 1
  part   : Nat := 0
  npart  : Nat := 1
  head   : Nat := 1
  kInit  : Int := 0
  deadline : Nat := 1
  carryMax : Nat := 1
  checkEvery : Nat := 0
  bifMax    : Nat := 1
  maxLag : Nat := 0
  deriving DecidableEq, Repr

inductive BState where
  | isOpen | isSealed | late | sending | waiting | updating | closed
  deriving DecidableEq, Repr

/-- A bucket of a part (R281 to R301), keyed 4096 × part + bucket: a member's own part, and at the lead every part. `toSend` marks a
bucket whose attempt has not left yet, `wasLate` one that contributes zero, `carriedRun` the steps in a row that carried it. -/
structure Bucket where
  state    : BState := .isOpen
  k        : Int := 0
  e        : Option Int := none
  attempt  : Nat := 0
  toSend   : Bool := false
  asked    : Bool := false
  wasLate  : Bool := false
  carriedRun : Nat := 0
  sealedAt : Nat := 0
  sentRnd  : Nat := 0
  results  : List (Nat × List (BitVec 32)) := []
  ring     : List (Nat × List (BitVec 32)) := []
  lastRing : List (Nat × List (BitVec 32)) := []
  ringRails : List Nat := []
  ovf      : Bool := false
  exp      : Int := -128
  nfcnt    : Nat := 0
  lost     : List Nat := []
  bounced  : List Nat := []
  reported : Bool := false
  reports  : List OwnerRpt := []
  mismatch : Bool := false
  updated  : Bool := false
  shards   : List Nat := []
  mstat    : Nat := 0
  checkv   : Nat := 0
  verdict  : Nat := 2
  deriving DecidableEq, Repr

/-- A tuning job or a learning step (R272 to R302), keyed by JOB_ID. -/
structure Job where
  active   : Bool := false
  desc     : JobDesc := {}
  plan     : Plan := {}
  ctx      : Nat := 0
  note     : Option Notice := none
  nrail    : Nat := 12
  step     : Nat := 0
  published : Nat := 0
  lastVer  : Nat := 0
  buckets  : Tab Bucket := []
  ringRails : List Nat := []
  probing  : List Nat := []
  probeRnd : Nat := 0
  firstRnd : Option Nat := none
  heard    : List Nat := []
  leadHeard : Nat := 0
  pubRnd   : Option Nat := none
  pubLate  : Bool := false
  stopAfter : Bool := false
  redos    : Nat := 0
  lates    : Nat := 0
  mismatches : Nat := 0
  anyCarried : Bool := false
  seals    : Nat := 0
  clamped  : Nat := 0
  replayed : Option LedgerEntry := none
  pages    : List (Nat × Nat) := []
  learning : Bool := false
  microsDone : Nat := 0
  gen      : Nat := 0
  failed   : Option Nat := none
  arrived  : List (Nat × Nat × List Byte) := []
  deriving DecidableEq, Repr

/-- A feedback record (R279). -/
structure Feedback where
  wver   : Nat
  tokens : Nat
  ntok   : Nat
  nprompt : Nat
  weight : Nat
  deriving DecidableEq, Repr

structure Learn where
  enabled : Bool := false
  batch   : Nat := 0
  desc    : JobDesc := {}
  ctx     : Nat := 0
  queue   : List Feedback := []
  discarded : Nat := 0
  forming : List Feedback := []
  deriving DecidableEq, Repr

structure TwnCnt where
  contrib : Nat := 0
  result  : Nat := 0
  bounce  : Nat := 0
  lost    : Nat := 0
  staleKey : Nat := 0
  drop    : Nat := 0
  deriving DecidableEq, Repr

structure Train where
  jobs  : Tab Job := []
  learn : Tab Learn := []
  twn   : Tab TwnCnt := []
  probe : Option (Nat × Nat × Nat) := none
  deriving DecidableEq, Repr

/-! ### Ports, Wale and the hoop -/

structure Port where
  mode    : Nat := 0
  enable  : Bool := false
  modeEff : Nat := 0
  vid     : Nat := 1
  lock    : Bool := false
  tcMgmt  : Nat := 6
  tcTwine : Nat := 5
  tcBulk  : Nat := 4
  tcRoce  : Nat := 3
  tcOther : Nat := 0
  pfcEn   : Nat := 0x78
  linkUp  : Nat := 0
  macsecUp : Nat := 0
  rxDrop  : Nat := 0
  macsecDrop : Nat := 0
  xoffTx  : Nat := 0
  xoffRx  : Nat := 0
  retx    : Nat := 0
  flowFail : Nat := 0
  sealDrop : Nat := 0
  adaptEn : Bool := true
  retrainMax : Nat := 4
  retrains : Nat := 0
  ipv6    : Nat := 0
  ipv4    : Nat := 0
  v4valid : Bool := false
  nextHop : Nat := 0
  caks    : List (Nat × Nat × Nat) := []
  oldSa   : List Nat := []
  paused  : List Nat := []
  xoffSent : List Nat := []
  rxUsed  : Tab Nat := []
  /-- adaptive retrains of each sub-port: a span of 65,536 rounds and those made in it (R444) -/
  eqSpan  : Tab (Nat × Nat) := []
  deriving DecidableEq, Repr

inductive FlowState where
  | closed | opening | isOpen | retry
  deriving DecidableEq, Repr

/-- A message a flow is sending (R325): its number, its bytes, and the PSN of its first packet. -/
structure WMsg where
  id    : Nat
  bytes : List Byte
  psn   : Nat
  deriving DecidableEq, Repr

/-- A Wale flow (R322 to R327), keyed by the local queue pair. `queued` is the PSN after the last packet of its messages. -/
structure Flow where
  state   : FlowState := .closed
  ctx     : Nat := 0
  peerQpn : Nat := 0
  port    : Nat := 0
  cls     : Nat := 7
  opener  : Bool := false
  nonceL  : Nat := 0
  nonceR  : Nat := 0
  keyId   : Nat := 0
  sealKey : Nat × Nat := (0, 0)
  sndNext : Nat := 0
  sndUna  : Nat := 0
  queued  : Nat := 0
  window  : Nat := 256
  resends : Nat := 0
  msgs    : List WMsg := []
  nextMsg : Nat := 0
  rcvNext : Nat := 0
  rcvUnack : Nat := 0
  nakSent : Bool := false
  rcvCe   : Bool := false
  rcvBuf  : Tab Byte := []
  rcvLen  : Nat := 0
  rcvDone : List (Nat × List Byte) := []
  deriving DecidableEq, Repr

structure Hoop where
  pos     : Nat := 0
  ndev    : Nat := 0
  join    : Bool := false
  bypReq  : Bool := false
  joined  : Bool := false
  tAlign  : Nat := 2000
  lock    : Bool := false
  bypassed : Bool := true
  rxLock  : Bool := false
  cause   : Nat := 1
  lastPos : Nat := 0
  present : Nat := 0
  presentNow : Nat := 0
  loopErr : Int := 0
  path    : Tab Nat := []
  crcErr  : Nat := 0
  late    : Nat := 0
  msgDrop : Nat := 0
  hopDrop : Nat := 0
  origin  : Option Nat := none
  validRun : Nat := 0
  tickSince : Bool := false
  sent    : Nat := 0
  deriving DecidableEq, Repr

/-! ### Host interface -/

/-- A completion record (R356). -/
structure Rec where
  status   : Nat := 0
  flags    : Nat := 0
  progress : Nat := 0
  rnd      : Nat := 0
  gen      : Nat := 0
  wver     : Nat := 0
  ctx      : Nat := 0
  tag      : Nat := 0
  deriving DecidableEq, Repr

/-- An event record (R361). -/
structure EvRec where
  etype  : Nat
  flags  : Nat
  ctx    : Nat
  obj    : Nat
  rnd    : Nat
  status : Nat
  detail : Nat
  deriving DecidableEq, Repr

structure Ring where
  set    : Bool := false
  base   : Nat := 0
  log    : Nat := 6
  vector : Nat := 0
  modUs  : Nat := 0
  head   : Nat := 0
  tail   : Nat := 0
  modRun : Bool := false
  owed   : Bool := false
  overflow : Bool := false
  deriving DecidableEq, Repr

structure Fn where
  bme     : Bool := false
  rings   : Tab Ring := []
  dbDrop  : Nat := 0
  lost    : Nat := 0
  store   : List (Nat × EvRec) := []
  lostQps : Option Nat := none
  deriving DecidableEq, Repr

inductive QState where
  | free | active | hostLost | error | revoked
  deriving DecidableEq, Repr

/-- The HOSTOUT copy of a sequence that has ended, and the record that waits for it (R351). -/
structure OutCopy where
  record : Rec
  src : Nat
  dst : Nat
  len : Nat
  deriving DecidableEq, Repr

/-- A descriptor that has been fetched and has not completed: bytes done, whether its engine has begun it, the status it ends with once
it may start, a HOSTOUT copy, and a record that waits for flushing reads. -/
structure DescS where
  idx    : Nat
  raw    : BitVec 512
  gen    : Nat := 0
  done   : Nat := 0
  started : Bool := false
  ends   : Option Nat := none
  copy   : Option OutCopy := none
  held   : Option Rec := none
  deriving DecidableEq, Repr

/-- A queue pair (R344 to R348). `und` are the indices of the records in its shadow ring that
are not delivered, `recvs` the fetched entries of its RQ, with indices from 2^32 on; the RoCE sending rate is
`rate` / (8 × 2^`halvings`) of the port rate (R319). -/
structure Qp where
  state   : QState := .free
  ctx     : Nat := 0
  typ     : Nat := 0
  cls     : Nat := 0
  logSq   : Nat := 6
  logCq   : Nat := 6
  logRq   : Nat := 6
  ring    : Nat := 0
  ats     : Bool := false
  port    : Nat := 0
  sub     : Nat := 0
  sqBase  : Nat := 0
  cqBase  : Nat := 0
  rqBase  : Nat := 0
  fetched : Nat := 0
  sqTail  : Nat := 0
  cqHead  : Nat := 0
  cqTail  : Nat := 0
  rqTail  : Nat := 0
  rqHead  : Nat := 0
  arm     : Bool := false
  held    : List Rec := []
  fullSince : Option Nat := none
  stalled : Bool := false
  descs   : List DescS := []
  recvs   : List DescS := []
  shadow  : Tab Rec := []
  copies  : List (Nat × BitVec 512) := []
  und     : List Nat := []
  destroy : Option Notice := none
  redeliver : Option (Notice × Nat) := none
  shadowFrames : List Nat := []
  rate    : Nat := 8
  halvings : Nat := 0
  psn     : Nat := 0
  epsn    : Nat := 0
  retries : Nat := 0
  cnpSent : Bool := false
  deriving DecidableEq, Repr

structure Aper where
  bound : Bool := false
  ctx   : Nat := 0
  dva   : Nat := 0
  len   : Nat := 0
  ro    : Bool := false
  cls   : Nat := 7
  rid   : Option Nat := none
  unbind : Option Notice := none
  deriving DecidableEq, Repr

structure Mr where
  set   : Bool := false
  tag   : Nat := 0
  ctx   : Nat := 0
  dva   : Nat := 0
  len   : Nat := 0
  rights : Nat := 0
  dereg : Option Notice := none
  deriving DecidableEq, Repr

/-- A RoCE address handle of a context, keyed 65,536 × context + index. -/
structure Ah where
  set  : Bool := false
  port : Nat := 0
  sub  : Nat := 0
  ip   : Nat := 0
  mac  : Nat := 0
  deriving DecidableEq, Repr

structure CeCnt where
  faults : Nat := 0
  stale  : Nat := 0
  deriving DecidableEq, Repr

structure HostIf where
  numVf   : Nat := 0
  linkUp  : Bool := true
  losses  : Nat := 0
  fns     : Tab Fn := []
  barLog  : Nat := 30
  apers   : Tab Aper := []
  refused : Nat := 0
  blocks  : Tab Nat := []
  qps     : Tab Qp := []
  flows   : Tab Flow := []
  ce      : Tab CeCnt := []
  mrs     : Tab Mr := []
  ahs     : Tab Ah := []
  ats     : List Nat := []
  /-- contexts whose function has been reset and whose work ends at the next boundary (R363) -/
  flrCut  : List Nat := []
  deriving DecidableEq, Repr

/-! ### Mailbox, contexts, keys and the Lid -/

structure Chan where
  ctx      : Nat := 0
  func     : Nat := 0
  assigned : Bool := false
  state    : Nat := 0
  seq      : Nat := 0
  goSeq    : Nat := 0
  drops    : Nat := 0
  accept   : Nat := 0
  discard  : Bool := false
  req      : Tab Byte := []
  rsp      : Tab Byte := []
  deriving DecidableEq, Repr

structure Mbox where
  chans  : Tab Chan := []
  number : Nat := 0
  deriving DecidableEq, Repr

inductive CState where
  | free | created | active | revoking | scrubbing | resetting
  deriving DecidableEq, Repr

/-- Why a removal runs, and who is told at its end (R415). -/
inductive RemovalWhy where
  | remove (n : Notice) | revoke | lid
  deriving DecidableEq, Repr

structure Ctx where
  state   : CState := .free
  func    : Nat := 0
  seed    : Nat := 0
  fsplit  : Nat := 16
  parkMax : Nat := 64
  auth    : Option Nat := none
  dbg     : Bool := false
  prof    : Bool := false
  hostWindow : Bool := false
  requireIde : Bool := false
  denyRoce : Bool := false
  why     : Option RemovalWhy := none
  since   : Nat := 0
  scrubbed : Nat := 0
  unmapped : Bool := false
  reset   : Option Notice := none
  deriving DecidableEq, Repr

inductive KState where
  | empty | live | revoked | zeroising
  deriving DecidableEq, Repr

structure KeySlot where
  state  : KState := .empty
  gen    : Nat := 0
  keyId  : Nat := 0
  key    : Nat := 0
  deriving DecidableEq, Repr

structure Grant where
  id   : Nat
  ctx  : Nat
  dbg  : Bool
  prof : Bool
  deriving DecidableEq, Repr

structure Sess where
  isOpen : Bool := false
  doe    : Bool := true
  who    : Nat := 0
  mutAuth : Bool := false
  deriving DecidableEq, Repr

structure Lid where
  ready    : Bool := false
  anchor   : Option Nat := none
  plainOk  : Bool := false
  jtag     : Bool := false
  linkIde  : Bool := false
  ideStreams : List Nat := []
  sess     : Tab Sess := []
  grants   : List Grant := []
  nextGrant : Nat := 1
  measGen  : Nat := 0
  released : Nat := 0
  refused  : Nat := 0
  revoked  : Nat := 0
  forced   : Nat := 0
  lastCtx  : Nat := 0
  tenant   : Tab KeySlot := []
  stake    : Tab KeySlot := []
  devKey   : Nat := 0
  warmGens : Nat := 0
  cxlIde   : List Nat := []
  cert0    : Nat := Config.identityChain
  cert1    : Nat := 0
  aliasId  : Nat := 0
  /-- the management sideband's straps as sampled: I3C or SMBus, and the static address (R473) -/
  mgmtI3c  : Bool := false
  mgmtAddr : Nat := 0x60
  deriving DecidableEq, Repr

/-! ### Faults, power and reset -/

/-- A fault journal entry (R435), without SEQ and CHECK, which its place and its bytes give. -/
structure JEntry where
  seq  : Nat := 0
  rnd  : Nat := 0
  code : Nat := 0
  cls  : Nat := 0
  blk  : Nat := 0
  unit : Nat := 0
  ctx  : Nat := 0
  tag  : Nat := 0
  progress : Nat := 0
  gen  : Nat := 0
  detail : Nat := 0
  deriving DecidableEq, Repr

/-- A job summary (R434): kind 0 descriptor, 1 course, 2 job. -/
structure Summary where
  tag  : Nat
  ctx  : Nat
  kind : Nat
  status : Nat
  progress : Nat
  rnd  : Nat
  gen  : Nat
  deriving DecidableEq, Repr

/-- A warp or weft link that has stopped (R427): the retrains that have failed, and the round since which it waits for the next boundary. -/
structure StoppedLink where
  warp  : Bool
  link  : Nat
  fails : Nat := 0
  since : Option Nat := none
  deriving DecidableEq, Repr

structure Flt where
  head   : Nat := 0
  ring   : Tab JEntry := []
  nRec   : Nat := 0
  nWork  : Nat := 0
  nBlk   : Nat := 0
  nDev   : Nat := 0
  sel    : Nat := 0
  polClock : Nat := 0
  polPlace : Nat := 0
  polLink  : Nat := 0
  polTwine : Nat := 0
  polNow : List Nat := []
  halted : Bool := false
  code   : Nat := 0
  sums   : List Summary := []
  links  : List StoppedLink := []
  images : List (Nat × SaveImage) := []
  deriving DecidableEq, Repr

structure Clk where
  freq    : Nat := 1600
  vset    : Nat := 800
  stretch : Bool := false
  raiseTo : Option Nat := none
  prot    : Bool := false
  beforeDip : Nat := 1600
  deriving DecidableEq, Repr

structure Sup where
  meas   : Nat := 0
  below  : Bool := false
  stretch : Bool := false
  warn   : Nat := 0
  resets : Nat := 0
  deriving DecidableEq, Repr

inductive PState where
  | active | idleHold | shelf | d3hot | d3cold
  deriving DecidableEq, Repr

structure Pwr where
  state   : PState := .active
  target  : Option PState := none
  before  : PState := .active
  note    : Option Notice := none
  exitUp  : Bool := false
  /-- the round in which the transition that is under way was asked for (R456) -/
  since   : Option Nat := none
  cap     : Nat := 2100
  fmin    : Nat := 1000
  fmax    : Nat := 1800
  clk     : Tab Clk := []
  watts   : Nat := 0
  tjMax   : Nat := 0
  calm    : Nat := 0
  sup     : Tab Sup := []
  thermTrip : Bool := false
  crossed : List Nat := []
  deriving DecidableEq, Repr

/-- A block reset in progress (R452): idle wait, then reset until its release at a boundary after the round `since`. -/
structure BlkRst where
  sel    : Nat
  unit   : Nat
  reset  : Bool
  since  : Option Nat := none
  deriving DecidableEq, Repr

structure Rst where
  cls     : Nat := 0
  source  : Nat := 1
  wCount  : Nat := 0
  sel     : Nat := 0
  unit    : Nat := 0
  tmo     : Nat := 20
  resets  : Nat := 0
  timeouts : Nat := 0
  errCpl  : Nat := 0
  busy    : List BlkRst := []
  running : Bool := true
  perstLow : Bool := false
  devReset : Option Nat := none
  deriving DecidableEq, Repr

structure Fw where
  bank    : Nat := 0
  boot    : Nat := 0
  marked  : Bool := false
  ver     : Tab Nat := []
  crcs    : Tab Nat := []
  image   : Tab Byte := []
  covered : List (Nat × Nat) := []
  stagedVer : Nat := 0
  fallback : Bool := false
  deriving DecidableEq, Repr

/-- What R314 to R319 put around an outgoing frame: the next hop, the 802.1Q tag's VID and PCP, and whether its IP header is marked ECT(0). -/
structure FrameTag where
  mac : Nat
  vid : Nat
  pcp : Nat
  ect : Bool
  deriving DecidableEq, Repr

/-- What leaves the package: answers to reads, writes to the host, frames, messages and pins. The model's own record. -/
inductive Out where
  | readData (fn : Nat) (v : Nat)
  | record (qpn idx : Nat) (r : Rec)
  | event (fn ring idx : Nat) (e : EvRec)
  | msix (fn vector : Nat)
  | hostWrite (qpn addr : Nat) (bytes : List Byte)
  | aperRead (bytes : List Byte)
  | aperUnsupported
  | tickFrame (f : TickFrame)
  | mgmtFrame (f : MgmtFrame)
  | wale (port sub typ : Nat) (w : WalePkt) (tag : FrameTag)
  | waleDone (qpn msg status progress : Nat)
  | twine (port sub op tgt : Nat) (w : TwineFrame) (tag : FrameTag)
  | ringSend (job port tgt : Nat) (r : RingMsg)
  | ownerReport (job : Nat) (r : OwnerRpt)
  | verdict (job part : Nat) (m : VerdictMsg)
  | workShard (job b tgt : Nat) (bytes : List Byte)
  | publish (job step rnd : Nat)
  | ledger (job : Nat) (e : LedgerEntry)
  | shardReply (peer sid shard : Nat) (bytes : List Byte)
  | shardRefused (peer status : Nat)
  | shardAsk (sid shard source : Nat)
  | segTable (t : SegTable)
  | residency (lead : Nat) (r : ResReport)
  | eth (port kind : Nat) (tag : FrameTag)
  | pfc (port prio : Nat) (xoff : Bool)
  | roce (qpn port sub : Nat) (k : RocePkt) (tag : FrameTag)
  | spdm (sess msg status slot gen : Nat)
  | spdmError (sess : Option Nat)
  | measurements (sess idx : Nat) (bytes : List Nat) (signature : Nat)
  /-- KEY_EXCHANGE_RSP of a session, signed (R406). -/
  | keyExchange (sess signature : Nat)
  | vrc (frame : Nat)
  | jtag (permitted : Bool)
  | atsDone (addr : Nat)
  | carry (handle : Nat) (passed : Bool)
  deriving DecidableEq, Repr

/-- A frame of a paused priority, which waits in its port until the priority goes on (R318). -/
structure Held where
  port  : Nat
  sub   : Nat
  prio  : Nat
  frame : Out
  deriving DecidableEq, Repr

/-! ### The whole device -/

structure State where
  /-- the part's variant; no command changes it -/
  variant : Variant := .t
  /-- the levels of MGMT_SEL, bit 2, and MGMT_ADDR1:0 (R473); no command changes them -/
  straps  : Nat := 0
  /-- the commands that wait, first in, first out -/
  pending : List Instr := []
  /-- the model's own counter of free values -/
  free    : Nat := 0
  /-- the model's own record of what has left the package, newest first -/
  out     : List Out := []
  latch   : Tab (Option (Nat × Nat)) := []
  rsvdAcc : Nat := 0
  rnd     : Rnd := {}
  bud     : Bud := {}
  cells   : Tab Cell := []
  ups     : Upsett := {}
  crs     : Courses := {}
  weav    : Weav := {}
  stakes  : Tab Stake := []
  mem     : Mem := {}
  msd     : Tab Msd := []
  train   : Train := {}
  ports   : Tab Port := []
  /-- frames that a pause holds, oldest first -/
  txHeld  : List Held := []
  cxl     : Tab Nat := []
  hoop    : Hoop := {}
  host    : HostIf := {}
  mb      : Mbox := {}
  ctxs    : Tab Ctx := []
  lid     : Lid := {}
  flt     : Flt := {}
  pwr     : Pwr := {}
  rst     : Rst := {}
  fw      : Fw := {}
  deriving DecidableEq, Repr

/-- The reset shares (R37): SERVE 1,000, SCRUB and MGMT 12 each in every currency, every other class 0. -/
def resetShares : Tab Cost :=
  [(0, ⟨1000, 1000, 1000⟩), (6, ⟨12, 12, 12⟩), (7, ⟨12, 12, 12⟩)]

/-- The alias key that the reset derives (R406). -/
def resetAlias : Nat := Config.aliasKey Config.identityKey (Config.measuredDigest 1 0) (Config.measuredDigest 2 0)

/-- The device right after the cold reset and release (R449, R450): READY, RND_CTL.ENABLE 0, context 0 ACTIVE on the PF with
channel 0, key slot 0 LIVE with a key that nothing fixes. -/
def State.reset : State where
  bud := { shadow := resetShares, share := resetShares }
  ctxs := [(0, { state := .active })]
  mb := { chans := [(0, { assigned := true })] }
  lid := { ready := true, measGen := 1, cert1 := Config.aliasCert Config.identityKey resetAlias, aliasId := resetAlias,
           tenant := [(0, { state := .live, gen := 1, key := Config.freeNat 0 })],
           devKey := Config.freeNat 1 }
  free := 2

end Sys2Proof.Machine
end

