-- ==== Sys2Proof/WellFormed.lean ====
section
/-! DEFINITION. Which commands are well formed: every unit, instance or object number lies within the architecture's range
(R14, R34, R48, R81, R133, R166, R210, R266, R311, R344, R353, R360, R368, R390, R405, R462). -/

namespace Sys2Proof

/-- a PCIe function, 0 to 127 (R339) -/
def okFn (n : Nat) : Bool := decide (n < 128)
/-- a logical cell (R81) -/
def okCell (n : Nat) : Bool := decide (n < 960)
/-- a mailbox channel (R368) -/
def okChan (n : Nat) : Bool := decide (n < 64)
/-- an activity class (R34) -/
def okClass (n : Nat) : Bool := decide (n < 8)
/-- a queue pair (R344) -/
def okQpn (n : Nat) : Bool := decide (n < 262144)
/-- a context (R390) -/
def okCtx (n : Nat) : Bool := decide (n < 4096)
/-- a stake set (R166) -/
def okStake (n : Nat) : Bool := decide (n < 256)
/-- a weaver handle (R133) -/
def okHandle (n : Nat) : Bool := decide (n < 65536)
/-- a frame (R210) -/
def okFrame (n : Nat) : Bool := decide (n < 196608)
/-- a 4 KiB granule of a frame (R237) -/
def okGranule (n : Nat) : Bool := decide (n < 512)
/-- a 64-byte line of a frame (R266) -/
def okLine (n : Nat) : Bool := decide (n < 32768)
/-- symbols of a codeword with the errors in them (R266) -/
def okErrs (errs : List (Nat × Nat)) : Bool := errs.all fun e => decide (e.1 < 72) && decide (e.2 < 256)
/-- a supply rail (R462) -/
def okRail (n : Nat) : Bool := decide (n < 10)
/-- an event ring (R360) -/
def okRing (n : Nat) : Bool := decide (n < 16)
/-- a copy engine (R353) -/
def okEngine (n : Nat) : Bool := decide (n < 40)
/-- a secured SPDM session, 0 to 7 over DOE, 8 and 9 over MCTP (R405) -/
def okSess (n : Nat) : Bool := decide (n < 10)
/-- a hoop position (R330) -/
def okPos (n : Nat) : Bool := decide (n < 16)
/-- a part of a stake set (R171) -/
def okPart (n : Nat) : Bool := decide (n < 16)
/-- a free-running descriptor index (R346) -/
def okIdx (n : Nat) : Bool := decide (n < 2 ^ 32)
/-- The index of a descriptor: of the SQ below 2^32, of the RQ from there on. -/
def okDesc (n : Nat) : Bool := decide (n < 2 ^ 33)
/-- a sub-port (R311) -/
def okSub (n : Nat) : Bool := decide (n < 4)
/-- a priority (R318) -/
def okPrio (n : Nat) : Bool := decide (n < 8)
/-- a device of a weave group -/
def okDev (n : Nat) : Bool := decide (n < 16)
/-- a bucket of a tuning job (R281) -/
def okBucket (n : Nat) : Bool := decide (n < 65536)
/-- a memory-side die (R14) -/
def okMsd (n : Nat) : Bool := decide (n < 8)
/-- a compute die (R14) -/
def okCd (n : Nat) : Bool := decide (n < 4)
/-- a CXL port (R205) -/
def okCxl (n : Nat) : Bool := decide (n < 4)
/-- an Ethernet port (R311) -/
def okPort (n : Nat) : Bool := decide (n < 12)
/-- a rail of a reduction, one for each port (R293) -/
def okTwineRail (n : Nat) : Bool := decide (n < 12)
/-- a selective IDE stream or the link stream (R413) -/
def okSel (n : Nat) : Bool := decide (n < 9)

/-- The 64 MiB of BAR0 (R340). -/
def okBar0 (off : Nat) : Bool := decide (off < 0x4000000)

/-- The check of every row. -/
def Instr.wf : Instr → Bool
  | .bar0LowRead fn rd => okFn fn && okBar0 rd.off
  | .bar0HighRead fn off => okFn fn && okBar0 off
  | .registerWrite fn off _ _ => okFn fn && okBar0 off
  | .rndSrcSet fn _ => okFn fn
  | .rndEnableSet fn _ => okFn fn
  | .rndLock fn _ => okFn fn
  | .rndLenSet fn _ => okFn fn
  | .rndNumSet fn _ => okFn fn
  | .budShareWrite fn c _ => okFn fn && okClass c
  | .mbGo fn ch _ => okFn fn && okChan ch
  | .mbAck fn ch _ => okFn fn && okChan ch
  | .hoopJoin fn _ => okFn fn
  | .hoopBypassReq fn _ => okFn fn
  | .hoopLock fn _ => okFn fn
  | .gtimeWrite fn _ => okFn fn
  | .portEnable fn p _ => okFn fn && okPort p
  | .portLock fn p _ => okFn fn && okPort p
  | .blkRstGo fn _ => okFn fn
  | .eventHeadWrite fn ring _ => okFn fn && okRing ring
  | .sqTail fn qpn _ _ _ => okFn fn && okQpn qpn
  | .cqHead fn qpn _ _ _ => okFn fn && okQpn qpn
  | .rqTail fn qpn _ _ _ => okFn fn && okQpn qpn
  | .apertureAccess _ => true
  | .ldw lc _ _ => okCell lc
  | .ldwDataArrived lc _ => okCell lc
  | .stw lc _ _ => okCell lc
  | .stwAccepted lc _ => okCell lc
  | .mov lc _ _ => okCell lc
  | .vld lc _ _ => okCell lc
  | .vst lc _ _ => okCell lc
  | .tbw lc _ _ => okCell lc
  | .put lc _ _ => okCell lc
  | .putDelivered lc _ => okCell lc
  | .mma lc _ _ => okCell lc
  | .slr lc _ _ => okCell lc
  | .beatWriteback lc _ => okCell lc
  | .drn lc _ _ => okCell lc
  | .tsv lc _ _ => okCell lc
  | .tld lc _ _ => okCell lc
  | .tzr lc _ _ => okCell lc
  | .nop lc _ _ => okCell lc
  | .syn lc _ _ => okCell lc
  | .synTimeout lc _ => okCell lc
  | .sig lc _ _ => okCell lc
  | .rcl lc _ _ => okCell lc
  | .endBlock lc _ _ => okCell lc
  | .blockLoad lc _ => okCell lc
  | .vmov lc _ _ => okCell lc
  | .vadd lc _ _ => okCell lc
  | .vsub lc _ _ => okCell lc
  | .vmul lc _ _ => okCell lc
  | .vfma lc _ _ => okCell lc
  | .vmax lc _ _ => okCell lc
  | .vmin lc _ _ => okCell lc
  | .vabs lc _ _ => okCell lc
  | .vneg lc _ _ => okCell lc
  | .vrcp lc _ _ => okCell lc
  | .vrsq lc _ _ => okCell lc
  | .vexp2 lc _ _ => okCell lc
  | .vceq lc _ _ => okCell lc
  | .vcgt lc _ _ => okCell lc
  | .vcge lc _ _ => okCell lc
  | .vsel lc _ _ => okCell lc
  | .vcvt lc _ _ => okCell lc
  | .vqnt lc _ _ => okCell lc
  | .vrsum lc _ _ => okCell lc
  | .vrmax lc _ _ => okCell lc
  | .viadd lc _ _ => okCell lc
  | .visub lc _ _ => okCell lc
  | .vimul lc _ _ => okCell lc
  | .vshl lc _ _ => okCell lc
  | .vshr lc _ _ => okCell lc
  | .vand lc _ _ => okCell lc
  | .vor lc _ _ => okCell lc
  | .vxor lc _ _ => okCell lc
  | .vimax lc _ _ => okCell lc
  | .vimin lc _ _ => okCell lc
  | .tlk lc _ _ => okCell lc
  | .tlkn lc _ _ => okCell lc
  | .tlkm lc _ _ => okCell lc
  | .attn _ die _ => okMsd die
  | .gemv _ die _ => okMsd die
  | .adamw _ die _ => okMsd die
  | .sgdm _ die _ => okMsd die
  | .acc _ die _ => okMsd die
  | .ulistTimeout _ die => okMsd die
  | .roundTick => true
  | .weaverHeatDecay => true
  | .stakeUseDecay => true
  | .frameHeatDecay => true
  | .genClose sid => okStake sid
  | .parkTimeout qpn idx => okQpn qpn && okIdx idx
  | .unitAdmit u => (match u with | .block lc _ => okCell lc | .access c _ _ _ => okClass c)
  | .localTick => true
  | .tickFrameSend => true
  | .tickFrameReceive _ _ => true
  | .holdoverEntry => true
  | .holdoverTick => true
  | .isolatedEntry => true
  | .mgmtFrameReceive _ => true
  | .present src _ => okPos src
  | .stakeReady src sid _ part _ => okPos src && okStake sid && okPart part
  | .stakeGo sid _ _ => okStake sid
  | .stakeAbortMsg sid _ _ => okStake sid
  | .stakeCurrent sid _ => okStake sid
  | .commitAnnounce sid => okStake sid
  | .bypassSwitch => true
  | .bypassForcedClose _ => true
  | .waleData p _ => okPort p
  | .waleAck p _ => okPort p
  | .waleNak p _ => okPort p
  | .waleOpen p _ => okPort p
  | .waleOpenAck p _ => okPort p
  | .waleClose p _ => okPort p
  | .waleAckTimer qpn => okQpn qpn
  | .waleResendTimeout qpn => okQpn qpn
  | .segmentTableReceive _ => true
  | .twineResult p _ => okPort p
  | .twineBounce p _ => okPort p
  | .twineProbeReply p _ => okPort p
  | .probeTimeout _ rail => okTwineRail rail
  | .pieceLost _ b rail => okBucket b && okTwineRail rail
  | .ringContrib _ _ => true
  | .bucketSend _ b => okBucket b
  | .bucketLate _ b => okBucket b
  | .ownerReport _ _ => true
  | .verdict _ _ => true
  | .workingCopyShard _ b _ _ => okBucket b
  | .publish _ _ _ => true
  | .publishApply _ => true
  | .stepLedger _ _ => true
  | .memberSilence _ _ => true
  | .learningStepStart handle => okHandle handle
  | .peerShardRequest q => okStake q.sid
  | .buildShardFetched sid _ => okStake sid
  | .peerShardTimeout sid => okStake sid
  | .carryCheck handle _ => okHandle handle
  | .weaverShardFetched handle _ => okHandle handle
  | .frameFillDone fr => okFrame fr
  | .promotionDone fr => okFrame fr
  | .evictionDone fr => okFrame fr
  | .frameZeroDone fr => okFrame fr
  | .cleaningPassDone fr => okFrame fr
  | .weaverRemoveComplete handle => okHandle handle
  | .patrolScrub die hits => okMsd die && hits.all fun h => okErrs h.errs
  | .hbmUncorrectable fr line errs => okFrame fr && okLine line && okErrs errs
  | .slowTierPoison fr granule => okFrame fr && okGranule granule
  | .repairSourceTimeout fr granule => okFrame fr && okGranule granule
  | .repairDone fr granule _ => okFrame fr && okGranule granule
  | .poisonHoldExpiry _ => true
  | .cellFailure lc => okCell lc
  | .spareLoadDone lc => okCell lc
  | .cellSaveDone lc => okCell lc
  | .restoreCheck lc => okCell lc
  | .bankZeroDone lc => okCell lc
  | .flitReplayFail _ _ => true
  | .linkRetrainDone _ _ _ => true
  | .fabricFailed _ _ => true
  | .sramUncorrectable _ _ => true
  | .slathEngineFault die _ => okMsd die
  | .migrationEngineFault die => okMsd die
  | .copyEngineFault e => okEngine e
  | .firmwareWatchdog => true
  | .lidSelfCheckFail => true
  | .linkDown cxl p sub => (if cxl then okCxl p else okPort p) && okSub sub
  | .cxlIdeLoss p => okCxl p
  | .cxlIdeReturn p => okCxl p
  | .ethFrameReceive p sub _ => okPort p && okSub sub
  | .pfcFrame p prio _ => okPort p && okPrio prio
  | .pfcXonSend p prio => okPort p && okPrio prio
  | .pauseFrame p => okPort p
  | .mkaFrame p sub _ => okPort p && okSub sub
  | .neighborSolicitation p _ => okPort p
  | .echoRequest p _ _ => okPort p
  | .arpRequest p _ => okPort p
  | .rocePacket p _ => okPort p
  | .cnp qpn => okQpn qpn
  | .roceRateRestore qpn => okQpn qpn
  | .descNop qpn _ => okQpn qpn
  | .copy qpn _ => okQpn qpn
  | .copyBurst qpn idx _ => okQpn qpn && okIdx idx
  | .serve qpn _ => okQpn qpn
  | .courseComplete _ => true
  | .send qpn _ => okQpn qpn
  | .sendWithImmediate qpn _ => okQpn qpn
  | .rdmaWrite qpn _ => okQpn qpn
  | .rdmaWriteWithImmediate qpn _ => okQpn qpn
  | .rdmaRead qpn _ => okQpn qpn
  | .recv qpn _ => okQpn qpn
  | .pathFenceRead qpn idx _ => okQpn qpn && okDesc idx
  | .cqStalled qpn => okQpn qpn
  | .dlDown => true
  | .bmeRestored fn => okFn fn
  | .flr fn => okFn fn
  | .perstAssert => true
  | .pcieHotReset => true
  | .warmReset _ => true
  | .lidReset _ => true
  | .pwrokCycle => true
  | .vaonPowerOn => true
  | .deviceReady => true
  | .fwFallback => true
  | .railDip rail _ => okRail rail
  | .dipRecovered rail => okRail rail
  | .dipTimeout rail _ => okRail rail
  | .railUvReset rail => okRail rail
  | .d3coldEntry => true
  | .d3coldWindowExpiry _ => true
  | .mainPowerReturn => true
  | .refclkLoss => true
  | .refclkRestore => true
  | .clockLoopEval _ => true
  | .vrcAckRelease d => okCd d
  | .thermalThrottle d _ => okCd d
  | .powerOverTdp _ => true
  | .thermalTrip d _ => okCd d
  | .blkIdleWaitEnd _ => true
  | .blockRelease => true
  | .shelfEntry => true
  | .shelfExitReady => true
  | .pmcsrD3hot => true
  | .pmcsrD0 => true
  | .ideInsecure => true
  | .jtagInstruction _ => true
  | .getMeasurements sess _ => okSess sess
  | .ideKm sess stream => okSess sess && okSel stream
  | .keyRelease sess _ => okSess sess
  | .keyRevoke sess _ => okSess sess
  | .consentSet sess _ _ _ => okSess sess
  | .operatorSet sess _ => okSess sess
  | .policySet sess _ => okSess sess
  | .debugUnlock sess => okSess sess
  | .removalDrain ctx => okCtx ctx
  | .forcedAbort ctx => okCtx ctx
  | .keyZeroiseDone ctx => okCtx ctx
  | .contextScrubDone ctx => okCtx ctx
  | .devCaps ch => okChan ch
  | .deviceReset ch => okChan ch
  | .portAddrSet ch => okChan ch
  | .channelAssign ch => okChan ch
  | .fwStage ch => okChan ch
  | .fwActivate ch => okChan ch
  | .fwQuery ch => okChan ch
  | .ctxCreate ch => okChan ch
  | .ctxSet ch => okChan ch
  | .ctxQuery ch => okChan ch
  | .ctxRemove ch => okChan ch
  | .ctxReset ch => okChan ch
  | .qpBlockAlloc ch => okChan ch
  | .qpBlockFree ch => okChan ch
  | .qpCreate ch => okChan ch
  | .qpDestroy ch => okChan ch
  | .qpQuery ch => okChan ch
  | .qpRearm ch => okChan ch
  | .qpUndelivered ch => okChan ch
  | .qpRedeliver ch => okChan ch
  | .eventRingSet ch => okChan ch
  | .apertureBind ch => okChan ch
  | .apertureUnbind ch => okChan ch
  | .mrRegister ch => okChan ch
  | .mrDeregister ch => okChan ch
  | .ahSet ch => okChan ch
  | .weaverRegister ch => okChan ch
  | .weaverPrefetch ch => okChan ch
  | .weaverPin ch => okChan ch
  | .weaverQuery ch => okChan ch
  | .weaverRemove ch => okChan ch
  | .sideClaim ch => okChan ch
  | .sideRelease ch => okChan ch
  | .sideQuery ch => okChan ch
  | .stakeRegister ch => okChan ch
  | .stakeBuild ch => okChan ch
  | .stakeCommit ch => okChan ch
  | .stakeAbort ch => okChan ch
  | .stakeQuery ch => okChan ch
  | .stakeEvict ch => okChan ch
  | .stakeCarryQuery ch => okChan ch
  | .memRegionRegister ch => okChan ch
  | .memRegionRemove ch => okChan ch
  | .memSlowConfig ch => okChan ch
  | .memMap ch => okChan ch
  | .memUnmap ch => okChan ch
  | .memQuotaSet ch => okChan ch
  | .memPolicySet ch => okChan ch
  | .memEvict ch => okChan ch
  | .memPin ch => okChan ch
  | .memFlush ch => okChan ch
  | .memQuery ch => okChan ch
  | .memPoisonQuery ch => okChan ch
  | .trainJobStart ch => okChan ch
  | .trainJobStop ch => okChan ch
  | .trainJobQuery ch => okChan ch
  | .trainFeedback ch => okChan ch
  | .trainLearnPolicy ch => okChan ch
  | .twineProbe ch => okChan ch
  | .keyQuery ch => okChan ch
  | .debugRequest ch => okChan ch
  | .debugRelease ch => okChan ch
  | .faultQuery ch => okChan ch
  | .journalRead ch => okChan ch
  | .powerLimitSet ch => okChan ch
  | .powerStateSet ch => okChan ch
  | .powerQuery ch => okChan ch
  | .linkUp cxl p sub => (if cxl then okCxl p else okPort p) && okSub sub
  | .perstDeassert => true
  | .hoopRxLockChange _ => true
  | .keyExchange _ _ _ => true
  | .spdmHeartbeatTimeout sess => okSess sess
  | .evtModExpiry fn ring => okFn fn && okRing ring
  | .roceAckTimeout qpn => okQpn qpn
  | .pcieCompletionTimeout qpn idx _ => okQpn qpn && okIdx idx
  | .residencyReport dev _ => okDev dev
  | .carryOutcome handle _ => okHandle handle
  | .vrcAckTimeout d => okCd d
  | .vfEnable _ => true
  | .atsInvalidation _ _ => true
  | .requestBufferWrite fn ch off _ _ => okFn fn && okChan ch && decide (off < 4096)
  | .upsettImageStage _ => true

end Sys2Proof
end

