-- ==== Sys2Proof/Machine/Ops.lean ====
section
/-! DEFINITION. The named operations that every meaning is written over: sparse tables, byte order, which units the variant
has, free values, the reserved-access count, events, completion records, the fault journal and job summaries. -/

namespace Sys2Proof.Machine

/-- A command's effect `t` on the device `s`: on everything but the fitted variant and the queue of waiting commands, which no effect
reaches. A unit number beyond the architecture's range has no unit to act. -/
def act (ok : Bool) (s t : State) : Host.Outcome State Fault Refusal :=
  if ok then .next { t with variant := s.variant, pending := s.pending } else .fault .noSuchUnit

/-! ### Sparse tables -/

/-- What a table reads at key `k`; an unlisted key reads as `d`. -/
def look {α : Type} (d : α) (t : Tab α) (k : Nat) : α :=
  match t with
  | [] => d
  | (j, v) :: r => if j = k then v else look d r k

/-- The table with key `k` unlisted. -/
def drop {α : Type} (t : Tab α) (k : Nat) : Tab α :=
  match t with
  | [] => []
  | (j, v) :: r => if j = k then drop r k else (j, v) :: drop r k

/-- The table with `v` listed at `k`, keys kept rising. -/
def list {α : Type} (t : Tab α) (k : Nat) (v : α) : Tab α :=
  match t with
  | [] => [(k, v)]
  | (j, w) :: r =>
    if k < j then (k, v) :: (j, w) :: r
    else if j = k then (k, v) :: r
    else (j, w) :: list r k v

/-- A write: the value that an unlisted key reads as is not listed, so equal tables are equal data. -/
def store {α : Type} [DecidableEq α] (d : α) (t : Tab α) (k : Nat) (v : α) : Tab α :=
  if v = d then drop t k else list t k v

/-- A write of a function of the value that stands there. -/
def adj {α : Type} [DecidableEq α] (d : α) (t : Tab α) (k : Nat) (f : α → α) : Tab α :=
  store d t k (f (look d t k))

/-- Keys strictly rising, all above `lo`, and no entry equal to what an unlisted key reads as. -/
def wfFrom {α : Type} [DecidableEq α] (d : α) : Option Nat → Tab α → Bool
  | _, [] => true
  | lo, (k, v) :: r => (match lo with | none => true | some b => decide (b < k)) && !decide (v = d) && wfFrom d (some k) r

/-- The canonical form of a table. -/
def wf {α : Type} [DecidableEq α] (d : α) (t : Tab α) : Bool := wfFrom d none t

/-- Every listed value changed by `f`, in canonical form again. -/
def mapTab {α : Type} [DecidableEq α] (d : α) (f : Nat → α → α) (t : Tab α) : Tab α :=
  (t.map fun p => (p.1, f p.1 p.2)).filter fun p => !decide (p.2 = d)

/-- The listed keys whose value satisfies `p`. -/
def keysWhere {α : Type} (t : Tab α) (p : Nat → α → Bool) : List Nat :=
  (t.filter fun e => p e.1 e.2).map Prod.fst

/-! ### Numbers, fields and bytes -/

/-- Bits `[lo + w - 1 : lo]` of `v`. -/
def bits (v lo w : Nat) : Nat := v / 2 ^ lo % 2 ^ w

/-- Bit `i` of `v`. -/
def bit (v i : Nat) : Bool := v / 2 ^ i % 2 == 1

def b2n (b : Bool) : Nat := if b then 1 else 0

/-- A counter of `w` bits that saturates at its largest value. -/
def sat (w n : Nat) : Nat := min n (2 ^ w - 1)

def ceilDiv (a b : Nat) : Nat := (a + b - 1) / b

/-- The difference of two free-running 32-bit indices (R346). -/
def idxSub (a b : Nat) : Nat := (a + 2 ^ 32 - b % 2 ^ 32) % 2 ^ 32

def idxAdd (a n : Nat) : Nat := (a + n) % 2 ^ 32

/-- A little-endian byte string as a number (R4). -/
def leNat (bs : List Byte) : Nat := bs.foldr (fun b n => b.toNat + 256 * n) 0

/-- The `n` little-endian bytes of a number (R4). -/
def leBytes (n v : Nat) : List Byte :=
  match n with
  | 0 => []
  | k + 1 => BitVec.ofNat 8 v :: leBytes k (v / 256)

/-- Bytes `[lo + n - 1 : lo]` of the number that a byte string is. -/
def bytesAt (v lo n : Nat) : Nat := v / 256 ^ lo % 256 ^ n

/-- The `n` bytes that stand at address `a`; an unlisted address reads as 0. -/
def rdBytes (t : Tab Byte) (a n : Nat) : List Byte := (List.range n).map fun i => look 0 t (a + i)

/-- The byte string `bs` written at address `a`. -/
def wrBytes (t : Tab Byte) (a : Nat) (bs : List Byte) : Tab Byte :=
  match bs with
  | [] => t
  | b :: r => wrBytes (store 0 t a b) (a + 1) r

/-- A long byte string written at address `a` in one pass. -/
def wrRange (t : Tab Byte) (a : Nat) (bs : List Byte) : Tab Byte :=
  (t.filter fun p => p.1 < a) ++ (((List.range bs.length).map fun i => a + i).zip bs).filter (fun p => p.2 != 0)
    ++ t.filter fun p => a + bs.length ≤ p.1

/-- The next `n` bytes from address `a` on of a table that lists nothing before `a`. -/
def rdFrom (t : Tab Byte) (a : Nat) : Nat → List Byte
  | 0 => []
  | n + 1 =>
    match t with
    | [] => 0 :: rdFrom [] (a + 1) n
    | (j, b) :: r => if j = a then b :: rdFrom r (a + 1) n else 0 :: rdFrom ((j, b) :: r) (a + 1) n

/-- A long range of a table read in one pass. -/
def rdRange (t : Tab Byte) (a n : Nat) : List Byte := rdFrom (t.dropWhile fun p => p.1 < a) a n

/-- Every address from `a` on for `n` bytes reads as 0. -/
def zeroBytes (t : Tab Byte) (a n : Nat) : Tab Byte := t.filter fun p => p.1 < a || a + n ≤ p.1

/-- One step of the CRC-32C register, polynomial 0x82F63B78 in reflected form. -/
def crcStep (c : Nat) : Nat := if c % 2 = 1 then (c / 2) ^^^ 0x82F63B78 else c / 2

/-- The CRC-32C register after one byte. -/
def crcByte (c b : Nat) : Nat :=
  let x := c ^^^ b
  crcStep (crcStep (crcStep (crcStep (crcStep (crcStep (crcStep (crcStep x)))))))

/-- CRC-32C of a byte string. -/
def crc32c (bs : List Nat) : Nat := bs.foldl crcByte 0xFFFFFFFF ^^^ 0xFFFFFFFF

/-! ### The variant's units (R2, R14, R17) -/

def hasCd (s : State) (d : Nat) : Bool := d < (if s.variant = .c then 3 else 4)
def hasMsd (s : State) (m : Nat) : Bool := m < (if s.variant = .c then 6 else 8)
def hasPort (s : State) (p : Nat) : Bool := p < (if s.variant = .c then 8 else 12)
def hasCxl (s : State) (p : Nat) : Bool := s.variant ≠ .c && p < 4
/-- The training units: B streams, update engines, the Twine path. -/
def hasTrain (s : State) : Bool := s.variant ≠ .s
def cellCount (s : State) : Nat := if s.variant = .c then 720 else 960
def hasCell (s : State) (lc : Nat) : Bool := lc < cellCount s
def msdCount (s : State) : Nat := if s.variant = .c then 6 else 8

/-! ### Parts of the state by key -/

def State.cell (s : State) (lc : Nat) : Cell := look {} s.cells lc
def State.modCell (s : State) (lc : Nat) (f : Cell → Cell) : State := { s with cells := adj {} s.cells lc f }
def State.stream (s : State) (lc : Nat) (st : Strm) : StreamS :=
  match st with | .f => (s.cell lc).f | .b => (s.cell lc).b
def Cell.modStream (c : Cell) (st : Strm) (g : StreamS → StreamS) : Cell :=
  match st with | .f => { c with f := g c.f } | .b => { c with b := g c.b }
def Cell.stream (c : Cell) (st : Strm) : StreamS := match st with | .f => c.f | .b => c.b
def State.modStream (s : State) (lc : Nat) (st : Strm) (g : StreamS → StreamS) : State :=
  s.modCell lc fun c => c.modStream st g
def State.ctx (s : State) (c : Nat) : Ctx := look {} s.ctxs c
def State.modCtx (s : State) (c : Nat) (f : Ctx → Ctx) : State := { s with ctxs := adj {} s.ctxs c f }
def State.weaver (s : State) (h : Nat) : Weaver := look {} s.weav.dir h
def State.modWeaver (s : State) (h : Nat) (f : Weaver → Weaver) : State :=
  { s with weav := { s.weav with dir := adj {} s.weav.dir h f } }
def State.side (s : State) (k : Nat) : SideSlot := look {} s.weav.side k
def State.modSide (s : State) (k : Nat) (f : SideSlot → SideSlot) : State :=
  { s with weav := { s.weav with side := adj {} s.weav.side k f } }
/-- A session of a context by its number (R158, R351). -/
def sessKey (ctx n : Nat) : Nat := ctx * 2 ^ 32 + n
def State.session (s : State) (k : Nat) : Session := look {} s.weav.sessions k
def State.modSession (s : State) (k : Nat) (f : Session → Session) : State :=
  { s with weav := { s.weav with sessions := adj {} s.weav.sessions k f } }
def State.stake (s : State) (sid : Nat) : Stake := look {} s.stakes sid
def State.modStake (s : State) (sid : Nat) (f : Stake → Stake) : State := { s with stakes := adj {} s.stakes sid f }
def Stake.gen (k : Stake) (slot : Nat) : Gen := look {} k.gens slot
def State.modGen (s : State) (sid slot : Nat) (f : Gen → Gen) : State :=
  s.modStake sid fun k => { k with gens := adj {} k.gens slot f }
def State.frame (s : State) (f : Nat) : FrameE := look {} s.mem.frames f
def State.modFrame (s : State) (f : Nat) (g : FrameE → FrameE) : State :=
  { s with mem := { s.mem with frames := adj {} s.mem.frames f g } }
/-- The page-table key of page `p` of context `c`; commons space has its own numbers above every context's. -/
def pteKey (c p : Nat) : Nat := c * 2 ^ 25 + p
def State.pteAt (s : State) (k : Nat) : Pte := look {} s.mem.pte k
def State.modPte (s : State) (k : Nat) (f : Pte → Pte) : State :=
  { s with mem := { s.mem with pte := adj {} s.mem.pte k f } }
def State.acct (s : State) (a : Nat) : Account := look {} s.mem.acct a
def State.modAcct (s : State) (a : Nat) (f : Account → Account) : State :=
  { s with mem := { s.mem with acct := adj {} s.mem.acct a f } }
def State.modMig (s : State) (d : Nat) (f : MigCnt → MigCnt) : State :=
  { s with mem := { s.mem with mig := adj {} s.mem.mig d f } }
def State.msdOf (s : State) (d : Nat) : Msd := look {} s.msd d
def State.modMsd (s : State) (d : Nat) (f : Msd → Msd) : State := { s with msd := adj {} s.msd d f }
def State.job (s : State) (j : Nat) : Job := look {} s.train.jobs j
def State.modJob (s : State) (j : Nat) (f : Job → Job) : State :=
  { s with train := { s.train with jobs := adj {} s.train.jobs j f } }
def State.port (s : State) (p : Nat) : Port := look {} s.ports p
def State.modPort (s : State) (p : Nat) (f : Port → Port) : State := { s with ports := adj {} s.ports p f }
def State.qp (s : State) (q : Nat) : Qp := look {} s.host.qps q
def State.modQp (s : State) (q : Nat) (f : Qp → Qp) : State :=
  { s with host := { s.host with qps := adj {} s.host.qps q f } }
def State.flow (s : State) (q : Nat) : Flow := look {} s.host.flows q
def State.modFlow (s : State) (q : Nat) (f : Flow → Flow) : State :=
  { s with host := { s.host with flows := adj {} s.host.flows q f } }
def State.fnOf (s : State) (n : Nat) : Fn := look {} s.host.fns n
def State.modFn (s : State) (n : Nat) (f : Fn → Fn) : State :=
  { s with host := { s.host with fns := adj {} s.host.fns n f } }
def State.ring (s : State) (n r : Nat) : Ring := look {} (s.fnOf n).rings r
def State.modRing (s : State) (n r : Nat) (f : Ring → Ring) : State :=
  s.modFn n fun x => { x with rings := adj {} x.rings r f }
def State.chan (s : State) (n : Nat) : Chan := look {} s.mb.chans n
def State.modChan (s : State) (n : Nat) (f : Chan → Chan) : State :=
  { s with mb := { s.mb with chans := adj {} s.mb.chans n f } }
def State.tkey (s : State) (n : Nat) : KeySlot := look {} s.lid.tenant n
def State.modTkey (s : State) (n : Nat) (f : KeySlot → KeySlot) : State :=
  { s with lid := { s.lid with tenant := adj {} s.lid.tenant n f } }
def State.skey (s : State) (n : Nat) : KeySlot := look {} s.lid.stake n
def State.modSkey (s : State) (n : Nat) (f : KeySlot → KeySlot) : State :=
  { s with lid := { s.lid with stake := adj {} s.lid.stake n f } }
def State.sess (s : State) (n : Nat) : Sess := look {} s.lid.sess n
def State.clk (s : State) (d : Nat) : Clk := look {} s.pwr.clk d
def State.modClk (s : State) (d : Nat) (f : Clk → Clk) : State :=
  { s with pwr := { s.pwr with clk := adj {} s.pwr.clk d f } }
def State.modSup (s : State) (r : Nat) (f : Sup → Sup) : State :=
  { s with pwr := { s.pwr with sup := adj {} s.pwr.sup r f } }
/-- The rows of a course that stand for descriptors: a probe course has none (R189). -/
def Course.hostRows (c : Course) : List Seq := if c.probe.isSome then [] else c.rows

def State.course (s : State) (cid : Nat) : Option Course := s.crs.running.find? fun c => c.id == cid
def State.modCourse (s : State) (cid : Nat) (f : Course → Course) : State :=
  { s with crs := { s.crs with running := s.crs.running.map fun c => if c.id == cid then f c else c } }

/-- Fold a state change over a list. -/
def State.each {α : Type} (xs : List α) (f : α → State → State) (s : State) : State := xs.foldl (fun t x => f x t) s

/-- Do nothing unless `b`. -/
def State.onlyIf (b : Bool) (f : State → State) (s : State) : State := if b then f s else s

/-- The round of the boundary at hand: the one that an asserted tick begins, else the round in progress. -/
def boundaryRnd (s : State) : Nat :=
  match s.rnd.tick with
  | none => s.rnd.num
  | some t => t.num.getD ((s.rnd.num + 1) % 2 ^ 64)

/-- A fresh free value: an argument of the opaque `Config.freeNat` that no earlier step used. -/
def State.fresh (s : State) : Nat × State := (Config.freeNat s.free, { s with free := s.free + 1 })

/-- Record what leaves the package. -/
def State.emit (o : Out) (s : State) : State := { s with out := o :: s.out }

/-! ### Amounts in the three currencies (R35) -/

def Cost.zipWith (f : Nat → Nat → Nat) (a b : Cost) : Cost := ⟨f a.cc b.cc, f a.hbm b.hbm, f a.link b.link⟩
def Cost.add (a b : Cost) : Cost := Cost.zipWith (· + ·) a b

/-- Charge a class whatever its tally (R39 inbound bytes, R40 excess, R80 save and restore traffic). -/
def State.charge (c : Nat) (x : Cost) (s : State) : State :=
  { s with bud := { s.bud with tally := adj {} s.bud.tally c fun t => t.add x } }

/-- One more reserved access (R6, R7, R33): RSVD_ACC counts, saturating. -/
def State.reserved (s : State) : State := { s with rsvdAcc := sat 32 (s.rsvdAcc + 1) }

/-! ### Events (R360, R361) -/

/-- The PF is in D3hot or on its way there, or main power is gone (R458, R459): no BAR decodes, and nothing is written to the host. -/
def inD3 (s : State) : Bool := s.pwr.state == .d3hot || s.pwr.state == .d3cold || s.pwr.target == some .d3hot

/-- Whether the device may write to host memory for a function: link up, Bus Master Enable set, not in D3, PERST# released. -/
def hostOk (s : State) (fn : Nat) : Bool :=
  s.host.linkUp && (s.fnOf fn).bme && !inD3 s && !s.rst.perstLow

def ringRoom (r : Ring) : Bool := idxSub r.tail r.head < 2 ^ r.log

/-- Write one event record to a ring with room: the record, then the MSI-X message unless EVT_MOD still runs (R361). DESIGN CHOICE: its 32 bytes
are MGMT's (R34). -/
def State.putEvent (fn ring : Nat) (e : EvRec) (s : State) : State :=
  let r := s.ring fn ring
  let phase := if r.tail / 2 ^ r.log % 2 = 0 then 0x80 else 0
  let e' := { e with flags := phase + b2n r.overflow }
  let s := (s.emit (.event fn ring r.tail e')).charge Act.mgmt { link := 32 }
  let r := { r with tail := idxAdd r.tail 1, overflow := false }
  if r.modRun then s.modRing fn ring fun _ => { r with owed := true }
  else (s.emit (.msix fn r.vector)).modRing fn ring fun _ => { r with modRun := 0 < r.modUs }

/-- Keep an event that cannot be written: one record for each pair of ETYPE and OBJ, 256 for the function, else LOST (R361). -/
def State.keepEvent (fn ring : Nat) (e : EvRec) (s : State) : State :=
  let s := s.modRing fn ring fun r => { r with overflow := true }
  let f := s.fnOf fn
  if f.store.any fun p => p.1 == ring && p.2.etype == e.etype && p.2.obj == e.obj then s
  else if f.store.length < 256 then s.modFn fn fun f => { f with store := f.store ++ [(ring, e)] }
  else s.modFn fn fun f => { f with lost := sat 16 (f.lost + 1) }

/-- Raise an event on a ring of a function. An unconfigured ring takes none. -/
def State.event (fn ring : Nat) (e : EvRec) (s : State) : State :=
  let e := { e with rnd := s.rnd.num }
  if !(s.ring fn ring).set then s
  else if hostOk s fn && ringRoom (s.ring fn ring) && !((s.fnOf fn).store.any fun p => p.1 == ring) then s.putEvent fn ring e
  else s.keepEvent fn ring e

/-- Write the kept events of a function for which there is room now, in the order in which they came. -/
def State.drainEvents (fn : Nat) (s : State) : State :=
  (s.fnOf fn).store.foldl (fun t p =>
    if hostOk t fn && ringRoom (t.ring fn p.1) then
      (t.modFn fn fun f => { f with store := f.store.erase p }).putEvent fn p.1 p.2
    else t) s

/-- An event of a context without a queue pair goes to ring 0 of its function (R360); context 0's is the PF's. -/
def State.ctxEvent (ctx : Nat) (e : EvRec) (s : State) : State := s.event (s.ctx ctx).func 0 { e with ctx := ctx }

/-! ### Completion records (R346 to R348, R356) -/

def cqFull (q : Qp) : Bool := 2 ^ q.logCq ≤ idxSub q.cqTail q.cqHead

/-- Since when a CQ has been full (R348). -/
def State.noteFull (qpn : Nat) (s : State) : State :=
  let now := s.rnd.num
  s.modQp qpn fun q =>
    if cqFull q then { q with fullSince := some (q.fullSince.getD now) } else { q with fullSince := none, stalled := false }

/-- The host addresses that a queue pair with ATS uses are translated, and the device caches the translations (R339, R353). PRESUMED: one for each
page of 4 KiB. DESIGN CHOICE: those of copied data are cached, and the oldest of 8,192 makes room. -/
def State.translate (qpn a n : Nat) (s : State) : State :=
  if !(s.qp qpn).ats ∨ n = 0 then s
  else
    let new := (List.range ((a + n - 1) / 4096 + 1 - a / 4096)).map fun i => 4096 * (a / 4096 + i)
    { s with host := { s.host with ats := (new.reverse ++ s.host.ats.filter fun x => !new.contains x).take 8192 } }

/-- A record of 32 bytes leaves for a queue pair's CQ in host memory, on behalf of its class (R35, R356). -/
def State.sendRec (qpn idx : Nat) (r : Rec) (s : State) : State := (s.emit (.record qpn idx r)).charge (s.qp qpn).cls { link := 32 }

/-- Write one record: PHASE, the shadow ring first, the host when the state writes records there, then CQ_NOTIFY if armed. -/
def State.writeRec (qpn : Nat) (r : Rec) (s : State) : State :=
  let q := s.qp qpn
  let fn := (s.ctx q.ctx).func
  let r := { r with flags := r.flags + (if q.cqTail / 2 ^ q.logCq % 2 = 0 then Fl.phase else 0) }
  let live := hostOk s fn && (q.state = .active || q.state = .revoked)
  let s := s.modQp qpn fun q =>
    { q with shadow := store {} q.shadow (q.cqTail % 2 ^ q.logCq) r, cqTail := idxAdd q.cqTail 1,
             und := (q.und ++ if live then [] else [q.cqTail]).filter fun i => idxSub q.cqTail i < 2 ^ q.logCq, arm := q.arm && !live }
  let s := (s.charge q.cls { hbm := 32 }).noteFull qpn
  if !live then s
  else
    let s := s.sendRec qpn q.cqTail r
    if q.arm then s.event fn q.ring { etype := Ev.cqNotify, flags := 0, ctx := q.ctx, obj := qpn, rnd := 0, status := 0, detail := 0 }
    else s

/-- A record for a queue pair: written, or held in completion order while the CQ is full (R348). A FREE queue pair takes none. -/
def State.record (qpn : Nat) (r : Rec) (s : State) : State :=
  let q := s.qp qpn
  if q.state = .free then s
  else if cqFull q || !q.held.isEmpty then
    s.modQp qpn fun q => { q with held := q.held ++ [r] }
  else s.writeRec qpn r

/-- Write the held records for which the CQ has room (R348). -/
def State.drainHeld (qpn : Nat) (s : State) : State :=
  (s.each (s.qp qpn).held fun r t =>
    if cqFull (t.qp qpn) then t
    else (t.modQp qpn fun q => { q with held := q.held.drop 1 }).writeRec qpn r).noteFull qpn

/-! ### The fault journal (R435) and the job summaries (R434) -/

/-- One journal entry: SEQ rises by 1, the entry stands at SEQ mod 4,096, FJ_STAT counts its class, and class WORK_ENDED or
above raises a FAULT event whose OBJ is the entry's index. -/
def State.journal (e : JEntry) (s : State) : State :=
  let seq := s.flt.head + 1
  let e := { e with seq := seq, rnd := s.rnd.num }
  let f := s.flt
  let s := { s with flt := { f with
    head := seq, ring := store {} f.ring (seq % 4096) e,
    nRec := if e.cls = Cls.recovered then sat 16 (f.nRec + 1) else f.nRec,
    nWork := if e.cls = Cls.workEnded then sat 16 (f.nWork + 1) else f.nWork,
    nBlk := if e.cls = Cls.blockReset then sat 16 (f.nBlk + 1) else f.nBlk,
    nDev := if e.cls = Cls.device then sat 16 (f.nDev + 1) else f.nDev } }
  if Cls.workEnded ≤ e.cls then
    s.ctxEvent e.ctx { etype := Ev.fault, flags := 0, ctx := e.ctx, obj := seq % 4096, rnd := 0, status := e.code, detail := 0 }
  else s

/-- The 60 bytes of a journal entry before CHECK, and CHECK over them, as one number of 64 bytes. An index that holds no entry
is zero. -/
def jBytes (e : JEntry) : Nat :=
  if e.seq = 0 then 0
  else
    let v := e.seq % 2 ^ 64 + e.rnd % 2 ^ 64 * 2 ^ 64 + e.code % 2 ^ 16 * 2 ^ 128 + e.cls % 2 ^ 8 * 2 ^ 144
      + e.blk % 2 ^ 8 * 2 ^ 152 + e.unit % 2 ^ 16 * 2 ^ 160 + e.ctx % 2 ^ 12 * 2 ^ 176 + e.tag % 2 ^ 64 * 2 ^ 192
      + e.progress % 2 ^ 32 * 2 ^ 256 + e.gen % 2 ^ 16 * 2 ^ 288 + e.detail % 2 ^ 128 * 2 ^ 320
    v + crc32c ((List.range 60).map fun i => bytesAt v i 1) * 2 ^ 480

/-- The summary of a piece of work that has finished, the last 65,536 kept, newest first (R434). -/
def State.summarize (x : Summary) (s : State) : State :=
  { s with flt := { s.flt with sums := (x :: s.flt.sums).take 65536 } }

/-- The final record of long mailbox work goes to the named WORK queue pair (R352, R372). -/
def State.finalRecord (n : Notice) (status progress : Nat) (s : State) : State :=
  (s.summarize { tag := n.tag, ctx := n.ctx, kind := 2, status := status, progress := progress, rnd := s.rnd.num, gen := 0 }).record n.qpn
    { status := status, progress := sat 32 progress, rnd := s.rnd.num, ctx := n.ctx, tag := n.tag }

/-- A record of work that completes now. -/
def nowRec (s : State) (status progress : Nat) : Rec := { status := status, progress := progress, rnd := s.rnd.num }

/-- The descriptor of index `idx` that a queue pair still holds. -/
def State.desc (s : State) (qpn idx : Nat) : Option DescS :=
  ((s.qp qpn).descs ++ (s.qp qpn).recvs).find? fun d => d.idx == idx

def State.modDesc (s : State) (qpn idx : Nat) (f : DescS → DescS) : State :=
  let g := fun (d : DescS) => if d.idx == idx then f d else d
  s.modQp qpn fun q => { q with descs := q.descs.map g, recvs := q.recvs.map g }

def jobTag (d : BitVec 512) : Nat := bytesAt d.toNat 8 8
def dflags (d : BitVec 512) : Nat := bytesAt d.toNat 1 1

/-- Whether a record's re-delivery repeats a write to the host (R364): a COPY of a D2H queue pair, or a SERVE with HOSTOUT. -/
def repeats (q : Qp) (d : BitVec 512) : Bool :=
  (q.typ == 1 && bytesAt d.toNat 0 1 == 1) || (q.typ == 3 && bytesAt d.toNat 0 1 == 2 && bytesAt d.toNat 56 8 != 0)

/-- The index of the next record of a queue pair, held ones counted. -/
def nextRec (q : Qp) : Nat := idxAdd q.cqTail q.held.length

/-- A descriptor completes (R349, R356): it leaves the queue pair, its summary is kept, and its record is written unless
NO_RECORD is set and it ended with OK. What a re-delivery would repeat is remembered as long as its shadow entry stands. -/
def State.closeDesc (qpn : Nat) (d : DescS) (r : Rec) (s : State) : State :=
  let tag := jobTag d.raw
  let q := s.qp qpn
  let keep := fun (x : DescS) => x.idx != d.idx
  let s := s.modQp qpn fun q => { q with descs := q.descs.filter keep, recvs := q.recvs.filter keep }
  let s := s.summarize { tag := tag, ctx := q.ctx, kind := 0, status := r.status, progress := r.progress, rnd := r.rnd, gen := r.gen }
  if bit (dflags d.raw) 2 && r.status == St.ok then s
  else
    let s := if repeats q d.raw then
        s.modQp qpn fun q => { q with copies := (q.copies ++ [(nextRec q, d.raw)]).filter fun x => idxSub (nextRec q) x.1 < 2 ^ q.logCq }
      else s
    s.record qpn { r with progress := sat 32 r.progress, ctx := q.ctx, tag := tag }

/-- Whether a fetched descriptor may not start yet: it or an earlier one carries FENCE and waits for what is before it (R349). -/
def waitsTurn (q : Qp) (idx : Nat) : Bool :=
  ((q.descs.takeWhile fun x => x.idx != idx) ++ (q.descs.filter fun x => x.idx == idx)).tail.any fun x => bit (dflags x.raw) 1

/-- What a descriptor that does nothing, or that is refused, ends with: once it may start (R349), unless the queue pair's work is about to
end anyway. -/
def State.releaseTurn (qpn : Nat) (s : State) : State :=
  (s.qp qpn).descs.foldl (fun t x =>
    let q := t.qp qpn
    match x.ends with
    | none => t
    | some st =>
      if x.held.isSome || waitsTurn q x.idx || q.state != .active || (t.ctx q.ctx).reset.isSome || (t.ctx q.ctx).state != .active
          || t.flt.halted then t
      else if bit (dflags x.raw) 0 && st == St.ok then t.modDesc qpn x.idx fun y => { y with held := some (nowRec t St.ok 0) }
      else t.closeDesc qpn x (nowRec t st 0)) s

/-- A fetched descriptor ends with a status as soon as it may start. -/
def State.endTurn (qpn idx st : Nat) (s : State) : State := (s.modDesc qpn idx fun y => { y with ends := some st }).releaseTurn qpn

/-- A descriptor completes, and with it what waited for nothing else. -/
def State.finishDesc (qpn : Nat) (d : DescS) (r : Rec) (s : State) : State := (s.closeDesc qpn d r).releaseTurn qpn

/-- POLICY_LIMITED of an adaptive loop, at most once a loop and round (R443): 0 clock and voltage, 1 heat placement, 2 link equalisation,
3 Twine headroom. -/
def State.polLimit (loop : Nat) (s : State) : State :=
  let f := s.flt
  if f.polNow.contains loop then s
  else { s with flt := { f with
    polNow := loop :: f.polNow
    polClock := if loop = 0 then sat 16 (f.polClock + 1) else f.polClock
    polPlace := if loop = 1 then sat 16 (f.polPlace + 1) else f.polPlace
    polLink := if loop = 2 then sat 16 (f.polLink + 1) else f.polLink
    polTwine := if loop = 3 then sat 16 (f.polTwine + 1) else f.polTwine } }

/-! ### The neighbour management channel (R333) -/

/-- Originate a management frame to every device: nothing while the bypass is closed (R335), at most 8 in a round, beyond which it is
dropped and counted. -/
def State.originate (msg len payload : Nat) (s : State) : State :=
  if s.hoop.bypassed then s
  else if 8 ≤ s.hoop.sent then { s with hoop := { s.hoop with msgDrop := sat 16 (s.hoop.msgDrop + 1) } }
  else
    ({ s with hoop := { s.hoop with sent := s.hoop.sent + 1 } }).emit
      (.mgmtFrame { src := s.hoop.pos, dst := 255, hops := 0, msg := msg, len := len, payload := payload, crcOk := true })

/-! ### Contexts and keys -/

/-- A context that may hold frames, queue pairs, weavers and work (R392). -/
def ctxActive (s : State) (c : Nat) : Bool := (s.ctx c).state = .active || (s.ctx c).state = .resetting

/-- A context that a removal is taking away: its submissions are refused with REVOKED (R415). -/
def ctxGoing (s : State) (c : Nat) : Bool := (s.ctx c).state = .revoking || (s.ctx c).state = .scrubbing

/-- The Lid's measurement blocks changed (R404). -/
def State.measured (s : State) : State := { s with lid := { s.lid with measGen := (s.lid.measGen + 1) % 2 ^ 32 } }

/-- What names the image in a firmware bank: the bank, and the CRC-32C under which it was activated. -/
def fwImage (s : State) : Nat := s.fw.bank + 2 * look 0 s.fw.crcs s.fw.bank

/-- At each reset the Lid derives its alias key from the identity key and the digests of blocks 1 and 2, and signs its certificate (R406). -/
def State.rekey (s : State) : State :=
  let k := Config.aliasKey Config.identityKey (Config.measuredDigest 1 0) (Config.measuredDigest 2 (fwImage s))
  { s with lid := { s.lid with aliasId := k, cert1 := Config.aliasCert Config.identityKey k } }

/-- A signature of the Lid, under the slot 1 key (R406). -/
def signed (s : State) (bytes : List Nat) : Nat := Config.sign s.lid.aliasId bytes

/-- One vendor-defined or key operation increments a slot's generation (R400). -/
def bumpGen (k : KeySlot) : KeySlot := { k with gen := (k.gen + 1) % 2 ^ 16 }

end Sys2Proof.Machine
end

