-- ==== Sys2Proof/Machine/Budget.lean ====
section
/-! DEFINITION. Budgets: capacities, allowances, borrowing and the admission of one unit (R35 to R41), and the boundary's share
application (R38, R42 cycle 32). -/

namespace Sys2Proof.Machine

/-! ### Amounts in the three currencies -/

def Cost.sub (a b : Cost) : Cost := Cost.zipWith (· - ·) a b
def Cost.min (a b : Cost) : Cost := Cost.zipWith Nat.min a b

/-- floor(capacity × share / 1,024) in every currency (R37). -/
def Cost.share (cap share : Cost) : Cost := Cost.zipWith (fun c h => c * h / 1024) cap share

/-- Usable logical cells of compute die `d` (R86): its 240 positions less those left without a physical cell. -/
def usableCells (s : State) (d : Nat) : Nat :=
  if hasCd s d then 240 - (s.ups.lost.filter fun lc => lc / 240 == d).length else 0

/-- The capacity of a round of the length in effect (R36): cell clocks in MHz times 125 µs units, 307,200,000 bytes a stack and
unit, and 25,000,000, 7,500,000 and 16,000,000 bytes a unit for an enabled Ethernet port, a CXL port and PCIe. -/
def capacity (s : State) : Cost :=
  let l := s.rnd.lenEff
  { cc := ((List.range 4).map fun d => usableCells s d * ((s.clk d).freq * 125 * l)).sum
    hbm := msdCount s * 307200000 * l
    link := l * (((List.range 12).map fun p => if hasPort s p && (s.port p).enable then 25000000 else 0).sum
      + ((List.range 4).map fun p => if hasCxl s p then 7500000 else 0).sum + 16000000) }

def allowance (s : State) (c : Nat) : Cost := s.bud.cap.share (look {} s.bud.share c)

/-- A class's allowance as borrowing changes it (R41). -/
def effAllowance (s : State) (c : Nat) : Cost :=
  match s.bud.borrow with
  | none => allowance s c
  | some b => if c = Act.tune then (allowance s c).add b else if c = Act.serve then (allowance s c).sub b else allowance s c

/-- Whether a unit passes in one currency (R39). -/
def fits (cost tally eff : Nat) : Bool :=
  cost == 0 || (eff != 0 && (decide (cost + tally ≤ eff) || (decide (eff < cost) && tally == 0)))

def fitsAll (cost tally eff : Cost) : Bool :=
  fits cost.cc tally.cc eff.cc && fits cost.hbm tally.hbm eff.hbm && fits cost.link tally.link eff.link

def tallyOf (s : State) (c : Nat) : Cost := look {} s.bud.tally c

/-- Whether units of a move of a class wait. -/
def movesWait (s : State) (c : Nat) : Bool := s.bud.moves.any fun m => m.cls == c

/-- Open borrowing when SERVE has no waiting unit and room beyond the guard in a currency (R41), at most once a round and
never on GW960-S. -/
def State.testBorrow (s : State) : State :=
  if !hasTrain s || s.bud.borrow.isSome || s.bud.refusedNow.contains Act.serve || s.bud.queue.any (fun w => w.cls == Act.serve)
      || movesWait s Act.serve then s
  else
    let room := ((allowance s Act.serve).sub (tallyOf s Act.serve)).sub (s.bud.cap.share s.bud.guard)
    if room = {} then s else { s with bud := { s.bud with borrow := some room } }

/-- Whether units of a class may be admitted now at all: admission open, no halt (R425), no REDUCE work in ISOLATED (R29), no
cell unit in Idle-hold (R456), no HBM unit in Shelf or D3 (R457, R458). -/
def admitOpen (s : State) (c : Nat) (x : Cost) : Bool :=
  s.bud.isOpen && !s.flt.halted && !(c == Act.reduce && s.rnd.mode == .isolated)
    && !(s.pwr.state == .idleHold && x.cc != 0) && (s.pwr.state == .active || s.pwr.state == .idleHold || x.hbm == 0)

/-- `n` units of a class are refused: counted, and the round in which the class had work refused once. -/
def State.turnAway (c n : Nat) (s : State) : State :=
  let first := !s.bud.refusedNow.contains c
  { s with bud := { s.bud with
    wait := adj {} s.bud.wait c fun w => { w with units := sat 32 (w.units + n), rounds := sat 16 (w.rounds + b2n first) },
    refusedNow := if first then c :: s.bud.refusedNow else s.bud.refusedNow } }

/-- One unit of class `c` asks for admission (R39): charged in full when it fits, otherwise counted as refused. -/
def State.admitUnit (c : Nat) (x : Cost) (s : State) : Bool × State :=
  if !admitOpen s c x then (false, s)
  else
    let s := if c = Act.tune then s.testBorrow else s
    if fitsAll x (tallyOf s c) (effAllowance s c) then
      let s := s.charge c x
      (true, if c = Act.serve then s.testBorrow else s)
    else (false, s.turnAway c 1)

/-- A unit of an engine, named `k`, asks for admission; one that has been refused waits for the next boundary (R39). -/
def State.admitOnce (k : Nat × Nat × Nat) (c : Nat) (x : Cost) (s : State) : Bool × State :=
  if s.bud.turned.contains (c, k) then (false, s)
  else
    let r := s.admitUnit c x
    if r.1 || !admitOpen s c x then r else (false, { r.2 with bud := { r.2.bud with turned := (c, k) :: r.2.bud.turned } })

/-! ### Moves -/

/-- How many of `n` equal units pass in one currency, one after the other (R39). -/
def fitN (cost tally eff n : Nat) : Nat :=
  if cost = 0 then n
  else if eff = 0 then 0
  else if eff < cost then (if tally = 0 then min n 1 else 0)
  else min n ((eff - tally) / cost)

def Cost.times (n : Nat) (x : Cost) : Cost := ⟨n * x.cc, n * x.hbm, n * x.link⟩

/-- `n` equal units ask for admission together: as many as fit are charged, the others refused; how many are left (R39). They wait until
the last is admitted, so that borrowing is tested before a TUNE unit and after the last SERVE unit (R41). -/
def State.admitMany (c : Nat) (x : Cost) (n : Nat) (s : State) : Nat × State :=
  if n = 0 ∨ !admitOpen s c x then (n, s)
  else
    let s := if c = Act.tune then s.testBorrow else s
    let t := tallyOf s c
    let e := effAllowance s c
    let k := min (fitN x.cc t.cc e.cc n) (min (fitN x.hbm t.hbm e.hbm n) (fitN x.link t.link e.link n))
    let s := s.charge c (x.times k)
    if k < n then (n - k, s.turnAway c (n - k)) else (0, if c = Act.serve then s.testBorrow else s)

/-- What `n` bytes of a move cost. -/
def Move.cost (m : Move) (n : Nat) : Cost := { hbm := if m.hbm then n else 0, link := if m.link then n else 0 }

/-- A move's units ask for admission: whole units of 4 KiB, then the last bytes. -/
def State.admitMove (m : Move) (s : State) : Nat × State :=
  let last := m.bytes % 4096
  let r := s.admitMany m.cls (m.cost 4096) (m.bytes / 4096)
  if r.1 ≠ 0 then (4096 * r.1 + last, r.2)
  else
    let q := r.2.admitMany m.cls (m.cost last) (if last = 0 then 0 else 1)
    (q.1 * last, q.2)

/-- A move starts: what is not admitted now waits (R39). -/
def State.pushMove (m : Move) (s : State) : State :=
  let r := s.admitMove m
  if r.1 = 0 then r.2 else { r.2 with bud := { r.2.bud with moves := r.2.bud.moves ++ [{ m with bytes := r.1 }] } }

/-- The bytes of a move that are not admitted. -/
def moveLeft (s : State) (w : MoveOf) : Nat := ((s.bud.moves.filter fun m => m.what == w).map Move.bytes).sum

/-- A move is given up. -/
def State.dropMove (w : MoveOf) (s : State) : State := { s with bud := { s.bud with moves := s.bud.moves.filter fun m => m.what != w } }

/-- Whether a move is of a learning step's course (R280). -/
def learningMove (s : State) (m : Move) : Bool :=
  match m.what with
  | .ucmd cid _ => ((s.course cid).bind Course.job).elim false fun j => (s.job j.1).learning
  | _ => false

/-- A move that waits for the next boundary behind others. -/
def State.holdMove (m : Move) (s : State) : State := { s with bud := { s.bud with moves := s.bud.moves ++ [m] } }

/-- Waiting moves ask again, in their order, those of learning steps last (R280). -/
def State.pumpMoves (p : Move → Bool) (s : State) : State :=
  let ms := s.bud.moves.filter p
  s.each ((ms.filter fun m => !learningMove s m) ++ ms.filter (learningMove s)) fun m s =>
    ({ s with bud := { s.bud with moves := s.bud.moves.erase m } }).pushMove m

/-- Hold a refused unit for the next boundary (R39). -/
def State.hold (u : WorkUnit) (c : Nat) (x : Cost) (s : State) : State :=
  { s with bud := { s.bud with queue := s.bud.queue ++ [{ unit := u, cls := c, cost := x }] } }

/-! ### The boundary's budget work -/

/-- Cycle 0: the final tallies are latched and admission closes (R42). -/
def State.latchTallies (s : State) : State := { s with bud := { s.bud with final := s.bud.tally, isOpen := false } }

/-- A share raised to the floor of 4 where its class has one (R38). -/
def floorShare (c : Nat) (x : Cost) : Cost :=
  if c = Act.scrub ∨ c = Act.mgmt then ⟨max 4 x.cc, max 4 x.hbm, max 4 x.link⟩ else x

def sumShares (t : Tab Cost) (f : Cost → Nat) : Nat := ((List.range 8).map fun c => f (look {} t c)).sum

/-- The shares of one currency taken from `b` instead of `a`. -/
def takeCur (keepCc keepHbm keepLink : Bool) (old new : Cost) : Cost :=
  ⟨if keepCc then old.cc else new.cc, if keepHbm then old.hbm else new.hbm, if keepLink then old.link else new.link⟩

/-- Cycle 32: floors, then the sum check for each currency; a refused currency keeps its shares in effect and in the shadow
copies, sets SUM_ERR and writes one journal entry (R38). -/
def State.applyShares (s : State) : State :=
  let floored := (List.range 8).foldl (fun t c => adj {} t c (floorShare c)) s.bud.shadow
  let raised := (List.range 8).any fun c => look {} floored c ≠ look {} s.bud.shadow c
  let kc := 1024 < sumShares floored Cost.cc
  let kh := 1024 < sumShares floored Cost.hbm
  let kl := 1024 < sumShares floored Cost.link
  let new := (List.range 8).foldl (fun t c => store {} t c (takeCur kc kh kl (look {} s.bud.share c) (look {} floored c))) []
  let s := { s with bud := { s.bud with
    share := new, shadow := new, floorClamp := sat 8 (s.bud.floorClamp + b2n raised), sumErr := s.bud.sumErr || kc || kh || kl } }
  if kc || kh || kl then s.journal { code := St.budgetRefused, cls := Cls.info, blk := Blk.round } else s

/-- The debt that a class carries (R39): the excess over the effective allowance of the round that ends, capped at one
allowance, the cut counted. -/
def debtOf (s : State) (c : Nat) : Cost := (look {} s.bud.final c).sub (effAllowance s c)

/-- What has been charged since cycle 0 belongs to the round that has begun. -/
def lateOf (s : State) (c : Nat) : Cost := (tallyOf s c).sub (look {} s.bud.final c)

/-- Cycle 32: shares applied, capacities and allowances of the new round, every tally at its debt, borrowing closed. DESIGN CHOICE, where the
manual does not say: the allowance that caps a debt is that of the round that begins, and DEBT_LOST counts one for each currency that is
cut. -/
def State.newBudgets (s : State) : State :=
  let debts := (List.range 8).map fun c => (c, debtOf s c, lateOf s c)
  let s := s.applyShares
  let s := { s with bud := { s.bud with cap := capacity s, borrow := none, refusedNow := [], turned := [] } }
  s.each debts fun cd s =>
    let cut := cd.2.1.min (allowance s cd.1)
    let lost := b2n (cut.cc != cd.2.1.cc) + b2n (cut.hbm != cd.2.1.hbm) + b2n (cut.link != cd.2.1.link)
    { s with bud := { s.bud with
      tally := store {} s.bud.tally cd.1 (cut.add cd.2.2),
      wait := adj {} s.bud.wait cd.1 fun w => { w with debtLost := sat 16 (w.debtLost + lost) } } }

/-- What a write that sets ENABLE does (R485): capacities computed, every tally zero, admission open. -/
def State.freshBudgets (s : State) : State :=
  { s with bud := { s.bud with cap := capacity s, tally := [], borrow := none, refusedNow := [], turned := [], isOpen := true } }

end Sys2Proof.Machine
end

