-- ==== Sys2Proof/Machine/Ports.lean ====
section
/-! DEFINITION. Ethernet ports and CXL ports: links (R311, R312, R427), MACsec (R314, R315, R412), PFC (R317, R318), the port's own
addresses (R316), CXL IDE (R414). -/

namespace Sys2Proof.Machine

/-! ### Sending -/

/-- Sub-ports of a port's mode in effect (R311). -/
def subPorts (s : State) (p : Nat) : Nat := 2 ^ (s.port p).modeEff

/-- Whether a sub-port may send frames other than EAPOL and PFC (R315): its link up, a secure association installed. -/
def canSend (s : State) (p sub : Nat) : Bool := hasPort s p && bit (s.port p).linkUp sub && bit (s.port p).macsecUp sub

/-- The sub-port that item `n` of a stream uses (R321). -/
def subOf (s : State) (p n : Nat) : Nat := n % subPorts s p

/-- Whether a priority of a port is paused (R318). -/
def pausedOn (s : State) (p prio : Nat) : Bool := (s.port p).paused.contains prio

/-- The addressing of a frame that leaves a port with a PCP (R314, R316, R317, R319). -/
def frameTag (s : State) (p prio : Nat) (ect : Bool) : FrameTag := { mac := (s.port p).nextHop, vid := (s.port p).vid, pcp := prio, ect := ect }

/-- A frame of a priority leaves through a sub-port. Nothing does while the sub-port may not send (R315); a frame of a paused priority waits for
XON (R318). DESIGN CHOICE that frames already formed wait in their order and without bound. -/
def State.portOut (p sub prio : Nat) (o : Out) (s : State) : State :=
  if !canSend s p sub then s
  else if pausedOn s p prio then { s with txHeld := s.txHeld ++ [{ port := p, sub := sub, prio := prio, frame := o }] }
  else s.emit o

/-- The frames that waited for a priority that goes on leave, in their order. -/
def State.releaseHeld (p prio : Nat) (s : State) : State :=
  let go := fun (h : Held) => h.port == p && h.prio == prio
  ({ s with txHeld := s.txHeld.filter fun h => !go h }).each (s.txHeld.filter go) fun h s => s.portOut h.port h.sub h.prio h.frame

/-- A frame of Twine on its sub-port. -/
def State.twineOut (p n op tgt : Nat) (w : TwineFrame) (s : State) : State :=
  let prio := (s.port p).tcTwine
  s.portOut p (subOf s p n) prio (.twine p (subOf s p n) op tgt w (frameTag s p prio false))

/-- The port for ring-path traffic of a rail: its own, or while that is down the lowest-numbered port that is up (R427). -/
def ringPort (s : State) (rail : Nat) : Nat :=
  if (s.port rail).linkUp ≠ 0 then rail
  else ((List.range 12).find? fun p => hasPort s p && (s.port p).linkUp != 0).getD rail

/-! ### Links -/

/-- Bit `i` of a mask set or cleared. -/
def setBit (v i : Nat) (b : Bool) : Nat := v - b2n (bit v i) * 2 ^ i + b2n b * 2 ^ i

/-- Whether work in progress uses a port: an open Wale flow, or a RoCE queue pair with work queued. -/
def portBusy (s : State) (p : Nat) : Bool :=
  (s.host.flows.any fun f => f.2.port == p && (f.2.state == .isOpen || f.2.state == .opening))
    || s.host.qps.any fun q => (q.2.typ == 4 || q.2.typ == 5) && q.2.port == p && !q.2.descs.isEmpty

/-- A MACsec state changes; measurement block 7 holds it (R403). -/
def State.setMacsec (p sub : Nat) (b : Bool) (s : State) : State :=
  if bit (s.port p).macsecUp sub = b then s else (s.modPort p fun x => { x with macsecUp := setBit x.macsecUp sub b }).measured

def linkEntry (cxl : Bool) (p sub cls : Nat) : JEntry :=
  { code := St.linkDown, cls := cls, blk := if cxl then Blk.cxl else Blk.eth, unit := if cxl then p else 4 * p + sub, detail := b2n cxl }

/-- LINK_DOWN: an Ethernet sub-port, whose held frames are lost (DESIGN CHOICE), or a CXL port, whose IDE keys must be programmed again
(R414). -/
def State.linkDown (cxl : Bool) (p sub : Nat) (s : State) : State :=
  if cxl then
    if !hasCxl s p ∨ look 0 s.cxl p ≠ 0 then s
    else ({ s with cxl := store 0 s.cxl p 1 }).journal (linkEntry true p 0 Cls.recovered)
  else if !bit (s.port p).linkUp sub then s
  else
    let s := (s.setMacsec p sub false).modPort p fun x =>
      { x with linkUp := setBit x.linkUp sub false, oldSa := x.oldSa.filter fun y => y != sub }
    let s := { s with txHeld := s.txHeld.filter fun h => !(h.port == p && h.sub == sub) }
    s.journal (linkEntry false p sub (if portBusy s p then Cls.workEnded else Cls.recovered))

/-- LINK_UP: link training has completed. A CXL port's IDE keys are programmed. -/
def State.linkUp (cxl : Bool) (p sub : Nat) (s : State) : State :=
  if cxl then
    if !hasCxl s p then s else { s with cxl := store 0 s.cxl p 0, lid := { s.lid with cxlIde := s.lid.cxlIde.filter fun x => x != p } }
  else if !hasPort s p ∨ !(s.port p).enable ∨ subPorts s p ≤ sub then s
  else s.modPort p fun x => { x with linkUp := setBit x.linkUp sub true }

/-- CXL_IDE_LOSS and CXL_IDE_RETURN (R414). -/
def State.cxlIde (p : Nat) (lost : Bool) (s : State) : State :=
  if !hasCxl s p then s
  else { s with lid := { s.lid with cxlIde := (s.lid.cxlIde.filter fun x => x != p) ++ if lost then [p] else [] } }

/-! ### Frames -/

def lossless (s : State) (p prio : Nat) : Bool := bit (s.port p).pfcEn prio

/-- A frame of a lossless priority enters the 512 KiB reserve; XOFF once less than 512 KiB of it is free (R318). -/
def State.buffer (p prio len : Nat) (s : State) : State :=
  if !lossless s p prio then s
  else
    let sent := (s.port p).xoffSent.contains prio
    let s := s.modPort p fun x => { x with rxUsed := adj 0 x.rxUsed prio (· + len) }
    if sent ∨ look 0 (s.port p).rxUsed prio = 0 then s
    else (s.modPort p fun x => { x with xoffSent := prio :: x.xoffSent, xoffTx := sat 16 (x.xoffTx + 1) }).emit (.pfc p prio true)

/-- ETH_FRAME_RECEIVE: size and FEC, then MACsec (R313, R315). -/
def State.ethFrame (p sub : Nat) (e : EthFrame) (s : State) : State :=
  if !bit (s.port p).linkUp sub then s
  else if 9216 < e.len ∨ !e.fecOk then s.modPort p fun x => { x with rxDrop := sat 16 (x.rxDrop + 1) }
  else match e.kind with
    | .pfc | .eapol => s
    | .secured ok =>
      if ok ∧ (bit (s.port p).macsecUp sub ∨ (s.port p).oldSa.contains sub) then s.buffer p (e.prio % 8) e.len
      else s.modPort p fun x => { x with macsecDrop := sat 16 (x.macsecDrop + 1) }
    | .noSecTag => s.modPort p fun x => { x with macsecDrop := sat 16 (x.macsecDrop + 1) }

/-- PFC_XON_SEND: the reserve is free again. -/
def State.pfcXon (p prio : Nat) (s : State) : State :=
  if !(s.port p).xoffSent.contains prio then s
  else (s.modPort p fun x => { x with xoffSent := x.xoffSent.filter fun y => y != prio, rxUsed := store 0 x.rxUsed prio 0 }).emit (.pfc p prio false)

/-- MKA_FRAME: MKA installs an association under a released CAK, the previous one serving until it is retired (R315, R412). -/
def State.mka (p sub : Nat) (m : MkaEvent) (s : State) : State :=
  if !bit (s.port p).linkUp sub ∨ !(s.port p).caks.any fun c => c.1 == sub then s
  else match m with
    | .retire => s.modPort p fun x => { x with oldSa := x.oldSa.filter fun y => y != sub }
    | .install =>
      if bit (s.port p).macsecUp sub then s.modPort p fun x => { x with oldSa := sub :: x.oldSa.filter fun y => y != sub }
      else s.setMacsec p sub true

/-- What a port answers: 1 Neighbor Advertisement, 2 ARP, 3 ICMPv6 and 4 ICMP echo (R316). -/
def State.reply (p kind : Nat) (ok : Bool) (s : State) : State :=
  if !ok then s
  else
    match (List.range (subPorts s p)).find? fun i => canSend s p i with
    | none => s
    | some i => s.portOut p i (s.port p).tcOther (.eth p kind (frameTag s p (s.port p).tcOther false))

/-! ### The commands -/

/-- LINK_DOWN (R427). -/
def execLinkDown (cxl : Bool) (p sub : Nat) (s : State) : Host.Outcome State Fault Refusal :=
  act ((if cxl then okCxl p else okPort p) && okSub sub) s (s.linkDown cxl p sub)

/-- LINK_UP (R427). -/
def execLinkUp (cxl : Bool) (p sub : Nat) (s : State) : Host.Outcome State Fault Refusal :=
  act ((if cxl then okCxl p else okPort p) && okSub sub) s (s.linkUp cxl p sub)

/-- CXL_IDE_LOSS (R414). -/
def execCxlIdeLoss (p : Nat) (s : State) : Host.Outcome State Fault Refusal := act (okCxl p) s (s.cxlIde p true)

/-- CXL_IDE_RETURN (R414). -/
def execCxlIdeReturn (p : Nat) (s : State) : Host.Outcome State Fault Refusal := act (okCxl p) s (s.cxlIde p false)

/-- PAUSE_FRAME (R312): ignored. -/
def execPauseFrame (p : Nat) (s : State) : Host.Outcome State Fault Refusal := act (okPort p) s s

/-- ETH_FRAME_RECEIVE (R313, R315). -/
def execEthFrameReceive (p sub : Nat) (e : EthFrame) (s : State) : Host.Outcome State Fault Refusal := act (okPort p && okSub sub) s (s.ethFrame p sub e)

/-- PFC_XON_SEND (R318). -/
def execPfcXonSend (p prio : Nat) (s : State) : Host.Outcome State Fault Refusal := act (okPort p && okPrio prio) s (s.pfcXon p prio)

/-- MKA_FRAME (R315). -/
def execMkaFrame (p sub : Nat) (m : MkaEvent) (s : State) : Host.Outcome State Fault Refusal := act (okPort p && okSub sub) s (s.mka p sub m)

/-- NEIGHBOR_SOLICITATION (R316). -/
def execNeighborSolicitation (p addr : Nat) (s : State) : Host.Outcome State Fault Refusal :=
  act (okPort p) s (s.reply p 1 ((s.port p).ipv6 != 0 && (s.port p).ipv6 == addr))

/-- ARP_REQUEST (R316). -/
def execArpRequest (p addr : Nat) (s : State) : Host.Outcome State Fault Refusal :=
  act (okPort p) s (s.reply p 2 ((s.port p).v4valid && (s.port p).ipv4 == addr))

/-- ECHO_REQUEST (R316). -/
def execEchoRequest (p : Nat) (v6 : Bool) (addr : Nat) (s : State) : Host.Outcome State Fault Refusal :=
  act (okPort p) s (if v6 then s.reply p 3 ((s.port p).ipv6 != 0 && (s.port p).ipv6 == addr)
    else s.reply p 4 ((s.port p).v4valid && (s.port p).ipv4 == addr))

end Sys2Proof.Machine
end

