-- ==== Sys2Proof/Machine/Formats.lean ====
section
/-! DEFINITION. Numbers: exact values, the storage and tray formats (R90 to R94), one rounding of an exact value (R96 to R101),
and the conversions between classes (R105 to R107). -/

namespace Sys2Proof.Machine

/-! ### Exact arithmetic -/

/-- The number of bits of a natural number. -/
def bitLen (n : Nat) : Nat := if n = 0 then 0 else Nat.log2 n + 1

/-- An integer as an exact value; zero is +0. -/
def FVal.ofInt (i : Int) : FVal := .fin (i < 0) i.natAbs 0

def FVal.isNan : FVal → Bool | .nan => true | _ => false
def FVal.isZero : FVal → Bool | .fin _ 0 _ => true | _ => false
def FVal.sign : FVal → Bool | .nan => false | .inf n => n | .fin n _ _ => n
def FVal.neg : FVal → FVal | .nan => .nan | .inf n => .inf !n | .fin n m e => .fin (!n) m e
def FVal.abs : FVal → FVal | .nan => .nan | .inf _ => .inf false | .fin _ m e => .fin false m e
def FVal.zero : FVal := .fin false 0 0
def FVal.one : FVal := .fin false 1 0

/-- The signed significand of a finite value at a lower exponent `e`. -/
def atExp (neg : Bool) (man : Nat) (exp e : Int) : Int :=
  let m : Int := Int.ofNat (man * 2 ^ (exp - e).toNat)
  if neg then -m else m

/-- The exact product (R95). -/
def FVal.mul (a b : FVal) : FVal :=
  match a, b with
  | .nan, _ => .nan
  | _, .nan => .nan
  | .inf s, .inf t => .inf (s != t)
  | .inf s, .fin t m _ => if m = 0 then .nan else .inf (s != t)
  | .fin s m _, .inf t => if m = 0 then .nan else .inf (s != t)
  | .fin s m e, .fin t n f => .fin (s != t) (m * n) (e + f)

/-- The exact sum (R95, R113): a zero sum is +0 unless both terms are −0. -/
def FVal.add (a b : FVal) : FVal :=
  match a, b with
  | .nan, _ => .nan
  | _, .nan => .nan
  | .inf s, .inf t => if s = t then .inf s else .nan
  | .inf s, _ => .inf s
  | _, .inf t => .inf t
  | .fin s m e, .fin t n f =>
    if m = 0 ∧ n = 0 then .fin (s && t) 0 0
    else if m = 0 then .fin t n f
    else if n = 0 then .fin s m e
    else
      let g := min e f
      let x := atExp s m e g + atExp t n f g
      .fin (x < 0) x.natAbs g

def FVal.sub (a b : FVal) : FVal := a.add b.neg

/-- a < b, for values that are no NaN; +0 and −0 are equal. -/
def FVal.lt (a b : FVal) : Bool :=
  match a, b with
  | .nan, _ => false
  | _, .nan => false
  | .inf s, .inf t => s && !t
  | .inf s, _ => s
  | _, .inf t => !t
  | .fin s m e, .fin t n f =>
    let g := min e f
    decide (atExp s m e g < atExp t n f g)

def FVal.eq (a b : FVal) : Bool := !a.isNan && !b.isNan && !a.lt b && !b.lt a

/-- floor(x × 2^k) of a finite value. -/
def FVal.floorAt (x : FVal) (k : Int) : Int :=
  match x with
  | .fin s m e =>
    let sh := e + k
    if 0 ≤ sh then atExp s m e (-k)
    else
      let d : Nat := 2 ^ (-sh).toNat
      if s then -(Int.ofNat ((m + d - 1) / d)) else Int.ofNat (m / d)
  | _ => 0

/-! ### Rounding to a quantum -/

/-- Whether an inexact quotient `lo` with remainder `rem` of `d` is rounded to the neighbour of larger magnitude (R97, R100);
`u` is the 24-bit random number of SR. -/
def roundsAway (rm : Nat) (neg : Bool) (lo rem d u : Nat) : Bool :=
  if rem = 0 then false
  else match rm with
    | 1 => false
    | 2 => neg
    | 3 => !neg
    | 4 => decide (d ≤ 2 * rem)
    | 5 => lo % 2 == 0
    | 6 => decide (u < rem * 2 ^ 24 / d)
    | _ => d < 2 * rem || (d == 2 * rem && lo % 2 == 1)

/-- The multiple of 2^q to which man × 2^exp is rounded. -/
def roundQ (rm : Nat) (u : Nat) (neg : Bool) (man : Nat) (exp q : Int) : Nat :=
  if q ≤ exp then man * 2 ^ (exp - q).toNat
  else
    let d := 2 ^ (q - exp).toNat
    let lo := man / d
    lo + (if roundsAway rm neg lo (man % d) d u then 1 else 0)

/-! ### Floating formats -/

/-- A floating format: exponent and fraction bits, bias, largest exponent and significand, whether it has infinities, whether it
keeps no subnormals, and its canonical NaN where it has one. -/
structure FFmt where
  eb    : Nat
  fb    : Nat
  bias  : Int
  emax  : Int
  mmax  : Nat
  hasInf : Bool
  flush : Bool
  nanBits : Option Nat

/-- The eight floating storage formats by code, and WA48F otherwise (R10, R90, R94). -/
def ffmt (code : Nat) : FFmt :=
  match code with
  | 0 => ⟨8, 23, 127, 127, 0xFFFFFF, true, true, some 0x7FC00000⟩
  | 1 => ⟨8, 7, 127, 127, 0xFF, true, false, some 0x7FC0⟩
  | 2 => ⟨5, 10, 15, 15, 0x7FF, true, false, some 0x7E00⟩
  | 3 => ⟨4, 3, 7, 8, 0xE, false, false, some 0x7F⟩
  | 4 => ⟨5, 2, 15, 15, 0x7, true, false, some 0x7E⟩
  | 5 => ⟨3, 2, 3, 4, 0x7, false, false, none⟩
  | 6 => ⟨2, 3, 1, 2, 0xF, false, false, none⟩
  | 7 => ⟨2, 1, 1, 2, 0x3, false, false, none⟩
  | _ => ⟨10, 37, 511, 511, 0x3FFFFFFFFF, true, true, some 0x7FF000000000⟩

abbrev wa48f : FFmt := ffmt 16

/-- The value of an encoding (R90, R91, R94, R97). -/
def decF (f : FFmt) (b : Nat) : FVal :=
  let frac := b % 2 ^ f.fb
  let e := b / 2 ^ f.fb % 2 ^ f.eb
  let neg := b / 2 ^ (f.fb + f.eb) % 2 == 1
  if e = 0 then .fin neg (if f.flush then 0 else frac) (1 - f.bias - f.fb)
  else if f.hasInf ∧ e = 2 ^ f.eb - 1 then (if frac = 0 then .inf neg else .nan)
  else if f.nanBits = some 0x7F ∧ b % 128 = 127 then .nan
  else .fin neg (2 ^ f.fb + frac) (Int.ofNat e - f.bias - f.fb)

/-- The encoding of a significand at quantum 2^q that the format holds. -/
def encFin (f : FFmt) (neg : Bool) (m : Nat) (q : Int) : Nat :=
  let s := if neg then 2 ^ (f.fb + f.eb) else 0
  if m = 0 then s
  else
    let m' := if 2 ^ (f.fb + 1) ≤ m then m / 2 else m
    let q' := if 2 ^ (f.fb + 1) ≤ m then q + 1 else q
    if m' < 2 ^ f.fb then s + m'
    else s + (q' + f.fb + f.bias).toNat * 2 ^ f.fb + (m' - 2 ^ f.fb)

def encMax (f : FFmt) (neg : Bool) : Nat := encFin f neg f.mmax (f.emax - f.fb)
def encInf (f : FFmt) (neg : Bool) : Nat :=
  (if neg then 2 ^ (f.fb + f.eb) else 0) + (2 ^ f.eb - 1) * 2 ^ f.fb

/-- What an overflow gives (R98, R101). -/
def overflowBits (f : FFmt) (rm : Nat) (neg : Bool) : Nat :=
  if !f.hasInf then encMax f neg
  else match rm with
    | 1 => encMax f neg
    | 5 => encMax f neg
    | 2 => if neg then encInf f neg else encMax f neg
    | 3 => if neg then encMax f neg else encInf f neg
    | _ => encInf f neg

/-- The encoding to which an exact value is rounded once (R96 to R101, R107). DESIGN CHOICE: R97 flushes an FP32 result below 2^-126 whatever
RM is, so for such values RTO to FP32 and then a directed mode to a narrower format is not the single conversion of R99; the model follows
R97. -/
def roundF (f : FFmt) (rm u : Nat) (x : FVal) : Nat :=
  match x with
  | .nan => f.nanBits.getD 0
  | .inf neg => if f.hasInf then encInf f neg else encMax f neg
  | .fin neg man exp =>
    if man = 0 then encFin f neg 0 0
    else
      let e := Int.ofNat (bitLen man) - 1 + exp
      if f.emax < e then overflowBits f rm neg
      else
        let q := if f.flush then e - f.fb else max (e - f.fb) (1 - f.bias - f.fb)
        let m := roundQ rm u neg man exp q
        let e' := Int.ofNat (bitLen m) - 1 + q
        if f.emax < e' ∨ (e' = f.emax ∧ f.mmax * 2 ^ (e' - f.fb - q).toNat < m) then overflowBits f rm neg
        else if f.flush ∧ (m = 0 ∨ e' < 1 - f.bias) then encFin f neg 0 0
        else encFin f neg m q

/-- An exact value rounded once to a format, as a value again. -/
def roundV (f : FFmt) (rm u : Nat) (x : FVal) : FVal := decF f (roundF f rm u x)

/-- The exact value rounded to WA48F with RNE (R88). -/
def rnd48 (x : FVal) : FVal := roundV wa48f 0 0 x
/-- The exact value rounded to FP32 with RNE. -/
def rnd32 (x : FVal) : FVal := roundV (ffmt 0) 0 0 x

/-! ### Elements of any storage format (R10, R92) -/

inductive SVal where
  | f (x : FVal)
  | i (n : Int)
  deriving DecidableEq, Repr

def isFloat (code : Nat) : Bool := code < 8
/-- The integer formats INT32 to UINT4. -/
def isInt (code : Nat) : Bool := 8 ≤ code && code < 14

/-- Element width in bits. -/
def fmtWidth (code : Nat) : Nat :=
  match code with
  | 0 => 32 | 1 => 16 | 2 => 16 | 3 => 8 | 4 => 8 | 5 => 6 | 6 => 6 | 7 => 4
  | 8 => 32 | 9 => 16 | 10 => 8 | 11 => 8 | 12 => 4 | 13 => 4 | 14 => 2 | _ => 1

def isSigned (code : Nat) : Bool := code != 11 && code != 13

/-- A `w`-bit two's complement number. -/
def signedOf (w n : Nat) : Int :=
  let v := n % 2 ^ w
  if v < 2 ^ (w - 1) then Int.ofNat v else Int.ofNat v - Int.ofNat (2 ^ w)

/-- The value of an element's bits. -/
def decElem (code b : Nat) : SVal :=
  if isFloat code then .f (decF (ffmt code) b)
  else if code = 14 then .i (if b % 4 = 1 then 1 else if b % 4 = 3 then -1 else 0)
  else if code = 15 then .i (if b % 2 = 0 then 1 else -1)
  else if isSigned code then .i (signedOf (fmtWidth code) b)
  else .i (Int.ofNat (b % 2 ^ fmtWidth code))

/-- The exact value of an element (R95). -/
def SVal.val : SVal → FVal | .f x => x | .i n => FVal.ofInt n
/-- The integer value of an element of an integer or discrete format. -/
def SVal.int : SVal → Int | .f _ => 0 | .i n => n

/-! ### Integers (R106) and conversions (R105, R107) -/

/-- The smallest and largest value of a `w`-bit integer. -/
def intMin (w : Nat) (signed : Bool) : Int := if signed then -(Int.ofNat (2 ^ (w - 1))) else 0
def intMax (w : Nat) (signed : Bool) : Int := if signed then Int.ofNat (2 ^ (w - 1)) - 1 else Int.ofNat (2 ^ w) - 1

/-- An exact integer in a destination of `w` bits (R106), as its encoding. -/
def intBits (w : Nat) (signed sat : Bool) (v : Int) : Nat :=
  let v' := if sat then max (intMin w signed) (min (intMax w signed) v) else v
  (v' % Int.ofNat (2 ^ w)).toNat

/-- An exact value rounded to an integer. -/
def roundInt (rm u : Nat) (x : FVal) : Int :=
  match x with
  | .fin neg man exp =>
    let m := Int.ofNat (roundQ rm u neg man exp 0)
    if neg then -m else m
  | _ => 0

/-- A floating value in an integer destination (R105 to R107). -/
def floatToInt (w : Nat) (signed sat : Bool) (rm u : Nat) (x : FVal) : Nat :=
  match x with
  | .nan => 0
  | .inf neg => intBits w signed true (if neg then intMin w signed else intMax w signed)
  | _ => intBits w signed sat (roundInt rm u x)

def clampTrn (v : Int) : Nat := if v < 0 then 3 else if 0 < v then 1 else 0

/-- The encoding in storage format `code` of a value under RM and SAT. -/
def convert (code rm u : Nat) (sat : Bool) (x : SVal) : Nat :=
  if isFloat code then roundF (ffmt code) rm u x.val
  else if code = 14 then
    match x with
    | .f .nan => 0
    | .f (.inf neg) => if neg then 3 else 1
    | .f y => clampTrn (roundInt rm u y)
    | .i n => clampTrn n
  else if code = 15 then
    match x with
    | .f .nan => 0
    | .f y => if y.sign then 1 else 0
    | .i n => if n < 0 then 1 else 0
  else
    match x with
    | .f y => floatToInt (fmtWidth code) (isSigned code) sat rm u y
    | .i n => intBits (fmtWidth code) (isSigned code) sat n

/-! ### Tray entries (R94) -/

/-- The value of a 48-bit entry. -/
def decTray (fmtI : Bool) (e : Nat) : SVal := if fmtI then .i (signedOf 48 e) else .f (decF wa48f e)

/-- A WA48F entry as the device writes it: NaN canonical, an encoding with exponent field 0 zero of its sign (R91, R94). -/
def canonTray (fmtI : Bool) (e : Nat) : Nat := if fmtI then e else roundF wa48f 0 0 (decF wa48f e)

/-- An entry of WA48F or WA48I that holds a storage value exactly (R66). -/
def toTray (x : SVal) : Nat :=
  match x with
  | .f y => roundF wa48f 0 0 y
  | .i n => intBits 48 true false n

/-- The tray entry after one tree sum is added (R88, R95). -/
def accum (fmtI sat : Bool) (e : Nat) (t : FVal) : Nat :=
  if fmtI then
    intBits 48 true sat (signedOf 48 e + t.floorAt 0)
  else roundF wa48f 0 0 ((decF wa48f e).add t)

/-! ### Stochastic rounding's random word (R102) -/

/-- mix64 of R102, over numbers below 2^64. -/
def mix64 (x : Nat) : Nat :=
  let x := x ^^^ (x / 2 ^ 31)
  let x := x * 0x8F3D5A71C6E294B5 % 2 ^ 64
  let x := x ^^^ (x / 2 ^ 27)
  let x := x * 0xB4E61D937AC52F0B % 2 ^ 64
  x ^^^ (x / 2 ^ 33)

/-- s3 of a course's seed record. -/
def seedMix (k : Seed) : Nat :=
  let s1 := mix64 (k.ctxSeed % 2 ^ 64)
  let s2 := mix64 (s1 ^^^ k.gen ^^^ (k.wver * 2 ^ 16 % 2 ^ 64))
  mix64 (s2 ^^^ (k.course % 2 ^ 32))

/-- s4 of an instruction of a cell. -/
def siteMix (s3 lc stream tidx blk off : Nat) : Nat :=
  mix64 (s3 ^^^ lc ^^^ (stream * 2 ^ 10) ^^^ (tidx * 2 ^ 11) ^^^ (blk % 2 ^ 32 * 2 ^ 16) ^^^ (off * 2 ^ 48 % 2 ^ 64))

/-- u of the random word for element term `e`. -/
def randU (s4 e : Nat) : Nat := mix64 (s4 ^^^ e) % 2 ^ 24

end Sys2Proof.Machine
end

