-- ==== Sys2Proof/Machine/Operands.lean ====
section
/-! DEFINITION. Operand layouts of the cell: the instruction word (R53), opcodes and roles (R54, R55), packed elements (R59, R93),
tray rows (R65), chunk widths (R58), run lists (R62). -/

namespace Sys2Proof.Machine

/-! ### The instruction word -/

/-- The 64-bit word of an instruction (R53). -/
def encWord (opc : Nat) (f : CellWord) : Nat :=
  opc * 2 ^ 56 + f.fmta.toNat * 2 ^ 52 + f.fmtb.toNat * 2 ^ 48 + f.rm.toNat * 2 ^ 45 + f.sat.toNat * 2 ^ 44
    + f.tidx.toNat * 2 ^ 39 + f.cnt.toNat * 2 ^ 26 + f.opnd.toNat

/-- The opcodes of R54, R112 and R118. -/
def opAssigned (o : Nat) : Bool :=
  (1 ≤ o && o ≤ 6) || o == 8 || o == 0x20 || o == 0x21 || (0x40 ≤ o && o ≤ 0x51) || o == 0x58 || o == 0x59
    || (0x60 ≤ o && o ≤ 0x69) || (0x80 ≤ o && o ≤ 0x82) || (0x90 ≤ o && o ≤ 0x93) || (0xF0 ≤ o && o ≤ 0xF3) || o == 0xFF

/-- Whether a role enables an opcode (R55). -/
def roleTakes (r : Role) (o : Nat) : Bool :=
  let move := o < 0x10
  let matrix := o == 0x20 || o == 0x21
  let vec := 0x40 ≤ o && o < 0x80
  let tlk := 0x80 ≤ o && o < 0x90
  let tray := 0x90 ≤ o && o < 0x94
  0xF0 ≤ o || match r with
    | .matrix => move || matrix || tray
    | .vector => move || vec || tlk || o == 0x90
    | .reduce => move || vec
    | .stream => move
    | .unused => false

/-! ### Upsett images (R82) -/

/-- `n` little-endian bytes of an image at an offset. -/
def upNum (i : UpsettImage) (off n : Nat) : Nat := leNat (rdBytes i.bytes off n)

/-- The header's fields: image ID, version, logical cell count, and the offsets of the role map and of the route tables. DEDUCED: they
stand in the order in which the manual names them, each section's offset before its length. -/
def upId (i : UpsettImage) : Nat := upNum i 0 4
def upVersion (i : UpsettImage) : Nat := upNum i 4 2
def upCells (i : UpsettImage) : Nat := upNum i 6 2
def upRoleMap (i : UpsettImage) : Nat := upNum i 8 4
def upRouteTables (i : UpsettImage) : Nat := upNum i 16 4

/-- The code of a role in the role map; 0xFF is unused, and so is a code that the manual does not list (DESIGN CHOICE). -/
def roleCode (n : Nat) : Role := match n with | 0 => .matrix | 1 => .vector | 2 => .reduce | 3 => .stream | _ => .unused

/-- The role of a logical cell. -/
def upRole (i : UpsettImage) (lc : Nat) : Role := if lc < upCells i then roleCode (upNum i (upRoleMap i + lc) 1) else .unused

/-- A route entry; its reserved bits are ignored (DESIGN CHOICE). -/
def decRoute (v : Nat) : Route :=
  { target := bits v 0 10, bankKb := bits v 10 10, evc := bits v 20 4, strm := if bit v 24 then .b else .f, valid := bit v 25 }

/-- Route entry `r` of a logical cell. -/
def upRoute (i : UpsettImage) (lc r : Nat) : Option Route :=
  if lc < upCells i then some (decRoute (upNum i (upRouteTables i + 8 * (64 * lc + r)) 8)) else none

/-- The role that the current image gives a logical cell (R82); without an image cells are unconfigured (R449). -/
def roleOf (s : State) (lc : Nat) : Role := s.ups.cur.elim .unused fun i => upRole i lc

/-! ### Elements in a byte array -/

/-- Element `i` of width `w` bits, at most 48, of the array at byte `base` (R93). -/
def elemAt (t : Tab Byte) (base w i : Nat) : Nat :=
  let p := i * w
  bits (leNat (rdBytes t (base + p / 8) 7)) (p % 8) w

/-- Write bits `[lo + w - 1 : lo]` of one byte. -/
def setBits (old lo w v : Nat) : Nat := old - bits old lo w * 2 ^ lo + v % 2 ^ w * 2 ^ lo

/-- Element `i` of width `w` bits of the array at byte `base` written: whole bytes, or the bits of the bytes it spans. -/
def setElem (t : Tab Byte) (base w i v : Nat) : Tab Byte :=
  let p := i * w
  let n := (p % 8 + w + 7) / 8
  let a := base + p / 8
  wrBytes t a (leBytes n (setBits (leNat (rdBytes t a n)) (p % 8) w v))

/-- The elements `vs` written from element `i` on. -/
def setElems (t : Tab Byte) (base w i : Nat) (vs : List Nat) : Tab Byte :=
  match vs with
  | [] => t
  | v :: r => setElems (setElem t base w i v) base w (i + 1) r

/-- The operand bank of a cell (R48). -/
abbrev bankSize : Nat := 1048576
abbrev tableSize : Nat := 32768

/-- Bytes that `n` elements of `w` bits take. -/
def packedLen (w n : Nat) : Nat := ceilDiv (w * n) 8

/-! ### Matrix operands (R58) -/

/-- The 8-bit class of operand A. -/
def class8 (c : Nat) : Bool := (3 ≤ c && c ≤ 7) || (10 ≤ c && c ≤ 13)
def class16 (c : Nat) : Bool := c == 1 || c == 2 || c == 9

/-- The chunk width of a pair of operand formats; 0 where the pair is a plan violation. -/
def chunkWidth (a b : Nat) : Nat :=
  if a = 8 ∨ a = 14 ∨ a = 15 ∨ b = 8 then 0
  else if a = 0 ∨ b = 0 then 8
  else if class16 a ∨ class16 b then 32
  else if b = 14 ∨ b = 15 then 256
  else if b = 7 ∨ b = 12 ∨ b = 13 then 128
  else 64

/-- The tray format of a pair: WA48I when both are integer or discrete. -/
def pairInt (a b : Nat) : Bool := 8 ≤ a && 8 ≤ b
/-- Whether tree nodes add exactly: both operands in the 8-bit class or narrower (R88). -/
def exactTree (a b : Nat) : Bool := class8 a && (class8 b || b == 14 || b == 15)
/-- Whether products round to WA48F: either operand is FP32 (R88). -/
def roundedProd (a b : Nat) : Bool := a == 0 || b == 0

/-- One product of R88. -/
def prodOf (fa fb : Nat) (x y : FVal) : FVal := if roundedProd fa fb then rnd48 (x.mul y) else x.mul y

/-- One node of R88. -/
def nodeOf (fa fb : Nat) (x y : FVal) : FVal := if exactTree fa fb then x.add y else rnd48 (x.add y)

/-- One level of a tree: neighbours added in order, a last one without neighbour passed on. -/
def treeLevel (node : FVal → FVal → FVal) : List FVal → List FVal
  | a :: b :: r => node a b :: treeLevel node r
  | l => l

/-- The binary tree of R88 over a list, `n` levels at most. -/
def treeSum (node : FVal → FVal → FVal) : Nat → List FVal → FVal
  | _, [] => .zero
  | _, [a] => a
  | 0, a :: _ => a
  | n + 1, l => treeSum node n (treeLevel node l)

/-! ### Run lists (R62) -/

structure Run where
  row0  : Nat
  nrows : Nat
  bbase : Nat
  rank  : Nat
  skip  : Bool

/-- A run entry. DESIGN CHOICE: R56 speaks of the reserved bits of an instruction's own operand layout only; those of a run entry, bits
[63:30], are ignored. -/
def runOf (v : Nat) : Run :=
  { row0 := bits v 0 6, nrows := bits v 6 7, bbase := bits v 13 10, rank := 8 * bits v 23 6, skip := bit v 29 }

/-- The entries of run list `r` up to the first whose NROWS is 0. -/
def runList (t : Tab Byte) (r : Nat) : List Run :=
  ((List.range 64).map fun i => runOf (leNat (rdBytes t (512 * r + 8 * i) 8))).takeWhile fun x => x.nrows != 0

/-- Runs cover disjoint rows within 0 to CNT − 1, in ascending order. -/
def runsOk (cnt : Nat) : Nat → List Run → Bool
  | _, [] => true
  | lo, r :: rest => lo ≤ r.row0 && r.row0 + r.nrows ≤ cnt && runsOk cnt (r.row0 + r.nrows) rest

/-! ### Trays and vector registers -/

def Cell.slot (c : Cell) (t : Nat) : Slot := look {} c.slots t
def Cell.setSlot (c : Cell) (t : Nat) (x : Slot) : Cell := { c with slots := store {} c.slots t x }
def Cell.vreg (c : Cell) (r : Nat) : VReg := look {} c.vregs r
def Cell.setVreg (c : Cell) (r : Nat) (x : VReg) : Cell := { c with vregs := store {} c.vregs r x }

/-- Entry (m, n) of a slot, as 48 bits; a slot that is not LIVE reads +0 (R67). -/
def Slot.entry (t : Slot) (m n : Nat) : Nat := if t.live then (look (0 : Entry) t.entries (64 * m + n)).toNat else 0
def Slot.setEntry (t : Slot) (m n v : Nat) : Slot := { t with entries := store 0 t.entries (64 * m + n) (BitVec.ofNat 48 v) }

/-- Element `i` of a vector register, as 32 bits. -/
def VReg.elem (v : VReg) (i : Nat) : Nat := (look (0 : Elem) v.elems i).toNat

/-- Elements `xs` written from element `i` on; any write makes the register LIVE (R109). -/
def VReg.write (v : VReg) (i : Nat) (xs : List Nat) : VReg :=
  match xs with
  | [] => { v with live := true }
  | x :: r => VReg.write { v with elems := store 0 v.elems i (BitVec.ofNat 32 x) } (i + 1) r

/-- The slots of stream F (R50): all 32 on GW960-S (R51). -/
def fsplitOf (s : State) (ctx : Nat) : Nat := if hasTrain s then (s.ctx ctx).fsplit else 32

/-- Whether a slot belongs to a stream (R50). -/
def ownsSlot (fsplit : Nat) (st : Strm) (t : Nat) : Bool :=
  match st with | .f => decide (t < fsplit) | .b => decide (fsplit ≤ t)

def strmNum (st : Strm) : Nat := match st with | .f => 0 | .b => 1

end Sys2Proof.Machine
end

