-- ==== Sys2Proof/Machine/Mailbox.lean ====
section
/-! DEFINITION. The mailbox channels: GO, ACK and the request buffer (R368 to R371), the request header and the checks every
command passes (R374, R376), and the response (R375). -/

namespace Sys2Proof.Machine

/-! ### Buffers as numbers -/

/-- The number whose little-endian bytes a buffer holds. -/
def tabNat (t : Tab Byte) : Nat := t.foldl (fun n p => n + p.2.toNat * 256 ^ p.1) 0

/-- The buffer that holds the little-endian bytes of a number and zero elsewhere. -/
def natTab (n v : Nat) : Tab Byte :=
  (List.range n).filterMap fun i => let b := BitVec.ofNat 8 (v / 256 ^ i); if b = 0 then none else some (i, b)

/-! ### Opcodes (R380 to R388) -/

/-- The number of commands of each group, whose opcodes run on from 0xGG01. -/
def groupSize (g : Nat) : Nat :=
  match g with
  | 1 => 7 | 2 => 5 | 3 => 14 | 4 => 8 | 5 => 7 | 6 => 12 | 7 => 6 | 8 => 3 | 9 => 2 | 10 => 3 | _ => 0

def opcodeKnown (op : Nat) : Bool := 1 ≤ op % 256 && op % 256 ≤ groupSize (op / 256)

/-! ### Channels -/

abbrev Ch.idle : Nat := 0
abbrev Ch.busy : Nat := 1
abbrev Ch.done : Nat := 2
abbrev Ch.unassigned : Nat := 3

/-- MB_STAT.STATE: an unassigned channel reads 3 (R368). -/
def chanState (c : Chan) : Nat := if c.assigned then c.state else Ch.unassigned

/-- Whether a function reaches a channel (R341, R368): the PF reaches every one, a VF those of its own contexts. -/
def chanSeen (s : State) (fn ch : Nat) : Bool := fn == 0 || ((s.chan ch).assigned && (s.chan ch).func == fn)

def dropped (c : Chan) : Chan := { c with drops := sat 16 (c.drops + 1) }

/-- What a response leaves in the response buffer (R375). -/
def respond (s : State) (c : Chan) (status detail len payload : Nat) : Chan :=
  { c with
    state := Ch.done
    rsp := natTab (32 + len) (bytesAt (tabNat c.req) 0 2 + status * 2 ^ 16 + len * 2 ^ 32 + c.goSeq * 2 ^ 64 + detail * 2 ^ 96
      + s.rnd.num % 2 ^ 64 * 2 ^ 128 + c.accept % 2 ^ 64 * 2 ^ 192 + payload * 2 ^ 256) }

/-- Firmware answers a command: the response, STATE DONE, then the MAILBOX_DONE event on ring 0 of the channel's function
(R369). A function-level reset has discarded the response of a command that it found accepted (R373). -/
def State.answer (ch status detail len payload : Nat) (s : State) : State :=
  if (s.chan ch).discard then s.modChan ch fun c => { c with state := Ch.idle, discard := false }
  else
  let s := s.modChan ch fun c => respond s c status detail len payload
  let c := s.chan ch
  s.event c.func 0 { etype := Ev.mailboxDone, flags := 0, ctx := c.ctx, obj := ch, rnd := 0, status := status, detail := 0 }

/-- An accepted GO (R369): the next acceptance number, STATE BUSY; an unassigned opcode is answered at once (R376). -/
def State.accept (ch : Nat) (s : State) : State :=
  let n := (s.mb.number + 1) % 2 ^ 64
  let s := { s with mb := { s.mb with number := n } }
  let s := s.modChan ch fun c => { c with state := Ch.busy, accept := n, goSeq := c.seq, rsp := [] }
  if opcodeKnown (bytesAt (tabNat (s.chan ch).req) 0 2) then s else s.answer ch St.opcodeUnknown 0 0 0

/-- A 64-bit write to MB_CTL (R368, R370): SEQ is stored; GO is taken in IDLE once the device is READY, ACK in DONE; each is
otherwise dropped and counted. An ACK on an unassigned channel has no effect. -/
def State.mbCtl (ch v : Nat) (s : State) : State :=
  let st := chanState (s.chan ch)
  let s := s.modChan ch fun c => { c with seq := bits v 32 32 }
  let s := if bit v 1 then
      if st = Ch.done then s.modChan ch fun c => { c with state := Ch.idle }
      else if st = Ch.unassigned then s
      else s.modChan ch dropped
    else s
  if bit v 0 then
    if st = Ch.idle ∧ s.lid.ready then s.accept ch else s.modChan ch dropped
  else s

/-- A 64-bit write to a request buffer (R370): dropped and counted in BUSY and DONE, otherwise stored. -/
def State.reqWrite (ch off v : Nat) (s : State) : State :=
  let st := chanState (s.chan ch)
  if st = Ch.busy ∨ st = Ch.done then s.modChan ch dropped
  else s.modChan ch fun c => { c with req := wrBytes c.req off (leBytes 8 v) }

/-! ### Commands -/


/-- A response: status, byte offset of the first field refused, payload bytes and payload. -/
structure Reply where
  status  : Nat := St.ok
  detail  : Nat := 0
  len     : Nat := 0
  payload : Nat := 0

def fail (status : Nat) : Reply := { status := status }
/-- FIELD_INVALID at a payload offset. -/
def badField (off : Nat) : Reply := { status := St.fieldInvalid, detail := 32 + off }

/-- What a command's own checks and effect see: the caller's context, the payload, CFLAGS and what is owed at its end. -/
structure Req where
  ctx   : Nat
  pay   : Nat
  flags : Nat
  note  : Notice

def Req.at (r : Req) (off n : Nat) : Nat := bytesAt r.pay off n
def Req.bit (r : Req) (off i : Nat) : Bool := Sys2Proof.Machine.bit (bytesAt r.pay off 1) i

/-- What a command's layout fixes: opcode, payload bytes, the bits of the payload that fields take as (first bit, width),
whether it is marked admin or (P), the CFLAGS bits it takes (R374, R380 to R388), and whether a payload names a unit that the variant lacks
(R3). -/
structure Layout where
  op     : Nat
  len    : Nat := 0
  fields : List (Nat × Nat) := []
  admin  : Bool := false
  long   : Bool := false
  cflags : Nat := 0
  absent : State → Req → Bool := fun _ _ => false

/-- Whether a port number is one of the family's that the variant lacks (R1, R3). -/
def portAbsent (s : State) (p : Nat) : Bool := decide (p < 12) && !hasPort s p

/-- The bits of the payload that no field takes. -/
def stray (fields : List (Nat × Nat)) (pay : Nat) : Nat :=
  pay - (fields.map fun f => bits pay f.1 f.2 * 2 ^ f.1).sum

/-- The first byte of a number that is not zero. -/
def firstByte (v : Nat) : Nat := ((List.range 4096).find? fun i => bytesAt v i 1 != 0).getD 0

/-- The byte offset of the first reserved byte of a request that is not zero, or of a (P) command's WORK_QP when it names no
valid WORK queue pair of the caller (R372). -/
def headerBad (s : State) (l : Layout) (ctx r : Nat) : Option Nat :=
  if bytesAt r 4 4 ≠ 0 then some 4
  else if l.long && !(bit r 159 && (s.qp (bits r 128 18)).typ == 3 && (s.qp (bits r 128 18)).ctx == ctx
      && (s.qp (bits r 128 18)).state != .free) then some 16
  else if bits r 146 13 ≠ 0 then some 16
  else if bits r 160 16 / (l.cflags + 1) ≠ 0 then some 20
  else if bytesAt r 22 10 ≠ 0 then some 22
  else if stray l.fields (r / 2 ^ 256) ≠ 0 then some (32 + firstByte (stray l.fields (r / 2 ^ 256)))
  else none

/-- Groups 0x01, 0x08 and 0x0A run in Shelf (R457). -/
def shelfRuns (op : Nat) : Bool := op / 256 == 1 || op / 256 == 8 || op / 256 == 10

/-- The commands that run on a halted device (R425). -/
def haltRuns (op : Nat) : Bool := [0x0101, 0x0102, 0x0307, 0x0308, 0x0901, 0x0902].contains op

/-- The checks of R376 before a command's own, in their order, after those of R425, R415 and R457. `present` says that the
variant has the units that the command always needs, `owns` that the objects it names are the caller's. -/
def checkReq (s : State) (l : Layout) (present : Bool) (owns : Req → Bool) (c : Chan) (q : Req) (r : Nat) : Option Reply :=
  if s.flt.halted && !haltRuns l.op then some (fail St.deviceFault)
  else if ctxGoing s c.ctx && l.op != 0x0203 then some (fail St.revoked)
  else if (s.pwr.state == .shelf || s.pwr.state == .d3hot) && !shelfRuns l.op then some (fail St.notActive)
  else if !present || l.absent s q then some (fail St.unitAbsent)
  else if l.admin && c.ctx != 0 then some (fail St.adminOnly)
  else if bytesAt r 2 2 < l.len ∨ 4064 < bytesAt r 2 2 then some (fail St.lengthInvalid)
  else match headerBad s l c.ctx r with
    | some d => some { status := St.fieldInvalid, detail := d }
    | none => if c.ctx ≠ 0 ∧ !owns q then some (fail St.notOwner) else none

/-- A channel's request as a number: the header, and REQ_LEN bytes of payload; what stands behind them is no part of it (R374). -/
def reqNat (c : Chan) : Nat :=
  let r := tabNat c.req
  r % 2 ^ (8 * (32 + bytesAt r 2 2))

/-- The request that stands in a channel's buffer. -/
def reqOf (c : Chan) (r : Nat) : Req :=
  { ctx := c.ctx, pay := r / 2 ^ 256, flags := bytesAt r 20 2, note := { qpn := bits r 128 18, tag := bytesAt r 8 8, ctx := c.ctx } }

/-- Commands that act on the same object take effect in acceptance order (R371): a command waits for every earlier one of its
group. -/
def turnOf (s : State) (ch op : Nat) : Bool :=
  s.mb.chans.all fun p => p.1 == ch || chanState p.2 != Ch.busy || (s.chan ch).accept < p.2.accept
    || bytesAt (tabNat p.2.req) 1 1 != op / 256

/-- One mailbox command on a channel: nothing unless the channel is BUSY with that opcode and it is its turn; else the checks,
then the command's own checks and effect as one step (R428), then the response. -/
def State.command (l : Layout) (present : Bool) (owns : Req → Bool) (eff : Req → State → Reply × State) (ch : Nat)
    (s : State) : State :=
  let c := s.chan ch
  let r := reqNat c
  if chanState c = Ch.busy ∧ bytesAt r 0 2 = l.op ∧ turnOf s ch l.op then
    let q := reqOf c r
    match checkReq s l present owns c q r with
    | some x => s.answer ch x.status x.detail 0 0
    | none => let x := eff q s; x.2.answer ch x.1.status x.1.detail x.1.len x.1.payload
  else s

/-- The channel's context owns what the request names. -/
def ownsAny (_ : Req) : Bool := true
/-- The context at payload offset `off` is the caller's. -/
def ownsCtx (off : Nat) (q : Req) : Bool := q.at off 2 == q.ctx

/-- What refuses a command that gives a context an object (R392, R415, R420). -/
def notActive (s : State) (c : Nat) : Option Nat :=
  match (s.ctx c).state with
  | .free => some St.ctxInvalid
  | .created => some St.keySlotEmpty
  | .revoking | .scrubbing => some St.revoked
  | .active | .resetting => none

def pendingReply : Reply := fail St.pending

/-- A response of `n` bytes. -/
def answerOf (n payload : Nat) : Reply := { len := n, payload := payload }

/-- The first check that fails refuses the command; else its effect. -/
def checked (xs : List (Bool × Reply)) (ok : Reply × State) (s : State) : Reply × State :=
  match xs.find? fun x => x.1 with
  | some x => (x.2, s)
  | none => ok

/-- Whole-byte fields of a layout: byte offset and bytes. -/
def fBytes (off n : Nat) : Nat × Nat := (8 * off, 8 * n)
/-- The low `n` bits of a byte. -/
def fBits (off n : Nat) : Nat × Nat := (8 * off, n)

end Sys2Proof.Machine
end

