-- ==== Sys2Proof/Machine/RegRead.lean ====
section
/-! DEFINITION. What each BAR0 register reads: the layouts of every chapter, reserved fields and reserved space as zero (R7). -/

namespace Sys2Proof.Machine

/-- A register value: fields as (first bit, width, value). -/
def pack (fs : List (Nat × Nat × Nat)) : Nat := (fs.map fun f => f.2.2 % 2 ^ f.2.1 * 2 ^ f.1).sum

def countIf {α : Type} (xs : List α) (p : α → Bool) : Nat := (xs.filter p).length
def countTab {α : Type} (t : Tab α) (p : Nat → α → Bool) : Nat := (t.filter fun e => p e.1 e.2).length

/-! ### IDENT and CAPS -/

def variantCode (s : State) : Nat := match s.variant with | .t => 0 | .s => 1 | .c => 2

def readIdent (s : State) : Nat := pack [(0, 16, 0x0960), (16, 4, variantCode s), (20, 8, 0x11)]

def bitmap (n : Nat) (p : Nat → Bool) : Nat := ((List.range n).map fun i => if p i then 2 ^ i else 0).sum

def readCapsUnits (s : State) : Nat :=
  pack [(0, 4, bitmap 4 (hasCd s)), (4, 8, bitmap 8 (hasMsd s)), (12, 4, bitmap 4 (hasCxl s)), (16, 12, bitmap 12 (hasPort s)),
    (28, 1, b2n (hasTrain s)), (29, 1, b2n (hasTrain s)), (30, 1, b2n (hasTrain s))]

def usableTotal (s : State) : Nat := ((List.range 4).map (usableCells s)).sum
def sparesFree (s : State) : Nat := 16 * countIf (List.range 4) (hasCd s) - s.ups.used.length

def readCapsCount (s : State) : Nat := pack [(0, 10, usableTotal s), (16, 7, sparesFree s)]

/-- The version word of a firmware bank: what was last activated into it, or as shipped. -/
def fwVer (s : State) (bank : Nat) : Nat :=
  match s.fw.ver.find? fun p => p.1 == bank with | some p => p.2 | none => Config.shippedFw bank

def readFwVer (s : State) : Nat := pack [(0, 24, fwVer s s.fw.bank)]

/-! ### ROUND and BUDGET -/

def srcState (s : State) : Nat :=
  if !s.rnd.enable then 5
  else if s.rnd.active = 0 then 0 else if s.rnd.active = 1 then 1
  else match s.rnd.mode with | .locked => 2 | .holdover => 3 | .isolated => 4

def readRound (s : State) (off : Nat) : Nat :=
  let r := s.rnd
  if off = 0x0 then pack [(0, 2, r.src), (2, 1, b2n r.enable), (8, 8, r.holdMax), (16, 1, b2n r.lock)]
  else if off = 0x8 then pack [(0, 6, r.len), (8, 6, r.lenEff)]
  else if off = 0x10 then r.num % 2 ^ 64
  else if off = 0x18 then pack [(0, 3, srcState s), (8, 8, r.holdCnt), (16, 1, b2n (!r.lenDue.isEmpty))]
  else if off = 0x20 then pack [(0, 32, r.overruns), (32, 16, r.srcSwitch), (48, 16, r.numJump)]
  else 0

/-- The share fields of TUNE, UPDATE and REDUCE read as zero on GW960-S (R38). -/
def noShare (s : State) (c : Nat) : Bool := !hasTrain s && (c == 1 || c == 2 || c == 5)

def readBudget (s : State) (off : Nat) : Nat :=
  let b := s.bud
  let i := off % 0x40 / 8
  if off < 0x40 then
    let x := look {} b.shadow i
    if noShare s i then 0 else pack [(0, 11, x.cc), (16, 11, x.hbm), (32, 11, x.link)]
  else if off < 0x100 then 0
  else if off < 0x140 then sat 48 (tallyOf s i).cc
  else if off < 0x180 then sat 48 (tallyOf s i).hbm
  else if off < 0x1C0 then sat 48 (tallyOf s i).link
  else if off < 0x200 then let w := look {} b.wait i; pack [(0, 32, w.units), (32, 16, w.rounds), (48, 16, w.debtLost)]
  else if off = 0x200 then sat 48 b.cap.cc
  else if off = 0x208 then sat 48 b.cap.hbm
  else if off = 0x210 then sat 48 b.cap.link
  else if off = 0x218 then
    pack [(0, 11, b.guard.cc), (16, 11, b.guard.hbm), (32, 11, b.guard.link), (48, 1, b2n b.sumErr), (56, 8, b.floorClamp)]
  else 0

/-! ### RESET and POWER -/

/-- The setpoint of a rail in mV (R478, R480). -/
def railSet (s : State) (i : Nat) : Nat :=
  match i with
  | 4 => 800 | 5 => 750 | 6 => 1050 | 7 => 1800 | 8 => 750 | 9 => 1800
  | _ => (s.clk i).vset

def pwrCode (p : PState) : Nat := match p with | .active => 0 | .idleHold => 1 | .shelf => 2 | .d3hot => 3 | .d3cold => 3

/-- The RESET and POWER region. DESIGN CHOICE: the manual does not say when a W1S bit that only triggers (BLK_RST.GO, MB_CTL.GO and ACK)
clears again; it reads as 0, the trigger being taken at the write. -/
def readPower (s : State) (off : Nat) : Nat :=
  let r := s.rst
  if off = 0x0 then pack [(0, 2, r.cls), (8, 8, r.source), (16, 16, r.wCount)]
  else if off = 0x8 then pack [(0, 8, r.sel), (8, 8, r.unit), (17, 1, b2n (!r.busy.isEmpty))]
  else if off = 0x10 then pack [(0, 16, r.resets), (16, 16, r.timeouts), (32, 32, r.errCpl)]
  else if off = 0x18 then pack [(0, 10, r.tmo)]
  else if off = 0x20 then
    pack [(0, 3, pwrCode s.pwr.state), (3, 1, b2n s.pwr.target.isSome), (16, 16, s.pwr.watts), (32, 8, s.pwr.tjMax)]
  else if 0x28 ≤ off ∧ off < 0x48 then
    let d := (off - 0x28) / 8
    if hasCd s d then pack [(0, 12, (s.clk d).freq), (12, 12, (s.clk d).vset), (24, 1, b2n (s.clk d).stretch)] else 0
  else if 0x100 ≤ off ∧ off < 0x150 then
    let i := (off - 0x100) / 8
    let x := look {} s.pwr.sup i
    if i = 3 ∧ !hasCd s 3 then 0
    else pack [(0, 11, railSet s i), (16, 11, x.meas), (32, 1, b2n x.below), (40, 16, x.warn), (56, 8, x.resets)]
  else 0

/-! ### The hoop -/

def readHoop (s : State) (off : Nat) : Nat :=
  let h := s.hoop
  if off = 0x0 then
    pack [(0, 4, h.pos), (4, 4, h.ndev), (8, 1, b2n h.join), (9, 1, b2n h.bypReq), (16, 16, h.tAlign), (32, 1, b2n h.lock)]
  else if off = 0x8 then
    pack [(0, 1, b2n h.bypassed), (1, 1, b2n h.rxLock), (2, 2, h.cause), (8, 4, h.lastPos), (16, 16, h.present),
      (32, 16, (h.loopErr % 65536).toNat)]
  else if 0x10 ≤ off ∧ off < 0x30 then
    let i := (off - 0x10) / 8
    pack [(0, 16, look 0 h.path (4 * i)), (16, 16, look 0 h.path (4 * i + 1)), (32, 16, look 0 h.path (4 * i + 2)),
      (48, 16, look 0 h.path (4 * i + 3))]
  else if off = 0x30 then pack [(0, 16, h.crcErr), (16, 16, h.late), (32, 16, h.msgDrop), (48, 16, h.hopDrop)]
  else if off = 0x38 then s.rnd.gtime % 2 ^ 64
  else 0

/-! ### EVENT and COPY -/

/-- The queue pairs of a function's contexts. -/
def qpsOfFn (s : State) (fn : Nat) : List (Nat × Qp) :=
  s.host.qps.filter fun p => p.2.state != .free && (s.ctx p.2.ctx).func == fn

def undelivered (q : Qp) : Nat := q.und.length

def readEvent (s : State) (fn off : Nat) : Nat :=
  let f := s.fnOf fn
  if off = 0x0 then pack [(0, 16, bitmap 16 fun i => (s.ring fn i).set), (16, 16, f.dbDrop), (32, 16, f.lost)]
  else if off = 0x8 then
    pack [(0, 1, b2n s.host.linkUp), (16, 16, s.host.losses), (32, 32, ((qpsOfFn s fn).map fun p => undelivered p.2).sum)]
  else if off = 0x10 then if fn = 0 then sat 32 s.host.refused else 0
  else if 0x100 ≤ off ∧ off < 0x180 then (s.ring fn ((off - 0x100) / 8)).head
  else 0

/-- The engine that serves a queue pair of a COPY type (R353). -/
def engineOf (qpn typ : Nat) : Nat :=
  if typ = 0 then qpn % 16 else if typ = 1 then 16 + qpn % 16 else if typ = 2 then 32 + qpn % 8 else 16 + qpn % 16

/-- The descriptors active on an engine: the first of each queue pair it serves, HOSTOUT copies among them, 64 in all. -/
def engineActive (s : State) (e : Nat) : Nat :=
  min 64 (countTab s.host.qps fun n q => engineOf n q.typ == e && q.descs.any fun x => decide (q.typ < 3) || x.copy.isSome)

def readCopy (s : State) (off : Nat) : Nat :=
  if off < 0x140 then
    let e := off / 8
    let c := look {} s.host.ce e
    pack [(0, 7, engineActive s e), (16, 16, c.faults), (32, 32, c.stale)]
  else 0

/-! ### LID and FAULT -/

/-- Bursts in flight for a context's slot (R265): its copies that an engine has begun, the moves of its frames, the fetches of its weavers, and
the commands of U lists whose units have been asked for. DESIGN CHOICE: each of them holds one burst. -/
def inflightOf (s : State) (ctx : Nat) : Nat :=
  (countTab s.host.qps fun _ q => q.ctx == ctx && decide (q.typ ≤ 2) && q.descs.any DescS.started)
    + (countTab s.mem.frames fun _ e => !e.stakeKey && e.key == ctx && e.burst.isSome)
    + (countTab s.weav.dir fun _ w => w.keySlot == ctx && w.burst.isSome)
    + (s.msd.map fun p => countIf p.2.lists fun u => u.asked.elim false fun x => x.1 == ctx).sum

def liveCount (t : Tab KeySlot) (p : Nat → Bool) : Nat := countTab t fun n k => p n && k.state == .live

def readLid (s : State) (off : Nat) : Nat :=
  let l := s.lid
  if off = 0x0 then
    pack [(0, 1, b2n l.ready), (1, 1, b2n l.anchor.isSome), (2, 1, b2n l.jtag), (3, 1, b2n l.linkIde),
      (8, 8, countTab l.sess fun _ x => x.isOpen), (16, 7, l.grants.length), (32, 13, liveCount l.tenant fun _ => true),
      (48, 5, liveCount l.stake fun _ => true)]
  else if off = 0x8 then pack [(0, 16, l.released), (16, 16, l.refused), (32, 16, l.revoked), (48, 16, l.forced)]
  else if off = 0x10 then pack [(0, 32, l.measGen)]
  else if off = 0x18 then
    pack [(0, 12, l.lastCtx), (16, 12, countTab s.ctxs fun _ c => c.state == .revoking || c.state == .scrubbing),
      (32, 16, sat 16 (inflightOf s l.lastCtx))]
  else 0

def readFault (s : State) (off : Nat) : Nat :=
  let f := s.flt
  if off = 0x0 then f.head % 2 ^ 64
  else if off = 0x8 then pack [(0, 16, f.nRec), (16, 16, f.nWork), (32, 16, f.nBlk), (48, 16, f.nDev)]
  else if off = 0x10 then pack [(0, 12, f.sel)]
  else if off = 0x18 then
    pack [(0, 16, f.polClock), (16, 16, f.polPlace), (32, 16, f.polLink), (48, 16, if hasTrain s then f.polTwine else 0)]
  else if 0x20 ≤ off ∧ off < 0x60 then bytesAt (jBytes (look {} f.ring f.sel)) (off - 0x20) 8
  else if off = 0x60 then pack [(0, 1, b2n f.halted), (16, 16, f.code)]
  else 0

/-! ### MAILBOX, ports and memory-side dies -/

def readMailbox (s : State) (fn off : Nat) : Nat :=
  let ch := off / 0x4000
  let o := off % 0x4000
  let c := s.chan ch
  if !chanSeen s fn ch then 0
  else if o = 0x0 then pack [(32, 32, c.seq)]
  else if o = 0x8 then pack [(0, 2, chanState c), (16, 16, c.drops), (32, 32, c.accept)]
  else if o = 0x10 then if c.assigned then pack [(0, 12, c.ctx), (12, 7, c.func), (19, 1, 1)] else 0
  else if 0x1000 ≤ o ∧ o < 0x2000 then leNat (rdBytes c.req (o - 0x1000) 8)
  else if 0x2000 ≤ o ∧ o < 0x3000 then leNat (rdBytes c.rsp (o - 0x2000) 8)
  else 0

def readPort (s : State) (p off : Nat) : Nat :=
  let x := s.port p
  if !hasPort s p then 0
  else if off = 0x0 then pack [(0, 2, x.mode), (2, 1, b2n x.enable), (16, 12, x.vid), (32, 1, b2n x.lock)]
  else if off = 0x8 then
    pack [(0, 3, x.tcMgmt), (4, 3, x.tcTwine), (8, 3, x.tcBulk), (12, 3, x.tcRoce), (16, 3, x.tcOther), (24, 8, x.pfcEn)]
  else if off = 0x10 then pack [(0, 4, x.linkUp), (4, 4, x.macsecUp)]
  else if off = 0x18 then pack [(0, 16, x.rxDrop), (16, 16, x.macsecDrop), (32, 16, x.xoffTx), (48, 16, x.xoffRx)]
  else if off = 0x20 then pack [(0, 32, x.retx), (32, 16, x.flowFail), (48, 16, x.sealDrop)]
  else if off = 0x28 then pack [(0, 1, b2n x.adaptEn), (8, 8, x.retrainMax), (16, 32, x.retrains)]
  else
    let t := if hasTrain s then look {} s.train.twn p else { drop := (look ({} : TwnCnt) s.train.twn p).drop }
    if off = 0xF000 then pack [(0, 32, t.contrib), (32, 32, t.result)]
    else if off = 0xF008 then pack [(0, 16, t.bounce), (16, 16, t.lost), (32, 16, t.staleKey), (48, 16, t.drop)]
    else 0

/-- The memory-side die that a frame lies in (R210). -/
def msdOfFrame (f : Nat) : Nat := f / 24576

/-- A frame whose content has left and whose zeroing runs is not FREE yet (R217). -/
def frameFree (f : FrameE) : Bool := f.state == .free && !f.zeroing

def framesIn (s : State) (d : Nat) (p : FrameE → Bool) : Nat := countTab s.mem.frames fun f e => msdOfFrame f == d && p e

def readMsd (s : State) (d off : Nat) : Nat :=
  let m := look {} s.mem.mig d
  let x := s.msdOf d
  if !hasMsd s d then 0
  else if off = 0x0 then
    pack [(0, 15, 24576 - framesIn s d fun e => !frameFree e),
      (16, 15, framesIn s d fun e => e.state == .filling || e.state == .promoting),
      (32, 15, framesIn s d fun e => e.state == .evicting || e.state == .demoting), (48, 15, framesIn s d fun e => e.state == .dirty)]
  else if off = 0x8 then pack [(0, 16, m.promoted), (16, 16, m.demoted), (32, 16, m.evicted), (48, 16, m.deferred)]
  else if off = 0x10 then pack [(0, 16, m.limQuota), (16, 16, m.limMoves), (32, 16, m.limBudget), (48, 16, m.limSpace)]
  else if off = 0x18 then
    pack [(0, 16, m.detected), (16, 16, m.repaired), (32, 16, m.failed),
      (48, 7, countIf s.mem.repairs fun r => msdOfFrame r.frame == d && !r.failed)]
  else if off = 0x40 then
    pack [(0, 6, countIf x.lists fun u => !u.ended), (8, 4, 0), (16, 11, (x.lists.map fun u => u.kb).sum)]
  else if off = 0x48 then pack [(0, 32, x.done), (32, 16, x.timeout), (48, 16, x.viol)]
  else if off = 0x50 then pack [(0, 32, x.corrected), (32, 16, x.uncorrected), (48, 16, x.tagErr)]
  else if off = 0x58 then pack [(0, 32, x.stale), (32, 32, x.noKey)]
  else if off = 0x60 then pack [(0, 1, b2n x.scrubEn)]
  else if off = 0x68 then pack [(0, 15, x.scrubUnit / 512), (16, 32, x.passes)]
  else 0

/-! ### The whole map -/

/-- The 64 bits at a register's offset as a function reads them (R341): through a VF every region but IDENT, ROUND, BUDGET,
EVENT and MAILBOX reads as zero. -/
def readReg (s : State) (fn off : Nat) : Nat :=
  let r := off / 0x10000
  let o := off % 0x10000
  if off % 8 ≠ 0 then 0
  else if r = 0 then
    (if o = 0x0 then readIdent s else if o = 0x8 then readCapsUnits s else if o = 0x10 then readCapsCount s
     else if o = 0x18 then readFwVer s else if o = 0x20 then s.rsvdAcc else 0)
  else if r = 1 then readRound s o
  else if r = 2 then readBudget s o
  else if r = 5 then readEvent s fn o
  else if 0x10 ≤ r ∧ r < 0x20 then readMailbox s fn (off - 0x100000)
  else if fn ≠ 0 then 0
  else if r = 3 then readPower s o
  else if r = 4 then readHoop s o
  else if r = 6 then readCopy s o
  else if r = 7 then readLid s o
  else if r = 8 then readFault s o
  else if 0x20 ≤ r ∧ r < 0x2C then readPort s (r - 0x20) o
  else if 0x40 ≤ r ∧ r < 0x48 then readMsd s (r - 0x40) o
  else 0

end Sys2Proof.Machine
end

