-- ==== Sys2Proof/Machine/Memory.lean ====
section
/-! DEFINITION. The memory tiers: accounts, frames, slow-tier addresses, resolution of device virtual addresses, reads and writes
of bytes, poisoned lines, and the frame state changes that commands share (R202 to R240). -/

namespace Sys2Proof.Machine

/-! ### Frames and accounts (R210, R217 to R222, R228) -/

/-- The account of the commons. -/
abbrev commonsAcct : Nat := 4096
abbrev frameBytes : Nat := 2097152

/-- Firmware's own frames: the 32 highest indices of each stack (R220). -/
def fwFrame (f : Nat) : Bool := decide (24544 ≤ f % 24576)
def ownerOf (e : FrameE) : Nat := if e.commons then commonsAcct else e.ctx

/-- Frames charged to an account, from allocation to FREE (R220). -/
def chargedT1 (s : State) (a : Nat) : Nat := countTab s.mem.frames fun f e => !frameFree e && !fwFrame f && ownerOf e == a

/-- The account that a page-table entry's slow-tier page is charged to; a tenant's mapping of a shared page charges nothing. -/
def pteOwner (k : Nat) (e : Pte) : Option Nat :=
  if e.sharedOf.isSome then none else some (if e.shared then commonsAcct else k / 2 ^ 25)

def holdsT2 (e : Pte) : Bool := e.valid && (e.tier == .t2 || e.backed)
/-- T2 pages charged to an account, backing copies included (R220): those of its pages, and the package pages behind its weavers' frames. -/
def chargedT2 (s : State) (a : Nat) : Nat :=
  countTab s.mem.pte (fun k e => holdsT2 e && pteOwner k e == some a)
    + countTab s.mem.frames fun _ e => e.kind == 3 && e.backed && ownerOf e == a

/-- PTEs that name a frame. -/
def ptesOf (s : State) (f : Nat) : List Nat := keysWhere s.mem.pte fun _ e => e.valid && e.tier == .t1 && e.frame == f

/-- PTEs that name a slow-tier page. -/
def ptesAt (s : State) (sda : Nat) : List Nat := keysWhere s.mem.pte fun _ e => e.valid && e.tier == .t2 && e.sda == sda

/-- PINS of a frame (R219): courses, fixed pins, and the explicit pins on its page. -/
def pinsOf (s : State) (f : Nat) : Nat :=
  (s.frame f).coursePins + (s.frame f).fixedPins + ((ptesOf s f).map fun k => (s.pteAt k).epins.length).sum

/-- Whether a segment of a course is not one whose every row's context has gone (R164). -/
def segLive (c : Course) (g : SegEntry) : Bool :=
  let rs := (c.rows.drop g.row0).take g.nrows
  rs.isEmpty || rs.any fun r => !r.gone

/-- Courses in flight that use a weaver: of its segments, of a side slot that it owns, and of a generation whose commons Q it is (R130, R151,
R155). -/
def coursesUsing (s : State) (h : Nat) : Nat :=
  (s.crs.running.filter fun c =>
    (c.segs.any fun g => !g.baseOnly && segLive c g && (g.handle == h || c.side.any fun x => x.handle == g.handle && x.owner == h))
      || (s.stake c.sid).gens.any fun p => p.2.gen == c.gen && p.2.qSel && p.2.commonsQ == h).length

/-- A weaver's residency holds its frames (R218), and so does a weaver that is REMOVING while a course uses it (R155). -/
def weaverHolds (s : State) (h : Nat) (w : Weaver) (f : Nat) : Bool :=
  w.frames.contains f && (w.state == .resident || w.state == .fetching || (w.state == .removing && coursesUsing s h != 0))
def genHolds (g : Gen) (f : Nat) : Bool := g.state != .absent && g.state != .freeing && g.frames.contains f

/-- HOLDERS of a frame (R218). -/
def holdersOf (s : State) (f : Nat) : Nat :=
  ((ptesOf s f).filter fun k => (s.pteAt k).held).length
    + countTab s.weav.dir (fun h w => weaverHolds s h w f)
    + (s.stakes.map fun p => countTab p.2.gens fun _ g => genHolds g f).sum

/-- The lowest FREE frame of a stack, firmware's apart (R228). -/
def lowestFree (s : State) (d : Nat) : Option Nat :=
  let f := s.mem.frames.foldl (fun c p => if p.1 == c && !frameFree p.2 then c + 1 else c) (d * 24576)
  if f < d * 24576 + 24544 then some f else none

/-- The frame that an allocation takes (R228): the hinted stack, or PAGE mod the fitted stacks, then the next ones. -/
def pickFrame (s : State) (hint page : Nat) : Option Nat :=
  let n := msdCount s
  let st := if hint = 15 then page % n else if hint < n then hint else 0
  (List.range n).findSome? fun i => lowestFree s ((st + i) % n)

/-- Whether an account may take `n` more frames. -/
def hasRoom (s : State) (a n : Nat) : Bool := decide (chargedT1 s a + n ≤ (s.acct a).q1)

/-- FIXED pins of a kind (R219). -/
def fixedOf (kind : Nat) : Nat := if 5 ≤ kind ∧ kind ≤ 7 then 1 else 0

/-- A frame taken from FREE. -/
def State.takeFrame (f : Nat) (e : FrameE) (s : State) : State :=
  s.modFrame f fun _ => { e with fixedPins := max e.fixedPins (fixedOf e.kind), lastRnd := s.rnd.num % 2 ^ 32 }

/-- A frame's content is discarded and it is being zeroed (R217), its 2 MiB of writes under SCRUB; it stays charged until FREE. -/
def State.zeroFrame (f : Nat) (s : State) : State :=
  let e := s.frame f
  let s := s.modFrame f fun e =>
    { e with state := .evicting, zeroing := true, mapped := false, backed := false, cleaning := false, pass := 0, dirty := 0, byHeat := none, burst := none }
  if e.zeroing then s
  else (s.dropMove (.frame f)).pushMove { what := .zero f, cls := Act.scrub, link := false, bytes := frameBytes }

/-! ### Slow-tier addresses (R204 to R206) -/

def sdaSpace (a : Nat) : Nat := a / 2 ^ 56
def sdaOff (a : Nat) : Nat := a % 2 ^ 48

/-- The capacity of the CXL pool (R205): WAYS times the smallest expander less its base, at most 8 TiB. -/
def poolBytes (s : State) : Nat :=
  match s.mem.pool with
  | none => 0
  | some p =>
    let caps := (p.map.zip p.base).map fun x => Config.expanderBytes x.1 - x.2
    min (2 ^ 43) (p.ways * caps.foldl min (2 ^ 43))

def region (s : State) (n : Nat) : Region := look {} s.mem.regions n

/-- The bytes that a space holds. -/
def spaceBytes (s : State) (sp : Nat) : Nat := if sp = 0 then poolBytes s else if (region s sp).reg then (region s sp).len else 0

/-- Whether an address lies in the pool, of a variant that has none (R243). -/
def poolAbsent (s : State) (a : Nat) : Bool := sdaSpace a == 0 && s.variant == .c

/-- What refuses a slow-tier address of `n` bytes, if anything (R204, R206, R243). -/
def sdaBad (s : State) (a n : Nat) (write : Bool) : Option Nat :=
  if poolAbsent s a then some St.unitAbsent
  else if 64 < sdaSpace a ∨ a / 2 ^ 48 % 256 ≠ 0 then some St.addrInvalid
  else if sdaSpace a ≠ 0 ∧ !(region s (sdaSpace a)).reg then some St.regionInvalid
  else if spaceBytes s (sdaSpace a) < sdaOff a + n then some St.addrInvalid
  else if write ∧ sdaSpace a ≠ 0 ∧ (region s (sdaSpace a)).ro then some St.regionInvalid
  else none

/-- Where a byte of the slow tier lies (R205, R206): in the pool, the port and the address behind it; in a host region, its host address. -/
def slowKey (s : State) (a : Nat) : Nat :=
  match sdaSpace a, s.mem.pool with
  | 0, some p =>
    let o := sdaOff a
    let g := o / 4096
    let way := g % p.ways
    p.map.getD way 0 * 2 ^ 50 + (p.base.getD way 0 + g / p.ways * 4096 + o % 4096)
  | 0, none => sdaOff a
  | sp, _ => 2 ^ 60 + (region s sp).base + sdaOff a

/-- Whether a CXL port serves the pool: fitted, its link up, and not without the IDE that R414 asks for. -/
def cxlServes (s : State) (p : Nat) : Bool := hasCxl s p && look 0 s.cxl p == 0 && (!s.lid.cxlIde.contains p || s.lid.plainOk)

/-- Whether every port that the pool's space needs serves; host regions need the PCIe link. -/
def slowUp (s : State) (a : Nat) : Bool :=
  match sdaSpace a, s.mem.pool with
  | 0, some p => p.map.all (cxlServes s)
  | _, _ => s.host.linkUp

/-- How the bytes of a part of the slow tier are sealed (R140, R231): the key, and the address from which its 4 KiB data units count. -/
structure Seal where
  key  : Nat
  base : Nat
  deriving DecidableEq, Repr

/-- Two blocks exchanged. -/
def swapBlock (x : BitVec 128 × BitVec 128) (b : BitVec 128) : BitVec 128 := if b = x.1 then x.2 else if b = x.2 then x.1 else b

/-- A 16-byte block encrypted, for a key, a data unit's number and a block of the unit; and decrypted. -/
def xtsLock (key unit i : Nat) (bs : List Byte) : List Byte :=
  leBytes 16 ((Config.xts key unit i).foldl (fun b x => swapBlock x b) (BitVec.ofNat 128 (leNat bs))).toNat
def xtsUnlock (key unit i : Nat) (bs : List Byte) : List Byte :=
  leBytes 16 ((Config.xts key unit i).foldr swapBlock (BitVec.ofNat 128 (leNat bs))).toNat

/-- Block `i` of a part, encrypted; and decrypted. -/
def Seal.lock (c : Seal) (i : Nat) (bs : List Byte) : List Byte := xtsLock c.key (i / 256) (i % 256) bs
def Seal.unlock (c : Seal) (i : Nat) (bs : List Byte) : List Byte := xtsUnlock c.key (i / 256) (i % 256) bs

/-- `n` blocks of a byte string in turn, the first of number `i`. -/
def mapBlocks (f : Nat → List Byte → List Byte) : Nat → Nat → List Byte → List Byte
  | 0, _, _ => []
  | n + 1, i, bs => f i (bs.take 16) ++ mapBlocks f n (i + 1) (bs.drop 16)

/-- The first block that a range touches, and how many it touches. -/
def Seal.first (c : Seal) (a : Nat) : Nat := (a - c.base) / 16
def Seal.count (c : Seal) (a n : Nat) : Nat := ceilDiv (a - c.base + n) 16 - c.first a

/-- The bytes that stand in the slow tier: ciphertext. -/
def slowRaw (s : State) (a n : Nat) : List Byte := (List.range n).map fun i => look 0 s.mem.slow (slowKey s (a + i))

/-- The plaintext of the blocks that a range touches. -/
def slowBlocks (c : Seal) (s : State) (a n : Nat) : List Byte :=
  mapBlocks c.unlock (c.count a n) (c.first a) (slowRaw s (c.base + 16 * c.first a) (16 * c.count a n))

/-- The plaintext of a range of a part. -/
def slowRead (c : Seal) (s : State) (a n : Nat) : List Byte := ((slowBlocks c s a n).drop (a - c.base - 16 * c.first a)).take n

/-- Bytes written to the slow tier as they stand there. -/
def State.slowStore (a : Nat) (bs : List Byte) (s : State) : State :=
  { s with mem := { s.mem with slow := (bs.zip (List.range bs.length)).foldl (fun t x => store 0 t (slowKey s (a + x.2)) x.1) s.mem.slow } }

/-- Plaintext written to a range of a part, encrypted on its way; the other bytes of the blocks that it touches keep their plaintext. A line that
is written wholly carries poison no more. -/
def State.slowWrite (c : Seal) (a : Nat) (bs : List Byte) (s : State) : State :=
  let n := bs.length
  let o := a - c.base - 16 * c.first a
  let old := slowBlocks c s a n
  let out := mapBlocks c.lock (c.count a n) (c.first a) (old.take o ++ bs ++ old.drop (o + n))
  let s := s.slowStore (c.base + 16 * c.first a) out
  { s with mem := { s.mem with slowBad := s.mem.slowBad.filter fun l => decide (l * 64 < a) || decide (a + n < l * 64 + 64) } }

/-- Every line of a range of a part that carries poison from now on (R237). -/
def State.slowSpoil (a n : Nat) (s : State) : State :=
  { s with mem := { s.mem with slowBad := s.mem.slowBad ++ (List.range ((a + n + 63) / 64 - a / 64)).map (a / 64 + ·) } }

/-- The lines of a slow-tier range that carry poison (R237): their 64-byte lines counted from SDA 0. -/
def slowBadIn (s : State) (a n : Nat) : List Nat :=
  s.mem.slowBad.filter fun l => decide (l * 64 < a + n) && decide (a < l * 64 + 64)

/-- The slow-tier pages in use: pages, backing copies and packages. -/
def sdaUsed (s : State) (page : Nat) : Bool :=
  (s.mem.pte.any fun p => holdsT2 p.2 && p.2.sda / frameBytes == page)
    || (s.mem.frames.any fun p => p.2.backed && p.2.back / frameBytes == page)
    || (s.weav.dir.any fun p => p.2.state != .free && decide (p.2.slow < (page + 1) * frameBytes)
          && decide (page * frameBytes < p.2.slow + p.2.pkgPages * 4096))

/-- Whether any page or backing copy lies in a space (R205, R206). -/
def spaceUsed (s : State) (sp : Nat) : Bool :=
  (s.mem.pte.any fun p => holdsT2 p.2 && sdaSpace p.2.sda == sp) || (s.mem.frames.any fun p => p.2.backed && sdaSpace p.2.back == sp)

/-- The writable spaces with their whole 2 MiB pages. -/
def t2Spaces (s : State) : List (Nat × Nat) :=
  (0, poolBytes s / frameBytes) :: ((s.mem.regions.filter fun p => p.2.reg && !p.2.ro).map fun p => (p.1, p.2.len / frameBytes))

/-- The SDA of page `i` of all spaces in turn. -/
def nthPage : List (Nat × Nat) → Nat → Nat
  | [], _ => 0
  | (sp, n) :: r, i => if i < n then sp * 2 ^ 56 + i * frameBytes else nthPage r (i - n)

/-- A 2 MiB page of the slow tier for an account with room: which free page is a free choice of the device. -/
def State.takeT2 (a : Nat) (s : State) : Option Nat × State :=
  let sp := t2Spaces s
  let total := (sp.map Prod.snd).sum
  if (s.acct a).q2 ≤ chargedT2 s a ∨ total = 0 then (none, s)
  else
    let x := s.fresh
    let tries := s.mem.pte.length + s.mem.frames.length + (s.weav.dir.map fun p => p.2.pkgPages / 512 + 2).sum + 1
    ((List.range (min tries total)).findSome? fun i =>
      let p := nthPage sp ((x.1 + i) % total)
      if sdaUsed s (p / frameBytes) then none else some p, x.2)

/-! ### Device virtual addresses (R203, R207 to R209) -/

/-- Where an address leads. -/
inductive Spot where
  | unmapped
  | zero (key : Nat)
  | frame (f off : Nat)
  | slow (sda : Nat)
  deriving DecidableEq, Repr

def spotOf (k : Nat) (e : Pte) (off : Nat) : Spot :=
  if !e.valid then .unmapped
  else match e.tier with
    | .zero => .zero k
    | .t1 => .frame e.frame off
    | .t2 => .slow (e.sda + off)

/-- The generation slot that holds a stamp of a stake set. -/
def genOf (s : State) (sid stamp : Nat) : Option Gen :=
  ((s.stake sid).gens.find? fun p => p.2.gen == stamp && p.2.state != .absent).map Prod.snd

/-- An offset into a stake set's image part resolves below IMG_PAGES of the generation (R203). -/
def imageSpot (s : State) (sid stamp off : Nat) : Spot :=
  match genOf s sid stamp with
  | none => .unmapped
  | some g => if off < g.imgPages * 4096 then (match g.frames[off / frameBytes]? with | some f => .frame f (off % frameBytes) | none => .unmapped)
              else .unmapped

/-- Private and commons addresses of a context, commons through a generation stamp (R203). -/
def spotAt (s : State) (ctx stamp dva : Nat) : Spot :=
  if dva < 2 ^ 46 then
    let k := pteKey ctx (dva / frameBytes)
    spotOf k (s.pteAt k) (dva % frameBytes)
  else if dva < 2 ^ 47 then imageSpot s (bits dva 38 8) stamp (bits dva 0 38)
  else .unmapped

/-! ### Poisoned lines (R237 to R240) -/

def lineBad (s : State) (f off n : Nat) : Bool :=
  s.mem.lines.any fun x => x.1 == f && decide (x.2 * 64 < off + n) && decide (off < x.2 * 64 + 64)

/-- The granule of the first poisoned line in a range. -/
def badGranule (s : State) (f off n : Nat) : Nat :=
  (((List.range ((off + n - 1) / 4096 - off / 4096 + 1)).map fun i => off / 4096 + i).find? fun g =>
    lineBad s f (max off (4096 * g)) (min (off + n) (4096 * g + 4096) - max off (4096 * g))).getD (off / 4096)

/-- POISON of a frame and of the PTEs of its page follows its lines, and so does the list of its poisoned granules. -/
def State.refreshPoison (f : Nat) (s : State) : State :=
  let still := fun (m : Nat × Nat × Nat) => m.1 != f || s.mem.lines.any (fun x => x.1 == f && x.2 / 64 == m.2.1)
  let s := { s with mem := { s.mem with marks := s.mem.marks.filter still } }
  let b := s.mem.lines.any fun x => x.1 == f
  (s.modFrame f fun e => { e with poison := b }).each (ptesOf s f) fun k s => s.modPte k fun e => { e with poison := b }

def State.clearLines (f lo hi : Nat) (s : State) : State :=
  let s := { s with mem := { s.mem with lines := s.mem.lines.filter fun x => !(x.1 == f && decide (lo ≤ x.2) && decide (x.2 < hi)) } }
  s.refreshPoison f

/-- Whether a frame's poisoned lines hold courses and are repaired from other sources (R238): KIND WEIGHT, or a commons Q weaver. -/
def repairable (e : FrameE) : Bool := e.kind == 2 || (e.kind == 3 && e.commons)

/-- Whether a granule has its backing copy unchanged (R240): BACKED, and its 64 KiB granule not dirty. -/
def cleanBacked (e : FrameE) (granule : Nat) : Bool := e.backed && !bit e.dirty (granule / 16)

/-- Start one repair of a granule, or join the one that runs (R238, R240). -/
def State.startRepair (f granule : Nat) (back : Option Nat) (s : State) : State :=
  let e := s.frame f
  if (s.mem.repairs.any fun r => r.frame == f && r.granule == granule && !r.failed) || !(repairable e || cleanBacked e granule) then s
  else
    { s with mem := { s.mem with repairs := (s.mem.repairs.filter fun r => !(r.frame == f && r.granule == granule)) ++
        [{ frame := f, granule := granule, source := 0, since := s.rnd.num, detected := s.rnd.num, back := back, failed := false,
           rnd := s.rnd.num }] } }

/-- A line becomes poisoned (R237): POISON set, a journal entry for the granule, DETECTED counted once a granule, a repair
started where R238 or R240 gives one. -/
def State.poison (f line code : Nat) (back : Option Nat) (s : State) : State :=
  let g := line / 64
  let fresh := !(s.mem.lines.any fun x => x.1 == f && x.2 / 64 == g)
  let s := if s.mem.lines.contains (f, line) then s else { s with mem := { s.mem with lines := (f, line) :: s.mem.lines } }
  let s := s.refreshPoison f
  let s := if fresh then
      (({ s with mem := { s.mem with marks := s.mem.marks ++ [(f, g, s.rnd.num)] } }.modMig (msdOfFrame f) fun m =>
        { m with detected := sat 16 (m.detected + 1) }).journal
        { code := code, cls := Cls.recovered, blk := Blk.hbm, unit := msdOfFrame f, ctx := (s.frame f).ctx, detail := f + g * 2 ^ 32 })
    else s
  s.startRepair f g back

/-! ### Keys (R264, R265, R399) -/

def frameKey (s : State) (e : FrameE) : KeySlot := if e.stakeKey then s.skey e.key else s.tkey e.key

/-- The PTE that counts a slow-tier page's heat: context 0's for a shared page (R221). -/
def heatKey (s : State) (k : Nat) : Nat := ((s.pteAt k).sharedOf).getD k

/-- The key of a slow-tier page: slot 0 for a shared page (R221), else its context's; its data units count from SDA 0 (R140, R231). -/
def pageSeal (s : State) (k : Nat) : Seal :=
  let h := heatKey s k
  { key := (s.tkey (if (s.pteAt h).shared then 0 else h / 2 ^ 25)).key, base := 0 }

/-- How a frame's backing copy is sealed: under the frame's KEY (R231), a weaver's as a part of its package (R140). -/
def frameSeal (s : State) (f : Nat) : Seal :=
  let e := s.frame f
  { key := (frameKey s e).key
    base := if e.kind = 3 then ((s.weav.dir.find? fun p => p.2.frames.contains f).elim 0 fun p => p.2.slow) else 0 }

/-- The key under which a frame's bytes lie in HBM (R264): firmware's frames use the device key. -/
def hbmKey (s : State) (f : Nat) : Nat := if fwFrame f then s.lid.devKey else (frameKey s (s.frame f)).key

/-- One stale burst, dropped and counted on a die (R265). -/
def State.countStale (d : Nat) (s : State) : State := s.modMsd d fun m => { m with stale := sat 32 (m.stale + 1) }

/-- Whether accesses to a frame are served: its key slot is LIVE. -/
def keyServes (s : State) (f : Nat) : Bool := (frameKey s (s.frame f)).state == .live

/-- An access under a slot that holds no key is dropped and counted (R265). -/
def State.noKey (f : Nat) (s : State) : State := s.modMsd (msdOfFrame f) fun m => { m with noKey := sat 32 (m.noKey + 1) }

/-! ### Bytes (R216, R225, R229) -/

/-- Why an access does not complete now. -/
inductive AccErr where
  | waits
  | fails (status : Nat)
  | poison (f granule : Nat)
  deriving DecidableEq, Repr

/-- Units of 4 KiB that `n` bytes at `off` touch. -/
def unitsOf (off n : Nat) : Nat := (off + n + 4095) / 4096 - off / 4096

/-- Heat and LAST_RND of an access to a frame (R225). -/
def State.touch (f off n : Nat) (s : State) : State :=
  s.modFrame f fun e => { e with heat := sat 16 (e.heat + unitsOf off n), lastRnd := s.rnd.num % 2 ^ 32 }

def State.touchT2 (k off n : Nat) (s : State) : State := s.modPte (heatKey s k) fun e => { e with heat := sat 16 (e.heat + unitsOf off n) }

/-- The 64 KiB granules that a write touches. -/
def dirtyMask (off n : Nat) : Nat :=
  ((List.range 32).map fun i => if i * 65536 < off + n ∧ off < i * 65536 + 65536 then 2 ^ i else 0).sum

/-- A write into a frame: bytes, dirty granules of a BACKED frame, poison of wholly covered lines cleared (R229, R240). -/
def State.frameWrite (f off : Nat) (bs : List Byte) (s : State) : State :=
  let n := bs.length
  let s := { s with mem := { s.mem with hbm := wrBytes s.mem.hbm (f * frameBytes + off) bs } }
  let s := if n = 0 then s else s.clearLines f (ceilDiv off 64) ((off + n) / 64)
  s.modFrame f fun e =>
    if !e.backed ∨ n = 0 then e
    else { e with dirty := e.dirty ||| dirtyMask off n,
                  state := if e.state = .resident then .dirty else e.state }

def frameRead (s : State) (f off n : Nat) : List Byte := rdBytes s.mem.hbm (f * frameBytes + off) n

/-- A frame in place of a ZERO page (R208, R214): RESIDENT, the PTE at TIER 0. -/
def State.fillZero (k f : Nat) (s : State) : State :=
  let e := s.pteAt k
  (s.takeFrame f {
    state := .resident, kind := e.kind, commons := e.shared, movable := e.movable, ctx := if e.shared then 0 else k / 2 ^ 25,
    key := if e.shared then 0 else k / 2 ^ 25, page := k % 2 ^ 25, mapped := true, backed := e.backed, back := e.sda,
    dirty := if e.backed then 2 ^ 32 - 1 else 0 }).each (k :: keysWhere s.mem.pte fun _ x => x.sharedOf == some k) fun j s =>
    s.modPte j fun e => { e with tier := .t1, frame := f }

/-- Someone waits for frames, once (R222). -/
def State.waitFrame (w : WaitFor) (s : State) : State :=
  if s.mem.waits.any fun x => x.what == w then s else { s with mem := { s.mem with waits := s.mem.waits ++ [{ what := w }] } }

/-- A wait is over. -/
def State.dropWait (w : WaitFor) (s : State) : State :=
  { s with mem := { s.mem with waits := s.mem.waits.filter fun x => x.what != w } }

/-- Whether the next FREE frames belong to an allocation that arose before `w` (R222). -/
def behind (s : State) (w : WaitFor) : Bool := (s.mem.waits.takeWhile fun x => x.what != w).any AllocWait.short

/-- The account that pays for a page's frame (R220). -/
def payer (s : State) (k : Nat) : Nat := if (s.pteAt (heatKey s k)).shared then commonsAcct else heatKey s k / 2 ^ 25

/-- The first write of a ZERO page: its frame, or a wait for quota or for a FREE frame (R208, R222). -/
def State.allocZero (k : Nat) (s : State) : Bool × State :=
  match if hasRoom s (payer s k) 1 && !behind s (.page k) then pickFrame s (s.pteAt k).stack (k % 2 ^ 25) else none with
  | some f => (true, (s.fillZero k f).dropWait (.page k))
  | none => (false, s.waitFrame (.page k))

/-- The frame into which a slow-tier page is being moved up. -/
def promoting (s : State) (k : Nat) : Option Nat :=
  (s.mem.frames.find? fun p => p.2.state == .promoting && p.2.mapped && pteKey p.2.ctx p.2.page == heatKey s k).map Prod.fst

/-- The frame that a slow-tier page has left and that is still being zeroed (R216). -/
def leaving (s : State) (k : Nat) : Option Nat :=
  (s.mem.frames.find? fun p => p.2.zeroing && p.2.leftTo == some (s.pteAt k).sda).map Prod.fst

/-- Whether the repair that a read of a poisoned granule joins may still deliver it (R240). -/
def repairWaits (s : State) (f granule : Nat) : Bool :=
  !repairable (s.frame f) && s.mem.repairs.any fun r => r.frame == f && r.granule == granule && !r.failed

/-- A read of a poisoned granule (R237 to R240): it starts or joins the repair. A private frame's reader waits for the backing copy; once that
has failed, the reader is told. -/
def State.readPoison (f granule : Nat) (s : State) : AccErr × State :=
  let failed := s.mem.repairs.any fun r => r.frame == f && r.granule == granule && r.failed
  let s := s.startRepair f granule none
  (if repairWaits s f granule && !failed then .waits else .poison f granule, s)

/-- Read `n` bytes within one page (R209, R216): the bytes, or why not. -/
def State.readSpot (k : Nat) (sp : Spot) (n : Nat) (s : State) : Except AccErr (List Byte) × State :=
  match sp with
  | .unmapped => (.error (.fails St.addrInvalid), s)
  | .zero _ => (.ok (List.replicate n 0), s)
  | .slow a =>
    if slowUp s a && (slowBadIn s a n).isEmpty then (.ok (slowRead (pageSeal s k) s a n), s.touchT2 k (a % frameBytes) n)
    else (.error (.fails St.dataPoisoned), s)
  | .frame f off =>
    if (s.frame f).state = .filling then (.error .waits, s)
    else if !keyServes s f then (.error (.fails St.revoked), s.noKey f)
    else if lineBad s f off n then let r := s.readPoison f (badGranule s f off n); (.error r.1, r.2)
    else (.ok (frameRead s f off n), s.touch f off n)

/-- Write bytes within one page of a context (R208, R209, R216): done, or why not. -/
def State.writeSpot (k off : Nat) (bs : List Byte) (s : State) : Except AccErr Unit × State :=
  let e := s.pteAt k
  if !e.valid ∨ e.ro then (.error (.fails St.addrInvalid), s)
  else match e.tier with
    | .zero =>
      let x := s.allocZero k
      if x.1 then
        let f := (x.2.pteAt k).frame
        (.ok (), (x.2.frameWrite f off bs).touch f off bs.length)
      else if x.2.mem.waits.any fun w => w.what == .page k && w.past then
        (.error (.fails St.quotaExceeded), x.2.dropWait (.page k))
      else (.error .waits, x.2)
    | .t2 =>
      if (promoting s k).isSome ∨ (leaving s k).isSome ∨ !slowUp s e.sda then (.error .waits, s)
      else if (sdaBad s e.sda frameBytes true).isSome then (.error (.fails St.regionInvalid), s)
      else (.ok (), (s.slowWrite (pageSeal s k) (e.sda + off) bs).touchT2 k off bs.length)
    | .t1 =>
      let st := (s.frame e.frame).state
      if st = .filling ∨ st = .evicting ∨ st = .demoting then (.error .waits, s)
      else if !keyServes s e.frame then (.error (.fails St.revoked), s.noKey e.frame)
      else (.ok (), (s.frameWrite e.frame off bs).touch e.frame off bs.length)

/-- The pieces of a range that lie within one page each: page, offset, start in the range, bytes. -/
def pieces (dva n : Nat) : List (Nat × Nat × Nat × Nat) :=
  if n = 0 then []
  else (List.range ((dva + n - 1) / frameBytes - dva / frameBytes + 1)).map fun i =>
    let p := dva / frameBytes + i
    let lo := max dva (p * frameBytes)
    let hi := min (dva + n) ((p + 1) * frameBytes)
    (p, lo % frameBytes, lo - dva, hi - lo)

/-- What a read has so far, with the outcome of its next piece. -/
def joinRead (bs : List Byte) (r : Except AccErr (List Byte) × State) : Except AccErr (List Byte) × State :=
  (match r.1 with | .ok more => .ok (bs ++ more) | .error e => .error e, r.2)

/-- Read a range of a context's space, commons through `stamp`; the first page that cannot be read ends it. -/
def State.readDva (ctx stamp dva n : Nat) (s : State) : Except AccErr (List Byte) × State :=
  (pieces dva n).foldl (fun acc x =>
    match acc.1 with
    | .error e => (.error e, acc.2)
    | .ok bs => joinRead bs (acc.2.readSpot (pteKey ctx x.1) (spotAt acc.2 ctx stamp (x.1 * frameBytes + x.2.1)) x.2.2.2)) (.ok [], s)

/-- Whether every page of a range can be written without a wait or a failure. -/
def writable (s : State) (ctx dva n : Nat) : Option Nat :=
  if 2 ^ 46 < dva + n then some St.addrInvalid
  else (pieces dva n).findSome? fun x =>
    let e := s.pteAt (pteKey ctx x.1)
    if !e.valid ∨ e.ro then some St.addrInvalid else none

/-- Write a range of a context's private space. Nothing is written when a page of it is unmapped or RO (R209). -/
def State.writeDva (ctx dva : Nat) (bs : List Byte) (s : State) : Except AccErr Unit × State :=
  match writable s ctx dva bs.length with
  | some st => (.error (.fails st), s)
  | none =>
    (pieces dva bs.length).foldl (fun acc x =>
      match acc.1 with
      | .error e => (.error e, acc.2)
      | .ok () => acc.2.writeSpot (pteKey ctx x.1) x.2.1 ((bs.drop x.2.2.1).take x.2.2.2)) (.ok (), s)

/-- The bytes of a range as they stand, for the device's own checks, which add no heat: what cannot be read reads as zero. -/
def peekDva (s : State) (ctx stamp dva n : Nat) : List Byte :=
  match (s.readDva ctx stamp dva n).1 with | .ok bs => bs | .error _ => List.replicate n 0

/-- What a device range of one page costs: HBM bytes, or link bytes where the page lies in the slow tier. -/
def sideCost (s : State) (ctx a n : Nat) : Cost :=
  match spotAt s ctx 0 a with
  | .slow _ => { link := n }
  | .unmapped => {}
  | _ => { hbm := n }

/-- What a device range costs. -/
def rangeCost (s : State) (ctx a n : Nat) : Cost :=
  (pieces a n).foldl (fun c x => c.add (sideCost s ctx (x.1 * frameBytes + x.2.1) x.2.2.2)) {}

/-- A range of a context's space read on behalf of a class: the bytes that are moved are charged, and add heat (R35, R225). -/
def State.readFor (cls ctx a n : Nat) (s : State) : Except AccErr (List Byte) × State :=
  let r := s.readDva ctx 0 a n
  (r.1, match r.1 with | .ok _ => r.2.charge cls (rangeCost s ctx a n) | .error _ => r.2)

/-- Several ranges read one after the other. -/
def State.readAll (ctx : Nat) (xs : List (Nat × Nat)) (s : State) : Except AccErr (List (List Byte)) × State :=
  xs.foldl (fun (acc : Except AccErr (List (List Byte)) × State) x =>
    match acc.1 with
    | .error e => (.error e, acc.2)
    | .ok out => let r := acc.2.readDva ctx 0 x.1 x.2; (match r.1 with | .ok bs => .ok (out ++ [bs]) | .error e => .error e, r.2)) (.ok [], s)

/-- Whether a range resolves under R209. -/
def resolves (s : State) (ctx stamp dva n : Nat) : Bool :=
  (pieces dva n).all fun x => spotAt s ctx stamp (x.1 * frameBytes + x.2.1 + x.2.2.2 - 1) != .unmapped

/-! ### Frame state changes (R214 to R216, R218, R231) -/

def occupied (e : FrameE) : Bool := (e.state == .resident || e.state == .dirty) && !e.zeroing

/-- The bytes of the 64 KiB granules that a mask names. -/
def maskBytes (mask : Nat) : Nat := 65536 * ((List.range 32).filter fun i => bit mask i).length

/-- What a leaving frame moves (R231): its dirty granules where it is BACKED, the whole frame where a mapped page has no backing copy, and
nothing where nothing of it is kept. -/
def leaveBytes (s : State) (f : Nat) : Nat :=
  let e := s.frame f
  let kept := !(ptesOf s f).isEmpty
  if e.backed && (kept || e.kind == 3) then maskBytes e.dirty else if kept then frameBytes else 0

/-- A move of a frame's content under MIGRATE: HBM bytes on one side, link bytes on the other. Its bursts carry the context generation of
the frame's key slot (R400). -/
def State.moveFrame (f n : Nat) (s : State) : State :=
  let g := (frameKey s (s.frame f)).gen
  ((s.dropMove (.frame f)).pushMove { what := .frame f, cls := Act.migrate, bytes := n }).modFrame f fun e =>
    { e with burst := if n = 0 then none else some g }

/-- A move of a frame's content is over. -/
def State.endMove (f : Nat) (s : State) : State := (s.dropMove (.frame f)).modFrame f fun e => { e with burst := none }

/-- A frame that holds a page leaves T1 in a state (R214). -/
def State.startLeave (st : FState) (byHeat : Option Nat) (f : Nat) (s : State) : State :=
  if occupied (s.frame f) then
    (s.modFrame f fun e => { e with state := st, cleaning := false, pass := 0, byHeat := byHeat }).moveFrame f (leaveBytes s f)
  else s

/-- A frame leaves T1 by eviction (R214). -/
def State.startEvict (f : Nat) (s : State) : State := s.startLeave .evicting none f

/-- A frame leaves T1 by heat placement (R226), to make room for a page for which a die has been chosen. -/
def State.startDemote (f die : Nat) (s : State) : State := s.startLeave .demoting (some die) f

/-- A move up of a slow-tier page (R214, R226, R236): its frame, or none while FREE frames lack or belong to others. -/
def State.startPromote (k : Nat) (byHeat : Bool) (s : State) : Option Nat × State :=
  let k := heatKey s k
  let e := s.pteAt k
  match if behind s (.page k) then none else pickFrame s e.stack (k % 2 ^ 25) with
  | none => (none, s)
  | some f =>
    (some f, ((s.takeFrame f {
      state := .promoting, kind := e.kind, commons := e.shared, movable := e.movable,
      ctx := if e.shared then 0 else k / 2 ^ 25, key := if e.shared then 0 else k / 2 ^ 25, page := k % 2 ^ 25, mapped := true,
      back := e.sda, heat := e.heat, byHeat := if byHeat then some (msdOfFrame f) else none }).moveFrame f frameBytes).dropWait (.page k))

/-- A page's whole frame copied to the slow tier and its PTEs switched there (R231). -/
def State.switchToT2 (f sda : Nat) (s : State) : State :=
  let heat := (s.frame f).heat
  s.each (ptesOf s f) fun k s => s.modPte k fun e => { e with tier := .t2, sda := sda, backed := false, frame := 0, heat := heat, poison := false }

/-- Bytes of a frame copied to the slow tier; what cannot be read is poisoned there (R237). -/
def State.copyOut (f off n a : Nat) (s : State) : State :=
  let bad := (s.mem.lines.filter fun x => x.1 == f && decide (off ≤ x.2 * 64) && decide (x.2 * 64 < off + n)).map fun x => (a + (x.2 * 64 - off)) / 64
  let s := s.slowWrite (frameSeal s f) a (frameRead s f off n)
  { s with mem := { s.mem with slowBad := s.mem.slowBad ++ bad } }

/-- The granules of a BACKED frame that a mask names, written to its backing copy (R230, R231). -/
def State.writeBack (f mask : Nat) (s : State) : State :=
  s.each ((List.range 32).filter fun i => bit mask i) fun i s => s.copyOut f (i * 65536) 65536 ((s.frame f).back + i * 65536)

/-- Remove a frame's poisoned lines and repairs when its content leaves. -/
def State.forget (f : Nat) (s : State) : State :=
  { s with mem := { s.mem with
    lines := s.mem.lines.filter fun x => x.1 != f, marks := s.mem.marks.filter fun m => m.1 != f, repairs := s.mem.repairs.filter fun r => r.frame != f } }

/-- A frame whose content has gone to a slow-tier page is zeroed. -/
def State.leftFor (f sda : Nat) (s : State) : State :=
  (((s.switchToT2 f sda).forget f).zeroFrame f).modFrame f fun e => { e with leftTo := some sda }

/-- The content of a frame that leaves T1 is kept in the slow tier while its page is mapped (R231), then the frame is zeroed. -/
def State.leaveFrame (f : Nat) (s : State) : State :=
  let e := s.frame f
  if (ptesOf s f).isEmpty then (s.forget f).zeroFrame f
  else if e.backed then (s.writeBack f e.dirty).leftFor f e.back
  else
    let x := s.takeT2 (ownerOf e)
    match x.1 with
    | none => x.2
    | some sda => (x.2.copyOut f 0 frameBytes sda).leftFor f sda

/-- A course pin falls; a page whose unmapping waited for it is unmapped (R209). -/
def State.unpinPage (k : Nat) (s : State) : State :=
  let e := s.pteAt k
  if e.unmapDue && (e.tier != .t1 || (s.frame e.frame).coursePins == 0) then s.modPte k fun _ => {} else s

/-- A page leaves its context's table now, or once the pin of a course in flight falls (R209); its explicit pins are withdrawn. -/
def State.unmapPage (k : Nat) (s : State) : State :=
  let s := s.modPte k fun e => { e with epins := [], unmapDue := true }
  s.unpinPage k

/-! ### Long memory commands (R209, R216, R232) -/

/-- Whether a long command has nothing left to do. -/
def workDone (s : State) (w : MemWork) : Bool :=
  let keys := (List.range w.pages).map fun i => pteKey w.ctx (w.page + i)
  match w.kind with
  | .unmap => keys.all fun k => !(s.pteAt k).valid || !(s.pteAt k).unmapDue
  | .flush => keys.all fun k => (s.pteAt k).tier != .t1 || (s.frame (s.pteAt k).frame).dirty == 0
  | .evict => !s.mem.defers.any fun d => d.note == w.note

/-- Complete the long commands that are done: the final record, with OK. -/
def State.finishWorks (s : State) : State :=
  s.each s.mem.works fun w s =>
    if workDone s w then
      ({ s with mem := { s.mem with works := s.mem.works.erase w } }).finalRecord w.note St.ok w.pages
    else s

/-- A zeroed frame is FREE (R214, R217): requests that joined its eviction complete. -/
def State.freeFrame (f : Nat) (s : State) : State :=
  let s := { s with mem := { s.mem with
    hbm := zeroBytes s.mem.hbm (f * frameBytes) frameBytes, defers := s.mem.defers.filter fun d => d.frame != f } }
  (s.modFrame f fun _ => {}).finishWorks

end Sys2Proof.Machine
end

