-- ==== Sys2Proof/Machine/HbmCode.lean ====
section
/-! DEFINITION. The HBM code (R264, R266, R267): the ciphertext and the codeword of a line, what a read makes of symbols in error, and its
outcome. -/

namespace Sys2Proof.Machine

/-! ### The field and the code (R266) -/

/-- A product in GF(2^8) under x^8 + x^4 + x^3 + x^2 + 1. -/
def gfMul (a b : Nat) : Nat :=
  ((List.range 8).foldl (fun (x : Nat × Nat) i =>
    (if bit b i then x.1 ^^^ x.2 else x.1, if 128 ≤ x.2 then (2 * x.2) ^^^ 0x11D else 2 * x.2)) (0, a)).1

/-- α^n, α being x. -/
def gfExp (n : Nat) : Nat := (List.range n).foldl (fun x _ => gfMul x 2) 1

/-- The check symbols of 69 symbols: what x^3 times them leaves by (x + 1)(x + α)(x + α²) = x³ + 7x² + 14x + 8. DESIGN CHOICE, where the manual
does not say: symbol i stands at x^(71 − i). -/
def checkSyms (m : List Nat) : List Nat :=
  let r := m.foldl (fun (r : Nat × Nat × Nat) x =>
    let b := x ^^^ r.1
    (r.2.1 ^^^ gfMul b 7, r.2.2 ^^^ gfMul b 14, gfMul b 8)) (0, 0, 0)
  [r.1, r.2.1, r.2.2]

/-- The value of a word at α^j, from its symbols that are not zero: symbol and value. -/
def syndrome (w : Tab Nat) (j : Nat) : Nat := w.foldl (fun x e => x ^^^ gfMul e.2 (gfExp ((71 - e.1) * j))) 0

/-- What the decoder makes of symbols in error: nothing, one symbol to correct, or more than it can correct. -/
inductive Decoded where
  | clean
  | one (i v : Nat)
  | many
  deriving DecidableEq, Repr

/-- A single error of value v in symbol i has the syndromes v, v × α^(71−i) and v × α^(2(71−i)). -/
def decodeErr (w : Tab Nat) : Decoded :=
  let x := (syndrome w 0, syndrome w 1, syndrome w 2)
  if x = (0, 0, 0) then .clean
  else if x.1 = 0 then .many
  else match (List.range 72).find? fun i => gfMul x.1 (gfExp (71 - i)) == x.2.1 && gfMul x.1 (gfExp (2 * (71 - i))) == x.2.2 with
    | some i => .one i x.1
    | none => .many

/-- Symbols in error as a table: those that name one symbol add up. -/
def errTab (errs : List (Nat × Nat)) : Tab Nat := errs.foldl (fun t e => adj 0 t e.1 (· ^^^ e.2)) []

/-! ### A line (R264, R266) -/

/-- The number of a granule's data unit, and the first cipher block of a line in it. -/
def lineUnit (f line : Nat) : Nat := 512 * f + line / 64
def lineBlock (line : Nat) : Nat := line % 64 * 4

/-- The 64 bytes of a line as HBM holds them. `Mem.hbm` keeps of each byte what its decryption under the frame's KEY gives, and a frame's KEY
stays while it is not FREE, so that the two determine each other. -/
def lineCipher (s : State) (f line : Nat) : List Byte :=
  mapBlocks (xtsLock (hbmKey s f) (lineUnit f line)) 4 (lineBlock line) (frameRead s f (64 * line) 64)

/-- KEYTAG of a frame: its key slot, and STAKE_KEY in bit 12. The device key of firmware's frames has no slot: 0. -/
def keyTag (s : State) (f : Nat) : Nat :=
  if fwFrame f then 0 else (s.frame f).key % 4096 + 4096 * b2n (s.frame f).stakeKey

/-- The 72 symbols of a line's codeword. -/
def lineWord (s : State) (f line : Nat) : List Nat :=
  let m := (lineCipher s f line).map BitVec.toNat ++ [b2n (s.mem.lines.contains (f, line)), keyTag s f % 256, keyTag s f / 256, 0, 0]
  m ++ checkSyms m

/-! ### A read (R267, R268) -/

/-- A line's data in which symbols of the ciphertext are wrong: the blocks that they lie in decrypt to something else. -/
def State.garble (f line : Nat) (w : Tab Nat) (s : State) : State :=
  let u := lineUnit f line
  let bad := ((lineCipher s f line).zip (List.range 64)).map fun x => x.1 ^^^ BitVec.ofNat 8 (look 0 w x.2)
  { s with mem := { s.mem with
    hbm := wrBytes s.mem.hbm (f * frameBytes + 64 * line) (mapBlocks (xtsUnlock (hbmKey s f) u) 4 (lineBlock line) bad) } }

/-- An uncorrectable read of a line, by its symbols or by its KEYTAG: counted, and the line poisoned (R237, R267). -/
def State.lineLost (f line : Nat) (tag : Bool) (s : State) : State :=
  (s.modMsd (msdOfFrame f) fun m =>
    if tag then { m with tagErr := sat 16 (m.tagErr + 1) } else { m with uncorrected := sat 16 (m.uncorrected + 1) }).poison f line
    St.hbmPoison none

/-- What a read does whose decoded codeword still differs from the one stored in symbols `w`: nothing when it does not. DEDUCED: where three or
more symbols were in error and were not detected, the rules apply to the word that was decoded. -/
def State.lineTaken (f line : Nat) (w : Tab Nat) (s : State) : State :=
  if w = [] then s
  else if look 0 w 65 ≠ 0 ∨ look 0 w 66 ≠ 0 then s.lineLost f line true
  else
    let s := s.garble f line w
    if bit (look 0 w 64) 0 then (if s.mem.lines.contains (f, line) then s.clearLines f line (line + 1) else s.poison f line St.hbmPoison none) else s

/-- A read of a line with symbols in error (R267). A corrected line is counted and rewritten under SCRUB. -/
def State.lineRead (f line : Nat) (errs : List (Nat × Nat)) (s : State) : State :=
  if !hasMsd s (msdOfFrame f) then s
  else
    let w := errTab errs
    match decodeErr w with
    | .many => s.lineLost f line false
    | .clean => s.lineTaken f line w
    | .one i v =>
      let s := s.modMsd (msdOfFrame f) fun m => { m with corrected := sat 32 (m.corrected + 1) }
      (s.pushMove { what := .rewrite f line, cls := Act.scrub, link := false, bytes := 64 }).lineTaken f line (adj 0 w i (· ^^^ v))

end Sys2Proof.Machine
end

