-- ==== Sys2Proof/Machine/Cells.lean ====
section
/-! DEFINITION. How a cell issues: the word at a stream's place, plan violations (R56, R57), retirement, beats in flight and the
slot-pending interlock (R60, R73), event counters, and the end of a block (R40, R71). -/

namespace Sys2Proof.Machine

/-- Where an instruction issues: logical cell, stream, its fields, the course, and its place in the plan. -/
structure Site where
  lc   : Nat
  st   : Strm
  opc  : Nat
  f    : CellWord
  ctx  : Nat
  course : Course
  blk  : Nat
  off  : Nat
  fsplit : Nat
  deriving DecidableEq, Repr

/-- The random word's site value of an instruction (R102). -/
def Site.s4 (p : Site) : Nat := siteMix (seedMix p.course.seed) p.lc (strmNum p.st) p.f.tidx.toNat p.blk p.off
/-- u for element term `e`. -/
def Site.u (p : Site) (e : Nat) : Nat := if p.f.rm = 6 then randU p.s4 e else 0
/-- The rounding mode an instruction that rounds under RM uses: 0b111 is RNE (R13). -/
def Site.rm (p : Site) : Nat := if p.f.rm = 7 then 0 else p.f.rm.toNat
def Site.sat (p : Site) : Bool := p.f.sat = 1
/-- RM 0b111 on an instruction that rounds under RM is reported (R57). -/
def Site.badRm (p : Site) : Bool := p.f.rm = 7
def Site.cnt (p : Site) : Nat := p.f.cnt.toNat
/-- Bits `[lo + w - 1 : lo]` of the operand fields. -/
def Site.op (p : Site) (lo w : Nat) : Nat := bits p.f.opnd.toNat lo w
def Site.owns (p : Site) (t : Nat) : Bool := ownsSlot p.fsplit p.st t

/-- The job tag under which a course is journalled: its first row's. -/
def courseTag (c : Course) : Nat := match c.rows with | [] => 0 | r :: _ => r.tag

/-- A plan violation's journal entry (R56, R57): course plan, logical cell, context, and stream, block offset and block in DETAIL. -/
def Site.entry (p : Site) (cls : Nat) : JEntry :=
  { code := St.planViolation, cls := cls, blk := Blk.plan, unit := p.lc, ctx := p.ctx, tag := courseTag p.course,
    gen := p.course.gen, detail := strmNum p.st + p.off * 2 ^ 8 + p.blk * 2 ^ 24 }

/-- The stream goes on with the next instruction after `cycles` cell cycles. -/
def State.retire (p : Site) (cycles : Nat) (s : State) : State :=
  s.modStream p.lc p.st fun x => { x with off := x.off + 1, cycles := x.cycles + cycles }

/-- A plan violation retires with no effect, is journalled, and marks the course (R56). -/
def State.violation (p : Site) (s : State) : State :=
  ((s.journal (p.entry Cls.workEnded)).modCourse p.course.id fun c => { c with violated := true }).retire p 1

/-- A violation that executes is journalled and leaves the course's status unchanged (R57). -/
def State.report (p : Site) (s : State) : State := s.journal (p.entry Cls.info)

/-- The site at which a stream stands: its cell runs a course, and its block is running. -/
def siteAt (s : State) (lc : Nat) (st : Strm) (opc : Nat) (f : CellWord) : Option Site :=
  let c := s.cell lc
  let x := c.stream st
  if !x.running ∨ x.orphan ∨ s.ups.fenced.contains lc then none
  else
    match c.course with
    | none => none
    | some cid =>
      match s.course cid with
      | none => none
      | some co =>
        some { lc := lc, st := st, opc := opc, f := f, ctx := co.ctx, course := co, blk := x.blk, off := x.off,
               fsplit := fsplitOf s co.ctx }

/-- The word at which a stream stands. -/
def wordAt (s : State) (lc : Nat) (st : Strm) : Option Nat :=
  let x := s.stream lc st
  (x.code[x.off]?).map fun w => w.toNat

/-- Words whose opcode is unassigned retire as plan violations (R54, R56), `n` at most. -/
def State.skipUnassigned (n lc : Nat) (st : Strm) (s : State) : State :=
  match n with
  | 0 => s
  | k + 1 =>
    match wordAt s lc st, siteAt s lc st 0 {} with
    | some w, some p => if opAssigned (w / 2 ^ 56) then s else (s.violation p).skipUnassigned k lc st
    | _, _ => s

/-- An admitted block whose course has ended runs to its END, its results being discarded (R76). -/
def State.passOrphan (opc lc : Nat) (st : Strm) (f : CellWord) (s : State) : State :=
  let x := s.stream lc st
  if opc = 0xFF ∧ (x.code.drop x.off).any (fun w => w.toNat == encWord opc f) then
    s.modStream lc st fun y => { evc := y.evc, next := y.next, idle := y.idle }
  else s

/-- One instruction at its stream's place: nothing unless the word there is this instruction; a plan violation when the cell's
role does not enable its group or `body` answers none; otherwise the effect that `body` gives. -/
def State.issue (opc lc : Nat) (st : Strm) (f : CellWord) (body : Site → State → Option State) (s : State) : State :=
  if (s.stream lc st).orphan then s.passOrphan opc lc st f else
  let s := s.skipUnassigned 1024 lc st
  match siteAt s lc st opc f with
  | none => s
  | some p =>
    if wordAt s lc st ≠ some (encWord opc f) then s
    else if !roleTakes (roleOf s lc) opc then s.violation p
    else (body p s).getD (s.violation p)

/-- An instruction that only changes its own cell: the new cell, its cycles, and whether it is reported under R57. -/
structure Effect where
  cell   : Cell
  cycles : Nat
  report : Bool := false

/-- Issue of an instruction that only changes its own cell. -/
def State.issueCell (opc lc : Nat) (st : Strm) (f : CellWord) (body : Site → Cell → Option Effect) (s : State) : State :=
  s.issue opc lc st f fun p s =>
    (body p (s.cell lc)).map fun e =>
      let s := (s.modCell lc fun _ => e.cell).retire p e.cycles
      if e.report then s.report p else s

/-! ### Beats (R60, R61, R73, R88) -/

/-- The write of one beat: its 64 sums into its row, which starts at +0 for the first beat of an ACC 0 instruction. -/
def Slot.writeBeat (t : Slot) (b : Beat) : Slot :=
  (b.sums.zip (List.range 64)).foldl (fun t x =>
    t.setEntry b.row x.2 (accum b.fmtI b.sat (if b.zero then 0 else t.entry b.row x.2) x.1)) t

def Cell.writeBeat (c : Cell) (b : Beat) : Cell := c.setSlot b.slot ((c.slot b.slot).writeBeat b)

/-- The oldest beat of a stream is written. -/
def Cell.oldestBeat (c : Cell) (st : Strm) : Cell :=
  match (c.stream st).beats with
  | [] => c
  | b :: r => (c.writeBeat b).modStream st fun x => { x with beats := r }

/-- The beats of a stream that are in flight into slot `t` are written, in issue order. -/
def Cell.settleStream (c : Cell) (st : Strm) (t : Nat) : Cell :=
  let bs := (c.stream st).beats
  ((bs.filter fun b => b.slot == t).foldl Cell.writeBeat c).modStream st fun x => { x with beats := bs.filter fun b => b.slot != t }

/-- Every beat in flight is written: all pending counters reach zero (R42, R73). -/
def Cell.landed (c : Cell) : Cell :=
  let c := c.f.beats.foldl Cell.writeBeat c
  let c := c.b.beats.foldl Cell.writeBeat c
  { c with f := { c.f with beats := [] }, b := { c.b with beats := [] } }

/-- The slot's pending counter reaches zero (R73). -/
def Cell.settle (c : Cell) (t : Nat) : Cell := (c.settleStream .f t).settleStream .b t

/-- The pending counter of slot `t` (R73): its beats in flight, of both streams. -/
def Cell.pendingOf (c : Cell) (t : Nat) : Nat :=
  (c.f.beats.filter fun b => b.slot == t).length + (c.b.beats.filter fun b => b.slot == t).length

/-- A beat issues; at most 10 of a stream are in flight (R73). -/
def Cell.issueBeat (c : Cell) (st : Strm) (b : Beat) : Cell :=
  let c := if 10 ≤ (c.stream st).beats.length then c.oldestBeat st else c
  c.modStream st fun x => { x with beats := x.beats ++ [b] }

/-- A matrix instruction takes slot `t` (R61, R68): earlier beats written, the format and LIVE bits set, and with ACC 0 the rows
that receive no beat cleared. None when ACC is 1 and the slot is LIVE in the other format. -/
def Cell.takeSlot (c : Cell) (t : Nat) (fmtI acc : Bool) (hit : Nat → Bool) : Option Cell :=
  let c := c.settle t
  let x := c.slot t
  if acc ∧ x.live ∧ x.fmtI ≠ fmtI then none
  else
    let kept := if x.live then x.entries else []
    some (c.setSlot t { fmtI := fmtI, live := true, entries := if acc then kept else kept.filter fun e => hit (e.1 / 64) })

/-! ### Event counters (R48, R69) -/

/-- Add to an event counter, saturating at 65,535. -/
def StreamS.addEvc (x : StreamS) (e n : Nat) : StreamS := { x with evc := adj 0 x.evc e fun v => sat 16 (v + n) }

def State.addEvc (lc : Nat) (st : Strm) (e n : Nat) (s : State) : State := s.modStream lc st fun x => x.addEvc e n

/-! ### Blocks (R40, R43, R45, R71) -/

/-- The index of the first block of a stream that has not ended. -/
def firstOpen (x : StreamS) : Nat :=
  if x.running && !x.orphan then x.blk else match x.idle with | some i => i.1 | none => x.next

/-- Whether every block of segments 0 to `k` on a stream has ended; a cell whose change of context has not begun (R76) has run none. -/
def streamPast (s : State) (k : Nat) (cp : CellPlan) : Bool :=
  (cp.blocks.drop (if (s.cell cp.lc).late then 0 else firstOpen (s.stream cp.lc cp.st))).all fun b => k < b.seg

/-- Whether every U list of a course has ended. -/
def listsDone (s : State) (c : Course) : Bool := s.msd.all fun p => p.2.lists.all fun u => u.cid != c.id || u.ended

/-- Whether the current segment of a course has ended: on all its cells, and with the last segment its U lists too. -/
def segmentDone (s : State) (c : Course) : Bool :=
  c.plan.cellPlans.all (streamPast s c.seg) && (decide (c.seg + 1 < c.plan.nseg) || listsDone s c)

/-- A course's segment is marked as ended, in this round, once its last block has ended. -/
def State.checkSegment (cid : Nat) (s : State) : State :=
  match s.course cid with
  | none => s
  | some c =>
    if !c.segEnded && !c.stopped && segmentDone s c then s.modCourse cid fun c => { c with segEnded := true, lastRnd := s.rnd.num } else s

/-- A block ends (R40, R71): a run beyond its declared cost is journalled and its excess charged. The cycles in which the block stood
still (R52 arbitration, R68 waits for pending beats, bank conflicts of R72) are a free value beside those of its instructions. -/
def State.endBlock (p : Site) (s : State) : State :=
  let x := s.stream p.lc p.st
  let stalls := s.fresh
  let ran := x.cycles + stalls.1
  let s := stalls.2.modStream p.lc p.st fun x => { x with running := false, code := [], synFrom := none }
  let s := if x.declared < ran then (s.report p).charge p.course.plan.cls { cc := ran - x.declared } else s
  s.checkSegment p.course.id

end Sys2Proof.Machine
end

