-- ==== Sys2Proof/Machine/View.lean ====
section
/-! DEFINITION. What a course reads and writes: its segment table (R146 to R148), its course view (R486), and accesses through the
view or through its context's addresses (R203, R235). -/

namespace Sys2Proof.Machine

/-! ### The segment table -/

/-- Fields written as little-endian bytes: offset, bytes, value. -/
def fieldBytes (fs : List (Nat × Nat × Nat)) (t : Tab Byte) : Tab Byte :=
  fs.foldl (fun t f => wrBytes t f.1 (leBytes f.2.1 f.2.2)) t

/-- Rows of segment `g` within tile `t`: first row in the tile and number. -/
def inTile (t : Nat) (g : SegEntry) : Nat × Nat :=
  let lo := max g.row0 (64 * t)
  let hi := min (g.row0 + g.nrows) (64 * t + 64)
  (lo - 64 * t, hi - lo)

/-- Bytes of one chunk of a weaver part (R59): 64 columns of `kc` elements in WFMT. -/
def partChunk (w : Weaver) (kc : Nat) : Nat := 64 * kc * (if w.wfmt = 3 then 8 else 16) / 8

/-- The staged size of a run in 1 KiB units (R148). -/
def runSize (s : State) (kch : Nat) (up : Bool) (g : SegEntry) (rank8 : Nat) : Nat :=
  let w := s.weaver g.handle
  if up then ceilDiv (ceilDiv (8 * rank8) 32 * partChunk w 32) 1024
  else ceilDiv ((kch + 1) * partChunk w w.kcDown) 1024

/-- The rank of a segment in L (`q` false) or Q, 0 when it lacks the form. -/
def segRank (q : Bool) (g : SegEntry) : Nat := if q then (if bit g.forms 2 then g.rankQ else 0) else (if bit g.forms 1 then g.rankL else 0)

/-- One run list of a tile: an entry for each segment that meets the tile, and the staging end (R62, R148). -/
def runEntries (s : State) (p : Plan) (up q : Bool) (t : Nat) (segs : List SegEntry) : List Nat × Nat :=
  let base := if up then (if q then p.stQUp else p.stLUp) else if q then p.stQDown else p.stLDown
  segs.foldl (fun acc g =>
    let x := inTile t g
    if x.2 = 0 then acc
    else
      let r := segRank q g
      if r = 0 then (acc.1 ++ [x.1 + x.2 * 2 ^ 6 + 2 ^ 29], acc.2)
      else (acc.1 ++ [x.1 + x.2 * 2 ^ 6 + acc.2 % 2 ^ 10 * 2 ^ 13 + r % 2 ^ 6 * 2 ^ 23], acc.2 + runSize s p.kch up g r)) ([], base)

/-- The segment map of a tile (R126, R148): steering indices from 0 in row order, 0xFF elsewhere. -/
def segMap (t : Nat) (segs : List SegEntry) : List Nat :=
  (segs.foldl (fun acc g =>
    let x := inTile t g
    if x.2 = 0 ∨ !bit g.forms 0 then acc
    else ((acc.1.zip (List.range 64)).map fun v => if x.1 ≤ v.2 ∧ v.2 < x.1 + x.2 then acc.2 else v.1, acc.2 + 1))
    (List.replicate 64 255, 0)).1

def tileCount (nrows : Nat) : Nat := ceilDiv nrows 64

/-- Whether a plan's staging stays within 1 MiB for these segments (R148). -/
def stagingOk (s : State) (p : Plan) (segs : List SegEntry) (nrows : Nat) : Bool :=
  (List.range (tileCount nrows)).all fun t =>
    [(false, false), (true, false), (false, true), (true, true)].all fun x => (runEntries s p x.1 x.2 t segs).2 ≤ 1024

/-- The bytes of a course's segment table (R146 to R148). The row list follows the segment entries; the tile sections start at the
next 4 KiB. -/
def segBytes (s : State) (c : Course) : Tab Byte :=
  let nseg := c.segs.length
  let nseq := c.rows.length
  let rowOff := 64 + 32 * nseg
  let tileOff := ceilDiv (rowOff + 16 * nseq) 4096 * 4096
  let head : List (Nat × Nat × Nat) :=
    [(0, 4, 0x09605347), (4, 2, 1), (6, 2, nseg), (8, 2, nseq), (10, 1, tileCount nseq), (11, 1, c.sid), (12, 2, c.gen),
     (14, 1, if c.plan.multi then c.plan.lead else s.hoop.pos), (16, 4, rowOff), (20, 4, tileOff)]
  let segs := (c.segs.zip (List.range nseg)).flatMap fun x =>
    let a := 64 + 32 * x.2
    let g := x.1
    [(a, 2, g.handle), (a + 2, 2, g.ctx), (a + 4, 4, g.wver), (a + 8, 2, g.row0), (a + 10, 2, g.nrows),
     (a + 12, 1, g.forms + 128 * b2n g.baseOnly), (a + 13, 1, g.rankL), (a + 14, 1, g.rankQ)]
  let rows := (c.rows.zip (List.range nseq)).flatMap fun x =>
    [(rowOff + 16 * x.2, 8, x.1.tag), (rowOff + 16 * x.2 + 8, 4, x.1.qpn)]
  let tiles := (List.range (tileCount nseq)).flatMap fun t =>
    let a := tileOff + 4096 * t
    let lst := fun (off : Nat) (up q : Bool) =>
      let es := (runEntries s c.plan up q t c.segs).1
      (es.zip (List.range es.length)).map fun e => (a + off + 8 * e.2, 8, e.1)
    (((segMap t c.segs).zip (List.range 64)).map fun e => (a + e.2, 1, e.1)) ++ lst 0x200 false false ++ lst 0x400 true false
      ++ lst 0x600 false true ++ lst 0x800 true true
  fieldBytes (head ++ segs ++ rows ++ tiles) []

/-! ### The course view (R486) -/

abbrev viewIn : Nat := 2 ^ 40
abbrev viewOut : Nat := 2 ^ 41
abbrev viewMore : Nat := 3 * 2 ^ 40
/-- Where the view of a course of several contexts lies in context 0's space (R395). -/
abbrev viewBase : Nat := 0x3C0000000000

/-- The bytes of the row directory. -/
def rowDir (s : State) (c : Course) : Tab Byte :=
  fieldBytes ((c.rows.zip (List.range c.rows.length)).flatMap fun x =>
    let a := 32 * x.2
    let r := x.1
    [(a, 8, viewIn + x.2 * 2 ^ 30 + r.inp % frameBytes), (a + 8, 8, viewOut + x.2 * 2 ^ 30 + r.out % frameBytes), (a + 16, 4, r.nin),
     (a + 20, 4, r.maxtok), (a + 24, 4, if c.probe.isSome then 0 else (s.session (sessKey r.ctx r.session)).pos)]) []

/-- Where a view offset leads: constant bytes, a page of a row's context, a frame of a weaver or an image, a frame of a result buffer, or
nowhere. -/
inductive VSpot where
  | none
  | const (t : Tab Byte) (off : Nat)
  | page (ctx dva : Nat) (rw : Bool)
  | frame (f off : Nat)
  | buf (f off : Nat)

/-- An offset within a row's range of `n` bytes from `a`: the page-aligned image of the range. -/
def rowSpot (c : Course) (x : Nat) (a n : Seq → Nat) (rw : Bool) : VSpot :=
  match c.rows[x / 2 ^ 30]? with
  | none => .none
  | some r =>
    let o := x % 2 ^ 30
    if n r = 0 ∨ a r % frameBytes + n r - 1 < o / frameBytes * frameBytes then .none
    else .page r.ctx (a r / frameBytes * frameBytes + o) rw

/-- The frames of a weaver's working copy `k`. -/
def copyPart (w : Weaver) (k : Nat) : List Nat :=
  if !w.trainable then w.frames else (w.frames.drop (k * (w.frames.length / 2))).take (w.frames.length / 2)

/-- The working copy's frames of the version that a segment uses. -/
def copyFrames (w : Weaver) (wver : Nat) : List Nat := copyPart w (if wver = w.version then w.copy else 1 - w.copy)

/-- Whether a running course uses the copy that the next update overwrites (R161). -/
def copyBusy (s : State) (h : Nat) : Bool :=
  s.crs.running.any fun c =>
    (c.segs.any fun g => !g.baseOnly && g.handle == h && g.wver != (s.weaver h).version)
      || c.side.any fun x => x.owner == h && x.wver != (s.weaver h).version

/-- The frames that the view shows of a segment's weaver (R395): those of the copy that it uses, and after them those of a TRAINABLE weaver's other
copy. -/
def segFrames (w : Weaver) (wver : Nat) : List Nat :=
  copyFrames w wver ++ if w.trainable then copyPart w (if wver = w.version then 1 - w.copy else w.copy) else []

/-- Whether what the view shows of a context has been taken away (R395, R415): its removal has begun. -/
def viewGone (s : State) (ctx : Nat) : Bool := !ctxActive s ctx

/-- A page of the view as its own context maps it: unmapped where the context's page table has no page, read-only where that is RO. -/
def viewPage (s : State) (x : VSpot) : VSpot :=
  match x with
  | .page ctx dva rw =>
    if viewGone s ctx then x
    else if 2 ^ 46 ≤ dva then .page ctx dva false
    else
      let e := s.pteAt (pteKey ctx (dva / frameBytes))
      if e.valid then .page ctx dva (rw && !e.ro) else .none
  | _ => x

/-- Frame `i` of a working copy, at an offset. -/
def copySpot (fs : List Nat) (i off : Nat) : VSpot := match fs[i]? with | none => .none | some f => .frame f off

/-- The weights on which a segment's virtual expert runs, through the course's side map (R150, R151): the frames of the slot's owner from the one
in which its X section begins. -/
def expertSpot (s : State) (c : Course) (seg layer j i off : Nat) : VSpot :=
  match (c.segs[seg]?).bind fun g => c.side.find? fun x => x.handle == g.handle && x.layer == layer && x.j == j with
  | none => .none
  | some x =>
    let w := s.weaver x.owner
    match w.xparts.find? fun y => y.1 == layer && y.2.1 == x.ownerJ with
    | none => .none
    | some y => copySpot (copyFrames w x.wver) (y.2.2 / 512 + i) off

/-- The commons Q weaver of a course's generation (R130). -/
def commonsOf (s : State) (c : Course) : Option Nat := (genOf s c.sid c.gen).bind fun g => if g.qSel then some g.commonsQ else none

/-- A frame of the result buffers that firmware provides for probe courses (R175). DESIGN CHOICE: they are the first sixteen frames of stack 0's
firmware region, the first eight for the courses on the current generation and the others for those on the new one. -/
def resultFrame (new : Bool) (i : Nat) : Nat := 24544 + 8 * b2n new + i

/-- The inputs of a probe course are the new image's token IDs, its outputs lie in the result buffer (R175). -/
def probeSpot (s : State) (c : Course) (x : VSpot) : VSpot :=
  match c.probe, x with
  | some p, .page _ dva false => (match imageSpot s p.1 p.2 dva with | .frame f off => .frame f off | _ => .none)
  | some p, .page _ dva true => .buf (resultFrame (c.gen == p.2) (dva / frameBytes)) (dva % frameBytes)
  | _, _ => x

def viewSpot (s : State) (c : Course) (o : Nat) : VSpot :=
  viewPage s <|
  if o < frameBytes then .const (segBytes s c) o
  else if o < 2 * frameBytes then .const (rowDir s c) (o - frameBytes)
  else if viewIn ≤ o ∧ o < viewOut then probeSpot s c (rowSpot c (o - viewIn) Seq.inp (fun r => r.nin * c.plan.inRec) false)
  else if viewOut ≤ o ∧ o < viewMore then probeSpot s c (rowSpot c (o - viewOut) Seq.out (fun r => r.maxtok * c.plan.outRec) true)
  else
    match c.plan.maps.find? fun m => m.1 / frameBytes == o / frameBytes with
    | none => .none
    | some (_, .page row dva) =>
      (match c.rows[row]? with | none => .none | some r => .page r.ctx (dva / frameBytes * frameBytes + o % frameBytes) true)
    | some (_, .weaver seg i) =>
      match c.segs[seg]? with
      | none => .none
      | some g => copySpot (segFrames (s.weaver g.handle) g.wver) i (o % frameBytes)
    | some (_, .expert seg layer j i) => expertSpot s c seg layer j i (o % frameBytes)
    | some (_, .commonsQ i) =>
      (commonsOf s c).elim .none fun h => copySpot (copyFrames (s.weaver h) c.qver) i (o % frameBytes)

/-- A course of rows of several contexts runs under context 0 (R395). -/
def severalCtx (c : Course) : Bool := c.ctx == 0 && c.rows.any fun r => r.ctx != 0

/-- The view offset that an address of context 0 names for a course of several contexts. -/
def viewOff (c : Course) (ctx dva : Nat) : Option Nat :=
  if severalCtx c && ctx == 0 && decide (viewBase ≤ dva) && decide (dva < 2 ^ 46) then some (dva - viewBase) else none

/-! ### Accesses of a course -/

/-- One piece of the view within a page; an unmapped part reads zeros, and so does what a removal has unmapped. -/
def State.readView (c : Course) (o n : Nat) (s : State) : Except AccErr (List Byte) × State :=
  match viewSpot s c o with
  | .none => (.ok (List.replicate n 0), s)
  | .const t off => (.ok (rdBytes t off n), s)
  | .frame f off => if keyServes s f then s.readSpot 0 (.frame f off) n else (.ok (List.replicate n 0), s.noKey f)
  | .buf f off => if lineBad s f off n then (.error (.fails St.dataPoisoned), s) else (.ok (frameRead s f off n), s)
  | .page ctx dva _ => if viewGone s ctx then (.ok (List.replicate n 0), s) else s.readSpot (pteKey ctx (dva / frameBytes)) (spotAt s ctx c.gen dva) n

/-- Where a course's own address leads: commons space only to the course's own stake set and generation (R185). -/
def courseSpot (s : State) (c : Course) (ctx dva : Nat) : Spot :=
  if 2 ^ 46 ≤ dva ∧ bits dva 38 8 ≠ c.sid then .unmapped else spotAt s ctx c.gen dva

/-- Where an address of a course leads, through its view too; what a removal has taken away reads as zeros. -/
def courseAt (s : State) (c : Course) (ctx dva : Nat) : Spot :=
  match viewOff c ctx dva with
  | none => courseSpot s c ctx dva
  | some o =>
    match viewSpot s c o with
    | .none => .unmapped
    | .const _ _ => .zero 0
    | .frame f off | .buf f off => .frame f off
    | .page rc d _ => if viewGone s rc then .zero 0 else spotAt s rc c.gen d

/-- Whether an address of a course leads to what a removal has taken away. -/
def courseGone (s : State) (c : Course) (ctx dva : Nat) : Bool :=
  match (viewOff c ctx dva).map (viewSpot s c) with | some (.page rc _ _) => viewGone s rc | _ => false

/-- Read a range for a course, through the view or an address of `ctx`. -/
def State.courseRead (c : Course) (view : Bool) (ctx a n : Nat) (s : State) : Except AccErr (List Byte) × State :=
  (pieces a n).foldl (fun acc x =>
    match acc.1 with
    | .error e => (.error e, acc.2)
    | .ok bs =>
      let d := x.1 * frameBytes + x.2.1
      joinRead bs (match if view then some d else viewOff c ctx d with
        | some o => acc.2.readView c o x.2.2.2
        | none => acc.2.readSpot (pteKey ctx x.1) (courseSpot acc.2 c ctx d) x.2.2.2)) (.ok [], s)

/-- Whether a piece may be written by a course: a writable part of the view, or a mapped page without RO. -/
def pieceWritable (s : State) (c : Course) (view : Bool) (ctx d : Nat) : Bool :=
  match if view then some d else viewOff c ctx d with
  | some o => (match viewSpot s c o with | .page _ _ rw => rw | .buf _ _ => true | _ => false)
  | none => d < 2 ^ 46 && (s.pteAt (pteKey ctx (d / frameBytes))).valid && !(s.pteAt (pteKey ctx (d / frameBytes))).ro

/-- Whether a course may write a whole range. -/
def courseWritable (s : State) (c : Course) (view : Bool) (ctx a n : Nat) : Bool :=
  (pieces a n).all fun x => pieceWritable s c view ctx (x.1 * frameBytes + x.2.1)

/-- The bytes that stand at a page's offset, whatever its tier. -/
def pageBytes (s : State) (k off n : Nat) : List Byte :=
  match spotOf k (s.pteAt k) off with
  | .frame f o => frameRead s f o n
  | .slow a => slowRead (pageSeal s k) s a n
  | .zero _ | .unmapped => List.replicate n 0

/-- A course's write into a page of a context; what it replaces is kept for a replay (R84). -/
def State.courseWriteSpot (cid k off : Nat) (bs : List Byte) (s : State) : Except AccErr Unit × State :=
  let r := s.writeSpot k off bs
  match r.1 with
  | .ok () => (.ok (), r.2.modCourse cid fun c => { c with undo := { frame := false, place := k, off := off, old := pageBytes s k off bs.length } :: c.undo })
  | .error e => (.error e, r.2)

/-- A probe course's write into its result buffer. -/
def State.bufWrite (cid f off : Nat) (bs : List Byte) (s : State) : State :=
  (s.frameWrite f off bs).modCourse cid fun c => { c with undo := { frame := true, place := f, off := off, old := frameRead s f off bs.length } :: c.undo }

/-- Write a range for a course whose every piece is writable; what goes to a context whose removal has begun is discarded (R164). -/
def State.courseWrite (c : Course) (view : Bool) (ctx a : Nat) (bs : List Byte) (s : State) : Except AccErr Unit × State :=
  (pieces a bs.length).foldl (fun acc x =>
    match acc.1 with
    | .error e => (.error e, acc.2)
    | .ok () =>
      let d := x.1 * frameBytes + x.2.1
      let part := (bs.drop x.2.2.1).take x.2.2.2
      match if view then some d else viewOff c ctx d with
      | some o =>
        (match viewSpot acc.2 c o with
        | .page rc dva true => if viewGone acc.2 rc then (.ok (), acc.2) else acc.2.courseWriteSpot c.id (pteKey rc (dva / frameBytes)) (dva % frameBytes) part
        | .buf f off => (.ok (), acc.2.bufWrite c.id f off part)
        | _ => (.error (.fails St.addrInvalid), acc.2))
      | none => acc.2.courseWriteSpot c.id (pteKey ctx x.1) x.2.1 part) (.ok (), s)

end Sys2Proof.Machine
end

