-- ==== Sys2Proof/Machine/Work.lean ====
section
/-! DEFINITION. How work ends: sequences and their records (R162, R351, R432), courses (R45, R84, R239). -/

namespace Sys2Proof.Config

/-- The course plan set that stands at an address: the manual gives it no byte layout, so what the bytes mean is free. -/
opaque planOf : (Nat → Byte) → Option Machine.Plan

end Sys2Proof.Config

namespace Sys2Proof.Machine

/-- The plan set that a descriptor names: one that stands decoded in `crs.plans`, or what its bytes mean. -/
def planAt (s : State) (ctx dva : Nat) : Option Plan :=
  match s.crs.plans.find? fun p => p.1 == (ctx, dva) with
  | some p => some p.2
  | none => Config.planOf fun i => (peekDva s ctx 0 (dva + i) 1).getD 0 0

/-! ### Sequences -/

def seqKey (r : Seq) : Nat := sessKey r.ctx r.session

/-- Whether a waiting sequence is the first of its session (R351). -/
def firstOfSession (s : State) (r : Seq) : Bool :=
  (s.crs.waiting.all fun x => seqKey x != seqKey r || r.order ≤ x.order)
    && s.crs.running.all fun c => c.hostRows.all fun x => seqKey x != seqKey r || r.order ≤ x.order

/-- A session whose turn has come to open is opened. -/
def State.openTurn (k : Nat) (s : State) : State :=
  match s.crs.waiting.find? fun r => seqKey r == k && firstOfSession s r with
  | none => s
  | some r => if r.opens && r.produced == 0 && !(s.session k).isOpen then
      s.modSession k fun x => { x with isOpen := true, handle := r.handle, sid := r.sid, gen := 0, parked := false, pos := 0 } else s

/-- A session is closed outright (R186, R397, R135); with its weaver's removal, its later descriptors complete with the removal's status. -/
def State.closeSession (k : Nat) (s : State) : State :=
  let cut := (s.session k).handle.any fun h => (s.weaver h).state == .removing
  s.modSession k fun x => { x with isOpen := false, accepted := false, parked := false, cut := cut && (x.cut || x.isOpen || x.accepted) }

/-- The statuses with which a sequence's session closes (R135, R164, R186, R397). -/
def closesSession (status : Nat) : Bool := [St.contextReset, St.revoked, St.staleGeneration, St.weaverRemoved].contains status

/-- Completion flags of a sequence (R162, R356); SESS_OPEN says that its session stays open, which it does not when it `leaves`. -/
def seqFlags (s : State) (r : Seq) (leaves : Bool) : Nat :=
  (if r.parked = 0 then 0 else Fl.parkedNonzero) + (if r.carried then Fl.carried else 0)
    + (if (s.session (seqKey r)).isOpen && !r.closes && !leaves then Fl.sessOpen else 0) + min 255 r.parked * 256

/-- The bytes of a sequence's output: PROGRESS records of the plan's size (R351). -/
def outBytes (s : State) (r : Seq) : Nat := r.produced * ((planAt s r.ctx r.plan).map Plan.outRec).getD 0

/-- Whether a queue pair's data can go to the host now. -/
def reachesHost (s : State) (qpn : Nat) : Bool := hostOk s (s.ctx (s.qp qpn).ctx).func && (s.qp qpn).state == .active

/-- A SERVE descriptor's record: with PATH_FENCE and OK it waits for the flushing reads (R358). -/
def State.closeSeq (qpn : Nat) (d : DescS) (x : Rec) (s : State) : State :=
  if bit (dflags d.raw) 0 && x.status == St.ok then s.modDesc qpn d.idx fun d => { d with copy := none, held := some x }
  else s.finishDesc qpn d x

/-- The copy of the output to HOSTOUT (R351), once the last of its units is admitted (R353); then the record. A copy that cannot reach the host
is left to a re-delivery. DESIGN CHOICE: where a line of the output is poisoned or the output cannot be read, nothing is copied (R237), and a
sequence that would end with OK ends with DATA_POISONED. -/
def State.outDone (qpn idx : Nat) (s : State) : State :=
  match s.desc qpn idx with
  | none => s
  | some d =>
    match d.copy with
    | none => s
    | some c =>
      if !reachesHost s qpn then (s.dropMove (.hostOut qpn idx)).closeSeq qpn d c.record
      else if moveLeft s (.hostOut qpn idx) ≠ 0 then s
      else
        let x := s.readDva (s.qp qpn).ctx 0 c.src c.len
        match x.1 with
        | .ok bs => ((x.2.translate qpn c.dst c.len).emit (.hostWrite qpn c.dst bs)).closeSeq qpn d c.record
        | .error _ => x.2.closeSeq qpn d { c.record with status := if c.record.status = St.ok then St.dataPoisoned else c.record.status }

/-- A sequence that has ended: its HOSTOUT copy, or its record at once. -/
def State.outStart (r : Seq) (d : DescS) (x : Rec) (s : State) : State :=
  let n := outBytes s r
  if x.status = St.revoked ∨ r.hostout = 0 ∨ n = 0 ∨ !reachesHost s r.qpn then s.closeSeq r.qpn d x
  else
    let s := s.modDesc r.qpn r.idx fun d => { d with copy := some { record := x, src := r.out, dst := r.hostout, len := n } }
    (s.pushMove { what := .hostOut r.qpn r.idx, cls := Act.serve, bytes := n }).outDone r.qpn r.idx

/-- HOSTOUT copies go on at a boundary; one whose descriptor has ended is given up. -/
def State.pumpOuts (s : State) : State :=
  let s := s.each s.host.qps fun p s => s.each (p.2.descs.filter fun x => x.copy.isSome) fun x s => s.outDone p.1 x.idx
  let lives := fun (m : Move) => match m.what with | .hostOut q i => ((s.desc q i).bind DescS.copy).isSome | _ => true
  { s with bud := { s.bud with moves := s.bud.moves.filter lives } }

/-- A sequence's descriptor completes: the close of its session, the copy to HOSTOUT, then its record. A row of a context that is being
removed completes with REVOKED (R164). -/
def State.finishSeq (r : Seq) (status gen wver rnd : Nat) (s : State) : State :=
  if r.gone then s else
  let status := if ctxGoing s r.ctx then St.revoked else status
  let leaves := closesSession status || r.handle.any fun h => (s.weaver h).state == .removing
  let s := { s with crs := { s.crs with waiting := s.crs.waiting.filter fun x => x.order != r.order } }
  let s := if r.closes then s.modSession (seqKey r) fun x => { x with isOpen := false, parked := false }
    else if leaves then s.closeSession (seqKey r) else s
  let x : Rec := { status := status, flags := seqFlags s r leaves, progress := r.produced, rnd := rnd, gen := gen, wver := wver }
  let s := match s.desc r.qpn r.idx with
    | none => s
    | some d => s.outStart r d x
  s.openTurn (seqKey r)

/-- A waiting sequence ends now, outside any course, with the tokens that its courses have committed. -/
def State.endSeq (r : Seq) (status : Nat) (s : State) : State := s.finishSeq r status 0 0 s.rnd.num

/-- A waiting sequence whose next course is refused completes with PROGRESS zero (R18, R26, R135, R159, R163, R186). -/
def State.dropSeq (r : Seq) (status : Nat) (s : State) : State := s.endSeq { r with produced := 0 } status

/-! ### Courses -/

/-- The segment entry of a row. -/
def segOfRow (c : Course) (i : Nat) : Option SegEntry := c.segs.find? fun g => decide (g.row0 ≤ i) && decide (i < g.row0 + g.nrows)

/-- The cells that a plan uses. -/
def planCells (p : Plan) : List Nat := (p.cellPlans.map CellPlan.lc).eraseDups

/-- A stream whose course has ended: its counters, the index of its next block (R78), and a block that has been admitted and has not
ended (R76). -/
def StreamS.left (x : StreamS) : StreamS :=
  let y : StreamS := { evc := x.evc, next := x.next }
  if x.running then { y with running := true, blk := x.blk, off := x.off, code := x.code, declared := x.declared, orphan := true } else y

/-- A cell whose course has ended; its beats in flight are written. -/
def Cell.left (c : Cell) : Cell :=
  let c := c.landed
  { c with course := none, f := c.f.left, b := c.b.left }

/-- Units of a course's blocks and U commands no longer wait for admission. -/
def State.unqueue (c : Course) (s : State) : State :=
  { s with bud := { s.bud with
    queue := s.bud.queue.filter fun w => match w.unit with | .block lc _ => !(planCells c.plan).contains lc | .access _ _ _ _ => true
    moves := s.bud.moves.filter fun m => match m.what with | .ucmd cid _ => cid != c.id | _ => true } }

/-- A course's pins fall (R236); pages whose unmapping waited for them are unmapped (R209). -/
def State.unpinCourse (c : Course) (s : State) : State :=
  (s.each c.pins fun f s =>
    let s := s.modFrame f fun e => { e with coursePins := e.coursePins - 1 }
    s.each (ptesOf s f) fun k s => s.unpinPage k).finishWorks

/-- Everything that a course holds is released: cells, U lists and staging (R247), pins, cursor table, segment table. Cells of a
course of several contexts keep no tenant's state (R396). -/
def State.releaseCourse (c : Course) (s : State) : State :=
  let s := s.unqueue c
  let s := s.each (planCells c.plan) fun lc s =>
    s.modCell lc fun x =>
      if x.course ≠ some c.id then x
      else if c.ctx = 0 ∧ c.rows.any fun r => r.ctx != 0 then { f := { x.f.left with evc := [] }, b := { x.b.left with evc := [] } }
      else x.left
  let s := { s with msd := mapTab {} (fun _ m => { m with lists := m.lists.filter fun u => u.cid != c.id }) s.msd }
  let s := s.unpinCourse c
  let s := match c.curFrame with | some f => s.zeroFrame f | none => s
  { s with crs := { s.crs with running := s.crs.running.filter fun x => x.id != c.id } }

/-- The summaries of a course, one under each of its rows' tags (R434). -/
def State.sumCourse (c : Course) (status rnd : Nat) (s : State) : State :=
  s.each c.hostRows fun r s => s.summarize
    { tag := r.tag, ctx := r.ctx, kind := 1, status := status, progress := r.produced, rnd := rnd, gen := c.gen }

/-- The numeric check whose probe course this is. -/
def probeOfCourse (s : State) (c : Course) : Option ProbeRun := s.crs.probe.filter fun p => c.probe == some (p.sid, p.gen)

def State.setProbe (p : Option ProbeRun) (s : State) : State := { s with crs := { s.crs with probe := p } }

/-- A probe course of the pack has finished; after the one on the new generation the results stand (R189). -/
def State.probeDone (c : Course) (s : State) : State :=
  match probeOfCourse s c with
  | none => s
  | some p => s.setProbe (some { p with pos := p.pos + 1, ready := p.pos % 2 == 1 })

/-- A probe course is refused or violates its plan. DESIGN CHOICE: the manual does not say what becomes of the check; it fails for every weaver of
the pack. A probe course that ends early for any other reason runs again. -/
def State.probeFails (c : Course) (s : State) : State :=
  match probeOfCourse s c with
  | none => s
  | some p => s.setProbe (some { p with pos := p.pos + 2 - p.pos % 2, ready := true, failed := true })

/-- A course ends with a status other than OK and the PROGRESS of its last committed checkpoint: its rows' records, and the end of the
tuning job whose course it is. -/
def State.endCourse (cid status : Nat) (s : State) : State :=
  match s.course cid with
  | none => s
  | some c =>
    let s := (s.releaseCourse c).sumCourse c status s.rnd.num
    let s := s.each (c.hostRows.zip (List.range c.rows.length)) fun x s =>
      s.finishSeq x.1 status c.gen (((segOfRow c x.2).map SegEntry.wver).getD 0) s.rnd.num
    let s := if status = St.planViolation then s.probeFails c else s
    match c.job with
    | none => s
    | some j => s.modJob j.1 fun b => { b with failed := some (b.failed.getD status) }

/-- A stream whose block stops: nothing of it is in flight any more. -/
def StreamS.halted (x : StreamS) : StreamS :=
  { x with running := false, beats := [], ldws := [], stws := [], puts := [], synFrom := none }

/-- A course is stopped and its results discarded at replay (R84, R427): no unit of it is admitted, its blocks stop. -/
def State.stopCourse (cid : Nat) (s : State) : State :=
  match s.course cid with
  | none => s
  | some c =>
    let s := s.unqueue c
    let s := s.each (planCells c.plan) fun lc s =>
      s.modCell lc fun x => if x.course = some cid then
        { x with f := x.f.halted, b := x.b.halted } else x
    let un := fun (u : UState) => if u.cid = cid then { u with asked := none } else u
    ({ s with msd := mapTab {} (fun _ m => { m with lists := m.lists.map un }) s.msd }).modCourse cid fun c => { c with stopped := true }

/-- A course is held on a poisoned line of a shared frame (R239), from the round of detection. -/
def State.holdCourse (cid f granule : Nat) (s : State) : State :=
  let r := s.mem.repairs.find? fun x => x.frame == f && x.granule == granule && !x.failed
  (s.stopCourse cid).modCourse cid fun c => { c with held := some (c.held.getD ((r.map Repair.detected).getD s.rnd.num, f, granule)) }

/-- What a course's failed access does: a poisoned shared line holds the course, another ends it with DATA_POISONED (R239, R240); an
access under a slot without a key ends it with REVOKED (R265). -/
def State.courseFails (cid : Nat) (e : AccErr) (s : State) : State :=
  match e with
  | .waits => s
  | .poison f g => if repairable (s.frame f) then s.holdCourse cid f g else s.endCourse cid St.dataPoisoned
  | .fails status => s.endCourse cid status

end Sys2Proof.Machine
end

