-- ==== Sys2Proof/Machine/Weavers.lean ====
section
/-! DEFINITION. Weavers: package parts (R137 to R141), the resident table, pins, fetch, eviction and removal (R134 to R136, R154 to
R157), side slots (R150 to R153), and the two commands that end a fetch step and a removal. -/

namespace Sys2Proof.Machine

/-! ### Package parts -/

/-- The fixed header of a package part as a number of 64 bytes, and its parts. -/
structure Pkg where
  base  : Nat
  key   : Nat
  head  : Nat

/-- How a part is sealed: 4 KiB data units counted from its start (R140). -/
def Pkg.seal (p : Pkg) : Seal := { key := p.key, base := p.base }

def Pkg.at (p : Pkg) (off n : Nat) : Nat := bytesAt p.head off n
def Pkg.wver (p : Pkg) : Nat := p.at 8 4
def Pkg.forms (p : Pkg) : Nat := p.at 13 1
def Pkg.rankL (p : Pkg) : Nat := p.at 20 1
def Pkg.rankQ (p : Pkg) : Nat := p.at 21 1
def Pkg.wfmt (p : Pkg) : Nat := p.at 22 1
def Pkg.xcount (p : Pkg) : Nat := p.at 23 1
def Pkg.pages (p : Pkg) : Nat := p.at 28 4
def Pkg.nsect (p : Pkg) : Nat := p.at 32 4
def Pkg.nshard (p : Pkg) : Nat := p.at 36 2
def Pkg.kcDown (p : Pkg) : Nat := p.at 38 1

/-- The pages of a header area: fixed header, `n` section entries of `w` bytes after `skip` bytes, the shard checks and HCHECK. -/
def headPagesOf (skip n w nshard : Nat) : Nat := ceilDiv (64 + skip + w * n + 4 * nshard + 4) 4096

def Pkg.headPages (p : Pkg) : Nat := headPagesOf 0 p.nsect 16 p.nshard

/-- The part at a slow-tier address, opened with a key. -/
def pkgAt (s : State) (key sda : Nat) : Pkg := { base := sda, key := key, head := leNat (slowRead { key := key, base := sda } s sda 64) }

/-- CRC-32C of a header area without its last 4 bytes, and those bytes. -/
def headCheck (s : State) (p : Pkg) (pages : Nat) : Nat × Nat :=
  (crc32c ((slowRead p.seal s p.base (4096 * pages - 4)).map BitVec.toNat), leNat (slowRead p.seal s (p.base + 4096 * pages - 4) 4))

/-- HCHECK, the last 4 bytes of a header area. -/
def headCrc (s : State) (p : Pkg) (pages : Nat) : Nat := leNat (slowRead p.seal s (p.base + 4096 * pages - 4) 4)

/-- A section entry (R138): layer, part kind, expert, format, the bytes that are zero, offset in pages, length. -/
structure PSect where
  layer : Nat
  kind  : Nat
  xidx  : Nat
  fmt   : Nat
  zero  : Nat
  off   : Nat
  len   : Nat
  deriving DecidableEq, Repr

def pkgSects (s : State) (p : Pkg) : List PSect :=
  (List.range p.nsect).map fun i =>
    let v := leNat (slowRead p.seal s (p.base + 64 + 16 * i) 16)
    { layer := bytesAt v 0 2, kind := bytesAt v 2 1, xidx := bytesAt v 3 1, fmt := bytesAt v 4 1, zero := bytesAt v 5 3,
      off := bytesAt v 8 4, len := bytesAt v 12 4 }

/-- Page ranges lie after the header, within the part, and do not overlap. -/
def rangesOk (lo hi : Nat) (xs : List (Nat × Nat)) : Bool :=
  (xs.all fun x => decide (lo ≤ x.1) && decide (x.1 + ceilDiv x.2 4096 ≤ hi)) &&
  (xs.zip (List.range xs.length)).all fun a => (xs.zip (List.range xs.length)).all fun b =>
    a.2 == b.2 || decide (a.1.1 + ceilDiv a.1.2 4096 ≤ b.1.1) || decide (b.1.1 + ceilDiv b.1.2 4096 ≤ a.1.1)

/-- The share `[lo, hi)` that part `p` of `n` parts holds of `t` units (R172). -/
def partShare (t p n : Nat) : Nat × Nat := (t * p / n, t * (p + 1) / n)

/-- The weights section that fixes a layer's dimensions on this device. -/
def layerWeights (g : Gen) (layer : Nat) : Option Section :=
  g.sections.find? fun x => x.layer == layer && x.kind == 0 && x.expert == 255

/-- The k range and the output columns of a layer on this device (R172). -/
def layerDims (g : Gen) (i : Nat) : Nat × Nat :=
  let width := (g.layers[i]?).elim 0 Layer.width
  match layerWeights g i with
  | none => (0, width)
  | some x =>
    let k := if x.split = 1 then
        let r := partShare (ceilDiv x.k 256) g.part g.parts
        min (256 * r.2) x.k - 256 * r.1
      else x.k
    let n := if x.split = 0 then
        let r := partShare (ceilDiv width 64) g.part g.parts
        min (64 * r.2) width - 64 * r.1
      else width
    (k, n)

/-- The bytes of one expert's weights in a layer: the sections of base expert 0. -/
def expertBytes (g : Gen) (layer : Nat) : Nat :=
  ((g.sections.filter fun x => x.layer == layer && x.kind == 0 && x.expert == 0).map Section.length).sum

/-- The bytes of an element in WFMT. -/
def wfmtBytes (w : Nat) : Nat := if w = 3 then 1 else 2

/-- The length that R139 gives a section. -/
def sectLen (g : Gen) (p : Pkg) (x : PSect) : Nat :=
  let d := layerDims g x.layer
  let rank := 8 * (if x.kind = 1 ∨ x.kind = 2 then p.rankL else p.rankQ)
  match x.kind with
  | 0 => 4 * d.2
  | 1 | 3 => ceilDiv rank 64 * ceilDiv d.1 p.kcDown * 64 * p.kcDown * wfmtBytes p.wfmt
  | 2 | 4 => ceilDiv d.2 64 * ceilDiv rank 32 * 64 * 32 * wfmtBytes p.wfmt
  | _ => expertBytes g x.layer

/-- The sections that the forms require in every layer of their set (R129): layer and part kind. -/
def neededSects (g : Gen) (forms : Nat) : List (Nat × Nat) :=
  (g.layers.zip (List.range g.layers.length)).flatMap fun x =>
    (if bit forms 0 && bit x.1.sets 0 then [(x.2, 0)] else [])
      ++ (if bit forms 1 && bit x.1.sets 1 then [(x.2, 1), (x.2, 2)] else [])
      ++ (if bit forms 2 && bit x.1.sets 1 then [(x.2, 3), (x.2, 4)] else [])

/-- What R138 and R139 say of an entry by itself. DEDUCED: R141 names no check of FMT and of the zero bytes; an entry that breaks the layout is
not the section that the forms require. -/
def sectEntryOk (p : Pkg) (x : PSect) : Bool :=
  x.zero == 0 && (x.kind == 5 || x.xidx == 0)
    && match x.kind with
      | 0 => x.fmt == 0
      | 5 => true
      | _ => x.fmt == p.wfmt

/-- One section per part the forms require and no other, each of its length; a joining expert carries no X section (R151). -/
def sectsOk (g : Gen) (p : Pkg) (xs : List PSect) : Bool :=
  let need := neededSects g p.forms
  let plain := (xs.filter fun x => x.kind < 5).map fun x => (x.layer, x.kind)
  let moe := fun (l : Nat) => (g.layers[l]?).elim false fun y => y.kind == 2
  let xk := (xs.filter fun x => x.kind == 5).map fun x => (x.layer, x.xidx)
  plain.length == need.length && (need.all fun n => plain.contains n)
    && (xs.all fun x => x.kind ≤ 5 && sectEntryOk p x && x.len == sectLen g p x)
    && (xk.all fun x => bit p.forms 3 && moe x.1 && decide (x.2 < p.xcount)) && xk.eraseDups.length == xk.length

/-- The checks of R141 after the first, in order. -/
def pkgBad (s : State) (p : Pkg) : Option Nat :=
  let hp := p.headPages
  if p.at 0 4 ≠ 0x09605750 ∨ p.at 4 2 ≠ 1 ∨ p.pages < hp ∨ p.nshard ≠ ceilDiv p.pages 8192 ∨ p.at 26 2 ≤ p.at 24 2 then
    some St.packageInvalid
  else if (headCheck s p hp).1 ≠ (headCheck s p hp).2 then some St.packageInvalid
  else
    let xs := pkgSects s p
    if !rangesOk hp p.pages (xs.map fun x => (x.off, x.len)) then some St.packageInvalid
    else match genOf s (p.at 12 1) (p.at 14 2) with
      | none => some St.structMismatch
      | some g =>
      if !(s.stake (p.at 12 1)).reg ∨ p.at 16 4 ≠ g.structSig then some St.structMismatch
      else if (bit p.forms 1 ∧ (p.rankL = 0 ∨ 32 < p.rankL)) ∨ (bit p.forms 2 ∧ (p.rankQ = 0 ∨ 32 < p.rankQ))
          ∨ (p.wfmt ≠ 1 ∧ p.wfmt ≠ 3) ∨ (p.kcDown ≠ 32 ∧ p.kcDown ≠ 64) ∨ 16 < p.xcount then some St.rankInvalid
      else if !sectsOk g p xs then some St.packageInvalid
      else none

/-! ### Sessions, pins, references (R130, R155, R157) -/

/-- Open sessions of a weaver. -/
def sessionsOf (s : State) (h : Nat) : Nat := countTab s.weav.sessions fun _ x => x.isOpen && x.handle == some h

/-- Sessions of a weaver that are parked. -/
def parkedOf (s : State) (h : Nat) : Nat := countTab s.weav.sessions fun _ x => x.isOpen && x.parked && x.handle == some h

/-- The open sessions of the sharers of the side slots that a weaver owns. -/
def sharerSessions (s : State) (h : Nat) : Nat :=
  (((s.weav.side.filter fun p => p.2.owned && p.2.owner == h).flatMap fun p => p.2.sharers.map Prod.fst).eraseDups.map (sessionsOf s)).sum

/-- PIN (R155). -/
def weaverPins (s : State) (h : Nat) : Nat :=
  let w := s.weaver h
  sessionsOf s h + sharerSessions s h + coursesUsing s h + b2n w.training + b2n w.adminPin

/-- Contexts that serve with a stake set (R130). DESIGN CHOICE: they have a sequence, a course or an open session on it, or a weaver of the set that
is RESIDENT or FETCHING, so that the eviction of its weavers withdraws a tenant's reference (R157). -/
def servingCtxs (s : State) (sid : Nat) : List Nat :=
  let holds := fun (w : Weaver) => w.sid == sid && !w.commons && (w.state == .resident || w.state == .fetching)
  let weavers : List Nat := (s.weav.dir.filter fun p => holds p.2).map fun p => p.2.ctx
  let waiting : List Nat := (s.crs.waiting.filter fun r => r.sid == sid).map Seq.ctx
  let running : List Nat := (s.crs.running.filter fun c => c.sid == sid).flatMap fun c => c.rows.map Seq.ctx
  let sessions : List Nat := (keysWhere s.weav.sessions fun _ x => x.isOpen && x.sid == sid).map fun k => k / 2 ^ 32
  (weavers ++ waiting ++ running ++ sessions).eraseDups

/-! ### The resident table, fetch and eviction (R135, R136, R154, R156) -/

def inTable (w : Weaver) : Bool := w.state == .resident || w.state == .fetching || w.state == .evicting

/-- Resident-table entries in use (R154). -/
def tableUsed (s : State) : Nat := countTab s.weav.dir fun _ w => inTable w

def weaverAcct (w : Weaver) : Nat := if w.commons then commonsAcct else w.ctx

/-- Frames that a resident weaver holds: one working copy, or two when TRAINABLE (R154). -/
def weaverFrames (w : Weaver) : Nat := ceilDiv w.pkgPages 512 * (if w.trainable then 2 else 1)

/-- `n` frames for a weaver, taken one after the other (R228); none when the stacks lack them. -/
def State.takeFrames (mk : Nat → FrameE) (n i : Nat) (s : State) : Option (List Nat × State) :=
  match n with
  | 0 => some ([], s)
  | k + 1 =>
    match pickFrame s 15 i with
    | none => none
    | some f =>
      match (s.takeFrame f (mk i)).takeFrames mk k (i + 1) with
      | none => none
      | some r => some (f :: r.1, r.2)

/-- Bytes of shard `i` of a package part or image part (R140, R174). -/
def shardLen (pages i : Nat) : Nat := min ((i + 1) * 33554432) (4096 * pages) - i * 33554432

/-- The units of a fetch's shard in turn (R135): its bytes from the slow tier into one working copy, and HBM writes for the second one. -/
def State.askFetch (h : Nat) (s : State) : State :=
  let w := s.weaver h
  let m : Move := { what := .fetch h, cls := Act.migrate, bytes := shardLen w.pkgPages w.shard }
  let s := ((s.modWeaver h fun w => { w with burst := some (s.tkey w.keySlot).gen }).dropMove (.fetch h)).pushMove m
  if w.trainable then s.pushMove { m with link := false } else s

/-- Whether a wanted fetch lacks only FREE frames. -/
def fetchReady (s : State) (w : Weaver) : Bool :=
  w.state == .registered && w.wantFetch && decide (tableUsed s < 8192) && hasRoom s (weaverAcct w) (weaverFrames w)

/-- A wanted fetch starts once a resident-table entry, quota and FREE frames are there (R135, R156); until then it waits (R222). -/
def State.tryFetch (h : Nat) (s : State) : State :=
  let w := s.weaver h
  let n := ceilDiv w.pkgPages 512
  if w.state ≠ .registered ∨ !w.wantFetch then s.dropWait (.fetch h)
  else if !fetchReady s w || behind s (.fetch h) then s.waitFrame (.fetch h)
  else
    match s.takeFrames (fun i => {
        state := .filling, kind := 3, commons := w.commons, ctx := if w.commons then 0 else w.ctx, key := w.keySlot, page := i,
        back := w.slow + i % n * frameBytes, backed := decide (i < n) }) (weaverFrames w) 0 with
    | none => s.waitFrame (.fetch h)
    | some (fs, s) => ((s.dropWait (.fetch h)).modWeaver h fun w =>
        { w with state := .fetching, frames := fs, shard := 0, retried := false, wantFetch := false, copy := 0 }).askFetch h

/-- A fetch is demanded (R135): by a sequence or by WEAVER_PREFETCH. -/
def State.demand (h : Nat) (s : State) : State :=
  if (s.weaver h).state = .registered ∨ (s.weaver h).state = .evicting then
    (s.modWeaver h fun w => { w with wantFetch := true }).tryFetch h
  else s

/-- Open sessions of a weaver are parked (R135). -/
def State.parkSessions (h : Nat) (s : State) : State :=
  { s with weav := { s.weav with
    sessions := mapTab {} (fun _ x => if x.isOpen ∧ x.handle = some h then { x with parked := true } else x) s.weav.sessions } }

/-- A RESIDENT weaver is evicted at a boundary (R135). -/
def State.evictWeaver (h : Nat) (s : State) : State :=
  let w := s.weaver h
  if w.state ≠ .resident then s
  else ((s.each w.frames State.startEvict).modWeaver h fun w => { w with state := .evicting }).parkSessions h

/-- The references to the commons Q weavers follow the contexts that serve with their stake sets; one whose last reference has been withdrawn is
evicted (R130, R157). -/
def State.commonsRefs (s : State) : State :=
  s.each (keysWhere s.weav.dir fun _ w => w.commons) fun h s =>
    let old := (s.weaver h).refs
    let now := servingCtxs s (s.weaver h).sid
    let s := s.modWeaver h fun w => { w with refs := now }
    if !old.isEmpty && now.isEmpty && weaverPins s h == 0 then s.evictWeaver h else s

/-- A frame of a weaver is FREE: an evicted weaver whose last frame is free is REGISTERED, and a wanted fetch starts (R135, R136). -/
def State.weaverFrameFreed (f : Nat) (s : State) : State :=
  s.each (keysWhere s.weav.dir fun _ w => w.frames.contains f) fun h s =>
    let s := s.modWeaver h fun w =>
      let fs := w.frames.filter fun x => x != f
      { w with frames := fs, state := if fs.isEmpty ∧ w.state = .evicting then .registered else w.state }
    s.tryFetch h

/-! ### Write-back of a weaver's frame (R231) -/

/-- The package part of a weaver, opened with its tenant key. -/
def partOf (s : State) (w : Weaver) : Pkg := pkgAt s (s.tkey w.keySlot).key w.slow

/-- The shard checks, HCHECK and PKG_CHECK of a package part follow its contents. -/
def State.recheck (h : Nat) (s : State) : State :=
  let w := s.weaver h
  let p := partOf s w
  let hp := p.headPages
  let shardBytes := fun (i : Nat) =>
    let lo := if i = 0 then 4096 * hp else i * 33554432
    let hi := min ((i + 1) * 33554432) (4096 * w.pkgPages)
    (slowRead p.seal s (w.slow + lo) (hi - lo)).map BitVec.toNat
  let s' := (List.range p.nshard).foldl (fun t i =>
    t.slowWrite p.seal (w.slow + 64 + 16 * p.nsect + 4 * i) (leBytes 4 (crc32c (shardBytes i)))) s
  let hc := (headCheck s' p hp).1
  (s'.slowWrite p.seal (w.slow + 4096 * hp - 4) (leBytes 4 hc)).modWeaver h fun w => { w with pkgCheck := hc }

/-- A dirty frame of a weaver that leaves is written back into the package part (R231). -/
def State.weaverWriteBack (f : Nat) (s : State) : State :=
  let e := s.frame f
  if e.kind ≠ 3 ∨ !e.backed ∨ e.dirty = 0 then s
  else
    let s := s.writeBack f e.dirty
    match keysWhere s.weav.dir fun _ w => w.frames.contains f with
    | h :: _ => s.recheck h
    | [] => s

/-! ### Side slots (R150 to R153) -/

def sideKey (layer slot : Nat) : Nat := 16 * layer + slot

def State.mapSide (f : SideSlot → SideSlot) (s : State) : State :=
  { s with weav := { s.weav with side := mapTab {} (fun _ x => f x) s.weav.side } }

/-- MoE layers of a weaver's stake set, in the generation it is accepted on. -/
def moeLayers (s : State) (w : Weaver) : List Nat :=
  match genOf s w.sid w.genBound with
  | none => []
  | some g => ((g.layers.zip (List.range g.layers.length)).filter fun x => x.1.kind == 2).map Prod.snd

/-- The side slot of a layer to which a weaver's expert `j` is bound, for courses that start in this round (R151). -/
def boundSlot (s : State) (h layer j : Nat) : Option Nat :=
  (List.range 16).find? fun k =>
    let x := s.side (sideKey layer k)
    x.owned && x.releasing.isNone && decide (x.boundRnd ≤ s.rnd.num) && ((x.owner == h && x.j == j) || x.sharers.contains (h, j))

/-- Whether every one of a weaver's experts is bound in every MoE layer (R152). -/
def sideComplete (s : State) (h : Nat) : Bool :=
  let w := s.weaver h
  !bit w.forms 3 || (moeLayers s w).all fun l => (List.range w.xcount).all fun j => (boundSlot s h l j).isSome

/-- Whether a course that started before a release in round `r` still runs. -/
def startedBy (s : State) (r : Nat) : Bool := s.crs.running.any fun c => decide (c.startRnd ≤ r)

/-- Bindings and releases of sharers take effect at a boundary; a releasing slot is free once no course that started before runs (R151,
R153). -/
def State.sideBoundary (s : State) : State :=
  s.mapSide fun x =>
    let x := { x with sharers := (x.sharers ++ x.joining).filter fun y => !x.leaving.contains y, joining := [], leaving := [] }
    match x.releasing with
    | some r => if startedBy s r then x else {}
    | none => x

/-- Every claim of a weaver is released (R153); sharers of a slot it owned are unbound. -/
def State.releaseClaims (h : Nat) (s : State) : State :=
  s.mapSide fun x =>
    if x.owned ∧ x.owner = h then { x with sharers := [], joining := [], leaving := [], releasing := some (x.releasing.getD s.rnd.num) }
    else { x with leaving := x.leaving ++ (x.sharers ++ x.joining).filter fun y => y.1 == h }

/-- Whether other weavers share a slot that a weaver owns. -/
def hasSharers (s : State) (h : Nat) : Bool := s.weav.side.any fun p => p.2.owned && p.2.owner == h && !(p.2.sharers ++ p.2.joining).isEmpty

/-! ### Removal (R135, R142, R164) -/

/-- The status of what a removed weaver's sequences end with. -/
def removedStatus (s : State) (h : Nat) : Nat := if ctxGoing s (s.weaver h).ctx then St.revoked else St.weaverRemoved

/-- A weaver moves to REMOVING: its waiting sequences complete, idle sessions close, claims are released. -/
def State.startRemove (h : Nat) (s : State) : State :=
  let st := removedStatus s h
  let s := (s.dropWait (.fetch h)).modWeaver h fun w => { w with state := .removing, wantFetch := false }
  let s := s.each (s.crs.waiting.filter fun r => r.handle == some h) fun r s => s.dropSeq r st
  let inCourse := fun (k : Nat) => s.crs.running.any fun c => c.hostRows.any fun r => seqKey r == k
  let s := s.each (keysWhere s.weav.sessions fun k x => x.handle == some h && !inCourse k) fun k s => s.closeSession k
  s.releaseClaims h

/-- The frames of a weaver that is REMOVING leave once nothing pins it. -/
def State.removeFrames (h : Nat) (s : State) : State :=
  let w := s.weaver h
  if w.state = .removing ∧ weaverPins s h = 0 then
    ((s.dropMove (.fetch h)).modWeaver h fun w => { w with burst := none }).each w.frames fun f s =>
      if (s.frame f).state = .filling then s.zeroFrame f else s.startEvict f
  else s

/-- A slow-tier range is scrubbed. -/
def State.slowScrub (sda n : Nat) (s : State) : State :=
  let lo := slowKey s sda
  if (sdaSpace sda = 0 ∧ s.mem.pool.isSome) then
    let keys := (List.range (ceilDiv n 4096)).map fun i => slowKey s (sda + 4096 * i)
    { s with mem := { s.mem with slow := s.mem.slow.filter fun p => !keys.any fun k => decide (k ≤ p.1) && decide (p.1 < k + 4096) } }
  else { s with mem := { s.mem with slow := zeroBytes s.mem.slow lo n } }

/-- The entry of a removed weaver is zeroed once nothing pins it and its frames are FREE; each WEAVER_REMOVE gets its record. -/
def State.removeComplete (h : Nat) (s : State) : State :=
  let w := s.weaver h
  if w.state ≠ .removing ∨ weaverPins s h ≠ 0 ∨ !w.frames.isEmpty then s
  else
    let s := s.slowScrub w.slow (4096 * w.pkgPages)
    let s := s.modWeaver h fun _ => {}
    s.each w.removers fun n s => s.finalRecord n St.ok 0

/-! ### A fetched shard (R135, R140) -/

/-- The frames that hold shard `i` of one working copy. -/
def shardFrames (n i : Nat) : List Nat := (List.range n).filter fun k => k / 16 == i

/-- The check of shard `i` against the shard check table; the header area is left out of shard 0. -/
def shardOk (s : State) (w : Weaver) (i : Nat) : Bool :=
  let p := partOf s w
  let skip := if i = 0 then 4096 * p.headPages else 0
  crc32c ((slowRead p.seal s (w.slow + i * 33554432 + skip) (shardLen w.pkgPages i - skip)).map BitVec.toNat)
    == leNat (slowRead p.seal s (w.slow + 64 + 16 * p.nsect + 4 * i) 4)

/-- A checked shard fills its frames, in both working copies of a TRAINABLE weaver, and they become RESIDENT. -/
def State.fillShard (h i : Nat) (s : State) : State :=
  let w := s.weaver h
  let n := ceilDiv w.pkgPages 512
  s.each (shardFrames n i) fun k s =>
    let bs := slowRead (partOf s w).seal s (w.slow + k * frameBytes) (min frameBytes (4096 * w.pkgPages - k * frameBytes))
    s.each (((w.frames[k]?).toList) ++ if w.trainable then ((w.frames[n + k]?).toList) else []) fun f s =>
      ({ s with mem := { s.mem with hbm := wrBytes s.mem.hbm (f * frameBytes) bs } }).modFrame f fun e => { e with state := .resident }

/-- A fetch fails (R135): frames discarded, a journal entry, waiting sequences complete with WEIGHT_UNAVAILABLE. -/
def State.fetchFails (h : Nat) (s : State) : State :=
  let w := s.weaver h
  let s := s.each w.frames fun f s => s.zeroFrame f
  let s := (s.dropMove (.fetch h)).modWeaver h fun w => { w with state := .registered, frames := [], wantFetch := false, burst := none }
  let s := s.journal { code := St.sourceMoved, cls := Cls.info, blk := Blk.mig, ctx := w.ctx, detail := h }
  s.each (s.crs.waiting.filter fun r => r.handle == some h) fun r s => s.dropSeq r St.weightUnavailable

/-- A weaver's shard in turn has been read once its units are admitted: checked and written, or retried once, or the fetch fails (R135). -/
def State.shardFetched (h : Nat) (readOk : Bool) (s : State) : State :=
  let w := s.weaver h
  if w.state ≠ .fetching ∨ moveLeft s (.fetch h) ≠ 0 then s
  else if (s.tkey w.keySlot).state ≠ .live then (s.noKey (w.frames.headD 0)).fetchFails h
  else if w.burst ≠ some (s.tkey w.keySlot).gen then (s.countStale (msdOfFrame (w.frames.headD 0))).askFetch h
  else if readOk && shardOk s w w.shard then
    let s := s.fillShard h w.shard
    if w.shard + 1 < w.nshard then (s.modWeaver h fun w => { w with shard := w.shard + 1, retried := false }).askFetch h
    else s.modWeaver h fun w => { w with state := .resident, usableFrom := s.rnd.num + 1, burst := none }
  else if !w.retried then (s.modWeaver h fun w => { w with retried := true }).askFetch h
  else s.fetchFails h

/-- WEAVER_SHARD_FETCHED (R135). -/
def execWeaverShardFetched (handle : Nat) (readOk : Bool) (s : State) : Host.Outcome State Fault Refusal :=
  act (okHandle handle) s (s.shardFetched handle readOk)

/-- WEAVER_REMOVE_COMPLETE (R135). -/
def execWeaverRemoveComplete (handle : Nat) (s : State) : Host.Outcome State Fault Refusal :=
  act (okHandle handle) s (s.removeComplete handle)

end Sys2Proof.Machine
end

