-- ==== Sys2Proof/Machine/Stakes.lean ====
section
/-! DEFINITION. Stake sets: image parts (R169 to R174), builds (R178 to R180), commits (R181 to R184), freeing and eviction (R192 to
R198), carry-over (R187 to R191), and the commands that these events are. -/

namespace Sys2Proof.Machine

/-! ### Image parts -/

/-- The image part of a stake set at a slow-tier address, opened with the stake-set key (R174). -/
def imageAt (s : State) (sid sda : Nat) : Pkg := pkgAt s (s.skey (s.stake sid).keySlot).key sda
def Pkg.nlayer (p : Pkg) : Nat := p.at 12 2
def Pkg.imgSect (p : Pkg) : Nat := p.at 16 4
def Pkg.imgPages (p : Pkg) : Nat := p.at 24 4
def Pkg.imgShard (p : Pkg) : Nat := p.at 28 4
def Pkg.imgHead (p : Pkg) : Nat := headPagesOf (16 * p.nlayer) p.imgSect 32 p.imgShard

/-- The layer table (R170). -/
def imageLayers (s : State) (p : Pkg) : List (Nat × Layer) :=
  (List.range p.nlayer).map fun i =>
    let v := leNat (slowRead p.seal s (p.base + 64 + 16 * i) 16)
    (bytesAt v 0 2, { kind := bytesAt v 2 1, sets := bytesAt v 3 1, e := bytesAt v 4 1, topk := bytesAt v 5 1, width := bytesAt v 8 4 })

/-- The section table (R171). -/
def imageSects (s : State) (p : Pkg) : List Section :=
  (List.range p.imgSect).map fun i =>
    let v := leNat (slowRead p.seal s (p.base + 64 + 16 * p.nlayer + 32 * i) 32)
    { layer := bytesAt v 0 2, kind := bytesAt v 2 1, mat := bytesAt v 3 1, expert := bytesAt v 4 1, fmt := bytesAt v 5 1,
      split := bytesAt v 6 1, zero := bytesAt v 7 1 + 256 * bytesAt v 24 8, k := bytesAt v 8 4, n := bytesAt v 12 4, offset := bytesAt v 16 4,
      length := bytesAt v 20 4 }

/-- The order of the section table (R171). -/
def sectKey (x : Section) : Nat := ((x.layer * 256 + x.kind) * 256 + x.mat) * 256 + x.expert

def rising : List Nat → Bool
  | a :: b :: r => decide (a < b) && rising (b :: r)
  | _ => true

/-- Formats of a weights section (R171). -/
def weightFmt (f : Nat) : Bool := [3, 4, 5, 6, 7, 10, 11, 12, 13, 14, 15].contains f

/-- What R171 asks of the sections. -/
def imageSectsOk (p : Pkg) (xs : List Section) : Bool :=
  rising (xs.map sectKey) && rangesOk p.imgHead p.imgPages (xs.map fun x => (x.offset, x.length))
    && xs.all fun x => decide (x.layer < p.nlayer) && x.kind ≤ 6 && x.mat ≤ 7 && (x.expert < 240 || x.expert == 255) && x.split ≤ 2 && x.zero == 0
        && (x.kind != 0 || weightFmt x.fmt) && (!(1 ≤ x.kind && x.kind ≤ 3) || x.fmt == 0)

/-- The checks of R174 on the header area of an image part, for a stamp that R167 or the rebuild of R198 allows. -/
def imageOk (s : State) (sid gen : Nat) (p : Pkg) : Bool :=
  let k := s.stake sid
  let hc := headCheck s p p.imgHead
  p.at 0 4 == 0x09605353 && p.at 4 2 == 1 && hc.1 == hc.2 && p.at 6 1 == sid && p.at 10 1 == s.hoop.pos
    && p.at 8 2 == gen && gen != 0 && (decide (k.maxStamp < gen) || (k.nonresident && gen == k.lastCurrent))
    && 1 ≤ p.nlayer && p.nlayer ≤ 4096 && 1 ≤ p.at 11 1 && p.at 11 1 ≤ 16 && p.imgShard == ceilDiv p.imgPages 8192
    && imageSectsOk p (imageSects s p)

/-! ### Counts and references -/

def genCourses (s : State) (sid gen : Nat) : Nat := (s.crs.running.filter fun c => c.sid == sid && c.gen == gen).length
def genSessions (s : State) (sid gen : Nat) : Nat := countTab s.weav.sessions fun _ x => x.isOpen && x.sid == sid && x.gen == gen

/-- The slot of a stamp. -/
def slotOf (s : State) (sid gen : Nat) : Option Nat :=
  ((s.stake sid).gens.find? fun p => p.2.gen == gen && p.2.state != .absent).map Prod.fst

/-- The CURRENT stamp of a stake set, 0 when none. -/
def currentGen (s : State) (sid : Nat) : Nat :=
  match (s.stake sid).gens.find? fun p => p.2.state == .current with | some p => p.2.gen | none => 0

/-- Whether a stake set may be evicted (R194), whoever asks. -/
def stakeIdle (s : State) (sid : Nat) : Bool :=
  let k := s.stake sid
  (k.gens.all fun p => genCourses s sid p.2.gen == 0 && genSessions s sid p.2.gen == 0) && k.build.isNone
    && s.weav.dir.all fun p => !(p.2.commons && p.2.sid == sid && weaverPins s p.1 != 0)

/-- Frames that a stake set's generations hold. -/
def stakeFrames (s : State) (sid : Nat) : Nat := ((s.stake sid).gens.map fun p => p.2.frames.length).sum

/-! ### Freeing and eviction (R177, R192, R195, R196) -/

/-- A generation's frames leave: those still FILLING are discarded, the others are evicted unmapped. -/
def State.freeGen (sid slot : Nat) (s : State) : State :=
  let g := (s.stake sid).gen slot
  let s := s.modGen sid slot fun g => { g with state := .freeing }
  s.each g.frames fun f s => if (s.frame f).state = .filling then s.zeroFrame f else s.startEvict f

/-- Every STAKE_EVICT of a set completes. -/
def State.endEvicts (sid status : Nat) (s : State) : State :=
  let ns := (s.stake sid).evictNotes
  (s.modStake sid fun k => { k with evictNotes := [] }).each ns fun n s => s.finalRecord n status 0

/-- A generation whose last frame is FREE is ABSENT; STAKE_EVICT completes when none is left. -/
def State.genDone (sid slot : Nat) (s : State) : State :=
  let g := (s.stake sid).gen slot
  if g.state = .freeing ∧ g.frames.isEmpty then
    let s := s.modGen sid slot fun _ => {}
    if (s.stake sid).gens.isEmpty then s.endEvicts sid St.ok else s
  else s

/-- A frame of an image is FREE. -/
def State.genFrameFreed (f : Nat) (s : State) : State :=
  s.each s.stakes fun p s => s.each p.2.gens fun g s =>
    if g.2.frames.contains f then
      (s.modGen p.1 g.1 fun g => { g with frames := g.frames.filter fun x => x != f }).genDone p.1 g.1
    else s

/-- A commit is aborted: the generation stays READY (R183). -/
def State.abortCommit (sid : Nat) (s : State) : State :=
  match (s.stake sid).commit with
  | none => s
  | some c => (s.modStake sid fun k => { k with commit := none }).finalRecord c.note St.commitAborted 0

/-- Courses that a generation's end takes with it: probe courses of a generation that is given up while READY. -/
def State.endGenCourses (sid gen : Nat) (s : State) : State :=
  s.each (s.crs.running.filter fun c => c.sid == sid && c.gen == gen) fun c s => s.endCourse c.id St.partialEnd

/-- Every generation of a stake set moves to FREEING; it stays registered and is nonresident (R196). -/
def State.evictStake (sid : Nat) (s : State) : State :=
  let s := (s.abortCommit sid).each (s.stake sid).gens fun g s => s.freeGen sid g.1
  let s := s.modStake sid fun k => { k with nonresident := true }
  s.each (s.stake sid).gens fun g s => s.genDone sid g.1

/-! ### Builds (R178, R179) -/

/-- The sources of a build in order: peers, image, mirror, host; `none` for a peer. A mirror or host at address 0 is not named (R178). -/
def buildSources (g : Gen) : List (Option Nat) :=
  g.peers.map (fun _ => none) ++ (g.image :: [g.mirror, g.host].filter fun a => a != 0).map some

/-- The frame of the leaves of a generation slot's page table (R207): charged to the commons, pinned, and kept with the slot. An image part is
at most two leaves long. -/
def State.takeTable (sid slot : Nat) (s : State) : Option State :=
  if (s.stake sid).tables.any fun x => x.1 == slot then some s
  else match pickFrame s 15 0 with
    | none => none
    | some f => some ((s.takeFrame f { state := .resident, kind := 7, commons := true }).modStake sid fun k =>
        { k with tables := k.tables ++ [(slot, f)] })

/-- The frames that a build needs: its image part's, and its slot's table. -/
def buildFrames (s : State) (sid slot pages : Nat) : Nat := ceilDiv pages 512 + b2n (!(s.stake sid).tables.any fun x => x.1 == slot)

/-- The frames of a build are taken once quota and FREE frames are there (R179, R222). -/
def State.tryBuildFrames (sid : Nat) (s : State) : State :=
  match (s.stake sid).build with
  | none => s
  | some b =>
    let g := (s.stake sid).gen b.slot
    let n := ceilDiv g.imgPages 512
    if !g.frames.isEmpty then s
    else if !hasRoom s commonsAcct (buildFrames s sid b.slot g.imgPages) || behind s (.build sid) then s.waitFrame (.build sid)
    else
      match (s.takeFrames (fun i => { state := .filling, kind := 2, commons := true, stakeKey := true, key := (s.stake sid).keySlot, page := i })
          n 0).bind fun r => (r.2.takeTable sid b.slot).map fun t => (r.1, t) with
      | none => s.waitFrame (.build sid)
      | some (fs, s) => (s.dropWait (.build sid)).modGen sid b.slot fun g => { g with frames := fs }

/-- Ask the source in turn for the shard in turn, whose bytes are SWAP units (R179). -/
def State.askShard (sid : Nat) (s : State) : State :=
  match (s.stake sid).build with
  | none => s
  | some b =>
    let k := (s.stake sid).keySlot
    (((s.modStake sid fun x => { x with build := some { b with burst := some (s.skey k).gen } }).dropMove (.build sid)).pushMove
      { what := .build sid, cls := Act.swap, bytes := shardLen ((s.stake sid).gen b.slot).imgPages b.shard }).emit (.shardAsk sid b.shard b.source)

/-- A build ends without its generation (R177, R179): FREEING at the next boundary, the final record with SHARDS_DONE. -/
def State.buildFails (sid : Nat) (b : Build) (status : Nat) (s : State) : State :=
  let done := ((s.stake sid).gen b.slot).done
  let s := (s.dropMove (.build sid)).dropWait (.build sid)
  ((s.modGen sid b.slot fun g => { g with failed := true }).modStake sid fun k => { k with build := none }).finalRecord b.note status done

/-- The shard in turn moves on to the next source, with a journal entry; without one the build fails (R179). -/
def State.nextSource (sid : Nat) (b : Build) (s : State) : State :=
  let g := (s.stake sid).gen b.slot
  let s := s.journal { code := St.sourceMoved, cls := Cls.info, blk := Blk.mig, gen := g.gen, detail := sid + b.shard * 2 ^ 8 + b.source * 2 ^ 40 }
  if b.source + 1 < (buildSources g).length then
    (s.modStake sid fun k => { k with build := some { b with source := b.source + 1, since := s.rnd.num } }).askShard sid
  else s.buildFails sid b St.buildFailed

/-- The bytes that a peer delivers for a shard: ciphertext of the image part (R180). -/
def shardBytes (n : Nat) (data : List (Nat × Byte)) : List Byte :=
  let t := data.foldl (fun t x => store 0 t x.1 x.2) []
  rdBytes t 0 n

/-- A shard has arrived from the source in turn: checked and written, or on to the next source (R179). -/
def State.shardArrives (sid : Nat) (r : ShardIn) (s : State) : State :=
  match (s.stake sid).build with
  | none => s
  | some b =>
    let g := (s.stake sid).gen b.slot
    let p := imageAt s sid g.image
    let n := shardLen g.imgPages b.shard
    if g.frames.isEmpty ∨ g.nshard ≤ b.shard then s
    else
      match r with
      | .refused | .crcBad | .poisoned => s.nextSource sid b
      | .ok data =>
        let src := (buildSources g).getD b.source none
        let bad := src.elim false fun a => !slowUp s a || !(slowBadIn s (a + b.shard * 33554432) n).isEmpty
        if bad then s.nextSource sid b
        else if moveLeft s (.build sid) ≠ 0 then s
        else if (s.skey (s.stake sid).keySlot).state ≠ .live then (s.noKey (g.frames.headD 0)).buildFails sid b St.buildFailed
        else if b.burst ≠ some (s.skey (s.stake sid).keySlot).gen then (s.countStale (msdOfFrame (g.frames.headD 0))).askShard sid
        else
        let bs := match src with
          | none => mapBlocks p.seal.unlock (ceilDiv n 16) (b.shard * 2097152) (shardBytes n data)
          | some a => slowRead { p.seal with base := a } s (a + b.shard * 33554432) n
        let skip := if b.shard = 0 then 4096 * p.imgHead else 0
        let check := leNat (slowRead p.seal s (g.image + 64 + 16 * p.nlayer + 32 * p.imgSect + 4 * b.shard) 4)
        if crc32c ((bs.drop skip).map BitVec.toNat) ≠ check then s.nextSource sid b
        else
          let fs := (shardFrames g.frames.length b.shard).filterMap fun k => (g.frames[k]?).map fun f => (f, k)
          let s := s.each fs fun x s =>
            ({ s with mem := { s.mem with
              hbm := wrBytes s.mem.hbm (x.1 * frameBytes) ((bs.drop ((x.2 % 16) * frameBytes)).take frameBytes) } }).modFrame x.1
              fun e => { e with state := .resident }
          let s := s.modGen sid b.slot fun g => { g with done := g.done + 1 }
          if b.shard + 1 < g.nshard then
            (s.modStake sid fun k => { k with build := some { b with shard := b.shard + 1, source := 0, since := s.rnd.num } }).askShard sid
          else s.modStake sid fun k => { k with build := some { b with shard := b.shard + 1 } }

/-- A peer that completes no transfer within 4 rounds of its request is passed over (R179). -/
def State.peerTimeout (sid : Nat) (s : State) : State :=
  match (s.stake sid).build with
  | none => s
  | some b =>
    let g := (s.stake sid).gen b.slot
    if b.source < g.peers.length ∧ b.since + 4 ≤ boundaryRnd s ∧ b.shard < g.nshard then s.nextSource sid b else s

/-- A peer's request for a shard, which travels as image ciphertext (R180). A part with a poisoned line is not delivered (R237). DESIGN CHOICE: the
manual gives that refusal no status; the model takes DATA_POISONED. -/
def State.servePeer (q : ShardReq) (s : State) : State :=
  let held := fun (g : Gen) => g.part == q.part && decide (q.shard < g.nshard)
    && [GState.ready, .current, .isOpen, .closed].contains g.state
  match (genOf s q.sid q.gen).filter fun g => held g && (look ({} : Cost) s.bud.share Act.swap).link != 0 with
  | none => s.emit (.shardRefused q.peer St.noSourceBudget)
  | some g =>
    let n := shardLen g.imgPages q.shard
    let fs := (shardFrames g.frames.length q.shard).map fun k => g.frames.getD k 0
    if fs.any fun f => lineBad s f 0 frameBytes then s.emit (.shardRefused q.peer St.dataPoisoned)
    else
    let bs := (fs.flatMap fun f => frameRead s f 0 frameBytes).take n
    let out := mapBlocks (Seal.lock { key := (s.skey (s.stake q.sid).keySlot).key, base := 0 }) (ceilDiv n 16) (q.shard * 2097152) bs
    (s.emit (.shardReply q.peer q.sid q.shard out)).charge Act.swap { hbm := n, link := n }

/-! ### Carry-over (R187 to R191) -/

/-- Whether a weaver takes part in carry-over to a new generation. -/
def carries (s : State) (sid : Nat) (w : Weaver) : Bool :=
  w.state != .free && w.sid == sid && !w.commons && w.genBound == currentGen s sid && w.genBound != 0 && w.carry == .none

/-- CARRY of a weaver for a READY generation: PENDING, FAILED at once on another structure, PASSED at once where a structural pass
suffices. -/
def State.startCarry (h : Nat) (g : Gen) (s : State) : State :=
  let w := s.weaver h
  let c := if w.structSig ≠ g.structSig then Carry.failed else if g.checkMode = 0 then .passed else .pending
  let s := s.modWeaver h fun w => { w with carry := c, carryGen := g.gen, carrySum := 0, carryMax := 0 }
  if c = .pending then s.demand h else s

def State.startCarries (sid : Nat) (g : Gen) (s : State) : State :=
  s.each (keysWhere s.weav.dir fun _ w => carries s sid w) fun h s => s.startCarry h g

/-! ### Commits (R182 to R184) -/

/-- READY for a commit that this device has accepted, in every round from acceptance (R182). -/
def State.sendReady (sid : Nat) (s : State) : State :=
  match (s.stake sid).commit with
  | none => s
  | some c =>
    match (genOf s sid c.gen).filter fun g => g.state == .ready with
    | none => s
    | some g => s.originate 0x10 12 (sid + c.gen * 2 ^ 8 + g.part * 2 ^ 24 + c.c * 2 ^ 32)

/-- The announcement at the boundary of round C − 1: the MASTER's by the READY parts it has received, a LOCAL device's own (R182). -/
def State.announce (sid : Nat) (s : State) : State :=
  match (s.stake sid).commit with
  | none => s
  | some c =>
    let g := genOf s sid c.gen
    let parts := (g.map Gen.parts).getD 1
    let own := (g.map fun g => g.state == .ready).getD false
    if boundaryRnd s + 1 < c.c ∨ c.go ∨ s.rnd.active = 2 then s
    else
      let ok := if s.rnd.active = 0 then own
        else (List.range parts).all fun p => c.ready.contains p || (own && (g.map Gen.part).getD parts == p)
      let s := if s.rnd.active = 1 then s.originate (if ok then 0x11 else 0x12) 11 (sid + c.gen * 2 ^ 8 + c.c * 2 ^ 24) else s
      if ok then s.modStake sid fun k => { k with commit := some { c with go := true } } else s.abortCommit sid

/-- The pointer switch at cycle 24 (R177, R184). -/
def State.switchGen (sid : Nat) (s : State) : State :=
  match (s.stake sid).commit with
  | none => s
  | some c =>
    if !c.go ∨ s.rnd.num < c.c then s
    else
      let s := s.modStake sid fun k => { k with
        gens := mapTab {} (fun _ g =>
          if g.gen = c.gen ∧ g.state = .ready then { g with state := .current }
          else if g.state = .current then
            { g with state := if c.openRounds = 0 then .closed else .isOpen, closeRnd := c.c + c.openRounds }
          else if g.state = .isOpen then { g with state := .closed }
          else g) k.gens,
        commit := none, nonresident := false, lastCurrent := c.gen }
      let s := if c.late then s.journal { code := St.groupTiming, cls := Cls.info, blk := Blk.round, gen := c.gen, detail := 2 } else s
      s.measured.finalRecord c.note St.ok 0

/-- OPEN generations whose CLOSE_RND has come are CLOSED (R177). -/
def State.closeGens (sid : Nat) (s : State) : State :=
  s.modStake sid fun k => { k with
    gens := mapTab {} (fun _ g => if g.state = .isOpen ∧ g.closeRnd ≤ boundaryRnd s then { g with state := .closed } else g) k.gens }

/-- Generation changes at cycle 20 (R177, R195, R214), evictions that have been commanded among them. DESIGN CHOICE: an eviction whose set no longer
meets R194 at that cycle ends with STAKE_IN_USE. A finished build is READY, with the carry-over settings of R187; a failed or aborted one and
a CLOSED one that nothing uses move to FREEING. -/
def State.gensAt20 (sid : Nat) (s : State) : State :=
  let s := match (s.stake sid).build with
    | none => s
    | some b =>
      let g := (s.stake sid).gen b.slot
      if g.state = GState.building ∧ g.nshard ≤ b.shard then
        let s := (s.modGen sid b.slot fun g => { g with state := GState.ready }).modStake sid fun k => { k with build := none }
        (s.finalRecord b.note St.ok g.done).startCarries sid g
      else s.tryBuildFrames sid
  let s := if (s.stake sid).evictNotes.isEmpty ∨ (s.stake sid).gens.all (fun g => g.2.state == GState.freeing) then s
    else if stakeIdle s sid then s.evictStake sid
    else s.endEvicts sid St.stakeInUse
  let s := if (s.stake sid).gens.isEmpty then s.endEvicts sid St.ok else s
  s.each (s.stake sid).gens fun (g : Nat × Gen) s =>
    if (g.2.failed ∧ (g.2.state = GState.building ∨ g.2.state = GState.ready))
        ∨ (g.2.state = GState.closed ∧ genCourses s sid g.2.gen = 0 ∧ genSessions s sid g.2.gen = 0) then
      ((s.endGenCourses sid g.2.gen).freeGen sid g.1).genDone sid g.1
    else s

/-! ### The commands -/

/-- GEN_CLOSE (R177). -/
def execGenClose (sid : Nat) (s : State) : Host.Outcome State Fault Refusal := act (okStake sid) s (s.closeGens sid)

/-- COMMIT_ANNOUNCE (R182). -/
def execCommitAnnounce (sid : Nat) (s : State) : Host.Outcome State Fault Refusal := act (okStake sid) s (s.announce sid)

/-- PEER_SHARD_TIMEOUT (R179). -/
def execPeerShardTimeout (sid : Nat) (s : State) : Host.Outcome State Fault Refusal := act (okStake sid) s (s.peerTimeout sid)

/-- PEER_SHARD_REQUEST (R180). -/
def execPeerShardRequest (q : ShardReq) (s : State) : Host.Outcome State Fault Refusal := act (okStake q.sid) s (s.servePeer q)

/-- BUILD_SHARD_FETCHED (R179). -/
def execBuildShardFetched (sid : Nat) (r : ShardIn) (s : State) : Host.Outcome State Fault Refusal := act (okStake sid) s (s.shardArrives sid r)

end Sys2Proof.Machine
end

