-- ==== Sys2Proof/Machine/Frames.lean ====
section
/-! DEFINITION. The migration engines: fills, promotions, evictions, zeroing and cleaning of frames (R214, R217, R230, R231), the
room that accounts make at a boundary (R156, R223, R224), heat placement (R226), deferred evictions (R216), and poisoned lines and
their repairs (R237 to R240, R267, R268). -/

namespace Sys2Proof.Machine

/-! ### Orders -/

/-- One key before another, field by field. -/
def keyLt : List Nat → List Nat → Bool
  | a :: x, b :: y => decide (a < b) || (a == b && keyLt x y)
  | [], _ :: _ => true
  | _, [] => false

def insertBy (key : Nat → List Nat) (x : Nat) : List Nat → List Nat
  | [] => [x]
  | y :: r => if keyLt (key x) (key y) then x :: y :: r else y :: insertBy key x r

/-- A list of numbers in the order of their keys; equal keys keep their order. -/
def orderBy (key : Nat → List Nat) (xs : List Nat) : List Nat := xs.reverse.foldl (fun r x => insertBy key x r) []

/-! ### Waiting allocations (R208, R222) -/

/-- Frames of a kind that a context holds. -/
def kindFrames (s : State) (ctx kind : Nat) : Nat :=
  countTab s.mem.frames fun _ e => !frameFree e && !e.commons && e.ctx == ctx && e.kind == kind

/-- The key of a context's save area for a logical cell. -/
def saveKey (ctx lc : Nat) : Nat := 1024 * ctx + lc

/-- Whether the save areas of a context have the SAVE frames that they need: 1,028 KiB a cell (R78). -/
def savesFit (s : State) (ctx : Nat) : Bool :=
  decide (ceilDiv (257 * (s.ups.areas.filter fun x => x / 1024 == ctx).length) 512 ≤ kindFrames s ctx 6)

/-- The SAVE frame that a context's save areas still lack is taken, or waited for (R78, R228). -/
def State.trySave (ctx lc : Nat) (s : State) : State :=
  let n := kindFrames s ctx 6
  if savesFit s ctx then s.dropWait (.save ctx lc)
  else match if behind s (.save ctx lc) then none else pickFrame s 15 n with
    | none => s.waitFrame (.save ctx lc)
    | some f => (s.takeFrame f { state := .resident, kind := 6, ctx := ctx, key := ctx, page := n }).dropWait (.save ctx lc)

/-- A cell's save area is laid out after its context's others (R78). -/
def State.takeSave (ctx lc : Nat) (s : State) : State :=
  let k := saveKey ctx lc
  (if s.ups.areas.contains k then s else { s with ups := { s.ups with areas := s.ups.areas ++ [k] } }).trySave ctx lc

/-- A page of a due course, or one that a write waits for, asks for its frame (R208, R236): a ZERO page is filled, a page in T2 moved up. -/
def State.wantPage (k : Nat) (s : State) : State :=
  let e := s.pteAt k
  if !e.valid then s.dropWait (.page k)
  else match e.tier with
    | .t1 => s.dropWait (.page k)
    | .zero => (s.allocZero k).2
    | .t2 =>
      if (promoting s k).isSome then s.dropWait (.page k)
      else if (leaving s k).isNone && hasRoom s (payer s k) 1 then
        let r := s.startPromote k false
        if r.1.isSome then r.2 else r.2.waitFrame (.page k)
      else s.waitFrame (.page k)

/-- The mailbox commands that wait for FREE frames: MEM_MAP and QP_CREATE. They go on when they are commanded again. -/
def waitOps : List Nat := [0x0604, 0x0303]

/-- A waiting allocation asks again. -/
def State.serveWait (w : WaitFor) (s : State) : State :=
  match w with
  | .page k => s.wantPage k
  | .save ctx lc => s.trySave ctx lc
  | .fetch h => s.tryFetch h
  | .build sid => s.tryBuildFrames sid
  | .cmd ch => if chanState (s.chan ch) = Ch.busy ∧ waitOps.contains (bytesAt (reqNat (s.chan ch)) 0 2) then s else s.dropWait w

/-- Whether an allocation that still waits has the quota, so that it lacks FREE frames alone. -/
def onlyShort (s : State) (w : WaitFor) : Bool :=
  match w with
  | .page k => (leaving s k).isNone && hasRoom s (payer s k) 1
  | .save _ _ | .cmd _ => true
  | .fetch h => fetchReady s (s.weaver h)
  | .build sid => (s.stake sid).build.any fun b => hasRoom s commonsAcct (buildFrames s sid b.slot ((s.stake sid).gen b.slot).imgPages)

/-- Whether the waits that `p` picks lack FREE frames only. -/
def State.markShort (b : Bool) (p : AllocWait → Bool) (s : State) : State :=
  { s with mem := { s.mem with waits := s.mem.waits.map fun x => if p x then { x with short := b } else x } }

/-- The waiting allocations ask again in the order in which they arose; one that lacks only FREE frames keeps those that follow from taking
them (R222). -/
def State.serveWaits (s : State) : State :=
  (s.markShort false fun _ => true).each (s.mem.waits.map AllocWait.what) fun w s =>
    let t := s.serveWait w
    if onlyShort t w then t.markShort true fun x => x.what == w else t

/-! ### The end of a move -/

/-- The slow tier delivered poisoned lines of a range that fills a frame: they are poisoned there (R237). -/
def State.poisonFrom (f a : Nat) (bad : List Nat) (s : State) : State :=
  s.each bad fun l s => s.poison f ((l * 64 - a) / 64) St.hbmPoison (some (l / 64 * 4096))

/-- A frame's new content has come from the slow tier. -/
def State.copyIn (f a : Nat) (s : State) : State :=
  { s with mem := { s.mem with hbm := wrBytes s.mem.hbm (f * frameBytes) (slowRead (frameSeal s f) s a frameBytes) } }

/-- The bytes that the move of a frame's content takes from its start. -/
def moveBytes (s : State) (f : Nat) : Nat :=
  let e := s.frame f
  match e.state with
  | .filling | .promoting => frameBytes
  | .evicting | .demoting => leaveBytes s f
  | _ => maskBytes e.pass

/-- Whether the burst in turn of a frame's move is served: neither stale nor under a slot without a key (R265, R400).
Otherwise it is dropped and counted and its command retires without effect. DESIGN CHOICE: the engine moves the content again
under the new generation while the slot is LIVE. -/
def State.burstServes (f : Nat) (s : State) : Bool × State :=
  let e := s.frame f
  let k := frameKey s e
  match e.burst with
  | none => (moveBytes s f == 0, s)
  | some g =>
    if g ≠ k.gen then
      let s := s.countStale (msdOfFrame f)
      (false, if k.state = .live then s.moveFrame f (moveBytes s f) else s.endMove f)
    else if k.state ≠ .live then (false, (s.noKey f).endMove f)
    else (true, s)

/-- A mapped fill from the source that MEM_MAP named is complete once its units have been admitted (R214). -/
def State.fillDone (f : Nat) (s : State) : State :=
  let e := s.frame f
  match e.state, e.fillFrom with
  | .filling, some a =>
    let r := s.burstServes f
    if !slowUp s a ∨ moveLeft s (.frame f) ≠ 0 then s
    else if !r.1 then r.2
    else (((s.copyIn f a).modFrame f fun e => { e with state := .resident, fillFrom := none, burst := none }).poisonFrom f a
      (slowBadIn s a frameBytes)).finishWorks
  | _, _ => s

/-- A promotion is complete once its units have been admitted (R214, R221): the page's content in the frame, every PTE of it at TIER 0, the T2
copy kept as backing. -/
def State.promotionDone (f : Nat) (s : State) : State :=
  let e := s.frame f
  let r := s.burstServes f
  if e.state ≠ .promoting ∨ !slowUp s e.back ∨ moveLeft s (.frame f) ≠ 0 then s
  else if !r.1 then r.2
  else
    let keys := ptesAt s e.back
    let bad := slowBadIn s e.back frameBytes
    let s := (s.copyIn f e.back).modFrame f fun e => { e with state := .resident, backed := true, dirty := 0, byHeat := none, burst := none }
    let s := s.each keys fun k s => s.modPte k fun p => { p with tier := .t1, frame := f, backed := true, heat := 0 }
    let s := s.modMig (msdOfFrame f) fun m => { m with promoted := sat 16 (m.promoted + 1) }
    (s.refreshPoison f).poisonFrom f e.back bad

/-- Where a leaving frame's content goes, when it goes anywhere that is known already. -/
def leaveTarget (s : State) (f : Nat) : Option Nat := if !(ptesOf s f).isEmpty && (s.frame f).backed then some (s.frame f).back else none

/-- An eviction or demotion is complete once its units have been admitted (R231): the content kept in T2 while the page is mapped, then the
frame is zeroed. A frame whose port is away, or whose account has no T2 page, stays (R427). -/
def State.evictionDone (f : Nat) (s : State) : State :=
  let e := s.frame f
  let r := s.burstServes f
  if (e.state ≠ .evicting ∧ e.state ≠ .demoting) ∨ e.zeroing ∨ moveLeft s (.frame f) ≠ 0 then s
  else if ((leaveTarget s f).elim false fun a => !slowUp s a) then s
  else if !r.1 then r.2
  else
    let s := if e.kind = 3 ∧ e.dirty ≠ 0 then s.weaverWriteBack f else s
    let s := s.leaveFrame f
    if !(s.frame f).zeroing then s
    else s.modMig (msdOfFrame f) fun m =>
      if e.state = .demoting then { m with demoted := sat 16 (m.demoted + 1) } else { m with evicted := sat 16 (m.evicted + 1) }

/-- A frame's zeroing ends once its units have been admitted (R217): FREE, whatever waited for it told. -/
def State.zeroDone (f : Nat) (s : State) : State :=
  if !(s.frame f).zeroing ∨ moveLeft s (.zero f) ≠ 0 then s
  else (((s.freeFrame f).weaverFrameFreed f).genFrameFreed f).serveWaits

/-! ### Cleaning (R230) -/

/-- A cleaning pass over a frame's dirty granules starts. -/
def State.startPass (f : Nat) (s : State) : State :=
  let d := (s.frame f).dirty
  (s.modFrame f fun e => { e with cleaning := true, pass := d }).moveFrame f (maskBytes d)

/-- The lowest granules of a mask but for the last `n`. -/
def passDone (mask n : Nat) : Nat :=
  let gs := (List.range 32).filter fun i => bit mask i
  ((gs.take (gs.length - n)).map fun i => 2 ^ i).sum

/-- The granules of a cleaning pass whose units have been admitted are written to the backing copy in ascending order, their bits cleared
(R230). DESIGN CHOICE: the slow tier accepts a granule's write once its units are admitted. A weaver's package follows what is written. -/
def State.cleanStep (f : Nat) (s : State) : State :=
  let e := s.frame f
  let k := frameKey s e
  let out := passDone e.pass (ceilDiv (moveLeft s (.frame f)) 65536)
  if !e.cleaning ∨ !slowUp s e.back ∨ out = 0 ∨ e.burst.isNone then s
  else if e.burst ≠ some k.gen ∨ k.state ≠ .live then (s.burstServes f).2
  else
    let s := (s.writeBack f out).modFrame f fun e => { e with dirty := e.dirty - (e.dirty &&& out), pass := e.pass - (e.pass &&& out) }
    match e.kind == 3, keysWhere s.weav.dir fun _ w => w.frames.contains f with
    | true, h :: _ => s.recheck h
    | _, _ => s

/-- A cleaning pass ends (R230): a frame whose every bit is clear is RESIDENT, one that has been written meanwhile goes through another pass. -/
def State.cleanDone (f : Nat) (s : State) : State :=
  let s := s.cleanStep f
  let e := s.frame f
  if !e.cleaning ∨ e.pass ≠ 0 then s
  else if e.dirty ≠ 0 then s.startPass f
  else (s.modFrame f fun e => { e with state := if e.state = .dirty then .resident else e.state, cleaning := false, burst := none }).finishWorks

/-- Waiting moves ask again at cycle 40, and cleaning goes on (R39, R230). -/
def State.pumpAll (s : State) : State :=
  let s := s.pumpMoves fun _ => true
  s.each (keysWhere s.mem.frames fun _ e => e.cleaning) State.cleanStep

/-! ### Room at a boundary (R156, R195, R222 to R224) -/

/-- Frames of an account that are on their way out. -/
def leavingOf (s : State) (a : Nat) : Nat :=
  countTab s.mem.frames fun _ e => (e.state == .evicting || e.state == .demoting) && ownerOf e == a

/-- The account that a waiting allocation charges, and its frames. A mailbox command has been found to fit its quota (R222). -/
def waitCost (s : State) (w : WaitFor) : Nat × Nat :=
  match w with
  | .page k => (payer s k, 1)
  | .save ctx _ => (ctx, 1)
  | .fetch h => (weaverAcct (s.weaver h), weaverFrames (s.weaver h))
  | .build sid => (commonsAcct, (s.stake sid).build.elim 0 fun b => buildFrames s sid b.slot ((s.stake sid).gen b.slot).imgPages)
  | .cmd _ => (0, 0)

/-- Frames that an account's waiting allocations ask for. -/
def waitingFor (s : State) (a : Nat) : Nat :=
  (s.mem.waits.map fun w => let x := waitCost s w.what; if x.1 = a then x.2 else 0).sum

/-- How many frames an account still has to give up for `extra` frames more. -/
def shortfall (s : State) (a extra : Nat) : Nat := chargedT1 s a + waitingFor s a + extra - leavingOf s a - (s.acct a).q1

/-- Give up candidates in turn until nothing is short. -/
def State.release (a extra : Nat) (xs : List Nat) (go : Nat → State → State) (s : State) : State :=
  xs.foldl (fun s x => if shortfall s a extra = 0 then s else go x s) s

def weaverKey (s : State) (h : Nat) : List Nat := let w := s.weaver h; [w.heat, w.lastRnd, h]

/-- RESIDENT weavers with PIN zero and without COMMONS (R156 step 1). -/
def idleWeavers (s : State) (p : Weaver → Bool) : List Nat :=
  orderBy (weaverKey s) (keysWhere s.weav.dir fun h w => w.state == .resident && !w.commons && p w && weaverPins s h == 0)

/-- Weavers whose pins allow forcing (R155, R156 step 2). -/
def forcedWeavers (s : State) (a : Nat) : List Nat :=
  orderBy (weaverKey s) (keysWhere s.weav.dir fun h w =>
    w.state == .resident && !w.commons && w.ctx == a && coursesUsing s h == 0)

/-- Whether an account's T2 quota has room for one more page, pages on their way counted. -/
def t2Room (s : State) (a : Nat) : Bool :=
  decide (chargedT2 s a + countTab s.mem.frames (fun f e =>
    (e.state == .evicting || e.state == .demoting) && !e.zeroing && !e.backed && ownerOf e == a && !(ptesOf s f).isEmpty) < (s.acct a).q2)

/-- Movable, unpinned frames of an account that hold a page (R223 step 2). -/
def movableFrames (s : State) (a : Nat) : List Nat :=
  keysWhere s.mem.frames fun f e => occupied e && e.movable && ownerOf e == a && pinsOf s f == 0

def frameKeyOf (s : State) (f : Nat) : List Nat :=
  let e := s.frame f
  [if e.backed then (if e.state = .dirty then 1 else 0) else 2, e.heat, e.lastRnd, e.page]

/-- A movable frame leaves; one without a backing copy needs a T2 page. -/
def State.giveFrame (a f : Nat) (s : State) : State := if (s.frame f).backed || t2Room s a then s.startEvict f else s

/-- A context makes room (R223). -/
def State.pressCtx (a extra : Nat) (s : State) : State :=
  let s := s.release a extra (idleWeavers s fun w => w.ctx == a) State.evictWeaver
  let s := s.release a extra (orderBy (frameKeyOf s) (movableFrames s a)) (State.giveFrame a)
  s.release a extra (forcedWeavers s a) State.evictWeaver

/-- Evictable stake sets in order (R194, R195). -/
def idleStakes (s : State) : List Nat :=
  orderBy (fun sid => [(s.stake sid).use, (s.stake sid).lastRnd, sid])
    (keysWhere s.stakes fun sid k => k.reg && k.autoEvict && !k.gens.isEmpty && stakeIdle s sid)

/-- The commons makes room (R224). -/
def State.pressCommons (extra : Nat) (s : State) : State :=
  let a := commonsAcct
  let s := s.release a extra (orderBy (frameKeyOf s) ((movableFrames s a).filter fun f => (s.frame f).kind == 0)) (State.giveFrame a)
  let s := s.release a extra (idleStakes s) State.evictStake
  s.release a extra (orderBy (weaverKey s) (keysWhere s.weav.dir fun h w =>
    w.state == .resident && w.commons && (s.stake w.sid).nonresident && coursesUsing s h == 0)) State.evictWeaver

/-- Fetches that only a resident-table entry is missing for: idle weavers of any context leave (R156). -/
def State.pressTable (s : State) : State :=
  let want := countTab s.weav.dir fun _ w => w.wantFetch && w.state == .registered
  let free := 8192 - tableUsed s + countTab s.weav.dir fun _ w => w.state == .evicting
  s.each ((idleWeavers s fun _ => true).take (want - free)) State.evictWeaver

/-- Quotas that MEM_QUOTA_SET left take effect at cycle 20 (R222). -/
def State.applyQuotas (s : State) : State :=
  let f := fun (a : Account) => match a.next with
    | some q => { a with q1 := q.1, q2 := q.2, next := none }
    | none => a
  { s with mem := { s.mem with acct := mapTab {} (fun _ a => f a) s.mem.acct } }

/-- Allocations that find no room after every candidate has been counted (R208). -/
def State.markOver (s : State) : State :=
  let mark := fun (w : AllocWait) =>
    let a := waitCost s w.what
    if (s.acct a.1).q1 < chargedT1 s a.1 + a.2 - leavingOf s a.1 then { w with past := true } else w
  { s with mem := { s.mem with waits := s.mem.waits.map mark } }

/-- The contexts that hold frames or wait for some, in ascending order. -/
def busyAccts (s : State) : List Nat :=
  orderBy (fun a => [a]) (((s.mem.frames.map fun p => ownerOf p.2)
    ++ (s.mem.waits.map fun w => (waitCost s w.what).1)).eraseDups.filter fun a => a != commonsAcct)

/-- Every account makes the room that quotas and waiting allocations ask for, with the frames that the courses due in each account need beside
them; frames that nobody holds leave (R214, R218, R223, R224). -/
def State.pressAccounts (due : List Nat) (s : State) : State :=
  let more := fun (a : Nat) => countIf due fun c => c == a
  let s := s.pressTable
  let s := s.each (busyAccts s) fun a s => if shortfall s a (more a) = 0 then s else s.pressCtx a (more a)
  let s := if shortfall s commonsAcct 0 = 0 then s else s.pressCommons 0
  let s := s.each (keysWhere s.mem.frames fun f e => occupied e && holdersOf s f == 0 && pinsOf s f == 0) State.startEvict
  (s.serveWaits).markOver

/-! ### Deferred evictions (R216, R218) -/

/-- A holding of a context is withdrawn. -/
def State.withdraw (ctx page : Nat) (s : State) : State := s.modPte (pteKey ctx page) fun e => { e with held := false }

/-- Deferred eviction requests are re-evaluated: those whose frame still receives content are deferred again, those of a leaving frame
complete when it is FREE, the others withdraw their holding. -/
def State.evalDefers (s : State) : State :=
  (s.each s.mem.defers fun d s =>
    let e := s.frame d.frame
    if e.state = .filling ∨ e.state = .promoting ∨ e.state = .evicting ∨ e.state = .demoting then s
    else
      let s := s.withdraw d.ctx d.page
      let s := { s with mem := { s.mem with defers := s.mem.defers.erase d } }
      s.modFrame d.frame fun e => { e with defer := s.mem.defers.any fun x => x.frame == d.frame }).finishWorks

/-! ### Heat placement (R226, R227) -/

/-- One POLICY_LIMITED event of an account on a die. -/
def State.limited (a die : Nat) (pol : Policy → Policy) (mig : MigCnt → MigCnt) (s : State) : State :=
  ((s.modAcct a fun x => { x with pol := pol x.pol }).modMig die mig).polLimit 1

def State.limQuota (a die : Nat) (s : State) : State :=
  s.limited a die (fun p => { p with limQuota := sat 32 (p.limQuota + 1) }) fun m => { m with limQuota := sat 16 (m.limQuota + 1) }
def State.limMoves (a die : Nat) (s : State) : State :=
  s.limited a die (fun p => { p with limMoves := sat 32 (p.limMoves + 1) }) fun m => { m with limMoves := sat 16 (m.limMoves + 1) }
def State.limBudget (a die : Nat) (s : State) : State :=
  s.limited a die (fun p => { p with limBudget := sat 32 (p.limBudget + 1) }) fun m => { m with limBudget := sat 16 (m.limBudget + 1) }
def State.limSpace (a die : Nat) (s : State) : State :=
  s.limited a die (fun p => { p with limSpace := sat 32 (p.limSpace + 1) }) fun m => { m with limSpace := sat 16 (m.limSpace + 1) }

/-- The die chosen for a page under R228. -/
def dieFor (s : State) (k : Nat) : Nat :=
  match pickFrame s (s.pteAt k).stack (k % 2 ^ 25) with
  | some f => msdOfFrame f
  | none => if (s.pteAt k).stack < msdCount s then (s.pteAt k).stack else k % 2 ^ 25 % msdCount s

/-- Slow-tier pages of an account that heat may move up. -/
def hotPages (s : State) (a : Nat) : List Nat :=
  let thr := (s.acct a).pol.thr
  orderBy (fun k => [65535 - (s.pteAt k).heat, k % 2 ^ 25]) (keysWhere s.mem.pte fun k e =>
    e.valid && e.tier == .t2 && e.movable && e.sharedOf.isNone && decide (thr ≤ e.heat) && (promoting s k).isNone && (leaving s k).isNone
      && (if a = commonsAcct then e.shared else !e.shared && k / 2 ^ 25 == a))

/-- A page moves up by heat, or waits for the FREE frame that it lacks (R222, R226). -/
def State.placePage (p : Nat) (s : State) : State :=
  let r := s.startPromote p true
  if r.1.isSome then r.2 else r.2.waitFrame (.page p)

/-- The loop of R226: hot pages, demotable frames, moves so far. -/
def State.placeLoop (a : Nat) : List Nat → List Nat → Nat → State → State
  | [], _, _, s => s
  | p :: up, down, moves, s =>
    let pol := (s.acct a).pol
    let die := dieFor s p
    if pol.moves ≤ moves then s.limMoves a die
    else if (s.acct a).q1 ≤ chargedT1 s a then
      match down with
      | [] => s.limQuota a die
      | f :: rest =>
        if (s.pteAt p).heat ≤ (s.frame f).heat + pol.hyst then s.limQuota a die
        else if !((s.frame f).backed || t2Room s a) then s.limSpace a die
        else State.placeLoop a up rest (moves + 2) ((s.startDemote f die).placePage p)
    else State.placeLoop a up down (moves + 1) (s.placePage p)

def State.place (a : Nat) (s : State) : State :=
  if (s.acct a).pol.placeEn then
    State.placeLoop a (hotPages s a) (orderBy (fun f => [(s.frame f).heat, (s.frame f).page]) (movableFrames s a)) 0 s
  else s

/-- Moves of heat placement whose MIGRATE units have waited in the round that ends are counted, on the die chosen for the page that comes up
(R226, R227). -/
def State.countBudgetWaits (s : State) : State :=
  s.each (keysWhere s.mem.frames fun f e => e.byHeat.isSome && moveLeft s (.frame f) != 0) fun f s =>
    s.limBudget (ownerOf (s.frame f)) ((s.frame f).byHeat.getD 0)

/-- Heat placement of every context in ascending order, then of the commons. -/
def State.placeAll (s : State) : State :=
  let s := s.countBudgetWaits
  let accts := ((keysWhere s.mem.pte fun _ e => e.valid && e.tier == .t2 && e.movable && !e.shared).map (· / 2 ^ 25)).eraseDups
  (s.each accts State.place).place commonsAcct

/-- Cleaning starts on DIRTY frames that nothing has accessed for 16 rounds, by lowest LAST_RND and then lowest index (R230). -/
def State.startCleaning (s : State) : State :=
  let now := s.rnd.num % 2 ^ 32
  let fs := keysWhere s.mem.frames fun _ e => e.state == .dirty && !e.cleaning && decide (16 ≤ idxSub now e.lastRnd)
  s.each (orderBy (fun f => [(s.frame f).lastRnd]) fs) State.startPass

/-! ### Poisoned lines and repairs -/

/-- The slow-tier address from which a frame that receives content takes it: the source of a mapped fill, the image part of a build, or what is
to be its backing copy. -/
def fillSource (s : State) (f : Nat) : Nat :=
  let e := s.frame f
  match e.fillFrom with
  | some a => a
  | none =>
    if e.kind ≠ 2 then e.back
    else
      (s.stakes.findSome? fun p => p.2.build.bind fun b =>
        let g := p.2.gen b.slot
        if g.frames.contains f then
          some (((buildSources g).getD b.source none).getD g.image + g.frames.findIdx (· == f) * frameBytes)
        else none).getD 0

/-- Where a repair takes a granule from: a slow-tier address of a part that starts at `base`, or a peer or host that delivers the ciphertext at
an offset of the part. -/
inductive RepairSrc where
  | slow (base sda : Nat)
  | outside (off : Nat)
  deriving DecidableEq, Repr

/-- The sources of a granule's repair in order (R238, R240). -/
def repairSources (s : State) (f granule : Nat) : List RepairSrc :=
  let e := s.frame f
  if e.kind = 2 then
    let owner : Option Gen := s.stakes.findSome? fun p => (p.2.gens.find? fun g => g.2.frames.contains f).map Prod.snd
    match owner with
    | none => []
    | some g =>
      let off := g.frames.findIdx (· == f) * frameBytes + granule * 4096
      (if g.mirror ≠ 0 then [.slow g.mirror (g.mirror + off)] else []) ++ (g.peers.map fun _ => RepairSrc.outside off)
        ++ (if g.host ≠ 0 then [.slow g.host (g.host + off)] else [])
  else
    let base := (frameSeal s f).base
    let a := e.back + granule * 4096
    if e.kind = 3 ∧ e.commons then [.slow base a, .outside (a - base)] else [.slow base a]

/-- The start of the part in which a slow-tier address of a frame's content lies. -/
def partBase (s : State) (f a : Nat) : Nat :=
  if (s.frame f).kind = 2 then
    (s.stakes.findSome? fun p => (p.2.gens.find? fun g => g.2.frames.contains f).bind fun g =>
      [g.2.image, g.2.mirror, g.2.host].find? fun b => decide (b ≤ a) && decide (a < b + 4096 * g.2.imgPages)).getD 0
  else (frameSeal s f).base

/-- The repairs that run: at most 64, in detection order (R238). -/
def activeRepairs (s : State) : List Repair := (s.mem.repairs.filter fun r => !r.failed).take 64

def repairAt (s : State) (f granule : Nat) : Option Repair := (activeRepairs s).find? fun r => r.frame == f && r.granule == granule

/-- A change of the repair of a granule. -/
def State.modRepair (f granule : Nat) (g : Repair → Option Repair) (s : State) : State :=
  let h := fun (r : Repair) => if r.frame == f && r.granule == granule && !r.failed then g r else some r
  { s with mem := { s.mem with repairs := s.mem.repairs.filterMap h } }

/-- The repair that comes to run when another ends starts its first source now. -/
def State.nextRepair (s : State) : State :=
  match ((s.mem.repairs.filter fun r => !r.failed).drop 63).head? with
  | none => s
  | some r => s.modRepair r.frame r.granule fun r => some { r with since := s.rnd.num }

def State.repairResult (f granule failed : Nat) (s : State) : State :=
  s.journal { code := St.repairResult, cls := Cls.info, blk := Blk.hbm, unit := msdOfFrame f, ctx := (s.frame f).ctx,
              detail := failed + f * 2 ^ 8 + granule * 2 ^ 40 }

/-- A source that has delivered nothing in 4 rounds is abandoned for the next; without one the repair has failed (R238). -/
def State.repairTimeout (f granule : Nat) (s : State) : State :=
  match repairAt s f granule with
  | none => s
  | some r =>
    if boundaryRnd s < r.since + 4 then s
    else if r.source + 1 < (repairSources s f granule).length then
      s.modRepair f granule fun r => some { r with source := r.source + 1, since := boundaryRnd s }
    else
      let s := s.modRepair f granule fun r => some { r with failed := true, rnd := boundaryRnd s }
      let s := s.modMig (msdOfFrame f) fun m => { m with failed := sat 16 (m.failed + 1) }
      (s.repairResult f granule 1).nextRepair

/-- A repaired granule is written: POISON cleared, the reporting location rewritten, the result journalled (R238). -/
def State.repairDone (f granule : Nat) (data : List Byte) (s : State) : State :=
  match repairAt s f granule with
  | none => s
  | some r =>
    match (repairSources s f granule)[r.source]? with
    | none => s
    | some src =>
      if (match src with | .slow _ a => !slowUp s a || !(slowBadIn s a 4096).isEmpty | .outside _ => false) then s
      else
      let key := (frameKey s (s.frame f)).key
      let bs := match src with
        | .slow base a => slowRead { key := key, base := base } s a 4096
        | .outside off => mapBlocks (Seal.unlock { key := key, base := 0 }) 256 (off / 16) (rdBytes (wrBytes [] 0 data) 0 4096)
      let s := { s with mem := { s.mem with hbm := wrBytes s.mem.hbm (f * frameBytes + granule * 4096) bs } }
      let s := (s.clearLines f (granule * 64) (granule * 64 + 64)).modRepair f granule fun _ => none
      let s := match r.back with | some a => s.slowWrite { key := key, base := partBase s f a } a bs | none => s
      let s := s.modMig (msdOfFrame f) fun m => { m with repaired := sat 16 (m.repaired + 1) }
      ((s.charge Act.scrub { hbm := 4096, link := 4096 }).repairResult f granule 0).nextRepair

/-- A fill or promotion receives a granule that the slow tier could not deliver: its lines are poisoned (R237). -/
def State.slowPoison (f granule : Nat) (s : State) : State :=
  let e := s.frame f
  if e.state ≠ .filling ∧ e.state ≠ .promoting then s
  else
    let from_ := fillSource s f
    let s := s.each (List.range 64) fun i s => s.poison f (granule * 64 + i) St.hbmPoison (some (from_ + granule * 4096))
    let mark := fun (r : Repair) => if r.frame == f && r.granule == granule then { r with back := some (from_ + granule * 4096) } else r
    { s with mem := { s.mem with repairs := s.mem.repairs.map mark } }

/-- The die whose patrol unit is next to ask for admission: the dies that patrol take turns in ascending order (R268). -/
def patrolTurn (s : State) : Option Nat :=
  ((List.range 8).map fun i => (s.mem.scrubNext + i) % 8).find? fun d => hasMsd s d && (s.msdOf d).scrubEn

/-- The next patrol unit is that of the die after this one (R268). -/
def State.nextScrub (die : Nat) (s : State) : State := { s with mem := { s.mem with scrubNext := (die + 1) % 8 } }

/-- One 4 KiB patrol unit of a die (R268): admitted under SCRUB in its turn, its lines read, the place moved on, a pass counted at the stack's
end. -/
def State.patrol (die : Nat) (hits : List LineHit) (s : State) : State :=
  if patrolTurn s ≠ some die then s
  else
    let x := s.admitOnce (0, die, 0) Act.scrub { hbm := 4096 }
    if !x.1 then x.2
    else
      let u := (s.msdOf die).scrubUnit
      let s := (x.2.nextScrub die).each hits fun h s =>
        if h.frame ≠ die * 24576 + u / 512 ∨ h.line / 64 ≠ u % 512 then s else s.lineRead h.frame h.line h.errs
      s.modMsd die fun m =>
        if u + 1 = 24576 * 512 then { m with scrubUnit := 0, passes := sat 32 (m.passes + 1) } else { m with scrubUnit := u + 1 }

/-! ### The commands -/

/-- FRAME_FILL_DONE (R214). -/
def execFrameFillDone (fr : Nat) (s : State) : Host.Outcome State Fault Refusal := act (okFrame fr) s (s.fillDone fr)

/-- PROMOTION_DONE (R214). -/
def execPromotionDone (fr : Nat) (s : State) : Host.Outcome State Fault Refusal := act (okFrame fr) s (s.promotionDone fr)

/-- EVICTION_DONE (R231). -/
def execEvictionDone (fr : Nat) (s : State) : Host.Outcome State Fault Refusal := act (okFrame fr) s (s.evictionDone fr)

/-- FRAME_ZERO_DONE (R217). -/
def execFrameZeroDone (fr : Nat) (s : State) : Host.Outcome State Fault Refusal := act (okFrame fr) s (s.zeroDone fr)

/-- CLEANING_PASS_DONE (R230). -/
def execCleaningPassDone (fr : Nat) (s : State) : Host.Outcome State Fault Refusal := act (okFrame fr) s (s.cleanDone fr)

/-- PATROL_SCRUB (R268). -/
def execPatrolScrub (die : Nat) (hits : List LineHit) (s : State) : Host.Outcome State Fault Refusal := 
  act (okMsd die && hits.all fun h => okErrs h.errs) s (s.patrol die hits)

/-- HBM_UNCORRECTABLE (R237, R267): an HBM read meets symbols in error. -/
def execHbmUncorrectable (fr line : Nat) (errs : List (Nat × Nat)) (s : State) : Host.Outcome State Fault Refusal :=
  act (okFrame fr && okLine line && okErrs errs) s (s.lineRead fr line errs)

/-- SLOW_TIER_POISON (R237). -/
def execSlowTierPoison (fr granule : Nat) (s : State) : Host.Outcome State Fault Refusal :=
  act (okFrame fr && okGranule granule) s (s.slowPoison fr granule)

/-- REPAIR_SOURCE_TIMEOUT (R238). -/
def execRepairSourceTimeout (fr granule : Nat) (s : State) : Host.Outcome State Fault Refusal :=
  act (okFrame fr && okGranule granule) s (s.repairTimeout fr granule)

/-- REPAIR_DONE (R238, R240). -/
def execRepairDone (fr granule : Nat) (data : List Byte) (s : State) : Host.Outcome State Fault Refusal :=
  act (okFrame fr && okGranule granule) s (s.repairDone fr granule data)

end Sys2Proof.Machine
end

