-- ==== Sys2Proof/Machine/RegWrite.lean ====
section
/-! DEFINITION. BAR0 accesses: which offsets hold a register, what a 64-bit write stores under the access codes and locks (R8),
and what is dropped and counted (R3, R6, R7, R33, R341). -/

namespace Sys2Proof.Machine

/-- Whether a function's BAR0 decodes: the function is enabled, the link up, the device released and not in D3 (R340, R449, R458). -/
def barLive (s : State) (fn : Nat) : Bool :=
  fn ≤ s.host.numVf && s.host.linkUp && s.rst.running && !inD3 s

/-- Whether a register is defined at an offset (R7). -/
def isReg (off : Nat) : Bool :=
  let r := off / 0x10000
  let o := off % 0x10000
  off % 8 == 0 &&
  (if r = 0 ∨ r = 1 then decide (o ≤ 0x20)
   else if r = 2 then o < 0x40 || (0x100 ≤ o && o ≤ 0x218)
   else if r = 3 then o < 0x48 || (0x100 ≤ o && o < 0x150)
   else if r = 4 then decide (o ≤ 0x38)
   else if r = 5 then o ≤ 0x10 || (0x100 ≤ o && o < 0x180)
   else if r = 6 then decide (o < 0x140)
   else if r = 7 then decide (o ≤ 0x18)
   else if r = 8 then decide (o ≤ 0x60)
   else if 0x10 ≤ r ∧ r < 0x20 then decide (o % 0x4000 ≤ 0x10)
   else if 0x20 ≤ r ∧ r < 0x2C then o ≤ 0x28 || o == 0xF000 || o == 0xF008
   else if 0x40 ≤ r ∧ r < 0x48 then o ≤ 0x18 || (0x40 ≤ o && o ≤ 0x68)
   else false)

/-- A field that a lock governs (R8). -/
def rwl {α : Type} (lock : Bool) (old new : α) : α := if lock then old else new

/-! ### ROUND and BUDGET -/

/-- The role of a device whose LEN and GTIME writes are asked about: the source in effect, or the one selected while stopped. -/
def roleSrc (s : State) : Nat := if s.rnd.enable then s.rnd.active else s.rnd.src
def isFollower (s : State) : Bool := roleSrc s == 2

/-- ENABLE from 0 to 1 (R485): capacities, tallies and admission afresh, in the role that SRC selects; a FOLLOWER waits for its first hoop
tick. `srcDue` keeps a change of SRC that SRC_SWITCH has not counted yet (R30). -/
def State.startRounds (s : State) : State :=
  let r := s.rnd
  { s with rnd := { r with
    enable := true, active := r.src, srcDue := r.srcDue || r.active != r.src, awaitHoop := r.src == 2, tick := none, predicted := none
    mode := .locked, holdCnt := 0 } }.freshBudgets

/-- ENABLE from 1 to 0 (R485): the round in progress is abandoned, and no further unit is admitted until the next start. -/
def State.stopRounds (s : State) : State :=
  { s with
    rnd := { s.rnd with enable := false, tick := none, predicted := none }
    bud := { s.bud with isOpen := false } }

/-- A write to RND_CTL: SRC and HOLD_MAX under LOCK, SRC 0b11 ignored and counted, ENABLE, then LOCK (R8, R30, R485). -/
def State.wrRndCtl (v : Nat) (s : State) : State :=
  let r := s.rnd
  let badSrc := !r.lock && bits v 0 2 == 3
  let s := if badSrc then s.reserved else s
  let s := { s with rnd := { r with
    src := if r.lock || badSrc then r.src else bits v 0 2
    holdMax := rwl r.lock r.holdMax (bits v 8 8)
    lock := r.lock || bit v 16
    awaitHoop := r.awaitHoop && (r.lock || badSrc || bits v 0 2 == 2) } }
  if bit v 2 && !r.enable then s.startRounds else if !bit v 2 && r.enable then s.stopRounds else s

/-- A write to RND_LEN (R31, R485): 0 or above 32 dropped and counted; a FOLLOWER stores it unused. -/
def State.wrRndLen (v : Nat) (s : State) : State :=
  let n := bits v 0 6
  if n = 0 ∨ 32 < n then s.reserved
  else if isFollower s then { s with rnd := { s.rnd with len := n } }
  else if s.rnd.enable then { s with rnd := { s.rnd with len := n, lenDue := (s.rnd.lenDue.filter fun x => x.1 != s.rnd.num + 2) ++ [(s.rnd.num + 2, n)] } }
  else { s with rnd := { s.rnd with len := n, lenEff := n, lenDue := [] } }

/-- A write to RND_NUM (R32): taken while ENABLE is 0, otherwise ignored. -/
def State.wrRndNum (v : Nat) (s : State) : State :=
  if s.rnd.enable then s else { s with rnd := { s.rnd with num := v % 2 ^ 64 } }

/-- A write to BUD_SHARE[c] (R38) goes to the shadow copy; on GW960-S the training classes drop it. -/
def State.wrShare (c v : Nat) (s : State) : State :=
  if noShare s c then s.reserved
  else { s with bud := { s.bud with shadow := store {} s.bud.shadow c ⟨bits v 0 11, bits v 16 11, bits v 32 11⟩ } }

def State.wrBudCtl (v : Nat) (s : State) : State :=
  { s with bud := { s.bud with
    guard := ⟨bits v 0 11, bits v 16 11, bits v 32 11⟩, sumErr := s.bud.sumErr && !bit v 48 } }

def State.wrRound (o v : Nat) (s : State) : State :=
  if o = 0x0 then s.wrRndCtl v else if o = 0x8 then s.wrRndLen v else if o = 0x10 then s.wrRndNum v else s

def State.wrBudget (o v : Nat) (s : State) : State :=
  if o < 0x40 then s.wrShare (o / 8) v else if o = 0x218 then s.wrBudCtl v else s

/-! ### RESET and POWER -/

/-- Whether SEL and UNIT name a block of this part (R454, R469). -/
def blockPresent (s : State) (sel unit : Nat) : Bool :=
  match sel with
  | 1 => hasCd s unit | 2 => hasMsd s unit | 3 => hasMsd s unit | 4 => decide (unit < 40) | 5 => hasPort s unit
  | 6 => hasCxl s unit | 7 => unit == 0 | _ => false

/-- A block reset starts with its idle request, or joins the one in progress (R452, R454). -/
def State.blockReset (sel unit : Nat) (s : State) : State :=
  if !s.rst.running || s.rst.busy.any (fun b => b.sel == sel && b.unit == unit) then s
  else { s with rst := { s.rst with busy := s.rst.busy ++ [{ sel := sel, unit := unit, reset := false }] } }

def blockBusy (s : State) (sel unit : Nat) : Bool := s.rst.busy.any fun b => b.sel == sel && b.unit == unit

def State.wrPower (o v : Nat) (s : State) : State :=
  if o = 0x8 then
    let s := { s with rst := { s.rst with sel := bits v 0 8, unit := bits v 8 8 } }
    if !bit v 16 then s
    else if blockPresent s (bits v 0 8) (bits v 8 8) then s.blockReset (bits v 0 8) (bits v 8 8) else s.reserved
  else if o = 0x18 then { s with rst := { s.rst with tmo := bits v 0 10 } }
  else s

/-! ### The hoop -/

def State.wrHoop (o v : Nat) (s : State) : State :=
  let h := s.hoop
  if o = 0x0 then
    { s with hoop := { h with
      pos := rwl h.lock h.pos (bits v 0 4)
      ndev := rwl h.lock h.ndev (bits v 4 4)
      tAlign := rwl h.lock h.tAlign (bits v 16 16)
      join := bit v 8
      joined := h.joined || bit v 8
      bypReq := bit v 9
      validRun := if bit v 8 && !h.join then 0 else h.validRun
      tickSince := if bit v 8 && !h.join then false else h.tickSince
      lock := h.lock || bit v 32 } }
  else if 0x10 ≤ o ∧ o < 0x30 then
    if h.lock then s
    else
      let i := 4 * ((o - 0x10) / 8)
      let p := store 0 (store 0 (store 0 (store 0 h.path i (bits v 0 16)) (i + 1) (bits v 16 16)) (i + 2) (bits v 32 16)) (i + 3)
        (bits v 48 16)
      { s with hoop := { h with path := p } }
  else if o = 0x38 then if isFollower s then s else { s with rnd := { s.rnd with gtimeNext := some (v % 2 ^ 64) } }
  else s

/-! ### EVENT, FAULT, ports, memory-side dies -/

def State.wrEvent (fn o v : Nat) (s : State) : State :=
  if 0x100 ≤ o ∧ o < 0x180 then
    (s.modRing fn ((o - 0x100) / 8) fun r => { r with head := bits v 0 32 }).drainEvents fn
  else s

def State.wrFault (o v : Nat) (s : State) : State :=
  if o = 0x10 then { s with flt := { s.flt with sel := bits v 0 12 } } else s

/-- A write to PORT_CFG (R311, R312): MODE 3 dropped and counted; MODE and VID under LOCK; ENABLE from 0 to 1 puts MODE in
effect, from 1 to 0 takes the links down, whose MACsec states change measurement block 7 (R403) and whose held frames are lost. -/
def State.wrPortCfg (p v : Nat) (s : State) : State :=
  let x := s.port p
  if !x.lock ∧ bits v 0 2 = 3 then s.reserved
  else
    let mode := rwl x.lock x.mode (bits v 0 2)
    let s := if bit v 2 || x.macsecUp == 0 then s else s.measured
    ({ s with txHeld := if bit v 2 then s.txHeld else s.txHeld.filter fun h => h.port != p }).modPort p fun x => { x with
      mode := mode
      vid := rwl x.lock x.vid (bits v 16 12)
      enable := bit v 2
      modeEff := if bit v 2 && !x.enable then mode else x.modeEff
      linkUp := if bit v 2 then x.linkUp else 0
      macsecUp := if bit v 2 then x.macsecUp else 0
      lock := x.lock || bit v 32 }

def State.wrPort (p o v : Nat) (s : State) : State :=
  if !hasPort s p then s.reserved
  else if o = 0x0 then s.wrPortCfg p v
  else if o = 0x8 then s.modPort p fun x => { x with
    tcMgmt := bits v 0 3, tcTwine := bits v 4 3, tcBulk := bits v 8 3, tcRoce := bits v 12 3, tcOther := bits v 16 3,
    pfcEn := bits v 24 8 }
  else if o = 0x28 then s.modPort p fun x => { x with adaptEn := bit v 0, retrainMax := bits v 8 8 }
  else s

def State.wrMsd (d o v : Nat) (s : State) : State :=
  if !hasMsd s d then s.reserved
  else if o = 0x60 then s.modMsd d fun m => { m with scrubEn := bit v 0 }
  else s

/-- A write inside a channel's 16 KiB: MB_CTL, the request buffer, read-only registers, reserved space (R368, R370). -/
def State.wrMailbox (fn off v : Nat) (s : State) : State :=
  let ch := off / 0x4000
  let o := off % 0x4000
  if !chanSeen s fn ch then s.reserved
  else if o = 0x0 then s.mbCtl ch v
  else if 0x1000 ≤ o ∧ o < 0x2000 then s.reqWrite ch (o - 0x1000) v
  else if o = 0x8 ∨ o = 0x10 ∨ (0x2000 ≤ o ∧ o < 0x3000) then s
  else s.reserved

/-- A 64-bit write to BAR0 through a function. DESIGN CHOICE: the manual defines no register at an offset that is no multiple of 8, so a
write there is one to reserved space (R7), dropped and counted. -/
def State.barWrite (fn off v : Nat) (s : State) : State :=
  let r := off / 0x10000
  let o := off % 0x10000
  if off % 8 ≠ 0 ∨ 0x4000000 ≤ off then s.reserved
  else if 0x10 ≤ r ∧ r < 0x20 then s.wrMailbox fn (off - 0x100000) v
  else if !isReg off then s.reserved
  else if r = 0 then s
  else if r = 5 then s.wrEvent fn o v
  else if fn ≠ 0 then s.reserved
  else if r = 1 then s.wrRound o v
  else if r = 2 then s.wrBudget o v
  else if r = 3 then s.wrPower o v
  else if r = 4 then s.wrHoop o v
  else if r = 8 then s.wrFault o v
  else if 0x20 ≤ r ∧ r < 0x2C then s.wrPort (r - 0x20) o v
  else if 0x40 ≤ r ∧ r < 0x48 then s.wrMsd (r - 0x40) o v
  else s

/-- A write to BAR0 that the function's BAR decodes; a 32-bit write is dropped and counted (R6). -/
def State.barAccess (fn off : Nat) (wide : Bool) (v : Nat) (s : State) : State :=
  if !barLive s fn then s else if wide then s.barWrite fn off v else s.reserved

/-- A 32-bit read of the low half (R5): the high half of a register is latched; buffers use no latch. -/
def State.readLow (fn off : Nat) (s : State) : State :=
  if !barLive s fn then s
  else
    let v := readReg s fn off
    let s := s.emit (.readData fn (v % 2 ^ 32))
    if isReg off then { s with latch := store none s.latch fn (some (off, v / 2 ^ 32)) } else s

/-- A 64-bit read (R5): both halves as they stand, the latch unchanged. -/
def State.readWide (fn off : Nat) (s : State) : State :=
  if !barLive s fn then s else s.emit (.readData fn (readReg s fn off))

/-- A 32-bit read of the high half (R5): the latched value where the latch is this register's, which releases it, otherwise the
current value. -/
def State.readHigh (fn off : Nat) (s : State) : State :=
  if !barLive s fn then s
  else
    match look none s.latch fn with
    | some (o, h) =>
      if o = off ∧ isReg off then { s with latch := store none s.latch fn none }.emit (.readData fn h)
      else s.emit (.readData fn (readReg s fn off / 2 ^ 32))
    | none => s.emit (.readData fn (readReg s fn off / 2 ^ 32))

end Sys2Proof.Machine
end

