-- ==== Sys2Proof/Machine/Movement.lean ====
section
/-! DEFINITION. The data movement and sync instructions (R69 to R71, R117), window positions (R233, R234), routes (R82, R246), the
completions of loads, stores and PUTs, the SYN time-out, and the block loader. -/

namespace Sys2Proof.Machine

/-! ### Windows and cursors -/

def windowOf (c : Course) (w : Nat) : Option Window := (c.plan.windows.find? fun x => x.1 == w).map Prod.snd

/-- The cursor of a logical cell on a window (R234). `cursors` lists it, plus 1, once it has moved. -/
def cursorOf (c : Course) (lc w : Nat) (x : Window) : Nat :=
  match look 0 c.cursors (256 * lc + w) with
  | 0 => lc * x.cstride % x.len
  | n + 1 => n

/-- The ranges that `n` bytes from position `p` of a window of `len` bytes cover, `k` at most. -/
def wrapParts (len : Nat) : Nat → Nat → Nat → List (Nat × Nat)
  | 0, _, _ => []
  | k + 1, p, n => if n = 0 then [] else (p, min n (len - p)) :: wrapParts len k 0 (n - min n (len - p))

/-- What an LDW or STW moves through its window: the address ranges and the next cursor; none where it is a plan violation (R234). -/
def windowParts (p : Site) (write : Bool) : Option (Window × List (Nat × Nat) × Nat) :=
  match windowOf p.course (p.op 8 8) with
  | none => none
  | some w =>
    let n := 256 * p.cnt
    let cur := cursorOf p.course p.lc (p.op 8 8) w
    if !w.valid ∨ w.write ≠ write ∨ (!w.wrap ∧ w.len < cur + n) then none
    else some (w, (wrapParts w.len (n / w.len + 2) cur n).map (fun x => (w.va + x.1, x.2)),
               if w.wrap then (cur + n) % w.len else cur + n)

def State.moveCursor (p : Site) (tgt : Nat) (s : State) : State :=
  s.modCourse p.course.id fun c => { c with cursors := store 0 c.cursors (256 * p.lc + p.op 8 8) (tgt + 1) }

/-- Read several ranges for a course, one after the other. -/
def State.readParts (c : Course) (view : Bool) (xs : List (Nat × Nat)) (s : State) : Except AccErr (List Byte) × State :=
  xs.foldl (fun acc x =>
    match acc.1 with
    | .error e => (.error e, acc.2)
    | .ok bs => joinRead bs (acc.2.courseRead c view c.ctx x.1 x.2))
    (.ok [], s)

/-- Write several ranges for a course. -/
def State.writeParts (c : Course) (view : Bool) (xs : List (Nat × List Byte)) (s : State) : Except AccErr Unit × State :=
  xs.foldl (fun acc x =>
    match acc.1 with
    | .error e => (.error e, acc.2)
    | .ok () => acc.2.courseWrite c view c.ctx x.1 x.2) (.ok (), s)

/-- Cut a byte string along ranges. -/
def cutParts : List (Nat × Nat) → List Byte → List (Nat × List Byte)
  | [], _ => []
  | (a, n) :: r, bs => (a, bs.take n) :: cutParts r (bs.drop n)

/-! ### Routes -/

/-- The route entry of a cell in the current image (R82). -/
def routeOf (s : State) (lc r : Nat) : Option Route := s.ups.cur.bind fun i => upRoute i lc r

/-- Whether a course holds a U list on a die. -/
def hasList (s : State) (cid die : Nat) : Bool := (s.msdOf die).lists.any fun u => u.cid == cid

/-- What a route entry names: a counter of a cell of the course's plan, or of the course's gate set on a die (R82, R246). -/
def routeTarget (s : State) (p : Site) (r : Nat) : Option (Route × SigTo) :=
  match routeOf s p.lc r with
  | none => none
  | some e =>
    if !e.valid then none
    else if e.target < 960 then
      if (planCells p.course.plan).contains e.target then some (e, .cell e.target e.strm e.evc) else none
    else if 1008 ≤ e.target ∧ e.target < 1016 then
      let die := e.target - 1008
      if hasMsd s die && hasList s p.course.id die then some (e, .gate p.course.id die e.evc) else none
    else none

/-- A change of a course's active U list on a die. -/
def State.modList (cid die : Nat) (f : UState → UState) (s : State) : State :=
  s.modMsd die fun m => { m with lists := m.lists.map fun u => if u.cid == cid then f u else u }

/-- Add to the counter that a route names, saturating at 65,535 (R69, R244). -/
def State.signal (tgt : SigTo) (n : Nat) (s : State) : State :=
  match tgt with
  | .cell lc st e => s.addEvc lc st e n
  | .gate cid die g => s.modList cid die fun u => { u with gates := adj 0 u.gates g fun v => sat 16 (v + n) }

/-- The bytes that a PUT may fill at its target: the operand bank, or the course's staging region. -/
def targetSize (s : State) (tgt : SigTo) : Nat :=
  match tgt with
  | .cell _ _ _ => bankSize
  | .gate cid die _ => (((s.msdOf die).lists.find? fun u => u.cid == cid).map fun u => 1024 * u.kb).getD 0

/-- Bytes land at their target. -/
def State.deliver (tgt : SigTo) (base : Nat) (bs : List Byte) (s : State) : State :=
  match tgt with
  | .cell lc _ _ => s.modCell lc fun c => { c with bank := wrBytes c.bank base bs }
  | .gate cid die _ => s.modList cid die fun u => { u with stage := wrBytes u.stage base bs }

/-! ### Effects -/

/-- LDW (R69, R233, R234): the window is read at issue, the data is in the bank when it arrives. -/
def ldwBody (p : Site) (s : State) : Option State :=
  if p.cnt = 0 ∨ p.op 4 4 ≠ 0 ∨ bankSize < 1024 * p.op 16 10 + 256 * p.cnt then none
  else
    match windowParts p false with
    | none => none
    | some (w, xs, cur) =>
      let r := s.readParts p.course w.view xs
      match r.1 with
      | .error e => some (r.2.courseFails p.course.id e)
      | .ok bs => some (((r.2.moveCursor p cur).modStream p.lc p.st fun x =>
          { x with ldws := x.ldws ++ [{ evc := p.op 0 4, base := 1024 * p.op 16 10, bytes := bs }] }).retire p 1)

/-- STW (R69, R233, R234, R486): the bank is read at issue, HBM holds the data when it has accepted it. -/
def stwBody (p : Site) (s : State) : Option State :=
  if p.cnt = 0 ∨ p.op 4 4 ≠ 0 ∨ bankSize < 1024 * p.op 16 10 + 256 * p.cnt then none
  else
    match windowParts p true with
    | none => none
    | some (w, xs, cur) =>
      if !(xs.all fun x => courseWritable s p.course w.view p.course.ctx x.1 x.2) then none
      else
        let bs := rdBytes (s.cell p.lc).bank (1024 * p.op 16 10) (256 * p.cnt)
        some (((s.moveCursor p cur).modStream p.lc p.st fun x =>
          { x with stws := x.stws ++ [{ evc := p.op 0 4, view := w.view, parts := cutParts xs bs }] }).retire p 1)

/-- MOV (R69). -/
def movEffect (p : Site) (c : Cell) : Option Effect :=
  let n := 256 * p.cnt
  let d := 1024 * p.op 16 10
  let a := 1024 * p.op 6 10
  if p.cnt = 0 ∨ p.op 0 6 ≠ 0 ∨ bankSize < d + n ∨ bankSize < a + n then none
  else some { cell := { c with bank := wrBytes c.bank d (rdBytes c.bank a n) }, cycles := ceilDiv n 1024 }

/-- VLD (R69, R117). -/
def vldEffect (p : Site) (c : Cell) : Option Effect :=
  let fa := p.f.fmta.toNat
  let fb := p.f.fmtb.toNat
  let w := fmtWidth fa
  let base := 1024 * p.op 16 10
  if fb ≠ (if isInt fa then 8 else 0) ∨ p.cnt = 0 ∨ 4096 < p.cnt ∨ p.op 4 12 ≠ 0 ∨ bankSize < base + packedLen w p.cnt then none
  else
    some { cell := c.setVreg (p.op 0 4) ((c.vreg (p.op 0 4)).write 0 ((List.range p.cnt).map fun i =>
             convert fb p.rm (p.u i) p.sat (decElem fa (elemAt c.bank base w i))))
           cycles := ceilDiv p.cnt 64, report := p.badRm }

/-- VST (R69, R117). -/
def vstEffect (p : Site) (c : Cell) : Option Effect :=
  let fa := p.f.fmta.toNat
  let fb := p.f.fmtb.toNat
  let w := fmtWidth fb
  let base := 1024 * p.op 16 10
  if (fa ≠ 0 ∧ fa ≠ 8) ∨ p.cnt = 0 ∨ 4096 < p.cnt ∨ p.op 4 12 ≠ 0 ∨ bankSize < base + packedLen w p.cnt then none
  else
    some { cell := { c with bank := setElems c.bank base w 0 ((List.range p.cnt).map fun i =>
             convert fb p.rm (p.u i) p.sat (decElem fa ((c.vreg (p.op 0 4)).elem i))) }
           cycles := ceilDiv p.cnt 64, report := p.badRm }

/-- TBW (R69). -/
def tbwEffect (p : Site) (c : Cell) : Option Effect :=
  let n := 64 * p.cnt
  let a := 1024 * p.op 16 10
  let t := 64 * p.op 6 9
  if p.cnt = 0 ∨ p.op 0 6 ≠ 0 ∨ p.op 15 1 ≠ 0 ∨ bankSize < a + n ∨ tableSize < t + n then none
  else some { cell := { c with table := wrBytes c.table t (rdBytes c.bank a n) }, cycles := ceilDiv n 1024 }

/-- PUT (R69, R82, R246). -/
def putBody (p : Site) (s : State) : Option State :=
  let n := 256 * p.cnt
  let a := 1024 * p.op 16 10
  if p.cnt = 0 ∨ p.op 6 10 ≠ 0 ∨ bankSize < a + n then none
  else
    match routeTarget s p (p.op 0 6) with
    | none => none
    | some (e, tgt) =>
      if targetSize s tgt < 1024 * e.bankKb + n then none
      else
        some ((s.modStream p.lc p.st fun x =>
          { x with puts := x.puts ++ [{ tgt := tgt, base := 1024 * e.bankKb, bytes := rdBytes (s.cell p.lc).bank a n }] }).retire p 1)

/-- NOP (R69). -/
def nopBody (p : Site) (s : State) : Option State := if p.op 0 26 ≠ 0 then none else some (s.retire p 1)

/-- The cell cycles that the SYN at which a stream stands has waited: none when it did not wait; otherwise a free value above what the whole
rounds between take at the least, 125 µs each at 1,000 MHz (R31, R463). -/
def State.waited (p : Site) (s : State) : Nat × State :=
  match (s.stream p.lc p.st).synFrom with
  | none => (0, s)
  | some n => let x := s.fresh; (125000 * (s.rnd.num - n - 1) + x.1, x.2)

/-- SYN (R70): it goes on once the counter has reached VALUE, which is subtracted; until then it waits, from this round. -/
def synBody (p : Site) (s : State) : Option State :=
  let v := look 0 (s.stream p.lc p.st).evc (p.op 0 4)
  if p.op 4 16 ≤ v then
    let w := s.waited p
    some ((w.2.modStream p.lc p.st fun x => { x with evc := store 0 x.evc (p.op 0 4) (v - p.op 4 16), synFrom := none }).retire p (1 + w.1))
  else some (s.modStream p.lc p.st fun x => { x with synFrom := some (x.synFrom.getD s.rnd.num) })

/-- SIG (R69, R82, R246). -/
def sigBody (p : Site) (s : State) : Option State :=
  if p.cnt = 0 ∨ p.op 6 20 ≠ 0 then none
  else
    match routeTarget s p (p.op 0 6) with
    | none => none
    | some (_, tgt) => some ((s.signal tgt p.cnt).retire p 1)

/-- RCL (R69). -/
def rclEffect (p : Site) (c : Cell) : Option Effect :=
  some { cell := (List.range 16).foldl (fun c r => if bit (p.op 0 16) r then c.setVreg r {} else c) c, cycles := 1 }

/-- END (R69, R71). With an operand bit set it is a plan violation (R56) and the stream goes on with the next instruction; where none is
left the block has ended, since execution never runs from one block into the next. -/
def endBody (p : Site) (s : State) : Option State :=
  if p.op 0 26 = 0 then some ((s.retire p 0).endBlock p)
  else if p.off + 1 < (s.stream p.lc p.st).code.length then none
  else some ((s.violation p).endBlock p)

/-! ### Completions -/

/-- The oldest LDW's data is in the bank (R69). -/
def State.loadArrives (lc : Nat) (st : Strm) (s : State) : State :=
  match (s.stream lc st).ldws with
  | [] => s
  | l :: r =>
    s.modCell lc fun c => ({ c with bank := wrBytes c.bank l.base l.bytes }).modStream st fun x => { x with ldws := r }.addEvc l.evc 1

/-- HBM accepts the oldest STW (R69). A write that must wait (R216) stays the oldest. -/
def State.storeAccepted (lc : Nat) (st : Strm) (s : State) : State :=
  match (s.stream lc st).stws, (s.cell lc).course with
  | w :: r, some cid =>
    (match s.course cid with
    | none => s
    | some c =>
      let x := s.writeParts c w.view w.parts
      match x.1 with
      | .ok () => x.2.modStream lc st fun y => { y with stws := r }.addEvc w.evc 1
      | .error .waits => x.2
      | .error e => x.2.courseFails cid e)
  | _, _ => s

/-- The oldest PUT's data has landed; its counter rises by 1 (R69, R246). -/
def State.putDelivered (lc : Nat) (st : Strm) (s : State) : State :=
  match (s.stream lc st).puts with
  | [] => s
  | w :: r => ((s.modStream lc st fun x => { x with puts := r }).deliver w.tgt w.base w.bytes).signal w.tgt 1

/-- A SYN still waiting when its 4 rounds have passed ends its block; the course will complete with PLAN_VIOLATION (R70, R484). -/
def State.synTimeout (lc : Nat) (st : Strm) (s : State) : State :=
  match (s.stream lc st).synFrom, siteAt s lc st 0xF1 {} with
  | some n, some p =>
    if n + 4 ≤ boundaryRnd s then
      let w := s.waited p
      ((w.2.violation p).modStream lc st fun x => { x with cycles := x.cycles + w.1 }).endBlock p
    else s
  | _, _ => s

def endsBlock (w : Word64) : Bool := w.toNat / 2 ^ 56 == 0xFF

/-- The blocks that a course's plan lists for a stream. -/
def blocksOf (c : Course) (lc : Nat) (st : Strm) : List Block :=
  match c.plan.cellPlans.find? fun x => x.lc == lc && x.st == st with | some x => x.blocks | none => []

/-- The loader fetches a stream's next block into its idle buffer and checks it; a block of more than 1,024 instructions or without
END is refused (R71). -/
def State.loadBlock (lc : Nat) (st : Strm) (s : State) : State :=
  let x := s.stream lc st
  match x.idle, (s.cell lc).course with
  | none, some cid =>
    (match s.course cid with
    | none => s
    | some c =>
      match (blocksOf c lc st)[x.next]? with
      | none => s
      | some b =>
        if c.stopped || (s.cell lc).late then s
        else if 1024 < b.words.length ∨ !(b.words.any endsBlock) then
          let s := s.journal
            { code := St.planViolation, cls := Cls.workEnded, blk := Blk.plan, unit := lc, ctx := c.ctx, tag := courseTag c, gen := c.gen,
              detail := strmNum st + x.next * 2 ^ 24 }
          let s := s.modCourse cid fun c => { c with violated := true }
          (s.modStream lc st fun y => { y with next := y.next + 1 }).checkSegment cid
        else s.modStream lc st fun y => { y with idle := some (y.next, b.words), next := y.next + 1 })
  | _, _ => s

/-! ### The commands -/

/-- LDW (R69). -/
def execLdw (lc : Nat) (st : Strm) (f : CellWord) (s : State) : Host.Outcome State Fault Refusal :=
  act (okCell lc) s (s.issue 0x01 lc st f ldwBody)

/-- LDW_DATA_ARRIVED (R69). -/
def execLdwDataArrived (lc : Nat) (st : Strm) (s : State) : Host.Outcome State Fault Refusal := act (okCell lc) s (s.loadArrives lc st)

/-- STW (R69). -/
def execStw (lc : Nat) (st : Strm) (f : CellWord) (s : State) : Host.Outcome State Fault Refusal :=
  act (okCell lc) s (s.issue 0x02 lc st f stwBody)

/-- STW_ACCEPTED (R69). -/
def execStwAccepted (lc : Nat) (st : Strm) (s : State) : Host.Outcome State Fault Refusal := act (okCell lc) s (s.storeAccepted lc st)

/-- MOV (R69). -/
def execMov (lc : Nat) (st : Strm) (f : CellWord) (s : State) : Host.Outcome State Fault Refusal :=
  act (okCell lc) s (s.issueCell 0x03 lc st f movEffect)

/-- VLD (R117). -/
def execVld (lc : Nat) (st : Strm) (f : CellWord) (s : State) : Host.Outcome State Fault Refusal :=
  act (okCell lc) s (s.issueCell 0x04 lc st f vldEffect)

/-- VST (R117). -/
def execVst (lc : Nat) (st : Strm) (f : CellWord) (s : State) : Host.Outcome State Fault Refusal :=
  act (okCell lc) s (s.issueCell 0x05 lc st f vstEffect)

/-- TBW (R69). -/
def execTbw (lc : Nat) (st : Strm) (f : CellWord) (s : State) : Host.Outcome State Fault Refusal :=
  act (okCell lc) s (s.issueCell 0x06 lc st f tbwEffect)

/-- PUT (R69). -/
def execPut (lc : Nat) (st : Strm) (f : CellWord) (s : State) : Host.Outcome State Fault Refusal :=
  act (okCell lc) s (s.issue 0x08 lc st f putBody)

/-- PUT_DELIVERED (R246). -/
def execPutDelivered (lc : Nat) (st : Strm) (s : State) : Host.Outcome State Fault Refusal := act (okCell lc) s (s.putDelivered lc st)

/-- NOP (R69). -/
def execNop (lc : Nat) (st : Strm) (f : CellWord) (s : State) : Host.Outcome State Fault Refusal :=
  act (okCell lc) s (s.issue 0xF0 lc st f nopBody)

/-- SYN (R70). -/
def execSyn (lc : Nat) (st : Strm) (f : CellWord) (s : State) : Host.Outcome State Fault Refusal :=
  act (okCell lc) s (s.issue 0xF1 lc st f synBody)

/-- SYN_TIMEOUT (R70). -/
def execSynTimeout (lc : Nat) (st : Strm) (s : State) : Host.Outcome State Fault Refusal := act (okCell lc) s (s.synTimeout lc st)

/-- SIG (R69). -/
def execSig (lc : Nat) (st : Strm) (f : CellWord) (s : State) : Host.Outcome State Fault Refusal :=
  act (okCell lc) s (s.issue 0xF2 lc st f sigBody)

/-- RCL (R69). -/
def execRcl (lc : Nat) (st : Strm) (f : CellWord) (s : State) : Host.Outcome State Fault Refusal :=
  act (okCell lc) s (s.issueCell 0xF3 lc st f rclEffect)

/-- END (R71). -/
def execEndBlock (lc : Nat) (st : Strm) (f : CellWord) (s : State) : Host.Outcome State Fault Refusal :=
  act (okCell lc) s (s.issue 0xFF lc st f endBody)

/-- BLOCK_LOAD (R71). -/
def execBlockLoad (lc : Nat) (st : Strm) (s : State) : Host.Outcome State Fault Refusal := act (okCell lc) s (s.loadBlock lc st)

end Sys2Proof.Machine
end

