-- ==== Sys2Proof/Machine/Rounds.lean ====
section
/-! DEFINITION. The tick sources (R27 to R31, R331): what asserts a tick, holdover and isolation, tick frames; and the admission of
presented units (R39, R43, R45). The boundary sequence that follows an asserted tick is `Machine/Boundary.lean`'s. -/

namespace Sys2Proof.Machine

/-! ### Admission of a presented unit -/

/-- The block that waits in a stream's idle buffer, when its cell may issue it now: a course that runs, the block's segment the
current one, the cell bound to the course and not being zeroed or restored. -/
def readyBlock (s : State) (lc : Nat) (st : Strm) : Option (Course × Nat × Block) :=
  let c := s.cell lc
  let x := c.stream st
  match c.course, x.idle with
  | some cid, some (i, _) =>
    (match s.course cid with
    | none => none
    | some co =>
      match (blocksOf co lc st)[i]? with
      | none => none
      | some b =>
        if x.running || co.stopped || co.segEnded || b.seg != co.seg || c.ctx != some co.ctx || c.incoming.isSome || c.zeroing || c.saving.isSome
            || c.restore || s.ups.fenced.contains lc || s.ups.loading.contains lc || s.ups.lost.contains lc || blockBusy s 1 (lc / 240)
            || s.pwr.state != .active then none
        else some (co, i, b))
  | _, _ => none

/-- The class and cost of a unit, when there is one to take. -/
def unitCost (s : State) (u : WorkUnit) : Option (Nat × Cost) :=
  match u with
  | .block lc st => (readyBlock s lc st).map fun x => (x.1.plan.cls, x.2.2.cost)
  | .access cls cc hbm link => some (cls, ⟨cc, hbm, link⟩)

/-- What an admitted unit starts: a block goes on issue. -/
def State.startUnit (u : WorkUnit) (s : State) : State :=
  match u with
  | .access _ _ _ _ => s
  | .block lc st =>
    match readyBlock s lc st with
    | none => s
    | some x => s.modStream lc st fun y =>
        { y with running := true, blk := x.2.1, off := 0, code := x.2.2.words, idle := none, cycles := 0, declared := x.2.2.cost.cc, synFrom := none }

/-- Whether a unit is of a learning step's course (R280). -/
def learningUnit (s : State) (u : WorkUnit) : Bool :=
  match u with
  | .access _ _ _ _ => false
  | .block lc st => (readyBlock s lc st).elim false fun x => x.1.job.elim false fun j => (s.job j.1).learning

/-- Whether TUNE units of explicit tuning jobs wait (R280). -/
def explicitWaits (s : State) : Bool :=
  s.bud.queue.any (fun w => w.cls == Act.tune && !learningUnit s w.unit) || s.bud.moves.any fun m => m.cls == Act.tune && !learningMove s m

/-- A unit that is not held is presented: admitted and started, or held for the next boundary; what a change of the borrowing brings with
it happens between. A learning step's unit waits behind the TUNE units of explicit jobs (R280). -/
def State.presentWith (opened : State → State → State) (u : WorkUnit) (s : State) : State :=
  if s.bud.queue.any fun w => w.unit == u then s
  else
    match unitCost s u with
    | none => s
    | some (c, x) =>
      if c = Act.tune ∧ learningUnit s u ∧ explicitWaits s then s.hold u c x
      else let r := s.admitUnit c x; if r.1 then (opened s r.2).startUnit u else (opened s r.2).hold u c x

/-- The opening of borrowing lets the TUNE units that wait ask again (R39, R41). -/
def State.retryTune (old s : State) : State :=
  if old.bud.borrow.isSome ∨ s.bud.borrow.isNone then s
  else
    let q := s.bud.queue.filter fun w => w.cls == Act.tune
    (({ s with bud := { s.bud with queue := s.bud.queue.filter fun w => w.cls != Act.tune, turned := s.bud.turned.filter fun x => x.1 != Act.tune } }).each
      q fun w s => s.presentWith (fun _ t => t) w.unit).pumpMoves fun m => m.cls == Act.tune

/-- A unit is presented (R39). -/
def State.present (u : WorkUnit) (s : State) : State := s.presentWith State.retryTune u

/-- A unit of an engine asks for admission (R39). -/
def State.ask (k : Nat × Nat × Nat) (c : Nat) (x : Cost) (s : State) : Bool × State :=
  let r := s.admitOnce k c x
  (r.1, State.retryTune s r.2)

/-- At cycle 40 the held units are tried again, in class order and first in, first out, learning steps' units last in their class. The
units whose turn has not come still wait (R41). -/
def State.retryUnits (s : State) : State :=
  let q := (List.range 8).flatMap fun c =>
    let ws := s.bud.queue.filter fun w => w.cls == c
    (ws.filter fun w => !learningUnit s w.unit) ++ ws.filter fun w => learningUnit s w.unit
  s.each q fun w s => ({ s with bud := { s.bud with queue := s.bud.queue.filter fun x => x.unit != w.unit } }).present w.unit

/-- UNIT_ADMIT (R39). -/
def execUnitAdmit (u : WorkUnit) (s : State) : Host.Outcome State Fault Refusal :=
  act (match u with | .block lc _ => okCell lc | .access c _ _ _ => okClass c) s (s.present u)

/-! ### Ticks -/

/-- The units of 0.125 ns in 125 µs. -/
abbrev tickUnit : Nat := 1000000

/-- The length in effect in round `n` (R31). -/
def lenAt (s : State) (n : Nat) : Nat := s.rnd.lenDue.foldl (fun v x => if x.1 ≤ n then x.2 else v) s.rnd.lenEff

/-- The weave-group time at the next tick (R337). -/
def nextGtime (s : State) : Nat := s.rnd.gtimeNext.getD (s.rnd.gtime + s.rnd.lenEff * 125000)

/-- The round timer of a LOCAL or MASTER device expires (R27): a tick is asserted. A source that has just been selected is in effect
from its first tick (R30); a FOLLOWER that waits for its first hoop tick asserts none (R485). -/
def State.localTick (s : State) : State :=
  if s.rnd.enable ∧ !s.rnd.awaitHoop ∧ (s.rnd.src ≠ 2 ∨ s.rnd.active ≠ 2) then { s with rnd := { s.rnd with tick := some {} } } else s

/-- The FOLLOWER whose own timer must stand in for the hoop. -/
def followerTimed (s : State) : Bool :=
  s.rnd.enable && !s.rnd.awaitHoop && s.rnd.active == 2 && s.rnd.src == 2 && s.rnd.predicted.isSome && s.rnd.tick.isNone

/-- The next predicted moment: one last received length on (R29). -/
def State.predictNext (s : State) : State :=
  { s with rnd := { s.rnd with predicted := s.rnd.predicted.map (· + s.rnd.hoopLen * tickUnit) } }

/-- HOLDOVER begins, its late tick asserted at once (R29). -/
def State.holdoverEntry (s : State) : State :=
  if followerTimed s ∧ s.rnd.mode = .locked then
    let s := s.predictNext
    { s with rnd := { s.rnd with mode := .holdover, holdCnt := 1, tick := some {} } }
  else s

/-- HOLD_MAX, of which 0 is applied as 16. -/
def holdLimit (s : State) : Nat := if s.rnd.holdMax = 0 then 16 else s.rnd.holdMax

/-- ISOLATED is entered after HOLD_MAX rounds in HOLDOVER, with a journal entry (R29). -/
def State.isolate (s : State) : State :=
  if s.rnd.mode = .holdover ∧ holdLimit s ≤ s.rnd.holdCnt then
    ({ s with rnd := { s.rnd with mode := .isolated } }).journal { code := St.groupTiming, cls := Cls.info, blk := Blk.round, detail := 0 }
  else s

/-- A tick of HOLDOVER or ISOLATED at its predicted moment (R29); the round that it begins is counted while in HOLDOVER. -/
def State.holdoverTick (s : State) : State :=
  if followerTimed s ∧ s.rnd.mode ≠ .locked then
    let s := s.predictNext.isolate
    { s with rnd := { s.rnd with tick := some {}, holdCnt := if s.rnd.mode = .holdover then min 255 (s.rnd.holdCnt + 1) else s.rnd.holdCnt } }
  else s

/-! ### Tick frames (R330, R331) -/

/-- The MASTER's tick frame for its next tick. -/
def masterFrame (s : State) : TickFrame :=
  { originPos := s.hoop.pos, lastPos := s.hoop.pos, accDly := 0, len := lenAt s (s.rnd.num + 1), lenNext := lenAt s (s.rnd.num + 2)
    rndNum := (s.rnd.num + 1) % 2 ^ 64, gtime := nextGtime s, tAlign := s.hoop.tAlign, crcOk := true }

/-- The device that sends ticks: MASTER until the tick of another source (R30), or about to be. -/
def isMaster (s : State) : Bool := s.rnd.src == 1 || s.rnd.active == 1

def State.sendTick (s : State) : State :=
  if s.rnd.enable ∧ isMaster s ∧ !s.hoop.bypassed ∧ !s.rnd.awaitHoop then s.emit (.tickFrame (masterFrame s)) else s

/-- The arrival delay A of a frame (R331). -/
def arrivalDelay (s : State) (f : TickFrame) : Nat :=
  let n := s.hoop.ndev + 1
  f.accDly + look 0 s.hoop.path ((s.hoop.pos % n + n - f.lastPos % n) % n)

/-- A valid frame (R330): CRC, the same ORIGIN_POS twice running, lengths in range. -/
def tickValid (s : State) (f : TickFrame) : Bool :=
  f.crcOk && s.hoop.origin == some f.originPos && decide (1 ≤ f.len) && decide (f.len ≤ 32) && decide (1 ≤ f.lenNext) && decide (f.lenNext ≤ 32)

/-- A device that passes frames on: its bypass open, its rounds running, not the MASTER (R331, R336, R485). -/
def State.forwardTick (f : TickFrame) (a : Nat) (s : State) : State :=
  if s.hoop.bypassed ∨ !s.rnd.enable then s else s.emit (.tickFrame { f with lastPos := s.hoop.pos, accDly := a + 320 })

/-- A FOLLOWER's tick is scheduled from a valid frame (R331); `arrival` is the moment of the marker in units of 0.125 ns. -/
def State.hoopTick (f : TickFrame) (a arrival : Nat) (s : State) : State :=
  let due := arrival + 8 * f.tAlign
  let late := decide (8 * f.tAlign < a)
  { s with
    rnd := { s.rnd with
      tick := some { num := some f.rndNum, gtime := some f.gtime, len := some f.len }
      predicted := some (if late then arrival else due - a)
      hoopLen := f.len }
    hoop := { s.hoop with late := sat 16 (s.hoop.late + b2n late) } }

/-- LOOP_ERR, a signed field of 16 bits. -/
def loopField (i : Int) : Int := max (-32768) (min 32767 i)

/-- A tick frame arrives (R331): counted and dropped with a bad CRC, consumed by the MASTER, which measures LOOP_ERR (`arrival` counts
from its own marker there), used by a FOLLOWER, and passed on by every device but the MASTER. -/
def State.recvTick (f : TickFrame) (arrival : Nat) (s : State) : State :=
  if !f.crcOk then { s with hoop := { s.hoop with crcErr := sat 16 (s.hoop.crcErr + 1), validRun := 0 } }
  else
    let ok := tickValid s f
    let a := arrivalDelay s f
    let s := { s with hoop := { s.hoop with
      origin := some f.originPos
      validRun := if ok then s.hoop.validRun + 1 else 0
      lastPos := if ok then f.lastPos else s.hoop.lastPos } }
    if s.rnd.enable ∧ s.rnd.active = 1 ∧ s.rnd.src ≠ 2 then
      if ok then { s with hoop := { s.hoop with loopErr := loopField ((arrival : Int) - (a : Int)) } } else s
    else
      let s := if ok && s.rnd.enable && (s.rnd.src == 2 || s.rnd.active == 2) then s.hoopTick f a arrival else s
      s.forwardTick f a

/-! ### The commands -/

/-- LOCAL_TICK (R27). -/
def execLocalTick (s : State) : Host.Outcome State Fault Refusal := act true s s.localTick

/-- TICK_FRAME_SEND (R331). -/
def execTickFrameSend (s : State) : Host.Outcome State Fault Refusal := act true s s.sendTick

/-- HOLDOVER_ENTRY (R29). -/
def execHoldoverEntry (s : State) : Host.Outcome State Fault Refusal := act true s s.holdoverEntry

/-- HOLDOVER_TICK (R29). -/
def execHoldoverTick (s : State) : Host.Outcome State Fault Refusal := act true s s.holdoverTick

/-- ISOLATED_ENTRY (R29). -/
def execIsolatedEntry (s : State) : Host.Outcome State Fault Refusal := act true s s.isolate

/-- TICK_FRAME_RECEIVE (R331). -/
def execTickFrameReceive (f : TickFrame) (arrival : Nat) (s : State) : Host.Outcome State Fault Refusal := act true s (s.recvTick f arrival)

end Sys2Proof.Machine
end

