-- ==== Sys2Proof/Machine/Queues.lean ====
section
/-! DEFINITION. Queue pairs: doorbells (R346), the fetch of descriptors (R345, R349, R411), copies and their bursts (R350, R353, R354),
flushing reads (R358), stalled completion queues (R348), and the host window (R342, R343). -/

namespace Sys2Proof.Machine

/-! ### Queue pairs and their functions -/

def qpFn (s : State) (qpn : Nat) : Nat := (s.ctx (s.qp qpn).ctx).func

/-- An event of a queue pair goes to its named ring (R360). -/
def State.qpEvent (qpn etype status : Nat) (s : State) : State :=
  let q := s.qp qpn
  s.event (qpFn s qpn) q.ring { etype := etype, flags := 0, ctx := q.ctx, obj := qpn, rnd := 0, status := status, detail := 0 }

/-- An ACTIVE queue pair moves to ERROR with a QP_ERROR event (R345). -/
def State.qpError (qpn cause : Nat) (s : State) : State :=
  if (s.qp qpn).state = .active then (s.modQp qpn fun q => { q with state := .error }).qpEvent qpn Ev.qpError cause else s

def isRoce (q : Qp) : Bool := q.typ == 4 || q.typ == 5

/-! ### Doorbells (R346) -/

/-- The context that holds a block of queue pairs. -/
def blockOwner (s : State) (b : Nat) : Option Nat :=
  match look 0 s.host.blocks b with | 0 => none | n + 1 => some n

/-- Whether a doorbell write is taken: a doorbell's offset, a queue pair that is neither FREE nor WALE, on a page of the function. -/
def doorbellTaken (s : State) (fn qpn off : Nat) : Bool :=
  let q := s.qp qpn
  (off == 0 || off == 8 || (off == 16 && isRoce q)) && q.state != .free && q.typ != 6
    && ((blockOwner s (qpn / 64)).elim false fun c => (s.ctx c).func == fn)

/-- SQ_TAIL: the new tail, or ERROR when it lies more than the SQ size ahead of the device's head; the manual gives that event no
cause code. -/
def State.ringSq (qpn v : Nat) (s : State) : State :=
  let q := s.qp qpn
  if q.state = .active ∧ 2 ^ q.logSq < idxSub v q.fetched then
    let x := s.fresh
    x.2.qpError qpn (x.1 % 2 ^ 16)
  else s.modQp qpn fun q => { q with sqTail := v }

/-- CQ_HEAD: the new head, ARM, and the held records for which there is room now. -/
def State.ringCq (qpn v : Nat) (arm : Bool) (s : State) : State :=
  (s.modQp qpn fun q => { q with cqHead := v, arm := q.arm || arm }).drainHeld qpn

/-- A doorbell write of 32 or 64 bits at an offset of a queue pair's 64 bytes. -/
def State.doorbell (fn qpn off : Nat) (wide : Bool) (v : Nat) (s : State) : State :=
  if !barLive s fn then s
  else if !doorbellTaken s fn qpn off then s.modFn fn fun f => { f with dbDrop := sat 16 (f.dbDrop + 1) }
  else if off = 0 then s.ringSq qpn (v % 2 ^ 32)
  else if off = 8 then s.ringCq qpn (v % 2 ^ 32) (wide && bit v 32)
  else s.modQp qpn fun q => { q with rqTail := v % 2 ^ 32 }

/-! ### Fetching (R345, R348, R349, R411) -/

/-- Whether the device fetches for a queue pair now. -/
def fetching (s : State) (qpn : Nat) : Bool :=
  let q := s.qp qpn
  (q.state == .active || q.state == .revoked) && q.destroy.isNone && q.typ != 6 && !cqFull q && q.held.isEmpty
    && hostOk s (qpFn s qpn) && s.rst.running && (s.pwr.state == .active || s.pwr.state == .idleHold)

/-- Whether the device fetches from a queue pair's SQ now. -/
def fetches (s : State) (qpn : Nat) : Bool := fetching s qpn && (s.qp qpn).fetched != (s.qp qpn).sqTail

def dtype (d : BitVec 512) : Nat := bytesAt d.toNat 0 1
def dAt (d : BitVec 512) (off n : Nat) : Nat := bytesAt d.toNat off n

/-- The common header's reserved bits are zero. -/
def headOk (d : BitVec 512) : Bool := decide (dflags d < 8) && dAt d 2 6 == 0

/-- What refuses a descriptor at its fetch, before its own checks. -/
def fetchBad (s : State) (q : Qp) (ok : Bool) : Option Nat :=
  if q.state = .revoked ∨ ctxGoing s q.ctx then some St.revoked
  else if s.flt.halted then some St.deviceFault
  else if (s.ctx q.ctx).requireIde ∧ !s.lid.linkIde then some St.ideRequired
  else if !ok then some St.descInvalid
  else none

/-- The next descriptor of an SQ is fetched: nothing where none may be fetched; `ok` says that the queue pair's type takes it and that
its reserved bytes are zero, `eff` is what it does. Behind a FENCE it is held without being started. -/
def State.fetch (qpn : Nat) (d : BitVec 512) (ok : Qp → Bool) (eff : DescS → State → State) (s : State) : State :=
  let q := s.qp qpn
  if !fetches s qpn then s
  else
    let x : DescS := { idx := q.fetched, raw := d, gen := (s.tkey q.ctx).gen }
    let s := (s.modQp qpn fun q => { q with fetched := idxAdd q.fetched 1, descs := q.descs ++ [x] }).charge q.cls { link := 64 }
    match fetchBad s q (ok q) with
    | some st => if st = St.descInvalid then s.endTurn qpn x.idx st else s.finishDesc qpn x (nowRec s st 0)
    | none => eff x s

/-- A descriptor's work is done: its record, or with PATH_FENCE and OK the flushing reads first (R358). -/
def State.doneDesc (qpn : Nat) (x : DescS) (r : Rec) (s : State) : State :=
  if bit (dflags x.raw) 0 && r.status == St.ok then s.modDesc qpn x.idx fun y => { y with held := some r } else s.finishDesc qpn x r

def isNop (d : BitVec 512) : Bool := dtype d == 0

/-- The DTYPEs that a command of their own fetches. -/
def assignedType (n : Nat) : Bool := n == 1 || n == 2 || (0x10 ≤ n && n ≤ 0x14) || n == 0x18

/-- NOP, and every DTYPE that is not assigned (R349). -/
def State.nopDesc (qpn : Nat) (d : BitVec 512) (s : State) : State :=
  if assignedType (dtype d) then s
  else s.fetch qpn d (fun _ => isNop d && headOk d && dAt d 16 48 == 0) fun x s => s.endTurn qpn x.idx St.ok

/-! ### Copies (R350, R353, R354) -/

abbrev copyFrom (d : BitVec 512) : Nat := bits (dAt d 16 1) 0 2
abbrev copyTo (d : BitVec 512) : Nat := bits (dAt d 16 1) 2 2
abbrev copySrc (d : BitVec 512) : Nat := dAt d 24 8
abbrev copyDst (d : BitVec 512) : Nat := dAt d 32 8
abbrev copyLen (d : BitVec 512) : Nat := dAt d 40 4

/-- Whether a range meets commons space. -/
def inCommons (a n : Nat) : Bool := decide (2 ^ 46 < a + n) && decide (a < 2 ^ 47)

def hostSpace (n : Nat) : Bool := n == 1 || n == 2

/-- The spaces that a queue pair type allows, and the DVAs that R350 refuses. -/
def copyOk (d : BitVec 512) (q : Qp) : Bool :=
  let f := copyFrom d
  let t := copyTo d
  headOk d && dAt d 16 1 < 16 && dAt d 17 7 == 0 && dAt d 44 20 == 0 && copyLen d != 0
    && (if q.typ = 0 then hostSpace f && t == 0 else if q.typ = 1 then f == 0 && hostSpace t else q.typ == 2 && f == 0 && t == 0)
    && !(f == 0 && inCommons (copySrc d) (copyLen d)) && !(t == 0 && inCommons (copyDst d) (copyLen d))

def State.copyDesc (qpn : Nat) (d : BitVec 512) (s : State) : State :=
  if dtype d ≠ 1 then s else s.fetch qpn d (copyOk d) fun _ s => s

/-- The descriptors that an engine has begun, HOSTOUT copies among them (R353). -/
def begun (s : State) (e : Nat) : Nat :=
  countTab s.host.qps fun n q => engineOf n q.typ == e && q.descs.any fun x => (decide (q.typ ≤ 2) && x.started) || x.copy.isSome

/-- The bytes of a copy's next burst, which lie within one page on each side. -/
def burstLen (d : BitVec 512) (done : Nat) : Nat :=
  let n := min 4096 (copyLen d - done)
  let n := if copyFrom d = 0 then min n (frameBytes - (copySrc d + done) % frameBytes) else n
  if copyTo d = 0 then min n (frameBytes - (copyDst d + done) % frameBytes) else n

def burstCost (s : State) (q : Qp) (d : BitVec 512) (done n : Nat) : Cost :=
  let side := fun (sp a : Nat) => if sp = 0 then sideCost s q.ctx (a + done) n else { link := n }
  (side (copyFrom d) (copySrc d)).add (side (copyTo d) (copyDst d))

/-- The bytes of a burst, moved: those read from the host come with the command. -/
def State.moveBurst (qpn : Nat) (q : Qp) (d : BitVec 512) (done n : Nat) (b : BurstIn) (s : State) : Except AccErr Unit × State :=
  let put := fun (r : Except AccErr (List Byte) × State) =>
    match r.1 with
    | .error e => (.error e, r.2)
    | .ok bs => if copyTo d = 0 then r.2.writeDva q.ctx (copyDst d + done) bs
                else (.ok (), r.2.emit (.hostWrite qpn (copyDst d + done) bs))
  match b with
  | .failed => (.error (.fails St.hostFault), s)
  | .data bs => put (.ok ((bs ++ List.replicate n 0).take n), s)
  | .accepted => put (s.readDva q.ctx 0 (copySrc d + done) n)

/-- Whether an answer is one that the copy waits for: bytes for a copy from the host, an accepted write otherwise. -/
def burstFits (q : Qp) (b : BurstIn) : Bool :=
  match b with
  | .data _ => q.typ == 0
  | .accepted => q.typ != 0
  | .failed => q.typ != 2

/-- The status that ends a copy on a failed access (R240, R354). -/
def copyStatus (e : AccErr) : Nat :=
  match e with
  | .waits => St.ok
  | .poison _ _ => St.dataPoisoned
  | .fails st => if st = St.addrInvalid ∨ st = St.regionInvalid then St.hostFault else st

/-- A copy ends with a status and its PROGRESS; CE_STAT.FAULTS counts HOST_FAULT. -/
def State.copyEnds (qpn : Nat) (x : DescS) (status : Nat) (s : State) : State :=
  let e := engineOf qpn (s.qp qpn).typ
  let s := if status = St.hostFault then
      { s with host := { s.host with ce := adj {} s.host.ce e fun c => { c with faults := sat 16 (c.faults + 1) } } } else s
  s.doneDesc qpn x (nowRec s status x.done)

/-- A stale burst is dropped and counted; a context that is going completes its descriptor with REVOKED (R400, R415). -/
def State.staleBurst (qpn : Nat) (x : DescS) (s : State) : State :=
  let q := s.qp qpn
  let s := { s with host := { s.host with
    ce := adj {} s.host.ce (engineOf qpn q.typ) fun c => { c with stale := sat 32 (c.stale + 1) } } }
  if ctxGoing s q.ctx ∨ q.state = .revoked then s.finishDesc qpn x (nowRec s St.revoked x.done) else s

/-- The descriptor that an engine may move: the queue pair's first copy, which it has begun or has room for. -/
def activeCopy (s : State) (qpn idx : Nat) : Option DescS :=
  let q := s.qp qpn
  match q.descs.find? fun x => dtype x.raw == 1 && x.held.isNone && x.ends.isNone with
  | some x => if decide (q.typ ≤ 2) && x.idx == idx && !waitsTurn q idx && (x.started || decide (begun s (engineOf qpn q.typ) < 64)) then some x else none
  | none => none

/-- The host addresses of a burst are translated (R353). -/
def State.translateBurst (qpn : Nat) (d : BitVec 512) (done n : Nat) (s : State) : State :=
  let s := if copyFrom d = 1 then s.translate qpn (copySrc d + done) n else s
  if copyTo d = 1 then s.translate qpn (copyDst d + done) n else s

/-- One 4 KiB burst: the generation check, admission, the bytes, and the end of the copy with its last byte. A copy of a function that has been
reset ends instead (R363). -/
def State.copyBurst (qpn idx : Nat) (b : BurstIn) (s : State) : State :=
  match activeCopy s qpn idx with
  | none => s
  | some x =>
    let q := s.qp qpn
    let d := x.raw
    if s.host.flrCut.contains q.ctx then s.copyEnds qpn x St.hostLost
    else if !burstFits q b ∨ (q.typ ≠ 2 ∧ !hostOk s (qpFn s qpn)) then s
    else if x.gen ≠ (s.tkey q.ctx).gen then s.staleBurst qpn x
    else
      let s := s.modDesc qpn idx fun y => { y with started := true }
      let n := burstLen d x.done
      let r := s.moveBurst qpn q d x.done n b
      match r.1 with
      | .error .waits => r.2
      | .error e => r.2.copyEnds qpn x (copyStatus e)
      | .ok () =>
        let a := s.ask (1, qpn, idx) q.cls (burstCost s q d x.done n)
        if !a.1 then a.2
        else
          let s := (a.2.moveBurst qpn q d x.done n b).2.translateBurst qpn d x.done n
          let x := { x with done := x.done + n }
          let s := s.modDesc qpn idx fun y => { y with done := x.done }
          if copyLen d ≤ x.done then s.copyEnds qpn x St.ok else s

/-- A host or peer read without its completion ends its copy; a failed SQ or RQ fetch puts the queue pair in ERROR (R345, R354). -/
def State.completionTimeout (qpn idx : Nat) (fetch : Bool) (s : State) : State :=
  let q := s.qp qpn
  if !s.host.linkUp then s
  else if fetch then
    if q.fetched ≠ q.sqTail ∨ (isRoce q ∧ q.rqHead ≠ q.rqTail) then s.qpError qpn St.hostFault else s
  else
    match activeCopy s qpn idx with
    | none => s
    | some x => if q.typ = 0 then s.copyEnds qpn x St.hostFault else s

/-! ### Flushing reads (R358) -/

/-- The memory paths that a range was written through: HBM stacks, and CXL ports past 8. -/
def pathsOf (s : State) (ctx a n : Nat) : List Nat :=
  ((pieces a n).flatMap fun x =>
    match spotAt s ctx 0 (x.1 * frameBytes + x.2.1) with
    | .frame f _ => [msdOfFrame f]
    | .slow sda => (match sdaSpace sda, s.mem.pool with | 0, some p => p.map.map (· + 8) | _, _ => [12])
    | _ => []).eraseDups

/-- What the flushing reads of a descriptor cost: one 4 KiB unit for each path. -/
def fenceCost (s : State) (q : Qp) (x : DescS) : Cost :=
  let d := x.raw
  let paths := if dtype d = 1 then (if copyTo d = 0 then pathsOf s q.ctx (copyDst d) (copyLen d) else [])
    else if dtype d = 2 then
      pathsOf s q.ctx (dAt d 48 8) (((planAt s q.ctx (dAt d 24 8)).map Plan.outRec).getD 0 * ((x.held).elim 0 Rec.progress))
    else if dtype d = 0x14 ∨ dtype d = 0x18 then pathsOf s q.ctx (dAt d 16 8) (dAt d 28 4)
    else []
  let host := dtype d == 1 && copyTo d != 0 || dtype d == 2 && dAt d 56 8 != 0 || (0x10 ≤ dtype d && dtype d ≤ 0x13)
  { hbm := 4096 * (paths.filter fun p => p < 8).length
    link := 4096 * ((paths.filter fun p => 8 ≤ p).length + b2n host) }

/-- The flushing reads complete: VIS_ALL and the record, or HOST_FAULT. -/
def State.fenceRead (qpn idx : Nat) (ok : Bool) (s : State) : State :=
  match s.desc qpn idx with
  | none => s
  | some x =>
    match x.held with
    | none => s
    | some r =>
      let s := s.charge (s.qp qpn).cls (fenceCost s (s.qp qpn) x)
      if ok then s.finishDesc qpn x { r with flags := r.flags + Fl.visAll }
      else s.finishDesc qpn x { r with status := St.hostFault }

/-! ### Stalled completion queues (R348) -/

/-- A CQ that has stayed full for 8 rounds: one CQ_STALLED event. -/
def State.cqStall (qpn : Nat) (s : State) : State :=
  let q := s.qp qpn
  match q.fullSince with
  | none => s
  | some n =>
    if cqFull q && !q.stalled && decide (n + 8 ≤ boundaryRnd s) then
      (s.modQp qpn fun q => { q with stalled := true }).qpEvent qpn Ev.cqStalled St.ok
    else s

/-! ### The host window (R342, R343) -/

def aper (s : State) (i : Nat) : Aper := look {} s.host.apers i
def aperSize (s : State) : Nat := 2 ^ s.host.barLog / 64

/-- Why a request to an aperture is refused. -/
def aperRefused (s : State) (a : Aper) (o n : Nat) (r : AperReq) : Bool :=
  !a.bound || decide (a.len < o + n) || (a.rid.elim false fun x => x != r.rid) || (r.write && a.ro)
    || ctxGoing s a.ctx || ((s.ctx a.ctx).requireIde && !s.lid.linkIde) || s.flt.halted
    || (pieces (a.dva + o) n).any fun x =>
        let e := s.pteAt (pteKey a.ctx x.1)
        !e.valid || (r.write && e.ro) || decide (2 ^ 46 ≤ x.1 * frameBytes)

def State.refuseAper (r : AperReq) (s : State) : State :=
  let s := { s with host := { s.host with refused := sat 32 (s.host.refused + 1) } }
  if r.write then s else s.emit .aperUnsupported

/-- A memory request into BAR2. A request that waits for a frame's content has not completed. A poisoned line reads as values that the
manual leaves open. -/
def State.aperture (r : AperReq) (s : State) : State :=
  let i := r.off / aperSize s
  let o := r.off % aperSize s
  let n := if r.write then r.data.length else r.len
  let a := aper s i
  if !barLive s 0 ∨ 64 ≤ i then s
  else if aperRefused s a o n r then s.refuseAper r
  else
    let cost := (rangeCost s a.ctx (a.dva + o) n).add { link := n }
    if r.write then
      let x := s.writeDva a.ctx (a.dva + o) r.data
      match x.1 with
      | .ok () => x.2.charge a.cls cost
      | .error .waits => x.2
      | .error _ => x.2.refuseAper r
    else
      let x := s.readDva a.ctx 0 (a.dva + o) n
      match x.1 with
      | .ok bs => (x.2.emit (.aperRead bs)).charge a.cls cost
      | .error .waits => x.2
      | .error (.poison _ _) =>
        let y := x.2.fresh
        (y.2.emit (.aperRead (leBytes n y.1))).charge a.cls cost
      | .error (.fails _) => x.2.refuseAper r

/-! ### The commands -/

/-- SQ_TAIL (R346). -/
def execSqTail (fn qpn off : Nat) (wide : Bool) (v : BitVec 64) (s : State) : Host.Outcome State Fault Refusal :=
  act (okFn fn && okQpn qpn) s (s.doorbell fn qpn off wide v.toNat)

/-- CQ_HEAD (R346). -/
def execCqHead (fn qpn off : Nat) (wide : Bool) (v : BitVec 64) (s : State) : Host.Outcome State Fault Refusal :=
  act (okFn fn && okQpn qpn) s (s.doorbell fn qpn off wide v.toNat)

/-- RQ_TAIL (R346). -/
def execRqTail (fn qpn off : Nat) (wide : Bool) (v : BitVec 64) (s : State) : Host.Outcome State Fault Refusal :=
  act (okFn fn && okQpn qpn) s (s.doorbell fn qpn off wide v.toNat)

/-- APERTURE_ACCESS (R343). -/
def execApertureAccess (r : AperReq) (s : State) : Host.Outcome State Fault Refusal := act true s (s.aperture r)

/-- DESC_NOP (R349). -/
def execDescNop (qpn : Nat) (d : BitVec 512) (s : State) : Host.Outcome State Fault Refusal := act (okQpn qpn) s (s.nopDesc qpn d)

/-- COPY (R350). -/
def execCopy (qpn : Nat) (d : BitVec 512) (s : State) : Host.Outcome State Fault Refusal := act (okQpn qpn) s (s.copyDesc qpn d)

/-- COPY_BURST (R353, R354). -/
def execCopyBurst (qpn idx : Nat) (b : BurstIn) (s : State) : Host.Outcome State Fault Refusal :=
  act (okQpn qpn && okIdx idx) s (s.copyBurst qpn idx b)

/-- PATH_FENCE_READ (R358). -/
def execPathFenceRead (qpn idx : Nat) (ok : Bool) (s : State) : Host.Outcome State Fault Refusal :=
  act (okQpn qpn && okDesc idx) s (s.fenceRead qpn idx ok)

/-- CQ_STALLED (R348). -/
def execCqStalled (qpn : Nat) (s : State) : Host.Outcome State Fault Refusal := act (okQpn qpn) s (s.cqStall qpn)

/-- PCIE_COMPLETION_TIMEOUT (R345, R354). -/
def execPcieCompletionTimeout (qpn idx : Nat) (fetch : Bool) (s : State) : Host.Outcome State Fault Refusal :=
  act (okQpn qpn && okIdx idx) s (s.completionTimeout qpn idx fetch)

end Sys2Proof.Machine
end

