-- ==== Sys2Proof/Machine/Roce.lean ====
section
/-! DEFINITION. RoCE v2: memory keys, the send side and the receive side of a queue pair, acknowledgement and go-back-N (R319, R320,
R355). -/

namespace Sys2Proof.Machine

/-! ### Descriptors and keys (R355) -/

abbrev Rt.localWrite : Nat := 0
abbrev Rt.remoteRead : Nat := 1
abbrev Rt.remoteWrite : Nat := 2

abbrev rAddr (d : BitVec 512) : Nat := dAt d 16 8
abbrev rKey (d : BitVec 512) : Nat := dAt d 24 4
abbrev rLen (d : BitVec 512) : Nat := dAt d 28 4

/-- The send-side operations. -/
def isSend (n : Nat) : Bool := 0x10 ≤ n && n ≤ 0x14
def hasImm (n : Nat) : Bool := n == 0x11 || n == 0x13

/-- Whether a key gives an access to a range: the region's tag, its context, its range and, where one is needed, a right. -/
def keyGives (s : State) (ctx key addr n : Nat) (right : Option Nat) : Bool :=
  let m := look {} s.host.mrs (key / 256)
  m.set && m.tag == key % 256 && m.ctx == ctx && decide (m.dva ≤ addr) && decide (addr + n ≤ m.dva + m.len)
    && right.elim true fun r => bit m.rights r

/-- The path MTU of a queue pair, and the packets of a message. -/
def pathMtu (qpn : Nat) : Nat := 256 * 2 ^ (Config.roceMtuCode qpn % 5)
def packetsOf (qpn n : Nat) : Nat := max 1 (ceilDiv n (pathMtu qpn))

/-- The limits of a send-side descriptor: the operations of its type, its reserved bytes, its length (R320, R355). -/
def sendOk (qpn : Nat) (d : BitVec 512) (q : Qp) : Bool :=
  headOk d && rLen d ≤ 2 ^ 31
    && (if q.typ = 5 then dtype d == 0x10 && dAt d 46 18 == 0 && rLen d ≤ pathMtu qpn
        else q.typ == 4 && (if dtype d ≤ 0x11 then dAt d 36 28 == 0 else if dtype d ≤ 0x13 then dAt d 48 16 == 0
          else dAt d 32 4 == 0 && dAt d 48 16 == 0))

/-! ### Sending -/

/-- A packet leaves on a sub-port, charged to the queue pair's class (R34). -/
def State.roceOut (qpn port sub : Nat) (k : RocePkt) (s : State) : State :=
  let prio := (s.port port).tcRoce
  (s.portOut port sub prio (.roce qpn port sub k (frameTag s port prio true))).charge (s.qp qpn).cls { link := k.payload.length + Config.roceOverhead }

/-- A packet of a queue pair leaves on its own port. -/
def State.rocePkt (qpn : Nat) (k : RocePkt) (s : State) : State := s.roceOut qpn (s.qp qpn).port (s.qp qpn).sub k

/-- A queue pair's send-side descriptors that have started and are not acknowledged. -/
def outstanding (q : Qp) : List DescS := q.descs.filter fun x => isSend (dtype x.raw) && x.started && x.held.isNone

/-- The first PSN of an outstanding message. -/
def firstPsn (qpn : Nat) (q : Qp) (x : DescS) : Nat :=
  let later := (outstanding q).dropWhile fun y => y.idx != x.idx
  (q.psn + 2 ^ 24 - ((later.map fun y => packetsOf qpn (rLen y.raw)).sum % 2 ^ 24)) % 2 ^ 24

/-- The operation of a packet of a descriptor. -/
def opOf (n : Nat) : RoceOp :=
  if n = 0x10 then .send else if n = 0x11 then .sendImm else if n = 0x12 then .write else if n = 0x13 then .writeImm else .readReq

/-- Packet `i` of a message. A READ is one request. -/
def roceAt (qpn : Nat) (q : Qp) (x : DescS) (bs : List Byte) (i : Nat) : RocePkt :=
  let d := x.raw
  let t := dtype d
  let far := decide (0x12 ≤ t)
  { qpn := if q.typ = 5 then dAt d 36 4 else 0, op := opOf t, psn := (firstPsn qpn q x + i) % 2 ^ 24
    last := t == 0x14 || i + 1 == packetsOf qpn (rLen d)
    addr := if far then dAt d 36 8 + i * pathMtu qpn else 0, key := if far then dAt d 44 4 else if q.typ = 5 then dAt d 40 4 else 0
    len := if t = 0x14 then rLen d - i * pathMtu qpn else rLen d, imm := if hasImm t then dAt d 32 4 else 0
    payload := (bs.drop (i * pathMtu qpn)).take (pathMtu qpn) }

/-- The packets of a message leave from packet `i` on. -/
def State.sendFrom (qpn : Nat) (x : DescS) (bs : List Byte) (i : Nat) (s : State) : State :=
  let q := s.qp qpn
  if dtype x.raw = 0x14 then s.rocePkt qpn (roceAt qpn q x [] i)
  else s.each ((List.range (packetsOf qpn (rLen x.raw))).drop i) fun j s => s.rocePkt qpn (roceAt qpn q x bs j)

/-- The record of a RoCE descriptor: bytes done, and IMM for an operation with immediate. -/
def roceRec (s : State) (x : DescS) (status done : Nat) : Rec :=
  let r := nowRec s status done
  if hasImm (dtype x.raw) then { r with flags := r.flags + Fl.imm, wver := dAt x.raw 32 4 } else r

/-- A UD message leaves through its address handle and is done. -/
def State.sendUd (qpn : Nat) (x : DescS) (bs : List Byte) (s : State) : State :=
  let q := s.qp qpn
  let a := look {} s.host.ahs (65536 * q.ctx + dAt x.raw 44 2)
  if !a.set then s.doneDesc qpn x (roceRec s x St.hostFault 0)
  else (s.roceOut qpn a.port a.sub { roceAt qpn q x bs 0 with addr := a.ip }).doneDesc qpn x (roceRec s x St.ok (rLen x.raw))

/-- The right that the local side of a descriptor needs: LOCAL_WRITE where data arrives. -/
def localRight (d : BitVec 512) : Option Nat := if 0x14 ≤ dtype d then some Rt.localWrite else none

/-- A send-side descriptor starts: its key, its data, its port, its admission. It waits where one of the last three does. -/
def State.startSend (qpn : Nat) (x : DescS) (s : State) : State :=
  let q := s.qp qpn
  let d := x.raw
  if !keyGives s q.ctx (rKey d) (rAddr d) (rLen d) (localRight d) then s.doneDesc qpn x (roceRec s x St.hostFault 0)
  else if !canSend s q.port q.sub ∨ pausedOn s q.port (s.port q.port).tcRoce then s
  else
    let r := if dtype d = 0x14 then (.ok [], s) else s.readDva q.ctx 0 (rAddr d) (rLen d)
    match r.1 with
    | .error .waits => r.2
    | .error e => r.2.doneDesc qpn x (roceRec s x (copyStatus e) 0)
    | .ok bs =>
      let a := r.2.ask (2, qpn, x.idx) q.cls (sideCost s q.ctx (rAddr d) bs.length)
      if !a.1 then a.2
      else if q.typ = 5 then a.2.sendUd qpn x bs
      else
        let s := a.2.modDesc qpn x.idx fun y => { y with started := true }
        let s := s.modQp qpn fun q => { q with psn := (q.psn + packetsOf qpn (rLen d)) % 2 ^ 24 }
        s.sendFrom qpn x bs 0

/-- Descriptors start in index order, as far as they can. -/
def State.startSends (qpn : Nat) (s : State) : State :=
  (s.qp qpn).descs.foldl (fun t x =>
    let waits := (t.qp qpn).descs.any fun y => isSend (dtype y.raw) && !y.started && y.held.isNone && decide (idxSub y.idx x.idx ≠ 0)
      && decide (idxSub x.idx y.idx < 2 ^ 31)
    if isSend (dtype x.raw) && !x.started && x.held.isNone && x.ends.isNone && !waits && !waitsTurn (t.qp qpn) x.idx then t.startSend qpn x else t) s

/-- A fetched send-side descriptor of one DTYPE. -/
def State.sendDesc (t qpn : Nat) (d : BitVec 512) (s : State) : State :=
  if dtype d ≠ t then s else s.fetch qpn d (sendOk qpn d) fun _ s => s.startSends qpn

/-! ### Acknowledgement and go-back-N (R320) -/

/-- Every packet before PSN `n` is acknowledged. A READ is done with its data and holds back what follows it. -/
def State.roceAck (qpn n : Nat) (s : State) : State :=
  let q := s.qp qpn
  (outstanding q).foldl (fun t x =>
    let a := (n + 2 ^ 24 - firstPsn qpn q x) % 2 ^ 24
    let all := packetsOf qpn (rLen x.raw)
    let blocked := (outstanding (t.qp qpn)).head?.elim true fun y => y.idx != x.idx
    if blocked ∨ dtype x.raw = 0x14 ∨ 2 ^ 23 ≤ a then t
    else if all ≤ a then t.doneDesc qpn x (roceRec t x St.ok (rLen x.raw))
    else t.modDesc qpn x.idx fun y => { y with done := max y.done (a * pathMtu qpn) }) s

/-- The packets from the first unacknowledged one on leave again. -/
def State.goBack (qpn : Nat) (s : State) : State :=
  s.each (outstanding (s.qp qpn)) fun x s =>
    let r := if dtype x.raw = 0x14 then (.ok [], s) else s.readDva (s.qp qpn).ctx 0 (rAddr x.raw) (rLen x.raw)
    match r.1 with
    | .ok bs => r.2.sendFrom qpn x bs (x.done / pathMtu qpn)
    | .error _ => r.2

/-- The queue pair's work fails: what is outstanding ends with HOST_FAULT and the bytes acknowledged. -/
def State.failSends (qpn : Nat) (s : State) : State :=
  (s.each (outstanding (s.qp qpn)) fun x s => s.finishDesc qpn x (roceRec s x St.hostFault x.done)).modQp qpn fun q => { q with retries := 0 }

/-- One retry, or failure when the retry count is spent. -/
def State.retrySends (qpn : Nat) (s : State) : State :=
  let q := s.qp qpn
  if (outstanding q).isEmpty then s
  else if Config.roceRetries qpn ≤ q.retries then s.failSends qpn
  else (s.modQp qpn fun q => { q with retries := q.retries + 1 }).goBack qpn

/-- Whether a queue pair sends and receives. -/
def roceLive (s : State) (qpn : Nat) : Bool := isRoce (s.qp qpn) && (s.qp qpn).state == .active

/-! ### Congestion (R319) -/

def State.cnp (qpn : Nat) (s : State) : State :=
  if isRoce (s.qp qpn) then s.modQp qpn fun q => { q with halvings := q.halvings + 1 } else s

/-- One eighth of the port rate more, up to the port rate; another 50 µs begin, in which a CNP may leave again. -/
def State.rateRestore (qpn : Nat) (s : State) : State :=
  if isRoce (s.qp qpn) then
    s.modQp qpn fun q =>
      let q := { q with cnpSent := false }
      if 8 * 2 ^ q.halvings ≤ q.rate + 2 ^ q.halvings then { q with rate := 8, halvings := 0 } else { q with rate := q.rate + 2 ^ q.halvings }
  else s

/-- A CE-marked packet is answered with a CNP, once in 50 µs. -/
def State.markCe (qpn : Nat) (k : RocePkt) (s : State) : State :=
  if k.ce && !(s.qp qpn).cnpSent then (s.modQp qpn fun q => { q with cnpSent := true }).rocePkt qpn { op := .cnp } else s

/-! ### Receiving (R320, R355) -/

/-- The posted receive buffer in turn. -/
def nextRecv (q : Qp) : Option DescS := q.recvs.find? fun x => x.held.isNone

/-- The record of a RECV. -/
def recvRec (s : State) (status done imm : Nat) : Rec :=
  let r := nowRec s status done
  { r with flags := r.flags + Fl.imm, wver := imm }

/-- What a request does with its data: done, later, or refused. -/
inductive Served where
  | done | later | refused
  deriving DecidableEq, Repr

/-- Payload stored into a range under a key. -/
def State.storeUnder (ctx key addr right : Nat) (bs : List Byte) (s : State) : Served × State :=
  if bs = [] then (.done, s)
  else if !keyGives s ctx key addr bs.length (some right) then (.refused, s)
  else
    let r := s.writeDva ctx addr bs
    match r.1 with
    | .ok () => (.done, r.2)
    | .error .waits => (.later, r.2)
    | .error _ => (.refused, r.2)

/-- A SEND's payload goes to the receive buffer in turn; its last packet completes the RECV. -/
def State.serveSend (qpn : Nat) (k : RocePkt) (s : State) : Served × State :=
  let q := s.qp qpn
  match nextRecv q with
  | none => (.later, s)
  | some x =>
    if rLen x.raw < x.done + k.payload.length then (.refused, s.finishDesc qpn x (recvRec s St.hostFault x.done 0))
    else
      let r := s.storeUnder q.ctx (rKey x.raw) (rAddr x.raw + x.done) Rt.localWrite k.payload
      match r.1 with
      | .later => (.later, r.2)
      | .refused => (.refused, r.2.finishDesc qpn x (recvRec s St.hostFault x.done 0))
      | .done =>
        let n := x.done + k.payload.length
        let s := r.2.modDesc qpn x.idx fun y => { y with done := n }
        (.done, if k.last then s.doneDesc qpn x (recvRec s St.ok n k.imm) else s)

/-- A WRITE's payload goes to its address; the last packet of one with immediate completes a RECV. -/
def State.serveWrite (qpn : Nat) (k : RocePkt) (s : State) : Served × State :=
  let q := s.qp qpn
  let imm := k.op == .writeImm && k.last
  match imm, nextRecv q with
  | true, none => (.later, s)
  | _, x =>
    let r := s.storeUnder q.ctx k.key k.addr Rt.remoteWrite k.payload
    match r.1, imm, x with
    | .done, true, some x => (.done, r.2.doneDesc qpn x (recvRec s St.ok k.len k.imm))
    | a, _, _ => (a, r.2)

/-- A READ request is answered with its data. -/
def State.serveRead (qpn : Nat) (k : RocePkt) (s : State) : Served × State :=
  let q := s.qp qpn
  if k.len ≠ 0 && !keyGives s q.ctx k.key k.addr k.len (some Rt.remoteRead) then (.refused, s)
  else
    let r := s.readDva q.ctx 0 k.addr k.len
    match r.1 with
    | .error .waits => (.later, r.2)
    | .error _ => (.refused, r.2)
    | .ok bs =>
      (.done, r.2.each (List.range (packetsOf qpn k.len)) fun i s =>
        s.rocePkt qpn { op := .readRsp, psn := (k.psn + i) % 2 ^ 24, last := i + 1 == packetsOf qpn k.len, len := k.len,
                        payload := (bs.drop (i * pathMtu qpn)).take (pathMtu qpn) })

def State.serveRequest (qpn : Nat) (k : RocePkt) (s : State) : Served × State :=
  match k.op with
  | .send | .sendImm => s.serveSend qpn k
  | .write | .writeImm => s.serveWrite qpn k
  | _ => s.serveRead qpn k

/-- A request of the reliable transport: in order it is served and acknowledged, a repeated one is acknowledged again (a READ is answered
again), one ahead of its turn or without a buffer is asked for again. -/
def State.rcRequest (qpn : Nat) (k : RocePkt) (s : State) : State :=
  let e := (s.qp qpn).epsn
  let reply := fun (op : RoceOp) (n : Nat) (s : State) => s.rocePkt qpn { op := op, psn := n }
  if k.psn = e then
    let r := s.serveRequest qpn k
    let read := k.op == .readReq
    match r.1 with
    | .done =>
      let n := if read then packetsOf qpn k.len else 1
      let s := r.2.modQp qpn fun q => { q with epsn := (e + n) % 2 ^ 24 }
      if read then s else reply .ack k.psn s
    | .later => reply (.nak true) e r.2
    | .refused => reply (.nak false) e r.2
  else if (k.psn + 2 ^ 24 - e) % 2 ^ 24 < 2 ^ 23 then reply (.nak true) e s
  else if k.op = .readReq then (s.serveRead qpn k).2
  else reply .ack ((e + 2 ^ 24 - 1) % 2 ^ 24) s

/-- The response to a READ: its data in order, and the READ's end with the last byte. -/
def State.readResponse (qpn : Nat) (k : RocePkt) (s : State) : State :=
  let q := s.qp qpn
  match (outstanding q).head? with
  | none => s
  | some x =>
    if dtype x.raw ≠ 0x14 ∨ k.psn ≠ (firstPsn qpn q x + x.done / pathMtu qpn) % 2 ^ 24 then s
    else
      let r := s.storeUnder q.ctx (rKey x.raw) (rAddr x.raw + x.done) Rt.localWrite (k.payload.take (rLen x.raw - x.done))
      match r.1 with
      | .later => r.2
      | .refused => r.2.finishDesc qpn x (roceRec s x St.hostFault x.done)
      | .done =>
        let n := min (rLen x.raw) (x.done + k.payload.length)
        let s := (r.2.modDesc qpn x.idx fun y => { y with done := n }).modQp qpn fun q => { q with retries := 0 }
        if rLen x.raw ≤ n then s.doneDesc qpn x (roceRec s x St.ok n) else s

/-- ROCE_PACKET. Inbound bytes are charged to the queue pair's class whatever its tally (R39). -/
def State.rocePacket (p : Nat) (k : RocePkt) (s : State) : State :=
  let qpn := k.qpn
  if !roceLive s qpn ∨ (s.qp qpn).port ≠ p then s
  else
    let s := (s.charge (s.qp qpn).cls { link := k.payload.length + Config.roceOverhead }).markCe qpn k
    match k.op with
    | .cnp => s.cnp qpn
    | .ack => (((s.modQp qpn fun q => { q with retries := 0 }).roceAck qpn ((k.psn + 1) % 2 ^ 24))).startSends qpn
    | .nak true => (s.roceAck qpn k.psn).retrySends qpn
    | .nak false => (s.roceAck qpn k.psn).failSends qpn
    | .readRsp => (s.readResponse qpn k).startSends qpn
    | .send | .sendImm | .write | .writeImm | .readReq =>
      if (s.qp qpn).typ = 4 then s.rcRequest qpn k
      else if k.op = .send ∧ k.last then (s.serveSend qpn k).2
      else s

/-! ### The receive queue -/

/-- The index that names an entry of the RQ. -/
def rqIdx (i : Nat) : Nat := 2 ^ 32 + i

/-- A RECV is fetched from the RQ and posted. -/
def State.recvDesc (qpn : Nat) (d : BitVec 512) (s : State) : State :=
  let q := s.qp qpn
  if dtype d ≠ 0x18 ∨ !isRoce q ∨ q.rqHead = q.rqTail ∨ !fetching s qpn then s
  else
    let x : DescS := { idx := rqIdx q.rqHead, raw := d, gen := (s.tkey q.ctx).gen }
    let s := (s.modQp qpn fun q => { q with rqHead := idxAdd q.rqHead 1, recvs := q.recvs ++ [x] }).charge q.cls { link := 64 }
    match fetchBad s q (headOk d && rLen d ≤ 2 ^ 31 && dAt d 32 32 == 0) with
    | some st => s.finishDesc qpn x (nowRec s st 0)
    | none => s

/-! ### The commands -/

/-- ROCE_PACKET (R320). -/
def execRocePacket (p : Nat) (k : RocePkt) (s : State) : Host.Outcome State Fault Refusal := act (okPort p) s (s.rocePacket p k)

/-- CNP (R319). -/
def execCnp (qpn : Nat) (s : State) : Host.Outcome State Fault Refusal := act (okQpn qpn) s (s.cnp qpn)

/-- ROCE_RATE_RESTORE (R319). -/
def execRoceRateRestore (qpn : Nat) (s : State) : Host.Outcome State Fault Refusal := act (okQpn qpn) s (s.rateRestore qpn)

/-- ROCE_ACK_TIMEOUT (R320). -/
def execRoceAckTimeout (qpn : Nat) (s : State) : Host.Outcome State Fault Refusal :=
  act (okQpn qpn) s (if roceLive s qpn then s.retrySends qpn else s)

/-- SEND (R355). -/
def execSend (qpn : Nat) (d : BitVec 512) (s : State) : Host.Outcome State Fault Refusal := act (okQpn qpn) s (s.sendDesc 0x10 qpn d)

/-- SEND_WITH_IMMEDIATE (R355). -/
def execSendWithImmediate (qpn : Nat) (d : BitVec 512) (s : State) : Host.Outcome State Fault Refusal := act (okQpn qpn) s (s.sendDesc 0x11 qpn d)

/-- RDMA_WRITE (R355). -/
def execRdmaWrite (qpn : Nat) (d : BitVec 512) (s : State) : Host.Outcome State Fault Refusal := act (okQpn qpn) s (s.sendDesc 0x12 qpn d)

/-- RDMA_WRITE_WITH_IMMEDIATE (R355). -/
def execRdmaWriteWithImmediate (qpn : Nat) (d : BitVec 512) (s : State) : Host.Outcome State Fault Refusal :=
  act (okQpn qpn) s (s.sendDesc 0x13 qpn d)

/-- RDMA_READ (R355). -/
def execRdmaRead (qpn : Nat) (d : BitVec 512) (s : State) : Host.Outcome State Fault Refusal := act (okQpn qpn) s (s.sendDesc 0x14 qpn d)

/-- RECV (R355). -/
def execRecv (qpn : Nat) (d : BitVec 512) (s : State) : Host.Outcome State Fault Refusal := act (okQpn qpn) s (s.recvDesc qpn d)

end Sys2Proof.Machine
end

