-- ==== Sys2Proof/Machine/QueueCmds.lean ====
section
/-! DEFINITION. The queue command group (R365, layouts R382): blocks and queue pairs (R344, R345, R347), lost records (R364), event rings
(R360), apertures (R342, R343), memory regions and address handles (R355). -/

namespace Sys2Proof.Machine

/-! ### Free choices and completions -/

/-- The first index below `n` from `start` on, round the end, that satisfies `p`: where the choice of an object is the device's. -/
def searchFrom (n start : Nat) (p : Nat → Bool) : Option Nat :=
  (List.range n).findSome? fun i => let k := (start + i) % n; if p k then some k else none

/-- A queue pair becomes FREE; its shadow ring's frames leave. -/
def State.freeQueue (qpn : Nat) (s : State) : State :=
  (s.each (s.qp qpn).shadowFrames fun f s => s.zeroFrame f).modQp qpn fun _ => {}

/-- QP_DESTROY completes when the queue pair's work has (R365). -/
def State.finishDestroy (qpn : Nat) (s : State) : State :=
  let q := s.qp qpn
  match q.destroy with
  | none => s
  | some n => if q.descs.isEmpty ∧ q.held.isEmpty then (s.freeQueue qpn).finalRecord n St.ok 0 else s

/-- Whether a memory region has accesses in flight. -/
def regionBusy (s : State) (i : Nat) : Bool :=
  s.host.qps.any fun p => isRoce p.2 && ((outstanding p.2).any (fun x => rKey x.raw / 256 == i)
    || p.2.recvs.any fun x => x.done != 0 && rKey x.raw / 256 == i)

/-- MR_DEREGISTER completes when the region's accesses in flight have. The tag of its index stays. -/
def State.finishDereg (i : Nat) (s : State) : State :=
  let m := look {} s.host.mrs i
  match m.dereg with
  | none => s
  | some n =>
    if regionBusy s i then s
    else ({ s with host := { s.host with mrs := store {} s.host.mrs i { tag := m.tag } } }).finalRecord n St.ok 0

/-- APERTURE_UNBIND completes: every request that was accepted is a step that is over. -/
def State.finishUnbind (i : Nat) (s : State) : State :=
  match (aper s i).unbind with
  | none => s
  | some n => ({ s with host := { s.host with apers := drop s.host.apers i } }).finalRecord n St.ok 0

/-- The descriptor whose write a re-delivered record repeats, and how many bytes (R364). -/
def repeatOf (s : State) (qpn idx : Nat) (r : Rec) : Option (BitVec 512 × Nat) :=
  ((s.qp qpn).copies.find? fun x => x.1 == idx).map fun x =>
    (x.2, if dtype x.2 = 1 then r.progress else r.progress * ((planAt s (s.qp qpn).ctx (dAt x.2 24 8)).map Plan.outRec).getD 0)

/-- That write, from device memory as it stands. -/
def State.repeatWrite (qpn idx : Nat) (r : Rec) (s : State) : State :=
  match repeatOf s qpn idx r with
  | none => s
  | some (d, n) =>
    if n = 0 then s
    else
      let tgt := if dtype d = 1 then copyDst d else dAt d 56 8
      let x := s.readDva (s.qp qpn).ctx 0 (if dtype d = 1 then copySrc d else dAt d 48 8) n
      match x.1 with
      | .ok bs => (x.2.translate qpn tgt n).emit (.hostWrite qpn tgt bs)
      | .error _ => x.2

/-- The shadow records of a queue pair from an index on, in index order. -/
def shadowFrom (q : Qp) (first : Nat) : List (Nat × Rec) :=
  (List.range (idxSub q.cqTail first)).map fun i => (idxAdd first i, look {} q.shadow (idxAdd first i % 2 ^ q.logCq))

/-- The bytes that a re-delivery moves beside its records. -/
def repeatBytes (s : State) (qpn first : Nat) : Nat :=
  ((shadowFrom (s.qp qpn) first).map fun x => (repeatOf s qpn x.1 x.2).elim 0 Prod.snd).sum

/-- A re-delivery that has lost the host ends with a status. -/
def State.dropRedeliver (qpn status : Nat) (s : State) : State :=
  match (s.qp qpn).redeliver with
  | none => s
  | some (n, _) => ((s.modQp qpn fun q => { q with redeliver := none }).dropMove (.redeliver qpn)).finalRecord n status 0

/-- QP_REDELIVER: the shadow records from an index on, in index order, each after its copy, with REDELIVERED (R364), once the copies' units
are admitted (R353). -/
def State.finishRedeliver (qpn : Nat) (s : State) : State :=
  let q := s.qp qpn
  match q.redeliver with
  | none => s
  | some (n, first) =>
    if q.state ≠ .active ∨ !hostOk s (qpFn s qpn) then s.dropRedeliver qpn St.hostLost
    else if moveLeft s (.redeliver qpn) ≠ 0 then s
    else
      let s := s.each (shadowFrom q first) fun x s =>
        let r := { x.2 with flags := x.2.flags ||| Fl.redelivered }
        ((s.repeatWrite qpn x.1 r).sendRec qpn x.1 r).modQp qpn fun q =>
          { q with shadow := store {} q.shadow (x.1 % 2 ^ q.logCq) r, und := q.und.filter fun y => y != x.1 }
      (s.modQp qpn fun q => { q with redeliver := none }).finalRecord n St.ok (idxSub q.cqTail first)

/-- What the queue commands owe and can now complete. -/
def State.finishQueues (s : State) : State :=
  let s := s.each (keysWhere s.host.qps fun _ q => q.redeliver.isSome) fun q s => s.finishRedeliver q
  let s := s.each (keysWhere s.host.apers fun _ a => a.unbind.isSome) fun i s => s.finishUnbind i
  let s := s.each (keysWhere s.host.mrs fun _ m => m.dereg.isSome) fun i s => s.finishDereg i
  s.each (keysWhere s.host.qps fun _ q => q.destroy.isSome) fun q s => s.finishDestroy q

/-! ### Blocks (R344) -/

/-- QP_BLOCK_ALLOC. Which run of free blocks is the device's choice. -/
def blockAlloc (q : Req) (s : State) : Reply × State :=
  let ctx := q.at 0 2
  let n := q.at 2 2
  let x := s.fresh
  let run := searchFrom 4096 x.1 fun b => decide (b + n ≤ 4096) && (List.range n).all fun i => (blockOwner s (b + i)).isNone
  checked [((notActive s ctx).isSome, fail ((notActive s ctx).getD 0)), (n == 0, badField 2), (run.isNone, fail St.noQpBlock)]
    (let b := run.getD 0
     (answerOf 2 b, x.2.each (List.range n) fun i s => { s with host := { s.host with blocks := store 0 s.host.blocks (b + i) (ctx + 1) } })) s

def blocksOwned (s : State) (q : Req) : Bool := (List.range (q.at 2 2)).all fun i => blockOwner s (q.at 0 2 + i) == some q.ctx

/-- QP_BLOCK_FREE. -/
def blockFree (q : Req) (s : State) : Reply × State :=
  let b := q.at 0 2
  let n := q.at 2 2
  checked [(n == 0 || decide (4096 < b + n), badField 2),
      ((List.range n).any (fun i => (blockOwner s (b + i)).isNone), fail St.qpInvalid),
      (s.host.qps.any (fun p => decide (b ≤ p.1 / 64) && decide (p.1 / 64 < b + n) && p.2.state != .free), fail St.qpState)]
    ({}, s.each (List.range n) fun i s => { s with host := { s.host with blocks := drop s.host.blocks (b + i) } }) s

/-! ### Queue pairs (R344, R345, R347) -/

/-- The classes that a queue pair type allows. -/
def classOk (typ cls : Nat) : Bool := if typ = 3 then cls == 0 else [0, 1, 3, 4, 7].contains cls

def logOk (n : Nat) : Bool := 6 ≤ n && n ≤ 16

/-- What refuses QP_CREATE, in the order of R344. -/
def createBad (q : Req) (s : State) : List (Bool × Reply) :=
  let n := q.at 0 4
  let typ := q.at 4 1
  let roce := typ == 4 || typ == 5
  let port := bits (q.at 11 1) 0 4
  let bad := fail St.qpInvalid
  [(decide (262144 ≤ n) || blockOwner s (n / 64) != some q.ctx || (s.qp n).state != .free, bad),
   (decide (5 < typ) || !classOk typ (q.at 5 1), bad), (!logOk (q.at 6 1) || !logOk (q.at 7 1) || decide (q.at 7 1 < q.at 6 1), bad),
   (roce && (!logOk (q.at 8 1) || q.at 32 8 % 4096 != 0 || decide (12 ≤ port) || decide (4 ≤ bits (q.at 11 1) 4 4)), bad),
   (decide (16 ≤ q.at 9 1) || q.at 16 8 % 4096 != 0 || q.at 24 8 % 4096 != 0, bad),
   ((notActive s q.ctx).isSome, fail ((notActive s q.ctx).getD 0)),
   (!hasRoom s q.ctx 1, fail St.quotaExceeded), (roce && (s.ctx q.ctx).denyRoce, fail St.notPrivileged)]

/-- QP_CREATE: refused, created, or none while the shadow ring's frame is not FREE yet (R222). -/
def qpCreate (q : Req) (s : State) : Option (Reply × State) :=
  match (createBad q s).find? fun x => x.1 with
  | some x => some (x.2, s)
  | none =>
    (pickFrame s 15 0).map fun f =>
      let p := q.at 11 1
      let x : Qp := {
        state := .active, ctx := q.ctx, typ := q.at 4 1, cls := q.at 5 1, logSq := q.at 6 1, logCq := q.at 7 1, logRq := q.at 8 1
        ring := q.at 9 1, ats := q.bit 10 0, port := bits p 0 4, sub := bits p 4 4, sqBase := q.at 16 8, cqBase := q.at 24 8
        rqBase := q.at 32 8, shadowFrames := [f] }
      ({}, (s.takeFrame f { state := .resident, ctx := q.ctx, key := q.ctx, fixedPins := 1 }).modQp (q.at 0 4) fun _ => x)

/-- A queue pair that a command names belongs to the caller; one that is absent belongs to nobody. -/
def ownsQp (s : State) (q : Req) : Bool := (blockOwner s (q.at 0 4 / 64)).elim true fun c => c == q.ctx

def qpGone (s : State) (q : Req) : Bool × Reply :=
  (decide (262144 ≤ q.at 0 4) || (s.qp (q.at 0 4)).state == .free, fail St.qpInvalid)

/-- QP_DESTROY. A queue pair that firmware holds for a Wale flow is not the driver's to destroy. -/
def qpDestroy (q : Req) (s : State) : Reply × State :=
  let x := s.qp (q.at 0 4)
  checked [qpGone s q, (x.typ == 6 || x.destroy.isSome, fail St.qpState)]
    (pendingReply, s.modQp (q.at 0 4) fun x => { x with destroy := some q.note }) s

def qStateCode (x : QState) : Nat :=
  match x with | .free => 0 | .active => 1 | .hostLost => 2 | .error => 3 | .revoked => 4

/-- QP_QUERY. -/
def qpQuery (q : Req) (s : State) : Reply × State :=
  let n := q.at 0 4
  let x := s.qp n
  let engine := if x.typ ≤ 3 then engineOf n x.typ else 0
  checked [qpGone s q]
    (answerOf 16 (pack [(0, 8, qStateCode x.state), (8, 8, x.typ), (16, 8, engine), (32, 32, x.fetched), (64, 32, x.sqTail), (96, 32, x.cqTail)]), s) s

/-- QP_REARM. -/
def qpRearm (q : Req) (s : State) : Reply × State :=
  let x := s.qp (q.at 0 4)
  let fresh := q.bit 4 0
  checked [qpGone s q, (x.state != .error && x.state != .hostLost, fail St.qpState),
      (fresh && q.at 8 8 % 4096 != 0, badField 8), (fresh && q.at 16 8 % 4096 != 0, badField 16)]
    ({}, s.modQp (q.at 0 4) fun x => { x with
      state := .active, sqBase := if fresh then q.at 8 8 else x.sqBase, cqBase := if fresh then q.at 16 8 else x.cqBase }) s

/-- The oldest undelivered record. -/
def firstUnd (x : Qp) : Nat := x.und.head?.getD x.cqTail

/-- QP_UNDELIVERED. -/
def qpUndelivered (q : Req) (s : State) : Reply × State :=
  let x := s.qp (q.at 0 4)
  checked [qpGone s q] (answerOf 12 (pack [(0, 32, firstUnd x), (32, 32, idxSub x.cqTail (firstUnd x)), (64, 32, x.fetched)]), s) s

/-- QP_REDELIVER. -/
def qpRedeliver (q : Req) (s : State) : Reply × State :=
  let x := s.qp (q.at 0 4)
  let back := idxSub x.cqTail (q.at 4 4)
  checked [qpGone s q, (x.state != .active || x.redeliver.isSome, fail St.qpState), (decide (2 ^ x.logCq < back), fail St.redeliveryGone),
      (decide (idxSub x.cqTail (firstUnd x) < back), badField 4)]
    (pendingReply, (s.modQp (q.at 0 4) fun x => { x with redeliver := some (q.note, q.at 4 4) }).pushMove
      { what := .redeliver (q.at 0 4), cls := x.cls, bytes := repeatBytes s (q.at 0 4) (q.at 4 4) }) s

/-! ### Event rings and apertures (R342, R343, R360) -/

/-- EVENT_RING_SET: a ring of the caller's function; its indices begin at 0. -/
def ringSet (q : Req) (s : State) : Reply × State :=
  let fn := (s.ctx q.ctx).func
  checked [(decide (16 ≤ q.at 0 1), badField 0), (!logOk (q.at 1 1), badField 1),
      (decide ((if fn = 0 then 256 else 14) ≤ q.at 2 2), badField 2), (decide (1023 < q.at 4 2), badField 4), (q.at 8 8 % 4096 != 0, badField 8)]
    ({}, s.modRing fn (q.at 0 1) fun _ => { set := true, base := q.at 8 8, log := q.at 1 1, vector := q.at 2 2, modUs := q.at 4 2 }) s

/-- APERTURE_BIND: a debug grant lets context 0 bind an aperture to its context (R417). -/
def aperBind (q : Req) (s : State) : Reply × State :=
  let i := q.at 0 1
  let ctx := q.at 2 2
  let dva := q.at 8 8
  let len := q.at 16 8
  let may := if q.ctx = 0 then ctx == 0 || s.lid.grants.any fun g => g.ctx == ctx && g.dbg else (s.ctx ctx).hostWindow
  checked [((notActive s ctx).isSome, fail ((notActive s ctx).getD 0)), (!may, fail St.notPrivileged), (decide (64 ≤ i), badField 0),
      (decide (8 ≤ q.at 1 1), badField 1), (dva % frameBytes != 0 || decide (2 ^ 46 < dva + len), badField 8),
      (len == 0 || decide (aperSize s < len), badField 16), ((aper s i).bound, fail St.apertureBusy)]
    (let a : Aper := { bound := true, ctx := ctx, dva := dva, len := len, ro := q.bit 4 0, cls := q.at 1 1
                       rid := if q.bit 4 1 then some (q.at 6 2) else none }
     ({}, { s with host := { s.host with apers := store {} s.host.apers i a } })) s

def ownsAper (s : State) (q : Req) : Bool := !(aper s (q.at 0 1)).bound || (aper s (q.at 0 1)).ctx == q.ctx

/-- APERTURE_UNBIND. -/
def aperUnbind (q : Req) (s : State) : Reply × State :=
  let a := aper s (q.at 0 1)
  checked [(!a.bound, badField 0)]
    (pendingReply, { s with host := { s.host with apers := store {} s.host.apers (q.at 0 1) { a with unbind := some q.note } } }) s

/-! ### Memory regions and address handles (R355) -/

/-- MR_REGISTER. Which free index is the device's choice; its tag advances. -/
def mrRegister (q : Req) (s : State) : Reply × State :=
  let dva := q.at 0 8
  let len := q.at 8 4
  let x := s.fresh
  let i := searchFrom 65536 x.1 fun i => !(look {} s.host.mrs i).set
  checked [((notActive s q.ctx).isSome, fail ((notActive s q.ctx).getD 0)), (dva % 4096 != 0, badField 0),
      (decide (2 ^ 46 < dva + len), fail St.addrInvalid), (len == 0 || len % 4096 != 0 || decide (2 ^ 31 < len), badField 8),
      (i.isNone, fail St.quotaExceeded)]
    (let i := i.getD 0
     let m : Mr := { set := true, tag := ((look {} s.host.mrs i).tag + 1) % 256, ctx := q.ctx, dva := dva, len := len, rights := bits (q.at 12 1) 0 3 }
     (answerOf 4 (i * 256 + m.tag), { x.2 with host := { x.2.host with mrs := store {} x.2.host.mrs i m } })) s

def ownsMr (s : State) (q : Req) : Bool := let m := look {} s.host.mrs (q.at 0 4 / 256); !m.set || m.ctx == q.ctx

/-- MR_DEREGISTER. -/
def mrDeregister (q : Req) (s : State) : Reply × State :=
  let m := look {} s.host.mrs (q.at 0 4 / 256)
  checked [(!m.set || m.tag != q.at 0 4 % 256 || m.dereg.isSome, badField 0)]
    (pendingReply, { s with host := { s.host with mrs := store {} s.host.mrs (q.at 0 4 / 256) { m with dereg := some q.note } } }) s

/-- AH_SET: an address handle of the caller's context. -/
def ahSet (q : Req) (s : State) : Reply × State :=
  let p := q.at 2 1
  checked [(decide (12 ≤ p), badField 2), (decide (4 ≤ q.at 3 1), badField 3)]
    (let a : Ah := { set := true, port := p, sub := q.at 3 1, ip := q.at 4 16, mac := q.at 20 6 }
     ({}, { s with host := { s.host with ahs := store {} s.host.ahs (65536 * q.ctx + q.at 0 2) a } })) s

/-! ### The commands -/

/-- The checks of R376 pass and QP_CREATE waits for a FREE frame (R222). -/
def createWaits (l : Layout) (ch : Nat) (s : State) : Bool :=
  let c := s.chan ch
  let r := reqNat c
  let q := reqOf c r
  chanState c == Ch.busy && bytesAt r 0 2 == l.op && turnOf s ch l.op && (checkReq s l true (ownsQp s) c q r).isNone
    && ((qpCreate q s).isNone || (((createBad q s).all fun x => !x.1) && behind s (.cmd ch)))

def createLayout : Layout :=
  { op := 0x0303, len := 40, fields := [fBytes 0 4, fBytes 4 1, fBytes 5 1, fBytes 6 1, fBytes 7 1, fBytes 8 1, fBytes 9 1, fBits 10 1, fBytes 11 1,
      fBytes 16 8, fBytes 24 8, fBytes 32 8]
    absent := fun s q => (q.at 4 1 == 4 || q.at 4 1 == 5) && portAbsent s (bits (q.at 11 1) 0 4) }

def qpBlockAllocLayout : Layout := { op := 0x0301, len := 4, fields := [(0, 12), fBytes 2 2] }

/-- QP_BLOCK_ALLOC (R344, R382). -/
def execQpBlockAlloc (ch : Nat) (s : State) : Host.Outcome State Fault Refusal :=
  act (okChan ch) s (s.command qpBlockAllocLayout true (ownsCtx 0) blockAlloc ch)

def qpBlockFreeLayout : Layout := { op := 0x0302, len := 4, fields := [fBytes 0 2, fBytes 2 2] }

/-- QP_BLOCK_FREE (R365, R382). -/
def execQpBlockFree (ch : Nat) (s : State) : Host.Outcome State Fault Refusal :=
  act (okChan ch) s (s.command qpBlockFreeLayout true (blocksOwned s) blockFree ch)

/-- QP_CREATE (R344, R382). -/
def execQpCreate (ch : Nat) (s : State) : Host.Outcome State Fault Refusal :=
  act (okChan ch) s (if createWaits createLayout ch s then s.waitFrame (.cmd ch)
    else (s.command createLayout true (ownsQp s) (fun q s => (qpCreate q s).getD ({}, s)) ch).dropWait (.cmd ch))

def qpDestroyLayout : Layout := { op := 0x0304, len := 4, long := true, fields := [fBytes 0 4] }

/-- QP_DESTROY (R365, R382). -/
def execQpDestroy (ch : Nat) (s : State) : Host.Outcome State Fault Refusal :=
  act (okChan ch) s (s.command qpDestroyLayout true (ownsQp s) qpDestroy ch).finishQueues

def qpQueryLayout : Layout := { op := 0x0305, len := 4, fields := [fBytes 0 4] }

/-- QP_QUERY (R365, R382). -/
def execQpQuery (ch : Nat) (s : State) : Host.Outcome State Fault Refusal :=
  act (okChan ch) s (s.command qpQueryLayout true (ownsQp s) qpQuery ch)

def qpRearmLayout : Layout := { op := 0x0306, len := 24, fields := [fBytes 0 4, fBits 4 1, fBytes 8 8, fBytes 16 8] }

/-- QP_REARM (R364, R382). -/
def execQpRearm (ch : Nat) (s : State) : Host.Outcome State Fault Refusal :=
  act (okChan ch) s (s.command qpRearmLayout true (ownsQp s) qpRearm ch)

def qpUndeliveredLayout : Layout := { op := 0x0307, len := 4, fields := [fBytes 0 4] }

/-- QP_UNDELIVERED (R364, R382). -/
def execQpUndelivered (ch : Nat) (s : State) : Host.Outcome State Fault Refusal :=
  act (okChan ch) s (s.command qpUndeliveredLayout true (ownsQp s) qpUndelivered ch)

def qpRedeliverLayout : Layout := { op := 0x0308, len := 8, long := true, fields := [fBytes 0 4, fBytes 4 4] }

/-- QP_REDELIVER (R364, R382). -/
def execQpRedeliver (ch : Nat) (s : State) : Host.Outcome State Fault Refusal :=
  act (okChan ch) s (s.command qpRedeliverLayout true (ownsQp s) qpRedeliver ch).finishQueues

def eventRingSetLayout : Layout := { op := 0x0309, len := 16, fields := [fBytes 0 1, fBytes 1 1, fBytes 2 2, fBytes 4 2, fBytes 8 8] }

/-- EVENT_RING_SET (R360, R382). -/
def execEventRingSet (ch : Nat) (s : State) : Host.Outcome State Fault Refusal :=
  act (okChan ch) s (s.command eventRingSetLayout true ownsAny ringSet ch)

def apertureBindLayout : Layout :=
  { op := 0x030A, len := 24,
    fields := [fBytes 0 1, fBytes 1 1, (16, 12), fBits 4 2, fBytes 6 2, fBytes 8 8, fBytes 16 8] }

/-- APERTURE_BIND (R342, R382). -/
def execApertureBind (ch : Nat) (s : State) : Host.Outcome State Fault Refusal :=
  act (okChan ch) s (s.command apertureBindLayout true (ownsCtx 2) aperBind ch)

def apertureUnbindLayout : Layout := { op := 0x030B, len := 1, long := true, fields := [fBytes 0 1] }

/-- APERTURE_UNBIND (R343, R382). -/
def execApertureUnbind (ch : Nat) (s : State) : Host.Outcome State Fault Refusal :=
  act (okChan ch) s (s.command apertureUnbindLayout true (ownsAper s) aperUnbind ch).finishQueues

def mrRegisterLayout : Layout := { op := 0x030C, len := 13, fields := [fBytes 0 8, fBytes 8 4, fBits 12 3] }

/-- MR_REGISTER (R355, R382). -/
def execMrRegister (ch : Nat) (s : State) : Host.Outcome State Fault Refusal :=
  act (okChan ch) s (s.command mrRegisterLayout true ownsAny mrRegister ch)

def mrDeregisterLayout : Layout := { op := 0x030D, len := 4, long := true, fields := [fBytes 0 4] }

/-- MR_DEREGISTER (R365, R382). -/
def execMrDeregister (ch : Nat) (s : State) : Host.Outcome State Fault Refusal :=
  act (okChan ch) s (s.command mrDeregisterLayout true (ownsMr s) mrDeregister ch).finishQueues

def ahSetLayout : Layout :=
  { op := 0x030E, len := 26, fields := [fBytes 0 2, fBytes 2 1, fBytes 3 1, fBytes 4 16, fBytes 20 6]
    absent := fun s q => portAbsent s (q.at 2 1) }

/-- AH_SET (R355, R382). -/
def execAhSet (ch : Nat) (s : State) : Host.Outcome State Fault Refusal :=
  act (okChan ch) s (s.command ahSetLayout true ownsAny ahSet ch)

end Sys2Proof.Machine
end

