-- ==== Sys2Proof/Machine/MemCmds.lean ====
section
/-! DEFINITION. The memory and quota command group (R241), with its layouts (R385). -/

namespace Sys2Proof.Machine

/-- CTX 0xFFF names the commons (R385). -/
def acctOf (c : Nat) : Nat := if c = 0xFFF then commonsAcct else c

/-- The pages of a DVA range of the memory commands, which lies in private space on 2 MiB bounds. -/
def rangeKeys (ctx dva pages : Nat) : List Nat := (List.range pages).map fun i => pteKey ctx (dva / frameBytes + i)

/-- What refuses the PAGES and DVA fields of a command at payload offsets 4 and 8. -/
def rangeBad (q : Req) : List (Bool × Reply) :=
  [(q.at 4 4 == 0, badField 4), (q.at 8 8 % frameBytes != 0, badField 8),
   (decide (2 ^ 46 < q.at 8 8 + q.at 4 4 * frameBytes), fail St.addrInvalid)]

/-- A long command over a range is in progress. -/
def State.addWork (kind : MemWorkKind) (q : Req) (s : State) : State :=
  let w : MemWork := { kind := kind, ctx := q.at 0 2, page := q.at 8 8 / frameBytes, pages := q.at 4 4, note := q.note }
  { s with mem := { s.mem with works := s.mem.works ++ [w] } }

def anyUnmapped (s : State) (keys : List Nat) : Bool := keys.any fun k => !(s.pteAt k).valid

/-! ### Regions and the pool (R205, R206) -/

/-- MEM_REGION_REGISTER. -/
def regionRegister (q : Req) (s : State) : Reply × State :=
  let n := q.at 0 1
  let len := q.at 16 8
  checked [(n == 0 || decide (64 < n), badField 0), (len == 0 || len % frameBytes != 0 || decide (2 ^ 48 < len), fail St.regionInvalid),
      ((region s n).reg, fail St.mapConflict)]
    ({}, { s with mem := { s.mem with regions := store {} s.mem.regions n { reg := true, base := q.at 8 8, len := len, ro := q.bit 1 0 } } }) s

/-- Whether the sources of a build or a generation lie in a space. -/
def sourceIn (s : State) (sp : Nat) : Bool :=
  s.stakes.any fun p => p.2.gens.any fun g =>
    g.2.state != .absent && ([g.2.image, g.2.mirror, g.2.host].any fun a => a != 0 && sdaSpace a == sp)

/-- MEM_REGION_REMOVE. -/
def regionRemove (q : Req) (s : State) : Reply × State :=
  let n := q.at 0 1
  checked [(n == 0 || decide (64 < n), badField 0), (!(region s n).reg, fail St.regionInvalid),
      (spaceUsed s n || sourceIn s n, fail St.mapConflict)]
    ({}, { s with mem := { s.mem with regions := drop s.mem.regions n } }) s

/-- MEM_SLOW_CONFIG (R205, R414). -/
def slowConfig (q : Req) (s : State) : Reply × State :=
  let ways := q.at 0 1
  let map := (List.range ways).map fun i => bits (q.at 1 1) (2 * i) 2
  let base := (List.range ways).map fun i => q.at (8 + 8 * i) 8
  checked [(ways != 1 && ways != 2 && ways != 4, badField 0), (map.eraseDups.length != ways, badField 1),
      (spaceUsed s 0, fail St.mapConflict),
      (map.any (fun p => s.lid.cxlIde.contains p) && !s.lid.plainOk, fail St.linkInsecure)]
    ({}, { s with mem := { s.mem with pool := some { ways := ways, map := map, base := base } } }) s

/-! ### Mapping (R207 to R209, R212, R221, R222, R395) -/

/-- The fields of MEM_MAP. -/
structure MapReq where
  ctx   : Nat
  kind  : Nat
  stack : Nat
  tier  : Nat
  ro    : Bool
  shared : Bool
  movable : Bool
  backed : Bool
  pages : Nat
  dva   : Nat
  sda   : Nat
  src   : Nat
  share : Nat

def mapReq (q : Req) : MapReq :=
  { ctx := q.at 0 2, kind := bits (q.at 2 1) 0 4, stack := bits (q.at 2 1) 4 4, tier := bits (q.at 3 1) 1 2, ro := q.bit 3 3
    shared := q.bit 3 4, movable := q.bit 3 5, backed := q.bit 3 6, pages := q.at 4 4, dva := q.at 8 8, sda := q.at 16 8
    src := q.at 24 8, share := q.at 32 8 }

/-- The root entries that a range needs and the context does not have yet. -/
def newRoots (s : State) (ctx dva pages : Nat) : List Nat :=
  ((List.range pages).map fun i => ctx * 512 + (dva / frameBytes + i) / 65536).eraseDups.filter fun r =>
    s.mem.leaves.all fun x => x.1 != r

/-- A free half of a leaf frame of the context (R207). -/
def freeHalf (s : State) (ctx : Nat) : Option Nat :=
  let mine : List Nat := (s.mem.leaves.filter fun x => x.1 / 512 == ctx).map fun x => x.2
  (mine.find? fun h => !mine.contains (if h % 2 = 0 then h + 1 else h - 1)).map fun h => if h % 2 = 0 then h + 1 else h - 1

/-- A leaf table for a root entry: the free half of a frame of the context, or a new frame of KIND TABLE; none when no frame is FREE. -/
def State.addLeaf (root : Nat) (s : State) : Option State :=
  let ctx := root / 512
  let put := fun (h : Nat) (s : State) => { s with mem := { s.mem with leaves := s.mem.leaves ++ [(root, h)] } }
  match freeHalf s ctx with
  | some h => some (put h s)
  | none =>
    match pickFrame s 15 (root % 512) with
    | none => none
    | some f => some (put (2 * f) (s.takeFrame f { state := .resident, kind := 7, ctx := ctx, key := ctx, page := root % 512 }))

/-- Frames of leaf tables that new root entries need. -/
def leafFrames (s : State) (ctx n : Nat) : Nat := ceilDiv (n - b2n (freeHalf s ctx).isSome) 2

/-- One mapped page; none when its frame is not FREE yet. -/
def State.mapPage (m : MapReq) (i : Nat) (s : State) : Option State :=
  let page := m.dva / frameBytes + i
  let k := pteKey m.ctx page
  let at_ := fun (a : Nat) => if a = 0 then 0 else a + i * frameBytes
  let e : Pte := { valid := true, ro := m.ro, shared := m.shared, movable := m.movable, backed := m.backed && m.tier != 1, kind := m.kind,
                   stack := m.stack, sda := if m.tier = 1 ∨ m.backed then m.sda + i * frameBytes else 0, held := true }
  match m.tier with
  | 0 =>
    (match pickFrame s m.stack page with
    | none => none
    | some f =>
      let x : FrameE := {
        state := if m.src = 0 then .resident else .filling, kind := m.kind, commons := m.shared, movable := m.movable,
        ctx := m.ctx, key := m.ctx, page := page, mapped := true, backed := m.backed, back := e.sda,
        dirty := if m.backed ∧ m.src ≠ m.sda then 2 ^ 32 - 1 else 0,
        fillFrom := if m.src = 0 then none else some (at_ m.src) }
      let s := (s.takeFrame f x).modPte k fun _ => { e with tier := .t1, frame := f, backed := m.backed }
      some (s.moveFrame f (if m.src = 0 then 0 else frameBytes)))
  | 1 => some (s.modPte k fun _ => { e with tier := .t2 })
  | _ => some (s.modPte k fun _ => { e with tier := .zero })

/-- One page of context 0 mapped into a tenant context (R221). -/
def State.sharePage (m : MapReq) (i : Nat) (s : State) : State :=
  let k0 := pteKey 0 (m.share / frameBytes + i)
  let e := s.pteAt k0
  s.modPte (pteKey m.ctx (m.dva / frameBytes + i)) fun _ => { e with ro := true, shared := true, sharedOf := some k0, held := true, epins := [], heat := 0 }

def chain {α : Type} (xs : List α) (f : α → State → Option State) (s : State) : Option State :=
  xs.foldl (fun o x => o.bind (f x)) (some s)

/-- The checks of MEM_MAP. -/
def mapBad (q : Req) (m : MapReq) (s : State) : List (Bool × Reply) :=
  let sdas := (List.range m.pages).map fun i => m.sda + i * frameBytes
  let pays := if m.shared then commonsAcct else m.ctx
  let n1 := if m.tier = 0 then m.pages else 0
  let leaf := leafFrames s m.ctx (newRoots s m.ctx m.dva m.pages).length
  let useSda := m.tier == 1 || m.backed
  let bad := fun (a : Nat) (w : Bool) => ((List.range m.pages).findSome? fun i => sdaBad s (a + i * frameBytes) frameBytes w)
  [((m.shared || m.share != 0) && q.ctx != 0, fail St.adminOnly),
   ((notActive s m.ctx).isSome, fail ((notActive s m.ctx).getD 0)),
   (decide (7 < m.kind) || (decide (8 ≤ m.stack) && m.stack != 15), badField 2), (m.tier == 3, badField 3)]
  ++ [(q.at 4 4 == 0, badField 4), (q.at 8 8 % frameBytes != 0 || decide (2 ^ 46 < q.at 8 8 + q.at 4 4 * frameBytes), badField 8)] ++
  [(m.ctx == 0 && decide (viewBase < m.dva + m.pages * frameBytes), fail St.mapConflict),
   ((rangeKeys m.ctx m.dva m.pages).any (fun k => (s.pteAt k).valid), fail St.mapConflict)]
  ++ (if m.share ≠ 0 then
    [(m.share % frameBytes != 0, badField 32),
     ((rangeKeys 0 m.share m.pages).any (fun k => !(s.pteAt k).valid || !(s.pteAt k).shared), fail St.mapConflict)]
  else
    [(m.movable && m.kind != 0 && m.kind != 1, fail St.mapConflict),
     (m.shared && m.ctx != 0, fail St.mapConflict),
     (useSda && m.sda % frameBytes != 0, badField 16),
     (useSda && (bad m.sda (m.backed && m.tier != 1)).isSome, fail ((bad m.sda (m.backed && m.tier != 1)).getD 0)),
     (m.tier == 1 && !m.ro && (bad m.sda true).isSome, fail ((bad m.sda true).getD 0)),
     (useSda && sdas.any (fun a => sdaUsed s (a / frameBytes)), fail St.mapConflict),
     (m.src != 0 && m.tier != 0, badField 24),
     (m.src != 0 && (bad m.src false).isSome, fail ((bad m.src false).getD 0)),
     ((n1 != 0 && !hasRoom s pays (n1 + if pays = m.ctx then leaf else 0)), fail St.quotaExceeded),
     (useSda && decide ((s.acct pays).q2 < chargedT2 s pays + m.pages), fail St.quotaExceeded)])
  ++ [(leaf != 0 && !hasRoom s m.ctx leaf, fail St.quotaExceeded)]

/-- MEM_MAP: refused, mapped, or none while a frame that it needs is not FREE yet (R222). -/
def memMap (q : Req) (s : State) : Option (Reply × State) :=
  let m := mapReq q
  match (mapBad q m s).find? fun x => x.1 with
  | some x => some (x.2, s)
  | none =>
    ((chain (newRoots s m.ctx m.dva m.pages) State.addLeaf s).bind fun s =>
      if m.share ≠ 0 then some (s.each (List.range m.pages) (State.sharePage m))
      else chain (List.range m.pages) (State.mapPage m) s).map fun s => ({}, s)

/-- MEM_UNMAP (R209, R221). -/
def memUnmap (q : Req) (s : State) : Reply × State :=
  let keys := rangeKeys (q.at 0 2) (q.at 8 8) (q.at 4 4)
  checked (rangeBad q ++ [(anyUnmapped s keys, fail St.addrInvalid),
      (keys.any fun k => (s.pteAt k).shared && (s.pteAt k).sharedOf.isNone && s.mem.pte.any fun p => p.2.sharedOf == some k, fail St.mapConflict)])
    (pendingReply,
      let s := s.each keys State.unmapPage
      s.addWork .unmap q) s

/-! ### Quotas and bounds (R222, R225, R226) -/

/-- The sum of a quota over every account, one of them as the command sets it. -/
def quotaSum (s : State) (a q : Nat) (f : Account → Nat) : Nat :=
  q + ((s.mem.acct.filter fun p => p.1 != a).map fun p => f p.2).sum

def willQ1 (a : Account) : Nat := match a.next with | some n => n.1 | none => a.q1
def willQ2 (a : Account) : Nat := match a.next with | some n => n.2 | none => a.q2

/-- The 2 MiB pages of the pool and the host regions together. -/
def t2Pages (s : State) : Nat := poolBytes s / frameBytes + (s.mem.regions.map fun p => p.2.len / frameBytes).sum

/-- MEM_QUOTA_SET. -/
def quotaSet (q : Req) (s : State) : Reply × State :=
  let a := acctOf (q.at 0 2)
  let q1 := q.at 4 4
  let q2 := q.at 8 4
  let pinned := countTab s.mem.frames fun f e => !frameFree e && ownerOf e == a && pinsOf s f != 0
  checked [(a != commonsAcct && (s.ctx a).state == .free, fail St.ctxInvalid),
      (decide (msdCount s * 24544 < quotaSum s a q1 willQ1) || decide (t2Pages s < quotaSum s a q2 willQ2), fail St.quotaOvercommit),
      (decide (q1 < pinned), fail St.quotaBelowPinned)]
    ({}, s.modAcct a fun x => { x with next := some (q1, q2) }) s

/-- MEM_POLICY_SET. -/
def policySet (q : Req) (s : State) : Reply × State :=
  let a := acctOf (q.at 0 2)
  let hs := q.at 9 1
  checked [((a == commonsAcct || hs != 0) && q.ctx != 0, fail St.adminOnly), (a != commonsAcct && (s.ctx a).state == .free, fail St.ctxInvalid),
      (hs != 0 && (decide (hs < 4) || decide (12 < hs)), badField 9)]
    ({}, let s := s.modAcct a fun x =>
          { x with pol := { x.pol with placeEn := q.bit 2 0, thr := q.at 4 2, hyst := q.at 6 2, moves := q.at 8 1 } }
        { s with mem := { s.mem with heatShift := if hs = 0 then s.mem.heatShift else hs } }) s

/-! ### Evictions, pins, flushes (R216, R218, R219, R232) -/

/-- The frame that decides how an eviction request on a page is taken: where it lies, where it is being moved to, or which it has left. -/
def evictFrame (s : State) (k : Nat) : Option Nat :=
  let e := s.pteAt k
  match e.tier with | .t1 => some e.frame | .t2 => (promoting s k).or (leaving s k) | .zero => none

/-- One page of MEM_EVICT (R216). -/
def State.evictPage (note : Notice) (k : Nat) (s : State) : State :=
  let ctx := k / 2 ^ 25
  let page := k % 2 ^ 25
  match evictFrame s k with
  | none => s.withdraw ctx page
  | some f =>
    let d : DeferReq := { frame := f, ctx := ctx, page := page, note := note }
    let put := fun (s : State) => { s with mem := { s.mem with defers := s.mem.defers ++ [d] } }
    match (s.frame f).state with
    | .filling | .promoting => (put s).modFrame f fun e => { e with defer := true }
    | .evicting | .demoting => (put s).withdraw ctx page
    | _ => s.withdraw ctx page

/-- MEM_EVICT: OK, or PENDING while a page's request is deferred or joins a move. -/
def memEvict (q : Req) (s : State) : Reply × State :=
  let keys := rangeKeys (q.at 0 2) (q.at 8 8) (q.at 4 4)
  checked (rangeBad q ++ [(anyUnmapped s keys, fail St.addrInvalid)])
    (let held := keys.filter fun k => ((evictFrame s k).map fun f =>
        [FState.filling, .promoting, .evicting, .demoting].contains (s.frame f).state).getD false
     let deferred := (keys.filterMap (evictFrame s)).filter fun f => (s.frame f).state == .filling || (s.frame f).state == .promoting
     let t := s.each keys (State.evictPage q.note)
     if held.isEmpty then ({}, t)
     else
      (pendingReply,
        let t := match deferred with
          | [] => t
          | f :: _ => t.modMig (msdOfFrame f) fun m => { m with deferred := sat 16 (m.deferred + 1) }
        t.addWork .evict q)) s

/-- MEM_PIN (R219): one explicit pin of the caller on each page, or one fewer. -/
def memPin (q : Req) (s : State) : Reply × State :=
  let keys := rangeKeys q.ctx (q.at 8 8) (q.at 4 4)
  let set := q.bit 0 0
  checked (rangeBad q ++ [(anyUnmapped s keys, fail St.addrInvalid),
      (!set && keys.any fun k => !(s.pteAt k).epins.contains q.ctx, badField 8)])
    ({}, s.each keys fun k s => s.modPte k fun e =>
      { e with epins := if set then q.ctx :: e.epins else e.epins.erase q.ctx }) s

/-- MEM_FLUSH (R232): the dirty granules of a range are written back. -/
def memFlush (q : Req) (s : State) : Reply × State :=
  let keys := rangeKeys (q.at 0 2) (q.at 8 8) (q.at 4 4)
  checked (rangeBad q ++ [(anyUnmapped s keys, fail St.addrInvalid)])
    (pendingReply,
      let fs := ((keys.filter fun k => (s.pteAt k).tier == .t1).map fun k => (s.pteAt k).frame).eraseDups
      let s := s.each (fs.filter fun f => (s.frame f).backed && (s.frame f).dirty != 0 && !(s.frame f).cleaning && occupied (s.frame f)) State.startPass
      s.addWork .flush q) s

/-! ### Queries (R208, R211, R385) -/

def tierCode (t : Tier) : Nat := match t with | .t1 => 0 | .t2 => 1 | .zero => 2

/-- The 16 bytes of a PTE (R208). -/
def pteBytes (e : Pte) : Nat :=
  if !e.valid then 0
  else pack [(0, 1, 1), (1, 2, tierCode e.tier), (3, 1, b2n e.ro), (4, 1, b2n e.shared), (5, 1, b2n e.movable), (6, 1, b2n e.backed),
    (7, 1, b2n e.poison), (8, 4, e.kind), (12, 4, e.stack), (16, 16, if e.tier = .t2 then e.heat else 0),
    (32, 18, if e.tier = .t1 then e.frame else 0), (64, 64, if e.tier = .t2 ∨ e.backed then e.sda else 0)]

def stateCode (e : FrameE) : Nat :=
  match e.state with
  | .free => 0 | .filling => 1 | .resident => 2 | .dirty => 3 | .evicting => 4 | .promoting => 5 | .demoting => 6

/-- The 32 bytes of a frame table entry (R211). -/
def frameEntry (s : State) (f : Nat) : Nat :=
  let e := s.frame f
  pack [(0, 4, stateCode e), (4, 4, e.kind), (8, 1, b2n e.commons), (9, 1, b2n e.backed), (10, 1, b2n e.movable), (11, 1, b2n e.poison),
    (12, 1, b2n e.defer), (13, 1, b2n e.stakeKey), (16, 12, if e.commons then 0 else e.ctx), (32, 12, e.key), (48, 16, holdersOf s f),
    (64, 16, pinsOf s f), (80, 16, e.heat), (96, 26, e.page), (128, 32, e.dirty), (160, 64, if e.backed then e.back else 0),
    (224, 32, e.lastRnd)]

/-- The 32 bytes of an account record (R385). -/
def acctBytes (s : State) (a : Nat) : Nat :=
  let x := s.acct a
  pack [(0, 32, chargedT1 s a), (32, 32, x.q1), (64, 32, chargedT2 s a), (96, 32, x.q2), (128, 32, x.pol.limQuota), (160, 32, x.pol.limMoves),
    (192, 32, x.pol.limBudget), (224, 32, x.pol.limSpace)]

/-- Records of `n` bytes one after the other. -/
def concat (n : Nat) (xs : List Nat) : Nat := xs.foldr (fun x r => x % 256 ^ n + 256 ^ n * r) 0

/-- MEM_QUERY. -/
def memQuery (q : Req) (s : State) : Reply × State :=
  let c := q.at 0 2
  let mode := q.at 2 1
  let n := q.at 4 4
  let size := if mode = 0 then 16 else 32
  let keys := rangeKeys c (q.at 8 8) n
  if mode = 2 then
    checked [(c == 0xFFF && q.ctx != 0, fail St.adminOnly)] (answerOf 32 (acctBytes s (acctOf c)), s) s
  else
    checked [(decide (2 < mode), badField 2), (decide (4064 < size * n), badField 4), (q.at 8 8 % frameBytes != 0, badField 8),
        (decide (2 ^ 46 < q.at 8 8 + n * frameBytes), fail St.addrInvalid)]
      (answerOf (size * n) (if mode = 0 then concat 16 (keys.map fun k => pteBytes (s.pteAt k))
        else concat 32 (keys.map fun k => if (s.pteAt k).valid ∧ (s.pteAt k).tier = .t1 then frameEntry s (s.pteAt k).frame else 0)), s) s

/-- What MEM_POISON_QUERY lists, in the order of detection: the repairs, active (0) or failed (1), then the poisoned granules for which no repair
is on record (R241). DESIGN CHOICE: the manual gives those no code; they have 2. -/
def poisonList (s : State) : List (Nat × Nat × Nat × Nat) :=
  (s.mem.repairs.map fun r => (r.frame, r.granule, b2n r.failed, r.rnd))
    ++ (s.mem.marks.filter fun m => !s.mem.repairs.any fun r => r.frame == m.1 && r.granule == m.2.1).map fun m => (m.1, m.2.1, 2, m.2.2)

/-- MEM_POISON_QUERY: the caller's entries from an index on. -/
def poisonQuery (q : Req) (s : State) : Reply × State :=
  let rs := (((poisonList s).filter fun x => q.ctx == 0 || (!(s.frame x.1).commons && (s.frame x.1).ctx == q.ctx)).drop (q.at 0 2)).take 254
  (answerOf (16 * rs.length) (concat 16 (rs.map fun x => pack [(0, 32, x.1), (32, 8, x.2.1), (40, 8, x.2.2.1), (64, 64, x.2.2.2)])), s)

/-! ### The commands -/

/-- Whether MEM_MAP, not refused, takes frames. -/
def mapTakes (q : Req) (s : State) : Bool :=
  let m := mapReq q
  ((mapBad q m s).all fun x => !x.1)
    && ((m.share == 0 && m.tier == 0) || leafFrames s m.ctx (newRoots s m.ctx m.dva m.pages).length != 0)

/-- The checks of R376 pass and MEM_MAP waits for a FREE frame, or for its turn (R222). -/
def mapWaits (l : Layout) (owns : Req → Bool) (ch : Nat) (s : State) : Bool :=
  let c := s.chan ch
  let r := reqNat c
  let q := reqOf c r
  chanState c == Ch.busy && bytesAt r 0 2 == l.op && turnOf s ch l.op && (checkReq s l true owns c q r).isNone
    && ((memMap q s).isNone || (mapTakes q s && behind s (.cmd ch)))

def mapLayout : Layout :=
  { op := 0x0604, len := 40, fields := [(0, 12), fBytes 2 1, (25, 6), fBytes 4 4, fBytes 8 8, fBytes 16 8, fBytes 24 8, fBytes 32 8]
    absent := fun s q =>
      let m := mapReq q
      m.share == 0 && (((m.tier == 1 || m.backed) && poolAbsent s m.sda) || (m.src != 0 && poolAbsent s m.src)) }

def rangeFields : List (Nat × Nat) := [(0, 12), fBytes 4 4, fBytes 8 8]

def memRegionRegisterLayout : Layout := { op := 0x0601, len := 24, admin := true, fields := [fBytes 0 1, fBits 1 1, fBytes 8 8, fBytes 16 8] }

/-- MEM_REGION_REGISTER (R206, R385). -/
def execMemRegionRegister (ch : Nat) (s : State) : Host.Outcome State Fault Refusal :=
  act (okChan ch) s (s.command memRegionRegisterLayout true ownsAny regionRegister ch)

def memRegionRemoveLayout : Layout := { op := 0x0602, len := 1, admin := true, fields := [fBytes 0 1] }

/-- MEM_REGION_REMOVE (R206, R385). -/
def execMemRegionRemove (ch : Nat) (s : State) : Host.Outcome State Fault Refusal :=
  act (okChan ch) s (s.command memRegionRemoveLayout true ownsAny regionRemove ch)

def memSlowConfigLayout : Layout := { op := 0x0603, len := 40, admin := true, fields := [fBytes 0 1, fBytes 1 1, fBytes 8 32] }

/-- MEM_SLOW_CONFIG (R205, R385). -/
def execMemSlowConfig (ch : Nat) (s : State) : Host.Outcome State Fault Refusal :=
  act (okChan ch) s (s.command memSlowConfigLayout (s.variant != .c) ownsAny slowConfig ch)

/-- MEM_MAP (R207 to R209, R221, R385). -/
def execMemMap (ch : Nat) (s : State) : Host.Outcome State Fault Refusal :=
  act (okChan ch) s (if mapWaits mapLayout (ownsCtx 0) ch s then s.waitFrame (.cmd ch)
    else (s.command mapLayout true (ownsCtx 0) (fun q s => (memMap q s).getD ({}, s)) ch).dropWait (.cmd ch))

def memUnmapLayout : Layout := { op := 0x0605, len := 16, long := true, fields := rangeFields }

/-- MEM_UNMAP (R209, R385). -/
def execMemUnmap (ch : Nat) (s : State) : Host.Outcome State Fault Refusal :=
  act (okChan ch) s (s.command memUnmapLayout true (ownsCtx 0) memUnmap ch).finishWorks

def memQuotaSetLayout : Layout := { op := 0x0606, len := 12, admin := true, fields := [(0, 12), fBytes 4 4, fBytes 8 4] }

/-- MEM_QUOTA_SET (R222, R385). -/
def execMemQuotaSet (ch : Nat) (s : State) : Host.Outcome State Fault Refusal :=
  act (okChan ch) s (s.command memQuotaSetLayout true ownsAny quotaSet ch)

def memPolicySetLayout : Layout := { op := 0x0607, len := 10, fields := [(0, 12), fBits 2 1, fBytes 4 2, fBytes 6 2, fBytes 8 1, fBytes 9 1] }

/-- MEM_POLICY_SET (R225, R226, R385). -/
def execMemPolicySet (ch : Nat) (s : State) : Host.Outcome State Fault Refusal :=
  act (okChan ch) s (s.command memPolicySetLayout true (fun q => q.at 0 2 == q.ctx || q.at 0 2 == 0xFFF) policySet ch)

def memEvictLayout : Layout := { op := 0x0608, len := 16, long := true, fields := rangeFields }

/-- MEM_EVICT (R216, R218, R385). -/
def execMemEvict (ch : Nat) (s : State) : Host.Outcome State Fault Refusal :=
  act (okChan ch) s (s.command memEvictLayout true (ownsCtx 0) memEvict ch)

def memPinLayout : Layout := { op := 0x0609, len := 16, fields := [fBits 0 1, fBytes 4 4, fBytes 8 8] }

/-- MEM_PIN (R219, R385). -/
def execMemPin (ch : Nat) (s : State) : Host.Outcome State Fault Refusal :=
  act (okChan ch) s (s.command memPinLayout true ownsAny memPin ch)

def memFlushLayout : Layout := { op := 0x060A, len := 16, long := true, fields := rangeFields }

/-- MEM_FLUSH (R232, R385). -/
def execMemFlush (ch : Nat) (s : State) : Host.Outcome State Fault Refusal :=
  act (okChan ch) s (s.command memFlushLayout true (ownsCtx 0) memFlush ch).finishWorks

def memQueryLayout : Layout := { op := 0x060B, len := 16, fields := [(0, 12), fBytes 2 1, fBytes 4 4, fBytes 8 8] }

/-- MEM_QUERY (R385). -/
def execMemQuery (ch : Nat) (s : State) : Host.Outcome State Fault Refusal :=
  act (okChan ch) s (s.command memQueryLayout true (fun q => q.at 0 2 == q.ctx || q.at 0 2 == 0xFFF) memQuery ch)

def memPoisonQueryLayout : Layout := { op := 0x060C, len := 2, fields := [fBytes 0 2] }

/-- MEM_POISON_QUERY (R385). -/
def execMemPoisonQuery (ch : Nat) (s : State) : Host.Outcome State Fault Refusal :=
  act (okChan ch) s (s.command memPoisonQueryLayout true ownsAny poisonQuery ch)

end Sys2Proof.Machine
end

