-- ==== Sys2Proof/Machine/Serve.lean ====
section
/-! DEFINITION. SERVE: the descriptor's fields, the session, stake set and weaver checks, and the waiting sequence (R351, R135, R152,
R197, R486). -/

namespace Sys2Proof.Machine

/-- The sequence that a SERVE descriptor submits. -/
def seqOf (s : State) (qpn : Nat) (x : DescS) : Seq :=
  let d := x.raw
  let fl := dAt d 19 1
  { qpn := qpn, idx := x.idx, tag := jobTag d, ctx := (s.qp qpn).ctx
    handle := if bit fl 0 then none else some (dAt d 16 2)
    sid := dAt d 18 1, session := dAt d 20 4, oneShot := bit fl 1 && bit fl 2, opens := bit fl 1, closes := bit fl 2
    plan := dAt d 24 8, inp := dAt d 32 8, nin := dAt d 40 4, maxtok := dAt d 44 4, out := dAt d 48 8, hostout := dAt d 56 8
    fence := bit (dflags d) 0, order := s.crs.order, produced := 0, parked := 0, parkRounds := 0, carried := false, gone := false }

/-- Whether a range with its offset in its first page fits the view's slot (R486). -/
def viewFits (a n : Nat) : Bool := decide (a % frameBytes + n ≤ 2 ^ 30)

/-- The descriptor's own limits. -/
def serveOk (s : State) (d : BitVec 512) (q : Qp) : Bool :=
  let p := planAt s q.ctx (dAt d 24 8)
  q.typ == 3 && headOk d && dAt d 19 1 < 8
    && 1 ≤ dAt d 40 4 && dAt d 40 4 ≤ 2 ^ 20 && 1 ≤ dAt d 44 4 && dAt d 44 4 ≤ 2 ^ 20
    && p.all fun p => viewFits (dAt d 32 8) (dAt d 40 4 * p.inRec) && viewFits (dAt d 48 8) (dAt d 44 4 * p.outRec)

/-- SESSION_INVALID: the flags against the session as every earlier accepted descriptor leaves it. -/
def sessionBad (s : State) (r : Seq) : Bool :=
  let x := s.session (seqKey r)
  if r.opens then x.accepted else !(x.accepted || x.cut) || x.accHandle != r.handle || x.accSid != r.sid

/-- Whether every one of a weaver's experts has a claim that is not being released, whether or not it is in effect yet (R152). -/
def sideClaimed (s : State) (h : Nat) : Bool :=
  let w := s.weaver h
  !bit w.forms 3 || (moeLayers s w).all fun l => (List.range w.xcount).all fun j => (List.range 16).any fun k =>
    let x := s.side (sideKey l k)
    x.owned && x.releasing.isNone && ((x.owner == h && x.j == j) || (x.sharers ++ x.joining).contains (h, j))

/-- What refuses a sequence after its session, in the order of R351, then R152 and R197. -/
def serveBad (s : State) (r : Seq) : Option Nat :=
  if !(s.stake r.sid).reg then some St.stakeUnknown
  else
    let side := match r.handle with
      | none => none
      | some h =>
        let w := s.weaver h
        if (s.session (seqKey r)).cut && !r.opens then some (removedStatus s h)
        else if w.state = .free ∨ w.ctx ≠ r.ctx ∨ w.sid ≠ r.sid ∨ w.commons then some St.weaverUnknown
        else if w.state = .removing then some (removedStatus s h)
        else if (s.stake r.sid).nonresident then some St.stakeNotResident
        else if !sideClaimed s h then some St.sideIncomplete
        else none
    if side.isSome then side else if (s.stake r.sid).nonresident then some St.stakeNotResident else none

/-- The session as it stands after an accepted descriptor (R351). -/
def State.acceptSession (r : Seq) (s : State) : State :=
  s.modSession (seqKey r) fun x =>
    { x with accepted := !r.closes && !(x.cut && !r.opens), accHandle := r.handle, accSid := r.sid, cut := x.cut && !r.opens }

/-- A sequence is accepted: it waits for courses, its session's turn may open at once, and its weaver is demanded (R135). -/
def State.acceptSeq (r : Seq) (s : State) : State :=
  let s := { s with crs := { s.crs with waiting := s.crs.waiting ++ [r], order := s.crs.order + 1 } }
  let s := (s.acceptSession r).openTurn (seqKey r)
  match r.handle with
  | none => s
  | some h => s.demand h

/-- A fetched SERVE descriptor. One that is refused after its session check still closes the session that it names. -/
def State.serveDesc (qpn : Nat) (d : BitVec 512) (s : State) : State :=
  if dtype d ≠ 2 then s
  else s.fetch qpn d (serveOk s d) fun x s =>
    let r := seqOf s qpn x
    if sessionBad s r then s.endTurn qpn x.idx St.sessionInvalid
    else
      match serveBad s r with
      | none => s.acceptSeq r
      | some st =>
        if r.closes && !r.opens then
          let s := { s with crs := { s.crs with waiting := s.crs.waiting ++ [r], order := s.crs.order + 1 } }
          (s.acceptSession r).dropSeq r st
        else s.endTurn qpn x.idx st

/-- SERVE (R351). -/
def execServe (qpn : Nat) (d : BitVec 512) (s : State) : Host.Outcome State Fault Refusal := act (okQpn qpn) s (s.serveDesc qpn d)

end Sys2Proof.Machine
end

