-- ==== Sys2Proof/Machine/Courses.lean ====
section
/-! DEFINITION. Courses: save images of cells (R76 to R80), placement of sequences (R158, R163, R186), batches and segments (R144 to
R147), what refuses a course (R26, R45, R83, R148, R233, R236, R247), its preparation and start, its checkpoint (R42, R235), replay
(R44, R85), and its end (R162, R239). -/

namespace Sys2Proof.Machine

/-! ### Cell save images (R78) -/

def liveMask {α : Type} (t : Tab α) (n : Nat) (live : α → Bool) : Nat :=
  bitmap n fun k => (t.find? fun p => p.1 == k).elim false fun p => live p.2

/-- The header bytes 0 to 4,091 and the payload of a save image: what CHECK covers. -/
def imageParts (i : SaveImage) : List Byte × List Byte :=
  let slots := i.slots.filter fun p => p.2.live
  let vregs := i.vregs.filter fun p => p.2.live
  let evs := fun (base : Nat) (t : Tab Nat) => (List.range 16).map fun k => ((base + 2 * k, 2, look 0 t k) : Nat × Nat × Nat)
  let head := fieldBytes ([(0, 4, i.tag), (4, 2, i.version), (6, 2, i.ctx), (8, 2, i.lcell), (10, 2, i.fsplit),
    (12, 4, liveMask i.slots 32 Slot.live), (16, 4, liveMask i.slots 32 fun x => x.live && x.fmtI), (20, 2, liveMask i.vregs 16 VReg.live),
    (24, 8, i.rnd % 2 ^ 64), (96, 4, i.nextF), (100, 4, i.nextB)] ++ evs 32 i.evcF ++ evs 64 i.evcB) []
  (rdRange head 0 4092,
    slots.flatMap (fun p => (List.range 4096).flatMap fun k => leBytes 6 (look (0 : Entry) p.2.entries k).toNat)
      ++ vregs.flatMap fun p => (List.range 4096).flatMap fun k => leBytes 4 (look (0 : Elem) p.2.elems k).toNat)

/-- CHECK of a save image. -/
def imageCheck (p : List Byte × List Byte) : Nat := crc32c ((p.1 ++ p.2).map BitVec.toNat)

/-- A save image as it stands in HBM. -/
def imageBytes (i : SaveImage) : List Byte :=
  let p := imageParts i
  p.1 ++ leBytes 4 i.check ++ p.2

/-- The bytes that a save or restore moves. -/
def imageSize (i : SaveImage) : Nat :=
  4096 + 24576 * (i.slots.filter fun p => p.2.live).length + 16384 * (i.vregs.filter fun p => p.2.live).length

/-- What is saved of a cell for a context, once its beats have landed (R42): LIVE slots and registers, counters, the next blocks; its CHECK
follows. -/
def imageOf (s : State) (ctx lc : Nat) (c : Cell) : SaveImage :=
  let c := c.landed
  let slots := c.slots.filter fun p => p.2.live
  let vregs := c.vregs.filter fun p => p.2.live
  let i : SaveImage := { ctx := ctx, lcell := lc, fsplit := fsplitOf s ctx, slots := slots, vregs := vregs, rnd := s.rnd.num,
                         evcF := c.f.evc, evcB := c.b.evc, nextF := firstOpen c.f, nextB := firstOpen c.b }
  { i with check := imageCheck (imageParts i) }

/-- The numbers of `w` bytes each that the first `n` groups of a byte string are, those that are not 0 with their place. -/
def groupsAt (w : Nat) : Nat → Nat → List Byte → List (Nat × Nat)
  | 0, _, _ => []
  | n + 1, k, bs =>
    let v := leNat (bs.take w)
    let r := groupsAt w n (k + 1) (bs.drop w)
    if v = 0 then r else (k, v) :: r

/-- The payload's slots and registers in turn, `size` bytes each, for the numbers that a mask sets. -/
def payloadAt {α : Type} (size : Nat) (f : Nat → List Byte → α) : List Nat → List Byte → List (Nat × α)
  | [], _ => []
  | k :: r, bs => (k, f k (bs.take size)) :: payloadAt size f r (bs.drop size)

/-- The save image that stands in a byte string of a header and its payload. -/
def parseImage (bs : List Byte) : SaveImage :=
  let head := leNat (bs.take 4096)
  let f := fun (off n : Nat) => bytesAt head off n
  let live := (List.range 32).filter fun k => bit (f 12 4) k
  let regs := (List.range 16).filter fun k => bit (f 20 2) k
  let slot := fun (k : Nat) (b : List Byte) =>
    ({ fmtI := bit (f 16 4) k, live := true, entries := (groupsAt 6 4096 0 b).map fun e => (e.1, BitVec.ofNat 48 e.2) } : Slot)
  let reg := fun (_ : Nat) (b : List Byte) => ({ live := true, elems := (groupsAt 4 4096 0 b).map fun e => (e.1, BitVec.ofNat 32 e.2) } : VReg)
  let evs := fun (base : Nat) => (List.range 16).foldl (fun t k => store 0 t k (f (base + 2 * k) 2)) ([] : Tab Nat)
  { tag := f 0 4, version := f 4 2, ctx := f 6 2, lcell := f 8 2, fsplit := f 10 2, slots := payloadAt 24576 slot live (bs.drop 4096)
    vregs := payloadAt 16384 reg regs (bs.drop (4096 + 24576 * live.length)), rnd := f 24 8, evcF := evs 32, evcB := evs 64
    nextF := f 96 4, nextB := f 100 4, check := f 4092 4 }

/-- The frames of a context's save areas in their order, and where in them the area of a cell begins: 1,028 KiB a cell (R78). -/
def saveFrames (s : State) (ctx : Nat) : List Nat :=
  orderBy (fun f => [(s.frame f).page]) (keysWhere s.mem.frames fun _ e => !frameFree e && !e.commons && e.ctx == ctx && e.kind == 6)

def areaStart (s : State) (ctx lc : Nat) : Nat := 1052672 * (s.ups.areas.filter fun k => k / 1024 == ctx).findIdx (· == saveKey ctx lc)

/-- The pieces of `n` bytes at offset `o` of a save area: frame, offset, start, bytes; none where a frame is missing. -/
def areaPieces (s : State) (ctx lc o n : Nat) : Option (List (Nat × Nat × Nat × Nat)) :=
  let fs := saveFrames s ctx
  (pieces (areaStart s ctx lc + o) n).mapM fun x => (fs[x.1]?).map fun f => (f, x.2)

/-- The bytes of a save area; none where a frame is missing or holds a line that cannot be read. -/
def areaRead (s : State) (ctx lc o n : Nat) : Option (List Byte) :=
  match areaPieces s ctx lc o n with
  | none => none
  | some ps =>
    if ps.any fun x => lineBad s x.1 x.2.1 x.2.2.2 then none
    else some (ps.flatMap fun x => rdRange s.mem.hbm (x.1 * frameBytes + x.2.1) x.2.2.2)

/-- Bytes written to a save area. -/
def State.areaWrite (ctx lc : Nat) (bs : List Byte) (s : State) : State :=
  match areaPieces s ctx lc 0 bs.length with
  | none => s
  | some ps =>
    s.each ps fun x s =>
      let part := (bs.drop x.2.2.1).take x.2.2.2
      ({ s with mem := { s.mem with hbm := wrRange s.mem.hbm (x.1 * frameBytes + x.2.1) part } }).clearLines x.1
        (ceilDiv x.2.1 64) ((x.2.1 + x.2.2.2) / 64)

/-- The bytes of the image that a save area holds, its payload as long as its header says. -/
def savedBytes (s : State) (ctx lc : Nat) : Option (List Byte) :=
  match areaRead s ctx lc 0 4096 with
  | none => none
  | some h =>
    let n := fun (v : Nat) => countIf (List.range 32) fun k => bit v k
    areaRead s ctx lc 0 (4096 + 24576 * n (bytesAt (leNat h) 12 4) + 16384 * n (bytesAt (leNat h) 20 2))

/-- The checks of a restore over the image's bytes (R79): TAG, VERSION, CTX, LCELL and CHECK. -/
def restoreOk (ctx lc : Nat) (bs : List Byte) : Bool :=
  let i := parseImage bs
  i.tag == 0x09605A4E && i.version == 1 && i.ctx == ctx && i.lcell == lc && i.check == imageCheck (bs.take 4092, bs.drop 4096)

/-- The image that a restore takes from a save area, once it has passed the checks. -/
def restoredImage (s : State) (ctx lc : Nat) : Option SaveImage :=
  match savedBytes s ctx lc with
  | none => none
  | some bs => if restoreOk ctx lc bs then some (parseImage bs) else none

/-- The trays, vector registers and counters that an image restores; what it does not list is +0 and not LIVE. -/
def Cell.restoreFrom (c : Cell) (i : SaveImage) : Cell :=
  { c with slots := i.slots, vregs := i.vregs, f := { c.f with evc := i.evcF, beats := [] }, b := { c.b with evc := i.evcB, beats := [] } }

/-! ### Placement (R135, R152, R158, R163, R186, R197) -/

/-- What a boundary does with a waiting sequence. -/
inductive Place where
  | run (gen : Nat) (adopt : Bool)
  | park
  | wait
  | close
  | drop (status : Nat)
  deriving DecidableEq, Repr

/-- Whether this device's switch to a generation is pending (R184, R185): GO has been announced, or round C has come. -/
def switchPends (s : State) (sid gen : Nat) : Bool := (s.stake sid).commit.any fun c => c.gen == gen && (c.go || decide (c.c ≤ s.rnd.num))

/-- A generation that new courses may start on (R185). -/
def genStarts (s : State) (sid gen : Nat) : Bool :=
  (genOf s sid gen).elim false fun g => g.state == GState.current || g.state == GState.isOpen || g.state == GState.ready && switchPends s sid gen

/-- The placement of a weaver's sequence that has no generation yet (R163). -/
def placeWeaver (s : State) (sid : Nat) (w : Weaver) : Place :=
  let cur := currentGen s sid
  if cur = 0 then .park
  else if w.genBound = cur then .run cur false
  else if w.carry = .passed ∧ w.carryGen = cur then .run cur true
  else if genStarts s sid w.genBound then .run w.genBound false
  else match w.carry with
    | .pending => .park
    | .failed => .drop St.carryFailed
    | _ => .drop St.staleGeneration

/-- The last report of a device (R145). -/
def reportOf (s : State) (dev : Nat) : Option ResReport := (s.crs.reports.find? fun x => x.1 == dev).map Prod.snd

/-- The devices of a course other than this one. -/
def otherDevices (s : State) (p : Plan) : List Nat := if p.multi then p.devices.filter fun d => d != s.hoop.pos else []

def placeOf (s : State) (r : Seq) : Place :=
  let g := (s.session (seqKey r)).gen
  if !firstOfSession s r || waitsTurn (s.qp r.qpn) r.idx then .wait
  else if (s.stake r.sid).nonresident ∨ (planAt s r.ctx r.plan).elim false (fun p => (otherDevices s p).any fun d =>
      (reportOf s d).elim false fun x => x.nonres.contains r.sid) then .drop St.stakeNotResident
  else if g ≠ 0 ∧ !genStarts s r.sid g then .close
  else match r.handle with
    | none => if g ≠ 0 then .run g false else if currentGen s r.sid = 0 then .park else .run (currentGen s r.sid) false
    | some h =>
      let w := s.weaver h
      if w.state = .free ∨ w.state = .removing then .drop (removedStatus s h)
      else if !sideClaimed s h then .drop St.sideIncomplete
      else if w.state ≠ .resident ∨ s.rnd.num < w.usableFrom then .park
      else if !sideComplete s h then .wait
      else if g ≠ 0 then .run g false
      else placeWeaver s r.sid w

/-- A waiting sequence of a parked session counts the boundary; its weaver is demanded. -/
def State.parkSeq (r : Seq) (s : State) : State :=
  let f := fun (x : Seq) => if x.order == r.order then { x with parked := x.parked + 1, parkRounds := x.parkRounds + 1 } else x
  let s := { s with crs := { s.crs with waiting := s.crs.waiting.map f } }
  let s := s.modSession (seqKey r) fun x => { x with parked := true }
  match r.handle with
  | none => s
  | some h => s.demand h

/-- Whether an open session is parked (R158): its weaver not RESIDENT, or not accepted on any generation that courses may start on. -/
def sessionParked (s : State) (x : Session) : Bool :=
  match x.handle with
  | none => x.parked
  | some h =>
    let w := s.weaver h
    w.state != .resident || decide (s.rnd.num < w.usableFrom)
      || !(if x.gen ≠ 0 then genStarts s x.sid x.gen else match placeWeaver s x.sid w with | .run _ _ => true | _ => false)

/-- Every open session is parked or not, as its weaver stands at this boundary (R158). -/
def State.markParked (s : State) : State :=
  s.each (keysWhere s.weav.sessions fun _ x => x.isOpen && x.handle.isSome) fun k s =>
    let p := sessionParked s (s.session k)
    s.modSession k fun x => { x with parked := p }

/-- The outcomes of placement that end or park sequences; CARRY that passed is adopted (R163). -/
def State.settlePlaces (s : State) : State :=
  s.each s.crs.waiting fun r s =>
    match placeOf s r with
    | .run gen true =>
      (match r.handle with
      | none => s
      | some h => s.modWeaver h fun w => { w with genBound := gen, carry := .none, byCarry := true })
    | .run _ false | .wait => s
    | .park => s.parkSeq r
    | .close => s.dropSeq r St.staleGeneration
    | .drop st => s.dropSeq r st

/-! ### Batches (R18, R144 to R147) -/

/-- The segment to which a row belongs: its weaver, or its context when it has none. -/
def segId (r : Seq) : Nat := match r.handle with | some h => h | none => 65536 + r.ctx

/-- A batch being gathered: plan, stake set, generation, rows. -/
structure Batch where
  plan : Plan
  sid  : Nat
  gen  : Nat
  rows : List Seq
  deriving DecidableEq, Repr

def batchTakes (b : Batch) (p : Plan) (sid gen : Nat) (r : Seq) : Bool :=
  b.plan == p && b.sid == sid && b.gen == gen && decide (b.rows.length < 1024)
    && (b.rows.any (fun x => segId x == segId r) || decide ((b.rows.map segId).eraseDups.length < 256))

def addToBatch (p : Plan) (sid gen : Nat) (r : Seq) : List Batch → List Batch
  | [] => [{ plan := p, sid := sid, gen := gen, rows := [r] }]
  | b :: t => if batchTakes b p sid gen r then { b with rows := b.rows ++ [r] } :: t else b :: addToBatch p sid gen r t

/-- Rows by handle and acceptance, then those without a weaver by context and acceptance (R144). -/
def rowOrder (rs : List Seq) : List Seq :=
  (orderBy (fun i => (rs[i]?).elim [] fun r => [segId r, r.order]) (List.range rs.length)).filterMap fun i => rs[i]?

/-- Segments: maximal runs of rows with the same handle or, without a weaver, of the same context. -/
def segsOf (s : State) (rs : List Seq) : List SegEntry :=
  (rs.map segId).eraseDups.map fun g =>
    let row0 := (rs.takeWhile fun r => segId r != g).length
    let mine := rs.filter fun r => segId r == g
    let ctx := (mine.head?).elim 0 Seq.ctx
    if g < 65536 then
      let w := s.weaver g
      { handle := g, ctx := ctx, wver := w.version, row0 := row0, nrows := mine.length, forms := w.forms, baseOnly := false,
        rankL := w.rankL, rankQ := w.rankQ }
    else { handle := 0, ctx := ctx, wver := 0, row0 := row0, nrows := mine.length, forms := 0, baseOnly := true, rankL := 0, rankQ := 0 }

/-- A course of several contexts runs under context 0 (R395). -/
def rowsCtx (rs : List Seq) : Nat := match (rs.map Seq.ctx).eraseDups with | [c] => c | _ => 0

/-- A course's shape before it starts. -/
def shapeOf (s : State) (p : Plan) (sid gen : Nat) (rs : List Seq) : Course :=
  let rs := rowOrder rs
  { id := 0, plan := p, ctx := rowsCtx rs, sid := sid, gen := gen, rows := rs, segs := segsOf s rs }

/-- Whether every other device of a course has reported a sequence's weaver, or for one without a weaver its stake set, as usable on a generation
(R145, R185). -/
def reported (s : State) (p : Plan) (gen : Nat) (r : Seq) : Bool :=
  (otherDevices s p).all fun d => (reportOf s d).elim false fun x =>
    match r.handle with | some h => x.usable.contains (h, gen) | none => x.gens.contains (r.sid, gen)

/-- What this device reports (R145): the weavers that are RESIDENT with every virtual expert bound, on each generation that accepts them. -/
def ownReportOf (s : State) : ResReport :=
  let gens := s.stakes.flatMap fun k => (k.2.gens.filter fun g => genStarts s k.1 g.2.gen).map fun g => (k.1, g.2.gen)
  { usable := s.weav.dir.flatMap fun p =>
      if p.2.state == .resident && decide (p.2.usableFrom ≤ s.rnd.num) && sideComplete s p.1 then
        (gens.filter fun g => g.1 == p.2.sid && (p.2.genBound == g.2 || p.2.carry == .passed && p.2.carryGen == g.2)).map fun g => (p.1, g.2)
      else []
    gens := gens
    nonres := keysWhere s.stakes fun _ k => k.nonresident }

/-- At every boundary a device reports to the lead of each course that waits for others (R145). -/
def State.sendReports (s : State) : State :=
  let leads := (s.crs.waiting.filterMap fun r => (planAt s r.ctx r.plan).bind fun p =>
    if p.multi && p.lead != s.hoop.pos then some p.lead else none).eraseDups
  s.each leads fun d s => s.emit (.residency d (ownReportOf s))

/-- Sequences that may join a batch that this device builds: their plan, their generation. -/
def candidate (s : State) (r : Seq) : Option (Plan × Nat) :=
  match placeOf s r, planAt s r.ctx r.plan with
  | .run gen _, some p =>
    if p.multi && (p.lead != s.hoop.pos || !reported s p gen r || s.rnd.mode == .isolated) then none else some (p, gen)
  | _, _ => none

/-- The batches of this device in the order in which they arise: the grouping is the device's own choice. -/
def batches (s : State) : List Batch :=
  s.crs.waiting.foldl (fun bs r =>
    match candidate s r with
    | none => bs
    | some x => addToBatch x.1 r.sid x.2 r bs) []

/-- Whether a segment's weaver may be used for a course whose table came from the lead (R160): RESIDENT, in the version that the table records. -/
def segUsable (s : State) (g : SegEntry) : Bool :=
  let w := s.weaver g.handle
  g.baseOnly || (w.state == .resident && decide (w.usableFrom ≤ s.rnd.num) && w.version == g.wver && sideComplete s g.handle)

/-- Whether a received table is that of a course (R145). -/
def tableFor (c : Course) (t : SegTable) : Bool :=
  t.rows == c.rows.map (fun r => (r.tag, r.qpn)) && t.sid == c.sid && t.gen == c.gen && t.segs.map SegEntry.handle == c.segs.map SegEntry.handle

/-- A course that the lead's segment table names, when all its rows wait here (R145) and its weavers and its generation may be used (R160,
R185). -/
def tableCourse (s : State) (t : SegTable) : Option Course :=
  let rs := t.rows.filterMap fun x => s.crs.waiting.find? fun r => r.tag == x.1 && r.qpn == x.2 && !waitsTurn (s.qp r.qpn) r.idx
  if rs.length ≠ t.rows.length ∨ rs.isEmpty ∨ s.rnd.mode = .isolated ∨ !t.segs.all (segUsable s) ∨ !genStarts s t.sid t.gen then none
  else
    match rs.head?.bind fun r => planAt s r.ctx r.plan with
    | none => none
    | some p => some { id := 0, plan := p, ctx := rowsCtx rs, sid := t.sid, gen := t.gen, rows := rs, segs := t.segs }

/-- What a job's or a probe course must have been told (R145): at the lead every other device's report of its weavers on a generation, elsewhere
the lead's table. -/
def courseTold (s : State) (c : Course) (gen : Nat) : Bool :=
  if !c.plan.multi then true
  else if s.rnd.mode == .isolated then false
  else if c.plan.lead == s.hoop.pos then
    (otherDevices s c.plan).all fun d => (reportOf s d).elim false fun x => c.segs.all fun g => x.usable.contains (g.handle, gen)
  else s.crs.tables.any (tableFor c)

/-- Sequences whose plan cannot be read as a course plan set are refused (R26). -/
def State.dropPlanless (s : State) : State :=
  s.each s.crs.waiting fun r s =>
    match placeOf s r, planAt s r.ctx r.plan with
    | .run _ _, none => s.dropSeq r St.planViolation
    | _, _ => s

/-- The courses that may start, in starting order: class index, then acceptance (R394). -/
def duePlain (s : State) : List Course :=
  let cs := (batches s).map (fun b => shapeOf s b.plan b.sid b.gen b.rows) ++ s.crs.tables.filterMap (tableCourse s)
  let key := fun (i : Nat) => (cs[i]?).elim [] fun c => [c.plan.cls, (c.rows.map Seq.order).foldl min (2 ^ 64)]
  (orderBy key (List.range cs.length)).filterMap fun i => cs[i]?

/-! ### What refuses a course -/

def usesTraining (p : Plan) : Bool :=
  p.cellPlans.any (fun x => x.st == .b && !x.blocks.isEmpty) || p.ulists.any fun u => u.cmds.any fun c => [3, 4, 5].contains (bytesAt c.toNat 0 1)

/-- A window of R233. -/
def windowOk (x : Nat × Window) : Bool :=
  let w := x.2
  !w.valid ||
    (decide (x.1 < 256) && w.zero == 0 && w.va % 4096 == 0 && decide (w.va < 2 ^ 47)
      && w.len % 4096 == 0 && decide (4096 ≤ w.len) && decide (w.len ≤ 2 ^ 46)
      && w.cstride % 256 == 0
      && !(w.write && !w.view && inCommons w.va w.len)
      && !(w.write && w.view && (decide (w.va < 2 * frameBytes) || (decide (w.va < viewOut) && decide (viewIn < w.va + w.len)))))

/-- The limits of a U list (R247). -/
def ulistOk (s : State) (u : UList) : Bool :=
  u.tag == 0x0960554C && u.version == 1 && u.zero == 0 && hasMsd s u.die && decide (1 ≤ u.cmds.length) && decide (u.cmds.length ≤ 4096)
    && decide (1 ≤ u.stageKb) && decide (u.stageKb ≤ 1024)

/-- Whether the image that a plan names is the current one (R83). -/
def imageNow (s : State) (p : Plan) : Bool := s.ups.cur.any fun i => i.meas == p.image

/-- What refuses a course with PROGRESS zero, whatever waits: R18, R45, R51, R269, R26, R83, R233, R247, R148. -/
def courseBad (s : State) (c : Course) : Option Nat :=
  let p := c.plan
  if p.nseg = 0 ∨ 8 < p.nseg ∨ 1024 < c.rows.length ∨ 256 < c.segs.length then some St.planViolation
  else if !hasTrain s ∧ usesTraining p then some St.unitAbsent
  else if usableTotal s < p.cells ∨ msdCount s < p.msds ∨ (planCells p).any (fun lc => cellCount s ≤ lc || s.ups.lost.contains lc) then
    some St.planViolation
  else if !imageNow s p ∨ !p.windows.all windowOk ∨ !p.ulists.all (ulistOk s)
      ∨ (p.ulists.map UList.die).eraseDups.length ≠ p.ulists.length then some St.planViolation
  else if !stagingOk s p c.segs (max c.rows.length 1) then some St.planViolation
  else none

/-- The pages of a plan's windows outside the view, each with whether it is written. -/
def windowPages (c : Course) : List (Nat × Bool) :=
  (c.plan.windows.filter fun x => x.2.valid && !x.2.view).flatMap fun x =>
    (pieces x.2.va x.2.len).map fun y => (y.1, x.2.write)

/-- Whether a window's page is mapped, and writable where it is written (R236). -/
def pageOk (s : State) (c : Course) (x : Nat × Bool) : Bool :=
  if x.1 * frameBytes < 2 ^ 46 then
    let e := s.pteAt (pteKey c.ctx x.1)
    e.valid && !(x.2 && e.ro)
  else courseSpot s c c.ctx (x.1 * frameBytes) != .unmapped

/-- Every page that a VALID window covers outside the view is mapped; a window over commons space ends within the image part. -/
def windowsMapped (s : State) (c : Course) : Bool :=
  (windowPages c).all (pageOk s c)
    && c.plan.windows.all fun x => !x.2.valid || x.2.view || x.2.len == 0 || decide (x.2.va + x.2.len ≤ 2 ^ 46)
      || courseSpot s c c.ctx (x.2.va + x.2.len - 1) != .unmapped

/-- The page-table keys that a course covers, each with whether it is written: its windows, its rows' inputs and outputs, and the pages
that the plan adds to its view. -/
def covered (s : State) (c : Course) : List (Nat × Bool) :=
  let own := ((windowPages c).filter fun x => x.1 * frameBytes < 2 ^ 46).map fun x => (pteKey c.ctx x.1, x.2)
  let rows := c.hostRows.flatMap fun r =>
    ((pieces r.inp (r.nin * c.plan.inRec)).map fun y => (pteKey r.ctx y.1, false))
      ++ (pieces r.out (r.maxtok * c.plan.outRec)).map fun y => (pteKey r.ctx y.1, true)
  let more := c.plan.maps.filterMap fun m =>
    match m.2 with
    | .page row dva => (c.rows[row]?).map fun r => (pteKey r.ctx (dva / frameBytes), true)
    | .weaver _ _ | .expert _ _ _ _ | .commonsQ _ => none
  (own ++ rows ++ more).filter fun x => (s.pteAt x.1).valid

/-! ### Preparation at cycle 20 (R222, R223, R236) -/

/-- The frames of commons space under a course's windows (R219). -/
def commonsFrames (s : State) (c : Course) : List Nat :=
  ((windowPages c).filterMap fun x =>
    if x.1 * frameBytes < 2 ^ 46 then none
    else match courseSpot s c c.ctx (x.1 * frameBytes) with | .frame f _ => some f | _ => none).eraseDups

/-- The covered pages for which a course still needs a frame: those in T2 and the ZERO pages that it writes. -/
def lackingPages (s : State) (c : Course) : List Nat :=
  ((covered s c).filter fun x =>
    let e := s.pteAt x.1
    match e.tier with | .t1 => false | .zero => x.2 && !e.ro | .t2 => (promoting s x.1).isNone).map Prod.fst

/-- A due course regains its context's holding of every page that it covers (R218), before anything leaves T1 at this boundary. -/
def State.holdCovered (c : Course) (s : State) : State :=
  if (courseBad s c).isSome ∨ !windowsMapped s c then s
  else s.each (covered s c) fun k s => s.modPte k.1 fun e => { e with held := true }

/-- The frames that a due course lacks are asked for: demand promotions, and frames for the ZERO pages that it writes. -/
def State.prepare (c : Course) (s : State) : State :=
  if (courseBad s c).isSome ∨ !windowsMapped s c then s else s.each (lackingPages s c).eraseDups State.wantPage

/-- Courses in the order in which their sequences were submitted; those of tuning jobs last. -/
def bySubmission (cs : List Course) : List Course :=
  (orderBy (fun i => (cs[i]?).elim [] fun c => [(c.rows.map Seq.order).foldl min (2 ^ 64)]) (List.range cs.length)).filterMap fun i => cs[i]?

/-- An image is written to its save area. -/
def State.saveImage (ctx lc : Nat) (i : SaveImage) (s : State) : State :=
  let s := s.areaWrite ctx lc (imageBytes i)
  { s with ups := { s.ups with saved := s.ups.saved.filter (· != saveKey ctx lc) ++ [saveKey ctx lc] } }

/-! ### The start at cycle 40 -/

/-- Every covered page is ready: its frame RESIDENT or DIRTY, or a ZERO page that is only read. -/
def coveredReady (s : State) (c : Course) : Bool :=
  ((covered s c).all fun x =>
    let e := s.pteAt x.1
    match e.tier with
    | .t1 => occupied (s.frame e.frame)
    | .zero => !x.2 || e.ro
    | .t2 => false) && (commonsFrames s c).all fun f => occupied (s.frame f)

/-- Every cell of the plan is idle, or bound to the course's context and free of another course (R394). -/
def cellsFree (s : State) (c : Course) : Bool :=
  (planCells c.plan).all fun lc =>
    let x := s.cell lc
    x.course.isNone && x.incoming.isNone && x.saving.isNone && !x.zeroing && !x.restore
      && !s.ups.fenced.contains lc && !s.ups.loading.contains lc && !blockBusy s 1 (lc / 240)

/-- A die of the package (R14). -/
inductive Die where
  | cd (n : Nat)
  | msd (n : Nat)
  | iod
  deriving DecidableEq, Repr

/-- The two dies that a weft link joins (R14). DESIGN CHOICE: the manual counts the 16 links and gives them no order; links 0 to 7 lead to the
memory-side dies, 8 to 11 go round the ring, 12 to 15 lead to the I/O die. -/
def weftEnds (l : Nat) : Die × Die :=
  if l < 8 then (.cd (l / 2), .msd l)
  else if l = 8 then (.cd 0, .cd 1)
  else if l = 9 then (.cd 1, .cd 3)
  else if l = 10 then (.cd 3, .cd 2)
  else if l = 11 then (.cd 2, .cd 0)
  else (.cd (l - 12), .iod)

/-- The fixed path between two compute dies (R15): 0 and 3 through 1, 1 and 2 through 0. -/
def cdPath (a b : Nat) : List Nat :=
  match min a b, max a b with
  | 0, 1 => [8]
  | 0, 2 => [11]
  | 0, 3 => [8, 9]
  | 1, 2 => [8, 11]
  | 1, 3 => [9]
  | 2, 3 => [10]
  | _, _ => []

/-- The links between a die and a compute die: a memory-side die goes through its own, and the I/O die is joined to each. -/
def pathToCd (n : Nat) : Die → List Nat
  | .cd m => cdPath m n
  | .msd m => m :: cdPath (m / 2) n
  | .iod => [12 + n]

/-- The fixed path between two dies (R15). -/
def diePath (a b : Die) : List Nat :=
  match a, b with
  | .cd n, y => pathToCd n y
  | x, .cd n => pathToCd n x
  | .msd m, y => if y = .msd m then [] else m :: pathToCd (m / 2) y
  | x, .msd m => m :: pathToCd (m / 2) x
  | .iod, .iod => []

/-- The dies between which a course's data moves: those of its cells, of its pinned frames and U lists, and the I/O die where the course
spans devices. DESIGN CHOICE: which pairs of them exchange data is the plan's matter; the model takes every pair. -/
def courseDies (c : Course) : List Die :=
  ((planCells c.plan).map (fun lc => Die.cd (lc / 240)) ++ c.pins.map (fun f => Die.msd (msdOfFrame f))
    ++ c.plan.ulists.map (fun u => Die.msd u.die) ++ if c.plan.multi then [Die.iod] else []).eraseDups

/-- Whether traffic of a course crosses a link. -/
def crossesLink (warp : Bool) (l : Nat) (c : Course) : Bool :=
  if warp then (planCells c.plan).any (fun lc => lc / 240 == l / 256) && Config.crossesWarp l (planCells c.plan)
  else (courseDies c).any fun a => (courseDies c).any fun b => (diePath a b).contains l

/-- Whether a stopped fabric link carries traffic of a course (R427). -/
def linkStopped (s : State) (c : Course) : Bool := s.flt.links.any fun l => crossesLink l.warp l.link c

/-- Room for the course's U lists: 32 lists and 1,024 KiB of staging on a die (R247). -/
def listsFit (s : State) (c : Course) : Bool :=
  c.plan.ulists.all fun u =>
    let ls := (s.msdOf u.die).lists
    !blockBusy s 2 u.die && decide (ls.length < 32) && decide ((ls.map UState.kb).sum + u.stageKb ≤ 1024)

/-- The commons Q weaver of a generation is resident (R130, R160). -/
def commonsReady (s : State) (c : Course) : Bool :=
  (commonsOf s c).elim true fun h => (s.weaver h).state == .resident && decide ((s.weaver h).usableFrom ≤ s.rnd.num)

/-- The side map that a course takes at its start (R150): the slots of its weavers' virtual experts, as they are bound now. -/
def sideMapOf (s : State) (c : Course) : List SideRow :=
  let layers := (genOf s c.sid c.gen).elim [] fun g => ((g.layers.zip (List.range g.layers.length)).filter fun x => x.1.kind == 2).map Prod.snd
  (c.segs.filter fun g => !g.baseOnly && bit g.forms 3).flatMap fun g =>
    layers.flatMap fun l => (List.range (s.weaver g.handle).xcount).filterMap fun j =>
      (boundSlot s g.handle l j).map fun k =>
        let x := s.side (sideKey l k)
        { handle := g.handle, layer := l, j := j, slot := k, owner := x.owner, ownerJ := x.j, wver := (s.weaver x.owner).version }

/-- Whether new courses start at all (R425, R456 to R458). -/
def startsAny (s : State) : Bool := !s.flt.halted && s.pwr.state == .active && s.pwr.target.isNone && s.rnd.enable

/-- The least of some numbers, 0 of none. -/
def leastOf (xs : List Nat) : Nat := match xs with | [] => 0 | x :: r => r.foldl min x

/-- The smallest token index that a serving course produces (R103). -/
def courseTerm (s : State) (c : Course) : Nat := leastOf (c.rows.map fun r => (s.session (seqKey r)).pos) % 2 ^ 32

/-- The seed record of a course (R103); a tuning course and a probe course bring their own term. -/
def seedOf (s : State) (c : Course) : Seed :=
  { ctxSeed := (s.ctx c.ctx).seed, gen := c.gen
    wver := match c.segs with | [g] => g.wver | _ => 0
    course := if c.job.isSome || c.probe.isSome then c.seed.course else courseTerm s c }

/-- A segment that has not ended overruns (R46): the round is counted once, and course and class are journalled. DESIGN CHOICE: the manual gives
ROUND_OVERRUN no DETAIL; it holds the course in bits 63:0, the class from bit 64 on, and UNDERVOLT (R47) in bit 72. -/
def State.overrun (c : Course) (s : State) : State :=
  let n := if s.rnd.overrunNow then s.rnd.overruns else sat 32 (s.rnd.overruns + 1)
  ({ s with rnd := { s.rnd with overruns := n, overrunNow := true } }).journal
    { code := St.roundOverrun, cls := Cls.info, blk := Blk.round, ctx := c.ctx, tag := courseTag c, gen := c.gen,
      detail := c.id % 2 ^ 64 + c.plan.cls * 2 ^ 64 + b2n s.rnd.undervolt * 2 ^ 72 }

/-- What a plan cell's tray starts from: the cell's own when its context stays, none for the image in the context's save area, or
nothing. -/
def startImage (s : State) (ctx lc : Nat) : Option SaveImage :=
  let x := s.cell lc
  if x.ctx = some ctx then some (imageOf s ctx lc x)
  else if s.ups.saved.contains (saveKey ctx lc) then none
  else some (imageOf s ctx lc {})

/-- The bytes that a restore from a save area moves. -/
def savedSize (s : State) (ctx lc : Nat) : Nat := (savedBytes s ctx lc).elim 4096 List.length

/-- A stream of a cell that is bound anew: its counters, and a block of an ended course that still runs. -/
def StreamS.bound (x : StreamS) : StreamS := if x.orphan then { x with next := 0, idle := none } else { evc := x.evc }

/-- The context of a cell changes: the outgoing state is captured, bank and table memory are zeroed, and the incoming state waits to be
restored (R76 to R80). -/
def State.changeCell (ctx lc : Nat) (s : State) : State :=
  let x := s.cell lc
  let s : State := match x.ctx with
    | none => s
    | some o =>
      let i := imageOf s o lc x
      let s := (s.charge x.cls { hbm := imageSize i }).modCell lc fun x => { x with saving := some i }
      if ctxGoing s o then s else s.takeSave o lc
  let again := s.ups.saved.contains (saveKey ctx lc)
  s.modCell lc fun x => { x with
    incoming := some ctx, late := false, zeroing := true, restore := again, f := x.f.bound, b := x.b.bound }

/-- A cell is bound to a course. Where its context changes while a block of an ended course runs on it, the change waits for the first
boundary after that block (R76). -/
def State.bindCell (c : Course) (lc : Nat) (s : State) : State :=
  let x := s.cell lc
  let late := x.f.orphan || x.b.orphan
  if x.ctx = some c.ctx then s.modCell lc fun x => { x with course := some c.id, cls := c.plan.cls, f := x.f.bound, b := x.b.bound }
  else
    let s := s.modCell lc fun x => { x with course := some c.id, incoming := some c.ctx, late := late }
    let s := if late then s else s.changeCell c.ctx lc
    let s := if s.ups.saved.contains (saveKey c.ctx lc) then s.charge c.plan.cls { hbm := savedSize s c.ctx lc } else s
    s.modCell lc fun x => { x with cls := c.plan.cls }

/-- Cycle 28: changes of context that waited for a block to end begin once it has (R76). -/
def State.lateChanges (s : State) : State :=
  s.each (keysWhere s.cells fun _ c => c.late && !c.f.running && !c.b.running) fun lc s =>
    match (s.cell lc).incoming with | none => s | some ctx => s.changeCell ctx lc

/-- A course is under way: its cells, U lists, frames, pins, holdings, weavers' HEAT, stake set's USE (R156, R193, R218, R236, R247). -/
def State.startCourse (c : Course) (s : State) : State :=
  let id := s.crs.nextId
  let byCarry := fun (r : Seq) => r.handle.elim false fun h => (s.weaver h).byCarry && (s.weaver h).genBound == c.gen
  let rows := c.rows.map fun (r : Seq) => { r with parkRounds := 0, carried := byCarry r }
  let c := { c with
    id := id, rows := rows, seed := seedOf s c, startRnd := s.rnd.num, segRnd := s.rnd.num, lastRnd := s.rnd.num }
  match s.takeFrames (fun _ => { state := .resident, kind := 5, ctx := c.ctx, key := c.ctx }) 1 0 with
  | none => s
  | some (fs, s) =>
    let keys := covered s c
    let pins := (((keys.filter fun k => (s.pteAt k.1).tier == .t1).map fun k => (s.pteAt k.1).frame) ++ commonsFrames s c).eraseDups
    let cks := (planCells c.plan).map fun lc => (lc, startImage s c.ctx lc)
    let lists := c.plan.ulists.map fun u => (u.die, ({ cid := id, kb := u.stageKb, since := s.rnd.num } : UState))
    let qver := (commonsOf s c).elim 0 fun h => (s.weaver h).version
    let c : Course := { c with pins := pins, curFrame := fs.head?, ckCells := cks, ckLists := lists, side := sideMapOf s c, qver := qver }
    let orders := c.hostRows.map Seq.order
    let waiting := s.crs.waiting.filter fun r => !orders.contains r.order
    let tables := s.crs.tables.filter fun t => !tableFor c t
    let s := { s with crs := { s.crs with nextId := id + 1, running := s.crs.running ++ [c], waiting := waiting, tables := tables } }
    let s := s.each pins fun f s => s.modFrame f fun e => { e with coursePins := e.coursePins + 1 }
    let s := s.each keys fun k s => s.modPte k.1 fun e => { e with held := true }
    let now := s.rnd.num
    let s := s.each (planCells c.plan) (State.bindCell c)
    let s := if (planCells c.plan).any fun lc => (s.cell lc).late then s.overrun c else s
    let s := s.each lists fun u s => s.modMsd u.1 fun m => { m with lists := m.lists ++ [u.2] }
    let s := s.each ((c.segs.filter fun g => !g.baseOnly).map SegEntry.handle ++ (commonsOf s c).toList).eraseDups fun h s =>
      s.modWeaver h fun w => { w with heat := sat 32 (w.heat + 1), lastRnd := now }
    let s := s.modStake c.sid fun k => { k with use := sat 32 (k.use + 1), lastRnd := s.rnd.num }
    let s : State := match c.job with
      | none => s
      | some x => s.modJob x.1 fun j => { j with firstRnd := some (j.firstRnd.getD now), gen := c.gen }
    let s : State := s.each c.hostRows fun r s => s.modSession (seqKey r) fun x => { x with gen := c.gen, parked := false }
    if c.plan.multi ∧ c.plan.lead = s.hoop.pos then
      let names := c.rows.map fun r => (r.tag, r.qpn)
      (s.emit (.segTable { course := id, sid := c.sid, gen := c.gen, lead := c.plan.lead, segs := c.segs, rows := names })).charge Act.mgmt
        { link := 64 + 32 * c.segs.length + 16 * c.rows.length }
    else s

/-- The rows of a course that is refused complete; a tuning job's course ends its job. -/
def State.refuseCourse (c : Course) (status : Nat) (s : State) : State :=
  let s := s.each (lackingPages s c) fun k s => s.dropWait (.page k)
  let s := (s.each c.hostRows fun r s => s.dropSeq r status).probeFails c
  match c.job with
  | none => s
  | some j => s.modJob j.1 fun b => { b with failed := some (b.failed.getD status) }

/-- Whether an account lacks room for what a course still needs, its cursor table among it, however long it waits (R223): the boundary has
counted every candidate. -/
def neverFits (s : State) (c : Course) : Bool :=
  let need := c.ctx :: (lackingPages s c).eraseDups.map (payer s)
  need.any fun a => decide ((s.acct a).q1 + leavingOf s a < chargedT1 s a + countIf need fun b => b == a)

/-- A due course is refused, started, or left for the next boundary. -/
def State.tryCourse (c : Course) (s : State) : State :=
  if !startsAny s ∨ c.hostRows.any (fun r => !s.crs.waiting.contains r) then s
  else match courseBad s c with
    | some st => s.refuseCourse c st
    | none =>
    if !windowsMapped s c then s.refuseCourse c St.addrInvalid
    else if neverFits s c then s.refuseCourse c St.quotaExceeded
    else if !hasRoom s c.ctx 1 ∨ s.mem.waits.any AllocWait.short ∨ !coveredReady s c ∨ !cellsFree s c ∨ !listsFit s c ∨ linkStopped s c then s
    else if !commonsReady s c then (genOf s c.sid c.gen).elim s fun g => s.demand g.commonsQ
    else s.startCourse c

/-! ### Checkpoints at cycle 12 (R42, R45, R46, R235) -/

/-- What a stream has issued lands: loads, stores and PUTs that are still on their way. -/
def State.flushStream (lc : Nat) (st : Strm) (s : State) : State :=
  let s := s.each (s.stream lc st).ldws fun _ s => s.loadArrives lc st
  let s := s.each (s.stream lc st).stws fun _ s => s.storeAccepted lc st
  s.each (s.stream lc st).puts fun _ s => s.putDelivered lc st

/-- What the cells of a course have issued lands before its checkpoint or its outputs are taken. -/
def State.flushCourse (c : Course) (s : State) : State :=
  s.each (planCells c.plan) fun lc s => if (s.cell lc).course = some c.id then (s.flushStream lc .f).flushStream lc .b else s

/-- A course's ended segment is committed; after the last one the course has finished. -/
def State.commitCourse (c : Course) (s : State) : State :=
  let s := s.flushCourse c
  match s.course c.id with
  | none => s
  | some c =>
  let cks := (planCells c.plan).map fun lc => (lc, some (imageOf s c.ctx lc (s.cell lc)))
  let lists := s.msd.flatMap fun p => (p.2.lists.filter fun u => u.cid == c.id).map fun u => (p.1, u)
  let last := c.plan.nseg ≤ c.seg + 1
  s.modCourse c.id fun c => { c with
    committed := c.seg + 1, ckCursors := c.cursors, ckCells := cks, ckLists := lists, undo := []
    finished := last, ended := if last then some c.lastRnd else none
    seg := if last then c.seg else c.seg + 1, segEnded := last, segRnd := s.rnd.num }

def State.commitAll (s : State) : State :=
  s.each s.crs.running fun c s =>
    if c.finished || c.stopped then s
    else if c.segEnded || segmentDone s c then
      (if c.segEnded then s else s.modCourse c.id fun c => { c with lastRnd := s.rnd.num - 1 }).each [c.id] fun cid s =>
        (s.course cid).elim s fun c => s.commitCourse c
    else s.overrun c

/-! ### Replay (R44, R79, R85, R239) -/

/-- The first block of a stream that belongs to segment `k` or a later one. -/
def blockFrom (c : Course) (lc : Nat) (st : Strm) (k : Nat) : Nat := ((blocksOf c lc st).takeWhile fun b => b.seg < k).length

/-- What a course wrote since its checkpoint is taken back (R84: its results are discarded at replay), the newest first. -/
def State.undoWrites (c : Course) (s : State) : State :=
  s.each c.undo fun x s =>
    let e := s.pteAt x.place
    if x.frame then s.frameWrite x.place x.off x.old
    else if !e.valid then s
    else match e.tier with
    | .t1 => s.frameWrite e.frame x.off x.old
    | .t2 => s.slowWrite (pageSeal s x.place) (e.sda + x.off) x.old
    | .zero => s

/-- A cell of a course that replays: restored from the checkpoint's image, or from its save area once that has been checked again; a cell
whose change of context has not begun has run nothing. -/
def State.rewindCell (c : Course) (x : Nat × Option SaveImage) (s : State) : State :=
  if (s.cell x.1).late then s
  else
    let again := fun (y : Cell) => { y with
      f := { evc := y.f.evc, next := blockFrom c x.1 .f c.committed }, b := { evc := y.b.evc, next := blockFrom c x.1 .b c.committed } }
    match x.2 with
    | some i =>
      (s.modCell x.1 fun y => again { y.restoreFrom i with ctx := some c.ctx, incoming := none, restore := false }).charge c.plan.cls
        { hbm := imageSize i }
    | none =>
      (s.modCell x.1 fun y => again { y with incoming := some c.ctx, restore := true }).charge c.plan.cls { hbm := savedSize s c.ctx x.1 }

/-- A stopped course is restored on every one of its cells from its last committed checkpoint, and its segment runs again. -/
def State.replay (cid : Nat) (s : State) : State :=
  match s.course cid with
  | none => s
  | some c =>
    if (planCells c.plan).any fun lc => s.ups.lost.contains lc then s.endCourse cid St.planViolation
    else
      let s := (s.undoWrites c).each c.ckCells (State.rewindCell c)
      let now := s.rnd.num
      let again := fun (x : Nat × UState) => ({ x.2 with since := now } : UState)
      let back := fun (d : Nat) (m : Msd) =>
        let kept := m.lists.filter fun (u : UState) => u.cid != cid
        { m with lists := kept ++ (c.ckLists.filter fun x => x.1 == d).map again }
      let s := { s with msd := mapTab {} back s.msd }
      s.modCourse cid fun c => { c with
        stopped := false, held := none, cursors := c.ckCursors, undo := [], seg := c.committed, segEnded := false, segRnd := s.rnd.num }

/-- Whether a stopped course may replay now: no cell of it fenced, loading or being saved, none of its
dies in reset, no fabric link of its stopped, no line that holds it. -/
def mayReplay (s : State) (c : Course) : Bool :=
  c.stopped && c.held.isNone && !linkStopped s c && !(c.plan.ulists.any fun u => blockBusy s 2 u.die)
    && (planCells c.plan).all fun lc => !s.ups.fenced.contains lc && !s.ups.loading.contains lc && !blockBusy s 1 (lc / 240)
        && (s.cell lc).saving.isNone

def State.replayReady (s : State) : State := s.each s.crs.running fun c s => if mayReplay s c then s.replay c.id else s

/-- Courses held on a line that has been repaired go on at this boundary (R239). -/
def State.unholdCourses (s : State) : State :=
  s.each s.crs.running fun c s =>
    match c.held with
    | none => s
    | some (_, f, g) => if lineBad s f (4096 * g) 4096 then s else s.modCourse c.id fun c => { c with held := none }

/-- At a boundary a hold ends the course with WEIGHT_UNAVAILABLE once the 16th round after detection has ended, or every source has failed
(R239). -/
def State.holdExpires (cid : Nat) (s : State) : State :=
  match s.course cid with
  | none => s
  | some c =>
    match c.held with
    | none => s
    | some (r, f, g) =>
      let failed := s.mem.repairs.any fun x => x.frame == f && x.granule == g && x.failed
      if r + 17 ≤ boundaryRnd s ∨ failed then s.endCourse cid St.weightUnavailable else s

/-! ### The end of a course (R153, R162, R164, R235, R351) -/

/-- A row of a course that has finished: its tokens count, its session moves on, and it completes or waits for its next course; one whose weaver is
being removed ends with this course, and its session closes (R135). -/
def State.rowDone (c : Course) (x : Seq × Nat) (s : State) : State :=
  let r := x.1
  if r.gone then s
  else
    let n := min c.plan.tokens (r.maxtok - r.produced)
    let r := { r with produced := r.produced + n }
    let s := s.modSession (seqKey r) fun y => { y with pos := y.pos + n }
    let ends := fun st => s.finishSeq r st c.gen (((segOfRow c x.2).map SegEntry.wver).getD 0) (c.ended.getD s.rnd.num)
    if c.violated then ends St.planViolation
    else if r.maxtok ≤ r.produced then ends St.ok
    else match r.handle.filter fun h => (s.weaver h).state == .removing with
    | some h => ends (removedStatus s h)
    | none => { s with crs := { s.crs with waiting := s.crs.waiting ++ [r] } }

/-- A finished course completes. -/
def State.courseComplete (cid : Nat) (s : State) : State :=
  match s.course cid with
  | none => s
  | some c =>
    if !c.finished then s
    else
      let s := s.flushCourse c
      match s.course cid with
      | none => s
      | some c =>
        let s := (s.releaseCourse c).sumCourse c (if c.violated then St.planViolation else St.ok) (c.ended.getD s.rnd.num)
        let s := s.each (c.hostRows.zip (List.range c.rows.length)) (State.rowDone c)
        let s := if c.violated then s.probeFails c else s.probeDone c
        match c.job with
        | none => s
        | some j => s.modJob j.1 fun b =>
            if c.violated then { b with failed := some (b.failed.getD St.planViolation) } else { b with microsDone := b.microsDone + 1 }

/-- A sequence parked for more than its context's PARK_MAX rounds completes with PARKED; its session stays parked (R159). -/
def State.parkTimeout (qpn idx : Nat) (s : State) : State :=
  match s.crs.waiting.find? fun r => r.qpn == qpn && r.idx == idx with
  | none => s
  | some r =>
    let m := (s.ctx r.ctx).parkMax
    if (if m = 0 then 64 else m) < r.parkRounds then s.dropSeq r St.parked else s

/-! ### The commands -/

/-- PARK_TIMEOUT (R159). -/
def execParkTimeout (qpn idx : Nat) (s : State) : Host.Outcome State Fault Refusal := act (okQpn qpn && okIdx idx) s (s.parkTimeout qpn idx)

/-- SEGMENT_TABLE_RECEIVE (R145): the table is kept and used as received. -/
def execSegmentTableReceive (t : SegTable) (s : State) : Host.Outcome State Fault Refusal :=
  act true s ({ s with crs := { s.crs with tables := s.crs.tables ++ [t] } }.charge Act.mgmt { link := 64 + 32 * t.segs.length + 16 * t.rows.length })

/-- RESIDENCY_REPORT (R145): a device's report replaces its earlier one. -/
def execResidencyReport (dev : Nat) (r : ResReport) (s : State) : Host.Outcome State Fault Refusal :=
  act (okDev dev) s { s with crs := { s.crs with reports := (s.crs.reports.filter fun x => x.1 != dev) ++ [(dev, r)] } }

/-- POISON_HOLD_EXPIRY (R239): at the boundary that an asserted tick begins; ROUND_TICK does it at cycle 0 otherwise. -/
def execPoisonHoldExpiry (cid : Nat) (s : State) : Host.Outcome State Fault Refusal :=
  act true s (if s.rnd.tick.isSome then s.holdExpires cid else s)

/-- Every course that has finished completes at cycle 12, so that its cells and sequences are free for the courses of this boundary
(R155, R158). -/
def State.completeAll (s : State) : State := s.each (s.crs.running.map Course.id) State.courseComplete

/-- A course completes: one that has finished, or one whose last segment has ended when the tick has been asserted. -/
def State.completeNow (cid : Nat) (s : State) : State :=
  match s.course cid with
  | none => s
  | some c =>
    if c.finished then s.courseComplete cid
    else if s.rnd.tick.isNone ∨ c.stopped ∨ c.seg + 1 < c.plan.nseg ∨ !(c.segEnded || segmentDone s c) then s
    else
      let s := if c.segEnded then s else s.modCourse cid fun c => { c with lastRnd := s.rnd.num }
      (s.commitCourse c).courseComplete cid

/-- COURSE_COMPLETE (R162, R356): at the boundary that an asserted tick begins; ROUND_TICK completes what has not been commanded. -/
def execCourseComplete (cid : Nat) (s : State) : Host.Outcome State Fault Refusal := act true s (s.completeNow cid)

end Sys2Proof.Machine
end

