-- ==== Sys2Proof/Machine/Buckets.lean ====
section
/-! DEFINITION. The buckets of a tuning job (R281, R282) as far as a U list that accumulates into them needs them. -/

namespace Sys2Proof.Machine

/-! ### The parts of a job -/

/-- The key of bucket `b` of a part. -/
def bktKey (part b : Nat) : Nat := part * 4096 + b
def Job.bucket (j : Job) (k : Nat) : Bucket := look {} j.buckets k
/-- The key of one of this device's own buckets. -/
def Job.own (j : Job) (b : Nat) : Nat := bktKey j.desc.part b
def State.modBucket (key k : Nat) (f : Bucket → Bucket) (s : State) : State := s.modJob key fun j => { j with buckets := adj {} j.buckets k f }

/-- The elements of the concatenated tensors, the buckets that they are cut into, and the elements of bucket `b` (R281). -/
def Job.total (j : Job) : Nat := (j.plan.tensors.map Prod.fst).sum
def Job.nbucket (j : Job) : Nat := ceilDiv j.total 1048576
def Job.elems (j : Job) (b : Nat) : Nat := min 1048576 (j.total - b * 1048576)
def Job.area (j : Job) (b : Nat) : BucketArea := (j.plan.areas[b]?).getD {}
/-- How this member stood in a bucket of the replayed step: 0 on time, 1 carried, 2 dropped. -/
def replayStat (j : Job) (b : Nat) : Nat :=
  match j.replayed.bind fun l => l.buckets.find? fun y => y.part == j.desc.part && y.bucket == b with
  | none => 0
  | some y => bits y.mstat (2 * j.desc.member) 2

/-- A bucket's local gradient is complete (R282): SEALED, or LATE where the replayed step says so (R305). -/
def State.sealBucket (key b : Nat) (s : State) : State :=
  let j := s.job key
  let x := j.bucket (j.own b)
  if x.state ≠ .isOpen then s
  else
    let late := j.desc.replay && replayStat j b != 0
    (s.modBucket key (j.own b) fun x => { x with
      state := if late then .late else .isSealed, wasLate := late, sealedAt := j.seals, toSend := true }).modJob key fun j =>
        { j with seals := j.seals + 1, lates := j.lates + b2n late }

end Sys2Proof.Machine
end

