-- ==== Sys2Proof/Machine/Matrix.lean ====
section
/-! DEFINITION. The matrix instructions MMA and SLR, and the write of a beat (R58 to R63, R73, R88). -/

namespace Sys2Proof.Machine

/-- The tree sum of one column of one chunk (R88): `kc` products, those at `lim` and beyond zero. -/
def columnSum (fa fb kc lim : Nat) (a b : Nat → FVal) : FVal :=
  treeSum (nodeOf fa fb) 8 ((List.range kc).map fun i => if i < lim then prodOf fa fb (a i) (b i) else .zero)

/-- The 64 sums of one beat: row elements at `abase`, chunk columns at `bbase` (R59); columns from `ncol` on, and positions from
`lim` on, receive zero products. -/
def beatSums (bank : Tab Byte) (fa fb kc abase bbase lim ncol : Nat) : List FVal :=
  let wa := fmtWidth fa
  let wb := fmtWidth fb
  let row := (List.range kc).map fun i => (decElem fa (elemAt bank abase wa i)).val
  (List.range 64).map fun n =>
    columnSum fa fb kc (if n < ncol then lim else 0) (fun i => row.getD i .zero)
      fun i => (decElem fb (elemAt bank (bbase + n * kc * wb / 8) wb i)).val

/-- What one pass over rows needs: formats, chunk width, chunks, and for each chunk and row the addresses and limits. -/
structure Pass where
  fa    : Nat
  fb    : Nat
  kc    : Nat
  nch   : Nat
  row0  : Nat
  nrows : Nat
  aBase : Nat
  aStride : Nat
  bBase : Nat
  rank  : Nat
  ncol  : Nat

/-- The beats of one pass in chunk-major order (R60, R63). -/
def Cell.runPass (c : Cell) (p : Site) (q : Pass) : Cell :=
  (List.range (q.nch * q.nrows)).foldl (fun c i =>
    let j := i / q.nrows
    let m := q.row0 + i % q.nrows
    let sums := beatSums c.bank q.fa q.fb q.kc (q.aBase + m * q.aStride + j * q.kc * fmtWidth q.fa / 8)
      (q.bBase + j * 64 * q.kc * fmtWidth q.fb / 8) (q.rank - j * q.kc) q.ncol
    c.issueBeat p.st { slot := p.f.tidx.toNat, row := m, fmtI := pairInt q.fa q.fb, sat := p.sat,
                       zero := p.op (if p.opc = 0x20 then 1 else 7) 1 == 0 && j == 0, sums := sums }) c

/-- Whether a pass's operands lie within the operand bank. -/
def Pass.inBank (q : Pass) : Bool :=
  q.aBase + (q.row0 + q.nrows - 1) * q.aStride + packedLen (fmtWidth q.fa) (q.nch * q.kc) ≤ bankSize &&
  q.bBase + q.nch * (64 * q.kc * fmtWidth q.fb / 8) ≤ bankSize

/-- MMA (R58 to R61). -/
def mmaEffect (p : Site) (c : Cell) : Option Effect :=
  let fa := p.f.fmta.toNat
  let fb := p.f.fmtb.toNat
  let kc := chunkWidth fa fb
  let nch := p.op 2 4 + 1
  let t := p.f.tidx.toNat
  let q : Pass := { fa := fa, fb := fb, kc := kc, nch := nch, row0 := 0, nrows := p.cnt, aBase := 1024 * p.op 16 10,
                    aStride := nch * kc * fmtWidth fa / 8, bBase := 1024 * p.op 6 10, rank := nch * kc, ncol := 64 }
  if kc = 0 ∨ p.cnt = 0 ∨ 64 < p.cnt ∨ p.op 0 1 ≠ 0 ∨ !p.owns t ∨ !q.inBank then none
  else
    (c.takeSlot t (pairInt fa fb) (p.op 1 1 == 1) fun m => decide (m < p.cnt)).map fun c =>
      { cell := c.runPass p q, cycles := 4 + nch * max p.cnt 4, report := p.f.rm ≠ 0 }

/-- The pass of one run of an SLR (R63). -/
def runPassOf (p : Site) (fa fb kc : Nat) (r : Run) : Pass :=
  let up := p.op 4 1 == 1
  let coff := p.op 5 2
  let nch := if up then ceilDiv r.rank kc else p.op 8 4 + 1
  { fa := fa, fb := fb, kc := kc, nch := nch, row0 := r.row0, nrows := r.nrows, aBase := 1024 * p.op 16 10,
    aStride := if up then 256 * fmtWidth fa / 8 else nch * kc * fmtWidth fa / 8, bBase := 1024 * r.bbase,
    rank := if up then r.rank else nch * kc, ncol := if up then 64 else r.rank - 64 * coff }

/-- SLR (R58 to R63). -/
def slrEffect (p : Site) (c : Cell) : Option Effect :=
  let fa := p.f.fmta.toNat
  let fb := p.f.fmtb.toNat
  let kc := chunkWidth fa fb
  let up := p.op 4 1 == 1
  let coff := p.op 5 2
  let t := p.f.tidx.toNat
  let runs := runList c.table (p.op 12 4)
  let skipped := fun (r : Run) => r.skip || (!up && r.rank ≤ 64 * coff)
  let live := runs.filter fun r => !skipped r
  if kc = 0 ∨ p.cnt = 0 ∨ 64 < p.cnt ∨ p.op 0 4 ≠ 0 ∨ (up ∧ (p.op 8 4 ≠ 0 ∨ coff ≠ 0)) ∨ !p.owns t ∨
      !runsOk p.cnt 0 runs ∨ (runs.any fun r => !r.skip && (r.rank == 0 || 256 < r.rank)) ∨
      !(live.all fun r => (runPassOf p fa fb kc r).inBank) then none
  else
    let hit := fun m => live.any fun r => r.row0 ≤ m && m < r.row0 + r.nrows
    (c.takeSlot t (pairInt fa fb) (p.op 7 1 == 1) hit).map fun c =>
      { cell := live.foldl (fun c r => c.runPass p (runPassOf p fa fb kc r)) c
        cycles := (runs.map fun r => if skipped r then 1 else 4 + (runPassOf p fa fb kc r).nch * max r.nrows 4).sum
        report := p.f.rm ≠ 0 }

/-- MMA (R60). -/
def execMma (lc : Nat) (st : Strm) (f : CellWord) (s : State) : Host.Outcome State Fault Refusal :=
  act (okCell lc) s (s.issueCell 0x20 lc st f mmaEffect)

/-- SLR (R63). -/
def execSlr (lc : Nat) (st : Strm) (f : CellWord) (s : State) : Host.Outcome State Fault Refusal :=
  act (okCell lc) s (s.issueCell 0x21 lc st f slrEffect)

/-- BEAT_WRITEBACK (R60, R73): the oldest beat in flight of a stream is written to its slot. -/
def execBeatWriteback (lc : Nat) (st : Strm) (s : State) : Host.Outcome State Fault Refusal :=
  act (okCell lc) s (s.modCell lc fun c => c.oldestBeat st)

end Sys2Proof.Machine
end

