-- ==== Sys2Proof/Machine/Trans.lean ====
section
/-! DEFINITION. The functions whose results the manual defines as exact mathematical values rounded once (R113, R122): each is
computed here in fixed point with 320 fraction bits, an inexact value carrying a set bit below its last one, so that the one
rounding that follows sees on which side of every boundary the exact value lies. -/

namespace Sys2Proof.Machine

/-- The fraction bits of the fixed-point numbers below. -/
abbrev fxBits : Nat := 320
abbrev fxOne : Nat := 2 ^ 320

/-- floor(ln 2 × 2^320). -/
def fxLn2 : Nat := 1480553391661173448385607439722553250922680800745876974795605978609098082859138712941075737848984
/-- floor(2^320 / sqrt(2 pi)). -/
def fxInvSqrt2Pi : Nat := 852135539018184763820396513245673747463731821652439675318870577517399952981679869195813084020151
/-- floor(2^321 / sqrt(pi)). -/
def fxTwoInvSqrtPi : Nat := 2410203272519249216264429303418431786590919952803993071303316359311055940753903742343790935809570

/-- A positive inexact value n × 2^-320, a set bit below its last one. -/
def sticky (n : Nat) : FVal := .fin false (2 * n + 1) (-321)

/-- floor(sqrt(n)) by bits from the given one down. -/
def isqrtFrom (bit : Nat) (n acc : Nat) : Nat :=
  match bit with
  | 0 => acc
  | b + 1 => let t := acc + 2 ^ b; if t * t ≤ n then isqrtFrom b n t else isqrtFrom b n acc

/-- 1 / x for a finite x that is not zero. -/
def recip (neg : Bool) (man : Nat) (exp : Int) : FVal :=
  let n := 2 ^ 256
  .fin neg (2 * (n / man) + (if n % man = 0 then 0 else 1)) (-exp - 257)

/-- 1 / sqrt(man × 2^exp) for man not zero. -/
def recipSqrt (man : Nat) (exp : Int) : FVal :=
  let m := if exp % 2 = 0 then man else 2 * man
  let e := if exp % 2 = 0 then exp else exp - 1
  let n := 2 ^ 400
  let r := isqrtFrom 201 (n / m) 0
  .fin false (2 * r + (if r * r * m = n then 0 else 1)) (-(e / 2) - 201)

/-- The sum of t, t r / k, t r^2 / (k (k + 1)), ... in fixed point. -/
def expSeries (fuel r k t acc : Nat) : Nat :=
  match fuel with
  | 0 => acc
  | f + 1 => if t = 0 then acc else expSeries f r (k + 1) (t * r / fxOne / k) (acc + t)

/-- e^r for r from 0 to ln 2 in fixed point. -/
def fxExp (r : Nat) : Nat := expSeries 100 r 1 fxOne 0

/-- 2^x for a finite x (R113): exact for an integer x. -/
def exp2V (x : FVal) : FVal :=
  match x with
  | .nan => .nan
  | .inf n => if n then .zero else .inf false
  | .fin n m e =>
    let big := 12 < Int.ofNat (bitLen m) + e
    if m = 0 then .one
    else if big then (if n then .fin false 1 (-4096) else .fin false 1 4096)
    else
      let w := x.floorAt 0
      let frac := (x.floorAt fxBits - w * Int.ofNat fxOne).toNat
      if frac = 0 then .fin false 1 w
      else .fin false (2 * fxExp (frac * fxLn2 / fxOne) + 1) (w - 321)

/-- e^(n / 2^k) as significand and exponent: the value is the first times 2 to the second, over 2^320. -/
def expParts (n : Int) (k : Nat) : Nat × Int :=
  let x := n * Int.ofNat (2 ^ (320 - k))
  let w := x / Int.ofNat fxLn2
  (fxExp (x - w * Int.ofNat fxLn2).toNat, w)

/-- e^(n / 2^k) in fixed point. -/
def fxExpAt (n : Int) (k : Nat) : Nat :=
  let p := expParts n k
  if 0 ≤ p.2 then p.1 * 2 ^ p.2.toNat else p.1 / 2 ^ (-p.2).toNat

/-- The sum of z^(2 i + 1) / (2 i + 1) in fixed point. -/
def atanhSeries (fuel z2 k p acc : Nat) : Nat :=
  match fuel with
  | 0 => acc
  | f + 1 => if p = 0 then acc else atanhSeries f z2 (k + 2) (p * z2 / fxOne) (acc + p / k)

/-- ln y for y of at least 1 in fixed point. -/
def fxLn (y : Nat) : Nat :=
  let m := bitLen y - 321
  let y := y / 2 ^ m
  let z := (y - fxOne) * fxOne / (y + fxOne)
  2 * atanhSeries 110 (z * z / fxOne) 1 z 0 + m * fxLn2

/-- The sum of a^(2 i + 1) c^i / (1 × 3 × ... × (2 i + 1)) in fixed point, by its ratio a^2 c / (2 i + 3). -/
def oddSeries (fuel num k t acc : Nat) : Nat :=
  match fuel with
  | 0 => acc
  | f + 1 => if t = 0 then acc else oddSeries f num (k + 2) (t * num / fxOne / k) (acc + t)

/-- phi(x) times the sum of x^(2 i + 1) / (1 × 3 × ... × (2 i + 1)), for x = n / 2^k: the standard normal CDF less one half. -/
def fxPhi (n k : Nat) : Nat :=
  let x := n * 2 ^ (320 - k)
  let s := oddSeries 500 (n * n * 2 ^ (320 - 2 * k)) 3 x 0
  fxExpAt (-(Int.ofNat (n * n))) (2 * k + 1) * fxInvSqrt2Pi / fxOne * s / fxOne

/-- erf(n / 2^k). -/
def fxErf (n k : Nat) : Nat :=
  let x := n * 2 ^ (320 - k)
  let s := oddSeries 500 (2 * n * n * 2 ^ (320 - 2 * k)) 3 x 0
  fxExpAt (-(Int.ofNat (n * n))) (2 * k) * fxTwoInvSqrtPi / fxOne * s / fxOne

/-! ### The built-in tables (R122) -/

/-- A built-in table: XMIN, LOG2STEP, N, and the low and high modes with their constants as FP32 bits (0 clamp, 1 extrapolate,
2 constant). -/
structure RomTable where
  xmin : Int
  log2 : Int
  n    : Nat
  low  : Nat
  lowc : Nat
  high : Nat
  highc : Nat

def romTable (id : Nat) : RomTable :=
  match id with
  | 0 => ⟨-32, -6, 2049, 2, 0, 0, 0⟩
  | 1 => ⟨-16, -7, 4097, 2, 0, 2, 0x3F800000⟩
  | 2 => ⟨-8, -8, 4097, 2, 0xBF800000, 2, 0x3F800000⟩
  | 3 => ⟨-8, -8, 4097, 2, 0, 2, 0x3F800000⟩
  | 4 => ⟨-16, -7, 4097, 2, 0, 1, 0⟩
  | _ => ⟨-4, -9, 4097, 2, 0xBF800000, 2, 0x3F800000⟩

/-- The exact function value at n / 2^k of table `id`. -/
def romExact (id : Nat) (n : Int) (k : Nat) : FVal :=
  let a := n.natAbs
  match id with
  | 0 => if n = 0 then .one else let p := expParts n k; .fin false (2 * p.1 + 1) (p.2 - 321)
  | 1 => sticky (fxOne * fxOne / (fxOne + fxExpAt (-n) k))
  | 2 => if n = 0 then .zero
      else let e := fxExpAt (2 * Int.ofNat a) k
           let v := sticky ((e - fxOne) * fxOne / (e + fxOne))
           if n < 0 then v.neg else v
  | 3 => let h := fxPhi a k
      if n < 0 then sticky (fxOne / 2 - h) else sticky (fxOne / 2 + h)
  | 4 => sticky (fxLn (fxOne + fxExpAt n k))
  | _ => if n = 0 then .zero else let v := sticky (fxErf a k); if n < 0 then v.neg else v

/-- Entry `i` of a built-in table: the exact value at XMIN + i × step rounded to FP32 with RNE. -/
def romEntry (id i : Nat) : Nat :=
  let t := romTable id
  let k := (-t.log2).toNat
  roundF (ffmt 0) 0 0 (romExact id (t.xmin * Int.ofNat (2 ^ k) + Int.ofNat i) k)

end Sys2Proof.Machine
end

