-- ==== Sys2Proof/Machine/Slath.lean ====
section
/-! DEFINITION. The slath engines: the U list's order, gates and violations (R245 to R250), decode attention (R251 to R255), small-batch
GEMV (R257, R258), optimizer updates (R259 to R262), accumulation in place (R263), and the list time-out (R249). -/

namespace Sys2Proof.Machine

/-! ### FP32 arithmetic (R254, R261) -/

/-- The quotient of two values, a set bit below the last one where it is inexact (R113). -/
def divV (a b : FVal) : FVal :=
  match a, b with
  | .nan, _ | _, .nan => .nan
  | .inf s, .inf t => if s == t then .nan else .nan
  | .inf s, .fin t _ _ => .inf (s != t)
  | .fin s _ _, .inf t => .fin (s != t) 0 0
  | .fin s m e, .fin t n f =>
    if n = 0 then (if m = 0 then .nan else .inf (s != t))
    else
      let k := m * 2 ^ 128
      .fin (s != t) (2 * (k / n) + (if k % n = 0 then 0 else 1)) (e - f - 129)

/-- The square root, a set bit below the last one where it is inexact. -/
def sqrtV (a : FVal) : FVal :=
  match a with
  | .nan => .nan
  | .inf s => if s then .nan else .inf false
  | .fin s m e =>
    if m = 0 then .fin s 0 0
    else if s then .nan
    else
      let x := if e % 2 = 0 then m * 2 ^ 128 else 2 * m * 2 ^ 128
      let g := if e % 2 = 0 then e else e - 1
      let r := isqrtFrom 128 x 0
      .fin false (2 * r + (if r * r = x then 0 else 1)) (g / 2 - 65)

/-- log2 of a finite value of at least 1. -/
def log2V (a : FVal) : FVal :=
  match a with
  | .nan => .nan
  | .inf s => if s then .nan else .inf false
  | .fin s m e =>
    if m = 0 ∨ s then .nan
    else
      let k := bitLen m - 1
      let w := Int.ofNat k + e
      let y := m * fxOne / 2 ^ k
      if y = fxOne then FVal.ofInt w
      else
        let frac := fxLn y * fxOne / fxLn2
        (FVal.ofInt w).add (sticky frac)

def mulR (a b : FVal) : FVal := rnd32 (a.mul b)
def addR (a b : FVal) : FVal := rnd32 (a.add b)
def subR (a b : FVal) : FVal := rnd32 (a.sub b)
def divR (a b : FVal) : FVal := rnd32 (divV a b)
def sqrtR (a : FVal) : FVal := rnd32 (sqrtV a)
/-- a × b + c, rounded once. -/
def fmaR (a b c : FVal) : FVal := rnd32 ((a.mul b).add c)

/-- The largest of a list; the first of equal ones. -/
def maxOf : List FVal → FVal
  | [] => .nan
  | x :: r => r.foldl (fun m y => if m.lt y then y else m) x

/-! ### A command of a U list (R248, R249) -/

/-- A command at its list's place: course, die, list, its 64 bytes. -/
structure UCmd where
  course : Course
  die  : Nat
  list : UState
  raw  : BitVec 512

def UCmd.at (c : UCmd) (off n : Nat) : Nat := dAt c.raw off n
def UCmd.opc (c : UCmd) : Nat := c.at 0 1
def UCmd.dcell (c : UCmd) : Nat := c.at 4 2
def UCmd.ctx (c : UCmd) : Nat := c.at 10 2
def UCmd.dbase (c : UCmd) : Nat := 1024 * c.at 8 2

/-- The rounding of a command; the reserved code rounds as RNE (R13). -/
def UCmd.rm (c : UCmd) : Nat := if c.at 7 1 = 7 then 0 else c.at 7 1

/-- Whether R13 has the device report a command's RM. DESIGN CHOICE: R57 names only the cell instructions that round under RM; of the U
commands the model takes ADAMW and SGDM, which alone round by it. -/
def UCmd.rmBad (c : UCmd) : Bool := c.at 7 1 == 7 && (c.opc == 3 || c.opc == 4)

/-- The commands of a course's list on a die. -/
def ulistOf (c : Course) (die : Nat) : List (BitVec 512) := ((c.plan.ulists.find? fun u => u.die == die).map UList.cmds).getD []

/-- The command at which a list stands. -/
def uCmdAt (s : State) (cid die : Nat) : Option UCmd :=
  match s.course cid, (s.msdOf die).lists.find? fun u => u.cid == cid with
  | some c, some u =>
    if c.stopped || u.ended then none else ((ulistOf c die)[u.idx]?).map fun x => { course := c, die := die, list := u, raw := x }
  | _, _ => none

/-- The header's limits, and a context and a cell that are the course's own. -/
def uHeadOk (c : UCmd) : Bool :=
  decide (c.at 1 1 < 16) && decide (c.at 6 1 < 32) && decide (c.at 7 1 < 8) && decide (c.at 8 2 < 1024) && c.at 12 4 == 0
    && decide (c.ctx < 4096) && (c.ctx == c.course.ctx || c.course.segs.any fun g => g.ctx == c.ctx)
    && (c.dcell == 0x3FF || (planCells c.course.plan).contains c.dcell)

/-- A completed command of a step's last micro-batch course seals the buckets whose seal-list entry it is (R281, R282). -/
def State.sealAfter (c : UCmd) (s : State) : State :=
  match c.course.job with
  | none => s
  | some x =>
    let j := s.job x.1
    if x.2 + 1 ≠ j.desc.micro then s
    else s.each (List.range j.nbucket) fun b s => if j.plan.seals[b]? = some (c.die, c.list.idx) then s.sealBucket x.1 b else s

/-- The list moves past a command, whose round of issue the time-out of the next one counts from (R249); after its last one the list has
ended, which may end the course's segment. -/
def State.uNext (c : UCmd) (s : State) : State :=
  let s := s.modList c.course.id c.die fun u =>
    { u with idx := u.idx + 1, since := if u.asked.isSome then u.since else s.rnd.num, asked := none
             ended := (ulistOf c.course c.die).length ≤ u.idx + 1 }
  (s.sealAfter c).checkSegment c.course.id

/-- WAIT is subtracted from the gate counter as a command issues. -/
def State.uGate (c : UCmd) (s : State) : State :=
  s.modList c.course.id c.die fun u => { u with gates := adj 0 u.gates (c.at 1 1 % 16) fun v => v - c.at 2 2 }

/-- The journal entry of a U list's command that breaks a rule (R56, R248). -/
def UCmd.entry (c : UCmd) : JEntry :=
  { code := St.planViolation, cls := Cls.workEnded, blk := Blk.plan, unit := c.die, ctx := c.course.ctx, tag := courseTag c.course,
    gen := c.course.gen, detail := c.opc + c.list.idx * 2 ^ 8 }

/-- A reserved RM is reported, and the course's status stands, as under R57. -/
def State.reportRm (c : UCmd) (s : State) : State := if c.rmBad then s.journal c.entry else s

/-- A plan violation retires with no effect, is counted and journalled, and marks the course. -/
def State.uViolation (c : UCmd) (s : State) : State :=
  let s := s.modMsd c.die fun m => { m with viol := sat 16 (m.viol + 1) }
  ((s.journal c.entry).modCourse c.course.id fun x => { x with violated := true }).uNext c

/-- A command is complete: its results are written, DEVC of DCELL rises, and the list goes on (R250). -/
def State.uDone (c : UCmd) (s : State) : State :=
  let s := s.modMsd c.die fun m => { m with done := sat 32 (m.done + 1) }
  let s := if c.dcell = 0x3FF then s
    else s.signal (.cell c.dcell (if bit (c.at 6 1) 4 then .b else .f) (c.at 6 1 % 16)) 1
  s.uNext c

/-- Commands whose UOPC is reserved retire as plan violations, `n` at most. -/
def State.skipUops (n cid die : Nat) (s : State) : State :=
  match n with
  | 0 => s
  | k + 1 =>
    match uCmdAt s cid die with
    | none => s
    | some c =>
      if (1 ≤ c.opc && c.opc ≤ 5) || look 0 c.list.gates (c.at 1 1 % 16) < c.at 2 2 then s
      else ((s.uGate c).uViolation c).skipUops k cid die

/-- What a command does once it issues: its cost, and its effect or the access that fails. -/
structure UEffect where
  cost : Nat
  run  : State → Except AccErr Unit × State

/-- A command issues: its HBM bytes ask for admission in units of its class (R245), under the generation of its context's slot (R400). -/
def State.uAsk (c : UCmd) (n : Nat) (s : State) : State :=
  let m : Move := { what := .ucmd c.course.id c.die, cls := if c.opc = 3 ∨ c.opc = 4 then Act.update else c.course.plan.cls, link := false, bytes := n }
  let g := (s.tkey c.ctx).gen
  let s' := s.modList c.course.id c.die fun u => { u with asked := some (c.ctx, g), since := s.rnd.num }
  if m.cls = Act.tune ∧ learningMove s m ∧ explicitWaits s then s'.holdMove m else State.retryTune s (s'.pushMove m)

/-- What an access that must wait leaves of a command's run: the wait itself, and the repair that it joined. -/
def State.uWaits (r s : State) : State := { s with mem := { s.mem with waits := r.mem.waits, repairs := r.mem.repairs } }

/-- One command of a U list: nothing unless it is the one at which the list stands and its gate has reached WAIT; a plan violation when
`body` answers none; otherwise it runs from start to end once its HBM bytes have been admitted. With a stale burst it retires without effect
(R265). -/
def State.uIssue (opc cid die : Nat) (u : BitVec 512) (body : UCmd → State → Option UEffect) (s : State) : State :=
  let s := s.skipUops 4096 cid die
  match uCmdAt s cid die with
  | none => s
  | some c =>
    if c.raw ≠ u ∨ c.opc ≠ opc ∨ look 0 c.list.gates (c.at 1 1 % 16) < c.at 2 2 then s
    else
      match if uHeadOk c then body c s else none with
      | none => (s.uGate c).uViolation c
      | some e =>
        let s := if c.list.asked.isSome then s else s.uAsk c e.cost
        let g := (s.tkey c.ctx).gen
        if moveLeft s (.ucmd cid die) ≠ 0 then s
        else if (c.list.asked.getD (c.ctx, g)).2 ≠ g then ((s.countStale die).uGate c).uNext c
        else
          let r := e.run s
          match r.1 with
          | .error .waits => r.2.uWaits s
          | .error x => r.2.courseFails cid x
          | .ok () => ((r.2.uGate c).reportRm c).uDone c

/-! ### Operands -/

def stageBytes (c : UCmd) : Nat := 1024 * c.list.kb
/-- Whether `n` bytes of staging at `off` lie in the course's region. -/
def inStage (c : UCmd) (off n : Nat) : Bool := decide (off + n ≤ stageBytes c)

/-- Where an address of a command leads. -/
def uSpot (s : State) (c : UCmd) (a : Nat) : Spot := courseAt s c.course c.ctx a

/-- Whether every page of a range resolves (R209). -/
def uResolves (s : State) (c : UCmd) (a n : Nat) : Bool :=
  (pieces a n).all fun x => uSpot s c (x.1 * frameBytes + x.2.1) != .unmapped

/-- Whether a range lies wholly in the die's own stack. -/
def inStack (s : State) (c : UCmd) (a n : Nat) : Bool :=
  (pieces a n).all fun x =>
    match uSpot s c (x.1 * frameBytes + x.2.1) with
    | .frame f _ => msdOfFrame f == c.die
    | _ => false

def uWritable (s : State) (c : UCmd) (a n : Nat) : Bool := courseWritable s c.course false c.ctx a n

/-- FP32 values of a byte string. -/
def f32s (n : Nat) (bs : List Byte) : List FVal :=
  let t := wrBytes [] 0 bs
  (List.range n).map fun i => decF (ffmt 0) (leNat (rdBytes t (4 * i) 4))

def encF32 (xs : List FVal) : List Byte := xs.flatMap fun x => leBytes 4 (roundF (ffmt 0) 0 0 x)

/-! ### ATTN (R251 to R255) -/

structure Attn where
  ntok : Nat
  d    : Nat
  qh   : Nat
  g    : Nat
  kf   : Nat
  qf   : Nat

def attnOf (c : UCmd) : Attn :=
  { ntok := c.at 22 4, d := 2 ^ c.at 35 1, qh := c.at 36 1, g := 2 ^ c.at 37 1, kf := c.at 34 1 % 16, qf := c.at 34 1 / 16 }

def Attn.blocks (a : Attn) : Nat := ceilDiv a.ntok 64
def Attn.groups (a : Attn) : Nat := ceilDiv a.blocks a.g
def Attn.blockBytes (a : Attn) : Nat := 128 * a.d * fmtWidth a.kf / 8
/-- The blocks of group `j`. -/
def Attn.group (a : Attn) (j : Nat) : List Nat := (List.range a.g).filterMap fun i => if j * a.g + i < a.blocks then some (j * a.g + i) else none

def attnLimits (c : UCmd) (a : Attn) : Bool :=
  decide (1 ≤ a.ntok) && decide (a.ntok ≤ 2 ^ 24) && [1, 3, 4].contains a.kf && decide (a.qf ≤ 1) && decide (6 ≤ c.at 35 1)
    && decide (c.at 35 1 ≤ 8) && decide (1 ≤ a.qh) && decide (a.qh ≤ 8) && decide (c.at 37 1 ≤ 4) && decide (c.at 32 2 < 1024)
    && c.at 38 26 == 0 && c.dcell != 0x3FF
    && inStage c (1024 * c.at 30 2) (a.qh * a.d * fmtWidth a.qf / 8)
    && decide (c.dbase + 4 * a.d * a.qh * a.groups ≤ bankSize) && decide (1024 * c.at 32 2 + 4 * a.qh * a.groups ≤ bankSize)

/-- A group's blocks lie aligned within one page, which is in T1; what a removal has taken away holds up nobody (R164). -/
def groupOk (s : State) (c : UCmd) (a : Attn) (blocks : List Nat) : Bool :=
  (blocks.all fun b => decide (b < 2 ^ 47) && b % a.blockBytes == 0)
    && (blocks.map fun b => b / frameBytes).eraseDups.length == 1
    && blocks.all fun b => courseGone s c.course c.ctx b || match uSpot s c b with | .frame f _ => occupied (s.frame f) | _ => false

/-- The die that computes a group: its first block's stack. -/
def groupDie (s : State) (c : UCmd) (blocks : List Nat) : Option Nat :=
  match blocks.head?.map (uSpot s c) with
  | some (.frame f _) => some (msdOfFrame f)
  | _ => none

/-- One partial of R254: the output elements and the log-sum-exp, from the group's key and value rows of the attended tokens. -/
def partialOf (a : Attn) (scale : FVal) (q : List FVal) (ks vs : List (List FVal)) : List FVal × FVal :=
  let node := fun (x y : FVal) => rnd32 (x.add y)
  let ss := ks.map fun k => mulR (treeSum node 8 ((q.zip k).map fun x => x.1.mul x.2)) scale
  let m := maxOf ss
  let ps := ss.map fun x => rnd32 (exp2V (subR x m))
  let slots := 64 * a.g
  let pad := List.replicate (slots - ps.length) FVal.zero
  let l := treeSum node 10 (ps ++ pad)
  let os := (List.range a.d).map fun n =>
    divR (treeSum node 10 ((ps.zip vs).map (fun x => x.1.mul (x.2.getD n .zero)) ++ pad)) l
  let lse := addR m (rnd32 (log2V l))
  let bad := ss.any FVal.isNan || os.any FVal.isNan || lse.isNan || ks.any (fun k => k.any FVal.isNan) || vs.any fun v => v.any FVal.isNan
  if bad then (List.replicate a.d .nan, .nan) else (os, lse)

/-- The rows of a block's keys or values in format. -/
def kvRows (a : Attn) (n : Nat) (t : Tab Byte) (base : Nat) : List (List FVal) :=
  (List.range n).map fun i => (List.range a.d).map fun k => (decElem a.kf (elemAt t base (fmtWidth a.kf) (i * a.d + k))).val

/-- The partials of one group written to the bank of DCELL. -/
def State.attnGroup (c : UCmd) (a : Attn) (j : Nat) (addrs : List Nat) (s : State) : Except AccErr Unit × State :=
  let read := (a.group j).zip addrs
  let r := read.foldl (fun (acc : Except AccErr (List (List FVal) × List (List FVal)) × State) x =>
    match acc.1 with
    | .error e => (.error e, acc.2)
    | .ok kv =>
      let y := acc.2.courseRead c.course false c.ctx x.2 a.blockBytes
      (match y.1 with
      | .error e => (.error e, y.2)
      | .ok bs =>
        let t := wrBytes [] 0 bs
        let n := min 64 (a.ntok - 64 * x.1)
        (.ok (kv.1 ++ kvRows a n t 0, kv.2 ++ kvRows a n t (a.blockBytes / 2)), y.2))) (.ok ([], []), s)
  match r.1 with
  | .error e => (.error e, r.2)
  | .ok kv =>
    let scale := decF (ffmt 0) (c.at 26 4)
    let put := fun (h : Nat) (s : State) =>
      let q := (List.range a.d).map fun i =>
        (decElem a.qf (elemAt c.list.stage (1024 * c.at 30 2 + h * a.d * fmtWidth a.qf / 8) (fmtWidth a.qf) i)).val
      let p := partialOf a scale q kv.1 kv.2
      s.modCell c.dcell fun x =>
        let b := wrBytes x.bank (c.dbase + 4 * (a.d * (a.qh * j + h))) (encF32 p.1)
        { x with bank := wrBytes b (1024 * c.at 32 2 + 4 * (a.qh * j + h)) (encF32 [p.2]) }
    (.ok (), r.2.each (List.range a.qh) put)

def attnBody (c : UCmd) (s : State) : Option UEffect :=
  let a := attnOf c
  let btab := c.at 16 6
  if !attnLimits c a ∨ !uResolves s c btab (8 * a.blocks) then none
  else
    let tab := s.courseRead c.course false c.ctx btab (8 * a.blocks)
    match tab.1 with
    | .error e => some { cost := 0, run := fun s => (.error e, s) }
    | .ok bs =>
      let t := wrBytes [] 0 bs
      let addr := fun (b : Nat) => leNat (rdBytes t (8 * b) 8)
      let groups := (List.range a.groups).map fun j => (j, (a.group j).map addr)
      if !groups.all fun g => groupOk s c a g.2 then none
      else
        let mine := groups.filter fun g => groupDie s c g.2 == some c.die
        some {
          cost := 8 * a.blocks + (mine.map fun g => g.2.length * a.blockBytes).sum
          run := fun s => mine.foldl (fun acc g =>
            match acc.1 with
            | .error e => (.error e, acc.2)
            | .ok () => acc.2.attnGroup c a g.1 g.2) (.ok (), s) }

/-! ### GEMV (R257, R258) -/

def gemvBody (c : UCmd) (s : State) : Option UEffect :=
  let rows := c.at 24 1
  let fa := c.at 25 1 % 16
  let fb := c.at 25 1 / 16
  let nch := c.at 26 2
  let kc := chunkWidth fa fb
  let chunk := 64 * kc * fmtWidth fb / 8
  let xoff := 1024 * c.at 22 2
  let stride := nch * kc * fmtWidth fa / 8
  let waddr := c.at 16 6
  if rows = 0 ∨ 8 < rows ∨ nch = 0 ∨ 4096 < nch ∨ kc = 0 ∨ fa = 0 ∨ fb = 0 ∨ c.at 28 36 ≠ 0 ∨ c.dcell = 0x3FF
      ∨ !inStage c xoff (rows * stride) ∨ bankSize < c.dbase + 384 * rows ∨ !uResolves s c waddr (nch * chunk) then none
  else
    some {
      cost := nch * chunk
      run := fun s =>
        let r := s.courseRead c.course false c.ctx waddr (nch * chunk)
        match r.1 with
        | .error e => (.error e, r.2)
        | .ok bs =>
          let a := rdBytes c.list.stage xoff (rows * stride)
          let base := rows * stride
          let bank := wrBytes (wrBytes [] 0 a) base bs
          let slot := (List.range (nch * rows)).foldl (fun (t : Slot) i =>
            let j := i / rows
            let m := i % rows
            t.writeBeat { slot := 0, row := m, fmtI := pairInt fa fb, sat := false, zero := j == 0,
                          sums := beatSums bank fa fb kc (m * stride + j * kc * fmtWidth fa / 8) (base + j * chunk) kc 64 })
            { fmtI := pairInt fa fb, live := true }
          let out := (List.range (64 * rows)).flatMap fun i => leBytes 6 (slot.entry (i / 64) (i % 64))
          (.ok (), r.2.modCell c.dcell fun x => { x with bank := wrBytes x.bank c.dbase out }) }

/-! ### ADAMW and SGDM (R259 to R262) -/

/-- The values of a parameter record (R260). -/
structure Params where
  lr    : FVal
  beta1 : FVal
  beta2 : FVal
  omb1  : FVal
  omb2  : FVal
  eps   : FVal
  wd    : FVal
  c1    : FVal
  c2    : FVal
  clip  : FVal
  nest  : Bool

def paramsAt (t : Tab Byte) (a : Nat) : Params :=
  let f := fun (i : Nat) => decF (ffmt 0) (leNat (rdBytes t (a + 4 * i) 4))
  { lr := f 0, beta1 := f 1, beta2 := f 2, omb1 := f 3, omb2 := f 4, eps := f 5, wd := f 6, c1 := f 7, c2 := f 8, clip := f 9
    nest := (look 0 t (a + 40)).toNat % 2 == 1 }

/-- A NaN in a value that the command uses. -/
def Params.bad (p : Params) (sgdm : Bool) : Bool :=
  ([p.lr, p.beta1, p.omb1, p.wd, p.clip] ++ if sgdm then [] else [p.beta2, p.omb2, p.eps, p.c1, p.c2]).any FVal.isNan

/-- theta, m or b, v and the gradient of one element; their new values. -/
def updateElem (sgdm : Bool) (p : Params) (theta m v g : FVal) : FVal × FVal × FVal :=
  let g := mulR g p.clip
  let m' := fmaR p.beta1 m (mulR p.omb1 g)
  let v' := fmaR p.beta2 v (mulR p.omb2 (mulR g g))
  let u := if sgdm then (if p.nest then fmaR p.beta1 m' g else m')
    else divR (mulR m' p.c1) (addR (sqrtR (mulR v' p.c2)) p.eps)
  (fmaR p.lr.neg (fmaR p.wd theta u) theta, m', v')

/-- The seed record that SEED selects (R262, R277). -/
def seedFor (s : State) (c : UCmd) (j : Nat) : Option Seed :=
  if j = 0 then some c.course.seed
  else match c.course.job with
    | none => none
    | some x =>
      let b := s.job x.1
      some { ctxSeed := c.course.seed.ctxSeed, gen := c.course.gen, wver := (s.weaver b.desc.handle).version
             course := 0x80000000 + 16 * (b.step % 2 ^ 27) + j }

/-- The random number of element `i` of an update (R262). -/
def updateU (seed : Seed) (opc tensor j e : Nat) : Nat :=
  let site := mix64 (seedMix seed ^^^ (opc * 2 ^ 56) ^^^ (tensor * 2 ^ 16) ^^^ j)
  mix64 (site ^^^ e) % 2 ^ 24

/-- Read several ranges of a command one after the other. -/
def State.uReads (c : UCmd) (xs : List (Nat × Nat)) (s : State) : Except AccErr (List (List Byte)) × State :=
  xs.foldl (fun (acc : Except AccErr (List (List Byte)) × State) x =>
    match acc.1 with
    | .error e => (.error e, acc.2)
    | .ok out =>
      let r := acc.2.courseRead c.course false c.ctx x.1 x.2
      (match r.1 with | .ok bs => .ok (out ++ [bs]) | .error e => .error e, r.2)) (.ok [], s)

/-- Write several ranges of a command. -/
def State.uWrites (c : UCmd) (xs : List (Nat × List Byte)) (s : State) : Except AccErr Unit × State :=
  xs.foldl (fun acc x =>
    match acc.1 with
    | .error e => (.error e, acc.2)
    | .ok () => acc.2.courseWrite c.course false c.ctx x.1 x.2) (.ok (), s)

/-- Whether WORK may be written (R259): pages that the plan set names as the working copy, or, through the view, the frames of a weaver's copy that
no running course uses (R161). DESIGN CHOICE: the manual maps no weaver frame at a private address, so a page there is taken as it is. -/
def workOk (s : State) (c : UCmd) (a n : Nat) : Bool :=
  (pieces a n).all fun x =>
    let d := x.1 * frameBytes + x.2.1
    match (viewOff c.course c.ctx d).map (viewSpot s c.course) with
    | some (.frame f _) => s.weav.dir.any fun p => p.2.trainable && (copyPart p.2 (1 - p.2.copy)).contains f && !copyBusy s p.1
    | _ => pieceWritable s c.course false c.ctx d

/-- Write the working copy of an update. -/
def State.writeWork (c : UCmd) (a : Nat) (bs : List Byte) (s : State) : Except AccErr Unit × State :=
  (pieces a bs.length).foldl (fun acc x =>
    let d := x.1 * frameBytes + x.2.1
    let part := (bs.drop x.2.2.1).take x.2.2.2
    match acc.1, (viewOff c.course c.ctx d).map (viewSpot acc.2 c.course) with
    | .error e, _ => (.error e, acc.2)
    | .ok (), some (.frame f off) =>
      if keyServes acc.2 f then (.ok (), (acc.2.frameWrite f off part).touch f off part.length) else (.error (.fails St.revoked), acc.2.noKey f)
    | .ok (), _ => acc.2.courseWrite c.course false c.ctx d part) (.ok (), s)

/-- The gradients of an update in FP32: INT32 ones times 2^GEXP, rounded. -/
def gradOf (fmt : Nat) (gexp : Nat) (n : Nat) (bs : List Byte) : List FVal :=
  if fmt = 0 then f32s n bs
  else
    let t := wrBytes [] 0 bs
    let two := FVal.fin false 1 (signedOf 8 gexp)
    (List.range n).map fun i => rnd32 ((FVal.ofInt (signedOf 32 (leNat (rdBytes t (4 * i) 4)))).mul two)

/-- The results of an update: master elements, state elements and the bytes of the working copy, of the bytes read (R261). -/
def updateOut (sgdm : Bool) (c : UCmd) (seed : Seed) (bs : List (List Byte)) : List FVal × List FVal × List Byte :=
  let n := c.at 40 4
  let p := paramsAt c.list.stage (1024 * c.at 46 2)
  let th := f32s n (bs.getD 0 [])
  let st := f32s ((if sgdm then 4 * n else 8 * n) / 4) (bs.getD 1 [])
  let gs := gradOf (c.at 44 1) (c.at 45 1) n (bs.getD 2 [])
  let new := (List.range n).map fun i => updateElem sgdm p (th.getD i .zero) (st.getD i .zero) (st.getD (n + i) .zero) (gs.getD i .zero)
  let ths := new.map fun x => x.1
  (ths, new.map (fun x => x.2.1) ++ (if sgdm then [] else new.map fun x => x.2.2), (ths.zip (List.range n)).flatMap fun x =>
    leBytes 2 (roundF (ffmt 1) c.rm (if c.rm = 6 then updateU seed c.opc (c.at 48 4) (c.at 56 1) (c.at 52 4 + x.2) else 0) x.1))

/-- An update runs: its ranges read, then master, state and working copy written; an access that fails ends it (R258, R261). -/
def State.updateRun (sgdm : Bool) (c : UCmd) (seed : Seed) (s : State) : Except AccErr Unit × State :=
  let n := c.at 40 4
  let r := s.uReads c [(c.at 16 6, 4 * n), (c.at 22 6, if sgdm then 4 * n else 8 * n), (c.at 28 6, 4 * n)]
  match r.1 with
  | .error e => (.error e, r.2)
  | .ok bs =>
    let out := updateOut sgdm c seed bs
    let w := r.2.uWrites c [(c.at 16 6, encF32 out.1), (c.at 22 6, encF32 out.2.1)]
    match w.1 with
    | .error e => (.error e, w.2)
    | .ok () => w.2.writeWork c (c.at 34 6) out.2.2

/-- ADAMW and SGDM: the checks of the command, then the update (R258 to R261). -/
def updateBody (sgdm : Bool) (c : UCmd) (s : State) : Option UEffect :=
  let theta := c.at 16 6
  let state := c.at 22 6
  let work := c.at 34 6
  let n := c.at 40 4
  let gfmt := c.at 44 1
  let ns := if sgdm then 4 * n else 8 * n
  let prec := 1024 * c.at 46 2
  match seedFor s c (c.at 56 1) with
  | none => none
  | some seed =>
    if n = 0 ∨ 2 ^ 28 < n ∨ (gfmt ≠ 0 ∧ gfmt ≠ 8) ∨ 15 < c.at 56 1 ∨ c.at 57 7 ≠ 0 ∨ !inStage c prec 64
        ∨ (paramsAt c.list.stage prec).bad sgdm ∨ !inStack s c theta (4 * n) ∨ !inStack s c state ns
        ∨ !uResolves s c (c.at 28 6) (4 * n) ∨ !uResolves s c work (2 * n) ∨ !uWritable s c theta (4 * n) ∨ !uWritable s c state ns
        ∨ !workOk s c work (2 * n) then none
    else some { cost := (if sgdm then 22 else 30) * n, run := fun s => s.updateRun sgdm c seed }

/-! ### ACC (R263) -/

/-- The sum of two INT32 elements, and whether it saturated. -/
def addSat32 (a b : Int) : Int × Bool :=
  let x := a + b
  let y := max (-2147483648) (min 2147483647 x)
  (y, x != y)

def accBody (c : UCmd) (s : State) : Option UEffect :=
  let target := c.at 16 6
  let src := 1024 * c.at 22 2
  let n := c.at 24 4
  let fmt := c.at 28 1
  if (fmt ≠ 0 ∧ fmt ≠ 8) ∨ c.at 29 35 ≠ 0 ∨ !inStage c src (4 * n) ∨ !inStack s c target (4 * n) ∨ !uWritable s c target (4 * n) then none
  else
    some {
      cost := 8 * n
      run := fun s =>
        let r := s.courseRead c.course false c.ctx target (4 * n)
        match r.1 with
        | .error e => (.error e, r.2)
        | .ok bs =>
          let add := rdBytes c.list.stage src (4 * n)
          if fmt = 0 then
            r.2.uWrites c [(target, encF32 (((f32s n bs).zip (f32s n add)).map fun x => addR x.1 x.2))]
          else
            let ints := fun (bs : List Byte) =>
              let t := wrBytes [] 0 bs
              (List.range n).map fun i => signedOf 32 (leNat (rdBytes t (4 * i) 4))
            let sums := ((ints bs).zip (ints add)).map fun x => addSat32 x.1 x.2
            let w := r.2.uWrites c [(target, sums.flatMap fun x => leBytes 4 (x.1 % 2 ^ 32).toNat)]
            let past := (sums.filter fun x => x.2).length
            (w.1, w.2.modCourse c.course.id fun x => { x with ovf := adj 0 x.ovf c.die (· + past) }) }

/-! ### The list time-out (R249) -/

/-- A command still waiting 4 rounds after the one before it issued ends its list; the course completes with PLAN_VIOLATION. -/
def State.ulistTimeout (cid die : Nat) (s : State) : State :=
  match uCmdAt s cid die with
  | none => s
  | some c =>
    if c.list.since + 4 ≤ boundaryRnd s ∧ look 0 c.list.gates (c.at 1 1 % 16) < c.at 2 2 then
      let s := s.modMsd die fun m => { m with timeout := sat 16 (m.timeout + 1) }
      let s := s.modList cid die fun u => { u with ended := true }
      ((s.journal c.entry).modCourse cid fun x => { x with violated := true }).checkSegment cid
    else s

/-! ### The commands -/

/-- ATTN (R254). -/
def execAttn (cid die : Nat) (u : BitVec 512) (s : State) : Host.Outcome State Fault Refusal :=
  act (okMsd die) s (s.uIssue 0x01 cid die u attnBody)

/-- GEMV (R258). -/
def execGemv (cid die : Nat) (u : BitVec 512) (s : State) : Host.Outcome State Fault Refusal :=
  act (okMsd die) s (s.uIssue 0x02 cid die u gemvBody)

/-- ADAMW (R261). -/
def execAdamw (cid die : Nat) (u : BitVec 512) (s : State) : Host.Outcome State Fault Refusal :=
  act (okMsd die) s (s.uIssue 0x03 cid die u (updateBody false))

/-- SGDM (R261). -/
def execSgdm (cid die : Nat) (u : BitVec 512) (s : State) : Host.Outcome State Fault Refusal :=
  act (okMsd die) s (s.uIssue 0x04 cid die u (updateBody true))

/-- ACC (R263). -/
def execAcc (cid die : Nat) (u : BitVec 512) (s : State) : Host.Outcome State Fault Refusal :=
  act (okMsd die) s (s.uIssue 0x05 cid die u accBody)

/-- ULIST_TIMEOUT (R249). -/
def execUlistTimeout (cid die : Nat) (s : State) : Host.Outcome State Fault Refusal := act (okMsd die) s (s.ulistTimeout cid die)

end Sys2Proof.Machine
end

