-- ==== Sys2Proof/Machine/Jobs.lean ====
section
/-! DEFINITION. Tuning jobs: the descriptor and its STATE frames (R272 to R275), buckets and the integer sum (R281 to R288), the update
of a shard (R289), the step ledger (R303 to R305), the end of a job (R275, R302, R307, R308), and the halt of the device (R425). -/

namespace Sys2Proof.Machine

/-- The job lead: member 0 of part 0 (R272). -/
def Job.isLead (j : Job) : Bool := j.desc.member == 0 && j.desc.part == 0

/-- Owner shard `m` of a bucket (R288): first element and the one past the last. -/
def Job.shard (j : Job) (b m : Nat) : Nat × Nat := (j.elems b * m / j.desc.m, j.elems b * (m + 1) / j.desc.m)
def Job.shardLen (j : Job) (b m : Nat) : Nat := (j.shard b m).2 - (j.shard b m).1
/-- Piece `r` of owner shard `m` (R288), in elements of the bucket. -/
def Job.piece (j : Job) (b m r : Nat) : Nat × Nat :=
  let x := j.shard b m
  let l := x.2 - x.1
  (x.1 + l * r / j.nrail, x.1 + l * (r + 1) / j.nrail)
def Job.pieceLen (j : Job) (b m r : Nat) : Nat := (j.piece b m r).2 - (j.piece b m r).1

/-- The tensor that element `e` of the concatenation lies in, its element there, and the tensor's offset in the working copy. -/
def tensorOf (ts : List (Nat × Nat)) (e : Nat) (i : Nat) : Option (Nat × Nat × Nat) :=
  match ts with
  | [] => none
  | t :: r => if e < t.1 then some (i, e, t.2) else tensorOf r (e - t.1) (i + 1)

/-- Whether a bucket's step is checked on both paths (R295). -/
def Job.checked (j : Job) (b : Nat) : Bool :=
  j.desc.checkEvery != 0 && (j.step * j.nbucket + b + j.desc.jobId) % j.desc.checkEvery == 0

/-- Whether a rail of a bucket's attempt is reduced on the ring path alone (R272, R293, R297). -/
def Job.ringOnly (j : Job) (x : Bucket) (r : Nat) : Bool := j.ringRails.contains r || x.ringRails.contains r

/-- GROUP (R285). -/
def Job.group (j : Job) : Nat := (j.desc.jobId * 16 + j.desc.part) % 2 ^ 32

/-! ### The descriptor (R272, R273) -/

def signedByte (n : Nat) : Int := signedOf 8 n

def descOf (v : Nat) : JobDesc :=
  let a := bytesAt v
  let f := a 3 1
  { handle := a 0 2, sgdm := a 2 1 == 1, resume := bit f 0, keepState := bit f 1, replay := bit f 2, carry := bit f 3, sr := bit f 4
    jobId := a 4 4, nonce := a 8 8, steps := a 16 4, micro := a 20 4, batch := a 24 4, nsample := a 28 4, plan := a 32 8, sched := a 40 8
    nsched := a 48 4, samples := a 52 8, ledger := a 60 8, nledger := a 68 4, stateSda := a 72 8, saveEvery := a 80 4, start := a 84 8
    members := a 92 8, member := a 100 1, m := a 101 1, part := a 102 1, npart := a 103 1, head := a 104 1, kInit := signedByte (a 105 1)
    deadline := a 106 1, carryMax := a 107 1, checkEvery := a 108 2, bifMax := a 110 1, maxLag := a 111 1 }

def between (lo n hi : Nat) : Bool := decide (lo ≤ n) && decide (n ≤ hi)
def pow2 (n : Nat) : Bool := n != 0 && 2 ^ Nat.log2 n == n

/-- Every field of a descriptor within the range that R272 gives it. -/
def descOk (v : Nat) (d : JobDesc) : Bool :=
  decide (bytesAt v 2 1 ≤ 1) && decide (bytesAt v 3 1 < 32) && bytesAt v 112 16 == 0
    && decide (1 ≤ d.steps) && between 1 d.micro 4096 && between 1 d.batch 1024 && decide (1 ≤ d.nsample) && decide (1 ≤ d.nsched)
    && between 1 d.nledger 65536 && between 1 d.m 64 && between 1 d.npart 16 && decide (d.member < d.m) && decide (d.part < d.npart)
    && between 1 d.head 8 && decide (-127 ≤ d.kInit) && decide (1 ≤ d.deadline) && between 1 d.carryMax 4
    && (d.checkEvery == 0 || (pow2 d.checkEvery && decide (d.checkEvery ≤ 4096))) && between 1 d.bifMax 8

/-- A plan set's tensor table and seal list (R281): at most 4,096 buckets, an entry for each. -/
def bucketsOk (j : Job) : Bool :=
  decide (1 ≤ j.nbucket) && decide (j.nbucket ≤ 4096) && decide (j.nbucket ≤ j.plan.seals.length) && decide (j.nbucket ≤ j.plan.areas.length)

/-- NRAIL (R288): 8 when this device is a GW960-C or a member device of the part has no port 8 to 11, otherwise 12. -/
def railCount (s : State) (ctx : Nat) (d : JobDesc) : Nat :=
  let entry := fun (m : Nat) => leNat (peekDva s ctx 0 (d.members + (m * d.npart + d.part) * 256) 256)
  if s.variant = .c ∨ (List.range d.m).any (fun m => bytesAt (entry m) 128 64 == 0) then 8 else 12

/-! ### Memory of a job -/

/-- Plaintext written by firmware into a context's space. -/
def State.putDva (ctx a : Nat) (bs : List Byte) (s : State) : State := (s.writeDva ctx a bs).2

def f32At (s : State) (j : Job) (a n : Nat) : List FVal := f32s n (peekDva s j.ctx 0 a (4 * n))

/-- The bytes that stand in a weaver's working copy from offset `o` on. -/
def copyRead (s : State) (frames : List Nat) (o n : Nat) : List Byte :=
  (List.range n).map fun i => (frames[(o + i) / frameBytes]?).elim 0 fun f => look 0 s.mem.hbm (f * frameBytes + (o + i) % frameBytes)

/-- The working copy that the published version uses, and the other one (R161). -/
def liveCopy (w : Weaver) : List Nat := copyPart w w.copy
def idleCopy (w : Weaver) : List Nat := copyPart w (1 - w.copy)

/-- One BF16 element of the idle working copy. -/
def State.copyWrite (frames : List Nat) (o v : Nat) (s : State) : State :=
  match frames[o / frameBytes]? with
  | none => s
  | some f => s.frameWrite f (o % frameBytes) (leBytes 2 v)

/-! ### STATE frames (R274, R281) -/

/-- The pages of one area. -/
def areaPages (a n : Nat) : List Nat := if n = 0 then [] else (pieces a n).map fun y => y.1

/-- The optimizer state's values for an element. -/
def optWords (d : JobDesc) : Nat := if d.sgdm then 1 else 2

/-- The pages of bucket `b`: its gradient, and the shard's sums, master copy and optimizer state. -/
def Job.bucketPages (j : Job) (b : Nat) : List Nat :=
  let l := j.shardLen b j.desc.member
  let a := j.area b
  (areaPages a.grad (4 * j.elems b) ++ areaPages a.sums (4 * l) ++ areaPages a.master (4 * l) ++ areaPages a.opt (4 * optWords j.desc * l)).eraseDups

/-- The pages that a job needs and its context has not mapped yet, each with its bucket. -/
def newPages (s : State) (j : Job) : List (Nat × Nat) :=
  ((List.range j.nbucket).flatMap fun b => (j.bucketPages b).map fun p => (p, b)).filter fun x => !(s.pteAt (pteKey j.ctx x.1)).valid

/-- A page of a job's STATE frames, in stack (b mod S), pinned for the life of the job (R219, R274). -/
def State.mapState (ctx : Nat) (x : Nat × Nat) (s : State) : Option State :=
  let k := pteKey ctx x.1
  if (s.pteAt k).valid then some s
  else
    match pickFrame s (x.2 % msdCount s) x.1 with
    | none => none
    | some f =>
      let e : FrameE := { state := .resident, kind := 4, ctx := ctx, key := ctx, page := x.1, mapped := true, fixedPins := 1 }
      let p : Pte := { valid := true, tier := .t1, kind := 4, stack := x.2 % msdCount s, frame := f, held := true }
      let root := ctx * 512 + x.1 / 65536
      let s := (s.takeFrame f e).modPte k fun _ => p
      if s.mem.leaves.any fun y => y.1 == root then some s else s.addLeaf root

/-- The frames of a job's own pages are freed (R275). -/
def State.freeState (j : Job) (s : State) : State :=
  s.each j.pages fun x s =>
    let k := pteKey j.ctx x.1
    let f := (s.pteAt k).frame
    ((s.modPte k fun _ => {}).modFrame f fun e => { e with fixedPins := 0 }).zeroFrame f

/-- The pins of a job's frames fall. -/
def State.unpinState (j : Job) (s : State) : State :=
  s.each j.pages fun x s => s.modFrame (s.pteAt (pteKey j.ctx x.1)).frame fun e => { e with fixedPins := 0 }

/-- The record of bucket `b` and owner `m` in the state part (R274): offset and bytes. -/
def Job.record (j : Job) (b m : Nat) : Nat × Nat :=
  let w := 4 * (1 + optWords j.desc)
  let before := ((List.range b).map fun i => j.elems i).sum + (j.shard b m).1
  (w * before, w * j.shardLen b m)

/-- How a job's state part is sealed: under the tenant key, as R140 says (R274). -/
def stateSeal (s : State) (j : Job) : Seal := { key := (s.tkey (s.weaver j.desc.handle).keySlot).key, base := j.desc.stateSda }

/-- The bytes of a job's state part. -/
def Job.stateLen (j : Job) : Nat := 4 * (1 + optWords j.desc) * j.total

/-- The areas of a bucket's master copy and optimizer state. -/
def Job.stateAreas (j : Job) (b : Nat) : List (Nat × Nat) :=
  let l := j.shardLen b j.desc.member
  [((j.area b).master, 4 * l), ((j.area b).opt, 4 * optWords j.desc * l)]

/-- A state part as it was read goes to its place in the job's state; where it could not be read its place is spoilt. -/
def State.stateWrite (j : Job) (b : Nat) (x : Except AccErr (List (List Byte))) (s : State) : State :=
  let a := j.desc.stateSda + (j.record b j.desc.member).1
  match x with
  | .ok bs => s.slowWrite (stateSeal s j) a bs.flatten
  | .error _ => s.slowSpoil a (j.record b j.desc.member).2

/-- The state part of one bucket is saved, its bytes charged to MIGRATE. -/
def State.saveBucket (j : Job) (b : Nat) (s : State) : State :=
  let n := (j.record b j.desc.member).2
  let r := s.readAll j.ctx (j.stateAreas b)
  (r.2.charge Act.migrate { hbm := n, link := n }).stateWrite j b r.1

/-- This member's owned shards go into the state part (R275), a MIGRATE transfer; what cannot be read is poisoned there (R237). -/
def State.saveState (key : Nat) (s : State) : State := s.each (List.range (s.job key).nbucket) (State.saveBucket (s.job key))

/-- Bytes of a weaver's published working copy: in its frames while it has them all, else in its package part. -/
def publishedBytes (s : State) (w : Weaver) (o n : Nat) : List Byte :=
  if (w.state = .resident ∨ w.state = .evicting) ∧ w.frames.length = weaverFrames w then copyRead s (liveCopy w) o n
  else slowRead (partOf s w).seal s (w.slow + o) n

/-- The master copy and the state of a job's shards at its start (R274): from the state part, or the exact value of the published working
copy and +0. A state part that cannot be read ends the job. -/
def State.loadState (key : Nat) (s : State) : State :=
  let j := s.job key
  let w := s.weaver j.desc.handle
  s.each (List.range j.nbucket) fun b s =>
    let x := j.shard b j.desc.member
    let l := x.2 - x.1
    let a := j.area b
    if j.desc.resume then
      let sda := j.desc.stateSda + (j.record b j.desc.member).1
      let n := (j.record b j.desc.member).2
      if !slowUp s sda || !(slowBadIn s sda n).isEmpty then s.modJob key fun j => { j with failed := some St.dataPoisoned }
      else
        let bs := slowRead (stateSeal s j) s sda n
        ((s.putDva j.ctx a.master (bs.take (4 * l))).putDva j.ctx a.opt (bs.drop (4 * l))).charge Act.migrate { hbm := n, link := n }
    else
      let vals := (List.range l).map fun i =>
        match tensorOf j.plan.tensors (b * 1048576 + x.1 + i) 0 with
        | none => FVal.zero
        | some t => decF (ffmt 1) (leNat (publishedBytes s w (t.2.2 + 2 * t.2.1) 2))
      ((s.putDva j.ctx a.master (encF32 vals)).putDva j.ctx a.opt (List.replicate (4 * optWords j.desc * l) 0)).charge Act.migrate
        { hbm := (j.record b j.desc.member).2 + 2 * l }

/-! ### Scale and conversion (R284, R285) -/

/-- h of R284: ceil(log2 M) + HEAD. -/
def headroom (d : JobDesc) : Nat := bitLen (d.m - 1) + d.head

/-- k for the next step of a bucket before it is clamped to 127: the ledger's in REPLAY, K_INIT in the first step, 30 − h − E after a
recorded E, else as before. -/
def rawK (j : Job) (part b : Nat) (x : Bucket) (first : Bool) : Int :=
  let rec? := j.replayed.bind fun l => l.buckets.find? fun y => y.part == part && y.bucket == b
  match rec?, first, x.e with
  | some y, _, _ => y.k
  | none, true, _ => j.desc.kInit
  | none, false, some e => 30 - (headroom j.desc : Int) - e
  | none, false, none => x.k

def nextK (j : Job) (part b : Nat) (x : Bucket) (first : Bool) : Int := min 127 (rawK j part b x first)

/-- The exponent of a finite value that is not zero. -/
def expOf (x : FVal) : Option Int :=
  match x with
  | .fin _ m e => if m = 0 then none else some ((bitLen m : Int) - 1 + e)
  | _ => none

/-- One element of a contribution: q modulo 2^32, OVF, whether it is not finite, its exponent. -/
structure Conv where
  q   : Nat
  ovf : Bool
  nf  : Bool
  e   : Option Int

def convElem (h : Nat) (k : Int) (g : FVal) : Conv :=
  match g with
  | .fin _ _ _ =>
    let q := floatToInt 32 true true 0 0 (g.mul (.fin false 1 k))
    { q := q, ovf := decide ((2 : Int) ^ (31 - h) < (signedOf 32 q).natAbs), nf := false, e := expOf g }
  | _ => { q := 0, ovf := false, nf := true, e := none }

/-- The mask key (R286). -/
def kmask (s : State) (j : Job) : Nat :=
  let key := (s.tkey (s.weaver j.desc.handle).keySlot).key
  let blk := fun (c : Nat) => j.desc.nonce + 0x54574E4B * 2 ^ 64 + c * 2 ^ 96
  Config.aes256 key (blk 0) + 2 ^ 128 * Config.aes256 key (blk 1)

/-- pad(x, e) of a bucket's attempt (R285). -/
def padOf (km : Nat) (j : Job) (b a x e : Nat) : Nat :=
  let blk := j.step % 2 ^ 32 + b * 2 ^ 32 + a * 2 ^ 48 + x * 2 ^ 56 + (e / 4) % 2 ^ 32 * 2 ^ 64 + j.group * 2 ^ 96
  bits (Config.aes256 km blk) (32 * (e % 4)) 32

/-- The masked contribution of elements `[lo, hi)` of a bucket, with OVF, EXP and NFCNT over them (R285). A LATE member converts zeros. -/
structure Piece where
  words : List (BitVec 32) := []
  ovf   : Bool := false
  exp   : Int := -128
  nf    : Nat := 0

def contribution (s : State) (j : Job) (b : Nat) (lo hi : Nat) : Piece :=
  let x := j.bucket (j.own b)
  let n := hi - lo
  let gs := if x.wasLate then List.replicate n FVal.zero else f32At s j ((j.area b).grad + 4 * lo) n
  let km := kmask s j
  let m := j.desc.member
  let prev := (m + j.desc.m - 1) % j.desc.m
  let cs := gs.map (convElem (headroom j.desc) x.k)
  { words := (cs.zip (List.range n)).map fun y =>
      BitVec.ofNat 32 (y.1.q + padOf km j b x.attempt m (lo + y.2) + 2 ^ 32 - padOf km j b x.attempt prev (lo + y.2))
    ovf := cs.any Conv.ovf
    exp := cs.foldl (fun (e : Int) y => max e (y.e.getD (-128))) (-128)
    nf := (cs.filter Conv.nf).length }

def addWords (a b : List (BitVec 32)) : List (BitVec 32) := (a.zip b).map fun x => x.1 + x.2

/-! ### The step ledger (R303 to R305) -/

/-- The bytes of an entry, rounded up to 4 KiB. -/
def ledgerSize (npart nbucket : Nat) : Nat := ceilDiv (64 + 32 * npart * nbucket) 4096 * 4096

def byteOf (i : Int) : Nat := (i % 256).toNat

def bucketBytes (x : LedgerBucket) : Nat :=
  x.bucket + x.part * 2 ^ 16 + byteOf x.k * 2 ^ 24 + byteOf x.e * 2 ^ 32 + x.attempts * 2 ^ 40 + x.verdict * 2 ^ 48 + x.checkv * 2 ^ 56
    + x.ringRails * 2 ^ 64 + x.nfcnt % 2 ^ 32 * 2 ^ 96 + x.mstat % 2 ^ 128 * 2 ^ 128

def ledgerHead (e : LedgerEntry) : Nat :=
  0x0960534C + 2 ^ 32 + e.nbucket * 2 ^ 48 + e.jobId * 2 ^ 64 + e.step % 2 ^ 64 * 2 ^ 96 + e.wverIn * 2 ^ 160 + e.wverOut * 2 ^ 192
    + e.gen * 2 ^ 224 + e.nmemb * 2 ^ 240 + e.npart * 2 ^ 248 + e.nrail * 2 ^ 256 + e.outcome * 2 ^ 264 + b2n e.saved * 2 ^ 272
    + e.precCrc * 2 ^ 288 + e.sample0 % 2 ^ 64 * 2 ^ 320 + e.pubRnd % 2 ^ 64 * 2 ^ 384

/-- The bytes of a ledger entry with its CHECK. -/
def ledgerBytes (e : LedgerEntry) : List Byte :=
  let recs := e.buckets.flatMap fun x => leBytes 32 (bucketBytes x)
  let size := ledgerSize e.npart e.nbucket
  let rest := recs ++ List.replicate (size - 64 - recs.length) 0
  let crc := crc32c ((leBytes 64 (ledgerHead e) ++ rest).map BitVec.toNat)
  leBytes 64 (ledgerHead e + crc * 2 ^ 480) ++ rest

/-- Step `s` occupies entry s mod NLEDGER of the ring; the members of a REPLAY write none. -/
def State.writeLedger (j : Job) (e : LedgerEntry) (s : State) : State :=
  if j.desc.replay then s
  else s.putDva j.ctx (j.desc.ledger + e.step % j.desc.nledger * ledgerSize e.npart e.nbucket) (ledgerBytes e)

/-- The schedule record of a step, and its CRC. -/
def schedAddr (j : Job) : Nat := j.desc.sched + 64 * (j.step % j.desc.nsched)
def precCrc (s : State) (j : Job) : Nat := crc32c ((peekDva s j.ctx 0 (schedAddr j) 64).map BitVec.toNat)

/-- The entry of this step as the lead knows it (R303, R304). -/
def ledgerOf (s : State) (j : Job) (outcome pub : Nat) (saved : Bool) : LedgerEntry :=
  let v := (s.weaver j.desc.handle).version
  { nbucket := j.nbucket, jobId := j.desc.jobId, step := j.step, wverIn := if outcome = 0 then v - 1 else v, wverOut := v, gen := j.gen
    nmemb := j.desc.m, npart := j.desc.npart, nrail := j.nrail, outcome := outcome, saved := saved, precCrc := precCrc s j
    sample0 := j.step * j.desc.m * j.desc.micro * j.desc.batch, pubRnd := pub
    buckets := (List.range j.desc.npart).flatMap fun p => (List.range j.nbucket).map fun b =>
      let x := j.bucket (bktKey p b)
      { bucket := b, part := p, k := x.k, e := x.e.getD (-128), attempts := x.attempt + 1, verdict := x.verdict, checkv := x.checkv,
        ringRails := ((List.range 12).filter fun r => j.ringOnly x r).foldl (fun n r => n + 2 ^ r) 0, nfcnt := x.nfcnt,
        mstat := x.mstat + ((List.range 64).filter fun m => j.desc.m ≤ m).foldl (fun n m => n + 3 * 4 ^ m) 0 } }

/-- The entry of the job's next step in the ledger ring that a REPLAY reads, when it passes the checks of R305. -/
def replayEntry (s : State) (j : Job) : Option LedgerEntry :=
  let size := ledgerSize j.desc.npart j.nbucket
  let bs := peekDva s j.ctx 0 (j.desc.ledger + j.step % j.desc.nledger * size) size
  let v := leNat bs
  let zeroed := bs.take 60 ++ List.replicate 4 0 ++ bs.drop 64
  if bytesAt v 0 4 ≠ 0x0960534C ∨ bytesAt v 6 2 ≠ j.nbucket ∨ bytesAt v 30 1 ≠ j.desc.m ∨ bytesAt v 31 1 ≠ j.desc.npart
      ∨ bytesAt v 60 4 ≠ crc32c (zeroed.map BitVec.toNat) ∨ bytesAt v 36 4 ≠ precCrc s j then none
  else
    some { nbucket := j.nbucket, jobId := bytesAt v 8 4, step := bytesAt v 12 8, wverIn := bytesAt v 20 4, wverOut := bytesAt v 24 4
           gen := bytesAt v 28 2, nmemb := j.desc.m, npart := j.desc.npart, nrail := bytesAt v 32 1, outcome := bytesAt v 33 1
           saved := bytesAt v 34 1 == 1, precCrc := bytesAt v 36 4, sample0 := bytesAt v 40 8, pubRnd := bytesAt v 48 8
           buckets := (List.range (j.desc.npart * j.nbucket)).map fun i =>
             let o := 64 + 32 * i
             { bucket := bytesAt v o 2, part := bytesAt v (o + 2) 1, k := signedByte (bytesAt v (o + 3) 1), e := signedByte (bytesAt v (o + 4) 1)
               attempts := bytesAt v (o + 5) 1, verdict := bytesAt v (o + 6) 1, checkv := bytesAt v (o + 7) 1, ringRails := bytesAt v (o + 8) 2
               nfcnt := bytesAt v (o + 12) 4, mstat := bytesAt v (o + 16) 16 } }

/-! ### Steps -/

/-- Whether a LATE bucket's gradient is carried into the next step (R299); in REPLAY the ledger says. -/
def carries? (j : Job) (b : Nat) (x : Bucket) : Bool :=
  if j.desc.replay then replayStat j b == 1 else j.desc.carry && decide (x.carriedRun < j.desc.carryMax)

/-- A bucket's gradient is zeroed. -/
def State.zeroGrad (j : Job) (b : Nat) (s : State) : State := s.putDva j.ctx (j.area b).grad (List.replicate (4 * j.elems b) 0)

/-- The buckets of a step open (R282, R284): at the lead those of every part. They were zeroed at CLOSED, or hold what they carry. -/
def State.openStep (key : Nat) (first : Bool) (s : State) : State :=
  let j := s.job key
  let parts := if j.isLead then List.range j.desc.npart else [j.desc.part]
  let s := s.each (parts.flatMap fun p => (List.range j.nbucket).map fun b => (p, b)) fun x s =>
    s.modBucket key (bktKey x.1 x.2) fun y =>
      let kept := y.wasLate && carries? j x.2 y && x.1 == j.desc.part
      { k := nextK j x.1 x.2 y first, e := y.e, carriedRun := if kept then y.carriedRun + 1 else 0 }
  let s := if first then s.each (List.range j.nbucket) fun b s => s.zeroGrad j b else s
  let s := if (List.range j.nbucket).any fun b => decide (127 < rawK j j.desc.part b (j.bucket (j.own b)) first) then
      (s.polLimit 3).modJob key fun j => { j with clamped := j.clamped + 1 }
    else s
  s.modJob key fun j => { j with firstRnd := none, heard := [], leadHeard := 0, pubRnd := none, pubLate := false, microsDone := 0 }

/-! ### The end of a job -/

/-- Every descriptor that a queue pair holds completes with a status and its PROGRESS. -/
def State.endDescs (qpn status : Nat) (s : State) : State :=
  s.each ((s.qp qpn).descs ++ (s.qp qpn).recvs) fun d s => s.closeDesc qpn d (nowRec s status d.done)

/-- The courses of a job that run. -/
def jobCourses (s : State) (key : Nat) : List Course := s.crs.running.filter fun c => c.job.elim false fun x => x.1 == key

/-- A message between the devices of a job leaves on a flow of MGMT (R270). -/
def State.jobOut (o : Out) (n : Nat) (s : State) : State := (s.emit o).charge Act.mgmt { link := n }

/-- The lead writes a ledger entry and sends it to every device of the job (R302). -/
def State.sendLedger (key : Nat) (e : LedgerEntry) (s : State) : State :=
  let n := ledgerSize e.npart e.nbucket
  ((s.writeLedger (s.job key) e).charge Act.mgmt { hbm := if (s.job key).desc.replay then 0 else n }).jobOut (.ledger key e) n

/-- Units of a job no longer wait for admission. -/
def State.dropJobMoves (key : Nat) (s : State) : State :=
  { s with bud := { s.bud with moves := s.bud.moves.filter fun m => match m.what with | .update k _ | .bucket k _ => k != key | _ => true } }

/-- A tuning job ends: its courses stop, a step in progress goes into the ledger with OUTCOME `outcome` (R302, R307), the owned shards are
saved (R275), and its final record carries the steps published and the last published version (R308). -/
def State.closeJob (key status outcome : Nat) (s : State) : State :=
  let j := s.job key
  if !j.active then s
  else
    let s := (s.dropJobMoves key).each (jobCourses s key) fun c s => s.endCourse c.id status
    let s := if j.isLead ∧ j.firstRnd.isSome ∧ outcome ≠ 0 then
        s.sendLedger key (ledgerOf s j outcome 0 false)
      else s
    let s := if outcome = 2 ∨ status = St.deviceFault then s else s.saveState key
    let s := if j.desc.keepState then s.unpinState j else s.freeState j
    let s := s.modJob key fun j => { desc := j.desc, plan := j.plan, ctx := j.ctx, nrail := j.nrail, step := j.step }
    let s := s.modWeaver j.desc.handle fun w => { w with training := false, nextVersion := w.version }
    match j.note with
    | none => s
    | some n =>
      (s.summarize { tag := n.tag, ctx := n.ctx, kind := 2, status := status, progress := j.published, rnd := s.rnd.num, gen := 0 }).record n.qpn
        { status := status, flags := if j.anyCarried then Fl.carried else 0, progress := sat 32 j.published, rnd := s.rnd.num,
          wver := j.lastVer, ctx := n.ctx, tag := n.tag }

/-- Jobs of which a course ended otherwise than by its plan stop (R302). -/
def State.reapJobs (s : State) : State :=
  s.each s.train.jobs fun x s =>
    match (s.job x.1).failed with
    | none => s
    | some st => s.closeJob x.1 st (if st = St.revoked then 2 else 1)

/-! ### The halt (R425) -/

/-- A DEVICE-class fault: admission stops, the Lid closes the hoop bypass, one journal entry with its FAULT event on ring 0 of the PF,
FLT_STATE, and all running work ends with DEVICE_FAULT. -/
def State.halt (code blk unit : Nat) (s : State) : State :=
  if s.flt.halted then s
  else
    let s := { s with flt := { s.flt with halted := true, code := code },
                      bud := { s.bud with isOpen := false, queue := [] }, hoop := { s.hoop with bypassed := true, cause := 2 } }
    let s := s.journal { code := code, cls := Cls.device, blk := blk, unit := unit }
    let s := s.each s.crs.running fun c s => s.endCourse c.id St.deviceFault
    let s := s.each s.crs.waiting fun r s => s.endSeq r St.deviceFault
    let s := s.each s.train.jobs fun j s => s.closeJob j.1 St.deviceFault 1
    s.each s.host.qps fun q s => s.endDescs q.1 St.deviceFault

end Sys2Proof.Machine
end

