-- ==== Sys2Proof/Machine/Wale.lean ====
section
/-! DEFINITION. The Wale transport: flows (R322), the seal key (R324), the receiver and the sender (R325 to R327), and PFC_FRAME (R318),
after which a paused flow goes on. -/

namespace Sys2Proof.Machine

/-! ### Keys and queue pairs -/

/-- The slot that a KEYID names, while it is live (R401): a tenant's, or a stake set's with bit 31 set. -/
def keySlotOf (s : State) (keyId : Nat) : Option (Bool × Nat) :=
  let t := if bit keyId 31 then s.lid.stake else s.lid.tenant
  (t.find? fun p => p.2.state == .live && p.2.keyId == keyId && keyId != 0).map fun p => (bit keyId 31, p.1)

/-- Whether a KEYID names a live key on the device (R293, R327). -/
def keyLive (s : State) (keyId : Nat) : Bool := (keySlotOf s keyId).isSome

/-- The flow seal key (R324): the encryptions of the blocks c = 0 and c = 1 under the key named by KEYID. -/
def sealKey (s : State) (keyId opener responder : Nat) : Nat × Nat :=
  match keySlotOf s keyId with
  | none => (0, 0)
  | some x =>
    let key := (if x.1 then s.skey x.2 else s.tkey x.2).key
    let blk := fun (c : Nat) => opener % 2 ^ 64 + (responder % 2 ^ 56 + (responder / 2 ^ 56 + c) % 256 * 2 ^ 56) * 2 ^ 64
    (Config.aes256 key (blk 0), Config.aes256 key (blk 1))

/-- The 48 bytes of a packet's Wale header (R323). -/
def waleHeader (typ : Nat) (w : WalePkt) : List Byte :=
  let flags := b2n w.isSealed + 2 * b2n w.last + 4 * b2n w.ece + 8 * b2n w.ackReq
  [1, BitVec.ofNat 8 typ, BitVec.ofNat 8 flags, BitVec.ofNat 8 w.cls] ++ leBytes 4 w.dstQpn ++ leBytes 4 w.srcQpn ++ leBytes 4 w.psn
    ++ leBytes 4 w.msgId ++ leBytes 8 w.offset ++ leBytes 4 w.keyId ++ leBytes 4 w.payload.length
    ++ leBytes 8 (if typ = 6 then w.reason else w.nonce) ++ leBytes 4 0

/-- The IV of a DATA packet (R324): its PSN, and bit 32 set for what the responder sends. -/
def sealIv (psn : Nat) (fromOpener : Bool) : Nat := psn % 2 ^ 32 + b2n (!fromOpener) * 2 ^ 32

/-- AES-256-GCM encrypts and decrypts alike (R324). -/
def gcmBytes (key : Nat × Nat) (iv : Nat) (bs : List Byte) : List Byte := bs.mapIdx fun i b => b ^^^ Config.gcmStream key iv i

/-- The seal tag of a DATA packet, over its header and its ciphertext. -/
def sealTag (key : Nat × Nat) (fromOpener : Bool) (w : WalePkt) : Nat := Config.gcmTag key (sealIv w.psn fromOpener) (waleHeader 1 w) w.payload

/-- A DATA packet of a flow sealed: its payload encrypted, its tag put after it. -/
def sealPkt (f : Flow) (w : WalePkt) : WalePkt :=
  if f.keyId = 0 then w
  else
    let c := { w with isSealed := true, payload := gcmBytes f.sealKey (sealIv w.psn f.opener) w.payload }
    { c with tag := sealTag f.sealKey f.opener c }

/-- Whether a packet that came on a flow is dropped: it is SEALED, and its KEYID names no live key or its seal tag fails (R327). -/
def sealFails (s : State) (f : Flow) (w : WalePkt) : Bool :=
  w.isSealed && (!keyLive s w.keyId || w.tag != sealTag f.sealKey (!f.opener) w)

/-- The bytes that a DATA packet carries. -/
def openedBytes (f : Flow) (w : WalePkt) : List Byte :=
  if w.isSealed then gcmBytes f.sealKey (sealIv w.psn (!f.opener)) w.payload else w.payload

/-- The lowest free queue pair in a context's blocks (R322, R344). -/
def freeQp (s : State) (ctx : Nat) : Option Nat :=
  (s.host.blocks.flatMap fun b => if b.2 = ctx + 1 then (List.range 64).map fun i => 64 * b.1 + i else []).find? fun q => (s.qp q).state == .free

/-! ### Sending -/

/-- The bytes of a Wale packet on the wire: 48 of header, UDP, IPv6, Ethernet, tag, MACsec and FCS, and the seal tag. -/
def waleBytes (isSealed : Bool) (n : Nat) : Nat := n + 150 + 16 * b2n isSealed

/-- The PCP of a flow's traffic kind (R317). -/
def walePrio (s : State) (f : Flow) : Nat :=
  let p := s.port f.port
  if f.cls = Act.mgmt then p.tcMgmt else if f.cls = Act.reduce then p.tcTwine else p.tcBulk

/-- One packet leaves, charged to the flow's class (R322); OPEN, ACK and the other control packets carry no payload. -/
def State.waleOut (f : Flow) (typ : Nat) (w : WalePkt) (s : State) : State :=
  let sub := subOf s f.port w.psn
  let prio := walePrio s f
  (s.portOut f.port sub prio (.wale f.port sub typ w (frameTag s f.port prio true))).charge f.cls { link := waleBytes w.isSealed w.payload.length }

/-- The number of packets of a message. -/
def WMsg.npkt (m : WMsg) : Nat := max 1 (ceilDiv m.bytes.length 4096)

/-- The DATA packet with a PSN (R323 to R325); sent again, it carries the same bytes under the same IV. -/
def packetAt (qpn : Nat) (f : Flow) (psn : Nat) : Option WalePkt :=
  (f.msgs.find? fun m => decide (m.psn ≤ psn) && decide (psn < m.psn + m.npkt)).map fun m =>
    let i := psn - m.psn
    sealPkt f { last := i + 1 == m.npkt, dstQpn := f.peerQpn, srcQpn := qpn, psn := psn, msgId := m.id, offset := 4096 * i
                keyId := f.keyId, payload := (m.bytes.drop (4096 * i)).take 4096 }

/-- Packets that the window allows leave, `n` at most, unless the priority is paused. -/
def State.pump (n qpn : Nat) (s : State) : State :=
  match n with
  | 0 => s
  | k + 1 =>
    let f := s.flow qpn
    if f.state ≠ .isOpen ∨ f.queued ≤ f.sndNext ∨ f.sndUna + f.window ≤ f.sndNext ∨ pausedOn s f.port (walePrio s f) then s
    else match packetAt qpn f f.sndNext with
      | none => s
      | some w => ((s.waleOut f 1 w).modFlow qpn fun f => { f with sndNext := f.sndNext + 1 }).pump k qpn

/-- The bytes of a message that have been acknowledged. -/
def ackedOf (f : Flow) (m : WMsg) : Nat := min m.bytes.length (4096 * (f.sndUna - m.psn))

/-- A flow ends; the messages in progress complete with PARTIAL at their requester, and its queue pair is free (R325). -/
def State.endFlow (qpn reason : Nat) (s : State) : State :=
  let f := s.flow qpn
  let s := s.each f.msgs fun m s => s.emit (.waleDone qpn m.id St.partialEnd (ackedOf f m))
  let s := if reason = 3 then s.modPort f.port fun p => { p with flowFail := sat 16 (p.flowFail + 1) } else s
  (s.modFlow qpn fun _ => {}).modQp qpn fun _ => {}

/-- This device closes a flow, with a CLOSE to the peer. -/
def State.closeFlow (qpn reason : Nat) (s : State) : State :=
  let f := s.flow qpn
  if f.state = .closed then s
  else (s.waleOut f 6 { dstQpn := f.peerQpn, srcQpn := qpn, reason := reason }).endFlow qpn reason

/-- Firmware closes every flow of a key (R327). -/
def State.closeKeyFlows (keyId : Nat) (s : State) : State :=
  if keyId = 0 then s else s.each (keysWhere s.host.flows fun _ f => f.keyId == keyId) fun q s => s.closeFlow q 2

/-- A message joins a flow. A flow whose PSN would pass 0xFFFFFFFF is closed with NORMAL instead (R324). -/
def State.enqueue (qpn : Nat) (bytes : List Byte) (s : State) : State :=
  let f := s.flow qpn
  let m : WMsg := { id := f.nextMsg, bytes := bytes, psn := f.queued }
  if 2 ^ 32 ≤ f.queued + m.npkt then s.closeFlow qpn 0
  else (s.modFlow qpn fun f => { f with msgs := f.msgs ++ [m], nextMsg := f.nextMsg + 1, queued := f.queued + m.npkt }).pump 256 qpn

def openPkt (qpn : Nat) (f : Flow) : WalePkt :=
  { cls := f.cls, dstQpn := f.peerQpn, srcQpn := qpn, keyId := f.keyId, nonce := f.nonceL, isSealed := false }

/-- Firmware sends a message of a context's data on a port: on an open flow of that class, or one that it opens (R322). -/
def State.waleSend (ctx cls port keyId : Nat) (bytes : List Byte) (s : State) : State :=
  let mine := keysWhere s.host.flows fun _ f => f.opener && f.ctx == ctx && f.cls == cls && f.port == port && f.keyId == keyId && f.state != .closed
  match mine with
  | q :: _ => s.enqueue q bytes
  | [] =>
    match freeQp s ctx with
    | none => s
    | some q =>
      let x := s.fresh
      let f : Flow := { state := .opening, ctx := ctx, port := port, cls := cls, opener := true, nonceL := x.1 % 2 ^ 64, keyId := keyId }
      let s := (x.2.modFlow q fun _ => f).modQp q fun _ => { state := .active, ctx := ctx, typ := 6, cls := cls, port := port }
      (s.waleOut f 4 (openPkt q f)).enqueue q bytes

/-- At a boundary an opener that was refused for want of a queue pair tries again (R322), and paused flows go on. -/
def State.walePass (s : State) : State :=
  s.each s.host.flows fun x s =>
    let f := s.flow x.1
    if f.state = .retry then (s.modFlow x.1 fun f => { f with state := .opening }).waleOut f 4 (openPkt x.1 f) else s.pump 256 x.1

/-! ### Receiving -/

/-- The flow that a packet belongs to. -/
def flowFor (s : State) (p : Nat) (w : WalePkt) : Option Flow :=
  let f := s.flow w.dstQpn
  if f.state = .isOpen ∧ f.port = p ∧ f.peerQpn = w.srcQpn then some f else none

/-- An ACK for the next expected PSN, with ECE echoing a CE mark. -/
def State.sendAck (qpn : Nat) (s : State) : State :=
  let f := s.flow qpn
  (s.waleOut f 2 { dstQpn := f.peerQpn, srcQpn := qpn, psn := f.rcvNext, ece := f.rcvCe }).modFlow qpn fun f => { f with rcvUnack := 0, rcvCe := false }

/-- WALE_DATA (R325 to R327): inbound bytes are charged to the flow's class whatever its tally (R39). A packet of no flow has no seal key, so
only its KEYID can fail (DESIGN CHOICE). -/
def State.waleData (p : Nat) (w : WalePkt) (s : State) : State :=
  match flowFor s p w with
  | none => if w.isSealed && !keyLive s w.keyId then s.modPort p fun x => { x with sealDrop := sat 16 (x.sealDrop + 1) } else s
  | some f =>
    let s := s.charge f.cls { link := waleBytes w.isSealed w.payload.length }
    let q := w.dstQpn
    if sealFails s f w then s.modPort p fun x => { x with sealDrop := sat 16 (x.sealDrop + 1) }
    else if f.rcvNext < w.psn then
      if f.nakSent then s
      else (s.waleOut f 3 { dstQpn := f.peerQpn, srcQpn := q, psn := f.rcvNext }).modFlow q fun f => { f with nakSent := true }
    else if w.psn < f.rcvNext then s.sendAck q
    else
      let s := s.modFlow q fun f =>
        let buf := wrBytes f.rcvBuf w.offset (openedBytes f w)
        let len := max f.rcvLen (w.offset + w.payload.length)
        { f with
          rcvNext := f.rcvNext + 1, rcvUnack := f.rcvUnack + 1, nakSent := false, rcvCe := f.rcvCe || w.ce
          rcvBuf := if w.last then [] else buf, rcvLen := if w.last then 0 else len
          rcvDone := if w.last then f.rcvDone ++ [(w.msgId, rdBytes buf 0 len)] else f.rcvDone }
      if w.last ∨ w.ackReq ∨ 16 ≤ f.rcvUnack + 1 then s.sendAck q else s

/-- Everything below `n` is acknowledged; messages that are complete leave the flow with OK. -/
def State.ackTo (qpn n : Nat) (s : State) : State :=
  let s := s.modFlow qpn fun f => { f with sndUna := max f.sndUna n }
  let done := (s.flow qpn).msgs.filter fun m => decide (m.psn + m.npkt ≤ (s.flow qpn).sndUna)
  let s := s.each done fun m s => s.emit (.waleDone qpn m.id St.ok m.bytes.length)
  s.modFlow qpn fun f => { f with msgs := f.msgs.filter fun m => decide (f.sndUna < m.psn + m.npkt) }

/-- WALE_ACK (R325). -/
def State.waleAck (p : Nat) (w : WalePkt) (s : State) : State :=
  match flowFor s p w with
  | none => s
  | some f =>
    if w.psn < f.sndUna ∨ f.sndNext < w.psn then s
    else
      let s := s.ackTo w.dstQpn w.psn
      (s.modFlow w.dstQpn fun x => { x with
        window := if w.ece then max 16 (x.window / 2) else min 256 (x.window + 1)
        resends := if f.sndUna < w.psn then 0 else x.resends }).pump 256 w.dstQpn

/-- The packets from the oldest unacknowledged one on are sent again; after 7 resends of one PSN the flow fails. -/
def State.resend (qpn : Nat) (s : State) : State :=
  let f := s.flow qpn
  if 7 ≤ f.resends then s.closeFlow qpn 3
  else if pausedOn s f.port (walePrio s f) then s
  else
    let s := s.modFlow qpn fun f => { f with resends := f.resends + 1 }
    s.each (List.range (f.sndNext - f.sndUna)) fun i s =>
      match packetAt qpn f (f.sndUna + i) with
      | none => s
      | some w => (s.waleOut f 1 w).modPort f.port fun p => { p with retx := sat 32 (p.retx + 1) }

/-- WALE_NAK (R325). -/
def State.waleNak (p : Nat) (w : WalePkt) (s : State) : State :=
  match flowFor s p w with
  | none => s
  | some f =>
    if w.psn < f.sndUna ∨ f.sndNext ≤ w.psn then s
    else
      let s := s.ackTo w.dstQpn w.psn
      (if f.sndUna < w.psn then s.modFlow w.dstQpn fun x => { x with resends := 0 } else s).resend w.dstQpn

/-- The context whose blocks give the queue pair for a flow under a KEYID (R322). -/
def flowCtx (s : State) (keyId : Nat) : Nat := match keySlotOf s keyId with | some (false, n) => n | _ => 0

/-- WALE_OPEN (R322): a queue pair and the class are bound, or the flow is refused with reason KEY or NO_QP. An OPEN that comes again is answered
again. -/
def State.waleOpen (p : Nat) (w : WalePkt) (s : State) : State :=
  let refuse := fun (reason : Nat) => s.waleOut { port := p, cls := w.cls % 8, peerQpn := w.srcQpn } 6 { dstQpn := w.srcQpn, reason := reason }
  match keysWhere s.host.flows fun _ f => !f.opener && f.state == .isOpen && f.port == p && f.peerQpn == w.srcQpn && f.nonceR == w.nonce with
  | q :: _ => s.waleOut (s.flow q) 5 (openPkt q (s.flow q))
  | [] =>
    if !hasPort s p then s
    else if w.keyId ≠ 0 ∧ !keyLive s w.keyId then refuse 2
    else match freeQp s (flowCtx s w.keyId) with
      | none => refuse 1
      | some q =>
        let x := s.fresh
        let ctx := flowCtx s w.keyId
        let nonce := x.1 % 2 ^ 64
        let f : Flow := { state := .isOpen, ctx := ctx, peerQpn := w.srcQpn, port := p, cls := w.cls % 8, nonceL := nonce, nonceR := w.nonce,
                          keyId := w.keyId, sealKey := sealKey s w.keyId w.nonce nonce }
        let s := (x.2.modFlow q fun _ => f).modQp q fun _ => { state := .active, ctx := ctx, typ := 6, cls := w.cls % 8, port := p }
        s.waleOut f 5 (openPkt q f)

/-- WALE_OPEN_ACK (R322, R324): the flow is open and its queued messages leave. -/
def State.waleOpenAck (p : Nat) (w : WalePkt) (s : State) : State :=
  let f := s.flow w.dstQpn
  if f.state ≠ .opening ∨ f.port ≠ p then s
  else
    let key := sealKey s f.keyId f.nonceL w.nonce
    (s.modFlow w.dstQpn fun f => { f with state := .isOpen, peerQpn := w.srcQpn, nonceR := w.nonce, sealKey := key }).pump 256 w.dstQpn

/-- WALE_CLOSE (R322): an opener refused with NO_QP tries again at the next boundary; any other CLOSE ends the flow. -/
def State.waleClose (p : Nat) (w : WalePkt) (s : State) : State :=
  let f := s.flow w.dstQpn
  if f.port ≠ p ∨ f.state = .closed ∨ (f.state = .isOpen ∧ f.peerQpn ≠ w.srcQpn) then s
  else if f.state = .opening ∧ w.reason = 1 then s.modFlow w.dstQpn fun f => { f with state := .retry }
  else s.endFlow w.dstQpn w.reason

/-- PFC_FRAME: a priority pauses or goes on, and with it its held frames and the flows that use it. -/
def State.pfcFrame (p prio : Nat) (xoff : Bool) (s : State) : State :=
  if !hasPort s p then s
  else
    let s := s.modPort p fun x => { x with
      xoffRx := if xoff then sat 16 (x.xoffRx + 1) else x.xoffRx
      paused := (x.paused.filter fun y => y != prio) ++ if xoff && bit x.pfcEn prio then [prio] else [] }
    if xoff then s else (s.releaseHeld p prio).each (keysWhere s.host.flows fun _ f => f.port == p) fun q s => s.pump 256 q

/-! ### The commands -/

/-- WALE_DATA (R325). -/
def execWaleData (p : Nat) (w : WalePkt) (s : State) : Host.Outcome State Fault Refusal := act (okPort p) s (s.waleData p w)

/-- WALE_ACK (R325). -/
def execWaleAck (p : Nat) (w : WalePkt) (s : State) : Host.Outcome State Fault Refusal := act (okPort p) s (s.waleAck p w)

/-- WALE_NAK (R325). -/
def execWaleNak (p : Nat) (w : WalePkt) (s : State) : Host.Outcome State Fault Refusal := act (okPort p) s (s.waleNak p w)

/-- WALE_OPEN (R322). -/
def execWaleOpen (p : Nat) (w : WalePkt) (s : State) : Host.Outcome State Fault Refusal := act (okPort p) s (s.waleOpen p w)

/-- WALE_OPEN_ACK (R322). -/
def execWaleOpenAck (p : Nat) (w : WalePkt) (s : State) : Host.Outcome State Fault Refusal := act (okPort p) s (s.waleOpenAck p w)

/-- WALE_CLOSE (R322). -/
def execWaleClose (p : Nat) (w : WalePkt) (s : State) : Host.Outcome State Fault Refusal := act (okPort p) s (s.waleClose p w)

/-- WALE_ACK_TIMER (R325): no later than 4 µs after an unacknowledged packet. -/
def execWaleAckTimer (qpn : Nat) (s : State) : Host.Outcome State Fault Refusal :=
  act (okQpn qpn) s (if (s.flow qpn).state = .isOpen ∧ 0 < (s.flow qpn).rcvUnack then s.sendAck qpn else s)

/-- WALE_RESEND_TIMEOUT (R325): no ACK within 64 µs. -/
def execWaleResendTimeout (qpn : Nat) (s : State) : Host.Outcome State Fault Refusal :=
  act (okQpn qpn) s (if (s.flow qpn).state = .isOpen ∧ (s.flow qpn).sndUna < (s.flow qpn).sndNext then s.resend qpn else s)

/-- PFC_FRAME (R318). -/
def execPfcFrame (p prio : Nat) (xoff : Bool) (s : State) : Host.Outcome State Fault Refusal := act (okPort p && okPrio prio) s (s.pfcFrame p prio xoff)

end Sys2Proof.Machine
end

