-- ==== Sys2Proof/Machine/Training.lean ====
section
/-! DEFINITION. The training rows: contributions and Twine (R282, R283, R288 to R293), the ring path (R295 to R297), lateness (R298, R299),
reports and verdicts (R287, R294, R301), publication (R161, R302), silence (R300), and continuous learning (R278 to R280). -/

namespace Sys2Proof.Machine

/-! ### Frames of a bucket -/

/-- The bytes of a Twine frame of `n` elements on the wire. -/
def frameBytesOn (n : Nat) : Nat := 4 * n + 166

/-- The frames of one piece: SEQ, first and one past the last element. -/
def framesOf (lo hi : Nat) : List (Nat × Nat × Nat) :=
  (List.range (ceilDiv (hi - lo) 1024)).map fun i => (i, lo + 1024 * i, min hi (lo + 1024 * (i + 1)))

/-- The pieces of a bucket: owner and rail. -/
def Job.pieces (j : Job) : List (Nat × Nat) := (List.range j.desc.m).flatMap fun m => (List.range j.nrail).map fun r => (m, r)

/-- Whether a piece's rail uses Twine, or the ring path, in a bucket's attempt (R295, R296). -/
def Job.byTwine (j : Job) (x : Bucket) (r : Nat) : Bool := !j.ringOnly x r
def Job.byRing (j : Job) (b : Nat) (x : Bucket) (r : Nat) : Bool := j.ringOnly x r || j.checked b

/-- The summed words that Twine has returned of an owner's own piece, once every frame is there. -/
def twinePiece (j : Job) (b : Nat) (x : Bucket) (r : Nat) : Option (List (BitVec 32)) :=
  let fs := (List.range (ceilDiv (j.pieceLen b j.desc.member r) 1024)).map fun i => (x.results.find? fun y => y.1 == r * 65536 + i).map Prod.snd
  if fs.all Option.isSome then some (fs.flatMap fun y => y.getD []) else none

def ringPiece (j : Job) (b : Nat) (x : Bucket) (r : Nat) : Option (List (BitVec 32)) :=
  if j.pieceLen b j.desc.member r = 0 then some [] else (x.ring.find? fun y => y.1 == r).map Prod.snd

/-- Whether an owner holds a rail's piece, or has given it up as LOST (R293, R301). -/
def railSettled (j : Job) (b : Nat) (x : Bucket) (r : Nat) : Bool :=
  (!j.byTwine x r || (twinePiece j b x r).isSome || x.lost.contains r) && (!j.byRing b x r || (ringPiece j b x r).isSome || x.lost.contains r)

/-- The rails of a checked bucket whose two sums differ (R297). -/
def differs (j : Job) (b : Nat) (x : Bucket) : List Nat :=
  if !j.checked b then []
  else (List.range j.nrail).filter fun r => j.byTwine x r && !x.lost.contains r && twinePiece j b x r != ringPiece j b x r

def checkOf (j : Job) (b : Nat) (x : Bucket) : CheckRes :=
  if !j.checked b then .notChecked
  else if (differs j b x).isEmpty then .allEqual
  else .differ ((differs j b x).all fun r => (x.lastRing.find? fun y => y.1 == r).map Prod.snd == ringPiece j b x r)

/-- How a member stands in a bucket (R299): 0 on time, 1 late and carried, 2 late and dropped. -/
def statOf (j : Job) (b : Nat) (x : Bucket) : Nat := if !x.wasLate then 0 else if carries? j b x then 1 else 2

def ownReport (j : Job) (b : Nat) (x : Bucket) : OwnerRpt :=
  { part := j.desc.part, bucket := b, owner := j.desc.member, ovf := x.ovf, exp := x.exp, nfcnt := x.nfcnt, lost := x.lost, bounce := x.bounced
    check := checkOf j b x, badRails := differs j b x, mstat := statOf j b x }

/-! ### The update of a shard (R161, R289) -/

/-- BF16 values of an owner's shard, written into the idle copy. -/
def State.writeShard (j : Job) (b owner : Nat) (vals : List Nat) (s : State) : State :=
  let frames := idleCopy (s.weaver j.desc.handle)
  s.each (vals.zip (List.range vals.length)) fun x s =>
    match tensorOf j.plan.tensors (b * 1048576 + (j.shard b owner).1 + x.2) 0 with
    | none => s
    | some t => s.copyWrite frames (t.2.2 + 2 * t.2.1) x.1

/-- The SEED of firmware's update commands, from 1 to 15. -/
def seedIdx : Nat := Config.updateSeed % 15 + 1

/-- What an update of an owner's shard reads: its parameter record, its master copy and state, and its sums. -/
def Job.updateAreas (j : Job) (b : Nat) : List (Nat × Nat) :=
  (schedAddr j, 64) :: j.stateAreas b ++ [((j.area b).sums, 4 * j.shardLen b j.desc.member)]

/-- The new values of an owner's shard from what has been read: master copies, m (or b), v, and the BF16 working-copy values. -/
def newShard (s : State) (j : Job) (b : Nat) (p : Params) (bs : List (List Byte)) : List FVal × List FVal × List FVal × List Nat :=
  let x := j.bucket (j.own b)
  let lo := (j.shard b j.desc.member).1
  let l := j.shardLen b j.desc.member
  let seed : Seed := { ctxSeed := (s.ctx j.ctx).seed, gen := j.gen, wver := (s.weaver j.desc.handle).version
                       course := 0x80000000 + 16 * (j.step % 2 ^ 27) + seedIdx }
  let th := f32s l (bs.getD 1 [])
  let opt := f32s (optWords j.desc * l) (bs.getD 2 [])
  let sums := bs.getD 3 []
  let new := (List.range l).map fun i =>
    let g := rnd32 ((FVal.ofInt (signedOf 32 (leNat ((sums.drop (4 * i)).take 4)))).mul (.fin false 1 (-x.k)))
    updateElem j.desc.sgdm p (th.getD i .zero) (opt.getD i .zero) (opt.getD (l + i) .zero) g
  let work := (new.zip (List.range l)).map fun y =>
    match tensorOf j.plan.tensors (b * 1048576 + lo + y.2) 0 with
    | none => 0
    | some t =>
      let u := if j.desc.sr then updateU seed (if j.desc.sgdm then 4 else 3) t.1 seedIdx t.2.1 else 0
      roundF (ffmt 1) (if j.desc.sr then 6 else 0) u y.1.1
  (new.map fun y => y.1, new.map fun y => y.2.1, new.map fun y => y.2.2, work)

/-- The status with which a job ends whose memory cannot be read (R240, R265). -/
def jobStatus (e : AccErr) : Nat := match e with | .fails st => st | _ => St.dataPoisoned

/-- A bucket whose M shards are in the idle copy is CLOSED; its gradient is zeroed unless it is carried (R282, R299). -/
def State.checkClosed (key b : Nat) (s : State) : State :=
  let j := s.job key
  let x := j.bucket (j.own b)
  if x.state ≠ .updating ∨ x.shards.length < j.desc.m then s
  else
    let kept := x.wasLate && carries? j b x
    let s := s.modBucket key (j.own b) fun x => { x with state := .closed }
    if kept then s.modJob key fun j => { j with anyCarried := true } else s.zeroGrad j b

/-- A shard of the working copy goes to another member over Wale, sealed under the context's key (R289, R324). -/
def State.shardOut (key b m : Nat) (bs : List Byte) (s : State) : State :=
  let j := s.job key
  ((s.emit (.workShard key b m bs)).charge Act.reduce { hbm := bs.length }).waleSend j.ctx Act.reduce (b % j.nrail) (s.tkey j.ctx).keyId bs

/-- Whether another owner's shard of a bucket is one that is still missing. -/
def shardMissing (j : Job) (b owner : Nat) (data : List Byte) : Bool :=
  let x := j.bucket (j.own b)
  j.active && decide (b < j.nbucket) && decide (owner < j.desc.m) && !x.shards.contains owner && owner != j.desc.member
    && data.length == 2 * j.shardLen b owner && (x.state == .waiting || x.state == .updating)

/-- WORKING_COPY_SHARD: another owner's BF16 shard goes into the idle copy; while a running course uses that copy the shard waits (R161). -/
def State.shardIn (key b owner : Nat) (data : List Byte) (s : State) : State :=
  let j := s.job key
  if !shardMissing j b owner data then s
  else if copyBusy s j.desc.handle then
    s.modJob key fun j => { j with arrived := j.arrived.filter (fun y => y.1 != b || y.2.1 != owner) ++ [(b, owner, data)] }
  else
    let vals := (List.range (j.shardLen b owner)).map fun i => leNat ((data.drop (2 * i)).take 2)
    let s := (s.writeShard j b owner vals).charge Act.reduce { hbm := data.length }
    (s.modBucket key (j.own b) fun x => { x with shards := owner :: x.shards }).checkClosed key b

/-- The shards that waited for the idle copy are tried again. -/
def State.shardsArrived (key : Nat) (s : State) : State :=
  (s.modJob key fun j => { j with arrived := [] }).each (s.job key).arrived fun y s => s.shardIn key y.1 y.2.1 y.2.2

/-- The owner updates its shard once the idle copy is free and UPDATE has admitted its units (R245), and sends the shard to the part's other members (R289). -/
def State.tryUpdate (key b : Nat) (s : State) : State :=
  let j := s.job key
  let x := j.bucket (j.own b)
  if !j.active ∨ x.state ≠ .updating ∨ x.updated ∨ copyBusy s j.desc.handle ∨ ctxGoing s j.ctx then s
  else
    let l := j.shardLen b j.desc.member
    let rd := s.readAll j.ctx (j.updateAreas b)
    match rd.1 with
    | .error .waits => rd.2.uWaits s
    | .error e => rd.2.closeJob key (jobStatus e) 1
    | .ok bs =>
    let p := paramsAt (wrBytes [] 0 (bs.getD 0 [])) 0
    if p.bad j.desc.sgdm then s.closeJob key St.planViolation 1
    else
      let s := if x.asked then s
        else (s.modBucket key (j.own b) fun x => { x with asked := true }).pushMove
          { what := .update key b, cls := Act.update, link := false, bytes := (if j.desc.sgdm then 22 else 30) * l }
      if moveLeft s (.update key b) ≠ 0 then s
      else
        let s := (s.readAll j.ctx (j.updateAreas b)).2
        let n := newShard s j b p bs
        let a := j.area b
        let s := (s.putDva j.ctx a.master (encF32 n.1)).putDva j.ctx a.opt (encF32 (n.2.1 ++ if j.desc.sgdm then [] else n.2.2.1))
        let s := s.writeShard j b j.desc.member n.2.2.2
        let s := s.modWeaver j.desc.handle fun w => { w with nextVersion := w.version + 1 }
        let others := (List.range j.desc.m).filter fun m => m != j.desc.member
        let s := s.each others fun m s => s.shardOut key b m (n.2.2.2.flatMap fun v => leBytes 2 v)
        (s.modBucket key (j.own b) fun x => { x with updated := true, shards := j.desc.member :: x.shards }).checkClosed key b

/-- Cycle 40: updates and shards that waited are tried again. -/
def State.retryUpdates (s : State) : State :=
  s.each s.train.jobs fun p s => (s.shardsArrived p.1).each (List.range (s.job p.1).nbucket) fun b s => s.tryUpdate p.1 b

/-! ### Verdicts (R287, R293, R294, R297, R301) -/

/-- A bucket that is to be reduced again: the next attempt, with k and the rails that go to the ring path. -/
def Bucket.redo (x : Bucket) (k : Int) (ring : List Nat) : Bucket :=
  { x with
    state := .sending, toSend := true, asked := false, attempt := x.attempt + 1, k := k, lastRing := x.ring, results := [], ring := [], ovf := false,
    exp := -128
    nfcnt := 0, lost := [], bounced := [], reported := false, reports := [], ringRails := (x.ringRails ++ ring).eraseDups }

/-- The words that an owner takes as its shard's sums are written as INT32 into its gradient array (R289). -/
def State.writeSums (key b r : Nat) (ws : List (BitVec 32)) (s : State) : State :=
  let j := s.job key
  let lo := (j.piece b j.desc.member r).1 - (j.shard b j.desc.member).1
  s.putDva j.ctx ((j.area b).sums + 4 * lo) (ws.flatMap fun w => leBytes 4 w.toNat)

/-- A verdict of this device's own part takes effect. -/
def State.applyVerdict (key b : Nat) (v : VerdictKind) (s : State) : State :=
  let j := s.job key
  let x := j.bucket (j.own b)
  if !j.active ∨ x.state ≠ .waiting then s
  else match v with
    | .redo k ring => (s.modBucket key (j.own b) fun x => x.redo k ring).modJob key fun j => { j with redos := j.redos + 1 }
    | .failed => (s.modBucket key (j.own b) fun x => { x with verdict := 1 }).closeJob key St.reduceFailed 1
    | .done k e ring =>
      let s := s.each ring fun r s => (ringPiece j b x r).elim s fun ws => s.writeSums key b r ws
      let s := s.modJob key fun j => { j with ringRails := (j.ringRails ++ ring).eraseDups }
      let s := s.modBucket key (j.own b) fun x =>
        { x with state := .updating, verdict := 0, k := k, e := if e = -128 then none else some e }
      s.tryUpdate key b

/-- The lead sends a verdict to every member of a part; its own part's takes effect here. -/
def State.sendVerdict (key part b : Nat) (v : VerdictKind) (s : State) : State :=
  let s := s.jobOut (.verdict key part { bucket := b, kind := v }) Config.verdictBytes
  let own := part == (s.job key).desc.part
  match v with
  | .redo k ring => if own then s.applyVerdict key b v else s.modBucket key (bktKey part b) fun x => x.redo k ring
  | .done k e _ =>
    let s := s.modBucket key (bktKey part b) fun x => { x with verdict := 0, k := k, e := if e = -128 then none else some e }
    if own then s.applyVerdict key b v else s
  | .failed => (s.modBucket key (bktKey part b) fun x => { x with verdict := 1 }).closeJob key St.reduceFailed 1

/-- The fault journal entry of a reduction (R426): DETAIL [0] rail, [1] 0 no Twine, 1 LOST, 2 BOUNCE, 3 mismatch, 4 RING_USED. -/
def reduceEntry (j : Job) (rail why : Nat) : JEntry :=
  { code := St.reduceEvent, cls := Cls.recovered, blk := Blk.twine, unit := rail, ctx := j.ctx, tag := j.note.elim 0 Notice.tag,
    progress := sat 32 j.published, gen := j.gen, detail := rail + why * 2 ^ 8 }

/-- The lead decides once it holds the report of every owner of a bucket of a part. -/
def State.settleBucket (key part b : Nat) (s : State) : State :=
  let j := s.job key
  let x := j.bucket (bktKey part b)
  let rs := x.reports
  if rs.length < j.desc.m ∨ x.verdict ≠ 2 then s
  else
    let e := rs.foldl (fun (m : Int) r => max m r.exp) (-128)
    let ovf := rs.any OwnerRpt.ovf
    let rails := (rs.flatMap fun r => r.lost ++ r.bounce).eraseDups
    let bad := (rs.flatMap OwnerRpt.badRails).eraseDups
    let ds := rs.filterMap fun r => match r.check with | .differ y => some y | _ => none
    let differ := !ds.isEmpty
    let s := s.modBucket key (bktKey part b) fun x => { x with
      nfcnt := (rs.map OwnerRpt.nfcnt).sum, mstat := (rs.map fun r => r.mstat * 4 ^ r.owner).sum }
    if ovf ∧ j.desc.replay then s.closeJob key St.ledgerMismatch 1
    else if differ ∧ x.mismatch ∧ !ds.all id then s.sendVerdict key part b .failed
    else if ovf ∨ !rails.isEmpty ∨ (differ ∧ !x.mismatch) then
      let s := if differ ∧ !x.mismatch then
          ((s.each bad fun r s => s.journal (reduceEntry j r 3)).modBucket key (bktKey part b) fun x => { x with mismatch := true }).modJob key
            fun j => { j with mismatches := j.mismatches + 1 }
        else s
      if 3 ≤ x.attempt then s.sendVerdict key part b .failed
      else
        let s := s.each (rs.flatMap OwnerRpt.lost).eraseDups fun r s => s.journal (reduceEntry j r 1)
        let s := s.each (rs.flatMap OwnerRpt.bounce).eraseDups fun r s => s.journal (reduceEntry j r 2)
        let s := s.each rails fun r s => s.twineOut r 0 3 (part * 12 + r)
          { group := (j.desc.jobId * 16 + part) % 2 ^ 32, step := j.step % 2 ^ 32, bucket := b, attempt := x.attempt, rail := r, nmemb := j.desc.m }
        s.sendVerdict key part b (.redo (if ovf then min 127 (30 - (headroom j.desc : Int) - e) else x.k) rails)
    else
      let ring := if differ then bad else []
      let s := s.each ring fun r s => s.journal (reduceEntry j r 4)
      let checked := j.checked b
      let s := s.modBucket key (bktKey part b) fun x => { x with checkv := if !checked then 0 else if differ then 3 else if x.mismatch then 2 else 1 }
      s.sendVerdict key part b (.done x.k e ring)

/-- The lead takes an owner's report. -/
def State.leadReport (key : Nat) (r : OwnerRpt) (s : State) : State :=
  let j := s.job key
  if !j.active ∨ !j.isLead ∨ j.desc.npart ≤ r.part ∨ j.nbucket ≤ r.bucket ∨ j.desc.m ≤ r.owner then s
  else
    let s := s.modJob key fun j => { j with heard := ((r.part * 64 + r.owner) :: j.heard).eraseDups }
    (s.modBucket key (bktKey r.part r.bucket) fun x =>
      { x with reports := (x.reports.filter fun y => y.owner != r.owner) ++ [r] }).settleBucket key r.part r.bucket

/-- An owner reports once every rail of its shard is settled (R301). -/
def State.tryReport (key b : Nat) (s : State) : State :=
  let j := s.job key
  let x := j.bucket (j.own b)
  if x.state ≠ .waiting ∨ !(List.range j.nrail).all (railSettled j b x) then s
  else
    let s := s.modBucket key (j.own b) fun x => { x with reported := true }
    let r := ownReport j b x
    if j.isLead then s.leadReport key r else s.jobOut (.ownerReport key r) Config.reportBytes

/-! ### Sending (R283, R288, R296) -/

/-- Bytes that an attempt of a bucket puts on the links: its Twine frames, and the ring transfers that it starts. -/
def sendCost (j : Job) (b : Nat) (x : Bucket) : Nat :=
  (j.pieces.map fun p =>
    let y := j.piece b p.1 p.2
    (if j.byTwine x p.2 then ((framesOf y.1 y.2).map fun f => frameBytesOn (f.2.2 - f.2.1)).sum else 0)
      + if j.byRing b x p.2 && (p.1 + 1) % j.desc.m == j.desc.member && j.desc.m != 1 then 4 * (y.2 - y.1) else 0).sum

def State.twnCount (p : Nat) (f : TwnCnt → TwnCnt) (s : State) : State := { s with train := { s.train with twn := adj {} s.train.twn p f } }

/-- The frames of one piece leave on its rail. -/
def State.sendPiece (key b owner rail : Nat) (s : State) : State :=
  let j := s.job key
  let x := j.bucket (j.own b)
  let y := j.piece b owner rail
  let kid := (s.tkey (s.weaver j.desc.handle).keySlot).keyId
  s.each (framesOf y.1 y.2) fun f s =>
    let c := contribution s j b f.2.1 f.2.2
    let out := s.twineOut rail f.1 1 (j.desc.part * 12 + rail) {
      ovf := c.ovf, late := x.wasLate, member := j.desc.member, nmemb := j.desc.m, group := j.group, step := j.step % 2 ^ 32, bucket := b
      attempt := x.attempt, owner := owner, rail := rail, seq := f.1, exp := c.exp, nfcnt := c.nf, keyId := kid, mask := 2 ^ j.desc.member
      payload := c.words }
    if canSend s rail (subOf s rail f.1) then out.twnCount rail fun t => { t with contrib := sat 32 (t.contrib + 1) } else out

/-- The owner's piece on the ring path is complete. -/
def State.ringDone (key b rail : Nat) (c : Piece) (s : State) : State :=
  let j := s.job key
  let only := j.ringOnly (j.bucket (j.own b)) rail
  let s := s.modBucket key (j.own b) fun x => { x with
    ring := x.ring ++ [(rail, c.words)], ovf := x.ovf || c.ovf, exp := max x.exp c.exp, nfcnt := if only then x.nfcnt + c.nf else x.nfcnt }
  if only then s.writeSums key b rail c.words else s

/-- The first member of a ring sends its contribution on. -/
def State.startRing (key b owner rail : Nat) (s : State) : State :=
  let j := s.job key
  let x := j.bucket (j.own b)
  let y := j.piece b owner rail
  if (owner + 1) % j.desc.m ≠ j.desc.member ∨ y.1 = y.2 then s
  else
    let c := contribution s j b y.1 y.2
    if j.desc.m = 1 then s.ringDone key b rail c
    else s.emit (.ringSend key (ringPort s rail) ((j.desc.member + 1) % j.desc.m)
      { bucket := b, attempt := x.attempt, owner := owner, rail := rail, exp := c.exp, ovf := c.ovf, nfcnt := c.nf, words := c.words })

/-- Whether a bucket may be sent now: its turn in the order of sealing, and BIF (R283). -/
def sendTurn (j : Job) (b : Nat) : Bool :=
  let x := j.bucket (j.own b)
  let others := (List.range j.nbucket).filter fun i => i != b
  let busy := others.filter fun i => let y := j.bucket (j.own i); y.state == .sending || y.state == .waiting
  x.toSend && (x.state == .sending || ((x.state == .isSealed || x.state == .late) && decide (busy.length < j.desc.bifMax)
    && others.all fun i =>
      let y := j.bucket (j.own i)
      !(y.state == .isSealed || y.state == .late) || decide (x.sealedAt < y.sealedAt) || (x.sealedAt == y.sealedAt && decide (b < i))))

/-- What the contributions of a bucket are read from: a LATE member's are zeros (R298). -/
def gradArea (j : Job) (b : Nat) : List (Nat × Nat) := if (j.bucket (j.own b)).wasLate then [] else [((j.area b).grad, 4 * j.elems b)]

/-- BUCKET_SEND (R283): a bucket whose turn it is is SENDING; it leaves once REDUCE has admitted its units and no rail's TWINE priority is
paused. -/
def State.bucketSend (key b : Nat) (s : State) : State :=
  let j := s.job key
  let x := j.bucket (j.own b)
  let held := (List.range j.nrail).any fun r => j.byTwine x r && pausedOn s r (s.port r).tcTwine
  if !j.active ∨ ctxGoing s j.ctx ∨ j.nbucket ≤ b ∨ !sendTurn j b ∨ held then s
  else
    let rd := s.readAll j.ctx (gradArea j b)
    match rd.1 with
    | .error .waits => rd.2.uWaits s
    | .error e => rd.2.closeJob key (jobStatus e) 1
    | .ok bs =>
    let m : Move := { what := .bucket key b, cls := Act.reduce, bytes := 0 }
    let s := if x.asked then s
      else ((s.modBucket key (j.own b) fun x => { x with state := .sending, asked := true }).pushMove
        { m with link := false, bytes := (bs.map List.length).sum }).pushMove { m with hbm := false, bytes := sendCost j b x }
    if moveLeft s m.what ≠ 0 then s
    else
      let s := (s.readAll j.ctx (gradArea j b)).2
      let s := s.each j.pieces fun p s => if j.byTwine x p.2 then s.sendPiece key b p.1 p.2 else s
      let s := s.each j.pieces fun p s => if j.byRing b x p.2 then s.startRing key b p.1 p.2 else s
      (s.modBucket key (j.own b) fun x => { x with state := .waiting, toSend := false, asked := false, sentRnd := s.rnd.num }).tryReport key b

/-- BUCKET_LATE (R298). -/
def State.bucketLate (key b : Nat) (s : State) : State :=
  let j := s.job key
  match j.firstRnd with
  | none => s
  | some f =>
    if !j.active ∨ j.desc.replay ∨ j.nbucket ≤ b ∨ (j.bucket (j.own b)).state ≠ .isOpen ∨ boundaryRnd s < f + j.desc.deadline then s
    else
      (s.modBucket key (j.own b) fun x => { x with state := .late, wasLate := true, sealedAt := j.seals, toSend := true }).modJob key fun j =>
        { j with seals := j.seals + 1, lates := j.lates + 1 }

/-! ### Twine frames received (R273, R293, R310) -/

/-- The running job that a frame's GROUP names. -/
def groupJob (s : State) (g : Nat) : Option Nat := (s.train.jobs.find? fun p => p.2.active && p.2.group == g).map Prod.fst

def State.twnDrop (p : Nat) (s : State) : State := s.twnCount p fun t => { t with drop := sat 16 (t.drop + 1) }

/-- Whether a frame belongs to the current attempt of one of a job's buckets. -/
def current (j : Job) (w : TwineFrame) : Bool :=
  let x := j.bucket (j.own w.bucket)
  w.step == j.step % 2 ^ 32 && decide (w.bucket < j.nbucket) && x.state == .waiting && x.attempt == w.attempt && decide (w.rail < j.nrail)

/-- A RESULT that an owner still lacks, of the length its SEQ has. -/
def resultFits (j : Job) (p : Nat) (w : TwineFrame) : Bool :=
  let x := j.bucket (j.own w.bucket)
  let n := j.pieceLen w.bucket j.desc.member w.rail
  current j w && w.owner == j.desc.member && w.rail == p && j.byTwine x w.rail && w.mask == 2 ^ j.desc.m - 1
    && decide (1024 * w.seq < n) && w.payload.length == min 1024 (n - 1024 * w.seq)
    && x.results.all fun y => y.1 != w.rail * 65536 + w.seq

/-- TWINE_RESULT: inbound bytes are charged to REDUCE whatever its tally (R39). -/
def State.twineResult (p : Nat) (w : TwineFrame) (s : State) : State :=
  if !hasTrain s ∨ !w.wellFormed then s.twnDrop p
  else
    let s := s.charge Act.reduce { link := frameBytesOn w.payload.length }
    if !keyLive s w.keyId then s.twnCount p fun t => { t with staleKey := sat 16 (t.staleKey + 1) }
    else match groupJob s w.group with
      | none => s.twnDrop p
      | some key =>
        let j := s.job key
        if !resultFits j p w then s.twnDrop p
        else
          let s := s.twnCount p fun t => { t with result := sat 32 (t.result + 1) }
          let s := s.modBucket key (j.own w.bucket) fun x => { x with
            results := x.results ++ [(w.rail * 65536 + w.seq, w.payload)], ovf := x.ovf || w.ovf, exp := max x.exp w.exp, nfcnt := x.nfcnt + w.nfcnt }
          let x := (s.job key).bucket (j.own w.bucket)
          let s := (twinePiece j w.bucket x w.rail).elim s fun ws => s.writeSums key w.bucket w.rail ws
          s.tryReport key w.bucket

/-- TWINE_BOUNCE: a member reports it with its shard, or again when it has reported already. -/
def State.twineBounce (p : Nat) (w : TwineFrame) (s : State) : State :=
  if !hasTrain s ∨ !w.wellFormed then s.twnDrop p
  else
    let s := s.twnCount p fun t => { t with bounce := sat 16 (t.bounce + 1) }
    match groupJob s w.group with
    | none => s
    | some key =>
      let j := s.job key
      if !current j w ∨ w.rail ≠ p ∨ (j.bucket (j.own w.bucket)).bounced.contains w.rail then s
      else (s.modBucket key (j.own w.bucket) fun x => { x with bounced := x.bounced ++ [w.rail] }).tryReport key w.bucket

/-- TWINE_PROBE_REPLY: a probed rail of a job has a reducing switch; or the answer of TWINE_PROBE. -/
def State.probeReply (p : Nat) (w : TwineFrame) (s : State) : State :=
  if !hasTrain s ∨ !w.wellFormed then s.twnDrop p
  else
    match groupJob s w.group with
    | some key =>
      if (s.job key).probing.contains p then s.modJob key fun j => { j with probing := j.probing.filter fun r => r != p } else s.twnDrop p
    | none =>
      match s.train.probe with
      | some (ch, q, _) =>
        if q = p then ({ s with train := { s.train with probe := none } }).answer ch St.ok 0 4 (w.capacity % 2 ^ 32) else s.twnDrop p
      | none => s.twnDrop p

/-- PROBE_TIMEOUT: a rail without a reply within 1 round is reduced by the ring path for the whole job. -/
def State.probeTimeout (key rail : Nat) (s : State) : State :=
  let j := s.job key
  if j.probing.contains rail ∧ j.probeRnd + 1 ≤ boundaryRnd s then
    (s.modJob key fun j => { j with probing := j.probing.filter fun r => r != rail, ringRails := (j.ringRails ++ [rail]).eraseDups }).journal
      (reduceEntry j rail 0)
  else s

/-- PIECE_LOST: 4 rounds after the owner's own last frame a piece still lacks a RESULT. -/
def State.pieceLost (key b rail : Nat) (s : State) : State :=
  let j := s.job key
  let x := j.bucket (j.own b)
  if x.state = .waiting ∧ rail < j.nrail ∧ x.sentRnd + 4 ≤ boundaryRnd s ∧ j.byTwine x rail ∧ twinePiece j b x rail = none ∧ !x.lost.contains rail then
    ((s.modBucket key (j.own b) fun x => { x with lost := x.lost ++ [rail] }).twnCount rail fun t => { t with lost := sat 16 (t.lost + 1) }).tryReport key b
  else s

/-- RING_CONTRIB (R296): this member's contribution is added; the owner's is the last. -/
def State.ringContrib (key : Nat) (r : RingMsg) (s : State) : State :=
  let j := s.job key
  let x := j.bucket (j.own r.bucket)
  let y := j.piece r.bucket r.owner r.rail
  if !j.active ∨ (s.tkey (s.weaver j.desc.handle).keySlot).state ≠ .live ∨ x.state ≠ .waiting ∨ x.attempt ≠ r.attempt ∨ j.nbucket ≤ r.bucket
      ∨ j.desc.m ≤ r.owner ∨ j.nrail ≤ r.rail ∨ !j.byRing r.bucket x r.rail ∨ r.words.length ≠ y.2 - y.1 then s
  else
    let area := if x.wasLate then [] else [((j.area r.bucket).grad + 4 * y.1, 4 * (y.2 - y.1))]
    let rd := s.readAll j.ctx area
    match rd.1 with
    | .error .waits => rd.2.uWaits s
    | .error e => rd.2.closeJob key (jobStatus e) 1
    | .ok bs =>
    let s := rd.2.charge Act.reduce { hbm := (bs.map List.length).sum }
    let c := contribution s j r.bucket y.1 y.2
    let c : Piece := { words := addWords r.words c.words, ovf := r.ovf || c.ovf, exp := max r.exp c.exp, nf := (r.nfcnt + c.nf) % 2 ^ 32 }
    if r.owner = j.desc.member then
      if x.ring.any fun z => z.1 == r.rail then s else (s.ringDone key r.bucket r.rail c).tryReport key r.bucket
    else
      (s.emit (.ringSend key (ringPort s r.rail) ((j.desc.member + 1) % j.desc.m)
        { r with exp := c.exp, ovf := c.ovf, nfcnt := c.nf, words := c.words })).charge Act.reduce { link := 4 * c.words.length }

/-! ### Messages of the job -/

/-- A member has heard from the lead. -/
def State.leadHeard (key : Nat) (s : State) : State := s.modJob key fun j => { j with leadHeard := s.rnd.num }

/-- VERDICT: a member of a part receives the lead's verdict. -/
def State.verdict (key : Nat) (m : VerdictMsg) (s : State) : State :=
  if (s.job key).active ∧ m.bucket < (s.job key).nbucket then (s.leadHeard key).applyVerdict key m.bucket m.kind else s


/-- Every bucket of this device's part is CLOSED. -/
def allClosed (j : Job) : Bool := (List.range j.nbucket).all fun b => (j.bucket (j.own b)).state == .closed

/-- PUBLISH (R302): the lead's announcement of round P, at least two rounds on; a member that hears it in round P or later publishes at the
next boundary, with a journal entry. -/
def State.publish (key step p : Nat) (s : State) : State :=
  let j := s.job key
  if !j.active ∨ step ≠ j.step ∨ j.pubRnd.isSome ∨ !allClosed j ∨ (j.isLead ∧ p < s.rnd.num + 2) then s
  else
    let late := decide (p ≤ s.rnd.num)
    let s := (s.leadHeard key).modJob key fun j => { j with pubRnd := some p, pubLate := late }
    if j.isLead then s.jobOut (.publish key step p) Config.publishBytes
    else if late then s.journal { code := St.groupTiming, cls := Cls.info, blk := Blk.round, ctx := j.ctx, gen := j.gen, detail := 3 }
    else s

/-- The working copy that has been published is what the package part backs: its frames are BACKED, and dirty as a whole; those of the other copy
have no backing copy any more (R229, R231). -/
def State.backCopy (h : Nat) (s : State) : State :=
  let w := s.weaver h
  let s := s.each (copyPart w (1 - w.copy)) fun f s => s.endMove f |>.modFrame f fun e =>
    { e with backed := false, dirty := 0, cleaning := false, pass := 0, state := if e.state = .dirty then .resident else e.state }
  s.each (liveCopy w) fun f s => s.modFrame f fun e =>
    { e with backed := true, dirty := 2 ^ 32 - 1, state := if e.state = .resident then .dirty else e.state }

/-- The version of a step is published (R161, R302): the pointer moves to the idle copy, state is saved when due, at the job's end by its end
(R275), the lead writes the ledger
entry, and the next step opens or the job ends. -/
def State.applyPublish (key : Nat) (s : State) : State :=
  let j := s.job key
  let w := s.weaver j.desc.handle
  if !j.active ∨ j.pubRnd.isNone then s
  else if 0xFFFFFFFF ≤ w.version then s.closeJob key St.versionExhausted 1
  else
    let s := (s.modWeaver j.desc.handle fun w => { w with version := w.version + 1, nextVersion := w.version + 1, copy := 1 - w.copy }).backCopy
      j.desc.handle
    let n := j.published + 1
    let ends := decide (j.desc.steps ≤ n) || j.stopAfter
    let saved := ends || (j.desc.saveEvery != 0 && n % j.desc.saveEvery == 0)
    let s := s.modJob key fun j => { j with published := n, lastVer := w.version + 1 }
    let s := if saved && !ends then s.saveState key else s
    let e := ledgerOf s j 0 (boundaryRnd s) saved
    let s := if j.isLead then s.sendLedger key e else s
    let s := if j.learning then
        { s with train := { s.train with learn := adj {} s.train.learn j.desc.handle fun l =>
            { l with desc := { l.desc with start := l.desc.start + 1 }, forming := [] } } }
      else s
    if ends then s.closeJob key (if n < j.desc.steps then St.jobStopped else St.ok) 0
    else
      let s := s.modJob key fun j => { j with step := j.step + 1 }
      if j.desc.replay then
        match replayEntry s (s.job key) with
        | none => s.closeJob key St.ledgerMismatch 0
        | some l => (s.modJob key fun j => { j with replayed := some l }).openStep key false
      else s.openStep key false

/-- Cycle 24 of the boundary of round P, or of the first boundary after a late announcement. -/
def State.publishDue (round : Nat) (s : State) : State :=
  s.each s.train.jobs fun p s => if (s.job p.1).pubRnd.elim false fun r => decide (r ≤ round) then s.applyPublish p.1 else s

/-- STEP_LEDGER: the entry that the lead sends is written into this device's ring. -/
def State.stepLedger (key : Nat) (e : LedgerEntry) (s : State) : State :=
  let j := s.job key
  if e.jobId ≠ j.desc.jobId ∨ e.nbucket ≠ j.nbucket ∨ e.npart ≠ j.desc.npart ∨ !ctxActive s j.ctx then s
  else (s.leadHeard key).writeLedger j e

/-- MEMBER_SILENCE (R300). -/
def State.memberSilence (key member : Nat) (s : State) : State :=
  let j := s.job key
  match j.firstRnd with
  | none => s
  | some f =>
    let quiet := if j.isLead then
        decide (f + j.desc.deadline + 16 ≤ boundaryRnd s) && decide (member < j.desc.m)
          && (List.range j.desc.npart).any fun p => !(p == 0 && member == 0) && !j.heard.contains (p * 64 + member)
      else decide (max j.leadHeard (f + j.desc.deadline) + 16 ≤ boundaryRnd s)
    if j.active ∧ quiet then s.closeJob key St.memberLost 1 else s

/-! ### Starting jobs -/

/-- The job that a descriptor describes, before it starts. -/
def jobOf (s : State) (ctx : Nat) (d : JobDesc) (note : Option Notice) : Job :=
  { active := true, desc := d, plan := (planAt s ctx d.plan).getD {}, ctx := ctx, note := note, nrail := railCount s ctx d, step := d.start
    probeRnd := s.rnd.num }

/-- A job whose STATE frames are mapped is loaded, its weaver is in training, its first step opens, a PROBE leaves on each rail. -/
def State.runJob (key : Nat) (j : Job) (s : State) : State :=
  let s := s.modJob key fun _ => j
  let s := (s.modWeaver j.desc.handle fun w => { w with training := true }).demand j.desc.handle
  let s := (s.loadState key).openStep key true
  s.each j.probing fun r s => s.twineOut r 0 5 (j.desc.part * 12 + r)
    { group := j.group, step := j.step % 2 ^ 32, rail := r, nmemb := j.desc.m }

/-- A job starts: its STATE frames are mapped and it runs. None when a frame is not FREE. -/
def State.beginJob (key : Nat) (j : Job) (s : State) : Option State :=
  let pages := newPages s j
  (chain pages (fun x s => s.mapState j.ctx x) s).map (State.runJob key { j with pages := pages, probing := List.range j.nrail })

/-- LEARNING_STEP_START (R278, R280): a step forms from the next LEARN_BATCH records whose WVER is not too old. -/
def State.learnStep (h : Nat) (s : State) : State :=
  let l := look {} s.train.learn h
  let w := s.weaver h
  if !hasTrain s ∨ !l.enabled ∨ !w.trainable ∨ w.training ∨ l.queue.length < l.batch ∨ s.flt.halted ∨ !ctxActive s l.ctx then s
  else
    let fresh := l.queue.filter fun r => decide (w.version ≤ r.wver + l.desc.maxLag)
    let put := fun (f : Learn → Learn) (s : State) => { s with train := { s.train with learn := adj {} s.train.learn h f } }
    let s := put (fun l => { l with queue := fresh, discarded := l.discarded + (l.queue.length - fresh.length) }) s
    let j := { jobOf s l.ctx { l.desc with steps := 1, m := 1, npart := 1, member := 0, part := 0 } none with learning := true }
    if fresh.length < l.batch ∨ !bucketsOk j ∨ !hasRoom s l.ctx (newPages s j).length then s
    else (s.beginJob l.desc.jobId j).elim s (put fun l => { l with queue := fresh.drop l.batch, forming := fresh.take l.batch })

/-- The sample-table positions of micro-batch course `i` (R276). -/
def samplePos (j : Job) (i : Nat) : List Nat :=
  (List.range j.desc.batch).map fun t => (((j.step * j.desc.m + j.desc.member) * j.desc.micro + i) * j.desc.batch + t) % j.desc.nsample

/-- The micro-batch course that a job may start next (R271, R276): one after the other, on the published version. -/
def jobCourse (s : State) (key : Nat) : Option Course :=
  let j := s.job key
  let w := s.weaver j.desc.handle
  if !j.active ∨ j.failed.isSome ∨ !(jobCourses s key).isEmpty ∨ j.desc.micro ≤ j.microsDone ∨ w.state ≠ .resident ∨ s.rnd.num < w.usableFrom
      ∨ !ctxActive s j.ctx then none
  else
    match placeWeaver s w.sid w with
    | .run gen _ =>
      let n := if j.learning then (look {} s.train.learn j.desc.handle).forming.length else j.desc.batch
      let seg : SegEntry := { handle := j.desc.handle, ctx := j.ctx, wver := w.version, row0 := 0, nrows := n, forms := w.forms, baseOnly := false,
                              rankL := w.rankL, rankQ := w.rankQ }
      let seed : Seed := { course := (j.step * j.desc.micro + j.microsDone) % 2 ^ 31 }
      let c : Course := { id := 0, plan := j.plan, ctx := j.ctx, sid := w.sid, gen := gen, rows := [], segs := [seg], job := some (key, j.microsDone)
                          seed := seed, samples := if j.learning then [] else samplePos j j.microsDone }
      if courseTold s c gen then some c else none
    | _ => none

/-- The job courses that may start, explicit jobs before learning steps (R280). -/
def dueJobs (s : State) : List Course :=
  ((s.train.jobs.filter fun p => !p.2.learning) ++ s.train.jobs.filter fun p => p.2.learning).filterMap fun p => jobCourse s p.1

/-! ### The commands -/

/-- TWINE_RESULT (R293). -/
def execTwineResult (p : Nat) (w : TwineFrame) (s : State) : Host.Outcome State Fault Refusal := act (okPort p) s (s.twineResult p w)

/-- TWINE_BOUNCE (R293). -/
def execTwineBounce (p : Nat) (w : TwineFrame) (s : State) : Host.Outcome State Fault Refusal := act (okPort p) s (s.twineBounce p w)

/-- TWINE_PROBE_REPLY (R273). -/
def execTwineProbeReply (p : Nat) (w : TwineFrame) (s : State) : Host.Outcome State Fault Refusal := act (okPort p) s (s.probeReply p w)

/-- PROBE_TIMEOUT (R273). -/
def execProbeTimeout (job rail : Nat) (s : State) : Host.Outcome State Fault Refusal := act (okTwineRail rail) s (s.probeTimeout job rail)

/-- PIECE_LOST (R293). -/
def execPieceLost (job b rail : Nat) (s : State) : Host.Outcome State Fault Refusal := act (okBucket b && okTwineRail rail) s (s.pieceLost job b rail)

/-- RING_CONTRIB (R296). -/
def execRingContrib (job : Nat) (r : RingMsg) (s : State) : Host.Outcome State Fault Refusal := act true s (s.ringContrib job r)

/-- BUCKET_SEND (R283). -/
def execBucketSend (job b : Nat) (s : State) : Host.Outcome State Fault Refusal := act (okBucket b) s (s.bucketSend job b)

/-- BUCKET_LATE (R298). -/
def execBucketLate (job b : Nat) (s : State) : Host.Outcome State Fault Refusal := act (okBucket b) s (s.bucketLate job b)

/-- OWNER_REPORT (R301). -/
def execOwnerReport (job : Nat) (r : OwnerRpt) (s : State) : Host.Outcome State Fault Refusal := act true s (s.leadReport job r)

/-- VERDICT (R301). -/
def execVerdict (job : Nat) (m : VerdictMsg) (s : State) : Host.Outcome State Fault Refusal := act true s (s.verdict job m)

/-- WORKING_COPY_SHARD (R289). -/
def execWorkingCopyShard (job b owner : Nat) (data : List (BitVec 8)) (s : State) : Host.Outcome State Fault Refusal :=
  act (okBucket b) s (s.shardIn job b owner data)

/-- PUBLISH (R302). -/
def execPublish (job step rnd : Nat) (s : State) : Host.Outcome State Fault Refusal := act true s (s.publish job step rnd)

/-- PUBLISH_APPLY (R161): at the boundary that an asserted tick begins. -/
def execPublishApply (job : Nat) (s : State) : Host.Outcome State Fault Refusal :=
  act true s (if s.rnd.tick.isSome && (s.job job).pubRnd.elim false (fun r => decide (r ≤ boundaryRnd s)) then s.applyPublish job else s)

/-- STEP_LEDGER (R303). -/
def execStepLedger (job : Nat) (e : LedgerEntry) (s : State) : Host.Outcome State Fault Refusal := act true s (s.stepLedger job e)

/-- MEMBER_SILENCE (R300). -/
def execMemberSilence (job member : Nat) (s : State) : Host.Outcome State Fault Refusal := act true s (s.memberSilence job member)

/-- LEARNING_STEP_START (R278). -/
def execLearningStepStart (handle : Nat) (s : State) : Host.Outcome State Fault Refusal := act (okHandle handle) s (s.learnStep handle)

end Sys2Proof.Machine
end

