-- ==== Sys2Proof/Machine/TrainCmds.lean ====
section
/-! DEFINITION. The mailbox commands of the training group (R272, R273, R278 to R280, R308, R386). -/

namespace Sys2Proof.Machine

/-- Bytes that a command reads from its caller's private space, or the status that refuses it; mailbox work is MGMT's (R34). DESIGN CHOICE: a
page that is still FILLING or under repair refuses it with DATA_POISONED. -/
def State.readOwn (ctx dva n : Nat) (s : State) : Except Nat (List Byte) × State :=
  if 2 ^ 46 < dva + n then (.error St.addrInvalid, s)
  else
    let r := s.readFor Act.mgmt ctx dva n
    (match r.1 with
    | .error (.fails st) => .error st
    | .error (.poison _ _) | .error .waits => .error St.dataPoisoned
    | .ok bs => .ok bs, r.2)

/-- Whether another running job has a JOB_ID with the same low 28 bits (R272). -/
def jobIdTaken (s : State) (id : Nat) : Bool := s.train.jobs.any fun p => p.2.active && p.2.desc.jobId % 2 ^ 28 == id % 2 ^ 28

/-- What refuses the state part of a descriptor (R242, R243): it is written at the job's end. -/
def stateBad (s : State) (j : Job) : Option Nat :=
  if poolAbsent s j.desc.stateSda then some St.unitAbsent else sdaBad s j.desc.stateSda j.stateLen true

/-- The checks of R273, those of the state part, then the STATE frames' quota. -/
def jobBad (s : State) (ctx v : Nat) (j : Job) : Option Nat :=
  let d := j.desc
  let w := s.weaver d.handle
  if w.state = .free ∨ w.state = .removing ∨ w.ctx ≠ ctx ∨ !w.trainable then some St.weaverNotTrainable
  else if w.training then some St.jobBusy
  else if !descOk v d ∨ !bucketsOk j ∨ jobIdTaken s d.jobId then some St.jobInvalid
  else if d.replay ∧ (replayEntry s j).isNone then some St.ledgerMismatch
  else if (stateBad s j).isSome then stateBad s j
  else if !hasRoom s ctx (newPages s j).length then some St.quotaExceeded
  else none

/-- TRAIN_JOB_START: the job's key is its JOB_ID. -/
def jobStart (q : Req) (s : State) : Reply × State :=
  let r := s.readOwn q.ctx (q.at 0 8) 128
  let s := r.2
  match r.1 with
  | .error st => (fail st, s)
  | .ok bs =>
    let v := leNat bs
    let d := descOf v
    let j := jobOf s q.ctx d (some q.note)
    match notActive s q.ctx, jobBad s q.ctx v j with
    | some st, _ => (fail st, s)
    | none, some st => (fail st, s)
    | none, none =>
      (s.beginJob d.jobId { j with replayed := if d.replay then replayEntry s j else none }).elim (fail St.quotaExceeded, s) fun s =>
        (pendingReply, s)

def jobActive (s : State) (id : Nat) : Bool := (s.job id).active

/-- TRAIN_JOB_STOP: after the current step is published, or with NOW at once with OUTCOME STOPPED (R308). -/
def jobStop (q : Req) (s : State) : Reply × State :=
  let id := q.at 0 4
  if !jobActive s id then (fail St.jobUnknown, s)
  else if q.flags % 2 = 1 then ({}, s.closeJob id St.jobStopped 1)
  else ({}, s.modJob id fun j => { j with stopAfter := true })

def bStateCode (x : BState) : Nat :=
  match x with | .isOpen => 0 | .isSealed => 1 | .late => 2 | .sending => 3 | .waiting => 4 | .updating => 5 | .closed => 6

/-- TRAIN_JOB_QUERY; the clamps of k are reported with the redos (R444). -/
def jobQuery (q : Req) (s : State) : Reply × State :=
  let j := s.job (q.at 0 4)
  if !j.active then (fail St.jobUnknown, s)
  else
    let states := ((List.range j.nbucket).map fun b => bStateCode (j.bucket (j.own b)).state * 16 ^ b).sum
    (answerOf (32 + ceilDiv j.nbucket 2)
      (pack [(0, 64, j.step % 2 ^ 64), (64, 32, sat 32 (j.redos + j.clamped)), (96, 32, sat 32 j.lates), (128, 32, sat 32 j.mismatches)] + states * 2 ^ 256), s)

/-- The fields of a feedback record (R279), when its handle is a weaver of the caller and its fields are in range. -/
def feedbackOf (s : State) (ctx v : Nat) : Option (Nat × Feedback) :=
  let h := bytesAt v 0 2
  let f : Feedback := { wver := bytesAt v 4 4, tokens := bytesAt v 8 8, ntok := bytesAt v 16 4, nprompt := bytesAt v 20 4, weight := bytesAt v 24 4 }
  if bytesAt v 2 2 ≠ 0 ∨ bytesAt v 28 4 ≠ 0 ∨ (s.weaver h).state = .free ∨ (s.weaver h).ctx ≠ ctx ∨ f.ntok < 2
      ∨ 2 ^ 20 < f.ntok ∨ f.ntok < f.nprompt then none
  else some (h, f)

/-- TRAIN_FEEDBACK: every record is queued, or none (R280, R428). -/
def feedback (q : Req) (s : State) : Reply × State :=
  let n := q.at 8 4
  let r := s.readOwn q.ctx (q.at 0 8) (32 * n)
  let s := r.2
  match r.1 with
  | .error st => (fail st, s)
  | .ok bs =>
    let rs := (List.range n).map fun i => feedbackOf s q.ctx (leNat ((bs.drop (32 * i)).take 32))
    if rs.any Option.isNone then (fail St.fieldInvalid, s)
    else
      let s' := s.each (rs.filterMap id) fun x s =>
        { s with train := { s.train with learn := adj {} s.train.learn x.1 fun l => { l with queue := l.queue ++ [x.2] } } }
      if s'.train.learn.any fun p => decide (65536 < p.2.queue.length) then (fail St.feedbackFull, s)
      else (answerOf 4 n, s')

/-- TRAIN_LEARN_POLICY: learning for a weaver is enabled with a descriptor of M = 1 and one part, or disabled (R278). -/
def learnPolicy (q : Req) (s : State) : Reply × State :=
  let h := q.at 0 2
  let w := s.weaver h
  let put := fun (f : Learn → Learn) (s : State) => { s with train := { s.train with learn := adj {} s.train.learn h f } }
  if w.state = .free ∨ w.ctx ≠ q.ctx ∨ !w.trainable then (fail St.weaverNotTrainable, s)
  else if !q.bit 2 0 then ({}, put (fun l => { l with enabled := false }) s)
  else
    let r := s.readOwn q.ctx (q.at 8 8) 128
    let s := r.2
    match r.1 with
    | .error st => (fail st, s)
    | .ok bs =>
      let v := leNat bs
      let d := descOf v
      if q.at 4 2 = 0 ∨ 1024 < q.at 4 2 then (badField 4, s)
      else if !descOk v d ∨ d.m ≠ 1 ∨ d.npart ≠ 1 ∨ d.handle ≠ h ∨ !bucketsOk (jobOf s q.ctx d none) then (fail St.jobInvalid, s)
      else if (stateBad s (jobOf s q.ctx d none)).isSome then (fail ((stateBad s (jobOf s q.ctx d none)).getD 0), s)
      else ({}, put (fun l => { l with enabled := true, batch := q.at 4 2, desc := d, ctx := q.ctx }) s)

def probeLayout : Layout :=
  { op := 0x0706, len := 18, fields := [fBytes 0 1, fBytes 2 16]
    absent := fun s q => portAbsent s (q.at 0 1) }

/-- A TWINE_PROBE without a reply in 1 round is answered with TWINE_UNSUPPORTED (R308). -/
def State.probeExpires (s : State) : State :=
  match s.train.probe with
  | none => s
  | some (ch, _, sent) =>
    if sent + 1 ≤ boundaryRnd s then ({ s with train := { s.train with probe := none } }).answer ch St.twineUnsupported 0 0 0 else s

/-- TWINE_PROBE: a PROBE leaves through the port, and the channel stays BUSY until TWINE_PROBE_REPLY or until 1 round has passed. -/
def State.twineProbe (ch : Nat) (s : State) : State :=
  let c := s.chan ch
  let r := reqNat c
  let q := reqOf c r
  match s.train.probe with
  | some (k, _, _) => if k = ch ∧ chanState c = Ch.busy ∧ bytesAt r 0 2 = 0x0706 then s.probeExpires else s
  | none =>
    if chanState c ≠ Ch.busy ∨ bytesAt r 0 2 ≠ 0x0706 ∨ !turnOf s ch 0x0706 then s
    else match checkReq s probeLayout (hasTrain s) ownsAny c q r with
      | some x => s.answer ch x.status x.detail 0 0
      | none =>
        if 12 ≤ q.at 0 1 then s.answer ch St.fieldInvalid 32 0 0
        else
          let rnd := s.rnd.num
          ({ s with train := { s.train with probe := some (ch, q.at 0 1, rnd) } }).twineOut (q.at 0 1) 0 5 (q.at 2 16) {}

/-! ### The commands -/

def trainJobStartLayout : Layout := { op := 0x0701, len := 8, long := true, fields := [fBytes 0 8] }

/-- TRAIN_JOB_START (R272, R273). -/
def execTrainJobStart (ch : Nat) (s : State) : Host.Outcome State Fault Refusal :=
  act (okChan ch) s (s.command trainJobStartLayout (hasTrain s) ownsAny jobStart ch)

def trainJobStopLayout : Layout := { op := 0x0702, len := 4, cflags := 1, fields := [fBytes 0 4] }

/-- TRAIN_JOB_STOP (R308). -/
def execTrainJobStop (ch : Nat) (s : State) : Host.Outcome State Fault Refusal :=
  act (okChan ch) s (s.command trainJobStopLayout (hasTrain s) (fun q => !jobActive s (q.at 0 4) || (s.job (q.at 0 4)).ctx == q.ctx) jobStop ch)

def trainJobQueryLayout : Layout := { op := 0x0703, len := 4, fields := [fBytes 0 4] }

/-- TRAIN_JOB_QUERY (R386). -/
def execTrainJobQuery (ch : Nat) (s : State) : Host.Outcome State Fault Refusal :=
  act (okChan ch) s (s.command trainJobQueryLayout (hasTrain s) (fun q => !jobActive s (q.at 0 4) || (s.job (q.at 0 4)).ctx == q.ctx) jobQuery ch)

def trainFeedbackLayout : Layout := { op := 0x0704, len := 12, fields := [fBytes 0 8, fBytes 8 4] }

/-- TRAIN_FEEDBACK (R279, R280). -/
def execTrainFeedback (ch : Nat) (s : State) : Host.Outcome State Fault Refusal :=
  act (okChan ch) s (s.command trainFeedbackLayout (hasTrain s) ownsAny feedback ch)

def trainLearnPolicyLayout : Layout := { op := 0x0705, len := 16, fields := [fBytes 0 2, fBits 2 1, fBytes 4 2, fBytes 8 8] }

/-- TRAIN_LEARN_POLICY (R278). -/
def execTrainLearnPolicy (ch : Nat) (s : State) : Host.Outcome State Fault Refusal :=
  act (okChan ch) s (s.command trainLearnPolicyLayout (hasTrain s) ownsAny learnPolicy ch)

/-- TWINE_PROBE (R308). -/
def execTwineProbe (ch : Nat) (s : State) : Host.Outcome State Fault Refusal := act (okChan ch) s (s.twineProbe ch)

end Sys2Proof.Machine
end

