-- ==== Sys2Proof/Machine/Ending.lean ====
section
/-! DEFINITION. How the work of a context ends before its time (R164, R307, R363, R415), and the reset of a context (R397). -/

namespace Sys2Proof.Machine

/-- The frames of a context that a course pins are pinned by it no more: the context's part of the course view is taken away. -/
def State.dropPins (cid ctx : Nat) (s : State) : State :=
  match s.course cid with
  | none => s
  | some c =>
    let mine := c.pins.filter fun f => (s.frame f).ctx == ctx && !(s.frame f).commons
    let s := s.each mine fun f s =>
      let s := s.modFrame f fun e => { e with coursePins := e.coursePins - 1 }
      s.each (ptesOf s f) fun k s => s.unpinPage k
    s.modCourse cid fun c => { c with pins := c.pins.filter fun f => !mine.contains f }

/-- A context's rows of a running course complete with a status and the PROGRESS of the last committed checkpoint, their outputs
discarded; the course itself ends with its last row. -/
def State.endRows (ctx status cid : Nat) (s : State) : State :=
  match s.course cid with
  | none => s
  | some c =>
    if c.ctx == ctx && c.rows.all (fun r => r.ctx == ctx) then s.endCourse cid status
    else if c.rows.all (fun r => r.ctx != ctx || r.gone) then s
    else
      let s := s.each (c.rows.zip (List.range c.rows.length)) fun x s =>
        if x.1.ctx = ctx ∧ c.probe.isNone then s.finishSeq x.1 status c.gen (((segOfRow c x.2).map SegEntry.wver).getD 0) s.rnd.num else s
      let mark := fun (r : Seq) => if r.ctx = ctx then { r with gone := true } else r
      let s := (s.dropPins cid ctx).modCourse cid fun c => { c with rows := c.rows.map mark }
      if c.rows.all fun r => r.ctx == ctx || r.gone then s.endCourse cid status else s

/-- The descriptors of a queue pair end; with `wait` the copies that an engine has begun end at their next burst. -/
def State.endQueue (qpn status : Nat) (wait : Bool) (s : State) : State :=
  let q := s.qp qpn
  let stays := fun (x : DescS) => wait && decide (q.typ ≤ 2) && x.started && x.held.isNone
  s.each ((q.descs ++ q.recvs).filter fun x => !stays x) fun x s => s.closeDesc qpn x (nowRec s status x.done)

def queuesOf (s : State) (ctx : Nat) : List Nat := keysWhere s.host.qps fun _ q => q.ctx == ctx && q.state != .free

/-- Every course, sequence, tuning job and descriptor of a context ends, and with `close` every session. -/
def State.endWork (ctx status outcome : Nat) (wait close : Bool) (s : State) : State :=
  let s := s.each (s.crs.running.map Course.id) fun c s => s.endRows ctx status c
  let s := s.each (s.crs.waiting.filter fun r => r.ctx == ctx) fun r s => s.endSeq r status
  let s := s.each (keysWhere s.train.jobs fun _ j => j.ctx == ctx && j.active) fun k s => s.closeJob k status outcome
  let s := if close then s.each (keysWhere s.weav.sessions fun k _ => k / 2 ^ 32 == ctx) fun k s => s.closeSession k else s
  s.each (queuesOf s ctx) fun n s => s.endQueue n status wait

/-- What a context's work has left in the cells is gone: the cells bound to it, and its save images. -/
def State.clearCells (ctx : Nat) (s : State) : State :=
  { s with cells := mapTab {} (fun _ (c : Cell) => if c.ctx = some ctx ∧ c.course = none then { failRnd := c.failRnd } else c) s.cells
           ups := { s.ups with saved := s.ups.saved.filter fun k => k / 1024 != ctx } }

/-- The KV pages of a context, wherever they live, are at TIER ZERO, and their frames leave as unmapped frames (R21, R397). A frame that still
receives content leaves once it holds it (R216). -/
def State.releaseKv (ctx : Nat) (s : State) : State :=
  let zero := fun (k : Nat) (e : Pte) =>
    if k / 2 ^ 25 = ctx ∧ e.valid ∧ e.kind = 1 ∧ e.sharedOf.isNone ∧ !e.shared then
      { e with tier := .zero, frame := 0, sda := 0, backed := false, poison := false, heat := 0 } else e
  let s := { s with mem := { s.mem with pte := mapTab {} zero s.mem.pte } }
  s.each (keysWhere s.mem.frames fun _ e => e.kind == 1 && e.ctx == ctx && !e.commons && e.mapped) State.startEvict

/-- The reset of a context at cycle 20 of the boundary after CTX_RESET (R397), whose final record carries `status`. -/
def State.applyReset (ctx status : Nat) (s : State) : State :=
  match (s.ctx ctx).reset with
  | none => s
  | some n =>
    let s := ((s.endWork ctx St.contextReset 1 false true).releaseKv ctx).clearCells ctx
    (s.modCtx ctx fun c => { c with state := .active, reset := none }).finalRecord n status 0

end Sys2Proof.Machine
end

