-- ==== Sys2Proof/Machine/CellFaults.lean ====
section
/-! DEFINITION. Cells between contexts: save, zeroing, restore (R76 to R80); failed cells and spares (R84 to R86, R417); the staging of an
Upsett image (R83). -/

namespace Sys2Proof.Machine

/-- A cell whose outgoing state is saved, whose memories are zeroed and whose incoming state is in place is bound to its new context. -/
def Cell.bound (c : Cell) : Cell :=
  if c.incoming.isSome && !c.late && c.saving.isNone && !c.zeroing && !c.restore then { c with ctx := c.incoming, incoming := none } else c

/-- The bytes of a cell's save are written; what has not been saved is restored as +0 and not LIVE (R78). -/
def Cell.saved (c : Cell) : Cell :=
  { c with saving := none, slots := [], vregs := [], f := { c.f with evc := [] }, b := { c.b with evc := [] } }.bound

/-- CELL_SAVE_DONE: the image stands in the save area of the outgoing context, unless that context is being removed. A save whose area still
lacks a frame cannot have ended: it waits for a FREE one (R222). -/
def State.cellSaved (lc : Nat) (s : State) : State :=
  match (s.cell lc).saving, (s.cell lc).ctx with
  | some i, some o =>
    if ctxGoing s o then s.modCell lc Cell.saved
    else
      let s := s.takeSave o lc
      if (areaPieces s o lc 0 (imageSize i)).isNone then s else (s.saveImage o lc i).modCell lc Cell.saved
  | _, _ => s

/-- BANK_ZERO_DONE: operand bank and table memory are zero (R77). -/
def State.bankZeroed (lc : Nat) (s : State) : State :=
  if (s.cell lc).zeroing then s.modCell lc fun c => { c with bank := [], table := [], zeroing := false }.bound else s

/-- The course that holds a cell. -/
def courseOn (s : State) (lc : Nat) : Option Course := (s.cell lc).course.bind s.course

/-- The journal entry of a cell, naming the course that uses it. -/
def cellEntry (s : State) (lc code : Nat) : JEntry :=
  match courseOn s lc with
  | none => { code := code, cls := Cls.recovered, blk := Blk.cell, unit := lc }
  | some c =>
    { code := code, cls := Cls.recovered, blk := Blk.cell, unit := lc, ctx := c.ctx, tag := courseTag c
      progress := ((c.rows.head?).map Seq.produced).getD 0, gen := c.gen }

/-- Under a debug grant for the context of a failed cell's own course, its decrypted save image goes with the journal entry (R417). -/
def State.keepImage (lc : Nat) (s : State) : State :=
  match courseOn s lc with
  | none => s
  | some c =>
    if severalCtx c || !(s.lid.grants.any fun g => g.dbg && g.ctx == c.ctx) then s
    else { s with flt := { s.flt with images := (s.flt.head, imageOf s c.ctx lc (s.cell lc)) :: s.flt.images.filter fun x => s.flt.head < x.1 + 4096 } }

/-- A cell fails (R84): it is fenced, journalled, and the courses that use it stop. -/
def State.cellFails (lc : Nat) (s : State) : State :=
  if !hasCell s lc ∨ s.ups.lost.contains lc ∨ s.ups.fenced.contains lc then s
  else
    let s := (s.journal (cellEntry s lc St.cellFailed)).keepImage lc
    let s := { s with ups := { s.ups with
      fenced := s.ups.fenced ++ [lc], failed := lc :: s.ups.failed, loading := s.ups.loading.filter fun x => x != lc } }
    s.each (s.crs.running.filter fun c => (planCells c.plan).contains lc) fun c s => s.stopCourse c.id

/-- RESTORE_CHECK (R79): a good image is restored; any other is discarded and journalled, and the course replays. A second failure on the
same cell in consecutive rounds is a failure of the cell (R84). -/
def State.restoreCheck (lc : Nat) (s : State) : State :=
  let c := s.cell lc
  match c.saving, c.restore, c.incoming with
  | none, true, some ctx =>
    match restoredImage s ctx lc with
    | some i => s.modCell lc fun c => { c.restoreFrom i with restore := false }.bound
    | none =>
      let s := s.journal (cellEntry s lc St.restoreFailed)
      let now := s.rnd.num
      let again := c.failRnd == some (now - 1) && now != 0
      let s := match c.course with | none => s | some cid => s.stopCourse cid
      let s := s.modCell lc fun c => { c with restore := false, failRnd := some now }
      let s := if c.course.isNone then s.modCell lc Cell.bound else s
      if again then s.cellFails lc else s
  | _, _, _ => s

/-- SPARE_LOAD_DONE (R85): the courses of the cell restore their checkpoint and replay. -/
def State.spareLoaded (lc : Nat) (s : State) : State :=
  if !s.ups.loading.contains lc then s
  else
    let s := { s with ups := { s.ups with loading := s.ups.loading.filter fun x => x != lc } }
    s.each (s.crs.running.filter fun c => (planCells c.plan).contains lc && mayReplay s c) fun c s => s.replay c.id

/-- The spare that a failed position takes (R85, R86): its row's own, or an unused one of another row of its die, whose choice `k` is the
device's. A spare is known by its row of the package. -/
def spareFor (u : Upsett) (k lc : Nat) : Option Nat :=
  let row := lc / 15
  if !u.used.contains row then some row
  else
    let free := (List.range 16).map (fun r => lc / 240 * 16 + r) |>.filter fun r => !u.used.contains r
    free[k % free.length]?

/-- A failed position is bound to a spare, or its die has one usable cell less. -/
def Upsett.rebind (k lc : Nat) (u : Upsett) : Upsett :=
  match spareFor u k lc with
  | none => { u with lost := lc :: u.lost }
  | some r => { u with used := r :: u.used, bind := store 0 u.bind lc (r + 1) }

/-- The map that a power-on self-test builds from the cells it finds failed (R87). -/
def selfTestMap (k : Nat) (cells : List Nat) : Upsett := cells.foldl (fun u lc => ({ u with failed := lc :: u.failed }).rebind k lc) {}

/-- Cycle 16 (R85, R86): a fenced position is bound to a spare, which begins to load, or the die has one usable cell less. The failed checks
of R84 belong to the physical cell that is left. -/
def State.bindSpare (lc : Nat) (s : State) : State :=
  let s := { s with ups := { s.ups with fenced := s.ups.fenced.filter fun x => x != lc } }
  let s := s.modCell lc fun c => { course := c.course, cls := c.cls }
  let own := !s.ups.used.contains (lc / 15)
  let x := if own then (0, s) else s.fresh
  let s := x.2
  let dst := spareFor s.ups x.1 lc
  let s := { s with ups := s.ups.rebind x.1 lc }
  let short := fun (d : Nat) (s : State) =>
    s.journal { code := St.spareShortage, cls := Cls.recovered, blk := Blk.upsett, unit := lc / 15, detail := d }
  if dst.isNone then (short 1 s).measured
  else
    let s := if own then s else short 0 s
    { s with ups := { s.ups with loading := s.ups.loading ++ [lc] } }

/-- UPSETT_IMAGE_STAGE (R83): the Lid has measured the image, which is held as the staged one; block 4 changes. -/
def State.stageImage (img : UpsettImage) (s : State) : State := ({ s with ups := { s.ups with staged := some img } }).measured

/-- A staged image becomes current at a boundary at which no course runs; blocks 3 and 4 change (R83, R403). -/
def State.switchImage (s : State) : State :=
  if s.ups.staged.isSome && s.crs.running.isEmpty then ({ s with ups := { s.ups with cur := s.ups.staged, staged := none } }).measured else s

/-- CELL_FAILURE (R84). -/
def execCellFailure (lc : Nat) (s : State) : Host.Outcome State Fault Refusal := act (okCell lc) s (s.cellFails lc)

/-- SPARE_LOAD_DONE (R85). -/
def execSpareLoadDone (lc : Nat) (s : State) : Host.Outcome State Fault Refusal := act (okCell lc) s (s.spareLoaded lc)

/-- CELL_SAVE_DONE (R78). -/
def execCellSaveDone (lc : Nat) (s : State) : Host.Outcome State Fault Refusal := act (okCell lc) s (s.cellSaved lc)

/-- RESTORE_CHECK (R79). -/
def execRestoreCheck (lc : Nat) (s : State) : Host.Outcome State Fault Refusal := act (okCell lc) s (s.restoreCheck lc)

/-- BANK_ZERO_DONE (R77). -/
def execBankZeroDone (lc : Nat) (s : State) : Host.Outcome State Fault Refusal := act (okCell lc) s (s.bankZeroed lc)

/-- UPSETT_IMAGE_STAGE (R83). -/
def execUpsettImageStage (img : UpsettImage) (s : State) : Host.Outcome State Fault Refusal := act true s (s.stageImage img)

end Sys2Proof.Machine
end

