-- ==== Sys2Proof/Machine/Hoop.lean ====
section
/-! DEFINITION. The hoop's management channel (R333, R334), its messages (R182 to R184), and its bypass (R335, R336). -/

namespace Sys2Proof.Machine

/-! ### Messages -/

/-- PRESENT arrived from a position in this round (R334). -/
def State.presentFrom (src : Nat) (s : State) : State :=
  if bit s.hoop.presentNow src then s else { s with hoop := { s.hoop with presentNow := s.hoop.presentNow + 2 ^ src } }

/-- The commit of a stake set that a message speaks of. -/
def commitOf (s : State) (sid stamp c : Nat) : Option Commit := (s.stake sid).commit.filter fun x => x.gen == stamp && x.c == c

/-- STAKE_READY at the MASTER: a part is ready (R182). -/
def State.stakeReady (sid stamp part c : Nat) (s : State) : State :=
  match commitOf s sid stamp c with
  | none => s
  | some x =>
    if s.rnd.active = 1 ∧ !x.ready.contains part then s.modStake sid fun k => { k with commit := some { x with ready := part :: x.ready } } else s

/-- STAKE_GO: the switch at cycle 24 of round C; heard after that boundary, at the next one, with a journal entry (R184). -/
def State.stakeGo (sid stamp c : Nat) (s : State) : State :=
  match commitOf s sid stamp c with
  | none => s
  | some x =>
    if x.go then s else s.modStake sid fun k => { k with commit := some { x with go := true, late := decide (c ≤ s.rnd.num) } }

/-- STAKE_ABORT (R183). -/
def State.stakeAbortMsg (sid stamp c : Nat) (s : State) : State :=
  match commitOf s sid stamp c with
  | none => s
  | some x => if x.go then s else s.abortCommit sid

/-- STAKE_CURRENT: a device that missed GO switches at the next boundary (R184). -/
def State.stakeCurrent (sid stamp : Nat) (s : State) : State :=
  match (s.stake sid).commit with
  | none => s
  | some x =>
    if x.gen ≠ stamp ∨ x.go then s else s.modStake sid fun k => { k with commit := some { x with go := true, late := true } }

/-- Whether a MSG has a meaning (R334). -/
def msgKnown (m : Nat) : Bool := [0x01, 0x10, 0x11, 0x12, 0x13].contains m || (decide (0x20 ≤ m) && decide (m ≤ 0x3F))

/-- What a management frame's payload does; firmware-private messages have no effect that the manual states. -/
def State.actOn (f : MgmtFrame) (s : State) : State :=
  let sid := bytesAt f.payload 0 1
  let stamp := bytesAt f.payload 1 2
  match f.msg with
  | 0x01 => s.presentFrom (f.src % 16)
  | 0x10 => s.stakeReady sid stamp (bytesAt f.payload 3 1) (bytesAt f.payload 4 8)
  | 0x11 => s.stakeGo sid stamp (bytesAt f.payload 3 8)
  | 0x12 => s.stakeAbortMsg sid stamp (bytesAt f.payload 3 8)
  | 0x13 => s.stakeCurrent sid stamp
  | _ => s

/-- A management frame arrives (R333): acted on when it names this device or every one, passed on with HOPS increased. -/
def State.mgmtFrame (f : MgmtFrame) (s : State) : State :=
  if !f.crcOk then { s with hoop := { s.hoop with crcErr := sat 16 (s.hoop.crcErr + 1) } }
  else if !msgKnown f.msg then { s with hoop := { s.hoop with msgDrop := sat 16 (s.hoop.msgDrop + 1) } }
  else
    let pos := s.hoop.pos
    let s := if f.dst = pos ∨ f.dst = 255 then s.actOn f else s
    if s.hoop.bypassed ∨ f.dst = pos ∨ f.src = pos then s
    else if 16 ≤ f.hops + 1 then { s with hoop := { s.hoop with hopDrop := sat 16 (s.hoop.hopDrop + 1) } }
    else s.emit (.mgmtFrame { f with hops := f.hops + 1 })

/-! ### The bypass (R335, R336) -/

/-- Whether a closed bypass opens at a quiet window: JOIN is set, nothing keeps it closed, and two valid tick frames have passed, or at a
MASTER one tick of its own. -/
def mayOpen (s : State) : Bool :=
  s.hoop.join && s.hoop.joined && !s.hoop.bypReq && s.hoop.cause != 2 && !s.flt.halted
    && (if s.rnd.src == 1 then s.rnd.enable && s.hoop.tickSince else decide (2 ≤ s.hoop.validRun))

/-- BYPASS_SWITCH: in a quiet window the bypass opens or closes as requested. -/
def State.bypassSwitch (s : State) : State :=
  if s.hoop.bypassed then
    if mayOpen s then { s with hoop := { s.hoop with bypassed := false, cause := 0 } } else s
  else if s.hoop.bypReq then { s with hoop := { s.hoop with bypassed := true, cause := 3 } }
  else s

/-- A cause of R335 closes the bypass at once; after a reset JOIN must be set again. -/
def State.bypassClose (c : ForcedClose) (s : State) : State :=
  let cause := match c with | .lid => 2 | .reset | .viodLoss | .vaonLoss => 1
  let joined := match c with | .reset | .vaonLoss => false | .lid | .viodLoss => s.hoop.joined
  { s with hoop := { s.hoop with bypassed := true, cause := cause, joined := joined } }

/-! ### The commands -/

/-- MGMT_FRAME_RECEIVE (R333). -/
def execMgmtFrameReceive (f : MgmtFrame) (s : State) : Host.Outcome State Fault Refusal := act true s (s.mgmtFrame f)

/-- PRESENT (R334). -/
def execPresent (src _rnd : Nat) (s : State) : Host.Outcome State Fault Refusal := act (okPos src) s (s.presentFrom src)

/-- STAKE_READY (R182). -/
def execStakeReady (src sid stamp part c : Nat) (s : State) : Host.Outcome State Fault Refusal :=
  act (okPos src && okStake sid && okPart part) s (s.stakeReady sid stamp part c)

/-- STAKE_GO (R184). -/
def execStakeGo (sid stamp c : Nat) (s : State) : Host.Outcome State Fault Refusal := act (okStake sid) s (s.stakeGo sid stamp c)

/-- STAKE_ABORT_MSG (R183). -/
def execStakeAbortMsg (sid stamp c : Nat) (s : State) : Host.Outcome State Fault Refusal := act (okStake sid) s (s.stakeAbortMsg sid stamp c)

/-- STAKE_CURRENT (R184). -/
def execStakeCurrent (sid stamp : Nat) (s : State) : Host.Outcome State Fault Refusal := act (okStake sid) s (s.stakeCurrent sid stamp)

/-- BYPASS_SWITCH (R336). -/
def execBypassSwitch (s : State) : Host.Outcome State Fault Refusal := act true s s.bypassSwitch

/-- BYPASS_FORCED_CLOSE (R335). -/
def execBypassForcedClose (c : ForcedClose) (s : State) : Host.Outcome State Fault Refusal := act true s (s.bypassClose c)

/-- HOOP_RX_LOCK_CHANGE (R335). -/
def execHoopRxLockChange (locked : Bool) (s : State) : Host.Outcome State Fault Refusal := act true s { s with hoop := { s.hoop with rxLock := locked } }

end Sys2Proof.Machine
end

