-- ==== Sys2Proof/Machine/HostLink.lean ====
section
/-! DEFINITION. The host link: link loss, function-level reset and return (R363, R364, R373), virtual functions (R339), event moderation
(R361), address translation invalidation (R339). -/

namespace Sys2Proof.Machine

/-- The function that a queue pair's context is bound to is one of `fns`, and the queue pair is ACTIVE. -/
def losesHost (s : State) (fns : Nat → Bool) (q : Qp) : Bool := q.state == .active && fns (s.ctx q.ctx).func

/-- The newest records of a queue pair whose delivery the Data Link Layer has not acknowledged: how many is known to the device only. -/
def State.unacked (qpn : Nat) (s : State) : State :=
  let q := s.qp qpn
  let x := s.fresh
  let n := x.1 % (min q.shadow.length (2 ^ q.logCq) + 1)
  let late := (List.range n).map fun i => idxSub q.cqTail (n - i)
  x.2.modQp qpn fun q => { q with und := (q.und.filter fun i => !late.contains i) ++ late }

/-- The ACTIVE queue pairs of some functions become HOST_LOST, and each function's configuration space is reset: Bus Master Enable is
clear, and one HOST_LOST event is owed (R363). -/
def State.loseQueues (fns : Nat → Bool) (s : State) : State :=
  let lost := keysWhere s.host.qps fun _ q => losesHost s fns q
  let count := fun (fn : Nat) => (lost.filter fun n => (s.ctx (s.qp n).ctx).func == fn).length
  let mine := (List.range (s.host.numVf + 1)).filter fns
  let s := s.each lost fun n s => (s.unacked n).modQp n fun q => { q with state := .hostLost }
  s.each mine fun fn s => s.modFn fn fun f => { f with bme := false, lostQps := some (f.lostQps.getD 0 + count fn) }

/-- The link is gone: every function's queue pairs, the virtual functions and the cached translations (R339, R363). -/
def State.loseLink (s : State) : State :=
  let s := s.loseQueues fun _ => true
  { s with host := { s.host with linkUp := false, losses := sat 16 (s.host.losses + 1), numVf := 0, ats := [] } }

/-- DL_DOWN without a reset: copies to and from the host end with HOST_LOST and their PROGRESS; courses go on. -/
def State.dlDown (s : State) : State :=
  if !s.host.linkUp then s
  else
    let s := s.loseLink
    s.each (keysWhere s.host.qps fun _ q => decide (q.typ ≤ 1)) fun n s => s.endQueue n St.hostLost false

/-- The driver has restored Bus Master Enable: the HOST_LOST event that is owed, then the events that were kept. -/
def State.bmeRestored (fn : Nat) (s : State) : State :=
  if s.rst.perstLow ∨ s.host.numVf < fn then s
  else
    let owed := (s.fnOf fn).lostQps
    let s := { s with host := { s.host with linkUp := true } }
    let s := s.modFn fn fun f => { f with bme := true, lostQps := none }
    let s := match owed with
      | none => s
      | some n => s.event fn 0 { etype := Ev.hostLost, flags := 0, ctx := 0, obj := n, rnd := 0, status := St.hostLost, detail := 0 }
    s.drainEvents fn

/-- A channel after a function-level reset: its response is discarded, a command that has been accepted runs to its end (R373). -/
def Chan.flr (c : Chan) : Chan :=
  { c with state := if c.state = Ch.busy then Ch.busy else Ch.idle, discard := c.state == Ch.busy, seq := 0, drops := 0, accept := 0, rsp := [] }

/-- FLR of a function: its ACTIVE queue pairs become HOST_LOST, and its work ends at its next burst or boundary; its other queue pairs, rings,
apertures and memory regions return to FREE. DESIGN CHOICE: with rounds stopped, where no boundary comes, it ends at once. -/
def State.flr (fn : Nat) (s : State) : State :=
  if s.host.numVf < fn then s
  else
    let s := s.loseQueues fun n => n == fn
    let mine := keysWhere s.ctxs fun _ c => c.func == fn && c.state != .free
    let s := if s.rnd.enable then { s with host := { s.host with flrCut := (s.host.flrCut ++ mine).eraseDups } }
      else s.each mine fun c s => (s.endWork c St.hostLost 1 false false).clearCells c
    let s := s.each mine fun c s => s.each ((queuesOf s c).filter fun n => (s.qp n).state != .hostLost) fun n s => s.freeQueue n
    let h := s.host
    let s := { s with host := { h with
      apers := h.apers.filter fun p => !mine.contains p.2.ctx
      mrs := mapTab {} (fun _ (m : Mr) => if m.set && mine.contains m.ctx then { tag := m.tag } else m) h.mrs } }
    let s := s.modFn fn fun f => { lostQps := f.lostQps }
    { s with mb := { s.mb with chans := mapTab {} (fun _ (c : Chan) => if c.assigned && c.func == fn then c.flr else c) s.mb.chans } }

/-- The work of a function that has been reset ends at the boundary, and what it left in the cells is lost (R363, R455). -/
def State.endFlr (s : State) : State :=
  let s' := s.each s.host.flrCut fun c s => (s.endWork c St.hostLost 1 false false).clearCells c
  { s' with host := { s'.host with flrCut := [] } }

/-- EVT_MOD has passed for a ring: an MSI-X message that was held back leaves. -/
def State.modExpiry (fn ring : Nat) (s : State) : State :=
  let r := s.ring fn ring
  if !r.modRun then s
  else if r.owed && hostOk s fn then
    (s.emit (.msix fn r.vector)).modRing fn ring fun r => { r with owed := false, modRun := decide (0 < r.modUs) }
  else s.modRing fn ring fun r => { r with modRun := false }

/-- Virtual functions are enabled; the configuration space of one that is not starts anew. -/
def State.vfEnable (n : Nat) (s : State) : State :=
  if 127 < n then s
  else { s with host := { s.host with
    numVf := n, fns := mapTab {} (fun k (f : Fn) => if n < k then { f with bme := false } else f) s.host.fns } }

/-- An invalidation request: cached translations of the range are dropped, then it is answered. -/
def State.atsInvalidate (addr len : Nat) (s : State) : State :=
  { s with host := { s.host with ats := s.host.ats.filter fun a => decide (a < addr) || decide (addr + len ≤ a) } }.emit (.atsDone addr)

/-- DL_DOWN (R363). -/
def execDlDown (s : State) : Host.Outcome State Fault Refusal := act true s s.dlDown

/-- BME_RESTORED (R363). -/
def execBmeRestored (fn : Nat) (s : State) : Host.Outcome State Fault Refusal := act (okFn fn) s (s.bmeRestored fn)

/-- FLR (R363, R364, R373). -/
def execFlr (fn : Nat) (s : State) : Host.Outcome State Fault Refusal := act (okFn fn) s (s.flr fn)

/-- EVT_MOD_EXPIRY (R361). -/
def execEvtModExpiry (fn ring : Nat) (s : State) : Host.Outcome State Fault Refusal := act (okFn fn && okRing ring) s (s.modExpiry fn ring)

/-- VF_ENABLE (R339). -/
def execVfEnable (n : Nat) (s : State) : Host.Outcome State Fault Refusal := act true s (s.vfEnable n)

/-- ATS_INVALIDATION (R339). -/
def execAtsInvalidation (addr len : Nat) (s : State) : Host.Outcome State Fault Refusal := act true s (s.atsInvalidate addr len)

end Sys2Proof.Machine
end

