-- ==== Sys2Proof/Machine/WeaverCmds.lean ====
section
/-! DEFINITION. The weaver command group (R142, layouts R383): registration (R141), prefetch, pins, the directory entry (R133), removal
(R135), side slots (R150 to R153). -/

namespace Sys2Proof.Machine

/-- A handle that is not FREE belongs to its weaver's context. -/
def ownsWeaver (s : State) (q : Req) : Bool := (s.weaver (q.at 0 2)).state == .free || (s.weaver (q.at 0 2)).ctx == q.ctx

/-- What refuses a command on a handle that is FREE. -/
def noWeaver (s : State) (q : Req) : Bool × Reply := ((s.weaver (q.at 0 2)).state == .free, fail St.weaverUnknown)

/-- A weaver that is REMOVING takes nothing more. -/
def goingWeaver (s : State) (q : Req) : Bool × Reply :=
  ((s.weaver (q.at 0 2)).state == .removing, fail (removedStatus s (q.at 0 2)))

/-- The directory entry of a package part that is registered. -/
def entryOf (q : Req) (s : State) (p : Pkg) : Weaver :=
  { ctx := q.at 2 2, state := .registered, forms := p.forms % 16, commons := q.bit 6 0, trainable := q.bit 6 1, sid := p.at 12 1
    version := p.wver, nextVersion := p.wver, genBound := p.at 14 2, rankL := if bit p.forms 1 then p.rankL else 0
    rankQ := if bit p.forms 2 then p.rankQ else 0, wfmt := p.wfmt, xcount := p.xcount, slow := p.base, pkgPages := p.pages, keySlot := q.at 4 2
    pkgCheck := headCrc s p p.headPages, structSig := p.at 16 4, nshard := p.nshard, kcDown := p.kcDown, headPages := p.headPages
    xparts := ((pkgSects s p).filter fun x => x.kind == 5).map fun x => (x.layer, x.xidx, x.off) }

/-- A weaver registered for the current generation while a new one is READY takes part in its carry-over (R187). -/
def State.carryNew (h : Nat) (s : State) : State :=
  let w := s.weaver h
  match (s.stake w.sid).gens.find? fun p => p.2.state == GState.ready with
  | some p => if carries s w.sid w then s.startCarry h p.2 else s
  | none => s

/-- WEAVER_REGISTER (R141, R398). -/
def weaverRegister (q : Req) (s : State) : Reply × State :=
  let h := q.at 0 2
  let ctx := q.at 2 2
  let sda := q.at 8 8
  let p := pkgAt s (s.tkey ctx).key sda
  let sdaErr := fun (n : Nat) => let x := sdaBad s sda n (q.bit 6 1); (x.isSome, fail (x.getD 0))
  checked [(q.bit 6 0 && q.ctx != 0, fail St.adminOnly), ((notActive s ctx).isSome, fail ((notActive s ctx).getD 0)),
      (q.at 4 2 != ctx, fail St.notOwner), ((s.weaver h).state != .free, fail St.handleInUse),
      sdaErr 4096, (!slowUp s sda, fail St.packageInvalid), ((pkgBad s p).isSome, fail ((pkgBad s p).getD 0)), sdaErr (4096 * p.pages)]
    ({}, (s.modWeaver h fun _ => entryOf q s p).carryNew h) s

/-- WEAVER_PREFETCH. -/
def weaverPrefetch (q : Req) (s : State) : Reply × State :=
  checked [noWeaver s q, goingWeaver s q] ({}, s.demand (q.at 0 2)) s

/-- WEAVER_PIN: a removal that ADMIN_PIN held back goes on. -/
def weaverPin (q : Req) (s : State) : Reply × State :=
  checked [noWeaver s q] ({}, s.modWeaver (q.at 0 2) fun w => { w with adminPin := q.bit 2 0 }) s

def wStateCode (x : WState) : Nat :=
  match x with | .free => 0 | .registered => 1 | .fetching => 2 | .resident => 3 | .evicting => 4 | .removing => 5

def carryCode (x : Carry) : Nat := match x with | .none => 0 | .pending => 1 | .passed => 2 | .failed => 3

/-- The 128 bytes of a directory entry (R133). -/
def weaverEntry (s : State) (h : Nat) : Nat :=
  let w := s.weaver h
  let at_ := fun (off n v : Nat) => ((8 * off, 8 * n, v) : Nat × Nat × Nat)
  if w.state = .free then pack [at_ 0 2 h]
  else pack [at_ 0 2 h, at_ 2 2 w.ctx, at_ 4 1 (wStateCode w.state + 16 * carryCode w.carry), at_ 5 1 w.forms,
    at_ 6 1 (b2n w.commons + 2 * b2n w.trainable + 4 * b2n w.adminPin + 8 * b2n w.shareX), at_ 7 1 w.sid, at_ 8 4 w.version,
    at_ 12 4 w.nextVersion, at_ 16 2 w.genBound, at_ 18 2 (if w.carry = .none then 0 else w.carryGen), at_ 20 1 w.rankL, at_ 21 1 w.rankQ,
    at_ 22 1 w.wfmt, at_ 23 1 w.xcount, at_ 24 4 (weaverPins s h), at_ 28 4 w.heat, at_ 32 8 w.lastRnd, at_ 40 8 w.slow, at_ 48 4 w.pkgPages,
    at_ 52 4 (weaverFrames w), at_ 56 2 w.keySlot, at_ 58 2 (parkedOf s h), at_ 60 2 (sat 16 (sessionsOf s h)), at_ 64 4 w.pkgCheck,
    at_ 68 4 w.structSig]

/-- WEAVER_QUERY. -/
def weaverQuery (q : Req) (s : State) : Reply × State := (answerOf 128 (weaverEntry s (q.at 0 2)), s)

/-- Sessions of a weaver that no running course uses are closed by a forced removal. -/
def State.forceSessions (h : Nat) (s : State) : State :=
  let inCourse := fun (k : Nat) => s.crs.running.any fun c => c.hostRows.any fun r => seqKey r == k
  s.each (keysWhere s.weav.sessions fun k x => x.handle == some h && !inCourse k) fun k s => s.closeSession k

/-- WEAVER_REMOVE: refused while sessions or sharers remain, unless FORCE is set; a second one joins the removal that runs. -/
def weaverRemove (q : Req) (s : State) : Reply × State :=
  let h := q.at 0 2
  let w := s.weaver h
  let force := bit q.flags 0
  checked [noWeaver s q, (w.state != .removing && !force && (sessionsOf s h != 0 || hasSharers s h), fail St.weaverInUse)]
    (pendingReply,
      let s := if w.state = .removing then (if force then s.forceSessions h else s) else s.startRemove h
      let s := s.modWeaver h fun w => { w with removers := w.removers ++ [q.note] }
      s.removeComplete h) s

/-! ### Side slots -/

/-- Whether a side slot is free: unowned, or released with no earlier course running. -/
def slotFree (s : State) (x : SideSlot) : Bool := !x.owned || x.releasing.any fun r => !startedBy s r

/-- The slot that a claim gets, and whether it joins. -/
def claimSlot (s : State) (q : Req) : Except Nat (Nat × Bool) :=
  let l := q.at 2 2
  let k := q.at 5 1
  if k = 0xFF then
    match (List.range 16).find? fun k => slotFree s (s.side (sideKey l k)) with
    | some k => .ok (k, false)
    | none => .error St.noSideSlot
  else
    let x := s.side (sideKey l k)
    if slotFree s x then .ok (k, false)
    else if x.releasing.isNone ∧ x.share ∧ (s.weaver x.owner).ctx = (s.weaver (q.at 0 2)).ctx ∧ q.bit 6 1 then .ok (k, true)
    else .error St.slotBusy

/-- SIDE_CLAIM (R151): bindings take effect for courses that start from the next boundary on. -/
def sideClaim (q : Req) (s : State) : Reply × State :=
  let h := q.at 0 2
  let l := q.at 2 2
  let j := q.at 4 1
  checked [noWeaver s q, goingWeaver s q, (decide (16 ≤ q.at 5 1) && q.at 5 1 != 0xFF, badField 5),
      (!(moeLayers s (s.weaver h)).contains l, fail St.notMoeLayer), (decide ((s.weaver h).xcount ≤ j), badField 4)]
    (match claimSlot s q with
    | .error st => (fail st, s)
    | .ok (k, true) => (answerOf 1 k, s.modSide (sideKey l k) fun x => { x with joining := x.joining ++ [(h, j)] })
    | .ok (k, false) =>
      let x : SideSlot := { owned := true, owner := h, j := j, share := q.bit 6 0, boundRnd := s.rnd.num + 1 }
      (answerOf 1 k, (s.modSide (sideKey l k) fun _ => x).modWeaver h fun w => { w with shareX := w.shareX || q.bit 6 0 })) s

/-- SIDE_RELEASE (R153). -/
def sideRelease (q : Req) (s : State) : Reply × State :=
  let h := q.at 0 2
  let l := q.at 2 2
  let j := q.at 4 1
  let mine := (List.range 16).find? fun k => let x := s.side (sideKey l k); x.owned && x.releasing.isNone && x.owner == h && x.j == j
  let joined := (List.range 16).find? fun k =>
    let x := s.side (sideKey l k)
    x.owned && ((x.sharers ++ x.joining).contains (h, j)) && !x.leaving.contains (h, j)
  checked [noWeaver s q]
    (match mine, joined with
    | some k, _ =>
      let x := s.side (sideKey l k)
      if (x.sharers ++ x.joining).isEmpty then ({}, s.modSide (sideKey l k) fun x => { x with releasing := some s.rnd.num })
      else (fail St.weaverInUse, s)
    | none, some k => ({}, s.modSide (sideKey l k) fun x => { x with leaving := x.leaving ++ [(h, j)] })
    | none, none => (badField 2, s)) s

/-- The 8 bytes of a side slot's entry. -/
def sideEntry (s : State) (x : SideSlot) : Nat :=
  if slotFree s x then 0
  else pack [(0, 16, x.owner), (16, 8, x.j), (24, 8, if x.releasing.isSome then 2 else 1), (32, 8, (x.sharers ++ x.joining).length), (40, 8, b2n x.share)]

/-- SIDE_QUERY. -/
def sideQuery (q : Req) (s : State) : Reply × State :=
  (answerOf 128 (concat 8 ((List.range 16).map fun k => sideEntry s (s.side (sideKey (q.at 0 2) k)))), s)

/-! ### The commands -/

def weaverRegisterLayout : Layout :=
  { op := 0x0401, len := 16, fields := [fBytes 0 2, (16, 12), fBytes 4 2, fBits 6 2, fBytes 8 8]
    absent := fun s q => (q.bit 6 1 && !hasTrain s) || poolAbsent s (q.at 8 8) }

/-- WEAVER_REGISTER (R141, R383). -/
def execWeaverRegister (ch : Nat) (s : State) : Host.Outcome State Fault Refusal :=
  act (okChan ch) s (s.command weaverRegisterLayout true (ownsCtx 2) weaverRegister ch)

def weaverPrefetchLayout : Layout := { op := 0x0402, len := 2, fields := [fBytes 0 2] }

/-- WEAVER_PREFETCH (R142, R383). -/
def execWeaverPrefetch (ch : Nat) (s : State) : Host.Outcome State Fault Refusal :=
  act (okChan ch) s (s.command weaverPrefetchLayout true (ownsWeaver s) weaverPrefetch ch)

def weaverPinLayout : Layout := { op := 0x0403, len := 3, fields := [fBytes 0 2, fBits 2 1] }

/-- WEAVER_PIN (R142, R383). -/
def execWeaverPin (ch : Nat) (s : State) : Host.Outcome State Fault Refusal :=
  act (okChan ch) s (s.command weaverPinLayout true (ownsWeaver s) weaverPin ch)

def weaverQueryLayout : Layout := { op := 0x0404, len := 2, fields := [fBytes 0 2] }

/-- WEAVER_QUERY (R142, R383). -/
def execWeaverQuery (ch : Nat) (s : State) : Host.Outcome State Fault Refusal :=
  act (okChan ch) s (s.command weaverQueryLayout true (ownsWeaver s) weaverQuery ch)

def weaverRemoveLayout : Layout := { op := 0x0405, len := 2, long := true, cflags := 1, fields := [fBytes 0 2] }

/-- WEAVER_REMOVE (R142, R383). -/
def execWeaverRemove (ch : Nat) (s : State) : Host.Outcome State Fault Refusal :=
  act (okChan ch) s (s.command weaverRemoveLayout true (ownsWeaver s) weaverRemove ch)

def sideClaimLayout : Layout := { op := 0x0406, len := 7, fields := [fBytes 0 2, fBytes 2 2, fBytes 4 1, fBytes 5 1, fBits 6 2] }

/-- SIDE_CLAIM (R151, R383). -/
def execSideClaim (ch : Nat) (s : State) : Host.Outcome State Fault Refusal :=
  act (okChan ch) s (s.command sideClaimLayout true (ownsWeaver s) sideClaim ch)

def sideReleaseLayout : Layout := { op := 0x0407, len := 5, fields := [fBytes 0 2, fBytes 2 2, fBytes 4 1] }

/-- SIDE_RELEASE (R153, R383). -/
def execSideRelease (ch : Nat) (s : State) : Host.Outcome State Fault Refusal :=
  act (okChan ch) s (s.command sideReleaseLayout true (ownsWeaver s) sideRelease ch)

def sideQueryLayout : Layout := { op := 0x0408, len := 2, fields := [fBytes 0 2] }

/-- SIDE_QUERY (R142, R383). -/
def execSideQuery (ch : Nat) (s : State) : Host.Outcome State Fault Refusal :=
  act (okChan ch) s (s.command sideQueryLayout true ownsAny sideQuery ch)

end Sys2Proof.Machine
end

