-- ==== Sys2Proof/Machine/StakeCmds.lean ====
section
/-! DEFINITION. The stake-set command group (R199, layouts R384): registration (R166), builds (R178), commits (R181), aborts, queries
(R176, R191) and eviction (R195). -/

namespace Sys2Proof.Machine

def noStake (s : State) (q : Req) : Bool × Reply := (!(s.stake (q.at 0 1)).reg, fail St.stakeUnknown)

/-- STAKE_REGISTER. -/
def stakeRegister (q : Req) (s : State) : Reply × State :=
  let id := q.at 0 1
  checked [(decide (15 < q.at 1 1), badField 1), ((s.stake id).reg, badField 0),
      (decide (16 ≤ countTab s.stakes fun _ k => k.reg), fail St.stakeUnknown)]
    ({}, (s.modStake id fun _ => { reg := true, keySlot := q.at 1 1, autoEvict := q.bit 2 0 }).measured) s

/-- Probe sequences of an image (R175): 0 without a probe set. -/
def probeN (s : State) (p : Pkg) : Nat :=
  match (imageSects s p).find? fun x => x.kind == 4 with
  | some x => leNat (slowRead p.seal s (p.base + 4096 * x.offset) 2)
  | none => 0

/-- The generation that an accepted build fills. -/
def buildGen (q : Req) (s : State) (p : Pkg) : Gen :=
  { gen := q.at 1 2, state := .building, structSig := p.at 20 4, imgPages := p.imgPages, nshard := p.imgShard, part := p.at 10 1
    parts := p.at 11 1, layers := (imageLayers s p).map Prod.snd, sections := imageSects s p, qSel := p.at 7 1 == 1, commonsQ := q.at 12 2
    checkMode := q.at 3 1, agreeMin := q.at 4 1, divMax := q.at 8 4, image := q.at 16 8, mirror := q.at 24 8, host := q.at 32 8
    peers := (List.range (q.at 5 1)).map fun i => q.at (40 + 16 * i) 16
    restores := (s.stake (q.at 0 1)).nonresident && q.at 1 2 == (s.stake (q.at 0 1)).lastCurrent }

/-- A free generation slot. -/
def freeSlot (k : Stake) : Option Nat := (List.range 4).find? fun i => (k.gen i).state == .absent

/-- STAKE_BUILD: refused, or its frames are taken now or once the commons has made room (R178, R224). DEDUCED: the frame space that the commons
must have takes in the frame of the slot's page table (R207). -/
def stakeBuild (q : Req) (s : State) : Reply × State :=
  let id := q.at 0 1
  let k := s.stake id
  let p := imageAt s id (q.at 16 8)
  let sdaErr := fun (off : Nat) => let a := q.at off 8; (off != 16 && a == 0, sdaBad s a 4096 false)
  let bad := fun (off : Nat) => let x := sdaErr off; (!x.1 && x.2.isSome, fail (x.2.getD 0))
  let slot := freeSlot k
  let n := buildFrames s id (slot.getD 0) p.imgPages
  checked [noStake s q, (decide (1 < q.at 3 1), badField 3), (decide (8 < q.at 5 1), badField 5),
      (decide (0 < q.pay / 256 ^ (40 + 16 * q.at 5 1)), badField (40 + 16 * q.at 5 1)),
      (k.gens.any (fun g => g.2.state == .building || g.2.state == .ready) || slot.isNone, fail St.stakeBusy),
      bad 16, bad 24, bad 32, ((s.skey k.keySlot).state != .live, fail St.keySlotEmpty), (!imageOk s id (q.at 1 2) p, fail St.genInvalid),
      (q.at 3 1 == 1 && decide (probeN s p < q.at 4 1), badField 4),
      (shortfall (s.pressCommons n) commonsAcct n != 0, fail St.quotaExceeded)]
    (let slot := slot.getD 0
     let b : Build := { slot := slot, shard := 0, source := 0, since := s.rnd.num, note := q.note }
     let s := (s.modGen id slot fun _ => buildGen q s p).modStake id fun k => { k with build := some b, maxStamp := max k.maxStamp (q.at 1 2) }
     (pendingReply, (s.tryBuildFrames id).askShard id)) s

/-- STAKE_COMMIT. -/
def stakeCommit (q : Req) (s : State) : Reply × State :=
  let id := q.at 0 1
  let g := (genOf s id (q.at 1 2)).filter fun g => g.state == .ready
  let c := q.at 8 8
  let qBad := g.any fun g => g.qSel && !((s.weaver g.commonsQ).commons && (s.weaver g.commonsQ).state == .resident
    && (s.weaver g.commonsQ).genBound == g.gen)
  checked [noStake s q, (g.isNone, fail St.genInvalid), (decide (c < s.rnd.num + 4), fail St.genInvalid), (qBad, fail St.commonsQMissing),
      ((s.stake id).commit.isSome, fail St.stakeBusy)]
    (let x : Commit := { gen := q.at 1 2, c := c, openRounds := q.at 3 2, ready := [], go := false, late := false, note := q.note }
     (pendingReply, (s.modStake id fun k => { k with commit := some x }).sendReady id)) s

/-- STAKE_ABORT: the generation moves to FREEING at the next boundary; a build ends part of the way. -/
def stakeAbort (q : Req) (s : State) : Reply × State :=
  let id := q.at 0 1
  let slot := slotOf s id (q.at 1 2)
  let st := (s.stake id).gen (slot.getD 4)
  checked [noStake s q, (st.state != .building && st.state != .ready, fail St.genInvalid)]
    ({}, match (s.stake id).build with
      | some b => s.buildFails id b St.partialEnd
      | none => (s.abortCommit id).modGen id (slot.getD 0) fun g => { g with failed := true }) s

def gStateCode (x : GState) : Nat :=
  match x with | .absent => 0 | .building => 1 | .ready => 2 | .current => 3 | .isOpen => 4 | .closed => 5 | .freeing => 6

/-- The 32 bytes of a generation record (R176). -/
def genRecord (s : State) (sid i : Nat) : Nat :=
  let g := (s.stake sid).gen i
  if g.state = .absent then pack [(24, 8, i)]
  else pack [(0, 16, g.gen), (16, 8, gStateCode g.state), (24, 8, i), (32, 32, g.structSig), (64, 32, g.done), (96, 32, genCourses s sid g.gen),
    (128, 32, genSessions s sid g.gen), (160, 64, g.closeRnd), (224, 32, g.frames.length)]

/-- STAKE_QUERY. -/
def stakeQuery (q : Req) (s : State) : Reply × State :=
  let id := q.at 0 1
  checked [noStake s q]
    (answerOf 144 (pack [(0, 32, (s.stake id).use), (64, 64, (s.stake id).lastRnd)]
      + 2 ^ 128 * concat 32 ((List.range 4).map (genRecord s id))), s) s

/-- STAKE_EVICT: of a stake set that R194 lets go; its frames leave at cycle 20 of the next boundary (R214). -/
def stakeEvict (q : Req) (s : State) : Reply × State :=
  let id := q.at 0 1
  checked [noStake s q, (!(s.stake id).autoEvict || !stakeIdle s id, fail St.stakeInUse)]
    (pendingReply, s.modStake id fun k => { k with evictNotes := k.evictNotes ++ [q.note] }) s

/-- STAKE_CARRY_QUERY: the weavers of the stake set from a handle on. -/
def carryQuery (q : Req) (s : State) : Reply × State :=
  let id := q.at 0 1
  let hs := (keysWhere s.weav.dir fun h w => w.state != .free && w.sid == id && (q.ctx == 0 || w.ctx == q.ctx) && decide (q.at 2 2 ≤ h)).take (q.at 4 2)
  checked [noStake s q, (decide (338 < q.at 4 2), badField 4)]
    (answerOf (12 * hs.length) (concat 12 (hs.map fun h =>
      let w := s.weaver h
      pack [(0, 16, h), (16, 8, carryCode w.carry), (24, 8, w.carrySum), (64, 32, w.carryMax)])), s) s

/-! ### The commands -/

def stakeRegisterLayout : Layout := { op := 0x0501, len := 3, admin := true, fields := [fBytes 0 1, fBytes 1 1, fBits 2 1] }

/-- STAKE_REGISTER (R166, R384). -/
def execStakeRegister (ch : Nat) (s : State) : Host.Outcome State Fault Refusal :=
  act (okChan ch) s (s.command stakeRegisterLayout true ownsAny stakeRegister ch)

/-- The layout of STAKE_BUILD with the peers that its NPEER names. -/
def buildLayout (s : State) (ch : Nat) : Layout :=
  { op := 0x0502, len := 40 + 16 * min 8 (bytesAt (tabNat (s.chan ch).req) 37 1), admin := true, long := true
    fields := [fBytes 0 1, fBytes 1 2, fBytes 3 1, fBytes 4 1, fBytes 5 1, fBytes 8 4, fBytes 12 2, fBytes 16 8, fBytes 24 8, fBytes 32 8, fBytes 40 128]
    absent := fun s q => poolAbsent s (q.at 16 8) || [24, 32].any fun o => q.at o 8 != 0 && poolAbsent s (q.at o 8) }

/-- STAKE_BUILD (R178, R384). -/
def execStakeBuild (ch : Nat) (s : State) : Host.Outcome State Fault Refusal :=
  act (okChan ch) s (s.command (buildLayout s ch) true ownsAny stakeBuild ch)

def stakeCommitLayout : Layout := { op := 0x0503, len := 16, admin := true, long := true, fields := [fBytes 0 1, fBytes 1 2, fBytes 3 2, fBytes 8 8] }

/-- STAKE_COMMIT (R181, R384). -/
def execStakeCommit (ch : Nat) (s : State) : Host.Outcome State Fault Refusal :=
  act (okChan ch) s (s.command stakeCommitLayout true ownsAny stakeCommit ch)

def stakeAbortLayout : Layout := { op := 0x0504, len := 3, admin := true, fields := [fBytes 0 1, fBytes 1 2] }

/-- STAKE_ABORT (R177, R384). -/
def execStakeAbort (ch : Nat) (s : State) : Host.Outcome State Fault Refusal :=
  act (okChan ch) s (s.command stakeAbortLayout true ownsAny stakeAbort ch)

def stakeQueryLayout : Layout := { op := 0x0505, len := 1, fields := [fBytes 0 1] }

/-- STAKE_QUERY (R176, R384). -/
def execStakeQuery (ch : Nat) (s : State) : Host.Outcome State Fault Refusal :=
  act (okChan ch) s (s.command stakeQueryLayout true ownsAny stakeQuery ch)

def stakeEvictLayout : Layout := { op := 0x0506, len := 1, admin := true, long := true, fields := [fBytes 0 1] }

/-- STAKE_EVICT (R195, R384). -/
def execStakeEvict (ch : Nat) (s : State) : Host.Outcome State Fault Refusal :=
  act (okChan ch) s (s.command stakeEvictLayout true ownsAny stakeEvict ch)

def stakeCarryQueryLayout : Layout := { op := 0x0507, len := 6, fields := [fBytes 0 1, fBytes 2 2, fBytes 4 2] }

/-- STAKE_CARRY_QUERY (R191, R384). -/
def execStakeCarryQuery (ch : Nat) (s : State) : Host.Outcome State Fault Refusal :=
  act (okChan ch) s (s.command stakeCarryQueryLayout true ownsAny carryQuery ch)

end Sys2Proof.Machine
end

