-- ==== Sys2Proof/Machine/Removal.lean ====
section
/-! DEFINITION. The removal of a context (R164, R307, R415, R416). -/

namespace Sys2Proof.Machine

/-- Long memory commands of a context end with its removal. -/
def State.endMemWorks (ctx : Nat) (s : State) : State :=
  let mine := s.mem.works.filter fun w => w.note.ctx == ctx
  let s := { s with mem := { s.mem with
    works := s.mem.works.filter fun w => w.note.ctx != ctx, defers := s.mem.defers.filter fun d => d.note.ctx != ctx
    waits := s.mem.waits.filter fun w => match w.what with
      | .page k => k / 2 ^ 25 != ctx
      | .save c _ => c != ctx
      | .fetch h => (s.weaver h).ctx != ctx
      | .build _ | .cmd _ => true } }
  s.each mine fun w s => s.finalRecord w.note St.revoked 0

/-- The event of a removal's start: ring 0 of the context's function, and of the PF when that is a VF. -/
def State.revokedEvent (ctx : Nat) (s : State) : State :=
  let fn := (s.ctx ctx).func
  let e : EvRec := { etype := Ev.contextRevoked, flags := 0, ctx := ctx, obj := ctx, rnd := 0, status := St.revoked, detail := 0 }
  let s := s.event fn 0 e
  if fn = 0 then s else s.event 0 0 e

/-- A context enters REVOKING (R415 up to step 4): its key is live no more, its work ends with REVOKED, its weavers move to REMOVING,
and the flows of its KEYID close. Copies that an engine has begun end with their stale bursts (R400). -/
def State.startRemoval (ctx : Nat) (why : RemovalWhy) (s : State) : State :=
  let key := (s.tkey ctx).keyId
  let s := s.modTkey ctx fun k => { k with state := .revoked, gen := (k.gen + 1) % 65536 }
  let held := chargedT1 s ctx
  let now := s.rnd.num
  let owed := (s.ctx ctx).reset
  let s := s.modCtx ctx fun c => { c with state := .revoking, why := some why, since := now, scrubbed := held, unmapped := false, reset := none }
  let s := { s with lid := { s.lid with revoked := sat 16 (s.lid.revoked + 1), lastCtx := ctx } }
  let s := s.revokedEvent ctx
  let s := s.each (queuesOf s ctx) fun n s => s.modQp n fun q => { q with state := .revoked }
  let s := s.endWork ctx St.revoked 2 true true
  let s := s.endMemWorks ctx
  let s := match owed with | none => s | some n => s.finalRecord n St.revoked 0
  let s := if key = 0 then s else s.closeKeyFlows key
  s.each (keysWhere s.weav.dir fun _ w => w.ctx == ctx && w.state != .free) fun h s =>
    (s.modWeaver h fun w => { w with adminPin := false }).startRemove h

/-- Whether a holder still has bursts in flight for a context's slot. -/
def holdsBursts (s : State) (ctx : Nat) : Bool := inflightOf s ctx != 0

def State.setKey (ctx : Nat) (st : KState) (s : State) : State := s.modTkey ctx fun k => { k with state := st }

/-- REMOVAL_DRAIN: no burst is in flight any more, so the slot becomes ZEROISING. -/
def State.drain (ctx : Nat) (s : State) : State :=
  if (s.ctx ctx).state = .revoking ∧ (s.tkey ctx).state = .revoked ∧ !holdsBursts s ctx then s.setKey ctx .zeroising else s

/-- FORCED_ABORT at cycle 20 of round N + 2 (R416): bursts still in flight are aborted, counted and journalled. -/
def State.forcedAbort (ctx : Nat) (s : State) : State :=
  let c := s.ctx ctx
  if c.state ≠ .revoking ∨ (s.tkey ctx).state ≠ .revoked ∨ boundaryRnd s < c.since + 2 then s
  else
    let s := if holdsBursts s ctx then
        let s := s.each (queuesOf s ctx) fun n s => s.endQueue n St.revoked false
        let s := s.each (keysWhere s.mem.frames fun _ e => !e.stakeKey && e.key == ctx && e.burst.isSome) State.endMove
        let s := s.each (keysWhere s.weav.dir fun _ w => w.keySlot == ctx && w.burst.isSome) fun h s =>
          (s.dropMove (.fetch h)).modWeaver h fun w => { w with burst := none }
        ({ s with lid := { s.lid with forced := sat 16 (s.lid.forced + 1) } }).journal
          { code := St.forcedAbort, cls := Cls.info, blk := Blk.lid, ctx := ctx }
      else s
    s.setKey ctx .zeroising

/-- KEY_ZEROISE_DONE: the slot is EMPTY and the context SCRUBBING. -/
def State.zeroised (ctx : Nat) (s : State) : State :=
  if (s.ctx ctx).state = .revoking ∧ (s.tkey ctx).state = .zeroising then
    (s.modTkey ctx fun k => { gen := k.gen }).modCtx ctx fun c => { c with state := .scrubbing }
  else s

/-- Step 7, from cycle 20 of a boundary on: pages unmapped, frames leave with no write, T2 pages return; queue pair blocks, channels,
apertures, memory regions, address handles and grants are released. -/
def State.scrub (ctx : Nat) (s : State) : State :=
  if (s.ctx ctx).state ≠ .scrubbing ∨ (s.ctx ctx).unmapped then s
  else
    let s := { s with mem := { s.mem with
      pte := s.mem.pte.filter fun p => p.1 / 2 ^ 25 != ctx, leaves := s.mem.leaves.filter fun x => x.1 / 512 != ctx } }
    let s := s.each (keysWhere s.mem.frames fun f e => !frameFree e && !fwFrame f && ownerOf e == ctx) fun f s => (s.forget f).zeroFrame f
    let s := s.clearCells ctx
    let s := { s with ups := { s.ups with areas := s.ups.areas.filter fun k => k / 1024 != ctx } }
    let h := s.host
    let s := { s with host := { h with
      qps := h.qps.filter fun p => p.2.ctx != ctx, blocks := h.blocks.filter fun p => p.2 != ctx + 1
      flows := h.flows.filter fun p => p.2.ctx != ctx
      apers := h.apers.filter fun p => p.2.ctx != ctx, ahs := h.ahs.filter fun p => p.1 / 65536 != ctx
      mrs := mapTab {} (fun _ (m : Mr) => if m.ctx = ctx then { tag := m.tag } else m) h.mrs } }
    let free := fun (_ : Nat) (c : Chan) =>
      if c.assigned ∧ c.ctx = ctx then { c with assigned := false, ctx := 0, func := 0, state := Ch.idle, rsp := [] } else c
    let s := { s with mb := { s.mb with chans := mapTab {} free s.mb.chans } }
    let s := if s.lid.grants.any fun g => g.ctx == ctx then
        ({ s with lid := { s.lid with grants := s.lid.grants.filter fun g => g.ctx != ctx } }).measured else s
    s.modCtx ctx fun c => { c with unmapped := true }

/-- Step 8: the final record of CTX_REMOVE, or the event that ends a removal of KEY_REVOKE. -/
def State.removalEnds (ctx : Nat) (c : Ctx) (s : State) : State :=
  match c.why with
  | some (.remove n) => s.finalRecord n St.ok c.scrubbed
  | some .revoke =>
    s.event 0 0 { etype := Ev.contextRevoked, flags := 0, ctx := ctx, obj := ctx, rnd := 0, status := St.ok, detail := sat 32 c.scrubbed }
  | _ => s

/-- CONTEXT_SCRUB_DONE: with the last frame FREE the context is FREE, and nothing of it is left. -/
def State.scrubDone (ctx : Nat) (s : State) : State :=
  let c := s.ctx ctx
  if c.state ≠ .scrubbing ∨ !c.unmapped ∨ chargedT1 s ctx ≠ 0 then s
  else
    let mine := keysWhere s.weav.dir fun _ w => w.ctx == ctx && w.state != .free
    let s := s.each mine fun h s => s.removeComplete h
    if (s.weav.dir.any fun p => p.2.ctx == ctx && p.2.state != .free) then s
    else
      let s := { s with
        ctxs := drop s.ctxs ctx
        mem := { s.mem with acct := drop s.mem.acct ctx }
        weav := { s.weav with sessions := s.weav.sessions.filter fun p => p.1 / 2 ^ 32 != ctx }
        train := { s.train with jobs := s.train.jobs.filter fun p => p.2.ctx != ctx, learn := s.train.learn.filter fun p => p.2.ctx != ctx }
        crs := { s.crs with plans := s.crs.plans.filter fun p => p.1.1 != ctx } }
      s.removalEnds ctx c

/-- REMOVAL_DRAIN (R415). -/
def execRemovalDrain (ctx : Nat) (s : State) : Host.Outcome State Fault Refusal := act (okCtx ctx) s (s.drain ctx)

/-- FORCED_ABORT (R416). -/
def execForcedAbort (ctx : Nat) (s : State) : Host.Outcome State Fault Refusal := act (okCtx ctx) s (s.forcedAbort ctx)

/-- KEY_ZEROISE_DONE (R415). -/
def execKeyZeroiseDone (ctx : Nat) (s : State) : Host.Outcome State Fault Refusal := act (okCtx ctx) s (s.zeroised ctx)

/-- CONTEXT_SCRUB_DONE (R415). -/
def execContextScrubDone (ctx : Nat) (s : State) : Host.Outcome State Fault Refusal := act (okCtx ctx) s (s.scrubDone ctx)

end Sys2Proof.Machine
end

