-- ==== Sys2Proof/Machine/Reset.lean ====
section
/-! DEFINITION. Resets and releases (R447 to R455, R459, R462, R389): warm, Lid and cold resets, READY, domain resets of the rails, block
resets, D3cold. -/

namespace Sys2Proof.Machine

/-! ### What a reset ends -/

/-- Long mailbox work that is still PENDING ends with a status; what it set in motion goes on where the reset keeps it. -/
def State.endPending (status : Nat) (s : State) : State :=
  let s := s.finishQueues
  let s := s.each (keysWhere s.host.qps fun _ q => q.redeliver.isSome) fun q s => s.dropRedeliver q status
  let works := s.mem.works
  let s := { s with mem := { s.mem with works := [], defers := [], waits := [] } }
  let s := s.each works fun w s => s.finalRecord w.note status 0
  let s := s.each s.stakes fun k s =>
    let s := match k.2.build with | none => s | some b => s.buildFails k.1 b status
    let s := match k.2.commit with
      | none => s
      | some c => (s.modStake k.1 fun x => { x with commit := none }).finalRecord c.note status 0
    (s.modStake k.1 fun x => { x with evictNotes := [] }).each k.2.evictNotes fun n s => s.finalRecord n status 0
  let s := s.each s.weav.dir fun w s =>
    s.each w.2.removers fun n s => (s.modWeaver w.1 fun x => { x with removers := [] }).finalRecord n status 0
  let s := s.each s.host.qps fun q s =>
    let s := match q.2.destroy with | none => s | some n => (s.modQp q.1 fun x => { x with destroy := none }).finalRecord n status 0
    match q.2.redeliver with | none => s | some n => (s.modQp q.1 fun x => { x with redeliver := none }).finalRecord n.1 status 0
  let s := s.each (keysWhere s.ctxs fun _ c => c.reset.isSome) fun c s => s.applyReset c status
  match s.pwr.note with
  | none => s
  | some n => ({ s with pwr := { s.pwr with note := none } }).finalRecord n status 0

/-- The work of every context ends: of one that is being removed with REVOKED, of any other with `status`. -/
def State.endAllWork (status outcome : Nat) (s : State) : State :=
  s.each (s.ctxs.map Prod.fst) fun c s => s.endWork c (if ctxGoing s c then St.revoked else status) outcome false false

/-- A session stands as every accepted descriptor has left it once none is waiting. -/
def Session.settled (x : Session) : Session := { x with accepted := x.isOpen, accHandle := x.handle, accSid := x.sid }

/-- The firmware of the bank that is marked for boot starts, and what was staged is staged no more (R389). -/
def Fw.boots (f : Fw) : Fw := if f.boot = f.bank then f else { f with bank := f.boot, image := [], covered := [], stagedVer := 0 }

/-- A field without a reset value resets to zero (R9): CLK_DIE.FREQ and VSET, until the dies are released and their clocks run. -/
def stoppedClocks : Tab Clk := (List.range 4).map fun d => (d, { freq := 0, vset := 0 })

/-! ### The warm reset (R450) -/

/-- Whether measured state changes with a warm reset: firmware, JTAG, link IDE, MACsec (R403). -/
def warmChanges (s : State) : Bool :=
  s.fw.boot != s.fw.bank || s.lid.jtag || s.lid.linkIde || s.ports.any fun p => p.2.macsecUp != 0

/-- The blocks' fields of classes W, F, B and X return to their reset values (R9, R455); what HBM, the Lid and VAON hold stays. -/
def State.warmFields (s : State) : State :=
  let round : Rnd := { lidTimed := s.rnd.lidTimed, refBack := s.rnd.refBack }
  let ups := { s.ups with saved := [], loading := [] }
  let crs := { s.crs with waiting := [], running := [], tables := [], reports := [] }
  let weav : Weav := {
    dir := mapTab {} (fun _ (w : Weaver) => { w with usableFrom := 0 }) s.weav.dir
    side := mapTab {} (fun _ (x : SideSlot) => { x with boundRnd := 0 }) s.weav.side
    sessions := mapTab {} (fun _ (x : Session) => x.settled) s.weav.sessions }
  let mig := mapTab {} (fun _ (m : MigCnt) => ({ detected := m.detected, repaired := m.repaired, failed := m.failed } : MigCnt)) s.mem.mig
  let mem := { s.mem with mig := mig, repairs := s.mem.repairs.map fun (r : Repair) => { r with since := 0, rnd := 0 } }
  let msd := mapTab {} (fun _ (m : Msd) => ({ uncorrected := m.uncorrected, tagErr := m.tagErr, disabled := m.disabled } : Msd)) s.msd
  let port := fun (_ : Nat) (p : Port) =>
    ({ caks := p.caks, ipv6 := p.ipv6, ipv4 := p.ipv4, v4valid := p.v4valid, nextHop := p.nextHop } : Port)
  let qps := (s.host.qps.filter fun p => p.2.typ != 6).map fun p => (p.1, { p.2 with fullSince := none })
  let fns := mapTab {} (fun _ (f : Fn) => { f with dbDrop := 0, lost := 0 }) s.host.fns
  let chan := fun (_ : Nat) (c : Chan) => { c with state := Ch.idle, discard := false, seq := 0, drops := 0, accept := 0 }
  let lid := { s.lid with jtag := false, linkIde := false, ideStreams := [], warmGens := s.lid.warmGens + 1, lastCtx := 0 }
  let flt := { s.flt with
    sel := 0, polClock := 0, polPlace := 0, polLink := 0, polTwine := 0, polNow := [], halted := false, code := 0, links := [] }
  let sup := mapTab {} (fun _ (x : Sup) => { x with meas := 0, below := false, stretch := false }) s.pwr.sup
  { s with
    latch := [], rsvdAcc := 0, rnd := round
    bud := { shadow := resetShares, share := resetShares, moves := s.bud.moves }
    cells := [], ups := ups, crs := crs, weav := weav, mem := mem, msd := msd
    train := { s.train with twn := [], probe := none }
    ports := mapTab {} port s.ports
    txHeld := []
    cxl := (List.range 4).foldl (fun t p => if hasCxl s p then store 0 t p 1 else t) []
    hoop := {}
    host := { s.host with qps := qps, fns := fns, flows := [], ce := [], refused := 0, flrCut := [] }
    mb := { s.mb with chans := mapTab {} chan s.mb.chans }
    lid := lid, flt := flt
    pwr := { cap := s.pwr.cap, fmin := s.pwr.fmin, fmax := s.pwr.fmax, clk := stoppedClocks, sup := sup }
    fw := s.fw.boots }

/-- The sources of R447. -/
def warmSource (c : WCause) : Nat := match c with | .perst => 0x20 | .hotReset => 0x21 | .deviceReset => 0x22 | .viod => 0x23
def lidSource (c : LCause) : Nat := match c with | .lidFail => 0x10 | .operatorCleared => 0x11 | .rail => 0x12

/-- A W-class reset: work ends with HOST_LOST, the key of a context that is being removed can be erased at once (R416), the blocks are
reset and released until DEVICE_READY. During a stronger reset, and without main power, nothing happens. Only PERST# and a hot reset count
as losses of the host link. -/
def State.warm (c : WCause) (s : State) : State :=
  if !s.rst.running && s.rst.cls != 2 || s.pwr.state == .d3cold then s
  else
    let counts := decide (warmSource c < 0x22)
    let losses := if counts then sat 16 (s.host.losses + 1) else s.host.losses
    let changed := warmChanges s
    let s := (s.loseLink.endAllWork St.hostLost 1).endPending St.hostLost
    let s := { s with host := { s.host with losses := losses } }
    let s := s.each (keysWhere s.ctxs fun _ c => c.state == .revoking) fun c s => if (s.tkey c).state = .revoked then s.setKey c .zeroising else s
    let s := s.warmFields.rekey
    let r := s.rst
    let s := { s with rst := { cls := 2, source := warmSource c, wCount := sat 16 (r.wCount + 1), running := false, perstLow := r.perstLow } }
    if changed then s.measured else s

/-! ### The cold release (R449, R451) -/

/-- The power cap at reset: the variant's TDP (R464, R483). -/
def tdp (s : State) : Nat := match s.variant with | .c => 1650 | _ => 2100

/-- The map that power-on self-test builds anew (R87): which cells it finds failed is a free value. -/
def rebuiltMap (s : State) (k : Nat) : Upsett := selfTestMap (Config.freeNat k) ((Config.selfTest k).eraseDups.filter (hasCell s))

/-- The fields of class S of the VAON domain and the counters of class S, kept by a D3cold exit (R459). -/
def State.keepSticky (o s : State) : State :=
  let mig := mapTab {} (fun _ (m : MigCnt) => ({ detected := m.detected, repaired := m.repaired, failed := m.failed } : MigCnt)) o.mem.mig
  let msd := mapTab {} (fun _ (m : Msd) => ({ uncorrected := m.uncorrected, tagErr := m.tagErr } : Msd)) o.msd
  let flt : Flt := {
    head := o.flt.head, ring := o.flt.ring, nRec := o.flt.nRec, nWork := o.flt.nWork, nBlk := o.flt.nBlk, nDev := o.flt.nDev }
  { s with
    mem := { s.mem with mig := mig }, msd := msd, flt := flt
    pwr := { cap := o.pwr.cap, fmin := o.pwr.fmin, fmax := o.pwr.fmax, clk := stoppedClocks
             sup := mapTab {} (fun _ (x : Sup) => ({ warn := x.warn, resets := x.resets } : Sup)) o.pwr.sup }
    rst := { s.rst with wCount := o.rst.wCount } }

/-- Every domain is reset: only the operator anchor, the boot flash and the fuses survive. Slot 0 and the device key are filled anew, and
nothing is released before DEVICE_READY. A C-class reset samples the straps (R473). -/
def State.coldStart (cls source : Nat) (s : State) : State :=
  let r := State.reset
  let k := s.free
  State.rekey { r with
    variant := s.variant, straps := s.straps, pending := s.pending, out := s.out, free := k + 3
    ups := rebuiltMap s (k + 2)
    cxl := (List.range 4).foldl (fun t p => if hasCxl s p then store 0 t p 1 else t) []
    host := { r.host with linkUp := false }
    lid := {
      anchor := s.lid.anchor, tenant := [(0, { state := .live, gen := 1, key := Config.freeNat k })], devKey := Config.freeNat (k + 1)
      mgmtI3c := if cls = 0 then bit s.straps 2 else s.lid.mgmtI3c
      mgmtAddr := if cls = 0 then 0x60 + bits s.straps 0 2 else s.lid.mgmtAddr }
    pwr := { cap := tdp s, clk := stoppedClocks }
    rst := { cls := cls, source := source, running := false, perstLow := s.rst.perstLow }
    fw := s.fw.boots }

/-- A C-class reset. -/
def State.cold (source : Nat) (s : State) : State := s.coldStart 0 source

/-- An L-class reset: every tenant context is removed up to the erasure of its key, the work of context 0 ends with REVOKED, then the cold
release without a loss of power. Without main power the release waits for its return. -/
def State.lidReset (c : LCause) (s : State) : State :=
  let tenants := keysWhere s.ctxs fun c x => c != 0 && x.state != .free && x.state != .revoking && x.state != .scrubbing
  let s := s.each tenants fun c s => s.startRemoval c .lid
  let s := (s.endWork 0 St.revoked 2 false false).endPending St.revoked
  let dark := s.pwr.state == .d3cold
  let s := s.coldStart 1 (lidSource c)
  if dark then { s with pwr := { s.pwr with state := .d3cold } } else s

/-- READY (R449, R450): released; the blocks are measured, contexts whose key was to be erased are scrubbed, each die's setpoint is sent
(R480), training of the links is done where PERST# is released. -/
def vrcFrame (rail mv : Nat) : Nat :=
  let v := rail % 16 * 2 ^ 20 + mv % 2048 * 2 ^ 9
  v + ((List.range 23).filter fun i => bit v (i + 1)).length % 2

def State.sendSetpoint (d : Nat) (s : State) : State := s.emit (.vrc (vrcFrame d (s.clk d).vset))

def State.deviceReady (s : State) : State :=
  if s.rst.running || s.pwr.state == .d3cold then s
  else
    let s := s.each (s.ctxs.map Prod.fst) fun c s => s.zeroised c
    let fw := if s.fw.marked then { s.fw with marked := false, fallback := false } else s.fw
    let lid := { s.lid with ready := true, cxlIde := [], measGen := if s.rst.cls = 2 then s.lid.measGen else 1 }
    let s := { s with
      cxl := [], fw := fw, lid := lid, pwr := { s.pwr with clk := [] }, rst := { s.rst with running := true }
      host := { s.host with linkUp := !s.rst.perstLow } }
    s.each ((List.range 4).filter fun d => hasCd s d) fun d s => s.sendSetpoint d

/-- FW_FALLBACK: a staged image that fails its self-test at boot is abandoned, and the other bank boots. -/
def State.fwFallback (s : State) : State :=
  if s.rst.running || !s.fw.marked || s.fw.bank != s.fw.boot then s
  else
    let b := 1 - s.fw.bank
    (State.rekey { s with fw := { s.fw with bank := b, boot := b, marked := false, fallback := true } }).journal
      { code := St.firmwareEvent, cls := Cls.recovered, blk := Blk.border, detail := 0 }

/-! ### PERST# -/

def State.perstAssert (s : State) : State :=
  if s.rst.perstLow then s
  else
    let s := s.warm .perst
    { s with rst := { s.rst with perstLow := true }, host := { s.host with linkUp := false } }

/-- PERST# is released: the PCIe link trains once the I/O die is out of reset. -/
def State.perstDeassert (s : State) : State :=
  if !s.rst.perstLow then s
  else { s with rst := { s.rst with perstLow := false }, host := { s.host with linkUp := s.rst.running } }

/-- Whether a DEVICE_RESET begins at the boundary that is asserted (R380, R484). -/
def deviceResetDue (s : State) : Bool := s.rnd.tick.isSome && s.rst.devReset.elim false fun n => decide (n ≤ boundaryRnd s)

def State.warmReset (c : WCause) (s : State) : State :=
  match c with
  | .perst => s.perstAssert
  | .deviceReset => if deviceResetDue s then s.warm .deviceReset else s
  | _ => s.warm c

/-! ### Rails (R462) and D3cold (R459) -/

/-- The domain reset of a rail, with its journal entry. -/
def State.domainReset (rail : Nat) (s : State) : State :=
  let cls := if rail < 4 ∨ rail = 8 then Cls.blockReset else Cls.device
  let s := s.journal { code := St.domainReset, cls := cls, blk := Blk.power, unit := rail, detail := rail }
  match rail with
  | 5 => s.warm .viod
  | 8 =>
    let s := s.each ((List.range 12).filter fun p => hasPort s p) fun p s => s.blockReset 5 p
    (s.each ((List.range 4).filter fun p => hasCxl s p) fun p s => s.blockReset 6 p).dlDown
  | 9 => s.cold 0x03
  | r => if r < 4 then s.blockReset 1 r else s.lidReset .rail

def State.countCrossing (rail : Nat) (s : State) : State := s.modSup rail fun x => { x with resets := sat 8 (x.resets + 1) }

/-- RAIL_UV_RESET. A main rail that crosses while the PF is in D3hot begins a D3cold entry. -/
def State.railCrosses (rail : Nat) (s : State) : State :=
  if (rail = 3 ∧ !hasCd s 3) ∨ (s.pwr.state = .d3cold ∧ rail ≠ 9) then s
  else
    let s := s.countCrossing rail
    if s.pwr.state = .d3hot ∧ rail ≠ 9 then { s with pwr := { s.pwr with crossed := s.pwr.crossed.filter (· != rail) ++ [rail] } }
    else s.domainReset rail

/-- D3COLD_ENTRY: every key slot is zeroised, every context but 0 is FREE, only the VAON domain keeps state. -/
def State.d3cold (s : State) : State :=
  if s.pwr.state ≠ .d3hot then s
  else
    let t := s.keepSticky (s.coldStart s.rst.cls s.rst.source)
    { t with lid := { t.lid with tenant := [], devKey := 0 }, pwr := { t.pwr with state := .d3cold } }

/-- MAIN_POWER_RETURN: the L-class release, with every field of class S kept. -/
def State.powerReturns (s : State) : State :=
  if s.pwr.state ≠ .d3cold then s else s.keepSticky (s.coldStart 3 0x30)

/-- The rail whose domain reset is the strongest of those that crossed: an L-class one, the W-class one, a block reset. -/
def strongestRail (xs : List Nat) : Option Nat := [4, 6, 7, 5, 8, 0, 1, 2, 3].find? fun r => xs.contains r

/-- D3COLD_WINDOW_EXPIRY: a main rail is still up, so the device leaves D3hot under the strongest domain reset; block resets of several
rails are of one strength. -/
def State.windowExpires (crossed : List Nat) (s : State) : State :=
  let xs := s.pwr.crossed ++ crossed.filter fun r => decide (r < 9) && !s.pwr.crossed.contains r && (r != 3 || hasCd s 3)
  if s.pwr.state ≠ .d3hot then s
  else
    match strongestRail xs with
    | none => s
    | some r =>
      let s := s.each (xs.filter fun r => !s.pwr.crossed.contains r) fun r s => s.countCrossing r
      let s := { s with pwr := { s.pwr with state := s.pwr.before, crossed := [] } }
      if 4 ≤ r ∧ r ≤ 7 then s.domainReset r else s.each (xs.filter fun r => r < 4 || r == 8) fun r s => s.domainReset r

/-! ### Block resets (R452 to R454) -/

/-- What a block loses at its reset, and what its requesters do with the error responses. -/
def State.blockLoses (sel unit : Nat) (s : State) : State :=
  match sel with
  | 1 =>
    let uses := fun (c : Course) => (planCells c.plan).any fun lc => lc / 240 == unit
    let s := s.each (s.crs.running.filter uses) fun c s => s.stopCourse c.id
    let clear := fun (lc : Nat) (c : Cell) =>
      if lc / 240 = unit then ({ course := c.course, cls := c.cls, failRnd := c.failRnd } : Cell) else c
    { s with cells := mapTab {} clear s.cells }
  | 2 => s.each (s.crs.running.filter fun c => c.plan.ulists.any fun u => u.die == unit) fun c s => s.stopCourse c.id
  | 4 => s.each (keysWhere s.host.qps fun n q => engineOf n q.typ == unit) fun n s =>
      s.each ((s.qp n).descs.filter fun x => x.held.isNone) fun x s =>
        match x.copy with
        | some c => s.closeSeq n x { c.record with status := if c.record.status = St.ok then St.engineFault else c.record.status }
        | none => if decide ((s.qp n).typ ≤ 2) && x.started then s.copyEnds n x St.engineFault else s
  | 5 => s.each (List.range 4) fun i s => s.linkDown false unit i
  | 6 => s.linkDown true unit 0
  | 7 => s.bypassClose .reset
  | _ => s

/-- BLK_IDLE_WAIT_END: the idle wait of the block reset in turn ends. Requests that had no response yet complete with an error; how many
there were after a time-out only the device knows. -/
def State.idleWaitEnds (timedOut : Bool) (s : State) : State :=
  match s.rst.busy.find? fun b => !b.reset with
  | none => s
  | some b =>
    let s := { s with rst := { s.rst with
      busy := s.rst.busy.map fun x => if x == b then { x with reset := true, since := some s.rnd.num } else x } }
    let s := if !timedOut then s else
      let x := s.fresh
      let s := x.2
      ({ s with rst := { s.rst with timeouts := sat 16 (s.rst.timeouts + 1), errCpl := sat 32 (s.rst.errCpl + x.1) } }).journal
        { code := St.idleTimeout, cls := Cls.info, blk := Blk.power, detail := b.sel + b.unit * 256 }
    s.blockLoses b.sel b.unit

/-- BLOCK_RELEASE, at cycle 16 of a boundary: the wrappers of the blocks that had been reset before it open; stopped courses replay where
they can. -/
def State.blockRelease (s : State) : State :=
  let open' := fun (b : BlkRst) => b.reset && b.since != some s.rnd.num
  let done := s.rst.busy.filter open'
  if done.isEmpty then s
  else ({ s with rst := { s.rst with
    busy := s.rst.busy.filter fun b => !open' b, resets := sat 16 (s.rst.resets + done.length) } }).replayReady

/-! ### The commands -/

/-- PERST_ASSERT (R450). -/
def execPerstAssert (s : State) : Host.Outcome State Fault Refusal := act true s s.perstAssert

/-- PERST_DEASSERT (R449). -/
def execPerstDeassert (s : State) : Host.Outcome State Fault Refusal := act true s s.perstDeassert

/-- PCIE_HOT_RESET (R450). -/
def execPcieHotReset (s : State) : Host.Outcome State Fault Refusal := act true s (s.warm .hotReset)

/-- WARM_RESET (R450). -/
def execWarmReset (c : WCause) (s : State) : Host.Outcome State Fault Refusal := act true s (s.warmReset c)

/-- LID_RESET (R451). -/
def execLidReset (c : LCause) (s : State) : Host.Outcome State Fault Refusal := act true s (s.lidReset c)

/-- PWROK_CYCLE (R447). -/
def execPwrokCycle (s : State) : Host.Outcome State Fault Refusal := act true s (s.cold 0x02)

/-- VAON_POWER_ON (R449). -/
def execVaonPowerOn (s : State) : Host.Outcome State Fault Refusal := act true s (s.cold 0x01)

/-- DEVICE_READY (R449). -/
def execDeviceReady (s : State) : Host.Outcome State Fault Refusal := act true s s.deviceReady

/-- FW_FALLBACK (R389). -/
def execFwFallback (s : State) : Host.Outcome State Fault Refusal := act true s s.fwFallback

/-- RAIL_UV_RESET (R462). -/
def execRailUvReset (rail : Nat) (s : State) : Host.Outcome State Fault Refusal := act (okRail rail) s (s.railCrosses rail)

/-- D3COLD_ENTRY (R459). -/
def execD3coldEntry (s : State) : Host.Outcome State Fault Refusal := act true s s.d3cold

/-- D3COLD_WINDOW_EXPIRY (R459). -/
def execD3coldWindowExpiry (crossed : List Nat) (s : State) : Host.Outcome State Fault Refusal := act true s (s.windowExpires crossed)

/-- MAIN_POWER_RETURN (R459). -/
def execMainPowerReturn (s : State) : Host.Outcome State Fault Refusal := act true s s.powerReturns

/-- BLK_IDLE_WAIT_END (R452). -/
def execBlkIdleWaitEnd (timedOut : Bool) (s : State) : Host.Outcome State Fault Refusal := act true s (s.idleWaitEnds timedOut)

/-- BLOCK_RELEASE (R452). -/
def execBlockRelease (s : State) : Host.Outcome State Fault Refusal := act true s s.blockRelease

end Sys2Proof.Machine
end

