-- ==== Sys2Proof/Machine/Faults.lean ====
section
/-! DEFINITION. Faults of the fabric, of block memories, of engines and of the processors (R427). -/

namespace Sys2Proof.Machine

/-! ### Warp and weft links -/

def dieFitted (s : State) : Die → Bool
  | .cd n => hasCd s n
  | .msd m => hasMsd s m
  | .iod => true

/-- The links of a compute die's warp, and the 16 of the weft, of which those that join a die that is not fitted are unused (R17). -/
def linkFitted (s : State) (warp : Bool) (link : Nat) : Bool :=
  if warp then hasCd s (link / 256)
  else decide (link < 16) && dieFitted s (weftEnds link).1 && dieFitted s (weftEnds link).2

def linkDownNow (s : State) (warp : Bool) (link : Nat) : Option StoppedLink := s.flt.links.find? fun l => l.warp == warp && l.link == link

def linkBlk (warp : Bool) : Nat := if warp then Blk.warp else Blk.weft

def State.setLink (warp : Bool) (link : Nat) (fails : Option Nat) (s : State) : State :=
  let rest := s.flt.links.filter fun l => !(l.warp == warp && l.link == link)
  let mine := match fails with | none => [] | some n => [{ warp := warp, link := link, fails := n, since := some s.rnd.num }]
  { s with flt := { s.flt with links := rest ++ mine } }

/-- The entry of a fault that stops a course, naming it. -/
def courseEntry (c : Course) (e : JEntry) : JEntry :=
  { e with ctx := c.ctx, tag := courseTag c, progress := ((c.rows.head?).map Seq.produced).getD 0, gen := c.gen }

/-- A fault stops some courses: an entry for each of them, or one that names none. -/
def State.faultStops (hit : Course → Bool) (e : JEntry) (s : State) : State :=
  match s.crs.running.filter fun c => hit c && !c.stopped with
  | [] => s.journal e
  | cs => s.each cs fun c s => (s.journal (courseEntry c e)).stopCourse c.id

/-- FLIT_REPLAY_FAIL: the link stops, and with it the courses whose traffic crosses it. -/
def State.flitFails (warp : Bool) (link : Nat) (s : State) : State :=
  if !linkFitted s warp link ∨ (linkDownNow s warp link).isSome then s
  else
    (s.setLink warp link (some 0)).faultStops (crossesLink warp link)
      { code := St.fabricRetrain, cls := Cls.recovered, blk := linkBlk warp, unit := link }

/-- A third boundary in a row at which a retrain fails halts the device. -/
def State.retrainFails (warp : Bool) (link n : Nat) (s : State) : State :=
  let s := s.setLink warp link (some (n + 1))
  if 2 ≤ n then s.halt St.fabricFailed (linkBlk warp) link else s

/-- Whether a stopped link retrains: from cycle 16 of the boundary after the round in which it stopped, or last failed to retrain, on. -/
def retrains (s : State) (l : StoppedLink) : Bool := l.since != some s.rnd.num

/-- LINK_RETRAIN_DONE: the courses that the link stopped replay, or one more retrain has failed. -/
def State.retrainDone (warp : Bool) (link : Nat) (ok : Bool) (s : State) : State :=
  match linkDownNow s warp link with
  | none => s
  | some l => if !retrains s l then s else if ok then (s.setLink warp link none).replayReady else s.retrainFails warp link l.fails

/-- FABRIC_FAILED. -/
def State.fabricFails (warp : Bool) (link : Nat) (s : State) : State :=
  match linkDownNow s warp link with
  | none => s
  | some l => if retrains s l && decide (2 ≤ l.fails) then s.retrainFails warp link l.fails else s

/-! ### Block memories and engines -/

def listsOn (die : Nat) (c : Course) : Bool := c.plan.ulists.any fun u => u.die == die

/-- SRAM_UNCORRECTABLE, as the row of each block says. -/
def State.sramFails (b : SramBlock) (u : Nat) (s : State) : State :=
  let e : JEntry := { code := St.sramUncorrectable, cls := Cls.recovered }
  match b with
  | .directoryCache => s.journal { e with blk := Blk.border }
  | .staging => if hasMsd s u then s.faultStops (listsOn u) { e with blk := Blk.hbm, unit := u } else s
  | .queuePair =>
    let q := s.qp u
    if q.state = .free then s
    else (s.journal { e with cls := Cls.workEnded, blk := Blk.copy, unit := engineOf u q.typ, ctx := q.ctx }).qpError u St.sramUncorrectable
  | .frameSlice => if hasMsd s u then s.halt St.sramUncorrectable Blk.hbm u else s
  | .keyBus => s.halt St.sramUncorrectable Blk.lid 0
  | .tally => s.halt St.sramUncorrectable Blk.round 0

/-- SLATH_ENGINE_FAULT: the engine is reset, and stays disabled after two rounds in a row; the courses that use the die replay. -/
def State.slathFails (die eng : Nat) (s : State) : State :=
  let m := s.msdOf die
  if !hasMsd s die ∨ 4 ≤ eng ∨ m.disabled.contains eng then s
  else
    let now := s.rnd.num
    let again := m.lastFail.any fun x => x.1 == eng && x.2 + 1 == now
    let s := s.modMsd die fun m => { m with
      lastFail := (eng, now) :: m.lastFail.filter fun x => x.1 != eng
      disabled := if again then eng :: m.disabled else m.disabled }
    s.faultStops (listsOn die) { code := St.engineReset, cls := Cls.recovered, blk := Blk.slath, unit := die * 4 + eng }

/-- MIGRATION_ENGINE_FAULT: transfers restart from their first unwritten granule, and frame states are kept. -/
def State.migrationFails (die : Nat) (s : State) : State :=
  if hasMsd s die then s.journal { code := St.engineReset, cls := Cls.recovered, blk := Blk.mig, unit := die } else s

/-- COPY_ENGINE_FAULT: a block reset, at which the engine's active descriptors end with ENGINE_FAULT. -/
def State.copyEngineFails (e : Nat) (s : State) : State :=
  (s.journal { code := St.engineReset, cls := Cls.blockReset, blk := Blk.copy, unit := e }).blockReset 4 e

/-- FIRMWARE_WATCHDOG: firmware restarts; commands that are BUSY answer FW_RESTARTED and have had no effect. -/
def State.firmwareRestarts (s : State) : State :=
  let s := s.journal { code := St.firmwareEvent, cls := Cls.recovered, blk := Blk.border, detail := 1 }
  let s := { s with train := { s.train with probe := none } }
  s.each (keysWhere s.mb.chans fun _ c => c.state == Ch.busy) fun ch s => s.answer ch St.fwRestarted 0 0 0

/-! ### The commands -/

/-- FLIT_REPLAY_FAIL (R427). -/
def execFlitReplayFail (warp : Bool) (link : Nat) (s : State) : Host.Outcome State Fault Refusal := act true s (s.flitFails warp link)

/-- LINK_RETRAIN_DONE (R427). -/
def execLinkRetrainDone (warp : Bool) (link : Nat) (ok : Bool) (s : State) : Host.Outcome State Fault Refusal :=
  act true s (s.retrainDone warp link ok)

/-- FABRIC_FAILED (R427). -/
def execFabricFailed (warp : Bool) (link : Nat) (s : State) : Host.Outcome State Fault Refusal := act true s (s.fabricFails warp link)

/-- SRAM_UNCORRECTABLE (R427). -/
def execSramUncorrectable (b : SramBlock) (u : Nat) (s : State) : Host.Outcome State Fault Refusal := act true s (s.sramFails b u)

/-- SLATH_ENGINE_FAULT (R427). -/
def execSlathEngineFault (die eng : Nat) (s : State) : Host.Outcome State Fault Refusal := act (okMsd die) s (s.slathFails die eng)

/-- MIGRATION_ENGINE_FAULT (R427). -/
def execMigrationEngineFault (die : Nat) (s : State) : Host.Outcome State Fault Refusal := act (okMsd die) s (s.migrationFails die)

/-- COPY_ENGINE_FAULT (R427). -/
def execCopyEngineFault (e : Nat) (s : State) : Host.Outcome State Fault Refusal := act (okEngine e) s (s.copyEngineFails e)

/-- FIRMWARE_WATCHDOG (R427, R428). -/
def execFirmwareWatchdog (s : State) : Host.Outcome State Fault Refusal := act true s s.firmwareRestarts

/-- LID_SELF_CHECK_FAIL (R427, R447). -/
def execLidSelfCheckFail (s : State) : Host.Outcome State Fault Refusal := act true s (s.lidReset .lidFail)

end Sys2Proof.Machine
end

