-- ==== Sys2Proof/Machine/Power.lean ====
section
/-! DEFINITION. Power and clocks (R456 to R467, R480): power states, supply dips, the clock and voltage loop, thermal protection, the
reference clock. -/

namespace Sys2Proof.Machine

/-! ### The clock of a compute die -/

/-- The clock that a die runs at: half of FREQ while it is stretched (R461). -/
def runsAt (c : Clk) : Nat := if c.stretch then c.freq / 2 else c.freq

/-- The setpoint of a V/F point, within what the rail takes (R463, R478). -/
def setpointFor (d f : Nat) : Nat := max 550 (min 900 (Config.vfVoltage d f))

/-- A protection episode of a die's clock starts or ends where it crosses FMIN (R445, R461): `cause` 0 thermal, 1 supply. -/
def State.protectCheck (d cause : Nat) (s : State) : State :=
  let below := decide (runsAt (s.clk d) < s.pwr.fmin)
  if below == (s.clk d).prot then s
  else (s.modClk d fun c => { c with prot := below }).journal
    { code := St.protection, cls := Cls.info, blk := Blk.power, unit := d, detail := cause * 2 ^ 8 + s.pwr.fmin * 2 ^ 16 }

/-- A die's frequency falls at once, its voltage after it. -/
def State.lowerTo (d f : Nat) (s : State) : State :=
  (s.modClk d fun c => { c with freq := f, vset := setpointFor d f, raiseTo := none }).sendSetpoint d

/-- A raise sets the voltage first; the frequency follows with VRC_ACK# (R480). -/
def State.raiseTo (d f : Nat) (s : State) : State :=
  (s.modClk d fun c => { c with vset := setpointFor d f, raiseTo := some f }).sendSetpoint d

def railBelow (s : State) (r : Nat) : Bool := (look {} s.pwr.sup r).below

/-- The compute dies that are fitted and powered. -/
def poweredDies (s : State) : List Nat :=
  (List.range 4).filter fun d => hasCd s d && s.rst.running && !s.flt.halted && (s.pwr.state == .active || s.pwr.state == .idleHold)

/-! ### The loop (R463, R464) -/

/-- One die at one evaluation: back inside the bounds, down, up, or as it is; whether a bound kept it from its target. -/
def State.loopDie (past up : Bool) (d : Nat) (s : State) : State :=
  let c := s.clk d
  if s.pwr.fmax < c.freq then s.lowerTo d (c.freq - 25)
  else if past then if s.pwr.fmin + 25 ≤ c.freq then s.lowerTo d (c.freq - 25) else s.polLimit 0
  else if railBelow s d then s
  else if c.stretch then if up then s.modClk d fun c => { c with stretch := false } else s
  else if c.freq < s.pwr.fmin then s.raiseTo d (c.freq + 25)
  else if !up then s
  else if c.freq + 25 ≤ s.pwr.fmax then s.raiseTo d (c.freq + 25)
  else s.polLimit 0

/-- CLOCK_LOOP_EVAL: package power and the junction sensors over the last 10 µs. -/
def State.clockLoop (m : PowerSample) (s : State) : State :=
  let past := decide (s.pwr.cap < m.watts)
  let good := decide (100 * m.watts < 98 * s.pwr.cap) && m.tj.all fun t => decide (t < 100)
  let calm := if good then min 3 (s.pwr.calm + 1) else 0
  let s := { s with pwr := { s.pwr with watts := m.watts, tjMax := m.tj.foldl max 0, calm := calm } }
  s.each (poweredDies s) fun d s => (s.loopDie past (calm == 3) d).protectCheck d 0

def State.vrcAck (d : Nat) (s : State) : State :=
  match (s.clk d).raiseTo with
  | none => s
  | some f => (s.modClk d fun c => { c with freq := f, raiseTo := none }).protectCheck d 0

/-- The lower frequency stays; the next evaluation tries again. -/
def State.vrcTimeout (d : Nat) (s : State) : State :=
  if (s.clk d).raiseTo.isSome then s.modClk d fun c => { c with raiseTo := none } else s

/-! ### Protection (R465) -/

/-- One step down, through FMIN to 1,000 MHz, then by stretching. -/
def State.throttle (d : Nat) (s : State) : State :=
  let s := if 1025 ≤ (s.clk d).freq then s.lowerTo d ((s.clk d).freq - 25) else s.modClk d fun c => { c with stretch := true }
  s.protectCheck d 0

def State.sawTj (tj : Nat) (s : State) : State := { s with pwr := { s.pwr with tjMax := max s.pwr.tjMax tj, calm := 0 } }

/-- THERMAL_THROTTLE: a reading of 103 °C or more. -/
def State.thermal (d tj : Nat) (s : State) : State :=
  if tj < 103 ∨ !(poweredDies s).contains d then s else (s.sawTj tj).throttle d

/-- POWER_OVER_TDP: 1 ms above the TDP. -/
def State.overTdp (watts : Nat) (s : State) : State :=
  if watts ≤ tdp s then s
  else ({ s with pwr := { s.pwr with watts := watts, calm := 0 } }).each (poweredDies s) fun d s => s.throttle d

/-- THERMAL_TRIP: 110 °C. The compute dies lose power and what they hold, THERMTRIP# is low, the device halts. -/
def State.trip (d tj : Nat) (s : State) : State :=
  if tj < 110 ∨ !(poweredDies s).contains d ∨ s.pwr.thermTrip then s
  else
    let s := (s.sawTj tj).halt St.thermalTrip Blk.power d
    { s with
      pwr := { s.pwr with thermTrip := true }
      cells := mapTab {} (fun _ (c : Cell) => ({ failRnd := c.failRnd } : Cell)) s.cells }

/-! ### Supply dips (R460, R461) -/

/-- A rail that feeds a clocked domain: VCD, VMSD or VIOD. -/
def feedsClock (rail : Nat) : Bool := decide (rail ≤ 5)

/-- RAIL_DIP: the rail is at or below UV_WARN. A compute die's clock is stretched, and the round is marked. -/
def State.dip (rail mv : Nat) (s : State) : State :=
  if 94 * railSet s rail < 100 * mv ∨ (rail = 3 ∧ !hasCd s 3) ∨ s.pwr.state = .d3cold then s
  else
    let first := !railBelow s rail
    let s := s.modSup rail fun x => { x with
      meas := mv % 2048, below := true, stretch := x.stretch || first && (rail == 4 || rail == 5)
      warn := if first then sat 16 (x.warn + 1) else x.warn }
    if !first ∨ !feedsClock rail then s
    else
      let s := { s with rnd := { s.rnd with undervolt := true } }
      if (poweredDies s).contains rail then
        (s.modClk rail fun c => { c with beforeDip := if c.stretch then c.beforeDip else c.freq, stretch := true }).protectCheck rail 1
      else s

/-- DIP_RECOVERED: above UV_WARN for 1 µs. A stretch ends and the die runs as before the dip; what the rail now measures the manual leaves
open. -/
def State.dipEnds (rail : Nat) (s : State) : State :=
  if !railBelow s rail then s
  else
    let x := s.fresh
    let s := x.2.modSup rail fun y => { y with meas := x.1 % 2048, below := false, stretch := false }
    if rail < 4 ∧ (s.clk rail).stretch then
      (s.modClk rail fun c => { c with freq := c.beforeDip, stretch := false }).protectCheck rail 1
    else s

/-- The highest V/F point that a voltage in mV carries with 2 % to spare, or the lowest there is. -/
def pointFor (d mv : Nat) : Nat :=
  ((List.range 33).filter fun i => decide (100 * Config.vfVoltage d (1000 + 25 * i) ≤ 98 * mv)).foldl (fun m i => max m (1000 + 25 * i)) 1000

/-- DIP_TIMEOUT: the rail is still below UV_WARN after 100 µs. -/
def State.dipStays (rail mv : Nat) (s : State) : State :=
  if !railBelow s rail ∨ 94 * railSet s rail < 100 * mv then s
  else
    let s := s.modSup rail fun x => { x with meas := mv % 2048, stretch := false }
    if rail < 4 ∧ (s.clk rail).stretch then
      (s.modClk rail fun c => { c with freq := pointFor rail mv, stretch := false, raiseTo := none }).protectCheck rail 1
    else s

/-! ### The reference clock (R467) -/

def State.refLost (s : State) : State :=
  if s.rnd.lidTimed then { s with rnd := { s.rnd with refBack := false } }
  else
    let s := { s with rnd := { s.rnd with lidTimed := true, refBack := false } }
    let s := (s.journal { code := St.refclkLost, cls := Cls.info, blk := Blk.power }).dlDown
    s.each (List.range 4) fun p s => s.linkDown true p 0

def State.refBack (s : State) : State := if s.rnd.lidTimed then { s with rnd := { s.rnd with refBack := true } } else s

/-! ### Power states (R456 to R458) -/

/-- A power state is reached: POWER_STATE_SET's final record. -/
def State.reach (p : PState) (s : State) : State :=
  let owed := s.pwr.note
  let s := { s with pwr := { s.pwr with state := p, target := none, note := none, exitUp := false } }
  match owed with | none => s | some n => s.finalRecord n St.ok 0

/-- The live state of every cell is saved (R78, R80) and what the cells hold is lost with their power. -/
def State.saveCells (s : State) : State :=
  let s := s.each s.cells fun x s =>
    match x.2.ctx with
    | none => s
    | some o => if ctxGoing s o then s else (s.takeSave o x.1).saveImage o x.1 (imageOf s o x.1 x.2)
  { s with cells := mapTab {} (fun _ (c : Cell) => ({ ctx := c.ctx, failRnd := c.failRnd } : Cell)) s.cells }

/-- SHELF_ENTRY, at a boundary after the request: no course runs, so the dies are gated and HBM refreshes itself; D3hot is entered in the same way. -/
def State.shelfEntry (s : State) : State :=
  if !s.crs.running.isEmpty ∨ s.cells.any (fun x => x.2.f.running || x.2.b.running) ∨ s.pwr.since = some s.rnd.num then s
  else
    match s.pwr.target with
    | some .shelf => s.saveCells.reach .shelf
    | some .d3hot =>
      let s := if s.pwr.state = .shelf then s else s.saveCells
      { s with pwr := { s.pwr with state := .d3hot, target := none, crossed := [] } }
    | _ => s

/-- SHELF_EXIT_READY: the dies have power and their rows, HBM is out of self-refresh; the next boundary restores what was saved. -/
def State.shelfExitReady (s : State) : State :=
  if s.pwr.state = .shelf ∧ s.pwr.target.isSome ∧ s.pwr.target ≠ some .d3hot ∧ !s.pwr.exitUp then
    ({ s with pwr := { s.pwr with exitUp := true } }).each ((List.range 4).filter fun d => hasCd s d) fun d s => s.sendSetpoint d
  else s

/-- Cycle 28 of that boundary: the cells that held a context's state hold it again. -/
def State.restoreCells (s : State) : State :=
  s.each s.cells fun x s =>
    match x.2.ctx with
    | none => s
    | some o =>
      if !s.ups.saved.contains (saveKey o x.1) then s
      else match restoredImage s o x.1 with
        | some i => s.modCell x.1 fun c => c.restoreFrom i
        | none => s.journal { code := St.restoreFailed, cls := Cls.recovered, blk := Blk.cell, unit := x.1, ctx := o }

/-- PMCSR_D3HOT: a transition that is under way continues after the return to D0. -/
def State.d3hotAsked (s : State) : State :=
  if inD3 s || !s.rst.running then s
  else { s with pwr := { s.pwr with before := s.pwr.target.getD s.pwr.state, target := some .d3hot, exitUp := false, since := some s.rnd.num } }

/-- The records that were held for a queue pair are written in index order, the first with the event that its CQ asked for. -/
def State.writeHeld (qpn : Nat) (s : State) : State :=
  let q := s.qp qpn
  let fn := (s.ctx q.ctx).func
  if !hostOk s fn || !(q.state == .active || q.state == .revoked) then s
  else
    let s := s.modQp qpn fun q => { q with und := [], arm := q.arm && q.und.isEmpty }
    let s := s.each q.und fun i s => s.sendRec qpn i (look {} q.shadow (i % 2 ^ q.logCq))
    if q.arm && !q.und.isEmpty then
      s.event fn q.ring { etype := Ev.cqNotify, flags := 0, ctx := q.ctx, obj := qpn, rnd := 0, status := 0, detail := 0 }
    else s

/-- PMCSR_D0: back to the state before D3hot, by way of Shelf where the dies have lost power; the held records, then the kept events. -/
def State.d0 (s : State) : State :=
  if s.pwr.target = some .d3hot then
    let next := if s.pwr.before = s.pwr.state then none else some s.pwr.before
    let s := { s with pwr := { s.pwr with target := next } }
    s.each s.host.qps fun q s => s.writeHeld q.1
  else if s.pwr.state ≠ .d3hot then s
  else
    let s := { s with pwr := { s.pwr with state := .shelf, crossed := [], target := if s.pwr.before = PState.shelf then none else some s.pwr.before } }
    let s := if s.pwr.target.isNone then s.reach .shelf else s
    let s := s.each s.host.qps fun q s => s.writeHeld q.1
    s.each (List.range (s.host.numVf + 1)) fun fn s => s.drainEvents fn

/-! ### The commands -/

/-- RAIL_DIP (R460, R461). -/
def execRailDip (rail mv : Nat) (s : State) : Host.Outcome State Fault Refusal := act (okRail rail) s (s.dip rail mv)

/-- DIP_TIMEOUT (R461). -/
def execDipTimeout (rail mv : Nat) (s : State) : Host.Outcome State Fault Refusal := act (okRail rail) s (s.dipStays rail mv)

/-- DIP_RECOVERED (R461). -/
def execDipRecovered (rail : Nat) (s : State) : Host.Outcome State Fault Refusal := act (okRail rail) s (s.dipEnds rail)

/-- REFCLK_LOSS (R467). -/
def execRefclkLoss (s : State) : Host.Outcome State Fault Refusal := act true s s.refLost

/-- REFCLK_RESTORE (R467). -/
def execRefclkRestore (s : State) : Host.Outcome State Fault Refusal := act true s s.refBack

/-- CLOCK_LOOP_EVAL (R463, R464). -/
def execClockLoopEval (m : PowerSample) (s : State) : Host.Outcome State Fault Refusal := act true s (s.clockLoop m)

/-- VRC_ACK_RELEASE (R480). -/
def execVrcAckRelease (d : Nat) (s : State) : Host.Outcome State Fault Refusal := act (okCd d) s (s.vrcAck d)

/-- VRC_ACK_TIMEOUT (R480). -/
def execVrcAckTimeout (d : Nat) (s : State) : Host.Outcome State Fault Refusal := act (okCd d) s (s.vrcTimeout d)

/-- THERMAL_THROTTLE (R465). -/
def execThermalThrottle (d tj : Nat) (s : State) : Host.Outcome State Fault Refusal := act (okCd d) s (s.thermal d tj)

/-- THERMAL_TRIP (R465). -/
def execThermalTrip (d tj : Nat) (s : State) : Host.Outcome State Fault Refusal := act (okCd d) s (s.trip d tj)

/-- POWER_OVER_TDP (R465). -/
def execPowerOverTdp (watts : Nat) (s : State) : Host.Outcome State Fault Refusal := act true s (s.overTdp watts)

/-- SHELF_ENTRY (R457, R458). -/
def execShelfEntry (s : State) : Host.Outcome State Fault Refusal := act true s s.shelfEntry

/-- SHELF_EXIT_READY (R457). -/
def execShelfExitReady (s : State) : Host.Outcome State Fault Refusal := act true s s.shelfExitReady

/-- PMCSR_D3HOT (R458). -/
def execPmcsrD3hot (s : State) : Host.Outcome State Fault Refusal := act true s s.d3hotAsked

/-- PMCSR_D0 (R458). -/
def execPmcsrD0 (s : State) : Host.Outcome State Fault Refusal := act true s s.d0

end Sys2Proof.Machine
end

