-- ==== Sys2Proof/Machine/Security.lean ====
section
/-! DEFINITION. The Lid: measurement blocks (R403, R404), SPDM sessions and vendor-defined requests (R405 to R410), link IDE (R411, R413),
JTAG (R419). -/

namespace Sys2Proof.Machine

/-! ### Measurement (R403, R404) -/

def macsecMap (s : State) : Nat := ((List.range 12).map fun p => (s.port p).macsecUp % 16 * 16 ^ p).sum

/-- The 4 bytes of a grant in block 8. -/
def grantWord (g : Grant) : Nat := g.ctx % 4096 + b2n g.dbg * 2 ^ 12 + b2n g.prof * 2 ^ 13

/-- The 7 bytes of a stake set in block 9. -/
def stakeWord (s : State) (sid : Nat) : Nat :=
  let g := currentGen s sid
  pack [(0, 8, sid), (8, 16, g), (24, 32, ((genOf s sid g).map Gen.structSig).getD 0)]

/-- DMTF value type, size in bytes and value of a block. -/
def measBlock (s : State) (i : Nat) : Nat × Nat × Nat :=
  match i with
  | 1 => (0x00, 48, Config.measuredDigest 1 0)
  | 2 => (0x01, 48, Config.measuredDigest 2 (fwImage s))
  | 3 => (0x01, 48, (s.ups.cur.map UpsettImage.meas).getD 0)
  | 4 => (0x01, 48, (s.ups.staged.map UpsettImage.meas).getD 0)
  | 5 => (0x01, 48, Config.measuredDigest 5 0)
  | 6 => (0x82, 56, readIdent s + readCapsUnits s * 2 ^ 64 + (readCapsCount s - bits (readCapsCount s) 16 7 * 2 ^ 16) * 2 ^ 128
      + Config.fuseState * 2 ^ 192)
  | 7 => (0x83, 64, Config.policyBlock (s.lid.anchor.getD 0) (b2n s.lid.plainOk) (b2n s.lid.linkIde) (macsecMap s))
  | 8 => (0x83, 260, b2n s.lid.jtag + ((s.lid.grants.zip (List.range 64)).map fun x => grantWord x.1 * 2 ^ (32 + 32 * x.2)).sum)
  | _ =>
    let ids := (List.range 16).filter fun k => (s.stake k).reg
    (0x83, 7 * ids.length, ((ids.zip (List.range 16)).map fun x => stakeWord s x.1 * 2 ^ (56 * x.2)).sum)

/-- A block as GET_MEASUREMENTS returns it: index, specification, size, value type, value size, value. -/
def measBytes (s : State) (i : Nat) : List Nat :=
  let b := measBlock s i
  [i, 0x01, (b.2.1 + 3) % 256, (b.2.1 + 3) / 256, b.1, b.2.1 % 256, b.2.1 / 256] ++ (List.range b.2.1).map fun k => bytesAt b.2.2 k 1

def allBlocks (s : State) : List Nat := (List.range 9).flatMap fun i => measBytes s (i + 1)

/-- The measurement digest. -/
def measDigest (s : State) : Nat := Config.sha384 (allBlocks s)

/-! ### Sessions and vendor-defined requests (R405, R408) -/

def isOperator (s : State) (who : Nat) : Bool := s.lid.anchor == some who

/-- KEY_EXCHANGE: a session of the 8 over DOE or the 2 over MCTP, answered under the slot 1 key (R406). -/
def State.keyExchange (doe mutAuth : Bool) (who : Nat) (s : State) : State :=
  match ((List.range 10).filter fun n => (n < 8) = doe).find? fun n => !(s.sess n).isOpen with
  | none => s.emit (.spdmError none)
  | some n => ({ s with lid := { s.lid with
      sess := store {} s.lid.sess n { isOpen := true, doe := doe, who := who, mutAuth := mutAuth } } }).emit (.keyExchange n (signed s [n, who]))

def State.closeSpdm (n : Nat) (s : State) : State := { s with lid := { s.lid with sess := drop s.lid.sess n } }

/-- The generation of a slot as it is shown: every warm reset has added one to every slot's (R400). -/
def genShown (s : State) (k : KeySlot) : Nat := (k.gen + s.lid.warmGens) % 2 ^ 16

/-- How a vendor-defined request names the slot of its response, and that slot. -/
inductive VSlot where
  | tenant (n : Nat)
  | stake (n : Nat)
  | cak (n : Nat)

def VSlot.num (v : VSlot) : Nat := match v with | .tenant n => n | .stake n => n | .cak n => n
def VSlot.gen (v : VSlot) (s : State) : Nat :=
  match v with | .tenant n => genShown s (s.tkey n) | .stake n => genShown s (s.skey n) | .cak _ => 0

def State.refuse (s : State) : State := { s with lid := { s.lid with refused := sat 16 (s.lid.refused + 1) } }

/-- One vendor-defined request: refused with SPDM ERROR outside a session with mutual authentication, otherwise with the first failing
status, or carried out; its response. -/
def State.vendor (n msg : Nat) (v : VSlot) (checks : List (Bool × Nat)) (eff : State → State) (s : State) : State :=
  if !((s.sess n).isOpen && (s.sess n).mutAuth) then s.refuse.emit (.spdmError (some n))
  else
    match checks.find? Prod.fst with
    | some x => s.refuse.emit (.spdm n msg x.2 v.num (v.gen s))
    | none =>
      let s := eff s
      s.emit (.spdm n msg St.ok v.num (v.gen s))

/-! ### The requests (R408 to R410) -/

/-- Whether any slot is LIVE under a KEYID. -/
def keyIdLive (s : State) (k : Nat) : Bool :=
  (s.lid.tenant.any fun p => p.2.state == .live && p.2.keyId == k) || s.lid.stake.any fun p => p.2.state == .live && p.2.keyId == k

/-- The checks of R410 in their order. -/
def releaseChecks (s : State) (who : Nat) (r : KeyRel) : List (Bool × Nat) :=
  let flags := r.dbg || r.prof || r.hostWindow || r.requireIde || r.denyRoce
  let range := match r.kind with
    | 0 => decide (1 ≤ r.target) && decide (r.target < 4096)
    | 1 => decide (r.target < 16)
    | 2 => decide (r.target < 48)
    | _ => false
  let ready := match r.kind with
    | 0 => (s.ctx r.target).state == .created
    | 1 => (s.skey r.target).state == .empty
    | _ => true
  let idOk := match r.kind with
    | 0 => decide (1 ≤ r.keyId) && decide (r.keyId < 2 ^ 31)
    | 1 => decide (2 ^ 31 < r.keyId) && decide (r.keyId < 2 ^ 32)
    | _ => r.keyId == 0
  [(!range || !r.rsvdZero || (r.kind != 0 && flags) || (r.kind != 2 && r.ckn != 0), St.targetInvalid),
   (r.kind == 2 && !hasPort s (r.target / 4), St.unitAbsent),
   (!ready, St.targetInvalid),
   (!(isOperator s who || (r.kind == 0 && (s.ctx r.target).auth.isNone)), St.authorityMismatch),
   (!idOk || (r.kind != 2 && keyIdLive s r.keyId), St.keyidInUse),
   (r.measDigest != measDigest s, St.measurementChanged),
   (r.requireIde && !s.lid.linkIde, St.ideRequired),
   (s.lid.jtag && !r.dbg, St.consentRequired)]

def KeySlot.release (r : KeyRel) (k : KeySlot) : KeySlot := { bumpGen k with state := .live, keyId := r.keyId, key := r.key }

/-- A key release that has passed its checks. -/
def State.released (who : Nat) (r : KeyRel) (s : State) : State :=
  let s := { s with lid := { s.lid with released := sat 16 (s.lid.released + 1) } }
  match r.kind with
  | 0 => (s.modTkey r.target (KeySlot.release r)).modCtx r.target fun c => { c with
      state := .active, auth := some (c.auth.getD who), dbg := r.dbg, prof := r.prof, hostWindow := r.hostWindow
      requireIde := r.requireIde, denyRoce := r.denyRoce }
  | 1 => s.modSkey r.target (KeySlot.release r)
  | _ => s.modPort (r.target / 4) fun p => { p with
      caks := (p.caks.filter fun c => c.1 != r.target % 4) ++ [(r.target % 4, r.ckn, r.key)] }

def releaseSlot (r : KeyRel) : VSlot := match r.kind with | 0 => .tenant r.target | 1 => .stake r.target | _ => .cak r.target

def State.keyRelease (n : Nat) (r : KeyRel) (s : State) : State :=
  let who := (s.sess n).who
  s.vendor n 0x01 (releaseSlot r) (releaseChecks s who r) (fun s => s.released who r)

/-- The tenant authority of a context. -/
def isAuthority (s : State) (c who : Nat) : Bool := (s.ctx c).auth == some who

def State.keyRevoke (n c : Nat) (s : State) : State :=
  let who := (s.sess n).who
  s.vendor n 0x02 (.tenant c)
    [(c == 0 || decide (4095 < c) || !ctxActive s c, St.targetInvalid), (!(isAuthority s c who || isOperator s who), St.authorityMismatch)]
    (fun s => s.startRemoval c .revoke)

/-- CONSENT_SET: of the tenant authority, of the operator for context 0; a context without an authority takes none. -/
def State.consentSet (n c : Nat) (dbg prof : Bool) (s : State) : State :=
  let who := (s.sess n).who
  s.vendor n 0x03 (.tenant c) [(!(if c = 0 then isOperator s who else c < 4096 && isAuthority s c who), St.authorityMismatch)]
    (fun s => s.modCtx c fun x => { x with dbg := dbg, prof := prof })

/-- OPERATOR_SET: with zero the anchor is cleared, and an L-class reset follows the response. -/
def State.operatorSet (n digest : Nat) (s : State) : State :=
  let who := (s.sess n).who
  let ok := s.lid.anchor.isNone || isOperator s who
  let anchor := if digest = 0 then none else some digest
  let done := (s.sess n).isOpen && (s.sess n).mutAuth && ok
  let set := fun (s : State) =>
    if s.lid.anchor = anchor then s else ({ s with lid := { s.lid with anchor := anchor } }).measured
  let s := s.vendor n 0x04 (.tenant 0) [(!ok, St.authorityMismatch)] set
  if done && digest == 0 then s.lidReset .operatorCleared else s

def State.policySet (n : Nat) (plainOk : Bool) (s : State) : State :=
  let set := fun (s : State) => if s.lid.plainOk = plainOk then s else ({ s with lid := { s.lid with plainOk := plainOk } }).measured
  s.vendor n 0x05 (.tenant 0) [(!isOperator s (s.sess n).who, St.authorityMismatch)] set

/-- DEBUG_UNLOCK: of the operator, while every live tenant's authority has consented to debug. -/
def State.debugUnlock (n : Nat) (s : State) : State :=
  let agreed := s.lid.tenant.all fun p => p.1 == 0 || p.2.state != .live || (s.ctx p.1).dbg
  let set := fun (s : State) => if s.lid.jtag then s else ({ s with lid := { s.lid with jtag := true } }).measured
  s.vendor n 0x06 (.tenant 0) [(!isOperator s (s.sess n).who, St.authorityMismatch), (!agreed, St.consentRequired)] set

/-! ### Measurements, IDE, JTAG -/

/-- Measurements leave signed under the slot 1 key (R406). -/
def State.sendMeas (n idx : Nat) (bytes : List Nat) (s : State) : State := s.emit (.measurements n idx bytes (signed s bytes))

/-- GET_MEASUREMENTS: index 0 asks for the number of blocks, 0xFF for all of them. -/
def State.getMeasurements (n idx : Nat) (s : State) : State :=
  if !(s.sess n).isOpen || !s.lid.ready then s.emit (.spdmError (some n))
  else if idx = 0 then s.sendMeas n 0 [9]
  else if idx = 0xFF then s.sendMeas n idx (allBlocks s)
  else if idx ≤ 9 then s.sendMeas n idx (measBytes s idx)
  else s.emit (.spdmError (some n))

def State.setLinkIde (b : Bool) (s : State) : State :=
  if s.lid.linkIde = b then s else ({ s with lid := { s.lid with linkIde := b } }).measured

/-- IDE_KM over DOE: stream 0 is the link IDE stream, 1 to 8 are selective ones. -/
def State.ideKm (n stream : Nat) (s : State) : State :=
  if !((s.sess n).isOpen && (s.sess n).doe) then s.emit (.spdmError (some n))
  else if stream = 0 then s.setLinkIde true
  else { s with lid := { s.lid with ideStreams := (s.lid.ideStreams.filter fun x => x != stream) ++ [stream] } }

/-! ### The commands -/

/-- IDE_INSECURE (R411, R413). -/
def execIdeInsecure (s : State) : Host.Outcome State Fault Refusal := act true s (s.setLinkIde false)

/-- JTAG_INSTRUCTION (R419). -/
def execJtagInstruction (boundary : Bool) (s : State) : Host.Outcome State Fault Refusal := act true s (s.emit (.jtag (boundary || s.lid.jtag)))

/-- GET_MEASUREMENTS (R403, R404). -/
def execGetMeasurements (sess idx : Nat) (s : State) : Host.Outcome State Fault Refusal := act (okSess sess) s (s.getMeasurements sess idx)

/-- IDE_KM (R413). -/
def execIdeKm (sess stream : Nat) (s : State) : Host.Outcome State Fault Refusal := act (okSess sess && okSel stream) s (s.ideKm sess stream)

/-- KEY_RELEASE (R409, R410). -/
def execKeyRelease (sess : Nat) (r : KeyRel) (s : State) : Host.Outcome State Fault Refusal := act (okSess sess) s (s.keyRelease sess r)

/-- KEY_REVOKE (R408, R415). -/
def execKeyRevoke (sess ctx : Nat) (s : State) : Host.Outcome State Fault Refusal := act (okSess sess) s (s.keyRevoke sess ctx)

/-- CONSENT_SET (R408). -/
def execConsentSet (sess ctx : Nat) (dbg prof : Bool) (s : State) : Host.Outcome State Fault Refusal :=
  act (okSess sess) s (s.consentSet sess ctx dbg prof)

/-- OPERATOR_SET (R408). -/
def execOperatorSet (sess digest : Nat) (s : State) : Host.Outcome State Fault Refusal := act (okSess sess) s (s.operatorSet sess digest)

/-- POLICY_SET (R408). -/
def execPolicySet (sess : Nat) (cxlPlainOk : Bool) (s : State) : Host.Outcome State Fault Refusal := act (okSess sess) s (s.policySet sess cxlPlainOk)

/-- DEBUG_UNLOCK (R408, R419). -/
def execDebugUnlock (sess : Nat) (s : State) : Host.Outcome State Fault Refusal := act (okSess sess) s (s.debugUnlock sess)

/-- SPDM_HEARTBEAT_TIMEOUT (R405). -/
def execSpdmHeartbeatTimeout (sess : Nat) (s : State) : Host.Outcome State Fault Refusal := act (okSess sess) s (s.closeSpdm sess)

/-- KEY_EXCHANGE (R405). -/
def execKeyExchange (doe mutAuth : Bool) (requester : Nat) (s : State) : Host.Outcome State Fault Refusal :=
  act true s (s.keyExchange doe mutAuth requester)

end Sys2Proof.Machine
end

