-- ==== Sys2Proof/Machine/SystemCmds.lean ====
section
/-! DEFINITION. The security, fault and power command groups (R387, R388): KEY_QUERY and grants (R398, R418), FAULT_QUERY and JOURNAL_READ
(R433, R434, R436), power limits and states (R456, R464). -/

namespace Sys2Proof.Machine

/-! ### Keys and grants -/

def kStateCode (k : KState) : Nat := match k with | .empty => 0 | .live => 1 | .revoked => 2 | .zeroising => 3

/-- KEY_QUERY: tenant slot n as n, stake-set slot s as 0x1000 + s. -/
def keyQuery (q : Req) (s : State) : Reply × State :=
  let n := q.at 0 2
  let k := if n < 4096 then s.tkey n else s.skey (n - 4096)
  checked [(decide (4112 ≤ n), badField 0)] (answerOf 10 (pack [(0, 8, kStateCode k.state), (32, 32, k.keyId), (64, 16, genShown s k)]), s) s

/-- DEBUG_REQUEST: every scope asked for needs the consent of the context's authority. -/
def debugRequest (q : Req) (s : State) : Reply × State :=
  let c := q.at 0 2
  let x := s.ctx c
  let dbg := q.bit 2 0
  let prof := q.bit 2 1
  let id := s.lid.nextGrant
  checked [(decide (4095 < c) || !ctxActive s c, fail St.ctxInvalid), (!dbg && !prof, badField 2),
      ((dbg && !x.dbg) || (prof && !x.prof), fail St.consentRequired), (decide (64 ≤ s.lid.grants.length), fail St.grantLimit)]
    (answerOf 4 id, ({ s with lid := { s.lid with
      grants := s.lid.grants ++ [(⟨id, c, dbg, prof⟩ : Grant)], nextGrant := (id + 1) % 2 ^ 32 } }).measured) s

/-- A grant of another context is not the caller's. -/
def ownsGrant (s : State) (q : Req) : Bool := s.lid.grants.all fun g => g.id != q.at 0 4 || g.ctx == q.ctx

/-- DEBUG_RELEASE. -/
def debugRelease (q : Req) (s : State) : Reply × State :=
  let id := q.at 0 4
  checked [(s.lid.grants.all fun g => g.id != id, fail St.grantUnknown)]
    ({}, ({ s with lid := { s.lid with grants := s.lid.grants.filter fun g => g.id != id } }).measured) s

/-- Grants whose consent has been withdrawn end at the boundary (R418). -/
def State.endGrants (s : State) : State :=
  let stays := fun (g : Grant) => (!g.dbg || (s.ctx g.ctx).dbg) && (!g.prof || (s.ctx g.ctx).prof)
  if s.lid.grants.all stays then s else ({ s with lid := { s.lid with grants := s.lid.grants.filter stays } }).measured

/-! ### Faults -/

/-- Work that has been accepted and is still running: kind, context, tag, PROGRESS so far and generation stamp (R432, R433). -/
structure Running where
  kind : Nat
  ctx  : Nat
  tag  : Nat
  progress : Nat
  gen  : Nat

/-- Long mailbox work that still owes its final record. -/
def owed (s : State) : List (Notice × Nat) :=
  (s.mem.works.map fun w => (w.note, 0))
    ++ (s.stakes.flatMap fun k => (k.2.build.toList.map fun b => (b.note, (k.2.gen b.slot).done)) ++ (k.2.commit.toList.map fun c => (c.note, 0))
        ++ k.2.evictNotes.map fun n => (n, 0))
    ++ (s.weav.dir.flatMap fun w => w.2.removers.map fun n => (n, 0))
    ++ (s.host.qps.flatMap fun q => (q.2.destroy.toList.map fun n => (n, 0)) ++ q.2.redeliver.toList.map fun n => (n.1, 0))
    ++ (s.host.apers.flatMap fun a => a.2.unbind.toList.map fun n => (n, 0))
    ++ (s.host.mrs.flatMap fun m => m.2.dereg.toList.map fun n => (n, 0))
    ++ (s.ctxs.flatMap fun c => (c.2.reset.toList.map fun n => (n, 0))
        ++ match c.2.why with | some (.remove n) => [(n, 0)] | _ => [])
    ++ s.pwr.note.toList.map fun n => (n, 0)

/-- The tokens that a SERVE descriptor has produced so far. -/
def producedOf (s : State) (qpn idx : Nat) : Option Nat :=
  ((s.crs.waiting ++ s.crs.running.flatMap Course.hostRows).find? fun r => r.qpn == qpn && r.idx == idx).map Seq.produced

def running (s : State) : List Running :=
  (s.host.qps.flatMap fun q => (q.2.descs ++ q.2.recvs).map fun x =>
      { kind := 0, ctx := q.2.ctx, tag := jobTag x.raw, progress := (producedOf s q.1 x.idx).getD x.done, gen := 0 })
    ++ (s.crs.running.flatMap fun c => c.hostRows.map fun r => { kind := 1, ctx := r.ctx, tag := r.tag, progress := r.produced, gen := c.gen })
    ++ (s.train.jobs.flatMap fun j => j.2.note.toList.map fun n =>
        { kind := 2, ctx := n.ctx, tag := n.tag, progress := j.2.published, gen := j.2.gen })
    ++ (owed s).map fun x => { kind := 2, ctx := x.1.ctx, tag := x.1.tag, progress := x.2, gen := 0 }

/-- The entries still held that name a tag of a context, and the SEQ of the first of them. -/
def entriesOf (s : State) (ctx tag : Nat) : Nat × Option Nat :=
  let es := s.flt.ring.filter fun p => p.2.tag == tag && p.2.ctx == ctx
  (es.length, (es.map fun p => p.2.seq).min?)

/-- FAULT_QUERY: running work before finished work, the newest piece of finished work under a tag. -/
def faultQuery (q : Req) (s : State) : Reply × State :=
  let tag := q.at 0 8
  let c := q.at 8 2
  let kind := q.at 10 1
  let es := entriesOf s c tag
  let rsp := fun (progress rnd gen status : Nat) => (answerOf 20 (pack [(0, 32, sat 32 progress), (32, 64, rnd), (96, 16, gen), (112, 16, status),
    (128, 16, (es.2.getD 0) % 4096), (144, 16, es.1)]), s)
  if 2 < kind then (badField 10, s)
  else
    match (running s).find? fun x => x.kind == kind && x.ctx == c && x.tag == tag with
    | some x => rsp x.progress s.rnd.num x.gen St.pending
    | none =>
      match s.flt.sums.find? fun x => x.kind == kind && x.ctx == c && x.tag == tag with
      | some x => rsp x.progress x.rnd x.gen x.status
      | none => (fail St.jobUnknown, s)

/-- What JOURNAL_READ copies for a caller: the entries that it may see among COUNT indices; under a debug grant an entry's save image
follows it (R417). -/
def journalBytes (s : State) (ctx first count : Nat) : List Byte :=
  (List.range count).flatMap fun i =>
    let e := look {} s.flt.ring ((first + i) % 4096)
    if e.seq = 0 ∨ (ctx ≠ 0 ∧ e.ctx ≠ ctx) then []
    else
      leBytes 64 (jBytes e) ++
        match s.flt.images.find? fun x => x.1 == e.seq with
        | some x => if s.lid.grants.any (fun g => g.dbg && g.ctx == x.2.ctx) then imageBytes x.2 ++ leBytes 4 x.2.check else []
        | none => []

/-- JOURNAL_READ: refused, done, or waiting for a frame of the caller's buffer; the state carries the wait. -/
def journalRead (q : Req) (s : State) : Option Reply × State :=
  let first := q.at 0 2
  let count := q.at 2 2
  if 4095 < first then (some (badField 0), s)
  else if 64 < count then (some (badField 2), s)
  else
    let bs := journalBytes s q.ctx first count
    let w := if bs.isEmpty then (Except.ok (), s) else s.writeDva q.ctx (q.at 8 8) bs
    match w.1 with
    | .ok () => (some (answerOf 2 ((first + count) % 4096)), w.2.charge Act.mgmt (rangeCost s q.ctx (q.at 8 8) bs.length))
    | .error (.fails st) => (some (fail st), s)
    | .error (.poison _ _) => (some (fail St.dataPoisoned), s)
    | .error .waits => (none, w.2)

def journalLayout : Layout := { op := 0x0902, len := 16, fields := [fBytes 0 2, fBytes 2 2, fBytes 8 8] }

/-- JOURNAL_READ on a channel; while it waits the channel stays BUSY. -/
def State.journalCommand (ch : Nat) (s : State) : State :=
  let c := s.chan ch
  let r := reqNat c
  let busy := chanState c == Ch.busy && bytesAt r 0 2 == journalLayout.op && turnOf s ch journalLayout.op
  let x := journalRead (reqOf c r) s
  if busy && (checkReq s journalLayout true ownsAny c (reqOf c r) r).isNone && x.1.isNone then x.2
  else s.command journalLayout true ownsAny (fun q s => let y := journalRead q s; (y.1.getD {}, y.2)) ch

/-! ### Power -/

def clockBad (f : Nat) : Bool := decide (f < 1000) || decide (1800 < f) || f % 25 != 0

/-- POWER_LIMIT_SET. -/
def powerLimitSet (q : Req) (s : State) : Reply × State :=
  let cap := q.at 0 2
  let lo := q.at 2 2
  let hi := q.at 4 2
  checked [(decide (cap < 1000) || decide (tdp s < cap), badField 0), (clockBad lo, badField 2), (clockBad hi || decide (hi < lo), badField 4)]
    ({}, { s with pwr := { s.pwr with cap := cap, fmin := lo, fmax := hi } }) s

/-- The change that POWER_STATE_SET asks for (R456): none where the device is already there; `error` for one that the table lacks. -/
def powerChange (p : PState) (n : Nat) : Except Unit (Option PState) :=
  match n, p with
  | 0, .active | 1, .idleHold | 2, .shelf => .ok none
  | 0, _ => .ok (some .active)
  | 1, .active => .ok (some .idleHold)
  | 2, .active | 2, .idleHold => .ok (some .shelf)
  | _, _ => .error ()

/-- POWER_STATE_SET. -/
def powerStateSet (q : Req) (s : State) : Reply × State :=
  if s.pwr.target.isSome then (fail St.powerBusy, s)
  else
    match powerChange s.pwr.state (q.at 0 1) with
    | .error () => (badField 0, s)
    | .ok none => (pendingReply, s.finalRecord q.note St.ok 0)
    | .ok (some p) => (pendingReply, { s with pwr := { s.pwr with target := some p, note := some q.note, exitUp := false, since := some s.rnd.num } })

/-- POWER_QUERY: the lowest clock of the fitted dies. -/
def powerQuery (_ : Req) (s : State) : Reply × State :=
  let clocks := ((List.range 4).filter fun d => hasCd s d).map fun d => (s.clk d).freq
  (answerOf 16 (pack [(0, 8, pwrCode s.pwr.state), (16, 16, clocks.min?.getD 0), (32, 16, s.pwr.watts), (64, 64, readFault s 0x18)]), s)

/-! ### The commands -/

def keyQueryLayout : Layout := { op := 0x0801, len := 2, fields := [fBytes 0 2] }

/-- KEY_QUERY (R387, R398, R399). -/
def execKeyQuery (ch : Nat) (s : State) : Host.Outcome State Fault Refusal :=
  act (okChan ch) s (s.command keyQueryLayout true (ownsCtx 0) keyQuery ch)

def debugRequestLayout : Layout := { op := 0x0802, len := 3, fields := [fBytes 0 2, fBits 2 2] }

/-- DEBUG_REQUEST (R387, R418). -/
def execDebugRequest (ch : Nat) (s : State) : Host.Outcome State Fault Refusal :=
  act (okChan ch) s (s.command debugRequestLayout true (ownsCtx 0) debugRequest ch)

def debugReleaseLayout : Layout := { op := 0x0803, len := 4, fields := [fBytes 0 4] }

/-- DEBUG_RELEASE (R387, R418). -/
def execDebugRelease (ch : Nat) (s : State) : Host.Outcome State Fault Refusal :=
  act (okChan ch) s (s.command debugReleaseLayout true (ownsGrant s) debugRelease ch)

def faultQueryLayout : Layout := { op := 0x0901, len := 11, fields := [fBytes 0 8, fBytes 8 2, fBytes 10 1] }

/-- FAULT_QUERY (R388, R433, R434). -/
def execFaultQuery (ch : Nat) (s : State) : Host.Outcome State Fault Refusal :=
  act (okChan ch) s (s.command faultQueryLayout true (ownsCtx 8) faultQuery ch)

/-- JOURNAL_READ (R388, R436). -/
def execJournalRead (ch : Nat) (s : State) : Host.Outcome State Fault Refusal := act (okChan ch) s (s.journalCommand ch)

def powerLimitSetLayout : Layout := { op := 0x0A01, len := 6, admin := true, fields := [fBytes 0 2, fBytes 2 2, fBytes 4 2] }

/-- POWER_LIMIT_SET (R388, R464). -/
def execPowerLimitSet (ch : Nat) (s : State) : Host.Outcome State Fault Refusal :=
  act (okChan ch) s (s.command powerLimitSetLayout true ownsAny powerLimitSet ch)

def powerStateSetLayout : Layout := { op := 0x0A02, len := 1, admin := true, long := true, fields := [fBytes 0 1] }

/-- POWER_STATE_SET (R388, R456). -/
def execPowerStateSet (ch : Nat) (s : State) : Host.Outcome State Fault Refusal :=
  act (okChan ch) s (s.command powerStateSetLayout true ownsAny powerStateSet ch)

def powerQueryLayout : Layout := { op := 0x0A03 }

/-- POWER_QUERY (R388). -/
def execPowerQuery (ch : Nat) (s : State) : Host.Outcome State Fault Refusal :=
  act (okChan ch) s (s.command powerQueryLayout true ownsAny powerQuery ch)

end Sys2Proof.Machine
end

