-- ==== Sys2Proof/Machine/DeviceCmds.lean ====
section
/-! DEFINITION. The device command group (R378, R380, R389): capabilities, DEVICE_RESET, port addresses, channels, firmware update. -/

namespace Sys2Proof.Machine

/-! ### Capabilities (R378) -/

/-- Whether an opcode completes without UNIT_ABSENT on this part. -/
def opcodeServed (s : State) (op : Nat) : Bool :=
  opcodeKnown op && !(op / 256 == 7 && !hasTrain s) && !(op == 0x0603 && s.variant == .c)

/-- The security version of the firmware in a bank. -/
def fwSecurity (s : State) (bank : Nat) : Nat :=
  match look 0 s.fw.crcs bank with | 0 => Config.shippedSvn bank | n + 1 => Config.fwSvn n

/-- DEV_CAPS. -/
def devCaps (q : Req) (s : State) : Reply × State :=
  let fn := (s.ctx q.ctx).func
  let chans := bitmap 64 fun n => (s.chan n).assigned && (s.chan n).func == fn
  let maps := (List.range 10).map fun g => (512 + 256 * g, 256, bitmap 32 fun n => opcodeServed s (256 * (g + 1) + n))
  (answerOf 384 (pack ([(0, 64, readIdent s), (64, 64, readCapsUnits s), (128, 64, readCapsCount s), (192, 32, readFwVer s),
    (224, 32, fwSecurity s s.fw.bank), (256, 64, chans)] ++ maps)), s)

/-! ### Reset, ports, channels -/

/-- DEVICE_RESET: the first boundary at least 2 rounds after the response (R484). -/
def deviceReset (_ : Req) (s : State) : Reply × State :=
  ({}, { s with rst := { s.rst with devReset := some (s.rst.devReset.getD (s.rnd.num + 2)) } })

/-- PORT_ADDR_SET (R316). -/
def portAddrSet (q : Req) (s : State) : Reply × State :=
  let p := q.at 0 1
  checked [(decide (12 ≤ p), badField 0)]
    ({}, s.modPort p fun x => { x with ipv6 := q.at 2 16, ipv4 := q.at 18 4, v4valid := q.bit 1 0, nextHop := q.at 22 6 }) s

/-- CHANNEL_ASSIGN: a channel changes its context by way of UNASSIGN, and not while a command or response stands in it. -/
def channelAssign (q : Req) (s : State) : Reply × State :=
  let n := q.at 0 1
  let c := q.at 2 2
  let x := s.chan n
  let out := q.bit 4 0
  let bind := fun (x : Chan) => { x with assigned := true, ctx := c, func := (s.ctx c).func, state := Ch.idle }
  checked [(n == 0 || decide (63 < n), badField 0), (if out then chanState x != Ch.idle else x.assigned, badField 0),
      (!out && (decide (4095 < c) || (s.ctx c).state == .free || ctxGoing s c), fail St.ctxInvalid)]
    ({}, s.modChan n fun x => if out then { x with assigned := false, ctx := 0, func := 0, state := Ch.idle } else bind x) s

/-! ### Firmware (R389) -/

/-- A range joins the ranges that have been staged, which stay disjoint and rising. -/
def cover (a b : Nat) : List (Nat × Nat) → List (Nat × Nat)
  | [] => [(a, b)]
  | (c, d) :: r =>
    if b < c then (a, b) :: (c, d) :: r
    else if d < a then (c, d) :: cover a b r
    else cover (min a c) (max b d) r

def stagedBytes (xs : List (Nat × Nat)) : Nat := (xs.map fun x => x.2 - x.1).sum

/-- FW_STAGE: into the bank that is not running; a mark on it is cleared. -/
def fwStage (q : Req) (s : State) : Reply × State :=
  let off := q.at 8 4
  let n := q.at 12 4
  if 4194304 < n then (badField 12, s)
  else
    let r := s.readOwn q.ctx (q.at 0 8) n
    let s := r.2
    match r.1 with
    | .error st => (fail st, s)
    | .ok bs =>
      let f := s.fw
      let xs := if n = 0 then f.covered else cover off (off + n) f.covered
      (answerOf 4 (stagedBytes xs), { s with fw := { f with
        boot := f.bank, marked := false, stagedVer := 0, image := wrBytes f.image off bs, covered := xs } })

/-- FW_ACTIVATE: the staged bytes cover the image and have its CRC, the Lid accepts signature and security version. -/
def fwActivate (q : Req) (s : State) : Reply × State :=
  let n := q.at 0 4
  let crc := q.at 4 4
  let f := s.fw
  let whole := f.covered.any fun x => x.1 == 0 && decide (n ≤ x.2)
  let good := crc32c ((rdBytes f.image 0 n).map BitVec.toNat) == crc && Config.fwSignatureOk crc n
  let other := 1 - f.bank
  let v := Config.fwVersion crc
  checked [(!whole, fail St.fwStageIncomplete), (!good, fail St.fwImageInvalid), (decide (Config.fwSvn crc < Config.minSvn), fail St.fwSvnRefused)]
    (answerOf 4 v, { s with fw := { f with
      boot := other, marked := true, stagedVer := v, ver := store 0 f.ver other v, crcs := store 0 f.crcs other (crc + 1) } }) s

/-- FW_QUERY. -/
def fwQuery (_ : Req) (s : State) : Reply × State :=
  (answerOf 18 (pack [(0, 32, fwVer s s.fw.bank), (32, 32, s.fw.stagedVer), (64, 32, fwVer s (1 - s.fw.bank)), (96, 32, Config.minSvn),
    (128, 8, s.fw.boot), (136, 1, b2n s.fw.fallback)]), s)

/-! ### The commands -/

def devCapsLayout : Layout := { op := 0x0101 }

/-- DEV_CAPS (R378, R380). -/
def execDevCaps (ch : Nat) (s : State) : Host.Outcome State Fault Refusal := act (okChan ch) s (s.command devCapsLayout true ownsAny devCaps ch)

def deviceResetLayout : Layout := { op := 0x0102, admin := true }

/-- DEVICE_RESET (R380, R450). -/
def execDeviceReset (ch : Nat) (s : State) : Host.Outcome State Fault Refusal :=
  act (okChan ch) s (s.command deviceResetLayout true ownsAny deviceReset ch)

def portAddrSetLayout : Layout :=
  { op := 0x0103, len := 28, admin := true, fields := [fBytes 0 1, fBits 1 1, fBytes 2 16, fBytes 18 4, fBytes 22 6]
    absent := fun s q => portAbsent s (q.at 0 1) }

/-- PORT_ADDR_SET (R316, R380). -/
def execPortAddrSet (ch : Nat) (s : State) : Host.Outcome State Fault Refusal :=
  act (okChan ch) s (s.command portAddrSetLayout true ownsAny portAddrSet ch)

def channelAssignLayout : Layout := { op := 0x0104, len := 5, admin := true, fields := [fBytes 0 1, fBytes 2 2, fBits 4 1] }

/-- CHANNEL_ASSIGN (R368, R380). -/
def execChannelAssign (ch : Nat) (s : State) : Host.Outcome State Fault Refusal :=
  act (okChan ch) s (s.command channelAssignLayout true ownsAny channelAssign ch)

def fwStageLayout : Layout := { op := 0x0105, len := 16, admin := true, fields := [fBytes 0 8, fBytes 8 4, fBytes 12 4] }

/-- FW_STAGE (R380, R389). -/
def execFwStage (ch : Nat) (s : State) : Host.Outcome State Fault Refusal :=
  act (okChan ch) s (s.command fwStageLayout true ownsAny fwStage ch)

def fwActivateLayout : Layout := { op := 0x0106, len := 8, admin := true, fields := [fBytes 0 4, fBytes 4 4] }

/-- FW_ACTIVATE (R380, R389). -/
def execFwActivate (ch : Nat) (s : State) : Host.Outcome State Fault Refusal :=
  act (okChan ch) s (s.command fwActivateLayout true ownsAny fwActivate ch)

def fwQueryLayout : Layout := { op := 0x0107 }

/-- FW_QUERY (R380, R389). -/
def execFwQuery (ch : Nat) (s : State) : Host.Outcome State Fault Refusal := act (okChan ch) s (s.command fwQueryLayout true ownsAny fwQuery ch)

end Sys2Proof.Machine
end

