-- ==== Sys2Proof/Machine/Probes.lean ====
section
/-! DEFINITION. The numeric check of carry-over (R175, R189, R190): the probe set and the probe course plan of an image, probe courses, their
results, and the outcome. -/

namespace Sys2Proof.Machine

/-! ### The probe set and the probe course plan (R175) -/

/-- The probe set of an image: sequences, tokens of each, outputs of each, and where the token IDs begin. -/
structure ProbeSet where
  n      : Nat
  len    : Nat
  width  : Nat
  tokens : Nat
  deriving DecidableEq, Repr

/-- Where a section of an image part begins, and its length. -/
def genSect (g : Gen) (kind : Nat) : Option (Nat × Nat) := (g.sections.find? fun x => x.kind == kind).map fun x => (4096 * x.offset, 4096 * x.length)

/-- The probe set that an image holds; none where its header is not one. -/
def probeSet (s : State) (g : Gen) : Option ProbeSet :=
  match genSect g 4 with
  | none => none
  | some (o, _) =>
    let v := leNat (copyRead s g.frames o 16)
    let x : ProbeSet := { n := bytesAt v 0 2, len := bytesAt v 2 2, width := bytesAt v 4 4, tokens := o + 16 }
    if 1 ≤ x.n ∧ x.n ≤ 64 ∧ 1 ≤ x.len ∧ x.len ≤ 256 ∧ 1 ≤ x.width ∧ x.width ≤ 4096 ∧ v / 2 ^ 64 = 0 then some x else none

/-- The probe course plan of an image: charged to SWAP, its inputs token IDs and its outputs FP32 values. -/
def probePlan (s : State) (g : Gen) : Option Plan :=
  match genSect g 5 with
  | none => none
  | some (o, n) =>
    (Config.planOf fun i => if i < n then (copyRead s g.frames (o + i) 1).getD 0 0 else 0).map fun p => { p with cls := Act.swap, inRec := 4, outRec := 4 }

/-- Whether a line of the probe sections waits for its repair. -/
def probeBad (s : State) (g : Gen) : Bool :=
  [4, 5].any fun k => (genSect g k).elim false fun x => (pieces x.1 x.2).any fun y => (g.frames[y.1]?).elim false fun f => lineBad s f y.2.1 y.2.2.2

/-! ### Packs (R189) -/

/-- Whether a weaver's carry-over to a generation is still to be checked. -/
def probing (s : State) (sid gen h : Nat) : Bool :=
  let w := s.weaver h
  w.state != .free && w.sid == sid && w.carry == .pending && w.carryGen == gen

/-- The next weavers whose probes go together, in ascending handle order. DESIGN CHOICE: a pack never holds more weavers than a course may hold
segments (R18), and a generation without a probe set has packs of one. -/
def nextPack (s : State) (sid gen : Nat) : List Nat :=
  let n := ((genOf s sid gen).bind (probeSet s)).elim 1024 ProbeSet.n
  (keysWhere s.weav.dir fun h _ => probing s sid gen h).take (min 256 (1024 / n))

/-- A check of a generation's next pack, its courses counted on from `pos`; none when no weaver is left. DESIGN CHOICE: an image without a probe set
or a plan that can be read fails the check. -/
def checkFrom (s : State) (sid gen pos : Nat) : Option ProbeRun :=
  match nextPack s sid gen, genOf s sid gen with
  | h :: r, some g =>
    let none := (probeSet s g).isNone || (probePlan s g).isNone
    some { sid := sid, gen := gen, pack := h :: r, pos := pos, ready := none, failed := none }
  | _, _ => none

/-- The device whose firmware decides (R190): the lead of the probe courses. -/
def decidesCarry (s : State) (p : Option Plan) : Bool := p.elim true fun p => !p.multi || p.lead == s.hoop.pos

/-! ### Probe courses (R24, R103, R189) -/

/-- A row of a probe course: sequence `r` of the weaver at place `i` of its pack. -/
def probeRow (x : ProbeSet) (ctx handle i r : Nat) : Seq :=
  { qpn := 2 ^ 32 - 1, idx := 0, tag := 0, ctx := ctx, handle := some handle, sid := 0, session := 0, oneShot := true, opens := false, closes := false
    plan := 0, inp := x.tokens + 4 * x.len * r, nin := x.len, maxtok := x.width, out := 4 * x.width * (i * x.n + r), hostout := 0, fence := false
    order := 2 ^ 64, produced := 0, parked := 0, parkRounds := 0, carried := false, gone := false }

/-- The pack's course on a generation, at its position in the check. -/
def probeShape (s : State) (p : ProbeRun) (x : ProbeSet) (plan : Plan) (gen : Nat) : Course :=
  let live := (p.pack.zip (List.range p.pack.length)).filter fun y => probing s p.sid p.gen y.1
  let rows := live.flatMap fun y => (List.range x.n).map fun r => probeRow x (s.weaver y.1).ctx y.1 y.2 r
  { id := 0, plan := plan, ctx := rowsCtx rows, sid := p.sid, gen := gen, rows := rows, segs := segsOf s rows
    seed := { course := p.pos % 2 ^ 32 }, probe := some (p.sid, p.gen) }

/-- The probe course that may start: on the generation to which the pack's weavers are bound, then on the new one, once every weaver is RESIDENT. -/
def dueProbe (s : State) : List Course :=
  match s.crs.probe with
  | none => []
  | some p =>
    match genOf s p.sid p.gen with
    | none => []
    | some g =>
      match probeSet s g, probePlan s g with
      | some x, some plan =>
        let old := (s.weaver (p.pack.headD 0)).genBound
        let c := probeShape s p x plan (if p.pos % 2 = 0 then old else p.gen)
        let again := p.ready || s.crs.running.any fun c => c.probe.isSome
        let starts := genStarts s p.sid c.gen || c.gen == p.gen && g.state == .ready
        if again || c.rows.isEmpty || !starts || probeBad s g || !c.segs.all (segUsable s) || !courseTold s c old then [] else [c]
      | _, _ => []

/-! ### The outcome (R189, R190) -/

/-- The largest element and its lowest index. -/
def bestOf (xs : List FVal) : Nat × FVal :=
  (xs.zip (List.range xs.length)).foldl (fun b x => if x.2 = 0 ∨ b.2.lt x.1 then (x.2, x.1) else b) (0, .zero)

/-- a_r and d_r of one probe sequence. -/
def probeOf (o q : List FVal) : Nat × FVal :=
  let bo := bestOf o
  let bq := bestOf q
  let ds := (o.zip q).map fun x => ((rnd32 ((rnd32 (x.1.sub bo.2)).sub (rnd32 (x.2.sub bq.2))))).abs
  (b2n (bo.1 == bq.1), if (o ++ q).any FVal.isNan ∨ ds.any FVal.isNan then .nan else ds.foldl (fun m d => if m.lt d then d else m) .zero)

/-- The outputs of one probe sequence in a result buffer. DESIGN CHOICE: outputs with a poisoned line are taken as NaN. -/
def probeOut (s : State) (new : Bool) (x : ProbeSet) (place r : Nat) : List FVal :=
  let ps := pieces (4 * x.width * (place * x.n + r)) (4 * x.width)
  if ps.any fun y => lineBad s (resultFrame new y.1) y.2.1 y.2.2.2 then [.nan]
  else f32s x.width (ps.flatMap fun y => frameRead s (resultFrame new y.1) y.2.1 y.2.2.2)

/-- The outcome of a check over its sequences: passed, the sum of a_r, the largest d_r. A NaN, of a d_r or of DIV_MAX, lets nothing pass. -/
def checkOutcome (g : Gen) (ps : List (Nat × FVal)) : Bool × Nat × FVal :=
  let sum := (ps.map Prod.fst).sum
  let max := decF (ffmt 0) g.divMax
  let mx := ps.foldl (fun m x => if m.lt x.2 then x.2 else m) FVal.zero
  if ps.any fun x => x.2.isNan then (false, sum, .nan)
  else (decide (g.agreeMin ≤ sum) && !max.isNan && !max.lt mx, sum, mx)

/-- The outcome for the weaver at a place of its pack. -/
def probeOutcome (s : State) (p : ProbeRun) (g : Gen) (place : Nat) : Bool × Nat × FVal :=
  match probeSet s g with
  | none => (false, 0, .nan)
  | some x =>
    if p.failed then (false, 0, .nan)
    else checkOutcome g ((List.range x.n).map fun r => probeOf (probeOut s false x place r) (probeOut s true x place r))

/-- The numeric check of a weaver whose probe courses have finished: CARRY, the sum of a_r and the largest d_r, decided at the lead and sent to every
other device (R190). -/
def State.carryCheck (h : Nat) (s : State) : State :=
  match s.crs.probe with
  | none => s
  | some p =>
    match genOf s p.sid p.gen with
    | none => s
    | some g =>
      let plan := probePlan s g
      if !p.ready ∨ !p.pack.contains h ∨ !probing s p.sid p.gen h ∨ !decidesCarry s plan then s
      else
        let r := probeOutcome s p g (p.pack.findIdx (· == h))
        let s := s.modWeaver h fun w => { w with
          carry := if r.1 then .passed else .failed, carrySum := r.2.1, carryMax := roundF (ffmt 0) 0 0 r.2.2 }
        if plan.any Plan.multi then s.emit (.carry h r.1) else s

/-- The outcome that the lead device decided. -/
def State.carryOutcome (h : Nat) (ok : Bool) (s : State) : State :=
  if (s.weaver h).carry = .pending then s.modWeaver h fun w => { w with carry := if ok then .passed else .failed } else s

/-- The generations of every stake set. -/
def newGens (s : State) : List (Nat × Nat) := s.stakes.flatMap fun (k : Nat × Stake) => k.2.gens.map fun (g : Nat × Gen) => (k.1, g.2.gen)

/-- At a boundary: weavers whose probe courses are over are decided where no command has done so, the check goes on with the next pack, and its
weavers are fetched (R135, R189). DESIGN CHOICE: stake sets are checked one after the other, the lowest STAKE_ID first. -/
def State.nextProbe (s : State) : State :=
  let s := match s.crs.probe with
    | none => s
    | some p =>
      let s := s.each p.pack State.carryCheck
      if p.pack.any (probing s p.sid p.gen) then s else s.setProbe (checkFrom s p.sid p.gen (p.pos + p.pos % 2))
  let s := match s.crs.probe with
    | some _ => s
    | none => s.setProbe ((newGens s).filterMap fun (x : Nat × Nat) => checkFrom s x.1 x.2 0).head?
  s.each ((s.crs.probe.map ProbeRun.pack).getD []) State.demand

/-! ### The commands -/

/-- CARRY_CHECK (R189): it has its occasion only while the check of that generation runs. -/
def execCarryCheck (handle gen : Nat) (s : State) : Host.Outcome State Fault Refusal :=
  act (okHandle handle) s (if s.crs.probe.any fun p => p.gen == gen then s.carryCheck handle else s)

/-- CARRY_OUTCOME (R190). -/
def execCarryOutcome (handle : Nat) (passed : Bool) (s : State) : Host.Outcome State Fault Refusal :=
  act (okHandle handle) s (s.carryOutcome handle passed)

end Sys2Proof.Machine
end

