-- ==== Sys2Proof/Machine/Boundary.lean ====
section
/-! DEFINITION. The round boundary (R42 to R47): what an asserted tick sets off, cycle by cycle, and the halving of the use counts that
falls on some boundaries (R156, R193, R225). -/

namespace Sys2Proof.Machine

/-! ### Use counts -/

/-- Whether a halving that recurs every `every` rounds falls on the boundary at hand and has not been done there; `done` is 1 more than
the round at whose boundary it was last done. -/
def decayDue (every done : Nat) (s : State) : Bool :=
  s.rnd.tick.isSome && boundaryRnd s % every == 0 && done != boundaryRnd s + 1

/-- HEAT of every weaver (R156). -/
def State.weaverDecay (s : State) : State :=
  if decayDue 256 s.rnd.weaverDecay s then
    { s with
      rnd := { s.rnd with weaverDecay := boundaryRnd s + 1 }
      weav := { s.weav with dir := mapTab {} (fun _ (w : Weaver) => { w with heat := w.heat / 2 }) s.weav.dir } }
  else s

/-- USE of every stake set (R193). -/
def State.stakeDecay (s : State) : State :=
  if decayDue 256 s.rnd.stakeDecay s then
    { s with
      rnd := { s.rnd with stakeDecay := boundaryRnd s + 1 }
      stakes := mapTab {} (fun _ (k : Stake) => { k with use := k.use / 2 }) s.stakes }
  else s

/-- HEAT of every frame and of every page-table entry (R225). -/
def State.frameDecay (s : State) : State :=
  if decayDue (2 ^ s.mem.heatShift) s.rnd.frameDecay s then
    { s with
      rnd := { s.rnd with frameDecay := boundaryRnd s + 1 }
      mem := { s.mem with
        frames := mapTab {} (fun _ (e : FrameE) => { e with heat := e.heat / 2 }) s.mem.frames
        pte := mapTab {} (fun _ (e : Pte) => { e with heat := e.heat / 2 }) s.mem.pte } }
  else s

/-! ### Cycle 0 -/

/-- RND_NUM rises by 1, or the number of a tick frame is adopted; one that differs from the device's own is counted and journalled
(R32). -/
def State.nextRound (t : Tick) (s : State) : State :=
  let own := (s.rnd.num + 1) % 2 ^ 64
  let n := t.num.getD own
  let s := { s with rnd := { s.rnd with num := n, gtime := (t.gtime.getD (nextGtime s)) % 2 ^ 64, gtimeNext := none } }
  if n = own then s
  else ({ s with rnd := { s.rnd with numJump := sat 16 (s.rnd.numJump + 1) } }).journal
    { code := St.groupTiming, cls := Cls.info, blk := Blk.round, detail := 1 }

/-- Whether a tick comes from the source that SRC selects (R30): from the hoop for FOLLOWER, otherwise from the device's own timer; a
FOLLOWER's ticks in HOLDOVER are its own source's. -/
def tickOfSrc (r : Rnd) (fromHoop : Bool) : Bool := if r.src = 2 then fromHoop || r.active == 2 else !fromHoop

/-- The first tick from a selected source puts it in effect and is counted (R30); a tick from the hoop locks a FOLLOWER to it, and no
other role is in HOLDOVER or ISOLATED (R29, R485). -/
def State.tickSource (t : Tick) (s : State) : State :=
  let r := s.rnd
  let fromHoop := t.num.isSome
  let mine := tickOfSrc r fromHoop
  let locks := fromHoop || mine && r.src != 2
  { s with rnd := { r with
      active := if mine then r.src else r.active
      srcSwitch := if mine && (r.src != r.active || r.srcDue) then sat 16 (r.srcSwitch + 1) else r.srcSwitch
      srcDue := r.srcDue && !mine
      awaitHoop := r.awaitHoop && !fromHoop
      mode := if locks then .locked else r.mode
      holdCnt := if locks then 0 else r.holdCnt
      lidTimed := r.lidTimed && !r.refBack
      refBack := false
      tick := none } }

/-- What is counted by rounds begins anew: PRESENT shows the round that has ended (R334), eight management frames may leave (R333), each
adaptive loop may count once more (R443), a queue pair may send a CNP. -/
def State.roundCounts (s : State) : State :=
  { s with
    rnd := { s.rnd with overrunNow := false }
    hoop := { s.hoop with present := s.hoop.presentNow, presentNow := 0, sent := 0, tickSince := true }
    flt := { s.flt with polNow := [] }
    host := { s.host with qps := mapTab {} (fun _ (q : Qp) => { q with cnpSent := false }) s.host.qps } }

/-- The round that ends is marked UNDERVOLT when a dip stretched a clock in it (R47). -/
def State.markUndervolt (s : State) : State :=
  if s.rnd.undervolt then s.journal { code := St.undervolt, cls := Cls.info, blk := Blk.power } else s

/-- PRESENT of a device that is not bypassed (R334), READY for each commit that it has accepted, and the current stamps that the MASTER
repeats (R182). -/
def State.roundMessages (s : State) : State :=
  let s := s.originate 0x01 8 (s.rnd.num % 2 ^ 64)
  let s := s.each (s.stakes.map Prod.fst) State.sendReady
  if s.rnd.active ≠ 1 then s
  else s.each s.stakes fun k s =>
    if currentGen s k.1 = 0 then s else s.originate 0x13 3 (k.1 + currentGen s k.1 * 2 ^ 8)

/-- The limits of training jobs (R273, R293, R298, R300). -/
def State.expireJobs (s : State) : State :=
  s.each s.train.jobs fun x s =>
    let j := s.job x.1
    if !j.active then s
    else
      let s := s.each j.probing fun r s => s.probeTimeout x.1 r
      let s := s.each (List.range j.nbucket) fun b s =>
        (s.each (List.range j.nrail) fun r s => s.pieceLost x.1 b r).bucketLate x.1 b
      s.each (if j.isLead then List.range j.desc.m else [0]) fun m s => s.memberSilence x.1 m

/-- Limits that are counted in rounds expire at cycle 0 of a boundary (R484): of SYNs, U lists, repairs, holds, parked courses, full completion
queues, peers, probes and training jobs. -/
def State.expireLimits (s : State) : State :=
  let s := s.each (s.cells.map Prod.fst) fun lc s => (s.synTimeout lc .f).synTimeout lc .b
  let s := s.each (s.msd.flatMap fun p => p.2.lists.map fun u => (u.cid, p.1)) fun x s => s.ulistTimeout x.1 x.2
  let s := s.each s.mem.repairs fun r s => s.repairTimeout r.frame r.granule
  let s := s.each (s.crs.running.map Course.id) State.holdExpires
  let s := s.each s.crs.waiting fun r s => s.parkTimeout r.qpn r.idx
  let s := s.each (s.host.qps.map Prod.fst) State.cqStall
  let s := s.each (s.stakes.map Prod.fst) State.peerTimeout
  s.probeExpires.expireJobs

/-- The link equalisation loop at a boundary (R443, R444): a retrain that is due is made where PORT_ADAPT allows it, otherwise counted; the link
stays up. DESIGN CHOICE: RETRAIN_MAX counts within aligned spans of 65,536 rounds. -/
def State.equalise (p sub : Nat) (s : State) : State :=
  let x := s.port p
  if !bit x.linkUp sub ∨ !Config.retrainDue p sub s.rnd.num then s
  else
    let span := s.rnd.num / 65536
    let used := let e := look (0, 0) x.eqSpan sub; if e.1 = span then e.2 else 0
    if x.adaptEn && decide (used < x.retrainMax) then
      s.modPort p fun x => { x with retrains := sat 32 (x.retrains + 1), eqSpan := store (0, 0) x.eqSpan sub (span, used + 1) }
    else s.polLimit 2

def State.equaliseAll (s : State) : State :=
  s.each ((List.range 12).filter (hasPort s)) fun p s => s.each (List.range (subPorts s p)) fun i s => s.equalise p i

/-- Cycle 0: the tallies of the round that ends are latched and admission closes; the new round has its number. -/
def State.cycle0 (t : Tick) (s : State) : State :=
  let s := ((s.weaverDecay).stakeDecay).frameDecay
  (((s.latchTallies.markUndervolt).nextRound t).tickSource t).expireLimits.roundCounts.equaliseAll.roundMessages

/-! ### Cycles 12 to 40 -/

/-- Whether a supply dip stretches a clock now (R461): a compute die's, the slath engines' or the I/O die's. -/
def supplyStretch (s : State) : Bool :=
  ((List.range 4).any fun d => (s.clk d).stretch && railBelow s d) || [4, 5].any fun r => (look {} s.pwr.sup r).stretch

/-- Cycle 12: checkpoints are committed, segments that have not ended overrun (R46), finished courses complete. The round that begins is
UNDERVOLT from its start while a stretch lasts (R47). -/
def State.cycle12 (s : State) : State :=
  let s := s.commitAll.completeAll
  { s with rnd := { s.rnd with undervolt := supplyStretch s } }

/-- Cycle 16: spares for the cells that failed in the round that ended (R85). -/
def State.cycle16 (s : State) : State := s.each s.ups.fenced State.bindSpare

/-- The courses that may start at this boundary, serving and job courses, in starting order (R394). -/
def dueCourses (s : State) : List Course :=
  let cs := duePlain s ++ dueJobs s ++ dueProbe s
  (List.range 8).flatMap fun k => cs.filter fun c => c.plan.cls == k

/-- Fetches that weavers with waiting sequences, or in training, still need (R135). -/
def State.demandAll (s : State) : State :=
  let s := s.each s.crs.waiting fun r s => match r.handle with | none => s | some h => s.demand h
  s.each (s.train.jobs.filter fun j => j.2.active) fun j s => s.demand j.2.desc.handle

/-- Contexts at cycle 20: function resets (R363), resets (R397), ended grants (R418), removals (R415, R416). -/
def State.contexts20 (s : State) : State :=
  let s := s.endFlr
  let s := (s.each (keysWhere s.ctxs fun _ c => c.reset.isSome) fun c s => s.applyReset c St.ok).endGrants
  let s := s.each (keysWhere s.ctxs fun _ c => c.state == .revoking) State.forcedAbort
  s.each (keysWhere s.ctxs fun _ c => c.state == .scrubbing) State.scrub

/-- Cycle 20: contexts, side slots, weavers that leave, generations, quotas and evictions, deferred requests, what due courses need, heat
placement, cleaning (R177, R214, R216, R223, R226, R230, R236). -/
def State.cycle20 (s : State) : State :=
  let s := s.contexts20.sideBoundary
  let s := s.each (keysWhere s.weav.dir fun _ w => w.state == .removing) State.removeFrames
  let s := s.each (s.stakes.map Prod.fst) State.gensAt20
  let s := s.nextProbe.demandAll.applyQuotas.commonsRefs
  let due := dueCourses s
  let s := (s.each due State.holdCovered).each (bySubmission due) State.prepare
  let s := (s.pressAccounts (due.map Course.ctx)).evalDefers
  ((s.placeAll).startCleaning).unholdCourses.finishQueues

/-- Cycle 24: pointers of stake sets, OPEN generations whose rounds are over, published weaver versions, a staged image (R83, R161, R177,
R184). -/
def State.cycle24 (s : State) : State :=
  let s := s.each (s.stakes.map Prod.fst) fun k s => (s.switchGen k).closeGens k
  (s.publishDue s.rnd.num).switchImage

/-- Cycle 28: what an exit from Shelf restores (R457), and changes of context that waited for a block (R76). The cells that change context
at this boundary begin with their course. -/
def State.cycle28 (s : State) : State := if s.pwr.exitUp then s.restoreCells.lateChanges else s.lateChanges

/-- The length of the round that has begun (R31): a FOLLOWER's from the tick frame or as last received, otherwise what was due. -/
def State.roundLength (t : Tick) (s : State) : State :=
  let n := s.rnd.num
  if s.rnd.active = 2 then
    { s with rnd := { s.rnd with lenEff := t.len.getD s.rnd.hoopLen, lenDue := [] } }
  else { s with rnd := { s.rnd with lenEff := lenAt s n, lenDue := s.rnd.lenDue.filter fun x => n < x.1 } }

/-- Cycle 32: shares, capacities, allowances, debts (R38, R39), and the length of the round. -/
def State.cycle32 (t : Tick) (s : State) : State := (s.roundLength t).newBudgets

/-- The power state that this boundary reaches (R456, R457). -/
def State.powerBoundary (s : State) : State :=
  match s.pwr.target with
  | none => s
  | some p =>
    if s.pwr.state = .shelf then if s.pwr.exitUp then s.reach p else s
    else if (s.pwr.state = .active ∧ p = .idleHold) ∨ (s.pwr.state = .idleHold ∧ p = .active) then s.reach p
    else s

/-- Cycle 40: admission opens; what waited is tried again; stopped courses replay, and new courses start (R39, R43 to R45, R158). -/
def State.cycle40 (s : State) : State :=
  let s := s.powerBoundary
  let s := { s with bud := { s.bud with isOpen := true } }
  let s := (s.walePass).each (keysWhere s.host.qps fun _ q => isRoce q) State.startSends
  let s := ((State.retryTune s s.pumpAll).retryUnits.retryUpdates).pumpOuts.finishQueues.reapJobs.replayReady.dropPlanless.markParked.settlePlaces
  let s := (s.each (dueCourses s) State.tryCourse).sendReports
  s.each (s.stakes.map Prod.fst) State.announce

/-- The boundary that an asserted tick begins; none without one. A DEVICE_RESET that is due begins there instead (R484). -/
def State.boundary (s : State) : State :=
  match s.rnd.tick with
  | none => s
  | some t =>
    if deviceResetDue s then s.warm .deviceReset
    else ((s.cycle0 t).cycle12.cycle16.cycle20.cycle24.cycle28.cycle32 t).cycle40

/-! ### The commands -/

/-- ROUND_TICK (R42). -/
def execRoundTick (s : State) : Host.Outcome State Fault Refusal := act true s s.boundary

/-- WEAVER_HEAT_DECAY (R156): at the boundary that an asserted tick begins. -/
def execWeaverHeatDecay (s : State) : Host.Outcome State Fault Refusal := act true s s.weaverDecay

/-- STAKE_USE_DECAY (R193). -/
def execStakeUseDecay (s : State) : Host.Outcome State Fault Refusal := act true s s.stakeDecay

/-- FRAME_HEAT_DECAY (R225). -/
def execFrameHeatDecay (s : State) : Host.Outcome State Fault Refusal := act true s s.frameDecay

end Sys2Proof.Machine
end

