-- ==== Sys2Proof/Machine/ContextCmds.lean ====
section
/-! DEFINITION. The context command group (R381, R390, R391, R397, R415). -/

namespace Sys2Proof.Machine

def ctxInvalid : Reply := fail St.ctxInvalid

/-- Whether a number names a context at all, and one that is neither FREE nor being removed. -/
def ctxUsable (s : State) (c : Nat) : Bool := decide (c < 4096) && (s.ctx c).state != .free && !ctxGoing s c

def fsplitBad (n : Nat) : Bool := n == 0 || decide (31 < n)

/-- A PARK_MAX of 0 is applied as 64 (R391). -/
def parkOf (n : Nat) : Nat := if n = 0 then 64 else n

/-- CTX_CREATE. -/
def ctxCreate (q : Req) (s : State) : Reply × State :=
  let c := q.at 0 2
  checked [(c == 0 || decide (4095 < c), ctxInvalid), ((s.ctx c).state != .free, fail St.ctxBusy),
      (decide (s.host.numVf < q.at 2 2), fail St.funcInvalid), (fsplitBad (q.at 12 1), badField 12)]
    ({}, (s.modCtx c fun _ =>
      { state := .created, func := q.at 2 2, seed := q.at 4 8, fsplit := q.at 12 1, parkMax := parkOf (q.at 13 1) }).modAcct c fun _ => {}) s

/-- CTX_SET. -/
def ctxSet (q : Req) (s : State) : Reply × State :=
  let c := q.at 0 2
  let f := q.bit 4 0
  checked [(!ctxUsable s c, ctxInvalid), (f && fsplitBad (q.at 2 1), badField 2)]
    ({}, s.modCtx c fun x => { x with
      fsplit := if f then q.at 2 1 else x.fsplit, parkMax := if q.bit 4 1 then parkOf (q.at 3 1) else x.parkMax }) s

def cStateCode (x : CState) : Nat :=
  match x with | .free => 0 | .created => 1 | .active => 2 | .revoking => 3 | .scrubbing => 4 | .resetting => 5

/-- CTX_QUERY. -/
def ctxQuery (q : Req) (s : State) : Reply × State :=
  let c := q.at 0 2
  let x := s.ctx c
  checked [(decide (4095 < c), ctxInvalid)]
    (answerOf 32 (pack [(0, 8, cStateCode x.state), (8, 8, fsplitOf s c), (16, 8, x.parkMax), (24, 16, x.func), (64, 64, x.seed),
      (128, 64, chargedT1 s c), (192, 64, chargedT2 s c)]), s) s

/-- CTX_REMOVE. -/
def ctxRemove (q : Req) (s : State) : Reply × State :=
  let c := q.at 0 2
  checked [(c == 0 || !ctxUsable s c, ctxInvalid)] (pendingReply, s.startRemoval c (.remove q.note)) s

/-- CTX_RESET: RESETTING, and the next generation of the key slot. -/
def ctxReset (q : Req) (s : State) : Reply × State :=
  let c := q.at 0 2
  checked [(c == 0 || decide (4095 < c) || (s.ctx c).state != .active, ctxInvalid)]
    (pendingReply, (s.modTkey c bumpGen).modCtx c fun x => { x with state := .resetting, reset := some q.note }) s

def ctxCreateLayout : Layout := { op := 0x0201, len := 14, admin := true, fields := [fBytes 0 2, fBytes 2 2, fBytes 4 8, fBytes 12 1, fBytes 13 1] }

/-- CTX_CREATE (R381, R391). -/
def execCtxCreate (ch : Nat) (s : State) : Host.Outcome State Fault Refusal :=
  act (okChan ch) s (s.command ctxCreateLayout true ownsAny ctxCreate ch)

def ctxSetLayout : Layout := { op := 0x0202, len := 5, fields := [fBytes 0 2, fBytes 2 1, fBytes 3 1, fBits 4 2] }

/-- CTX_SET (R381, R391). -/
def execCtxSet (ch : Nat) (s : State) : Host.Outcome State Fault Refusal :=
  act (okChan ch) s (s.command ctxSetLayout true (ownsCtx 0) ctxSet ch)

def ctxQueryLayout : Layout := { op := 0x0203, len := 2, fields := [fBytes 0 2] }

/-- CTX_QUERY (R381, R390). -/
def execCtxQuery (ch : Nat) (s : State) : Host.Outcome State Fault Refusal :=
  act (okChan ch) s (s.command ctxQueryLayout true (ownsCtx 0) ctxQuery ch)

def ctxRemoveLayout : Layout := { op := 0x0204, len := 2, admin := true, long := true, fields := [fBytes 0 2] }

/-- CTX_REMOVE (R381, R415). -/
def execCtxRemove (ch : Nat) (s : State) : Host.Outcome State Fault Refusal :=
  act (okChan ch) s (s.command ctxRemoveLayout true ownsAny ctxRemove ch)

def ctxResetLayout : Layout := { op := 0x0205, len := 2, long := true, fields := [fBytes 0 2] }

/-- CTX_RESET (R381, R397). -/
def execCtxReset (ch : Nat) (s : State) : Host.Outcome State Fault Refusal :=
  act (okChan ch) s (s.command ctxResetLayout true (ownsCtx 0) ctxReset ch)

end Sys2Proof.Machine
end

