-- ==== Sys2Proof/Machine/MailboxPort.lean ====
section
/-! DEFINITION. The rows of the mailbox registers: GO, ACK and the request buffer (R369, R370). -/

namespace Sys2Proof.Machine

/-- MB_GO: a write to MB_CTL with GO (R369). -/
def execMbGo (fn ch : Nat) (v : BitVec 64) (s : State) : Host.Outcome State Fault Refusal :=
  act (okFn fn && okChan ch) s (s.barAccess fn (0x100000 + 0x4000 * ch) true v.toNat)

/-- MB_ACK: a write to MB_CTL with ACK (R369). -/
def execMbAck (fn ch : Nat) (v : BitVec 64) (s : State) : Host.Outcome State Fault Refusal :=
  act (okFn fn && okChan ch) s (s.barAccess fn (0x100000 + 0x4000 * ch) true v.toNat)

/-- REQUEST_BUFFER_WRITE: a write at offset `off` of a channel's request buffer (R6, R370). -/
def execRequestBufferWrite (fn ch off : Nat) (wide : Bool) (v : BitVec 64) (s : State) : Host.Outcome State Fault Refusal :=
  act (okFn fn && okChan ch && decide (off < 4096)) s (s.barAccess fn (0x101000 + 0x4000 * ch + off) wide v.toNat)

end Sys2Proof.Machine
end

