-- ==== Sys2Proof/Machine/Registers.lean ====
section
/-! DEFINITION. The rows that read and write BAR0 registers. A register with a row of its own is written through the same path
as any other, at its own offset. -/

namespace Sys2Proof.Machine

/-- BAR0_LOW_READ (R5, R6): of 32 bits, or of 64. -/
def execBar0LowRead (fn : Nat) (rd : LowRead) (s : State) : Host.Outcome State Fault Refusal :=
  act (okFn fn && okBar0 rd.off) s (if rd.wide then s.readWide fn rd.off else s.readLow fn rd.off)

/-- BAR0_HIGH_READ (R5). -/
def execBar0HighRead (fn off : Nat) (s : State) : Host.Outcome State Fault Refusal :=
  act (okFn fn && okBar0 off) s (s.readHigh fn off)

/-- REGISTER_WRITE (R6 to R8). -/
def execRegisterWrite (fn off : Nat) (wide : Bool) (v : BitVec 64) (s : State) : Host.Outcome State Fault Refusal :=
  act (okFn fn && okBar0 off) s (s.barAccess fn off wide v.toNat)

/-- RND_SRC_SET: a write to RND_CTL that selects the tick source (R27, R30). -/
def execRndSrcSet (fn : Nat) (v : BitVec 64) (s : State) : Host.Outcome State Fault Refusal :=
  act (okFn fn) s (s.barAccess fn 0x10000 true v.toNat)

/-- RND_ENABLE_SET: a write to RND_CTL that starts or stops the rounds (R485). -/
def execRndEnableSet (fn : Nat) (v : BitVec 64) (s : State) : Host.Outcome State Fault Refusal :=
  act (okFn fn) s (s.barAccess fn 0x10000 true v.toNat)

/-- RND_LOCK: a write to RND_CTL that locks SRC and HOLD_MAX (R8). -/
def execRndLock (fn : Nat) (v : BitVec 64) (s : State) : Host.Outcome State Fault Refusal :=
  act (okFn fn) s (s.barAccess fn 0x10000 true v.toNat)

/-- RND_LEN_SET: a write to RND_LEN (R31). -/
def execRndLenSet (fn : Nat) (v : BitVec 64) (s : State) : Host.Outcome State Fault Refusal :=
  act (okFn fn) s (s.barAccess fn 0x10008 true v.toNat)

/-- RND_NUM_SET: a write to RND_NUM (R32). -/
def execRndNumSet (fn : Nat) (v : BitVec 64) (s : State) : Host.Outcome State Fault Refusal :=
  act (okFn fn) s (s.barAccess fn 0x10010 true v.toNat)

/-- BUD_SHARE_WRITE: a write to BUD_SHARE[c] (R38). -/
def execBudShareWrite (fn c : Nat) (v : BitVec 64) (s : State) : Host.Outcome State Fault Refusal :=
  act (okFn fn && okClass c) s (s.barAccess fn (0x20000 + 8 * c) true v.toNat)

/-- HOOP_JOIN: a write to HOOP_CTL that requests forwarding (R336). -/
def execHoopJoin (fn : Nat) (v : BitVec 64) (s : State) : Host.Outcome State Fault Refusal :=
  act (okFn fn) s (s.barAccess fn 0x40000 true v.toNat)

/-- HOOP_BYPASS_REQ: a write to HOOP_CTL that requests the bypass (R335). -/
def execHoopBypassReq (fn : Nat) (v : BitVec 64) (s : State) : Host.Outcome State Fault Refusal :=
  act (okFn fn) s (s.barAccess fn 0x40000 true v.toNat)

/-- HOOP_LOCK: a write to HOOP_CTL that locks POS, NDEV, T_ALIGN and HOOP_PATH (R8). -/
def execHoopLock (fn : Nat) (v : BitVec 64) (s : State) : Host.Outcome State Fault Refusal :=
  act (okFn fn) s (s.barAccess fn 0x40000 true v.toNat)

/-- GTIME_WRITE: a write to HOOP_GTIME (R337). -/
def execGtimeWrite (fn : Nat) (v : BitVec 64) (s : State) : Host.Outcome State Fault Refusal :=
  act (okFn fn) s (s.barAccess fn 0x40038 true v.toNat)

/-- PORT_ENABLE: a write to PORT_CFG (R312). -/
def execPortEnable (fn p : Nat) (v : BitVec 64) (s : State) : Host.Outcome State Fault Refusal :=
  act (okFn fn && okPort p) s (s.barAccess fn (0x200000 + 0x10000 * p) true v.toNat)

/-- PORT_LOCK: a write to PORT_CFG that locks MODE and VID (R8). -/
def execPortLock (fn p : Nat) (v : BitVec 64) (s : State) : Host.Outcome State Fault Refusal :=
  act (okFn fn && okPort p) s (s.barAccess fn (0x200000 + 0x10000 * p) true v.toNat)

/-- BLK_RST_GO: a write to BLK_RST (R452, R454). -/
def execBlkRstGo (fn : Nat) (v : BitVec 64) (s : State) : Host.Outcome State Fault Refusal :=
  act (okFn fn) s (s.barAccess fn 0x30008 true v.toNat)

/-- EVENT_HEAD_WRITE: a write to EVT_HEAD (R360). -/
def execEventHeadWrite (fn ring : Nat) (v : BitVec 64) (s : State) : Host.Outcome State Fault Refusal :=
  act (okFn fn && okRing ring) s (s.barAccess fn (0x50100 + 8 * ring) true v.toNat)

end Sys2Proof.Machine
end

