-- ==== Sys2Proof/Machine/Tables.lean ====
section
/-! DEFINITION. Table lookup with interpolation (R118 to R122), which the TLK instructions and the drain epilogue share. -/

namespace Sys2Proof.Machine

/-- A lookup table: abscissa of entry 0, grid step exponent, entries, the low and high modes (0 clamp, 1 extrapolate, 2 constant)
and their constants (R119, R122). -/
structure LookupTable where
  xmin : FVal
  log2 : Int
  n    : Nat
  low  : Nat
  high : Nat
  lowc : FVal
  highc : FVal
  y    : Nat → FVal

def fp32 (b : Nat) : FVal := decF (ffmt 0) b

/-- The built-in table `id`; none above 5. -/
def romLookup (id : Nat) : Option LookupTable :=
  if 5 < id then none
  else
    let t := romTable id
    some { xmin := FVal.ofInt t.xmin, log2 := t.log2, n := t.n, low := t.low, high := t.high, lowc := fp32 t.lowc,
           highc := fp32 t.highc, y := fun i => fp32 (romEntry id i) }

/-- The table whose descriptor stands at unit `u` of 64 bytes of table memory; none where it is a plan violation. DESIGN CHOICE: a value in the
zero bytes 31:16 or in MODES bits 7:4, which R119 does not list among the violations, is ignored. -/
def memLookup (mem : Tab Byte) (u : Nat) : Option LookupTable :=
  let a := 64 * u
  let w := fun off => leNat (rdBytes mem (a + off) 4)
  let log2 := signedOf 8 (leNat (rdBytes mem (a + 4) 1))
  let modes := leNat (rdBytes mem (a + 5) 1)
  let n := leNat (rdBytes mem (a + 6) 2)
  let xmin := fp32 (w 0)
  let finite := match xmin with | .fin _ _ _ => true | _ => false
  if u < 160 ∨ 511 < u ∨ n < 2 ∨ log2 < -16 ∨ 8 < log2 ∨ 3 ≤ bits modes 0 2 ∨ 3 ≤ bits modes 2 2 ∨
      !finite ∨ tableSize < a + 32 + 4 * n then none
  else
    some { xmin := xmin, log2 := log2, n := n, low := bits modes 0 2, high := bits modes 2 2, lowc := fp32 (w 8), highc := fp32 (w 12)
           y := fun i => fp32 (w (32 + 4 * i)) }

def scale2 (x : FVal) (k : Int) : FVal := match x with | .fin s m e => .fin s m (e + k) | y => y

/-- q × 2^-16 as an exact value. -/
def q16 (q : Int) : FVal := scale2 (FVal.ofInt q) (-16)

/-- Extrapolation from entry `a` towards slope `d` at distance `t` from it (R120, R121). -/
def extrapolate (a d t : FVal) : FVal :=
  match t with
  | .inf n => if d.isNan then .nan else if d.isZero then a else .inf (d.sign != n)
  | _ => a.add (d.mul (q16 (t.floorAt 16)))

/-- The exact value of a lookup at `x` (R120, R121); `near` is TLKN's choice of the nearest entry. -/
def lookupAt (t : LookupTable) (near : Bool) (x : FVal) : FVal :=
  match x with
  | .nan => .nan
  | _ =>
    let g := scale2 (x.sub t.xmin) (-t.log2)
    let last := FVal.ofInt (Int.ofNat t.n - 1)
    if g.lt .zero then
      if t.low = 2 then t.lowc
      else if t.low = 1 ∧ !near then extrapolate (t.y 0) ((t.y 1).sub (t.y 0)) g
      else t.y 0
    else if last.lt g then
      if t.high = 2 then t.highc
      else if t.high = 1 ∧ !near then extrapolate (t.y (t.n - 1)) ((t.y (t.n - 1)).sub (t.y (t.n - 2))) (g.sub last)
      else t.y (t.n - 1)
    else
      let i := min (g.floorAt 0).toNat (t.n - 2)
      let q := (g.sub (FVal.ofInt i)).floorAt 16
      if near then if 32768 ≤ q then t.y (i + 1) else t.y i
      else (t.y i).add (((t.y (i + 1)).sub (t.y i)).mul (q16 q))

end Sys2Proof.Machine
end

