-- ==== Sys2Proof/Machine/Tray.lean ====
section
/-! DEFINITION. The tray instructions: DRN with its epilogue (R64, R75, R123 to R127), TSV (R65), TLD (R66) and TZR (R67). -/

namespace Sys2Proof.Machine

/-- An epilogue descriptor (R123). -/
structure Epilogue where
  scol  : Bool
  srow  : Bool
  bias  : Bool
  steer : Bool
  act   : Nat
  scolB : Nat
  srowB : Nat
  biasB : Nat
  steerB : Nat
  segB  : Nat
  rom   : Bool
  tbl   : Nat

/-- Descriptor `e` of table memory; none where a reserved bit of FLAGS is set. DESIGN CHOICE: a value in the zero bytes 1 and 63:14, in bits
15:10 of the base fields or in bits 14:9 of TABLE, for which the manual names no answer, is ignored. -/
def epilogueAt (mem : Tab Byte) (e : Nat) : Option Epilogue :=
  let v := leNat (rdBytes mem (0x2000 + 64 * e) 64)
  let w := fun off => bits v (8 * off) 10
  if bits v 6 2 ≠ 0 then none
  else
    some { scol := bit v 0, srow := bit v 1, bias := bit v 2, steer := bit v 3, act := bits v 4 2, scolB := 1024 * w 2,
           srowB := 1024 * w 4, biasB := 1024 * w 6, steerB := 1024 * w 8, segB := 1024 * w 10, rom := bit v 111,
           tbl := bits v 96 9 }

def bankF32 (c : Cell) (a : Nat) : FVal := fp32 (leNat (rdBytes c.bank a 4))

/-- The activation table of a descriptor; none where it is a plan violation. -/
def Epilogue.table (d : Epilogue) (c : Cell) : Option LookupTable := if d.rom then romLookup d.tbl else memLookup c.table d.tbl

def Epilogue.segment (d : Epilogue) (c : Cell) (m : Nat) : Nat := leNat (rdBytes c.bank (d.segB + m) 1)

/-- Whether a descriptor can drain `cnt` rows: its vectors lie in the bank, its map bytes are 0 to 63 or 0xFF, its table is one. DESIGN
CHOICE: the map bytes are looked at only where STEER is 1. -/
def Epilogue.ok (d : Epilogue) (c : Cell) (cnt : Nat) : Bool :=
  (!d.scol || d.scolB + 256 ≤ bankSize) && (!d.srow || d.srowB + 4 * cnt ≤ bankSize) && (!d.bias || d.biasB + 256 ≤ bankSize) &&
  (!d.steer || (d.segB + cnt ≤ bankSize && (List.range cnt).all fun m =>
    let k := d.segment c m
    k == 255 || (k < 64 && d.steerB + 256 * k + 256 ≤ bankSize))) &&
  (d.act < 2 || (d.table c).isSome)

/-- Stages 1 to 3 of R124 on one entry. -/
def Epilogue.apply (d : Epilogue) (c : Cell) (tbl : Option LookupTable) (m n : Nat) (x : FVal) : FVal :=
  let x := if d.scol then x.mul (bankF32 c (d.scolB + 4 * n)) else x
  let x := if d.srow then x.mul (bankF32 c (d.srowB + 4 * m)) else x
  let v := rnd32 x
  let k := d.segment c m
  let w := if d.bias || d.steer then
      let t := if d.bias then v.add (bankF32 c (d.biasB + 4 * n)) else v
      rnd32 (if d.steer && k != 255 then t.add (bankF32 c (d.steerB + 256 * k + 4 * n)) else t)
    else v
  match d.act with
  | 0 => w
  | 1 => if w.isNan then .nan else if FVal.zero.lt w then w else .zero
  | a =>
    match tbl with
    | none => w
    | some t => if a = 2 then rnd32 (lookupAt t false w) else rnd32 (w.mul (lookupAt t false w))

/-- The element that entry (m, n) of a slot drains to (R124, R125). -/
def drainElem (p : Site) (c : Cell) (d : Epilogue) (tbl : Option LookupTable) (t : Slot) (m n : Nat) : Nat :=
  let fmtI := if t.live then t.fmtI else true
  let x := decTray fmtI (t.entry m n)
  let direct := !d.scol && !d.srow && !d.bias && !d.steer && d.act == 0
  convert p.f.fmtb.toNat p.rm (p.u (64 * m + n)) p.sat (if direct then x else .f (d.apply c tbl m n x.val))

/-- DRN (R64, R75, R124 to R127). The other stream's slot is drained but not cleared, and reported. DESIGN CHOICE: a DRN that has a reserved
RM as well is reported once. -/
def drnEffect (p : Site) (c : Cell) : Option Effect :=
  let fb := p.f.fmtb.toNat
  let wb := fmtWidth fb
  let t := p.f.tidx.toNat
  let c := c.settle t
  let x := c.slot t
  let dst := p.op 4 1 == 1
  let own := p.owns t
  let stride := 64 * wb / 8 * 2 ^ p.op 8 3
  let base := 1024 * p.op 16 10
  let off := 64 * p.op 6 2
  if p.cnt = 0 ∨ 64 < p.cnt ∨ 3 < p.op 8 3 ∨ (dst ∧ fb ≠ 0 ∧ fb ≠ 8) ∨
      (!dst ∧ bankSize < base + (p.cnt - 1) * stride + packedLen wb (off + 64)) then none
  else
    match epilogueAt c.table (p.op 11 5) with
    | none => none
    | some d =>
      if !d.ok c p.cnt then none
      else
        let tbl := if d.act < 2 then none else d.table c
        let row := fun m => (List.range 64).map fun n => drainElem p c d tbl x m n
        let c' := if dst then
            c.setVreg (p.op 0 4) ((c.vreg (p.op 0 4)).write 0 ((List.range p.cnt).flatMap row))
          else
            { c with bank := (List.range p.cnt).foldl (fun b m => setElems b (base + m * stride) wb off (row m)) c.bank }
        some { cell := if p.op 5 1 == 1 && own then c'.setSlot t {} else c', cycles := p.cnt, report := p.badRm || !own }

/-- TSV (R65, R75). -/
def tsvEffect (p : Site) (c : Cell) : Option Effect :=
  let t := p.f.tidx.toNat
  let c := c.settle t
  let x := c.slot t
  let base := 1024 * p.op 16 10
  if p.cnt = 0 ∨ 64 < p.cnt ∨ p.op 0 16 ≠ 0 ∨ bankSize < base + 384 * p.cnt then none
  else
    some { cell := { c with bank := (List.range (64 * p.cnt)).foldl (fun b i =>
             wrBytes b (base + 6 * i) (leBytes 6 (x.entry (i / 64) (i % 64)))) c.bank }
           cycles := p.cnt, report := !p.owns t }

/-- TLD (R66). -/
def tldEffect (p : Site) (c : Cell) : Option Effect :=
  let t := p.f.tidx.toNat
  let fa := p.f.fmta.toNat
  let c := c.settle t
  let base := 1024 * p.op 16 10
  let full := p.op 15 1 == 1
  let len := if full then 384 * p.cnt else p.cnt * packedLen (fmtWidth fa) 64
  if p.cnt = 0 ∨ 64 < p.cnt ∨ p.op 0 14 ≠ 0 ∨ !p.owns t ∨ bankSize < base + len then none
  else
    let fmtI := if full then p.op 14 1 == 1 else !isFloat fa
    let val := fun (i : Nat) =>
      if full then canonTray fmtI (leNat (rdBytes c.bank (base + 6 * i) 6)) else toTray (decElem fa (elemAt c.bank base (fmtWidth fa) i))
    let x : Slot := (List.range (64 * p.cnt)).foldl (fun x i => x.setEntry (i / 64) (i % 64) (val i))
      { fmtI := fmtI, live := true, entries := [] }
    some { cell := c.setSlot t x, cycles := p.cnt }

/-- TZR (R67). -/
def tzrEffect (p : Site) (c : Cell) : Option Effect :=
  let t := p.f.tidx.toNat
  if !p.owns t then none else some { cell := (c.settle t).setSlot t {}, cycles := 1 }

/-- DRN (R124). -/
def execDrn (lc : Nat) (st : Strm) (f : CellWord) (s : State) : Host.Outcome State Fault Refusal :=
  act (okCell lc) s (s.issueCell 0x90 lc st f drnEffect)

/-- TSV (R65). -/
def execTsv (lc : Nat) (st : Strm) (f : CellWord) (s : State) : Host.Outcome State Fault Refusal :=
  act (okCell lc) s (s.issueCell 0x91 lc st f tsvEffect)

/-- TLD (R66). -/
def execTld (lc : Nat) (st : Strm) (f : CellWord) (s : State) : Host.Outcome State Fault Refusal :=
  act (okCell lc) s (s.issueCell 0x92 lc st f tldEffect)

/-- TZR (R67). -/
def execTzr (lc : Nat) (st : Strm) (f : CellWord) (s : State) : Host.Outcome State Fault Refusal :=
  act (okCell lc) s (s.issueCell 0x93 lc st f tzrEffect)

end Sys2Proof.Machine
end

