-- ==== Sys2Proof/Machine/Vector.lean ====
section
/-! DEFINITION. The vector unit (R109 to R114, R117) and the table-lookup instructions (R118). -/

namespace Sys2Proof.Machine

/-! ### Operands (R110) -/

def Site.vd (p : Site) : Nat := p.op 22 4
def Site.va (p : Site) (c : Cell) (i : Nat) : Nat := (c.vreg (p.op 18 4)).elem i
/-- Element `i` of operand B: of VB, or its element 0 where BC is 1. -/
def Site.vb (p : Site) (c : Cell) (i : Nat) : Nat := (c.vreg (p.op 14 4)).elem (if p.op 9 1 = 1 then 0 else i)
def Site.vc (p : Site) (c : Cell) (i : Nat) : Nat := (c.vreg (p.op 10 4)).elem i
def int32 (b : Nat) : Int := signedOf 32 b

/-- An element-wise instruction (R111): its formats checked, elements 0 to CNT − 1 of VD written. `rounds` says that it rounds
under RM, `slow` that it takes two cycles a group (R115). -/
def elementwise (fmts rounds slow : Bool) (g : Nat → Nat) (p : Site) (c : Cell) : Option Effect :=
  if !fmts ∨ p.cnt = 0 ∨ 4096 < p.cnt ∨ p.op 6 3 ≠ 0 then none
  else
    some { cell := c.setVreg p.vd ((c.vreg p.vd).write 0 ((List.range p.cnt).map g))
           cycles := ceilDiv p.cnt 64 * (if slow then 2 else 1), report := rounds && p.badRm }

def Site.fmts (p : Site) (a b : Nat) : Bool := p.f.fmta.toNat == a && p.f.fmtb.toNat == b
/-- FMTA and FMTB equal, FP32 or INT32. -/
def Site.same (p : Site) : Bool := p.f.fmta == p.f.fmtb && (p.f.fmta.toNat == 0 || p.f.fmta.toNat == 8)

/-- A floating element-wise instruction: the exact value rounded once to FP32 under RM (R112). -/
def floatOp (slow : Bool) (g : Nat → FVal) (p : Site) (c : Cell) : Option Effect :=
  elementwise (p.fmts 0 0) true slow (fun i => roundF (ffmt 0) p.rm (p.u i) (g i)) p c

/-- An integer element-wise instruction whose exact result goes through R106. -/
def intOp (g : Nat → Int) (p : Site) (c : Cell) : Option Effect :=
  elementwise (p.fmts 8 8) false false (fun i => intBits 32 true p.sat (g i)) p c

def Site.fa (p : Site) (c : Cell) (i : Nat) : FVal := fp32 (p.va c i)
def Site.fb (p : Site) (c : Cell) (i : Nat) : FVal := fp32 (p.vb c i)

/-! ### Results for one element (R112, R113) -/

def maxV (a b : FVal) : FVal :=
  if a.isNan || b.isNan then .nan else if a.isZero && b.isZero then (if a.sign && b.sign then a else .zero)
  else if a.lt b then b else a

def minV (a b : FVal) : FVal :=
  if a.isNan || b.isNan then .nan else if a.isZero && b.isZero then (if a.sign || b.sign then .fin true 0 0 else a)
  else if b.lt a then b else a

/-- a × b + c with one rounding: a zero sum counts the product's sign (R113). -/
def fmaV (a b c : FVal) : FVal := (a.mul b).add c

def rcpV (a : FVal) : FVal :=
  match a with
  | .nan => .nan
  | .inf n => .fin n 0 0
  | .fin n m e => if m = 0 then .inf n else recip n m e

def rsqV (a : FVal) : FVal :=
  match a with
  | .nan => .nan
  | .inf n => if n then .nan else .zero
  | .fin n m e => if m = 0 then .inf n else if n then .nan else recipSqrt m e

/-- VQNT (R112): the value set of FMTB under RM and SAT, stored as FP32; INT32 rounds once more with RNE. -/
def quantBits (code rm u : Nat) (sat : Bool) (x : FVal) : Nat :=
  roundF (ffmt 0) 0 0 (decElem code (convert code rm u sat (.f x))).val

/-! ### Reductions (R114) -/

/-- One group's binary tree in index order, a node's missing operand passed over. -/
def groupTree {α : Type} (node : α → α → α) : Nat → List α → List α
  | 0, l => l
  | n + 1, l => groupTree node n (pairUp node l)
where
  pairUp (node : α → α → α) : List α → List α
    | a :: b :: r => node a b :: pairUp node r
    | l => l

/-- The reduction of elements 0 to n − 1: each group of 64 by its tree, then the group results in ascending order. -/
def reduceVec {α : Type} (node : α → α → α) (z : α) (n : Nat) (g : Nat → α) : α :=
  let groups := (List.range (ceilDiv n 64)).map fun k =>
    (groupTree node 6 ((List.range (min 64 (n - 64 * k))).map fun i => g (64 * k + i))).headD z
  match groups with
  | [] => z
  | a :: r => r.foldl node a

/-- A reduction writes element 0 of VD. -/
def reduceOp (g : Nat) (p : Site) (c : Cell) : Option Effect :=
  if !p.same ∨ p.cnt = 0 ∨ 4096 < p.cnt ∨ p.op 6 3 ≠ 0 then none
  else some { cell := c.setVreg p.vd ((c.vreg p.vd).write 0 [g]), cycles := ceilDiv p.cnt 64 }

/-- VRSUM (R114). -/
def vrsumEffect (p : Site) (c : Cell) : Option Effect :=
  reduceOp (if p.f.fmta.toNat = 0 then
      roundF (ffmt 0) 0 0 (reduceVec (fun a b => rnd32 (a.add b)) .zero p.cnt (p.fa c))
    else intBits 32 true p.sat (reduceVec (· + ·) 0 p.cnt fun i => int32 (p.va c i))) p c

/-- VRMAX (R114). -/
def vrmaxEffect (p : Site) (c : Cell) : Option Effect :=
  reduceOp (if p.f.fmta.toNat = 0 then roundF (ffmt 0) 0 0 (reduceVec maxV .zero p.cnt (p.fa c))
    else intBits 32 true false (reduceVec max (int32 (p.va c 0)) p.cnt fun i => int32 (p.va c i))) p c

/-- VCVT (R112): FP32 to INT32 or INT32 to FP32. -/
def vcvtEffect (p : Site) (c : Cell) : Option Effect :=
  let a := p.f.fmta.toNat
  let b := p.f.fmtb.toNat
  elementwise ((a == 0 && b == 8) || (a == 8 && b == 0)) true false
    (fun i => convert b p.rm (p.u i) p.sat (decElem a (p.va c i))) p c

/-! ### Table lookup (R118) -/

/-- The table an instruction names; none where it is a plan violation (R118, R119, R122). -/
def Site.table (p : Site) (c : Cell) : Option LookupTable :=
  if p.op 17 1 = 1 then (if p.op 14 3 = 0 then romLookup (p.op 8 9) else none) else memLookup c.table (p.op 8 9)

/-- TLK, TLKN and TLKM (R118 to R121): `near` for TLKN, `times` for TLKM. -/
def lookupEffect (near times : Bool) (p : Site) (c : Cell) : Option Effect :=
  match p.table c with
  | none => none
  | some t =>
    if !p.fmts 0 0 ∨ p.cnt = 0 ∨ 4096 < p.cnt ∨ p.op 0 8 ≠ 0 then none
    else
      let g := fun i =>
        let x := p.fa c i
        let v := lookupAt t near x
        if near then roundF (ffmt 0) 0 0 v else roundF (ffmt 0) p.rm (p.u i) (if times then x.mul v else v)
      some { cell := c.setVreg p.vd ((c.vreg p.vd).write 0 ((List.range p.cnt).map g)), cycles := ceilDiv p.cnt 64
             report := !near && p.badRm }

/-- VMOV (R112). -/
def execVmov (lc : Nat) (st : Strm) (f : CellWord) (s : State) : Host.Outcome State Fault Refusal :=
  act (okCell lc) s (s.issueCell 0x40 lc st f fun p c =>
    elementwise p.same false false (fun i => p.va c i) p c)

/-- VADD (R112). -/
def execVadd (lc : Nat) (st : Strm) (f : CellWord) (s : State) : Host.Outcome State Fault Refusal :=
  act (okCell lc) s (s.issueCell 0x41 lc st f fun p c => floatOp false (fun i => (p.fa c i).add (p.fb c i)) p c)

/-- VSUB (R112). -/
def execVsub (lc : Nat) (st : Strm) (f : CellWord) (s : State) : Host.Outcome State Fault Refusal :=
  act (okCell lc) s (s.issueCell 0x42 lc st f fun p c => floatOp false (fun i => (p.fa c i).sub (p.fb c i)) p c)

/-- VMUL (R112). -/
def execVmul (lc : Nat) (st : Strm) (f : CellWord) (s : State) : Host.Outcome State Fault Refusal :=
  act (okCell lc) s (s.issueCell 0x43 lc st f fun p c => floatOp false (fun i => (p.fa c i).mul (p.fb c i)) p c)

/-- VFMA (R112). -/
def execVfma (lc : Nat) (st : Strm) (f : CellWord) (s : State) : Host.Outcome State Fault Refusal :=
  act (okCell lc) s (s.issueCell 0x44 lc st f fun p c => floatOp false (fun i => fmaV (p.fa c i) (p.fb c i) (fp32 (p.vc c i))) p c)

/-- VMAX (R112). -/
def execVmax (lc : Nat) (st : Strm) (f : CellWord) (s : State) : Host.Outcome State Fault Refusal :=
  act (okCell lc) s (s.issueCell 0x45 lc st f fun p c => floatOp false (fun i => maxV (p.fa c i) (p.fb c i)) p c)

/-- VMIN (R112). -/
def execVmin (lc : Nat) (st : Strm) (f : CellWord) (s : State) : Host.Outcome State Fault Refusal :=
  act (okCell lc) s (s.issueCell 0x46 lc st f fun p c => floatOp false (fun i => minV (p.fa c i) (p.fb c i)) p c)

/-- VABS (R112). -/
def execVabs (lc : Nat) (st : Strm) (f : CellWord) (s : State) : Host.Outcome State Fault Refusal :=
  act (okCell lc) s (s.issueCell 0x47 lc st f fun p c => floatOp false (fun i => (p.fa c i).abs) p c)

/-- VNEG (R112). -/
def execVneg (lc : Nat) (st : Strm) (f : CellWord) (s : State) : Host.Outcome State Fault Refusal :=
  act (okCell lc) s (s.issueCell 0x48 lc st f fun p c => floatOp false (fun i => (p.fa c i).neg) p c)

/-- VRCP (R112). -/
def execVrcp (lc : Nat) (st : Strm) (f : CellWord) (s : State) : Host.Outcome State Fault Refusal :=
  act (okCell lc) s (s.issueCell 0x49 lc st f fun p c => floatOp true (fun i => rcpV (p.fa c i)) p c)

/-- VRSQ (R112). -/
def execVrsq (lc : Nat) (st : Strm) (f : CellWord) (s : State) : Host.Outcome State Fault Refusal :=
  act (okCell lc) s (s.issueCell 0x4A lc st f fun p c => floatOp true (fun i => rsqV (p.fa c i)) p c)

/-- VEXP2 (R112). -/
def execVexp2 (lc : Nat) (st : Strm) (f : CellWord) (s : State) : Host.Outcome State Fault Refusal :=
  act (okCell lc) s (s.issueCell 0x4B lc st f fun p c => floatOp true (fun i => exp2V (p.fa c i)) p c)

/-- VCEQ (R112). -/
def execVceq (lc : Nat) (st : Strm) (f : CellWord) (s : State) : Host.Outcome State Fault Refusal :=
  act (okCell lc) s (s.issueCell 0x4C lc st f fun p c =>
    elementwise (p.fmts 0 8) false false (fun i => b2n ((p.fa c i).eq (p.fb c i))) p c)

/-- VCGT (R112). -/
def execVcgt (lc : Nat) (st : Strm) (f : CellWord) (s : State) : Host.Outcome State Fault Refusal :=
  act (okCell lc) s (s.issueCell 0x4D lc st f fun p c =>
    elementwise (p.fmts 0 8) false false (fun i => b2n ((p.fb c i).lt (p.fa c i))) p c)

/-- VCGE (R112). -/
def execVcge (lc : Nat) (st : Strm) (f : CellWord) (s : State) : Host.Outcome State Fault Refusal :=
  act (okCell lc) s (s.issueCell 0x4E lc st f fun p c =>
    elementwise (p.fmts 0 8) false false (fun i => b2n ((p.fb c i).lt (p.fa c i) || (p.fa c i).eq (p.fb c i))) p c)

/-- VSEL (R112). -/
def execVsel (lc : Nat) (st : Strm) (f : CellWord) (s : State) : Host.Outcome State Fault Refusal :=
  act (okCell lc) s (s.issueCell 0x4F lc st f fun p c =>
    elementwise p.same false false (fun i => if p.vc c i ≠ 0 then p.va c i else p.vb c i) p c)

/-- VCVT (R112). -/
def execVcvt (lc : Nat) (st : Strm) (f : CellWord) (s : State) : Host.Outcome State Fault Refusal :=
  act (okCell lc) s (s.issueCell 0x50 lc st f vcvtEffect)

/-- VQNT (R112). -/
def execVqnt (lc : Nat) (st : Strm) (f : CellWord) (s : State) : Host.Outcome State Fault Refusal :=
  act (okCell lc) s (s.issueCell 0x51 lc st f fun p c =>
    elementwise (p.f.fmta.toNat == 0) true false (fun i => quantBits p.f.fmtb.toNat p.rm (p.u i) p.sat (p.fa c i)) p c)

/-- VRSUM (R114). -/
def execVrsum (lc : Nat) (st : Strm) (f : CellWord) (s : State) : Host.Outcome State Fault Refusal :=
  act (okCell lc) s (s.issueCell 0x58 lc st f vrsumEffect)

/-- VRMAX (R114). -/
def execVrmax (lc : Nat) (st : Strm) (f : CellWord) (s : State) : Host.Outcome State Fault Refusal :=
  act (okCell lc) s (s.issueCell 0x59 lc st f vrmaxEffect)

/-- VIADD (R112). -/
def execViadd (lc : Nat) (st : Strm) (f : CellWord) (s : State) : Host.Outcome State Fault Refusal :=
  act (okCell lc) s (s.issueCell 0x60 lc st f fun p c => intOp (fun i => int32 (p.va c i) + int32 (p.vb c i)) p c)

/-- VISUB (R112). -/
def execVisub (lc : Nat) (st : Strm) (f : CellWord) (s : State) : Host.Outcome State Fault Refusal :=
  act (okCell lc) s (s.issueCell 0x61 lc st f fun p c => intOp (fun i => int32 (p.va c i) - int32 (p.vb c i)) p c)

/-- VIMUL (R112). -/
def execVimul (lc : Nat) (st : Strm) (f : CellWord) (s : State) : Host.Outcome State Fault Refusal :=
  act (okCell lc) s (s.issueCell 0x62 lc st f fun p c => intOp (fun i => int32 (p.va c i) * int32 (p.vb c i)) p c)

/-- VSHL (R112). -/
def execVshl (lc : Nat) (st : Strm) (f : CellWord) (s : State) : Host.Outcome State Fault Refusal :=
  act (okCell lc) s (s.issueCell 0x63 lc st f fun p c => intOp (fun i => if 32 ≤ p.op 0 6 then 0 else int32 (p.va c i) * Int.ofNat (2 ^ p.op 0 6)) p c)

/-- VSHR (R112). -/
def execVshr (lc : Nat) (st : Strm) (f : CellWord) (s : State) : Host.Outcome State Fault Refusal :=
  act (okCell lc) s (s.issueCell 0x64 lc st f fun p c => intOp (fun i => int32 (p.va c i) / Int.ofNat (2 ^ p.op 0 6)) p c)

/-- VAND (R112). -/
def execVand (lc : Nat) (st : Strm) (f : CellWord) (s : State) : Host.Outcome State Fault Refusal :=
  act (okCell lc) s (s.issueCell 0x65 lc st f fun p c =>
    elementwise (p.fmts 8 8) false false (fun i => p.va c i &&& p.vb c i) p c)

/-- VOR (R112). -/
def execVor (lc : Nat) (st : Strm) (f : CellWord) (s : State) : Host.Outcome State Fault Refusal :=
  act (okCell lc) s (s.issueCell 0x66 lc st f fun p c =>
    elementwise (p.fmts 8 8) false false (fun i => p.va c i ||| p.vb c i) p c)

/-- VXOR (R112). -/
def execVxor (lc : Nat) (st : Strm) (f : CellWord) (s : State) : Host.Outcome State Fault Refusal :=
  act (okCell lc) s (s.issueCell 0x67 lc st f fun p c =>
    elementwise (p.fmts 8 8) false false (fun i => p.va c i ^^^ p.vb c i) p c)

/-- VIMAX (R112). -/
def execVimax (lc : Nat) (st : Strm) (f : CellWord) (s : State) : Host.Outcome State Fault Refusal :=
  act (okCell lc) s (s.issueCell 0x68 lc st f fun p c => intOp (fun i => max (int32 (p.va c i)) (int32 (p.vb c i))) p c)

/-- VIMIN (R112). -/
def execVimin (lc : Nat) (st : Strm) (f : CellWord) (s : State) : Host.Outcome State Fault Refusal :=
  act (okCell lc) s (s.issueCell 0x69 lc st f fun p c => intOp (fun i => min (int32 (p.va c i)) (int32 (p.vb c i))) p c)

/-- TLK (R120). -/
def execTlk (lc : Nat) (st : Strm) (f : CellWord) (s : State) : Host.Outcome State Fault Refusal :=
  act (okCell lc) s (s.issueCell 0x80 lc st f (lookupEffect false false))

/-- TLKN (R120). -/
def execTlkn (lc : Nat) (st : Strm) (f : CellWord) (s : State) : Host.Outcome State Fault Refusal :=
  act (okCell lc) s (s.issueCell 0x81 lc st f (lookupEffect true false))

/-- TLKM (R120). -/
def execTlkm (lc : Nat) (st : Strm) (f : CellWord) (s : State) : Host.Outcome State Fault Refusal :=
  act (okCell lc) s (s.issueCell 0x82 lc st f (lookupEffect false true))

end Sys2Proof.Machine
end

