-- ==== Sys2Proof/Machine/Dispatch.lean ====
section
/-! DEFINITION. The dispatcher: one arm for every command, each a direct call of that command's meaning. -/

namespace Sys2Proof.Machine

def exec (i : Instr) (s : State) : Host.Outcome State Fault Refusal :=
  match i with
  | .bar0LowRead fn rd => Sys2Proof.Machine.execBar0LowRead fn rd s
  | .bar0HighRead fn off => Sys2Proof.Machine.execBar0HighRead fn off s
  | .registerWrite fn off wide v => Sys2Proof.Machine.execRegisterWrite fn off wide v s
  | .rndSrcSet fn v => Sys2Proof.Machine.execRndSrcSet fn v s
  | .rndEnableSet fn v => Sys2Proof.Machine.execRndEnableSet fn v s
  | .rndLock fn v => Sys2Proof.Machine.execRndLock fn v s
  | .rndLenSet fn v => Sys2Proof.Machine.execRndLenSet fn v s
  | .rndNumSet fn v => Sys2Proof.Machine.execRndNumSet fn v s
  | .budShareWrite fn c v => Sys2Proof.Machine.execBudShareWrite fn c v s
  | .mbGo fn ch v => Sys2Proof.Machine.execMbGo fn ch v s
  | .mbAck fn ch v => Sys2Proof.Machine.execMbAck fn ch v s
  | .hoopJoin fn v => Sys2Proof.Machine.execHoopJoin fn v s
  | .hoopBypassReq fn v => Sys2Proof.Machine.execHoopBypassReq fn v s
  | .hoopLock fn v => Sys2Proof.Machine.execHoopLock fn v s
  | .gtimeWrite fn v => Sys2Proof.Machine.execGtimeWrite fn v s
  | .portEnable fn p v => Sys2Proof.Machine.execPortEnable fn p v s
  | .portLock fn p v => Sys2Proof.Machine.execPortLock fn p v s
  | .blkRstGo fn v => Sys2Proof.Machine.execBlkRstGo fn v s
  | .eventHeadWrite fn ring v => Sys2Proof.Machine.execEventHeadWrite fn ring v s
  | .sqTail fn qpn off wide v => Sys2Proof.Machine.execSqTail fn qpn off wide v s
  | .cqHead fn qpn off wide v => Sys2Proof.Machine.execCqHead fn qpn off wide v s
  | .rqTail fn qpn off wide v => Sys2Proof.Machine.execRqTail fn qpn off wide v s
  | .apertureAccess r => Sys2Proof.Machine.execApertureAccess r s
  | .ldw lc st f => Sys2Proof.Machine.execLdw lc st f s
  | .ldwDataArrived lc st => Sys2Proof.Machine.execLdwDataArrived lc st s
  | .stw lc st f => Sys2Proof.Machine.execStw lc st f s
  | .stwAccepted lc st => Sys2Proof.Machine.execStwAccepted lc st s
  | .mov lc st f => Sys2Proof.Machine.execMov lc st f s
  | .vld lc st f => Sys2Proof.Machine.execVld lc st f s
  | .vst lc st f => Sys2Proof.Machine.execVst lc st f s
  | .tbw lc st f => Sys2Proof.Machine.execTbw lc st f s
  | .put lc st f => Sys2Proof.Machine.execPut lc st f s
  | .putDelivered lc st => Sys2Proof.Machine.execPutDelivered lc st s
  | .mma lc st f => Sys2Proof.Machine.execMma lc st f s
  | .slr lc st f => Sys2Proof.Machine.execSlr lc st f s
  | .beatWriteback lc st => Sys2Proof.Machine.execBeatWriteback lc st s
  | .drn lc st f => Sys2Proof.Machine.execDrn lc st f s
  | .tsv lc st f => Sys2Proof.Machine.execTsv lc st f s
  | .tld lc st f => Sys2Proof.Machine.execTld lc st f s
  | .tzr lc st f => Sys2Proof.Machine.execTzr lc st f s
  | .nop lc st f => Sys2Proof.Machine.execNop lc st f s
  | .syn lc st f => Sys2Proof.Machine.execSyn lc st f s
  | .synTimeout lc st => Sys2Proof.Machine.execSynTimeout lc st s
  | .sig lc st f => Sys2Proof.Machine.execSig lc st f s
  | .rcl lc st f => Sys2Proof.Machine.execRcl lc st f s
  | .endBlock lc st f => Sys2Proof.Machine.execEndBlock lc st f s
  | .blockLoad lc st => Sys2Proof.Machine.execBlockLoad lc st s
  | .vmov lc st f => Sys2Proof.Machine.execVmov lc st f s
  | .vadd lc st f => Sys2Proof.Machine.execVadd lc st f s
  | .vsub lc st f => Sys2Proof.Machine.execVsub lc st f s
  | .vmul lc st f => Sys2Proof.Machine.execVmul lc st f s
  | .vfma lc st f => Sys2Proof.Machine.execVfma lc st f s
  | .vmax lc st f => Sys2Proof.Machine.execVmax lc st f s
  | .vmin lc st f => Sys2Proof.Machine.execVmin lc st f s
  | .vabs lc st f => Sys2Proof.Machine.execVabs lc st f s
  | .vneg lc st f => Sys2Proof.Machine.execVneg lc st f s
  | .vrcp lc st f => Sys2Proof.Machine.execVrcp lc st f s
  | .vrsq lc st f => Sys2Proof.Machine.execVrsq lc st f s
  | .vexp2 lc st f => Sys2Proof.Machine.execVexp2 lc st f s
  | .vceq lc st f => Sys2Proof.Machine.execVceq lc st f s
  | .vcgt lc st f => Sys2Proof.Machine.execVcgt lc st f s
  | .vcge lc st f => Sys2Proof.Machine.execVcge lc st f s
  | .vsel lc st f => Sys2Proof.Machine.execVsel lc st f s
  | .vcvt lc st f => Sys2Proof.Machine.execVcvt lc st f s
  | .vqnt lc st f => Sys2Proof.Machine.execVqnt lc st f s
  | .vrsum lc st f => Sys2Proof.Machine.execVrsum lc st f s
  | .vrmax lc st f => Sys2Proof.Machine.execVrmax lc st f s
  | .viadd lc st f => Sys2Proof.Machine.execViadd lc st f s
  | .visub lc st f => Sys2Proof.Machine.execVisub lc st f s
  | .vimul lc st f => Sys2Proof.Machine.execVimul lc st f s
  | .vshl lc st f => Sys2Proof.Machine.execVshl lc st f s
  | .vshr lc st f => Sys2Proof.Machine.execVshr lc st f s
  | .vand lc st f => Sys2Proof.Machine.execVand lc st f s
  | .vor lc st f => Sys2Proof.Machine.execVor lc st f s
  | .vxor lc st f => Sys2Proof.Machine.execVxor lc st f s
  | .vimax lc st f => Sys2Proof.Machine.execVimax lc st f s
  | .vimin lc st f => Sys2Proof.Machine.execVimin lc st f s
  | .tlk lc st f => Sys2Proof.Machine.execTlk lc st f s
  | .tlkn lc st f => Sys2Proof.Machine.execTlkn lc st f s
  | .tlkm lc st f => Sys2Proof.Machine.execTlkm lc st f s
  | .attn cid die u => Sys2Proof.Machine.execAttn cid die u s
  | .gemv cid die u => Sys2Proof.Machine.execGemv cid die u s
  | .adamw cid die u => Sys2Proof.Machine.execAdamw cid die u s
  | .sgdm cid die u => Sys2Proof.Machine.execSgdm cid die u s
  | .acc cid die u => Sys2Proof.Machine.execAcc cid die u s
  | .ulistTimeout cid die => Sys2Proof.Machine.execUlistTimeout cid die s
  | .roundTick => Sys2Proof.Machine.execRoundTick s
  | .weaverHeatDecay => Sys2Proof.Machine.execWeaverHeatDecay s
  | .stakeUseDecay => Sys2Proof.Machine.execStakeUseDecay s
  | .frameHeatDecay => Sys2Proof.Machine.execFrameHeatDecay s
  | .genClose sid => Sys2Proof.Machine.execGenClose sid s
  | .parkTimeout qpn idx => Sys2Proof.Machine.execParkTimeout qpn idx s
  | .unitAdmit u => Sys2Proof.Machine.execUnitAdmit u s
  | .localTick => Sys2Proof.Machine.execLocalTick s
  | .tickFrameSend => Sys2Proof.Machine.execTickFrameSend s
  | .tickFrameReceive f arrival => Sys2Proof.Machine.execTickFrameReceive f arrival s
  | .holdoverEntry => Sys2Proof.Machine.execHoldoverEntry s
  | .holdoverTick => Sys2Proof.Machine.execHoldoverTick s
  | .isolatedEntry => Sys2Proof.Machine.execIsolatedEntry s
  | .mgmtFrameReceive f => Sys2Proof.Machine.execMgmtFrameReceive f s
  | .present src rnd => Sys2Proof.Machine.execPresent src rnd s
  | .stakeReady src sid stamp part c => Sys2Proof.Machine.execStakeReady src sid stamp part c s
  | .stakeGo sid stamp c => Sys2Proof.Machine.execStakeGo sid stamp c s
  | .stakeAbortMsg sid stamp c => Sys2Proof.Machine.execStakeAbortMsg sid stamp c s
  | .stakeCurrent sid stamp => Sys2Proof.Machine.execStakeCurrent sid stamp s
  | .commitAnnounce sid => Sys2Proof.Machine.execCommitAnnounce sid s
  | .bypassSwitch => Sys2Proof.Machine.execBypassSwitch s
  | .bypassForcedClose c => Sys2Proof.Machine.execBypassForcedClose c s
  | .waleData p w => Sys2Proof.Machine.execWaleData p w s
  | .waleAck p w => Sys2Proof.Machine.execWaleAck p w s
  | .waleNak p w => Sys2Proof.Machine.execWaleNak p w s
  | .waleOpen p w => Sys2Proof.Machine.execWaleOpen p w s
  | .waleOpenAck p w => Sys2Proof.Machine.execWaleOpenAck p w s
  | .waleClose p w => Sys2Proof.Machine.execWaleClose p w s
  | .waleAckTimer qpn => Sys2Proof.Machine.execWaleAckTimer qpn s
  | .waleResendTimeout qpn => Sys2Proof.Machine.execWaleResendTimeout qpn s
  | .segmentTableReceive t => Sys2Proof.Machine.execSegmentTableReceive t s
  | .twineResult p w => Sys2Proof.Machine.execTwineResult p w s
  | .twineBounce p w => Sys2Proof.Machine.execTwineBounce p w s
  | .twineProbeReply p w => Sys2Proof.Machine.execTwineProbeReply p w s
  | .probeTimeout job rail => Sys2Proof.Machine.execProbeTimeout job rail s
  | .pieceLost job b rail => Sys2Proof.Machine.execPieceLost job b rail s
  | .ringContrib job r => Sys2Proof.Machine.execRingContrib job r s
  | .bucketSend job b => Sys2Proof.Machine.execBucketSend job b s
  | .bucketLate job b => Sys2Proof.Machine.execBucketLate job b s
  | .ownerReport job r => Sys2Proof.Machine.execOwnerReport job r s
  | .verdict job m => Sys2Proof.Machine.execVerdict job m s
  | .workingCopyShard job b owner data => Sys2Proof.Machine.execWorkingCopyShard job b owner data s
  | .publish job step rnd => Sys2Proof.Machine.execPublish job step rnd s
  | .publishApply job => Sys2Proof.Machine.execPublishApply job s
  | .stepLedger job e => Sys2Proof.Machine.execStepLedger job e s
  | .memberSilence job member => Sys2Proof.Machine.execMemberSilence job member s
  | .learningStepStart handle => Sys2Proof.Machine.execLearningStepStart handle s
  | .peerShardRequest q => Sys2Proof.Machine.execPeerShardRequest q s
  | .buildShardFetched sid r => Sys2Proof.Machine.execBuildShardFetched sid r s
  | .peerShardTimeout sid => Sys2Proof.Machine.execPeerShardTimeout sid s
  | .carryCheck handle gen => Sys2Proof.Machine.execCarryCheck handle gen s
  | .weaverShardFetched handle readOk => Sys2Proof.Machine.execWeaverShardFetched handle readOk s
  | .frameFillDone fr => Sys2Proof.Machine.execFrameFillDone fr s
  | .promotionDone fr => Sys2Proof.Machine.execPromotionDone fr s
  | .evictionDone fr => Sys2Proof.Machine.execEvictionDone fr s
  | .frameZeroDone fr => Sys2Proof.Machine.execFrameZeroDone fr s
  | .cleaningPassDone fr => Sys2Proof.Machine.execCleaningPassDone fr s
  | .weaverRemoveComplete handle => Sys2Proof.Machine.execWeaverRemoveComplete handle s
  | .patrolScrub die hits => Sys2Proof.Machine.execPatrolScrub die hits s
  | .hbmUncorrectable fr line errs => Sys2Proof.Machine.execHbmUncorrectable fr line errs s
  | .slowTierPoison fr granule => Sys2Proof.Machine.execSlowTierPoison fr granule s
  | .repairSourceTimeout fr granule => Sys2Proof.Machine.execRepairSourceTimeout fr granule s
  | .repairDone fr granule data => Sys2Proof.Machine.execRepairDone fr granule data s
  | .poisonHoldExpiry cid => Sys2Proof.Machine.execPoisonHoldExpiry cid s
  | .cellFailure lc => Sys2Proof.Machine.execCellFailure lc s
  | .spareLoadDone lc => Sys2Proof.Machine.execSpareLoadDone lc s
  | .cellSaveDone lc => Sys2Proof.Machine.execCellSaveDone lc s
  | .restoreCheck lc => Sys2Proof.Machine.execRestoreCheck lc s
  | .bankZeroDone lc => Sys2Proof.Machine.execBankZeroDone lc s
  | .flitReplayFail warp link => Sys2Proof.Machine.execFlitReplayFail warp link s
  | .linkRetrainDone warp link ok => Sys2Proof.Machine.execLinkRetrainDone warp link ok s
  | .fabricFailed warp link => Sys2Proof.Machine.execFabricFailed warp link s
  | .sramUncorrectable b u => Sys2Proof.Machine.execSramUncorrectable b u s
  | .slathEngineFault die eng => Sys2Proof.Machine.execSlathEngineFault die eng s
  | .migrationEngineFault die => Sys2Proof.Machine.execMigrationEngineFault die s
  | .copyEngineFault e => Sys2Proof.Machine.execCopyEngineFault e s
  | .firmwareWatchdog => Sys2Proof.Machine.execFirmwareWatchdog s
  | .lidSelfCheckFail => Sys2Proof.Machine.execLidSelfCheckFail s
  | .linkDown cxl p sub => Sys2Proof.Machine.execLinkDown cxl p sub s
  | .cxlIdeLoss p => Sys2Proof.Machine.execCxlIdeLoss p s
  | .cxlIdeReturn p => Sys2Proof.Machine.execCxlIdeReturn p s
  | .ethFrameReceive p sub e => Sys2Proof.Machine.execEthFrameReceive p sub e s
  | .pfcFrame p prio xoff => Sys2Proof.Machine.execPfcFrame p prio xoff s
  | .pfcXonSend p prio => Sys2Proof.Machine.execPfcXonSend p prio s
  | .pauseFrame p => Sys2Proof.Machine.execPauseFrame p s
  | .mkaFrame p sub m => Sys2Proof.Machine.execMkaFrame p sub m s
  | .neighborSolicitation p addr => Sys2Proof.Machine.execNeighborSolicitation p addr s
  | .echoRequest p v6 addr => Sys2Proof.Machine.execEchoRequest p v6 addr s
  | .arpRequest p addr => Sys2Proof.Machine.execArpRequest p addr s
  | .rocePacket p k => Sys2Proof.Machine.execRocePacket p k s
  | .cnp qpn => Sys2Proof.Machine.execCnp qpn s
  | .roceRateRestore qpn => Sys2Proof.Machine.execRoceRateRestore qpn s
  | .descNop qpn d => Sys2Proof.Machine.execDescNop qpn d s
  | .copy qpn d => Sys2Proof.Machine.execCopy qpn d s
  | .copyBurst qpn idx b => Sys2Proof.Machine.execCopyBurst qpn idx b s
  | .serve qpn d => Sys2Proof.Machine.execServe qpn d s
  | .courseComplete cid => Sys2Proof.Machine.execCourseComplete cid s
  | .send qpn d => Sys2Proof.Machine.execSend qpn d s
  | .sendWithImmediate qpn d => Sys2Proof.Machine.execSendWithImmediate qpn d s
  | .rdmaWrite qpn d => Sys2Proof.Machine.execRdmaWrite qpn d s
  | .rdmaWriteWithImmediate qpn d => Sys2Proof.Machine.execRdmaWriteWithImmediate qpn d s
  | .rdmaRead qpn d => Sys2Proof.Machine.execRdmaRead qpn d s
  | .recv qpn d => Sys2Proof.Machine.execRecv qpn d s
  | .pathFenceRead qpn idx ok => Sys2Proof.Machine.execPathFenceRead qpn idx ok s
  | .cqStalled qpn => Sys2Proof.Machine.execCqStalled qpn s
  | .dlDown => Sys2Proof.Machine.execDlDown s
  | .bmeRestored fn => Sys2Proof.Machine.execBmeRestored fn s
  | .flr fn => Sys2Proof.Machine.execFlr fn s
  | .perstAssert => Sys2Proof.Machine.execPerstAssert s
  | .pcieHotReset => Sys2Proof.Machine.execPcieHotReset s
  | .warmReset c => Sys2Proof.Machine.execWarmReset c s
  | .lidReset c => Sys2Proof.Machine.execLidReset c s
  | .pwrokCycle => Sys2Proof.Machine.execPwrokCycle s
  | .vaonPowerOn => Sys2Proof.Machine.execVaonPowerOn s
  | .deviceReady => Sys2Proof.Machine.execDeviceReady s
  | .fwFallback => Sys2Proof.Machine.execFwFallback s
  | .railDip rail mv => Sys2Proof.Machine.execRailDip rail mv s
  | .dipRecovered rail => Sys2Proof.Machine.execDipRecovered rail s
  | .dipTimeout rail mv => Sys2Proof.Machine.execDipTimeout rail mv s
  | .railUvReset rail => Sys2Proof.Machine.execRailUvReset rail s
  | .d3coldEntry => Sys2Proof.Machine.execD3coldEntry s
  | .d3coldWindowExpiry crossed => Sys2Proof.Machine.execD3coldWindowExpiry crossed s
  | .mainPowerReturn => Sys2Proof.Machine.execMainPowerReturn s
  | .refclkLoss => Sys2Proof.Machine.execRefclkLoss s
  | .refclkRestore => Sys2Proof.Machine.execRefclkRestore s
  | .clockLoopEval m => Sys2Proof.Machine.execClockLoopEval m s
  | .vrcAckRelease d => Sys2Proof.Machine.execVrcAckRelease d s
  | .thermalThrottle d tj => Sys2Proof.Machine.execThermalThrottle d tj s
  | .powerOverTdp watts => Sys2Proof.Machine.execPowerOverTdp watts s
  | .thermalTrip d tj => Sys2Proof.Machine.execThermalTrip d tj s
  | .blkIdleWaitEnd timedOut => Sys2Proof.Machine.execBlkIdleWaitEnd timedOut s
  | .blockRelease => Sys2Proof.Machine.execBlockRelease s
  | .shelfEntry => Sys2Proof.Machine.execShelfEntry s
  | .shelfExitReady => Sys2Proof.Machine.execShelfExitReady s
  | .pmcsrD3hot => Sys2Proof.Machine.execPmcsrD3hot s
  | .pmcsrD0 => Sys2Proof.Machine.execPmcsrD0 s
  | .ideInsecure => Sys2Proof.Machine.execIdeInsecure s
  | .jtagInstruction boundary => Sys2Proof.Machine.execJtagInstruction boundary s
  | .getMeasurements sess idx => Sys2Proof.Machine.execGetMeasurements sess idx s
  | .ideKm sess stream => Sys2Proof.Machine.execIdeKm sess stream s
  | .keyRelease sess r => Sys2Proof.Machine.execKeyRelease sess r s
  | .keyRevoke sess ctx => Sys2Proof.Machine.execKeyRevoke sess ctx s
  | .consentSet sess ctx dbg prof => Sys2Proof.Machine.execConsentSet sess ctx dbg prof s
  | .operatorSet sess digest => Sys2Proof.Machine.execOperatorSet sess digest s
  | .policySet sess cxlPlainOk => Sys2Proof.Machine.execPolicySet sess cxlPlainOk s
  | .debugUnlock sess => Sys2Proof.Machine.execDebugUnlock sess s
  | .removalDrain ctx => Sys2Proof.Machine.execRemovalDrain ctx s
  | .forcedAbort ctx => Sys2Proof.Machine.execForcedAbort ctx s
  | .keyZeroiseDone ctx => Sys2Proof.Machine.execKeyZeroiseDone ctx s
  | .contextScrubDone ctx => Sys2Proof.Machine.execContextScrubDone ctx s
  | .devCaps ch => Sys2Proof.Machine.execDevCaps ch s
  | .deviceReset ch => Sys2Proof.Machine.execDeviceReset ch s
  | .portAddrSet ch => Sys2Proof.Machine.execPortAddrSet ch s
  | .channelAssign ch => Sys2Proof.Machine.execChannelAssign ch s
  | .fwStage ch => Sys2Proof.Machine.execFwStage ch s
  | .fwActivate ch => Sys2Proof.Machine.execFwActivate ch s
  | .fwQuery ch => Sys2Proof.Machine.execFwQuery ch s
  | .ctxCreate ch => Sys2Proof.Machine.execCtxCreate ch s
  | .ctxSet ch => Sys2Proof.Machine.execCtxSet ch s
  | .ctxQuery ch => Sys2Proof.Machine.execCtxQuery ch s
  | .ctxRemove ch => Sys2Proof.Machine.execCtxRemove ch s
  | .ctxReset ch => Sys2Proof.Machine.execCtxReset ch s
  | .qpBlockAlloc ch => Sys2Proof.Machine.execQpBlockAlloc ch s
  | .qpBlockFree ch => Sys2Proof.Machine.execQpBlockFree ch s
  | .qpCreate ch => Sys2Proof.Machine.execQpCreate ch s
  | .qpDestroy ch => Sys2Proof.Machine.execQpDestroy ch s
  | .qpQuery ch => Sys2Proof.Machine.execQpQuery ch s
  | .qpRearm ch => Sys2Proof.Machine.execQpRearm ch s
  | .qpUndelivered ch => Sys2Proof.Machine.execQpUndelivered ch s
  | .qpRedeliver ch => Sys2Proof.Machine.execQpRedeliver ch s
  | .eventRingSet ch => Sys2Proof.Machine.execEventRingSet ch s
  | .apertureBind ch => Sys2Proof.Machine.execApertureBind ch s
  | .apertureUnbind ch => Sys2Proof.Machine.execApertureUnbind ch s
  | .mrRegister ch => Sys2Proof.Machine.execMrRegister ch s
  | .mrDeregister ch => Sys2Proof.Machine.execMrDeregister ch s
  | .ahSet ch => Sys2Proof.Machine.execAhSet ch s
  | .weaverRegister ch => Sys2Proof.Machine.execWeaverRegister ch s
  | .weaverPrefetch ch => Sys2Proof.Machine.execWeaverPrefetch ch s
  | .weaverPin ch => Sys2Proof.Machine.execWeaverPin ch s
  | .weaverQuery ch => Sys2Proof.Machine.execWeaverQuery ch s
  | .weaverRemove ch => Sys2Proof.Machine.execWeaverRemove ch s
  | .sideClaim ch => Sys2Proof.Machine.execSideClaim ch s
  | .sideRelease ch => Sys2Proof.Machine.execSideRelease ch s
  | .sideQuery ch => Sys2Proof.Machine.execSideQuery ch s
  | .stakeRegister ch => Sys2Proof.Machine.execStakeRegister ch s
  | .stakeBuild ch => Sys2Proof.Machine.execStakeBuild ch s
  | .stakeCommit ch => Sys2Proof.Machine.execStakeCommit ch s
  | .stakeAbort ch => Sys2Proof.Machine.execStakeAbort ch s
  | .stakeQuery ch => Sys2Proof.Machine.execStakeQuery ch s
  | .stakeEvict ch => Sys2Proof.Machine.execStakeEvict ch s
  | .stakeCarryQuery ch => Sys2Proof.Machine.execStakeCarryQuery ch s
  | .memRegionRegister ch => Sys2Proof.Machine.execMemRegionRegister ch s
  | .memRegionRemove ch => Sys2Proof.Machine.execMemRegionRemove ch s
  | .memSlowConfig ch => Sys2Proof.Machine.execMemSlowConfig ch s
  | .memMap ch => Sys2Proof.Machine.execMemMap ch s
  | .memUnmap ch => Sys2Proof.Machine.execMemUnmap ch s
  | .memQuotaSet ch => Sys2Proof.Machine.execMemQuotaSet ch s
  | .memPolicySet ch => Sys2Proof.Machine.execMemPolicySet ch s
  | .memEvict ch => Sys2Proof.Machine.execMemEvict ch s
  | .memPin ch => Sys2Proof.Machine.execMemPin ch s
  | .memFlush ch => Sys2Proof.Machine.execMemFlush ch s
  | .memQuery ch => Sys2Proof.Machine.execMemQuery ch s
  | .memPoisonQuery ch => Sys2Proof.Machine.execMemPoisonQuery ch s
  | .trainJobStart ch => Sys2Proof.Machine.execTrainJobStart ch s
  | .trainJobStop ch => Sys2Proof.Machine.execTrainJobStop ch s
  | .trainJobQuery ch => Sys2Proof.Machine.execTrainJobQuery ch s
  | .trainFeedback ch => Sys2Proof.Machine.execTrainFeedback ch s
  | .trainLearnPolicy ch => Sys2Proof.Machine.execTrainLearnPolicy ch s
  | .twineProbe ch => Sys2Proof.Machine.execTwineProbe ch s
  | .keyQuery ch => Sys2Proof.Machine.execKeyQuery ch s
  | .debugRequest ch => Sys2Proof.Machine.execDebugRequest ch s
  | .debugRelease ch => Sys2Proof.Machine.execDebugRelease ch s
  | .faultQuery ch => Sys2Proof.Machine.execFaultQuery ch s
  | .journalRead ch => Sys2Proof.Machine.execJournalRead ch s
  | .powerLimitSet ch => Sys2Proof.Machine.execPowerLimitSet ch s
  | .powerStateSet ch => Sys2Proof.Machine.execPowerStateSet ch s
  | .powerQuery ch => Sys2Proof.Machine.execPowerQuery ch s
  | .linkUp cxl p sub => Sys2Proof.Machine.execLinkUp cxl p sub s
  | .perstDeassert => Sys2Proof.Machine.execPerstDeassert s
  | .hoopRxLockChange locked => Sys2Proof.Machine.execHoopRxLockChange locked s
  | .keyExchange doe mutAuth requester => Sys2Proof.Machine.execKeyExchange doe mutAuth requester s
  | .spdmHeartbeatTimeout sess => Sys2Proof.Machine.execSpdmHeartbeatTimeout sess s
  | .evtModExpiry fn ring => Sys2Proof.Machine.execEvtModExpiry fn ring s
  | .roceAckTimeout qpn => Sys2Proof.Machine.execRoceAckTimeout qpn s
  | .pcieCompletionTimeout qpn idx fetch => Sys2Proof.Machine.execPcieCompletionTimeout qpn idx fetch s
  | .residencyReport dev r => Sys2Proof.Machine.execResidencyReport dev r s
  | .carryOutcome handle passed => Sys2Proof.Machine.execCarryOutcome handle passed s
  | .vrcAckTimeout d => Sys2Proof.Machine.execVrcAckTimeout d s
  | .vfEnable n => Sys2Proof.Machine.execVfEnable n s
  | .atsInvalidation addr len => Sys2Proof.Machine.execAtsInvalidation addr len s
  | .requestBufferWrite fn ch off wide v => Sys2Proof.Machine.execRequestBufferWrite fn ch off wide v s
  | .upsettImageStage img => Sys2Proof.Machine.execUpsettImageStage img s

end Sys2Proof.Machine
end

