-- ==== Sys2Proof/Safety.lean ====
section
/-! DEFINITION. What counts as a safe step and a safe state, in the terms that claims use. -/

namespace Sys2Proof.Machine

/-- The step answers a next state: neither a fault nor a refusal. -/
def goesOn (o : Host.Outcome State Fault Refusal) : Bool :=
  match o with
  | .next _ => true
  | .fault _ => false
  | .refused _ => false

/-- A state whose step goes on. -/
def Safe (s : State) : Prop := goesOn (step s) = true

/-- Both memories keep their canonical form: addresses rising, no entry equal to what an unlisted address reads as. -/
def Memory.wf (m : Mem) : Bool := Sys2Proof.Machine.wf (0 : Byte) m.hbm && Sys2Proof.Machine.wf (0 : Byte) m.slow

/-- A command completes: the device answers a next state, and it is as `P` says. -/
def Answers (c : Instr) (s : State) (P : State → Prop) : Prop := ∃ t, exec c s = .next t ∧ P t

/-- A stream stands at this instruction word, its block running, and the role of its cell takes the word; `p` is its site. -/
@[reducible] def Stands (opc lc : Nat) (st : Strm) (f : CellWord) (p : Site) (s : State) : Prop :=
  lc < 960 ∧ siteAt s lc st opc f = some p ∧ wordAt s lc st = some (encWord opc f) ∧ roleTakes (roleOf s lc) opc = true

/-- A stream has gone past its instruction: the next word of its block, `n` cell cycles later. -/
@[reducible] def Retired (lc : Nat) (st : Strm) (n : Nat) (s t : State) : Prop :=
  (t.stream lc st).off = (s.stream lc st).off + 1 ∧ (t.stream lc st).cycles = (s.stream lc st).cycles + n

/-- The instruction completes in its own cell: the stream retires it after `n` cell cycles, the other cells stay, and the cell is as `P`
says. -/
def CellAnswers (c : Instr) (lc : Nat) (st : Strm) (n : Nat) (s : State) (P : Cell → Prop) : Prop :=
  Answers c s fun t => Retired lc st n s t ∧ (∀ j, j ≠ lc → t.cell j = s.cell j) ∧ P (t.cell lc)

/-- An instruction writes elements of vector register `r`: those that `g` gives, in 32 bits; its other elements, the other registers, the
operand bank, table memory and the tray stay. -/
def WritesVreg (r : Nat) (c d : Cell) (g : Nat → Option Nat) : Prop :=
  (d.vreg r).live = true ∧ (∀ i, (d.vreg r).elem i = (g i).elim ((c.vreg r).elem i) fun v => v % 2 ^ 32) ∧
  (∀ q, q ≠ r → d.vreg q = c.vreg q) ∧ d.bank = c.bank ∧ d.table = c.table ∧ d.slots = c.slots

/-- A cell whose stream has gone past an instruction in `n` cell cycles. -/
def Cell.past (st : Strm) (n : Nat) (c : Cell) : Cell :=
  c.modStream st fun x => { x with off := x.off + 1, cycles := x.cycles + n }

/-- A byte table that took the bytes `g` gives for `n` addresses from `a` on, and kept the others. -/
def Stored (t u : Tab Byte) (a n : Nat) (g : Nat → Byte) : Prop :=
  ∀ k, look 0 u k = if a ≤ k ∧ k < a + n then g (k - a) else look 0 t k

/-- The count and the reserved bits of a vector instruction are legal (R111). -/
@[reducible] def VecOk (p : Site) : Prop := 1 ≤ p.cnt ∧ p.cnt ≤ 4096 ∧ p.op 6 3 = 0

/-- The request that stands in a channel. -/
def reqOn (s : State) (ch : Nat) : Req := reqOf (s.chan ch) (reqNat (s.chan ch))

/-- A command has been accepted on a channel, it is its turn, and it passes the checks that every command passes. -/
@[reducible] def Admitted (l : Layout) (present : Bool) (owns : Req → Bool) (ch : Nat) (s : State) : Prop :=
  ch < 64 ∧ chanState (s.chan ch) = Ch.busy ∧ (s.chan ch).discard = false ∧ bytesAt (reqNat (s.chan ch)) 0 2 = l.op ∧
  turnOf s ch l.op = true ∧ checkReq s l present owns (s.chan ch) (reqOn s ch) (reqNat (s.chan ch)) = none

/-- The response that stands in a channel answers the request that stood in it. -/
@[reducible] def Responded (ch : Nat) (x : Reply) (s t : State) : Prop :=
  t.chan ch = respond s (s.chan ch) x.status x.detail x.len x.payload

/-! ### Frames -/

/-- The parts of the state, as a frame speaks of them. -/
inductive Part where
  /-- the fitted variant -/
  | variant
  /-- the waiting commands -/
  | pending
  /-- the supply of free values -/
  | free
  /-- what left the device -/
  | out
  /-- the read latches of BAR0 -/
  | latch
  /-- the reserved-access count -/
  | rsvdAcc
  /-- the round timing -/
  | rnd
  /-- the budgets -/
  | bud
  /-- the cells -/
  | cells
  /-- the spare map -/
  | ups
  /-- the courses -/
  | crs
  /-- the weaver directory, sessions and side slots -/
  | weav
  /-- the stakes -/
  | stakes
  /-- the bytes of the HBM frames -/
  | hbm
  /-- the bytes of the slow tier -/
  | slow
  /-- the page, frame, account and region tables -/
  | tables
  /-- the memory dies -/
  | msd
  /-- the training jobs -/
  | train
  /-- the Ethernet ports -/
  | ports
  /-- the CXL ports -/
  | cxl
  /-- the hoop block -/
  | hoop
  /-- the host interface: functions, queue pairs, flows -/
  | host
  /-- the mailbox -/
  | mb
  /-- the contexts -/
  | ctxs
  /-- the keys, sessions and measurements -/
  | lid
  /-- the fault journal and counters -/
  | flt
  /-- clocks, supplies and power states -/
  | pwr
  /-- resets -/
  | rst
  /-- the firmware images -/
  | fw
  /-- the levels of the strap pins -/
  | straps
  /-- the frames that a pause holds -/
  | txHeld
  deriving DecidableEq, Repr

/-- A memory without its bytes. -/
abbrev memTables (m : Mem) : Mem := { m with hbm := [], slow := [] }

/-- The part is the same in `t` as in `s`. -/
def Part.same (p : Part) (s t : State) : Prop :=
  match p with
  | .variant => t.variant = s.variant
  | .pending => t.pending = s.pending
  | .free => t.free = s.free
  | .out => t.out = s.out
  | .latch => t.latch = s.latch
  | .rsvdAcc => t.rsvdAcc = s.rsvdAcc
  | .rnd => t.rnd = s.rnd
  | .bud => t.bud = s.bud
  | .cells => t.cells = s.cells
  | .ups => t.ups = s.ups
  | .crs => t.crs = s.crs
  | .weav => t.weav = s.weav
  | .stakes => t.stakes = s.stakes
  | .hbm => t.mem.hbm = s.mem.hbm
  | .slow => t.mem.slow = s.mem.slow
  | .tables => memTables t.mem = memTables s.mem
  | .msd => t.msd = s.msd
  | .train => t.train = s.train
  | .ports => t.ports = s.ports
  | .cxl => t.cxl = s.cxl
  | .hoop => t.hoop = s.hoop
  | .host => t.host = s.host
  | .mb => t.mb = s.mb
  | .ctxs => t.ctxs = s.ctxs
  | .lid => t.lid = s.lid
  | .flt => t.flt = s.flt
  | .pwr => t.pwr = s.pwr
  | .rst => t.rst = s.rst
  | .fw => t.fw = s.fw
  | .straps => t.straps = s.straps
  | .txHeld => t.txHeld = s.txHeld

/-- The parts that a command may change; a reset or a round boundary may change all that it reaches. -/
def mayChange (c : Instr) : List Part :=
  match c with
  | .bar0LowRead _ _ | .bar0HighRead _ _ =>
    [.out, .latch]
  | .registerWrite _ _ _ _ | .rndSrcSet _ _ | .rndEnableSet _ _ | .rndLock _ _ | .rndLenSet _ _ | .rndNumSet _ _
  | .budShareWrite _ _ _ | .mbGo _ _ _ | .mbAck _ _ _ | .hoopJoin _ _ | .hoopBypassReq _ _ | .hoopLock _ _ | .gtimeWrite _ _
  | .portEnable _ _ _ | .portLock _ _ _ | .blkRstGo _ _ | .eventHeadWrite _ _ _ | .requestBufferWrite _ _ _ _ _ =>
    [.out, .rsvdAcc, .rnd, .bud, .msd, .ports, .hoop, .host, .mb, .lid, .flt, .rst, .txHeld]
  | .sqTail _ _ _ _ _ | .cqHead _ _ _ _ _ | .rqTail _ _ _ _ _ =>
    [.free, .out, .bud, .host]
  | .apertureAccess _ =>
    [.free, .out, .bud, .hbm, .slow, .tables, .msd, .host]
  | .ldw _ _ _ | .attn _ _ _ | .gemv _ _ _ | .poisonHoldExpiry _ =>
    [.out, .bud, .cells, .crs, .weav, .tables, .msd, .train, .host, .flt]
  | .ldwDataArrived _ _ | .beatWriteback _ _ | .bankZeroDone _ =>
    [.cells]
  | .stw _ _ _ | .mov _ _ _ | .vld _ _ _ | .vst _ _ _ | .tbw _ _ _ | .put _ _ _ | .mma _ _ _ | .slr _ _ _ | .drn _ _ _
  | .tsv _ _ _ | .tld _ _ _ | .tzr _ _ _ | .nop _ _ _ | .rcl _ _ _ | .blockLoad _ _ | .vmov _ _ _ | .vadd _ _ _ | .vsub _ _ _
  | .vmul _ _ _ | .vfma _ _ _ | .vmax _ _ _ | .vmin _ _ _ | .vabs _ _ _ | .vneg _ _ _ | .vrcp _ _ _ | .vrsq _ _ _
  | .vexp2 _ _ _ | .vceq _ _ _ | .vcgt _ _ _ | .vcge _ _ _ | .vsel _ _ _ | .vcvt _ _ _ | .vqnt _ _ _ | .vrsum _ _ _
  | .vrmax _ _ _ | .viadd _ _ _ | .visub _ _ _ | .vimul _ _ _ | .vshl _ _ _ | .vshr _ _ _ | .vand _ _ _ | .vor _ _ _
  | .vxor _ _ _ | .vimax _ _ _ | .vimin _ _ _ | .tlk _ _ _ | .tlkn _ _ _ | .tlkm _ _ _ =>
    [.out, .bud, .cells, .crs, .host, .flt]
  | .stwAccepted _ _ | .adamw _ _ _ | .sgdm _ _ _ | .acc _ _ _ | .publishApply _ | .memberSilence _ _ | .courseComplete _ =>
    [.out, .bud, .cells, .crs, .weav, .hbm, .slow, .tables, .msd, .train, .host, .flt]
  | .putDelivered _ _ =>
    [.cells, .msd]
  | .syn _ _ _ | .synTimeout _ _ | .endBlock _ _ _ =>
    [.free, .out, .bud, .cells, .crs, .host, .flt]
  | .sig _ _ _ | .flitReplayFail _ _ | .slathEngineFault _ _ =>
    [.out, .bud, .cells, .crs, .msd, .host, .flt]
  | .ulistTimeout _ _ =>
    [.out, .bud, .crs, .msd, .host, .flt]
  | .roundTick | .perstAssert | .pcieHotReset | .warmReset _ =>
    [.free, .out, .latch, .rsvdAcc, .rnd, .bud, .cells, .ups, .crs, .weav, .stakes, .hbm, .slow, .tables, .msd, .train, .ports, .cxl, .hoop, .host, .mb, .ctxs, .lid, .flt, .pwr, .rst, .fw, .txHeld]
  | .weaverHeatDecay =>
    [.rnd, .weav]
  | .stakeUseDecay =>
    [.rnd, .stakes]
  | .frameHeatDecay =>
    [.rnd, .tables]
  | .genClose _ | .stakeReady _ _ _ _ _ | .stakeGo _ _ _ | .stakeCurrent _ _ =>
    [.stakes]
  | .parkTimeout _ _ | .serve _ _ =>
    [.out, .bud, .crs, .weav, .tables, .msd, .host, .flt]
  | .unitAdmit _ =>
    [.bud, .cells]
  | .localTick | .holdoverEntry | .refclkRestore =>
    [.rnd]
  | .tickFrameSend | .jtagInstruction _ | .getMeasurements _ _ =>
    [.out]
  | .tickFrameReceive _ _ =>
    [.out, .rnd, .hoop]
  | .holdoverTick | .isolatedEntry =>
    [.out, .rnd, .bud, .host, .flt]
  | .mgmtFrameReceive _ | .commitAnnounce _ =>
    [.out, .bud, .stakes, .hoop, .host, .flt]
  | .present _ _ | .bypassSwitch | .bypassForcedClose _ | .hoopRxLockChange _ =>
    [.hoop]
  | .stakeAbortMsg _ _ _ =>
    [.out, .bud, .stakes, .host, .flt]
  | .waleData _ _ | .waleNak _ _ | .waleResendTimeout _ | .pfcFrame _ _ _ =>
    [.out, .bud, .ports, .host, .txHeld]
  | .waleAck _ _ | .waleOpenAck _ _ | .waleAckTimer _ =>
    [.out, .bud, .host, .txHeld]
  | .waleOpen _ _ =>
    [.free, .out, .bud, .host, .txHeld]
  | .waleClose _ _ =>
    [.out, .ports, .host]
  | .segmentTableReceive _ =>
    [.bud, .crs]
  | .twineResult _ _ | .twineBounce _ _ | .pieceLost _ _ _ | .ringContrib _ _ | .bucketSend _ _ | .ownerReport _ _
  | .verdict _ _ =>
    [.free, .out, .bud, .cells, .crs, .weav, .hbm, .slow, .tables, .msd, .train, .ports, .host, .flt, .txHeld]
  | .twineProbeReply _ _ =>
    [.out, .bud, .train, .host, .mb]
  | .probeTimeout _ _ | .publish _ _ _ =>
    [.out, .bud, .train, .host, .flt]
  | .bucketLate _ _ =>
    [.train]
  | .workingCopyShard _ _ _ _ =>
    [.bud, .hbm, .slow, .tables, .msd, .train]
  | .stepLedger _ _ =>
    [.hbm, .slow, .tables, .msd, .train]
  | .learningStepStart _ =>
    [.out, .bud, .weav, .hbm, .slow, .tables, .msd, .train, .flt, .txHeld]
  | .peerShardRequest _ =>
    [.out, .bud]
  | .buildShardFetched _ _ =>
    [.out, .bud, .stakes, .hbm, .tables, .msd, .host, .flt]
  | .peerShardTimeout _ =>
    [.out, .bud, .stakes, .tables, .host, .flt]
  | .carryCheck _ _ =>
    [.out, .weav]
  | .weaverShardFetched _ _ =>
    [.out, .bud, .crs, .weav, .hbm, .tables, .msd, .host, .flt]
  | .frameFillDone _ | .promotionDone _ | .patrolScrub _ _ | .hbmUncorrectable _ _ _ =>
    [.out, .bud, .hbm, .tables, .msd, .host, .flt]
  | .evictionDone _ =>
    [.free, .bud, .weav, .slow, .tables, .msd]
  | .frameZeroDone _ =>
    [.out, .bud, .weav, .stakes, .hbm, .tables, .host, .flt]
  | .cleaningPassDone _ =>
    [.out, .bud, .weav, .slow, .tables, .msd, .host, .flt]
  | .weaverRemoveComplete _ =>
    [.out, .bud, .weav, .slow, .host, .flt]
  | .slowTierPoison _ _ | .repairSourceTimeout _ _ =>
    [.out, .bud, .tables, .host, .flt]
  | .repairDone _ _ _ =>
    [.out, .bud, .hbm, .slow, .tables, .host, .flt]
  | .cellFailure _ | .restoreCheck _ =>
    [.out, .bud, .cells, .ups, .crs, .msd, .host, .flt]
  | .spareLoadDone _ =>
    [.out, .bud, .cells, .ups, .crs, .weav, .hbm, .slow, .tables, .msd, .train, .host, .flt]
  | .cellSaveDone _ =>
    [.cells, .ups, .hbm, .tables]
  | .linkRetrainDone _ _ _ | .fabricFailed _ _ | .sramUncorrectable _ _ =>
    [.out, .bud, .cells, .crs, .weav, .hbm, .slow, .tables, .msd, .train, .hoop, .host, .flt]
  | .migrationEngineFault _ | .descNop _ _ | .copy _ _ | .recv _ _ | .pcieCompletionTimeout _ _ _ =>
    [.out, .bud, .host, .flt]
  | .copyEngineFault _ =>
    [.out, .bud, .host, .flt, .rst]
  | .firmwareWatchdog =>
    [.out, .bud, .train, .host, .mb, .flt]
  | .lidSelfCheckFail | .lidReset _ | .pwrokCycle | .vaonPowerOn | .railUvReset _ | .d3coldEntry | .d3coldWindowExpiry _
  | .mainPowerReturn | .operatorSet _ _ =>
    [.free, .out, .latch, .rsvdAcc, .rnd, .bud, .cells, .ups, .crs, .weav, .stakes, .hbm, .slow, .tables, .msd, .train, .ports, .cxl, .hoop, .host, .mb, .ctxs, .lid, .flt, .pwr, .rst, .fw, .straps, .txHeld]
  | .linkDown _ _ _ =>
    [.out, .bud, .ports, .cxl, .host, .lid, .flt, .txHeld]
  | .cxlIdeLoss _ | .cxlIdeReturn _ | .ideInsecure | .removalDrain _ | .spdmHeartbeatTimeout _ =>
    [.lid]
  | .ethFrameReceive _ _ _ | .pfcXonSend _ _ =>
    [.out, .ports]
  | .pauseFrame _ =>
    []
  | .mkaFrame _ _ _ =>
    [.ports, .lid]
  | .neighborSolicitation _ _ | .echoRequest _ _ _ | .arpRequest _ _ =>
    [.out, .txHeld]
  | .rocePacket _ _ =>
    [.out, .bud, .cells, .hbm, .slow, .tables, .msd, .host, .flt, .txHeld]
  | .cnp _ | .roceRateRestore _ | .vfEnable _ =>
    [.host]
  | .copyBurst _ _ _ =>
    [.out, .bud, .cells, .hbm, .slow, .tables, .msd, .host, .flt]
  | .send _ _ | .sendWithImmediate _ _ | .rdmaWrite _ _ | .rdmaWriteWithImmediate _ _ | .rdmaRead _ _ =>
    [.out, .bud, .cells, .tables, .msd, .host, .flt, .txHeld]
  | .pathFenceRead _ _ _ =>
    [.out, .bud, .tables, .msd, .host, .flt]
  | .cqStalled _ | .bmeRestored _ =>
    [.out, .bud, .host]
  | .dlDown =>
    [.free, .out, .bud, .host, .flt]
  | .flr _ =>
    [.free, .out, .bud, .cells, .ups, .crs, .weav, .hbm, .slow, .tables, .msd, .train, .host, .mb, .flt]
  | .deviceReady =>
    [.out, .cxl, .host, .ctxs, .lid, .pwr, .rst, .fw]
  | .fwFallback =>
    [.out, .bud, .host, .lid, .flt, .fw]
  | .railDip _ _ =>
    [.out, .rnd, .bud, .host, .flt, .pwr]
  | .dipRecovered _ =>
    [.free, .out, .bud, .host, .flt, .pwr]
  | .dipTimeout _ _ | .clockLoopEval _ | .vrcAckRelease _ | .thermalThrottle _ _ | .powerOverTdp _ | .pmcsrD0 =>
    [.out, .bud, .host, .flt, .pwr]
  | .refclkLoss =>
    [.free, .out, .rnd, .bud, .ports, .cxl, .host, .lid, .flt, .txHeld]
  | .thermalTrip _ _ =>
    [.out, .bud, .cells, .crs, .weav, .hbm, .slow, .tables, .msd, .train, .hoop, .host, .flt, .pwr]
  | .blkIdleWaitEnd _ =>
    [.free, .out, .bud, .cells, .crs, .msd, .ports, .cxl, .hoop, .host, .lid, .flt, .rst, .txHeld]
  | .blockRelease =>
    [.out, .bud, .cells, .crs, .weav, .hbm, .slow, .tables, .msd, .train, .host, .flt, .rst]
  | .shelfEntry =>
    [.out, .bud, .cells, .ups, .hbm, .tables, .host, .flt, .pwr]
  | .shelfExitReady =>
    [.out, .pwr]
  | .pmcsrD3hot | .vrcAckTimeout _ =>
    [.pwr]
  | .ideKm _ _ | .policySet _ _ | .debugUnlock _ | .keyExchange _ _ _ =>
    [.out, .lid]
  | .keyRelease _ _ =>
    [.out, .ports, .ctxs, .lid]
  | .keyRevoke _ _ =>
    [.out, .bud, .cells, .crs, .weav, .hbm, .slow, .tables, .msd, .train, .ports, .host, .ctxs, .lid, .flt, .txHeld]
  | .consentSet _ _ _ _ =>
    [.out, .ctxs, .lid]
  | .forcedAbort _ =>
    [.out, .bud, .weav, .tables, .host, .lid, .flt]
  | .keyZeroiseDone _ =>
    [.ctxs, .lid]
  | .contextScrubDone _ =>
    [.out, .bud, .crs, .weav, .slow, .tables, .train, .host, .ctxs, .flt]
  | .devCaps _ | .channelAssign _ | .fwQuery _ | .ctxQuery _ | .qpBlockFree _ | .qpQuery _ | .qpRearm _ | .qpUndelivered _
  | .eventRingSet _ | .apertureBind _ | .ahSet _ | .weaverQuery _ | .sideQuery _ | .stakeQuery _ | .stakeCarryQuery _
  | .memQuery _ | .memPoisonQuery _ | .trainJobQuery _ | .keyQuery _ | .faultQuery _ | .powerQuery _ =>
    [.out, .bud, .host, .mb]
  | .deviceReset _ =>
    [.out, .bud, .host, .mb, .rst]
  | .portAddrSet _ =>
    [.out, .bud, .ports, .host, .mb]
  | .fwStage _ =>
    [.out, .bud, .tables, .msd, .host, .mb, .fw]
  | .fwActivate _ =>
    [.out, .bud, .host, .mb, .fw]
  | .ctxCreate _ =>
    [.out, .bud, .tables, .host, .mb, .ctxs]
  | .ctxSet _ =>
    [.out, .bud, .host, .mb, .ctxs]
  | .ctxRemove _ =>
    [.out, .bud, .cells, .crs, .weav, .hbm, .slow, .tables, .msd, .train, .ports, .host, .mb, .ctxs, .lid, .flt, .txHeld]
  | .ctxReset _ =>
    [.out, .bud, .host, .mb, .ctxs, .lid]
  | .qpBlockAlloc _ | .mrRegister _ =>
    [.free, .out, .bud, .host, .mb]
  | .qpCreate _ | .memRegionRegister _ | .memRegionRemove _ | .memSlowConfig _ | .memMap _ | .memQuotaSet _ | .memPolicySet _
  | .memEvict _ | .memPin _ =>
    [.out, .bud, .tables, .host, .mb]
  | .qpDestroy _ | .qpRedeliver _ | .apertureUnbind _ | .mrDeregister _ =>
    [.out, .bud, .tables, .msd, .host, .mb, .flt]
  | .weaverRegister _ | .weaverPrefetch _ =>
    [.out, .bud, .weav, .tables, .host, .mb]
  | .weaverPin _ | .sideClaim _ | .sideRelease _ =>
    [.out, .bud, .weav, .host, .mb]
  | .weaverRemove _ =>
    [.out, .bud, .crs, .weav, .slow, .tables, .msd, .host, .mb, .flt]
  | .stakeRegister _ =>
    [.out, .bud, .stakes, .host, .mb, .lid]
  | .stakeBuild _ =>
    [.out, .bud, .weav, .stakes, .tables, .host, .mb, .flt]
  | .stakeCommit _ =>
    [.out, .bud, .stakes, .hoop, .host, .mb]
  | .stakeAbort _ =>
    [.out, .bud, .stakes, .tables, .host, .mb, .flt]
  | .stakeEvict _ =>
    [.out, .bud, .stakes, .host, .mb]
  | .memUnmap _ | .memFlush _ =>
    [.out, .bud, .tables, .host, .mb, .flt]
  | .trainJobStart _ =>
    [.out, .bud, .weav, .hbm, .slow, .tables, .msd, .train, .host, .mb, .flt, .txHeld]
  | .trainJobStop _ =>
    [.out, .bud, .cells, .crs, .weav, .hbm, .slow, .tables, .msd, .train, .host, .mb, .flt]
  | .trainFeedback _ | .trainLearnPolicy _ =>
    [.out, .bud, .tables, .msd, .train, .host, .mb]
  | .twineProbe _ =>
    [.out, .bud, .train, .host, .mb, .txHeld]
  | .debugRequest _ | .debugRelease _ =>
    [.out, .bud, .host, .mb, .lid]
  | .journalRead _ =>
    [.out, .bud, .hbm, .slow, .tables, .msd, .host, .mb]
  | .powerLimitSet _ =>
    [.out, .bud, .host, .mb, .pwr]
  | .powerStateSet _ =>
    [.out, .bud, .host, .mb, .flt, .pwr]
  | .linkUp _ _ _ =>
    [.ports, .cxl, .lid]
  | .perstDeassert =>
    [.host, .rst]
  | .evtModExpiry _ _ | .atsInvalidation _ _ =>
    [.out, .host]
  | .roceAckTimeout _ =>
    [.out, .bud, .tables, .msd, .host, .flt, .txHeld]
  | .residencyReport _ _ =>
    [.crs]
  | .carryOutcome _ _ =>
    [.weav]
  | .upsettImageStage _ =>
    [.ups, .lid]

end Sys2Proof.Machine
end

