-- ==== Sys2Proof/Certificates/Slice0/Obligations.lean ====
section
/-! DEFINITION. The statements for the provers, each from the numbered rules that its docstring names. Where one rests on a choice of
the model its docstring names the log entry. -/

open Sys2Proof Sys2Proof.Machine

/-- The queue of the block: a step carries the command at its front out with the queue's rest; an empty queue leaves the block as it is (DESIGN CHOICE, log
entry 1). No word of the table spells a command, since the table gives its rows no bits. -/
def Obligations.StepTakesFront : Prop :=
  ∀ (s : State),
    (∀ c rest, step { s with pending := c :: rest } = exec c { s with pending := rest }) ∧
    (s.pending = [] → step s = .next s) ∧
    (∀ nbits w, decodeTableWord nbits w = none ∧ s.withFetchWord nbits w = s)

/-- What reset leaves, and that the invariants hold there: the rounds stopped in LOCAL at number 0, LEN 2, HOLD_MAX 16; the shares of R37; context 0 on
channel 0; the part READY and running after a cold reset; nothing mapped, queued, charged, journalled or held. -/
def Obligations.ResetState : Prop :=
  let s := State.reset
  s.pending = [] ∧ Memory.wf s.mem = true ∧ s.mem.hbm = [] ∧ s.mem.pte = [] ∧ s.mem.frames = [] ∧
  s.rnd.enable = false ∧ s.rnd.src = 0 ∧ s.rnd.num = 0 ∧ s.rnd.len = 2 ∧ s.rnd.lenEff = 2 ∧ s.rnd.holdMax = 16 ∧ s.rnd.lock = false ∧
  (∀ c, look ({} : Cost) s.bud.share c = if c = 0 then ⟨1000, 1000, 1000⟩ else if c = 6 ∨ c = 7 then ⟨12, 12, 12⟩ else ⟨0, 0, 0⟩) ∧
  s.bud.isOpen = false ∧ (∀ c, tallyOf s c = {}) ∧ s.hoop.bypassed = true ∧
  (∀ c, (s.ctx c).state = if c = 0 then .active else .free) ∧ (∀ ch, chanState (s.chan ch) = if ch = 0 then Ch.idle else Ch.unassigned) ∧
  (∀ q, (s.qp q).state = .free) ∧ (∀ n, (s.tkey n).state = if n = 0 then .live else .empty) ∧ (∀ n, (s.sess n).isOpen = false) ∧
  (∀ h, (s.weaver h).state = .free) ∧ (∀ i, (s.stake i).reg = false) ∧ (∀ p, (s.port p).enable = false ∧ (s.port p).linkUp = 0) ∧
  (∀ j e, (s.cell j).course = none ∧ look 0 (s.cell j).bank e = 0) ∧ s.crs.running = [] ∧ s.flt.head = 0 ∧ s.flt.halted = false ∧
  s.lid.ready = true ∧ s.rst.running = true ∧ s.rst.cls = 0 ∧ s.host.linkUp = true

/-- Every command completes from every state, on its well-formed operands and on no others: an out-of-range unit is the one stop of the model (log entry
2). -/
def Obligations.CommandsComplete : Prop :=
  ∀ (c : Instr) (s : State), ((∃ t, exec c s = .next t) ↔ c.wf = true) ∧ (c.wf = false → exec c s = .fault .noSuchUnit)

/-- An invariant of the queue that every step keeps: the waiting commands are well formed. A step takes exactly the front one, and goes on. -/
def Obligations.QueueStaysWellFormed : Prop :=
  ∀ (s : State), (∀ c ∈ s.pending, c.wf = true) →
    Safe s ∧ ∀ t, step s = .next t → (∀ c ∈ t.pending, c.wf = true) ∧ t.pending = s.pending.tail

/-- An invariant of the two memories that every step keeps: their canonical form, so that equal memories are equal data. -/
def Obligations.MemoryStaysCanonical : Prop :=
  ∀ (s t : State), Memory.wf s.mem = true → step s = .next t → Memory.wf t.mem = true

/-- The frame of every command, in every form: a part of the state that the command may not change is the same in its next state. -/
def Obligations.EveryCommandFrame : Prop :=
  ∀ (c : Instr) (s t : State), exec c s = .next t → ∀ p, p ∉ mayChange c → p.same s t

/-- R32: RND_NUM keeps its value over every command but a tick at ROUND_TICK, a register write while ENABLE is 0, and a reset. (Adoption from the hoop is
part of ROUND_TICK; log entry 3 for resets stronger than class W.) -/
def Obligations.RoundNumber : Prop :=
  ∀ (c : Instr) (s t : State), exec c s = .next t →
    t.rnd.num = s.rnd.num ∨ c = .roundTick ∨
    (s.rnd.enable = false ∧ ((∃ fn v, c = .rndNumSet fn v) ∨ ∃ fn off v, c = .registerWrite fn off true v ∧ off = 0x10010)) ∨
    (t.rnd.num = 0 ∧ c ∈ [.lidSelfCheckFail, .perstAssert, .pcieHotReset, .pwrokCycle, .vaonPowerOn, .d3coldEntry, .mainPowerReturn]) ∨
    (t.rnd.num = 0 ∧ ((∃ x, c = .warmReset x) ∨ (∃ x, c = .lidReset x) ∨ (∃ r, c = .railUvReset r) ∨ (∃ r, c = .d3coldWindowExpiry r) ∨
      ∃ n, c = .operatorSet n 0))

/-- R106: an integer result in a destination of `w` bits, signed or unsigned, as the value that its encoding stands for. -/
def Obligations.IntegerRange : Prop :=
  ∀ (w : Nat) (signed sat : Bool) (v : Int), 1 ≤ w →
    let lo : Int := if signed then -(2 ^ (w - 1)) else 0
    let hi : Int := if signed then 2 ^ (w - 1) - 1 else 2 ^ w - 1
    let n := intBits w signed sat v
    let r : Int := if signed then signedOf w n else n
    n < 2 ^ w ∧ lo ≤ r ∧ r ≤ hi ∧ (lo ≤ v → v ≤ hi → r = v) ∧
    (sat = true → (v < lo → r = lo) ∧ (hi < v → r = hi)) ∧ (sat = false → r % 2 ^ w = v % 2 ^ w)

/-- R310: on GW960-S every command of the 0x07xx group that is carried out completes with UNIT_ABSENT and changes no state but its channel's; a Twine frame
is dropped and counted in TWN_ERR.DROP and does nothing else; every other Twine counter reads as zero. -/
def Obligations.TrainingAbsentOnS : Prop :=
  ∀ (s : State), hasTrain s = false →
    (∀ ch, ch < 64 → chanState (s.chan ch) = Ch.busy → (s.chan ch).discard = false → s.flt.halted = false → ctxGoing s (s.chan ch).ctx = false →
      s.pwr.state ≠ .shelf → s.pwr.state ≠ .d3hot → s.train.probe = none → turnOf s ch 0x0700 = true →
      ∀ c ∈ [(Instr.trainJobStart ch, 0x0701), (.trainJobStop ch, 0x0702), (.trainJobQuery ch, 0x0703), (.trainFeedback ch, 0x0704),
          (.trainLearnPolicy ch, 0x0705), (.twineProbe ch, 0x0706)], bytesAt (reqNat (s.chan ch)) 0 2 = c.2 →
        Answers c.1 s fun t => Responded ch (fail St.unitAbsent) s t ∧ (∀ n, n ≠ ch → t.chan n = s.chan n) ∧ t.host.qps = s.host.qps ∧
          ∀ p, p ∉ [Part.out, .host, .mb] → p.same s t) ∧
    (∀ p w, p < 12 → ∀ c ∈ [Instr.twineResult p w, .twineBounce p w, .twineProbeReply p w],
      Answers c s fun t => (look {} t.train.twn p).drop = sat 16 ((look {} s.train.twn p).drop + 1) ∧ t.out = s.out ∧
        t.train.jobs = s.train.jobs ∧ t.train.probe = s.train.probe ∧ ∀ x, x ≠ Part.train → x.same s t) ∧
    (∀ p, p < 12 → readReg s 0 (0x200000 + 0x10000 * p + 0xF000) = 0 ∧ bits (readReg s 0 (0x200000 + 0x10000 * p + 0xF008)) 0 48 = 0)

/-- R33: a write to the ROUND or BUDGET region through a virtual function is dropped and counted as a reserved access. -/
def Obligations.VirtualFunctionWritesDropped : Prop :=
  ∀ (s : State) (fn off : Nat) (wide : Bool) (v : BitVec 64), 1 ≤ fn → fn < 128 → barLive s fn = true → 0x10000 ≤ off → off < 0x30000 →
    exec (.registerWrite fn off wide v) s = .next { s with rsvdAcc := sat 32 (s.rsvdAcc + 1) } ∧
    (∀ c ∈ [Instr.rndSrcSet fn v, .rndEnableSet fn v, .rndLock fn v, .rndLenSet fn v, .rndNumSet fn v],
      exec c s = .next { s with rsvdAcc := sat 32 (s.rsvdAcc + 1) }) ∧
    (∀ k, k < 8 → exec (.budShareWrite fn k v) s = .next { s with rsvdAcc := sat 32 (s.rsvdAcc + 1) })

/-- R327: a SEALED packet whose KEYID names no live key, or whose tag fails, is dropped, counted in SEAL_DROP, and not acknowledged. -/
def Obligations.SealedPacketDrops : Prop :=
  ∀ (s : State) (p : Nat) (w : WalePkt), p < 12 → w.isSealed = true → (keyLive s w.keyId = false ∨ ∃ f, flowFor s p w = some f ∧
    w.tag ≠ sealTag f.sealKey (!f.opener) w) →
    Answers (.waleData p w) s fun t => (t.port p).sealDrop = sat 16 ((s.port p).sealDrop + 1) ∧ t.out = s.out ∧ t.host = s.host ∧
      t.mem = s.mem ∧ (∀ q, q ≠ p → t.port q = s.port q)

/-- R30, R485, R8 and R6: a write to RND_CTL by any of its three rows, through the PF of a live device. R31, R32, R485: a write to RND_LEN and a write to
RND_NUM leave exactly these states. -/
def Obligations.RoundRegisterWrites : Prop :=
  (∀ (s : State) (v : BitVec 64), barLive s 0 = true → ∀ c ∈ [Instr.rndSrcSet 0 v, .rndEnableSet 0 v, .rndLock 0 v],
    Answers c s fun t =>
      t.rnd.enable = bit v.toNat 2 ∧
      t.rnd.lock = (s.rnd.lock || bit v.toNat 16) ∧
      t.rnd.num = s.rnd.num ∧
      (if s.rnd.lock then t.rnd.src = s.rnd.src ∧ t.rnd.holdMax = s.rnd.holdMax ∧ t.rsvdAcc = s.rsvdAcc
       else t.rnd.holdMax = bits v.toNat 8 8 ∧
         (if bits v.toNat 0 2 = 3 then t.rnd.src = s.rnd.src ∧ t.rsvdAcc = sat 32 (s.rsvdAcc + 1)
          else t.rnd.src = bits v.toNat 0 2 ∧ t.rsvdAcc = s.rsvdAcc)) ∧
      (s.rnd.enable = true → bit v.toNat 2 = false → t.bud.isOpen = false ∧ t.rnd.tick = none))
  ∧
  (∀ (s : State) (v : BitVec 64), barLive s 0 = true →
    exec (.rndNumSet 0 v) s = .next (if s.rnd.enable then s else { s with rnd := { s.rnd with num := v.toNat } }) ∧
    exec (.rndLenSet 0 v) s = .next (
      let n := bits v.toNat 0 6
      if n = 0 ∨ 32 < n then { s with rsvdAcc := sat 32 (s.rsvdAcc + 1) }
      else if isFollower s then { s with rnd := { s.rnd with len := n } }
      else if s.rnd.enable then
        { s with rnd := { s.rnd with len := n, lenDue := (s.rnd.lenDue.filter fun x => x.1 != s.rnd.num + 2) ++ [(s.rnd.num + 2, n)] } }
      else { s with rnd := { s.rnd with len := n, lenEff := n, lenDue := [] } }))

/-- R38, R8, R335 to R337: writes to BUD_SHARE[c] and to HOOP_CTL and HOOP_GTIME leave exactly these states. R8, R311, R312, R452, R454, R360: writes to
PORT_CFG, BLK_RST and EVT_HEAD. -/
def Obligations.BlockRegisterWrites : Prop :=
  (∀ (s : State) (v : BitVec 64), barLive s 0 = true →
    (∀ c, c < 8 → exec (.budShareWrite 0 c v) s = .next (
      if noShare s c then { s with rsvdAcc := sat 32 (s.rsvdAcc + 1) }
      else { s with bud := { s.bud with
        shadow := store {} s.bud.shadow c ⟨bits v.toNat 0 11, bits v.toNat 16 11, bits v.toNat 32 11⟩ } })) ∧
    (∀ c ∈ [Instr.hoopJoin 0 v, .hoopBypassReq 0 v, .hoopLock 0 v], ∃ h : Hoop, exec c s = .next { s with hoop := h } ∧
      h.join = bit v.toNat 8 ∧ h.bypReq = bit v.toNat 9 ∧ h.lock = (s.hoop.lock || bit v.toNat 32) ∧
      h.joined = (s.hoop.joined || bit v.toNat 8) ∧
      (if s.hoop.lock then h.pos = s.hoop.pos ∧ h.ndev = s.hoop.ndev ∧ h.tAlign = s.hoop.tAlign
       else h.pos = bits v.toNat 0 4 ∧ h.ndev = bits v.toNat 4 4 ∧ h.tAlign = bits v.toNat 16 16) ∧
      h.path = s.hoop.path ∧ h.bypassed = s.hoop.bypassed) ∧
    exec (.gtimeWrite 0 v) s = .next (
      if isFollower s then s else { s with rnd := { s.rnd with gtimeNext := some v.toNat } }))
  ∧
  (∀ (s : State) (fn p ring : Nat) (v : BitVec 64), barLive s 0 = true → barLive s fn = true → fn < 128 → p < 12 → ring < 16 →
    (∀ c ∈ [Instr.portEnable 0 p v, .portLock 0 p v],
      if !hasPort s p || (!(s.port p).lock && bits v.toNat 0 2 == 3) then exec c s = .next { s with rsvdAcc := sat 32 (s.rsvdAcc + 1) }
      else ∃ x : Port, exec c s = .next (({ (if bit v.toNat 2 || (s.port p).macsecUp == 0 then s else s.measured) with
          txHeld := if bit v.toNat 2 then s.txHeld else s.txHeld.filter fun h => h.port != p }).modPort p fun _ => x) ∧
        x.enable = bit v.toNat 2 ∧ x.lock = ((s.port p).lock || bit v.toNat 32) ∧
        (if (s.port p).lock then x.mode = (s.port p).mode ∧ x.vid = (s.port p).vid
         else x.mode = bits v.toNat 0 2 ∧ x.vid = bits v.toNat 16 12) ∧
        (if bit v.toNat 2 then x.linkUp = (s.port p).linkUp ∧ x.macsecUp = (s.port p).macsecUp
         else x.linkUp = 0 ∧ x.macsecUp = 0) ∧
        x.modeEff = (if bit v.toNat 2 && !(s.port p).enable then x.mode else (s.port p).modeEff)) ∧
    (∃ r : Rst, exec (.blkRstGo 0 v) s = .next (
        if bit v.toNat 16 && !blockPresent s (bits v.toNat 0 8) (bits v.toNat 8 8) then
          { s with rst := r, rsvdAcc := sat 32 (s.rsvdAcc + 1) }
        else { s with rst := r }) ∧
      r.sel = bits v.toNat 0 8 ∧ r.unit = bits v.toNat 8 8 ∧
      r.busy = s.rst.busy ++
        (if bit v.toNat 16 && blockPresent s r.sel r.unit && s.rst.running && !blockBusy s r.sel r.unit then
          [{ sel := r.sel, unit := r.unit, reset := false }] else [])) ∧
    exec (.eventHeadWrite fn ring v) s =
      .next ((s.modRing fn ring fun r => { r with head := bits v.toNat 0 32 }).drainEvents fn))

/-- R5: the two 32-bit reads of a register of a live function: the low half latches the high half, the high half gives the latched value and releases it,
or the current one. A 64-bit read gives both halves and leaves the latch. A read of a dead BAR0 changes nothing. R6, R8, R38, R256, R268, R317, R335, R434,
R452: a 64-bit write of a register through the PF of a live device completes: the writable fields take the values written and everything else stays. A
register that a row of its own writes takes that row's effect. R6, R7, R33, R341: what a write to BAR0 drops and counts: a 32-bit write, a misaligned one,
one at which no register is defined, one to a region of the physical function alone through a virtual one; and a dead BAR0 takes none. -/
def Obligations.RegisterReadsAndDrops : Prop :=
  (∀ (s : State) (fn off : Nat), fn < 128 → off < 0x4000000 →
    exec (.bar0LowRead fn { off := off, wide := true }) s = .next (if barLive s fn then { s with out := .readData fn (readReg s fn off) :: s.out } else s) ∧
    exec (.bar0LowRead fn { off := off }) s = .next (
      if barLive s fn then
        { s with
          out := .readData fn (readReg s fn off % 2 ^ 32) :: s.out
          latch := if isReg off then store none s.latch fn (some (off, readReg s fn off / 2 ^ 32)) else s.latch }
      else s) ∧
    (∀ h, barLive s fn = true → isReg off = true → look none s.latch fn = some (off, h) →
      exec (.bar0HighRead fn off) s = .next { s with out := .readData fn h :: s.out, latch := store none s.latch fn none }) ∧
    ((∀ h, look none s.latch fn ≠ some (off, h)) → barLive s fn = true →
      exec (.bar0HighRead fn off) s = .next { s with out := .readData fn (readReg s fn off / 2 ^ 32) :: s.out }) ∧
    (barLive s fn = false → exec (.bar0HighRead fn off) s = .next s))
  ∧
  (∀ (s : State) (v : BitVec 64), barLive s 0 = true →
    exec (.registerWrite 0 0x20218 true v) s = .next { s with bud := { s.bud with
      guard := ⟨bits v.toNat 0 11, bits v.toNat 16 11, bits v.toNat 32 11⟩, sumErr := s.bud.sumErr && !bit v.toNat 48 } } ∧
    exec (.registerWrite 0 0x30018 true v) s = .next { s with rst := { s.rst with tmo := bits v.toNat 0 10 } } ∧
    exec (.registerWrite 0 0x80010 true v) s = .next { s with flt := { s.flt with sel := bits v.toNat 0 12 } } ∧
    (∀ i, i < 4 → ∃ h : Hoop, exec (.registerWrite 0 (0x40010 + 8 * i) true v) s = .next { s with hoop := h } ∧
      h = { s.hoop with path := h.path } ∧
      ∀ k, look 0 h.path k = if !s.hoop.lock && k / 4 == i then bits v.toNat (16 * (k % 4)) 16 else look 0 s.hoop.path k) ∧
    (∀ p, hasPort s p = true →
      exec (.registerWrite 0 (0x200008 + 0x10000 * p) true v) s = .next (s.modPort p fun x => { x with
        tcMgmt := bits v.toNat 0 3, tcTwine := bits v.toNat 4 3, tcBulk := bits v.toNat 8 3, tcRoce := bits v.toNat 12 3,
        tcOther := bits v.toNat 16 3, pfcEn := bits v.toNat 24 8 }) ∧
      exec (.registerWrite 0 (0x200028 + 0x10000 * p) true v) s = .next (s.modPort p fun x => { x with
        adaptEn := bit v.toNat 0, retrainMax := bits v.toNat 8 8 })) ∧
    (∀ d, hasMsd s d = true →
      exec (.registerWrite 0 (0x400060 + 0x10000 * d) true v) s = .next (s.modMsd d fun m => { m with scrubEn := bit v.toNat 0 })) ∧
    (∀ fn ring, fn < 128 → ring < 16 → barLive s fn = true →
      exec (.registerWrite fn (0x50100 + 8 * ring) true v) s =
        .next ((s.modRing fn ring fun r => { r with head := bits v.toNat 0 32 }).drainEvents fn)) ∧
    (∀ x ∈ ([(0x10000, .rndSrcSet 0 v), (0x10008, .rndLenSet 0 v), (0x10010, .rndNumSet 0 v), (0x20000, .budShareWrite 0 0 v),
        (0x30008, .blkRstGo 0 v), (0x40000, .hoopJoin 0 v), (0x40038, .gtimeWrite 0 v), (0x200000, .portEnable 0 0 v)] : List (Nat × Instr)),
      exec (.registerWrite 0 x.1 true v) s = exec x.2 s))
  ∧
  (∀ (s : State) (fn off : Nat) (wide : Bool) (v : BitVec 64), fn < 128 → off < 0x4000000 →
    (barLive s fn = false → exec (.registerWrite fn off wide v) s = .next s) ∧
    (barLive s fn = true →
      (wide = false ∨ off % 8 ≠ 0 ∨
        (¬(0x100000 ≤ off ∧ off < 0x200000) ∧ (isReg off = false ∨
          (fn ≠ 0 ∧ 0x10000 ≤ off ∧ ¬(0x50000 ≤ off ∧ off < 0x60000)))) ∨
        (0x100000 ≤ off ∧ off < 0x200000 ∧ chanSeen s fn ((off - 0x100000) / 0x4000) = false)) →
      exec (.registerWrite fn off wide v) s = .next { s with rsvdAcc := sat 32 (s.rsvdAcc + 1) }) ∧
    (barLive s fn = true → wide = true → isReg off = true → off < 0x10000 → exec (.registerWrite fn off wide v) s = .next s))

/-- R6, R368 to R370, R376: GO, ACK and request buffer writes on a channel that the function reaches. R346: doorbells of a queue pair on a page of the
function. A tail beyond the SQ's end and a doorbell that is not taken are counted or refused. -/
def Obligations.MailboxAndDoorbells : Prop :=
  (∀ (s : State) (fn ch : Nat) (v : BitVec 64), fn < 128 → ch < 64 → barLive s fn = true → chanSeen s fn ch = true →
    (∀ c ∈ [Instr.mbGo fn ch v, .mbAck fn ch v], Answers c s fun t =>
      -- GO of an idle channel, its opcode assigned
      (bit v.toNat 0 = true → bit v.toNat 1 = false → chanState (s.chan ch) = Ch.idle → s.lid.ready = true →
        opcodeKnown (bytesAt (tabNat (s.chan ch).req) 0 2) = true →
        t = { s with mb := t.mb } ∧ (∀ d, d ≠ ch → t.chan d = s.chan d) ∧ t.mb.number = (s.mb.number + 1) % 2 ^ 64 ∧
        t.chan ch = { s.chan ch with
          seq := bits v.toNat 32 32, state := Ch.busy, accept := t.mb.number, goSeq := bits v.toNat 32 32, rsp := [] }) ∧
      -- GO elsewhere
      (bit v.toNat 0 = true → bit v.toNat 1 = false → (chanState (s.chan ch) ≠ Ch.idle ∨ s.lid.ready = false) →
        t = { s with mb := t.mb } ∧ (∀ d, d ≠ ch → t.chan d = s.chan d) ∧ t.mb.number = s.mb.number ∧
        t.chan ch = { s.chan ch with seq := bits v.toNat 32 32, drops := sat 16 ((s.chan ch).drops + 1) }) ∧
      -- ACK of a finished channel, of an unassigned one, and elsewhere
      (bit v.toNat 0 = false → bit v.toNat 1 = true →
        t = { s with mb := t.mb } ∧ (∀ d, d ≠ ch → t.chan d = s.chan d) ∧ t.mb.number = s.mb.number ∧
        t.chan ch =
          if chanState (s.chan ch) = Ch.done then { s.chan ch with seq := bits v.toNat 32 32, state := Ch.idle }
          else if chanState (s.chan ch) = Ch.unassigned then { s.chan ch with seq := bits v.toNat 32 32 }
          else { s.chan ch with seq := bits v.toNat 32 32, drops := sat 16 ((s.chan ch).drops + 1) })) ∧
    (∀ off, off < 4096 → off % 8 = 0 →
      exec (.requestBufferWrite fn ch off false v) s = .next { s with rsvdAcc := sat 32 (s.rsvdAcc + 1) } ∧
      exec (.requestBufferWrite fn ch off true v) s = .next (s.modChan ch fun x =>
        if chanState (s.chan ch) = Ch.busy ∨ chanState (s.chan ch) = Ch.done then { x with drops := sat 16 (x.drops + 1) }
        else { x with req := wrBytes x.req off (leBytes 8 v.toNat) })))
  ∧
  (∀ (s : State) (fn qpn : Nat) (wide : Bool) (v : BitVec 64), fn < 128 → qpn < 262144 → barLive s fn = true →
    (∀ off, doorbellTaken s fn qpn off = false → ∀ c ∈ [Instr.sqTail fn qpn off wide v, .cqHead fn qpn off wide v, .rqTail fn qpn off wide v],
      exec c s = .next (s.modFn fn fun f => { f with dbDrop := sat 16 (f.dbDrop + 1) })) ∧
    (doorbellTaken s fn qpn 0 = true → idxSub (v.toNat % 2 ^ 32) (s.qp qpn).fetched ≤ 2 ^ (s.qp qpn).logSq →
      exec (.sqTail fn qpn 0 wide v) s = .next (s.modQp qpn fun q => { q with sqTail := v.toNat % 2 ^ 32 })) ∧
    (doorbellTaken s fn qpn 0 = true → (s.qp qpn).state = .active → 2 ^ (s.qp qpn).logSq < idxSub (v.toNat % 2 ^ 32) (s.qp qpn).fetched →
      Answers (.sqTail fn qpn 0 wide v) s fun t => (t.qp qpn).state = .error ∧ (t.qp qpn).sqTail = (s.qp qpn).sqTail) ∧
    (doorbellTaken s fn qpn 8 = true → (s.qp qpn).held = [] →
      Answers (.cqHead fn qpn 8 wide v) s fun t =>
        (t.qp qpn).cqHead = v.toNat % 2 ^ 32 ∧ (t.qp qpn).arm = ((s.qp qpn).arm || (wide && bit v.toNat 32)) ∧
        (t.qp qpn).cqTail = (s.qp qpn).cqTail) ∧
    (doorbellTaken s fn qpn 16 = true →
      exec (.rqTail fn qpn 16 wide v) s = .next (s.modQp qpn fun q => { q with rqTail := v.toNat % 2 ^ 32 })))

/-- R112: every floating element-wise instruction whose operands are FP32, in a cell whose role takes it: elements 0 to CNT − 1 of VD take the exact result
rounded once under RM, in one or two cycles a group of 64. -/
def Obligations.FloatElementwise : Prop :=
  ∀ (s : State) (lc : Nat) (st : Strm) (f : CellWord) (p : Site), p.fmts 0 0 = true → VecOk p →
    ∀ x ∈ ([(.vadd lc st f, 0x41, 1, fun c i => (p.fa c i).add (p.fb c i)),
        (.vsub lc st f, 0x42, 1, fun c i => (p.fa c i).sub (p.fb c i)),
        (.vmul lc st f, 0x43, 1, fun c i => (p.fa c i).mul (p.fb c i)),
        (.vfma lc st f, 0x44, 1, fun c i => ((p.fa c i).mul (p.fb c i)).add (fp32 (p.vc c i))),
        (.vmax lc st f, 0x45, 1, fun c i => maxV (p.fa c i) (p.fb c i)),
        (.vmin lc st f, 0x46, 1, fun c i => minV (p.fa c i) (p.fb c i)),
        (.vabs lc st f, 0x47, 1, fun c i => (p.fa c i).abs),
        (.vneg lc st f, 0x48, 1, fun c i => (p.fa c i).neg),
        (.vrcp lc st f, 0x49, 2, fun c i => rcpV (p.fa c i)),
        (.vrsq lc st f, 0x4A, 2, fun c i => rsqV (p.fa c i)),
        (.vexp2 lc st f, 0x4B, 2, fun c i => exp2V (p.fa c i))] : List (Instr × Nat × Nat × (Cell → Nat → FVal))),
      Stands x.2.1 lc st f p s →
      CellAnswers x.1 lc st (ceilDiv p.cnt 64 * x.2.2.1) s fun d =>
        WritesVreg p.vd (s.cell lc) d fun i =>
          if i < p.cnt then some (roundF (ffmt 0) p.rm (p.u i) (x.2.2.2 (s.cell lc) i)) else none

/-- R112, R106: every integer element-wise instruction; and the comparisons, moves, selections and conversions of R112. -/
def Obligations.IntegerElementwise : Prop :=
  ∀ (s : State) (lc : Nat) (st : Strm) (f : CellWord) (p : Site), VecOk p →
    (p.fmts 8 8 = true →
      ∀ x ∈ ([(.viadd lc st f, 0x60, fun c i => intBits 32 true p.sat (int32 (p.va c i) + int32 (p.vb c i))),
          (.visub lc st f, 0x61, fun c i => intBits 32 true p.sat (int32 (p.va c i) - int32 (p.vb c i))),
          (.vimul lc st f, 0x62, fun c i => intBits 32 true p.sat (int32 (p.va c i) * int32 (p.vb c i))),
          (.vshl lc st f, 0x63, fun c i => intBits 32 true p.sat (if 32 ≤ p.op 0 6 then 0 else int32 (p.va c i) * 2 ^ p.op 0 6)),
          (.vshr lc st f, 0x64, fun c i => intBits 32 true p.sat (int32 (p.va c i) / 2 ^ p.op 0 6)),
          (.vand lc st f, 0x65, fun c i => p.va c i &&& p.vb c i),
          (.vor lc st f, 0x66, fun c i => p.va c i ||| p.vb c i),
          (.vxor lc st f, 0x67, fun c i => p.va c i ^^^ p.vb c i),
          (.vimax lc st f, 0x68, fun c i => intBits 32 true p.sat (max (int32 (p.va c i)) (int32 (p.vb c i)))),
          (.vimin lc st f, 0x69, fun c i => intBits 32 true p.sat (min (int32 (p.va c i)) (int32 (p.vb c i))))] :
            List (Instr × Nat × (Cell → Nat → Nat))),
        Stands x.2.1 lc st f p s →
        CellAnswers x.1 lc st (ceilDiv p.cnt 64) s fun d =>
          WritesVreg p.vd (s.cell lc) d fun i => if i < p.cnt then some (x.2.2 (s.cell lc) i) else none) ∧
    (∀ x ∈ ([(.vceq lc st f, 0x4C, p.fmts 0 8, fun c i => b2n ((p.fa c i).eq (p.fb c i))),
          (.vcgt lc st f, 0x4D, p.fmts 0 8, fun c i => b2n ((p.fb c i).lt (p.fa c i))),
          (.vcge lc st f, 0x4E, p.fmts 0 8, fun c i => b2n ((p.fb c i).lt (p.fa c i) || (p.fa c i).eq (p.fb c i))),
          (.vmov lc st f, 0x40, p.same, fun c i => p.va c i),
          (.vsel lc st f, 0x4F, p.same, fun c i => if p.vc c i ≠ 0 then p.va c i else p.vb c i),
          (.vcvt lc st f, 0x50, p.fmts 0 8, fun c i => convert 8 p.rm (p.u i) p.sat (decElem 0 (p.va c i))),
          (.vcvt lc st f, 0x50, p.fmts 8 0, fun c i => convert 0 p.rm (p.u i) p.sat (decElem 8 (p.va c i))),
          (.vqnt lc st f, 0x51, p.f.fmta.toNat == 0, fun c i => quantBits p.f.fmtb.toNat p.rm (p.u i) p.sat (p.fa c i))] :
            List (Instr × Nat × Bool × (Cell → Nat → Nat))),
        x.2.2.1 = true → Stands x.2.1 lc st f p s →
        CellAnswers x.1 lc st (ceilDiv p.cnt 64) s fun d =>
          WritesVreg p.vd (s.cell lc) d fun i => if i < p.cnt then some (x.2.2.2 (s.cell lc) i) else none)

/-- R114, R118 to R121: a reduction writes element 0 of VD; a table lookup writes elements 0 to CNT − 1. -/
def Obligations.ReductionsAndLookups : Prop :=
  ∀ (s : State) (lc : Nat) (st : Strm) (f : CellWord) (p : Site),
    (VecOk p → ∀ x ∈ ([(.vrsum lc st f, 0x58, p.fmts 0 0, fun c =>
            roundF (ffmt 0) 0 0 (reduceVec (fun a b => rnd32 (a.add b)) .zero p.cnt (p.fa c))),
          (.vrsum lc st f, 0x58, p.fmts 8 8, fun c => intBits 32 true p.sat (reduceVec (· + ·) 0 p.cnt fun i => int32 (p.va c i))),
          (.vrmax lc st f, 0x59, p.fmts 0 0, fun c => roundF (ffmt 0) 0 0 (reduceVec maxV .zero p.cnt (p.fa c))),
          (.vrmax lc st f, 0x59, p.fmts 8 8, fun c =>
            intBits 32 true false (reduceVec max (int32 (p.va c 0)) p.cnt fun i => int32 (p.va c i)))] :
            List (Instr × Nat × Bool × (Cell → Nat))),
        x.2.2.1 = true → Stands x.2.1 lc st f p s →
        CellAnswers x.1 lc st (ceilDiv p.cnt 64) s fun d =>
          WritesVreg p.vd (s.cell lc) d fun i => if i = 0 then some (x.2.2.2 (s.cell lc)) else none) ∧
    (∀ tbl, p.table (s.cell lc) = some tbl → p.fmts 0 0 = true → 1 ≤ p.cnt → p.cnt ≤ 4096 → p.op 0 8 = 0 →
      ∀ x ∈ ([(.tlk lc st f, 0x80, fun i => roundF (ffmt 0) p.rm (p.u i) (lookupAt tbl false (p.fa (s.cell lc) i))),
          (.tlkn lc st f, 0x81, fun i => roundF (ffmt 0) 0 0 (lookupAt tbl true (p.fa (s.cell lc) i))),
          (.tlkm lc st f, 0x82, fun i =>
            roundF (ffmt 0) p.rm (p.u i) ((p.fa (s.cell lc) i).mul (lookupAt tbl false (p.fa (s.cell lc) i))))] :
            List (Instr × Nat × (Nat → Nat))),
        Stands x.2.1 lc st f p s →
        CellAnswers x.1 lc st (ceilDiv p.cnt 64) s fun d =>
          WritesVreg p.vd (s.cell lc) d fun i => if i < p.cnt then some (x.2.2 i) else none)

/-- R69, R117, R59: the moves between operand bank, table memory and vector registers. -/
def Obligations.BankMoves : Prop :=
  ∀ (s : State) (lc : Nat) (st : Strm) (f : CellWord) (p : Site), 1 ≤ p.cnt →
    let c := s.cell lc
    let base := 1024 * p.op 16 10
    (Stands 0x03 lc st f p s → p.op 0 6 = 0 → base + 256 * p.cnt ≤ bankSize → 1024 * p.op 6 10 + 256 * p.cnt ≤ bankSize →
      CellAnswers (.mov lc st f) lc st (ceilDiv (256 * p.cnt) 1024) s fun d =>
        d = ({ c with bank := d.bank }).past st (ceilDiv (256 * p.cnt) 1024) ∧
        Stored c.bank d.bank base (256 * p.cnt) fun i => look 0 c.bank (1024 * p.op 6 10 + i)) ∧
    (Stands 0x06 lc st f p s → p.op 0 6 = 0 → p.op 15 1 = 0 → base + 64 * p.cnt ≤ bankSize → 64 * p.op 6 9 + 64 * p.cnt ≤ tableSize →
      CellAnswers (.tbw lc st f) lc st (ceilDiv (64 * p.cnt) 1024) s fun d =>
        d = ({ c with table := d.table }).past st (ceilDiv (64 * p.cnt) 1024) ∧
        Stored c.table d.table (64 * p.op 6 9) (64 * p.cnt) fun i => look 0 c.bank (base + i)) ∧
    (Stands 0x04 lc st f p s → p.f.fmtb.toNat = (if isInt p.f.fmta.toNat then 8 else 0) → p.cnt ≤ 4096 → p.op 4 12 = 0 →
      base + packedLen (fmtWidth p.f.fmta.toNat) p.cnt ≤ bankSize →
      CellAnswers (.vld lc st f) lc st (ceilDiv p.cnt 64) s fun d =>
        WritesVreg (p.op 0 4) c d fun i => if i < p.cnt then
          some (convert p.f.fmtb.toNat p.rm (p.u i) p.sat (decElem p.f.fmta.toNat (elemAt c.bank base (fmtWidth p.f.fmta.toNat) i))) else none) ∧
    (Stands 0x05 lc st f p s → (p.f.fmta.toNat = 0 ∨ p.f.fmta.toNat = 8) → p.cnt ≤ 4096 → p.op 4 12 = 0 →
      base + packedLen (fmtWidth p.f.fmtb.toNat) p.cnt ≤ bankSize →
      CellAnswers (.vst lc st f) lc st (ceilDiv p.cnt 64) s fun d =>
        d = ({ c with bank := setElems c.bank base (fmtWidth p.f.fmtb.toNat) 0 ((List.range p.cnt).map fun i =>
          convert p.f.fmtb.toNat p.rm (p.u i) p.sat (decElem p.f.fmta.toNat ((c.vreg (p.op 0 4)).elem i))) }).past st (ceilDiv p.cnt 64) ∧
        ∀ k, k < base ∨ base + packedLen (fmtWidth p.f.fmtb.toNat) p.cnt ≤ k → look 0 d.bank k = look 0 c.bank k)

/-- R69, R233, R234: an LDW reads its window at issue and an STW its bank; the data stands at its target, and the counter rises, at the completion. -/
def Obligations.WindowLoadsAndStores : Prop :=
  ∀ (s : State) (lc : Nat) (st : Strm) (f : CellWord) (p : Site) (w : Window) (xs : List (Nat × Nat)) (cur : Nat),
    (Stands 0x01 lc st f p s → 1 ≤ p.cnt → p.op 4 4 = 0 → 1024 * p.op 16 10 + 256 * p.cnt ≤ bankSize →
      windowParts p false = some (w, xs, cur) → ∀ bs, (s.readParts p.course w.view xs).1 = .ok bs →
      Answers (.ldw lc st f) s fun t => Retired lc st 1 s t ∧ (t.cell lc).bank = (s.cell lc).bank ∧ (∀ j, j ≠ lc → t.cell j = s.cell j) ∧
        (t.stream lc st).ldws = (s.stream lc st).ldws ++ [{ evc := p.op 0 4, base := 1024 * p.op 16 10, bytes := bs }] ∧
        (t.stream lc st).evc = (s.stream lc st).evc) ∧
    (Stands 0x02 lc st f p s → 1 ≤ p.cnt → p.op 4 4 = 0 → 1024 * p.op 16 10 + 256 * p.cnt ≤ bankSize →
      windowParts p true = some (w, xs, cur) → (xs.all fun x => courseWritable s p.course w.view p.course.ctx x.1 x.2) = true →
      Answers (.stw lc st f) s fun t => Retired lc st 1 s t ∧ t.mem = s.mem ∧ (∀ j, j ≠ lc → t.cell j = s.cell j) ∧
        (t.stream lc st).stws = (s.stream lc st).stws ++
          [{ evc := p.op 0 4, view := w.view, parts := cutParts xs (rdBytes (s.cell lc).bank (1024 * p.op 16 10) (256 * p.cnt)) }]) ∧
    (lc < 960 → ∀ l r, (s.stream lc st).ldws = l :: r →
      Answers (.ldwDataArrived lc st) s fun t => (t.stream lc st).ldws = r ∧ (∀ j, j ≠ lc → t.cell j = s.cell j) ∧
        Stored (s.cell lc).bank (t.cell lc).bank l.base l.bytes.length (fun i => l.bytes.getD i 0) ∧
        ∀ e, look 0 (t.stream lc st).evc e =
          if e = l.evc then sat 16 (look 0 (s.stream lc st).evc e + 1) else look 0 (s.stream lc st).evc e) ∧
    (lc < 960 → ∀ x r, (s.stream lc st).stws = x :: r → ∀ c, (s.cell lc).course = some c.id → s.course c.id = some c →
      (s.writeParts c x.view x.parts).1 = .ok () →
      Answers (.stwAccepted lc st) s fun t => t.mem = (s.writeParts c x.view x.parts).2.mem ∧ (t.stream lc st).stws = r ∧
        ∀ e, look 0 (t.stream lc st).evc e =
          if e = x.evc then sat 16 (look 0 (s.stream lc st).evc e + 1) else look 0 (s.stream lc st).evc e)

/-- R69, R82, R246: a PUT reads its bank at issue; its bytes land at the routed cell, and that counter rises, at delivery. SIG adds to a routed counter at
once. -/
def Obligations.PutsAndSignals : Prop :=
  ∀ (s : State) (lc : Nat) (st : Strm) (f : CellWord) (p : Site) (e : Route) (tgt : SigTo),
    (Stands 0x08 lc st f p s → 1 ≤ p.cnt → p.op 6 10 = 0 → 1024 * p.op 16 10 + 256 * p.cnt ≤ bankSize →
      routeTarget s p (p.op 0 6) = some (e, tgt) → 1024 * e.bankKb + 256 * p.cnt ≤ targetSize s tgt →
      Answers (.put lc st f) s fun t => Retired lc st 1 s t ∧ (∀ j, j ≠ lc → t.cell j = s.cell j) ∧ (t.cell lc).bank = (s.cell lc).bank ∧
        (t.stream lc st).puts = (s.stream lc st).puts ++
          [{ tgt := tgt, base := 1024 * e.bankKb, bytes := rdBytes (s.cell lc).bank (1024 * p.op 16 10) (256 * p.cnt) }]) ∧
    (lc < 960 → ∀ w r, (s.stream lc st).puts = w :: r → ∀ j u ev, w.tgt = .cell j u ev →
      Answers (.putDelivered lc st) s fun t => (t.stream lc st).puts = r ∧
        Stored (s.cell j).bank (t.cell j).bank w.base w.bytes.length (fun i => w.bytes.getD i 0) ∧
        (∀ i, i ≠ j → (t.cell i).bank = (s.cell i).bank) ∧
        ∀ k, look 0 (t.stream j u).evc k = if k = ev then sat 16 (look 0 (s.stream j u).evc k + 1) else look 0 (s.stream j u).evc k) ∧
    (Stands 0xF2 lc st f p s → 1 ≤ p.cnt → p.op 6 20 = 0 → ∀ j u ev, routeTarget s p (p.op 0 6) = some (e, .cell j u ev) →
      Answers (.sig lc st f) s fun t => Retired lc st 1 s t ∧ (∀ i, (t.cell i).bank = (s.cell i).bank) ∧
        ∀ k, look 0 (t.stream j u).evc k =
          if k = ev then sat 16 (look 0 (s.stream j u).evc k + p.cnt) else look 0 (s.stream j u).evc k)

/-- R65 to R67, R75: saving, loading and zeroing a tray slot; a DRN that clears its own slot, and where it drains to. -/
def Obligations.TraySlots : Prop :=
  ∀ (s : State) (lc : Nat) (st : Strm) (f : CellWord) (p : Site),
    let c := s.cell lc
    let t := p.f.tidx.toNat
    let base := 1024 * p.op 16 10
    (Stands 0x91 lc st f p s → 1 ≤ p.cnt → p.cnt ≤ 64 → p.op 0 16 = 0 → base + 384 * p.cnt ≤ bankSize →
      CellAnswers (.tsv lc st f) lc st p.cnt s fun d =>
        (d.slot t).entries = ((c.settle t).slot t).entries ∧ d.vregs = c.vregs ∧
        Stored c.bank d.bank base (384 * p.cnt) fun i =>
          (leBytes 6 (((c.settle t).slot t).entry (i / 6 / 64) (i / 6 % 64))).getD (i % 6) 0) ∧
    (Stands 0x92 lc st f p s → 1 ≤ p.cnt → p.cnt ≤ 64 → p.op 0 14 = 0 → p.owns t = true → p.op 15 1 = 1 → base + 384 * p.cnt ≤ bankSize →
      CellAnswers (.tld lc st f) lc st p.cnt s fun d =>
        d.bank = c.bank ∧ d.vregs = c.vregs ∧ (d.slot t).live = true ∧ (d.slot t).fmtI = (p.op 14 1 == 1) ∧
        ∀ m n, n < 64 → (d.slot t).entry m n = if m < p.cnt then
            canonTray (p.op 14 1 == 1) (leNat (rdBytes c.bank (base + 6 * (64 * m + n)) 6)) % 2 ^ 48 else 0) ∧
    (Stands 0x93 lc st f p s → p.owns t = true →
      CellAnswers (.tzr lc st f) lc st 1 s fun d =>
        d.slot t = {} ∧ (∀ m n, (d.slot t).entry m n = 0) ∧ (∀ u, u ≠ t → d.slot u = (c.settle t).slot u) ∧ d.bank = c.bank ∧ d.vregs = c.vregs) ∧
    (Stands 0x90 lc st f p s → 1 ≤ p.cnt → p.cnt ≤ 64 → p.op 8 3 ≤ 3 → p.op 4 1 = 1 → (p.f.fmtb.toNat = 0 ∨ p.f.fmtb.toNat = 8) →
      ∀ e, epilogueAt c.table (p.op 11 5) = some e → e.ok (c.settle t) p.cnt = true → e.act < 2 →
      CellAnswers (.drn lc st f) lc st p.cnt s fun d =>
        d.bank = c.bank ∧ (if p.op 5 1 = 1 ∧ p.owns t then d.slot t = {} else d.slot t = (c.settle t).slot t) ∧
        ∀ i, (d.vreg (p.op 0 4)).elem i = if i < 64 * p.cnt then
            drainElem p (c.settle t) e none ((c.settle t).slot t) (i / 64) (i % 64) % 2 ^ 32 else (c.vreg (p.op 0 4)).elem i)

/-- R60, R61, R63, R73: a matrix instruction makes its slot LIVE in the format of its pair; at most 10 beats of a stream are in flight; and a beat's write
takes the oldest one. -/
def Obligations.MatrixInstructions : Prop :=
  ∀ (s : State) (lc : Nat) (st : Strm) (f : CellWord) (p : Site),
    let c := s.cell lc
    let t := p.f.tidx.toNat
    let fa := p.f.fmta.toNat
    let fb := p.f.fmtb.toNat
    (∀ e, mmaEffect p c = some e → Stands 0x20 lc st f p s →
      e.cycles = 4 + (p.op 2 4 + 1) * max p.cnt 4 ∧
      CellAnswers (.mma lc st f) lc st e.cycles s fun d => (d.slot t).live = true ∧ (d.slot t).fmtI = pairInt fa fb ∧
        d.bank = c.bank ∧ d.table = c.table ∧ d.vregs = c.vregs ∧
        ((c.stream st).beats.length ≤ 10 → (d.stream st).beats.length ≤ 10)) ∧
    (∀ e, slrEffect p c = some e → Stands 0x21 lc st f p s →
      CellAnswers (.slr lc st f) lc st e.cycles s fun d => (d.slot t).live = true ∧ (d.slot t).fmtI = pairInt fa fb ∧
        d.bank = c.bank ∧ d.table = c.table ∧ d.vregs = c.vregs ∧
        ((c.stream st).beats.length ≤ 10 → (d.stream st).beats.length ≤ 10)) ∧
    (chunkWidth fa fb ≠ 0 → 1 ≤ p.cnt → p.cnt ≤ 64 → p.op 0 1 = 0 → p.owns t = true →
      1024 * p.op 16 10 + p.cnt * ((p.op 2 4 + 1) * chunkWidth fa fb * fmtWidth fa / 8) + (p.op 2 4 + 1) * chunkWidth fa fb * fmtWidth fa ≤ bankSize →
      1024 * p.op 6 10 + (p.op 2 4 + 1) * (64 * chunkWidth fa fb * fmtWidth fb / 8) ≤ bankSize →
      ((c.settle t).slot t).live = false → (mmaEffect p c).isSome = true) ∧
    (lc < 960 → ∀ b r, (c.stream st).beats = b :: r →
      Answers (.beatWriteback lc st) s fun u => (u.stream lc st).beats = r ∧ (∀ j, j ≠ lc → u.cell j = s.cell j) ∧
        (u.cell lc).slot b.slot = (c.slot b.slot).writeBeat b ∧ (∀ k, k ≠ b.slot → (u.cell lc).slot k = c.slot k))

/-- R70, R71, R69: NOP, SYN that goes on or waits, RCL, END, the SYN time-out and the block loader. -/
def Obligations.SyncInstructions : Prop :=
  ∀ (s : State) (lc : Nat) (st : Strm) (f : CellWord) (p : Site),
    let x := s.stream lc st
    (Stands 0xF0 lc st f p s → p.op 0 26 = 0 → CellAnswers (.nop lc st f) lc st 1 s fun d => d = (s.cell lc).past st 1) ∧
    (Stands 0xF1 lc st f p s → p.op 4 16 ≤ look 0 x.evc (p.op 0 4) →
      Answers (.syn lc st f) s fun t => (t.stream lc st).off = x.off + 1 ∧ x.cycles + 1 ≤ (t.stream lc st).cycles ∧
        (x.synFrom = none → (t.stream lc st).cycles = x.cycles + 1) ∧ (t.stream lc st).synFrom = none ∧
        ∀ e, look 0 (t.stream lc st).evc e = look 0 x.evc e - (if e = p.op 0 4 then p.op 4 16 else 0)) ∧
    (Stands 0xF1 lc st f p s → look 0 x.evc (p.op 0 4) < p.op 4 16 →
      Answers (.syn lc st f) s fun t => (t.stream lc st).off = x.off ∧ (t.stream lc st).evc = x.evc ∧
        (t.stream lc st).synFrom = some (x.synFrom.getD s.rnd.num)) ∧
    (Stands 0xF3 lc st f p s → CellAnswers (.rcl lc st f) lc st 1 s fun d =>
      (∀ r, d.vreg r = if r < 16 ∧ bit (p.op 0 16) r = true then {} else (s.cell lc).vreg r) ∧ d.bank = (s.cell lc).bank) ∧
    (Stands 0xFF lc st f p s → p.op 0 26 = 0 → Answers (.endBlock lc st f) s fun t => (t.stream lc st).running = false ∧ (t.stream lc st).code = [] ∧
      (∀ i, (t.cell i).bank = (s.cell i).bank)) ∧
    (lc < 960 → siteAt s lc st 0xF1 {} = some p → ∀ n, x.synFrom = some n → n + 4 ≤ boundaryRnd s →
      Answers (.synTimeout lc st) s fun t => (t.stream lc st).running = false ∧
        ∃ c, t.course p.course.id = some c ∧ c.violated = true) ∧
    (lc < 960 → x.idle = none → ∀ c b, (s.cell lc).course = some c.id → s.course c.id = some c → c.stopped = false → (s.cell lc).late = false →
      (blocksOf c lc st)[x.next]? = some b → b.words.length ≤ 1024 → b.words.any endsBlock = true →
      Answers (.blockLoad lc st) s fun t => (t.stream lc st).idle = some (x.next, b.words) ∧ (t.stream lc st).next = x.next + 1 ∧
        (∀ j, j ≠ lc → t.cell j = s.cell j))

/-- R54 to R56: a word whose group the role of its cell does not enable retires with no effect but a journal entry and the course's mark. -/
def Obligations.WrongRoleIsAViolation : Prop :=
  ∀ (s : State) (lc : Nat) (st : Strm) (f : CellWord) (p : Site), lc < 960 →
    ∀ x ∈ [(Instr.ldw lc st f, 0x01), (.stw lc st f, 0x02), (.mov lc st f, 0x03), (.vld lc st f, 0x04), (.put lc st f, 0x08),
        (.mma lc st f, 0x20), (.slr lc st f, 0x21), (.vadd lc st f, 0x41), (.viadd lc st f, 0x60), (.tlk lc st f, 0x80), (.drn lc st f, 0x90),
        (.tsv lc st f, 0x91), (.tld lc st f, 0x92), (.tzr lc st f, 0x93)],
      siteAt s lc st x.2 f = some p → wordAt s lc st = some (encWord x.2 f) → roleTakes (roleOf s lc) x.2 = false →
      Answers x.1 s fun t => Retired lc st 1 s t ∧ t.mem = s.mem ∧ (∀ j, (t.cell j).bank = (s.cell j).bank ∧ (t.cell j).vregs = (s.cell j).vregs
          ∧ (t.cell j).slots = (s.cell j).slots) ∧
        t.flt.head = s.flt.head + 1 ∧ (look {} t.flt.ring ((s.flt.head + 1) % 4096)).code = St.planViolation ∧
        (look {} t.flt.ring ((s.flt.head + 1) % 4096)).unit = lc ∧
        ∃ c, t.course p.course.id = some c ∧ c.violated = true

/-- R245, R249, R250, R253 to R263, R265: a command at which its U list stands, its gate reached and its header legal, asks for its HBM bytes when it
issues. While some of them are not admitted it waits; once they are it runs from start to end: memory and operand banks take what its body gives, the done
counter rises, and DEVC of DCELL takes 1. One whose key slot has changed since it asked retires without effect and counts as stale. R249, R56, R248: a list
whose command has waited 4 rounds ends, and a command that breaks a rule has no effect on memory: both are counted, journalled and mark the course. -/
def Obligations.SlathEngineCommands : Prop :=
  (∀ (s : State) (cid die : Nat) (u : BitVec 512) (c : UCmd) (e : UEffect), die < 8 → uCmdAt s cid die = some c → c.raw = u →
    c.at 2 2 ≤ look 0 c.list.gates (c.at 1 1 % 16) → uHeadOk c = true →
    ∀ x ∈ ([(.attn cid die u, 1, attnBody c s), (.gemv cid die u, 2, gemvBody c s), (.adamw cid die u, 3, updateBody false c s),
        (.sgdm cid die u, 4, updateBody true c s), (.acc cid die u, 5, accBody c s)] : List (Instr × Nat × Option UEffect)),
      c.opc = x.2.1 → x.2.2 = some e →
      let a := if c.list.asked.isSome then s else s.uAsk c e.cost
      let g := (a.tkey c.ctx).gen
      (moveLeft a (.ucmd cid die) ≠ 0 → exec x.1 s = .next a) ∧
      (moveLeft a (.ucmd cid die) = 0 → (c.list.asked.getD (c.ctx, g)).2 ≠ g → Answers x.1 s fun t =>
        t.mem = a.mem ∧ t.cells = a.cells ∧ (t.msdOf die).stale = sat 32 ((a.msdOf die).stale + 1) ∧ (t.msdOf die).done = (a.msdOf die).done) ∧
      (moveLeft a (.ucmd cid die) = 0 → (c.list.asked.getD (c.ctx, g)).2 = g → (e.run a).1 = .ok () →
      let r := (e.run a).2
      Answers x.1 s fun t =>
        t.mem = r.mem ∧ (∀ j, (t.cell j).bank = (r.cell j).bank) ∧ (t.msdOf die).done = sat 32 ((r.msdOf die).done + 1) ∧
        (c.dcell ≠ 0x3FF → ∀ k, look 0 (t.stream c.dcell (if bit (c.at 6 1) 4 then .b else .f)).evc k =
          (if k = c.at 6 1 % 16 then sat 16 (look 0 (r.stream c.dcell (if bit (c.at 6 1) 4 then .b else .f)).evc k + 1)
           else look 0 (r.stream c.dcell (if bit (c.at 6 1) 4 then .b else .f)).evc k))))
  ∧
  (∀ (s : State) (cid die : Nat) (c : UCmd), die < 8 → uCmdAt s cid die = some c →
    (look 0 c.list.gates (c.at 1 1 % 16) < c.at 2 2 → c.list.since + 4 ≤ boundaryRnd s →
      Answers (.ulistTimeout cid die) s fun t =>
        (t.msdOf die).timeout = sat 16 ((s.msdOf die).timeout + 1) ∧ t.mem = s.mem ∧ t.flt.head = s.flt.head + 1 ∧
        (∀ x ∈ (t.msdOf die).lists, x.cid = cid → x.ended = true) ∧ ∃ k, t.course cid = some k ∧ k.violated = true) ∧
    (c.at 2 2 ≤ look 0 c.list.gates (c.at 1 1 % 16) → c.opc = 5 → uHeadOk c = false →
      Answers (.acc cid die c.raw) s fun t =>
        (t.msdOf die).viol = sat 16 ((s.msdOf die).viol + 1) ∧ t.mem = s.mem ∧ t.flt.head = s.flt.head + 1 ∧
        ∃ k, t.course cid = some k ∧ k.violated = true))

/-- R27 to R31, R42, R46: the boundary that an asserted tick begins gives the new round its number, time, source and length; without a tick ROUND_TICK does
nothing. -/
def Obligations.RoundBoundary : Prop :=
  ∀ (s : State),
    (s.rnd.tick = none → exec .roundTick s = .next s) ∧
    (∀ k, s.rnd.tick = some k → deviceResetDue s = false →
      Answers .roundTick s fun t =>
        t.rnd.num = k.num.getD ((s.rnd.num + 1) % 2 ^ 64) ∧ t.rnd.tick = none ∧
        t.rnd.active = (if (if s.rnd.src = 2 then k.num.isSome || s.rnd.active == 2 else k.num.isNone) = true then s.rnd.src else s.rnd.active) ∧
        t.rnd.gtime = k.gtime.getD (s.rnd.gtimeNext.getD (s.rnd.gtime + s.rnd.lenEff * 125000)) % 2 ^ 64 ∧
        t.rnd.lenEff = (if s.rnd.src = 2 then k.len.getD s.rnd.hoopLen
          else s.rnd.lenDue.foldl (fun v x => if x.1 ≤ k.num.getD ((s.rnd.num + 1) % 2 ^ 64) then x.2 else v) s.rnd.lenEff) ∧
        t.rnd.numJump = (if k.num.getD ((s.rnd.num + 1) % 2 ^ 64) = (s.rnd.num + 1) % 2 ^ 64 then s.rnd.numJump else sat 16 (s.rnd.numJump + 1)) ∧
        (k.num.isSome = true ∨ s.rnd.src ≠ 2 → t.rnd.mode = .locked ∧ t.rnd.holdCnt = 0))

/-- R156, R193, R225, R177: the halvings of the use counts at a boundary on which they fall, and the closing of OPEN generations. R39, R43, R45, R159: a
unit that fits is charged and starts, one that does not is counted and waits; a sequence parked too long leaves the waiting ones. -/
def Obligations.BudgetsAndUseCounts : Prop :=
  (∀ (s : State), 
    (decayDue 256 s.rnd.weaverDecay s = true → Answers .weaverHeatDecay s fun t =>
      (∀ h w, (h, w) ∈ t.weav.dir → ∃ v, (h, v) ∈ s.weav.dir ∧ w = { v with heat := v.heat / 2 }) ∧
      (∀ h v, (h, v) ∈ s.weav.dir → v.state ≠ .free → (h, { v with heat := v.heat / 2 }) ∈ t.weav.dir)) ∧
    (decayDue 256 s.rnd.stakeDecay s = true → Answers .stakeUseDecay s fun t =>
      (∀ h w, (h, w) ∈ t.stakes → ∃ v, (h, v) ∈ s.stakes ∧ w = { v with use := v.use / 2 }) ∧
      (∀ h v, (h, v) ∈ s.stakes → v.reg = true → (h, { v with use := v.use / 2 }) ∈ t.stakes)) ∧
    (decayDue (2 ^ s.mem.heatShift) s.rnd.frameDecay s = true → Answers .frameHeatDecay s fun t =>
      (∀ f w, (f, w) ∈ t.mem.frames → ∃ v, (f, v) ∈ s.mem.frames ∧ w = { v with heat := v.heat / 2 }) ∧
      (∀ f v, (f, v) ∈ s.mem.frames → v.state ≠ .free → (f, { v with heat := v.heat / 2 }) ∈ t.mem.frames) ∧
      (∀ k e, (k, e) ∈ t.mem.pte → ∃ v, (k, v) ∈ s.mem.pte ∧ e = { v with heat := v.heat / 2 }) ∧
      t.mem.hbm = s.mem.hbm ∧ t.mem.slow = s.mem.slow) ∧
    (∀ sid, sid < 256 → Answers (.genClose sid) s fun t =>
      (∀ i g, (i, g) ∈ (t.stake sid).gens → ¬(g.state = .isOpen ∧ g.closeRnd ≤ boundaryRnd s)) ∧
      (∀ i g, (i, g) ∈ (s.stake sid).gens → g.state = .isOpen → g.closeRnd ≤ boundaryRnd s →
        (i, { g with state := .closed }) ∈ (t.stake sid).gens) ∧
      (∀ i, i ≠ sid → t.stake i = s.stake i)))
  ∧
  (∀ (s : State),
    (∀ c cc hbm link, c < 8 → c ≠ Act.serve → c ≠ Act.tune → (s.bud.queue.any fun w => w.unit == .access c cc hbm link) = false →
      admitOpen s c ⟨cc, hbm, link⟩ = true →
      (fitsAll ⟨cc, hbm, link⟩ (tallyOf s c) (effAllowance s c) = true →
        exec (.unitAdmit (.access c cc hbm link)) s = .next (s.charge c ⟨cc, hbm, link⟩)) ∧
      (fitsAll ⟨cc, hbm, link⟩ (tallyOf s c) (effAllowance s c) = false →
        Answers (.unitAdmit (.access c cc hbm link)) s fun t =>
          t.bud.queue = s.bud.queue ++ [{ unit := .access c cc hbm link, cls := c, cost := ⟨cc, hbm, link⟩ }] ∧ t.bud.tally = s.bud.tally ∧
          (look {} t.bud.wait c).units = sat 32 ((look {} s.bud.wait c).units + 1) ∧ t.cells = s.cells)) ∧
    (∀ lc st co i b, lc < 960 → readyBlock s lc st = some (co, i, b) → co.plan.cls ≠ Act.serve → co.plan.cls ≠ Act.tune →
      (s.bud.queue.any fun w => w.unit == .block lc st) = false → admitOpen s co.plan.cls b.cost = true →
      fitsAll b.cost (tallyOf s co.plan.cls) (effAllowance s co.plan.cls) = true →
      Answers (.unitAdmit (.block lc st)) s fun t =>
        (t.stream lc st).running = true ∧ (t.stream lc st).code = b.words ∧ (t.stream lc st).off = 0 ∧ (t.stream lc st).blk = i ∧
        (t.stream lc st).idle = none ∧ t.bud = (s.charge co.plan.cls b.cost).bud) ∧
    (∀ qpn idx r, qpn < 262144 → idx < 2 ^ 32 → (s.crs.waiting.find? fun r => r.qpn == qpn && r.idx == idx) = some r → r.gone = false →
      (if (s.ctx r.ctx).parkMax = 0 then 64 else (s.ctx r.ctx).parkMax) < r.parkRounds →
      Answers (.parkTimeout qpn idx) s fun t => t.crs.waiting = s.crs.waiting.filter fun x => x.order != r.order))

/-- R27, R29, R331: what asserts a tick, holdover and isolation, and tick frames sent and received. -/
def Obligations.TickSources : Prop :=
  ∀ (s : State),
    (s.rnd.enable = true → s.rnd.awaitHoop = false → (s.rnd.src ≠ 2 ∨ s.rnd.active ≠ 2) →
      exec .localTick s = .next { s with rnd := { s.rnd with tick := some {} } }) ∧
    (s.rnd.enable = true → s.rnd.src = 1 → s.hoop.bypassed = false → s.rnd.awaitHoop = false →
      Answers .tickFrameSend s fun t => ∃ f : TickFrame, t = { s with out := .tickFrame f :: s.out } ∧ f.originPos = s.hoop.pos ∧
        f.accDly = 0 ∧ f.rndNum = (s.rnd.num + 1) % 2 ^ 64 ∧ f.tAlign = s.hoop.tAlign ∧ f.crcOk = true) ∧
    (∀ p, followerTimed s = true → s.rnd.mode = .locked → s.rnd.predicted = some p →
      exec .holdoverEntry s = .next { s with rnd := { s.rnd with
        mode := .holdover, holdCnt := 1, tick := some {}, predicted := some (p + s.rnd.hoopLen * 1000000) } }) ∧
    (∀ p, followerTimed s = true → s.rnd.mode = .isolated → s.rnd.predicted = some p →
      exec .holdoverTick s = .next { s with rnd := { s.rnd with tick := some {}, predicted := some (p + s.rnd.hoopLen * 1000000) } }) ∧
    (∀ p, followerTimed s = true → s.rnd.mode = .holdover → s.rnd.holdCnt < holdLimit s → s.rnd.predicted = some p →
      exec .holdoverTick s = .next { s with rnd := { s.rnd with
        tick := some {}, predicted := some (p + s.rnd.hoopLen * 1000000), holdCnt := min 255 (s.rnd.holdCnt + 1) } }) ∧
    (s.rnd.mode = .holdover → holdLimit s ≤ s.rnd.holdCnt →
      Answers .isolatedEntry s fun t => t.rnd.mode = .isolated ∧ t.flt.head = s.flt.head + 1 ∧
        (look {} t.flt.ring ((s.flt.head + 1) % 4096)).code = St.groupTiming) ∧
    (∀ f a, f.crcOk = false → exec (.tickFrameReceive f a) s =
      .next { s with hoop := { s.hoop with crcErr := sat 16 (s.hoop.crcErr + 1), validRun := 0 } }) ∧
    (∀ f a, tickValid s f = true → s.rnd.enable = true → s.rnd.src = 2 → s.hoop.bypassed = false →
      Answers (.tickFrameReceive f a) s fun t =>
        t.rnd.tick = some { num := some f.rndNum, gtime := some f.gtime, len := some f.len } ∧ t.rnd.hoopLen = f.len ∧
        t.rnd.num = s.rnd.num ∧ t.hoop.validRun = s.hoop.validRun + 1 ∧ t.hoop.lastPos = f.lastPos ∧
        t.out = .tickFrame { f with lastPos := s.hoop.pos, accDly := arrivalDelay s f + 320 } :: s.out)

/-- R333, R334: a management frame's check and hops, and PRESENT. R335, R336: the bypass opens or closes in a quiet window as requested, and closes at once
for a cause. -/
def Obligations.HoopFramesAndBypass : Prop :=
  (∀ (s : State) (f : MgmtFrame),
    (f.crcOk = false → exec (.mgmtFrameReceive f) s = .next { s with hoop := { s.hoop with crcErr := sat 16 (s.hoop.crcErr + 1) } }) ∧
    (f.crcOk = true → msgKnown f.msg = false →
      exec (.mgmtFrameReceive f) s = .next { s with hoop := { s.hoop with msgDrop := sat 16 (s.hoop.msgDrop + 1) } }) ∧
    (f.crcOk = true → f.msg = 0x01 → f.dst = 255 → f.src < 16 → f.src ≠ s.hoop.pos → s.hoop.pos ≠ 255 → s.hoop.bypassed = false →
      f.hops + 1 < 16 →
      Answers (.mgmtFrameReceive f) s fun t => bit t.hoop.presentNow f.src = true ∧ t.out = .mgmtFrame { f with hops := f.hops + 1 } :: s.out) ∧
    (f.crcOk = true → msgKnown f.msg = true → f.dst ≠ s.hoop.pos → f.dst ≠ 255 → f.src ≠ s.hoop.pos → s.hoop.bypassed = false → 16 ≤ f.hops + 1 →
      exec (.mgmtFrameReceive f) s = .next { s with hoop := { s.hoop with hopDrop := sat 16 (s.hoop.hopDrop + 1) } }) ∧
    (∀ src rnd, src < 16 → Answers (.present src rnd) s fun t =>
      bit t.hoop.presentNow src = true ∧ (∀ i, i ≠ src → bit t.hoop.presentNow i = bit s.hoop.presentNow i) ∧
      t.hoop.present = s.hoop.present))
  ∧
  (∀ (s : State),
    exec .bypassSwitch s = .next (
      if s.hoop.bypassed then (if mayOpen s then { s with hoop := { s.hoop with bypassed := false, cause := 0 } } else s)
      else if s.hoop.bypReq then { s with hoop := { s.hoop with bypassed := true, cause := 3 } } else s) ∧
    (∀ c, Answers (.bypassForcedClose c) s fun t => t.hoop.bypassed = true ∧ t.hoop.cause = (if c = .lid then 2 else 1) ∧
      t.hoop.joined = (if c = .reset ∨ c = .vaonLoss then false else s.hoop.joined) ∧ t.hoop.join = s.hoop.join) ∧
    (∀ b, exec (.hoopRxLockChange b) s = .next { s with hoop := { s.hoop with rxLock := b } }))

/-- R182 to R184: READY at the MASTER, GO, ABORT and CURRENT of a stake set's commit, and the announcement. -/
def Obligations.CommitMessages : Prop :=
  ∀ (s : State) (sid : Nat) (x : Commit), sid < 256 → (s.stake sid).commit = some x →
    (∀ src part, src < 16 → part < 16 → s.rnd.active = 1 → part ∉ x.ready →
      exec (.stakeReady src sid x.gen part x.c) s =
        .next (s.modStake sid fun k => { k with commit := some { x with ready := part :: x.ready } })) ∧
    (x.go = false → exec (.stakeGo sid x.gen x.c) s =
      .next (s.modStake sid fun k => { k with commit := some { x with go := true, late := decide (x.c ≤ s.rnd.num) } })) ∧
    (x.go = false → Answers (.stakeAbortMsg sid x.gen x.c) s fun t => (t.stake sid).commit = none ∧ (t.stake sid).gens = (s.stake sid).gens) ∧
    (x.go = false → exec (.stakeCurrent sid x.gen) s =
      .next (s.modStake sid fun k => { k with commit := some { x with go := true, late := true } })) ∧
    (x.go = false → x.c ≤ boundaryRnd s + 1 → s.rnd.active = 0 →
      Answers (.commitAnnounce sid) s fun t =>
        if (genOf s sid x.gen).elim false (fun g => g.state == .ready) = true then (t.stake sid).commit = some { x with go := true }
        else (t.stake sid).commit = none)

/-- R178 to R180, R265: a shard that arrives good is opened and kept and the next one asked for; one that does not arrive moves the build to its next
source with a journal entry; one whose SWAP units are not admitted waits. A peer's request is served, as ciphertext of the image part, from a generation
that is held, under the SWAP class, or refused. -/
def Obligations.BuildShards : Prop :=
  ∀ (s : State) (sid : Nat) (b : Build), sid < 256 → (s.stake sid).build = some b →
    let g := (s.stake sid).gen b.slot
    let key := s.skey (s.stake sid).keySlot
    let n := shardLen g.imgPages b.shard
    let p := imageAt s sid g.image
    (g.frames ≠ [] → b.shard < g.nshard → b.source + 1 < (buildSources g).length → ∀ r ∈ [ShardIn.refused, .crcBad, .poisoned],
      Answers (.buildShardFetched sid r) s fun t =>
        (t.stake sid).build = some { b with source := b.source + 1, since := s.rnd.num, burst := some key.gen } ∧ t.flt.head = s.flt.head + 1 ∧
        t.out.head? = some (.shardAsk sid b.shard (b.source + 1)) ∧ t.mem = s.mem) ∧
    (b.source < g.peers.length → b.since + 4 ≤ boundaryRnd s → b.shard < g.nshard → b.source + 1 < (buildSources g).length →
      Answers (.peerShardTimeout sid) s fun t =>
        (t.stake sid).build = some { b with source := b.source + 1, since := s.rnd.num, burst := some key.gen } ∧ t.flt.head = s.flt.head + 1) ∧
    (g.frames ≠ [] → b.shard + 1 < g.nshard → ∀ data,
      let src := (buildSources g).getD b.source none
      src.elim false (fun a => !slowUp s a || !(slowBadIn s (a + b.shard * 33554432) n).isEmpty) = false →
      (moveLeft s (.build sid) ≠ 0 → exec (.buildShardFetched sid (.ok data)) s = .next s) ∧
      (moveLeft s (.build sid) = 0 → key.state = .live → b.burst = some key.gen →
        let bs := match src with
          | none => mapBlocks p.seal.unlock (ceilDiv n 16) (b.shard * 2097152) (shardBytes n data)
          | some a => slowRead { p.seal with base := a } s (a + b.shard * 33554432) n
        crc32c ((bs.drop (if b.shard = 0 then 4096 * p.imgHead else 0)).map BitVec.toNat) =
          leNat (slowRead p.seal s (g.image + 64 + 16 * p.nlayer + 32 * p.imgSect + 4 * b.shard) 4) →
        Answers (.buildShardFetched sid (.ok data)) s fun t =>
          (t.stake sid).build = some { b with shard := b.shard + 1, source := 0, since := s.rnd.num, burst := some key.gen } ∧
          ((t.stake sid).gen b.slot).done = g.done + 1 ∧ t.out = .shardAsk sid (b.shard + 1) 0 :: s.out ∧ t.mem.slow = s.mem.slow)) ∧
    (∀ q : ShardReq, q.sid < 256 → genOf s q.sid q.gen = none →
      exec (.peerShardRequest q) s = .next (s.emit (.shardRefused q.peer St.noSourceBudget))) ∧
    (∀ (q : ShardReq) (x : Gen), q.sid < 256 → genOf s q.sid q.gen = some x → x.part = q.part → q.shard < x.nshard →
      x.state ∈ [GState.ready, .current, .isOpen, .closed] → (look ({} : Cost) s.bud.share Act.swap).link ≠ 0 →
      let fs := (shardFrames x.frames.length q.shard).map fun k => x.frames.getD k 0
      let n := shardLen x.imgPages q.shard
      (fs.any fun f => lineBad s f 0 frameBytes) = false → n ≤ fs.length * frameBytes →
      Answers (.peerShardRequest q) s fun t => ∃ bs, t.out = .shardReply q.peer q.sid q.shard bs :: s.out ∧ t.mem = s.mem ∧ bs.length = n ∧
        mapBlocks (Seal.unlock { key := (s.skey (s.stake q.sid).keySlot).key, base := 0 }) (ceilDiv n 16) (q.shard * 2097152) bs =
          (fs.flatMap fun f => frameRead s f 0 frameBytes).take n ∧
        tallyOf t Act.swap = (tallyOf s Act.swap).add { hbm := n, link := n })

/-- R135, R189, R190, R265: the shards of a weaver's fetch, its removal, and the outcome of its carry-over check. -/
def Obligations.WeaverEvents : Prop :=
  ∀ (s : State) (h : Nat), h < 65536 →
    let w := s.weaver h
    (∀ ok, moveLeft s (.fetch h) ≠ 0 → exec (.weaverShardFetched h ok) s = .next s) ∧
    (w.state = .fetching → moveLeft s (.fetch h) = 0 → (s.tkey w.keySlot).state = .live → w.burst = some (s.tkey w.keySlot).gen →
      (shardOk s w w.shard = true → w.nshard ≤ w.shard + 1 →
        Answers (.weaverShardFetched h true) s fun t =>
          (t.weaver h).state = .resident ∧ (t.weaver h).usableFrom = s.rnd.num + 1 ∧ (∀ k, k ≠ h → t.weaver k = s.weaver k)) ∧
      (w.retried = false → exec (.weaverShardFetched h false) s = .next ((s.modWeaver h fun w => { w with retried := true }).askFetch h)) ∧
      (w.retried = true → Answers (.weaverShardFetched h false) s fun t => (t.weaver h).state = .registered ∧ (t.weaver h).frames = [] ∧
        t.flt.head = s.flt.head + 1 ∧ t.mem.hbm = s.mem.hbm)) ∧
    (w.state = .removing → weaverPins s h = 0 → w.frames = [] →
      Answers (.weaverRemoveComplete h) s fun t => t.weaver h = {} ∧ (∀ k, k ≠ h → t.weaver k = s.weaver k)) ∧
    (∀ p g, s.crs.probe = some p → genOf s p.sid p.gen = some g → p.ready = true → p.pack.contains h = true →
      probing s p.sid p.gen h = true → decidesCarry s (probePlan s g) = true →
      let r := probeOutcome s p g (p.pack.findIdx (· == h))
      Answers (.carryCheck h p.gen) s fun t =>
        (t.weaver h).carry = (if r.1 then .passed else .failed) ∧ (t.weaver h).carrySum = r.2.1 ∧ (r.1 = true → g.agreeMin ≤ r.2.1) ∧
        t.out = (if (probePlan s g).any Plan.multi then .carry h r.1 :: s.out else s.out) ∧ (∀ k, k ≠ h → t.weaver k = s.weaver k)) ∧
    (∀ ok, w.carry = .pending →
      exec (.carryOutcome h ok) s = .next (s.modWeaver h fun w => { w with carry := if ok then .passed else .failed }))

/-- R39, R214, R217, R230, R231, R265: fills, promotions, evictions, zeroing and cleaning passes end once their units are admitted, and a burst whose key
slot has changed moves nothing and is counted. -/
def Obligations.FrameMoves : Prop :=
  ∀ (s : State) (f : Nat), f < 196608 →
    let e := s.frame f
    let k := frameKey s e
    (moveLeft s (.frame f) ≠ 0 → ∀ c ∈ [Instr.frameFillDone f, .promotionDone f, .evictionDone f], exec c s = .next s) ∧
    (moveLeft s (.zero f) ≠ 0 → exec (.frameZeroDone f) s = .next s) ∧
    (moveLeft s (.frame f) = 0 → ∀ g, e.burst = some g → g ≠ k.gen → ∀ a, e.state = .filling → e.fillFrom = some a → slowUp s a = true →
      Answers (.frameFillDone f) s fun t => t.mem.hbm = s.mem.hbm ∧ t.mem.slow = s.mem.slow ∧
        (t.msdOf (msdOfFrame f)).stale = sat 32 ((s.msdOf (msdOfFrame f)).stale + 1)) ∧
    (moveLeft s (.frame f) = 0 → e.burst = some k.gen → k.state = .live →
      (∀ a, e.state = .filling → e.fillFrom = some a → slowUp s a = true →
        Answers (.frameFillDone f) s fun t =>
          t.mem.hbm = wrBytes s.mem.hbm (f * frameBytes) (slowRead (frameSeal s f) s a frameBytes) ∧
          (t.frame f).state = .resident ∧ (t.frame f).fillFrom = none ∧ t.mem.slow = s.mem.slow) ∧
      (e.state = .promoting → slowUp s e.back = true →
        Answers (.promotionDone f) s fun t =>
          t.mem.hbm = wrBytes s.mem.hbm (f * frameBytes) (slowRead (frameSeal s f) s e.back frameBytes) ∧
          (t.frame f).state = .resident ∧ (t.frame f).backed = true ∧ (t.frame f).dirty = 0 ∧ t.mem.slow = s.mem.slow ∧
          (∀ k ∈ ptesAt s e.back, (t.pteAt k).tier = .t1 ∧ (t.pteAt k).frame = f ∧ (t.pteAt k).backed = true) ∧
          (look {} t.mem.mig (msdOfFrame f)).promoted = sat 16 ((look {} s.mem.mig (msdOfFrame f)).promoted + 1)) ∧
      (e.state = .evicting → e.zeroing = false → e.kind ≠ 3 → (ptesOf s f).isEmpty = true →
        Answers (.evictionDone f) s fun t => (t.frame f).state = .evicting ∧ (t.frame f).zeroing = true ∧
          t.mem.hbm = s.mem.hbm ∧ t.mem.slow = s.mem.slow ∧ (∀ l, (f, l) ∉ t.mem.lines) ∧
          (look {} t.mem.mig (msdOfFrame f)).evicted = sat 16 ((look {} s.mem.mig (msdOfFrame f)).evicted + 1)) ∧
      (e.cleaning = true → slowUp s e.back = true → e.kind ≠ 3 → e.pass = e.dirty → e.dirty < 2 ^ 32 →
        Answers (.cleaningPassDone f) s fun t => (t.frame f).dirty = 0 ∧ (t.frame f).cleaning = false ∧
          (t.frame f).state = (if e.state = .dirty then .resident else e.state) ∧ t.mem.hbm = s.mem.hbm ∧
          t.mem.slow = (s.writeBack f e.dirty).mem.slow)) ∧
    (e.zeroing = true → moveLeft s (.zero f) = 0 →
      Answers (.frameZeroDone f) s fun t =>
        (∀ k, look 0 t.mem.hbm k = if f * frameBytes ≤ k ∧ k < f * frameBytes + frameBytes then 0 else look 0 s.mem.hbm k) ∧
        (s.mem.waits = [] → s.weav.dir = [] → s.stakes = [] → t.frame f = {}))

/-- R237 to R240, R266 to R268: patrol scrub, what reads make of symbols in error, poison from the slow tier, and repairs. -/
def Obligations.PoisonAndRepair : Prop :=
  ∀ (s : State),
    (∀ die hits, die < 8 → patrolTurn s = some die → (hits.all fun h => okErrs h.errs) = true →
      (s.admitOnce (0, die, 0) Act.scrub { hbm := 4096 }).1 = true →
      Answers (.patrolScrub die hits) s fun t =>
        (t.msdOf die).scrubUnit = (if (s.msdOf die).scrubUnit + 1 = 24576 * 512 then 0 else (s.msdOf die).scrubUnit + 1) ∧
        t.mem.scrubNext = (die + 1) % 8 ∧ t.mem.slow = s.mem.slow ∧
        (hits = [] → t.mem.hbm = s.mem.hbm ∧ t.mem.lines = s.mem.lines ∧ (t.msdOf die).corrected = (s.msdOf die).corrected)) ∧
    (∀ f line errs, f < 196608 → line < 32768 → okErrs errs = true → hasMsd s (msdOfFrame f) = true →
      let d := decodeErr (errTab errs)
      let tagged := look 0 (errTab errs) 65 ≠ 0 ∨ look 0 (errTab errs) 66 ≠ 0
      (d = .many ∨ (d = .clean ∧ tagged) → Answers (.hbmUncorrectable f line errs) s fun t =>
        (f, line) ∈ t.mem.lines ∧ (t.frame f).poison = true ∧ t.mem.hbm = s.mem.hbm ∧
        (if d = .many then (t.msdOf (msdOfFrame f)).uncorrected = sat 16 ((s.msdOf (msdOfFrame f)).uncorrected + 1)
         else (t.msdOf (msdOfFrame f)).tagErr = sat 16 ((s.msdOf (msdOfFrame f)).tagErr + 1))) ∧
      (∀ i v, errTab errs = [(i, v)] → d = .one i v → Answers (.hbmUncorrectable f line errs) s fun t =>
        t.mem = s.mem ∧ (t.msdOf (msdOfFrame f)).corrected = sat 32 ((s.msdOf (msdOfFrame f)).corrected + 1))) ∧
    (∀ f g, f < 196608 → g < 512 → ((s.frame f).state = .filling ∨ (s.frame f).state = .promoting) →
      Answers (.slowTierPoison f g) s fun t => (∀ i, i < 64 → (f, g * 64 + i) ∈ t.mem.lines) ∧ (t.frame f).poison = true) ∧
    (∀ f g r, f < 196608 → g < 512 → repairAt s f g = some r → r.since + 4 ≤ boundaryRnd s →
      (r.source + 1 < (repairSources s f g).length →
        Answers (.repairSourceTimeout f g) s fun t => repairAt t f g = some { r with source := r.source + 1, since := boundaryRnd s }) ∧
      ((repairSources s f g).length ≤ r.source + 1 →
        Answers (.repairSourceTimeout f g) s fun t => (∃ x ∈ t.mem.repairs, x.frame = f ∧ x.granule = g ∧ x.failed = true) ∧
          repairAt t f g = none ∧ t.flt.head = s.flt.head + 1 ∧
          (look {} t.mem.mig (msdOfFrame f)).failed = sat 16 ((look {} s.mem.mig (msdOfFrame f)).failed + 1))) ∧
    (∀ f g r data off, f < 196608 → g < 512 → repairAt s f g = some r → (repairSources s f g)[r.source]? = some (.outside off) → r.back = none →
      let bs := mapBlocks (Seal.unlock { key := (frameKey s (s.frame f)).key, base := 0 }) 256 (off / 16) (rdBytes (wrBytes [] 0 data) 0 4096)
      Answers (.repairDone f g data) s fun t =>
        Stored s.mem.hbm t.mem.hbm (f * frameBytes + g * 4096) 4096 (fun i => bs.getD i 0) ∧ t.mem.slow = s.mem.slow ∧
        (∀ l, (f, l) ∈ t.mem.lines → l < g * 64 ∨ g * 64 + 64 ≤ l) ∧ repairAt t f g = none ∧ t.flt.head = s.flt.head + 1) ∧
    (∀ cid c r f g, s.course cid = some c → c.held = some (r, f, g) → r + 17 ≤ boundaryRnd s →
      Answers (.poisonHoldExpiry cid) s fun t => t.course cid = none)

/-- R76 to R80, R83 to R86: a saved, zeroed or restored cell, a failed cell, a spare that has loaded, a staged image. R425, R427, R447: faults of links,
memories, engines and processors: what is journalled, what is reset, and when the device halts. -/
def Obligations.CellAndBlockFaults : Prop :=
  (∀ (s : State) (lc : Nat), lc < 960 →
    let c := s.cell lc
    (∀ o i ps, c.saving = some i → c.ctx = some o → ctxGoing s o = false → saveKey o lc ∈ s.ups.areas → savesFit s o = true →
      areaPieces s o lc 0 (imageSize i) = some ps →
      Answers (.cellSaveDone lc) s fun t => t.mem.hbm = (s.areaWrite o lc (imageBytes i)).mem.hbm ∧ saveKey o lc ∈ t.ups.saved ∧
        (t.cell lc).saving = none ∧
        (t.cell lc).slots = [] ∧ (t.cell lc).vregs = [] ∧ (t.cell lc).bank = c.bank ∧ (∀ j, j ≠ lc → t.cell j = s.cell j)) ∧
    (c.zeroing = true → Answers (.bankZeroDone lc) s fun t => (t.cell lc).bank = [] ∧ (t.cell lc).table = [] ∧
      (t.cell lc).zeroing = false ∧ (t.cell lc).slots = c.slots ∧ (t.cell lc).vregs = c.vregs ∧ (∀ j, j ≠ lc → t.cell j = s.cell j)) ∧
    (∀ i x, c.saving = none → c.restore = true → c.incoming = some x → restoredImage s x lc = some i →
      Answers (.restoreCheck lc) s fun t => (t.cell lc).slots = i.slots ∧ (t.cell lc).restore = false ∧ t.flt.head = s.flt.head ∧
        (c.zeroing = false → c.late = false → (t.cell lc).ctx = some x ∧ (t.cell lc).incoming = none)) ∧
    (hasCell s lc = true → lc ∉ s.ups.lost → lc ∉ s.ups.fenced →
      Answers (.cellFailure lc) s fun t => t.ups.fenced = s.ups.fenced ++ [lc] ∧ lc ∈ t.ups.failed ∧ lc ∉ t.ups.loading ∧
        t.flt.head = s.flt.head + 1 ∧ (look {} t.flt.ring ((s.flt.head + 1) % 4096)).code = St.cellFailed ∧
        ∀ k, k ∈ s.crs.running → (planCells k.plan).contains lc = true → (∀ y ∈ s.crs.running, y.id = k.id → y = k) →
          ∃ y, t.course k.id = some y ∧ y.stopped = true) ∧
    (lc ∈ s.ups.loading → Answers (.spareLoadDone lc) s fun t => lc ∉ t.ups.loading ∧ t.ups.bind = s.ups.bind) ∧
    (∀ img, exec (.upsettImageStage img) s = .next
      { s with ups := { s.ups with staged := some img }, lid := { s.lid with measGen := (s.lid.measGen + 1) % 2 ^ 32 } }))
  ∧
  (∀ (s : State),
    (∀ warp link, linkFitted s warp link = true → linkDownNow s warp link = none → s.crs.running = [] →
      Answers (.flitReplayFail warp link) s fun t =>
        linkDownNow t warp link = some { warp := warp, link := link, fails := 0, since := some s.rnd.num } ∧ t.flt.head = s.flt.head + 1 ∧
        (look {} t.flt.ring ((s.flt.head + 1) % 4096)).code = St.fabricRetrain) ∧
    (∀ warp link l, linkDownNow s warp link = some l →
      (retrains s l = false → ∀ ok, exec (.linkRetrainDone warp link ok) s = .next s ∧ exec (.fabricFailed warp link) s = .next s) ∧
      (retrains s l = true → Answers (.linkRetrainDone warp link true) s fun t => linkDownNow t warp link = none ∧ t.flt.halted = s.flt.halted) ∧
      (retrains s l = true → l.fails < 2 → Answers (.linkRetrainDone warp link false) s fun t =>
        linkDownNow t warp link = some { warp := warp, link := link, fails := l.fails + 1, since := some s.rnd.num } ∧
        t.flt.halted = s.flt.halted) ∧
      (retrains s l = true → 2 ≤ l.fails → s.flt.halted = false → ∀ x ∈ [Instr.linkRetrainDone warp link false, .fabricFailed warp link],
        Answers x s fun t => t.flt.halted = true ∧ t.flt.code = St.fabricFailed ∧ t.bud.isOpen = false ∧ t.bud.queue = [] ∧
          t.hoop.bypassed = true ∧ t.hoop.cause = 2)) ∧
    (s.flt.halted = false → ∀ u, Answers (.sramUncorrectable .tally u) s fun t =>
      t.flt.halted = true ∧ t.flt.code = St.sramUncorrectable ∧ t.hoop.bypassed = true ∧ t.crs.waiting.length ≤ s.crs.waiting.length) ∧
    (∀ u, Answers (.sramUncorrectable .directoryCache u) s fun t => t.flt.head = s.flt.head + 1 ∧ t.flt.halted = s.flt.halted ∧ t.crs = s.crs) ∧
    (∀ die eng, die < 8 → hasMsd s die = true → eng < 4 → eng ∉ (s.msdOf die).disabled →
      Answers (.slathEngineFault die eng) s fun t =>
        (eng ∈ (t.msdOf die).disabled ↔ (s.msdOf die).lastFail.any (fun x => x.1 == eng && x.2 + 1 == s.rnd.num) = true) ∧
        (eng, s.rnd.num) ∈ (t.msdOf die).lastFail ∧ s.flt.head < t.flt.head) ∧
    (∀ die, die < 8 → hasMsd s die = true → Answers (.migrationEngineFault die) s fun t =>
      t.mem = s.mem ∧ t.flt.head = s.flt.head + 1 ∧ (look {} t.flt.ring ((s.flt.head + 1) % 4096)).code = St.engineReset) ∧
    (∀ e, e < 40 → s.rst.running = true → (s.rst.busy.any fun b => b.sel == 4 && b.unit == e) = false →
      Answers (.copyEngineFault e) s fun t => t.rst.busy = s.rst.busy ++ [{ sel := 4, unit := e, reset := false }] ∧
        t.flt.head = s.flt.head + 1 ∧ t.flt.nBlk = sat 16 (s.flt.nBlk + 1)) ∧
    (Answers .firmwareWatchdog s fun t => t.train.probe = none ∧ t.flt.head = s.flt.head + 1 ∧ ∀ ch, chanState (t.chan ch) ≠ Ch.busy) ∧
    (s.pwr.state ≠ .d3cold → Answers .lidSelfCheckFail s fun t => t.rst.cls = 1 ∧ t.rst.source = 0x10 ∧ t.rst.running = false ∧
      (∀ c, c ≠ 0 → t.ctx c = {}) ∧ t.mem = State.reset.mem ∧ t.lid.anchor = s.lid.anchor))

/-- R325, R326, R327: what a Wale receiver does with a DATA packet of an open flow, and its acknowledgement timer. R325: ACK moves the window, NAK and the
resend timer send again from the oldest packet, and 7 resends of one PSN end the flow. -/
def Obligations.WalePackets : Prop :=
  (∀ (s : State) (p : Nat) (w : WalePkt) (f : Flow), p < 12 → flowFor s p w = some f → s.flow w.dstQpn = f →
    let q := w.dstQpn
    let good := w.isSealed = true → keyLive s w.keyId = true ∧ w.tag = sealTag f.sealKey (!f.opener) w
    (good → w.psn = f.rcvNext →
      Answers (.waleData p w) s fun t => (t.flow q).rcvNext = f.rcvNext + 1 ∧ (t.flow q).nakSent = false ∧
        (t.flow q).rcvUnack = (if w.last = true ∨ w.ackReq = true ∨ 16 ≤ f.rcvUnack + 1 then 0 else f.rcvUnack + 1) ∧
        (w.last = false → (t.flow q).rcvBuf = wrBytes f.rcvBuf w.offset (openedBytes f w) ∧ (t.flow q).rcvDone = f.rcvDone) ∧
        (w.last = true → (t.flow q).rcvBuf = [] ∧ ∃ bs, (t.flow q).rcvDone = f.rcvDone ++ [(w.msgId, bs)] ∧
          bs = rdBytes (wrBytes f.rcvBuf w.offset (openedBytes f w)) 0 (max f.rcvLen (w.offset + w.payload.length))) ∧
        tallyOf t f.cls = ((tallyOf s f.cls).add { link := waleBytes w.isSealed w.payload.length }).add
          (if w.last = true ∨ w.ackReq = true ∨ 16 ≤ f.rcvUnack + 1 then { link := waleBytes false 0 } else {})) ∧
    (good → f.rcvNext < w.psn → Answers (.waleData p w) s fun t =>
      t.flow q = { f with nakSent := true } ∧ (f.nakSent = true → t.out = s.out) ∧
      (f.nakSent = false → canSend s p (f.rcvNext % subPorts s p) = true → pausedOn s p (walePrio s f) = false →
        t.out = .wale p (f.rcvNext % subPorts s p) 3 { dstQpn := f.peerQpn, srcQpn := q, psn := f.rcvNext }
          (frameTag s p (walePrio s f) true) :: s.out)) ∧
    (good → w.psn < f.rcvNext → Answers (.waleData p w) s fun t =>
      (t.flow q).rcvNext = f.rcvNext ∧ (t.flow q).rcvUnack = 0 ∧ (t.flow q).rcvDone = f.rcvDone ∧ (t.flow q).rcvBuf = f.rcvBuf) ∧
    (¬ good → Answers (.waleData p w) s fun t =>
      t.host = s.host ∧ (t.port p).sealDrop = sat 16 ((s.port p).sealDrop + 1) ∧ t.out = s.out) ∧
    (q < 262144 → 0 < f.rcvUnack → Answers (.waleAckTimer q) s fun t => t.flow q = { f with rcvUnack := 0, rcvCe := false }))
  ∧
  (∀ (s : State) (p : Nat) (w : WalePkt) (f : Flow), p < 12 → flowFor s p w = some f → s.flow w.dstQpn = f →
    let q := w.dstQpn
    (f.sndUna ≤ w.psn → w.psn ≤ f.sndNext →
      Answers (.waleAck p w) s fun t => (t.flow q).sndUna = w.psn ∧ f.sndNext ≤ (t.flow q).sndNext ∧
        (t.flow q).window = (if w.ece then max 16 (f.window / 2) else min 256 (f.window + 1)) ∧
        (t.flow q).resends = (if f.sndUna < w.psn then 0 else f.resends) ∧
        (t.flow q).msgs = f.msgs.filter fun m => decide (w.psn < m.psn + m.npkt)) ∧
    (f.sndUna ≤ w.psn → w.psn < f.sndNext → (f.sndUna < w.psn ∨ f.resends < 7) → pausedOn s f.port (walePrio s f) = false →
      Answers (.waleNak p w) s fun t => (t.flow q).sndUna = w.psn ∧ (t.flow q).sndNext = f.sndNext ∧
        (t.flow q).resends = (if f.sndUna < w.psn then 0 else f.resends) + 1) ∧
    (f.sndUna < f.sndNext → f.resends < 7 → pausedOn s f.port (walePrio s f) = false → q < 262144 →
      Answers (.waleResendTimeout q) s fun t => t.flow q = { f with resends := f.resends + 1 }) ∧
    (f.sndUna < f.sndNext → 7 ≤ f.resends → q < 262144 →
      Answers (.waleResendTimeout q) s fun t => t.flow q = {} ∧ (t.qp q).state = .free ∧
        (t.port p).flowFail = sat 16 ((s.port p).flowFail + 1) ∧
        (∀ m ∈ f.msgs, .waleDone q m.id St.partialEnd (min m.bytes.length (4096 * (f.sndUna - m.psn))) ∈ t.out)))

/-- R322, R324: opening a flow at the responder and at the opener, and closing it. -/
def Obligations.WaleOpenClose : Prop :=
  ∀ (s : State) (p : Nat) (w : WalePkt), p < 12 →
    let prio := walePrio s { port := p, cls := w.cls % 8 }
    ((∀ q, ¬ ((s.flow q).opener = false ∧ (s.flow q).state = .isOpen ∧ (s.flow q).port = p ∧ (s.flow q).peerQpn = w.srcQpn ∧
        (s.flow q).nonceR = w.nonce)) → (∀ x ∈ s.host.flows, s.flow x.1 = x.2) → hasPort s p = true →
      (w.keyId = 0 ∨ keyLive s w.keyId = true →
        (∀ q, freeQp s (flowCtx s w.keyId) = some q → Answers (.waleOpen p w) s fun t =>
          (t.flow q).state = .isOpen ∧ (t.flow q).opener = false ∧ (t.flow q).peerQpn = w.srcQpn ∧ (t.flow q).port = p ∧
          (t.flow q).cls = w.cls % 8 ∧ (t.flow q).keyId = w.keyId ∧ (t.flow q).nonceR = w.nonce ∧
          (t.flow q).sealKey = sealKey s w.keyId w.nonce (t.flow q).nonceL ∧ (t.qp q).state = .active ∧ (t.qp q).typ = 6 ∧
          (∀ k, k ≠ q → t.flow k = s.flow k)) ∧
        (freeQp s (flowCtx s w.keyId) = none → canSend s p 0 = true → pausedOn s p prio = false → Answers (.waleOpen p w) s fun t =>
          t.host = s.host ∧ t.out = .wale p 0 6 { dstQpn := w.srcQpn, srcQpn := 0, reason := 1 } (frameTag s p prio true) :: s.out)) ∧
      (w.keyId ≠ 0 → keyLive s w.keyId = false → canSend s p 0 = true → pausedOn s p prio = false → Answers (.waleOpen p w) s fun t =>
        t.host = s.host ∧ t.out = .wale p 0 6 { dstQpn := w.srcQpn, srcQpn := 0, reason := 2 } (frameTag s p prio true) :: s.out)) ∧
    ((s.flow w.dstQpn).state = .opening → (s.flow w.dstQpn).port = p →
      (Answers (.waleOpenAck p w) s fun t => (t.flow w.dstQpn).state = .isOpen ∧ (t.flow w.dstQpn).peerQpn = w.srcQpn ∧
        (t.flow w.dstQpn).nonceR = w.nonce ∧
        (t.flow w.dstQpn).sealKey = sealKey s (s.flow w.dstQpn).keyId (s.flow w.dstQpn).nonceL w.nonce) ∧
      (w.reason = 1 → exec (.waleClose p w) s = .next (s.modFlow w.dstQpn fun f => { f with state := .retry }))) ∧
    (∀ f, flowFor s p w = some f → s.flow w.dstQpn = f → w.reason ≠ 3 →
      Answers (.waleClose p w) s fun t => t.flow w.dstQpn = {} ∧ (t.qp w.dstQpn).state = .free ∧ t.out.length = s.out.length + f.msgs.length)

/-- R311, R312, R414, R427: links of Ethernet and CXL ports go down and come up, IDE is lost and returns, PAUSE does nothing. R313, R315 to R318: frames
that a port takes, drops or answers, PFC in both directions, and MKA. -/
def Obligations.PortLinksAndFrames : Prop :=
  (∀ (s : State) (p sub : Nat), p < 12 → sub < 4 →
    (bit (s.port p).linkUp sub = true →
      Answers (.linkDown false p sub) s fun t => bit (t.port p).linkUp sub = false ∧ bit (t.port p).macsecUp sub = false ∧
        (∀ i, i ≠ sub → bit (t.port p).linkUp i = bit (s.port p).linkUp i) ∧ (∀ r, r ≠ p → t.port r = s.port r) ∧
        (∀ h, h ∈ t.txHeld ↔ h ∈ s.txHeld ∧ ¬(h.port = p ∧ h.sub = sub)) ∧
        t.flt.head = s.flt.head + 1 ∧ (look {} t.flt.ring ((s.flt.head + 1) % 4096)).code = St.linkDown ∧
        (look {} t.flt.ring ((s.flt.head + 1) % 4096)).cls = (if portBusy s p then Cls.workEnded else Cls.recovered)) ∧
    (hasPort s p = true → (s.port p).enable = true → sub < subPorts s p →
      Answers (.linkUp false p sub) s fun t => bit (t.port p).linkUp sub = true ∧
        (∀ i, i ≠ sub → bit (t.port p).linkUp i = bit (s.port p).linkUp i) ∧ (∀ r, r ≠ p → t.port r = s.port r)) ∧
    (p < 4 → hasCxl s p = true →
      (look 0 s.cxl p = 0 → Answers (.linkDown true p sub) s fun t => look 0 t.cxl p = 1 ∧ (∀ r, r ≠ p → look 0 t.cxl r = look 0 s.cxl r) ∧
        t.flt.head = s.flt.head + 1 ∧ (look {} t.flt.ring ((s.flt.head + 1) % 4096)).cls = Cls.recovered ∧ t.ports = s.ports) ∧
      (Answers (.linkUp true p sub) s fun t => look 0 t.cxl p = 0 ∧ p ∉ t.lid.cxlIde ∧ t.ports = s.ports) ∧
      (Answers (.cxlIdeLoss p) s fun t => p ∈ t.lid.cxlIde ∧ (∀ r, r ≠ p → (r ∈ t.lid.cxlIde ↔ r ∈ s.lid.cxlIde)) ∧ t.mem = s.mem) ∧
      (Answers (.cxlIdeReturn p) s fun t => p ∉ t.lid.cxlIde ∧ (∀ r, r ≠ p → (r ∈ t.lid.cxlIde ↔ r ∈ s.lid.cxlIde)) ∧ t.mem = s.mem)) ∧
    exec (.pauseFrame p) s = .next s)
  ∧
  (∀ (s : State) (p sub : Nat) (e : EthFrame), p < 12 → sub < 4 →
    let prio := (s.port p).tcOther
    let tag := frameTag s p prio false
    (bit (s.port p).linkUp sub = true → (9216 < e.len ∨ e.fecOk = false) →
      exec (.ethFrameReceive p sub e) s = .next (s.modPort p fun x => { x with rxDrop := sat 16 (x.rxDrop + 1) })) ∧
    (bit (s.port p).linkUp sub = true → e.len ≤ 9216 → e.fecOk = true → (e.kind = .noSecTag ∨ e.kind = .secured false) →
      exec (.ethFrameReceive p sub e) s = .next (s.modPort p fun x => { x with macsecDrop := sat 16 (x.macsecDrop + 1) })) ∧
    (bit (s.port p).linkUp sub = true → e.len ≤ 9216 → e.fecOk = true → e.kind = .secured true → bit (s.port p).macsecUp sub = true →
      Answers (.ethFrameReceive p sub e) s fun t => (t.port p).rxDrop = (s.port p).rxDrop ∧ (t.port p).macsecDrop = (s.port p).macsecDrop ∧
        (bit (s.port p).pfcEn (e.prio % 8) = true →
          look 0 (t.port p).rxUsed (e.prio % 8) = look 0 (s.port p).rxUsed (e.prio % 8) + e.len) ∧
        (bit (s.port p).pfcEn (e.prio % 8) = false → t = s)) ∧
    (∀ prio, prio < 8 → hasPort s p = true →
      (Answers (.pfcFrame p prio true) s fun t => (t.port p).xoffRx = sat 16 ((s.port p).xoffRx + 1) ∧
        pausedOn t p prio = bit (s.port p).pfcEn prio ∧ (∀ i, i ≠ prio → pausedOn t p i = pausedOn s p i)) ∧
      (Answers (.pfcFrame p prio false) s fun t => pausedOn t p prio = false ∧ (∀ i, i ≠ prio → pausedOn t p i = pausedOn s p i) ∧
        (t.port p).xoffRx = (s.port p).xoffRx) ∧
      ((s.port p).xoffSent.contains prio = true → Answers (.pfcXonSend p prio) s fun t =>
        (t.port p).xoffSent.contains prio = false ∧ look 0 (t.port p).rxUsed prio = 0 ∧ t.out = .pfc p prio false :: s.out)) ∧
    (bit (s.port p).linkUp sub = true → ((s.port p).caks.any fun c => c.1 == sub) = true →
      (bit (s.port p).macsecUp sub = false → Answers (.mkaFrame p sub .install) s fun t => bit (t.port p).macsecUp sub = true ∧
        (t.port p).oldSa = (s.port p).oldSa ∧ (t.port p).linkUp = (s.port p).linkUp) ∧
      (bit (s.port p).macsecUp sub = true → Answers (.mkaFrame p sub .install) s fun t => sub ∈ (t.port p).oldSa ∧
        (t.port p).macsecUp = (s.port p).macsecUp) ∧
      (Answers (.mkaFrame p sub .retire) s fun t => sub ∉ (t.port p).oldSa ∧ (t.port p).macsecUp = (s.port p).macsecUp)) ∧
    (canSend s p 0 = true → pausedOn s p prio = true → (s.port p).v4valid = true →
      exec (.arpRequest p (s.port p).ipv4) s = .next { s with txHeld := s.txHeld ++ [⟨p, 0, prio, .eth p 2 tag⟩] }) ∧
    (canSend s p 0 = true → pausedOn s p prio = false → ∀ addr,
      (addr ≠ 0 → (s.port p).ipv6 = addr →
        exec (.neighborSolicitation p addr) s = .next (s.emit (.eth p 1 tag)) ∧
        exec (.echoRequest p true addr) s = .next (s.emit (.eth p 3 tag))) ∧
      ((s.port p).v4valid = true → (s.port p).ipv4 = addr →
        exec (.arpRequest p addr) s = .next (s.emit (.eth p 2 tag)) ∧
        exec (.echoRequest p false addr) s = .next (s.emit (.eth p 4 tag))) ∧
      ((s.port p).ipv6 ≠ addr → exec (.neighborSolicitation p addr) s = .next s ∧ exec (.echoRequest p true addr) s = .next s)))

/-- R319, R320: congestion notifications and the rate, the packets and time-outs of a reliable queue pair. -/
def Obligations.RoceQueuePairs : Prop :=
  ∀ (s : State) (qpn : Nat), qpn < 262144 → isRoce (s.qp qpn) = true →
    let q := s.qp qpn
    exec (.cnp qpn) s = .next (s.modQp qpn fun q => { q with halvings := q.halvings + 1 }) ∧
    (Answers (.roceRateRestore qpn) s fun t => (t.qp qpn).cnpSent = false ∧
      (if 8 * 2 ^ q.halvings ≤ q.rate + 2 ^ q.halvings then (t.qp qpn).rate = 8 ∧ (t.qp qpn).halvings = 0
       else (t.qp qpn).rate = q.rate + 2 ^ q.halvings ∧ (t.qp qpn).halvings = q.halvings) ∧ (∀ k, k ≠ qpn → t.qp k = s.qp k)) ∧
    (∀ p (k : RocePkt), p < 12 → k.qpn = qpn → roceLive s qpn = true → q.port = p → q.typ = 4 → k.ce = false → k.psn < 2 ^ 24 →
      (k.op = .send → k.psn = q.epsn → nextRecv q = none → Answers (.rocePacket p k) s fun t => (t.qp qpn).epsn = q.epsn ∧
        t.mem = s.mem ∧ (canSend s p q.sub = true → pausedOn s p (s.port p).tcRoce = false →
          t.out = .roce qpn p q.sub { op := .nak true, psn := q.epsn } (frameTag s p (s.port p).tcRoce true) :: s.out)) ∧
      (k.op = .write → k.psn = q.epsn → k.payload = [] → Answers (.rocePacket p k) s fun t =>
        (t.qp qpn).epsn = (q.epsn + 1) % 2 ^ 24 ∧ t.mem = s.mem ∧
        (canSend s p q.sub = true → pausedOn s p (s.port p).tcRoce = false →
          t.out = .roce qpn p q.sub { op := .ack, psn := k.psn } (frameTag s p (s.port p).tcRoce true) :: s.out)) ∧
      (k.op = .write → k.psn = q.epsn → k.payload ≠ [] → keyGives s q.ctx k.key k.addr k.payload.length (some Rt.remoteWrite) = false →
        Answers (.rocePacket p k) s fun t => (t.qp qpn).epsn = q.epsn ∧ t.mem = s.mem ∧
          (canSend s p q.sub = true → pausedOn s p (s.port p).tcRoce = false →
            t.out = .roce qpn p q.sub { op := .nak false, psn := q.epsn } (frameTag s p (s.port p).tcRoce true) :: s.out)) ∧
      ((k.op = .send ∨ k.op = .write) → 0 < (k.psn + 2 ^ 24 - q.epsn) % 2 ^ 24 → (k.psn + 2 ^ 24 - q.epsn) % 2 ^ 24 < 2 ^ 23 →
        Answers (.rocePacket p k) s fun t => (t.qp qpn).epsn = q.epsn ∧ t.mem = s.mem ∧
          (canSend s p q.sub = true → pausedOn s p (s.port p).tcRoce = false →
            t.out = .roce qpn p q.sub { op := .nak true, psn := q.epsn } (frameTag s p (s.port p).tcRoce true) :: s.out))) ∧
    (roceLive s qpn = true → outstanding q ≠ [] → Answers (.roceAckTimeout qpn) s fun t =>
      (t.qp qpn).retries = if Config.roceRetries qpn ≤ q.retries then 0 else q.retries + 1)

/-- R345, R349 to R351, R355: a descriptor's fetch takes it from the SQ or the RQ; one that is malformed ends with DESC_INVALID; a NOP ends with OK; a copy
and a RoCE operation wait for their data, and a SERVE submits a sequence. -/
def Obligations.DescriptorFetch : Prop :=
  ∀ (s : State) (qpn : Nat) (d : BitVec 512), qpn < 262144 →
    let q := s.qp qpn
    let x : DescS := { idx := q.fetched, raw := d, gen := (s.tkey q.ctx).gen }
    let s1 := (s.modQp qpn fun q => { q with fetched := idxAdd q.fetched 1, descs := q.descs ++ [x] }).charge q.cls { link := 64 }
    let ends := fun (st : Nat) (t : State) => (t.qp qpn).fetched = idxAdd q.fetched 1 ∧ (t.qp qpn).descs = [] ∧
      (t.qp qpn).cqTail = idxAdd q.cqTail 1 ∧ ∃ r, look {} (t.qp qpn).shadow (q.cqTail % 2 ^ q.logCq) = r ∧ r.status = st ∧
      r.tag = jobTag d ∧ r.ctx = q.ctx ∧ r.progress = 0 ∧ r.rnd = s.rnd.num ∧ t.mem = s.mem
    (fetches s qpn = true → q.state = .active → ctxGoing s q.ctx = false → (s.ctx q.ctx).state = .active → (s.ctx q.ctx).reset = none →
      s.flt.halted = false → (s.ctx q.ctx).requireIde = false → dflags d = 0 → q.descs = [] →
      (isNop d = true → headOk d = true → dAt d 16 48 = 0 → Answers (.descNop qpn d) s (ends St.ok)) ∧
      (isNop d = true → dAt d 16 48 ≠ 0 → Answers (.descNop qpn d) s (ends St.descInvalid)) ∧
      (assignedType (dtype d) = false → isNop d = false → Answers (.descNop qpn d) s (ends St.descInvalid)) ∧
      (dtype d = 1 → copyOk d q = true → exec (.copy qpn d) s = .next s1) ∧
      (dtype d = 1 → copyOk d q = false → Answers (.copy qpn d) s (ends St.descInvalid)) ∧
      (dtype d = 2 → serveOk s d q = true → sessionBad s (seqOf s1 qpn x) = false → serveBad s1 (seqOf s1 qpn x) = none →
        Answers (.serve qpn d) s fun t => t.crs.waiting = s.crs.waiting ++ [seqOf s1 qpn x] ∧ t.crs.order = s.crs.order + 1 ∧
          (t.qp qpn).descs = [x] ∧ (t.qp qpn).fetched = idxAdd q.fetched 1 ∧ (t.session (seqKey (seqOf s1 qpn x))).accepted = !bit (dAt d 19 1) 2) ∧
      (dtype d = 2 → serveOk s d q = true → sessionBad s (seqOf s1 qpn x) = true → Answers (.serve qpn d) s (ends St.sessionInvalid)) ∧
      (∀ c ∈ ([(Instr.send, 0x10), (.sendWithImmediate, 0x11), (.rdmaWrite, 0x12), (.rdmaWriteWithImmediate, 0x13), (.rdmaRead, 0x14)] :
          List ((Nat → BitVec 512 → Instr) × Nat)), dtype d = c.2 →
        (sendOk qpn d q = false → Answers (c.1 qpn d) s (ends St.descInvalid)) ∧
        (sendOk qpn d q = true → keyGives s q.ctx (rKey d) (rAddr d) (rLen d) (localRight d) = false →
          Answers (c.1 qpn d) s (ends St.hostFault)) ∧
        (sendOk qpn d q = true → keyGives s q.ctx (rKey d) (rAddr d) (rLen d) (localRight d) = true →
          (canSend s q.port q.sub = false ∨ pausedOn s q.port (s.port q.port).tcRoce = true) → exec (c.1 qpn d) s = .next s1) ∧
        (sendOk qpn d q = true → q.typ = 4 → keyGives s q.ctx (rKey d) (rAddr d) (rLen d) (localRight d) = true →
          canSend s q.port q.sub = true → pausedOn s q.port (s.port q.port).tcRoce = false →
          ∀ bs r, (if c.2 = 0x14 then (.ok [], s1) else s1.readDva q.ctx 0 (rAddr d) (rLen d)) = (.ok bs, r) →
          (r.ask (2, qpn, x.idx) q.cls (sideCost s1 q.ctx (rAddr d) bs.length)).1 = true →
          Answers (c.1 qpn d) s fun t => (t.qp qpn).psn = (q.psn + packetsOf qpn (rLen d)) % 2 ^ 24 ∧
            (t.qp qpn).descs = [{ x with started := true }] ∧ t.out.length = s.out.length + if c.2 = 0x14 then 1 else packetsOf qpn (rLen d)))) ∧
    (dtype d = 0x18 → isRoce q = true → q.rqHead ≠ q.rqTail → fetching s qpn = true → q.state = .active → ctxGoing s q.ctx = false →
      s.flt.halted = false → (s.ctx q.ctx).requireIde = false → headOk d = true → rLen d ≤ 2 ^ 31 → dAt d 32 32 = 0 →
      exec (.recv qpn d) s = .next ((s.modQp qpn fun q => { q with
        rqHead := idxAdd q.rqHead 1, recvs := q.recvs ++ [{ idx := rqIdx q.rqHead, raw := d, gen := (s.tkey q.ctx).gen }] }).charge q.cls
          { link := 64 }))

/-- R240, R348, R353, R354, R358, R363, R400: a copy's bursts and their faults, flushing reads, a stalled CQ and a completion time-out. R343: a memory
request into the host window is refused and counted, or it reads or writes the bound context's memory. -/
def Obligations.CopiesAndHostWindow : Prop :=
  (∀ (s : State) (qpn idx : Nat), qpn < 262144 → idx < 2 ^ 32 →
    let q := s.qp qpn
    let e := engineOf qpn q.typ
    (∀ x b, activeCopy s qpn idx = some x → s.host.flrCut.contains q.ctx = true → cqFull q = false → q.held = [] → q.descs = [x] →
      Answers (.copyBurst qpn idx b) s fun t => t.mem = s.mem ∧ ∃ r,
        look {} (t.qp qpn).shadow (q.cqTail % 2 ^ q.logCq) = r ∧ r.status = St.hostLost ∧ r.progress = sat 32 x.done ∧ r.tag = jobTag x.raw) ∧
    (∀ x b, activeCopy s qpn idx = some x → s.host.flrCut.contains q.ctx = false → burstFits q b = true → (q.typ = 2 ∨ hostOk s (qpFn s qpn) = true) →
      let n := burstLen x.raw x.done
      let s1 := s.modDesc qpn idx fun y => { y with started := true }
      (x.gen ≠ (s.tkey q.ctx).gen → ctxGoing s q.ctx = false → q.state ≠ .revoked → Answers (.copyBurst qpn idx b) s fun t =>
        (look {} t.host.ce e).stale = sat 32 ((look {} s.host.ce e).stale + 1) ∧ t.mem = s.mem ∧ t.out = s.out ∧ t.host.qps = s.host.qps) ∧
      (x.gen = (s.tkey q.ctx).gen → b = .failed → Answers (.copyBurst qpn idx b) s fun t =>
        (look {} t.host.ce e).faults = sat 16 ((look {} s.host.ce e).faults + 1) ∧ t.mem = s.mem ∧
        (cqFull q = false → q.held = [] → q.descs = [x] → ∃ r, look {} (t.qp qpn).shadow (q.cqTail % 2 ^ q.logCq) = r ∧
          r.status = St.hostFault ∧ r.progress = sat 32 x.done ∧ r.tag = jobTag x.raw)) ∧
      (x.gen = (s.tkey q.ctx).gen → ∀ bs, b = .data bs → copyTo x.raw = 0 → bs.length = n →
        (s1.writeDva q.ctx (copyDst x.raw + x.done) bs).1 = .ok () →
        let a := s1.ask (1, qpn, idx) q.cls (burstCost s1 q x.raw x.done n)
        a.1 = true → Answers (.copyBurst qpn idx b) s fun t =>
          t.mem = (a.2.writeDva q.ctx (copyDst x.raw + x.done) bs).2.mem ∧
          (x.done + n < copyLen x.raw → ∃ y, (t.qp qpn).descs.find? (fun z => z.idx == idx) = some y ∧ y.done = x.done + n ∧ y.started = true) ∧
          (copyLen x.raw ≤ x.done + n → bit (dflags x.raw) 0 = false → bit (dflags x.raw) 2 = false → cqFull q = false → q.held = [] →
            q.descs = [x] → ∃ r, look {} (t.qp qpn).shadow (q.cqTail % 2 ^ q.logCq) = r ∧ r.status = St.ok ∧
              r.progress = sat 32 (x.done + n) ∧ r.tag = jobTag x.raw))) ∧
    (∀ i x r ok, i < 2 ^ 33 → s.desc qpn i = some x → x.held = some r → cqFull q = false → q.held = [] → q.descs = [x] →
      bit (dflags x.raw) 2 = false →
      Answers (.pathFenceRead qpn i ok) s fun t =>
        ∃ y, look {} (t.qp qpn).shadow (q.cqTail % 2 ^ q.logCq) = y ∧ (t.qp qpn).descs = [] ∧ y.tag = jobTag x.raw ∧
          (ok = true → y.status = r.status ∧ Fl.visAll ≤ y.flags) ∧ (ok = false → y.status = St.hostFault)) ∧
    (∀ n, q.fullSince = some n → cqFull q = true → q.stalled = false → n + 8 ≤ boundaryRnd s →
      exec (.cqStalled qpn) s = .next ((s.modQp qpn fun q => { q with stalled := true }).qpEvent qpn Ev.cqStalled St.ok)) ∧
    (s.host.linkUp = true → q.state = .active → q.fetched ≠ q.sqTail →
      Answers (.pcieCompletionTimeout qpn idx true) s fun t => (t.qp qpn).state = .error ∧ (t.qp qpn).sqTail = q.sqTail ∧
        (∀ k, k ≠ qpn → t.qp k = s.qp k) ∧ t.mem = s.mem) ∧
    (∀ x, s.host.linkUp = true → activeCopy s qpn idx = some x → q.typ = 0 →
      Answers (.pcieCompletionTimeout qpn idx false) s fun t =>
        (look {} t.host.ce e).faults = sat 16 ((look {} s.host.ce e).faults + 1) ∧ t.mem = s.mem))
  ∧
  (∀ (s : State) (r : AperReq), barLive s 0 = true → r.off / aperSize s < 64 →
    let a := aper s (r.off / aperSize s)
    let o := r.off % aperSize s
    let n := if r.write then r.data.length else r.len
    (aperRefused s a o n r = true → Answers (.apertureAccess r) s fun t =>
      t.host.refused = sat 32 (s.host.refused + 1) ∧ t.mem = s.mem ∧ t.out = if r.write then s.out else .aperUnsupported :: s.out) ∧
    (aperRefused s a o n r = false → r.write = true → (s.writeDva a.ctx (a.dva + o) r.data).1 = .ok () →
      Answers (.apertureAccess r) s fun t => t.mem = (s.writeDva a.ctx (a.dva + o) r.data).2.mem ∧ t.host = s.host ∧
        (tallyOf s a.cls).link + n ≤ (tallyOf t a.cls).link ∧ t.out = s.out) ∧
    (∀ bs, aperRefused s a o n r = false → r.write = false → (s.readDva a.ctx 0 (a.dva + o) n).1 = .ok bs →
      Answers (.apertureAccess r) s fun t => t.out = .aperRead bs :: s.out ∧ t.host = s.host ∧
        (tallyOf s a.cls).link + n ≤ (tallyOf t a.cls).link))

/-- R339, R361, R363, R364, R373: loss of the host link, a function-level reset, Bus Master Enable's return, virtual functions, event moderation and
address translation invalidation. -/
def Obligations.HostLink : Prop :=
  ∀ (s : State) (fn : Nat), fn < 128 →
    (s.host.linkUp = true → Answers .dlDown s fun t => t.host.linkUp = false ∧ t.host.losses = sat 16 (s.host.losses + 1) ∧ t.host.numVf = 0 ∧
      t.host.ats = [] ∧ (∀ n, (s.qp n).state = .active → (t.qp n).state = .hostLost) ∧ t.mem = s.mem ∧ t.crs = s.crs ∧
      ∀ k, k ≤ s.host.numVf → (t.fnOf k).bme = false ∧ (t.fnOf k).lostQps ≠ none) ∧
    (fn ≤ s.host.numVf → s.rst.perstLow = false → Answers (.bmeRestored fn) s fun t =>
      t.host.linkUp = true ∧ (t.fnOf fn).bme = true ∧ (t.fnOf fn).lostQps = none ∧ (∀ k, k ≠ fn → t.fnOf k = s.fnOf k) ∧ t.host.qps = s.host.qps ∧
      (∀ n, (s.fnOf fn).lostQps = some n → (s.fnOf fn).store = [] → (s.ring fn 0).set = true → ringRoom (s.ring fn 0) = true → inD3 s = false →
        ∃ e, .event fn 0 (s.ring fn 0).tail e ∈ t.out ∧ e.etype = Ev.hostLost ∧ e.obj = n)) ∧
    (fn ≤ s.host.numVf → Answers (.flr fn) s fun t => (s.rnd.enable = true → t.crs = s.crs ∧ t.cells = s.cells ∧
        ∀ c, c ∈ t.host.flrCut ↔ c ∈ s.host.flrCut ∨ (s.ctx c).func = fn ∧ (s.ctx c).state ≠ .free) ∧
      (t.fnOf fn).bme = false ∧ (t.fnOf fn).store = [] ∧ (t.fnOf fn).lostQps ≠ none ∧
      (∀ n, (s.qp n).state = .active → (s.ctx (s.qp n).ctx).func = fn → (t.qp n).state = .hostLost) ∧
      (∀ x ∈ t.host.apers, (s.ctx x.2.ctx).state ≠ .free → (s.ctx x.2.ctx).func ≠ fn) ∧
      (∀ x ∈ t.mb.chans, x.2.assigned = true → x.2.func = fn → x.2.rsp = [] ∧ x.2.seq = 0 ∧ x.2.drops = 0 ∧
        (x.2.state = Ch.idle ∨ x.2.state = Ch.busy ∧ x.2.discard = true))) ∧
    (∀ ring, ring < 16 → (s.ring fn ring).modRun = true → (s.ring fn ring).owed = true → hostOk s fn = true →
      Answers (.evtModExpiry fn ring) s fun t => t.out = .msix fn (s.ring fn ring).vector :: s.out ∧ (t.ring fn ring).owed = false ∧
        (t.ring fn ring).modRun = decide (0 < (s.ring fn ring).modUs)) ∧
    (∀ n, n ≤ 127 → Answers (.vfEnable n) s fun t => t.host.numVf = n ∧ (∀ x ∈ t.host.fns, n < x.1 → x.2.bme = false) ∧ t.mem = s.mem ∧
      t.host.qps = s.host.qps) ∧
    (∀ addr len, Answers (.atsInvalidation addr len) s fun t =>
      (∀ a, a ∈ t.host.ats ↔ a ∈ s.host.ats ∧ ¬ (addr ≤ a ∧ a < addr + len)) ∧ t.out = .atsDone addr :: s.out)

/-- R155, R158, R235, R247, R249: tables and reports from other devices, and the end of a course for its rows. -/
def Obligations.CourseCompletion : Prop :=
  ∀ (s : State),
    (∀ t : SegTable, Answers (.segmentTableReceive t) s fun u => u.crs = { s.crs with tables := s.crs.tables ++ [t] } ∧
      (tallyOf u Act.mgmt).link = (tallyOf s Act.mgmt).link + (64 + 32 * t.segs.length + 16 * t.rows.length)) ∧
    (∀ dev r, dev < 16 → Answers (.residencyReport dev r) s fun t => (dev, r) ∈ t.crs.reports ∧ (∀ x ∈ t.crs.reports, x.1 = dev → x.2 = r) ∧
      (∀ x, x.1 ≠ dev → (x ∈ t.crs.reports ↔ x ∈ s.crs.reports)) ∧ t.crs.running = s.crs.running) ∧
    (∀ cid c r, s.course cid = some c → c.finished = true → c.rows = [r] → c.violated = false → r.gone = false →
      (∀ lc ∈ planCells c.plan, ∀ st, (s.stream lc st).stws = [] ∧ (s.stream lc st).puts = []) →
      let n := min c.plan.tokens (r.maxtok - r.produced)
      (r.produced + n < r.maxtok → (∀ h, r.handle = some h → (s.weaver h).state ≠ .removing) →
        Answers (.courseComplete cid) s fun t => (∀ x ∈ t.crs.running, x.id ≠ cid) ∧
        t.crs.waiting = s.crs.waiting ++ [{ r with produced := r.produced + n }] ∧ t.host = s.host ∧
        (t.session (seqKey r)).pos = (s.session (seqKey r)).pos + n) ∧
      (∀ d, r.maxtok ≤ r.produced + n → bit (dflags d.raw) 0 = false → (r.hostout = 0 ∨ reachesHost s r.qpn = false) → ctxGoing s r.ctx = false →
        s.desc r.qpn r.idx = some d →
        (s.qp r.qpn).descs = [d] → cqFull (s.qp r.qpn) = false → (s.qp r.qpn).held = [] → bit (dflags d.raw) 2 = false →
        Answers (.courseComplete cid) s fun t => (∀ x ∈ t.crs.running, x.id ≠ cid) ∧ (t.qp r.qpn).descs = [] ∧
          (∀ x ∈ t.crs.waiting, x.order ≠ r.order) ∧
          ∃ y, look {} (t.qp r.qpn).shadow ((s.qp r.qpn).cqTail % 2 ^ (s.qp r.qpn).logCq) = y ∧ y.status = St.ok ∧ y.tag = jobTag d.raw ∧
            y.progress = sat 32 (r.produced + n) ∧ y.gen = c.gen))

/-- R273, R293, R310: the frames that Twine returns, the probes, and a rail whose results do not come. -/
def Obligations.TwineFrames : Prop :=
  ∀ (s : State) (p : Nat) (w : TwineFrame), p < 12 → hasTrain s = true →
    (w.wellFormed = false → Answers (.twineResult p w) s fun t => (look {} t.train.twn p).drop = sat 16 ((look {} s.train.twn p).drop + 1) ∧
      t.train.jobs = s.train.jobs ∧ t.mem = s.mem) ∧
    (w.wellFormed = true → keyLive s w.keyId = false → Answers (.twineResult p w) s fun t =>
      (look {} t.train.twn p).staleKey = sat 16 ((look {} s.train.twn p).staleKey + 1) ∧ t.train.jobs = s.train.jobs ∧
      (tallyOf t Act.reduce).link = (tallyOf s Act.reduce).link + frameBytesOn w.payload.length) ∧
    (∀ key, w.wellFormed = true → keyLive s w.keyId = true → groupJob s w.group = some key → resultFits (s.job key) p w = true →
      ∀ i, i < (s.job key).nrail → i ≠ p → railSettled (s.job key) w.bucket ((s.job key).bucket ((s.job key).own w.bucket)) i = false →
      Answers (.twineResult p w) s fun t => (look {} t.train.twn p).result = sat 32 ((look {} s.train.twn p).result + 1) ∧
        ((t.job key).bucket ((s.job key).own w.bucket)).results =
          ((s.job key).bucket ((s.job key).own w.bucket)).results ++ [(p * 65536 + w.seq, w.payload)] ∧ t.out = s.out ∧
        (tallyOf t Act.reduce).link = (tallyOf s Act.reduce).link + frameBytesOn w.payload.length) ∧
    (∀ key, w.wellFormed = true → groupJob s w.group = some key →
      let j := s.job key
      let k := j.own w.bucket
      (current j w = true → w.rail = p → (j.bucket k).bounced.contains p = false → p < j.nrail →
        railSettled j w.bucket (j.bucket k) p = false → (j.bucket k).lost.contains p = false →
        Answers (.twineBounce p w) s fun t => ((t.job key).bucket k).bounced = (j.bucket k).bounced ++ [p] ∧
          (look {} t.train.twn p).bounce = sat 16 ((look {} s.train.twn p).bounce + 1)) ∧
      (j.probing.contains p = true → Answers (.twineProbeReply p w) s fun t =>
        (t.job key).probing.contains p = false ∧ (t.job key).ringRails = j.ringRails ∧ t.mem = s.mem)) ∧
    (∀ ch rnd, w.wellFormed = true → groupJob s w.group = none → s.train.probe = some (ch, p, rnd) →
      Answers (.twineProbeReply p w) s fun t => t.train.probe = none ∧ t.train.jobs = s.train.jobs) ∧
    (∀ key, (s.job key).probing.contains p = true → (s.job key).probeRnd + 1 ≤ boundaryRnd s →
      Answers (.probeTimeout key p) s fun t => (t.job key).probing.contains p = false ∧ (t.job key).ringRails.contains p = true ∧
        t.flt.head = s.flt.head + 1 ∧ (look {} t.flt.ring ((s.flt.head + 1) % 4096)).code = St.reduceEvent) ∧
    (∀ key b i, let j := s.job key
      let x := j.bucket (j.own b)
      b < 65536 → x.state = .waiting → p < j.nrail → x.sentRnd + 4 ≤ boundaryRnd s → j.byTwine x p = true → twinePiece j b x p = none →
      x.lost.contains p = false → i < j.nrail → i ≠ p → railSettled j b x i = false →
      Answers (.pieceLost key b p) s fun t => ((t.job key).bucket (j.own b)).lost = x.lost ++ [p] ∧
        (look {} t.train.twn p).lost = sat 16 ((look {} s.train.twn p).lost + 1) ∧ t.mem = s.mem)

/-- R283, R287 to R289, R294, R296 to R299, R301: a bucket is sent, late, summed on the ring, reported, decided and updated. -/
def Obligations.BucketExchange : Prop :=
  ∀ (s : State) (key b : Nat), b < 65536 → (s.job key).active = true → b < (s.job key).nbucket →
    let j := s.job key
    let k := j.own b
    let x := j.bucket k
    (ctxGoing s j.ctx = false → sendTurn j b = true →
      (∀ r, r < j.nrail → pausedOn s r (s.port r).tcTwine = false) →
      (∀ bs, (s.readAll j.ctx (gradArea j b)).1 = .ok bs →
        let m : Move := { what := .bucket key b, cls := Act.reduce, bytes := 0 }
        let s1 := if x.asked then s else ((s.modBucket key k fun x => { x with state := .sending, asked := true }).pushMove
          { m with link := false, bytes := (bs.map List.length).sum }).pushMove { m with hbm := false, bytes := sendCost j b x }
        (moveLeft s1 m.what ≠ 0 → exec (.bucketSend key b) s = .next s1) ∧
        (moveLeft s1 m.what = 0 → (∃ r, r < j.nrail ∧ railSettled j b x r = false) → 2 ≤ j.desc.m → Answers (.bucketSend key b) s fun t =>
          ((t.job key).bucket k).state = .waiting ∧ ((t.job key).bucket k).toSend = false ∧ ((t.job key).bucket k).asked = false ∧
          ((t.job key).bucket k).sentRnd = s.rnd.num ∧ ((t.job key).bucket k).attempt = x.attempt ∧
          t.mem.hbm = s.mem.hbm ∧ t.mem.slow = s.mem.slow ∧ t.mem.pte = s.mem.pte))) ∧
    (∀ f, j.firstRnd = some f → j.desc.replay = false → x.state = .isOpen → f + j.desc.deadline ≤ boundaryRnd s →
      Answers (.bucketLate key b) s fun t => (t.job key).bucket k = { x with state := .late, wasLate := true, sealedAt := j.seals, toSend := true } ∧
        (t.job key).seals = j.seals + 1 ∧ (t.job key).lates = j.lates + 1 ∧ t.mem = s.mem) ∧
    (∀ r : RingMsg, r.bucket = b → (s.tkey (s.weaver j.desc.handle).keySlot).state = .live → x.state = .waiting → x.attempt = r.attempt →
      r.owner < j.desc.m → r.rail < j.nrail → j.byRing b x r.rail = true → r.words.length = j.pieceLen b r.owner r.rail → r.owner ≠ j.desc.member →
      ∀ bs, (s.readAll j.ctx (if x.wasLate then [] else [((j.area b).grad + 4 * (j.piece b r.owner r.rail).1,
        4 * ((j.piece b r.owner r.rail).2 - (j.piece b r.owner r.rail).1))])).1 = .ok bs →
      Answers (.ringContrib key r) s fun t => ∃ c : Piece, c = contribution s j b (j.piece b r.owner r.rail).1 (j.piece b r.owner r.rail).2 ∧
        t.out = .ringSend key (ringPort s r.rail) ((j.desc.member + 1) % j.desc.m)
          { r with exp := max r.exp c.exp, ovf := r.ovf || c.ovf, nfcnt := (r.nfcnt + c.nf) % 2 ^ 32, words := addWords r.words c.words } :: s.out ∧
        t.train = s.train ∧ t.mem.hbm = s.mem.hbm ∧ t.mem.slow = s.mem.slow ∧
        (tallyOf t Act.reduce).hbm = (tallyOf s Act.reduce).hbm + (bs.map List.length).sum) ∧
    (∀ r : OwnerRpt, r.bucket = b → j.isLead = true → r.part < j.desc.npart → r.owner < j.desc.m →
      ((j.bucket (bktKey r.part b)).reports.length + 1 < j.desc.m) →
      Answers (.ownerReport key r) s fun t => r ∈ ((t.job key).bucket (bktKey r.part b)).reports ∧
        (r.part * 64 + r.owner) ∈ (t.job key).heard ∧ t.out = s.out ∧ t.mem = s.mem) ∧
    (∀ n ring, x.state = .waiting → Answers (.verdict key { bucket := b, kind := .redo n ring }) s fun t =>
      ((t.job key).bucket k).state = .sending ∧ ((t.job key).bucket k).toSend = true ∧ ((t.job key).bucket k).attempt = x.attempt + 1 ∧
      ((t.job key).bucket k).k = n ∧ (∀ r ∈ ring, r ∈ ((t.job key).bucket k).ringRails) ∧ (t.job key).redos = j.redos + 1 ∧
      (t.job key).leadHeard = s.rnd.num ∧ t.mem = s.mem) ∧
    (x.state = .waiting → Answers (.verdict key { bucket := b, kind := .failed }) s fun t => (t.job key).active = false ∧
      (t.weaver j.desc.handle).training = false) ∧
    (∀ owner data, owner < j.desc.m → owner ≠ j.desc.member → x.shards.contains owner = false → data.length = 2 * j.shardLen b owner →
      (x.state = .waiting ∨ x.state = .updating) →
      (copyBusy s j.desc.handle = true → Answers (.workingCopyShard key b owner data) s fun t => (b, owner, data) ∈ (t.job key).arrived ∧
        ((t.job key).bucket k) = x ∧ t.mem = s.mem) ∧
      (copyBusy s j.desc.handle = false → x.shards.length + 1 < j.desc.m →
        Answers (.workingCopyShard key b owner data) s fun t => ((t.job key).bucket k).shards = owner :: x.shards ∧
        ((t.job key).bucket k).state = x.state ∧ t.mem.slow = s.mem.slow ∧ t.out = s.out))

/-- R161, R278, R280, R300, R302, R303: publication, the step ledger, a silent member, and a learning step. -/
def Obligations.TrainingSteps : Prop :=
  ∀ (s : State) (key : Nat), let j := s.job key
    (∀ p, j.active = true → j.pubRnd = none → allClosed j = true →
      (j.isLead = true → s.rnd.num + 2 ≤ p → Answers (.publish key j.step p) s fun t => (t.job key).pubRnd = some p ∧
        (t.job key).pubLate = false ∧ t.out = .publish key j.step p :: s.out ∧ t.mem = s.mem) ∧
      (j.isLead = true → p < s.rnd.num + 2 → exec (.publish key j.step p) s = .next s) ∧
      (j.isLead = false → Answers (.publish key j.step p) s fun t => (t.job key).pubRnd = some p ∧
        (t.job key).pubLate = decide (p ≤ s.rnd.num) ∧ t.flt.head = s.flt.head + (if p ≤ s.rnd.num then 1 else 0))) ∧
    (∀ p, j.active = true → j.pubRnd = some p → s.rnd.tick.isSome = true → p ≤ boundaryRnd s → (s.weaver j.desc.handle).version < 0xFFFFFFFF →
      j.learning = false → j.desc.replay = false → j.published + 1 < j.desc.steps → j.stopAfter = false →
      Answers (.publishApply key) s fun t => (t.weaver j.desc.handle).version = (s.weaver j.desc.handle).version + 1 ∧
        (t.weaver j.desc.handle).copy = 1 - (s.weaver j.desc.handle).copy ∧ (t.job key).published = j.published + 1 ∧
        (t.job key).step = j.step + 1 ∧ (t.job key).pubRnd = none ∧ (t.job key).lastVer = (s.weaver j.desc.handle).version + 1) ∧
    (∀ e : LedgerEntry, e.jobId = j.desc.jobId → e.nbucket = j.nbucket → e.npart = j.desc.npart → ctxActive s j.ctx = true → j.desc.replay = false →
      Answers (.stepLedger key e) s fun t => (t.job key).leadHeard = s.rnd.num ∧ t.out = s.out ∧
        t.mem = ((s.modJob key fun j => { j with leadHeard := s.rnd.num }).writeDva j.ctx
          (j.desc.ledger + e.step % j.desc.nledger * ledgerSize e.npart e.nbucket) (ledgerBytes e)).2.mem) ∧
    (∀ member f, j.active = true → j.firstRnd = some f → j.isLead = false → max j.leadHeard (f + j.desc.deadline) + 16 ≤ boundaryRnd s →
      Answers (.memberSilence key member) s fun t => (t.job key).active = false ∧ (t.weaver j.desc.handle).training = false) ∧
    (∀ h, h < 65536 → let l := look {} s.train.learn h
      hasTrain s = true → l.enabled = true → (s.weaver h).trainable = true → (s.weaver h).training = false → l.batch ≤ l.queue.length →
      s.flt.halted = false → ctxActive s l.ctx = true →
      let fresh := l.queue.filter fun r => decide ((s.weaver h).version ≤ r.wver + l.desc.maxLag)
      let n := { jobOf s l.ctx { l.desc with steps := 1, m := 1, npart := 1, member := 0, part := 0 } none with learning := true }
      (fresh.length < l.batch → Answers (.learningStepStart h) s fun t => (look {} t.train.learn h).queue = fresh ∧
        (look {} t.train.learn h).discarded = l.discarded + (l.queue.length - fresh.length) ∧ t.train.jobs = s.train.jobs ∧ t.mem = s.mem) ∧
      (l.batch ≤ fresh.length → bucketsOk n = true → newPages s n = [] → hasRoom s l.ctx 0 = true →
        Answers (.learningStepStart h) s fun t => (look {} t.train.learn h).queue = fresh.drop l.batch ∧
          (look {} t.train.learn h).forming = fresh.take l.batch ∧ (t.job l.desc.jobId).active = true ∧ (t.job l.desc.jobId).learning = true ∧
          (t.job l.desc.jobId).probing = List.range n.nrail))

/-- R389, R447 to R451: warm, Lid and cold resets, PERST#, the release with READY, and the fall back of a firmware image. -/
def Obligations.DeviceResets : Prop :=
  ∀ (s : State),
    let warm := fun (src losses : Nat) (t : State) => t.rst.cls = 2 ∧ t.rst.source = src ∧ t.rst.running = false ∧
      t.rst.wCount = sat 16 (s.rst.wCount + 1) ∧ t.host.losses = losses ∧ t.host.linkUp = false ∧ t.crs.running = [] ∧ t.crs.waiting = [] ∧
      t.cells = [] ∧ t.host.flows = [] ∧ t.rnd.enable = false ∧ t.rnd.active = 0 ∧ t.bud.share = resetShares ∧ t.lid.jtag = false ∧
      t.lid.linkIde = false ∧ t.lid.anchor = s.lid.anchor ∧ t.lid.plainOk = s.lid.plainOk ∧ (∀ n, (s.qp n).state = .active → (s.qp n).typ ≠ 6 →
        (t.qp n).state = .hostLost)
    ((s.rst.running = true ∨ s.rst.cls = 2) → s.pwr.state ≠ .d3cold →
      (s.rst.perstLow = false → Answers .perstAssert s fun t => warm 0x20 (sat 16 (s.host.losses + 1)) t ∧ t.rst.perstLow = true) ∧
      (Answers .pcieHotReset s fun t => warm 0x21 (sat 16 (s.host.losses + 1)) t ∧ t.rst.perstLow = s.rst.perstLow) ∧
      (Answers (.warmReset .viod) s fun t => warm 0x23 s.host.losses t) ∧
      (deviceResetDue s = true → Answers (.warmReset .deviceReset) s fun t => warm 0x22 s.host.losses t)) ∧
    (s.rst.perstLow = true → exec .perstDeassert s =
      .next { s with rst := { s.rst with perstLow := false }, host := { s.host with linkUp := s.rst.running } }) ∧
    (∀ c, s.pwr.state ≠ .d3cold → Answers (.lidReset c) s fun t => t.rst.cls = 1 ∧ t.rst.source = lidSource c ∧ t.rst.running = false ∧
      t.mem.hbm = [] ∧ t.mem.pte = [] ∧ t.ctxs = State.reset.ctxs ∧ t.host.qps = [] ∧ t.train.jobs = [] ∧ t.lid.ready = false ∧
      t.pwr.cap = tdp s ∧ (∀ n, n ≠ 0 → (t.tkey n).state = .empty)) ∧
    (∀ c ∈ [(Instr.pwrokCycle, 0x02), (.vaonPowerOn, 0x01)], Answers c.1 s fun t => t.rst.cls = 0 ∧ t.rst.source = c.2 ∧ t.rst.running = false ∧
      t.mem.hbm = [] ∧ t.flt = {} ∧ t.lid.anchor = s.lid.anchor ∧ t.fw.bank = s.fw.boot ∧ t.ups = rebuiltMap s (s.free + 2) ∧
      t.lid.mgmtAddr = 0x60 + bits s.straps 0 2 ∧ t.lid.mgmtI3c = bit s.straps 2 ∧ t.straps = s.straps ∧ t.ctxs = State.reset.ctxs) ∧
    (s.rst.running = false → s.pwr.state ≠ .d3cold → Answers .deviceReady s fun t => t.rst.running = true ∧ t.lid.ready = true ∧
      t.host.linkUp = !s.rst.perstLow ∧ t.mem = s.mem ∧ t.lid.measGen = (if s.rst.cls = 2 then s.lid.measGen else 1) ∧
      (∀ d, d < 4 → hasCd s d = true → .vrc (vrcFrame d (s.clk d).vset) ∈ t.out)) ∧
    (s.rst.running = false → s.fw.marked = true → s.fw.bank = s.fw.boot → Answers .fwFallback s fun t =>
      t.fw.bank = 1 - s.fw.bank ∧ t.fw.boot = 1 - s.fw.bank ∧ t.fw.marked = false ∧ t.flt.head = s.flt.head + 1)

/-- R452 to R454, R459, R462: a rail's domain reset, D3cold and the return of main power, and block resets. -/
def Obligations.RailsAndBlocks : Prop :=
  ∀ (s : State),
    (∀ rail, rail < 10 → (rail = 3 → hasCd s 3 = true) → s.pwr.state = .d3hot → rail ≠ 9 → Answers (.railUvReset rail) s fun t =>
      (look {} t.pwr.sup rail).resets = sat 8 ((look {} s.pwr.sup rail).resets + 1) ∧ rail ∈ t.pwr.crossed ∧ t.rst = s.rst ∧ t.mem = s.mem) ∧
    (∀ rail, rail < 4 → (rail = 3 → hasCd s 3 = true) → s.rst.running = true → s.pwr.state ≠ .d3hot → s.pwr.state ≠ .d3cold →
      Answers (.railUvReset rail) s fun t =>
      (look {} t.pwr.sup rail).resets = sat 8 ((look {} s.pwr.sup rail).resets + 1) ∧ s.flt.head + 1 ≤ t.flt.head ∧
      ∃ b ∈ t.rst.busy, b.sel = 1 ∧ b.unit = rail) ∧
    (∀ rail, 4 ≤ rail → rail < 8 → rail ≠ 5 → s.pwr.state ≠ .d3hot → s.pwr.state ≠ .d3cold → Answers (.railUvReset rail) s fun t =>
      t.rst.cls = 1 ∧ t.rst.source = 0x12 ∧ t.rst.running = false) ∧
    (s.pwr.state = .d3hot → Answers .d3coldEntry s fun t => t.pwr.state = .d3cold ∧ t.lid.tenant = [] ∧ t.lid.devKey = 0 ∧
      t.ctxs = State.reset.ctxs ∧ t.mem.hbm = [] ∧ t.host.qps = [] ∧ t.flt.head = s.flt.head ∧ t.flt.ring = s.flt.ring ∧ t.pwr.cap = s.pwr.cap ∧
      t.lid.anchor = s.lid.anchor ∧ t.rst.wCount = s.rst.wCount) ∧
    (∀ xs r, s.pwr.state = .d3hot → strongestRail (s.pwr.crossed ++ xs.filter fun r => decide (r < 9) && !s.pwr.crossed.contains r &&
        (r != 3 || hasCd s 3)) = some r → 4 ≤ r → r ≤ 7 → r ≠ 5 → Answers (.d3coldWindowExpiry xs) s fun t =>
        t.rst.cls = 1 ∧ t.rst.source = 0x12 ∧ t.pwr.state ≠ .d3hot) ∧
    (s.pwr.state = .d3cold → Answers .mainPowerReturn s fun t => t.pwr.state ≠ .d3cold ∧ t.rst.cls = 3 ∧ t.rst.source = 0x30 ∧
      t.rst.running = false ∧ t.flt.ring = s.flt.ring ∧ t.pwr.sup = s.pwr.sup ∧ t.rst.wCount = s.rst.wCount ∧ (t.tkey 0).state = .live) ∧
    (∀ b, s.rst.busy = [b] → b.reset = false →
      (Answers (.blkIdleWaitEnd false) s fun t => t.rst.busy = [{ b with reset := true, since := some s.rnd.num }] ∧ t.rst.timeouts = s.rst.timeouts ∧
        (b.sel = 7 → t.hoop.bypassed = true) ∧ (b.sel = 6 → b.unit < 4 → hasCxl s b.unit = true → look 0 t.cxl b.unit ≠ 0) ∧
        (b.sel = 1 → ∀ x ∈ t.cells, x.1 / 240 = b.unit → x.2.bank = [] ∧ x.2.table = [])) ∧
      (Answers (.blkIdleWaitEnd true) s fun t => t.rst.busy = [{ b with reset := true, since := some s.rnd.num }] ∧
        t.rst.timeouts = sat 16 (s.rst.timeouts + 1) ∧
        s.flt.head + 1 ≤ t.flt.head)) ∧
    (∀ b, s.rst.busy = [b] → b.reset = true →
      (b.since ≠ some s.rnd.num → Answers .blockRelease s fun t => t.rst.busy = [] ∧ t.rst.resets = sat 16 (s.rst.resets + 1)) ∧
      (b.since = some s.rnd.num → exec .blockRelease s = .next s))

/-- R456 to R467, R480: supply dips, the reference clock, the clock and voltage loop, thermal protection, and the power states. -/
def Obligations.PowerAndClocks : Prop :=
  ∀ (s : State) (d : Nat), d < 4 → hasCd s d = true →
    let c := s.clk d
    (∀ rail mv, rail < 10 → (rail = 3 → hasCd s 3 = true) → 100 * mv ≤ 94 * railSet s rail → s.pwr.state ≠ .d3cold → railBelow s rail = false →
      Answers (.railDip rail mv) s fun t => (look {} t.pwr.sup rail).warn = sat 16 ((look {} s.pwr.sup rail).warn + 1) ∧
        railBelow t rail = true ∧ (rail ≤ 5 → t.rnd.undervolt = true) ∧
        ((poweredDies s).contains rail = true → (t.clk rail).stretch = true ∧ (t.clk rail).freq = (s.clk rail).freq)) ∧
    (railBelow s d = true → c.stretch = true → (Answers (.dipRecovered d) s fun t => railBelow t d = false ∧ (t.clk d).stretch = false ∧
        (t.clk d).freq = c.beforeDip) ∧
      ∀ mv, 100 * mv ≤ 94 * railSet s d → Answers (.dipTimeout d mv) s fun t => railBelow t d = true ∧ (t.clk d).stretch = false ∧
        (t.clk d).freq = pointFor d mv ∧ (look {} t.pwr.sup d).meas = mv % 2048) ∧
    (s.rnd.lidTimed = false → s.host.linkUp = true → Answers .refclkLoss s fun t => t.rnd.lidTimed = true ∧ t.host.linkUp = false ∧
      s.flt.head + 1 ≤ t.flt.head ∧ ∀ p, p < 4 → hasCxl s p = true → look 0 t.cxl p ≠ 0) ∧
    (s.rnd.lidTimed = true → exec .refclkRestore s = .next { s with rnd := { s.rnd with refBack := true } }) ∧
    (∀ m : PowerSample, s.pwr.cap < m.watts → (poweredDies s).contains d = true → c.freq ≤ s.pwr.fmax → s.pwr.fmin + 25 ≤ c.freq →
      Answers (.clockLoopEval m) s fun t => (t.clk d).freq = c.freq - 25 ∧ (t.clk d).vset = setpointFor d (c.freq - 25) ∧ t.pwr.watts = m.watts ∧
        t.pwr.calm = 0 ∧ t.pwr.cap = s.pwr.cap) ∧
    (∀ f, c.raiseTo = some f → (Answers (.vrcAckRelease d) s fun t => (t.clk d).freq = f ∧ (t.clk d).raiseTo = none ∧ (t.clk d).vset = c.vset) ∧
      exec (.vrcAckTimeout d) s = .next (s.modClk d fun c => { c with raiseTo := none })) ∧
    (∀ tj, 103 ≤ tj → (poweredDies s).contains d = true → Answers (.thermalThrottle d tj) s fun t =>
      (if 1025 ≤ c.freq then (t.clk d).freq = c.freq - 25 else (t.clk d).stretch = true ∧ (t.clk d).freq = c.freq) ∧ t.pwr.calm = 0) ∧
    (∀ w, tdp s < w → (poweredDies s).contains d = true → Answers (.powerOverTdp w) s fun t =>
      (if 1025 ≤ c.freq then (t.clk d).freq = c.freq - 25 else (t.clk d).stretch = true) ∧ t.pwr.watts = w) ∧
    (∀ tj, 110 ≤ tj → (poweredDies s).contains d = true → s.pwr.thermTrip = false → Answers (.thermalTrip d tj) s fun t =>
      t.pwr.thermTrip = true ∧ t.flt.halted = true ∧ t.flt.code = St.thermalTrip ∧ t.bud.isOpen = false ∧ t.hoop.bypassed = true) ∧
    (s.crs.running = [] → (∀ x ∈ s.cells, x.2.f.running = false ∧ x.2.b.running = false) → s.pwr.since ≠ some s.rnd.num →
      (s.pwr.target = some .shelf → Answers .shelfEntry s fun t => t.pwr.state = .shelf ∧ t.pwr.target = none ∧
        ∀ x ∈ t.cells, x.2.course = none ∧ x.2.bank = [] ∧ x.2.table = []) ∧
      (s.pwr.target = some .d3hot → Answers .shelfEntry s fun t => t.pwr.state = .d3hot ∧ t.pwr.target = none)) ∧
    (∀ p, s.pwr.state = .shelf → s.pwr.target = some p → p ≠ .d3hot → s.pwr.exitUp = false → Answers .shelfExitReady s fun t =>
      t.pwr.exitUp = true ∧ t.pwr.state = .shelf ∧ .vrc (vrcFrame d c.vset) ∈ t.out ∧ t.cells = s.cells) ∧
    (inD3 s = false → s.rst.running = true → exec .pmcsrD3hot s = .next { s with pwr := { s.pwr with
      before := s.pwr.target.getD s.pwr.state, target := some .d3hot, exitUp := false, since := some s.rnd.num } }) ∧
    (s.pwr.target = some .d3hot → s.pwr.before = s.pwr.state → Answers .pmcsrD0 s fun t => t.pwr.target = none ∧ t.pwr.state = s.pwr.state) ∧
    (s.pwr.state = .d3hot → s.pwr.target = none → s.pwr.before ≠ .shelf → Answers .pmcsrD0 s fun t => t.pwr.state = .shelf ∧
      t.pwr.target = some s.pwr.before ∧ t.pwr.crossed = [])

/-- R403 to R405, R408 to R411, R413, R419: sessions, vendor-defined requests and their refusals, measurements, IDE and JTAG. -/
def Obligations.LidRequests : Prop :=
  ∀ (s : State) (n : Nat), n < 10 →
    let who := (s.sess n).who
    let refused := fun (o : Out) (t : State) => t.lid.refused = sat 16 (s.lid.refused + 1) ∧ t.out = o :: s.out ∧ t.lid.tenant = s.lid.tenant ∧
      t.lid.anchor = s.lid.anchor ∧ t.lid.jtag = s.lid.jtag ∧ t.ctxs = s.ctxs ∧ t.mem = s.mem
    (((s.sess n).isOpen = false ∨ (s.sess n).mutAuth = false) →
      (∀ c ∈ ([.keyRevoke n 1, .consentSet n 1 true true, .operatorSet n 1, .policySet n true, .debugUnlock n] : List Instr),
        Answers c s (refused (.spdmError (some n)))) ∧ ∀ r, Answers (.keyRelease n r) s (refused (.spdmError (some n)))) ∧
    ((s.sess n).isOpen = true → (s.sess n).mutAuth = true →
      (∀ r x, (releaseChecks s who r).find? Prod.fst = some x → Answers (.keyRelease n r) s
        (refused (.spdm n 0x01 x.2 (releaseSlot r).num ((releaseSlot r).gen s)))) ∧
      (∀ r, (releaseChecks s who r).find? Prod.fst = none → r.kind = 0 → Answers (.keyRelease n r) s fun t =>
        (t.tkey r.target).state = .live ∧ (t.tkey r.target).keyId = r.keyId ∧ (t.tkey r.target).key = r.key ∧
        (t.ctx r.target).state = .active ∧ (t.ctx r.target).auth = some ((s.ctx r.target).auth.getD who) ∧
        (t.ctx r.target).requireIde = r.requireIde ∧ t.lid.released = sat 16 (s.lid.released + 1) ∧
        t.out = .spdm n 0x01 St.ok r.target (genShown t (t.tkey r.target)) :: s.out) ∧
      (∀ c, 1 ≤ c → c ≤ 4095 → ctxActive s c = true → (isAuthority s c who = true ∨ isOperator s who = true) → Answers (.keyRevoke n c) s fun t =>
        (t.ctx c).state = .revoking ∧ (t.tkey c).state = .revoked ∧ (t.tkey c).gen = ((s.tkey c).gen + 1) % 65536 ∧
        (∀ q, (s.qp q).ctx = c → (t.qp q).state = .revoked ∨ (t.qp q).state = .free)) ∧
      (∀ c dbg prof, 1 ≤ c → c < 4096 → isAuthority s c who = true → Answers (.consentSet n c dbg prof) s fun t =>
        t.ctx c = { s.ctx c with dbg := dbg, prof := prof } ∧ (∀ k, k ≠ c → t.ctx k = s.ctx k)) ∧
      (∀ a, a ≠ 0 → (s.lid.anchor = none ∨ isOperator s who = true) → Answers (.operatorSet n a) s fun t => t.lid.anchor = some a ∧ t.mem = s.mem) ∧
      (isOperator s who = true → (Answers (.operatorSet n 0) s fun t => t.lid.anchor = none ∧ t.rst.cls = 1 ∧ t.rst.source = 0x11) ∧
        (∀ b, Answers (.policySet n b) s fun t => t.lid.plainOk = b ∧ t.lid.anchor = s.lid.anchor) ∧
        ((s.lid.tenant.all fun p => p.1 == 0 || p.2.state != .live || (s.ctx p.1).dbg) = true →
          Answers (.debugUnlock n) s fun t => t.lid.jtag = true))) ∧
    ((s.sess n).isOpen = true → s.lid.ready = true → ∀ i, 1 ≤ i → i ≤ 9 →
      exec (.getMeasurements n i) s = .next (s.emit (.measurements n i (measBytes s i) (signed s (measBytes s i)))) ∧
      exec (.getMeasurements n 0) s = .next (s.emit (.measurements n 0 [9] (signed s [9])))) ∧
    ((s.sess n).isOpen = true → (s.sess n).doe = true → Answers (.ideKm n 0) s fun t => t.lid.linkIde = true ∧ t.lid.jtag = s.lid.jtag) ∧
    (Answers .ideInsecure s fun t => t.lid.linkIde = false ∧ t.host = s.host) ∧
    (∀ b, exec (.jtagInstruction b) s = .next (s.emit (.jtag (b || s.lid.jtag)))) ∧
    (Answers (.spdmHeartbeatTimeout n) s fun t => t.sess n = {} ∧ ∀ k, k ≠ n → t.sess k = s.sess k) ∧
    (∀ doe auth k id, (if doe then k < 8 else 8 ≤ k ∧ k < 10) → (∀ i, i < k → (doe = true ∨ 8 ≤ i) → (s.sess i).isOpen = true) →
      (s.sess k).isOpen = false → Answers (.keyExchange doe auth id) s fun t =>
        t.sess k = { isOpen := true, doe := doe, who := id, mutAuth := auth } ∧ t.out = .keyExchange k (signed s [k, id]) :: s.out ∧
          ∀ i, i ≠ k → t.sess i = s.sess i)

/-- R164, R415, R416: the slot of a context that is removed drains or is aborted, is zeroised, and the context becomes FREE. -/
def Obligations.ContextRemoval : Prop :=
  ∀ (s : State) (c : Nat), c < 4096 →
    ((s.ctx c).state = .revoking → (s.tkey c).state = .revoked → inflightOf s c = 0 →
      Answers (.removalDrain c) s fun t => (t.tkey c).state = .zeroising ∧ (t.tkey c).gen = (s.tkey c).gen ∧ t.mem = s.mem) ∧
    ((s.ctx c).state = .revoking → (s.tkey c).state = .revoked → 0 < inflightOf s c → exec (.removalDrain c) s = .next s) ∧
    ((s.ctx c).state = .revoking → (s.tkey c).state = .revoked → (s.ctx c).since + 2 ≤ boundaryRnd s → 0 < inflightOf s c →
      Answers (.forcedAbort c) s fun t => (t.tkey c).state = .zeroising ∧ t.lid.forced = sat 16 (s.lid.forced + 1) ∧
        s.flt.head + 1 ≤ t.flt.head ∧ t.mem.hbm = s.mem.hbm ∧ t.mem.slow = s.mem.slow ∧ t.mem.pte = s.mem.pte) ∧
    ((s.ctx c).state = .revoking → (s.tkey c).state = .zeroising → Answers (.keyZeroiseDone c) s fun t =>
      t.tkey c = { gen := (s.tkey c).gen } ∧ (t.ctx c).state = .scrubbing ∧ (t.tkey c).state = .empty ∧ (t.tkey c).key = 0 ∧
      (∀ k, k ≠ c → t.tkey k = s.tkey k ∧ t.ctx k = s.ctx k)) ∧
    ((s.ctx c).state = .scrubbing → (s.ctx c).unmapped = true → chargedT1 s c = 0 → (∀ p ∈ s.weav.dir, p.2.ctx ≠ c) →
      Answers (.contextScrubDone c) s fun t => t.ctx c = {} ∧ (∀ k, k ≠ c → t.ctx k = s.ctx k) ∧ (∀ j ∈ t.train.jobs, j.2.ctx ≠ c) ∧
        (∀ k ∈ t.weav.sessions, k.1 / 2 ^ 32 ≠ c) ∧
        (∀ m, (s.ctx c).why = some (.remove m) → ∃ u : State, u.host = s.host ∧ u.ctx c = {} ∧ t = u.finalRecord m St.ok (s.ctx c).scrubbed))

/-- R376, R377, R425, R415, R457: a command that a check refuses is answered with that status and does nothing else. -/
def Obligations.MailboxRefusals : Prop :=
  ∀ (s : State) (ch : Nat) (x : Reply), ch < 64 → chanState (s.chan ch) = Ch.busy → (s.chan ch).discard = false →
    ∀ c ∈ ([(.devCaps ch, devCapsLayout, ownsAny), (.deviceReset ch, deviceResetLayout, ownsAny), (.portAddrSet ch, portAddrSetLayout, ownsAny),
        (.channelAssign ch, channelAssignLayout, ownsAny), (.fwStage ch, fwStageLayout, ownsAny), (.fwActivate ch, fwActivateLayout, ownsAny),
        (.fwQuery ch, fwQueryLayout, ownsAny), (.ctxCreate ch, ctxCreateLayout, ownsAny), (.ctxSet ch, ctxSetLayout, ownsCtx 0),
        (.ctxQuery ch, ctxQueryLayout, ownsCtx 0), (.ctxRemove ch, ctxRemoveLayout, ownsAny), (.ctxReset ch, ctxResetLayout, ownsCtx 0),
        (.qpBlockAlloc ch, qpBlockAllocLayout, ownsCtx 0), (.qpCreate ch, createLayout, ownsQp s), (.qpQuery ch, qpQueryLayout, ownsQp s),
        (.qpRearm ch, qpRearmLayout, ownsQp s), (.eventRingSet ch, eventRingSetLayout, ownsAny), (.mrRegister ch, mrRegisterLayout, ownsAny),
        (.weaverRegister ch, weaverRegisterLayout, ownsCtx 2), (.weaverPin ch, weaverPinLayout, ownsWeaver s),
        (.weaverRemove ch, weaverRemoveLayout, ownsWeaver s), (.sideClaim ch, sideClaimLayout, ownsWeaver s),
        (.stakeRegister ch, stakeRegisterLayout, ownsAny), (.stakeBuild ch, buildLayout s ch, ownsAny), (.stakeCommit ch, stakeCommitLayout, ownsAny),
        (.memMap ch, mapLayout, ownsCtx 0), (.memQuotaSet ch, memQuotaSetLayout, ownsAny), (.memEvict ch, memEvictLayout, ownsCtx 0),
        (.memPin ch, memPinLayout, ownsAny), (.keyQuery ch, keyQueryLayout, ownsCtx 0), (.debugRequest ch, debugRequestLayout, ownsCtx 0),
        (.journalRead ch, journalLayout, ownsAny), (.powerStateSet ch, powerStateSetLayout, ownsAny)] : List (Instr × Layout × (Req → Bool))),
      bytesAt (reqNat (s.chan ch)) 0 2 = c.2.1.op → turnOf s ch c.2.1.op = true →
      checkReq s c.2.1 true c.2.2 (s.chan ch) (reqOn s ch) (reqNat (s.chan ch)) = some x →
      Answers c.1 s fun t => Responded ch x s t ∧ x.status ≠ St.ok ∧ (∀ n, n ≠ ch → t.chan n = s.chan n) ∧
        t.mem = { s.mem with waits := t.mem.waits } ∧ t.ctxs = s.ctxs ∧
        t.host.qps = s.host.qps ∧ t.host.mrs = s.host.mrs ∧ t.weav = s.weav ∧ t.stakes = s.stakes ∧ t.lid = s.lid ∧ t.fw = s.fw ∧ t.pwr = s.pwr ∧
        t.rst = s.rst ∧ t.flt = s.flt ∧ t.crs = s.crs ∧ t.train = s.train

/-- R316, R368, R378, R380, R389, R484: the device command group. R381, R390, R391, R397, R415: the context command group. -/
def Obligations.DeviceAndContextCommands : Prop :=
  (∀ (s : State) (ch : Nat), let q := reqOn s ch
    (Admitted devCapsLayout true ownsAny ch s → Answers (.devCaps ch) s fun t => Responded ch (devCaps q s).1 s t ∧ t.mem = s.mem ∧ t.rst = s.rst) ∧
    (Admitted deviceResetLayout true ownsAny ch s → Answers (.deviceReset ch) s fun t => Responded ch {} s t ∧
      t.rst = { s.rst with devReset := some (s.rst.devReset.getD (s.rnd.num + 2)) } ∧ t.mem = s.mem) ∧
    (Admitted portAddrSetLayout true ownsAny ch s → hasPort s (q.at 0 1) = true → Answers (.portAddrSet ch) s fun t => Responded ch {} s t ∧
      t.port (q.at 0 1) = { s.port (q.at 0 1) with ipv6 := q.at 2 16, ipv4 := q.at 18 4, v4valid := q.bit 1 0, nextHop := q.at 22 6 } ∧
      ∀ p, p ≠ q.at 0 1 → t.port p = s.port p) ∧
    (Admitted channelAssignLayout true ownsAny ch s → 1 ≤ q.at 0 1 → q.at 0 1 ≤ 63 →
      (q.bit 4 0 = false → (s.chan (q.at 0 1)).assigned = false → ctxUsable s (q.at 2 2) = true → Answers (.channelAssign ch) s fun t =>
        Responded ch {} s t ∧ (t.chan (q.at 0 1)).assigned = true ∧ (t.chan (q.at 0 1)).ctx = q.at 2 2 ∧
        (t.chan (q.at 0 1)).func = (s.ctx (q.at 2 2)).func ∧ chanState (t.chan (q.at 0 1)) = Ch.idle) ∧
      (q.bit 4 0 = true → chanState (s.chan (q.at 0 1)) = Ch.idle → Answers (.channelAssign ch) s fun t =>
        Responded ch {} s t ∧ chanState (t.chan (q.at 0 1)) = Ch.unassigned)) ∧
    (Admitted fwStageLayout true ownsAny ch s → q.at 12 4 ≤ 4194304 → ∀ bs, (s.readOwn q.ctx (q.at 0 8) (q.at 12 4)).1 = .ok bs →
      Answers (.fwStage ch) s fun t => ∃ n, Responded ch (answerOf 4 n) s t ∧ n = stagedBytes t.fw.covered ∧
        t.fw.image = wrBytes s.fw.image (q.at 8 4) bs ∧ t.fw.boot = s.fw.bank ∧ t.fw.bank = s.fw.bank ∧ t.fw.marked = false ∧ t.fw.stagedVer = 0) ∧
    (Admitted fwActivateLayout true ownsAny ch s → (s.fw.covered.any fun x => x.1 == 0 && decide (q.at 0 4 ≤ x.2)) = true →
      (crc32c ((rdBytes s.fw.image 0 (q.at 0 4)).map BitVec.toNat) == q.at 4 4 && Config.fwSignatureOk (q.at 4 4) (q.at 0 4)) = true →
      Config.minSvn ≤ Config.fwSvn (q.at 4 4) → Answers (.fwActivate ch) s fun t => Responded ch (answerOf 4 (Config.fwVersion (q.at 4 4))) s t ∧
        t.fw.boot = 1 - s.fw.bank ∧ t.fw.marked = true ∧ t.fw.bank = s.fw.bank ∧ t.fw.stagedVer = Config.fwVersion (q.at 4 4)) ∧
    (Admitted fwActivateLayout true ownsAny ch s → (s.fw.covered.any fun x => x.1 == 0 && decide (q.at 0 4 ≤ x.2)) = false →
      Answers (.fwActivate ch) s fun t => Responded ch (fail St.fwStageIncomplete) s t ∧ t.fw = s.fw) ∧
    (Admitted fwQueryLayout true ownsAny ch s → Answers (.fwQuery ch) s fun t => Responded ch (fwQuery q s).1 s t ∧ t.fw = s.fw))
  ∧
  (∀ (s : State) (ch : Nat), let q := reqOn s ch
    let c := q.at 0 2
    (Admitted ctxCreateLayout true ownsAny ch s → 1 ≤ c → c ≤ 4095 →
      ((s.ctx c).state = .free → q.at 2 2 ≤ s.host.numVf → 1 ≤ q.at 12 1 → q.at 12 1 ≤ 31 → Answers (.ctxCreate ch) s fun t => Responded ch {} s t ∧
        t.ctx c = { state := .created, func := q.at 2 2, seed := q.at 4 8, fsplit := q.at 12 1,
                    parkMax := if q.at 13 1 = 0 then 64 else q.at 13 1 } ∧ t.acct c = {} ∧ (∀ k, k ≠ c → t.ctx k = s.ctx k)) ∧
      ((s.ctx c).state ≠ .free → Answers (.ctxCreate ch) s fun t => Responded ch (fail St.ctxBusy) s t ∧ t.ctxs = s.ctxs)) ∧
    (Admitted ctxSetLayout true (ownsCtx 0) ch s → ctxUsable s c = true → (q.bit 4 0 = true → 1 ≤ q.at 2 1 ∧ q.at 2 1 ≤ 31) →
      Answers (.ctxSet ch) s fun t => Responded ch {} s t ∧ (t.ctx c).fsplit = (if q.bit 4 0 then q.at 2 1 else (s.ctx c).fsplit) ∧
        (t.ctx c).parkMax = (if q.bit 4 1 then parkOf (q.at 3 1) else (s.ctx c).parkMax) ∧ (t.ctx c).state = (s.ctx c).state ∧
        (∀ k, k ≠ c → t.ctx k = s.ctx k)) ∧
    (Admitted ctxQueryLayout true (ownsCtx 0) ch s → c ≤ 4095 → Answers (.ctxQuery ch) s fun t =>
      Responded ch (answerOf 32 (pack [(0, 8, cStateCode (s.ctx c).state), (8, 8, fsplitOf s c), (16, 8, (s.ctx c).parkMax), (24, 16, (s.ctx c).func),
        (64, 64, (s.ctx c).seed), (128, 64, chargedT1 s c), (192, 64, chargedT2 s c)])) s t ∧ t.ctxs = s.ctxs ∧ t.mem = s.mem) ∧
    (Admitted ctxRemoveLayout true ownsAny ch s → c ≠ 0 → ctxUsable s c = true → Answers (.ctxRemove ch) s fun t =>
      Responded ch (fail St.pending) s t ∧ (t.ctx c).state = .revoking ∧ (t.tkey c).state = .revoked ∧ (t.tkey c).gen = ((s.tkey c).gen + 1) % 65536 ∧
      (t.ctx c).why = some (.remove q.note) ∧ t.lid.revoked = sat 16 (s.lid.revoked + 1)) ∧
    (Admitted ctxResetLayout true (ownsCtx 0) ch s → c ≠ 0 → c ≤ 4095 → (s.ctx c).state = .active → Answers (.ctxReset ch) s fun t =>
      Responded ch (fail St.pending) s t ∧ (t.ctx c).state = .resetting ∧ (t.ctx c).reset = some q.note ∧ t.tkey c = bumpGen (s.tkey c)))

/-- R342 to R345, R347, R355, R360, R364, R365, R382: the queue command group. -/
def Obligations.QueueCommands : Prop :=
  ∀ (s : State) (ch : Nat), let q := reqOn s ch
    let n := q.at 0 4
    let x := s.qp n
    (Admitted qpBlockAllocLayout true (ownsCtx 0) ch s → notActive s (q.at 0 2) = none → 1 ≤ q.at 2 2 →
      (∃ b, b + q.at 2 2 ≤ 4096 ∧ ∀ i, i < q.at 2 2 → blockOwner s (b + i) = none) → Answers (.qpBlockAlloc ch) s fun t =>
        ∃ b, b + q.at 2 2 ≤ 4096 ∧ Responded ch (answerOf 2 b) s t ∧
          (∀ i, i < q.at 2 2 → blockOwner s (b + i) = none ∧ blockOwner t (b + i) = some (q.at 0 2)) ∧
          ∀ j, (j < b ∨ b + q.at 2 2 ≤ j) → blockOwner t j = blockOwner s j) ∧
    (Admitted qpBlockFreeLayout true (blocksOwned s) ch s → 1 ≤ q.at 2 2 → q.at 0 2 + q.at 2 2 ≤ 4096 →
      (∀ i, i < q.at 2 2 → (blockOwner s (q.at 0 2 + i)).isSome = true) →
      (∀ p ∈ s.host.qps, q.at 0 2 ≤ p.1 / 64 → p.1 / 64 < q.at 0 2 + q.at 2 2 → p.2.state = .free) → Answers (.qpBlockFree ch) s fun t =>
        Responded ch {} s t ∧ (∀ i, i < q.at 2 2 → blockOwner t (q.at 0 2 + i) = none) ∧
        ∀ j, (j < q.at 0 2 ∨ q.at 0 2 + q.at 2 2 ≤ j) → blockOwner t j = blockOwner s j) ∧
    (Admitted createLayout true (ownsQp s) ch s → (∀ y ∈ createBad q s, y.1 = false) → behind s (.cmd ch) = false → ∀ f, pickFrame s 15 0 = some f →
      Answers (.qpCreate ch) s fun t => Responded ch {} s t ∧ (t.qp n).state = .active ∧ (t.qp n).ctx = q.ctx ∧ (t.qp n).typ = q.at 4 1 ∧
        (t.qp n).cls = q.at 5 1 ∧ (t.qp n).logSq = q.at 6 1 ∧ (t.qp n).logCq = q.at 7 1 ∧ (t.qp n).sqBase = q.at 16 8 ∧
        (t.qp n).cqBase = q.at 24 8 ∧ (t.qp n).fetched = 0 ∧ (t.qp n).sqTail = 0 ∧ (t.qp n).cqTail = 0 ∧ (t.qp n).shadowFrames = [f] ∧
        ∀ k, k ≠ n → t.qp k = s.qp k) ∧
    (n < 262144 → x.state ≠ .free →
      (Admitted qpDestroyLayout true (ownsQp s) ch s → x.typ ≠ 6 → x.destroy = none → x.descs ≠ [] → x.redeliver = none →
        Answers (.qpDestroy ch) s fun t => Responded ch (fail St.pending) s t ∧ (t.qp n).destroy = some q.note ∧ (t.qp n).descs = x.descs) ∧
      (Admitted qpQueryLayout true (ownsQp s) ch s → Answers (.qpQuery ch) s fun t =>
        Responded ch (answerOf 16 (pack [(0, 8, qStateCode x.state), (8, 8, x.typ), (16, 8, if x.typ ≤ 3 then engineOf n x.typ else 0),
          (32, 32, x.fetched), (64, 32, x.sqTail), (96, 32, x.cqTail)])) s t ∧ t.host.qps = s.host.qps) ∧
      (Admitted qpRearmLayout true (ownsQp s) ch s → (x.state = .error ∨ x.state = .hostLost) → q.bit 4 0 = false →
        Answers (.qpRearm ch) s fun t => Responded ch {} s t ∧ t.qp n = { x with state := .active } ∧ ∀ k, k ≠ n → t.qp k = s.qp k) ∧
      (Admitted qpUndeliveredLayout true (ownsQp s) ch s → Answers (.qpUndelivered ch) s fun t =>
        Responded ch (answerOf 12 (pack [(0, 32, firstUnd x), (32, 32, idxSub x.cqTail (firstUnd x)), (64, 32, x.fetched)])) s t ∧
        t.host.qps = s.host.qps) ∧
      (Admitted qpRedeliverLayout true (ownsQp s) ch s → x.state = .active → (∀ p ∈ s.host.qps, p.2.redeliver = none) → x.redeliver = none →
        idxSub x.cqTail (q.at 4 4) ≤ 2 ^ x.logCq → idxSub x.cqTail (q.at 4 4) ≤ idxSub x.cqTail (firstUnd x) → hostOk s (qpFn s n) = true →
        let left := moveLeft (s.pushMove { what := .redeliver n, cls := x.cls, bytes := repeatBytes s n (q.at 4 4) }) (.redeliver n)
        Answers (.qpRedeliver ch) s fun t => Responded ch (fail St.pending) s t ∧
          (left ≠ 0 → (t.qp n).redeliver = some (q.note, q.at 4 4) ∧ t.out = s.out) ∧
          (left = 0 → (t.qp n).redeliver = none ∧ ∀ i, i < idxSub x.cqTail (q.at 4 4) → ∃ r, .record n (idxAdd (q.at 4 4) i) r ∈ t.out))) ∧
    (Admitted eventRingSetLayout true ownsAny ch s → q.at 0 1 < 16 → logOk (q.at 1 1) = true →
      q.at 2 2 < (if (s.ctx q.ctx).func = 0 then 256 else 14) → q.at 4 2 ≤ 1023 → q.at 8 8 % 4096 = 0 →
      Answers (.eventRingSet ch) s fun t => Responded ch {} s t ∧ let r := t.ring (s.ctx q.ctx).func (q.at 0 1)
        r.set = true ∧ r.base = q.at 8 8 ∧ r.log = q.at 1 1 ∧ r.vector = q.at 2 2 ∧ r.modUs = q.at 4 2 ∧ r.head = 0) ∧
    (Admitted apertureBindLayout true (ownsCtx 2) ch s → notActive s (q.at 2 2) = none →
      (if q.ctx = 0 then q.at 2 2 = 0 ∨ ∃ g ∈ s.lid.grants, g.ctx = q.at 2 2 ∧ g.dbg = true else (s.ctx (q.at 2 2)).hostWindow = true) →
        q.at 0 1 < 64 → q.at 1 1 < 8 → q.at 8 8 % frameBytes = 0 →
      q.at 8 8 + q.at 16 8 ≤ 2 ^ 46 → q.at 16 8 ≠ 0 → q.at 16 8 ≤ aperSize s → (aper s (q.at 0 1)).bound = false →
        Answers (.apertureBind ch) s fun t =>
        Responded ch {} s t ∧ aper t (q.at 0 1) =
          { bound := true, ctx := q.at 2 2, dva := q.at 8 8, len := q.at 16 8, ro := q.bit 4 0, cls := q.at 1 1,
            rid := if q.bit 4 1 then some (q.at 6 2) else none } ∧ ∀ k, k ≠ q.at 0 1 → aper t k = aper s k) ∧
    (Admitted apertureUnbindLayout true (ownsAper s) ch s → (aper s (q.at 0 1)).bound = true → Answers (.apertureUnbind ch) s fun t =>
      Responded ch (fail St.pending) s t ∧ (aper t (q.at 0 1)).bound = false) ∧
    (Admitted mrRegisterLayout true ownsAny ch s → notActive s q.ctx = none → q.at 0 8 % 4096 = 0 → q.at 0 8 + q.at 8 4 ≤ 2 ^ 46 → q.at 8 4 ≠ 0 →
      q.at 8 4 % 4096 = 0 → q.at 8 4 ≤ 2 ^ 31 → (∃ i, i < 65536 ∧ (look {} s.host.mrs i).set = false) → Answers (.mrRegister ch) s fun t =>
        ∃ i, i < 65536 ∧ (look {} s.host.mrs i).set = false ∧ Responded ch (answerOf 4 (i * 256 + ((look {} s.host.mrs i).tag + 1) % 256)) s t ∧
          look {} t.host.mrs i = { set := true, tag := ((look {} s.host.mrs i).tag + 1) % 256, ctx := q.ctx, dva := q.at 0 8, len := q.at 8 4,
                                   rights := bits (q.at 12 1) 0 3 }) ∧
    (Admitted mrDeregisterLayout true (ownsMr s) ch s → let m := look {} s.host.mrs (n / 256)
      m.set = true → m.tag = n % 256 → m.dereg = none → (∀ p ∈ s.host.qps, p.2.redeliver = none) →
      (∀ a ∈ s.host.apers, a.2.unbind = none) → (∀ x ∈ s.host.mrs, x.2.dereg = none) → Answers (.mrDeregister ch) s fun t =>
        Responded ch (fail St.pending) s t ∧
        look {} t.host.mrs (n / 256) = if regionBusy s (n / 256) = true then { m with dereg := some q.note } else { tag := m.tag }) ∧
    (Admitted ahSetLayout true ownsAny ch s → hasPort s (q.at 2 1) = true → q.at 3 1 < 4 → Answers (.ahSet ch) s fun t => Responded ch {} s t ∧
      look {} t.host.ahs (65536 * q.ctx + q.at 0 2) = { set := true, port := q.at 2 1, sub := q.at 3 1, ip := q.at 4 16, mac := q.at 20 6 })

/-- R133, R141, R142, R150 to R153, R383: the weaver command group. -/
def Obligations.WeaverCommands : Prop :=
  ∀ (s : State) (ch : Nat), let q := reqOn s ch
    let h := q.at 0 2
    let w := s.weaver h
    (Admitted weaverRegisterLayout true (ownsCtx 2) ch s → let p := pkgAt s (s.tkey (q.at 2 2)).key (q.at 8 8)
      (q.bit 6 0 = true → q.ctx = 0) → (q.bit 6 1 = true → hasTrain s = true) → notActive s (q.at 2 2) = none → q.at 4 2 = q.at 2 2 →
      w.state = .free → sdaBad s (q.at 8 8) 4096 (q.bit 6 1) = none → slowUp s (q.at 8 8) = true → pkgBad s p = none →
      sdaBad s (q.at 8 8) (4096 * p.pages) (q.bit 6 1) = none →
      Answers (.weaverRegister ch) s fun t => Responded ch {} s t ∧ (t.weaver h).ctx = q.at 2 2 ∧ (t.weaver h).commons = q.bit 6 0 ∧
        (t.weaver h).sid = p.at 12 1 ∧ (t.weaver h).version = p.wver ∧ (t.weaver h).slow = p.base ∧ (t.weaver h).keySlot = q.at 4 2 ∧
        (t.weaver h).trainable = q.bit 6 1 ∧
        ((∀ g ∈ (s.stake (p.at 12 1)).gens, g.2.state ≠ .ready) → (t.weaver h).state = .registered ∧ (t.weaver h).frames = []) ∧ ∀ k, k ≠ h →
          t.weaver k = s.weaver k) ∧
    (Admitted weaverRegisterLayout true (ownsCtx 2) ch s → (q.bit 6 0 = true → q.ctx = 0) → notActive s (q.at 2 2) = none →
      q.at 4 2 = q.at 2 2 → (q.bit 6 1 = true → hasTrain s = true) →
      w.state ≠ .free → Answers (.weaverRegister ch) s fun t => Responded ch (fail St.handleInUse) s t ∧ t.weav = s.weav) ∧
    (w.state ≠ .free → w.state ≠ .removing →
      (Admitted weaverPrefetchLayout true (ownsWeaver s) ch s → Answers (.weaverPrefetch ch) s fun t => Responded ch {} s t ∧
        t.weav = (s.demand h).weav ∧ t.mem = (s.demand h).mem) ∧
      (Admitted weaverRemoveLayout true (ownsWeaver s) ch s →
        (bit q.flags 0 = false → (sessionsOf s h ≠ 0 ∨ hasSharers s h = true) → Answers (.weaverRemove ch) s fun t =>
          Responded ch (fail St.weaverInUse) s t ∧ t.weav = s.weav) ∧
        ((bit q.flags 0 = true ∨ sessionsOf s h = 0 ∧ hasSharers s h = false) → (w.adminPin = true ∨ w.frames ≠ []) →
          Answers (.weaverRemove ch) s fun t =>
          Responded ch (fail St.pending) s t ∧ (t.weaver h).state = .removing ∧ (t.weaver h).removers = w.removers ++ [q.note])) ∧
      (Admitted sideClaimLayout true (ownsWeaver s) ch s → (q.at 5 1 < 16 ∨ q.at 5 1 = 0xFF) → (moeLayers s w).contains (q.at 2 2) = true →
        q.at 4 1 < w.xcount → ∀ k, let i := sideKey (q.at 2 2) k
        (claimSlot s q = .ok (k, false) → Answers (.sideClaim ch) s fun t => Responded ch (answerOf 1 k) s t ∧ slotFree s (s.side i) = true ∧
          t.side i = { owned := true, owner := h, j := q.at 4 1, share := q.bit 6 0, boundRnd := s.rnd.num + 1 } ∧ ∀ j, j ≠ i → t.side j = s.side j) ∧
        (claimSlot s q = .ok (k, true) → Answers (.sideClaim ch) s fun t => Responded ch (answerOf 1 k) s t ∧ (s.side i).share = true ∧
          t.side i = { s.side i with joining := (s.side i).joining ++ [(h, q.at 4 1)] } ∧ ∀ j, j ≠ i → t.side j = s.side j) ∧
        (claimSlot s q = .error k → Answers (.sideClaim ch) s fun t => Responded ch (fail k) s t ∧ t.weav = s.weav)) ∧
      (Admitted sideReleaseLayout true (ownsWeaver s) ch s → ∀ k, k < 16 → let key := sideKey (q.at 2 2) k
        (∀ i, i < k → ¬ ((s.side (sideKey (q.at 2 2) i)).owned = true ∧ (s.side (sideKey (q.at 2 2) i)).owner = h ∧
          (s.side (sideKey (q.at 2 2) i)).j = q.at 4 1)) → (s.side key).owned = true → (s.side key).releasing = none → (s.side key).owner = h →
        (s.side key).j = q.at 4 1 → (s.side key).sharers = [] → (s.side key).joining = [] → Answers (.sideRelease ch) s fun t => Responded ch {} s t ∧
          t.side key = { s.side key with releasing := some s.rnd.num } ∧ ∀ i, i ≠ key → t.side i = s.side i)) ∧
    (w.state ≠ .free → Admitted weaverPinLayout true (ownsWeaver s) ch s → Answers (.weaverPin ch) s fun t => Responded ch {} s t ∧
      t.weaver h = { w with adminPin := q.bit 2 0 } ∧ ∀ k, k ≠ h → t.weaver k = s.weaver k) ∧
    (Admitted weaverQueryLayout true (ownsWeaver s) ch s → Answers (.weaverQuery ch) s fun t => Responded ch (answerOf 128 (weaverEntry s h)) s t ∧
      t.weav = s.weav) ∧
    (Admitted sideQueryLayout true ownsAny ch s → Answers (.sideQuery ch) s fun t =>
      Responded ch (answerOf 128 (concat 8 ((List.range 16).map fun k => sideEntry s (s.side (sideKey (q.at 0 2) k))))) s t ∧ t.weav = s.weav)

/-- R166, R176 to R178, R181, R191, R195, R384: the stake-set command group. -/
def Obligations.StakeCommands : Prop :=
  ∀ (s : State) (ch : Nat), let q := reqOn s ch
    let id := q.at 0 1
    let k := s.stake id
    (Admitted stakeRegisterLayout true ownsAny ch s → q.at 1 1 ≤ 15 → k.reg = false → (countTab s.stakes fun _ k => k.reg) < 16 →
      Answers (.stakeRegister ch) s fun t => Responded ch {} s t ∧ t.stake id = { reg := true, keySlot := q.at 1 1, autoEvict := q.bit 2 0 } ∧
        ∀ i, i ≠ id → t.stake i = s.stake i) ∧
    (k.reg = true →
      (Admitted (buildLayout s ch) true ownsAny ch s → q.at 3 1 ≤ 1 → (q.at 3 1 = 1 → q.at 4 1 ≤ probeN s (imageAt s id (q.at 16 8))) →
        q.at 5 1 ≤ 8 → q.pay / 256 ^ (40 + 16 * q.at 5 1) = 0 →
        (∀ g ∈ k.gens, g.2.state ≠ .building ∧ g.2.state ≠ .ready) → ∀ slot, freeSlot k = some slot → sdaBad s (q.at 16 8) 4096 false = none →
        (q.at 24 8 = 0 ∨ sdaBad s (q.at 24 8) 4096 false = none) → (q.at 32 8 = 0 ∨ sdaBad s (q.at 32 8) 4096 false = none) →
          (s.skey k.keySlot).state = .live → imageOk s id (q.at 1 2) (imageAt s id (q.at 16 8)) = true →
        shortfall (s.pressCommons (buildFrames s id slot (imageAt s id (q.at 16 8)).imgPages)) commonsAcct
          (buildFrames s id slot (imageAt s id (q.at 16 8)).imgPages) = 0 →
        Answers (.stakeBuild ch) s fun t => Responded ch (fail St.pending) s t ∧ ((t.stake id).gen slot).state = .building ∧
          ((t.stake id).gen slot).gen = q.at 1 2 ∧ ((t.stake id).gen slot).image = q.at 16 8 ∧
          ∃ b, (t.stake id).build = some b ∧ b.slot = slot ∧ b.note = q.note) ∧
      (Admitted stakeCommitLayout true ownsAny ch s → k.commit = none → s.rnd.num + 4 ≤ q.at 8 8 → ∀ g, genOf s id (q.at 1 2) = some g →
        g.state = .ready → (g.qSel = true → (s.weaver g.commonsQ).commons = true ∧ (s.weaver g.commonsQ).state = .resident ∧
          (s.weaver g.commonsQ).genBound = g.gen) → Answers (.stakeCommit ch) s fun t => Responded ch (fail St.pending) s t ∧
          (t.stake id).commit = some { gen := q.at 1 2, c := q.at 8 8, openRounds := q.at 3 2, ready := [], go := false, late := false, note := q.note } ∧
          (t.stake id).gens = k.gens) ∧
      (Admitted stakeCommitLayout true ownsAny ch s → genOf s id (q.at 1 2) = none → Answers (.stakeCommit ch) s fun t =>
        Responded ch (fail St.genInvalid) s t ∧ t.stakes = s.stakes) ∧
      (Admitted stakeAbortLayout true ownsAny ch s → k.build = none → ∀ slot, slotOf s id (q.at 1 2) = some slot → (k.gen slot).state = .ready →
        Answers (.stakeAbort ch) s fun t => Responded ch {} s t ∧ ((t.stake id).gen slot).failed = true ∧ ((t.stake id).gen slot).state = .ready) ∧
      (Admitted stakeQueryLayout true ownsAny ch s → Answers (.stakeQuery ch) s fun t => Responded ch (answerOf 144
        (pack [(0, 32, k.use), (64, 64, k.lastRnd)] + 2 ^ 128 * concat 32 ((List.range 4).map (genRecord s id)))) s t ∧ t.stakes = s.stakes) ∧
      (Admitted stakeEvictLayout true ownsAny ch s → (k.autoEvict = false ∨ stakeIdle s id = false) → Answers (.stakeEvict ch) s fun t =>
        Responded ch (fail St.stakeInUse) s t ∧ t.stakes = s.stakes) ∧
      (Admitted stakeEvictLayout true ownsAny ch s → k.autoEvict = true → stakeIdle s id = true → Answers (.stakeEvict ch) s fun t =>
        Responded ch (fail St.pending) s t ∧ t.stake id = { k with evictNotes := k.evictNotes ++ [q.note] } ∧ t.mem = s.mem ∧
        ∀ i, i ≠ id → t.stake i = s.stake i) ∧
      (Admitted stakeCarryQueryLayout true ownsAny ch s → q.at 4 2 ≤ 338 → Answers (.stakeCarryQuery ch) s fun t =>
        Responded ch (carryQuery q s).1 s t ∧ t.stakes = s.stakes ∧ t.weav = s.weav))

/-- R205 to R209, R216, R219, R221, R222, R225, R226, R232, R385, R414: the memory command group. -/
def Obligations.MemoryCommands : Prop :=
  ∀ (s : State) (ch : Nat), let q := reqOn s ch
    let keys := rangeKeys (q.at 0 2) (q.at 8 8) (q.at 4 4)
    let inRange := 1 ≤ q.at 4 4 ∧ q.at 8 8 % frameBytes = 0 ∧ q.at 8 8 + q.at 4 4 * frameBytes ≤ 2 ^ 46
    (Admitted memRegionRegisterLayout true ownsAny ch s → 1 ≤ q.at 0 1 → q.at 0 1 ≤ 64 → q.at 16 8 ≠ 0 → q.at 16 8 % frameBytes = 0 →
      q.at 16 8 ≤ 2 ^ 48 → (region s (q.at 0 1)).reg = false → Answers (.memRegionRegister ch) s fun t => Responded ch {} s t ∧
        region t (q.at 0 1) = { reg := true, base := q.at 8 8, len := q.at 16 8, ro := q.bit 1 0 } ∧
        (∀ k, k ≠ q.at 0 1 → region t k = region s k) ∧ t.mem.hbm = s.mem.hbm) ∧
    (Admitted memRegionRemoveLayout true ownsAny ch s → 1 ≤ q.at 0 1 → q.at 0 1 ≤ 64 → (region s (q.at 0 1)).reg = true →
      (spaceUsed s (q.at 0 1) = false → sourceIn s (q.at 0 1) = false → Answers (.memRegionRemove ch) s fun t => Responded ch {} s t ∧
        (region t (q.at 0 1)).reg = false ∧ ∀ k, k ≠ q.at 0 1 → region t k = region s k) ∧
      (spaceUsed s (q.at 0 1) = true → Answers (.memRegionRemove ch) s fun t => Responded ch (fail St.mapConflict) s t ∧ t.mem = s.mem)) ∧
    (Admitted memSlowConfigLayout (s.variant != .c) ownsAny ch s → (q.at 0 1 = 1 ∨ q.at 0 1 = 2 ∨ q.at 0 1 = 4) →
      let map := (List.range (q.at 0 1)).map fun i => bits (q.at 1 1) (2 * i) 2
      map.eraseDups.length = q.at 0 1 → spaceUsed s 0 = false → ((∀ p ∈ map, p ∉ s.lid.cxlIde) ∨ s.lid.plainOk = true) →
      Answers (.memSlowConfig ch) s fun t => Responded ch {} s t ∧ ∃ p, t.mem.pool = some p ∧ p.ways = q.at 0 1 ∧ p.map = map ∧
        p.base = (List.range (q.at 0 1)).map fun i => q.at (8 + 8 * i) 8) ∧
    (Admitted mapLayout true (ownsCtx 0) ch s → let m := mapReq q
      (∀ x ∈ mapBad q m s, x.1 = false) →
      (memMap q s = none ∨ mapTakes q s = true ∧ behind s (.cmd ch) = true → exec (.memMap ch) s = .next (s.waitFrame (.cmd ch))) ∧
      (newRoots s m.ctx m.dva m.pages = [] → m.share = 0 → m.tier = 1 → Answers (.memMap ch) s fun t => Responded ch {} s t ∧
        (∀ i, i < m.pages → t.pteAt (pteKey m.ctx (m.dva / frameBytes + i)) =
          { valid := true, ro := m.ro, shared := m.shared, movable := m.movable, kind := m.kind, stack := m.stack,
            sda := m.sda + i * frameBytes, held := true, tier := .t2 }) ∧
        t.mem.hbm = s.mem.hbm ∧ t.mem.slow = s.mem.slow) ∧
      (∀ f, newRoots s m.ctx m.dva m.pages = [] → m.share = 0 → m.tier = 0 → m.pages = 1 → behind s (.cmd ch) = false →
        pickFrame s m.stack (m.dva / frameBytes) = some f →
        Answers (.memMap ch) s fun t => Responded ch {} s t ∧ (t.frame f).kind = m.kind ∧ (t.frame f).mapped = true ∧
          (t.frame f).state = (if m.src = 0 then .resident else .filling) ∧
          (t.pteAt (pteKey m.ctx (m.dva / frameBytes))).valid = true ∧ (t.pteAt (pteKey m.ctx (m.dva / frameBytes))).tier = .t1 ∧
          (t.pteAt (pteKey m.ctx (m.dva / frameBytes))).frame = f ∧ t.mem.hbm = s.mem.hbm)) ∧
    (Admitted memUnmapLayout true (ownsCtx 0) ch s → inRange → (∀ k ∈ keys, (s.pteAt k).valid = true) →
      (∀ k ∈ keys, (s.pteAt k).shared = false ∨ (s.pteAt k).sharedOf ≠ none ∨ ∀ p ∈ s.mem.pte, p.2.sharedOf ≠ some k) →
        Answers (.memUnmap ch) s fun t => Responded ch (fail St.pending) s t ∧
        (∀ k ∈ keys, t.pteAt k = {} ∨ (t.pteAt k).unmapDue = true ∧ (t.pteAt k).epins = []) ∧ (∀ k, k ∉ keys → t.pteAt k = s.pteAt k) ∧
        t.mem.hbm = s.mem.hbm) ∧
    (Admitted memQuotaSetLayout true ownsAny ch s → let a := acctOf (q.at 0 2)
      (a = commonsAcct ∨ (s.ctx a).state ≠ .free) → quotaSum s a (q.at 4 4) willQ1 ≤ msdCount s * 24544 → quotaSum s a (q.at 8 4) willQ2 ≤ t2Pages s →
      (countTab s.mem.frames fun f e => !frameFree e && ownerOf e == a && pinsOf s f != 0) ≤ q.at 4 4 → Answers (.memQuotaSet ch) s fun t =>
        Responded ch {} s t ∧ t.acct a = { s.acct a with next := some (q.at 4 4, q.at 8 4) } ∧ ∀ k, k ≠ a → t.acct k = s.acct k) ∧
    (Admitted memPolicySetLayout true (fun q => q.at 0 2 == q.ctx || q.at 0 2 == 0xFFF) ch s → let a := acctOf (q.at 0 2)
      (q.ctx = 0 ∨ a ≠ commonsAcct ∧ q.at 9 1 = 0) → (a = commonsAcct ∨ (s.ctx a).state ≠ .free) → (q.at 9 1 = 0 ∨ 4 ≤ q.at 9 1 ∧ q.at 9 1 ≤ 12) →
      Answers (.memPolicySet ch) s fun t => Responded ch {} s t ∧ (t.acct a).pol.placeEn = q.bit 2 0 ∧ (t.acct a).pol.thr = q.at 4 2 ∧
        (t.acct a).pol.hyst = q.at 6 2 ∧ (t.acct a).pol.moves = q.at 8 1 ∧ (t.acct a).q1 = (s.acct a).q1 ∧
        t.mem.heatShift = if q.at 9 1 = 0 then s.mem.heatShift else q.at 9 1) ∧
    (Admitted memEvictLayout true (ownsCtx 0) ch s → inRange → (∀ k ∈ keys, (s.pteAt k).valid = true) →
      (∀ k ∈ keys, ∀ f, evictFrame s k = some f → (s.frame f).state = .resident ∨ (s.frame f).state = .dirty) → Answers (.memEvict ch) s fun t =>
        Responded ch {} s t ∧ (∀ k ∈ keys, (t.pteAt k).held = false) ∧ (∀ k, k ∉ keys → t.pteAt k = s.pteAt k) ∧ t.mem.frames = s.mem.frames) ∧
    (Admitted memEvictLayout true (ownsCtx 0) ch s → inRange → (∀ k ∈ keys, (s.pteAt k).valid = true) →
      (∃ k ∈ keys, ∃ f, evictFrame s k = some f ∧ (s.frame f).state = .evicting) → Answers (.memEvict ch) s fun t =>
        Responded ch (fail St.pending) s t ∧ ∃ w ∈ t.mem.works, w.note = q.note) ∧
    (Admitted memPinLayout true ownsAny ch s → inRange → let mine := rangeKeys q.ctx (q.at 8 8) (q.at 4 4)
      (∀ k ∈ mine, (s.pteAt k).valid = true) →
      (q.bit 0 0 = true → Answers (.memPin ch) s fun t => Responded ch {} s t ∧ (∀ k ∈ mine, (t.pteAt k).epins = q.ctx :: (s.pteAt k).epins) ∧
        ∀ k, k ∉ mine → t.pteAt k = s.pteAt k) ∧
      (q.bit 0 0 = false → (∀ k ∈ mine, (s.pteAt k).epins.contains q.ctx = true) → Answers (.memPin ch) s fun t => Responded ch {} s t ∧
        (∀ k ∈ mine, (t.pteAt k).epins = (s.pteAt k).epins.erase q.ctx) ∧ ∀ k, k ∉ mine → t.pteAt k = s.pteAt k)) ∧
    (Admitted memFlushLayout true (ownsCtx 0) ch s → inRange → (∀ k ∈ keys, (s.pteAt k).valid = true) → Answers (.memFlush ch) s fun t =>
      Responded ch (fail St.pending) s t ∧ t.mem.pte = s.mem.pte ∧ t.mem.hbm = s.mem.hbm ∧ t.mem.slow = s.mem.slow ∧
      ∀ k ∈ keys, (s.pteAt k).tier = .t1 → (s.frame (s.pteAt k).frame).backed = true → (s.frame (s.pteAt k).frame).dirty ≠ 0 →
        occupied (s.frame (s.pteAt k).frame) = true → (t.frame (s.pteAt k).frame).cleaning = true) ∧
    (Admitted memQueryLayout true (fun q => q.at 0 2 == q.ctx || q.at 0 2 == 0xFFF) ch s →
      (q.at 2 1 = 2 → (q.at 0 2 = 0xFFF → q.ctx = 0) → Answers (.memQuery ch) s fun t =>
        Responded ch (answerOf 32 (acctBytes s (acctOf (q.at 0 2)))) s t ∧ t.mem = s.mem) ∧
      (q.at 2 1 = 0 → 16 * q.at 4 4 ≤ 4064 → q.at 8 8 % frameBytes = 0 → q.at 8 8 + q.at 4 4 * frameBytes ≤ 2 ^ 46 → Answers (.memQuery ch) s fun t =>
        Responded ch (answerOf (16 * q.at 4 4) (concat 16 (keys.map fun k => pteBytes (s.pteAt k)))) s t ∧ t.mem = s.mem) ∧
      (q.at 2 1 = 1 → 32 * q.at 4 4 ≤ 4064 → q.at 8 8 % frameBytes = 0 → q.at 8 8 + q.at 4 4 * frameBytes ≤ 2 ^ 46 → Answers (.memQuery ch) s fun t =>
        Responded ch (answerOf (32 * q.at 4 4) (concat 32 (keys.map fun k =>
          if (s.pteAt k).valid ∧ (s.pteAt k).tier = .t1 then frameEntry s (s.pteAt k).frame else 0))) s t ∧ t.mem = s.mem)) ∧
    (Admitted memPoisonQueryLayout true ownsAny ch s → Answers (.memPoisonQuery ch) s fun t => Responded ch (poisonQuery q s).1 s t ∧ t.mem = s.mem)

/-- R272, R273, R278 to R280, R308, R386: the training command group. -/
def Obligations.TrainingCommands : Prop :=
  ∀ (s : State) (ch : Nat), hasTrain s = true → let q := reqOn s ch
    let id := q.at 0 4
    let j := s.job id
    let owns := fun (q : Req) => !jobActive s (q.at 0 4) || (s.job (q.at 0 4)).ctx == q.ctx
    (∀ bs, Admitted trainJobStartLayout true ownsAny ch s → (s.readOwn q.ctx (q.at 0 8) 128).1 = .ok bs → notActive s q.ctx = none →
      let d := descOf (leNat bs)
      let n := jobOf s q.ctx d (some q.note)
      (jobBad s q.ctx (leNat bs) n = none → newPages s n = [] → Answers (.trainJobStart ch) s fun t => Responded ch (fail St.pending) s t ∧
        (t.job d.jobId).active = true ∧ (t.job d.jobId).desc = d ∧ (t.job d.jobId).step = d.start ∧ (t.job d.jobId).ctx = q.ctx ∧
        (t.job d.jobId).note = some q.note ∧ (t.weaver d.handle).training = true) ∧
      (∀ st, jobBad s q.ctx (leNat bs) n = some st → Answers (.trainJobStart ch) s fun t => Responded ch (fail st) s t ∧ t.train = s.train)) ∧
    (Admitted trainJobStopLayout true owns ch s → j.active = true →
      (q.flags % 2 = 1 → Answers (.trainJobStop ch) s fun t => Responded ch {} s t ∧ (t.job id).active = false) ∧
      (q.flags % 2 = 0 → Answers (.trainJobStop ch) s fun t => Responded ch {} s t ∧ t.job id = { j with stopAfter := true } ∧
        ∀ k, k ≠ id → t.job k = s.job k)) ∧
    (Admitted trainJobQueryLayout true owns ch s → j.active = true → Answers (.trainJobQuery ch) s fun t => Responded ch (jobQuery q s).1 s t ∧
      t.train = s.train) ∧
    (Admitted trainJobQueryLayout true owns ch s → j.active = false → Answers (.trainJobQuery ch) s fun t => Responded ch (fail St.jobUnknown) s t ∧
      t.train = s.train) ∧
    (∀ bs h f, Admitted trainFeedbackLayout true ownsAny ch s → q.at 8 4 = 1 → (s.readOwn q.ctx (q.at 0 8) 32).1 = .ok bs → bs.length = 32 →
      feedbackOf s q.ctx (leNat bs) = some (h, f) → (∀ p ∈ s.train.learn, p.2.queue.length < 65536) → Answers (.trainFeedback ch) s fun t =>
        Responded ch (answerOf 4 1) s t ∧ (look {} t.train.learn h).queue = (look {} s.train.learn h).queue ++ [f]) ∧
    (Admitted trainLearnPolicyLayout true ownsAny ch s → let h := q.at 0 2
      (s.weaver h).state ≠ .free → (s.weaver h).ctx = q.ctx → (s.weaver h).trainable = true →
      (q.bit 2 0 = false → Answers (.trainLearnPolicy ch) s fun t => Responded ch {} s t ∧ (look {} t.train.learn h).enabled = false) ∧
      (∀ bs, q.bit 2 0 = true → (s.readOwn q.ctx (q.at 8 8) 128).1 = .ok bs → let d := descOf (leNat bs)
        1 ≤ q.at 4 2 → q.at 4 2 ≤ 1024 → descOk (leNat bs) d = true → d.m = 1 → d.npart = 1 → d.handle = h →
          bucketsOk (jobOf s q.ctx d none) = true → stateBad s (jobOf s q.ctx d none) = none →
        Answers (.trainLearnPolicy ch) s fun t => Responded ch {} s t ∧ (look {} t.train.learn h).enabled = true ∧
          (look {} t.train.learn h).batch = q.at 4 2 ∧ (look {} t.train.learn h).desc = d)) ∧
    (Admitted probeLayout true ownsAny ch s → s.train.probe = none → hasPort s (q.at 0 1) = true → Answers (.twineProbe ch) s fun t =>
      t.train.probe = some (ch, q.at 0 1, s.rnd.num) ∧ t.chan ch = s.chan ch ∧
      let o := Out.twine (q.at 0 1) 0 5 (q.at 2 16) {} (frameTag s (q.at 0 1) (s.port (q.at 0 1)).tcTwine false)
      (canSend s (q.at 0 1) 0 = true → (pausedOn s (q.at 0 1) (s.port (q.at 0 1)).tcTwine = false → t.out = o :: s.out) ∧
        (pausedOn s (q.at 0 1) (s.port (q.at 0 1)).tcTwine = true → t.out = s.out ∧
          t.txHeld = s.txHeld ++ [{ port := q.at 0 1, sub := 0, prio := (s.port (q.at 0 1)).tcTwine, frame := o }]))) ∧
    (∀ p n, s.train.probe = some (ch, p, n) → n + 1 ≤ boundaryRnd s → ch < 64 → chanState (s.chan ch) = Ch.busy → (s.chan ch).discard = false →
      bytesAt (reqNat (s.chan ch)) 0 2 = 0x0706 → Answers (.twineProbe ch) s fun t => Responded ch (fail St.twineUnsupported) s t ∧
        t.train.probe = none)

/-- R387, R388, R398, R399, R418, R433, R434, R436, R456, R464: the security, fault and power command groups. -/
def Obligations.SystemCommands : Prop :=
  ∀ (s : State) (ch : Nat), let q := reqOn s ch
    (Admitted keyQueryLayout true (ownsCtx 0) ch s → q.at 0 2 < 4112 → Answers (.keyQuery ch) s fun t =>
      let k := if q.at 0 2 < 4096 then s.tkey (q.at 0 2) else s.skey (q.at 0 2 - 4096)
      Responded ch (answerOf 10 (pack [(0, 8, kStateCode k.state), (32, 32, k.keyId), (64, 16, genShown s k)])) s t ∧ t.lid = s.lid) ∧
    (Admitted debugRequestLayout true (ownsCtx 0) ch s → let c := q.at 0 2
      c ≤ 4095 → ctxActive s c = true → (q.bit 2 0 = true ∨ q.bit 2 1 = true) →
      (s.lid.grants.length < 64 → (q.bit 2 0 = true → (s.ctx c).dbg = true) → (q.bit 2 1 = true → (s.ctx c).prof = true) →
        Answers (.debugRequest ch) s fun t => Responded ch (answerOf 4 s.lid.nextGrant) s t ∧
          t.lid.grants = s.lid.grants ++ [⟨s.lid.nextGrant, c, q.bit 2 0, q.bit 2 1⟩] ∧ t.lid.nextGrant = (s.lid.nextGrant + 1) % 2 ^ 32) ∧
      ((q.bit 2 0 = true ∧ (s.ctx c).dbg = false) → Answers (.debugRequest ch) s fun t => Responded ch (fail St.consentRequired) s t ∧
        t.lid = s.lid)) ∧
    (Admitted debugReleaseLayout true (ownsGrant s) ch s → (∃ g ∈ s.lid.grants, g.id = q.at 0 4) → Answers (.debugRelease ch) s fun t =>
      Responded ch {} s t ∧ t.lid.grants = s.lid.grants.filter fun g => g.id != q.at 0 4) ∧
    (Admitted faultQueryLayout true (ownsCtx 8) ch s → q.at 10 1 ≤ 2 →
      (∀ x ∈ running s, ¬ (x.kind = q.at 10 1 ∧ x.ctx = q.at 8 2 ∧ x.tag = q.at 0 8)) → ∀ x,
      s.flt.sums.find? (fun y => y.kind == q.at 10 1 && y.ctx == q.at 8 2 && y.tag == q.at 0 8) = some x → Answers (.faultQuery ch) s fun t =>
        let es := entriesOf s (q.at 8 2) (q.at 0 8)
        Responded ch (answerOf 20 (pack [(0, 32, sat 32 x.progress), (32, 64, x.rnd), (96, 16, x.gen), (112, 16, x.status),
          (128, 16, (es.2.getD 0) % 4096), (144, 16, es.1)])) s t ∧ t.flt = s.flt) ∧
    (Admitted journalLayout true ownsAny ch s → q.at 0 2 ≤ 4095 → q.at 2 2 ≤ 64 →
      let bs := journalBytes s q.ctx (q.at 0 2) (q.at 2 2)
      (bs = [] → Answers (.journalRead ch) s fun t => Responded ch (answerOf 2 ((q.at 0 2 + q.at 2 2) % 4096)) s t ∧ t.mem = s.mem) ∧
      (bs ≠ [] → (s.writeDva q.ctx (q.at 8 8) bs).1 = .ok () → Answers (.journalRead ch) s fun t =>
        Responded ch (answerOf 2 ((q.at 0 2 + q.at 2 2) % 4096)) s t ∧ t.mem = (s.writeDva q.ctx (q.at 8 8) bs).2.mem ∧ t.flt = s.flt)) ∧
    (Admitted powerLimitSetLayout true ownsAny ch s → 1000 ≤ q.at 0 2 → q.at 0 2 ≤ tdp s → clockBad (q.at 2 2) = false → clockBad (q.at 4 2) = false →
      q.at 2 2 ≤ q.at 4 2 → Answers (.powerLimitSet ch) s fun t => Responded ch {} s t ∧
        t.pwr = { s.pwr with cap := q.at 0 2, fmin := q.at 2 2, fmax := q.at 4 2 }) ∧
    (Admitted powerStateSetLayout true ownsAny ch s →
      (∀ p, s.pwr.target = none → powerChange s.pwr.state (q.at 0 1) = .ok (some p) → Answers (.powerStateSet ch) s fun t =>
        Responded ch (fail St.pending) s t ∧ t.pwr.target = some p ∧ t.pwr.note = some q.note ∧ t.pwr.state = s.pwr.state) ∧
      (s.pwr.target = none → powerChange s.pwr.state (q.at 0 1) = .ok none → Answers (.powerStateSet ch) s fun t =>
        Responded ch (fail St.pending) s t ∧ t.pwr = s.pwr) ∧
      (s.pwr.target ≠ none → Answers (.powerStateSet ch) s fun t => Responded ch (fail St.powerBusy) s t ∧ t.pwr = s.pwr)) ∧
    (Admitted powerQueryLayout true ownsAny ch s → Answers (.powerQuery ch) s fun t => Responded ch (powerQuery q s).1 s t ∧ t.pwr = s.pwr)
end

