-- ==== Sys2Proof/Laws/Frame.lean ====
section
/-! SUPPORT. Laws of frames: what it is that an operation changes only some parts of the state, and how the shapes in which the
operations are written compose. A set of parts is a number, one bit a part. -/

set_option linter.unusedVariables false

namespace Sys2Proof.Machine

/-- The bit that a part has in a set of parts. -/
def Part.code (p : Part) : Nat :=
  match p with
  | .variant => 0
  | .pending => 1
  | .free => 2
  | .out => 3
  | .latch => 4
  | .rsvdAcc => 5
  | .rnd => 6
  | .bud => 7
  | .cells => 8
  | .ups => 9
  | .crs => 10
  | .weav => 11
  | .stakes => 12
  | .hbm => 13
  | .slow => 14
  | .tables => 15
  | .msd => 16
  | .train => 17
  | .ports => 18
  | .cxl => 19
  | .hoop => 20
  | .host => 21
  | .mb => 22
  | .ctxs => 23
  | .lid => 24
  | .flt => 25
  | .pwr => 26
  | .rst => 27
  | .fw => 28
  | .straps => 29
  | .txHeld => 30

/-- Every part whose bit `m` lacks is in `s` what it is in `o`. -/
structure Fr (m : Nat) (o s : State) : Prop where
  same : ∀ p : Part, m.testBit p.code = false → p.same o s

/-- The same of a state given by its fields. -/
structure FrM (m : Nat) (o : State) (a0 a1 a2 a3 a4 a5 a6 a7 a8 a9 a10 a11 a12 a13 a14 a15 a16 a17 a18 a19 a20 a21 a22 a23 a24 a25 a26 a27 a28) : Prop where
  same : ∀ p : Part, m.testBit p.code = false → p.same o (State.mk a0 a1 a2 a3 a4 a5 a6 a7 a8 a9 a10 a11 a12 a13 a14 a15 a16 a17 a18 a19 a20 a21 a22 a23 a24 a25 a26 a27 a28)
theorem Fr_mk {m : Nat} {o : State} {a0 a1 a2 a3 a4 a5 a6 a7 a8 a9 a10 a11 a12 a13 a14 a15 a16 a17 a18 a19 a20 a21 a22 a23 a24 a25 a26 a27 a28} : Fr m o (State.mk a0 a1 a2 a3 a4 a5 a6 a7 a8 a9 a10 a11 a12 a13 a14 a15 a16 a17 a18 a19 a20 a21 a22 a23 a24 a25 a26 a27 a28) ↔ FrM m o a0 a1 a2 a3 a4 a5 a6 a7 a8 a9 a10 a11 a12 a13 a14 a15 a16 a17 a18 a19 a20 a21 a22 a23 a24 a25 a26 a27 a28 := ⟨fun h => ⟨h.same⟩, fun h => ⟨h.same⟩⟩
theorem Fr.rfl {m : Nat} {o : State} : Fr m o o := ⟨fun p _ => by cases p <;> exact Eq.refl _⟩
theorem bitIn {k m i : Nat} (hm : k ||| m = m) (hk : k.testBit i = true) (hp : m.testBit i = false) : False := by
  rw [← hm, Nat.testBit_or, hk, Bool.true_or] at hp
  cases hp
theorem ms {a b m : Nat} (h1 : a ||| b = b) (h2 : b ||| m = m) : a ||| m = m := by
  rw [← h2, ← Nat.or_assoc, h1]
theorem foldl_frame {m : Nat} {o : State} {α : Type} {f : State → α → State} {xs : List α} {s : State} (hf : ∀ t x, Fr m o t → Fr m o (f t x)) (h : Fr m o s) : Fr m o (xs.foldl f s) := by
  induction xs generalizing s with
  | nil => exact h
  | cons x r ih => exact ih (hf s x h)
theorem each_frame {m : Nat} {o : State} {α : Type} {f : α → State → State} {xs : List α} {s : State} (hf : ∀ x t, Fr m o t → Fr m o (f x t)) (h : Fr m o s) : Fr m o (State.each xs f s) :=
  foldl_frame (fun t x ht => hf x t ht) h
theorem Fr_ite {m : Nat} {o : State} {c : Prop} [Decidable c] {a b : State} (ha : c → Fr m o a) (hb : ¬ c → Fr m o b) : Fr m o (if c then a else b) := by
  split
  · exact ha ‹_›
  · exact hb ‹_›
theorem Fr_ite2 {m : Nat} {o : State} {α : Type} {c : Prop} [Decidable c] {a b : α × State} (ha : c → Fr m o a.2) (hb : ¬ c → Fr m o b.2) : Fr m o (if c then a else b).2 := by
  split
  · exact ha ‹_›
  · exact hb ‹_›
theorem onlyIf_frame {m : Nat} {o : State} {b : Bool} {f : State → State} {s : State} (hf : ∀ t, Fr m o t → Fr m o (f t)) (h : Fr m o s) : Fr m o (State.onlyIf b f s) :=
  Fr_ite (fun _ => hf s h) (fun _ => h)
theorem foldl_frame2 {m : Nat} {o : State} {α β : Type} {f : β × State → α → β × State} {xs : List α} {p : β × State} (hf : ∀ p x, Fr m o p.2 → Fr m o (f p x).2) (h : Fr m o p.2) : Fr m o (xs.foldl f p).2 := by
  induction xs generalizing p with
  | nil => exact h
  | cons x r ih => exact ih (hf p x h)

/-- Of every state that an option holds. -/
structure FrO (m : Nat) (o : State) (q : Option State) : Prop where
  out : ∀ t, q = some t → Fr m o t
theorem FrO_none {m : Nat} {o : State} : FrO m o none := ⟨fun _ e => by cases e⟩
theorem FrO_some {m : Nat} {o : State} {s : State} (h : Fr m o s) : FrO m o (some s) := ⟨fun _ e => by cases e; exact h⟩
theorem FrO_ite {m : Nat} {o : State} {c : Prop} [Decidable c] {a b : Option State} (ha : c → FrO m o a) (hb : ¬ c → FrO m o b) : FrO m o (if c then a else b) := by
  split
  · exact ha ‹_›
  · exact hb ‹_›
theorem FrO_bind {m : Nat} {o : State} {q : Option State} {f : State → Option State} (h : FrO m o q) (hf : ∀ t, Fr m o t → FrO m o (f t)) : FrO m o (q.bind f) := by
  cases q with
  | none => exact FrO_none
  | some t => exact hf t (h.out t rfl)
theorem FrO_map {m : Nat} {o : State} {α : Type} {q : Option α} {f : α → State} (hf : ∀ x, Fr m o (f x)) : FrO m o (q.map f) := by
  cases q with
  | none => exact FrO_none
  | some t => exact FrO_some (hf t)
theorem getD_frame {m : Nat} {o : State} {q : Option State} {d : State} (h : FrO m o q) (hd : Fr m o d) : Fr m o (q.getD d) := by
  cases q with
  | none => exact hd
  | some t => exact h.out t rfl
theorem elim_frame {m : Nat} {o : State} {α : Type} {q : Option α} {d : State} {f : α → State} (hd : Fr m o d) (hf : ∀ x, Fr m o (f x)) : Fr m o (q.elim d f) := by
  cases q with
  | none => exact hd
  | some t => exact hf t

/-- Of every state that an optional pair holds. -/
structure FrP (m : Nat) (o : State) {α : Type} (q : Option (α × State)) : Prop where
  out : ∀ p, q = some p → Fr m o p.2
theorem FrP_none {m : Nat} {o : State} {α : Type} : FrP m o (none : Option (α × State)) := ⟨fun _ e => by cases e⟩
theorem FrP_some {m : Nat} {o : State} {α : Type} {p : α × State} (h : Fr m o p.2) : FrP m o (some p) := ⟨fun _ e => by cases e; exact h⟩
theorem FrP_ite {m : Nat} {o : State} {α : Type} {c : Prop} [Decidable c] {a b : Option (α × State)} (ha : c → FrP m o a) (hb : ¬ c → FrP m o b) : FrP m o (if c then a else b) := by
  split
  · exact ha ‹_›
  · exact hb ‹_›
theorem FrP_map {m : Nat} {o : State} {α β : Type} {q : Option α} {f : α → β × State} (hf : ∀ x, Fr m o (f x).2) : FrP m o (q.map f) := by
  cases q with
  | none => exact FrP_none
  | some t => exact FrP_some (hf t)
theorem FrP_bind {m : Nat} {o : State} {α β : Type} {q : Option (α × State)} {f : α × State → Option (β × State)} (h : FrP m o q) (hf : ∀ p, Fr m o p.2 → FrP m o (f p)) : FrP m o (q.bind f) := by
  cases q with
  | none => exact FrP_none
  | some t => exact hf t (h.out t rfl)
theorem FrP_mapS {m : Nat} {o : State} {β : Type} {q : Option State} {f : State → β × State} (ho : FrO m o q) (hf : ∀ x, Fr m o x → Fr m o (f x).2) : FrP m o (q.map f) := by
  cases q with
  | none => exact FrP_none
  | some t => exact FrP_some (hf t (ho.out t rfl))
theorem Fr_of_pair {m : Nat} {o : State} {α : Type} {p : α × State} {a : α} {t : State} (h : Fr m o p.2) (e : p = (a, t)) : Fr m o t := by rw [e] at h; exact h

/-- A U command, when it runs, changes only parts of `m`. -/
structure FrRun (m : Nat) (o : State) (e : UEffect) : Prop where
  run : ∀ t, Fr m o t → Fr m o (e.run t).2

/-- Of every U command that an option holds. -/
structure FrU (m : Nat) (o : State) (q : Option UEffect) : Prop where
  out : ∀ e, q = some e → FrRun m o e
theorem FrU_none {m : Nat} {o : State} : FrU m o none := ⟨fun _ e => by cases e⟩
theorem FrU_some {m : Nat} {o : State} {n : Nat} {f : State → Except AccErr Unit × State} (h : ∀ t, Fr m o t → Fr m o (f t).2) : FrU m o (some ⟨n, f⟩) := ⟨fun _ e => by cases e; exact ⟨h⟩⟩
theorem FrU_ite {m : Nat} {o : State} {c : Prop} [Decidable c] {a b : Option UEffect} (ha : c → FrU m o a) (hb : ¬ c → FrU m o b) : FrU m o (if c then a else b) := by
  split
  · exact ha ‹_›
  · exact hb ‹_›
theorem joinRead_frame {m : Nat} {o : State} {bs} {r : Except AccErr (List Byte) × State} (h : Fr m o r.2) : Fr m o (joinRead bs r).2 := h
theorem FrO_mapS {m : Nat} {o : State} {q : Option State} {f : State → State} (ho : FrO m o q) (hf : ∀ x, Fr m o x → Fr m o (f x)) : FrO m o (q.map f) := by
  cases q with
  | none => exact FrO_none
  | some t => exact FrO_some (hf t (ho.out t rfl))
theorem elim_frameS {m : Nat} {o : State} {q : Option State} {d : State} {f : State → State} (ho : FrO m o q) (hd : Fr m o d) (hf : ∀ x, Fr m o x → Fr m o (f x)) : Fr m o (q.elim d f) := by
  cases q with
  | none => exact hd
  | some t => exact hf t (ho.out t rfl)
theorem elim_frameS2 {m : Nat} {o : State} {α : Type} {q : Option State} {d : α × State} {f : State → α × State} (ho : FrO m o q) (hd : Fr m o d.2) (hf : ∀ x, Fr m o x → Fr m o (f x).2) : Fr m o (q.elim d f).2 := by
  cases q with
  | none => exact hd
  | some t => exact hf t (ho.out t rfl)
theorem getD_frameP {m : Nat} {o : State} {α : Type} {q : Option (α × State)} {d : α × State} (h : FrP m o q) (hd : Fr m o d.2) : Fr m o (q.getD d).2 := by
  cases q with
  | none => exact hd
  | some t => exact h.out t rfl


/-- A next state that an outcome answers differs from `s` only in parts of `m`. -/
structure FrX (m : Nat) (s : State) (r : Host.Outcome State Fault Refusal) : Prop where
  out : ∀ t, r = .next t → Fr m s t
theorem act_frame {k : Nat} {ok : Bool} {s t : State} (h : Fr (k ||| 3) s t) : FrX k s (act ok s t) := by
  constructor
  intro u hu
  unfold act at hu
  split at hu
  · cases hu
    refine ⟨fun p hp => ?_⟩
    have hk : p.code ≠ 0 → p.code ≠ 1 → (k ||| 3).testBit p.code = false := by
      intro h0 h1
      rw [Nat.testBit_or, hp, Bool.false_or]
      cases p <;> first | exact absurd (Eq.refl _) h0 | exact absurd (Eq.refl _) h1 | decide
    cases p with
    | variant => exact Eq.refl _
    | pending => exact Eq.refl _
    | _ => exact h.same _ (hk (by decide) (by decide))
  · cases hu
theorem Fr_full {m : Nat} {o s : State} (hm : 2147483647 ||| m = m) : Fr m o s :=
  ⟨fun p hp => (bitIn (i := p.code) hm (by cases p <;> decide) hp).elim⟩

/-! ### Updates of fields -/

theorem Fr_bud {m : Nat} {o s : State} {x_bud} (hm : 128 ||| m = m) (h : Fr m o s) : FrM m o s.variant s.straps s.pending s.free s.out s.latch s.rsvdAcc s.rnd x_bud s.cells s.ups s.crs s.weav s.stakes s.mem s.msd s.train s.ports s.txHeld s.cxl s.hoop s.host s.mb s.ctxs s.lid s.flt s.pwr s.rst s.fw := by
  refine ⟨fun p hp => ?_⟩
  cases p with
  | variant => exact h.same .variant hp
  | pending => exact h.same .pending hp
  | free => exact h.same .free hp
  | out => exact h.same .out hp
  | latch => exact h.same .latch hp
  | rsvdAcc => exact h.same .rsvdAcc hp
  | rnd => exact h.same .rnd hp
  | bud => exact (bitIn (i := 7) hm (by decide) hp).elim
  | cells => exact h.same .cells hp
  | ups => exact h.same .ups hp
  | crs => exact h.same .crs hp
  | weav => exact h.same .weav hp
  | stakes => exact h.same .stakes hp
  | hbm => exact h.same .hbm hp
  | slow => exact h.same .slow hp
  | tables => exact h.same .tables hp
  | msd => exact h.same .msd hp
  | train => exact h.same .train hp
  | ports => exact h.same .ports hp
  | cxl => exact h.same .cxl hp
  | hoop => exact h.same .hoop hp
  | host => exact h.same .host hp
  | mb => exact h.same .mb hp
  | ctxs => exact h.same .ctxs hp
  | lid => exact h.same .lid hp
  | flt => exact h.same .flt hp
  | pwr => exact h.same .pwr hp
  | rst => exact h.same .rst hp
  | fw => exact h.same .fw hp
  | straps => exact h.same .straps hp
  | txHeld => exact h.same .txHeld hp

theorem Fr_bud_hoop_flt {m : Nat} {o s : State} {x_bud} {x_hoop} {x_flt} (hm : 34603136 ||| m = m) (h : Fr m o s) : FrM m o s.variant s.straps s.pending s.free s.out s.latch s.rsvdAcc s.rnd x_bud s.cells s.ups s.crs s.weav s.stakes s.mem s.msd s.train s.ports s.txHeld s.cxl x_hoop s.host s.mb s.ctxs s.lid x_flt s.pwr s.rst s.fw := by
  refine ⟨fun p hp => ?_⟩
  cases p with
  | variant => exact h.same .variant hp
  | pending => exact h.same .pending hp
  | free => exact h.same .free hp
  | out => exact h.same .out hp
  | latch => exact h.same .latch hp
  | rsvdAcc => exact h.same .rsvdAcc hp
  | rnd => exact h.same .rnd hp
  | bud => exact (bitIn (i := 7) hm (by decide) hp).elim
  | cells => exact h.same .cells hp
  | ups => exact h.same .ups hp
  | crs => exact h.same .crs hp
  | weav => exact h.same .weav hp
  | stakes => exact h.same .stakes hp
  | hbm => exact h.same .hbm hp
  | slow => exact h.same .slow hp
  | tables => exact h.same .tables hp
  | msd => exact h.same .msd hp
  | train => exact h.same .train hp
  | ports => exact h.same .ports hp
  | cxl => exact h.same .cxl hp
  | hoop => exact (bitIn (i := 20) hm (by decide) hp).elim
  | host => exact h.same .host hp
  | mb => exact h.same .mb hp
  | ctxs => exact h.same .ctxs hp
  | lid => exact h.same .lid hp
  | flt => exact (bitIn (i := 25) hm (by decide) hp).elim
  | pwr => exact h.same .pwr hp
  | rst => exact h.same .rst hp
  | fw => exact h.same .fw hp
  | straps => exact h.same .straps hp
  | txHeld => exact h.same .txHeld hp

theorem Fr_cells {m : Nat} {o s : State} {x_cells} (hm : 256 ||| m = m) (h : Fr m o s) : FrM m o s.variant s.straps s.pending s.free s.out s.latch s.rsvdAcc s.rnd s.bud x_cells s.ups s.crs s.weav s.stakes s.mem s.msd s.train s.ports s.txHeld s.cxl s.hoop s.host s.mb s.ctxs s.lid s.flt s.pwr s.rst s.fw := by
  refine ⟨fun p hp => ?_⟩
  cases p with
  | variant => exact h.same .variant hp
  | pending => exact h.same .pending hp
  | free => exact h.same .free hp
  | out => exact h.same .out hp
  | latch => exact h.same .latch hp
  | rsvdAcc => exact h.same .rsvdAcc hp
  | rnd => exact h.same .rnd hp
  | bud => exact h.same .bud hp
  | cells => exact (bitIn (i := 8) hm (by decide) hp).elim
  | ups => exact h.same .ups hp
  | crs => exact h.same .crs hp
  | weav => exact h.same .weav hp
  | stakes => exact h.same .stakes hp
  | hbm => exact h.same .hbm hp
  | slow => exact h.same .slow hp
  | tables => exact h.same .tables hp
  | msd => exact h.same .msd hp
  | train => exact h.same .train hp
  | ports => exact h.same .ports hp
  | cxl => exact h.same .cxl hp
  | hoop => exact h.same .hoop hp
  | host => exact h.same .host hp
  | mb => exact h.same .mb hp
  | ctxs => exact h.same .ctxs hp
  | lid => exact h.same .lid hp
  | flt => exact h.same .flt hp
  | pwr => exact h.same .pwr hp
  | rst => exact h.same .rst hp
  | fw => exact h.same .fw hp
  | straps => exact h.same .straps hp
  | txHeld => exact h.same .txHeld hp

theorem Fr_cells_pwr {m : Nat} {o s : State} {x_cells} {x_pwr} (hm : 67109120 ||| m = m) (h : Fr m o s) : FrM m o s.variant s.straps s.pending s.free s.out s.latch s.rsvdAcc s.rnd s.bud x_cells s.ups s.crs s.weav s.stakes s.mem s.msd s.train s.ports s.txHeld s.cxl s.hoop s.host s.mb s.ctxs s.lid s.flt x_pwr s.rst s.fw := by
  refine ⟨fun p hp => ?_⟩
  cases p with
  | variant => exact h.same .variant hp
  | pending => exact h.same .pending hp
  | free => exact h.same .free hp
  | out => exact h.same .out hp
  | latch => exact h.same .latch hp
  | rsvdAcc => exact h.same .rsvdAcc hp
  | rnd => exact h.same .rnd hp
  | bud => exact h.same .bud hp
  | cells => exact (bitIn (i := 8) hm (by decide) hp).elim
  | ups => exact h.same .ups hp
  | crs => exact h.same .crs hp
  | weav => exact h.same .weav hp
  | stakes => exact h.same .stakes hp
  | hbm => exact h.same .hbm hp
  | slow => exact h.same .slow hp
  | tables => exact h.same .tables hp
  | msd => exact h.same .msd hp
  | train => exact h.same .train hp
  | ports => exact h.same .ports hp
  | cxl => exact h.same .cxl hp
  | hoop => exact h.same .hoop hp
  | host => exact h.same .host hp
  | mb => exact h.same .mb hp
  | ctxs => exact h.same .ctxs hp
  | lid => exact h.same .lid hp
  | flt => exact h.same .flt hp
  | pwr => exact (bitIn (i := 26) hm (by decide) hp).elim
  | rst => exact h.same .rst hp
  | fw => exact h.same .fw hp
  | straps => exact h.same .straps hp
  | txHeld => exact h.same .txHeld hp

theorem Fr_cells_ups {m : Nat} {o s : State} {x_cells} {x_ups} (hm : 768 ||| m = m) (h : Fr m o s) : FrM m o s.variant s.straps s.pending s.free s.out s.latch s.rsvdAcc s.rnd s.bud x_cells x_ups s.crs s.weav s.stakes s.mem s.msd s.train s.ports s.txHeld s.cxl s.hoop s.host s.mb s.ctxs s.lid s.flt s.pwr s.rst s.fw := by
  refine ⟨fun p hp => ?_⟩
  cases p with
  | variant => exact h.same .variant hp
  | pending => exact h.same .pending hp
  | free => exact h.same .free hp
  | out => exact h.same .out hp
  | latch => exact h.same .latch hp
  | rsvdAcc => exact h.same .rsvdAcc hp
  | rnd => exact h.same .rnd hp
  | bud => exact h.same .bud hp
  | cells => exact (bitIn (i := 8) hm (by decide) hp).elim
  | ups => exact (bitIn (i := 9) hm (by decide) hp).elim
  | crs => exact h.same .crs hp
  | weav => exact h.same .weav hp
  | stakes => exact h.same .stakes hp
  | hbm => exact h.same .hbm hp
  | slow => exact h.same .slow hp
  | tables => exact h.same .tables hp
  | msd => exact h.same .msd hp
  | train => exact h.same .train hp
  | ports => exact h.same .ports hp
  | cxl => exact h.same .cxl hp
  | hoop => exact h.same .hoop hp
  | host => exact h.same .host hp
  | mb => exact h.same .mb hp
  | ctxs => exact h.same .ctxs hp
  | lid => exact h.same .lid hp
  | flt => exact h.same .flt hp
  | pwr => exact h.same .pwr hp
  | rst => exact h.same .rst hp
  | fw => exact h.same .fw hp
  | straps => exact h.same .straps hp
  | txHeld => exact h.same .txHeld hp

theorem Fr_crs {m : Nat} {o s : State} {x_crs} (hm : 1024 ||| m = m) (h : Fr m o s) : FrM m o s.variant s.straps s.pending s.free s.out s.latch s.rsvdAcc s.rnd s.bud s.cells s.ups x_crs s.weav s.stakes s.mem s.msd s.train s.ports s.txHeld s.cxl s.hoop s.host s.mb s.ctxs s.lid s.flt s.pwr s.rst s.fw := by
  refine ⟨fun p hp => ?_⟩
  cases p with
  | variant => exact h.same .variant hp
  | pending => exact h.same .pending hp
  | free => exact h.same .free hp
  | out => exact h.same .out hp
  | latch => exact h.same .latch hp
  | rsvdAcc => exact h.same .rsvdAcc hp
  | rnd => exact h.same .rnd hp
  | bud => exact h.same .bud hp
  | cells => exact h.same .cells hp
  | ups => exact h.same .ups hp
  | crs => exact (bitIn (i := 10) hm (by decide) hp).elim
  | weav => exact h.same .weav hp
  | stakes => exact h.same .stakes hp
  | hbm => exact h.same .hbm hp
  | slow => exact h.same .slow hp
  | tables => exact h.same .tables hp
  | msd => exact h.same .msd hp
  | train => exact h.same .train hp
  | ports => exact h.same .ports hp
  | cxl => exact h.same .cxl hp
  | hoop => exact h.same .hoop hp
  | host => exact h.same .host hp
  | mb => exact h.same .mb hp
  | ctxs => exact h.same .ctxs hp
  | lid => exact h.same .lid hp
  | flt => exact h.same .flt hp
  | pwr => exact h.same .pwr hp
  | rst => exact h.same .rst hp
  | fw => exact h.same .fw hp
  | straps => exact h.same .straps hp
  | txHeld => exact h.same .txHeld hp

theorem Fr_crs_weav_tables_train_ctxs {m : Nat} {o s : State} {x_crs} {x_weav} {x_mem} {x_train} {x_ctxs} (hm : 8555520 ||| m = m) (h : Fr m o s) (e0 : x_mem.hbm = s.mem.hbm) (e1 : x_mem.slow = s.mem.slow) : FrM m o s.variant s.straps s.pending s.free s.out s.latch s.rsvdAcc s.rnd s.bud s.cells s.ups x_crs x_weav s.stakes x_mem s.msd x_train s.ports s.txHeld s.cxl s.hoop s.host s.mb x_ctxs s.lid s.flt s.pwr s.rst s.fw := by
  refine ⟨fun p hp => ?_⟩
  cases p with
  | variant => exact h.same .variant hp
  | pending => exact h.same .pending hp
  | free => exact h.same .free hp
  | out => exact h.same .out hp
  | latch => exact h.same .latch hp
  | rsvdAcc => exact h.same .rsvdAcc hp
  | rnd => exact h.same .rnd hp
  | bud => exact h.same .bud hp
  | cells => exact h.same .cells hp
  | ups => exact h.same .ups hp
  | crs => exact (bitIn (i := 10) hm (by decide) hp).elim
  | weav => exact (bitIn (i := 11) hm (by decide) hp).elim
  | stakes => exact h.same .stakes hp
  | hbm => exact e0.trans (h.same .hbm hp)
  | slow => exact e1.trans (h.same .slow hp)
  | tables => exact (bitIn (i := 15) hm (by decide) hp).elim
  | msd => exact h.same .msd hp
  | train => exact (bitIn (i := 17) hm (by decide) hp).elim
  | ports => exact h.same .ports hp
  | cxl => exact h.same .cxl hp
  | hoop => exact h.same .hoop hp
  | host => exact h.same .host hp
  | mb => exact h.same .mb hp
  | ctxs => exact (bitIn (i := 23) hm (by decide) hp).elim
  | lid => exact h.same .lid hp
  | flt => exact h.same .flt hp
  | pwr => exact h.same .pwr hp
  | rst => exact h.same .rst hp
  | fw => exact h.same .fw hp
  | straps => exact h.same .straps hp
  | txHeld => exact h.same .txHeld hp

theorem Fr_ctxs {m : Nat} {o s : State} {x_ctxs} (hm : 8388608 ||| m = m) (h : Fr m o s) : FrM m o s.variant s.straps s.pending s.free s.out s.latch s.rsvdAcc s.rnd s.bud s.cells s.ups s.crs s.weav s.stakes s.mem s.msd s.train s.ports s.txHeld s.cxl s.hoop s.host s.mb x_ctxs s.lid s.flt s.pwr s.rst s.fw := by
  refine ⟨fun p hp => ?_⟩
  cases p with
  | variant => exact h.same .variant hp
  | pending => exact h.same .pending hp
  | free => exact h.same .free hp
  | out => exact h.same .out hp
  | latch => exact h.same .latch hp
  | rsvdAcc => exact h.same .rsvdAcc hp
  | rnd => exact h.same .rnd hp
  | bud => exact h.same .bud hp
  | cells => exact h.same .cells hp
  | ups => exact h.same .ups hp
  | crs => exact h.same .crs hp
  | weav => exact h.same .weav hp
  | stakes => exact h.same .stakes hp
  | hbm => exact h.same .hbm hp
  | slow => exact h.same .slow hp
  | tables => exact h.same .tables hp
  | msd => exact h.same .msd hp
  | train => exact h.same .train hp
  | ports => exact h.same .ports hp
  | cxl => exact h.same .cxl hp
  | hoop => exact h.same .hoop hp
  | host => exact h.same .host hp
  | mb => exact h.same .mb hp
  | ctxs => exact (bitIn (i := 23) hm (by decide) hp).elim
  | lid => exact h.same .lid hp
  | flt => exact h.same .flt hp
  | pwr => exact h.same .pwr hp
  | rst => exact h.same .rst hp
  | fw => exact h.same .fw hp
  | straps => exact h.same .straps hp
  | txHeld => exact h.same .txHeld hp

theorem Fr_cxl {m : Nat} {o s : State} {x_cxl} (hm : 524288 ||| m = m) (h : Fr m o s) : FrM m o s.variant s.straps s.pending s.free s.out s.latch s.rsvdAcc s.rnd s.bud s.cells s.ups s.crs s.weav s.stakes s.mem s.msd s.train s.ports s.txHeld x_cxl s.hoop s.host s.mb s.ctxs s.lid s.flt s.pwr s.rst s.fw := by
  refine ⟨fun p hp => ?_⟩
  cases p with
  | variant => exact h.same .variant hp
  | pending => exact h.same .pending hp
  | free => exact h.same .free hp
  | out => exact h.same .out hp
  | latch => exact h.same .latch hp
  | rsvdAcc => exact h.same .rsvdAcc hp
  | rnd => exact h.same .rnd hp
  | bud => exact h.same .bud hp
  | cells => exact h.same .cells hp
  | ups => exact h.same .ups hp
  | crs => exact h.same .crs hp
  | weav => exact h.same .weav hp
  | stakes => exact h.same .stakes hp
  | hbm => exact h.same .hbm hp
  | slow => exact h.same .slow hp
  | tables => exact h.same .tables hp
  | msd => exact h.same .msd hp
  | train => exact h.same .train hp
  | ports => exact h.same .ports hp
  | cxl => exact (bitIn (i := 19) hm (by decide) hp).elim
  | hoop => exact h.same .hoop hp
  | host => exact h.same .host hp
  | mb => exact h.same .mb hp
  | ctxs => exact h.same .ctxs hp
  | lid => exact h.same .lid hp
  | flt => exact h.same .flt hp
  | pwr => exact h.same .pwr hp
  | rst => exact h.same .rst hp
  | fw => exact h.same .fw hp
  | straps => exact h.same .straps hp
  | txHeld => exact h.same .txHeld hp

theorem Fr_cxl_host_lid_pwr_rst_fw {m : Nat} {o s : State} {x_cxl} {x_host} {x_lid} {x_pwr} {x_rst} {x_fw} (hm : 489160704 ||| m = m) (h : Fr m o s) : FrM m o s.variant s.straps s.pending s.free s.out s.latch s.rsvdAcc s.rnd s.bud s.cells s.ups s.crs s.weav s.stakes s.mem s.msd s.train s.ports s.txHeld x_cxl s.hoop x_host s.mb s.ctxs x_lid s.flt x_pwr x_rst x_fw := by
  refine ⟨fun p hp => ?_⟩
  cases p with
  | variant => exact h.same .variant hp
  | pending => exact h.same .pending hp
  | free => exact h.same .free hp
  | out => exact h.same .out hp
  | latch => exact h.same .latch hp
  | rsvdAcc => exact h.same .rsvdAcc hp
  | rnd => exact h.same .rnd hp
  | bud => exact h.same .bud hp
  | cells => exact h.same .cells hp
  | ups => exact h.same .ups hp
  | crs => exact h.same .crs hp
  | weav => exact h.same .weav hp
  | stakes => exact h.same .stakes hp
  | hbm => exact h.same .hbm hp
  | slow => exact h.same .slow hp
  | tables => exact h.same .tables hp
  | msd => exact h.same .msd hp
  | train => exact h.same .train hp
  | ports => exact h.same .ports hp
  | cxl => exact (bitIn (i := 19) hm (by decide) hp).elim
  | hoop => exact h.same .hoop hp
  | host => exact (bitIn (i := 21) hm (by decide) hp).elim
  | mb => exact h.same .mb hp
  | ctxs => exact h.same .ctxs hp
  | lid => exact (bitIn (i := 24) hm (by decide) hp).elim
  | flt => exact h.same .flt hp
  | pwr => exact (bitIn (i := 26) hm (by decide) hp).elim
  | rst => exact (bitIn (i := 27) hm (by decide) hp).elim
  | fw => exact (bitIn (i := 28) hm (by decide) hp).elim
  | straps => exact h.same .straps hp
  | txHeld => exact h.same .txHeld hp

theorem Fr_cxl_lid {m : Nat} {o s : State} {x_cxl} {x_lid} (hm : 17301504 ||| m = m) (h : Fr m o s) : FrM m o s.variant s.straps s.pending s.free s.out s.latch s.rsvdAcc s.rnd s.bud s.cells s.ups s.crs s.weav s.stakes s.mem s.msd s.train s.ports s.txHeld x_cxl s.hoop s.host s.mb s.ctxs x_lid s.flt s.pwr s.rst s.fw := by
  refine ⟨fun p hp => ?_⟩
  cases p with
  | variant => exact h.same .variant hp
  | pending => exact h.same .pending hp
  | free => exact h.same .free hp
  | out => exact h.same .out hp
  | latch => exact h.same .latch hp
  | rsvdAcc => exact h.same .rsvdAcc hp
  | rnd => exact h.same .rnd hp
  | bud => exact h.same .bud hp
  | cells => exact h.same .cells hp
  | ups => exact h.same .ups hp
  | crs => exact h.same .crs hp
  | weav => exact h.same .weav hp
  | stakes => exact h.same .stakes hp
  | hbm => exact h.same .hbm hp
  | slow => exact h.same .slow hp
  | tables => exact h.same .tables hp
  | msd => exact h.same .msd hp
  | train => exact h.same .train hp
  | ports => exact h.same .ports hp
  | cxl => exact (bitIn (i := 19) hm (by decide) hp).elim
  | hoop => exact h.same .hoop hp
  | host => exact h.same .host hp
  | mb => exact h.same .mb hp
  | ctxs => exact h.same .ctxs hp
  | lid => exact (bitIn (i := 24) hm (by decide) hp).elim
  | flt => exact h.same .flt hp
  | pwr => exact h.same .pwr hp
  | rst => exact h.same .rst hp
  | fw => exact h.same .fw hp
  | straps => exact h.same .straps hp
  | txHeld => exact h.same .txHeld hp

theorem Fr_flt {m : Nat} {o s : State} {x_flt} (hm : 33554432 ||| m = m) (h : Fr m o s) : FrM m o s.variant s.straps s.pending s.free s.out s.latch s.rsvdAcc s.rnd s.bud s.cells s.ups s.crs s.weav s.stakes s.mem s.msd s.train s.ports s.txHeld s.cxl s.hoop s.host s.mb s.ctxs s.lid x_flt s.pwr s.rst s.fw := by
  refine ⟨fun p hp => ?_⟩
  cases p with
  | variant => exact h.same .variant hp
  | pending => exact h.same .pending hp
  | free => exact h.same .free hp
  | out => exact h.same .out hp
  | latch => exact h.same .latch hp
  | rsvdAcc => exact h.same .rsvdAcc hp
  | rnd => exact h.same .rnd hp
  | bud => exact h.same .bud hp
  | cells => exact h.same .cells hp
  | ups => exact h.same .ups hp
  | crs => exact h.same .crs hp
  | weav => exact h.same .weav hp
  | stakes => exact h.same .stakes hp
  | hbm => exact h.same .hbm hp
  | slow => exact h.same .slow hp
  | tables => exact h.same .tables hp
  | msd => exact h.same .msd hp
  | train => exact h.same .train hp
  | ports => exact h.same .ports hp
  | cxl => exact h.same .cxl hp
  | hoop => exact h.same .hoop hp
  | host => exact h.same .host hp
  | mb => exact h.same .mb hp
  | ctxs => exact h.same .ctxs hp
  | lid => exact h.same .lid hp
  | flt => exact (bitIn (i := 25) hm (by decide) hp).elim
  | pwr => exact h.same .pwr hp
  | rst => exact h.same .rst hp
  | fw => exact h.same .fw hp
  | straps => exact h.same .straps hp
  | txHeld => exact h.same .txHeld hp

theorem Fr_free {m : Nat} {o s : State} {x_free} (hm : 4 ||| m = m) (h : Fr m o s) : FrM m o s.variant s.straps s.pending x_free s.out s.latch s.rsvdAcc s.rnd s.bud s.cells s.ups s.crs s.weav s.stakes s.mem s.msd s.train s.ports s.txHeld s.cxl s.hoop s.host s.mb s.ctxs s.lid s.flt s.pwr s.rst s.fw := by
  refine ⟨fun p hp => ?_⟩
  cases p with
  | variant => exact h.same .variant hp
  | pending => exact h.same .pending hp
  | free => exact (bitIn (i := 2) hm (by decide) hp).elim
  | out => exact h.same .out hp
  | latch => exact h.same .latch hp
  | rsvdAcc => exact h.same .rsvdAcc hp
  | rnd => exact h.same .rnd hp
  | bud => exact h.same .bud hp
  | cells => exact h.same .cells hp
  | ups => exact h.same .ups hp
  | crs => exact h.same .crs hp
  | weav => exact h.same .weav hp
  | stakes => exact h.same .stakes hp
  | hbm => exact h.same .hbm hp
  | slow => exact h.same .slow hp
  | tables => exact h.same .tables hp
  | msd => exact h.same .msd hp
  | train => exact h.same .train hp
  | ports => exact h.same .ports hp
  | cxl => exact h.same .cxl hp
  | hoop => exact h.same .hoop hp
  | host => exact h.same .host hp
  | mb => exact h.same .mb hp
  | ctxs => exact h.same .ctxs hp
  | lid => exact h.same .lid hp
  | flt => exact h.same .flt hp
  | pwr => exact h.same .pwr hp
  | rst => exact h.same .rst hp
  | fw => exact h.same .fw hp
  | straps => exact h.same .straps hp
  | txHeld => exact h.same .txHeld hp

theorem Fr_free_ups_cxl_host_lid_pwr_rst_fw {m : Nat} {o s : State} {x_free} {x_ups} {x_cxl} {x_host} {x_lid} {x_pwr} {x_rst} {x_fw} (hm : 489161220 ||| m = m) (h : Fr m o s) : FrM m o s.variant s.straps s.pending x_free s.out s.latch s.rsvdAcc s.rnd s.bud s.cells x_ups s.crs s.weav s.stakes s.mem s.msd s.train s.ports s.txHeld x_cxl s.hoop x_host s.mb s.ctxs x_lid s.flt x_pwr x_rst x_fw := by
  refine ⟨fun p hp => ?_⟩
  cases p with
  | variant => exact h.same .variant hp
  | pending => exact h.same .pending hp
  | free => exact (bitIn (i := 2) hm (by decide) hp).elim
  | out => exact h.same .out hp
  | latch => exact h.same .latch hp
  | rsvdAcc => exact h.same .rsvdAcc hp
  | rnd => exact h.same .rnd hp
  | bud => exact h.same .bud hp
  | cells => exact h.same .cells hp
  | ups => exact (bitIn (i := 9) hm (by decide) hp).elim
  | crs => exact h.same .crs hp
  | weav => exact h.same .weav hp
  | stakes => exact h.same .stakes hp
  | hbm => exact h.same .hbm hp
  | slow => exact h.same .slow hp
  | tables => exact h.same .tables hp
  | msd => exact h.same .msd hp
  | train => exact h.same .train hp
  | ports => exact h.same .ports hp
  | cxl => exact (bitIn (i := 19) hm (by decide) hp).elim
  | hoop => exact h.same .hoop hp
  | host => exact (bitIn (i := 21) hm (by decide) hp).elim
  | mb => exact h.same .mb hp
  | ctxs => exact h.same .ctxs hp
  | lid => exact (bitIn (i := 24) hm (by decide) hp).elim
  | flt => exact h.same .flt hp
  | pwr => exact (bitIn (i := 26) hm (by decide) hp).elim
  | rst => exact (bitIn (i := 27) hm (by decide) hp).elim
  | fw => exact (bitIn (i := 28) hm (by decide) hp).elim
  | straps => exact h.same .straps hp
  | txHeld => exact h.same .txHeld hp

theorem Fr_fw {m : Nat} {o s : State} {x_fw} (hm : 268435456 ||| m = m) (h : Fr m o s) : FrM m o s.variant s.straps s.pending s.free s.out s.latch s.rsvdAcc s.rnd s.bud s.cells s.ups s.crs s.weav s.stakes s.mem s.msd s.train s.ports s.txHeld s.cxl s.hoop s.host s.mb s.ctxs s.lid s.flt s.pwr s.rst x_fw := by
  refine ⟨fun p hp => ?_⟩
  cases p with
  | variant => exact h.same .variant hp
  | pending => exact h.same .pending hp
  | free => exact h.same .free hp
  | out => exact h.same .out hp
  | latch => exact h.same .latch hp
  | rsvdAcc => exact h.same .rsvdAcc hp
  | rnd => exact h.same .rnd hp
  | bud => exact h.same .bud hp
  | cells => exact h.same .cells hp
  | ups => exact h.same .ups hp
  | crs => exact h.same .crs hp
  | weav => exact h.same .weav hp
  | stakes => exact h.same .stakes hp
  | hbm => exact h.same .hbm hp
  | slow => exact h.same .slow hp
  | tables => exact h.same .tables hp
  | msd => exact h.same .msd hp
  | train => exact h.same .train hp
  | ports => exact h.same .ports hp
  | cxl => exact h.same .cxl hp
  | hoop => exact h.same .hoop hp
  | host => exact h.same .host hp
  | mb => exact h.same .mb hp
  | ctxs => exact h.same .ctxs hp
  | lid => exact h.same .lid hp
  | flt => exact h.same .flt hp
  | pwr => exact h.same .pwr hp
  | rst => exact h.same .rst hp
  | fw => exact (bitIn (i := 28) hm (by decide) hp).elim
  | straps => exact h.same .straps hp
  | txHeld => exact h.same .txHeld hp

theorem Fr_hbm {m : Nat} {o s : State} {x_mem} (hm : 8192 ||| m = m) (h : Fr m o s) (e1 : x_mem.slow = s.mem.slow) (e2 : memTables x_mem = memTables s.mem) : FrM m o s.variant s.straps s.pending s.free s.out s.latch s.rsvdAcc s.rnd s.bud s.cells s.ups s.crs s.weav s.stakes x_mem s.msd s.train s.ports s.txHeld s.cxl s.hoop s.host s.mb s.ctxs s.lid s.flt s.pwr s.rst s.fw := by
  refine ⟨fun p hp => ?_⟩
  cases p with
  | variant => exact h.same .variant hp
  | pending => exact h.same .pending hp
  | free => exact h.same .free hp
  | out => exact h.same .out hp
  | latch => exact h.same .latch hp
  | rsvdAcc => exact h.same .rsvdAcc hp
  | rnd => exact h.same .rnd hp
  | bud => exact h.same .bud hp
  | cells => exact h.same .cells hp
  | ups => exact h.same .ups hp
  | crs => exact h.same .crs hp
  | weav => exact h.same .weav hp
  | stakes => exact h.same .stakes hp
  | hbm => exact (bitIn (i := 13) hm (by decide) hp).elim
  | slow => exact e1.trans (h.same .slow hp)
  | tables => exact e2.trans (h.same .tables hp)
  | msd => exact h.same .msd hp
  | train => exact h.same .train hp
  | ports => exact h.same .ports hp
  | cxl => exact h.same .cxl hp
  | hoop => exact h.same .hoop hp
  | host => exact h.same .host hp
  | mb => exact h.same .mb hp
  | ctxs => exact h.same .ctxs hp
  | lid => exact h.same .lid hp
  | flt => exact h.same .flt hp
  | pwr => exact h.same .pwr hp
  | rst => exact h.same .rst hp
  | fw => exact h.same .fw hp
  | straps => exact h.same .straps hp
  | txHeld => exact h.same .txHeld hp

theorem Fr_hbm_tables {m : Nat} {o s : State} {x_mem} (hm : 40960 ||| m = m) (h : Fr m o s) (e1 : x_mem.slow = s.mem.slow) : FrM m o s.variant s.straps s.pending s.free s.out s.latch s.rsvdAcc s.rnd s.bud s.cells s.ups s.crs s.weav s.stakes x_mem s.msd s.train s.ports s.txHeld s.cxl s.hoop s.host s.mb s.ctxs s.lid s.flt s.pwr s.rst s.fw := by
  refine ⟨fun p hp => ?_⟩
  cases p with
  | variant => exact h.same .variant hp
  | pending => exact h.same .pending hp
  | free => exact h.same .free hp
  | out => exact h.same .out hp
  | latch => exact h.same .latch hp
  | rsvdAcc => exact h.same .rsvdAcc hp
  | rnd => exact h.same .rnd hp
  | bud => exact h.same .bud hp
  | cells => exact h.same .cells hp
  | ups => exact h.same .ups hp
  | crs => exact h.same .crs hp
  | weav => exact h.same .weav hp
  | stakes => exact h.same .stakes hp
  | hbm => exact (bitIn (i := 13) hm (by decide) hp).elim
  | slow => exact e1.trans (h.same .slow hp)
  | tables => exact (bitIn (i := 15) hm (by decide) hp).elim
  | msd => exact h.same .msd hp
  | train => exact h.same .train hp
  | ports => exact h.same .ports hp
  | cxl => exact h.same .cxl hp
  | hoop => exact h.same .hoop hp
  | host => exact h.same .host hp
  | mb => exact h.same .mb hp
  | ctxs => exact h.same .ctxs hp
  | lid => exact h.same .lid hp
  | flt => exact h.same .flt hp
  | pwr => exact h.same .pwr hp
  | rst => exact h.same .rst hp
  | fw => exact h.same .fw hp
  | straps => exact h.same .straps hp
  | txHeld => exact h.same .txHeld hp

theorem Fr_hoop {m : Nat} {o s : State} {x_hoop} (hm : 1048576 ||| m = m) (h : Fr m o s) : FrM m o s.variant s.straps s.pending s.free s.out s.latch s.rsvdAcc s.rnd s.bud s.cells s.ups s.crs s.weav s.stakes s.mem s.msd s.train s.ports s.txHeld s.cxl x_hoop s.host s.mb s.ctxs s.lid s.flt s.pwr s.rst s.fw := by
  refine ⟨fun p hp => ?_⟩
  cases p with
  | variant => exact h.same .variant hp
  | pending => exact h.same .pending hp
  | free => exact h.same .free hp
  | out => exact h.same .out hp
  | latch => exact h.same .latch hp
  | rsvdAcc => exact h.same .rsvdAcc hp
  | rnd => exact h.same .rnd hp
  | bud => exact h.same .bud hp
  | cells => exact h.same .cells hp
  | ups => exact h.same .ups hp
  | crs => exact h.same .crs hp
  | weav => exact h.same .weav hp
  | stakes => exact h.same .stakes hp
  | hbm => exact h.same .hbm hp
  | slow => exact h.same .slow hp
  | tables => exact h.same .tables hp
  | msd => exact h.same .msd hp
  | train => exact h.same .train hp
  | ports => exact h.same .ports hp
  | cxl => exact h.same .cxl hp
  | hoop => exact (bitIn (i := 20) hm (by decide) hp).elim
  | host => exact h.same .host hp
  | mb => exact h.same .mb hp
  | ctxs => exact h.same .ctxs hp
  | lid => exact h.same .lid hp
  | flt => exact h.same .flt hp
  | pwr => exact h.same .pwr hp
  | rst => exact h.same .rst hp
  | fw => exact h.same .fw hp
  | straps => exact h.same .straps hp
  | txHeld => exact h.same .txHeld hp

theorem Fr_host {m : Nat} {o s : State} {x_host} (hm : 2097152 ||| m = m) (h : Fr m o s) : FrM m o s.variant s.straps s.pending s.free s.out s.latch s.rsvdAcc s.rnd s.bud s.cells s.ups s.crs s.weav s.stakes s.mem s.msd s.train s.ports s.txHeld s.cxl s.hoop x_host s.mb s.ctxs s.lid s.flt s.pwr s.rst s.fw := by
  refine ⟨fun p hp => ?_⟩
  cases p with
  | variant => exact h.same .variant hp
  | pending => exact h.same .pending hp
  | free => exact h.same .free hp
  | out => exact h.same .out hp
  | latch => exact h.same .latch hp
  | rsvdAcc => exact h.same .rsvdAcc hp
  | rnd => exact h.same .rnd hp
  | bud => exact h.same .bud hp
  | cells => exact h.same .cells hp
  | ups => exact h.same .ups hp
  | crs => exact h.same .crs hp
  | weav => exact h.same .weav hp
  | stakes => exact h.same .stakes hp
  | hbm => exact h.same .hbm hp
  | slow => exact h.same .slow hp
  | tables => exact h.same .tables hp
  | msd => exact h.same .msd hp
  | train => exact h.same .train hp
  | ports => exact h.same .ports hp
  | cxl => exact h.same .cxl hp
  | hoop => exact h.same .hoop hp
  | host => exact (bitIn (i := 21) hm (by decide) hp).elim
  | mb => exact h.same .mb hp
  | ctxs => exact h.same .ctxs hp
  | lid => exact h.same .lid hp
  | flt => exact h.same .flt hp
  | pwr => exact h.same .pwr hp
  | rst => exact h.same .rst hp
  | fw => exact h.same .fw hp
  | straps => exact h.same .straps hp
  | txHeld => exact h.same .txHeld hp

theorem Fr_host_rst {m : Nat} {o s : State} {x_host} {x_rst} (hm : 136314880 ||| m = m) (h : Fr m o s) : FrM m o s.variant s.straps s.pending s.free s.out s.latch s.rsvdAcc s.rnd s.bud s.cells s.ups s.crs s.weav s.stakes s.mem s.msd s.train s.ports s.txHeld s.cxl s.hoop x_host s.mb s.ctxs s.lid s.flt s.pwr x_rst s.fw := by
  refine ⟨fun p hp => ?_⟩
  cases p with
  | variant => exact h.same .variant hp
  | pending => exact h.same .pending hp
  | free => exact h.same .free hp
  | out => exact h.same .out hp
  | latch => exact h.same .latch hp
  | rsvdAcc => exact h.same .rsvdAcc hp
  | rnd => exact h.same .rnd hp
  | bud => exact h.same .bud hp
  | cells => exact h.same .cells hp
  | ups => exact h.same .ups hp
  | crs => exact h.same .crs hp
  | weav => exact h.same .weav hp
  | stakes => exact h.same .stakes hp
  | hbm => exact h.same .hbm hp
  | slow => exact h.same .slow hp
  | tables => exact h.same .tables hp
  | msd => exact h.same .msd hp
  | train => exact h.same .train hp
  | ports => exact h.same .ports hp
  | cxl => exact h.same .cxl hp
  | hoop => exact h.same .hoop hp
  | host => exact (bitIn (i := 21) hm (by decide) hp).elim
  | mb => exact h.same .mb hp
  | ctxs => exact h.same .ctxs hp
  | lid => exact h.same .lid hp
  | flt => exact h.same .flt hp
  | pwr => exact h.same .pwr hp
  | rst => exact (bitIn (i := 27) hm (by decide) hp).elim
  | fw => exact h.same .fw hp
  | straps => exact h.same .straps hp
  | txHeld => exact h.same .txHeld hp

theorem Fr_latch {m : Nat} {o s : State} {x_latch} (hm : 16 ||| m = m) (h : Fr m o s) : FrM m o s.variant s.straps s.pending s.free s.out x_latch s.rsvdAcc s.rnd s.bud s.cells s.ups s.crs s.weav s.stakes s.mem s.msd s.train s.ports s.txHeld s.cxl s.hoop s.host s.mb s.ctxs s.lid s.flt s.pwr s.rst s.fw := by
  refine ⟨fun p hp => ?_⟩
  cases p with
  | variant => exact h.same .variant hp
  | pending => exact h.same .pending hp
  | free => exact h.same .free hp
  | out => exact h.same .out hp
  | latch => exact (bitIn (i := 4) hm (by decide) hp).elim
  | rsvdAcc => exact h.same .rsvdAcc hp
  | rnd => exact h.same .rnd hp
  | bud => exact h.same .bud hp
  | cells => exact h.same .cells hp
  | ups => exact h.same .ups hp
  | crs => exact h.same .crs hp
  | weav => exact h.same .weav hp
  | stakes => exact h.same .stakes hp
  | hbm => exact h.same .hbm hp
  | slow => exact h.same .slow hp
  | tables => exact h.same .tables hp
  | msd => exact h.same .msd hp
  | train => exact h.same .train hp
  | ports => exact h.same .ports hp
  | cxl => exact h.same .cxl hp
  | hoop => exact h.same .hoop hp
  | host => exact h.same .host hp
  | mb => exact h.same .mb hp
  | ctxs => exact h.same .ctxs hp
  | lid => exact h.same .lid hp
  | flt => exact h.same .flt hp
  | pwr => exact h.same .pwr hp
  | rst => exact h.same .rst hp
  | fw => exact h.same .fw hp
  | straps => exact h.same .straps hp
  | txHeld => exact h.same .txHeld hp

theorem Fr_latch_rsvdAcc_rnd_bud_cells_ups_crs_weav_hbm_slow_tables_msd_train_ports_txHeld_cxl_hoop_host_mb_lid_flt_pwr_fw {m : Nat} {o s : State} {x_latch} {x_rsvdAcc} {x_rnd} {x_bud} {x_cells} {x_ups} {x_crs} {x_weav} {x_mem} {x_msd} {x_train} {x_ports} {x_txHeld} {x_cxl} {x_hoop} {x_host} {x_mb} {x_lid} {x_flt} {x_pwr} {x_fw} (hm : 1468002288 ||| m = m) (h : Fr m o s) : FrM m o s.variant s.straps s.pending s.free s.out x_latch x_rsvdAcc x_rnd x_bud x_cells x_ups x_crs x_weav s.stakes x_mem x_msd x_train x_ports x_txHeld x_cxl x_hoop x_host x_mb s.ctxs x_lid x_flt x_pwr s.rst x_fw := by
  refine ⟨fun p hp => ?_⟩
  cases p with
  | variant => exact h.same .variant hp
  | pending => exact h.same .pending hp
  | free => exact h.same .free hp
  | out => exact h.same .out hp
  | latch => exact (bitIn (i := 4) hm (by decide) hp).elim
  | rsvdAcc => exact (bitIn (i := 5) hm (by decide) hp).elim
  | rnd => exact (bitIn (i := 6) hm (by decide) hp).elim
  | bud => exact (bitIn (i := 7) hm (by decide) hp).elim
  | cells => exact (bitIn (i := 8) hm (by decide) hp).elim
  | ups => exact (bitIn (i := 9) hm (by decide) hp).elim
  | crs => exact (bitIn (i := 10) hm (by decide) hp).elim
  | weav => exact (bitIn (i := 11) hm (by decide) hp).elim
  | stakes => exact h.same .stakes hp
  | hbm => exact (bitIn (i := 13) hm (by decide) hp).elim
  | slow => exact (bitIn (i := 14) hm (by decide) hp).elim
  | tables => exact (bitIn (i := 15) hm (by decide) hp).elim
  | msd => exact (bitIn (i := 16) hm (by decide) hp).elim
  | train => exact (bitIn (i := 17) hm (by decide) hp).elim
  | ports => exact (bitIn (i := 18) hm (by decide) hp).elim
  | cxl => exact (bitIn (i := 19) hm (by decide) hp).elim
  | hoop => exact (bitIn (i := 20) hm (by decide) hp).elim
  | host => exact (bitIn (i := 21) hm (by decide) hp).elim
  | mb => exact (bitIn (i := 22) hm (by decide) hp).elim
  | ctxs => exact h.same .ctxs hp
  | lid => exact (bitIn (i := 24) hm (by decide) hp).elim
  | flt => exact (bitIn (i := 25) hm (by decide) hp).elim
  | pwr => exact (bitIn (i := 26) hm (by decide) hp).elim
  | rst => exact h.same .rst hp
  | fw => exact (bitIn (i := 28) hm (by decide) hp).elim
  | straps => exact h.same .straps hp
  | txHeld => exact (bitIn (i := 30) hm (by decide) hp).elim

theorem Fr_lid {m : Nat} {o s : State} {x_lid} (hm : 16777216 ||| m = m) (h : Fr m o s) : FrM m o s.variant s.straps s.pending s.free s.out s.latch s.rsvdAcc s.rnd s.bud s.cells s.ups s.crs s.weav s.stakes s.mem s.msd s.train s.ports s.txHeld s.cxl s.hoop s.host s.mb s.ctxs x_lid s.flt s.pwr s.rst s.fw := by
  refine ⟨fun p hp => ?_⟩
  cases p with
  | variant => exact h.same .variant hp
  | pending => exact h.same .pending hp
  | free => exact h.same .free hp
  | out => exact h.same .out hp
  | latch => exact h.same .latch hp
  | rsvdAcc => exact h.same .rsvdAcc hp
  | rnd => exact h.same .rnd hp
  | bud => exact h.same .bud hp
  | cells => exact h.same .cells hp
  | ups => exact h.same .ups hp
  | crs => exact h.same .crs hp
  | weav => exact h.same .weav hp
  | stakes => exact h.same .stakes hp
  | hbm => exact h.same .hbm hp
  | slow => exact h.same .slow hp
  | tables => exact h.same .tables hp
  | msd => exact h.same .msd hp
  | train => exact h.same .train hp
  | ports => exact h.same .ports hp
  | cxl => exact h.same .cxl hp
  | hoop => exact h.same .hoop hp
  | host => exact h.same .host hp
  | mb => exact h.same .mb hp
  | ctxs => exact h.same .ctxs hp
  | lid => exact (bitIn (i := 24) hm (by decide) hp).elim
  | flt => exact h.same .flt hp
  | pwr => exact h.same .pwr hp
  | rst => exact h.same .rst hp
  | fw => exact h.same .fw hp
  | straps => exact h.same .straps hp
  | txHeld => exact h.same .txHeld hp

theorem Fr_lid_pwr {m : Nat} {o s : State} {x_lid} {x_pwr} (hm : 83886080 ||| m = m) (h : Fr m o s) : FrM m o s.variant s.straps s.pending s.free s.out s.latch s.rsvdAcc s.rnd s.bud s.cells s.ups s.crs s.weav s.stakes s.mem s.msd s.train s.ports s.txHeld s.cxl s.hoop s.host s.mb s.ctxs x_lid s.flt x_pwr s.rst s.fw := by
  refine ⟨fun p hp => ?_⟩
  cases p with
  | variant => exact h.same .variant hp
  | pending => exact h.same .pending hp
  | free => exact h.same .free hp
  | out => exact h.same .out hp
  | latch => exact h.same .latch hp
  | rsvdAcc => exact h.same .rsvdAcc hp
  | rnd => exact h.same .rnd hp
  | bud => exact h.same .bud hp
  | cells => exact h.same .cells hp
  | ups => exact h.same .ups hp
  | crs => exact h.same .crs hp
  | weav => exact h.same .weav hp
  | stakes => exact h.same .stakes hp
  | hbm => exact h.same .hbm hp
  | slow => exact h.same .slow hp
  | tables => exact h.same .tables hp
  | msd => exact h.same .msd hp
  | train => exact h.same .train hp
  | ports => exact h.same .ports hp
  | cxl => exact h.same .cxl hp
  | hoop => exact h.same .hoop hp
  | host => exact h.same .host hp
  | mb => exact h.same .mb hp
  | ctxs => exact h.same .ctxs hp
  | lid => exact (bitIn (i := 24) hm (by decide) hp).elim
  | flt => exact h.same .flt hp
  | pwr => exact (bitIn (i := 26) hm (by decide) hp).elim
  | rst => exact h.same .rst hp
  | fw => exact h.same .fw hp
  | straps => exact h.same .straps hp
  | txHeld => exact h.same .txHeld hp

theorem Fr_mb {m : Nat} {o s : State} {x_mb} (hm : 4194304 ||| m = m) (h : Fr m o s) : FrM m o s.variant s.straps s.pending s.free s.out s.latch s.rsvdAcc s.rnd s.bud s.cells s.ups s.crs s.weav s.stakes s.mem s.msd s.train s.ports s.txHeld s.cxl s.hoop s.host x_mb s.ctxs s.lid s.flt s.pwr s.rst s.fw := by
  refine ⟨fun p hp => ?_⟩
  cases p with
  | variant => exact h.same .variant hp
  | pending => exact h.same .pending hp
  | free => exact h.same .free hp
  | out => exact h.same .out hp
  | latch => exact h.same .latch hp
  | rsvdAcc => exact h.same .rsvdAcc hp
  | rnd => exact h.same .rnd hp
  | bud => exact h.same .bud hp
  | cells => exact h.same .cells hp
  | ups => exact h.same .ups hp
  | crs => exact h.same .crs hp
  | weav => exact h.same .weav hp
  | stakes => exact h.same .stakes hp
  | hbm => exact h.same .hbm hp
  | slow => exact h.same .slow hp
  | tables => exact h.same .tables hp
  | msd => exact h.same .msd hp
  | train => exact h.same .train hp
  | ports => exact h.same .ports hp
  | cxl => exact h.same .cxl hp
  | hoop => exact h.same .hoop hp
  | host => exact h.same .host hp
  | mb => exact (bitIn (i := 22) hm (by decide) hp).elim
  | ctxs => exact h.same .ctxs hp
  | lid => exact h.same .lid hp
  | flt => exact h.same .flt hp
  | pwr => exact h.same .pwr hp
  | rst => exact h.same .rst hp
  | fw => exact h.same .fw hp
  | straps => exact h.same .straps hp
  | txHeld => exact h.same .txHeld hp

theorem Fr_msd {m : Nat} {o s : State} {x_msd} (hm : 65536 ||| m = m) (h : Fr m o s) : FrM m o s.variant s.straps s.pending s.free s.out s.latch s.rsvdAcc s.rnd s.bud s.cells s.ups s.crs s.weav s.stakes s.mem x_msd s.train s.ports s.txHeld s.cxl s.hoop s.host s.mb s.ctxs s.lid s.flt s.pwr s.rst s.fw := by
  refine ⟨fun p hp => ?_⟩
  cases p with
  | variant => exact h.same .variant hp
  | pending => exact h.same .pending hp
  | free => exact h.same .free hp
  | out => exact h.same .out hp
  | latch => exact h.same .latch hp
  | rsvdAcc => exact h.same .rsvdAcc hp
  | rnd => exact h.same .rnd hp
  | bud => exact h.same .bud hp
  | cells => exact h.same .cells hp
  | ups => exact h.same .ups hp
  | crs => exact h.same .crs hp
  | weav => exact h.same .weav hp
  | stakes => exact h.same .stakes hp
  | hbm => exact h.same .hbm hp
  | slow => exact h.same .slow hp
  | tables => exact h.same .tables hp
  | msd => exact (bitIn (i := 16) hm (by decide) hp).elim
  | train => exact h.same .train hp
  | ports => exact h.same .ports hp
  | cxl => exact h.same .cxl hp
  | hoop => exact h.same .hoop hp
  | host => exact h.same .host hp
  | mb => exact h.same .mb hp
  | ctxs => exact h.same .ctxs hp
  | lid => exact h.same .lid hp
  | flt => exact h.same .flt hp
  | pwr => exact h.same .pwr hp
  | rst => exact h.same .rst hp
  | fw => exact h.same .fw hp
  | straps => exact h.same .straps hp
  | txHeld => exact h.same .txHeld hp

theorem Fr_out {m : Nat} {o s : State} {x_out} (hm : 8 ||| m = m) (h : Fr m o s) : FrM m o s.variant s.straps s.pending s.free x_out s.latch s.rsvdAcc s.rnd s.bud s.cells s.ups s.crs s.weav s.stakes s.mem s.msd s.train s.ports s.txHeld s.cxl s.hoop s.host s.mb s.ctxs s.lid s.flt s.pwr s.rst s.fw := by
  refine ⟨fun p hp => ?_⟩
  cases p with
  | variant => exact h.same .variant hp
  | pending => exact h.same .pending hp
  | free => exact h.same .free hp
  | out => exact (bitIn (i := 3) hm (by decide) hp).elim
  | latch => exact h.same .latch hp
  | rsvdAcc => exact h.same .rsvdAcc hp
  | rnd => exact h.same .rnd hp
  | bud => exact h.same .bud hp
  | cells => exact h.same .cells hp
  | ups => exact h.same .ups hp
  | crs => exact h.same .crs hp
  | weav => exact h.same .weav hp
  | stakes => exact h.same .stakes hp
  | hbm => exact h.same .hbm hp
  | slow => exact h.same .slow hp
  | tables => exact h.same .tables hp
  | msd => exact h.same .msd hp
  | train => exact h.same .train hp
  | ports => exact h.same .ports hp
  | cxl => exact h.same .cxl hp
  | hoop => exact h.same .hoop hp
  | host => exact h.same .host hp
  | mb => exact h.same .mb hp
  | ctxs => exact h.same .ctxs hp
  | lid => exact h.same .lid hp
  | flt => exact h.same .flt hp
  | pwr => exact h.same .pwr hp
  | rst => exact h.same .rst hp
  | fw => exact h.same .fw hp
  | straps => exact h.same .straps hp
  | txHeld => exact h.same .txHeld hp

theorem Fr_pending {m : Nat} {o s : State} {x_pending} (hm : 2 ||| m = m) (h : Fr m o s) : FrM m o s.variant s.straps x_pending s.free s.out s.latch s.rsvdAcc s.rnd s.bud s.cells s.ups s.crs s.weav s.stakes s.mem s.msd s.train s.ports s.txHeld s.cxl s.hoop s.host s.mb s.ctxs s.lid s.flt s.pwr s.rst s.fw := by
  refine ⟨fun p hp => ?_⟩
  cases p with
  | variant => exact h.same .variant hp
  | pending => exact (bitIn (i := 1) hm (by decide) hp).elim
  | free => exact h.same .free hp
  | out => exact h.same .out hp
  | latch => exact h.same .latch hp
  | rsvdAcc => exact h.same .rsvdAcc hp
  | rnd => exact h.same .rnd hp
  | bud => exact h.same .bud hp
  | cells => exact h.same .cells hp
  | ups => exact h.same .ups hp
  | crs => exact h.same .crs hp
  | weav => exact h.same .weav hp
  | stakes => exact h.same .stakes hp
  | hbm => exact h.same .hbm hp
  | slow => exact h.same .slow hp
  | tables => exact h.same .tables hp
  | msd => exact h.same .msd hp
  | train => exact h.same .train hp
  | ports => exact h.same .ports hp
  | cxl => exact h.same .cxl hp
  | hoop => exact h.same .hoop hp
  | host => exact h.same .host hp
  | mb => exact h.same .mb hp
  | ctxs => exact h.same .ctxs hp
  | lid => exact h.same .lid hp
  | flt => exact h.same .flt hp
  | pwr => exact h.same .pwr hp
  | rst => exact h.same .rst hp
  | fw => exact h.same .fw hp
  | straps => exact h.same .straps hp
  | txHeld => exact h.same .txHeld hp

theorem Fr_ports {m : Nat} {o s : State} {x_ports} (hm : 262144 ||| m = m) (h : Fr m o s) : FrM m o s.variant s.straps s.pending s.free s.out s.latch s.rsvdAcc s.rnd s.bud s.cells s.ups s.crs s.weav s.stakes s.mem s.msd s.train x_ports s.txHeld s.cxl s.hoop s.host s.mb s.ctxs s.lid s.flt s.pwr s.rst s.fw := by
  refine ⟨fun p hp => ?_⟩
  cases p with
  | variant => exact h.same .variant hp
  | pending => exact h.same .pending hp
  | free => exact h.same .free hp
  | out => exact h.same .out hp
  | latch => exact h.same .latch hp
  | rsvdAcc => exact h.same .rsvdAcc hp
  | rnd => exact h.same .rnd hp
  | bud => exact h.same .bud hp
  | cells => exact h.same .cells hp
  | ups => exact h.same .ups hp
  | crs => exact h.same .crs hp
  | weav => exact h.same .weav hp
  | stakes => exact h.same .stakes hp
  | hbm => exact h.same .hbm hp
  | slow => exact h.same .slow hp
  | tables => exact h.same .tables hp
  | msd => exact h.same .msd hp
  | train => exact h.same .train hp
  | ports => exact (bitIn (i := 18) hm (by decide) hp).elim
  | cxl => exact h.same .cxl hp
  | hoop => exact h.same .hoop hp
  | host => exact h.same .host hp
  | mb => exact h.same .mb hp
  | ctxs => exact h.same .ctxs hp
  | lid => exact h.same .lid hp
  | flt => exact h.same .flt hp
  | pwr => exact h.same .pwr hp
  | rst => exact h.same .rst hp
  | fw => exact h.same .fw hp
  | straps => exact h.same .straps hp
  | txHeld => exact h.same .txHeld hp

theorem Fr_pwr {m : Nat} {o s : State} {x_pwr} (hm : 67108864 ||| m = m) (h : Fr m o s) : FrM m o s.variant s.straps s.pending s.free s.out s.latch s.rsvdAcc s.rnd s.bud s.cells s.ups s.crs s.weav s.stakes s.mem s.msd s.train s.ports s.txHeld s.cxl s.hoop s.host s.mb s.ctxs s.lid s.flt x_pwr s.rst s.fw := by
  refine ⟨fun p hp => ?_⟩
  cases p with
  | variant => exact h.same .variant hp
  | pending => exact h.same .pending hp
  | free => exact h.same .free hp
  | out => exact h.same .out hp
  | latch => exact h.same .latch hp
  | rsvdAcc => exact h.same .rsvdAcc hp
  | rnd => exact h.same .rnd hp
  | bud => exact h.same .bud hp
  | cells => exact h.same .cells hp
  | ups => exact h.same .ups hp
  | crs => exact h.same .crs hp
  | weav => exact h.same .weav hp
  | stakes => exact h.same .stakes hp
  | hbm => exact h.same .hbm hp
  | slow => exact h.same .slow hp
  | tables => exact h.same .tables hp
  | msd => exact h.same .msd hp
  | train => exact h.same .train hp
  | ports => exact h.same .ports hp
  | cxl => exact h.same .cxl hp
  | hoop => exact h.same .hoop hp
  | host => exact h.same .host hp
  | mb => exact h.same .mb hp
  | ctxs => exact h.same .ctxs hp
  | lid => exact h.same .lid hp
  | flt => exact h.same .flt hp
  | pwr => exact (bitIn (i := 26) hm (by decide) hp).elim
  | rst => exact h.same .rst hp
  | fw => exact h.same .fw hp
  | straps => exact h.same .straps hp
  | txHeld => exact h.same .txHeld hp

theorem Fr_rnd {m : Nat} {o s : State} {x_rnd} (hm : 64 ||| m = m) (h : Fr m o s) : FrM m o s.variant s.straps s.pending s.free s.out s.latch s.rsvdAcc x_rnd s.bud s.cells s.ups s.crs s.weav s.stakes s.mem s.msd s.train s.ports s.txHeld s.cxl s.hoop s.host s.mb s.ctxs s.lid s.flt s.pwr s.rst s.fw := by
  refine ⟨fun p hp => ?_⟩
  cases p with
  | variant => exact h.same .variant hp
  | pending => exact h.same .pending hp
  | free => exact h.same .free hp
  | out => exact h.same .out hp
  | latch => exact h.same .latch hp
  | rsvdAcc => exact h.same .rsvdAcc hp
  | rnd => exact (bitIn (i := 6) hm (by decide) hp).elim
  | bud => exact h.same .bud hp
  | cells => exact h.same .cells hp
  | ups => exact h.same .ups hp
  | crs => exact h.same .crs hp
  | weav => exact h.same .weav hp
  | stakes => exact h.same .stakes hp
  | hbm => exact h.same .hbm hp
  | slow => exact h.same .slow hp
  | tables => exact h.same .tables hp
  | msd => exact h.same .msd hp
  | train => exact h.same .train hp
  | ports => exact h.same .ports hp
  | cxl => exact h.same .cxl hp
  | hoop => exact h.same .hoop hp
  | host => exact h.same .host hp
  | mb => exact h.same .mb hp
  | ctxs => exact h.same .ctxs hp
  | lid => exact h.same .lid hp
  | flt => exact h.same .flt hp
  | pwr => exact h.same .pwr hp
  | rst => exact h.same .rst hp
  | fw => exact h.same .fw hp
  | straps => exact h.same .straps hp
  | txHeld => exact h.same .txHeld hp

theorem Fr_rnd_bud {m : Nat} {o s : State} {x_rnd} {x_bud} (hm : 192 ||| m = m) (h : Fr m o s) : FrM m o s.variant s.straps s.pending s.free s.out s.latch s.rsvdAcc x_rnd x_bud s.cells s.ups s.crs s.weav s.stakes s.mem s.msd s.train s.ports s.txHeld s.cxl s.hoop s.host s.mb s.ctxs s.lid s.flt s.pwr s.rst s.fw := by
  refine ⟨fun p hp => ?_⟩
  cases p with
  | variant => exact h.same .variant hp
  | pending => exact h.same .pending hp
  | free => exact h.same .free hp
  | out => exact h.same .out hp
  | latch => exact h.same .latch hp
  | rsvdAcc => exact h.same .rsvdAcc hp
  | rnd => exact (bitIn (i := 6) hm (by decide) hp).elim
  | bud => exact (bitIn (i := 7) hm (by decide) hp).elim
  | cells => exact h.same .cells hp
  | ups => exact h.same .ups hp
  | crs => exact h.same .crs hp
  | weav => exact h.same .weav hp
  | stakes => exact h.same .stakes hp
  | hbm => exact h.same .hbm hp
  | slow => exact h.same .slow hp
  | tables => exact h.same .tables hp
  | msd => exact h.same .msd hp
  | train => exact h.same .train hp
  | ports => exact h.same .ports hp
  | cxl => exact h.same .cxl hp
  | hoop => exact h.same .hoop hp
  | host => exact h.same .host hp
  | mb => exact h.same .mb hp
  | ctxs => exact h.same .ctxs hp
  | lid => exact h.same .lid hp
  | flt => exact h.same .flt hp
  | pwr => exact h.same .pwr hp
  | rst => exact h.same .rst hp
  | fw => exact h.same .fw hp
  | straps => exact h.same .straps hp
  | txHeld => exact h.same .txHeld hp

theorem Fr_rnd_hoop {m : Nat} {o s : State} {x_rnd} {x_hoop} (hm : 1048640 ||| m = m) (h : Fr m o s) : FrM m o s.variant s.straps s.pending s.free s.out s.latch s.rsvdAcc x_rnd s.bud s.cells s.ups s.crs s.weav s.stakes s.mem s.msd s.train s.ports s.txHeld s.cxl x_hoop s.host s.mb s.ctxs s.lid s.flt s.pwr s.rst s.fw := by
  refine ⟨fun p hp => ?_⟩
  cases p with
  | variant => exact h.same .variant hp
  | pending => exact h.same .pending hp
  | free => exact h.same .free hp
  | out => exact h.same .out hp
  | latch => exact h.same .latch hp
  | rsvdAcc => exact h.same .rsvdAcc hp
  | rnd => exact (bitIn (i := 6) hm (by decide) hp).elim
  | bud => exact h.same .bud hp
  | cells => exact h.same .cells hp
  | ups => exact h.same .ups hp
  | crs => exact h.same .crs hp
  | weav => exact h.same .weav hp
  | stakes => exact h.same .stakes hp
  | hbm => exact h.same .hbm hp
  | slow => exact h.same .slow hp
  | tables => exact h.same .tables hp
  | msd => exact h.same .msd hp
  | train => exact h.same .train hp
  | ports => exact h.same .ports hp
  | cxl => exact h.same .cxl hp
  | hoop => exact (bitIn (i := 20) hm (by decide) hp).elim
  | host => exact h.same .host hp
  | mb => exact h.same .mb hp
  | ctxs => exact h.same .ctxs hp
  | lid => exact h.same .lid hp
  | flt => exact h.same .flt hp
  | pwr => exact h.same .pwr hp
  | rst => exact h.same .rst hp
  | fw => exact h.same .fw hp
  | straps => exact h.same .straps hp
  | txHeld => exact h.same .txHeld hp

theorem Fr_rnd_hoop_host_flt {m : Nat} {o s : State} {x_rnd} {x_hoop} {x_host} {x_flt} (hm : 36700224 ||| m = m) (h : Fr m o s) : FrM m o s.variant s.straps s.pending s.free s.out s.latch s.rsvdAcc x_rnd s.bud s.cells s.ups s.crs s.weav s.stakes s.mem s.msd s.train s.ports s.txHeld s.cxl x_hoop x_host s.mb s.ctxs s.lid x_flt s.pwr s.rst s.fw := by
  refine ⟨fun p hp => ?_⟩
  cases p with
  | variant => exact h.same .variant hp
  | pending => exact h.same .pending hp
  | free => exact h.same .free hp
  | out => exact h.same .out hp
  | latch => exact h.same .latch hp
  | rsvdAcc => exact h.same .rsvdAcc hp
  | rnd => exact (bitIn (i := 6) hm (by decide) hp).elim
  | bud => exact h.same .bud hp
  | cells => exact h.same .cells hp
  | ups => exact h.same .ups hp
  | crs => exact h.same .crs hp
  | weav => exact h.same .weav hp
  | stakes => exact h.same .stakes hp
  | hbm => exact h.same .hbm hp
  | slow => exact h.same .slow hp
  | tables => exact h.same .tables hp
  | msd => exact h.same .msd hp
  | train => exact h.same .train hp
  | ports => exact h.same .ports hp
  | cxl => exact h.same .cxl hp
  | hoop => exact (bitIn (i := 20) hm (by decide) hp).elim
  | host => exact (bitIn (i := 21) hm (by decide) hp).elim
  | mb => exact h.same .mb hp
  | ctxs => exact h.same .ctxs hp
  | lid => exact h.same .lid hp
  | flt => exact (bitIn (i := 25) hm (by decide) hp).elim
  | pwr => exact h.same .pwr hp
  | rst => exact h.same .rst hp
  | fw => exact h.same .fw hp
  | straps => exact h.same .straps hp
  | txHeld => exact h.same .txHeld hp

theorem Fr_rnd_stakes {m : Nat} {o s : State} {x_rnd} {x_stakes} (hm : 4160 ||| m = m) (h : Fr m o s) : FrM m o s.variant s.straps s.pending s.free s.out s.latch s.rsvdAcc x_rnd s.bud s.cells s.ups s.crs s.weav x_stakes s.mem s.msd s.train s.ports s.txHeld s.cxl s.hoop s.host s.mb s.ctxs s.lid s.flt s.pwr s.rst s.fw := by
  refine ⟨fun p hp => ?_⟩
  cases p with
  | variant => exact h.same .variant hp
  | pending => exact h.same .pending hp
  | free => exact h.same .free hp
  | out => exact h.same .out hp
  | latch => exact h.same .latch hp
  | rsvdAcc => exact h.same .rsvdAcc hp
  | rnd => exact (bitIn (i := 6) hm (by decide) hp).elim
  | bud => exact h.same .bud hp
  | cells => exact h.same .cells hp
  | ups => exact h.same .ups hp
  | crs => exact h.same .crs hp
  | weav => exact h.same .weav hp
  | stakes => exact (bitIn (i := 12) hm (by decide) hp).elim
  | hbm => exact h.same .hbm hp
  | slow => exact h.same .slow hp
  | tables => exact h.same .tables hp
  | msd => exact h.same .msd hp
  | train => exact h.same .train hp
  | ports => exact h.same .ports hp
  | cxl => exact h.same .cxl hp
  | hoop => exact h.same .hoop hp
  | host => exact h.same .host hp
  | mb => exact h.same .mb hp
  | ctxs => exact h.same .ctxs hp
  | lid => exact h.same .lid hp
  | flt => exact h.same .flt hp
  | pwr => exact h.same .pwr hp
  | rst => exact h.same .rst hp
  | fw => exact h.same .fw hp
  | straps => exact h.same .straps hp
  | txHeld => exact h.same .txHeld hp

theorem Fr_rnd_tables {m : Nat} {o s : State} {x_rnd} {x_mem} (hm : 32832 ||| m = m) (h : Fr m o s) (e0 : x_mem.hbm = s.mem.hbm) (e1 : x_mem.slow = s.mem.slow) : FrM m o s.variant s.straps s.pending s.free s.out s.latch s.rsvdAcc x_rnd s.bud s.cells s.ups s.crs s.weav s.stakes x_mem s.msd s.train s.ports s.txHeld s.cxl s.hoop s.host s.mb s.ctxs s.lid s.flt s.pwr s.rst s.fw := by
  refine ⟨fun p hp => ?_⟩
  cases p with
  | variant => exact h.same .variant hp
  | pending => exact h.same .pending hp
  | free => exact h.same .free hp
  | out => exact h.same .out hp
  | latch => exact h.same .latch hp
  | rsvdAcc => exact h.same .rsvdAcc hp
  | rnd => exact (bitIn (i := 6) hm (by decide) hp).elim
  | bud => exact h.same .bud hp
  | cells => exact h.same .cells hp
  | ups => exact h.same .ups hp
  | crs => exact h.same .crs hp
  | weav => exact h.same .weav hp
  | stakes => exact h.same .stakes hp
  | hbm => exact e0.trans (h.same .hbm hp)
  | slow => exact e1.trans (h.same .slow hp)
  | tables => exact (bitIn (i := 15) hm (by decide) hp).elim
  | msd => exact h.same .msd hp
  | train => exact h.same .train hp
  | ports => exact h.same .ports hp
  | cxl => exact h.same .cxl hp
  | hoop => exact h.same .hoop hp
  | host => exact h.same .host hp
  | mb => exact h.same .mb hp
  | ctxs => exact h.same .ctxs hp
  | lid => exact h.same .lid hp
  | flt => exact h.same .flt hp
  | pwr => exact h.same .pwr hp
  | rst => exact h.same .rst hp
  | fw => exact h.same .fw hp
  | straps => exact h.same .straps hp
  | txHeld => exact h.same .txHeld hp

theorem Fr_rnd_weav {m : Nat} {o s : State} {x_rnd} {x_weav} (hm : 2112 ||| m = m) (h : Fr m o s) : FrM m o s.variant s.straps s.pending s.free s.out s.latch s.rsvdAcc x_rnd s.bud s.cells s.ups s.crs x_weav s.stakes s.mem s.msd s.train s.ports s.txHeld s.cxl s.hoop s.host s.mb s.ctxs s.lid s.flt s.pwr s.rst s.fw := by
  refine ⟨fun p hp => ?_⟩
  cases p with
  | variant => exact h.same .variant hp
  | pending => exact h.same .pending hp
  | free => exact h.same .free hp
  | out => exact h.same .out hp
  | latch => exact h.same .latch hp
  | rsvdAcc => exact h.same .rsvdAcc hp
  | rnd => exact (bitIn (i := 6) hm (by decide) hp).elim
  | bud => exact h.same .bud hp
  | cells => exact h.same .cells hp
  | ups => exact h.same .ups hp
  | crs => exact h.same .crs hp
  | weav => exact (bitIn (i := 11) hm (by decide) hp).elim
  | stakes => exact h.same .stakes hp
  | hbm => exact h.same .hbm hp
  | slow => exact h.same .slow hp
  | tables => exact h.same .tables hp
  | msd => exact h.same .msd hp
  | train => exact h.same .train hp
  | ports => exact h.same .ports hp
  | cxl => exact h.same .cxl hp
  | hoop => exact h.same .hoop hp
  | host => exact h.same .host hp
  | mb => exact h.same .mb hp
  | ctxs => exact h.same .ctxs hp
  | lid => exact h.same .lid hp
  | flt => exact h.same .flt hp
  | pwr => exact h.same .pwr hp
  | rst => exact h.same .rst hp
  | fw => exact h.same .fw hp
  | straps => exact h.same .straps hp
  | txHeld => exact h.same .txHeld hp

theorem Fr_rst {m : Nat} {o s : State} {x_rst} (hm : 134217728 ||| m = m) (h : Fr m o s) : FrM m o s.variant s.straps s.pending s.free s.out s.latch s.rsvdAcc s.rnd s.bud s.cells s.ups s.crs s.weav s.stakes s.mem s.msd s.train s.ports s.txHeld s.cxl s.hoop s.host s.mb s.ctxs s.lid s.flt s.pwr x_rst s.fw := by
  refine ⟨fun p hp => ?_⟩
  cases p with
  | variant => exact h.same .variant hp
  | pending => exact h.same .pending hp
  | free => exact h.same .free hp
  | out => exact h.same .out hp
  | latch => exact h.same .latch hp
  | rsvdAcc => exact h.same .rsvdAcc hp
  | rnd => exact h.same .rnd hp
  | bud => exact h.same .bud hp
  | cells => exact h.same .cells hp
  | ups => exact h.same .ups hp
  | crs => exact h.same .crs hp
  | weav => exact h.same .weav hp
  | stakes => exact h.same .stakes hp
  | hbm => exact h.same .hbm hp
  | slow => exact h.same .slow hp
  | tables => exact h.same .tables hp
  | msd => exact h.same .msd hp
  | train => exact h.same .train hp
  | ports => exact h.same .ports hp
  | cxl => exact h.same .cxl hp
  | hoop => exact h.same .hoop hp
  | host => exact h.same .host hp
  | mb => exact h.same .mb hp
  | ctxs => exact h.same .ctxs hp
  | lid => exact h.same .lid hp
  | flt => exact h.same .flt hp
  | pwr => exact h.same .pwr hp
  | rst => exact (bitIn (i := 27) hm (by decide) hp).elim
  | fw => exact h.same .fw hp
  | straps => exact h.same .straps hp
  | txHeld => exact h.same .txHeld hp

theorem Fr_rsvdAcc {m : Nat} {o s : State} {x_rsvdAcc} (hm : 32 ||| m = m) (h : Fr m o s) : FrM m o s.variant s.straps s.pending s.free s.out s.latch x_rsvdAcc s.rnd s.bud s.cells s.ups s.crs s.weav s.stakes s.mem s.msd s.train s.ports s.txHeld s.cxl s.hoop s.host s.mb s.ctxs s.lid s.flt s.pwr s.rst s.fw := by
  refine ⟨fun p hp => ?_⟩
  cases p with
  | variant => exact h.same .variant hp
  | pending => exact h.same .pending hp
  | free => exact h.same .free hp
  | out => exact h.same .out hp
  | latch => exact h.same .latch hp
  | rsvdAcc => exact (bitIn (i := 5) hm (by decide) hp).elim
  | rnd => exact h.same .rnd hp
  | bud => exact h.same .bud hp
  | cells => exact h.same .cells hp
  | ups => exact h.same .ups hp
  | crs => exact h.same .crs hp
  | weav => exact h.same .weav hp
  | stakes => exact h.same .stakes hp
  | hbm => exact h.same .hbm hp
  | slow => exact h.same .slow hp
  | tables => exact h.same .tables hp
  | msd => exact h.same .msd hp
  | train => exact h.same .train hp
  | ports => exact h.same .ports hp
  | cxl => exact h.same .cxl hp
  | hoop => exact h.same .hoop hp
  | host => exact h.same .host hp
  | mb => exact h.same .mb hp
  | ctxs => exact h.same .ctxs hp
  | lid => exact h.same .lid hp
  | flt => exact h.same .flt hp
  | pwr => exact h.same .pwr hp
  | rst => exact h.same .rst hp
  | fw => exact h.same .fw hp
  | straps => exact h.same .straps hp
  | txHeld => exact h.same .txHeld hp

theorem Fr_slow {m : Nat} {o s : State} {x_mem} (hm : 16384 ||| m = m) (h : Fr m o s) (e0 : x_mem.hbm = s.mem.hbm) (e2 : memTables x_mem = memTables s.mem) : FrM m o s.variant s.straps s.pending s.free s.out s.latch s.rsvdAcc s.rnd s.bud s.cells s.ups s.crs s.weav s.stakes x_mem s.msd s.train s.ports s.txHeld s.cxl s.hoop s.host s.mb s.ctxs s.lid s.flt s.pwr s.rst s.fw := by
  refine ⟨fun p hp => ?_⟩
  cases p with
  | variant => exact h.same .variant hp
  | pending => exact h.same .pending hp
  | free => exact h.same .free hp
  | out => exact h.same .out hp
  | latch => exact h.same .latch hp
  | rsvdAcc => exact h.same .rsvdAcc hp
  | rnd => exact h.same .rnd hp
  | bud => exact h.same .bud hp
  | cells => exact h.same .cells hp
  | ups => exact h.same .ups hp
  | crs => exact h.same .crs hp
  | weav => exact h.same .weav hp
  | stakes => exact h.same .stakes hp
  | hbm => exact e0.trans (h.same .hbm hp)
  | slow => exact (bitIn (i := 14) hm (by decide) hp).elim
  | tables => exact e2.trans (h.same .tables hp)
  | msd => exact h.same .msd hp
  | train => exact h.same .train hp
  | ports => exact h.same .ports hp
  | cxl => exact h.same .cxl hp
  | hoop => exact h.same .hoop hp
  | host => exact h.same .host hp
  | mb => exact h.same .mb hp
  | ctxs => exact h.same .ctxs hp
  | lid => exact h.same .lid hp
  | flt => exact h.same .flt hp
  | pwr => exact h.same .pwr hp
  | rst => exact h.same .rst hp
  | fw => exact h.same .fw hp
  | straps => exact h.same .straps hp
  | txHeld => exact h.same .txHeld hp

theorem Fr_stakes {m : Nat} {o s : State} {x_stakes} (hm : 4096 ||| m = m) (h : Fr m o s) : FrM m o s.variant s.straps s.pending s.free s.out s.latch s.rsvdAcc s.rnd s.bud s.cells s.ups s.crs s.weav x_stakes s.mem s.msd s.train s.ports s.txHeld s.cxl s.hoop s.host s.mb s.ctxs s.lid s.flt s.pwr s.rst s.fw := by
  refine ⟨fun p hp => ?_⟩
  cases p with
  | variant => exact h.same .variant hp
  | pending => exact h.same .pending hp
  | free => exact h.same .free hp
  | out => exact h.same .out hp
  | latch => exact h.same .latch hp
  | rsvdAcc => exact h.same .rsvdAcc hp
  | rnd => exact h.same .rnd hp
  | bud => exact h.same .bud hp
  | cells => exact h.same .cells hp
  | ups => exact h.same .ups hp
  | crs => exact h.same .crs hp
  | weav => exact h.same .weav hp
  | stakes => exact (bitIn (i := 12) hm (by decide) hp).elim
  | hbm => exact h.same .hbm hp
  | slow => exact h.same .slow hp
  | tables => exact h.same .tables hp
  | msd => exact h.same .msd hp
  | train => exact h.same .train hp
  | ports => exact h.same .ports hp
  | cxl => exact h.same .cxl hp
  | hoop => exact h.same .hoop hp
  | host => exact h.same .host hp
  | mb => exact h.same .mb hp
  | ctxs => exact h.same .ctxs hp
  | lid => exact h.same .lid hp
  | flt => exact h.same .flt hp
  | pwr => exact h.same .pwr hp
  | rst => exact h.same .rst hp
  | fw => exact h.same .fw hp
  | straps => exact h.same .straps hp
  | txHeld => exact h.same .txHeld hp

theorem Fr_tables {m : Nat} {o s : State} {x_mem} (hm : 32768 ||| m = m) (h : Fr m o s) (e0 : x_mem.hbm = s.mem.hbm) (e1 : x_mem.slow = s.mem.slow) : FrM m o s.variant s.straps s.pending s.free s.out s.latch s.rsvdAcc s.rnd s.bud s.cells s.ups s.crs s.weav s.stakes x_mem s.msd s.train s.ports s.txHeld s.cxl s.hoop s.host s.mb s.ctxs s.lid s.flt s.pwr s.rst s.fw := by
  refine ⟨fun p hp => ?_⟩
  cases p with
  | variant => exact h.same .variant hp
  | pending => exact h.same .pending hp
  | free => exact h.same .free hp
  | out => exact h.same .out hp
  | latch => exact h.same .latch hp
  | rsvdAcc => exact h.same .rsvdAcc hp
  | rnd => exact h.same .rnd hp
  | bud => exact h.same .bud hp
  | cells => exact h.same .cells hp
  | ups => exact h.same .ups hp
  | crs => exact h.same .crs hp
  | weav => exact h.same .weav hp
  | stakes => exact h.same .stakes hp
  | hbm => exact e0.trans (h.same .hbm hp)
  | slow => exact e1.trans (h.same .slow hp)
  | tables => exact (bitIn (i := 15) hm (by decide) hp).elim
  | msd => exact h.same .msd hp
  | train => exact h.same .train hp
  | ports => exact h.same .ports hp
  | cxl => exact h.same .cxl hp
  | hoop => exact h.same .hoop hp
  | host => exact h.same .host hp
  | mb => exact h.same .mb hp
  | ctxs => exact h.same .ctxs hp
  | lid => exact h.same .lid hp
  | flt => exact h.same .flt hp
  | pwr => exact h.same .pwr hp
  | rst => exact h.same .rst hp
  | fw => exact h.same .fw hp
  | straps => exact h.same .straps hp
  | txHeld => exact h.same .txHeld hp

theorem Fr_tables_msd_flt_pwr_rst {m : Nat} {o s : State} {x_mem} {x_msd} {x_flt} {x_pwr} {x_rst} (hm : 234979328 ||| m = m) (h : Fr m o s) (e0 : x_mem.hbm = s.mem.hbm) (e1 : x_mem.slow = s.mem.slow) : FrM m o s.variant s.straps s.pending s.free s.out s.latch s.rsvdAcc s.rnd s.bud s.cells s.ups s.crs s.weav s.stakes x_mem x_msd s.train s.ports s.txHeld s.cxl s.hoop s.host s.mb s.ctxs s.lid x_flt x_pwr x_rst s.fw := by
  refine ⟨fun p hp => ?_⟩
  cases p with
  | variant => exact h.same .variant hp
  | pending => exact h.same .pending hp
  | free => exact h.same .free hp
  | out => exact h.same .out hp
  | latch => exact h.same .latch hp
  | rsvdAcc => exact h.same .rsvdAcc hp
  | rnd => exact h.same .rnd hp
  | bud => exact h.same .bud hp
  | cells => exact h.same .cells hp
  | ups => exact h.same .ups hp
  | crs => exact h.same .crs hp
  | weav => exact h.same .weav hp
  | stakes => exact h.same .stakes hp
  | hbm => exact e0.trans (h.same .hbm hp)
  | slow => exact e1.trans (h.same .slow hp)
  | tables => exact (bitIn (i := 15) hm (by decide) hp).elim
  | msd => exact (bitIn (i := 16) hm (by decide) hp).elim
  | train => exact h.same .train hp
  | ports => exact h.same .ports hp
  | cxl => exact h.same .cxl hp
  | hoop => exact h.same .hoop hp
  | host => exact h.same .host hp
  | mb => exact h.same .mb hp
  | ctxs => exact h.same .ctxs hp
  | lid => exact h.same .lid hp
  | flt => exact (bitIn (i := 25) hm (by decide) hp).elim
  | pwr => exact (bitIn (i := 26) hm (by decide) hp).elim
  | rst => exact (bitIn (i := 27) hm (by decide) hp).elim
  | fw => exact h.same .fw hp
  | straps => exact h.same .straps hp
  | txHeld => exact h.same .txHeld hp

theorem Fr_train {m : Nat} {o s : State} {x_train} (hm : 131072 ||| m = m) (h : Fr m o s) : FrM m o s.variant s.straps s.pending s.free s.out s.latch s.rsvdAcc s.rnd s.bud s.cells s.ups s.crs s.weav s.stakes s.mem s.msd x_train s.ports s.txHeld s.cxl s.hoop s.host s.mb s.ctxs s.lid s.flt s.pwr s.rst s.fw := by
  refine ⟨fun p hp => ?_⟩
  cases p with
  | variant => exact h.same .variant hp
  | pending => exact h.same .pending hp
  | free => exact h.same .free hp
  | out => exact h.same .out hp
  | latch => exact h.same .latch hp
  | rsvdAcc => exact h.same .rsvdAcc hp
  | rnd => exact h.same .rnd hp
  | bud => exact h.same .bud hp
  | cells => exact h.same .cells hp
  | ups => exact h.same .ups hp
  | crs => exact h.same .crs hp
  | weav => exact h.same .weav hp
  | stakes => exact h.same .stakes hp
  | hbm => exact h.same .hbm hp
  | slow => exact h.same .slow hp
  | tables => exact h.same .tables hp
  | msd => exact h.same .msd hp
  | train => exact (bitIn (i := 17) hm (by decide) hp).elim
  | ports => exact h.same .ports hp
  | cxl => exact h.same .cxl hp
  | hoop => exact h.same .hoop hp
  | host => exact h.same .host hp
  | mb => exact h.same .mb hp
  | ctxs => exact h.same .ctxs hp
  | lid => exact h.same .lid hp
  | flt => exact h.same .flt hp
  | pwr => exact h.same .pwr hp
  | rst => exact h.same .rst hp
  | fw => exact h.same .fw hp
  | straps => exact h.same .straps hp
  | txHeld => exact h.same .txHeld hp

theorem Fr_txHeld {m : Nat} {o s : State} {x_txHeld} (hm : 1073741824 ||| m = m) (h : Fr m o s) : FrM m o s.variant s.straps s.pending s.free s.out s.latch s.rsvdAcc s.rnd s.bud s.cells s.ups s.crs s.weav s.stakes s.mem s.msd s.train s.ports x_txHeld s.cxl s.hoop s.host s.mb s.ctxs s.lid s.flt s.pwr s.rst s.fw := by
  refine ⟨fun p hp => ?_⟩
  cases p with
  | variant => exact h.same .variant hp
  | pending => exact h.same .pending hp
  | free => exact h.same .free hp
  | out => exact h.same .out hp
  | latch => exact h.same .latch hp
  | rsvdAcc => exact h.same .rsvdAcc hp
  | rnd => exact h.same .rnd hp
  | bud => exact h.same .bud hp
  | cells => exact h.same .cells hp
  | ups => exact h.same .ups hp
  | crs => exact h.same .crs hp
  | weav => exact h.same .weav hp
  | stakes => exact h.same .stakes hp
  | hbm => exact h.same .hbm hp
  | slow => exact h.same .slow hp
  | tables => exact h.same .tables hp
  | msd => exact h.same .msd hp
  | train => exact h.same .train hp
  | ports => exact h.same .ports hp
  | cxl => exact h.same .cxl hp
  | hoop => exact h.same .hoop hp
  | host => exact h.same .host hp
  | mb => exact h.same .mb hp
  | ctxs => exact h.same .ctxs hp
  | lid => exact h.same .lid hp
  | flt => exact h.same .flt hp
  | pwr => exact h.same .pwr hp
  | rst => exact h.same .rst hp
  | fw => exact h.same .fw hp
  | straps => exact h.same .straps hp
  | txHeld => exact (bitIn (i := 30) hm (by decide) hp).elim

theorem Fr_ups {m : Nat} {o s : State} {x_ups} (hm : 512 ||| m = m) (h : Fr m o s) : FrM m o s.variant s.straps s.pending s.free s.out s.latch s.rsvdAcc s.rnd s.bud s.cells x_ups s.crs s.weav s.stakes s.mem s.msd s.train s.ports s.txHeld s.cxl s.hoop s.host s.mb s.ctxs s.lid s.flt s.pwr s.rst s.fw := by
  refine ⟨fun p hp => ?_⟩
  cases p with
  | variant => exact h.same .variant hp
  | pending => exact h.same .pending hp
  | free => exact h.same .free hp
  | out => exact h.same .out hp
  | latch => exact h.same .latch hp
  | rsvdAcc => exact h.same .rsvdAcc hp
  | rnd => exact h.same .rnd hp
  | bud => exact h.same .bud hp
  | cells => exact h.same .cells hp
  | ups => exact (bitIn (i := 9) hm (by decide) hp).elim
  | crs => exact h.same .crs hp
  | weav => exact h.same .weav hp
  | stakes => exact h.same .stakes hp
  | hbm => exact h.same .hbm hp
  | slow => exact h.same .slow hp
  | tables => exact h.same .tables hp
  | msd => exact h.same .msd hp
  | train => exact h.same .train hp
  | ports => exact h.same .ports hp
  | cxl => exact h.same .cxl hp
  | hoop => exact h.same .hoop hp
  | host => exact h.same .host hp
  | mb => exact h.same .mb hp
  | ctxs => exact h.same .ctxs hp
  | lid => exact h.same .lid hp
  | flt => exact h.same .flt hp
  | pwr => exact h.same .pwr hp
  | rst => exact h.same .rst hp
  | fw => exact h.same .fw hp
  | straps => exact h.same .straps hp
  | txHeld => exact h.same .txHeld hp

theorem Fr_weav {m : Nat} {o s : State} {x_weav} (hm : 2048 ||| m = m) (h : Fr m o s) : FrM m o s.variant s.straps s.pending s.free s.out s.latch s.rsvdAcc s.rnd s.bud s.cells s.ups s.crs x_weav s.stakes s.mem s.msd s.train s.ports s.txHeld s.cxl s.hoop s.host s.mb s.ctxs s.lid s.flt s.pwr s.rst s.fw := by
  refine ⟨fun p hp => ?_⟩
  cases p with
  | variant => exact h.same .variant hp
  | pending => exact h.same .pending hp
  | free => exact h.same .free hp
  | out => exact h.same .out hp
  | latch => exact h.same .latch hp
  | rsvdAcc => exact h.same .rsvdAcc hp
  | rnd => exact h.same .rnd hp
  | bud => exact h.same .bud hp
  | cells => exact h.same .cells hp
  | ups => exact h.same .ups hp
  | crs => exact h.same .crs hp
  | weav => exact (bitIn (i := 11) hm (by decide) hp).elim
  | stakes => exact h.same .stakes hp
  | hbm => exact h.same .hbm hp
  | slow => exact h.same .slow hp
  | tables => exact h.same .tables hp
  | msd => exact h.same .msd hp
  | train => exact h.same .train hp
  | ports => exact h.same .ports hp
  | cxl => exact h.same .cxl hp
  | hoop => exact h.same .hoop hp
  | host => exact h.same .host hp
  | mb => exact h.same .mb hp
  | ctxs => exact h.same .ctxs hp
  | lid => exact h.same .lid hp
  | flt => exact h.same .flt hp
  | pwr => exact h.same .pwr hp
  | rst => exact h.same .rst hp
  | fw => exact h.same .fw hp
  | straps => exact h.same .straps hp
  | txHeld => exact h.same .txHeld hp

end Sys2Proof.Machine
end

