-- ==== Sys2Proof/Laws/Tables.lean ====
section
/-! SUPPORT. Laws of the sparse tables: reading after a write, and that every operation keeps the canonical form. -/

namespace Sys2Proof.Machine

variable {α : Type}

/-! ### Reading -/

@[simp] theorem look_nil (d : α) (k : Nat) : look d [] k = d := rfl

theorem look_list_eq (d : α) (t : Tab α) (k : Nat) (v : α) : look d (list t k v) k = v := by
  induction t with
  | nil => simp [list, look]
  | cons p r ih =>
    obtain ⟨j, w⟩ := p
    simp only [list]
    split
    · simp [look]
    · split
      · simp [look]
      · simp [look, *]

theorem look_list_ne (d : α) (t : Tab α) {k j : Nat} (v : α) (h : j ≠ k) : look d (list t k v) j = look d t j := by
  induction t with
  | nil => simp [list, look, h.symm]
  | cons p r ih =>
    obtain ⟨i, w⟩ := p
    simp only [list]
    split
    · simp [look, h.symm]
    · split
      · next hik => subst hik; simp [look, h.symm]
      · simp [look, ih]

theorem look_drop_ne (d : α) (t : Tab α) {k j : Nat} (h : j ≠ k) : look d (drop t k) j = look d t j := by
  induction t with
  | nil => rfl
  | cons p r ih =>
    obtain ⟨i, w⟩ := p
    simp only [drop]
    split
    · next hik => subst hik; simp [look, h.symm, ih]
    · simp [look, ih]

theorem look_drop_eq (d : α) (t : Tab α) (k : Nat) : look d (drop t k) k = d := by
  induction t with
  | nil => rfl
  | cons p r ih =>
    obtain ⟨j, w⟩ := p
    simp only [drop]
    split
    · exact ih
    · next hjk => simp only [look, hjk, if_false]; exact ih

/-! ### The canonical form -/

variable [DecidableEq α] (d : α)

/-- A lower bound on the keys, or none. -/
def below (lo : Option Nat) (k : Nat) : Prop := ∀ b, lo = some b → b < k

theorem wfFrom_cons (lo : Option Nat) (k : Nat) (v : α) (r : Tab α) :
    wfFrom d lo ((k, v) :: r) = true ↔ below lo k ∧ v ≠ d ∧ wfFrom d (some k) r = true := by
  cases lo <;> simp [wfFrom, below, and_assoc]

theorem wfFrom_weaken {lo : Option Nat} {k : Nat} {t : Tab α} (h : wfFrom d (some k) t = true) (hk : below lo k) :
    wfFrom d lo t = true := by
  cases t with
  | nil => cases lo <;> rfl
  | cons p r =>
    obtain ⟨j, v⟩ := p
    rw [wfFrom_cons] at h ⊢
    exact ⟨fun b hb => Nat.lt_trans (hk b hb) (h.1 k rfl), h.2⟩

theorem look_of_wfFrom {b : Nat} {t : Tab α} (h : wfFrom d (some b) t = true) {k : Nat} (hk : k ≤ b) : look d t k = d := by
  induction t generalizing b with
  | nil => rfl
  | cons p r ih =>
    obtain ⟨j, v⟩ := p
    rw [wfFrom_cons] at h
    have hj := h.1 b rfl
    have hne : j ≠ k := by omega
    simp only [look, hne, if_false]
    exact ih h.2.2 (by omega)

theorem wfFrom_list {lo : Option Nat} {t : Tab α} {k : Nat} {v : α} (h : wfFrom d lo t = true) (hk : below lo k) (hv : v ≠ d) :
    wfFrom d lo (list t k v) = true := by
  induction t generalizing lo with
  | nil => rw [list, wfFrom_cons]; exact ⟨hk, hv, rfl⟩
  | cons p r ih =>
    obtain ⟨j, w⟩ := p
    rw [wfFrom_cons] at h
    simp only [list]
    split
    · next hkj => simp only [wfFrom_cons]; exact ⟨hk, hv, fun b hb => by cases hb; exact hkj, h.2⟩
    · split
      · next hjk => subst hjk; rw [wfFrom_cons]; exact ⟨hk, hv, h.2.2⟩
      · rw [wfFrom_cons]
        exact ⟨h.1, h.2.1, ih h.2.2 fun b hb => by cases hb; omega⟩

theorem wfFrom_drop {lo : Option Nat} {t : Tab α} (k : Nat) (h : wfFrom d lo t = true) : wfFrom d lo (drop t k) = true := by
  induction t generalizing lo with
  | nil => exact h
  | cons p r ih =>
    obtain ⟨j, w⟩ := p
    rw [wfFrom_cons] at h
    simp only [drop]
    split
    · exact wfFrom_weaken d (ih h.2.2) h.1
    · rw [wfFrom_cons]; exact ⟨h.1, h.2.1, ih h.2.2⟩

theorem wfFrom_filter {lo : Option Nat} {t : Tab α} (p : Nat × α → Bool) (h : wfFrom d lo t = true) :
    wfFrom d lo (t.filter p) = true := by
  induction t generalizing lo with
  | nil => exact h
  | cons q r ih =>
    obtain ⟨j, w⟩ := q
    rw [wfFrom_cons] at h
    rw [List.filter_cons]
    split
    · rw [wfFrom_cons]; exact ⟨h.1, h.2.1, ih h.2.2⟩
    · exact ih (wfFrom_weaken d h.2.2 h.1)

/-- A table below `b` and one from `b` on join to one table. -/
theorem wfFrom_append {lo : Option Nat} {b : Nat} {t u : Tab α} (ht : wfFrom d lo t = true) (hu : wfFrom d lo u = true)
    (h1 : ∀ p ∈ t, p.1 < b) (h2 : ∀ p ∈ u, b ≤ p.1) : wfFrom d lo (t ++ u) = true := by
  induction t generalizing lo with
  | nil => exact hu
  | cons q r ih =>
    obtain ⟨k, v⟩ := q
    rw [wfFrom_cons] at ht
    rw [List.cons_append, wfFrom_cons]
    refine ⟨ht.1, ht.2.1, ih ht.2.2 ?_ fun p hp => h1 p (List.mem_cons_of_mem _ hp)⟩
    cases u with
    | nil => rfl
    | cons x y =>
      rw [wfFrom_cons] at hu ⊢
      have := h1 (k, v) (List.mem_cons_self ..)
      have := h2 x (List.mem_cons_self ..)
      exact ⟨fun c hc => by cases hc; omega, hu.2⟩

theorem wf_nil : wf d ([] : Tab α) = true := rfl

theorem wf_store {t : Tab α} (k : Nat) (v : α) (h : wf d t = true) : wf d (store d t k v) = true := by
  unfold store
  split
  · exact wfFrom_drop d k h
  · next hv => exact wfFrom_list d h (fun b hb => by cases hb) hv

theorem wf_filter {t : Tab α} (p : Nat × α → Bool) (h : wf d t = true) : wf d (t.filter p) = true := wfFrom_filter d p h

theorem wf_adj {t : Tab α} (k : Nat) (f : α → α) (h : wf d t = true) : wf d (adj d t k f) = true := wf_store d k _ h

/-! ### Reads after writes -/

/-- A write is read back. -/
@[simp] theorem look_store_eq (t : Tab α) (k : Nat) (v : α) : look d (store d t k v) k = v := by
  unfold store
  split
  · next hv => rw [look_drop_eq, hv]
  · exact look_list_eq d t k v

/-- A write leaves every other key alone. -/
theorem look_store_ne (t : Tab α) {k j : Nat} (v : α) (h : j ≠ k) : look d (store d t k v) j = look d t j := by
  unfold store
  split
  · exact look_drop_ne d t h
  · exact look_list_ne d t v h

@[simp] theorem look_adj_eq (t : Tab α) (k : Nat) (f : α → α) : look d (adj d t k f) k = f (look d t k) :=
  look_store_eq d t k _

theorem look_adj_ne (t : Tab α) {k j : Nat} (f : α → α) (h : j ≠ k) : look d (adj d t k f) j = look d t j :=
  look_store_ne d t _ h

/-! ### Byte strings -/

theorem wf_wrBytes {t : Tab Byte} (a : Nat) (bs : List Byte) (h : wf (0 : Byte) t = true) : wf (0 : Byte) (wrBytes t a bs) = true := by
  induction bs generalizing t a with
  | nil => exact h
  | cons b r ih => exact ih (a + 1) (wf_store 0 a b h)

/-- Bytes listed at rising addresses, the zero ones left out. -/
theorem wfFrom_bytes {lo : Option Nat} (a : Nat) (bs : List Byte) (h : below lo a) :
    wfFrom (0 : Byte) lo (((List.range' a bs.length).zip bs).filter fun p => p.2 != 0) = true := by
  induction bs generalizing lo a with
  | nil => cases lo <;> rfl
  | cons b r ih =>
    rw [List.length_cons, List.range'_succ, List.zip_cons_cons, List.filter_cons]
    split
    · next hb => rw [wfFrom_cons]; exact ⟨h, by simpa using hb, ih (a + 1) fun c hc => by cases hc; omega⟩
    · exact ih (a + 1) fun c hc => Nat.lt_succ_of_lt (h c hc)

theorem wf_wrRange {t : Tab Byte} (a : Nat) (bs : List Byte) (h : wf (0 : Byte) t = true) : wf (0 : Byte) (wrRange t a bs) = true := by
  have hm : ∀ p ∈ ((List.range' a bs.length).zip bs).filter (fun p => p.2 != 0), a ≤ p.1 ∧ p.1 < a + bs.length := fun p hp => by
    have := List.of_mem_zip (List.mem_filter.1 hp).1
    simpa [List.mem_range'_1] using this.1
  unfold wrRange
  rw [← List.range'_eq_map_range]
  refine wfFrom_append 0 (b := a + bs.length) (wfFrom_append 0 (b := a) (wfFrom_filter 0 _ h) (wfFrom_bytes a bs fun b hb => by cases hb) ?_ ?_)
    (wfFrom_filter 0 _ h) ?_ ?_
  · exact fun p hp => by simpa using (List.mem_filter.1 hp).2
  · exact fun p hp => (hm p hp).1
  · intro p hp
    rcases List.mem_append.1 hp with hp | hp
    · have : p.1 < a := by simpa using (List.mem_filter.1 hp).2
      omega
    · exact (hm p hp).2
  · exact fun p hp => by simpa using (List.mem_filter.1 hp).2

theorem wf_zeroBytes {t : Tab Byte} (a n : Nat) (h : wf (0 : Byte) t = true) : wf (0 : Byte) (zeroBytes t a n) = true :=
  wf_filter 0 _ h

/-- An address outside the bytes that are written reads as before. -/
theorem look_wrBytes_out (t : Tab Byte) (a : Nat) (bs : List Byte) {j : Nat} (h : j < a ∨ a + bs.length ≤ j) :
    look 0 (wrBytes t a bs) j = look 0 t j := by
  induction bs generalizing t a with
  | nil => rfl
  | cons b r ih =>
    simp only [List.length_cons] at h
    rw [wrBytes, ih (store 0 t a b) (a + 1) (by omega), look_store_ne]
    omega

/-- A byte that is written is read back. -/
theorem look_wrBytes_in (t : Tab Byte) (a : Nat) (bs : List Byte) {i : Nat} (h : i < bs.length) :
    look 0 (wrBytes t a bs) (a + i) = bs.getD i 0 := by
  induction bs generalizing t a i with
  | nil => simp at h
  | cons b r ih =>
    rw [wrBytes]
    cases i with
    | zero =>
      rw [look_wrBytes_out _ _ _ (by omega)]
      exact look_store_eq 0 t a b
    | succ i =>
      have := ih (store 0 t a b) (a + 1) (i := i) (by simpa using h)
      rw [show a + (i + 1) = a + 1 + i by omega, this]
      simp

/-- A range that is cleared reads as zero, and every address outside it reads as before. -/
theorem look_zeroBytes (t : Tab Byte) (a n j : Nat) :
    look 0 (zeroBytes t a n) j = if a ≤ j ∧ j < a + n then 0 else look 0 t j := by
  unfold zeroBytes
  induction t with
  | nil => exact (ite_self _).symm
  | cons p r ih =>
    obtain ⟨k, v⟩ := p
    rw [List.filter_cons]
    by_cases hk : k < a ∨ a + n ≤ k
    · rw [if_pos (by simpa using hk), look, look, ih]
      by_cases hkj : k = j
      · rw [if_pos hkj, if_pos hkj, if_neg (by omega)]
      · rw [if_neg hkj, if_neg hkj]
    · rw [if_neg (by simpa using hk), look, ih]
      by_cases hkj : k = j
      · rw [if_pos (by omega), if_pos (by omega)]
      · rw [if_neg hkj]

end Sys2Proof.Machine
end

