-- ==== Sys2Proof/Laws/Canon.lean ====
section
/-! SUPPORT. Laws of the canonical form of memory: what it is for a state, and how the shapes in which the operations are written keep it. -/

namespace Sys2Proof.Machine

/-- A table of bytes in canonical form. -/
structure BytesOk (t : Tab Byte) : Prop where
  ok : wf (0 : Byte) t = true

/-- Both memories in canonical form. -/
structure MemOk (m : Mem) : Prop where
  hbm : BytesOk m.hbm
  slow : BytesOk m.slow

/-- A state whose memories are in canonical form. -/
structure Canon (s : State) : Prop where
  mem : MemOk s.mem
theorem BytesOk_wr {t : Tab Byte} {a : Nat} {bs : List Byte} (h : BytesOk t) : BytesOk (wrBytes t a bs) := ⟨wf_wrBytes a bs h.ok⟩
theorem BytesOk_wrRange {t : Tab Byte} {a : Nat} {bs : List Byte} (h : BytesOk t) : BytesOk (wrRange t a bs) := ⟨wf_wrRange a bs h.ok⟩
theorem BytesOk_zero {t : Tab Byte} {a n : Nat} (h : BytesOk t) : BytesOk (zeroBytes t a n) := ⟨wf_zeroBytes a n h.ok⟩
theorem BytesOk_fold {α : Type} {xs : List α} {k : α → Nat} {v : α → Byte} {t : Tab Byte} (h : BytesOk t) : BytesOk (xs.foldl (fun t x => store 0 t (k x) (v x)) t) := by
  induction xs generalizing t with
  | nil => exact h
  | cons x r ih => exact ih ⟨wf_store 0 _ _ h.ok⟩
theorem foldl_canon {α : Type} {f : State → α → State} {xs : List α} {s : State} (hf : ∀ t x, Canon t → Canon (f t x)) (h : Canon s) : Canon (xs.foldl f s) := by
  induction xs generalizing s with
  | nil => exact h
  | cons x r ih => exact ih (hf s x h)
theorem each_canon {α : Type} {f : α → State → State} {xs : List α} {s : State} (hf : ∀ x t, Canon t → Canon (f x t)) (h : Canon s) : Canon (State.each xs f s) :=
  foldl_canon (fun t x ht => hf x t ht) h
theorem Canon_ite {c : Prop} [Decidable c] {a b : State} (ha : c → Canon a) (hb : ¬ c → Canon b) : Canon (if c then a else b) := by
  split
  · exact ha ‹_›
  · exact hb ‹_›
theorem Canon_ite2 {α : Type} {c : Prop} [Decidable c] {a b : α × State} (ha : c → Canon a.2) (hb : ¬ c → Canon b.2) : Canon (if c then a else b).2 := by
  split
  · exact ha ‹_›
  · exact hb ‹_›
theorem onlyIf_canon {b : Bool} {f : State → State} {s : State} (hf : ∀ t, Canon t → Canon (f t)) (h : Canon s) : Canon (State.onlyIf b f s) :=
  Canon_ite (fun _ => hf s h) (fun _ => h)
theorem MemOk_mk {a b c d e f g h i j k l m n o p q r} : MemOk (Mem.mk a b c d e f g h i j k l m n o p q r) ↔ BytesOk a ∧ BytesOk b := ⟨fun h => ⟨h.hbm, h.slow⟩, fun h => ⟨h.1, h.2⟩⟩
theorem Canon_mk {a0 a1 a2 a3 a4 a5 a6 a7 a8 a9 a10 a11 a12 a13 a14 a15 a16 a17 a18 a19 a20 a21 a22 a23 a24 a25 a26 a27 a28} : Canon (State.mk a0 a1 a2 a3 a4 a5 a6 a7 a8 a9 a10 a11 a12 a13 a14 a15 a16 a17 a18 a19 a20 a21 a22 a23 a24 a25 a26 a27 a28) ↔ MemOk a14 := ⟨fun h => h.mem, fun h => ⟨h⟩⟩
theorem reset_canon : Canon State.reset := ⟨⟨⟨rfl⟩, ⟨rfl⟩⟩⟩
theorem foldl_canon2 {α β : Type} {f : β × State → α → β × State} {xs : List α} {p : β × State} (hf : ∀ p x, Canon p.2 → Canon (f p x).2) (h : Canon p.2) : Canon (xs.foldl f p).2 := by
  induction xs generalizing p with
  | nil => exact h
  | cons x r ih => exact ih (hf p x h)

/-- Every state that an option holds is canonical. -/
structure CanonO (o : Option State) : Prop where
  out : ∀ t, o = some t → Canon t
theorem CanonO_out {o : Option State} {t : State} (h : CanonO o) (e : o = some t) : Canon t := h.out t e
theorem CanonO_none : CanonO none := ⟨fun _ e => by cases e⟩
theorem CanonO_some {s : State} (h : Canon s) : CanonO (some s) := ⟨fun _ e => by cases e; exact h⟩
theorem CanonO_ite {c : Prop} [Decidable c] {a b : Option State} (ha : c → CanonO a) (hb : ¬ c → CanonO b) : CanonO (if c then a else b) := by
  split
  · exact ha ‹_›
  · exact hb ‹_›
theorem CanonO_bind {o : Option State} {f : State → Option State} (h : CanonO o) (hf : ∀ t, Canon t → CanonO (f t)) : CanonO (o.bind f) := by
  cases o with
  | none => exact CanonO_none
  | some t => exact hf t (h.out t rfl)
theorem CanonO_map {α : Type} {o : Option α} {f : α → State} (hf : ∀ x, Canon (f x)) : CanonO (o.map f) := by
  cases o with
  | none => exact CanonO_none
  | some t => exact CanonO_some (hf t)
theorem getD_canon {o : Option State} {d : State} (h : CanonO o) (hd : Canon d) : Canon (o.getD d) := by
  cases o with
  | none => exact hd
  | some t => exact h.out t rfl
theorem elim_canon {α : Type} {o : Option α} {d : State} {f : α → State} (hd : Canon d) (hf : ∀ x, Canon (f x)) : Canon (o.elim d f) := by
  cases o with
  | none => exact hd
  | some t => exact hf t

/-- Every state that an optional pair holds is canonical. -/
structure CanonP {α : Type} (o : Option (α × State)) : Prop where
  out : ∀ p, o = some p → Canon p.2
theorem CanonP_out {α : Type} {o : Option (α × State)} {p : α × State} (h : CanonP o) (e : o = some p) : Canon p.2 := h.out p e
theorem CanonP_none {α : Type} : CanonP (none : Option (α × State)) := ⟨fun _ e => by cases e⟩
theorem CanonP_some {α : Type} {p : α × State} (h : Canon p.2) : CanonP (some p) := ⟨fun _ e => by cases e; exact h⟩
theorem CanonP_ite {α : Type} {c : Prop} [Decidable c] {a b : Option (α × State)} (ha : c → CanonP a) (hb : ¬ c → CanonP b) : CanonP (if c then a else b) := by
  split
  · exact ha ‹_›
  · exact hb ‹_›
theorem CanonP_map {α β : Type} {o : Option α} {f : α → β × State} (hf : ∀ x, Canon (f x).2) : CanonP (o.map f) := by
  cases o with
  | none => exact CanonP_none
  | some t => exact CanonP_some (hf t)
theorem CanonP_bind {α β : Type} {q : Option (α × State)} {f : α × State → Option (β × State)} (h : CanonP q) (hf : ∀ p, Canon p.2 → CanonP (f p)) : CanonP (q.bind f) := by
  cases q with
  | none => exact CanonP_none
  | some t => exact hf t (h.out t rfl)
theorem CanonP_mapS {β : Type} {o : Option State} {f : State → β × State} (ho : CanonO o) (hf : ∀ x, Canon x → Canon (f x).2) : CanonP (o.map f) := by
  cases o with
  | none => exact CanonP_none
  | some t => exact CanonP_some (hf t (ho.out t rfl))
theorem Canon_of_pair {α : Type} {p : α × State} {a : α} {t : State} (h : Canon p.2) (e : p = (a, t)) : Canon t := by rw [e] at h; exact h
theorem BytesOk_filter {p : Nat × Byte → Bool} {t : Tab Byte} (h : BytesOk t) : BytesOk (t.filter p) := ⟨wf_filter 0 p h.ok⟩

/-- A U command keeps the canonical form when it runs. -/
structure UOk (e : UEffect) : Prop where
  run : ∀ t, Canon t → Canon (e.run t).2

/-- Every U command that an option holds keeps the canonical form. -/
structure CanonU (o : Option UEffect) : Prop where
  out : ∀ e, o = some e → UOk e
theorem CanonU_out {o : Option UEffect} {e : UEffect} (h : CanonU o) (he : o = some e) : UOk e := h.out e he
theorem CanonU_none : CanonU none := ⟨fun _ e => by cases e⟩
theorem CanonU_some {n : Nat} {f : State → Except AccErr Unit × State} (h : ∀ t, Canon t → Canon (f t).2) : CanonU (some ⟨n, f⟩) := ⟨fun _ e => by cases e; exact ⟨h⟩⟩
theorem CanonU_ite {c : Prop} [Decidable c] {a b : Option UEffect} (ha : c → CanonU a) (hb : ¬ c → CanonU b) : CanonU (if c then a else b) := by
  split
  · exact ha ‹_›
  · exact hb ‹_›
theorem joinRead_canon {bs} {r : Except AccErr (List Byte) × State} (h : Canon r.2) : Canon (joinRead bs r).2 := h
theorem CanonO_mapS {o : Option State} {f : State → State} (ho : CanonO o) (hf : ∀ x, Canon x → Canon (f x)) : CanonO (o.map f) := by
  cases o with
  | none => exact CanonO_none
  | some t => exact CanonO_some (hf t (ho.out t rfl))
theorem elim_canonS {o : Option State} {d : State} {f : State → State} (ho : CanonO o) (hd : Canon d) (hf : ∀ x, Canon x → Canon (f x)) : Canon (o.elim d f) := by
  cases o with
  | none => exact hd
  | some t => exact hf t (ho.out t rfl)
theorem elim_canonS2 {α : Type} {o : Option State} {d : α × State} {f : State → α × State} (ho : CanonO o) (hd : Canon d.2) (hf : ∀ x, Canon x → Canon (f x).2) : Canon (o.elim d f).2 := by
  cases o with
  | none => exact hd
  | some t => exact hf t (ho.out t rfl)

/-- A next state that an outcome answers is canonical. -/
structure CanonX (o : Host.Outcome State Fault Refusal) : Prop where
  out : ∀ t, o = .next t → Canon t
theorem act_canon {ok : Bool} {s t : State} (h : Canon t) : CanonX (act ok s t) := by
  constructor
  intro u hu
  unfold act at hu
  split at hu
  · cases hu; exact ⟨h.mem⟩
  · cases hu
theorem getD_canonQ {α : Type} {o : Option (α × State)} {d : α × State} (h : CanonP o) (hd : Canon d.2) : Canon (o.getD d).2 := by
  cases o with
  | none => exact hd
  | some t => exact h.out t rfl
theorem Canon_keep {k : Nat} {s t : State} (f : Fr k s t) (hk : k &&& 24576 = 0) (h : Canon s) : Canon t := by
  have hb : ∀ i, (24576 : Nat).testBit i = true → k.testBit i = false := fun i hi => by
    have := congrArg (fun n => n.testBit i) hk
    simpa [hi] using this
  have h1 : t.mem.hbm = s.mem.hbm := f.same .hbm (hb 13 (by decide))
  have h2 : t.mem.slow = s.mem.slow := f.same .slow (hb 14 (by decide))
  exact ⟨⟨h1 ▸ h.mem.hbm, h2 ▸ h.mem.slow⟩⟩
theorem CanonO_keep {k : Nat} {s : State} {q : Option State} (f : FrO k s q) (hk : k &&& 24576 = 0) (h : Canon s) : CanonO q := ⟨fun t e => Canon_keep (f.out t e) hk h⟩
theorem CanonP_keep {α : Type} {k : Nat} {s : State} {q : Option (α × State)} (f : FrP k s q) (hk : k &&& 24576 = 0) (h : Canon s) : CanonP q := ⟨fun t e => Canon_keep (f.out t e) hk h⟩
theorem CanonX_keep {k : Nat} {s : State} {r : Host.Outcome State Fault Refusal} (f : FrX k s r) (hk : k &&& 24576 = 0) (h : Canon s) : CanonX r := ⟨fun t e => Canon_keep (f.out t e) hk h⟩

/-- The canonical form of the state is that of its memories. -/
theorem canon_iff (s : State) : Canon s ↔ Memory.wf s.mem = true := by
  unfold Memory.wf
  rw [Bool.and_eq_true]
  exact ⟨fun h => ⟨h.mem.hbm.ok, h.mem.slow.ok⟩, fun h => ⟨⟨⟨h.1⟩, ⟨h.2⟩⟩⟩⟩

end Sys2Proof.Machine
end

