-- ==== Sys2Proof/Laws/FrameOps.lean ====
section
/-! SUPPORT. Laws of frames: which parts each operation of the cells, the host interface and the memory tiers can change. -/

set_option linter.unusedVariables false
set_option linter.unusedSimpArgs false
set_option linter.tactic.unusedName false

namespace Sys2Proof.Machine

theorem charge_frame {x0} {x1} {s : State} {m : Nat} {o : State} (hm : 128 ||| m = m) (h : Fr m o s) : Fr m o (State.charge x0 x1 s) := by
  unfold State.charge
  repeat'
    first
    | with_reducible assumption
    | (extract_lets +onlyGivenNames z; clear_value z; revert z; intro y)
    | simp -zeta only [Fr_mk]
    | with_reducible apply Fr_bud (ms (by decide) hm)

theorem modQp_frame {s : State} {x0} {x1} {m : Nat} {o : State} (hm : 2097152 ||| m = m) (h : Fr m o s) : Fr m o (State.modQp s x0 x1) := by
  unfold State.modQp
  repeat'
    first
    | with_reducible assumption
    | (extract_lets +onlyGivenNames z; clear_value z; revert z; intro y)
    | simp -zeta only [Fr_mk]
    | with_reducible apply Fr_host (ms (by decide) hm)

theorem summarize_frame {x0} {s : State} {m : Nat} {o : State} (hm : 33554432 ||| m = m) (h : Fr m o s) : Fr m o (State.summarize x0 s) := by
  unfold State.summarize
  repeat'
    first
    | with_reducible assumption
    | (extract_lets +onlyGivenNames z; clear_value z; revert z; intro y)
    | simp -zeta only [Fr_mk]
    | with_reducible apply Fr_flt (ms (by decide) hm)

theorem noteFull_frame {x0} {s : State} {m : Nat} {o : State} (hm : 2097152 ||| m = m) (h : Fr m o s) : Fr m o (State.noteFull x0 s) := by
  unfold State.noteFull
  repeat'
    first
    | with_reducible assumption
    | (extract_lets +onlyGivenNames z; clear_value z; revert z; intro y)
    | with_reducible apply modQp_frame (ms (by decide) hm)

theorem emit_frame {x0} {s : State} {m : Nat} {o : State} (hm : 8 ||| m = m) (h : Fr m o s) : Fr m o (State.emit x0 s) := by
  unfold State.emit
  repeat'
    first
    | with_reducible assumption
    | simp -zeta only [Fr_mk]
    | with_reducible apply Fr_out (ms (by decide) hm)

theorem sendRec_frame {x0} {x1} {x2} {s : State} {m : Nat} {o : State} (hm : 136 ||| m = m) (h : Fr m o s) : Fr m o (State.sendRec x0 x1 x2 s) := by
  unfold State.sendRec
  repeat'
    first
    | with_reducible assumption
    | with_reducible apply charge_frame (ms (by decide) hm)
    | with_reducible apply emit_frame (ms (by decide) hm)

theorem modFn_frame {s : State} {x0} {x1} {m : Nat} {o : State} (hm : 2097152 ||| m = m) (h : Fr m o s) : Fr m o (State.modFn s x0 x1) := by
  unfold State.modFn
  repeat'
    first
    | with_reducible assumption
    | (extract_lets +onlyGivenNames z; clear_value z; revert z; intro y)
    | simp -zeta only [Fr_mk]
    | with_reducible apply Fr_host (ms (by decide) hm)

theorem modRing_frame {s : State} {x0} {x1} {x2} {m : Nat} {o : State} (hm : 2097152 ||| m = m) (h : Fr m o s) : Fr m o (State.modRing s x0 x1 x2) := by
  unfold State.modRing
  repeat'
    first
    | with_reducible assumption
    | with_reducible apply modFn_frame (ms (by decide) hm)

theorem putEvent_frame {x0} {x1} {x2} {s : State} {m : Nat} {o : State} (hm : 2097288 ||| m = m) (h : Fr m o s) : Fr m o (State.putEvent x0 x1 x2 s) := by
  unfold State.putEvent
  repeat'
    first
    | with_reducible assumption
    | (intro _)
    | (extract_lets +onlyGivenNames z; refine (fun (hz : Fr m o z) => ?_) ?_; clear_value z; revert z; intro y hy; rotate_left; dsimp only [z]; clear z)
    | (extract_lets +onlyGivenNames z; clear_value z; revert z; intro y)
    | with_reducible apply charge_frame (ms (by decide) hm)
    | with_reducible apply emit_frame (ms (by decide) hm)
    | with_reducible apply modRing_frame (ms (by decide) hm)
    | with_reducible apply Fr_ite

theorem keepEvent_frame {x0} {x1} {x2} {s : State} {m : Nat} {o : State} (hm : 2097152 ||| m = m) (h : Fr m o s) : Fr m o (State.keepEvent x0 x1 x2 s) := by
  unfold State.keepEvent
  repeat'
    first
    | with_reducible assumption
    | (intro _)
    | (extract_lets +onlyGivenNames z; refine (fun (hz : Fr m o z) => ?_) ?_; clear_value z; revert z; intro y hy; rotate_left; dsimp only [z]; clear z)
    | (extract_lets +onlyGivenNames z; clear_value z; revert z; intro y)
    | with_reducible apply modRing_frame (ms (by decide) hm)
    | with_reducible apply modFn_frame (ms (by decide) hm)
    | with_reducible apply Fr_ite

theorem event_frame {x0} {x1} {x2} {s : State} {m : Nat} {o : State} (hm : 2097288 ||| m = m) (h : Fr m o s) : Fr m o (State.event x0 x1 x2 s) := by
  unfold State.event
  repeat'
    first
    | with_reducible assumption
    | (intro _)
    | (extract_lets +onlyGivenNames z; clear_value z; revert z; intro y)
    | with_reducible apply putEvent_frame (ms (by decide) hm)
    | with_reducible apply keepEvent_frame (ms (by decide) hm)
    | with_reducible apply Fr_ite

theorem writeRec_frame {x0} {x1} {s : State} {m : Nat} {o : State} (hm : 2097288 ||| m = m) (h : Fr m o s) : Fr m o (State.writeRec x0 x1 s) := by
  unfold State.writeRec
  repeat'
    first
    | with_reducible assumption
    | (intro _)
    | (extract_lets +onlyGivenNames z; refine (fun (hz : Fr m o z) => ?_) ?_; clear_value z; revert z; intro y hy; rotate_left; dsimp only [z]; clear z)
    | (extract_lets +onlyGivenNames z; clear_value z; revert z; intro y)
    | with_reducible apply modQp_frame (ms (by decide) hm)
    | with_reducible apply noteFull_frame (ms (by decide) hm)
    | with_reducible apply charge_frame (ms (by decide) hm)
    | with_reducible apply sendRec_frame (ms (by decide) hm)
    | with_reducible apply event_frame (ms (by decide) hm)
    | with_reducible apply Fr_ite

theorem record_frame {x0} {x1} {s : State} {m : Nat} {o : State} (hm : 2097288 ||| m = m) (h : Fr m o s) : Fr m o (State.record x0 x1 s) := by
  unfold State.record
  repeat'
    first
    | with_reducible assumption
    | (intro _)
    | (extract_lets +onlyGivenNames z; clear_value z; revert z; intro y)
    | with_reducible apply modQp_frame (ms (by decide) hm)
    | with_reducible apply writeRec_frame (ms (by decide) hm)
    | with_reducible apply Fr_ite

theorem closeDesc_frame {x0} {x1} {x2} {s : State} {m : Nat} {o : State} (hm : 35651720 ||| m = m) (h : Fr m o s) : Fr m o (State.closeDesc x0 x1 x2 s) := by
  unfold State.closeDesc
  repeat'
    first
    | with_reducible assumption
    | (intro _)
    | (extract_lets +onlyGivenNames z; refine (fun (hz : Fr m o z) => ?_) ?_; clear_value z; revert z; intro y hy; rotate_left; dsimp only [z]; clear z)
    | (extract_lets +onlyGivenNames z; clear_value z; revert z; intro y)
    | with_reducible apply modQp_frame (ms (by decide) hm)
    | with_reducible apply summarize_frame (ms (by decide) hm)
    | with_reducible apply record_frame (ms (by decide) hm)
    | with_reducible apply Fr_ite

theorem ctxEvent_frame {x0} {x1} {s : State} {m : Nat} {o : State} (hm : 2097288 ||| m = m) (h : Fr m o s) : Fr m o (State.ctxEvent x0 x1 s) := by
  unfold State.ctxEvent
  repeat'
    first
    | with_reducible assumption
    | with_reducible apply event_frame (ms (by decide) hm)

theorem drainEvents_frame {x0} {s : State} {m : Nat} {o : State} (hm : 2097288 ||| m = m) (h : Fr m o s) : Fr m o (State.drainEvents x0 s) := by
  unfold State.drainEvents
  repeat'
    first
    | with_reducible assumption
    | (intro _)
    | with_reducible apply putEvent_frame (ms (by decide) hm)
    | with_reducible apply modFn_frame (ms (by decide) hm)
    | with_reducible apply Fr_ite
    | with_reducible apply foldl_frame

theorem drainHeld_frame {x0} {s : State} {m : Nat} {o : State} (hm : 2097288 ||| m = m) (h : Fr m o s) : Fr m o (State.drainHeld x0 s) := by
  unfold State.drainHeld
  repeat'
    first
    | with_reducible assumption
    | (intro _)
    | with_reducible apply noteFull_frame (ms (by decide) hm)
    | with_reducible apply writeRec_frame (ms (by decide) hm)
    | with_reducible apply modQp_frame (ms (by decide) hm)
    | with_reducible apply Fr_ite
    | with_reducible apply each_frame

theorem modDesc_frame {s : State} {x0} {x1} {x2} {m : Nat} {o : State} (hm : 2097152 ||| m = m) (h : Fr m o s) : Fr m o (State.modDesc s x0 x1 x2) := by
  unfold State.modDesc
  repeat'
    first
    | with_reducible assumption
    | (extract_lets +onlyGivenNames z; clear_value z; revert z; intro y)
    | with_reducible apply modQp_frame (ms (by decide) hm)

theorem releaseTurn_frame {x0} {s : State} {m : Nat} {o : State} (hm : 35651720 ||| m = m) (h : Fr m o s) : Fr m o (State.releaseTurn x0 s) := by
  unfold State.releaseTurn
  repeat'
    first
    | with_reducible assumption
    | (intro _)
    | (extract_lets +onlyGivenNames z; clear_value z; revert z; intro y)
    | with_reducible apply modDesc_frame (ms (by decide) hm)
    | with_reducible apply closeDesc_frame (ms (by decide) hm)
    | with_reducible apply Fr_ite
    | with_reducible apply foldl_frame
    | split

theorem endTurn_frame {x0} {x1} {x2} {s : State} {m : Nat} {o : State} (hm : 35651720 ||| m = m) (h : Fr m o s) : Fr m o (State.endTurn x0 x1 x2 s) := by
  unfold State.endTurn
  repeat'
    first
    | with_reducible assumption
    | with_reducible apply releaseTurn_frame (ms (by decide) hm)
    | with_reducible apply modDesc_frame (ms (by decide) hm)

theorem finalRecord_frame {x0} {x1} {x2} {s : State} {m : Nat} {o : State} (hm : 35651720 ||| m = m) (h : Fr m o s) : Fr m o (State.finalRecord x0 x1 x2 s) := by
  unfold State.finalRecord
  repeat'
    first
    | with_reducible assumption
    | with_reducible apply record_frame (ms (by decide) hm)
    | with_reducible apply summarize_frame (ms (by decide) hm)

theorem finishDesc_frame {x0} {x1} {x2} {s : State} {m : Nat} {o : State} (hm : 35651720 ||| m = m) (h : Fr m o s) : Fr m o (State.finishDesc x0 x1 x2 s) := by
  unfold State.finishDesc
  repeat'
    first
    | with_reducible assumption
    | with_reducible apply releaseTurn_frame (ms (by decide) hm)
    | with_reducible apply closeDesc_frame (ms (by decide) hm)

theorem fresh_frame {s : State} {m : Nat} {o : State} (hm : 4 ||| m = m) (h : Fr m o s) : Fr m o (State.fresh s).2 := by
  unfold State.fresh
  repeat'
    first
    | with_reducible assumption
    | simp -zeta only [Fr_mk]
    | with_reducible apply Fr_free (ms (by decide) hm)

theorem journal_frame {x0} {s : State} {m : Nat} {o : State} (hm : 35651720 ||| m = m) (h : Fr m o s) : Fr m o (State.journal x0 s) := by
  unfold State.journal
  repeat'
    first
    | with_reducible assumption
    | (intro _)
    | (extract_lets +onlyGivenNames z; refine (fun (hz : Fr m o z) => ?_) ?_; clear_value z; revert z; intro y hy; rotate_left; dsimp only [z]; clear z)
    | (extract_lets +onlyGivenNames z; clear_value z; revert z; intro y)
    | simp -zeta only [Fr_mk]
    | with_reducible apply Fr_flt (ms (by decide) hm)
    | with_reducible apply ctxEvent_frame (ms (by decide) hm)
    | with_reducible apply Fr_ite

theorem measured_frame {s : State} {m : Nat} {o : State} (hm : 16777216 ||| m = m) (h : Fr m o s) : Fr m o (State.measured s) := by
  unfold State.measured
  repeat'
    first
    | with_reducible assumption
    | (extract_lets +onlyGivenNames z; clear_value z; revert z; intro y)
    | simp -zeta only [Fr_mk]
    | with_reducible apply Fr_lid (ms (by decide) hm)

theorem modAcct_frame {s : State} {x0} {x1} {m : Nat} {o : State} (hm : 32768 ||| m = m) (h : Fr m o s) : Fr m o (State.modAcct s x0 x1) := by
  unfold State.modAcct
  repeat'
    first
    | with_reducible assumption
    | (extract_lets +onlyGivenNames z; refine (fun (_ : z = (z : Mem)) => ?_) rfl; subst z)
    | simp -zeta only [Fr_mk]
    | (with_reducible apply Fr_tables (ms (by decide) hm) <;> try with_reducible rfl)

theorem modCell_frame {s : State} {x0} {x1} {m : Nat} {o : State} (hm : 256 ||| m = m) (h : Fr m o s) : Fr m o (State.modCell s x0 x1) := by
  unfold State.modCell
  repeat'
    first
    | with_reducible assumption
    | simp -zeta only [Fr_mk]
    | with_reducible apply Fr_cells (ms (by decide) hm)

theorem modChan_frame {s : State} {x0} {x1} {m : Nat} {o : State} (hm : 4194304 ||| m = m) (h : Fr m o s) : Fr m o (State.modChan s x0 x1) := by
  unfold State.modChan
  repeat'
    first
    | with_reducible assumption
    | (extract_lets +onlyGivenNames z; clear_value z; revert z; intro y)
    | simp -zeta only [Fr_mk]
    | with_reducible apply Fr_mb (ms (by decide) hm)

theorem modClk_frame {s : State} {x0} {x1} {m : Nat} {o : State} (hm : 67108864 ||| m = m) (h : Fr m o s) : Fr m o (State.modClk s x0 x1) := by
  unfold State.modClk
  repeat'
    first
    | with_reducible assumption
    | (extract_lets +onlyGivenNames z; clear_value z; revert z; intro y)
    | simp -zeta only [Fr_mk]
    | with_reducible apply Fr_pwr (ms (by decide) hm)

theorem modCourse_frame {s : State} {x0} {x1} {m : Nat} {o : State} (hm : 1024 ||| m = m) (h : Fr m o s) : Fr m o (State.modCourse s x0 x1) := by
  unfold State.modCourse
  repeat'
    first
    | with_reducible assumption
    | (extract_lets +onlyGivenNames z; clear_value z; revert z; intro y)
    | simp -zeta only [Fr_mk]
    | with_reducible apply Fr_crs (ms (by decide) hm)

theorem modCtx_frame {s : State} {x0} {x1} {m : Nat} {o : State} (hm : 8388608 ||| m = m) (h : Fr m o s) : Fr m o (State.modCtx s x0 x1) := by
  unfold State.modCtx
  repeat'
    first
    | with_reducible assumption
    | simp -zeta only [Fr_mk]
    | with_reducible apply Fr_ctxs (ms (by decide) hm)

theorem modFlow_frame {s : State} {x0} {x1} {m : Nat} {o : State} (hm : 2097152 ||| m = m) (h : Fr m o s) : Fr m o (State.modFlow s x0 x1) := by
  unfold State.modFlow
  repeat'
    first
    | with_reducible assumption
    | (extract_lets +onlyGivenNames z; clear_value z; revert z; intro y)
    | simp -zeta only [Fr_mk]
    | with_reducible apply Fr_host (ms (by decide) hm)

theorem modFrame_frame {s : State} {x0} {x1} {m : Nat} {o : State} (hm : 32768 ||| m = m) (h : Fr m o s) : Fr m o (State.modFrame s x0 x1) := by
  unfold State.modFrame
  repeat'
    first
    | with_reducible assumption
    | (extract_lets +onlyGivenNames z; refine (fun (_ : z = (z : Mem)) => ?_) rfl; subst z)
    | simp -zeta only [Fr_mk]
    | (with_reducible apply Fr_tables (ms (by decide) hm) <;> try with_reducible rfl)

theorem modStake_frame {s : State} {x0} {x1} {m : Nat} {o : State} (hm : 4096 ||| m = m) (h : Fr m o s) : Fr m o (State.modStake s x0 x1) := by
  unfold State.modStake
  repeat'
    first
    | with_reducible assumption
    | simp -zeta only [Fr_mk]
    | with_reducible apply Fr_stakes (ms (by decide) hm)

theorem modGen_frame {s : State} {x0} {x1} {x2} {m : Nat} {o : State} (hm : 4096 ||| m = m) (h : Fr m o s) : Fr m o (State.modGen s x0 x1 x2) := by
  unfold State.modGen
  repeat'
    first
    | with_reducible assumption
    | with_reducible apply modStake_frame (ms (by decide) hm)

theorem modJob_frame {s : State} {x0} {x1} {m : Nat} {o : State} (hm : 131072 ||| m = m) (h : Fr m o s) : Fr m o (State.modJob s x0 x1) := by
  unfold State.modJob
  repeat'
    first
    | with_reducible assumption
    | (extract_lets +onlyGivenNames z; clear_value z; revert z; intro y)
    | simp -zeta only [Fr_mk]
    | with_reducible apply Fr_train (ms (by decide) hm)

theorem modMig_frame {s : State} {x0} {x1} {m : Nat} {o : State} (hm : 32768 ||| m = m) (h : Fr m o s) : Fr m o (State.modMig s x0 x1) := by
  unfold State.modMig
  repeat'
    first
    | with_reducible assumption
    | (extract_lets +onlyGivenNames z; refine (fun (_ : z = (z : Mem)) => ?_) rfl; subst z)
    | simp -zeta only [Fr_mk]
    | (with_reducible apply Fr_tables (ms (by decide) hm) <;> try with_reducible rfl)

theorem modMsd_frame {s : State} {x0} {x1} {m : Nat} {o : State} (hm : 65536 ||| m = m) (h : Fr m o s) : Fr m o (State.modMsd s x0 x1) := by
  unfold State.modMsd
  repeat'
    first
    | with_reducible assumption
    | simp -zeta only [Fr_mk]
    | with_reducible apply Fr_msd (ms (by decide) hm)

theorem modPort_frame {s : State} {x0} {x1} {m : Nat} {o : State} (hm : 262144 ||| m = m) (h : Fr m o s) : Fr m o (State.modPort s x0 x1) := by
  unfold State.modPort
  repeat'
    first
    | with_reducible assumption
    | simp -zeta only [Fr_mk]
    | with_reducible apply Fr_ports (ms (by decide) hm)

theorem modPte_frame {s : State} {x0} {x1} {m : Nat} {o : State} (hm : 32768 ||| m = m) (h : Fr m o s) : Fr m o (State.modPte s x0 x1) := by
  unfold State.modPte
  repeat'
    first
    | with_reducible assumption
    | (extract_lets +onlyGivenNames z; refine (fun (_ : z = (z : Mem)) => ?_) rfl; subst z)
    | simp -zeta only [Fr_mk]
    | (with_reducible apply Fr_tables (ms (by decide) hm) <;> try with_reducible rfl)

theorem modSession_frame {s : State} {x0} {x1} {m : Nat} {o : State} (hm : 2048 ||| m = m) (h : Fr m o s) : Fr m o (State.modSession s x0 x1) := by
  unfold State.modSession
  repeat'
    first
    | with_reducible assumption
    | (extract_lets +onlyGivenNames z; clear_value z; revert z; intro y)
    | simp -zeta only [Fr_mk]
    | with_reducible apply Fr_weav (ms (by decide) hm)

theorem modSide_frame {s : State} {x0} {x1} {m : Nat} {o : State} (hm : 2048 ||| m = m) (h : Fr m o s) : Fr m o (State.modSide s x0 x1) := by
  unfold State.modSide
  repeat'
    first
    | with_reducible assumption
    | (extract_lets +onlyGivenNames z; clear_value z; revert z; intro y)
    | simp -zeta only [Fr_mk]
    | with_reducible apply Fr_weav (ms (by decide) hm)

theorem modSkey_frame {s : State} {x0} {x1} {m : Nat} {o : State} (hm : 16777216 ||| m = m) (h : Fr m o s) : Fr m o (State.modSkey s x0 x1) := by
  unfold State.modSkey
  repeat'
    first
    | with_reducible assumption
    | (extract_lets +onlyGivenNames z; clear_value z; revert z; intro y)
    | simp -zeta only [Fr_mk]
    | with_reducible apply Fr_lid (ms (by decide) hm)

theorem modStream_frame {s : State} {x0} {x1} {x2} {m : Nat} {o : State} (hm : 256 ||| m = m) (h : Fr m o s) : Fr m o (State.modStream s x0 x1 x2) := by
  unfold State.modStream
  repeat'
    first
    | with_reducible assumption
    | with_reducible apply modCell_frame (ms (by decide) hm)

theorem modSup_frame {s : State} {x0} {x1} {m : Nat} {o : State} (hm : 67108864 ||| m = m) (h : Fr m o s) : Fr m o (State.modSup s x0 x1) := by
  unfold State.modSup
  repeat'
    first
    | with_reducible assumption
    | (extract_lets +onlyGivenNames z; clear_value z; revert z; intro y)
    | simp -zeta only [Fr_mk]
    | with_reducible apply Fr_pwr (ms (by decide) hm)

theorem modTkey_frame {s : State} {x0} {x1} {m : Nat} {o : State} (hm : 16777216 ||| m = m) (h : Fr m o s) : Fr m o (State.modTkey s x0 x1) := by
  unfold State.modTkey
  repeat'
    first
    | with_reducible assumption
    | (extract_lets +onlyGivenNames z; clear_value z; revert z; intro y)
    | simp -zeta only [Fr_mk]
    | with_reducible apply Fr_lid (ms (by decide) hm)

theorem modWeaver_frame {s : State} {x0} {x1} {m : Nat} {o : State} (hm : 2048 ||| m = m) (h : Fr m o s) : Fr m o (State.modWeaver s x0 x1) := by
  unfold State.modWeaver
  repeat'
    first
    | with_reducible assumption
    | (extract_lets +onlyGivenNames z; clear_value z; revert z; intro y)
    | simp -zeta only [Fr_mk]
    | with_reducible apply Fr_weav (ms (by decide) hm)

theorem originate_frame {x0} {x1} {x2} {s : State} {m : Nat} {o : State} (hm : 1048584 ||| m = m) (h : Fr m o s) : Fr m o (State.originate x0 x1 x2 s) := by
  unfold State.originate
  repeat'
    first
    | with_reducible assumption
    | (intro _)
    | (extract_lets +onlyGivenNames z; clear_value z; revert z; intro y)
    | simp -zeta only [Fr_mk]
    | with_reducible apply Fr_hoop (ms (by decide) hm)
    | with_reducible apply emit_frame (ms (by decide) hm)
    | with_reducible apply Fr_ite

theorem polLimit_frame {x0} {s : State} {m : Nat} {o : State} (hm : 33554432 ||| m = m) (h : Fr m o s) : Fr m o (State.polLimit x0 s) := by
  unfold State.polLimit
  repeat'
    first
    | with_reducible assumption
    | (intro _)
    | (extract_lets +onlyGivenNames z; clear_value z; revert z; intro y)
    | simp -zeta only [Fr_mk]
    | with_reducible apply Fr_flt (ms (by decide) hm)
    | with_reducible apply Fr_ite

theorem rekey_frame {s : State} {m : Nat} {o : State} (hm : 16777216 ||| m = m) (h : Fr m o s) : Fr m o (State.rekey s) := by
  unfold State.rekey
  repeat'
    first
    | with_reducible assumption
    | (extract_lets +onlyGivenNames z; clear_value z; revert z; intro y)
    | simp -zeta only [Fr_mk]
    | with_reducible apply Fr_lid (ms (by decide) hm)

theorem reserved_frame {s : State} {m : Nat} {o : State} (hm : 32 ||| m = m) (h : Fr m o s) : Fr m o (State.reserved s) := by
  unfold State.reserved
  repeat'
    first
    | with_reducible assumption
    | simp -zeta only [Fr_mk]
    | with_reducible apply Fr_rsvdAcc (ms (by decide) hm)

theorem translate_frame {x0} {x1} {x2} {s : State} {m : Nat} {o : State} (hm : 2097152 ||| m = m) (h : Fr m o s) : Fr m o (State.translate x0 x1 x2 s) := by
  unfold State.translate
  repeat'
    first
    | with_reducible assumption
    | (intro _)
    | (extract_lets +onlyGivenNames z; clear_value z; revert z; intro y)
    | simp -zeta only [Fr_mk]
    | with_reducible apply Fr_host (ms (by decide) hm)
    | with_reducible apply Fr_ite

theorem testBorrow_frame {s : State} {m : Nat} {o : State} (hm : 128 ||| m = m) (h : Fr m o s) : Fr m o (State.testBorrow s) := by
  unfold State.testBorrow
  repeat'
    first
    | with_reducible assumption
    | (intro _)
    | (extract_lets +onlyGivenNames z; clear_value z; revert z; intro y)
    | simp -zeta only [Fr_mk]
    | with_reducible apply Fr_bud (ms (by decide) hm)
    | with_reducible apply Fr_ite

theorem turnAway_frame {x0} {x1} {s : State} {m : Nat} {o : State} (hm : 128 ||| m = m) (h : Fr m o s) : Fr m o (State.turnAway x0 x1 s) := by
  unfold State.turnAway
  repeat'
    first
    | with_reducible assumption
    | (extract_lets +onlyGivenNames z; clear_value z; revert z; intro y)
    | simp -zeta only [Fr_mk]
    | with_reducible apply Fr_bud (ms (by decide) hm)

theorem admitMany_frame {x0} {x1} {x2} {s : State} {m : Nat} {o : State} (hm : 128 ||| m = m) (h : Fr m o s) : Fr m o (State.admitMany x0 x1 x2 s).2 := by
  unfold State.admitMany
  repeat'
    first
    | with_reducible assumption
    | (intro _)
    | (extract_lets +onlyGivenNames z; refine (fun (hz : Fr m o z) => ?_) ?_; clear_value z; revert z; intro y hy; rotate_left; dsimp only [z]; clear z)
    | (extract_lets +onlyGivenNames z; clear_value z; revert z; intro y)
    | with_reducible apply testBorrow_frame (ms (by decide) hm)
    | with_reducible apply charge_frame (ms (by decide) hm)
    | with_reducible apply turnAway_frame (ms (by decide) hm)
    | with_reducible apply Fr_ite
    | with_reducible apply Fr_ite2

theorem admitMove_frame {x0} {s : State} {m : Nat} {o : State} (hm : 128 ||| m = m) (h : Fr m o s) : Fr m o (State.admitMove x0 s).2 := by
  unfold State.admitMove
  repeat'
    first
    | with_reducible assumption
    | (intro _)
    | (extract_lets +onlyGivenNames z; refine (fun (hz : Fr m o z.2) => ?_) ?_; clear_value z; revert z; intro y hy; rotate_left; dsimp only [z]; clear z)
    | (extract_lets +onlyGivenNames z; clear_value z; revert z; intro y)
    | with_reducible apply admitMany_frame (ms (by decide) hm)
    | with_reducible apply Fr_ite2

theorem admitUnit_frame {x0} {x1} {s : State} {m : Nat} {o : State} (hm : 128 ||| m = m) (h : Fr m o s) : Fr m o (State.admitUnit x0 x1 s).2 := by
  unfold State.admitUnit
  repeat'
    first
    | with_reducible assumption
    | (intro _)
    | (extract_lets +onlyGivenNames z; refine (fun (hz : Fr m o z) => ?_) ?_; clear_value z; revert z; intro y hy; rotate_left; dsimp only [z]; clear z)
    | with_reducible apply testBorrow_frame (ms (by decide) hm)
    | with_reducible apply charge_frame (ms (by decide) hm)
    | with_reducible apply turnAway_frame (ms (by decide) hm)
    | with_reducible apply Fr_ite
    | with_reducible apply Fr_ite2

theorem admitOnce_frame {x0} {x1} {x2} {s : State} {m : Nat} {o : State} (hm : 128 ||| m = m) (h : Fr m o s) : Fr m o (State.admitOnce x0 x1 x2 s).2 := by
  unfold State.admitOnce
  repeat'
    first
    | with_reducible assumption
    | (intro _)
    | (extract_lets +onlyGivenNames z; refine (fun (hz : Fr m o z) => ?_) ?_; clear_value z; revert z; intro y hy; rotate_left; dsimp only [z]; clear z)
    | (extract_lets +onlyGivenNames z; refine (fun (hz : Fr m o z.2) => ?_) ?_; clear_value z; revert z; intro y hy; rotate_left; dsimp only [z]; clear z)
    | (extract_lets +onlyGivenNames z; clear_value z; revert z; intro y)
    | simp -zeta only [Fr_mk]
    | with_reducible apply Fr_bud (ms (by decide) hm)
    | with_reducible apply admitUnit_frame (ms (by decide) hm)
    | with_reducible apply Fr_ite2

theorem applyShares_frame {s : State} {m : Nat} {o : State} (hm : 35651720 ||| m = m) (h : Fr m o s) : Fr m o (State.applyShares s) := by
  unfold State.applyShares
  repeat'
    first
    | with_reducible assumption
    | (intro _)
    | (extract_lets +onlyGivenNames z; clear_value z; revert z; intro y)
    | simp -zeta only [Fr_mk]
    | with_reducible apply Fr_bud (ms (by decide) hm)
    | with_reducible apply journal_frame (ms (by decide) hm)
    | with_reducible apply Fr_ite

theorem dropMove_frame {x0} {s : State} {m : Nat} {o : State} (hm : 128 ||| m = m) (h : Fr m o s) : Fr m o (State.dropMove x0 s) := by
  unfold State.dropMove
  repeat'
    first
    | with_reducible assumption
    | (extract_lets +onlyGivenNames z; clear_value z; revert z; intro y)
    | simp -zeta only [Fr_mk]
    | with_reducible apply Fr_bud (ms (by decide) hm)

theorem freshBudgets_frame {s : State} {m : Nat} {o : State} (hm : 128 ||| m = m) (h : Fr m o s) : Fr m o (State.freshBudgets s) := by
  unfold State.freshBudgets
  repeat'
    first
    | with_reducible assumption
    | (extract_lets +onlyGivenNames z; clear_value z; revert z; intro y)
    | simp -zeta only [Fr_mk]
    | with_reducible apply Fr_bud (ms (by decide) hm)

theorem hold_frame {x0} {x1} {x2} {s : State} {m : Nat} {o : State} (hm : 128 ||| m = m) (h : Fr m o s) : Fr m o (State.hold x0 x1 x2 s) := by
  unfold State.hold
  repeat'
    first
    | with_reducible assumption
    | (extract_lets +onlyGivenNames z; clear_value z; revert z; intro y)
    | simp -zeta only [Fr_mk]
    | with_reducible apply Fr_bud (ms (by decide) hm)

theorem holdMove_frame {x0} {s : State} {m : Nat} {o : State} (hm : 128 ||| m = m) (h : Fr m o s) : Fr m o (State.holdMove x0 s) := by
  unfold State.holdMove
  repeat'
    first
    | with_reducible assumption
    | (extract_lets +onlyGivenNames z; clear_value z; revert z; intro y)
    | simp -zeta only [Fr_mk]
    | with_reducible apply Fr_bud (ms (by decide) hm)

theorem latchTallies_frame {s : State} {m : Nat} {o : State} (hm : 128 ||| m = m) (h : Fr m o s) : Fr m o (State.latchTallies s) := by
  unfold State.latchTallies
  repeat'
    first
    | with_reducible assumption
    | (extract_lets +onlyGivenNames z; clear_value z; revert z; intro y)
    | simp -zeta only [Fr_mk]
    | with_reducible apply Fr_bud (ms (by decide) hm)

theorem newBudgets_frame {s : State} {m : Nat} {o : State} (hm : 35651720 ||| m = m) (h : Fr m o s) : Fr m o (State.newBudgets s) := by
  unfold State.newBudgets
  repeat'
    first
    | with_reducible assumption
    | (intro _)
    | (extract_lets +onlyGivenNames z; refine (fun (hz : Fr m o z) => ?_) ?_; clear_value z; revert z; intro y hy; rotate_left; dsimp only [z]; clear z)
    | (extract_lets +onlyGivenNames z; clear_value z; revert z; intro y)
    | simp -zeta only [Fr_mk]
    | with_reducible apply Fr_bud (ms (by decide) hm)
    | with_reducible apply applyShares_frame (ms (by decide) hm)
    | with_reducible apply each_frame

theorem pushMove_frame {x0} {s : State} {m : Nat} {o : State} (hm : 128 ||| m = m) (h : Fr m o s) : Fr m o (State.pushMove x0 s) := by
  unfold State.pushMove
  repeat'
    first
    | with_reducible assumption
    | (intro _)
    | (extract_lets +onlyGivenNames z; refine (fun (hz : Fr m o z) => ?_) ?_; clear_value z; revert z; intro y hy; rotate_left; dsimp only [z]; clear z)
    | (extract_lets +onlyGivenNames z; refine (fun (hz : Fr m o z.2) => ?_) ?_; clear_value z; revert z; intro y hy; rotate_left; dsimp only [z]; clear z)
    | (extract_lets +onlyGivenNames z; clear_value z; revert z; intro y)
    | simp -zeta only [Fr_mk]
    | with_reducible apply Fr_bud (ms (by decide) hm)
    | with_reducible apply admitMove_frame (ms (by decide) hm)
    | with_reducible apply Fr_ite

theorem pumpMoves_frame {x0} {s : State} {m : Nat} {o : State} (hm : 128 ||| m = m) (h : Fr m o s) : Fr m o (State.pumpMoves x0 s) := by
  unfold State.pumpMoves
  repeat'
    first
    | with_reducible assumption
    | (intro _)
    | (extract_lets +onlyGivenNames z; clear_value z; revert z; intro y)
    | simp -zeta only [Fr_mk]
    | with_reducible apply Fr_bud (ms (by decide) hm)
    | with_reducible apply pushMove_frame (ms (by decide) hm)
    | with_reducible apply each_frame

theorem answer_frame {x0} {x1} {x2} {x3} {x4} {s : State} {m : Nat} {o : State} (hm : 6291592 ||| m = m) (h : Fr m o s) : Fr m o (State.answer x0 x1 x2 x3 x4 s) := by
  unfold State.answer
  repeat'
    first
    | with_reducible assumption
    | (intro _)
    | (extract_lets +onlyGivenNames z; refine (fun (hz : Fr m o z) => ?_) ?_; clear_value z; revert z; intro y hy; rotate_left; dsimp only [z]; clear z)
    | (extract_lets +onlyGivenNames z; clear_value z; revert z; intro y)
    | with_reducible apply modChan_frame (ms (by decide) hm)
    | with_reducible apply event_frame (ms (by decide) hm)
    | with_reducible apply Fr_ite

theorem accept_frame {x0} {s : State} {m : Nat} {o : State} (hm : 6291592 ||| m = m) (h : Fr m o s) : Fr m o (State.accept x0 s) := by
  unfold State.accept
  repeat'
    first
    | with_reducible assumption
    | (intro _)
    | (extract_lets +onlyGivenNames z; refine (fun (hz : Fr m o z) => ?_) ?_; clear_value z; revert z; intro y hy; rotate_left; dsimp only [z]; clear z)
    | (extract_lets +onlyGivenNames z; clear_value z; revert z; intro y)
    | simp -zeta only [Fr_mk]
    | with_reducible apply Fr_mb (ms (by decide) hm)
    | with_reducible apply modChan_frame (ms (by decide) hm)
    | with_reducible apply answer_frame (ms (by decide) hm)
    | with_reducible apply Fr_ite

theorem command_frame {x0} {x1} {x2} {x3} {x4} {s : State} {m : Nat} {o : State} (hm : 6291592 ||| m = m) (hf : ∀ q t, Fr m o t → Fr m o (x3 q t).2) (h : Fr m o s) : Fr m o (State.command x0 x1 x2 x3 x4 s) := by
  unfold State.command
  repeat'
    first
    | with_reducible assumption
    | (intro _)
    | (extract_lets +onlyGivenNames z; refine (fun (hz : Fr m o z.2) => ?_) ?_; clear_value z; revert z; intro y hy; rotate_left; dsimp only [z]; clear z)
    | (extract_lets +onlyGivenNames z; clear_value z; revert z; intro y)
    | with_reducible apply answer_frame (ms (by decide) hm)
    | with_reducible apply Fr_ite
    | split
    | with_reducible apply_assumption

theorem mbCtl_frame {x0} {x1} {s : State} {m : Nat} {o : State} (hm : 6291592 ||| m = m) (h : Fr m o s) : Fr m o (State.mbCtl x0 x1 s) := by
  unfold State.mbCtl
  repeat'
    first
    | with_reducible assumption
    | (intro _)
    | (extract_lets +onlyGivenNames z; refine (fun (hz : Fr m o z) => ?_) ?_; clear_value z; revert z; intro y hy; rotate_left; dsimp only [z]; clear z)
    | (extract_lets +onlyGivenNames z; clear_value z; revert z; intro y)
    | with_reducible apply modChan_frame (ms (by decide) hm)
    | with_reducible apply accept_frame (ms (by decide) hm)
    | with_reducible apply Fr_ite

theorem reqWrite_frame {x0} {x1} {x2} {s : State} {m : Nat} {o : State} (hm : 4194304 ||| m = m) (h : Fr m o s) : Fr m o (State.reqWrite x0 x1 x2 s) := by
  unfold State.reqWrite
  repeat'
    first
    | with_reducible assumption
    | (intro _)
    | (extract_lets +onlyGivenNames z; clear_value z; revert z; intro y)
    | with_reducible apply modChan_frame (ms (by decide) hm)
    | with_reducible apply Fr_ite

theorem checked_frame {x0} {x1} {s : State} {m : Nat} {o : State} (hm : 0 ||| m = m) (hx : Fr m o x1.2) (h : Fr m o s) : Fr m o (checked x0 x1 s).2 := by
  unfold checked
  repeat'
    first
    | with_reducible assumption
    | split

theorem wrMailbox_frame {x0} {x1} {x2} {s : State} {m : Nat} {o : State} (hm : 6291624 ||| m = m) (h : Fr m o s) : Fr m o (State.wrMailbox x0 x1 x2 s) := by
  unfold State.wrMailbox
  repeat'
    first
    | with_reducible assumption
    | (intro _)
    | (extract_lets +onlyGivenNames z; clear_value z; revert z; intro y)
    | with_reducible apply reserved_frame (ms (by decide) hm)
    | with_reducible apply mbCtl_frame (ms (by decide) hm)
    | with_reducible apply reqWrite_frame (ms (by decide) hm)
    | with_reducible apply Fr_ite

theorem wrEvent_frame {x0} {x1} {x2} {s : State} {m : Nat} {o : State} (hm : 2097288 ||| m = m) (h : Fr m o s) : Fr m o (State.wrEvent x0 x1 x2 s) := by
  unfold State.wrEvent
  repeat'
    first
    | with_reducible assumption
    | (intro _)
    | with_reducible apply drainEvents_frame (ms (by decide) hm)
    | with_reducible apply modRing_frame (ms (by decide) hm)
    | with_reducible apply Fr_ite

theorem startRounds_frame {s : State} {m : Nat} {o : State} (hm : 192 ||| m = m) (h : Fr m o s) : Fr m o (State.startRounds s) := by
  unfold State.startRounds
  repeat'
    first
    | with_reducible assumption
    | (extract_lets +onlyGivenNames z; clear_value z; revert z; intro y)
    | simp -zeta only [Fr_mk]
    | with_reducible apply Fr_rnd (ms (by decide) hm)
    | with_reducible apply freshBudgets_frame (ms (by decide) hm)

theorem stopRounds_frame {s : State} {m : Nat} {o : State} (hm : 192 ||| m = m) (h : Fr m o s) : Fr m o (State.stopRounds s) := by
  unfold State.stopRounds
  repeat'
    first
    | with_reducible assumption
    | (extract_lets +onlyGivenNames z; clear_value z; revert z; intro y)
    | simp -zeta only [Fr_mk]
    | with_reducible apply Fr_rnd_bud (ms (by decide) hm)

theorem wrRndCtl_frame {x0} {s : State} {m : Nat} {o : State} (hm : 224 ||| m = m) (h : Fr m o s) : Fr m o (State.wrRndCtl x0 s) := by
  unfold State.wrRndCtl
  repeat'
    first
    | with_reducible assumption
    | (intro _)
    | (extract_lets +onlyGivenNames z; refine (fun (hz : Fr m o z) => ?_) ?_; clear_value z; revert z; intro y hy; rotate_left; dsimp only [z]; clear z)
    | (extract_lets +onlyGivenNames z; clear_value z; revert z; intro y)
    | simp -zeta only [Fr_mk]
    | with_reducible apply Fr_rnd (ms (by decide) hm)
    | with_reducible apply reserved_frame (ms (by decide) hm)
    | with_reducible apply startRounds_frame (ms (by decide) hm)
    | with_reducible apply stopRounds_frame (ms (by decide) hm)
    | with_reducible apply Fr_ite

theorem wrRndLen_frame {x0} {s : State} {m : Nat} {o : State} (hm : 96 ||| m = m) (h : Fr m o s) : Fr m o (State.wrRndLen x0 s) := by
  unfold State.wrRndLen
  repeat'
    first
    | with_reducible assumption
    | (intro _)
    | (extract_lets +onlyGivenNames z; clear_value z; revert z; intro y)
    | simp -zeta only [Fr_mk]
    | with_reducible apply Fr_rnd (ms (by decide) hm)
    | with_reducible apply reserved_frame (ms (by decide) hm)
    | with_reducible apply Fr_ite

theorem wrRndNum_frame {x0} {s : State} {m : Nat} {o : State} (hm : 64 ||| m = m) (h : Fr m o s) : Fr m o (State.wrRndNum x0 s) := by
  unfold State.wrRndNum
  repeat'
    first
    | with_reducible assumption
    | (intro _)
    | (extract_lets +onlyGivenNames z; clear_value z; revert z; intro y)
    | simp -zeta only [Fr_mk]
    | with_reducible apply Fr_rnd (ms (by decide) hm)
    | with_reducible apply Fr_ite

theorem wrRound_frame {x0} {x1} {s : State} {m : Nat} {o : State} (hm : 224 ||| m = m) (h : Fr m o s) : Fr m o (State.wrRound x0 x1 s) := by
  unfold State.wrRound
  repeat'
    first
    | with_reducible assumption
    | (intro _)
    | with_reducible apply wrRndCtl_frame (ms (by decide) hm)
    | with_reducible apply wrRndLen_frame (ms (by decide) hm)
    | with_reducible apply wrRndNum_frame (ms (by decide) hm)
    | with_reducible apply Fr_ite

theorem wrShare_frame {x0} {x1} {s : State} {m : Nat} {o : State} (hm : 160 ||| m = m) (h : Fr m o s) : Fr m o (State.wrShare x0 x1 s) := by
  unfold State.wrShare
  repeat'
    first
    | with_reducible assumption
    | (intro _)
    | (extract_lets +onlyGivenNames z; clear_value z; revert z; intro y)
    | simp -zeta only [Fr_mk]
    | with_reducible apply Fr_bud (ms (by decide) hm)
    | with_reducible apply reserved_frame (ms (by decide) hm)
    | with_reducible apply Fr_ite

theorem wrBudCtl_frame {x0} {s : State} {m : Nat} {o : State} (hm : 128 ||| m = m) (h : Fr m o s) : Fr m o (State.wrBudCtl x0 s) := by
  unfold State.wrBudCtl
  repeat'
    first
    | with_reducible assumption
    | (extract_lets +onlyGivenNames z; clear_value z; revert z; intro y)
    | simp -zeta only [Fr_mk]
    | with_reducible apply Fr_bud (ms (by decide) hm)

theorem wrBudget_frame {x0} {x1} {s : State} {m : Nat} {o : State} (hm : 160 ||| m = m) (h : Fr m o s) : Fr m o (State.wrBudget x0 x1 s) := by
  unfold State.wrBudget
  repeat'
    first
    | with_reducible assumption
    | (intro _)
    | with_reducible apply wrShare_frame (ms (by decide) hm)
    | with_reducible apply wrBudCtl_frame (ms (by decide) hm)
    | with_reducible apply Fr_ite

theorem blockReset_frame {x0} {x1} {s : State} {m : Nat} {o : State} (hm : 134217728 ||| m = m) (h : Fr m o s) : Fr m o (State.blockReset x0 x1 s) := by
  unfold State.blockReset
  repeat'
    first
    | with_reducible assumption
    | (intro _)
    | (extract_lets +onlyGivenNames z; clear_value z; revert z; intro y)
    | simp -zeta only [Fr_mk]
    | with_reducible apply Fr_rst (ms (by decide) hm)
    | with_reducible apply Fr_ite

theorem wrPower_frame {x0} {x1} {s : State} {m : Nat} {o : State} (hm : 134217760 ||| m = m) (h : Fr m o s) : Fr m o (State.wrPower x0 x1 s) := by
  unfold State.wrPower
  repeat'
    first
    | with_reducible assumption
    | (intro _)
    | (extract_lets +onlyGivenNames z; refine (fun (hz : Fr m o z) => ?_) ?_; clear_value z; revert z; intro y hy; rotate_left; dsimp only [z]; clear z)
    | (extract_lets +onlyGivenNames z; clear_value z; revert z; intro y)
    | simp -zeta only [Fr_mk]
    | with_reducible apply Fr_rst (ms (by decide) hm)
    | with_reducible apply blockReset_frame (ms (by decide) hm)
    | with_reducible apply reserved_frame (ms (by decide) hm)
    | with_reducible apply Fr_ite

theorem wrHoop_frame {x0} {x1} {s : State} {m : Nat} {o : State} (hm : 1048640 ||| m = m) (h : Fr m o s) : Fr m o (State.wrHoop x0 x1 s) := by
  unfold State.wrHoop
  repeat'
    first
    | with_reducible assumption
    | (intro _)
    | (extract_lets +onlyGivenNames z; clear_value z; revert z; intro y)
    | simp -zeta only [Fr_mk]
    | with_reducible apply Fr_hoop (ms (by decide) hm)
    | with_reducible apply Fr_rnd (ms (by decide) hm)
    | with_reducible apply Fr_ite

theorem wrFault_frame {x0} {x1} {s : State} {m : Nat} {o : State} (hm : 33554432 ||| m = m) (h : Fr m o s) : Fr m o (State.wrFault x0 x1 s) := by
  unfold State.wrFault
  repeat'
    first
    | with_reducible assumption
    | (intro _)
    | (extract_lets +onlyGivenNames z; clear_value z; revert z; intro y)
    | simp -zeta only [Fr_mk]
    | with_reducible apply Fr_flt (ms (by decide) hm)
    | with_reducible apply Fr_ite

theorem wrPortCfg_frame {x0} {x1} {s : State} {m : Nat} {o : State} (hm : 1090781216 ||| m = m) (h : Fr m o s) : Fr m o (State.wrPortCfg x0 x1 s) := by
  unfold State.wrPortCfg
  repeat'
    first
    | with_reducible assumption
    | (intro _)
    | (extract_lets +onlyGivenNames z; refine (fun (hz : Fr m o z) => ?_) ?_; clear_value z; revert z; intro y hy; rotate_left; dsimp only [z]; clear z)
    | (extract_lets +onlyGivenNames z; clear_value z; revert z; intro y)
    | simp -zeta only [Fr_mk]
    | with_reducible apply Fr_txHeld (ms (by decide) hm)
    | with_reducible apply reserved_frame (ms (by decide) hm)
    | with_reducible apply measured_frame (ms (by decide) hm)
    | with_reducible apply modPort_frame (ms (by decide) hm)
    | with_reducible apply Fr_ite

theorem wrPort_frame {x0} {x1} {x2} {s : State} {m : Nat} {o : State} (hm : 1090781216 ||| m = m) (h : Fr m o s) : Fr m o (State.wrPort x0 x1 x2 s) := by
  unfold State.wrPort
  repeat'
    first
    | with_reducible assumption
    | (intro _)
    | with_reducible apply reserved_frame (ms (by decide) hm)
    | with_reducible apply wrPortCfg_frame (ms (by decide) hm)
    | with_reducible apply modPort_frame (ms (by decide) hm)
    | with_reducible apply Fr_ite

theorem wrMsd_frame {x0} {x1} {x2} {s : State} {m : Nat} {o : State} (hm : 65568 ||| m = m) (h : Fr m o s) : Fr m o (State.wrMsd x0 x1 x2 s) := by
  unfold State.wrMsd
  repeat'
    first
    | with_reducible assumption
    | (intro _)
    | with_reducible apply reserved_frame (ms (by decide) hm)
    | with_reducible apply modMsd_frame (ms (by decide) hm)
    | with_reducible apply Fr_ite

theorem barWrite_frame {x0} {x1} {x2} {s : State} {m : Nat} {o : State} (hm : 1265959144 ||| m = m) (h : Fr m o s) : Fr m o (State.barWrite x0 x1 x2 s) := by
  unfold State.barWrite
  repeat'
    first
    | with_reducible assumption
    | (intro _)
    | (extract_lets +onlyGivenNames z; clear_value z; revert z; intro y)
    | with_reducible apply reserved_frame (ms (by decide) hm)
    | with_reducible apply wrMailbox_frame (ms (by decide) hm)
    | with_reducible apply wrEvent_frame (ms (by decide) hm)
    | with_reducible apply wrRound_frame (ms (by decide) hm)
    | with_reducible apply wrBudget_frame (ms (by decide) hm)
    | with_reducible apply wrPower_frame (ms (by decide) hm)
    | with_reducible apply wrHoop_frame (ms (by decide) hm)
    | with_reducible apply wrFault_frame (ms (by decide) hm)
    | with_reducible apply wrPort_frame (ms (by decide) hm)
    | with_reducible apply wrMsd_frame (ms (by decide) hm)
    | with_reducible apply Fr_ite

theorem barAccess_frame {x0} {x1} {x2} {x3} {s : State} {m : Nat} {o : State} (hm : 1265959144 ||| m = m) (h : Fr m o s) : Fr m o (State.barAccess x0 x1 x2 x3 s) := by
  unfold State.barAccess
  repeat'
    first
    | with_reducible assumption
    | (intro _)
    | with_reducible apply barWrite_frame (ms (by decide) hm)
    | with_reducible apply reserved_frame (ms (by decide) hm)
    | with_reducible apply Fr_ite

theorem readHigh_frame {x0} {x1} {s : State} {m : Nat} {o : State} (hm : 24 ||| m = m) (h : Fr m o s) : Fr m o (State.readHigh x0 x1 s) := by
  unfold State.readHigh
  repeat'
    first
    | with_reducible assumption
    | (intro _)
    | simp -zeta only [Fr_mk]
    | with_reducible apply Fr_latch (ms (by decide) hm)
    | with_reducible apply emit_frame (ms (by decide) hm)
    | with_reducible apply Fr_ite
    | split

theorem readLow_frame {x0} {x1} {s : State} {m : Nat} {o : State} (hm : 24 ||| m = m) (h : Fr m o s) : Fr m o (State.readLow x0 x1 s) := by
  unfold State.readLow
  repeat'
    first
    | with_reducible assumption
    | (intro _)
    | (extract_lets +onlyGivenNames z; refine (fun (hz : Fr m o z) => ?_) ?_; clear_value z; revert z; intro y hy; rotate_left; dsimp only [z]; clear z)
    | (extract_lets +onlyGivenNames z; clear_value z; revert z; intro y)
    | simp -zeta only [Fr_mk]
    | with_reducible apply Fr_latch (ms (by decide) hm)
    | with_reducible apply emit_frame (ms (by decide) hm)
    | with_reducible apply Fr_ite

theorem readWide_frame {x0} {x1} {s : State} {m : Nat} {o : State} (hm : 8 ||| m = m) (h : Fr m o s) : Fr m o (State.readWide x0 x1 s) := by
  unfold State.readWide
  repeat'
    first
    | with_reducible assumption
    | (intro _)
    | with_reducible apply emit_frame (ms (by decide) hm)
    | with_reducible apply Fr_ite

theorem dropWait_frame {x0} {s : State} {m : Nat} {o : State} (hm : 32768 ||| m = m) (h : Fr m o s) : Fr m o (State.dropWait x0 s) := by
  unfold State.dropWait
  repeat'
    first
    | with_reducible assumption
    | (extract_lets +onlyGivenNames z; refine (fun (_ : z = (z : Mem)) => ?_) rfl; subst z)
    | simp -zeta only [Fr_mk]
    | (with_reducible apply Fr_tables (ms (by decide) hm) <;> try with_reducible rfl)

theorem takeFrame_frame {x0} {x1} {s : State} {m : Nat} {o : State} (hm : 32768 ||| m = m) (h : Fr m o s) : Fr m o (State.takeFrame x0 x1 s) := by
  unfold State.takeFrame
  repeat'
    first
    | with_reducible assumption
    | with_reducible apply modFrame_frame (ms (by decide) hm)

theorem fillZero_frame {x0} {x1} {s : State} {m : Nat} {o : State} (hm : 32768 ||| m = m) (h : Fr m o s) : Fr m o (State.fillZero x0 x1 s) := by
  unfold State.fillZero
  repeat'
    first
    | with_reducible assumption
    | (intro _)
    | (extract_lets +onlyGivenNames z; clear_value z; revert z; intro y)
    | with_reducible apply modPte_frame (ms (by decide) hm)
    | with_reducible apply takeFrame_frame (ms (by decide) hm)
    | with_reducible apply each_frame

theorem waitFrame_frame {x0} {s : State} {m : Nat} {o : State} (hm : 32768 ||| m = m) (h : Fr m o s) : Fr m o (State.waitFrame x0 s) := by
  unfold State.waitFrame
  repeat'
    first
    | with_reducible assumption
    | (intro _)
    | (extract_lets +onlyGivenNames z; refine (fun (_ : z = (z : Mem)) => ?_) rfl; subst z)
    | simp -zeta only [Fr_mk]
    | (with_reducible apply Fr_tables (ms (by decide) hm) <;> try with_reducible rfl)
    | with_reducible apply Fr_ite

theorem allocZero_frame {x0} {s : State} {m : Nat} {o : State} (hm : 32768 ||| m = m) (h : Fr m o s) : Fr m o (State.allocZero x0 s).2 := by
  unfold State.allocZero
  repeat'
    first
    | with_reducible assumption
    | with_reducible apply dropWait_frame (ms (by decide) hm)
    | with_reducible apply fillZero_frame (ms (by decide) hm)
    | with_reducible apply waitFrame_frame (ms (by decide) hm)
    | split

theorem refreshPoison_frame {x0} {s : State} {m : Nat} {o : State} (hm : 32768 ||| m = m) (h : Fr m o s) : Fr m o (State.refreshPoison x0 s) := by
  unfold State.refreshPoison
  repeat'
    first
    | with_reducible assumption
    | (intro _)
    | (extract_lets +onlyGivenNames z; refine (fun (hz : Fr m o z) => ?_) ?_; clear_value z; revert z; intro y hy; rotate_left; dsimp only [z]; clear z)
    | (extract_lets +onlyGivenNames z; refine (fun (_ : z = (z : Mem)) => ?_) rfl; subst z)
    | (extract_lets +onlyGivenNames z; clear_value z; revert z; intro y)
    | simp -zeta only [Fr_mk]
    | (with_reducible apply Fr_tables (ms (by decide) hm) <;> try with_reducible rfl)
    | with_reducible apply modPte_frame (ms (by decide) hm)
    | with_reducible apply modFrame_frame (ms (by decide) hm)
    | with_reducible apply each_frame

theorem clearLines_frame {x0} {x1} {x2} {s : State} {m : Nat} {o : State} (hm : 32768 ||| m = m) (h : Fr m o s) : Fr m o (State.clearLines x0 x1 x2 s) := by
  unfold State.clearLines
  repeat'
    first
    | with_reducible assumption
    | (extract_lets +onlyGivenNames z; refine (fun (hz : Fr m o z) => ?_) ?_; clear_value z; revert z; intro y hy; rotate_left; dsimp only [z]; clear z)
    | (extract_lets +onlyGivenNames z; refine (fun (_ : z = (z : Mem)) => ?_) rfl; subst z)
    | simp -zeta only [Fr_mk]
    | (with_reducible apply Fr_tables (ms (by decide) hm) <;> try with_reducible rfl)
    | with_reducible apply refreshPoison_frame (ms (by decide) hm)

theorem slowStore_frame {x0} {x1} {s : State} {m : Nat} {o : State} (hm : 16384 ||| m = m) (h : Fr m o s) : Fr m o (State.slowStore x0 x1 s) := by
  unfold State.slowStore
  repeat'
    first
    | with_reducible assumption
    | (extract_lets +onlyGivenNames z; refine (fun (_ : z = (z : Mem)) => ?_) rfl; subst z)
    | simp -zeta only [Fr_mk]
    | (with_reducible apply Fr_slow (ms (by decide) hm) <;> try with_reducible rfl)

theorem slowWrite_frame {x0} {x1} {x2} {s : State} {m : Nat} {o : State} (hm : 49152 ||| m = m) (h : Fr m o s) : Fr m o (State.slowWrite x0 x1 x2 s) := by
  unfold State.slowWrite
  repeat'
    first
    | with_reducible assumption
    | (extract_lets +onlyGivenNames z; refine (fun (hz : Fr m o z) => ?_) ?_; clear_value z; revert z; intro y hy; rotate_left; dsimp only [z]; clear z)
    | (extract_lets +onlyGivenNames z; refine (fun (_ : z = (z : Mem)) => ?_) rfl; subst z)
    | (extract_lets +onlyGivenNames z; clear_value z; revert z; intro y)
    | simp -zeta only [Fr_mk]
    | (with_reducible apply Fr_tables (ms (by decide) hm) <;> try with_reducible rfl)
    | with_reducible apply slowStore_frame (ms (by decide) hm)

theorem copyOut_frame {x0} {x1} {x2} {x3} {s : State} {m : Nat} {o : State} (hm : 49152 ||| m = m) (h : Fr m o s) : Fr m o (State.copyOut x0 x1 x2 x3 s) := by
  unfold State.copyOut
  repeat'
    first
    | with_reducible assumption
    | (extract_lets +onlyGivenNames z; refine (fun (hz : Fr m o z) => ?_) ?_; clear_value z; revert z; intro y hy; rotate_left; dsimp only [z]; clear z)
    | (extract_lets +onlyGivenNames z; refine (fun (_ : z = (z : Mem)) => ?_) rfl; subst z)
    | (extract_lets +onlyGivenNames z; clear_value z; revert z; intro y)
    | simp -zeta only [Fr_mk]
    | (with_reducible apply Fr_tables (ms (by decide) hm) <;> try with_reducible rfl)
    | with_reducible apply slowWrite_frame (ms (by decide) hm)

theorem countStale_frame {x0} {s : State} {m : Nat} {o : State} (hm : 65536 ||| m = m) (h : Fr m o s) : Fr m o (State.countStale x0 s) := by
  unfold State.countStale
  repeat'
    first
    | with_reducible assumption
    | with_reducible apply modMsd_frame (ms (by decide) hm)

theorem endMove_frame {x0} {s : State} {m : Nat} {o : State} (hm : 32896 ||| m = m) (h : Fr m o s) : Fr m o (State.endMove x0 s) := by
  unfold State.endMove
  repeat'
    first
    | with_reducible assumption
    | with_reducible apply modFrame_frame (ms (by decide) hm)
    | with_reducible apply dropMove_frame (ms (by decide) hm)

theorem finishWorks_frame {s : State} {m : Nat} {o : State} (hm : 35684488 ||| m = m) (h : Fr m o s) : Fr m o (State.finishWorks s) := by
  unfold State.finishWorks
  repeat'
    first
    | with_reducible assumption
    | (intro _)
    | (extract_lets +onlyGivenNames z; refine (fun (_ : z = (z : Mem)) => ?_) rfl; subst z)
    | simp -zeta only [Fr_mk]
    | (with_reducible apply Fr_tables (ms (by decide) hm) <;> try with_reducible rfl)
    | with_reducible apply finalRecord_frame (ms (by decide) hm)
    | with_reducible apply Fr_ite
    | with_reducible apply each_frame

theorem forget_frame {x0} {s : State} {m : Nat} {o : State} (hm : 32768 ||| m = m) (h : Fr m o s) : Fr m o (State.forget x0 s) := by
  unfold State.forget
  repeat'
    first
    | with_reducible assumption
    | (extract_lets +onlyGivenNames z; refine (fun (_ : z = (z : Mem)) => ?_) rfl; subst z)
    | simp -zeta only [Fr_mk]
    | (with_reducible apply Fr_tables (ms (by decide) hm) <;> try with_reducible rfl)

theorem frameWrite_frame {x0} {x1} {x2} {s : State} {m : Nat} {o : State} (hm : 40960 ||| m = m) (h : Fr m o s) : Fr m o (State.frameWrite x0 x1 x2 s) := by
  unfold State.frameWrite
  repeat'
    first
    | with_reducible assumption
    | (intro _)
    | (extract_lets +onlyGivenNames z; refine (fun (hz : Fr m o z) => ?_) ?_; clear_value z; revert z; intro y hy; rotate_left; dsimp only [z]; clear z)
    | (extract_lets +onlyGivenNames z; refine (fun (_ : z = (z : Mem)) => ?_) rfl; subst z)
    | (extract_lets +onlyGivenNames z; clear_value z; revert z; intro y)
    | simp -zeta only [Fr_mk]
    | (with_reducible apply Fr_hbm (ms (by decide) hm) <;> try with_reducible rfl)
    | with_reducible apply clearLines_frame (ms (by decide) hm)
    | with_reducible apply modFrame_frame (ms (by decide) hm)
    | with_reducible apply Fr_ite

theorem freeFrame_frame {x0} {s : State} {m : Nat} {o : State} (hm : 35692680 ||| m = m) (h : Fr m o s) : Fr m o (State.freeFrame x0 s) := by
  unfold State.freeFrame
  repeat'
    first
    | with_reducible assumption
    | (extract_lets +onlyGivenNames z; refine (fun (hz : Fr m o z) => ?_) ?_; clear_value z; revert z; intro y hy; rotate_left; dsimp only [z]; clear z)
    | (extract_lets +onlyGivenNames z; refine (fun (_ : z = (z : Mem)) => ?_) rfl; subst z)
    | simp -zeta only [Fr_mk]
    | (with_reducible apply Fr_hbm_tables (ms (by decide) hm) <;> try with_reducible rfl)
    | with_reducible apply finishWorks_frame (ms (by decide) hm)
    | with_reducible apply modFrame_frame (ms (by decide) hm)

theorem zeroFrame_frame {x0} {s : State} {m : Nat} {o : State} (hm : 32896 ||| m = m) (h : Fr m o s) : Fr m o (State.zeroFrame x0 s) := by
  unfold State.zeroFrame
  repeat'
    first
    | with_reducible assumption
    | (intro _)
    | (extract_lets +onlyGivenNames z; refine (fun (hz : Fr m o z) => ?_) ?_; clear_value z; revert z; intro y hy; rotate_left; dsimp only [z]; clear z)
    | (extract_lets +onlyGivenNames z; clear_value z; revert z; intro y)
    | with_reducible apply modFrame_frame (ms (by decide) hm)
    | with_reducible apply pushMove_frame (ms (by decide) hm)
    | with_reducible apply dropMove_frame (ms (by decide) hm)
    | with_reducible apply Fr_ite

theorem switchToT2_frame {x0} {x1} {s : State} {m : Nat} {o : State} (hm : 32768 ||| m = m) (h : Fr m o s) : Fr m o (State.switchToT2 x0 x1 s) := by
  unfold State.switchToT2
  repeat'
    first
    | with_reducible assumption
    | (intro _)
    | (extract_lets +onlyGivenNames z; clear_value z; revert z; intro y)
    | with_reducible apply modPte_frame (ms (by decide) hm)
    | with_reducible apply each_frame

theorem leftFor_frame {x0} {x1} {s : State} {m : Nat} {o : State} (hm : 32896 ||| m = m) (h : Fr m o s) : Fr m o (State.leftFor x0 x1 s) := by
  unfold State.leftFor
  repeat'
    first
    | with_reducible assumption
    | with_reducible apply modFrame_frame (ms (by decide) hm)
    | with_reducible apply zeroFrame_frame (ms (by decide) hm)
    | with_reducible apply forget_frame (ms (by decide) hm)
    | with_reducible apply switchToT2_frame (ms (by decide) hm)

theorem writeBack_frame {x0} {x1} {s : State} {m : Nat} {o : State} (hm : 49152 ||| m = m) (h : Fr m o s) : Fr m o (State.writeBack x0 x1 s) := by
  unfold State.writeBack
  repeat'
    first
    | with_reducible assumption
    | (intro _)
    | with_reducible apply copyOut_frame (ms (by decide) hm)
    | with_reducible apply each_frame

theorem takeT2_frame {x0} {s : State} {m : Nat} {o : State} (hm : 4 ||| m = m) (h : Fr m o s) : Fr m o (State.takeT2 x0 s).2 := by
  unfold State.takeT2
  repeat'
    first
    | with_reducible assumption
    | (intro _)
    | (extract_lets +onlyGivenNames z; refine (fun (hz : Fr m o z.2) => ?_) ?_; clear_value z; revert z; intro y hy; rotate_left; dsimp only [z]; clear z)
    | (extract_lets +onlyGivenNames z; clear_value z; revert z; intro y)
    | with_reducible apply fresh_frame (ms (by decide) hm)
    | with_reducible apply Fr_ite2

theorem leaveFrame_frame {x0} {s : State} {m : Nat} {o : State} (hm : 49284 ||| m = m) (h : Fr m o s) : Fr m o (State.leaveFrame x0 s) := by
  unfold State.leaveFrame
  repeat'
    first
    | with_reducible assumption
    | (intro _)
    | (extract_lets +onlyGivenNames z; refine (fun (hz : Fr m o z.2) => ?_) ?_; clear_value z; revert z; intro y hy; rotate_left; dsimp only [z]; clear z)
    | (extract_lets +onlyGivenNames z; clear_value z; revert z; intro y)
    | with_reducible apply zeroFrame_frame (ms (by decide) hm)
    | with_reducible apply forget_frame (ms (by decide) hm)
    | with_reducible apply leftFor_frame (ms (by decide) hm)
    | with_reducible apply writeBack_frame (ms (by decide) hm)
    | with_reducible apply takeT2_frame (ms (by decide) hm)
    | with_reducible apply copyOut_frame (ms (by decide) hm)
    | with_reducible apply Fr_ite
    | split

theorem moveFrame_frame {x0} {x1} {s : State} {m : Nat} {o : State} (hm : 32896 ||| m = m) (h : Fr m o s) : Fr m o (State.moveFrame x0 x1 s) := by
  unfold State.moveFrame
  repeat'
    first
    | with_reducible assumption
    | (extract_lets +onlyGivenNames z; clear_value z; revert z; intro y)
    | with_reducible apply modFrame_frame (ms (by decide) hm)
    | with_reducible apply pushMove_frame (ms (by decide) hm)
    | with_reducible apply dropMove_frame (ms (by decide) hm)

theorem noKey_frame {x0} {s : State} {m : Nat} {o : State} (hm : 65536 ||| m = m) (h : Fr m o s) : Fr m o (State.noKey x0 s) := by
  unfold State.noKey
  repeat'
    first
    | with_reducible assumption
    | with_reducible apply modMsd_frame (ms (by decide) hm)

theorem startRepair_frame {x0} {x1} {x2} {s : State} {m : Nat} {o : State} (hm : 32768 ||| m = m) (h : Fr m o s) : Fr m o (State.startRepair x0 x1 x2 s) := by
  unfold State.startRepair
  repeat'
    first
    | with_reducible assumption
    | (intro _)
    | (extract_lets +onlyGivenNames z; refine (fun (_ : z = (z : Mem)) => ?_) rfl; subst z)
    | (extract_lets +onlyGivenNames z; clear_value z; revert z; intro y)
    | simp -zeta only [Fr_mk]
    | (with_reducible apply Fr_tables (ms (by decide) hm) <;> try with_reducible rfl)
    | with_reducible apply Fr_ite

theorem poison_frame {x0} {x1} {x2} {x3} {s : State} {m : Nat} {o : State} (hm : 35684488 ||| m = m) (h : Fr m o s) : Fr m o (State.poison x0 x1 x2 x3 s) := by
  unfold State.poison
  repeat'
    first
    | with_reducible assumption
    | (intro _)
    | (extract_lets +onlyGivenNames z; refine (fun (hz : Fr m o z) => ?_) ?_; clear_value z; revert z; intro y hy; rotate_left; dsimp only [z]; clear z)
    | (extract_lets +onlyGivenNames z; refine (fun (_ : z = (z : Mem)) => ?_) rfl; subst z)
    | (extract_lets +onlyGivenNames z; clear_value z; revert z; intro y)
    | simp -zeta only [Fr_mk]
    | (with_reducible apply Fr_tables (ms (by decide) hm) <;> try with_reducible rfl)
    | with_reducible apply refreshPoison_frame (ms (by decide) hm)
    | with_reducible apply journal_frame (ms (by decide) hm)
    | with_reducible apply modMig_frame (ms (by decide) hm)
    | with_reducible apply startRepair_frame (ms (by decide) hm)
    | with_reducible apply Fr_ite

theorem touchT2_frame {x0} {x1} {x2} {s : State} {m : Nat} {o : State} (hm : 32768 ||| m = m) (h : Fr m o s) : Fr m o (State.touchT2 x0 x1 x2 s) := by
  unfold State.touchT2
  repeat'
    first
    | with_reducible assumption
    | with_reducible apply modPte_frame (ms (by decide) hm)

theorem readPoison_frame {x0} {x1} {s : State} {m : Nat} {o : State} (hm : 32768 ||| m = m) (h : Fr m o s) : Fr m o (State.readPoison x0 x1 s).2 := by
  unfold State.readPoison
  repeat'
    first
    | with_reducible assumption
    | (extract_lets +onlyGivenNames z; refine (fun (hz : Fr m o z) => ?_) ?_; clear_value z; revert z; intro y hy; rotate_left; dsimp only [z]; clear z)
    | (extract_lets +onlyGivenNames z; clear_value z; revert z; intro y)
    | with_reducible apply startRepair_frame (ms (by decide) hm)

theorem touch_frame {x0} {x1} {x2} {s : State} {m : Nat} {o : State} (hm : 32768 ||| m = m) (h : Fr m o s) : Fr m o (State.touch x0 x1 x2 s) := by
  unfold State.touch
  repeat'
    first
    | with_reducible assumption
    | with_reducible apply modFrame_frame (ms (by decide) hm)

theorem readSpot_frame {x0} {x1} {x2} {s : State} {m : Nat} {o : State} (hm : 98304 ||| m = m) (h : Fr m o s) : Fr m o (State.readSpot x0 x1 x2 s).2 := by
  unfold State.readSpot
  repeat'
    first
    | with_reducible assumption
    | (intro _)
    | (extract_lets +onlyGivenNames z; refine (fun (hz : Fr m o z.2) => ?_) ?_; clear_value z; revert z; intro y hy; rotate_left; dsimp only [z]; clear z)
    | with_reducible apply touchT2_frame (ms (by decide) hm)
    | with_reducible apply noKey_frame (ms (by decide) hm)
    | with_reducible apply readPoison_frame (ms (by decide) hm)
    | with_reducible apply touch_frame (ms (by decide) hm)
    | with_reducible apply Fr_ite2
    | split

theorem readDva_frame {x0} {x1} {x2} {x3} {s : State} {m : Nat} {o : State} (hm : 98304 ||| m = m) (h : Fr m o s) : Fr m o (State.readDva x0 x1 x2 x3 s).2 := by
  unfold State.readDva
  repeat'
    first
    | with_reducible assumption
    | (intro _)
    | with_reducible apply readSpot_frame (ms (by decide) hm)
    | with_reducible apply foldl_frame2
    | with_reducible apply joinRead_frame
    | split

theorem readAll_frame {x0} {x1} {s : State} {m : Nat} {o : State} (hm : 98304 ||| m = m) (h : Fr m o s) : Fr m o (State.readAll x0 x1 s).2 := by
  unfold State.readAll
  repeat'
    first
    | with_reducible assumption
    | (intro _)
    | (extract_lets +onlyGivenNames z; refine (fun (hz : Fr m o z.2) => ?_) ?_; clear_value z; revert z; intro y hy; rotate_left; dsimp only [z]; clear z)
    | with_reducible apply readDva_frame (ms (by decide) hm)
    | with_reducible apply foldl_frame2
    | split

theorem readFor_frame {x0} {x1} {x2} {x3} {s : State} {m : Nat} {o : State} (hm : 98432 ||| m = m) (h : Fr m o s) : Fr m o (State.readFor x0 x1 x2 x3 s).2 := by
  unfold State.readFor
  repeat'
    first
    | with_reducible assumption
    | (extract_lets +onlyGivenNames z; refine (fun (hz : Fr m o z.2) => ?_) ?_; clear_value z; revert z; intro y hy; rotate_left; dsimp only [z]; clear z)
    | with_reducible apply readDva_frame (ms (by decide) hm)
    | with_reducible apply charge_frame (ms (by decide) hm)
    | simp -zeta only [Fr_mk]
    | split

theorem slowSpoil_frame {x0} {x1} {s : State} {m : Nat} {o : State} (hm : 32768 ||| m = m) (h : Fr m o s) : Fr m o (State.slowSpoil x0 x1 s) := by
  unfold State.slowSpoil
  repeat'
    first
    | with_reducible assumption
    | (extract_lets +onlyGivenNames z; refine (fun (_ : z = (z : Mem)) => ?_) rfl; subst z)
    | simp -zeta only [Fr_mk]
    | (with_reducible apply Fr_tables (ms (by decide) hm) <;> try with_reducible rfl)

theorem startLeave_frame {x0} {x1} {x2} {s : State} {m : Nat} {o : State} (hm : 32896 ||| m = m) (h : Fr m o s) : Fr m o (State.startLeave x0 x1 x2 s) := by
  unfold State.startLeave
  repeat'
    first
    | with_reducible assumption
    | (intro _)
    | with_reducible apply moveFrame_frame (ms (by decide) hm)
    | with_reducible apply modFrame_frame (ms (by decide) hm)
    | with_reducible apply Fr_ite

theorem startDemote_frame {x0} {x1} {s : State} {m : Nat} {o : State} (hm : 32896 ||| m = m) (h : Fr m o s) : Fr m o (State.startDemote x0 x1 s) := by
  unfold State.startDemote
  repeat'
    first
    | with_reducible assumption
    | with_reducible apply startLeave_frame (ms (by decide) hm)

theorem startEvict_frame {x0} {s : State} {m : Nat} {o : State} (hm : 32896 ||| m = m) (h : Fr m o s) : Fr m o (State.startEvict x0 s) := by
  unfold State.startEvict
  repeat'
    first
    | with_reducible assumption
    | with_reducible apply startLeave_frame (ms (by decide) hm)

theorem startPromote_frame {x0} {x1} {s : State} {m : Nat} {o : State} (hm : 32896 ||| m = m) (h : Fr m o s) : Fr m o (State.startPromote x0 x1 s).2 := by
  unfold State.startPromote
  repeat'
    first
    | with_reducible assumption
    | (extract_lets +onlyGivenNames z; clear_value z; revert z; intro y)
    | with_reducible apply dropWait_frame (ms (by decide) hm)
    | with_reducible apply moveFrame_frame (ms (by decide) hm)
    | with_reducible apply takeFrame_frame (ms (by decide) hm)
    | split

theorem unpinPage_frame {x0} {s : State} {m : Nat} {o : State} (hm : 32768 ||| m = m) (h : Fr m o s) : Fr m o (State.unpinPage x0 s) := by
  unfold State.unpinPage
  repeat'
    first
    | with_reducible assumption
    | (intro _)
    | (extract_lets +onlyGivenNames z; clear_value z; revert z; intro y)
    | with_reducible apply modPte_frame (ms (by decide) hm)
    | with_reducible apply Fr_ite

theorem unmapPage_frame {x0} {s : State} {m : Nat} {o : State} (hm : 32768 ||| m = m) (h : Fr m o s) : Fr m o (State.unmapPage x0 s) := by
  unfold State.unmapPage
  repeat'
    first
    | with_reducible assumption
    | (extract_lets +onlyGivenNames z; refine (fun (hz : Fr m o z) => ?_) ?_; clear_value z; revert z; intro y hy; rotate_left; dsimp only [z]; clear z)
    | with_reducible apply modPte_frame (ms (by decide) hm)
    | with_reducible apply unpinPage_frame (ms (by decide) hm)

theorem writeSpot_frame {x0} {x1} {x2} {s : State} {m : Nat} {o : State} (hm : 122880 ||| m = m) (h : Fr m o s) : Fr m o (State.writeSpot x0 x1 x2 s).2 := by
  unfold State.writeSpot
  repeat'
    first
    | with_reducible assumption
    | (intro _)
    | (extract_lets +onlyGivenNames z; refine (fun (hz : Fr m o z.2) => ?_) ?_; clear_value z; revert z; intro y hy; rotate_left; dsimp only [z]; clear z)
    | (extract_lets +onlyGivenNames z; clear_value z; revert z; intro y)
    | with_reducible apply allocZero_frame (ms (by decide) hm)
    | with_reducible apply touch_frame (ms (by decide) hm)
    | with_reducible apply frameWrite_frame (ms (by decide) hm)
    | with_reducible apply dropWait_frame (ms (by decide) hm)
    | with_reducible apply touchT2_frame (ms (by decide) hm)
    | with_reducible apply slowWrite_frame (ms (by decide) hm)
    | with_reducible apply noKey_frame (ms (by decide) hm)
    | with_reducible apply Fr_ite2
    | split

theorem writeDva_frame {x0} {x1} {x2} {s : State} {m : Nat} {o : State} (hm : 122880 ||| m = m) (h : Fr m o s) : Fr m o (State.writeDva x0 x1 x2 s).2 := by
  unfold State.writeDva
  repeat'
    first
    | with_reducible assumption
    | (intro _)
    | with_reducible apply writeSpot_frame (ms (by decide) hm)
    | with_reducible apply foldl_frame2
    | split

theorem bufWrite_frame {x0} {x1} {x2} {x3} {s : State} {m : Nat} {o : State} (hm : 41984 ||| m = m) (h : Fr m o s) : Fr m o (State.bufWrite x0 x1 x2 x3 s) := by
  unfold State.bufWrite
  repeat'
    first
    | with_reducible assumption
    | with_reducible apply modCourse_frame (ms (by decide) hm)
    | with_reducible apply frameWrite_frame (ms (by decide) hm)

theorem readView_frame {x0} {x1} {x2} {s : State} {m : Nat} {o : State} (hm : 98304 ||| m = m) (h : Fr m o s) : Fr m o (State.readView x0 x1 x2 s).2 := by
  unfold State.readView
  repeat'
    first
    | with_reducible assumption
    | (intro _)
    | with_reducible apply readSpot_frame (ms (by decide) hm)
    | with_reducible apply noKey_frame (ms (by decide) hm)
    | with_reducible apply Fr_ite2
    | split

theorem courseRead_frame {x0} {x1} {x2} {x3} {x4} {s : State} {m : Nat} {o : State} (hm : 98304 ||| m = m) (h : Fr m o s) : Fr m o (State.courseRead x0 x1 x2 x3 x4 s).2 := by
  unfold State.courseRead
  repeat'
    first
    | with_reducible assumption
    | (intro _)
    | (extract_lets +onlyGivenNames z; clear_value z; revert z; intro y)
    | with_reducible apply readView_frame (ms (by decide) hm)
    | with_reducible apply readSpot_frame (ms (by decide) hm)
    | with_reducible apply foldl_frame2
    | with_reducible apply joinRead_frame
    | split

theorem courseWriteSpot_frame {x0} {x1} {x2} {x3} {s : State} {m : Nat} {o : State} (hm : 123904 ||| m = m) (h : Fr m o s) : Fr m o (State.courseWriteSpot x0 x1 x2 x3 s).2 := by
  unfold State.courseWriteSpot
  repeat'
    first
    | with_reducible assumption
    | (extract_lets +onlyGivenNames z; refine (fun (hz : Fr m o z.2) => ?_) ?_; clear_value z; revert z; intro y hy; rotate_left; dsimp only [z]; clear z)
    | with_reducible apply writeSpot_frame (ms (by decide) hm)
    | with_reducible apply modCourse_frame (ms (by decide) hm)
    | split

theorem courseWrite_frame {x0} {x1} {x2} {x3} {x4} {s : State} {m : Nat} {o : State} (hm : 123904 ||| m = m) (h : Fr m o s) : Fr m o (State.courseWrite x0 x1 x2 x3 x4 s).2 := by
  unfold State.courseWrite
  repeat'
    first
    | with_reducible assumption
    | (intro _)
    | (extract_lets +onlyGivenNames z; clear_value z; revert z; intro y)
    | with_reducible apply courseWriteSpot_frame (ms (by decide) hm)
    | with_reducible apply bufWrite_frame (ms (by decide) hm)
    | with_reducible apply Fr_ite2
    | with_reducible apply foldl_frame2
    | split

theorem addEvc_frame {x0} {x1} {x2} {x3} {s : State} {m : Nat} {o : State} (hm : 256 ||| m = m) (h : Fr m o s) : Fr m o (State.addEvc x0 x1 x2 x3 s) := by
  unfold State.addEvc
  repeat'
    first
    | with_reducible assumption
    | with_reducible apply modStream_frame (ms (by decide) hm)

theorem checkSegment_frame {x0} {s : State} {m : Nat} {o : State} (hm : 1024 ||| m = m) (h : Fr m o s) : Fr m o (State.checkSegment x0 s) := by
  unfold State.checkSegment
  repeat'
    first
    | with_reducible assumption
    | (intro _)
    | with_reducible apply modCourse_frame (ms (by decide) hm)
    | with_reducible apply Fr_ite
    | split

theorem report_frame {x0} {s : State} {m : Nat} {o : State} (hm : 35651720 ||| m = m) (h : Fr m o s) : Fr m o (State.report x0 s) := by
  unfold State.report
  repeat'
    first
    | with_reducible assumption
    | with_reducible apply journal_frame (ms (by decide) hm)

theorem endBlock_frame {x0} {s : State} {m : Nat} {o : State} (hm : 35653004 ||| m = m) (h : Fr m o s) : Fr m o (State.endBlock x0 s) := by
  unfold State.endBlock
  repeat'
    first
    | with_reducible assumption
    | (intro _)
    | (extract_lets +onlyGivenNames z; refine (fun (hz : Fr m o z) => ?_) ?_; clear_value z; revert z; intro y hy; rotate_left; dsimp only [z]; clear z)
    | (extract_lets +onlyGivenNames z; refine (fun (hz : Fr m o z.2) => ?_) ?_; clear_value z; revert z; intro y hy; rotate_left; dsimp only [z]; clear z)
    | (extract_lets +onlyGivenNames z; clear_value z; revert z; intro y)
    | with_reducible apply fresh_frame (ms (by decide) hm)
    | with_reducible apply modStream_frame (ms (by decide) hm)
    | with_reducible apply charge_frame (ms (by decide) hm)
    | with_reducible apply report_frame (ms (by decide) hm)
    | with_reducible apply checkSegment_frame (ms (by decide) hm)
    | with_reducible apply Fr_ite

theorem passOrphan_frame {x0} {x1} {x2} {x3} {s : State} {m : Nat} {o : State} (hm : 256 ||| m = m) (h : Fr m o s) : Fr m o (State.passOrphan x0 x1 x2 x3 s) := by
  unfold State.passOrphan
  repeat'
    first
    | with_reducible assumption
    | (intro _)
    | (extract_lets +onlyGivenNames z; clear_value z; revert z; intro y)
    | with_reducible apply modStream_frame (ms (by decide) hm)
    | with_reducible apply Fr_ite

theorem retire_frame {x0} {x1} {s : State} {m : Nat} {o : State} (hm : 256 ||| m = m) (h : Fr m o s) : Fr m o (State.retire x0 x1 s) := by
  unfold State.retire
  repeat'
    first
    | with_reducible assumption
    | with_reducible apply modStream_frame (ms (by decide) hm)

theorem violation_frame {x0} {s : State} {m : Nat} {o : State} (hm : 35653000 ||| m = m) (h : Fr m o s) : Fr m o (State.violation x0 s) := by
  unfold State.violation
  repeat'
    first
    | with_reducible assumption
    | with_reducible apply retire_frame (ms (by decide) hm)
    | with_reducible apply modCourse_frame (ms (by decide) hm)
    | with_reducible apply journal_frame (ms (by decide) hm)

theorem skipUnassigned_frame {x0} {x1} {x2} {s : State} {m : Nat} {o : State} (hm : 35653000 ||| m = m) (h : Fr m o s) : Fr m o (State.skipUnassigned x0 x1 x2 s) := by
  induction x0 generalizing s with
  | zero => exact h
  | succ k ih =>
    rw [State.skipUnassigned]
    split
    · exact Fr_ite (fun _ => h) fun _ => ih (violation_frame (ms (by decide) hm) h)
    · exact h

theorem issue_frame {x0} {x1} {x2} {x3} {x4} {s : State} {m : Nat} {o : State} (hm : 35653000 ||| m = m) (hf : ∀ p t, Fr m o t → FrO m o (x4 p t)) (h : Fr m o s) : Fr m o (State.issue x0 x1 x2 x3 x4 s) := by
  unfold State.issue
  repeat'
    first
    | with_reducible assumption
    | (intro _)
    | (extract_lets +onlyGivenNames z; refine (fun (hz : Fr m o z) => ?_) ?_; clear_value z; revert z; intro y hy; rotate_left; dsimp only [z]; clear z)
    | with_reducible apply passOrphan_frame (ms (by decide) hm)
    | with_reducible apply skipUnassigned_frame (ms (by decide) hm)
    | with_reducible apply violation_frame (ms (by decide) hm)
    | with_reducible apply Fr_ite
    | with_reducible apply getD_frame
    | split
    | with_reducible apply_assumption

theorem issueCell_frame {x0} {x1} {x2} {x3} {x4} {s : State} {m : Nat} {o : State} (hm : 35653000 ||| m = m) (h : Fr m o s) : Fr m o (State.issueCell x0 x1 x2 x3 x4 s) := by
  unfold State.issueCell
  repeat'
    first
    | with_reducible assumption
    | (intro _)
    | (extract_lets +onlyGivenNames z; refine (fun (hz : Fr m o z) => ?_) ?_; clear_value z; revert z; intro y hy; rotate_left; dsimp only [z]; clear z)
    | with_reducible apply issue_frame (ms (by decide) hm)
    | with_reducible apply retire_frame (ms (by decide) hm)
    | with_reducible apply modCell_frame (ms (by decide) hm)
    | with_reducible apply report_frame (ms (by decide) hm)
    | with_reducible apply Fr_ite
    | with_reducible apply FrO_map

theorem closeSeq_frame {x0} {x1} {x2} {s : State} {m : Nat} {o : State} (hm : 35651720 ||| m = m) (h : Fr m o s) : Fr m o (State.closeSeq x0 x1 x2 s) := by
  unfold State.closeSeq
  repeat'
    first
    | with_reducible assumption
    | (intro _)
    | with_reducible apply modDesc_frame (ms (by decide) hm)
    | with_reducible apply finishDesc_frame (ms (by decide) hm)
    | with_reducible apply Fr_ite

theorem closeSession_frame {x0} {s : State} {m : Nat} {o : State} (hm : 2048 ||| m = m) (h : Fr m o s) : Fr m o (State.closeSession x0 s) := by
  unfold State.closeSession
  repeat'
    first
    | with_reducible assumption
    | (extract_lets +onlyGivenNames z; clear_value z; revert z; intro y)
    | with_reducible apply modSession_frame (ms (by decide) hm)

theorem unqueue_frame {x0} {s : State} {m : Nat} {o : State} (hm : 128 ||| m = m) (h : Fr m o s) : Fr m o (State.unqueue x0 s) := by
  unfold State.unqueue
  repeat'
    first
    | with_reducible assumption
    | (extract_lets +onlyGivenNames z; clear_value z; revert z; intro y)
    | simp -zeta only [Fr_mk]
    | with_reducible apply Fr_bud (ms (by decide) hm)

theorem stopCourse_frame {x0} {s : State} {m : Nat} {o : State} (hm : 66944 ||| m = m) (h : Fr m o s) : Fr m o (State.stopCourse x0 s) := by
  unfold State.stopCourse
  repeat'
    first
    | with_reducible assumption
    | (intro _)
    | (extract_lets +onlyGivenNames z; refine (fun (hz : Fr m o z) => ?_) ?_; clear_value z; revert z; intro y hy; rotate_left; dsimp only [z]; clear z)
    | (extract_lets +onlyGivenNames z; clear_value z; revert z; intro y)
    | simp -zeta only [Fr_mk]
    | with_reducible apply Fr_msd (ms (by decide) hm)
    | with_reducible apply unqueue_frame (ms (by decide) hm)
    | with_reducible apply modCell_frame (ms (by decide) hm)
    | with_reducible apply modCourse_frame (ms (by decide) hm)
    | with_reducible apply each_frame
    | split

theorem holdCourse_frame {x0} {x1} {x2} {s : State} {m : Nat} {o : State} (hm : 66944 ||| m = m) (h : Fr m o s) : Fr m o (State.holdCourse x0 x1 x2 s) := by
  unfold State.holdCourse
  repeat'
    first
    | with_reducible assumption
    | (extract_lets +onlyGivenNames z; clear_value z; revert z; intro y)
    | with_reducible apply modCourse_frame (ms (by decide) hm)
    | with_reducible apply stopCourse_frame (ms (by decide) hm)

theorem sumCourse_frame {x0} {x1} {x2} {s : State} {m : Nat} {o : State} (hm : 33554432 ||| m = m) (h : Fr m o s) : Fr m o (State.sumCourse x0 x1 x2 s) := by
  unfold State.sumCourse
  repeat'
    first
    | with_reducible assumption
    | (intro _)
    | with_reducible apply summarize_frame (ms (by decide) hm)
    | with_reducible apply each_frame

theorem unpinCourse_frame {x0} {s : State} {m : Nat} {o : State} (hm : 35684488 ||| m = m) (h : Fr m o s) : Fr m o (State.unpinCourse x0 s) := by
  unfold State.unpinCourse
  repeat'
    first
    | with_reducible assumption
    | (intro _)
    | (extract_lets +onlyGivenNames z; refine (fun (hz : Fr m o z) => ?_) ?_; clear_value z; revert z; intro y hy; rotate_left; dsimp only [z]; clear z)
    | with_reducible apply finishWorks_frame (ms (by decide) hm)
    | with_reducible apply modFrame_frame (ms (by decide) hm)
    | with_reducible apply unpinPage_frame (ms (by decide) hm)
    | with_reducible apply each_frame

theorem releaseCourse_frame {x0} {s : State} {m : Nat} {o : State} (hm : 35751304 ||| m = m) (h : Fr m o s) : Fr m o (State.releaseCourse x0 s) := by
  unfold State.releaseCourse
  repeat'
    first
    | with_reducible assumption
    | (intro _)
    | (extract_lets +onlyGivenNames z; refine (fun (hz : Fr m o z) => ?_) ?_; clear_value z; revert z; intro y hy; rotate_left; dsimp only [z]; clear z)
    | (extract_lets +onlyGivenNames z; clear_value z; revert z; intro y)
    | simp -zeta only [Fr_mk]
    | with_reducible apply Fr_msd (ms (by decide) hm)
    | with_reducible apply Fr_crs (ms (by decide) hm)
    | with_reducible apply unqueue_frame (ms (by decide) hm)
    | with_reducible apply modCell_frame (ms (by decide) hm)
    | with_reducible apply unpinCourse_frame (ms (by decide) hm)
    | with_reducible apply zeroFrame_frame (ms (by decide) hm)
    | with_reducible apply each_frame
    | split

theorem outDone_frame {x0} {x1} {s : State} {m : Nat} {o : State} (hm : 35750024 ||| m = m) (h : Fr m o s) : Fr m o (State.outDone x0 x1 s) := by
  unfold State.outDone
  repeat'
    first
    | with_reducible assumption
    | (intro _)
    | (extract_lets +onlyGivenNames z; refine (fun (hz : Fr m o z.2) => ?_) ?_; clear_value z; revert z; intro y hy; rotate_left; dsimp only [z]; clear z)
    | (extract_lets +onlyGivenNames z; clear_value z; revert z; intro y)
    | with_reducible apply closeSeq_frame (ms (by decide) hm)
    | with_reducible apply dropMove_frame (ms (by decide) hm)
    | with_reducible apply readDva_frame (ms (by decide) hm)
    | with_reducible apply emit_frame (ms (by decide) hm)
    | with_reducible apply translate_frame (ms (by decide) hm)
    | with_reducible apply Fr_ite
    | split

theorem outStart_frame {x0} {x1} {x2} {s : State} {m : Nat} {o : State} (hm : 35750024 ||| m = m) (h : Fr m o s) : Fr m o (State.outStart x0 x1 x2 s) := by
  unfold State.outStart
  repeat'
    first
    | with_reducible assumption
    | (intro _)
    | (extract_lets +onlyGivenNames z; refine (fun (hz : Fr m o z) => ?_) ?_; clear_value z; revert z; intro y hy; rotate_left; dsimp only [z]; clear z)
    | (extract_lets +onlyGivenNames z; clear_value z; revert z; intro y)
    | with_reducible apply closeSeq_frame (ms (by decide) hm)
    | with_reducible apply modDesc_frame (ms (by decide) hm)
    | with_reducible apply outDone_frame (ms (by decide) hm)
    | with_reducible apply pushMove_frame (ms (by decide) hm)
    | with_reducible apply Fr_ite

theorem openTurn_frame {x0} {s : State} {m : Nat} {o : State} (hm : 2048 ||| m = m) (h : Fr m o s) : Fr m o (State.openTurn x0 s) := by
  unfold State.openTurn
  repeat'
    first
    | with_reducible assumption
    | (intro _)
    | with_reducible apply modSession_frame (ms (by decide) hm)
    | with_reducible apply Fr_ite
    | split

theorem finishSeq_frame {x0} {x1} {x2} {x3} {x4} {s : State} {m : Nat} {o : State} (hm : 35753096 ||| m = m) (h : Fr m o s) : Fr m o (State.finishSeq x0 x1 x2 x3 x4 s) := by
  unfold State.finishSeq
  repeat'
    first
    | with_reducible assumption
    | (intro _)
    | (extract_lets +onlyGivenNames z; refine (fun (hz : Fr m o z) => ?_) ?_; clear_value z; revert z; intro y hy; rotate_left; dsimp only [z]; clear z)
    | (extract_lets +onlyGivenNames z; clear_value z; revert z; intro y)
    | simp -zeta only [Fr_mk]
    | with_reducible apply Fr_crs (ms (by decide) hm)
    | with_reducible apply modSession_frame (ms (by decide) hm)
    | with_reducible apply closeSession_frame (ms (by decide) hm)
    | with_reducible apply outStart_frame (ms (by decide) hm)
    | with_reducible apply openTurn_frame (ms (by decide) hm)
    | with_reducible apply Fr_ite
    | split

theorem setProbe_frame {x0} {s : State} {m : Nat} {o : State} (hm : 1024 ||| m = m) (h : Fr m o s) : Fr m o (State.setProbe x0 s) := by
  unfold State.setProbe
  repeat'
    first
    | with_reducible assumption
    | (extract_lets +onlyGivenNames z; clear_value z; revert z; intro y)
    | simp -zeta only [Fr_mk]
    | with_reducible apply Fr_crs (ms (by decide) hm)

theorem probeFails_frame {x0} {s : State} {m : Nat} {o : State} (hm : 1024 ||| m = m) (h : Fr m o s) : Fr m o (State.probeFails x0 s) := by
  unfold State.probeFails
  repeat'
    first
    | with_reducible assumption
    | with_reducible apply setProbe_frame (ms (by decide) hm)
    | split

theorem endCourse_frame {x0} {x1} {s : State} {m : Nat} {o : State} (hm : 35884424 ||| m = m) (h : Fr m o s) : Fr m o (State.endCourse x0 x1 s) := by
  unfold State.endCourse
  repeat'
    first
    | with_reducible assumption
    | (intro _)
    | (extract_lets +onlyGivenNames z; refine (fun (hz : Fr m o z) => ?_) ?_; clear_value z; revert z; intro y hy; rotate_left; dsimp only [z]; clear z)
    | with_reducible apply sumCourse_frame (ms (by decide) hm)
    | with_reducible apply releaseCourse_frame (ms (by decide) hm)
    | with_reducible apply finishSeq_frame (ms (by decide) hm)
    | with_reducible apply probeFails_frame (ms (by decide) hm)
    | with_reducible apply modJob_frame (ms (by decide) hm)
    | with_reducible apply Fr_ite
    | with_reducible apply each_frame
    | split

theorem courseFails_frame {x0} {x1} {s : State} {m : Nat} {o : State} (hm : 35884424 ||| m = m) (h : Fr m o s) : Fr m o (State.courseFails x0 x1 s) := by
  unfold State.courseFails
  repeat'
    first
    | with_reducible assumption
    | (intro _)
    | with_reducible apply holdCourse_frame (ms (by decide) hm)
    | with_reducible apply endCourse_frame (ms (by decide) hm)
    | with_reducible apply Fr_ite
    | split

theorem endSeq_frame {x0} {x1} {s : State} {m : Nat} {o : State} (hm : 35753096 ||| m = m) (h : Fr m o s) : Fr m o (State.endSeq x0 x1 s) := by
  unfold State.endSeq
  repeat'
    first
    | with_reducible assumption
    | with_reducible apply finishSeq_frame (ms (by decide) hm)

theorem dropSeq_frame {x0} {x1} {s : State} {m : Nat} {o : State} (hm : 35753096 ||| m = m) (h : Fr m o s) : Fr m o (State.dropSeq x0 x1 s) := by
  unfold State.dropSeq
  repeat'
    first
    | with_reducible assumption
    | with_reducible apply endSeq_frame (ms (by decide) hm)

theorem probeDone_frame {x0} {s : State} {m : Nat} {o : State} (hm : 1024 ||| m = m) (h : Fr m o s) : Fr m o (State.probeDone x0 s) := by
  unfold State.probeDone
  repeat'
    first
    | with_reducible assumption
    | with_reducible apply setProbe_frame (ms (by decide) hm)
    | split

theorem pumpOuts_frame {s : State} {m : Nat} {o : State} (hm : 35750024 ||| m = m) (h : Fr m o s) : Fr m o (State.pumpOuts s) := by
  unfold State.pumpOuts
  repeat'
    first
    | with_reducible assumption
    | (intro _)
    | (extract_lets +onlyGivenNames z; refine (fun (hz : Fr m o z) => ?_) ?_; clear_value z; revert z; intro y hy; rotate_left; dsimp only [z]; clear z)
    | (extract_lets +onlyGivenNames z; clear_value z; revert z; intro y)
    | simp -zeta only [Fr_mk]
    | with_reducible apply Fr_bud (ms (by decide) hm)
    | with_reducible apply outDone_frame (ms (by decide) hm)
    | with_reducible apply each_frame

theorem modList_frame {x0} {x1} {x2} {s : State} {m : Nat} {o : State} (hm : 65536 ||| m = m) (h : Fr m o s) : Fr m o (State.modList x0 x1 x2 s) := by
  unfold State.modList
  repeat'
    first
    | with_reducible assumption
    | with_reducible apply modMsd_frame (ms (by decide) hm)

theorem deliver_frame {x0} {x1} {x2} {s : State} {m : Nat} {o : State} (hm : 65792 ||| m = m) (h : Fr m o s) : Fr m o (State.deliver x0 x1 x2 s) := by
  unfold State.deliver
  repeat'
    first
    | with_reducible assumption
    | with_reducible apply modCell_frame (ms (by decide) hm)
    | with_reducible apply modList_frame (ms (by decide) hm)
    | split

theorem loadArrives_frame {x0} {x1} {s : State} {m : Nat} {o : State} (hm : 256 ||| m = m) (h : Fr m o s) : Fr m o (State.loadArrives x0 x1 s) := by
  unfold State.loadArrives
  repeat'
    first
    | with_reducible assumption
    | with_reducible apply modCell_frame (ms (by decide) hm)
    | split

theorem loadBlock_frame {x0} {x1} {s : State} {m : Nat} {o : State} (hm : 35653000 ||| m = m) (h : Fr m o s) : Fr m o (State.loadBlock x0 x1 s) := by
  unfold State.loadBlock
  repeat'
    first
    | with_reducible assumption
    | (intro _)
    | (extract_lets +onlyGivenNames z; refine (fun (hz : Fr m o z) => ?_) ?_; clear_value z; revert z; intro y hy; rotate_left; dsimp only [z]; clear z)
    | (extract_lets +onlyGivenNames z; clear_value z; revert z; intro y)
    | with_reducible apply journal_frame (ms (by decide) hm)
    | with_reducible apply modCourse_frame (ms (by decide) hm)
    | with_reducible apply checkSegment_frame (ms (by decide) hm)
    | with_reducible apply modStream_frame (ms (by decide) hm)
    | with_reducible apply Fr_ite
    | split

theorem moveCursor_frame {x0} {x1} {s : State} {m : Nat} {o : State} (hm : 1024 ||| m = m) (h : Fr m o s) : Fr m o (State.moveCursor x0 x1 s) := by
  unfold State.moveCursor
  repeat'
    first
    | with_reducible assumption
    | with_reducible apply modCourse_frame (ms (by decide) hm)

theorem signal_frame {x0} {x1} {s : State} {m : Nat} {o : State} (hm : 65792 ||| m = m) (h : Fr m o s) : Fr m o (State.signal x0 x1 s) := by
  unfold State.signal
  repeat'
    first
    | with_reducible assumption
    | with_reducible apply addEvc_frame (ms (by decide) hm)
    | with_reducible apply modList_frame (ms (by decide) hm)
    | split

theorem putDelivered_frame {x0} {x1} {s : State} {m : Nat} {o : State} (hm : 65792 ||| m = m) (h : Fr m o s) : Fr m o (State.putDelivered x0 x1 s) := by
  unfold State.putDelivered
  repeat'
    first
    | with_reducible assumption
    | with_reducible apply signal_frame (ms (by decide) hm)
    | with_reducible apply deliver_frame (ms (by decide) hm)
    | with_reducible apply modStream_frame (ms (by decide) hm)
    | split

theorem readParts_frame {x0} {x1} {x2} {s : State} {m : Nat} {o : State} (hm : 98304 ||| m = m) (h : Fr m o s) : Fr m o (State.readParts x0 x1 x2 s).2 := by
  unfold State.readParts
  repeat'
    first
    | with_reducible assumption
    | (intro _)
    | with_reducible apply courseRead_frame (ms (by decide) hm)
    | with_reducible apply foldl_frame2
    | with_reducible apply joinRead_frame
    | split

theorem writeParts_frame {x0} {x1} {x2} {s : State} {m : Nat} {o : State} (hm : 123904 ||| m = m) (h : Fr m o s) : Fr m o (State.writeParts x0 x1 x2 s).2 := by
  unfold State.writeParts
  repeat'
    first
    | with_reducible assumption
    | (intro _)
    | with_reducible apply courseWrite_frame (ms (by decide) hm)
    | with_reducible apply foldl_frame2
    | split

theorem storeAccepted_frame {x0} {x1} {s : State} {m : Nat} {o : State} (hm : 35909000 ||| m = m) (h : Fr m o s) : Fr m o (State.storeAccepted x0 x1 s) := by
  unfold State.storeAccepted
  repeat'
    first
    | with_reducible assumption
    | (extract_lets +onlyGivenNames z; refine (fun (hz : Fr m o z.2) => ?_) ?_; clear_value z; revert z; intro y hy; rotate_left; dsimp only [z]; clear z)
    | with_reducible apply writeParts_frame (ms (by decide) hm)
    | with_reducible apply modStream_frame (ms (by decide) hm)
    | with_reducible apply courseFails_frame (ms (by decide) hm)
    | split

theorem waited_frame {x0} {s : State} {m : Nat} {o : State} (hm : 4 ||| m = m) (h : Fr m o s) : Fr m o (State.waited x0 s).2 := by
  unfold State.waited
  repeat'
    first
    | with_reducible assumption
    | (extract_lets +onlyGivenNames z; refine (fun (hz : Fr m o z.2) => ?_) ?_; clear_value z; revert z; intro y hy; rotate_left; dsimp only [z]; clear z)
    | with_reducible apply fresh_frame (ms (by decide) hm)
    | split

theorem synTimeout_frame {x0} {x1} {s : State} {m : Nat} {o : State} (hm : 35653004 ||| m = m) (h : Fr m o s) : Fr m o (State.synTimeout x0 x1 s) := by
  unfold State.synTimeout
  repeat'
    first
    | with_reducible assumption
    | (intro _)
    | (extract_lets +onlyGivenNames z; refine (fun (hz : Fr m o z.2) => ?_) ?_; clear_value z; revert z; intro y hy; rotate_left; dsimp only [z]; clear z)
    | with_reducible apply waited_frame (ms (by decide) hm)
    | with_reducible apply endBlock_frame (ms (by decide) hm)
    | with_reducible apply modStream_frame (ms (by decide) hm)
    | with_reducible apply violation_frame (ms (by decide) hm)
    | with_reducible apply Fr_ite
    | split

theorem endBody_frame {x0} {s : State} {m : Nat} {o : State} (hm : 35653004 ||| m = m) (h : Fr m o s) : FrO m o (endBody x0 s) := by
  unfold endBody
  repeat'
    first
    | with_reducible assumption
    | (intro _)
    | with_reducible apply endBlock_frame (ms (by decide) hm)
    | with_reducible apply retire_frame (ms (by decide) hm)
    | with_reducible apply violation_frame (ms (by decide) hm)
    | with_reducible apply FrO_ite
    | with_reducible exact FrO_none
    | with_reducible apply FrO_some

theorem ldwBody_frame {x0} {s : State} {m : Nat} {o : State} (hm : 35884424 ||| m = m) (h : Fr m o s) : FrO m o (ldwBody x0 s) := by
  unfold ldwBody
  repeat'
    first
    | with_reducible assumption
    | (intro _)
    | (extract_lets +onlyGivenNames z; refine (fun (hz : Fr m o z.2) => ?_) ?_; clear_value z; revert z; intro y hy; rotate_left; dsimp only [z]; clear z)
    | with_reducible apply readParts_frame (ms (by decide) hm)
    | with_reducible apply courseFails_frame (ms (by decide) hm)
    | with_reducible apply retire_frame (ms (by decide) hm)
    | with_reducible apply modStream_frame (ms (by decide) hm)
    | with_reducible apply moveCursor_frame (ms (by decide) hm)
    | with_reducible apply FrO_ite
    | with_reducible exact FrO_none
    | with_reducible apply FrO_some
    | split

theorem nopBody_frame {x0} {s : State} {m : Nat} {o : State} (hm : 256 ||| m = m) (h : Fr m o s) : FrO m o (nopBody x0 s) := by
  unfold nopBody
  repeat'
    first
    | with_reducible assumption
    | (intro _)
    | with_reducible apply retire_frame (ms (by decide) hm)
    | with_reducible apply FrO_ite
    | with_reducible exact FrO_none
    | with_reducible apply FrO_some

theorem putBody_frame {x0} {s : State} {m : Nat} {o : State} (hm : 256 ||| m = m) (h : Fr m o s) : FrO m o (putBody x0 s) := by
  unfold putBody
  repeat'
    first
    | with_reducible assumption
    | (intro _)
    | (extract_lets +onlyGivenNames z; clear_value z; revert z; intro y)
    | with_reducible apply retire_frame (ms (by decide) hm)
    | with_reducible apply modStream_frame (ms (by decide) hm)
    | with_reducible apply FrO_ite
    | with_reducible exact FrO_none
    | with_reducible apply FrO_some
    | split

theorem sigBody_frame {x0} {s : State} {m : Nat} {o : State} (hm : 65792 ||| m = m) (h : Fr m o s) : FrO m o (sigBody x0 s) := by
  unfold sigBody
  repeat'
    first
    | with_reducible assumption
    | (intro _)
    | with_reducible apply retire_frame (ms (by decide) hm)
    | with_reducible apply signal_frame (ms (by decide) hm)
    | with_reducible apply FrO_ite
    | with_reducible exact FrO_none
    | with_reducible apply FrO_some
    | split

theorem stwBody_frame {x0} {s : State} {m : Nat} {o : State} (hm : 1280 ||| m = m) (h : Fr m o s) : FrO m o (stwBody x0 s) := by
  unfold stwBody
  repeat'
    first
    | with_reducible assumption
    | (intro _)
    | (extract_lets +onlyGivenNames z; clear_value z; revert z; intro y)
    | with_reducible apply retire_frame (ms (by decide) hm)
    | with_reducible apply modStream_frame (ms (by decide) hm)
    | with_reducible apply moveCursor_frame (ms (by decide) hm)
    | with_reducible apply FrO_ite
    | with_reducible exact FrO_none
    | with_reducible apply FrO_some
    | split

theorem synBody_frame {x0} {s : State} {m : Nat} {o : State} (hm : 260 ||| m = m) (h : Fr m o s) : FrO m o (synBody x0 s) := by
  unfold synBody
  repeat'
    first
    | with_reducible assumption
    | (intro _)
    | (extract_lets +onlyGivenNames z; refine (fun (hz : Fr m o z.2) => ?_) ?_; clear_value z; revert z; intro y hy; rotate_left; dsimp only [z]; clear z)
    | (extract_lets +onlyGivenNames z; clear_value z; revert z; intro y)
    | with_reducible apply waited_frame (ms (by decide) hm)
    | with_reducible apply retire_frame (ms (by decide) hm)
    | with_reducible apply modStream_frame (ms (by decide) hm)
    | with_reducible apply FrO_ite
    | with_reducible apply FrO_some

theorem startUnit_frame {x0} {s : State} {m : Nat} {o : State} (hm : 256 ||| m = m) (h : Fr m o s) : Fr m o (State.startUnit x0 s) := by
  unfold State.startUnit
  repeat'
    first
    | with_reducible assumption
    | with_reducible apply modStream_frame (ms (by decide) hm)
    | split

theorem presentWith_frame {x0} {x1} {s : State} {m : Nat} {o : State} (hm : 384 ||| m = m) (hf : ∀ a t, Fr m o t → Fr m o (x0 a t)) (h : Fr m o s) : Fr m o (State.presentWith x0 x1 s) := by
  unfold State.presentWith
  repeat'
    first
    | with_reducible assumption
    | (intro _)
    | (extract_lets +onlyGivenNames z; refine (fun (hz : Fr m o z.2) => ?_) ?_; clear_value z; revert z; intro y hy; rotate_left; dsimp only [z]; clear z)
    | with_reducible apply hold_frame (ms (by decide) hm)
    | with_reducible apply admitUnit_frame (ms (by decide) hm)
    | with_reducible apply startUnit_frame (ms (by decide) hm)
    | with_reducible apply Fr_ite
    | split
    | with_reducible apply_assumption

theorem retryTune_frame {s s2 : State} {m : Nat} {o : State} (hm : 384 ||| m = m) (h2 : Fr m o s2) : Fr m o (State.retryTune s s2) := by
  unfold State.retryTune
  extract_lets q
  split
  · exact h2
  · refine pumpMoves_frame (ms (by decide) hm) (each_frame (fun w t ht => presentWith_frame (ms (by decide) hm) (fun _ _ h => h) ht) ?_)
    rw [Fr_mk]
    exact Fr_bud (ms (by decide) hm) h2

theorem ask_frame {x0} {x1} {x2} {s : State} {m : Nat} {o : State} (hm : 384 ||| m = m) (h : Fr m o s) : Fr m o (State.ask x0 x1 x2 s).2 := by
  unfold State.ask
  repeat'
    first
    | with_reducible assumption
    | (extract_lets +onlyGivenNames z; refine (fun (hz : Fr m o z.2) => ?_) ?_; clear_value z; revert z; intro y hy; rotate_left; dsimp only [z]; clear z)
    | with_reducible apply admitOnce_frame (ms (by decide) hm)
    | with_reducible apply retryTune_frame (ms (by decide) hm)

theorem forwardTick_frame {x0} {x1} {s : State} {m : Nat} {o : State} (hm : 8 ||| m = m) (h : Fr m o s) : Fr m o (State.forwardTick x0 x1 s) := by
  unfold State.forwardTick
  repeat'
    first
    | with_reducible assumption
    | (intro _)
    | with_reducible apply emit_frame (ms (by decide) hm)
    | with_reducible apply Fr_ite

theorem predictNext_frame {s : State} {m : Nat} {o : State} (hm : 64 ||| m = m) (h : Fr m o s) : Fr m o (State.predictNext s) := by
  unfold State.predictNext
  repeat'
    first
    | with_reducible assumption
    | (extract_lets +onlyGivenNames z; clear_value z; revert z; intro y)
    | simp -zeta only [Fr_mk]
    | with_reducible apply Fr_rnd (ms (by decide) hm)

theorem holdoverEntry_frame {s : State} {m : Nat} {o : State} (hm : 64 ||| m = m) (h : Fr m o s) : Fr m o (State.holdoverEntry s) := by
  unfold State.holdoverEntry
  repeat'
    first
    | with_reducible assumption
    | (intro _)
    | (extract_lets +onlyGivenNames z; refine (fun (hz : Fr m o z) => ?_) ?_; clear_value z; revert z; intro y hy; rotate_left; dsimp only [z]; clear z)
    | (extract_lets +onlyGivenNames z; clear_value z; revert z; intro y)
    | simp -zeta only [Fr_mk]
    | with_reducible apply Fr_rnd (ms (by decide) hm)
    | with_reducible apply predictNext_frame (ms (by decide) hm)
    | with_reducible apply Fr_ite

theorem isolate_frame {s : State} {m : Nat} {o : State} (hm : 35651784 ||| m = m) (h : Fr m o s) : Fr m o (State.isolate s) := by
  unfold State.isolate
  repeat'
    first
    | with_reducible assumption
    | (intro _)
    | (extract_lets +onlyGivenNames z; clear_value z; revert z; intro y)
    | simp -zeta only [Fr_mk]
    | with_reducible apply Fr_rnd (ms (by decide) hm)
    | with_reducible apply journal_frame (ms (by decide) hm)
    | with_reducible apply Fr_ite

theorem holdoverTick_frame {s : State} {m : Nat} {o : State} (hm : 35651784 ||| m = m) (h : Fr m o s) : Fr m o (State.holdoverTick s) := by
  unfold State.holdoverTick
  repeat'
    first
    | with_reducible assumption
    | (intro _)
    | (extract_lets +onlyGivenNames z; refine (fun (hz : Fr m o z) => ?_) ?_; clear_value z; revert z; intro y hy; rotate_left; dsimp only [z]; clear z)
    | (extract_lets +onlyGivenNames z; clear_value z; revert z; intro y)
    | simp -zeta only [Fr_mk]
    | with_reducible apply Fr_rnd (ms (by decide) hm)
    | with_reducible apply isolate_frame (ms (by decide) hm)
    | with_reducible apply predictNext_frame (ms (by decide) hm)
    | with_reducible apply Fr_ite

theorem hoopTick_frame {x0} {x1} {x2} {s : State} {m : Nat} {o : State} (hm : 1048640 ||| m = m) (h : Fr m o s) : Fr m o (State.hoopTick x0 x1 x2 s) := by
  unfold State.hoopTick
  repeat'
    first
    | with_reducible assumption
    | (extract_lets +onlyGivenNames z; clear_value z; revert z; intro y)
    | simp -zeta only [Fr_mk]
    | with_reducible apply Fr_rnd_hoop (ms (by decide) hm)

theorem localTick_frame {s : State} {m : Nat} {o : State} (hm : 64 ||| m = m) (h : Fr m o s) : Fr m o (State.localTick s) := by
  unfold State.localTick
  repeat'
    first
    | with_reducible assumption
    | (intro _)
    | (extract_lets +onlyGivenNames z; clear_value z; revert z; intro y)
    | simp -zeta only [Fr_mk]
    | with_reducible apply Fr_rnd (ms (by decide) hm)
    | with_reducible apply Fr_ite

theorem present_frame {x0} {s : State} {m : Nat} {o : State} (hm : 384 ||| m = m) (h : Fr m o s) : Fr m o (State.present x0 s) :=
  presentWith_frame (ms (by decide) hm) (fun _ _ ht => retryTune_frame (ms (by decide) hm) ht) h

theorem recvTick_frame {x0} {x1} {s : State} {m : Nat} {o : State} (hm : 1048648 ||| m = m) (h : Fr m o s) : Fr m o (State.recvTick x0 x1 s) := by
  unfold State.recvTick
  repeat'
    first
    | with_reducible assumption
    | (intro _)
    | (extract_lets +onlyGivenNames z; refine (fun (hz : Fr m o z) => ?_) ?_; clear_value z; revert z; intro y hy; rotate_left; dsimp only [z]; clear z)
    | (extract_lets +onlyGivenNames z; clear_value z; revert z; intro y)
    | simp -zeta only [Fr_mk]
    | with_reducible apply Fr_hoop (ms (by decide) hm)
    | with_reducible apply hoopTick_frame (ms (by decide) hm)
    | with_reducible apply forwardTick_frame (ms (by decide) hm)
    | with_reducible apply Fr_ite

theorem retryUnits_frame {s : State} {m : Nat} {o : State} (hm : 384 ||| m = m) (h : Fr m o s) : Fr m o (State.retryUnits s) := by
  unfold State.retryUnits
  repeat'
    first
    | with_reducible assumption
    | (intro _)
    | (extract_lets +onlyGivenNames z; clear_value z; revert z; intro y)
    | simp -zeta only [Fr_mk]
    | with_reducible apply Fr_bud (ms (by decide) hm)
    | with_reducible apply present_frame (ms (by decide) hm)
    | with_reducible apply each_frame

theorem sendTick_frame {s : State} {m : Nat} {o : State} (hm : 8 ||| m = m) (h : Fr m o s) : Fr m o (State.sendTick s) := by
  unfold State.sendTick
  repeat'
    first
    | with_reducible assumption
    | (intro _)
    | with_reducible apply emit_frame (ms (by decide) hm)
    | with_reducible apply Fr_ite

theorem askFetch_frame {x0} {s : State} {m : Nat} {o : State} (hm : 2176 ||| m = m) (h : Fr m o s) : Fr m o (State.askFetch x0 s) := by
  unfold State.askFetch
  repeat'
    first
    | with_reducible assumption
    | (intro _)
    | (extract_lets +onlyGivenNames z; refine (fun (hz : Fr m o z) => ?_) ?_; clear_value z; revert z; intro y hy; rotate_left; dsimp only [z]; clear z)
    | (extract_lets +onlyGivenNames z; clear_value z; revert z; intro y)
    | with_reducible apply pushMove_frame (ms (by decide) hm)
    | with_reducible apply dropMove_frame (ms (by decide) hm)
    | with_reducible apply modWeaver_frame (ms (by decide) hm)
    | with_reducible apply Fr_ite

theorem parkSessions_frame {x0} {s : State} {m : Nat} {o : State} (hm : 2048 ||| m = m) (h : Fr m o s) : Fr m o (State.parkSessions x0 s) := by
  unfold State.parkSessions
  repeat'
    first
    | with_reducible assumption
    | (extract_lets +onlyGivenNames z; clear_value z; revert z; intro y)
    | simp -zeta only [Fr_mk]
    | with_reducible apply Fr_weav (ms (by decide) hm)

theorem evictWeaver_frame {x0} {s : State} {m : Nat} {o : State} (hm : 34944 ||| m = m) (h : Fr m o s) : Fr m o (State.evictWeaver x0 s) := by
  unfold State.evictWeaver
  repeat'
    first
    | with_reducible assumption
    | (intro _)
    | (extract_lets +onlyGivenNames z; clear_value z; revert z; intro y)
    | with_reducible apply parkSessions_frame (ms (by decide) hm)
    | with_reducible apply modWeaver_frame (ms (by decide) hm)
    | with_reducible apply startEvict_frame (ms (by decide) hm)
    | with_reducible apply Fr_ite
    | with_reducible apply each_frame

theorem commonsRefs_frame {s : State} {m : Nat} {o : State} (hm : 34944 ||| m = m) (h : Fr m o s) : Fr m o (State.commonsRefs s) := by
  unfold State.commonsRefs
  repeat'
    first
    | with_reducible assumption
    | (intro _)
    | (extract_lets +onlyGivenNames z; refine (fun (hz : Fr m o z) => ?_) ?_; clear_value z; revert z; intro y hy; rotate_left; dsimp only [z]; clear z)
    | (extract_lets +onlyGivenNames z; clear_value z; revert z; intro y)
    | with_reducible apply modWeaver_frame (ms (by decide) hm)
    | with_reducible apply evictWeaver_frame (ms (by decide) hm)
    | with_reducible apply Fr_ite
    | with_reducible apply each_frame

theorem takeFrames_frame {x0} {x1} {x2} {s : State} {m : Nat} {o : State} (hm : 32768 ||| m = m) (h : Fr m o s) : FrP m o (State.takeFrames x0 x1 x2 s) := by
  induction x1 generalizing s x2 with
  | zero => exact FrP_some h
  | succ k ih =>
    rw [State.takeFrames]
    split
    · exact FrP_none
    · have hr := ih (x2 := x2 + 1) (takeFrame_frame (x0 := ‹Nat›) (x1 := x0 x2) (ms (by decide) hm) h)
      split
      · exact FrP_none
      · rename_i r e
        exact FrP_some (show Fr m o r.2 from hr.out r e)

theorem tryFetch_frame {x0} {s : State} {m : Nat} {o : State} (hm : 34944 ||| m = m) (h : Fr m o s) : Fr m o (State.tryFetch x0 s) := by
  unfold State.tryFetch
  repeat'
    first
    | with_reducible assumption
    | (intro _)
    | (extract_lets +onlyGivenNames z; clear_value z; revert z; intro y)
    | with_reducible apply dropWait_frame (ms (by decide) hm)
    | with_reducible apply waitFrame_frame (ms (by decide) hm)
    | with_reducible apply takeFrames_frame (ms (by decide) hm)
    | with_reducible apply askFetch_frame (ms (by decide) hm)
    | with_reducible apply modWeaver_frame (ms (by decide) hm)
    | with_reducible apply Fr_ite
    | split
    | with_reducible refine FrP.out ?_ _ (by assumption)

theorem demand_frame {x0} {s : State} {m : Nat} {o : State} (hm : 34944 ||| m = m) (h : Fr m o s) : Fr m o (State.demand x0 s) := by
  unfold State.demand
  repeat'
    first
    | with_reducible assumption
    | (intro _)
    | with_reducible apply tryFetch_frame (ms (by decide) hm)
    | with_reducible apply modWeaver_frame (ms (by decide) hm)
    | with_reducible apply Fr_ite

theorem fetchFails_frame {x0} {s : State} {m : Nat} {o : State} (hm : 35753096 ||| m = m) (h : Fr m o s) : Fr m o (State.fetchFails x0 s) := by
  unfold State.fetchFails
  repeat'
    first
    | with_reducible assumption
    | (intro _)
    | (extract_lets +onlyGivenNames z; refine (fun (hz : Fr m o z) => ?_) ?_; clear_value z; revert z; intro y hy; rotate_left; dsimp only [z]; clear z)
    | (extract_lets +onlyGivenNames z; clear_value z; revert z; intro y)
    | with_reducible apply zeroFrame_frame (ms (by decide) hm)
    | with_reducible apply modWeaver_frame (ms (by decide) hm)
    | with_reducible apply dropMove_frame (ms (by decide) hm)
    | with_reducible apply journal_frame (ms (by decide) hm)
    | with_reducible apply dropSeq_frame (ms (by decide) hm)
    | with_reducible apply each_frame

theorem fillShard_frame {x0} {x1} {s : State} {m : Nat} {o : State} (hm : 40960 ||| m = m) (h : Fr m o s) : Fr m o (State.fillShard x0 x1 s) := by
  unfold State.fillShard
  repeat'
    first
    | with_reducible assumption
    | (intro _)
    | (extract_lets +onlyGivenNames z; refine (fun (_ : z = (z : Mem)) => ?_) rfl; subst z)
    | (extract_lets +onlyGivenNames z; clear_value z; revert z; intro y)
    | simp -zeta only [Fr_mk]
    | (with_reducible apply Fr_hbm (ms (by decide) hm) <;> try with_reducible rfl)
    | with_reducible apply modFrame_frame (ms (by decide) hm)
    | with_reducible apply each_frame

theorem mapSide_frame {x0} {s : State} {m : Nat} {o : State} (hm : 2048 ||| m = m) (h : Fr m o s) : Fr m o (State.mapSide x0 s) := by
  unfold State.mapSide
  repeat'
    first
    | with_reducible assumption
    | (extract_lets +onlyGivenNames z; clear_value z; revert z; intro y)
    | simp -zeta only [Fr_mk]
    | with_reducible apply Fr_weav (ms (by decide) hm)

theorem recheck_frame {x0} {s : State} {m : Nat} {o : State} (hm : 51200 ||| m = m) (h : Fr m o s) : Fr m o (State.recheck x0 s) := by
  unfold State.recheck
  repeat'
    first
    | with_reducible assumption
    | (intro _)
    | (extract_lets +onlyGivenNames z; refine (fun (hz : Fr m o z) => ?_) ?_; clear_value z; revert z; intro y hy; rotate_left; dsimp only [z]; clear z)
    | (extract_lets +onlyGivenNames z; clear_value z; revert z; intro y)
    | with_reducible apply slowWrite_frame (ms (by decide) hm)
    | with_reducible apply modWeaver_frame (ms (by decide) hm)
    | with_reducible apply foldl_frame

theorem releaseClaims_frame {x0} {s : State} {m : Nat} {o : State} (hm : 2048 ||| m = m) (h : Fr m o s) : Fr m o (State.releaseClaims x0 s) := by
  unfold State.releaseClaims
  repeat'
    first
    | with_reducible assumption
    | with_reducible apply mapSide_frame (ms (by decide) hm)

theorem slowScrub_frame {x0} {x1} {s : State} {m : Nat} {o : State} (hm : 16384 ||| m = m) (h : Fr m o s) : Fr m o (State.slowScrub x0 x1 s) := by
  unfold State.slowScrub
  repeat'
    first
    | with_reducible assumption
    | (intro _)
    | (extract_lets +onlyGivenNames z; refine (fun (_ : z = (z : Mem)) => ?_) rfl; subst z)
    | (extract_lets +onlyGivenNames z; clear_value z; revert z; intro y)
    | simp -zeta only [Fr_mk]
    | (with_reducible apply Fr_slow (ms (by decide) hm) <;> try with_reducible rfl)
    | with_reducible apply Fr_ite

theorem removeComplete_frame {x0} {s : State} {m : Nat} {o : State} (hm : 35670152 ||| m = m) (h : Fr m o s) : Fr m o (State.removeComplete x0 s) := by
  unfold State.removeComplete
  repeat'
    first
    | with_reducible assumption
    | (intro _)
    | (extract_lets +onlyGivenNames z; refine (fun (hz : Fr m o z) => ?_) ?_; clear_value z; revert z; intro y hy; rotate_left; dsimp only [z]; clear z)
    | (extract_lets +onlyGivenNames z; clear_value z; revert z; intro y)
    | with_reducible apply slowScrub_frame (ms (by decide) hm)
    | with_reducible apply modWeaver_frame (ms (by decide) hm)
    | with_reducible apply finalRecord_frame (ms (by decide) hm)
    | with_reducible apply Fr_ite
    | with_reducible apply each_frame

theorem removeFrames_frame {x0} {s : State} {m : Nat} {o : State} (hm : 34944 ||| m = m) (h : Fr m o s) : Fr m o (State.removeFrames x0 s) := by
  unfold State.removeFrames
  repeat'
    first
    | with_reducible assumption
    | (intro _)
    | (extract_lets +onlyGivenNames z; clear_value z; revert z; intro y)
    | with_reducible apply zeroFrame_frame (ms (by decide) hm)
    | with_reducible apply startEvict_frame (ms (by decide) hm)
    | with_reducible apply modWeaver_frame (ms (by decide) hm)
    | with_reducible apply dropMove_frame (ms (by decide) hm)
    | with_reducible apply Fr_ite
    | with_reducible apply each_frame

theorem shardFetched_frame {x0} {x1} {s : State} {m : Nat} {o : State} (hm : 35761288 ||| m = m) (h : Fr m o s) : Fr m o (State.shardFetched x0 x1 s) := by
  unfold State.shardFetched
  repeat'
    first
    | with_reducible assumption
    | (intro _)
    | (extract_lets +onlyGivenNames z; refine (fun (hz : Fr m o z) => ?_) ?_; clear_value z; revert z; intro y hy; rotate_left; dsimp only [z]; clear z)
    | (extract_lets +onlyGivenNames z; clear_value z; revert z; intro y)
    | with_reducible apply fetchFails_frame (ms (by decide) hm)
    | with_reducible apply noKey_frame (ms (by decide) hm)
    | with_reducible apply askFetch_frame (ms (by decide) hm)
    | with_reducible apply countStale_frame (ms (by decide) hm)
    | with_reducible apply fillShard_frame (ms (by decide) hm)
    | with_reducible apply modWeaver_frame (ms (by decide) hm)
    | with_reducible apply Fr_ite

theorem sideBoundary_frame {s : State} {m : Nat} {o : State} (hm : 2048 ||| m = m) (h : Fr m o s) : Fr m o (State.sideBoundary s) := by
  unfold State.sideBoundary
  repeat'
    first
    | with_reducible assumption
    | with_reducible apply mapSide_frame (ms (by decide) hm)

theorem startRemove_frame {x0} {s : State} {m : Nat} {o : State} (hm : 35753096 ||| m = m) (h : Fr m o s) : Fr m o (State.startRemove x0 s) := by
  unfold State.startRemove
  repeat'
    first
    | with_reducible assumption
    | (intro _)
    | (extract_lets +onlyGivenNames z; refine (fun (hz : Fr m o z) => ?_) ?_; clear_value z; revert z; intro y hy; rotate_left; dsimp only [z]; clear z)
    | (extract_lets +onlyGivenNames z; clear_value z; revert z; intro y)
    | with_reducible apply modWeaver_frame (ms (by decide) hm)
    | with_reducible apply dropWait_frame (ms (by decide) hm)
    | with_reducible apply dropSeq_frame (ms (by decide) hm)
    | with_reducible apply closeSession_frame (ms (by decide) hm)
    | with_reducible apply releaseClaims_frame (ms (by decide) hm)
    | with_reducible apply each_frame

theorem weaverFrameFreed_frame {x0} {s : State} {m : Nat} {o : State} (hm : 34944 ||| m = m) (h : Fr m o s) : Fr m o (State.weaverFrameFreed x0 s) := by
  unfold State.weaverFrameFreed
  repeat'
    first
    | with_reducible assumption
    | (intro _)
    | (extract_lets +onlyGivenNames z; refine (fun (hz : Fr m o z) => ?_) ?_; clear_value z; revert z; intro y hy; rotate_left; dsimp only [z]; clear z)
    | with_reducible apply modWeaver_frame (ms (by decide) hm)
    | with_reducible apply tryFetch_frame (ms (by decide) hm)
    | with_reducible apply each_frame

theorem weaverWriteBack_frame {x0} {s : State} {m : Nat} {o : State} (hm : 51200 ||| m = m) (h : Fr m o s) : Fr m o (State.weaverWriteBack x0 s) := by
  unfold State.weaverWriteBack
  repeat'
    first
    | with_reducible assumption
    | (intro _)
    | (extract_lets +onlyGivenNames z; refine (fun (hz : Fr m o z) => ?_) ?_; clear_value z; revert z; intro y hy; rotate_left; dsimp only [z]; clear z)
    | (extract_lets +onlyGivenNames z; clear_value z; revert z; intro y)
    | with_reducible apply writeBack_frame (ms (by decide) hm)
    | with_reducible apply recheck_frame (ms (by decide) hm)
    | with_reducible apply Fr_ite
    | split

theorem abortCommit_frame {x0} {s : State} {m : Nat} {o : State} (hm : 35655816 ||| m = m) (h : Fr m o s) : Fr m o (State.abortCommit x0 s) := by
  unfold State.abortCommit
  repeat'
    first
    | with_reducible assumption
    | with_reducible apply finalRecord_frame (ms (by decide) hm)
    | with_reducible apply modStake_frame (ms (by decide) hm)
    | split

theorem announce_frame {x0} {s : State} {m : Nat} {o : State} (hm : 36704392 ||| m = m) (h : Fr m o s) : Fr m o (State.announce x0 s) := by
  unfold State.announce
  repeat'
    first
    | with_reducible assumption
    | (intro _)
    | (extract_lets +onlyGivenNames z; refine (fun (hz : Fr m o z) => ?_) ?_; clear_value z; revert z; intro y hy; rotate_left; dsimp only [z]; clear z)
    | (extract_lets +onlyGivenNames z; clear_value z; revert z; intro y)
    | with_reducible apply originate_frame (ms (by decide) hm)
    | with_reducible apply modStake_frame (ms (by decide) hm)
    | with_reducible apply abortCommit_frame (ms (by decide) hm)
    | with_reducible apply Fr_ite
    | split

theorem askShard_frame {x0} {s : State} {m : Nat} {o : State} (hm : 4232 ||| m = m) (h : Fr m o s) : Fr m o (State.askShard x0 s) := by
  unfold State.askShard
  repeat'
    first
    | with_reducible assumption
    | (extract_lets +onlyGivenNames z; clear_value z; revert z; intro y)
    | with_reducible apply emit_frame (ms (by decide) hm)
    | with_reducible apply pushMove_frame (ms (by decide) hm)
    | with_reducible apply dropMove_frame (ms (by decide) hm)
    | with_reducible apply modStake_frame (ms (by decide) hm)
    | split

theorem buildFails_frame {x0} {x1} {x2} {s : State} {m : Nat} {o : State} (hm : 35688584 ||| m = m) (h : Fr m o s) : Fr m o (State.buildFails x0 x1 x2 s) := by
  unfold State.buildFails
  repeat'
    first
    | with_reducible assumption
    | (extract_lets +onlyGivenNames z; refine (fun (hz : Fr m o z) => ?_) ?_; clear_value z; revert z; intro y hy; rotate_left; dsimp only [z]; clear z)
    | (extract_lets +onlyGivenNames z; clear_value z; revert z; intro y)
    | with_reducible apply dropWait_frame (ms (by decide) hm)
    | with_reducible apply dropMove_frame (ms (by decide) hm)
    | with_reducible apply finalRecord_frame (ms (by decide) hm)
    | with_reducible apply modStake_frame (ms (by decide) hm)
    | with_reducible apply modGen_frame (ms (by decide) hm)

theorem closeGens_frame {x0} {s : State} {m : Nat} {o : State} (hm : 4096 ||| m = m) (h : Fr m o s) : Fr m o (State.closeGens x0 s) := by
  unfold State.closeGens
  repeat'
    first
    | with_reducible assumption
    | with_reducible apply modStake_frame (ms (by decide) hm)

theorem endEvicts_frame {x0} {x1} {s : State} {m : Nat} {o : State} (hm : 35655816 ||| m = m) (h : Fr m o s) : Fr m o (State.endEvicts x0 x1 s) := by
  unfold State.endEvicts
  repeat'
    first
    | with_reducible assumption
    | (intro _)
    | (extract_lets +onlyGivenNames z; clear_value z; revert z; intro y)
    | with_reducible apply finalRecord_frame (ms (by decide) hm)
    | with_reducible apply modStake_frame (ms (by decide) hm)
    | with_reducible apply each_frame

theorem endGenCourses_frame {x0} {x1} {s : State} {m : Nat} {o : State} (hm : 35884424 ||| m = m) (h : Fr m o s) : Fr m o (State.endGenCourses x0 x1 s) := by
  unfold State.endGenCourses
  repeat'
    first
    | with_reducible assumption
    | (intro _)
    | with_reducible apply endCourse_frame (ms (by decide) hm)
    | with_reducible apply each_frame

theorem freeGen_frame {x0} {x1} {s : State} {m : Nat} {o : State} (hm : 36992 ||| m = m) (h : Fr m o s) : Fr m o (State.freeGen x0 x1 s) := by
  unfold State.freeGen
  repeat'
    first
    | with_reducible assumption
    | (intro _)
    | (extract_lets +onlyGivenNames z; refine (fun (hz : Fr m o z) => ?_) ?_; clear_value z; revert z; intro y hy; rotate_left; dsimp only [z]; clear z)
    | (extract_lets +onlyGivenNames z; clear_value z; revert z; intro y)
    | with_reducible apply modGen_frame (ms (by decide) hm)
    | with_reducible apply zeroFrame_frame (ms (by decide) hm)
    | with_reducible apply startEvict_frame (ms (by decide) hm)
    | with_reducible apply Fr_ite
    | with_reducible apply each_frame

theorem genDone_frame {x0} {x1} {s : State} {m : Nat} {o : State} (hm : 35655816 ||| m = m) (h : Fr m o s) : Fr m o (State.genDone x0 x1 s) := by
  unfold State.genDone
  repeat'
    first
    | with_reducible assumption
    | (intro _)
    | (extract_lets +onlyGivenNames z; refine (fun (hz : Fr m o z) => ?_) ?_; clear_value z; revert z; intro y hy; rotate_left; dsimp only [z]; clear z)
    | (extract_lets +onlyGivenNames z; clear_value z; revert z; intro y)
    | with_reducible apply modGen_frame (ms (by decide) hm)
    | with_reducible apply endEvicts_frame (ms (by decide) hm)
    | with_reducible apply Fr_ite

theorem evictStake_frame {x0} {s : State} {m : Nat} {o : State} (hm : 35688584 ||| m = m) (h : Fr m o s) : Fr m o (State.evictStake x0 s) := by
  unfold State.evictStake
  repeat'
    first
    | with_reducible assumption
    | (intro _)
    | (extract_lets +onlyGivenNames z; refine (fun (hz : Fr m o z) => ?_) ?_; clear_value z; revert z; intro y hy; rotate_left; dsimp only [z]; clear z)
    | with_reducible apply freeGen_frame (ms (by decide) hm)
    | with_reducible apply abortCommit_frame (ms (by decide) hm)
    | with_reducible apply modStake_frame (ms (by decide) hm)
    | with_reducible apply genDone_frame (ms (by decide) hm)
    | with_reducible apply each_frame

theorem genFrameFreed_frame {x0} {s : State} {m : Nat} {o : State} (hm : 35655816 ||| m = m) (h : Fr m o s) : Fr m o (State.genFrameFreed x0 s) := by
  unfold State.genFrameFreed
  repeat'
    first
    | with_reducible assumption
    | (intro _)
    | with_reducible apply genDone_frame (ms (by decide) hm)
    | with_reducible apply modGen_frame (ms (by decide) hm)
    | with_reducible apply Fr_ite
    | with_reducible apply each_frame

theorem startCarry_frame {x0} {x1} {s : State} {m : Nat} {o : State} (hm : 34944 ||| m = m) (h : Fr m o s) : Fr m o (State.startCarry x0 x1 s) := by
  unfold State.startCarry
  repeat'
    first
    | with_reducible assumption
    | (intro _)
    | (extract_lets +onlyGivenNames z; refine (fun (hz : Fr m o z) => ?_) ?_; clear_value z; revert z; intro y hy; rotate_left; dsimp only [z]; clear z)
    | (extract_lets +onlyGivenNames z; clear_value z; revert z; intro y)
    | with_reducible apply modWeaver_frame (ms (by decide) hm)
    | with_reducible apply demand_frame (ms (by decide) hm)
    | with_reducible apply Fr_ite

theorem startCarries_frame {x0} {x1} {s : State} {m : Nat} {o : State} (hm : 34944 ||| m = m) (h : Fr m o s) : Fr m o (State.startCarries x0 x1 s) := by
  unfold State.startCarries
  repeat'
    first
    | with_reducible assumption
    | (intro _)
    | with_reducible apply startCarry_frame (ms (by decide) hm)
    | with_reducible apply each_frame

theorem takeTable_frame {x0} {x1} {s : State} {m : Nat} {o : State} (hm : 36864 ||| m = m) (h : Fr m o s) : FrO m o (State.takeTable x0 x1 s) := by
  unfold State.takeTable
  repeat'
    first
    | with_reducible assumption
    | (intro _)
    | with_reducible apply modStake_frame (ms (by decide) hm)
    | with_reducible apply takeFrame_frame (ms (by decide) hm)
    | with_reducible apply FrO_ite
    | with_reducible exact FrO_none
    | with_reducible apply FrO_some
    | split

theorem tryBuildFrames_frame {x0} {s : State} {m : Nat} {o : State} (hm : 36864 ||| m = m) (h : Fr m o s) : Fr m o (State.tryBuildFrames x0 s) := by
  unfold State.tryBuildFrames
  repeat'
    first
    | with_reducible assumption
    | (intro _)
    | (extract_lets +onlyGivenNames z; clear_value z; revert z; intro y)
    | with_reducible apply waitFrame_frame (ms (by decide) hm)
    | with_reducible apply takeFrames_frame (ms (by decide) hm)
    | with_reducible apply takeTable_frame (ms (by decide) hm)
    | with_reducible apply modGen_frame (ms (by decide) hm)
    | with_reducible apply dropWait_frame (ms (by decide) hm)
    | with_reducible apply Fr_ite
    | with_reducible apply FrP_bind
    | with_reducible apply FrP_mapS
    | split
    | with_reducible refine FrP.out ?_ _ (by assumption)

theorem gensAt20_frame {x0} {s : State} {m : Nat} {o : State} (hm : 35888520 ||| m = m) (h : Fr m o s) : Fr m o (State.gensAt20 x0 s) := by
  unfold State.gensAt20
  repeat'
    first
    | with_reducible assumption
    | (intro _)
    | (extract_lets +onlyGivenNames z; refine (fun (hz : Fr m o z) => ?_) ?_; clear_value z; revert z; intro y hy; rotate_left; dsimp only [z]; clear z)
    | (extract_lets +onlyGivenNames z; clear_value z; revert z; intro y)
    | with_reducible apply modStake_frame (ms (by decide) hm)
    | with_reducible apply modGen_frame (ms (by decide) hm)
    | with_reducible apply startCarries_frame (ms (by decide) hm)
    | with_reducible apply finalRecord_frame (ms (by decide) hm)
    | with_reducible apply tryBuildFrames_frame (ms (by decide) hm)
    | with_reducible apply evictStake_frame (ms (by decide) hm)
    | with_reducible apply endEvicts_frame (ms (by decide) hm)
    | with_reducible apply genDone_frame (ms (by decide) hm)
    | with_reducible apply freeGen_frame (ms (by decide) hm)
    | with_reducible apply endGenCourses_frame (ms (by decide) hm)
    | with_reducible apply Fr_ite
    | with_reducible apply each_frame
    | split

theorem nextSource_frame {x0} {x1} {s : State} {m : Nat} {o : State} (hm : 35688584 ||| m = m) (h : Fr m o s) : Fr m o (State.nextSource x0 x1 s) := by
  unfold State.nextSource
  repeat'
    first
    | with_reducible assumption
    | (intro _)
    | (extract_lets +onlyGivenNames z; refine (fun (hz : Fr m o z) => ?_) ?_; clear_value z; revert z; intro y hy; rotate_left; dsimp only [z]; clear z)
    | (extract_lets +onlyGivenNames z; clear_value z; revert z; intro y)
    | with_reducible apply journal_frame (ms (by decide) hm)
    | with_reducible apply askShard_frame (ms (by decide) hm)
    | with_reducible apply modStake_frame (ms (by decide) hm)
    | with_reducible apply buildFails_frame (ms (by decide) hm)
    | with_reducible apply Fr_ite

theorem peerTimeout_frame {x0} {s : State} {m : Nat} {o : State} (hm : 35688584 ||| m = m) (h : Fr m o s) : Fr m o (State.peerTimeout x0 s) := by
  unfold State.peerTimeout
  repeat'
    first
    | with_reducible assumption
    | (intro _)
    | (extract_lets +onlyGivenNames z; clear_value z; revert z; intro y)
    | with_reducible apply nextSource_frame (ms (by decide) hm)
    | with_reducible apply Fr_ite
    | split

theorem sendReady_frame {x0} {s : State} {m : Nat} {o : State} (hm : 1048584 ||| m = m) (h : Fr m o s) : Fr m o (State.sendReady x0 s) := by
  unfold State.sendReady
  repeat'
    first
    | with_reducible assumption
    | with_reducible apply originate_frame (ms (by decide) hm)
    | split

theorem servePeer_frame {x0} {s : State} {m : Nat} {o : State} (hm : 136 ||| m = m) (h : Fr m o s) : Fr m o (State.servePeer x0 s) := by
  unfold State.servePeer
  repeat'
    first
    | with_reducible assumption
    | (intro _)
    | (extract_lets +onlyGivenNames z; clear_value z; revert z; intro y)
    | with_reducible apply emit_frame (ms (by decide) hm)
    | with_reducible apply charge_frame (ms (by decide) hm)
    | with_reducible apply Fr_ite
    | split

theorem shardArrives_frame {x0} {x1} {s : State} {m : Nat} {o : State} (hm : 35762312 ||| m = m) (h : Fr m o s) : Fr m o (State.shardArrives x0 x1 s) := by
  unfold State.shardArrives
  repeat'
    first
    | with_reducible assumption
    | (intro _)
    | (extract_lets +onlyGivenNames z; refine (fun (hz : Fr m o z) => ?_) ?_; clear_value z; revert z; intro y hy; rotate_left; dsimp only [z]; clear z)
    | (extract_lets +onlyGivenNames z; clear_value z; revert z; intro y)
    | simp -zeta only [Fr_mk]
    | (with_reducible apply Fr_hbm (ms (by decide) hm) <;> try with_reducible rfl)
    | with_reducible apply nextSource_frame (ms (by decide) hm)
    | with_reducible apply buildFails_frame (ms (by decide) hm)
    | with_reducible apply noKey_frame (ms (by decide) hm)
    | with_reducible apply askShard_frame (ms (by decide) hm)
    | with_reducible apply countStale_frame (ms (by decide) hm)
    | with_reducible apply modFrame_frame (ms (by decide) hm)
    | with_reducible apply modGen_frame (ms (by decide) hm)
    | with_reducible apply modStake_frame (ms (by decide) hm)
    | with_reducible apply Fr_ite
    | with_reducible apply each_frame
    | split

theorem switchGen_frame {x0} {s : State} {m : Nat} {o : State} (hm : 52433032 ||| m = m) (h : Fr m o s) : Fr m o (State.switchGen x0 s) := by
  unfold State.switchGen
  repeat'
    first
    | with_reducible assumption
    | (intro _)
    | (extract_lets +onlyGivenNames z; refine (fun (hz : Fr m o z) => ?_) ?_; clear_value z; revert z; intro y hy; rotate_left; dsimp only [z]; clear z)
    | with_reducible apply modStake_frame (ms (by decide) hm)
    | with_reducible apply journal_frame (ms (by decide) hm)
    | with_reducible apply finalRecord_frame (ms (by decide) hm)
    | with_reducible apply measured_frame (ms (by decide) hm)
    | with_reducible apply Fr_ite
    | split

theorem garble_frame {x0} {x1} {x2} {s : State} {m : Nat} {o : State} (hm : 8192 ||| m = m) (h : Fr m o s) : Fr m o (State.garble x0 x1 x2 s) := by
  unfold State.garble
  repeat'
    first
    | with_reducible assumption
    | (extract_lets +onlyGivenNames z; refine (fun (_ : z = (z : Mem)) => ?_) rfl; subst z)
    | (extract_lets +onlyGivenNames z; clear_value z; revert z; intro y)
    | simp -zeta only [Fr_mk]
    | (with_reducible apply Fr_hbm (ms (by decide) hm) <;> try with_reducible rfl)

theorem lineLost_frame {x0} {x1} {x2} {s : State} {m : Nat} {o : State} (hm : 35750024 ||| m = m) (h : Fr m o s) : Fr m o (State.lineLost x0 x1 x2 s) := by
  unfold State.lineLost
  repeat'
    first
    | with_reducible assumption
    | with_reducible apply poison_frame (ms (by decide) hm)
    | with_reducible apply modMsd_frame (ms (by decide) hm)

theorem lineTaken_frame {x0} {x1} {x2} {s : State} {m : Nat} {o : State} (hm : 35758216 ||| m = m) (h : Fr m o s) : Fr m o (State.lineTaken x0 x1 x2 s) := by
  unfold State.lineTaken
  repeat'
    first
    | with_reducible assumption
    | (intro _)
    | (extract_lets +onlyGivenNames z; refine (fun (hz : Fr m o z) => ?_) ?_; clear_value z; revert z; intro y hy; rotate_left; dsimp only [z]; clear z)
    | with_reducible apply lineLost_frame (ms (by decide) hm)
    | with_reducible apply garble_frame (ms (by decide) hm)
    | with_reducible apply clearLines_frame (ms (by decide) hm)
    | with_reducible apply poison_frame (ms (by decide) hm)
    | with_reducible apply Fr_ite

theorem lineRead_frame {x0} {x1} {x2} {s : State} {m : Nat} {o : State} (hm : 35758216 ||| m = m) (h : Fr m o s) : Fr m o (State.lineRead x0 x1 x2 s) := by
  unfold State.lineRead
  repeat'
    first
    | with_reducible assumption
    | (intro _)
    | (extract_lets +onlyGivenNames z; refine (fun (hz : Fr m o z) => ?_) ?_; clear_value z; revert z; intro y hy; rotate_left; dsimp only [z]; clear z)
    | (extract_lets +onlyGivenNames z; clear_value z; revert z; intro y)
    | with_reducible apply lineLost_frame (ms (by decide) hm)
    | with_reducible apply lineTaken_frame (ms (by decide) hm)
    | with_reducible apply modMsd_frame (ms (by decide) hm)
    | with_reducible apply pushMove_frame (ms (by decide) hm)
    | with_reducible apply Fr_ite
    | split

theorem applyQuotas_frame {s : State} {m : Nat} {o : State} (hm : 32768 ||| m = m) (h : Fr m o s) : Fr m o (State.applyQuotas s) := by
  unfold State.applyQuotas
  repeat'
    first
    | with_reducible assumption
    | (extract_lets +onlyGivenNames z; refine (fun (_ : z = (z : Mem)) => ?_) rfl; subst z)
    | (extract_lets +onlyGivenNames z; clear_value z; revert z; intro y)
    | simp -zeta only [Fr_mk]
    | (with_reducible apply Fr_tables (ms (by decide) hm) <;> try with_reducible rfl)

theorem burstServes_frame {x0} {s : State} {m : Nat} {o : State} (hm : 98432 ||| m = m) (h : Fr m o s) : Fr m o (State.burstServes x0 s).2 := by
  unfold State.burstServes
  repeat'
    first
    | with_reducible assumption
    | (intro _)
    | (extract_lets +onlyGivenNames z; refine (fun (hz : Fr m o z) => ?_) ?_; clear_value z; revert z; intro y hy; rotate_left; dsimp only [z]; clear z)
    | (extract_lets +onlyGivenNames z; clear_value z; revert z; intro y)
    | with_reducible apply countStale_frame (ms (by decide) hm)
    | with_reducible apply moveFrame_frame (ms (by decide) hm)
    | with_reducible apply endMove_frame (ms (by decide) hm)
    | with_reducible apply noKey_frame (ms (by decide) hm)
    | with_reducible apply Fr_ite
    | with_reducible apply Fr_ite2
    | split

theorem cleanStep_frame {x0} {s : State} {m : Nat} {o : State} (hm : 116864 ||| m = m) (h : Fr m o s) : Fr m o (State.cleanStep x0 s) := by
  unfold State.cleanStep
  repeat'
    first
    | with_reducible assumption
    | (intro _)
    | (extract_lets +onlyGivenNames z; refine (fun (hz : Fr m o z) => ?_) ?_; clear_value z; revert z; intro y hy; rotate_left; dsimp only [z]; clear z)
    | (extract_lets +onlyGivenNames z; clear_value z; revert z; intro y)
    | with_reducible apply burstServes_frame (ms (by decide) hm)
    | with_reducible apply modFrame_frame (ms (by decide) hm)
    | with_reducible apply writeBack_frame (ms (by decide) hm)
    | with_reducible apply recheck_frame (ms (by decide) hm)
    | with_reducible apply Fr_ite
    | split

theorem startPass_frame {x0} {s : State} {m : Nat} {o : State} (hm : 32896 ||| m = m) (h : Fr m o s) : Fr m o (State.startPass x0 s) := by
  unfold State.startPass
  repeat'
    first
    | with_reducible assumption
    | (extract_lets +onlyGivenNames z; clear_value z; revert z; intro y)
    | with_reducible apply moveFrame_frame (ms (by decide) hm)
    | with_reducible apply modFrame_frame (ms (by decide) hm)

theorem cleanDone_frame {x0} {s : State} {m : Nat} {o : State} (hm : 35768456 ||| m = m) (h : Fr m o s) : Fr m o (State.cleanDone x0 s) := by
  unfold State.cleanDone
  repeat'
    first
    | with_reducible assumption
    | (intro _)
    | (extract_lets +onlyGivenNames z; refine (fun (hz : Fr m o z) => ?_) ?_; clear_value z; revert z; intro y hy; rotate_left; dsimp only [z]; clear z)
    | (extract_lets +onlyGivenNames z; clear_value z; revert z; intro y)
    | with_reducible apply cleanStep_frame (ms (by decide) hm)
    | with_reducible apply startPass_frame (ms (by decide) hm)
    | with_reducible apply finishWorks_frame (ms (by decide) hm)
    | with_reducible apply modFrame_frame (ms (by decide) hm)
    | with_reducible apply Fr_ite

theorem copyIn_frame {x0} {x1} {s : State} {m : Nat} {o : State} (hm : 8192 ||| m = m) (h : Fr m o s) : Fr m o (State.copyIn x0 x1 s) := by
  unfold State.copyIn
  repeat'
    first
    | with_reducible assumption
    | (extract_lets +onlyGivenNames z; refine (fun (_ : z = (z : Mem)) => ?_) rfl; subst z)
    | simp -zeta only [Fr_mk]
    | (with_reducible apply Fr_hbm (ms (by decide) hm) <;> try with_reducible rfl)

theorem limited_frame {x0} {x1} {x2} {x3} {s : State} {m : Nat} {o : State} (hm : 33587200 ||| m = m) (h : Fr m o s) : Fr m o (State.limited x0 x1 x2 x3 s) := by
  unfold State.limited
  repeat'
    first
    | with_reducible assumption
    | with_reducible apply polLimit_frame (ms (by decide) hm)
    | with_reducible apply modMig_frame (ms (by decide) hm)
    | with_reducible apply modAcct_frame (ms (by decide) hm)

end Sys2Proof.Machine
end

