-- ==== Sys2Proof/Laws/FrameUnits.lean ====
section
/-! SUPPORT. Laws of frames: which parts each operation of the weavers, frames, queues, courses and the training path can change. -/

set_option linter.unusedVariables false
set_option linter.unusedSimpArgs false
set_option linter.tactic.unusedName false

namespace Sys2Proof.Machine

theorem limBudget_frame {x0} {x1} {s : State} {m : Nat} {o : State} (hm : 33587200 ||| m = m) (h : Fr m o s) : Fr m o (State.limBudget x0 x1 s) := by
  unfold State.limBudget
  repeat'
    first
    | with_reducible assumption
    | with_reducible apply limited_frame (ms (by decide) hm)

theorem countBudgetWaits_frame {s : State} {m : Nat} {o : State} (hm : 33587200 ||| m = m) (h : Fr m o s) : Fr m o (State.countBudgetWaits s) := by
  unfold State.countBudgetWaits
  repeat'
    first
    | with_reducible assumption
    | (intro _)
    | with_reducible apply limBudget_frame (ms (by decide) hm)
    | with_reducible apply each_frame

theorem withdraw_frame {x0} {x1} {s : State} {m : Nat} {o : State} (hm : 32768 ||| m = m) (h : Fr m o s) : Fr m o (State.withdraw x0 x1 s) := by
  unfold State.withdraw
  repeat'
    first
    | with_reducible assumption
    | with_reducible apply modPte_frame (ms (by decide) hm)

theorem evalDefers_frame {s : State} {m : Nat} {o : State} (hm : 35684488 ||| m = m) (h : Fr m o s) : Fr m o (State.evalDefers s) := by
  unfold State.evalDefers
  repeat'
    first
    | with_reducible assumption
    | (intro _)
    | (extract_lets +onlyGivenNames z; refine (fun (hz : Fr m o z) => ?_) ?_; clear_value z; revert z; intro y hy; rotate_left; dsimp only [z]; clear z)
    | (extract_lets +onlyGivenNames z; refine (fun (_ : z = (z : Mem)) => ?_) rfl; subst z)
    | (extract_lets +onlyGivenNames z; clear_value z; revert z; intro y)
    | simp -zeta only [Fr_mk]
    | (with_reducible apply Fr_tables (ms (by decide) hm) <;> try with_reducible rfl)
    | with_reducible apply finishWorks_frame (ms (by decide) hm)
    | with_reducible apply withdraw_frame (ms (by decide) hm)
    | with_reducible apply modFrame_frame (ms (by decide) hm)
    | with_reducible apply Fr_ite
    | with_reducible apply each_frame

theorem evictionDone_frame {x0} {s : State} {m : Nat} {o : State} (hm : 116868 ||| m = m) (h : Fr m o s) : Fr m o (State.evictionDone x0 s) := by
  unfold State.evictionDone
  repeat'
    first
    | with_reducible assumption
    | (intro _)
    | (extract_lets +onlyGivenNames z; refine (fun (hz : Fr m o z) => ?_) ?_; clear_value z; revert z; intro y hy; rotate_left; dsimp only [z]; clear z)
    | (extract_lets +onlyGivenNames z; refine (fun (hz : Fr m o z.2) => ?_) ?_; clear_value z; revert z; intro y hy; rotate_left; dsimp only [z]; clear z)
    | (extract_lets +onlyGivenNames z; clear_value z; revert z; intro y)
    | with_reducible apply burstServes_frame (ms (by decide) hm)
    | with_reducible apply weaverWriteBack_frame (ms (by decide) hm)
    | with_reducible apply leaveFrame_frame (ms (by decide) hm)
    | with_reducible apply modMig_frame (ms (by decide) hm)
    | with_reducible apply Fr_ite

theorem poisonFrom_frame {x0} {x1} {x2} {s : State} {m : Nat} {o : State} (hm : 35684488 ||| m = m) (h : Fr m o s) : Fr m o (State.poisonFrom x0 x1 x2 s) := by
  unfold State.poisonFrom
  repeat'
    first
    | with_reducible assumption
    | (intro _)
    | with_reducible apply poison_frame (ms (by decide) hm)
    | with_reducible apply each_frame

theorem fillDone_frame {x0} {s : State} {m : Nat} {o : State} (hm : 35758216 ||| m = m) (h : Fr m o s) : Fr m o (State.fillDone x0 s) := by
  unfold State.fillDone
  repeat'
    first
    | with_reducible assumption
    | (intro _)
    | (extract_lets +onlyGivenNames z; refine (fun (hz : Fr m o z.2) => ?_) ?_; clear_value z; revert z; intro y hy; rotate_left; dsimp only [z]; clear z)
    | (extract_lets +onlyGivenNames z; clear_value z; revert z; intro y)
    | with_reducible apply burstServes_frame (ms (by decide) hm)
    | with_reducible apply finishWorks_frame (ms (by decide) hm)
    | with_reducible apply poisonFrom_frame (ms (by decide) hm)
    | with_reducible apply modFrame_frame (ms (by decide) hm)
    | with_reducible apply copyIn_frame (ms (by decide) hm)
    | with_reducible apply Fr_ite
    | split

theorem giveFrame_frame {x0} {x1} {s : State} {m : Nat} {o : State} (hm : 32896 ||| m = m) (h : Fr m o s) : Fr m o (State.giveFrame x0 x1 s) := by
  unfold State.giveFrame
  repeat'
    first
    | with_reducible assumption
    | (intro _)
    | with_reducible apply startEvict_frame (ms (by decide) hm)
    | with_reducible apply Fr_ite

theorem limMoves_frame {x0} {x1} {s : State} {m : Nat} {o : State} (hm : 33587200 ||| m = m) (h : Fr m o s) : Fr m o (State.limMoves x0 x1 s) := by
  unfold State.limMoves
  repeat'
    first
    | with_reducible assumption
    | with_reducible apply limited_frame (ms (by decide) hm)

theorem limQuota_frame {x0} {x1} {s : State} {m : Nat} {o : State} (hm : 33587200 ||| m = m) (h : Fr m o s) : Fr m o (State.limQuota x0 x1 s) := by
  unfold State.limQuota
  repeat'
    first
    | with_reducible assumption
    | with_reducible apply limited_frame (ms (by decide) hm)

theorem limSpace_frame {x0} {x1} {s : State} {m : Nat} {o : State} (hm : 33587200 ||| m = m) (h : Fr m o s) : Fr m o (State.limSpace x0 x1 s) := by
  unfold State.limSpace
  repeat'
    first
    | with_reducible assumption
    | with_reducible apply limited_frame (ms (by decide) hm)

theorem markOver_frame {s : State} {m : Nat} {o : State} (hm : 32768 ||| m = m) (h : Fr m o s) : Fr m o (State.markOver s) := by
  unfold State.markOver
  repeat'
    first
    | with_reducible assumption
    | (extract_lets +onlyGivenNames z; refine (fun (_ : z = (z : Mem)) => ?_) rfl; subst z)
    | (extract_lets +onlyGivenNames z; clear_value z; revert z; intro y)
    | simp -zeta only [Fr_mk]
    | (with_reducible apply Fr_tables (ms (by decide) hm) <;> try with_reducible rfl)

theorem markShort_frame {x0} {x1} {s : State} {m : Nat} {o : State} (hm : 32768 ||| m = m) (h : Fr m o s) : Fr m o (State.markShort x0 x1 s) := by
  unfold State.markShort
  repeat'
    first
    | with_reducible assumption
    | (extract_lets +onlyGivenNames z; refine (fun (_ : z = (z : Mem)) => ?_) rfl; subst z)
    | simp -zeta only [Fr_mk]
    | (with_reducible apply Fr_tables (ms (by decide) hm) <;> try with_reducible rfl)

theorem modRepair_frame {x0} {x1} {x2} {s : State} {m : Nat} {o : State} (hm : 32768 ||| m = m) (h : Fr m o s) : Fr m o (State.modRepair x0 x1 x2 s) := by
  unfold State.modRepair
  repeat'
    first
    | with_reducible assumption
    | (extract_lets +onlyGivenNames z; refine (fun (_ : z = (z : Mem)) => ?_) rfl; subst z)
    | (extract_lets +onlyGivenNames z; clear_value z; revert z; intro y)
    | simp -zeta only [Fr_mk]
    | (with_reducible apply Fr_tables (ms (by decide) hm) <;> try with_reducible rfl)

theorem nextRepair_frame {s : State} {m : Nat} {o : State} (hm : 32768 ||| m = m) (h : Fr m o s) : Fr m o (State.nextRepair s) := by
  unfold State.nextRepair
  repeat'
    first
    | with_reducible assumption
    | with_reducible apply modRepair_frame (ms (by decide) hm)
    | split

theorem nextScrub_frame {x0} {s : State} {m : Nat} {o : State} (hm : 32768 ||| m = m) (h : Fr m o s) : Fr m o (State.nextScrub x0 s) := by
  unfold State.nextScrub
  repeat'
    first
    | with_reducible assumption
    | (extract_lets +onlyGivenNames z; refine (fun (_ : z = (z : Mem)) => ?_) rfl; subst z)
    | simp -zeta only [Fr_mk]
    | (with_reducible apply Fr_tables (ms (by decide) hm) <;> try with_reducible rfl)

theorem patrol_frame {x0} {x1} {s : State} {m : Nat} {o : State} (hm : 35758216 ||| m = m) (h : Fr m o s) : Fr m o (State.patrol x0 x1 s) := by
  unfold State.patrol
  repeat'
    first
    | with_reducible assumption
    | (intro _)
    | (extract_lets +onlyGivenNames z; refine (fun (hz : Fr m o z) => ?_) ?_; clear_value z; revert z; intro y hy; rotate_left; dsimp only [z]; clear z)
    | (extract_lets +onlyGivenNames z; refine (fun (hz : Fr m o z.2) => ?_) ?_; clear_value z; revert z; intro y hy; rotate_left; dsimp only [z]; clear z)
    | (extract_lets +onlyGivenNames z; clear_value z; revert z; intro y)
    | with_reducible apply admitOnce_frame (ms (by decide) hm)
    | with_reducible apply lineRead_frame (ms (by decide) hm)
    | with_reducible apply nextScrub_frame (ms (by decide) hm)
    | with_reducible apply modMsd_frame (ms (by decide) hm)
    | with_reducible apply Fr_ite
    | with_reducible apply each_frame

theorem placePage_frame {x0} {s : State} {m : Nat} {o : State} (hm : 32896 ||| m = m) (h : Fr m o s) : Fr m o (State.placePage x0 s) := by
  unfold State.placePage
  repeat'
    first
    | with_reducible assumption
    | (intro _)
    | (extract_lets +onlyGivenNames z; refine (fun (hz : Fr m o z.2) => ?_) ?_; clear_value z; revert z; intro y hy; rotate_left; dsimp only [z]; clear z)
    | with_reducible apply startPromote_frame (ms (by decide) hm)
    | with_reducible apply waitFrame_frame (ms (by decide) hm)
    | with_reducible apply Fr_ite

theorem placeLoop_frame {x0} {x1} {x2} {x3} {s : State} {m : Nat} {o : State} (hm : 33587328 ||| m = m) (h : Fr m o s) : Fr m o (State.placeLoop x0 x1 x2 x3 s) := by
  induction x1 generalizing x2 x3 s with
  | nil => exact h
  | cons p up ih =>
    unfold State.placeLoop
    refine Fr_ite (fun _ => limMoves_frame (ms (by decide) hm) h) fun _ => ?_
    refine Fr_ite (fun _ => ?_) fun _ => ih (placePage_frame (ms (by decide) hm) h)
    split
    · exact limQuota_frame (ms (by decide) hm) h
    · refine Fr_ite (fun _ => limQuota_frame (ms (by decide) hm) h) fun _ => ?_
      exact Fr_ite (fun _ => limSpace_frame (ms (by decide) hm) h) fun _ => ih (placePage_frame (ms (by decide) hm) (startDemote_frame (ms (by decide) hm) h))

theorem place_frame {x0} {s : State} {m : Nat} {o : State} (hm : 33587328 ||| m = m) (h : Fr m o s) : Fr m o (State.place x0 s) := by
  unfold State.place
  repeat'
    first
    | with_reducible assumption
    | (intro _)
    | with_reducible apply placeLoop_frame (ms (by decide) hm)
    | with_reducible apply Fr_ite

theorem placeAll_frame {s : State} {m : Nat} {o : State} (hm : 33587328 ||| m = m) (h : Fr m o s) : Fr m o (State.placeAll s) := by
  unfold State.placeAll
  repeat'
    first
    | with_reducible assumption
    | (intro _)
    | (extract_lets +onlyGivenNames z; refine (fun (hz : Fr m o z) => ?_) ?_; clear_value z; revert z; intro y hy; rotate_left; dsimp only [z]; clear z)
    | (extract_lets +onlyGivenNames z; clear_value z; revert z; intro y)
    | with_reducible apply countBudgetWaits_frame (ms (by decide) hm)
    | with_reducible apply place_frame (ms (by decide) hm)
    | with_reducible apply each_frame

theorem pressTable_frame {s : State} {m : Nat} {o : State} (hm : 34944 ||| m = m) (h : Fr m o s) : Fr m o (State.pressTable s) := by
  unfold State.pressTable
  repeat'
    first
    | with_reducible assumption
    | (intro _)
    | (extract_lets +onlyGivenNames z; clear_value z; revert z; intro y)
    | with_reducible apply evictWeaver_frame (ms (by decide) hm)
    | with_reducible apply each_frame

theorem release_frame {x0} {x1} {x2} {x3} {s : State} {m : Nat} {o : State} (hm : 0 ||| m = m) (hf : ∀ x t, Fr m o t → Fr m o (x3 x t)) (h : Fr m o s) : Fr m o (State.release x0 x1 x2 x3 s) := by
  unfold State.release
  repeat'
    first
    | with_reducible assumption
    | (intro _)
    | with_reducible apply Fr_ite
    | with_reducible apply foldl_frame
    | with_reducible apply_assumption

theorem pressCtx_frame {x0} {x1} {s : State} {m : Nat} {o : State} (hm : 34944 ||| m = m) (h : Fr m o s) : Fr m o (State.pressCtx x0 x1 s) := by
  unfold State.pressCtx
  repeat'
    first
    | with_reducible assumption
    | (intro _)
    | (extract_lets +onlyGivenNames z; refine (fun (hz : Fr m o z) => ?_) ?_; clear_value z; revert z; intro y hy; rotate_left; dsimp only [z]; clear z)
    | with_reducible apply release_frame (ms (by decide) hm)
    | with_reducible apply evictWeaver_frame (ms (by decide) hm)
    | with_reducible apply giveFrame_frame (ms (by decide) hm)

theorem pressCommons_frame {x0} {s : State} {m : Nat} {o : State} (hm : 35690632 ||| m = m) (h : Fr m o s) : Fr m o (State.pressCommons x0 s) := by
  unfold State.pressCommons
  repeat'
    first
    | with_reducible assumption
    | (intro _)
    | (extract_lets +onlyGivenNames z; refine (fun (hz : Fr m o z) => ?_) ?_; clear_value z; revert z; intro y hy; rotate_left; dsimp only [z]; clear z)
    | (extract_lets +onlyGivenNames z; clear_value z; revert z; intro y)
    | with_reducible apply release_frame (ms (by decide) hm)
    | with_reducible apply giveFrame_frame (ms (by decide) hm)
    | with_reducible apply evictStake_frame (ms (by decide) hm)
    | with_reducible apply evictWeaver_frame (ms (by decide) hm)

theorem wantPage_frame {x0} {s : State} {m : Nat} {o : State} (hm : 32896 ||| m = m) (h : Fr m o s) : Fr m o (State.wantPage x0 s) := by
  unfold State.wantPage
  repeat'
    first
    | with_reducible assumption
    | (intro _)
    | (extract_lets +onlyGivenNames z; refine (fun (hz : Fr m o z.2) => ?_) ?_; clear_value z; revert z; intro y hy; rotate_left; dsimp only [z]; clear z)
    | (extract_lets +onlyGivenNames z; clear_value z; revert z; intro y)
    | with_reducible apply dropWait_frame (ms (by decide) hm)
    | with_reducible apply allocZero_frame (ms (by decide) hm)
    | with_reducible apply startPromote_frame (ms (by decide) hm)
    | with_reducible apply waitFrame_frame (ms (by decide) hm)
    | with_reducible apply Fr_ite
    | split

theorem trySave_frame {x0} {x1} {s : State} {m : Nat} {o : State} (hm : 32768 ||| m = m) (h : Fr m o s) : Fr m o (State.trySave x0 x1 s) := by
  unfold State.trySave
  repeat'
    first
    | with_reducible assumption
    | (intro _)
    | (extract_lets +onlyGivenNames z; clear_value z; revert z; intro y)
    | with_reducible apply dropWait_frame (ms (by decide) hm)
    | with_reducible apply waitFrame_frame (ms (by decide) hm)
    | with_reducible apply takeFrame_frame (ms (by decide) hm)
    | with_reducible apply Fr_ite
    | split

theorem serveWait_frame {x0} {s : State} {m : Nat} {o : State} (hm : 39040 ||| m = m) (h : Fr m o s) : Fr m o (State.serveWait x0 s) := by
  unfold State.serveWait
  repeat'
    first
    | with_reducible assumption
    | (intro _)
    | with_reducible apply wantPage_frame (ms (by decide) hm)
    | with_reducible apply trySave_frame (ms (by decide) hm)
    | with_reducible apply tryFetch_frame (ms (by decide) hm)
    | with_reducible apply tryBuildFrames_frame (ms (by decide) hm)
    | with_reducible apply dropWait_frame (ms (by decide) hm)
    | with_reducible apply Fr_ite
    | split

theorem serveWaits_frame {s : State} {m : Nat} {o : State} (hm : 39040 ||| m = m) (h : Fr m o s) : Fr m o (State.serveWaits s) := by
  unfold State.serveWaits
  repeat'
    first
    | with_reducible assumption
    | (intro _)
    | (extract_lets +onlyGivenNames z; refine (fun (hz : Fr m o z) => ?_) ?_; clear_value z; revert z; intro y hy; rotate_left; dsimp only [z]; clear z)
    | with_reducible apply serveWait_frame (ms (by decide) hm)
    | with_reducible apply markShort_frame (ms (by decide) hm)
    | with_reducible apply Fr_ite
    | with_reducible apply each_frame

theorem pressAccounts_frame {x0} {s : State} {m : Nat} {o : State} (hm : 35690632 ||| m = m) (h : Fr m o s) : Fr m o (State.pressAccounts x0 s) := by
  unfold State.pressAccounts
  repeat'
    first
    | with_reducible assumption
    | (intro _)
    | (extract_lets +onlyGivenNames z; refine (fun (hz : Fr m o z) => ?_) ?_; clear_value z; revert z; intro y hy; rotate_left; dsimp only [z]; clear z)
    | (extract_lets +onlyGivenNames z; clear_value z; revert z; intro y)
    | with_reducible apply pressTable_frame (ms (by decide) hm)
    | with_reducible apply pressCtx_frame (ms (by decide) hm)
    | with_reducible apply pressCommons_frame (ms (by decide) hm)
    | with_reducible apply startEvict_frame (ms (by decide) hm)
    | with_reducible apply markOver_frame (ms (by decide) hm)
    | with_reducible apply serveWaits_frame (ms (by decide) hm)
    | with_reducible apply Fr_ite
    | with_reducible apply each_frame

theorem promotionDone_frame {x0} {s : State} {m : Nat} {o : State} (hm : 35758216 ||| m = m) (h : Fr m o s) : Fr m o (State.promotionDone x0 s) := by
  unfold State.promotionDone
  repeat'
    first
    | with_reducible assumption
    | (intro _)
    | (extract_lets +onlyGivenNames z; refine (fun (hz : Fr m o z) => ?_) ?_; clear_value z; revert z; intro y hy; rotate_left; dsimp only [z]; clear z)
    | (extract_lets +onlyGivenNames z; refine (fun (hz : Fr m o z.2) => ?_) ?_; clear_value z; revert z; intro y hy; rotate_left; dsimp only [z]; clear z)
    | (extract_lets +onlyGivenNames z; clear_value z; revert z; intro y)
    | with_reducible apply burstServes_frame (ms (by decide) hm)
    | with_reducible apply modFrame_frame (ms (by decide) hm)
    | with_reducible apply copyIn_frame (ms (by decide) hm)
    | with_reducible apply modPte_frame (ms (by decide) hm)
    | with_reducible apply modMig_frame (ms (by decide) hm)
    | with_reducible apply poisonFrom_frame (ms (by decide) hm)
    | with_reducible apply refreshPoison_frame (ms (by decide) hm)
    | with_reducible apply Fr_ite
    | with_reducible apply each_frame

theorem pumpAll_frame {s : State} {m : Nat} {o : State} (hm : 116864 ||| m = m) (h : Fr m o s) : Fr m o (State.pumpAll s) := by
  unfold State.pumpAll
  repeat'
    first
    | with_reducible assumption
    | (intro _)
    | (extract_lets +onlyGivenNames z; refine (fun (hz : Fr m o z) => ?_) ?_; clear_value z; revert z; intro y hy; rotate_left; dsimp only [z]; clear z)
    | with_reducible apply pumpMoves_frame (ms (by decide) hm)
    | with_reducible apply cleanStep_frame (ms (by decide) hm)
    | with_reducible apply each_frame

theorem repairResult_frame {x0} {x1} {x2} {s : State} {m : Nat} {o : State} (hm : 35651720 ||| m = m) (h : Fr m o s) : Fr m o (State.repairResult x0 x1 x2 s) := by
  unfold State.repairResult
  repeat'
    first
    | with_reducible assumption
    | with_reducible apply journal_frame (ms (by decide) hm)

theorem repairDone_frame {x0} {x1} {x2} {s : State} {m : Nat} {o : State} (hm : 35709064 ||| m = m) (h : Fr m o s) : Fr m o (State.repairDone x0 x1 x2 s) := by
  unfold State.repairDone
  repeat'
    first
    | with_reducible assumption
    | (intro _)
    | (extract_lets +onlyGivenNames z; refine (fun (hz : Fr m o z) => ?_) ?_; clear_value z; revert z; intro y hy; rotate_left; dsimp only [z]; clear z)
    | (extract_lets +onlyGivenNames z; refine (fun (_ : z = (z : Mem)) => ?_) rfl; subst z)
    | (extract_lets +onlyGivenNames z; clear_value z; revert z; intro y)
    | simp -zeta only [Fr_mk]
    | (with_reducible apply Fr_hbm (ms (by decide) hm) <;> try with_reducible rfl)
    | with_reducible apply modRepair_frame (ms (by decide) hm)
    | with_reducible apply clearLines_frame (ms (by decide) hm)
    | with_reducible apply slowWrite_frame (ms (by decide) hm)
    | with_reducible apply modMig_frame (ms (by decide) hm)
    | with_reducible apply nextRepair_frame (ms (by decide) hm)
    | with_reducible apply repairResult_frame (ms (by decide) hm)
    | with_reducible apply charge_frame (ms (by decide) hm)
    | with_reducible apply Fr_ite
    | split

theorem repairTimeout_frame {x0} {x1} {s : State} {m : Nat} {o : State} (hm : 35684488 ||| m = m) (h : Fr m o s) : Fr m o (State.repairTimeout x0 x1 s) := by
  unfold State.repairTimeout
  repeat'
    first
    | with_reducible assumption
    | (intro _)
    | (extract_lets +onlyGivenNames z; refine (fun (hz : Fr m o z) => ?_) ?_; clear_value z; revert z; intro y hy; rotate_left; dsimp only [z]; clear z)
    | with_reducible apply modRepair_frame (ms (by decide) hm)
    | with_reducible apply modMig_frame (ms (by decide) hm)
    | with_reducible apply nextRepair_frame (ms (by decide) hm)
    | with_reducible apply repairResult_frame (ms (by decide) hm)
    | with_reducible apply Fr_ite
    | split

theorem slowPoison_frame {x0} {x1} {s : State} {m : Nat} {o : State} (hm : 35684488 ||| m = m) (h : Fr m o s) : Fr m o (State.slowPoison x0 x1 s) := by
  unfold State.slowPoison
  repeat'
    first
    | with_reducible assumption
    | (intro _)
    | (extract_lets +onlyGivenNames z; refine (fun (hz : Fr m o z) => ?_) ?_; clear_value z; revert z; intro y hy; rotate_left; dsimp only [z]; clear z)
    | (extract_lets +onlyGivenNames z; refine (fun (_ : z = (z : Mem)) => ?_) rfl; subst z)
    | (extract_lets +onlyGivenNames z; clear_value z; revert z; intro y)
    | simp -zeta only [Fr_mk]
    | (with_reducible apply Fr_tables (ms (by decide) hm) <;> try with_reducible rfl)
    | with_reducible apply poison_frame (ms (by decide) hm)
    | with_reducible apply Fr_ite
    | with_reducible apply each_frame

theorem startCleaning_frame {s : State} {m : Nat} {o : State} (hm : 32896 ||| m = m) (h : Fr m o s) : Fr m o (State.startCleaning s) := by
  unfold State.startCleaning
  repeat'
    first
    | with_reducible assumption
    | (intro _)
    | (extract_lets +onlyGivenNames z; clear_value z; revert z; intro y)
    | with_reducible apply startPass_frame (ms (by decide) hm)
    | with_reducible apply each_frame

theorem takeSave_frame {x0} {x1} {s : State} {m : Nat} {o : State} (hm : 33280 ||| m = m) (h : Fr m o s) : Fr m o (State.takeSave x0 x1 s) := by
  unfold State.takeSave
  repeat'
    first
    | with_reducible assumption
    | (intro _)
    | (extract_lets +onlyGivenNames z; clear_value z; revert z; intro y)
    | simp -zeta only [Fr_mk]
    | with_reducible apply Fr_ups (ms (by decide) hm)
    | with_reducible apply trySave_frame (ms (by decide) hm)
    | with_reducible apply Fr_ite

theorem zeroDone_frame {x0} {s : State} {m : Nat} {o : State} (hm : 35698824 ||| m = m) (h : Fr m o s) : Fr m o (State.zeroDone x0 s) := by
  unfold State.zeroDone
  repeat'
    first
    | with_reducible assumption
    | (intro _)
    | with_reducible apply serveWaits_frame (ms (by decide) hm)
    | with_reducible apply genFrameFreed_frame (ms (by decide) hm)
    | with_reducible apply weaverFrameFreed_frame (ms (by decide) hm)
    | with_reducible apply freeFrame_frame (ms (by decide) hm)
    | with_reducible apply Fr_ite

theorem refuseAper_frame {x0} {s : State} {m : Nat} {o : State} (hm : 2097160 ||| m = m) (h : Fr m o s) : Fr m o (State.refuseAper x0 s) := by
  unfold State.refuseAper
  repeat'
    first
    | with_reducible assumption
    | (intro _)
    | (extract_lets +onlyGivenNames z; refine (fun (hz : Fr m o z) => ?_) ?_; clear_value z; revert z; intro y hy; rotate_left; dsimp only [z]; clear z)
    | (extract_lets +onlyGivenNames z; clear_value z; revert z; intro y)
    | simp -zeta only [Fr_mk]
    | with_reducible apply Fr_host (ms (by decide) hm)
    | with_reducible apply emit_frame (ms (by decide) hm)
    | with_reducible apply Fr_ite

theorem aperture_frame {x0} {s : State} {m : Nat} {o : State} (hm : 2220172 ||| m = m) (h : Fr m o s) : Fr m o (State.aperture x0 s) := by
  unfold State.aperture
  repeat'
    first
    | with_reducible assumption
    | (intro _)
    | (extract_lets +onlyGivenNames z; refine (fun (hz : Fr m o z.2) => ?_) ?_; clear_value z; revert z; intro y hy; rotate_left; dsimp only [z]; clear z)
    | (extract_lets +onlyGivenNames z; clear_value z; revert z; intro y)
    | with_reducible apply refuseAper_frame (ms (by decide) hm)
    | with_reducible apply writeDva_frame (ms (by decide) hm)
    | with_reducible apply charge_frame (ms (by decide) hm)
    | with_reducible apply readDva_frame (ms (by decide) hm)
    | with_reducible apply emit_frame (ms (by decide) hm)
    | with_reducible apply fresh_frame (ms (by decide) hm)
    | with_reducible apply Fr_ite
    | split

theorem qpEvent_frame {x0} {x1} {x2} {s : State} {m : Nat} {o : State} (hm : 2097288 ||| m = m) (h : Fr m o s) : Fr m o (State.qpEvent x0 x1 x2 s) := by
  unfold State.qpEvent
  repeat'
    first
    | with_reducible assumption
    | (extract_lets +onlyGivenNames z; clear_value z; revert z; intro y)
    | with_reducible apply event_frame (ms (by decide) hm)

theorem qpError_frame {x0} {x1} {s : State} {m : Nat} {o : State} (hm : 2097288 ||| m = m) (h : Fr m o s) : Fr m o (State.qpError x0 x1 s) := by
  unfold State.qpError
  repeat'
    first
    | with_reducible assumption
    | (intro _)
    | with_reducible apply qpEvent_frame (ms (by decide) hm)
    | with_reducible apply modQp_frame (ms (by decide) hm)
    | with_reducible apply Fr_ite

theorem doneDesc_frame {x0} {x1} {x2} {s : State} {m : Nat} {o : State} (hm : 35651720 ||| m = m) (h : Fr m o s) : Fr m o (State.doneDesc x0 x1 x2 s) := by
  unfold State.doneDesc
  repeat'
    first
    | with_reducible assumption
    | (intro _)
    | with_reducible apply modDesc_frame (ms (by decide) hm)
    | with_reducible apply finishDesc_frame (ms (by decide) hm)
    | with_reducible apply Fr_ite

theorem copyEnds_frame {x0} {x1} {x2} {s : State} {m : Nat} {o : State} (hm : 35651720 ||| m = m) (h : Fr m o s) : Fr m o (State.copyEnds x0 x1 x2 s) := by
  unfold State.copyEnds
  repeat'
    first
    | with_reducible assumption
    | (intro _)
    | (extract_lets +onlyGivenNames z; refine (fun (hz : Fr m o z) => ?_) ?_; clear_value z; revert z; intro y hy; rotate_left; dsimp only [z]; clear z)
    | (extract_lets +onlyGivenNames z; clear_value z; revert z; intro y)
    | simp -zeta only [Fr_mk]
    | with_reducible apply Fr_host (ms (by decide) hm)
    | with_reducible apply doneDesc_frame (ms (by decide) hm)
    | with_reducible apply Fr_ite

theorem completionTimeout_frame {x0} {x1} {x2} {s : State} {m : Nat} {o : State} (hm : 35651720 ||| m = m) (h : Fr m o s) : Fr m o (State.completionTimeout x0 x1 x2 s) := by
  unfold State.completionTimeout
  repeat'
    first
    | with_reducible assumption
    | (intro _)
    | (extract_lets +onlyGivenNames z; clear_value z; revert z; intro y)
    | with_reducible apply qpError_frame (ms (by decide) hm)
    | with_reducible apply copyEnds_frame (ms (by decide) hm)
    | with_reducible apply Fr_ite
    | split

theorem staleBurst_frame {x0} {x1} {s : State} {m : Nat} {o : State} (hm : 35651720 ||| m = m) (h : Fr m o s) : Fr m o (State.staleBurst x0 x1 s) := by
  unfold State.staleBurst
  repeat'
    first
    | with_reducible assumption
    | (intro _)
    | (extract_lets +onlyGivenNames z; refine (fun (hz : Fr m o z) => ?_) ?_; clear_value z; revert z; intro y hy; rotate_left; dsimp only [z]; clear z)
    | (extract_lets +onlyGivenNames z; clear_value z; revert z; intro y)
    | simp -zeta only [Fr_mk]
    | with_reducible apply Fr_host (ms (by decide) hm)
    | with_reducible apply finishDesc_frame (ms (by decide) hm)
    | with_reducible apply Fr_ite

theorem moveBurst_frame {x0} {x1} {x2} {x3} {x4} {x5} {s : State} {m : Nat} {o : State} (hm : 122888 ||| m = m) (h : Fr m o s) : Fr m o (State.moveBurst x0 x1 x2 x3 x4 x5 s).2 := by
  unfold State.moveBurst
  repeat'
    first
    | with_reducible assumption
    | (intro _)
    | (extract_lets +onlyGivenNames z; refine (fun (hz : ∀ p, Fr m o p.2 → Fr m o (z p).2) => ?_) ?_; clear_value z; revert z; intro y hy; rotate_left; dsimp only [z]; clear z)
    | with_reducible apply writeDva_frame (ms (by decide) hm)
    | with_reducible apply emit_frame (ms (by decide) hm)
    | with_reducible apply readDva_frame (ms (by decide) hm)
    | with_reducible apply Fr_ite2
    | split
    | with_reducible apply_assumption

theorem translateBurst_frame {x0} {x1} {x2} {x3} {s : State} {m : Nat} {o : State} (hm : 2097152 ||| m = m) (h : Fr m o s) : Fr m o (State.translateBurst x0 x1 x2 x3 s) := by
  unfold State.translateBurst
  repeat'
    first
    | with_reducible assumption
    | (intro _)
    | (extract_lets +onlyGivenNames z; refine (fun (hz : Fr m o z) => ?_) ?_; clear_value z; revert z; intro y hy; rotate_left; dsimp only [z]; clear z)
    | with_reducible apply translate_frame (ms (by decide) hm)
    | with_reducible apply Fr_ite

theorem copyBurst_frame {x0} {x1} {x2} {s : State} {m : Nat} {o : State} (hm : 35774856 ||| m = m) (h : Fr m o s) : Fr m o (State.copyBurst x0 x1 x2 s) := by
  unfold State.copyBurst
  repeat'
    first
    | with_reducible assumption
    | (intro _)
    | (extract_lets +onlyGivenNames z; refine (fun (hz : Fr m o z) => ?_) ?_; clear_value z; revert z; intro y hy; rotate_left; dsimp only [z]; clear z)
    | (extract_lets +onlyGivenNames z; refine (fun (hz : Fr m o z.2) => ?_) ?_; clear_value z; revert z; intro y hy; rotate_left; dsimp only [z]; clear z)
    | (extract_lets +onlyGivenNames z; clear_value z; revert z; intro y)
    | with_reducible apply copyEnds_frame (ms (by decide) hm)
    | with_reducible apply staleBurst_frame (ms (by decide) hm)
    | with_reducible apply modDesc_frame (ms (by decide) hm)
    | with_reducible apply moveBurst_frame (ms (by decide) hm)
    | with_reducible apply ask_frame (ms (by decide) hm)
    | with_reducible apply translateBurst_frame (ms (by decide) hm)
    | with_reducible apply Fr_ite
    | split

theorem fetch_frame {x0} {x1} {x2} {x3} {s : State} {m : Nat} {o : State} (hm : 35651720 ||| m = m) (hf : ∀ x t, Fr m o t → Fr m o (x3 x t)) (h : Fr m o s) : Fr m o (State.fetch x0 x1 x2 x3 s) := by
  unfold State.fetch
  repeat'
    first
    | with_reducible assumption
    | (intro _)
    | (extract_lets +onlyGivenNames z; refine (fun (hz : Fr m o z) => ?_) ?_; clear_value z; revert z; intro y hy; rotate_left; dsimp only [z]; clear z)
    | (extract_lets +onlyGivenNames z; clear_value z; revert z; intro y)
    | with_reducible apply charge_frame (ms (by decide) hm)
    | with_reducible apply modQp_frame (ms (by decide) hm)
    | with_reducible apply endTurn_frame (ms (by decide) hm)
    | with_reducible apply finishDesc_frame (ms (by decide) hm)
    | with_reducible apply Fr_ite
    | split
    | with_reducible apply_assumption

theorem copyDesc_frame {x0} {x1} {s : State} {m : Nat} {o : State} (hm : 35651720 ||| m = m) (h : Fr m o s) : Fr m o (State.copyDesc x0 x1 s) := by
  unfold State.copyDesc
  repeat'
    first
    | with_reducible assumption
    | (intro _)
    | with_reducible apply fetch_frame (ms (by decide) hm)
    | with_reducible apply Fr_ite

theorem cqStall_frame {x0} {s : State} {m : Nat} {o : State} (hm : 2097288 ||| m = m) (h : Fr m o s) : Fr m o (State.cqStall x0 s) := by
  unfold State.cqStall
  repeat'
    first
    | with_reducible assumption
    | (intro _)
    | (extract_lets +onlyGivenNames z; clear_value z; revert z; intro y)
    | with_reducible apply qpEvent_frame (ms (by decide) hm)
    | with_reducible apply modQp_frame (ms (by decide) hm)
    | with_reducible apply Fr_ite
    | split

theorem ringSq_frame {x0} {x1} {s : State} {m : Nat} {o : State} (hm : 2097292 ||| m = m) (h : Fr m o s) : Fr m o (State.ringSq x0 x1 s) := by
  unfold State.ringSq
  repeat'
    first
    | with_reducible assumption
    | (intro _)
    | (extract_lets +onlyGivenNames z; refine (fun (hz : Fr m o z.2) => ?_) ?_; clear_value z; revert z; intro y hy; rotate_left; dsimp only [z]; clear z)
    | (extract_lets +onlyGivenNames z; clear_value z; revert z; intro y)
    | with_reducible apply fresh_frame (ms (by decide) hm)
    | with_reducible apply qpError_frame (ms (by decide) hm)
    | with_reducible apply modQp_frame (ms (by decide) hm)
    | with_reducible apply Fr_ite

theorem ringCq_frame {x0} {x1} {x2} {s : State} {m : Nat} {o : State} (hm : 2097288 ||| m = m) (h : Fr m o s) : Fr m o (State.ringCq x0 x1 x2 s) := by
  unfold State.ringCq
  repeat'
    first
    | with_reducible assumption
    | with_reducible apply drainHeld_frame (ms (by decide) hm)
    | with_reducible apply modQp_frame (ms (by decide) hm)

theorem doorbell_frame {x0} {x1} {x2} {x3} {x4} {s : State} {m : Nat} {o : State} (hm : 2097292 ||| m = m) (h : Fr m o s) : Fr m o (State.doorbell x0 x1 x2 x3 x4 s) := by
  unfold State.doorbell
  repeat'
    first
    | with_reducible assumption
    | (intro _)
    | with_reducible apply modFn_frame (ms (by decide) hm)
    | with_reducible apply ringSq_frame (ms (by decide) hm)
    | with_reducible apply ringCq_frame (ms (by decide) hm)
    | with_reducible apply modQp_frame (ms (by decide) hm)
    | with_reducible apply Fr_ite

theorem fenceRead_frame {x0} {x1} {x2} {s : State} {m : Nat} {o : State} (hm : 35750024 ||| m = m) (h : Fr m o s) : Fr m o (State.fenceRead x0 x1 x2 s) := by
  unfold State.fenceRead
  repeat'
    first
    | with_reducible assumption
    | (intro _)
    | (extract_lets +onlyGivenNames z; refine (fun (hz : Fr m o z) => ?_) ?_; clear_value z; revert z; intro y hy; rotate_left; dsimp only [z]; clear z)
    | with_reducible apply charge_frame (ms (by decide) hm)
    | with_reducible apply finishDesc_frame (ms (by decide) hm)
    | with_reducible apply Fr_ite
    | split

theorem nopDesc_frame {x0} {x1} {s : State} {m : Nat} {o : State} (hm : 35651720 ||| m = m) (h : Fr m o s) : Fr m o (State.nopDesc x0 x1 s) := by
  unfold State.nopDesc
  repeat'
    first
    | with_reducible assumption
    | (intro _)
    | with_reducible apply fetch_frame (ms (by decide) hm)
    | with_reducible apply endTurn_frame (ms (by decide) hm)
    | with_reducible apply Fr_ite

theorem acceptSession_frame {x0} {s : State} {m : Nat} {o : State} (hm : 2048 ||| m = m) (h : Fr m o s) : Fr m o (State.acceptSession x0 s) := by
  unfold State.acceptSession
  repeat'
    first
    | with_reducible assumption
    | with_reducible apply modSession_frame (ms (by decide) hm)

theorem acceptSeq_frame {x0} {s : State} {m : Nat} {o : State} (hm : 35968 ||| m = m) (h : Fr m o s) : Fr m o (State.acceptSeq x0 s) := by
  unfold State.acceptSeq
  repeat'
    first
    | with_reducible assumption
    | (extract_lets +onlyGivenNames z; refine (fun (hz : Fr m o z) => ?_) ?_; clear_value z; revert z; intro y hy; rotate_left; dsimp only [z]; clear z)
    | (extract_lets +onlyGivenNames z; clear_value z; revert z; intro y)
    | simp -zeta only [Fr_mk]
    | with_reducible apply Fr_crs (ms (by decide) hm)
    | with_reducible apply openTurn_frame (ms (by decide) hm)
    | with_reducible apply acceptSession_frame (ms (by decide) hm)
    | with_reducible apply demand_frame (ms (by decide) hm)
    | split

theorem serveDesc_frame {x0} {x1} {s : State} {m : Nat} {o : State} (hm : 35753096 ||| m = m) (h : Fr m o s) : Fr m o (State.serveDesc x0 x1 s) := by
  unfold State.serveDesc
  repeat'
    first
    | with_reducible assumption
    | (intro _)
    | (extract_lets +onlyGivenNames z; refine (fun (hz : Fr m o z) => ?_) ?_; clear_value z; revert z; intro y hy; rotate_left; dsimp only [z]; clear z)
    | (extract_lets +onlyGivenNames z; clear_value z; revert z; intro y)
    | simp -zeta only [Fr_mk]
    | with_reducible apply Fr_crs (ms (by decide) hm)
    | with_reducible apply fetch_frame (ms (by decide) hm)
    | with_reducible apply endTurn_frame (ms (by decide) hm)
    | with_reducible apply acceptSeq_frame (ms (by decide) hm)
    | with_reducible apply dropSeq_frame (ms (by decide) hm)
    | with_reducible apply acceptSession_frame (ms (by decide) hm)
    | with_reducible apply Fr_ite
    | split

theorem areaWrite_frame {x0} {x1} {x2} {s : State} {m : Nat} {o : State} (hm : 40960 ||| m = m) (h : Fr m o s) : Fr m o (State.areaWrite x0 x1 x2 s) := by
  unfold State.areaWrite
  repeat'
    first
    | with_reducible assumption
    | (intro _)
    | (extract_lets +onlyGivenNames z; refine (fun (_ : z = (z : Mem)) => ?_) rfl; subst z)
    | (extract_lets +onlyGivenNames z; clear_value z; revert z; intro y)
    | simp -zeta only [Fr_mk]
    | (with_reducible apply Fr_hbm (ms (by decide) hm) <;> try with_reducible rfl)
    | with_reducible apply clearLines_frame (ms (by decide) hm)
    | with_reducible apply each_frame
    | split

theorem changeCell_frame {x0} {x1} {s : State} {m : Nat} {o : State} (hm : 33664 ||| m = m) (h : Fr m o s) : Fr m o (State.changeCell x0 x1 s) := by
  unfold State.changeCell
  repeat'
    first
    | with_reducible assumption
    | (intro _)
    | (extract_lets +onlyGivenNames z; refine (fun (hz : Fr m o z) => ?_) ?_; clear_value z; revert z; intro y hy; rotate_left; dsimp only [z]; clear z)
    | (extract_lets +onlyGivenNames z; clear_value z; revert z; intro y)
    | with_reducible apply modCell_frame (ms (by decide) hm)
    | with_reducible apply charge_frame (ms (by decide) hm)
    | with_reducible apply takeSave_frame (ms (by decide) hm)
    | with_reducible apply Fr_ite
    | split

theorem bindCell_frame {x0} {x1} {s : State} {m : Nat} {o : State} (hm : 33664 ||| m = m) (h : Fr m o s) : Fr m o (State.bindCell x0 x1 s) := by
  unfold State.bindCell
  repeat'
    first
    | with_reducible assumption
    | (intro _)
    | (extract_lets +onlyGivenNames z; refine (fun (hz : Fr m o z) => ?_) ?_; clear_value z; revert z; intro y hy; rotate_left; dsimp only [z]; clear z)
    | (extract_lets +onlyGivenNames z; clear_value z; revert z; intro y)
    | with_reducible apply modCell_frame (ms (by decide) hm)
    | with_reducible apply changeCell_frame (ms (by decide) hm)
    | with_reducible apply charge_frame (ms (by decide) hm)
    | with_reducible apply Fr_ite

theorem flushStream_frame {x0} {x1} {s : State} {m : Nat} {o : State} (hm : 35909000 ||| m = m) (h : Fr m o s) : Fr m o (State.flushStream x0 x1 s) := by
  unfold State.flushStream
  repeat'
    first
    | with_reducible assumption
    | (intro _)
    | (extract_lets +onlyGivenNames z; refine (fun (hz : Fr m o z) => ?_) ?_; clear_value z; revert z; intro y hy; rotate_left; dsimp only [z]; clear z)
    | with_reducible apply loadArrives_frame (ms (by decide) hm)
    | with_reducible apply storeAccepted_frame (ms (by decide) hm)
    | with_reducible apply putDelivered_frame (ms (by decide) hm)
    | with_reducible apply each_frame

theorem flushCourse_frame {x0} {s : State} {m : Nat} {o : State} (hm : 35909000 ||| m = m) (h : Fr m o s) : Fr m o (State.flushCourse x0 s) := by
  unfold State.flushCourse
  repeat'
    first
    | with_reducible assumption
    | (intro _)
    | with_reducible apply flushStream_frame (ms (by decide) hm)
    | with_reducible apply Fr_ite
    | with_reducible apply each_frame

theorem commitCourse_frame {x0} {s : State} {m : Nat} {o : State} (hm : 35909000 ||| m = m) (h : Fr m o s) : Fr m o (State.commitCourse x0 s) := by
  unfold State.commitCourse
  repeat'
    first
    | with_reducible assumption
    | (extract_lets +onlyGivenNames z; refine (fun (hz : Fr m o z) => ?_) ?_; clear_value z; revert z; intro y hy; rotate_left; dsimp only [z]; clear z)
    | (extract_lets +onlyGivenNames z; clear_value z; revert z; intro y)
    | with_reducible apply flushCourse_frame (ms (by decide) hm)
    | with_reducible apply modCourse_frame (ms (by decide) hm)
    | split

theorem overrun_frame {x0} {s : State} {m : Nat} {o : State} (hm : 35651784 ||| m = m) (h : Fr m o s) : Fr m o (State.overrun x0 s) := by
  unfold State.overrun
  repeat'
    first
    | with_reducible assumption
    | (extract_lets +onlyGivenNames z; clear_value z; revert z; intro y)
    | simp -zeta only [Fr_mk]
    | with_reducible apply Fr_rnd (ms (by decide) hm)
    | with_reducible apply journal_frame (ms (by decide) hm)

theorem commitAll_frame {s : State} {m : Nat} {o : State} (hm : 35909064 ||| m = m) (h : Fr m o s) : Fr m o (State.commitAll s) := by
  unfold State.commitAll
  repeat'
    first
    | with_reducible assumption
    | (intro _)
    | with_reducible apply commitCourse_frame (ms (by decide) hm)
    | with_reducible apply modCourse_frame (ms (by decide) hm)
    | with_reducible apply overrun_frame (ms (by decide) hm)
    | with_reducible apply Fr_ite
    | with_reducible apply each_frame
    | with_reducible apply elim_frame

theorem rowDone_frame {x0} {x1} {s : State} {m : Nat} {o : State} (hm : 35753096 ||| m = m) (h : Fr m o s) : Fr m o (State.rowDone x0 x1 s) := by
  unfold State.rowDone
  repeat'
    first
    | with_reducible assumption
    | (intro _)
    | (extract_lets +onlyGivenNames z; refine (fun (hz : Fr m o z) => ?_) ?_; clear_value z; revert z; intro y hy; rotate_left; dsimp only [z]; clear z)
    | (extract_lets +onlyGivenNames z; refine (fun (hz : ∀ a, Fr m o (z a)) => ?_) ?_; clear_value z; revert z; intro y hy; rotate_left; dsimp only [z]; clear z)
    | (extract_lets +onlyGivenNames z; clear_value z; revert z; intro y)
    | simp -zeta only [Fr_mk]
    | with_reducible apply Fr_crs (ms (by decide) hm)
    | with_reducible apply modSession_frame (ms (by decide) hm)
    | with_reducible apply finishSeq_frame (ms (by decide) hm)
    | with_reducible apply Fr_ite
    | split
    | with_reducible apply_assumption

theorem courseComplete_frame {x0} {s : State} {m : Nat} {o : State} (hm : 35909000 ||| m = m) (h : Fr m o s) : Fr m o (State.courseComplete x0 s) := by
  unfold State.courseComplete
  repeat'
    first
    | with_reducible assumption
    | (intro _)
    | (extract_lets +onlyGivenNames z; refine (fun (hz : Fr m o z) => ?_) ?_; clear_value z; revert z; intro y hy; rotate_left; dsimp only [z]; clear z)
    | with_reducible apply flushCourse_frame (ms (by decide) hm)
    | with_reducible apply sumCourse_frame (ms (by decide) hm)
    | with_reducible apply releaseCourse_frame (ms (by decide) hm)
    | with_reducible apply rowDone_frame (ms (by decide) hm)
    | with_reducible apply probeFails_frame (ms (by decide) hm)
    | with_reducible apply probeDone_frame (ms (by decide) hm)
    | with_reducible apply modJob_frame (ms (by decide) hm)
    | with_reducible apply Fr_ite
    | with_reducible apply each_frame
    | split

theorem completeAll_frame {s : State} {m : Nat} {o : State} (hm : 35909000 ||| m = m) (h : Fr m o s) : Fr m o (State.completeAll s) := by
  unfold State.completeAll
  repeat'
    first
    | with_reducible assumption
    | (intro _)
    | with_reducible apply courseComplete_frame (ms (by decide) hm)
    | with_reducible apply each_frame

theorem completeNow_frame {x0} {s : State} {m : Nat} {o : State} (hm : 35909000 ||| m = m) (h : Fr m o s) : Fr m o (State.completeNow x0 s) := by
  unfold State.completeNow
  repeat'
    first
    | with_reducible assumption
    | (intro _)
    | (extract_lets +onlyGivenNames z; refine (fun (hz : Fr m o z) => ?_) ?_; clear_value z; revert z; intro y hy; rotate_left; dsimp only [z]; clear z)
    | with_reducible apply courseComplete_frame (ms (by decide) hm)
    | with_reducible apply modCourse_frame (ms (by decide) hm)
    | with_reducible apply commitCourse_frame (ms (by decide) hm)
    | with_reducible apply Fr_ite
    | split

theorem dropPlanless_frame {s : State} {m : Nat} {o : State} (hm : 35753096 ||| m = m) (h : Fr m o s) : Fr m o (State.dropPlanless s) := by
  unfold State.dropPlanless
  repeat'
    first
    | with_reducible assumption
    | (intro _)
    | with_reducible apply dropSeq_frame (ms (by decide) hm)
    | with_reducible apply each_frame
    | split

theorem holdCovered_frame {x0} {s : State} {m : Nat} {o : State} (hm : 32768 ||| m = m) (h : Fr m o s) : Fr m o (State.holdCovered x0 s) := by
  unfold State.holdCovered
  repeat'
    first
    | with_reducible assumption
    | (intro _)
    | with_reducible apply modPte_frame (ms (by decide) hm)
    | with_reducible apply Fr_ite
    | with_reducible apply each_frame

theorem holdExpires_frame {x0} {s : State} {m : Nat} {o : State} (hm : 35884424 ||| m = m) (h : Fr m o s) : Fr m o (State.holdExpires x0 s) := by
  unfold State.holdExpires
  repeat'
    first
    | with_reducible assumption
    | (intro _)
    | (extract_lets +onlyGivenNames z; clear_value z; revert z; intro y)
    | with_reducible apply endCourse_frame (ms (by decide) hm)
    | with_reducible apply Fr_ite
    | split

theorem lateChanges_frame {s : State} {m : Nat} {o : State} (hm : 33664 ||| m = m) (h : Fr m o s) : Fr m o (State.lateChanges s) := by
  unfold State.lateChanges
  repeat'
    first
    | with_reducible assumption
    | (intro _)
    | with_reducible apply changeCell_frame (ms (by decide) hm)
    | with_reducible apply each_frame
    | split

theorem markParked_frame {s : State} {m : Nat} {o : State} (hm : 2048 ||| m = m) (h : Fr m o s) : Fr m o (State.markParked s) := by
  unfold State.markParked
  repeat'
    first
    | with_reducible assumption
    | (intro _)
    | (extract_lets +onlyGivenNames z; clear_value z; revert z; intro y)
    | with_reducible apply modSession_frame (ms (by decide) hm)
    | with_reducible apply each_frame

theorem parkSeq_frame {x0} {s : State} {m : Nat} {o : State} (hm : 35968 ||| m = m) (h : Fr m o s) : Fr m o (State.parkSeq x0 s) := by
  unfold State.parkSeq
  repeat'
    first
    | with_reducible assumption
    | (extract_lets +onlyGivenNames z; refine (fun (hz : Fr m o z) => ?_) ?_; clear_value z; revert z; intro y hy; rotate_left; dsimp only [z]; clear z)
    | (extract_lets +onlyGivenNames z; clear_value z; revert z; intro y)
    | simp -zeta only [Fr_mk]
    | with_reducible apply Fr_crs (ms (by decide) hm)
    | with_reducible apply modSession_frame (ms (by decide) hm)
    | with_reducible apply demand_frame (ms (by decide) hm)
    | split

theorem parkTimeout_frame {x0} {x1} {s : State} {m : Nat} {o : State} (hm : 35753096 ||| m = m) (h : Fr m o s) : Fr m o (State.parkTimeout x0 x1 s) := by
  unfold State.parkTimeout
  repeat'
    first
    | with_reducible assumption
    | (intro _)
    | (extract_lets +onlyGivenNames z; clear_value z; revert z; intro y)
    | with_reducible apply dropSeq_frame (ms (by decide) hm)
    | with_reducible apply Fr_ite
    | split

theorem prepare_frame {x0} {s : State} {m : Nat} {o : State} (hm : 32896 ||| m = m) (h : Fr m o s) : Fr m o (State.prepare x0 s) := by
  unfold State.prepare
  repeat'
    first
    | with_reducible assumption
    | (intro _)
    | with_reducible apply wantPage_frame (ms (by decide) hm)
    | with_reducible apply Fr_ite
    | with_reducible apply each_frame

theorem refuseCourse_frame {x0} {x1} {s : State} {m : Nat} {o : State} (hm : 35884168 ||| m = m) (h : Fr m o s) : Fr m o (State.refuseCourse x0 x1 s) := by
  unfold State.refuseCourse
  repeat'
    first
    | with_reducible assumption
    | (intro _)
    | (extract_lets +onlyGivenNames z; refine (fun (hz : Fr m o z) => ?_) ?_; clear_value z; revert z; intro y hy; rotate_left; dsimp only [z]; clear z)
    | with_reducible apply dropWait_frame (ms (by decide) hm)
    | with_reducible apply probeFails_frame (ms (by decide) hm)
    | with_reducible apply dropSeq_frame (ms (by decide) hm)
    | with_reducible apply modJob_frame (ms (by decide) hm)
    | with_reducible apply each_frame
    | split

theorem rewindCell_frame {x0} {x1} {s : State} {m : Nat} {o : State} (hm : 384 ||| m = m) (h : Fr m o s) : Fr m o (State.rewindCell x0 x1 s) := by
  unfold State.rewindCell
  repeat'
    first
    | with_reducible assumption
    | (intro _)
    | (extract_lets +onlyGivenNames z; clear_value z; revert z; intro y)
    | with_reducible apply charge_frame (ms (by decide) hm)
    | with_reducible apply modCell_frame (ms (by decide) hm)
    | with_reducible apply Fr_ite
    | split

theorem undoWrites_frame {x0} {s : State} {m : Nat} {o : State} (hm : 57344 ||| m = m) (h : Fr m o s) : Fr m o (State.undoWrites x0 s) := by
  unfold State.undoWrites
  repeat'
    first
    | with_reducible assumption
    | (intro _)
    | (extract_lets +onlyGivenNames z; clear_value z; revert z; intro y)
    | with_reducible apply frameWrite_frame (ms (by decide) hm)
    | with_reducible apply slowWrite_frame (ms (by decide) hm)
    | with_reducible apply Fr_ite
    | with_reducible apply each_frame
    | split

theorem replay_frame {x0} {s : State} {m : Nat} {o : State} (hm : 35909000 ||| m = m) (h : Fr m o s) : Fr m o (State.replay x0 s) := by
  unfold State.replay
  repeat'
    first
    | with_reducible assumption
    | (intro _)
    | (extract_lets +onlyGivenNames z; refine (fun (hz : Fr m o z) => ?_) ?_; clear_value z; revert z; intro y hy; rotate_left; dsimp only [z]; clear z)
    | (extract_lets +onlyGivenNames z; clear_value z; revert z; intro y)
    | simp -zeta only [Fr_mk]
    | with_reducible apply Fr_msd (ms (by decide) hm)
    | with_reducible apply endCourse_frame (ms (by decide) hm)
    | with_reducible apply rewindCell_frame (ms (by decide) hm)
    | with_reducible apply undoWrites_frame (ms (by decide) hm)
    | with_reducible apply modCourse_frame (ms (by decide) hm)
    | with_reducible apply Fr_ite
    | with_reducible apply each_frame
    | split

theorem replayReady_frame {s : State} {m : Nat} {o : State} (hm : 35909000 ||| m = m) (h : Fr m o s) : Fr m o (State.replayReady s) := by
  unfold State.replayReady
  repeat'
    first
    | with_reducible assumption
    | (intro _)
    | with_reducible apply replay_frame (ms (by decide) hm)
    | with_reducible apply Fr_ite
    | with_reducible apply each_frame

theorem saveImage_frame {x0} {x1} {x2} {s : State} {m : Nat} {o : State} (hm : 41472 ||| m = m) (h : Fr m o s) : Fr m o (State.saveImage x0 x1 x2 s) := by
  unfold State.saveImage
  repeat'
    first
    | with_reducible assumption
    | (extract_lets +onlyGivenNames z; refine (fun (hz : Fr m o z) => ?_) ?_; clear_value z; revert z; intro y hy; rotate_left; dsimp only [z]; clear z)
    | (extract_lets +onlyGivenNames z; clear_value z; revert z; intro y)
    | simp -zeta only [Fr_mk]
    | with_reducible apply Fr_ups (ms (by decide) hm)
    | with_reducible apply areaWrite_frame (ms (by decide) hm)

theorem sendReports_frame {s : State} {m : Nat} {o : State} (hm : 98312 ||| m = m) (h : Fr m o s) : Fr m o (State.sendReports s) := by
  unfold State.sendReports
  repeat'
    first
    | with_reducible assumption
    | (intro _)
    | (extract_lets +onlyGivenNames z; clear_value z; revert z; intro y)
    | with_reducible apply emit_frame (ms (by decide) hm)
    | with_reducible apply each_frame

theorem settlePlaces_frame {s : State} {m : Nat} {o : State} (hm : 35753096 ||| m = m) (h : Fr m o s) : Fr m o (State.settlePlaces s) := by
  unfold State.settlePlaces
  repeat'
    first
    | with_reducible assumption
    | (intro _)
    | with_reducible apply modWeaver_frame (ms (by decide) hm)
    | with_reducible apply parkSeq_frame (ms (by decide) hm)
    | with_reducible apply dropSeq_frame (ms (by decide) hm)
    | with_reducible apply each_frame
    | split

theorem startCourse_frame {x0} {s : State} {m : Nat} {o : State} (hm : 35889096 ||| m = m) (h : Fr m o s) : Fr m o (State.startCourse x0 s) := by
  unfold State.startCourse
  repeat'
    first
    | with_reducible assumption
    | (intro _)
    | (extract_lets +onlyGivenNames z; refine (fun (hz : Fr m o z) => ?_) ?_; clear_value z; revert z; intro y hy; rotate_left; dsimp only [z]; clear z)
    | (extract_lets +onlyGivenNames z; clear_value z; revert z; intro y)
    | simp -zeta only [Fr_mk]
    | with_reducible apply Fr_crs (ms (by decide) hm)
    | with_reducible apply takeFrames_frame (ms (by decide) hm)
    | with_reducible apply modFrame_frame (ms (by decide) hm)
    | with_reducible apply modPte_frame (ms (by decide) hm)
    | with_reducible apply bindCell_frame (ms (by decide) hm)
    | with_reducible apply overrun_frame (ms (by decide) hm)
    | with_reducible apply modMsd_frame (ms (by decide) hm)
    | with_reducible apply modWeaver_frame (ms (by decide) hm)
    | with_reducible apply modStake_frame (ms (by decide) hm)
    | with_reducible apply modJob_frame (ms (by decide) hm)
    | with_reducible apply modSession_frame (ms (by decide) hm)
    | with_reducible apply charge_frame (ms (by decide) hm)
    | with_reducible apply emit_frame (ms (by decide) hm)
    | with_reducible apply Fr_ite
    | with_reducible apply each_frame
    | split
    | with_reducible refine FrP.out ?_ _ (by assumption)

theorem tryCourse_frame {x0} {s : State} {m : Nat} {o : State} (hm : 35889096 ||| m = m) (h : Fr m o s) : Fr m o (State.tryCourse x0 s) := by
  unfold State.tryCourse
  repeat'
    first
    | with_reducible assumption
    | (intro _)
    | with_reducible apply refuseCourse_frame (ms (by decide) hm)
    | with_reducible apply demand_frame (ms (by decide) hm)
    | with_reducible apply startCourse_frame (ms (by decide) hm)
    | with_reducible apply Fr_ite
    | with_reducible apply elim_frame
    | split

theorem unholdCourses_frame {s : State} {m : Nat} {o : State} (hm : 1024 ||| m = m) (h : Fr m o s) : Fr m o (State.unholdCourses s) := by
  unfold State.unholdCourses
  repeat'
    first
    | with_reducible assumption
    | (intro _)
    | with_reducible apply modCourse_frame (ms (by decide) hm)
    | with_reducible apply Fr_ite
    | with_reducible apply each_frame
    | split

theorem modBucket_frame {x0} {x1} {x2} {s : State} {m : Nat} {o : State} (hm : 131072 ||| m = m) (h : Fr m o s) : Fr m o (State.modBucket x0 x1 x2 s) := by
  unfold State.modBucket
  repeat'
    first
    | with_reducible assumption
    | with_reducible apply modJob_frame (ms (by decide) hm)

theorem sealBucket_frame {x0} {x1} {s : State} {m : Nat} {o : State} (hm : 131072 ||| m = m) (h : Fr m o s) : Fr m o (State.sealBucket x0 x1 s) := by
  unfold State.sealBucket
  repeat'
    first
    | with_reducible assumption
    | (intro _)
    | (extract_lets +onlyGivenNames z; clear_value z; revert z; intro y)
    | with_reducible apply modJob_frame (ms (by decide) hm)
    | with_reducible apply modBucket_frame (ms (by decide) hm)
    | with_reducible apply Fr_ite

theorem attnGroup_frame {x0} {x1} {x2} {x3} {s : State} {m : Nat} {o : State} (hm : 98560 ||| m = m) (h : Fr m o s) : Fr m o (State.attnGroup x0 x1 x2 x3 s).2 := by
  unfold State.attnGroup
  repeat'
    first
    | with_reducible assumption
    | (intro _)
    | (extract_lets +onlyGivenNames z; refine (fun (hz : Fr m o z.2) => ?_) ?_; clear_value z; revert z; intro y hy; rotate_left; dsimp only [z]; clear z)
    | (extract_lets +onlyGivenNames z; refine (fun (hz : ∀ a t, Fr m o t → Fr m o (z a t)) => ?_) ?_; clear_value z; revert z; intro y hy; rotate_left; dsimp only [z]; clear z)
    | (extract_lets +onlyGivenNames z; clear_value z; revert z; intro y)
    | with_reducible apply courseRead_frame (ms (by decide) hm)
    | with_reducible apply modCell_frame (ms (by decide) hm)
    | with_reducible apply each_frame
    | with_reducible apply foldl_frame2
    | split

theorem reportRm_frame {x0} {s : State} {m : Nat} {o : State} (hm : 35651720 ||| m = m) (h : Fr m o s) : Fr m o (State.reportRm x0 s) := by
  unfold State.reportRm
  repeat'
    first
    | with_reducible assumption
    | (intro _)
    | with_reducible apply journal_frame (ms (by decide) hm)
    | with_reducible apply Fr_ite

theorem sealAfter_frame {x0} {s : State} {m : Nat} {o : State} (hm : 131072 ||| m = m) (h : Fr m o s) : Fr m o (State.sealAfter x0 s) := by
  unfold State.sealAfter
  repeat'
    first
    | with_reducible assumption
    | (intro _)
    | (extract_lets +onlyGivenNames z; clear_value z; revert z; intro y)
    | with_reducible apply sealBucket_frame (ms (by decide) hm)
    | with_reducible apply Fr_ite
    | with_reducible apply each_frame
    | split

theorem uNext_frame {x0} {s : State} {m : Nat} {o : State} (hm : 197632 ||| m = m) (h : Fr m o s) : Fr m o (State.uNext x0 s) := by
  unfold State.uNext
  repeat'
    first
    | with_reducible assumption
    | (extract_lets +onlyGivenNames z; refine (fun (hz : Fr m o z) => ?_) ?_; clear_value z; revert z; intro y hy; rotate_left; dsimp only [z]; clear z)
    | with_reducible apply modList_frame (ms (by decide) hm)
    | with_reducible apply checkSegment_frame (ms (by decide) hm)
    | with_reducible apply sealAfter_frame (ms (by decide) hm)

theorem uViolation_frame {x0} {s : State} {m : Nat} {o : State} (hm : 35849352 ||| m = m) (h : Fr m o s) : Fr m o (State.uViolation x0 s) := by
  unfold State.uViolation
  repeat'
    first
    | with_reducible assumption
    | (extract_lets +onlyGivenNames z; refine (fun (hz : Fr m o z) => ?_) ?_; clear_value z; revert z; intro y hy; rotate_left; dsimp only [z]; clear z)
    | with_reducible apply modMsd_frame (ms (by decide) hm)
    | with_reducible apply uNext_frame (ms (by decide) hm)
    | with_reducible apply modCourse_frame (ms (by decide) hm)
    | with_reducible apply journal_frame (ms (by decide) hm)

theorem uGate_frame {x0} {s : State} {m : Nat} {o : State} (hm : 65536 ||| m = m) (h : Fr m o s) : Fr m o (State.uGate x0 s) := by
  unfold State.uGate
  repeat'
    first
    | with_reducible assumption
    | with_reducible apply modList_frame (ms (by decide) hm)

theorem skipUops_frame {x0} {x1} {x2} {s : State} {m : Nat} {o : State} (hm : 35849352 ||| m = m) (h : Fr m o s) : Fr m o (State.skipUops x0 x1 x2 s) := by
  induction x0 generalizing s with
  | zero => exact h
  | succ k ih =>
    rw [State.skipUops]
    split
    · exact h
    · exact Fr_ite (fun _ => h) fun _ => ih (uViolation_frame (ms (by decide) hm) (uGate_frame (ms (by decide) hm) h))

theorem uAsk_frame {x0} {x1} {s : State} {m : Nat} {o : State} (hm : 65920 ||| m = m) (h : Fr m o s) : Fr m o (State.uAsk x0 x1 s) := by
  unfold State.uAsk
  repeat'
    first
    | with_reducible assumption
    | (intro _)
    | (extract_lets +onlyGivenNames z; refine (fun (hz : Fr m o z) => ?_) ?_; clear_value z; revert z; intro y hy; rotate_left; dsimp only [z]; clear z)
    | (extract_lets +onlyGivenNames z; clear_value z; revert z; intro y)
    | with_reducible apply modList_frame (ms (by decide) hm)
    | with_reducible apply holdMove_frame (ms (by decide) hm)
    | with_reducible apply retryTune_frame (ms (by decide) hm)
    | with_reducible apply pushMove_frame (ms (by decide) hm)
    | with_reducible apply Fr_ite

theorem uDone_frame {x0} {s : State} {m : Nat} {o : State} (hm : 197888 ||| m = m) (h : Fr m o s) : Fr m o (State.uDone x0 s) := by
  unfold State.uDone
  repeat'
    first
    | with_reducible assumption
    | (intro _)
    | (extract_lets +onlyGivenNames z; refine (fun (hz : Fr m o z) => ?_) ?_; clear_value z; revert z; intro y hy; rotate_left; dsimp only [z]; clear z)
    | with_reducible apply modMsd_frame (ms (by decide) hm)
    | with_reducible apply signal_frame (ms (by decide) hm)
    | with_reducible apply uNext_frame (ms (by decide) hm)
    | with_reducible apply Fr_ite

theorem uWaits_frame {s : State} {s2 : State} {m : Nat} {o : State} (hm : 32768 ||| m = m) (h : Fr m o s) (h2 : Fr m o s2) : Fr m o (State.uWaits s s2) := by
  unfold State.uWaits
  repeat'
    first
    | with_reducible assumption
    | (extract_lets +onlyGivenNames z; refine (fun (_ : z = (z : Mem)) => ?_) rfl; subst z)
    | simp -zeta only [Fr_mk]
    | (with_reducible apply Fr_tables (ms (by decide) hm) <;> try with_reducible rfl)

theorem uIssue_frame {x0} {x1} {x2} {x3} {x4} {s : State} {m : Nat} {o : State} (hm : 35884424 ||| m = m) (hf : ∀ c t, Fr m o t → FrU m o (x4 c t)) (h : Fr m o s) : Fr m o (State.uIssue x0 x1 x2 x3 x4 s) := by
  unfold State.uIssue
  repeat'
    first
    | with_reducible assumption
    | (intro _)
    | (extract_lets +onlyGivenNames z; refine (fun (hz : Fr m o z) => ?_) ?_; clear_value z; revert z; intro y hy; rotate_left; dsimp only [z]; clear z)
    | (extract_lets +onlyGivenNames z; refine (fun (hz : Fr m o z.2) => ?_) ?_; clear_value z; revert z; intro y hy; rotate_left; dsimp only [z]; clear z)
    | (extract_lets +onlyGivenNames z; clear_value z; revert z; intro y)
    | with_reducible apply skipUops_frame (ms (by decide) hm)
    | with_reducible apply uViolation_frame (ms (by decide) hm)
    | with_reducible apply uGate_frame (ms (by decide) hm)
    | with_reducible apply uAsk_frame (ms (by decide) hm)
    | with_reducible apply uNext_frame (ms (by decide) hm)
    | with_reducible apply countStale_frame (ms (by decide) hm)
    | with_reducible apply uWaits_frame (ms (by decide) hm)
    | with_reducible apply courseFails_frame (ms (by decide) hm)
    | with_reducible apply uDone_frame (ms (by decide) hm)
    | with_reducible apply reportRm_frame (ms (by decide) hm)
    | with_reducible apply Fr_ite
    | with_reducible apply FrU_ite
    | with_reducible exact FrU_none
    | with_reducible apply FrRun.run
    | split
    | with_reducible refine FrU.out ?_ _ (by assumption)
    | with_reducible apply_assumption

theorem uReads_frame {x0} {x1} {s : State} {m : Nat} {o : State} (hm : 98304 ||| m = m) (h : Fr m o s) : Fr m o (State.uReads x0 x1 s).2 := by
  unfold State.uReads
  repeat'
    first
    | with_reducible assumption
    | (intro _)
    | (extract_lets +onlyGivenNames z; refine (fun (hz : Fr m o z.2) => ?_) ?_; clear_value z; revert z; intro y hy; rotate_left; dsimp only [z]; clear z)
    | with_reducible apply courseRead_frame (ms (by decide) hm)
    | with_reducible apply foldl_frame2
    | split

theorem uWrites_frame {x0} {x1} {s : State} {m : Nat} {o : State} (hm : 123904 ||| m = m) (h : Fr m o s) : Fr m o (State.uWrites x0 x1 s).2 := by
  unfold State.uWrites
  repeat'
    first
    | with_reducible assumption
    | (intro _)
    | with_reducible apply courseWrite_frame (ms (by decide) hm)
    | with_reducible apply foldl_frame2
    | split

theorem ulistTimeout_frame {x0} {x1} {s : State} {m : Nat} {o : State} (hm : 35718280 ||| m = m) (h : Fr m o s) : Fr m o (State.ulistTimeout x0 x1 s) := by
  unfold State.ulistTimeout
  repeat'
    first
    | with_reducible assumption
    | (intro _)
    | (extract_lets +onlyGivenNames z; refine (fun (hz : Fr m o z) => ?_) ?_; clear_value z; revert z; intro y hy; rotate_left; dsimp only [z]; clear z)
    | with_reducible apply modMsd_frame (ms (by decide) hm)
    | with_reducible apply modList_frame (ms (by decide) hm)
    | with_reducible apply checkSegment_frame (ms (by decide) hm)
    | with_reducible apply modCourse_frame (ms (by decide) hm)
    | with_reducible apply journal_frame (ms (by decide) hm)
    | with_reducible apply Fr_ite
    | split

theorem writeWork_frame {x0} {x1} {x2} {s : State} {m : Nat} {o : State} (hm : 123904 ||| m = m) (h : Fr m o s) : Fr m o (State.writeWork x0 x1 x2 s).2 := by
  unfold State.writeWork
  repeat'
    first
    | with_reducible assumption
    | (intro _)
    | (extract_lets +onlyGivenNames z; clear_value z; revert z; intro y)
    | with_reducible apply touch_frame (ms (by decide) hm)
    | with_reducible apply frameWrite_frame (ms (by decide) hm)
    | with_reducible apply noKey_frame (ms (by decide) hm)
    | with_reducible apply courseWrite_frame (ms (by decide) hm)
    | with_reducible apply Fr_ite2
    | with_reducible apply foldl_frame2
    | split

theorem updateRun_frame {x0} {x1} {x2} {s : State} {m : Nat} {o : State} (hm : 123904 ||| m = m) (h : Fr m o s) : Fr m o (State.updateRun x0 x1 x2 s).2 := by
  unfold State.updateRun
  repeat'
    first
    | with_reducible assumption
    | (extract_lets +onlyGivenNames z; refine (fun (hz : Fr m o z.2) => ?_) ?_; clear_value z; revert z; intro y hy; rotate_left; dsimp only [z]; clear z)
    | (extract_lets +onlyGivenNames z; clear_value z; revert z; intro y)
    | with_reducible apply uReads_frame (ms (by decide) hm)
    | with_reducible apply uWrites_frame (ms (by decide) hm)
    | with_reducible apply writeWork_frame (ms (by decide) hm)
    | split

theorem addLeaf_frame {x0} {s : State} {m : Nat} {o : State} (hm : 32768 ||| m = m) (h : Fr m o s) : FrO m o (State.addLeaf x0 s) := by
  unfold State.addLeaf
  repeat'
    first
    | with_reducible assumption
    | (intro _)
    | (extract_lets +onlyGivenNames z; refine (fun (hz : ∀ a t, Fr m o t → Fr m o (z a t)) => ?_) ?_; clear_value z; revert z; intro y hy; rotate_left; dsimp only [z]; clear z)
    | (extract_lets +onlyGivenNames z; clear_value z; revert z; intro y)
    | simp -zeta only [Fr_mk]
    | (with_reducible apply Fr_tables (ms (by decide) hm) <;> try with_reducible rfl)
    | with_reducible apply takeFrame_frame (ms (by decide) hm)
    | with_reducible exact FrO_none
    | with_reducible apply FrO_some
    | split
    | with_reducible apply_assumption

theorem addWork_frame {x0} {x1} {s : State} {m : Nat} {o : State} (hm : 32768 ||| m = m) (h : Fr m o s) : Fr m o (State.addWork x0 x1 s) := by
  unfold State.addWork
  repeat'
    first
    | with_reducible assumption
    | (extract_lets +onlyGivenNames z; refine (fun (_ : z = (z : Mem)) => ?_) rfl; subst z)
    | (extract_lets +onlyGivenNames z; clear_value z; revert z; intro y)
    | simp -zeta only [Fr_mk]
    | (with_reducible apply Fr_tables (ms (by decide) hm) <;> try with_reducible rfl)

theorem evictPage_frame {x0} {x1} {s : State} {m : Nat} {o : State} (hm : 32768 ||| m = m) (h : Fr m o s) : Fr m o (State.evictPage x0 x1 s) := by
  unfold State.evictPage
  repeat'
    first
    | with_reducible assumption
    | (intro _)
    | (extract_lets +onlyGivenNames z; refine (fun (hz : ∀ t, Fr m o t → Fr m o (z t)) => ?_) ?_; clear_value z; revert z; intro y hy; rotate_left; dsimp only [z]; clear z)
    | (extract_lets +onlyGivenNames z; clear_value z; revert z; intro y)
    | simp -zeta only [Fr_mk]
    | (with_reducible apply Fr_tables (ms (by decide) hm) <;> try with_reducible rfl)
    | with_reducible apply withdraw_frame (ms (by decide) hm)
    | with_reducible apply modFrame_frame (ms (by decide) hm)
    | split
    | with_reducible apply_assumption

theorem mapPage_frame {x0} {x1} {s : State} {m : Nat} {o : State} (hm : 32896 ||| m = m) (h : Fr m o s) : FrO m o (State.mapPage x0 x1 s) := by
  unfold State.mapPage
  repeat'
    first
    | with_reducible assumption
    | (extract_lets +onlyGivenNames z; refine (fun (hz : Fr m o z) => ?_) ?_; clear_value z; revert z; intro y hy; rotate_left; dsimp only [z]; clear z)
    | (extract_lets +onlyGivenNames z; clear_value z; revert z; intro y)
    | with_reducible apply modPte_frame (ms (by decide) hm)
    | with_reducible apply takeFrame_frame (ms (by decide) hm)
    | with_reducible apply moveFrame_frame (ms (by decide) hm)
    | with_reducible exact FrO_none
    | with_reducible apply FrO_some
    | split

theorem sharePage_frame {x0} {x1} {s : State} {m : Nat} {o : State} (hm : 32768 ||| m = m) (h : Fr m o s) : Fr m o (State.sharePage x0 x1 s) := by
  unfold State.sharePage
  repeat'
    first
    | with_reducible assumption
    | (extract_lets +onlyGivenNames z; clear_value z; revert z; intro y)
    | with_reducible apply modPte_frame (ms (by decide) hm)

theorem chain_frame {m : Nat} {o : State} {α : Type} {xs : List α} {f : α → State → Option State} {s : State} (hm : 0 ||| m = m) (hf : ∀ x t, Fr m o t → FrO m o (f x t)) (h : Fr m o s) : FrO m o (chain xs f s) := by
  have key : ∀ (ys : List α) (q : Option State), FrO m o q → FrO m o (ys.foldl (fun q x => q.bind (f x)) q) := by
    intro ys
    induction ys with
    | nil => exact fun q ho => ho
    | cons y r ih => exact fun q ho => ih _ (FrO_bind ho fun t ht => hf y t ht)
  exact key xs _ (FrO_some h)

theorem memEvict_frame {x0} {s : State} {m : Nat} {o : State} (hm : 32768 ||| m = m) (h : Fr m o s) : Fr m o (memEvict x0 s).2 := by
  unfold memEvict
  repeat'
    first
    | with_reducible assumption
    | (intro _)
    | (extract_lets +onlyGivenNames z; refine (fun (hz : Fr m o z) => ?_) ?_; clear_value z; revert z; intro y hy; rotate_left; dsimp only [z]; clear z)
    | (extract_lets +onlyGivenNames z; clear_value z; revert z; intro y)
    | with_reducible apply checked_frame (ms (by decide) hm)
    | with_reducible apply evictPage_frame (ms (by decide) hm)
    | with_reducible apply modMig_frame (ms (by decide) hm)
    | with_reducible apply addWork_frame (ms (by decide) hm)
    | with_reducible apply Fr_ite2
    | with_reducible apply each_frame
    | split

theorem memFlush_frame {x0} {s : State} {m : Nat} {o : State} (hm : 32896 ||| m = m) (h : Fr m o s) : Fr m o (memFlush x0 s).2 := by
  unfold memFlush
  repeat'
    first
    | with_reducible assumption
    | (intro _)
    | (extract_lets +onlyGivenNames z; refine (fun (hz : Fr m o z) => ?_) ?_; clear_value z; revert z; intro y hy; rotate_left; dsimp only [z]; clear z)
    | (extract_lets +onlyGivenNames z; clear_value z; revert z; intro y)
    | with_reducible apply checked_frame (ms (by decide) hm)
    | with_reducible apply startPass_frame (ms (by decide) hm)
    | with_reducible apply addWork_frame (ms (by decide) hm)
    | with_reducible apply each_frame

theorem memMap_frame {x0} {s : State} {m : Nat} {o : State} (hm : 32896 ||| m = m) (h : Fr m o s) : FrP m o (memMap x0 s) := by
  unfold memMap
  repeat'
    first
    | with_reducible assumption
    | (intro _)
    | (extract_lets +onlyGivenNames z; clear_value z; revert z; intro y)
    | with_reducible apply chain_frame (ms (by decide) hm)
    | with_reducible apply addLeaf_frame (ms (by decide) hm)
    | with_reducible apply sharePage_frame (ms (by decide) hm)
    | with_reducible apply mapPage_frame (ms (by decide) hm)
    | with_reducible apply FrO_ite
    | with_reducible apply FrO_some
    | with_reducible apply FrP_some
    | with_reducible apply each_frame
    | with_reducible apply FrO_bind
    | with_reducible apply FrP_mapS
    | split

theorem memPin_frame {x0} {s : State} {m : Nat} {o : State} (hm : 32768 ||| m = m) (h : Fr m o s) : Fr m o (memPin x0 s).2 := by
  unfold memPin
  repeat'
    first
    | with_reducible assumption
    | (intro _)
    | (extract_lets +onlyGivenNames z; clear_value z; revert z; intro y)
    | with_reducible apply checked_frame (ms (by decide) hm)
    | with_reducible apply modPte_frame (ms (by decide) hm)
    | with_reducible apply each_frame

theorem memQuery_frame {x0} {s : State} {m : Nat} {o : State} (hm : 0 ||| m = m) (h : Fr m o s) : Fr m o (memQuery x0 s).2 := by
  unfold memQuery
  repeat'
    first
    | with_reducible assumption
    | (intro _)
    | (extract_lets +onlyGivenNames z; clear_value z; revert z; intro y)
    | with_reducible apply checked_frame (ms (by decide) hm)
    | with_reducible apply Fr_ite2

theorem memUnmap_frame {x0} {s : State} {m : Nat} {o : State} (hm : 32768 ||| m = m) (h : Fr m o s) : Fr m o (memUnmap x0 s).2 := by
  unfold memUnmap
  repeat'
    first
    | with_reducible assumption
    | (intro _)
    | (extract_lets +onlyGivenNames z; refine (fun (hz : Fr m o z) => ?_) ?_; clear_value z; revert z; intro y hy; rotate_left; dsimp only [z]; clear z)
    | (extract_lets +onlyGivenNames z; clear_value z; revert z; intro y)
    | with_reducible apply checked_frame (ms (by decide) hm)
    | with_reducible apply unmapPage_frame (ms (by decide) hm)
    | with_reducible apply addWork_frame (ms (by decide) hm)
    | with_reducible apply each_frame

theorem poisonQuery_frame {x0} {s : State} {m : Nat} {o : State} (hm : 0 ||| m = m) (h : Fr m o s) : Fr m o (poisonQuery x0 s).2 := by
  unfold poisonQuery
  repeat'
    first
    | with_reducible assumption

theorem policySet_frame {x0} {s : State} {m : Nat} {o : State} (hm : 32768 ||| m = m) (h : Fr m o s) : Fr m o (policySet x0 s).2 := by
  unfold policySet
  repeat'
    first
    | with_reducible assumption
    | (extract_lets +onlyGivenNames z; refine (fun (hz : Fr m o z) => ?_) ?_; clear_value z; revert z; intro y hy; rotate_left; dsimp only [z]; clear z)
    | (extract_lets +onlyGivenNames z; refine (fun (_ : z = (z : Mem)) => ?_) rfl; subst z)
    | (extract_lets +onlyGivenNames z; clear_value z; revert z; intro y)
    | simp -zeta only [Fr_mk]
    | (with_reducible apply Fr_tables (ms (by decide) hm) <;> try with_reducible rfl)
    | with_reducible apply checked_frame (ms (by decide) hm)
    | with_reducible apply modAcct_frame (ms (by decide) hm)

theorem quotaSet_frame {x0} {s : State} {m : Nat} {o : State} (hm : 32768 ||| m = m) (h : Fr m o s) : Fr m o (quotaSet x0 s).2 := by
  unfold quotaSet
  repeat'
    first
    | with_reducible assumption
    | (extract_lets +onlyGivenNames z; clear_value z; revert z; intro y)
    | with_reducible apply checked_frame (ms (by decide) hm)
    | with_reducible apply modAcct_frame (ms (by decide) hm)

theorem regionRegister_frame {x0} {s : State} {m : Nat} {o : State} (hm : 32768 ||| m = m) (h : Fr m o s) : Fr m o (regionRegister x0 s).2 := by
  unfold regionRegister
  repeat'
    first
    | with_reducible assumption
    | (extract_lets +onlyGivenNames z; refine (fun (_ : z = (z : Mem)) => ?_) rfl; subst z)
    | (extract_lets +onlyGivenNames z; clear_value z; revert z; intro y)
    | simp -zeta only [Fr_mk]
    | (with_reducible apply Fr_tables (ms (by decide) hm) <;> try with_reducible rfl)
    | with_reducible apply checked_frame (ms (by decide) hm)

theorem regionRemove_frame {x0} {s : State} {m : Nat} {o : State} (hm : 32768 ||| m = m) (h : Fr m o s) : Fr m o (regionRemove x0 s).2 := by
  unfold regionRemove
  repeat'
    first
    | with_reducible assumption
    | (extract_lets +onlyGivenNames z; refine (fun (_ : z = (z : Mem)) => ?_) rfl; subst z)
    | (extract_lets +onlyGivenNames z; clear_value z; revert z; intro y)
    | simp -zeta only [Fr_mk]
    | (with_reducible apply Fr_tables (ms (by decide) hm) <;> try with_reducible rfl)
    | with_reducible apply checked_frame (ms (by decide) hm)

theorem slowConfig_frame {x0} {s : State} {m : Nat} {o : State} (hm : 32768 ||| m = m) (h : Fr m o s) : Fr m o (slowConfig x0 s).2 := by
  unfold slowConfig
  repeat'
    first
    | with_reducible assumption
    | (extract_lets +onlyGivenNames z; refine (fun (_ : z = (z : Mem)) => ?_) rfl; subst z)
    | (extract_lets +onlyGivenNames z; clear_value z; revert z; intro y)
    | simp -zeta only [Fr_mk]
    | (with_reducible apply Fr_tables (ms (by decide) hm) <;> try with_reducible rfl)
    | with_reducible apply checked_frame (ms (by decide) hm)

theorem dropJobMoves_frame {x0} {s : State} {m : Nat} {o : State} (hm : 128 ||| m = m) (h : Fr m o s) : Fr m o (State.dropJobMoves x0 s) := by
  unfold State.dropJobMoves
  repeat'
    first
    | with_reducible assumption
    | (extract_lets +onlyGivenNames z; clear_value z; revert z; intro y)
    | simp -zeta only [Fr_mk]
    | with_reducible apply Fr_bud (ms (by decide) hm)

theorem jobOut_frame {x0} {x1} {s : State} {m : Nat} {o : State} (hm : 136 ||| m = m) (h : Fr m o s) : Fr m o (State.jobOut x0 x1 s) := by
  unfold State.jobOut
  repeat'
    first
    | with_reducible assumption
    | with_reducible apply charge_frame (ms (by decide) hm)
    | with_reducible apply emit_frame (ms (by decide) hm)

theorem putDva_frame {x0} {x1} {x2} {s : State} {m : Nat} {o : State} (hm : 122880 ||| m = m) (h : Fr m o s) : Fr m o (State.putDva x0 x1 x2 s) := by
  unfold State.putDva
  repeat'
    first
    | with_reducible assumption
    | with_reducible apply writeDva_frame (ms (by decide) hm)

theorem writeLedger_frame {x0} {x1} {s : State} {m : Nat} {o : State} (hm : 122880 ||| m = m) (h : Fr m o s) : Fr m o (State.writeLedger x0 x1 s) := by
  unfold State.writeLedger
  repeat'
    first
    | with_reducible assumption
    | (intro _)
    | with_reducible apply putDva_frame (ms (by decide) hm)
    | with_reducible apply Fr_ite

theorem sendLedger_frame {x0} {x1} {s : State} {m : Nat} {o : State} (hm : 123016 ||| m = m) (h : Fr m o s) : Fr m o (State.sendLedger x0 x1 s) := by
  unfold State.sendLedger
  repeat'
    first
    | with_reducible assumption
    | (extract_lets +onlyGivenNames z; clear_value z; revert z; intro y)
    | with_reducible apply jobOut_frame (ms (by decide) hm)
    | with_reducible apply charge_frame (ms (by decide) hm)
    | with_reducible apply writeLedger_frame (ms (by decide) hm)

theorem stateWrite_frame {x0} {x1} {x2} {s : State} {m : Nat} {o : State} (hm : 49152 ||| m = m) (h : Fr m o s) : Fr m o (State.stateWrite x0 x1 x2 s) := by
  unfold State.stateWrite
  repeat'
    first
    | with_reducible assumption
    | (extract_lets +onlyGivenNames z; clear_value z; revert z; intro y)
    | with_reducible apply slowWrite_frame (ms (by decide) hm)
    | with_reducible apply slowSpoil_frame (ms (by decide) hm)
    | split

theorem saveBucket_frame {x0} {x1} {s : State} {m : Nat} {o : State} (hm : 114816 ||| m = m) (h : Fr m o s) : Fr m o (State.saveBucket x0 x1 s) :=
  stateWrite_frame (ms (by decide) hm) (charge_frame (ms (by decide) hm) (readAll_frame (ms (by decide) hm) h))

theorem saveState_frame {x0} {s : State} {m : Nat} {o : State} (hm : 114816 ||| m = m) (h : Fr m o s) : Fr m o (State.saveState x0 s) := by
  unfold State.saveState
  repeat'
    first
    | with_reducible assumption
    | (intro _)
    | with_reducible apply saveBucket_frame (ms (by decide) hm)
    | with_reducible apply each_frame

theorem unpinState_frame {x0} {s : State} {m : Nat} {o : State} (hm : 32768 ||| m = m) (h : Fr m o s) : Fr m o (State.unpinState x0 s) := by
  unfold State.unpinState
  repeat'
    first
    | with_reducible assumption
    | (intro _)
    | with_reducible apply modFrame_frame (ms (by decide) hm)
    | with_reducible apply each_frame

theorem freeState_frame {x0} {s : State} {m : Nat} {o : State} (hm : 32896 ||| m = m) (h : Fr m o s) : Fr m o (State.freeState x0 s) := by
  unfold State.freeState
  repeat'
    first
    | with_reducible assumption
    | (intro _)
    | (extract_lets +onlyGivenNames z; clear_value z; revert z; intro y)
    | with_reducible apply zeroFrame_frame (ms (by decide) hm)
    | with_reducible apply modFrame_frame (ms (by decide) hm)
    | with_reducible apply modPte_frame (ms (by decide) hm)
    | with_reducible apply each_frame

theorem closeJob_frame {x0} {x1} {x2} {s : State} {m : Nat} {o : State} (hm : 35909000 ||| m = m) (h : Fr m o s) : Fr m o (State.closeJob x0 x1 x2 s) := by
  unfold State.closeJob
  repeat'
    first
    | with_reducible assumption
    | (intro _)
    | (extract_lets +onlyGivenNames z; refine (fun (hz : Fr m o z) => ?_) ?_; clear_value z; revert z; intro y hy; rotate_left; dsimp only [z]; clear z)
    | (extract_lets +onlyGivenNames z; clear_value z; revert z; intro y)
    | with_reducible apply endCourse_frame (ms (by decide) hm)
    | with_reducible apply dropJobMoves_frame (ms (by decide) hm)
    | with_reducible apply sendLedger_frame (ms (by decide) hm)
    | with_reducible apply saveState_frame (ms (by decide) hm)
    | with_reducible apply unpinState_frame (ms (by decide) hm)
    | with_reducible apply freeState_frame (ms (by decide) hm)
    | with_reducible apply modJob_frame (ms (by decide) hm)
    | with_reducible apply modWeaver_frame (ms (by decide) hm)
    | with_reducible apply record_frame (ms (by decide) hm)
    | with_reducible apply summarize_frame (ms (by decide) hm)
    | with_reducible apply Fr_ite
    | with_reducible apply each_frame
    | split

theorem copyWrite_frame {x0} {x1} {x2} {s : State} {m : Nat} {o : State} (hm : 40960 ||| m = m) (h : Fr m o s) : Fr m o (State.copyWrite x0 x1 x2 s) := by
  unfold State.copyWrite
  repeat'
    first
    | with_reducible assumption
    | with_reducible apply frameWrite_frame (ms (by decide) hm)
    | split

theorem endDescs_frame {x0} {x1} {s : State} {m : Nat} {o : State} (hm : 35651720 ||| m = m) (h : Fr m o s) : Fr m o (State.endDescs x0 x1 s) := by
  unfold State.endDescs
  repeat'
    first
    | with_reducible assumption
    | (intro _)
    | with_reducible apply closeDesc_frame (ms (by decide) hm)
    | with_reducible apply each_frame

theorem halt_frame {x0} {x1} {x2} {s : State} {m : Nat} {o : State} (hm : 36957576 ||| m = m) (h : Fr m o s) : Fr m o (State.halt x0 x1 x2 s) := by
  unfold State.halt
  repeat'
    first
    | with_reducible assumption
    | (intro _)
    | (extract_lets +onlyGivenNames z; refine (fun (hz : Fr m o z) => ?_) ?_; clear_value z; revert z; intro y hy; rotate_left; dsimp only [z]; clear z)
    | (extract_lets +onlyGivenNames z; clear_value z; revert z; intro y)
    | simp -zeta only [Fr_mk]
    | with_reducible apply Fr_bud_hoop_flt (ms (by decide) hm)
    | with_reducible apply journal_frame (ms (by decide) hm)
    | with_reducible apply endCourse_frame (ms (by decide) hm)
    | with_reducible apply endSeq_frame (ms (by decide) hm)
    | with_reducible apply closeJob_frame (ms (by decide) hm)
    | with_reducible apply endDescs_frame (ms (by decide) hm)
    | with_reducible apply Fr_ite
    | with_reducible apply each_frame

theorem loadState_frame {x0} {s : State} {m : Nat} {o : State} (hm : 254080 ||| m = m) (h : Fr m o s) : Fr m o (State.loadState x0 s) := by
  unfold State.loadState
  repeat'
    first
    | with_reducible assumption
    | (intro _)
    | (extract_lets +onlyGivenNames z; clear_value z; revert z; intro y)
    | with_reducible apply modJob_frame (ms (by decide) hm)
    | with_reducible apply charge_frame (ms (by decide) hm)
    | with_reducible apply putDva_frame (ms (by decide) hm)
    | with_reducible apply Fr_ite
    | with_reducible apply each_frame

theorem mapState_frame {x0} {x1} {s : State} {m : Nat} {o : State} (hm : 32768 ||| m = m) (h : Fr m o s) : FrO m o (State.mapState x0 x1 s) := by
  unfold State.mapState
  repeat'
    first
    | with_reducible assumption
    | (intro _)
    | (extract_lets +onlyGivenNames z; refine (fun (hz : Fr m o z) => ?_) ?_; clear_value z; revert z; intro y hy; rotate_left; dsimp only [z]; clear z)
    | (extract_lets +onlyGivenNames z; clear_value z; revert z; intro y)
    | with_reducible apply modPte_frame (ms (by decide) hm)
    | with_reducible apply takeFrame_frame (ms (by decide) hm)
    | with_reducible apply addLeaf_frame (ms (by decide) hm)
    | with_reducible apply FrO_ite
    | with_reducible exact FrO_none
    | with_reducible apply FrO_some
    | split

theorem zeroGrad_frame {x0} {x1} {s : State} {m : Nat} {o : State} (hm : 122880 ||| m = m) (h : Fr m o s) : Fr m o (State.zeroGrad x0 x1 s) := by
  unfold State.zeroGrad
  repeat'
    first
    | with_reducible assumption
    | with_reducible apply putDva_frame (ms (by decide) hm)

theorem openStep_frame {x0} {x1} {s : State} {m : Nat} {o : State} (hm : 33808384 ||| m = m) (h : Fr m o s) : Fr m o (State.openStep x0 x1 s) := by
  unfold State.openStep
  repeat'
    first
    | with_reducible assumption
    | (intro _)
    | (extract_lets +onlyGivenNames z; refine (fun (hz : Fr m o z) => ?_) ?_; clear_value z; revert z; intro y hy; rotate_left; dsimp only [z]; clear z)
    | (extract_lets +onlyGivenNames z; clear_value z; revert z; intro y)
    | with_reducible apply modBucket_frame (ms (by decide) hm)
    | with_reducible apply zeroGrad_frame (ms (by decide) hm)
    | with_reducible apply modJob_frame (ms (by decide) hm)
    | with_reducible apply polLimit_frame (ms (by decide) hm)
    | with_reducible apply Fr_ite
    | with_reducible apply each_frame

theorem reapJobs_frame {s : State} {m : Nat} {o : State} (hm : 35909000 ||| m = m) (h : Fr m o s) : Fr m o (State.reapJobs s) := by
  unfold State.reapJobs
  repeat'
    first
    | with_reducible assumption
    | (intro _)
    | with_reducible apply closeJob_frame (ms (by decide) hm)
    | with_reducible apply each_frame
    | split

theorem buffer_frame {x0} {x1} {x2} {s : State} {m : Nat} {o : State} (hm : 262152 ||| m = m) (h : Fr m o s) : Fr m o (State.buffer x0 x1 x2 s) := by
  unfold State.buffer
  repeat'
    first
    | with_reducible assumption
    | (intro _)
    | (extract_lets +onlyGivenNames z; refine (fun (hz : Fr m o z) => ?_) ?_; clear_value z; revert z; intro y hy; rotate_left; dsimp only [z]; clear z)
    | (extract_lets +onlyGivenNames z; clear_value z; revert z; intro y)
    | with_reducible apply modPort_frame (ms (by decide) hm)
    | with_reducible apply emit_frame (ms (by decide) hm)
    | with_reducible apply Fr_ite

theorem cxlIde_frame {x0} {x1} {s : State} {m : Nat} {o : State} (hm : 16777216 ||| m = m) (h : Fr m o s) : Fr m o (State.cxlIde x0 x1 s) := by
  unfold State.cxlIde
  repeat'
    first
    | with_reducible assumption
    | (intro _)
    | (extract_lets +onlyGivenNames z; clear_value z; revert z; intro y)
    | simp -zeta only [Fr_mk]
    | with_reducible apply Fr_lid (ms (by decide) hm)
    | with_reducible apply Fr_ite

theorem ethFrame_frame {x0} {x1} {x2} {s : State} {m : Nat} {o : State} (hm : 262152 ||| m = m) (h : Fr m o s) : Fr m o (State.ethFrame x0 x1 x2 s) := by
  unfold State.ethFrame
  repeat'
    first
    | with_reducible assumption
    | (intro _)
    | with_reducible apply modPort_frame (ms (by decide) hm)
    | with_reducible apply buffer_frame (ms (by decide) hm)
    | with_reducible apply Fr_ite
    | split

theorem setMacsec_frame {x0} {x1} {x2} {s : State} {m : Nat} {o : State} (hm : 17039360 ||| m = m) (h : Fr m o s) : Fr m o (State.setMacsec x0 x1 x2 s) := by
  unfold State.setMacsec
  repeat'
    first
    | with_reducible assumption
    | (intro _)
    | with_reducible apply measured_frame (ms (by decide) hm)
    | with_reducible apply modPort_frame (ms (by decide) hm)
    | with_reducible apply Fr_ite

theorem linkDown_frame {x0} {x1} {x2} {s : State} {m : Nat} {o : State} (hm : 1126957192 ||| m = m) (h : Fr m o s) : Fr m o (State.linkDown x0 x1 x2 s) := by
  unfold State.linkDown
  repeat'
    first
    | with_reducible assumption
    | (intro _)
    | (extract_lets +onlyGivenNames z; refine (fun (hz : Fr m o z) => ?_) ?_; clear_value z; revert z; intro y hy; rotate_left; dsimp only [z]; clear z)
    | simp -zeta only [Fr_mk]
    | with_reducible apply Fr_cxl (ms (by decide) hm)
    | with_reducible apply Fr_txHeld (ms (by decide) hm)
    | with_reducible apply journal_frame (ms (by decide) hm)
    | with_reducible apply modPort_frame (ms (by decide) hm)
    | with_reducible apply setMacsec_frame (ms (by decide) hm)
    | with_reducible apply Fr_ite

theorem linkUp_frame {x0} {x1} {x2} {s : State} {m : Nat} {o : State} (hm : 17563648 ||| m = m) (h : Fr m o s) : Fr m o (State.linkUp x0 x1 x2 s) := by
  unfold State.linkUp
  repeat'
    first
    | with_reducible assumption
    | (intro _)
    | (extract_lets +onlyGivenNames z; clear_value z; revert z; intro y)
    | simp -zeta only [Fr_mk]
    | with_reducible apply Fr_cxl_lid (ms (by decide) hm)
    | with_reducible apply modPort_frame (ms (by decide) hm)
    | with_reducible apply Fr_ite

theorem mka_frame {x0} {x1} {x2} {s : State} {m : Nat} {o : State} (hm : 17039360 ||| m = m) (h : Fr m o s) : Fr m o (State.mka x0 x1 x2 s) := by
  unfold State.mka
  repeat'
    first
    | with_reducible assumption
    | (intro _)
    | with_reducible apply modPort_frame (ms (by decide) hm)
    | with_reducible apply setMacsec_frame (ms (by decide) hm)
    | with_reducible apply Fr_ite
    | split

theorem pfcXon_frame {x0} {x1} {s : State} {m : Nat} {o : State} (hm : 262152 ||| m = m) (h : Fr m o s) : Fr m o (State.pfcXon x0 x1 s) := by
  unfold State.pfcXon
  repeat'
    first
    | with_reducible assumption
    | (intro _)
    | with_reducible apply emit_frame (ms (by decide) hm)
    | with_reducible apply modPort_frame (ms (by decide) hm)
    | with_reducible apply Fr_ite

theorem portOut_frame {x0} {x1} {x2} {x3} {s : State} {m : Nat} {o : State} (hm : 1073741832 ||| m = m) (h : Fr m o s) : Fr m o (State.portOut x0 x1 x2 x3 s) := by
  unfold State.portOut
  repeat'
    first
    | with_reducible assumption
    | (intro _)
    | simp -zeta only [Fr_mk]
    | with_reducible apply Fr_txHeld (ms (by decide) hm)
    | with_reducible apply emit_frame (ms (by decide) hm)
    | with_reducible apply Fr_ite

theorem releaseHeld_frame {x0} {x1} {s : State} {m : Nat} {o : State} (hm : 1073741832 ||| m = m) (h : Fr m o s) : Fr m o (State.releaseHeld x0 x1 s) := by
  unfold State.releaseHeld
  repeat'
    first
    | with_reducible assumption
    | (intro _)
    | (extract_lets +onlyGivenNames z; clear_value z; revert z; intro y)
    | simp -zeta only [Fr_mk]
    | with_reducible apply Fr_txHeld (ms (by decide) hm)
    | with_reducible apply portOut_frame (ms (by decide) hm)
    | with_reducible apply each_frame

theorem reply_frame {x0} {x1} {x2} {s : State} {m : Nat} {o : State} (hm : 1073741832 ||| m = m) (h : Fr m o s) : Fr m o (State.reply x0 x1 x2 s) := by
  unfold State.reply
  repeat'
    first
    | with_reducible assumption
    | (intro _)
    | with_reducible apply portOut_frame (ms (by decide) hm)
    | with_reducible apply Fr_ite
    | split

theorem twineOut_frame {x0} {x1} {x2} {x3} {x4} {s : State} {m : Nat} {o : State} (hm : 1073741832 ||| m = m) (h : Fr m o s) : Fr m o (State.twineOut x0 x1 x2 x3 x4 s) := by
  unfold State.twineOut
  repeat'
    first
    | with_reducible assumption
    | (extract_lets +onlyGivenNames z; clear_value z; revert z; intro y)
    | with_reducible apply portOut_frame (ms (by decide) hm)

theorem ackTo_frame {x0} {x1} {s : State} {m : Nat} {o : State} (hm : 2097160 ||| m = m) (h : Fr m o s) : Fr m o (State.ackTo x0 x1 s) := by
  unfold State.ackTo
  repeat'
    first
    | with_reducible assumption
    | (intro _)
    | (extract_lets +onlyGivenNames z; refine (fun (hz : Fr m o z) => ?_) ?_; clear_value z; revert z; intro y hy; rotate_left; dsimp only [z]; clear z)
    | (extract_lets +onlyGivenNames z; clear_value z; revert z; intro y)
    | with_reducible apply modFlow_frame (ms (by decide) hm)
    | with_reducible apply emit_frame (ms (by decide) hm)
    | with_reducible apply each_frame

theorem endFlow_frame {x0} {x1} {s : State} {m : Nat} {o : State} (hm : 2359304 ||| m = m) (h : Fr m o s) : Fr m o (State.endFlow x0 x1 s) := by
  unfold State.endFlow
  repeat'
    first
    | with_reducible assumption
    | (intro _)
    | (extract_lets +onlyGivenNames z; refine (fun (hz : Fr m o z) => ?_) ?_; clear_value z; revert z; intro y hy; rotate_left; dsimp only [z]; clear z)
    | (extract_lets +onlyGivenNames z; clear_value z; revert z; intro y)
    | with_reducible apply emit_frame (ms (by decide) hm)
    | with_reducible apply modPort_frame (ms (by decide) hm)
    | with_reducible apply modQp_frame (ms (by decide) hm)
    | with_reducible apply modFlow_frame (ms (by decide) hm)
    | with_reducible apply Fr_ite
    | with_reducible apply each_frame

theorem waleOut_frame {x0} {x1} {x2} {s : State} {m : Nat} {o : State} (hm : 1073741960 ||| m = m) (h : Fr m o s) : Fr m o (State.waleOut x0 x1 x2 s) := by
  unfold State.waleOut
  repeat'
    first
    | with_reducible assumption
    | (extract_lets +onlyGivenNames z; clear_value z; revert z; intro y)
    | with_reducible apply charge_frame (ms (by decide) hm)
    | with_reducible apply portOut_frame (ms (by decide) hm)

theorem closeFlow_frame {x0} {x1} {s : State} {m : Nat} {o : State} (hm : 1076101256 ||| m = m) (h : Fr m o s) : Fr m o (State.closeFlow x0 x1 s) := by
  unfold State.closeFlow
  repeat'
    first
    | with_reducible assumption
    | (intro _)
    | (extract_lets +onlyGivenNames z; clear_value z; revert z; intro y)
    | with_reducible apply endFlow_frame (ms (by decide) hm)
    | with_reducible apply waleOut_frame (ms (by decide) hm)
    | with_reducible apply Fr_ite

theorem closeKeyFlows_frame {x0} {s : State} {m : Nat} {o : State} (hm : 1076101256 ||| m = m) (h : Fr m o s) : Fr m o (State.closeKeyFlows x0 s) := by
  unfold State.closeKeyFlows
  repeat'
    first
    | with_reducible assumption
    | (intro _)
    | with_reducible apply closeFlow_frame (ms (by decide) hm)
    | with_reducible apply Fr_ite
    | with_reducible apply each_frame

theorem pump_frame {x0} {x1} {s : State} {m : Nat} {o : State} (hm : 1075839112 ||| m = m) (h : Fr m o s) : Fr m o (State.pump x0 x1 s) := by
  induction x0 generalizing s with
  | zero => exact h
  | succ k ih =>
    rw [State.pump]
    refine Fr_ite (fun _ => h) fun _ => ?_
    split
    · exact h
    · exact ih (modFlow_frame (ms (by decide) hm) (waleOut_frame (ms (by decide) hm) h))

theorem enqueue_frame {x0} {x1} {s : State} {m : Nat} {o : State} (hm : 1076101256 ||| m = m) (h : Fr m o s) : Fr m o (State.enqueue x0 x1 s) := by
  unfold State.enqueue
  repeat'
    first
    | with_reducible assumption
    | (intro _)
    | (extract_lets +onlyGivenNames z; clear_value z; revert z; intro y)
    | with_reducible apply closeFlow_frame (ms (by decide) hm)
    | with_reducible apply pump_frame (ms (by decide) hm)
    | with_reducible apply modFlow_frame (ms (by decide) hm)
    | with_reducible apply Fr_ite

theorem pfcFrame_frame {x0} {x1} {x2} {s : State} {m : Nat} {o : State} (hm : 1076101256 ||| m = m) (h : Fr m o s) : Fr m o (State.pfcFrame x0 x1 x2 s) := by
  unfold State.pfcFrame
  repeat'
    first
    | with_reducible assumption
    | (intro _)
    | (extract_lets +onlyGivenNames z; refine (fun (hz : Fr m o z) => ?_) ?_; clear_value z; revert z; intro y hy; rotate_left; dsimp only [z]; clear z)
    | with_reducible apply modPort_frame (ms (by decide) hm)
    | with_reducible apply pump_frame (ms (by decide) hm)
    | with_reducible apply releaseHeld_frame (ms (by decide) hm)
    | with_reducible apply Fr_ite
    | with_reducible apply each_frame

theorem resend_frame {x0} {s : State} {m : Nat} {o : State} (hm : 1076101256 ||| m = m) (h : Fr m o s) : Fr m o (State.resend x0 s) := by
  unfold State.resend
  repeat'
    first
    | with_reducible assumption
    | (intro _)
    | (extract_lets +onlyGivenNames z; refine (fun (hz : Fr m o z) => ?_) ?_; clear_value z; revert z; intro y hy; rotate_left; dsimp only [z]; clear z)
    | (extract_lets +onlyGivenNames z; clear_value z; revert z; intro y)
    | with_reducible apply closeFlow_frame (ms (by decide) hm)
    | with_reducible apply modFlow_frame (ms (by decide) hm)
    | with_reducible apply modPort_frame (ms (by decide) hm)
    | with_reducible apply waleOut_frame (ms (by decide) hm)
    | with_reducible apply Fr_ite
    | with_reducible apply each_frame
    | split

theorem sendAck_frame {x0} {s : State} {m : Nat} {o : State} (hm : 1075839112 ||| m = m) (h : Fr m o s) : Fr m o (State.sendAck x0 s) := by
  unfold State.sendAck
  repeat'
    first
    | with_reducible assumption
    | (extract_lets +onlyGivenNames z; clear_value z; revert z; intro y)
    | with_reducible apply modFlow_frame (ms (by decide) hm)
    | with_reducible apply waleOut_frame (ms (by decide) hm)

theorem waleAck_frame {x0} {x1} {s : State} {m : Nat} {o : State} (hm : 1075839112 ||| m = m) (h : Fr m o s) : Fr m o (State.waleAck x0 x1 s) := by
  unfold State.waleAck
  repeat'
    first
    | with_reducible assumption
    | (intro _)
    | (extract_lets +onlyGivenNames z; refine (fun (hz : Fr m o z) => ?_) ?_; clear_value z; revert z; intro y hy; rotate_left; dsimp only [z]; clear z)
    | with_reducible apply ackTo_frame (ms (by decide) hm)
    | with_reducible apply pump_frame (ms (by decide) hm)
    | with_reducible apply modFlow_frame (ms (by decide) hm)
    | with_reducible apply Fr_ite
    | split

theorem waleClose_frame {x0} {x1} {s : State} {m : Nat} {o : State} (hm : 2359304 ||| m = m) (h : Fr m o s) : Fr m o (State.waleClose x0 x1 s) := by
  unfold State.waleClose
  repeat'
    first
    | with_reducible assumption
    | (intro _)
    | (extract_lets +onlyGivenNames z; clear_value z; revert z; intro y)
    | with_reducible apply modFlow_frame (ms (by decide) hm)
    | with_reducible apply endFlow_frame (ms (by decide) hm)
    | with_reducible apply Fr_ite

theorem waleData_frame {x0} {x1} {s : State} {m : Nat} {o : State} (hm : 1076101256 ||| m = m) (h : Fr m o s) : Fr m o (State.waleData x0 x1 s) := by
  unfold State.waleData
  repeat'
    first
    | with_reducible assumption
    | (intro _)
    | (extract_lets +onlyGivenNames z; refine (fun (hz : Fr m o z) => ?_) ?_; clear_value z; revert z; intro y hy; rotate_left; dsimp only [z]; clear z)
    | (extract_lets +onlyGivenNames z; clear_value z; revert z; intro y)
    | with_reducible apply modPort_frame (ms (by decide) hm)
    | with_reducible apply charge_frame (ms (by decide) hm)
    | with_reducible apply modFlow_frame (ms (by decide) hm)
    | with_reducible apply waleOut_frame (ms (by decide) hm)
    | with_reducible apply sendAck_frame (ms (by decide) hm)
    | with_reducible apply Fr_ite
    | split

theorem waleNak_frame {x0} {x1} {s : State} {m : Nat} {o : State} (hm : 1076101256 ||| m = m) (h : Fr m o s) : Fr m o (State.waleNak x0 x1 s) := by
  unfold State.waleNak
  repeat'
    first
    | with_reducible assumption
    | (intro _)
    | (extract_lets +onlyGivenNames z; refine (fun (hz : Fr m o z) => ?_) ?_; clear_value z; revert z; intro y hy; rotate_left; dsimp only [z]; clear z)
    | with_reducible apply ackTo_frame (ms (by decide) hm)
    | with_reducible apply resend_frame (ms (by decide) hm)
    | with_reducible apply modFlow_frame (ms (by decide) hm)
    | with_reducible apply Fr_ite
    | split

theorem waleOpen_frame {x0} {x1} {s : State} {m : Nat} {o : State} (hm : 1075839116 ||| m = m) (h : Fr m o s) : Fr m o (State.waleOpen x0 x1 s) := by
  unfold State.waleOpen
  repeat'
    first
    | with_reducible assumption
    | (intro _)
    | (extract_lets +onlyGivenNames z; refine (fun (hz : Fr m o z) => ?_) ?_; clear_value z; revert z; intro y hy; rotate_left; dsimp only [z]; clear z)
    | (extract_lets +onlyGivenNames z; refine (fun (hz : Fr m o z.2) => ?_) ?_; clear_value z; revert z; intro y hy; rotate_left; dsimp only [z]; clear z)
    | (extract_lets +onlyGivenNames z; refine (fun (hz : ∀ a, Fr m o (z a)) => ?_) ?_; clear_value z; revert z; intro y hy; rotate_left; dsimp only [z]; clear z)
    | (extract_lets +onlyGivenNames z; clear_value z; revert z; intro y)
    | with_reducible apply waleOut_frame (ms (by decide) hm)
    | with_reducible apply fresh_frame (ms (by decide) hm)
    | with_reducible apply modQp_frame (ms (by decide) hm)
    | with_reducible apply modFlow_frame (ms (by decide) hm)
    | with_reducible apply Fr_ite
    | split
    | with_reducible apply_assumption

theorem waleOpenAck_frame {x0} {x1} {s : State} {m : Nat} {o : State} (hm : 1075839112 ||| m = m) (h : Fr m o s) : Fr m o (State.waleOpenAck x0 x1 s) := by
  unfold State.waleOpenAck
  repeat'
    first
    | with_reducible assumption
    | (intro _)
    | (extract_lets +onlyGivenNames z; clear_value z; revert z; intro y)
    | with_reducible apply pump_frame (ms (by decide) hm)
    | with_reducible apply modFlow_frame (ms (by decide) hm)
    | with_reducible apply Fr_ite

theorem walePass_frame {s : State} {m : Nat} {o : State} (hm : 1075839112 ||| m = m) (h : Fr m o s) : Fr m o (State.walePass s) := by
  unfold State.walePass
  repeat'
    first
    | with_reducible assumption
    | (intro _)
    | (extract_lets +onlyGivenNames z; clear_value z; revert z; intro y)
    | with_reducible apply waleOut_frame (ms (by decide) hm)
    | with_reducible apply modFlow_frame (ms (by decide) hm)
    | with_reducible apply pump_frame (ms (by decide) hm)
    | with_reducible apply Fr_ite
    | with_reducible apply each_frame

theorem waleSend_frame {x0} {x1} {x2} {x3} {x4} {s : State} {m : Nat} {o : State} (hm : 1076101260 ||| m = m) (h : Fr m o s) : Fr m o (State.waleSend x0 x1 x2 x3 x4 s) := by
  unfold State.waleSend
  repeat'
    first
    | with_reducible assumption
    | (extract_lets +onlyGivenNames z; refine (fun (hz : Fr m o z) => ?_) ?_; clear_value z; revert z; intro y hy; rotate_left; dsimp only [z]; clear z)
    | (extract_lets +onlyGivenNames z; refine (fun (hz : Fr m o z.2) => ?_) ?_; clear_value z; revert z; intro y hy; rotate_left; dsimp only [z]; clear z)
    | (extract_lets +onlyGivenNames z; clear_value z; revert z; intro y)
    | with_reducible apply enqueue_frame (ms (by decide) hm)
    | with_reducible apply fresh_frame (ms (by decide) hm)
    | with_reducible apply modQp_frame (ms (by decide) hm)
    | with_reducible apply modFlow_frame (ms (by decide) hm)
    | with_reducible apply waleOut_frame (ms (by decide) hm)
    | split

theorem backCopy_frame {x0} {s : State} {m : Nat} {o : State} (hm : 32896 ||| m = m) (h : Fr m o s) : Fr m o (State.backCopy x0 s) := by
  unfold State.backCopy
  repeat'
    first
    | with_reducible assumption
    | (intro _)
    | (extract_lets +onlyGivenNames z; refine (fun (hz : Fr m o z) => ?_) ?_; clear_value z; revert z; intro y hy; rotate_left; dsimp only [z]; clear z)
    | (extract_lets +onlyGivenNames z; clear_value z; revert z; intro y)
    | with_reducible apply modFrame_frame (ms (by decide) hm)
    | with_reducible apply endMove_frame (ms (by decide) hm)
    | with_reducible apply each_frame

theorem applyPublish_frame {x0} {s : State} {m : Nat} {o : State} (hm : 35909000 ||| m = m) (h : Fr m o s) : Fr m o (State.applyPublish x0 s) := by
  unfold State.applyPublish
  repeat'
    first
    | with_reducible assumption
    | (intro _)
    | (extract_lets +onlyGivenNames z; refine (fun (hz : Fr m o z) => ?_) ?_; clear_value z; revert z; intro y hy; rotate_left; dsimp only [z]; clear z)
    | (extract_lets +onlyGivenNames z; clear_value z; revert z; intro y)
    | simp -zeta only [Fr_mk]
    | with_reducible apply Fr_train (ms (by decide) hm)
    | with_reducible apply closeJob_frame (ms (by decide) hm)
    | with_reducible apply backCopy_frame (ms (by decide) hm)
    | with_reducible apply modWeaver_frame (ms (by decide) hm)
    | with_reducible apply modJob_frame (ms (by decide) hm)
    | with_reducible apply saveState_frame (ms (by decide) hm)
    | with_reducible apply sendLedger_frame (ms (by decide) hm)
    | with_reducible apply openStep_frame (ms (by decide) hm)
    | with_reducible apply Fr_ite
    | split

theorem writeSums_frame {x0} {x1} {x2} {x3} {s : State} {m : Nat} {o : State} (hm : 122880 ||| m = m) (h : Fr m o s) : Fr m o (State.writeSums x0 x1 x2 x3 s) := by
  unfold State.writeSums
  repeat'
    first
    | with_reducible assumption
    | (extract_lets +onlyGivenNames z; clear_value z; revert z; intro y)
    | with_reducible apply putDva_frame (ms (by decide) hm)

theorem writeShard_frame {x0} {x1} {x2} {x3} {s : State} {m : Nat} {o : State} (hm : 40960 ||| m = m) (h : Fr m o s) : Fr m o (State.writeShard x0 x1 x2 x3 s) := by
  unfold State.writeShard
  repeat'
    first
    | with_reducible assumption
    | (intro _)
    | (extract_lets +onlyGivenNames z; clear_value z; revert z; intro y)
    | with_reducible apply copyWrite_frame (ms (by decide) hm)
    | with_reducible apply each_frame
    | split

theorem shardOut_frame {x0} {x1} {x2} {x3} {s : State} {m : Nat} {o : State} (hm : 1076101260 ||| m = m) (h : Fr m o s) : Fr m o (State.shardOut x0 x1 x2 x3 s) := by
  unfold State.shardOut
  repeat'
    first
    | with_reducible assumption
    | (extract_lets +onlyGivenNames z; clear_value z; revert z; intro y)
    | with_reducible apply waleSend_frame (ms (by decide) hm)
    | with_reducible apply charge_frame (ms (by decide) hm)
    | with_reducible apply emit_frame (ms (by decide) hm)

theorem checkClosed_frame {x0} {x1} {s : State} {m : Nat} {o : State} (hm : 253952 ||| m = m) (h : Fr m o s) : Fr m o (State.checkClosed x0 x1 s) := by
  unfold State.checkClosed
  repeat'
    first
    | with_reducible assumption
    | (intro _)
    | (extract_lets +onlyGivenNames z; refine (fun (hz : Fr m o z) => ?_) ?_; clear_value z; revert z; intro y hy; rotate_left; dsimp only [z]; clear z)
    | (extract_lets +onlyGivenNames z; clear_value z; revert z; intro y)
    | with_reducible apply modBucket_frame (ms (by decide) hm)
    | with_reducible apply modJob_frame (ms (by decide) hm)
    | with_reducible apply zeroGrad_frame (ms (by decide) hm)
    | with_reducible apply Fr_ite

theorem tryUpdate_frame {x0} {x1} {s : State} {m : Nat} {o : State} (hm : 1109912972 ||| m = m) (h : Fr m o s) : Fr m o (State.tryUpdate x0 x1 s) := by
  unfold State.tryUpdate
  repeat'
    first
    | with_reducible assumption
    | (intro _)
    | (extract_lets +onlyGivenNames z; refine (fun (hz : Fr m o z) => ?_) ?_; clear_value z; revert z; intro y hy; rotate_left; dsimp only [z]; clear z)
    | (extract_lets +onlyGivenNames z; refine (fun (hz : Fr m o z.2) => ?_) ?_; clear_value z; revert z; intro y hy; rotate_left; dsimp only [z]; clear z)
    | (extract_lets +onlyGivenNames z; clear_value z; revert z; intro y)
    | with_reducible apply readAll_frame (ms (by decide) hm)
    | with_reducible apply uWaits_frame (ms (by decide) hm)
    | with_reducible apply closeJob_frame (ms (by decide) hm)
    | with_reducible apply pushMove_frame (ms (by decide) hm)
    | with_reducible apply modBucket_frame (ms (by decide) hm)
    | with_reducible apply putDva_frame (ms (by decide) hm)
    | with_reducible apply writeShard_frame (ms (by decide) hm)
    | with_reducible apply modWeaver_frame (ms (by decide) hm)
    | with_reducible apply shardOut_frame (ms (by decide) hm)
    | with_reducible apply checkClosed_frame (ms (by decide) hm)
    | with_reducible apply Fr_ite
    | with_reducible apply each_frame
    | split

theorem applyVerdict_frame {x0} {x1} {x2} {s : State} {m : Nat} {o : State} (hm : 1109912972 ||| m = m) (h : Fr m o s) : Fr m o (State.applyVerdict x0 x1 x2 s) := by
  unfold State.applyVerdict
  repeat'
    first
    | with_reducible assumption
    | (intro _)
    | (extract_lets +onlyGivenNames z; refine (fun (hz : Fr m o z) => ?_) ?_; clear_value z; revert z; intro y hy; rotate_left; dsimp only [z]; clear z)
    | (extract_lets +onlyGivenNames z; clear_value z; revert z; intro y)
    | with_reducible apply modJob_frame (ms (by decide) hm)
    | with_reducible apply modBucket_frame (ms (by decide) hm)
    | with_reducible apply closeJob_frame (ms (by decide) hm)
    | with_reducible apply writeSums_frame (ms (by decide) hm)
    | with_reducible apply tryUpdate_frame (ms (by decide) hm)
    | with_reducible apply Fr_ite
    | with_reducible apply each_frame
    | with_reducible apply elim_frame
    | split

theorem runJob_frame {x0} {x1} {s : State} {m : Nat} {o : State} (hm : 1107552392 ||| m = m) (h : Fr m o s) : Fr m o (State.runJob x0 x1 s) := by
  unfold State.runJob
  repeat'
    first
    | with_reducible assumption
    | (intro _)
    | (extract_lets +onlyGivenNames z; refine (fun (hz : Fr m o z) => ?_) ?_; clear_value z; revert z; intro y hy; rotate_left; dsimp only [z]; clear z)
    | with_reducible apply modJob_frame (ms (by decide) hm)
    | with_reducible apply demand_frame (ms (by decide) hm)
    | with_reducible apply modWeaver_frame (ms (by decide) hm)
    | with_reducible apply openStep_frame (ms (by decide) hm)
    | with_reducible apply loadState_frame (ms (by decide) hm)
    | with_reducible apply twineOut_frame (ms (by decide) hm)
    | with_reducible apply each_frame

theorem beginJob_frame {x0} {x1} {s : State} {m : Nat} {o : State} (hm : 1107552392 ||| m = m) (h : Fr m o s) : FrO m o (State.beginJob x0 x1 s) := by
  unfold State.beginJob
  repeat'
    first
    | with_reducible assumption
    | (intro _)
    | (extract_lets +onlyGivenNames z; clear_value z; revert z; intro y)
    | with_reducible apply runJob_frame (ms (by decide) hm)
    | with_reducible apply chain_frame (ms (by decide) hm)
    | with_reducible apply mapState_frame (ms (by decide) hm)
    | with_reducible apply FrO_mapS

theorem bucketLate_frame {x0} {x1} {s : State} {m : Nat} {o : State} (hm : 131072 ||| m = m) (h : Fr m o s) : Fr m o (State.bucketLate x0 x1 s) := by
  unfold State.bucketLate
  repeat'
    first
    | with_reducible assumption
    | (intro _)
    | (extract_lets +onlyGivenNames z; clear_value z; revert z; intro y)
    | with_reducible apply modJob_frame (ms (by decide) hm)
    | with_reducible apply modBucket_frame (ms (by decide) hm)
    | with_reducible apply Fr_ite
    | split

theorem twnCount_frame {x0} {x1} {s : State} {m : Nat} {o : State} (hm : 131072 ||| m = m) (h : Fr m o s) : Fr m o (State.twnCount x0 x1 s) := by
  unfold State.twnCount
  repeat'
    first
    | with_reducible assumption
    | (extract_lets +onlyGivenNames z; clear_value z; revert z; intro y)
    | simp -zeta only [Fr_mk]
    | with_reducible apply Fr_train (ms (by decide) hm)

theorem sendPiece_frame {x0} {x1} {x2} {x3} {s : State} {m : Nat} {o : State} (hm : 1073971208 ||| m = m) (h : Fr m o s) : Fr m o (State.sendPiece x0 x1 x2 x3 s) := by
  unfold State.sendPiece
  repeat'
    first
    | with_reducible assumption
    | (intro _)
    | (extract_lets +onlyGivenNames z; refine (fun (hz : Fr m o z) => ?_) ?_; clear_value z; revert z; intro y hy; rotate_left; dsimp only [z]; clear z)
    | (extract_lets +onlyGivenNames z; clear_value z; revert z; intro y)
    | with_reducible apply twineOut_frame (ms (by decide) hm)
    | with_reducible apply twnCount_frame (ms (by decide) hm)
    | with_reducible apply Fr_ite
    | with_reducible apply each_frame

theorem ringDone_frame {x0} {x1} {x2} {x3} {s : State} {m : Nat} {o : State} (hm : 253952 ||| m = m) (h : Fr m o s) : Fr m o (State.ringDone x0 x1 x2 x3 s) := by
  unfold State.ringDone
  repeat'
    first
    | with_reducible assumption
    | (intro _)
    | (extract_lets +onlyGivenNames z; refine (fun (hz : Fr m o z) => ?_) ?_; clear_value z; revert z; intro y hy; rotate_left; dsimp only [z]; clear z)
    | (extract_lets +onlyGivenNames z; clear_value z; revert z; intro y)
    | with_reducible apply modBucket_frame (ms (by decide) hm)
    | with_reducible apply writeSums_frame (ms (by decide) hm)
    | with_reducible apply Fr_ite

theorem startRing_frame {x0} {x1} {x2} {x3} {s : State} {m : Nat} {o : State} (hm : 253960 ||| m = m) (h : Fr m o s) : Fr m o (State.startRing x0 x1 x2 x3 s) := by
  unfold State.startRing
  repeat'
    first
    | with_reducible assumption
    | (intro _)
    | (extract_lets +onlyGivenNames z; clear_value z; revert z; intro y)
    | with_reducible apply ringDone_frame (ms (by decide) hm)
    | with_reducible apply emit_frame (ms (by decide) hm)
    | with_reducible apply Fr_ite

theorem sendVerdict_frame {x0} {x1} {x2} {x3} {s : State} {m : Nat} {o : State} (hm : 1109912972 ||| m = m) (h : Fr m o s) : Fr m o (State.sendVerdict x0 x1 x2 x3 s) := by
  unfold State.sendVerdict
  repeat'
    first
    | with_reducible assumption
    | (intro _)
    | (extract_lets +onlyGivenNames z; refine (fun (hz : Fr m o z) => ?_) ?_; clear_value z; revert z; intro y hy; rotate_left; dsimp only [z]; clear z)
    | (extract_lets +onlyGivenNames z; clear_value z; revert z; intro y)
    | with_reducible apply jobOut_frame (ms (by decide) hm)
    | with_reducible apply applyVerdict_frame (ms (by decide) hm)
    | with_reducible apply modBucket_frame (ms (by decide) hm)
    | with_reducible apply closeJob_frame (ms (by decide) hm)
    | with_reducible apply Fr_ite
    | split

theorem settleBucket_frame {x0} {x1} {x2} {s : State} {m : Nat} {o : State} (hm : 1109912972 ||| m = m) (h : Fr m o s) : Fr m o (State.settleBucket x0 x1 x2 s) := by
  unfold State.settleBucket
  repeat'
    first
    | with_reducible assumption
    | (intro _)
    | (extract_lets +onlyGivenNames z; refine (fun (hz : Fr m o z) => ?_) ?_; clear_value z; revert z; intro y hy; rotate_left; dsimp only [z]; clear z)
    | (extract_lets +onlyGivenNames z; clear_value z; revert z; intro y)
    | with_reducible apply modBucket_frame (ms (by decide) hm)
    | with_reducible apply closeJob_frame (ms (by decide) hm)
    | with_reducible apply sendVerdict_frame (ms (by decide) hm)
    | with_reducible apply modJob_frame (ms (by decide) hm)
    | with_reducible apply journal_frame (ms (by decide) hm)
    | with_reducible apply twineOut_frame (ms (by decide) hm)
    | with_reducible apply Fr_ite
    | with_reducible apply each_frame

theorem leadReport_frame {x0} {x1} {s : State} {m : Nat} {o : State} (hm : 1109912972 ||| m = m) (h : Fr m o s) : Fr m o (State.leadReport x0 x1 s) := by
  unfold State.leadReport
  repeat'
    first
    | with_reducible assumption
    | (intro _)
    | (extract_lets +onlyGivenNames z; refine (fun (hz : Fr m o z) => ?_) ?_; clear_value z; revert z; intro y hy; rotate_left; dsimp only [z]; clear z)
    | (extract_lets +onlyGivenNames z; clear_value z; revert z; intro y)
    | with_reducible apply modJob_frame (ms (by decide) hm)
    | with_reducible apply settleBucket_frame (ms (by decide) hm)
    | with_reducible apply modBucket_frame (ms (by decide) hm)
    | with_reducible apply Fr_ite

theorem tryReport_frame {x0} {x1} {s : State} {m : Nat} {o : State} (hm : 1109912972 ||| m = m) (h : Fr m o s) : Fr m o (State.tryReport x0 x1 s) := by
  unfold State.tryReport
  repeat'
    first
    | with_reducible assumption
    | (intro _)
    | (extract_lets +onlyGivenNames z; refine (fun (hz : Fr m o z) => ?_) ?_; clear_value z; revert z; intro y hy; rotate_left; dsimp only [z]; clear z)
    | (extract_lets +onlyGivenNames z; clear_value z; revert z; intro y)
    | with_reducible apply modBucket_frame (ms (by decide) hm)
    | with_reducible apply leadReport_frame (ms (by decide) hm)
    | with_reducible apply jobOut_frame (ms (by decide) hm)
    | with_reducible apply Fr_ite

theorem bucketSend_frame {x0} {x1} {s : State} {m : Nat} {o : State} (hm : 1109912972 ||| m = m) (h : Fr m o s) : Fr m o (State.bucketSend x0 x1 s) := by
  unfold State.bucketSend
  repeat'
    first
    | with_reducible assumption
    | (intro _)
    | (extract_lets +onlyGivenNames z; refine (fun (hz : Fr m o z) => ?_) ?_; clear_value z; revert z; intro y hy; rotate_left; dsimp only [z]; clear z)
    | (extract_lets +onlyGivenNames z; refine (fun (hz : Fr m o z.2) => ?_) ?_; clear_value z; revert z; intro y hy; rotate_left; dsimp only [z]; clear z)
    | (extract_lets +onlyGivenNames z; clear_value z; revert z; intro y)
    | with_reducible apply readAll_frame (ms (by decide) hm)
    | with_reducible apply uWaits_frame (ms (by decide) hm)
    | with_reducible apply closeJob_frame (ms (by decide) hm)
    | with_reducible apply pushMove_frame (ms (by decide) hm)
    | with_reducible apply modBucket_frame (ms (by decide) hm)
    | with_reducible apply sendPiece_frame (ms (by decide) hm)
    | with_reducible apply startRing_frame (ms (by decide) hm)
    | with_reducible apply tryReport_frame (ms (by decide) hm)
    | with_reducible apply Fr_ite
    | with_reducible apply each_frame
    | split

theorem leadHeard_frame {x0} {s : State} {m : Nat} {o : State} (hm : 131072 ||| m = m) (h : Fr m o s) : Fr m o (State.leadHeard x0 s) := by
  unfold State.leadHeard
  repeat'
    first
    | with_reducible assumption
    | with_reducible apply modJob_frame (ms (by decide) hm)

theorem learnStep_frame {x0} {s : State} {m : Nat} {o : State} (hm : 1107552392 ||| m = m) (h : Fr m o s) : Fr m o (State.learnStep x0 s) := by
  unfold State.learnStep
  repeat'
    first
    | with_reducible assumption
    | (intro _)
    | (extract_lets +onlyGivenNames z; refine (fun (hz : Fr m o z) => ?_) ?_; clear_value z; revert z; intro y hy; rotate_left; dsimp only [z]; clear z)
    | (extract_lets +onlyGivenNames z; refine (fun (hz : ∀ a t, Fr m o t → Fr m o (z a t)) => ?_) ?_; clear_value z; revert z; intro y hy; rotate_left; dsimp only [z]; clear z)
    | (extract_lets +onlyGivenNames z; clear_value z; revert z; intro y)
    | simp -zeta only [Fr_mk]
    | with_reducible apply Fr_train (ms (by decide) hm)
    | with_reducible apply beginJob_frame (ms (by decide) hm)
    | with_reducible apply Fr_ite
    | with_reducible apply elim_frameS
    | with_reducible apply_assumption

theorem memberSilence_frame {x0} {x1} {s : State} {m : Nat} {o : State} (hm : 35909000 ||| m = m) (h : Fr m o s) : Fr m o (State.memberSilence x0 x1 s) := by
  unfold State.memberSilence
  repeat'
    first
    | with_reducible assumption
    | (intro _)
    | (extract_lets +onlyGivenNames z; clear_value z; revert z; intro y)
    | with_reducible apply closeJob_frame (ms (by decide) hm)
    | with_reducible apply Fr_ite
    | split

theorem pieceLost_frame {x0} {x1} {x2} {s : State} {m : Nat} {o : State} (hm : 1109912972 ||| m = m) (h : Fr m o s) : Fr m o (State.pieceLost x0 x1 x2 s) := by
  unfold State.pieceLost
  repeat'
    first
    | with_reducible assumption
    | (intro _)
    | (extract_lets +onlyGivenNames z; clear_value z; revert z; intro y)
    | with_reducible apply tryReport_frame (ms (by decide) hm)
    | with_reducible apply twnCount_frame (ms (by decide) hm)
    | with_reducible apply modBucket_frame (ms (by decide) hm)
    | with_reducible apply Fr_ite

theorem twnDrop_frame {x0} {s : State} {m : Nat} {o : State} (hm : 131072 ||| m = m) (h : Fr m o s) : Fr m o (State.twnDrop x0 s) := by
  unfold State.twnDrop
  repeat'
    first
    | with_reducible assumption
    | with_reducible apply twnCount_frame (ms (by decide) hm)

theorem probeReply_frame {x0} {x1} {s : State} {m : Nat} {o : State} (hm : 6422664 ||| m = m) (h : Fr m o s) : Fr m o (State.probeReply x0 x1 s) := by
  unfold State.probeReply
  repeat'
    first
    | with_reducible assumption
    | (intro _)
    | (extract_lets +onlyGivenNames z; clear_value z; revert z; intro y)
    | simp -zeta only [Fr_mk]
    | with_reducible apply Fr_train (ms (by decide) hm)
    | with_reducible apply twnDrop_frame (ms (by decide) hm)
    | with_reducible apply modJob_frame (ms (by decide) hm)
    | with_reducible apply answer_frame (ms (by decide) hm)
    | with_reducible apply Fr_ite
    | split

theorem probeTimeout_frame {x0} {x1} {s : State} {m : Nat} {o : State} (hm : 35782792 ||| m = m) (h : Fr m o s) : Fr m o (State.probeTimeout x0 x1 s) := by
  unfold State.probeTimeout
  repeat'
    first
    | with_reducible assumption
    | (intro _)
    | (extract_lets +onlyGivenNames z; clear_value z; revert z; intro y)
    | with_reducible apply journal_frame (ms (by decide) hm)
    | with_reducible apply modJob_frame (ms (by decide) hm)
    | with_reducible apply Fr_ite

theorem publish_frame {x0} {x1} {x2} {s : State} {m : Nat} {o : State} (hm : 35782792 ||| m = m) (h : Fr m o s) : Fr m o (State.publish x0 x1 x2 s) := by
  unfold State.publish
  repeat'
    first
    | with_reducible assumption
    | (intro _)
    | (extract_lets +onlyGivenNames z; refine (fun (hz : Fr m o z) => ?_) ?_; clear_value z; revert z; intro y hy; rotate_left; dsimp only [z]; clear z)
    | (extract_lets +onlyGivenNames z; clear_value z; revert z; intro y)
    | with_reducible apply modJob_frame (ms (by decide) hm)
    | with_reducible apply leadHeard_frame (ms (by decide) hm)
    | with_reducible apply jobOut_frame (ms (by decide) hm)
    | with_reducible apply journal_frame (ms (by decide) hm)
    | with_reducible apply Fr_ite

theorem publishDue_frame {x0} {s : State} {m : Nat} {o : State} (hm : 35909000 ||| m = m) (h : Fr m o s) : Fr m o (State.publishDue x0 s) := by
  unfold State.publishDue
  repeat'
    first
    | with_reducible assumption
    | (intro _)
    | with_reducible apply applyPublish_frame (ms (by decide) hm)
    | with_reducible apply Fr_ite
    | with_reducible apply each_frame

theorem shardIn_frame {x0} {x1} {x2} {x3} {s : State} {m : Nat} {o : State} (hm : 254080 ||| m = m) (h : Fr m o s) : Fr m o (State.shardIn x0 x1 x2 x3 s) := by
  unfold State.shardIn
  repeat'
    first
    | with_reducible assumption
    | (intro _)
    | (extract_lets +onlyGivenNames z; refine (fun (hz : Fr m o z) => ?_) ?_; clear_value z; revert z; intro y hy; rotate_left; dsimp only [z]; clear z)
    | (extract_lets +onlyGivenNames z; clear_value z; revert z; intro y)
    | with_reducible apply modJob_frame (ms (by decide) hm)
    | with_reducible apply charge_frame (ms (by decide) hm)
    | with_reducible apply writeShard_frame (ms (by decide) hm)
    | with_reducible apply checkClosed_frame (ms (by decide) hm)
    | with_reducible apply modBucket_frame (ms (by decide) hm)
    | with_reducible apply Fr_ite

theorem shardsArrived_frame {x0} {s : State} {m : Nat} {o : State} (hm : 254080 ||| m = m) (h : Fr m o s) : Fr m o (State.shardsArrived x0 s) := by
  unfold State.shardsArrived
  repeat'
    first
    | with_reducible assumption
    | (intro _)
    | with_reducible apply shardIn_frame (ms (by decide) hm)
    | with_reducible apply modJob_frame (ms (by decide) hm)
    | with_reducible apply each_frame

theorem retryUpdates_frame {s : State} {m : Nat} {o : State} (hm : 1109912972 ||| m = m) (h : Fr m o s) : Fr m o (State.retryUpdates s) := by
  unfold State.retryUpdates
  repeat'
    first
    | with_reducible assumption
    | (intro _)
    | with_reducible apply tryUpdate_frame (ms (by decide) hm)
    | with_reducible apply shardsArrived_frame (ms (by decide) hm)
    | with_reducible apply each_frame

theorem ringContrib_frame {x0} {x1} {s : State} {m : Nat} {o : State} (hm : 1109912972 ||| m = m) (h : Fr m o s) : Fr m o (State.ringContrib x0 x1 s) := by
  unfold State.ringContrib
  repeat'
    first
    | with_reducible assumption
    | (intro _)
    | (extract_lets +onlyGivenNames z; refine (fun (hz : Fr m o z) => ?_) ?_; clear_value z; revert z; intro y hy; rotate_left; dsimp only [z]; clear z)
    | (extract_lets +onlyGivenNames z; refine (fun (hz : Fr m o z.2) => ?_) ?_; clear_value z; revert z; intro y hy; rotate_left; dsimp only [z]; clear z)
    | (extract_lets +onlyGivenNames z; clear_value z; revert z; intro y)
    | with_reducible apply readAll_frame (ms (by decide) hm)
    | with_reducible apply uWaits_frame (ms (by decide) hm)
    | with_reducible apply closeJob_frame (ms (by decide) hm)
    | with_reducible apply charge_frame (ms (by decide) hm)
    | with_reducible apply tryReport_frame (ms (by decide) hm)
    | with_reducible apply ringDone_frame (ms (by decide) hm)
    | with_reducible apply emit_frame (ms (by decide) hm)
    | with_reducible apply Fr_ite
    | split

theorem stepLedger_frame {x0} {x1} {s : State} {m : Nat} {o : State} (hm : 253952 ||| m = m) (h : Fr m o s) : Fr m o (State.stepLedger x0 x1 s) := by
  unfold State.stepLedger
  repeat'
    first
    | with_reducible assumption
    | (intro _)
    | (extract_lets +onlyGivenNames z; clear_value z; revert z; intro y)
    | with_reducible apply writeLedger_frame (ms (by decide) hm)
    | with_reducible apply leadHeard_frame (ms (by decide) hm)
    | with_reducible apply Fr_ite

theorem twineBounce_frame {x0} {x1} {s : State} {m : Nat} {o : State} (hm : 1109912972 ||| m = m) (h : Fr m o s) : Fr m o (State.twineBounce x0 x1 s) := by
  unfold State.twineBounce
  repeat'
    first
    | with_reducible assumption
    | (intro _)
    | (extract_lets +onlyGivenNames z; refine (fun (hz : Fr m o z) => ?_) ?_; clear_value z; revert z; intro y hy; rotate_left; dsimp only [z]; clear z)
    | (extract_lets +onlyGivenNames z; clear_value z; revert z; intro y)
    | with_reducible apply twnDrop_frame (ms (by decide) hm)
    | with_reducible apply twnCount_frame (ms (by decide) hm)
    | with_reducible apply tryReport_frame (ms (by decide) hm)
    | with_reducible apply modBucket_frame (ms (by decide) hm)
    | with_reducible apply Fr_ite
    | split

theorem twineResult_frame {x0} {x1} {s : State} {m : Nat} {o : State} (hm : 1109912972 ||| m = m) (h : Fr m o s) : Fr m o (State.twineResult x0 x1 s) := by
  unfold State.twineResult
  repeat'
    first
    | with_reducible assumption
    | (intro _)
    | (extract_lets +onlyGivenNames z; refine (fun (hz : Fr m o z) => ?_) ?_; clear_value z; revert z; intro y hy; rotate_left; dsimp only [z]; clear z)
    | (extract_lets +onlyGivenNames z; clear_value z; revert z; intro y)
    | with_reducible apply twnDrop_frame (ms (by decide) hm)
    | with_reducible apply charge_frame (ms (by decide) hm)
    | with_reducible apply twnCount_frame (ms (by decide) hm)
    | with_reducible apply modBucket_frame (ms (by decide) hm)
    | with_reducible apply writeSums_frame (ms (by decide) hm)
    | with_reducible apply tryReport_frame (ms (by decide) hm)
    | with_reducible apply Fr_ite
    | with_reducible apply elim_frame
    | split

theorem verdict_frame {x0} {x1} {s : State} {m : Nat} {o : State} (hm : 1109912972 ||| m = m) (h : Fr m o s) : Fr m o (State.verdict x0 x1 s) := by
  unfold State.verdict
  repeat'
    first
    | with_reducible assumption
    | (intro _)
    | with_reducible apply applyVerdict_frame (ms (by decide) hm)
    | with_reducible apply leadHeard_frame (ms (by decide) hm)
    | with_reducible apply Fr_ite

theorem probeExpires_frame {s : State} {m : Nat} {o : State} (hm : 6422664 ||| m = m) (h : Fr m o s) : Fr m o (State.probeExpires s) := by
  unfold State.probeExpires
  repeat'
    first
    | with_reducible assumption
    | (intro _)
    | (extract_lets +onlyGivenNames z; clear_value z; revert z; intro y)
    | simp -zeta only [Fr_mk]
    | with_reducible apply Fr_train (ms (by decide) hm)
    | with_reducible apply answer_frame (ms (by decide) hm)
    | with_reducible apply Fr_ite
    | split

theorem readOwn_frame {x0} {x1} {x2} {s : State} {m : Nat} {o : State} (hm : 98432 ||| m = m) (h : Fr m o s) : Fr m o (State.readOwn x0 x1 x2 s).2 := by
  unfold State.readOwn
  repeat'
    first
    | with_reducible assumption
    | (intro _)
    | (extract_lets +onlyGivenNames z; refine (fun (hz : Fr m o z.2) => ?_) ?_; clear_value z; revert z; intro y hy; rotate_left; dsimp only [z]; clear z)
    | with_reducible apply readFor_frame (ms (by decide) hm)
    | with_reducible apply Fr_ite2

theorem twineProbe_frame {x0} {s : State} {m : Nat} {o : State} (hm : 1080164488 ||| m = m) (h : Fr m o s) : Fr m o (State.twineProbe x0 s) := by
  unfold State.twineProbe
  repeat'
    first
    | with_reducible assumption
    | (intro _)
    | (extract_lets +onlyGivenNames z; clear_value z; revert z; intro y)
    | simp -zeta only [Fr_mk]
    | with_reducible apply Fr_train (ms (by decide) hm)
    | with_reducible apply probeExpires_frame (ms (by decide) hm)
    | with_reducible apply answer_frame (ms (by decide) hm)
    | with_reducible apply twineOut_frame (ms (by decide) hm)
    | with_reducible apply Fr_ite
    | split

theorem feedback_frame {x0} {s : State} {m : Nat} {o : State} (hm : 229504 ||| m = m) (h : Fr m o s) : Fr m o (feedback x0 s).2 := by
  unfold feedback
  repeat'
    first
    | with_reducible assumption
    | (intro _)
    | (extract_lets +onlyGivenNames z; refine (fun (hz : Fr m o z) => ?_) ?_; clear_value z; revert z; intro y hy; rotate_left; dsimp only [z]; clear z)
    | (extract_lets +onlyGivenNames z; refine (fun (hz : Fr m o z.2) => ?_) ?_; clear_value z; revert z; intro y hy; rotate_left; dsimp only [z]; clear z)
    | (extract_lets +onlyGivenNames z; clear_value z; revert z; intro y)
    | simp -zeta only [Fr_mk]
    | with_reducible apply Fr_train (ms (by decide) hm)
    | with_reducible apply readOwn_frame (ms (by decide) hm)
    | with_reducible apply Fr_ite2
    | with_reducible apply each_frame
    | split

theorem jobQuery_frame {x0} {s : State} {m : Nat} {o : State} (hm : 0 ||| m = m) (h : Fr m o s) : Fr m o (jobQuery x0 s).2 := by
  unfold jobQuery
  repeat'
    first
    | with_reducible assumption
    | (intro _)
    | (extract_lets +onlyGivenNames z; clear_value z; revert z; intro y)
    | with_reducible apply Fr_ite2

theorem jobStart_frame {x0} {s : State} {m : Nat} {o : State} (hm : 1107552392 ||| m = m) (h : Fr m o s) : Fr m o (jobStart x0 s).2 := by
  unfold jobStart
  repeat'
    first
    | with_reducible assumption
    | (intro _)
    | (extract_lets +onlyGivenNames z; refine (fun (hz : Fr m o z) => ?_) ?_; clear_value z; revert z; intro y hy; rotate_left; dsimp only [z]; clear z)
    | (extract_lets +onlyGivenNames z; refine (fun (hz : Fr m o z.2) => ?_) ?_; clear_value z; revert z; intro y hy; rotate_left; dsimp only [z]; clear z)
    | (extract_lets +onlyGivenNames z; clear_value z; revert z; intro y)
    | with_reducible apply readOwn_frame (ms (by decide) hm)
    | with_reducible apply beginJob_frame (ms (by decide) hm)
    | with_reducible apply elim_frameS2
    | split

theorem jobStop_frame {x0} {s : State} {m : Nat} {o : State} (hm : 35909000 ||| m = m) (h : Fr m o s) : Fr m o (jobStop x0 s).2 := by
  unfold jobStop
  repeat'
    first
    | with_reducible assumption
    | (intro _)
    | (extract_lets +onlyGivenNames z; clear_value z; revert z; intro y)
    | with_reducible apply closeJob_frame (ms (by decide) hm)
    | with_reducible apply modJob_frame (ms (by decide) hm)
    | with_reducible apply Fr_ite2

theorem learnPolicy_frame {x0} {s : State} {m : Nat} {o : State} (hm : 229504 ||| m = m) (h : Fr m o s) : Fr m o (learnPolicy x0 s).2 := by
  unfold learnPolicy
  repeat'
    first
    | with_reducible assumption
    | (intro _)
    | (extract_lets +onlyGivenNames z; refine (fun (hz : Fr m o z) => ?_) ?_; clear_value z; revert z; intro y hy; rotate_left; dsimp only [z]; clear z)
    | (extract_lets +onlyGivenNames z; refine (fun (hz : Fr m o z.2) => ?_) ?_; clear_value z; revert z; intro y hy; rotate_left; dsimp only [z]; clear z)
    | (extract_lets +onlyGivenNames z; refine (fun (hz : ∀ a t, Fr m o t → Fr m o (z a t)) => ?_) ?_; clear_value z; revert z; intro y hy; rotate_left; dsimp only [z]; clear z)
    | (extract_lets +onlyGivenNames z; clear_value z; revert z; intro y)
    | simp -zeta only [Fr_mk]
    | with_reducible apply Fr_train (ms (by decide) hm)
    | with_reducible apply readOwn_frame (ms (by decide) hm)
    | with_reducible apply Fr_ite2
    | split
    | with_reducible apply_assumption

theorem cnp_frame {x0} {s : State} {m : Nat} {o : State} (hm : 2097152 ||| m = m) (h : Fr m o s) : Fr m o (State.cnp x0 s) := by
  unfold State.cnp
  repeat'
    first
    | with_reducible assumption
    | (intro _)
    | with_reducible apply modQp_frame (ms (by decide) hm)
    | with_reducible apply Fr_ite

theorem failSends_frame {x0} {s : State} {m : Nat} {o : State} (hm : 35651720 ||| m = m) (h : Fr m o s) : Fr m o (State.failSends x0 s) := by
  unfold State.failSends
  repeat'
    first
    | with_reducible assumption
    | (intro _)
    | with_reducible apply modQp_frame (ms (by decide) hm)
    | with_reducible apply finishDesc_frame (ms (by decide) hm)
    | with_reducible apply each_frame

theorem roceOut_frame {x0} {x1} {x2} {x3} {s : State} {m : Nat} {o : State} (hm : 1073741960 ||| m = m) (h : Fr m o s) : Fr m o (State.roceOut x0 x1 x2 x3 s) := by
  unfold State.roceOut
  repeat'
    first
    | with_reducible assumption
    | (extract_lets +onlyGivenNames z; clear_value z; revert z; intro y)
    | with_reducible apply charge_frame (ms (by decide) hm)
    | with_reducible apply portOut_frame (ms (by decide) hm)

theorem rocePkt_frame {x0} {x1} {s : State} {m : Nat} {o : State} (hm : 1073741960 ||| m = m) (h : Fr m o s) : Fr m o (State.rocePkt x0 x1 s) := by
  unfold State.rocePkt
  repeat'
    first
    | with_reducible assumption
    | with_reducible apply roceOut_frame (ms (by decide) hm)

theorem sendFrom_frame {x0} {x1} {x2} {x3} {s : State} {m : Nat} {o : State} (hm : 1073741960 ||| m = m) (h : Fr m o s) : Fr m o (State.sendFrom x0 x1 x2 x3 s) := by
  unfold State.sendFrom
  repeat'
    first
    | with_reducible assumption
    | (intro _)
    | (extract_lets +onlyGivenNames z; clear_value z; revert z; intro y)
    | with_reducible apply rocePkt_frame (ms (by decide) hm)
    | with_reducible apply Fr_ite
    | with_reducible apply each_frame

end Sys2Proof.Machine
end

