-- ==== Sys2Proof/Laws/FrameCmds.lean ====
section
/-! SUPPORT. Laws of frames: which parts each operation of the mailbox commands, the resets, the faults and the boundary can change. -/

set_option linter.unusedVariables false
set_option linter.unusedSimpArgs false
set_option linter.tactic.unusedName false

namespace Sys2Proof.Machine

theorem goBack_frame {x0} {s : State} {m : Nat} {o : State} (hm : 1073840264 ||| m = m) (h : Fr m o s) : Fr m o (State.goBack x0 s) := by
  unfold State.goBack
  repeat'
    first
    | with_reducible assumption
    | (intro _)
    | (extract_lets +onlyGivenNames z; refine (fun (hz : Fr m o z.2) => ?_) ?_; clear_value z; revert z; intro y hy; rotate_left; dsimp only [z]; clear z)
    | with_reducible apply readDva_frame (ms (by decide) hm)
    | with_reducible apply sendFrom_frame (ms (by decide) hm)
    | with_reducible apply Fr_ite2
    | with_reducible apply each_frame
    | split

theorem markCe_frame {x0} {x1} {s : State} {m : Nat} {o : State} (hm : 1075839112 ||| m = m) (h : Fr m o s) : Fr m o (State.markCe x0 x1 s) := by
  unfold State.markCe
  repeat'
    first
    | with_reducible assumption
    | (intro _)
    | with_reducible apply rocePkt_frame (ms (by decide) hm)
    | with_reducible apply modQp_frame (ms (by decide) hm)
    | with_reducible apply Fr_ite

theorem rateRestore_frame {x0} {s : State} {m : Nat} {o : State} (hm : 2097152 ||| m = m) (h : Fr m o s) : Fr m o (State.rateRestore x0 s) := by
  unfold State.rateRestore
  repeat'
    first
    | with_reducible assumption
    | (intro _)
    | with_reducible apply modQp_frame (ms (by decide) hm)
    | with_reducible apply Fr_ite

theorem storeUnder_frame {x0} {x1} {x2} {x3} {x4} {s : State} {m : Nat} {o : State} (hm : 122880 ||| m = m) (h : Fr m o s) : Fr m o (State.storeUnder x0 x1 x2 x3 x4 s).2 := by
  unfold State.storeUnder
  repeat'
    first
    | with_reducible assumption
    | (intro _)
    | (extract_lets +onlyGivenNames z; refine (fun (hz : Fr m o z.2) => ?_) ?_; clear_value z; revert z; intro y hy; rotate_left; dsimp only [z]; clear z)
    | with_reducible apply writeDva_frame (ms (by decide) hm)
    | with_reducible apply Fr_ite2
    | split

theorem serveSend_frame {x0} {x1} {s : State} {m : Nat} {o : State} (hm : 35774600 ||| m = m) (h : Fr m o s) : Fr m o (State.serveSend x0 x1 s).2 := by
  unfold State.serveSend
  repeat'
    first
    | with_reducible assumption
    | (intro _)
    | (extract_lets +onlyGivenNames z; refine (fun (hz : Fr m o z) => ?_) ?_; clear_value z; revert z; intro y hy; rotate_left; dsimp only [z]; clear z)
    | (extract_lets +onlyGivenNames z; refine (fun (hz : Fr m o z.2) => ?_) ?_; clear_value z; revert z; intro y hy; rotate_left; dsimp only [z]; clear z)
    | (extract_lets +onlyGivenNames z; clear_value z; revert z; intro y)
    | with_reducible apply finishDesc_frame (ms (by decide) hm)
    | with_reducible apply storeUnder_frame (ms (by decide) hm)
    | with_reducible apply modDesc_frame (ms (by decide) hm)
    | with_reducible apply doneDesc_frame (ms (by decide) hm)
    | with_reducible apply Fr_ite
    | with_reducible apply Fr_ite2
    | split

theorem serveWrite_frame {x0} {x1} {s : State} {m : Nat} {o : State} (hm : 35774600 ||| m = m) (h : Fr m o s) : Fr m o (State.serveWrite x0 x1 s).2 := by
  unfold State.serveWrite
  repeat'
    first
    | with_reducible assumption
    | (extract_lets +onlyGivenNames z; refine (fun (hz : Fr m o z.2) => ?_) ?_; clear_value z; revert z; intro y hy; rotate_left; dsimp only [z]; clear z)
    | (extract_lets +onlyGivenNames z; clear_value z; revert z; intro y)
    | with_reducible apply storeUnder_frame (ms (by decide) hm)
    | with_reducible apply doneDesc_frame (ms (by decide) hm)
    | split

theorem serveRead_frame {x0} {x1} {s : State} {m : Nat} {o : State} (hm : 1073840264 ||| m = m) (h : Fr m o s) : Fr m o (State.serveRead x0 x1 s).2 := by
  unfold State.serveRead
  repeat'
    first
    | with_reducible assumption
    | (intro _)
    | (extract_lets +onlyGivenNames z; refine (fun (hz : Fr m o z.2) => ?_) ?_; clear_value z; revert z; intro y hy; rotate_left; dsimp only [z]; clear z)
    | (extract_lets +onlyGivenNames z; clear_value z; revert z; intro y)
    | with_reducible apply readDva_frame (ms (by decide) hm)
    | with_reducible apply rocePkt_frame (ms (by decide) hm)
    | with_reducible apply Fr_ite2
    | with_reducible apply each_frame
    | split

theorem serveRequest_frame {x0} {x1} {s : State} {m : Nat} {o : State} (hm : 1109516424 ||| m = m) (h : Fr m o s) : Fr m o (State.serveRequest x0 x1 s).2 := by
  unfold State.serveRequest
  repeat'
    first
    | with_reducible assumption
    | with_reducible apply serveSend_frame (ms (by decide) hm)
    | with_reducible apply serveWrite_frame (ms (by decide) hm)
    | with_reducible apply serveRead_frame (ms (by decide) hm)
    | split

theorem rcRequest_frame {x0} {x1} {s : State} {m : Nat} {o : State} (hm : 1109516424 ||| m = m) (h : Fr m o s) : Fr m o (State.rcRequest x0 x1 s) := by
  unfold State.rcRequest
  repeat'
    first
    | with_reducible assumption
    | (intro _)
    | (extract_lets +onlyGivenNames z; refine (fun (hz : Fr m o z) => ?_) ?_; clear_value z; revert z; intro y hy; rotate_left; dsimp only [z]; clear z)
    | (extract_lets +onlyGivenNames z; refine (fun (hz : Fr m o z.2) => ?_) ?_; clear_value z; revert z; intro y hy; rotate_left; dsimp only [z]; clear z)
    | (extract_lets +onlyGivenNames z; clear_value z; revert z; intro y)
    | with_reducible apply rocePkt_frame (ms (by decide) hm)
    | with_reducible apply serveRequest_frame (ms (by decide) hm)
    | with_reducible apply modQp_frame (ms (by decide) hm)
    | with_reducible apply serveRead_frame (ms (by decide) hm)
    | with_reducible apply Fr_ite
    | simp -zeta only [Fr_mk]
    | split

theorem readResponse_frame {x0} {x1} {s : State} {m : Nat} {o : State} (hm : 35774600 ||| m = m) (h : Fr m o s) : Fr m o (State.readResponse x0 x1 s) := by
  unfold State.readResponse
  repeat'
    first
    | with_reducible assumption
    | (intro _)
    | (extract_lets +onlyGivenNames z; refine (fun (hz : Fr m o z) => ?_) ?_; clear_value z; revert z; intro y hy; rotate_left; dsimp only [z]; clear z)
    | (extract_lets +onlyGivenNames z; refine (fun (hz : Fr m o z.2) => ?_) ?_; clear_value z; revert z; intro y hy; rotate_left; dsimp only [z]; clear z)
    | (extract_lets +onlyGivenNames z; clear_value z; revert z; intro y)
    | with_reducible apply storeUnder_frame (ms (by decide) hm)
    | with_reducible apply finishDesc_frame (ms (by decide) hm)
    | with_reducible apply modQp_frame (ms (by decide) hm)
    | with_reducible apply modDesc_frame (ms (by decide) hm)
    | with_reducible apply doneDesc_frame (ms (by decide) hm)
    | with_reducible apply Fr_ite
    | split

theorem recvDesc_frame {x0} {x1} {s : State} {m : Nat} {o : State} (hm : 35651720 ||| m = m) (h : Fr m o s) : Fr m o (State.recvDesc x0 x1 s) := by
  unfold State.recvDesc
  repeat'
    first
    | with_reducible assumption
    | (intro _)
    | (extract_lets +onlyGivenNames z; refine (fun (hz : Fr m o z) => ?_) ?_; clear_value z; revert z; intro y hy; rotate_left; dsimp only [z]; clear z)
    | (extract_lets +onlyGivenNames z; clear_value z; revert z; intro y)
    | with_reducible apply charge_frame (ms (by decide) hm)
    | with_reducible apply modQp_frame (ms (by decide) hm)
    | with_reducible apply finishDesc_frame (ms (by decide) hm)
    | with_reducible apply Fr_ite
    | split

theorem retrySends_frame {x0} {s : State} {m : Nat} {o : State} (hm : 1109491848 ||| m = m) (h : Fr m o s) : Fr m o (State.retrySends x0 s) := by
  unfold State.retrySends
  repeat'
    first
    | with_reducible assumption
    | (intro _)
    | (extract_lets +onlyGivenNames z; clear_value z; revert z; intro y)
    | with_reducible apply failSends_frame (ms (by decide) hm)
    | with_reducible apply goBack_frame (ms (by decide) hm)
    | with_reducible apply modQp_frame (ms (by decide) hm)
    | with_reducible apply Fr_ite

theorem roceAck_frame {x0} {x1} {s : State} {m : Nat} {o : State} (hm : 35651720 ||| m = m) (h : Fr m o s) : Fr m o (State.roceAck x0 x1 s) := by
  unfold State.roceAck
  repeat'
    first
    | with_reducible assumption
    | (intro _)
    | (extract_lets +onlyGivenNames z; clear_value z; revert z; intro y)
    | with_reducible apply doneDesc_frame (ms (by decide) hm)
    | with_reducible apply modDesc_frame (ms (by decide) hm)
    | with_reducible apply Fr_ite
    | with_reducible apply foldl_frame

theorem sendUd_frame {x0} {x1} {x2} {s : State} {m : Nat} {o : State} (hm : 1109393544 ||| m = m) (h : Fr m o s) : Fr m o (State.sendUd x0 x1 x2 s) := by
  unfold State.sendUd
  repeat'
    first
    | with_reducible assumption
    | (intro _)
    | (extract_lets +onlyGivenNames z; clear_value z; revert z; intro y)
    | with_reducible apply doneDesc_frame (ms (by decide) hm)
    | with_reducible apply roceOut_frame (ms (by decide) hm)
    | with_reducible apply Fr_ite

theorem startSend_frame {x0} {x1} {s : State} {m : Nat} {o : State} (hm : 1109492104 ||| m = m) (h : Fr m o s) : Fr m o (State.startSend x0 x1 s) := by
  unfold State.startSend
  repeat'
    first
    | with_reducible assumption
    | (intro _)
    | (extract_lets +onlyGivenNames z; refine (fun (hz : Fr m o z) => ?_) ?_; clear_value z; revert z; intro y hy; rotate_left; dsimp only [z]; clear z)
    | (extract_lets +onlyGivenNames z; refine (fun (hz : Fr m o z.2) => ?_) ?_; clear_value z; revert z; intro y hy; rotate_left; dsimp only [z]; clear z)
    | (extract_lets +onlyGivenNames z; clear_value z; revert z; intro y)
    | with_reducible apply doneDesc_frame (ms (by decide) hm)
    | with_reducible apply readDva_frame (ms (by decide) hm)
    | with_reducible apply ask_frame (ms (by decide) hm)
    | with_reducible apply sendUd_frame (ms (by decide) hm)
    | with_reducible apply modDesc_frame (ms (by decide) hm)
    | with_reducible apply modQp_frame (ms (by decide) hm)
    | with_reducible apply sendFrom_frame (ms (by decide) hm)
    | with_reducible apply Fr_ite
    | with_reducible apply Fr_ite2
    | split

theorem startSends_frame {x0} {s : State} {m : Nat} {o : State} (hm : 1109492104 ||| m = m) (h : Fr m o s) : Fr m o (State.startSends x0 s) := by
  unfold State.startSends
  repeat'
    first
    | with_reducible assumption
    | (intro _)
    | (extract_lets +onlyGivenNames z; clear_value z; revert z; intro y)
    | with_reducible apply startSend_frame (ms (by decide) hm)
    | with_reducible apply Fr_ite
    | with_reducible apply foldl_frame

theorem rocePacket_frame {x0} {x1} {s : State} {m : Nat} {o : State} (hm : 1109516680 ||| m = m) (h : Fr m o s) : Fr m o (State.rocePacket x0 x1 s) := by
  unfold State.rocePacket
  repeat'
    first
    | with_reducible assumption
    | (intro _)
    | (extract_lets +onlyGivenNames z; refine (fun (hz : Fr m o z) => ?_) ?_; clear_value z; revert z; intro y hy; rotate_left; dsimp only [z]; clear z)
    | (extract_lets +onlyGivenNames z; clear_value z; revert z; intro y)
    | with_reducible apply markCe_frame (ms (by decide) hm)
    | with_reducible apply charge_frame (ms (by decide) hm)
    | with_reducible apply cnp_frame (ms (by decide) hm)
    | with_reducible apply startSends_frame (ms (by decide) hm)
    | with_reducible apply roceAck_frame (ms (by decide) hm)
    | with_reducible apply modQp_frame (ms (by decide) hm)
    | with_reducible apply retrySends_frame (ms (by decide) hm)
    | with_reducible apply failSends_frame (ms (by decide) hm)
    | with_reducible apply readResponse_frame (ms (by decide) hm)
    | with_reducible apply rcRequest_frame (ms (by decide) hm)
    | with_reducible apply serveSend_frame (ms (by decide) hm)
    | with_reducible apply Fr_ite
    | split

theorem sendDesc_frame {x0} {x1} {x2} {s : State} {m : Nat} {o : State} (hm : 1109492104 ||| m = m) (h : Fr m o s) : Fr m o (State.sendDesc x0 x1 x2 s) := by
  unfold State.sendDesc
  repeat'
    first
    | with_reducible assumption
    | (intro _)
    | with_reducible apply fetch_frame (ms (by decide) hm)
    | with_reducible apply startSends_frame (ms (by decide) hm)
    | with_reducible apply Fr_ite

theorem dropRedeliver_frame {x0} {x1} {s : State} {m : Nat} {o : State} (hm : 35651720 ||| m = m) (h : Fr m o s) : Fr m o (State.dropRedeliver x0 x1 s) := by
  unfold State.dropRedeliver
  repeat'
    first
    | with_reducible assumption
    | with_reducible apply finalRecord_frame (ms (by decide) hm)
    | with_reducible apply dropMove_frame (ms (by decide) hm)
    | with_reducible apply modQp_frame (ms (by decide) hm)
    | split

theorem finishDereg_frame {x0} {s : State} {m : Nat} {o : State} (hm : 35651720 ||| m = m) (h : Fr m o s) : Fr m o (State.finishDereg x0 s) := by
  unfold State.finishDereg
  repeat'
    first
    | with_reducible assumption
    | (intro _)
    | (extract_lets +onlyGivenNames z; clear_value z; revert z; intro y)
    | simp -zeta only [Fr_mk]
    | with_reducible apply Fr_host (ms (by decide) hm)
    | with_reducible apply finalRecord_frame (ms (by decide) hm)
    | with_reducible apply Fr_ite
    | split

theorem freeQueue_frame {x0} {s : State} {m : Nat} {o : State} (hm : 2130048 ||| m = m) (h : Fr m o s) : Fr m o (State.freeQueue x0 s) := by
  unfold State.freeQueue
  repeat'
    first
    | with_reducible assumption
    | (intro _)
    | with_reducible apply modQp_frame (ms (by decide) hm)
    | with_reducible apply zeroFrame_frame (ms (by decide) hm)
    | with_reducible apply each_frame

theorem finishDestroy_frame {x0} {s : State} {m : Nat} {o : State} (hm : 35684488 ||| m = m) (h : Fr m o s) : Fr m o (State.finishDestroy x0 s) := by
  unfold State.finishDestroy
  repeat'
    first
    | with_reducible assumption
    | (intro _)
    | (extract_lets +onlyGivenNames z; clear_value z; revert z; intro y)
    | with_reducible apply finalRecord_frame (ms (by decide) hm)
    | with_reducible apply freeQueue_frame (ms (by decide) hm)
    | with_reducible apply Fr_ite
    | split

theorem repeatWrite_frame {x0} {x1} {x2} {s : State} {m : Nat} {o : State} (hm : 2195464 ||| m = m) (h : Fr m o s) : Fr m o (State.repeatWrite x0 x1 x2 s) := by
  unfold State.repeatWrite
  repeat'
    first
    | with_reducible assumption
    | (intro _)
    | (extract_lets +onlyGivenNames z; refine (fun (hz : Fr m o z.2) => ?_) ?_; clear_value z; revert z; intro y hy; rotate_left; dsimp only [z]; clear z)
    | (extract_lets +onlyGivenNames z; clear_value z; revert z; intro y)
    | with_reducible apply readDva_frame (ms (by decide) hm)
    | with_reducible apply emit_frame (ms (by decide) hm)
    | with_reducible apply translate_frame (ms (by decide) hm)
    | with_reducible apply Fr_ite
    | split

theorem finishRedeliver_frame {x0} {s : State} {m : Nat} {o : State} (hm : 35750024 ||| m = m) (h : Fr m o s) : Fr m o (State.finishRedeliver x0 s) := by
  unfold State.finishRedeliver
  repeat'
    first
    | with_reducible assumption
    | (intro _)
    | (extract_lets +onlyGivenNames z; refine (fun (hz : Fr m o z) => ?_) ?_; clear_value z; revert z; intro y hy; rotate_left; dsimp only [z]; clear z)
    | (extract_lets +onlyGivenNames z; clear_value z; revert z; intro y)
    | with_reducible apply dropRedeliver_frame (ms (by decide) hm)
    | with_reducible apply modQp_frame (ms (by decide) hm)
    | with_reducible apply sendRec_frame (ms (by decide) hm)
    | with_reducible apply repeatWrite_frame (ms (by decide) hm)
    | with_reducible apply finalRecord_frame (ms (by decide) hm)
    | with_reducible apply Fr_ite
    | with_reducible apply each_frame
    | split

theorem finishUnbind_frame {x0} {s : State} {m : Nat} {o : State} (hm : 35651720 ||| m = m) (h : Fr m o s) : Fr m o (State.finishUnbind x0 s) := by
  unfold State.finishUnbind
  repeat'
    first
    | with_reducible assumption
    | (extract_lets +onlyGivenNames z; clear_value z; revert z; intro y)
    | simp -zeta only [Fr_mk]
    | with_reducible apply Fr_host (ms (by decide) hm)
    | with_reducible apply finalRecord_frame (ms (by decide) hm)
    | split

theorem finishQueues_frame {s : State} {m : Nat} {o : State} (hm : 35750024 ||| m = m) (h : Fr m o s) : Fr m o (State.finishQueues s) := by
  unfold State.finishQueues
  repeat'
    first
    | with_reducible assumption
    | (intro _)
    | (extract_lets +onlyGivenNames z; refine (fun (hz : Fr m o z) => ?_) ?_; clear_value z; revert z; intro y hy; rotate_left; dsimp only [z]; clear z)
    | with_reducible apply finishRedeliver_frame (ms (by decide) hm)
    | with_reducible apply finishUnbind_frame (ms (by decide) hm)
    | with_reducible apply finishDereg_frame (ms (by decide) hm)
    | with_reducible apply finishDestroy_frame (ms (by decide) hm)
    | with_reducible apply each_frame

theorem ahSet_frame {x0} {s : State} {m : Nat} {o : State} (hm : 2097152 ||| m = m) (h : Fr m o s) : Fr m o (ahSet x0 s).2 := by
  unfold ahSet
  repeat'
    first
    | with_reducible assumption
    | (extract_lets +onlyGivenNames z; clear_value z; revert z; intro y)
    | simp -zeta only [Fr_mk]
    | with_reducible apply Fr_host (ms (by decide) hm)
    | with_reducible apply checked_frame (ms (by decide) hm)

theorem aperBind_frame {x0} {s : State} {m : Nat} {o : State} (hm : 2097152 ||| m = m) (h : Fr m o s) : Fr m o (aperBind x0 s).2 := by
  unfold aperBind
  repeat'
    first
    | with_reducible assumption
    | (extract_lets +onlyGivenNames z; clear_value z; revert z; intro y)
    | simp -zeta only [Fr_mk]
    | with_reducible apply Fr_host (ms (by decide) hm)
    | with_reducible apply checked_frame (ms (by decide) hm)

theorem aperUnbind_frame {x0} {s : State} {m : Nat} {o : State} (hm : 2097152 ||| m = m) (h : Fr m o s) : Fr m o (aperUnbind x0 s).2 := by
  unfold aperUnbind
  repeat'
    first
    | with_reducible assumption
    | (extract_lets +onlyGivenNames z; clear_value z; revert z; intro y)
    | simp -zeta only [Fr_mk]
    | with_reducible apply Fr_host (ms (by decide) hm)
    | with_reducible apply checked_frame (ms (by decide) hm)

theorem blockAlloc_frame {x0} {s : State} {m : Nat} {o : State} (hm : 2097156 ||| m = m) (h : Fr m o s) : Fr m o (blockAlloc x0 s).2 := by
  unfold blockAlloc
  repeat'
    first
    | with_reducible assumption
    | (intro _)
    | (extract_lets +onlyGivenNames z; refine (fun (hz : Fr m o z.2) => ?_) ?_; clear_value z; revert z; intro y hy; rotate_left; dsimp only [z]; clear z)
    | (extract_lets +onlyGivenNames z; clear_value z; revert z; intro y)
    | simp -zeta only [Fr_mk]
    | with_reducible apply Fr_host (ms (by decide) hm)
    | with_reducible apply fresh_frame (ms (by decide) hm)
    | with_reducible apply checked_frame (ms (by decide) hm)
    | with_reducible apply each_frame

theorem blockFree_frame {x0} {s : State} {m : Nat} {o : State} (hm : 2097152 ||| m = m) (h : Fr m o s) : Fr m o (blockFree x0 s).2 := by
  unfold blockFree
  repeat'
    first
    | with_reducible assumption
    | (intro _)
    | (extract_lets +onlyGivenNames z; clear_value z; revert z; intro y)
    | simp -zeta only [Fr_mk]
    | with_reducible apply Fr_host (ms (by decide) hm)
    | with_reducible apply checked_frame (ms (by decide) hm)
    | with_reducible apply each_frame

theorem mrDeregister_frame {x0} {s : State} {m : Nat} {o : State} (hm : 2097152 ||| m = m) (h : Fr m o s) : Fr m o (mrDeregister x0 s).2 := by
  unfold mrDeregister
  repeat'
    first
    | with_reducible assumption
    | (extract_lets +onlyGivenNames z; clear_value z; revert z; intro y)
    | simp -zeta only [Fr_mk]
    | with_reducible apply Fr_host (ms (by decide) hm)
    | with_reducible apply checked_frame (ms (by decide) hm)

theorem mrRegister_frame {x0} {s : State} {m : Nat} {o : State} (hm : 2097156 ||| m = m) (h : Fr m o s) : Fr m o (mrRegister x0 s).2 := by
  unfold mrRegister
  repeat'
    first
    | with_reducible assumption
    | (extract_lets +onlyGivenNames z; refine (fun (hz : Fr m o z) => ?_) ?_; clear_value z; revert z; intro y hy; rotate_left; dsimp only [z]; clear z)
    | (extract_lets +onlyGivenNames z; refine (fun (hz : Fr m o z.2) => ?_) ?_; clear_value z; revert z; intro y hy; rotate_left; dsimp only [z]; clear z)
    | (extract_lets +onlyGivenNames z; clear_value z; revert z; intro y)
    | simp -zeta only [Fr_mk]
    | with_reducible apply Fr_host (ms (by decide) hm)
    | with_reducible apply fresh_frame (ms (by decide) hm)
    | with_reducible apply checked_frame (ms (by decide) hm)

theorem qpCreate_frame {x0} {s : State} {m : Nat} {o : State} (hm : 2129920 ||| m = m) (h : Fr m o s) : FrP m o (qpCreate x0 s) := by
  unfold qpCreate
  repeat'
    first
    | with_reducible assumption
    | (intro _)
    | (extract_lets +onlyGivenNames z; clear_value z; revert z; intro y)
    | with_reducible apply modQp_frame (ms (by decide) hm)
    | with_reducible apply takeFrame_frame (ms (by decide) hm)
    | with_reducible apply FrP_some
    | with_reducible apply FrP_map
    | split

theorem qpDestroy_frame {x0} {s : State} {m : Nat} {o : State} (hm : 2097152 ||| m = m) (h : Fr m o s) : Fr m o (qpDestroy x0 s).2 := by
  unfold qpDestroy
  repeat'
    first
    | with_reducible assumption
    | (extract_lets +onlyGivenNames z; clear_value z; revert z; intro y)
    | with_reducible apply checked_frame (ms (by decide) hm)
    | with_reducible apply modQp_frame (ms (by decide) hm)

theorem qpQuery_frame {x0} {s : State} {m : Nat} {o : State} (hm : 0 ||| m = m) (h : Fr m o s) : Fr m o (qpQuery x0 s).2 := by
  unfold qpQuery
  repeat'
    first
    | with_reducible assumption
    | (extract_lets +onlyGivenNames z; clear_value z; revert z; intro y)
    | with_reducible apply checked_frame (ms (by decide) hm)

theorem qpRearm_frame {x0} {s : State} {m : Nat} {o : State} (hm : 2097152 ||| m = m) (h : Fr m o s) : Fr m o (qpRearm x0 s).2 := by
  unfold qpRearm
  repeat'
    first
    | with_reducible assumption
    | (extract_lets +onlyGivenNames z; clear_value z; revert z; intro y)
    | with_reducible apply checked_frame (ms (by decide) hm)
    | with_reducible apply modQp_frame (ms (by decide) hm)

theorem qpRedeliver_frame {x0} {s : State} {m : Nat} {o : State} (hm : 2195584 ||| m = m) (h : Fr m o s) : Fr m o (qpRedeliver x0 s).2 := by
  unfold qpRedeliver
  repeat'
    first
    | with_reducible assumption
    | (extract_lets +onlyGivenNames z; clear_value z; revert z; intro y)
    | with_reducible apply checked_frame (ms (by decide) hm)
    | with_reducible apply pushMove_frame (ms (by decide) hm)
    | with_reducible apply modQp_frame (ms (by decide) hm)

theorem qpUndelivered_frame {x0} {s : State} {m : Nat} {o : State} (hm : 0 ||| m = m) (h : Fr m o s) : Fr m o (qpUndelivered x0 s).2 := by
  unfold qpUndelivered
  repeat'
    first
    | with_reducible assumption
    | (extract_lets +onlyGivenNames z; clear_value z; revert z; intro y)
    | with_reducible apply checked_frame (ms (by decide) hm)

theorem ringSet_frame {x0} {s : State} {m : Nat} {o : State} (hm : 2097152 ||| m = m) (h : Fr m o s) : Fr m o (ringSet x0 s).2 := by
  unfold ringSet
  repeat'
    first
    | with_reducible assumption
    | (extract_lets +onlyGivenNames z; clear_value z; revert z; intro y)
    | with_reducible apply checked_frame (ms (by decide) hm)
    | with_reducible apply modRing_frame (ms (by decide) hm)

theorem clearCells_frame {x0} {s : State} {m : Nat} {o : State} (hm : 768 ||| m = m) (h : Fr m o s) : Fr m o (State.clearCells x0 s) := by
  unfold State.clearCells
  repeat'
    first
    | with_reducible assumption
    | (extract_lets +onlyGivenNames z; clear_value z; revert z; intro y)
    | simp -zeta only [Fr_mk]
    | with_reducible apply Fr_cells_ups (ms (by decide) hm)

theorem releaseKv_frame {x0} {s : State} {m : Nat} {o : State} (hm : 32896 ||| m = m) (h : Fr m o s) : Fr m o (State.releaseKv x0 s) := by
  unfold State.releaseKv
  repeat'
    first
    | with_reducible assumption
    | (intro _)
    | (extract_lets +onlyGivenNames z; refine (fun (hz : Fr m o z) => ?_) ?_; clear_value z; revert z; intro y hy; rotate_left; dsimp only [z]; clear z)
    | (extract_lets +onlyGivenNames z; refine (fun (_ : z = (z : Mem)) => ?_) rfl; subst z)
    | (extract_lets +onlyGivenNames z; clear_value z; revert z; intro y)
    | simp -zeta only [Fr_mk]
    | (with_reducible apply Fr_tables (ms (by decide) hm) <;> try with_reducible rfl)
    | with_reducible apply startEvict_frame (ms (by decide) hm)
    | with_reducible apply each_frame

theorem dropPins_frame {x0} {x1} {s : State} {m : Nat} {o : State} (hm : 33792 ||| m = m) (h : Fr m o s) : Fr m o (State.dropPins x0 x1 s) := by
  unfold State.dropPins
  repeat'
    first
    | with_reducible assumption
    | (intro _)
    | (extract_lets +onlyGivenNames z; refine (fun (hz : Fr m o z) => ?_) ?_; clear_value z; revert z; intro y hy; rotate_left; dsimp only [z]; clear z)
    | (extract_lets +onlyGivenNames z; clear_value z; revert z; intro y)
    | with_reducible apply modFrame_frame (ms (by decide) hm)
    | with_reducible apply unpinPage_frame (ms (by decide) hm)
    | with_reducible apply modCourse_frame (ms (by decide) hm)
    | with_reducible apply each_frame
    | split

theorem endRows_frame {x0} {x1} {x2} {s : State} {m : Nat} {o : State} (hm : 35884424 ||| m = m) (h : Fr m o s) : Fr m o (State.endRows x0 x1 x2 s) := by
  unfold State.endRows
  repeat'
    first
    | with_reducible assumption
    | (intro _)
    | (extract_lets +onlyGivenNames z; refine (fun (hz : Fr m o z) => ?_) ?_; clear_value z; revert z; intro y hy; rotate_left; dsimp only [z]; clear z)
    | (extract_lets +onlyGivenNames z; clear_value z; revert z; intro y)
    | with_reducible apply endCourse_frame (ms (by decide) hm)
    | with_reducible apply finishSeq_frame (ms (by decide) hm)
    | with_reducible apply modCourse_frame (ms (by decide) hm)
    | with_reducible apply dropPins_frame (ms (by decide) hm)
    | with_reducible apply Fr_ite
    | with_reducible apply each_frame
    | split

theorem endQueue_frame {x0} {x1} {x2} {s : State} {m : Nat} {o : State} (hm : 35651720 ||| m = m) (h : Fr m o s) : Fr m o (State.endQueue x0 x1 x2 s) := by
  unfold State.endQueue
  repeat'
    first
    | with_reducible assumption
    | (intro _)
    | (extract_lets +onlyGivenNames z; clear_value z; revert z; intro y)
    | with_reducible apply closeDesc_frame (ms (by decide) hm)
    | with_reducible apply each_frame

theorem endWork_frame {x0} {x1} {x2} {x3} {x4} {s : State} {m : Nat} {o : State} (hm : 35909000 ||| m = m) (h : Fr m o s) : Fr m o (State.endWork x0 x1 x2 x3 x4 s) := by
  unfold State.endWork
  repeat'
    first
    | with_reducible assumption
    | (intro _)
    | (extract_lets +onlyGivenNames z; refine (fun (hz : Fr m o z) => ?_) ?_; clear_value z; revert z; intro y hy; rotate_left; dsimp only [z]; clear z)
    | with_reducible apply endRows_frame (ms (by decide) hm)
    | with_reducible apply endSeq_frame (ms (by decide) hm)
    | with_reducible apply closeJob_frame (ms (by decide) hm)
    | with_reducible apply closeSession_frame (ms (by decide) hm)
    | with_reducible apply endQueue_frame (ms (by decide) hm)
    | with_reducible apply Fr_ite
    | with_reducible apply each_frame

theorem applyReset_frame {x0} {x1} {s : State} {m : Nat} {o : State} (hm : 44298120 ||| m = m) (h : Fr m o s) : Fr m o (State.applyReset x0 x1 s) := by
  unfold State.applyReset
  repeat'
    first
    | with_reducible assumption
    | (extract_lets +onlyGivenNames z; refine (fun (hz : Fr m o z) => ?_) ?_; clear_value z; revert z; intro y hy; rotate_left; dsimp only [z]; clear z)
    | with_reducible apply clearCells_frame (ms (by decide) hm)
    | with_reducible apply releaseKv_frame (ms (by decide) hm)
    | with_reducible apply endWork_frame (ms (by decide) hm)
    | with_reducible apply finalRecord_frame (ms (by decide) hm)
    | with_reducible apply modCtx_frame (ms (by decide) hm)
    | split

theorem carryNew_frame {x0} {s : State} {m : Nat} {o : State} (hm : 34944 ||| m = m) (h : Fr m o s) : Fr m o (State.carryNew x0 s) := by
  unfold State.carryNew
  repeat'
    first
    | with_reducible assumption
    | (intro _)
    | (extract_lets +onlyGivenNames z; clear_value z; revert z; intro y)
    | with_reducible apply startCarry_frame (ms (by decide) hm)
    | with_reducible apply Fr_ite
    | split

theorem forceSessions_frame {x0} {s : State} {m : Nat} {o : State} (hm : 2048 ||| m = m) (h : Fr m o s) : Fr m o (State.forceSessions x0 s) := by
  unfold State.forceSessions
  repeat'
    first
    | with_reducible assumption
    | (intro _)
    | (extract_lets +onlyGivenNames z; clear_value z; revert z; intro y)
    | with_reducible apply closeSession_frame (ms (by decide) hm)
    | with_reducible apply each_frame

theorem sideClaim_frame {x0} {s : State} {m : Nat} {o : State} (hm : 2048 ||| m = m) (h : Fr m o s) : Fr m o (sideClaim x0 s).2 := by
  unfold sideClaim
  repeat'
    first
    | with_reducible assumption
    | (extract_lets +onlyGivenNames z; clear_value z; revert z; intro y)
    | with_reducible apply checked_frame (ms (by decide) hm)
    | with_reducible apply modSide_frame (ms (by decide) hm)
    | with_reducible apply modWeaver_frame (ms (by decide) hm)
    | split

theorem sideQuery_frame {x0} {s : State} {m : Nat} {o : State} (hm : 0 ||| m = m) (h : Fr m o s) : Fr m o (sideQuery x0 s).2 := by
  unfold sideQuery
  repeat'
    first
    | with_reducible assumption

theorem sideRelease_frame {x0} {s : State} {m : Nat} {o : State} (hm : 2048 ||| m = m) (h : Fr m o s) : Fr m o (sideRelease x0 s).2 := by
  unfold sideRelease
  repeat'
    first
    | with_reducible assumption
    | (intro _)
    | (extract_lets +onlyGivenNames z; clear_value z; revert z; intro y)
    | with_reducible apply checked_frame (ms (by decide) hm)
    | with_reducible apply modSide_frame (ms (by decide) hm)
    | with_reducible apply Fr_ite2
    | split

theorem weaverPin_frame {x0} {s : State} {m : Nat} {o : State} (hm : 2048 ||| m = m) (h : Fr m o s) : Fr m o (weaverPin x0 s).2 := by
  unfold weaverPin
  repeat'
    first
    | with_reducible assumption
    | with_reducible apply checked_frame (ms (by decide) hm)
    | with_reducible apply modWeaver_frame (ms (by decide) hm)

theorem weaverPrefetch_frame {x0} {s : State} {m : Nat} {o : State} (hm : 34944 ||| m = m) (h : Fr m o s) : Fr m o (weaverPrefetch x0 s).2 := by
  unfold weaverPrefetch
  repeat'
    first
    | with_reducible assumption
    | with_reducible apply checked_frame (ms (by decide) hm)
    | with_reducible apply demand_frame (ms (by decide) hm)

theorem weaverQuery_frame {x0} {s : State} {m : Nat} {o : State} (hm : 0 ||| m = m) (h : Fr m o s) : Fr m o (weaverQuery x0 s).2 := by
  unfold weaverQuery
  repeat'
    first
    | with_reducible assumption

theorem weaverRegister_frame {x0} {s : State} {m : Nat} {o : State} (hm : 34944 ||| m = m) (h : Fr m o s) : Fr m o (weaverRegister x0 s).2 := by
  unfold weaverRegister
  repeat'
    first
    | with_reducible assumption
    | (extract_lets +onlyGivenNames z; clear_value z; revert z; intro y)
    | with_reducible apply checked_frame (ms (by decide) hm)
    | with_reducible apply carryNew_frame (ms (by decide) hm)
    | with_reducible apply modWeaver_frame (ms (by decide) hm)

theorem weaverRemove_frame {x0} {s : State} {m : Nat} {o : State} (hm : 35769480 ||| m = m) (h : Fr m o s) : Fr m o (weaverRemove x0 s).2 := by
  unfold weaverRemove
  repeat'
    first
    | with_reducible assumption
    | (intro _)
    | (extract_lets +onlyGivenNames z; refine (fun (hz : Fr m o z) => ?_) ?_; clear_value z; revert z; intro y hy; rotate_left; dsimp only [z]; clear z)
    | (extract_lets +onlyGivenNames z; clear_value z; revert z; intro y)
    | with_reducible apply checked_frame (ms (by decide) hm)
    | with_reducible apply forceSessions_frame (ms (by decide) hm)
    | with_reducible apply startRemove_frame (ms (by decide) hm)
    | with_reducible apply modWeaver_frame (ms (by decide) hm)
    | with_reducible apply removeComplete_frame (ms (by decide) hm)
    | with_reducible apply Fr_ite

theorem carryQuery_frame {x0} {s : State} {m : Nat} {o : State} (hm : 0 ||| m = m) (h : Fr m o s) : Fr m o (carryQuery x0 s).2 := by
  unfold carryQuery
  repeat'
    first
    | with_reducible assumption
    | (extract_lets +onlyGivenNames z; clear_value z; revert z; intro y)
    | with_reducible apply checked_frame (ms (by decide) hm)

theorem stakeAbort_frame {x0} {s : State} {m : Nat} {o : State} (hm : 35688584 ||| m = m) (h : Fr m o s) : Fr m o (stakeAbort x0 s).2 := by
  unfold stakeAbort
  repeat'
    first
    | with_reducible assumption
    | (extract_lets +onlyGivenNames z; clear_value z; revert z; intro y)
    | with_reducible apply checked_frame (ms (by decide) hm)
    | with_reducible apply buildFails_frame (ms (by decide) hm)
    | with_reducible apply modGen_frame (ms (by decide) hm)
    | with_reducible apply abortCommit_frame (ms (by decide) hm)
    | simp -zeta only [Fr_mk]
    | split

theorem stakeBuild_frame {x0} {s : State} {m : Nat} {o : State} (hm : 35690632 ||| m = m) (h : Fr m o s) : Fr m o (stakeBuild x0 s).2 := by
  unfold stakeBuild
  repeat'
    first
    | with_reducible assumption
    | (extract_lets +onlyGivenNames z; refine (fun (hz : Fr m o z) => ?_) ?_; clear_value z; revert z; intro y hy; rotate_left; dsimp only [z]; clear z)
    | (extract_lets +onlyGivenNames z; clear_value z; revert z; intro y)
    | with_reducible apply checked_frame (ms (by decide) hm)
    | with_reducible apply modStake_frame (ms (by decide) hm)
    | with_reducible apply modGen_frame (ms (by decide) hm)
    | with_reducible apply askShard_frame (ms (by decide) hm)
    | with_reducible apply tryBuildFrames_frame (ms (by decide) hm)

theorem stakeCommit_frame {x0} {s : State} {m : Nat} {o : State} (hm : 1052680 ||| m = m) (h : Fr m o s) : Fr m o (stakeCommit x0 s).2 := by
  unfold stakeCommit
  repeat'
    first
    | with_reducible assumption
    | (extract_lets +onlyGivenNames z; clear_value z; revert z; intro y)
    | with_reducible apply checked_frame (ms (by decide) hm)
    | with_reducible apply sendReady_frame (ms (by decide) hm)
    | with_reducible apply modStake_frame (ms (by decide) hm)

theorem stakeEvict_frame {x0} {s : State} {m : Nat} {o : State} (hm : 4096 ||| m = m) (h : Fr m o s) : Fr m o (stakeEvict x0 s).2 := by
  unfold stakeEvict
  repeat'
    first
    | with_reducible assumption
    | (extract_lets +onlyGivenNames z; clear_value z; revert z; intro y)
    | with_reducible apply checked_frame (ms (by decide) hm)
    | with_reducible apply modStake_frame (ms (by decide) hm)

theorem stakeQuery_frame {x0} {s : State} {m : Nat} {o : State} (hm : 0 ||| m = m) (h : Fr m o s) : Fr m o (stakeQuery x0 s).2 := by
  unfold stakeQuery
  repeat'
    first
    | with_reducible assumption
    | (extract_lets +onlyGivenNames z; clear_value z; revert z; intro y)
    | with_reducible apply checked_frame (ms (by decide) hm)

theorem stakeRegister_frame {x0} {s : State} {m : Nat} {o : State} (hm : 16781312 ||| m = m) (h : Fr m o s) : Fr m o (stakeRegister x0 s).2 := by
  unfold stakeRegister
  repeat'
    first
    | with_reducible assumption
    | (extract_lets +onlyGivenNames z; clear_value z; revert z; intro y)
    | with_reducible apply checked_frame (ms (by decide) hm)
    | with_reducible apply measured_frame (ms (by decide) hm)
    | with_reducible apply modStake_frame (ms (by decide) hm)

theorem setKey_frame {x0} {x1} {s : State} {m : Nat} {o : State} (hm : 16777216 ||| m = m) (h : Fr m o s) : Fr m o (State.setKey x0 x1 s) := by
  unfold State.setKey
  repeat'
    first
    | with_reducible assumption
    | with_reducible apply modTkey_frame (ms (by decide) hm)

theorem drain_frame {x0} {s : State} {m : Nat} {o : State} (hm : 16777216 ||| m = m) (h : Fr m o s) : Fr m o (State.drain x0 s) := by
  unfold State.drain
  repeat'
    first
    | with_reducible assumption
    | (intro _)
    | with_reducible apply setKey_frame (ms (by decide) hm)
    | with_reducible apply Fr_ite

theorem endMemWorks_frame {x0} {s : State} {m : Nat} {o : State} (hm : 35684488 ||| m = m) (h : Fr m o s) : Fr m o (State.endMemWorks x0 s) := by
  unfold State.endMemWorks
  repeat'
    first
    | with_reducible assumption
    | (intro _)
    | (extract_lets +onlyGivenNames z; refine (fun (hz : Fr m o z) => ?_) ?_; clear_value z; revert z; intro y hy; rotate_left; dsimp only [z]; clear z)
    | (extract_lets +onlyGivenNames z; refine (fun (_ : z = (z : Mem)) => ?_) rfl; subst z)
    | (extract_lets +onlyGivenNames z; clear_value z; revert z; intro y)
    | simp -zeta only [Fr_mk]
    | (with_reducible apply Fr_tables (ms (by decide) hm) <;> try with_reducible rfl)
    | with_reducible apply finalRecord_frame (ms (by decide) hm)
    | with_reducible apply each_frame

theorem forcedAbort_frame {x0} {s : State} {m : Nat} {o : State} (hm : 52463752 ||| m = m) (h : Fr m o s) : Fr m o (State.forcedAbort x0 s) := by
  unfold State.forcedAbort
  repeat'
    first
    | with_reducible assumption
    | (intro _)
    | (extract_lets +onlyGivenNames z; refine (fun (hz : Fr m o z) => ?_) ?_; clear_value z; revert z; intro y hy; rotate_left; dsimp only [z]; clear z)
    | (extract_lets +onlyGivenNames z; clear_value z; revert z; intro y)
    | simp -zeta only [Fr_mk]
    | with_reducible apply Fr_lid (ms (by decide) hm)
    | with_reducible apply endQueue_frame (ms (by decide) hm)
    | with_reducible apply endMove_frame (ms (by decide) hm)
    | with_reducible apply modWeaver_frame (ms (by decide) hm)
    | with_reducible apply dropMove_frame (ms (by decide) hm)
    | with_reducible apply journal_frame (ms (by decide) hm)
    | with_reducible apply setKey_frame (ms (by decide) hm)
    | with_reducible apply Fr_ite
    | with_reducible apply each_frame

theorem removalEnds_frame {x0} {x1} {s : State} {m : Nat} {o : State} (hm : 35651720 ||| m = m) (h : Fr m o s) : Fr m o (State.removalEnds x0 x1 s) := by
  unfold State.removalEnds
  repeat'
    first
    | with_reducible assumption
    | with_reducible apply finalRecord_frame (ms (by decide) hm)
    | with_reducible apply event_frame (ms (by decide) hm)
    | split

theorem revokedEvent_frame {x0} {s : State} {m : Nat} {o : State} (hm : 2097288 ||| m = m) (h : Fr m o s) : Fr m o (State.revokedEvent x0 s) := by
  unfold State.revokedEvent
  repeat'
    first
    | with_reducible assumption
    | (intro _)
    | (extract_lets +onlyGivenNames z; refine (fun (hz : Fr m o z) => ?_) ?_; clear_value z; revert z; intro y hy; rotate_left; dsimp only [z]; clear z)
    | (extract_lets +onlyGivenNames z; clear_value z; revert z; intro y)
    | with_reducible apply event_frame (ms (by decide) hm)
    | with_reducible apply Fr_ite

theorem scrub_frame {x0} {s : State} {m : Nat} {o : State} (hm : 31490944 ||| m = m) (h : Fr m o s) : Fr m o (State.scrub x0 s) := by
  unfold State.scrub
  repeat'
    first
    | with_reducible assumption
    | (intro _)
    | (extract_lets +onlyGivenNames z; refine (fun (hz : Fr m o z) => ?_) ?_; clear_value z; revert z; intro y hy; rotate_left; dsimp only [z]; clear z)
    | (extract_lets +onlyGivenNames z; refine (fun (_ : z = (z : Mem)) => ?_) rfl; subst z)
    | (extract_lets +onlyGivenNames z; clear_value z; revert z; intro y)
    | simp -zeta only [Fr_mk]
    | (with_reducible apply Fr_tables (ms (by decide) hm) <;> try with_reducible rfl)
    | with_reducible apply Fr_ups (ms (by decide) hm)
    | with_reducible apply Fr_host (ms (by decide) hm)
    | with_reducible apply Fr_mb (ms (by decide) hm)
    | with_reducible apply Fr_lid (ms (by decide) hm)
    | with_reducible apply zeroFrame_frame (ms (by decide) hm)
    | with_reducible apply forget_frame (ms (by decide) hm)
    | with_reducible apply clearCells_frame (ms (by decide) hm)
    | with_reducible apply measured_frame (ms (by decide) hm)
    | with_reducible apply modCtx_frame (ms (by decide) hm)
    | with_reducible apply Fr_ite
    | with_reducible apply each_frame

theorem scrubDone_frame {x0} {s : State} {m : Nat} {o : State} (hm : 44223624 ||| m = m) (h : Fr m o s) : Fr m o (State.scrubDone x0 s) := by
  unfold State.scrubDone
  repeat'
    first
    | with_reducible assumption
    | (intro _)
    | (extract_lets +onlyGivenNames z; refine (fun (hz : Fr m o z) => ?_) ?_; clear_value z; revert z; intro y hy; rotate_left; dsimp only [z]; clear z)
    | (extract_lets +onlyGivenNames z; refine (fun (_ : z = (z : Mem)) => ?_) rfl; subst z)
    | (extract_lets +onlyGivenNames z; clear_value z; revert z; intro y)
    | simp -zeta only [Fr_mk]
    | (with_reducible apply Fr_crs_weav_tables_train_ctxs (ms (by decide) hm) <;> try with_reducible rfl)
    | with_reducible apply removeComplete_frame (ms (by decide) hm)
    | with_reducible apply removalEnds_frame (ms (by decide) hm)
    | with_reducible apply Fr_ite
    | with_reducible apply each_frame

theorem startRemoval_frame {x0} {x1} {s : State} {m : Nat} {o : State} (hm : 1135078792 ||| m = m) (h : Fr m o s) : Fr m o (State.startRemoval x0 x1 s) := by
  unfold State.startRemoval
  repeat'
    first
    | with_reducible assumption
    | (intro _)
    | (extract_lets +onlyGivenNames z; refine (fun (hz : Fr m o z) => ?_) ?_; clear_value z; revert z; intro y hy; rotate_left; dsimp only [z]; clear z)
    | (extract_lets +onlyGivenNames z; clear_value z; revert z; intro y)
    | simp -zeta only [Fr_mk]
    | with_reducible apply Fr_lid (ms (by decide) hm)
    | with_reducible apply modTkey_frame (ms (by decide) hm)
    | with_reducible apply modCtx_frame (ms (by decide) hm)
    | with_reducible apply revokedEvent_frame (ms (by decide) hm)
    | with_reducible apply modQp_frame (ms (by decide) hm)
    | with_reducible apply endWork_frame (ms (by decide) hm)
    | with_reducible apply endMemWorks_frame (ms (by decide) hm)
    | with_reducible apply finalRecord_frame (ms (by decide) hm)
    | with_reducible apply closeKeyFlows_frame (ms (by decide) hm)
    | with_reducible apply startRemove_frame (ms (by decide) hm)
    | with_reducible apply modWeaver_frame (ms (by decide) hm)
    | with_reducible apply Fr_ite
    | with_reducible apply each_frame
    | split

theorem zeroised_frame {x0} {s : State} {m : Nat} {o : State} (hm : 25165824 ||| m = m) (h : Fr m o s) : Fr m o (State.zeroised x0 s) := by
  unfold State.zeroised
  repeat'
    first
    | with_reducible assumption
    | (intro _)
    | with_reducible apply modCtx_frame (ms (by decide) hm)
    | with_reducible apply modTkey_frame (ms (by decide) hm)
    | with_reducible apply Fr_ite

theorem atsInvalidate_frame {x0} {x1} {s : State} {m : Nat} {o : State} (hm : 2097160 ||| m = m) (h : Fr m o s) : Fr m o (State.atsInvalidate x0 x1 s) := by
  unfold State.atsInvalidate
  repeat'
    first
    | with_reducible assumption
    | (extract_lets +onlyGivenNames z; clear_value z; revert z; intro y)
    | simp -zeta only [Fr_mk]
    | with_reducible apply Fr_host (ms (by decide) hm)
    | with_reducible apply emit_frame (ms (by decide) hm)

theorem bmeRestored_frame {x0} {s : State} {m : Nat} {o : State} (hm : 2097288 ||| m = m) (h : Fr m o s) : Fr m o (State.bmeRestored x0 s) := by
  unfold State.bmeRestored
  repeat'
    first
    | with_reducible assumption
    | (intro _)
    | (extract_lets +onlyGivenNames z; refine (fun (hz : Fr m o z) => ?_) ?_; clear_value z; revert z; intro y hy; rotate_left; dsimp only [z]; clear z)
    | (extract_lets +onlyGivenNames z; clear_value z; revert z; intro y)
    | simp -zeta only [Fr_mk]
    | with_reducible apply Fr_host (ms (by decide) hm)
    | with_reducible apply modFn_frame (ms (by decide) hm)
    | with_reducible apply event_frame (ms (by decide) hm)
    | with_reducible apply drainEvents_frame (ms (by decide) hm)
    | with_reducible apply Fr_ite
    | split

theorem unacked_frame {x0} {s : State} {m : Nat} {o : State} (hm : 2097156 ||| m = m) (h : Fr m o s) : Fr m o (State.unacked x0 s) := by
  unfold State.unacked
  repeat'
    first
    | with_reducible assumption
    | (extract_lets +onlyGivenNames z; refine (fun (hz : Fr m o z.2) => ?_) ?_; clear_value z; revert z; intro y hy; rotate_left; dsimp only [z]; clear z)
    | (extract_lets +onlyGivenNames z; clear_value z; revert z; intro y)
    | with_reducible apply fresh_frame (ms (by decide) hm)
    | with_reducible apply modQp_frame (ms (by decide) hm)

theorem loseQueues_frame {x0} {s : State} {m : Nat} {o : State} (hm : 2097156 ||| m = m) (h : Fr m o s) : Fr m o (State.loseQueues x0 s) := by
  unfold State.loseQueues
  repeat'
    first
    | with_reducible assumption
    | (intro _)
    | (extract_lets +onlyGivenNames z; refine (fun (hz : Fr m o z) => ?_) ?_; clear_value z; revert z; intro y hy; rotate_left; dsimp only [z]; clear z)
    | (extract_lets +onlyGivenNames z; clear_value z; revert z; intro y)
    | with_reducible apply modQp_frame (ms (by decide) hm)
    | with_reducible apply unacked_frame (ms (by decide) hm)
    | with_reducible apply modFn_frame (ms (by decide) hm)
    | with_reducible apply each_frame

theorem loseLink_frame {s : State} {m : Nat} {o : State} (hm : 2097156 ||| m = m) (h : Fr m o s) : Fr m o (State.loseLink s) := by
  unfold State.loseLink
  repeat'
    first
    | with_reducible assumption
    | (extract_lets +onlyGivenNames z; refine (fun (hz : Fr m o z) => ?_) ?_; clear_value z; revert z; intro y hy; rotate_left; dsimp only [z]; clear z)
    | (extract_lets +onlyGivenNames z; clear_value z; revert z; intro y)
    | simp -zeta only [Fr_mk]
    | with_reducible apply Fr_host (ms (by decide) hm)
    | with_reducible apply loseQueues_frame (ms (by decide) hm)

theorem dlDown_frame {s : State} {m : Nat} {o : State} (hm : 35651724 ||| m = m) (h : Fr m o s) : Fr m o (State.dlDown s) := by
  unfold State.dlDown
  repeat'
    first
    | with_reducible assumption
    | (intro _)
    | (extract_lets +onlyGivenNames z; refine (fun (hz : Fr m o z) => ?_) ?_; clear_value z; revert z; intro y hy; rotate_left; dsimp only [z]; clear z)
    | with_reducible apply loseLink_frame (ms (by decide) hm)
    | with_reducible apply endQueue_frame (ms (by decide) hm)
    | with_reducible apply Fr_ite
    | with_reducible apply each_frame

theorem endFlr_frame {s : State} {m : Nat} {o : State} (hm : 35909512 ||| m = m) (h : Fr m o s) : Fr m o (State.endFlr s) := by
  unfold State.endFlr
  repeat'
    first
    | with_reducible assumption
    | (intro _)
    | (extract_lets +onlyGivenNames z; refine (fun (hz : Fr m o z) => ?_) ?_; clear_value z; revert z; intro y hy; rotate_left; dsimp only [z]; clear z)
    | (extract_lets +onlyGivenNames z; clear_value z; revert z; intro y)
    | simp -zeta only [Fr_mk]
    | with_reducible apply Fr_host (ms (by decide) hm)
    | with_reducible apply clearCells_frame (ms (by decide) hm)
    | with_reducible apply endWork_frame (ms (by decide) hm)
    | with_reducible apply each_frame

theorem flr_frame {x0} {s : State} {m : Nat} {o : State} (hm : 40103820 ||| m = m) (h : Fr m o s) : Fr m o (State.flr x0 s) := by
  unfold State.flr
  repeat'
    first
    | with_reducible assumption
    | (intro _)
    | (extract_lets +onlyGivenNames z; refine (fun (hz : Fr m o z) => ?_) ?_; clear_value z; revert z; intro y hy; rotate_left; dsimp only [z]; clear z)
    | (extract_lets +onlyGivenNames z; clear_value z; revert z; intro y)
    | simp -zeta only [Fr_mk]
    | with_reducible apply Fr_host (ms (by decide) hm)
    | with_reducible apply Fr_mb (ms (by decide) hm)
    | with_reducible apply loseQueues_frame (ms (by decide) hm)
    | with_reducible apply clearCells_frame (ms (by decide) hm)
    | with_reducible apply endWork_frame (ms (by decide) hm)
    | with_reducible apply freeQueue_frame (ms (by decide) hm)
    | with_reducible apply modFn_frame (ms (by decide) hm)
    | with_reducible apply Fr_ite
    | with_reducible apply each_frame

theorem modExpiry_frame {x0} {x1} {s : State} {m : Nat} {o : State} (hm : 2097160 ||| m = m) (h : Fr m o s) : Fr m o (State.modExpiry x0 x1 s) := by
  unfold State.modExpiry
  repeat'
    first
    | with_reducible assumption
    | (intro _)
    | (extract_lets +onlyGivenNames z; clear_value z; revert z; intro y)
    | with_reducible apply modRing_frame (ms (by decide) hm)
    | with_reducible apply emit_frame (ms (by decide) hm)
    | with_reducible apply Fr_ite

theorem vfEnable_frame {x0} {s : State} {m : Nat} {o : State} (hm : 2097152 ||| m = m) (h : Fr m o s) : Fr m o (State.vfEnable x0 s) := by
  unfold State.vfEnable
  repeat'
    first
    | with_reducible assumption
    | (intro _)
    | (extract_lets +onlyGivenNames z; clear_value z; revert z; intro y)
    | simp -zeta only [Fr_mk]
    | with_reducible apply Fr_host (ms (by decide) hm)
    | with_reducible apply Fr_ite

theorem bankZeroed_frame {x0} {s : State} {m : Nat} {o : State} (hm : 256 ||| m = m) (h : Fr m o s) : Fr m o (State.bankZeroed x0 s) := by
  unfold State.bankZeroed
  repeat'
    first
    | with_reducible assumption
    | (intro _)
    | with_reducible apply modCell_frame (ms (by decide) hm)
    | with_reducible apply Fr_ite

theorem bindSpare_frame {x0} {s : State} {m : Nat} {o : State} (hm : 52429708 ||| m = m) (h : Fr m o s) : Fr m o (State.bindSpare x0 s) := by
  unfold State.bindSpare
  repeat'
    first
    | with_reducible assumption
    | (intro _)
    | (extract_lets +onlyGivenNames z; refine (fun (hz : Fr m o z) => ?_) ?_; clear_value z; revert z; intro y hy; rotate_left; dsimp only [z]; clear z)
    | (extract_lets +onlyGivenNames z; refine (fun (hz : Fr m o z.2) => ?_) ?_; clear_value z; revert z; intro y hy; rotate_left; dsimp only [z]; clear z)
    | (extract_lets +onlyGivenNames z; refine (fun (hz : ∀ a t, Fr m o t → Fr m o (z a t)) => ?_) ?_; clear_value z; revert z; intro y hy; rotate_left; dsimp only [z]; clear z)
    | (extract_lets +onlyGivenNames z; clear_value z; revert z; intro y)
    | simp -zeta only [Fr_mk]
    | with_reducible apply Fr_ups (ms (by decide) hm)
    | with_reducible apply modCell_frame (ms (by decide) hm)
    | with_reducible apply fresh_frame (ms (by decide) hm)
    | with_reducible apply journal_frame (ms (by decide) hm)
    | with_reducible apply measured_frame (ms (by decide) hm)
    | with_reducible apply Fr_ite
    | with_reducible apply Fr_ite2
    | with_reducible apply_assumption

theorem keepImage_frame {x0} {s : State} {m : Nat} {o : State} (hm : 33554432 ||| m = m) (h : Fr m o s) : Fr m o (State.keepImage x0 s) := by
  unfold State.keepImage
  repeat'
    first
    | with_reducible assumption
    | (intro _)
    | (extract_lets +onlyGivenNames z; clear_value z; revert z; intro y)
    | simp -zeta only [Fr_mk]
    | with_reducible apply Fr_flt (ms (by decide) hm)
    | with_reducible apply Fr_ite
    | split

theorem cellFails_frame {x0} {s : State} {m : Nat} {o : State} (hm : 35719048 ||| m = m) (h : Fr m o s) : Fr m o (State.cellFails x0 s) := by
  unfold State.cellFails
  repeat'
    first
    | with_reducible assumption
    | (intro _)
    | (extract_lets +onlyGivenNames z; refine (fun (hz : Fr m o z) => ?_) ?_; clear_value z; revert z; intro y hy; rotate_left; dsimp only [z]; clear z)
    | (extract_lets +onlyGivenNames z; clear_value z; revert z; intro y)
    | simp -zeta only [Fr_mk]
    | with_reducible apply Fr_ups (ms (by decide) hm)
    | with_reducible apply keepImage_frame (ms (by decide) hm)
    | with_reducible apply journal_frame (ms (by decide) hm)
    | with_reducible apply stopCourse_frame (ms (by decide) hm)
    | with_reducible apply Fr_ite
    | with_reducible apply each_frame

theorem cellSaved_frame {x0} {s : State} {m : Nat} {o : State} (hm : 41728 ||| m = m) (h : Fr m o s) : Fr m o (State.cellSaved x0 s) := by
  unfold State.cellSaved
  repeat'
    first
    | with_reducible assumption
    | (intro _)
    | (extract_lets +onlyGivenNames z; refine (fun (hz : Fr m o z) => ?_) ?_; clear_value z; revert z; intro y hy; rotate_left; dsimp only [z]; clear z)
    | with_reducible apply modCell_frame (ms (by decide) hm)
    | with_reducible apply takeSave_frame (ms (by decide) hm)
    | with_reducible apply saveImage_frame (ms (by decide) hm)
    | with_reducible apply Fr_ite
    | split

theorem restoreCheck_frame {x0} {s : State} {m : Nat} {o : State} (hm : 35719048 ||| m = m) (h : Fr m o s) : Fr m o (State.restoreCheck x0 s) := by
  unfold State.restoreCheck
  repeat'
    first
    | with_reducible assumption
    | (intro _)
    | (extract_lets +onlyGivenNames z; refine (fun (hz : Fr m o z) => ?_) ?_; clear_value z; revert z; intro y hy; rotate_left; dsimp only [z]; clear z)
    | (extract_lets +onlyGivenNames z; clear_value z; revert z; intro y)
    | with_reducible apply modCell_frame (ms (by decide) hm)
    | with_reducible apply journal_frame (ms (by decide) hm)
    | with_reducible apply stopCourse_frame (ms (by decide) hm)
    | with_reducible apply cellFails_frame (ms (by decide) hm)
    | with_reducible apply Fr_ite
    | split

theorem spareLoaded_frame {x0} {s : State} {m : Nat} {o : State} (hm : 35909512 ||| m = m) (h : Fr m o s) : Fr m o (State.spareLoaded x0 s) := by
  unfold State.spareLoaded
  repeat'
    first
    | with_reducible assumption
    | (intro _)
    | (extract_lets +onlyGivenNames z; refine (fun (hz : Fr m o z) => ?_) ?_; clear_value z; revert z; intro y hy; rotate_left; dsimp only [z]; clear z)
    | (extract_lets +onlyGivenNames z; clear_value z; revert z; intro y)
    | simp -zeta only [Fr_mk]
    | with_reducible apply Fr_ups (ms (by decide) hm)
    | with_reducible apply replay_frame (ms (by decide) hm)
    | with_reducible apply Fr_ite
    | with_reducible apply each_frame

theorem stageImage_frame {x0} {s : State} {m : Nat} {o : State} (hm : 16777728 ||| m = m) (h : Fr m o s) : Fr m o (State.stageImage x0 s) := by
  unfold State.stageImage
  repeat'
    first
    | with_reducible assumption
    | (extract_lets +onlyGivenNames z; clear_value z; revert z; intro y)
    | simp -zeta only [Fr_mk]
    | with_reducible apply Fr_ups (ms (by decide) hm)
    | with_reducible apply measured_frame (ms (by decide) hm)

theorem switchImage_frame {s : State} {m : Nat} {o : State} (hm : 16777728 ||| m = m) (h : Fr m o s) : Fr m o (State.switchImage s) := by
  unfold State.switchImage
  repeat'
    first
    | with_reducible assumption
    | (intro _)
    | (extract_lets +onlyGivenNames z; clear_value z; revert z; intro y)
    | simp -zeta only [Fr_mk]
    | with_reducible apply Fr_ups (ms (by decide) hm)
    | with_reducible apply measured_frame (ms (by decide) hm)
    | with_reducible apply Fr_ite

theorem presentFrom_frame {x0} {s : State} {m : Nat} {o : State} (hm : 1048576 ||| m = m) (h : Fr m o s) : Fr m o (State.presentFrom x0 s) := by
  unfold State.presentFrom
  repeat'
    first
    | with_reducible assumption
    | (intro _)
    | (extract_lets +onlyGivenNames z; clear_value z; revert z; intro y)
    | simp -zeta only [Fr_mk]
    | with_reducible apply Fr_hoop (ms (by decide) hm)
    | with_reducible apply Fr_ite

theorem stakeReady_frame {x0} {x1} {x2} {x3} {s : State} {m : Nat} {o : State} (hm : 4096 ||| m = m) (h : Fr m o s) : Fr m o (State.stakeReady x0 x1 x2 x3 s) := by
  unfold State.stakeReady
  repeat'
    first
    | with_reducible assumption
    | (intro _)
    | with_reducible apply modStake_frame (ms (by decide) hm)
    | with_reducible apply Fr_ite
    | split

theorem stakeGo_frame {x0} {x1} {x2} {s : State} {m : Nat} {o : State} (hm : 4096 ||| m = m) (h : Fr m o s) : Fr m o (State.stakeGo x0 x1 x2 s) := by
  unfold State.stakeGo
  repeat'
    first
    | with_reducible assumption
    | (intro _)
    | with_reducible apply modStake_frame (ms (by decide) hm)
    | with_reducible apply Fr_ite
    | split

theorem stakeAbortMsg_frame {x0} {x1} {x2} {s : State} {m : Nat} {o : State} (hm : 35655816 ||| m = m) (h : Fr m o s) : Fr m o (State.stakeAbortMsg x0 x1 x2 s) := by
  unfold State.stakeAbortMsg
  repeat'
    first
    | with_reducible assumption
    | (intro _)
    | with_reducible apply abortCommit_frame (ms (by decide) hm)
    | with_reducible apply Fr_ite
    | split

theorem stakeCurrent_frame {x0} {x1} {s : State} {m : Nat} {o : State} (hm : 4096 ||| m = m) (h : Fr m o s) : Fr m o (State.stakeCurrent x0 x1 s) := by
  unfold State.stakeCurrent
  repeat'
    first
    | with_reducible assumption
    | (intro _)
    | with_reducible apply modStake_frame (ms (by decide) hm)
    | with_reducible apply Fr_ite
    | split

theorem actOn_frame {x0} {s : State} {m : Nat} {o : State} (hm : 36704392 ||| m = m) (h : Fr m o s) : Fr m o (State.actOn x0 s) := by
  unfold State.actOn
  repeat'
    first
    | with_reducible assumption
    | (extract_lets +onlyGivenNames z; clear_value z; revert z; intro y)
    | with_reducible apply presentFrom_frame (ms (by decide) hm)
    | with_reducible apply stakeReady_frame (ms (by decide) hm)
    | with_reducible apply stakeGo_frame (ms (by decide) hm)
    | with_reducible apply stakeAbortMsg_frame (ms (by decide) hm)
    | with_reducible apply stakeCurrent_frame (ms (by decide) hm)
    | split

theorem bypassClose_frame {x0} {s : State} {m : Nat} {o : State} (hm : 1048576 ||| m = m) (h : Fr m o s) : Fr m o (State.bypassClose x0 s) := by
  unfold State.bypassClose
  repeat'
    first
    | with_reducible assumption
    | (extract_lets +onlyGivenNames z; clear_value z; revert z; intro y)
    | simp -zeta only [Fr_mk]
    | with_reducible apply Fr_hoop (ms (by decide) hm)

theorem bypassSwitch_frame {s : State} {m : Nat} {o : State} (hm : 1048576 ||| m = m) (h : Fr m o s) : Fr m o (State.bypassSwitch s) := by
  unfold State.bypassSwitch
  repeat'
    first
    | with_reducible assumption
    | (intro _)
    | (extract_lets +onlyGivenNames z; clear_value z; revert z; intro y)
    | simp -zeta only [Fr_mk]
    | with_reducible apply Fr_hoop (ms (by decide) hm)
    | with_reducible apply Fr_ite

theorem mgmtFrame_frame {x0} {s : State} {m : Nat} {o : State} (hm : 36704392 ||| m = m) (h : Fr m o s) : Fr m o (State.mgmtFrame x0 s) := by
  unfold State.mgmtFrame
  repeat'
    first
    | with_reducible assumption
    | (intro _)
    | (extract_lets +onlyGivenNames z; refine (fun (hz : Fr m o z) => ?_) ?_; clear_value z; revert z; intro y hy; rotate_left; dsimp only [z]; clear z)
    | (extract_lets +onlyGivenNames z; clear_value z; revert z; intro y)
    | simp -zeta only [Fr_mk]
    | with_reducible apply Fr_hoop (ms (by decide) hm)
    | with_reducible apply actOn_frame (ms (by decide) hm)
    | with_reducible apply emit_frame (ms (by decide) hm)
    | with_reducible apply Fr_ite

theorem blockLoses_frame {x0} {x1} {s : State} {m : Nat} {o : State} (hm : 1128072584 ||| m = m) (h : Fr m o s) : Fr m o (State.blockLoses x0 x1 s) := by
  unfold State.blockLoses
  repeat'
    first
    | with_reducible assumption
    | (intro _)
    | (extract_lets +onlyGivenNames z; refine (fun (hz : Fr m o z) => ?_) ?_; clear_value z; revert z; intro y hy; rotate_left; dsimp only [z]; clear z)
    | (extract_lets +onlyGivenNames z; clear_value z; revert z; intro y)
    | simp -zeta only [Fr_mk]
    | with_reducible apply Fr_cells (ms (by decide) hm)
    | with_reducible apply stopCourse_frame (ms (by decide) hm)
    | with_reducible apply closeSeq_frame (ms (by decide) hm)
    | with_reducible apply copyEnds_frame (ms (by decide) hm)
    | with_reducible apply linkDown_frame (ms (by decide) hm)
    | with_reducible apply bypassClose_frame (ms (by decide) hm)
    | with_reducible apply Fr_ite
    | with_reducible apply each_frame
    | split

theorem blockRelease_frame {s : State} {m : Nat} {o : State} (hm : 170126728 ||| m = m) (h : Fr m o s) : Fr m o (State.blockRelease s) := by
  unfold State.blockRelease
  repeat'
    first
    | with_reducible assumption
    | (intro _)
    | (extract_lets +onlyGivenNames z; clear_value z; revert z; intro y)
    | simp -zeta only [Fr_mk]
    | with_reducible apply Fr_rst (ms (by decide) hm)
    | with_reducible apply replayReady_frame (ms (by decide) hm)
    | with_reducible apply Fr_ite

theorem coldStart_frame {x0} {x1} {s : State} {m : Nat} {o : State} (hm : 2147483647 ||| m = m) (h : Fr m o s) : Fr m o (State.coldStart x0 x1 s) := Fr_full hm

theorem cold_frame {x0} {s : State} {m : Nat} {o : State} (hm : 2147483647 ||| m = m) (h : Fr m o s) : Fr m o (State.cold x0 s) := by
  unfold State.cold
  repeat'
    first
    | with_reducible assumption
    | with_reducible apply coldStart_frame (ms (by decide) hm)

theorem countCrossing_frame {x0} {s : State} {m : Nat} {o : State} (hm : 67108864 ||| m = m) (h : Fr m o s) : Fr m o (State.countCrossing x0 s) := by
  unfold State.countCrossing
  repeat'
    first
    | with_reducible assumption
    | with_reducible apply modSup_frame (ms (by decide) hm)

theorem keepSticky_frame {s : State} {s2 : State} {m : Nat} {o : State} (hm : 234979328 ||| m = m) (h : Fr m o s) (h2 : Fr m o s2) : Fr m o (State.keepSticky s s2) := by
  unfold State.keepSticky
  repeat'
    first
    | with_reducible assumption
    | (extract_lets +onlyGivenNames z; refine (fun (_ : z = (z : Mem)) => ?_) rfl; subst z)
    | (extract_lets +onlyGivenNames z; clear_value z; revert z; intro y)
    | simp -zeta only [Fr_mk]
    | (with_reducible apply Fr_tables_msd_flt_pwr_rst (ms (by decide) hm) <;> try with_reducible rfl)

theorem d3cold_frame {s : State} {m : Nat} {o : State} (hm : 2147483647 ||| m = m) (h : Fr m o s) : Fr m o (State.d3cold s) := by
  unfold State.d3cold
  repeat'
    first
    | with_reducible assumption
    | (intro _)
    | (extract_lets +onlyGivenNames z; refine (fun (hz : Fr m o z) => ?_) ?_; clear_value z; revert z; intro y hy; rotate_left; dsimp only [z]; clear z)
    | (extract_lets +onlyGivenNames z; clear_value z; revert z; intro y)
    | simp -zeta only [Fr_mk]
    | with_reducible apply Fr_lid_pwr (ms (by decide) hm)
    | with_reducible apply keepSticky_frame (ms (by decide) hm)
    | with_reducible apply coldStart_frame (ms (by decide) hm)
    | with_reducible apply Fr_ite

theorem sendSetpoint_frame {x0} {s : State} {m : Nat} {o : State} (hm : 8 ||| m = m) (h : Fr m o s) : Fr m o (State.sendSetpoint x0 s) := by
  unfold State.sendSetpoint
  repeat'
    first
    | with_reducible assumption
    | with_reducible apply emit_frame (ms (by decide) hm)

theorem deviceReady_frame {s : State} {m : Nat} {o : State} (hm : 497549320 ||| m = m) (h : Fr m o s) : Fr m o (State.deviceReady s) := by
  unfold State.deviceReady
  repeat'
    first
    | with_reducible assumption
    | (intro _)
    | (extract_lets +onlyGivenNames z; refine (fun (hz : Fr m o z) => ?_) ?_; clear_value z; revert z; intro y hy; rotate_left; dsimp only [z]; clear z)
    | (extract_lets +onlyGivenNames z; clear_value z; revert z; intro y)
    | simp -zeta only [Fr_mk]
    | with_reducible apply Fr_cxl_host_lid_pwr_rst_fw (ms (by decide) hm)
    | with_reducible apply zeroised_frame (ms (by decide) hm)
    | with_reducible apply sendSetpoint_frame (ms (by decide) hm)
    | with_reducible apply Fr_ite
    | with_reducible apply each_frame

theorem endPending_frame {x0} {s : State} {m : Nat} {o : State} (hm : 111411080 ||| m = m) (h : Fr m o s) : Fr m o (State.endPending x0 s) := by
  unfold State.endPending
  repeat'
    first
    | with_reducible assumption
    | (intro _)
    | (extract_lets +onlyGivenNames z; refine (fun (hz : Fr m o z) => ?_) ?_; clear_value z; revert z; intro y hy; rotate_left; dsimp only [z]; clear z)
    | (extract_lets +onlyGivenNames z; refine (fun (_ : z = (z : Mem)) => ?_) rfl; subst z)
    | (extract_lets +onlyGivenNames z; clear_value z; revert z; intro y)
    | simp -zeta only [Fr_mk]
    | (with_reducible apply Fr_tables (ms (by decide) hm) <;> try with_reducible rfl)
    | with_reducible apply Fr_pwr (ms (by decide) hm)
    | with_reducible apply finishQueues_frame (ms (by decide) hm)
    | with_reducible apply dropRedeliver_frame (ms (by decide) hm)
    | with_reducible apply finalRecord_frame (ms (by decide) hm)
    | with_reducible apply buildFails_frame (ms (by decide) hm)
    | with_reducible apply modStake_frame (ms (by decide) hm)
    | with_reducible apply modWeaver_frame (ms (by decide) hm)
    | with_reducible apply modQp_frame (ms (by decide) hm)
    | with_reducible apply applyReset_frame (ms (by decide) hm)
    | with_reducible apply each_frame
    | split

theorem endAllWork_frame {x0} {x1} {s : State} {m : Nat} {o : State} (hm : 35909000 ||| m = m) (h : Fr m o s) : Fr m o (State.endAllWork x0 x1 s) := by
  unfold State.endAllWork
  repeat'
    first
    | with_reducible assumption
    | (intro _)
    | with_reducible apply endWork_frame (ms (by decide) hm)
    | with_reducible apply each_frame

theorem warmFields_frame {s : State} {m : Nat} {o : State} (hm : 1468002288 ||| m = m) (h : Fr m o s) : Fr m o (State.warmFields s) := by
  unfold State.warmFields
  repeat'
    first
    | with_reducible assumption
    | (extract_lets +onlyGivenNames z; refine (fun (_ : z = (z : Mem)) => ?_) rfl; subst z)
    | (extract_lets +onlyGivenNames z; clear_value z; revert z; intro y)
    | simp -zeta only [Fr_mk]
    | with_reducible apply Fr_latch_rsvdAcc_rnd_bud_cells_ups_crs_weav_hbm_slow_tables_msd_train_ports_txHeld_cxl_hoop_host_mb_lid_flt_pwr_fw (ms (by decide) hm)

theorem warm_frame {x0} {s : State} {m : Nat} {o : State} (hm : 1610612732 ||| m = m) (h : Fr m o s) : Fr m o (State.warm x0 s) := by
  unfold State.warm
  repeat'
    first
    | with_reducible assumption
    | (intro _)
    | (extract_lets +onlyGivenNames z; refine (fun (hz : Fr m o z) => ?_) ?_; clear_value z; revert z; intro y hy; rotate_left; dsimp only [z]; clear z)
    | (extract_lets +onlyGivenNames z; clear_value z; revert z; intro y)
    | simp -zeta only [Fr_mk]
    | with_reducible apply Fr_host (ms (by decide) hm)
    | with_reducible apply Fr_rst (ms (by decide) hm)
    | with_reducible apply endPending_frame (ms (by decide) hm)
    | with_reducible apply endAllWork_frame (ms (by decide) hm)
    | with_reducible apply loseLink_frame (ms (by decide) hm)
    | with_reducible apply setKey_frame (ms (by decide) hm)
    | with_reducible apply rekey_frame (ms (by decide) hm)
    | with_reducible apply warmFields_frame (ms (by decide) hm)
    | with_reducible apply measured_frame (ms (by decide) hm)
    | with_reducible apply Fr_ite
    | with_reducible apply each_frame

theorem lidReset_frame {x0} {s : State} {m : Nat} {o : State} (hm : 2147483647 ||| m = m) (h : Fr m o s) : Fr m o (State.lidReset x0 s) := by
  unfold State.lidReset
  repeat'
    first
    | with_reducible assumption
    | (intro _)
    | (extract_lets +onlyGivenNames z; refine (fun (hz : Fr m o z) => ?_) ?_; clear_value z; revert z; intro y hy; rotate_left; dsimp only [z]; clear z)
    | (extract_lets +onlyGivenNames z; clear_value z; revert z; intro y)
    | simp -zeta only [Fr_mk]
    | with_reducible apply Fr_pwr (ms (by decide) hm)
    | with_reducible apply startRemoval_frame (ms (by decide) hm)
    | with_reducible apply endPending_frame (ms (by decide) hm)
    | with_reducible apply endWork_frame (ms (by decide) hm)
    | with_reducible apply coldStart_frame (ms (by decide) hm)
    | with_reducible apply Fr_ite
    | with_reducible apply each_frame

theorem domainReset_frame {x0} {s : State} {m : Nat} {o : State} (hm : 2147483647 ||| m = m) (h : Fr m o s) : Fr m o (State.domainReset x0 s) := by
  unfold State.domainReset
  repeat'
    first
    | with_reducible assumption
    | (intro _)
    | (extract_lets +onlyGivenNames z; refine (fun (hz : Fr m o z) => ?_) ?_; clear_value z; revert z; intro y hy; rotate_left; dsimp only [z]; clear z)
    | (extract_lets +onlyGivenNames z; clear_value z; revert z; intro y)
    | with_reducible apply journal_frame (ms (by decide) hm)
    | with_reducible apply warm_frame (ms (by decide) hm)
    | with_reducible apply blockReset_frame (ms (by decide) hm)
    | with_reducible apply dlDown_frame (ms (by decide) hm)
    | with_reducible apply cold_frame (ms (by decide) hm)
    | with_reducible apply lidReset_frame (ms (by decide) hm)
    | with_reducible apply Fr_ite
    | with_reducible apply each_frame
    | split

theorem fwFallback_frame {s : State} {m : Nat} {o : State} (hm : 320864392 ||| m = m) (h : Fr m o s) : Fr m o (State.fwFallback s) := by
  unfold State.fwFallback
  repeat'
    first
    | with_reducible assumption
    | (intro _)
    | (extract_lets +onlyGivenNames z; clear_value z; revert z; intro y)
    | simp -zeta only [Fr_mk]
    | with_reducible apply Fr_fw (ms (by decide) hm)
    | with_reducible apply journal_frame (ms (by decide) hm)
    | with_reducible apply rekey_frame (ms (by decide) hm)
    | with_reducible apply Fr_ite

theorem idleWaitEnds_frame {x0} {s : State} {m : Nat} {o : State} (hm : 1262290316 ||| m = m) (h : Fr m o s) : Fr m o (State.idleWaitEnds x0 s) := by
  unfold State.idleWaitEnds
  repeat'
    first
    | with_reducible assumption
    | (intro _)
    | (extract_lets +onlyGivenNames z; refine (fun (hz : Fr m o z) => ?_) ?_; clear_value z; revert z; intro y hy; rotate_left; dsimp only [z]; clear z)
    | (extract_lets +onlyGivenNames z; refine (fun (hz : Fr m o z.2) => ?_) ?_; clear_value z; revert z; intro y hy; rotate_left; dsimp only [z]; clear z)
    | (extract_lets +onlyGivenNames z; clear_value z; revert z; intro y)
    | simp -zeta only [Fr_mk]
    | with_reducible apply Fr_rst (ms (by decide) hm)
    | with_reducible apply fresh_frame (ms (by decide) hm)
    | with_reducible apply journal_frame (ms (by decide) hm)
    | with_reducible apply blockLoses_frame (ms (by decide) hm)
    | with_reducible apply Fr_ite
    | split

theorem perstAssert_frame {s : State} {m : Nat} {o : State} (hm : 1610612732 ||| m = m) (h : Fr m o s) : Fr m o (State.perstAssert s) := by
  unfold State.perstAssert
  repeat'
    first
    | with_reducible assumption
    | (intro _)
    | (extract_lets +onlyGivenNames z; refine (fun (hz : Fr m o z) => ?_) ?_; clear_value z; revert z; intro y hy; rotate_left; dsimp only [z]; clear z)
    | (extract_lets +onlyGivenNames z; clear_value z; revert z; intro y)
    | simp -zeta only [Fr_mk]
    | with_reducible apply Fr_host_rst (ms (by decide) hm)
    | with_reducible apply warm_frame (ms (by decide) hm)
    | with_reducible apply Fr_ite

theorem perstDeassert_frame {s : State} {m : Nat} {o : State} (hm : 136314880 ||| m = m) (h : Fr m o s) : Fr m o (State.perstDeassert s) := by
  unfold State.perstDeassert
  repeat'
    first
    | with_reducible assumption
    | (intro _)
    | (extract_lets +onlyGivenNames z; clear_value z; revert z; intro y)
    | simp -zeta only [Fr_mk]
    | with_reducible apply Fr_host_rst (ms (by decide) hm)
    | with_reducible apply Fr_ite

theorem powerReturns_frame {s : State} {m : Nat} {o : State} (hm : 2147483647 ||| m = m) (h : Fr m o s) : Fr m o (State.powerReturns s) := by
  unfold State.powerReturns
  repeat'
    first
    | with_reducible assumption
    | (intro _)
    | with_reducible apply keepSticky_frame (ms (by decide) hm)
    | with_reducible apply coldStart_frame (ms (by decide) hm)
    | with_reducible apply Fr_ite

theorem railCrosses_frame {x0} {s : State} {m : Nat} {o : State} (hm : 2147483647 ||| m = m) (h : Fr m o s) : Fr m o (State.railCrosses x0 s) := by
  unfold State.railCrosses
  repeat'
    first
    | with_reducible assumption
    | (intro _)
    | (extract_lets +onlyGivenNames z; refine (fun (hz : Fr m o z) => ?_) ?_; clear_value z; revert z; intro y hy; rotate_left; dsimp only [z]; clear z)
    | (extract_lets +onlyGivenNames z; clear_value z; revert z; intro y)
    | simp -zeta only [Fr_mk]
    | with_reducible apply Fr_pwr (ms (by decide) hm)
    | with_reducible apply countCrossing_frame (ms (by decide) hm)
    | with_reducible apply domainReset_frame (ms (by decide) hm)
    | with_reducible apply Fr_ite

theorem warmReset_frame {x0} {s : State} {m : Nat} {o : State} (hm : 1610612732 ||| m = m) (h : Fr m o s) : Fr m o (State.warmReset x0 s) := by
  unfold State.warmReset
  repeat'
    first
    | with_reducible assumption
    | (intro _)
    | with_reducible apply perstAssert_frame (ms (by decide) hm)
    | with_reducible apply warm_frame (ms (by decide) hm)
    | with_reducible apply Fr_ite
    | split

theorem windowExpires_frame {x0} {s : State} {m : Nat} {o : State} (hm : 2147483647 ||| m = m) (h : Fr m o s) : Fr m o (State.windowExpires x0 s) := by
  unfold State.windowExpires
  repeat'
    first
    | with_reducible assumption
    | (intro _)
    | (extract_lets +onlyGivenNames z; refine (fun (hz : Fr m o z) => ?_) ?_; clear_value z; revert z; intro y hy; rotate_left; dsimp only [z]; clear z)
    | (extract_lets +onlyGivenNames z; clear_value z; revert z; intro y)
    | simp -zeta only [Fr_mk]
    | with_reducible apply Fr_pwr (ms (by decide) hm)
    | with_reducible apply countCrossing_frame (ms (by decide) hm)
    | with_reducible apply domainReset_frame (ms (by decide) hm)
    | with_reducible apply Fr_ite
    | with_reducible apply each_frame
    | split

theorem copyEngineFails_frame {x0} {s : State} {m : Nat} {o : State} (hm : 169869448 ||| m = m) (h : Fr m o s) : Fr m o (State.copyEngineFails x0 s) := by
  unfold State.copyEngineFails
  repeat'
    first
    | with_reducible assumption
    | with_reducible apply blockReset_frame (ms (by decide) hm)
    | with_reducible apply journal_frame (ms (by decide) hm)

theorem setLink_frame {x0} {x1} {x2} {s : State} {m : Nat} {o : State} (hm : 33554432 ||| m = m) (h : Fr m o s) : Fr m o (State.setLink x0 x1 x2 s) := by
  unfold State.setLink
  repeat'
    first
    | with_reducible assumption
    | (extract_lets +onlyGivenNames z; clear_value z; revert z; intro y)
    | simp -zeta only [Fr_mk]
    | with_reducible apply Fr_flt (ms (by decide) hm)

theorem retrainFails_frame {x0} {x1} {x2} {s : State} {m : Nat} {o : State} (hm : 36957576 ||| m = m) (h : Fr m o s) : Fr m o (State.retrainFails x0 x1 x2 s) := by
  unfold State.retrainFails
  repeat'
    first
    | with_reducible assumption
    | (intro _)
    | (extract_lets +onlyGivenNames z; refine (fun (hz : Fr m o z) => ?_) ?_; clear_value z; revert z; intro y hy; rotate_left; dsimp only [z]; clear z)
    | with_reducible apply setLink_frame (ms (by decide) hm)
    | with_reducible apply halt_frame (ms (by decide) hm)
    | with_reducible apply Fr_ite

theorem fabricFails_frame {x0} {x1} {s : State} {m : Nat} {o : State} (hm : 36957576 ||| m = m) (h : Fr m o s) : Fr m o (State.fabricFails x0 x1 s) := by
  unfold State.fabricFails
  repeat'
    first
    | with_reducible assumption
    | (intro _)
    | with_reducible apply retrainFails_frame (ms (by decide) hm)
    | with_reducible apply Fr_ite
    | split

theorem faultStops_frame {x0} {x1} {s : State} {m : Nat} {o : State} (hm : 35718536 ||| m = m) (h : Fr m o s) : Fr m o (State.faultStops x0 x1 s) := by
  unfold State.faultStops
  repeat'
    first
    | with_reducible assumption
    | (intro _)
    | with_reducible apply journal_frame (ms (by decide) hm)
    | with_reducible apply stopCourse_frame (ms (by decide) hm)
    | with_reducible apply each_frame
    | split

theorem firmwareRestarts_frame {s : State} {m : Nat} {o : State} (hm : 39977096 ||| m = m) (h : Fr m o s) : Fr m o (State.firmwareRestarts s) := by
  unfold State.firmwareRestarts
  repeat'
    first
    | with_reducible assumption
    | (intro _)
    | (extract_lets +onlyGivenNames z; refine (fun (hz : Fr m o z) => ?_) ?_; clear_value z; revert z; intro y hy; rotate_left; dsimp only [z]; clear z)
    | (extract_lets +onlyGivenNames z; clear_value z; revert z; intro y)
    | simp -zeta only [Fr_mk]
    | with_reducible apply Fr_train (ms (by decide) hm)
    | with_reducible apply journal_frame (ms (by decide) hm)
    | with_reducible apply answer_frame (ms (by decide) hm)
    | with_reducible apply each_frame

theorem flitFails_frame {x0} {x1} {s : State} {m : Nat} {o : State} (hm : 35718536 ||| m = m) (h : Fr m o s) : Fr m o (State.flitFails x0 x1 s) := by
  unfold State.flitFails
  repeat'
    first
    | with_reducible assumption
    | (intro _)
    | with_reducible apply faultStops_frame (ms (by decide) hm)
    | with_reducible apply setLink_frame (ms (by decide) hm)
    | with_reducible apply Fr_ite

theorem migrationFails_frame {x0} {s : State} {m : Nat} {o : State} (hm : 35651720 ||| m = m) (h : Fr m o s) : Fr m o (State.migrationFails x0 s) := by
  unfold State.migrationFails
  repeat'
    first
    | with_reducible assumption
    | (intro _)
    | with_reducible apply journal_frame (ms (by decide) hm)
    | with_reducible apply Fr_ite

theorem retrainDone_frame {x0} {x1} {x2} {s : State} {m : Nat} {o : State} (hm : 36957576 ||| m = m) (h : Fr m o s) : Fr m o (State.retrainDone x0 x1 x2 s) := by
  unfold State.retrainDone
  repeat'
    first
    | with_reducible assumption
    | (intro _)
    | with_reducible apply replayReady_frame (ms (by decide) hm)
    | with_reducible apply setLink_frame (ms (by decide) hm)
    | with_reducible apply retrainFails_frame (ms (by decide) hm)
    | with_reducible apply Fr_ite
    | split

theorem slathFails_frame {x0} {x1} {s : State} {m : Nat} {o : State} (hm : 35718536 ||| m = m) (h : Fr m o s) : Fr m o (State.slathFails x0 x1 s) := by
  unfold State.slathFails
  repeat'
    first
    | with_reducible assumption
    | (intro _)
    | (extract_lets +onlyGivenNames z; refine (fun (hz : Fr m o z) => ?_) ?_; clear_value z; revert z; intro y hy; rotate_left; dsimp only [z]; clear z)
    | (extract_lets +onlyGivenNames z; clear_value z; revert z; intro y)
    | with_reducible apply modMsd_frame (ms (by decide) hm)
    | with_reducible apply faultStops_frame (ms (by decide) hm)
    | with_reducible apply Fr_ite

theorem sramFails_frame {x0} {x1} {s : State} {m : Nat} {o : State} (hm : 36957576 ||| m = m) (h : Fr m o s) : Fr m o (State.sramFails x0 x1 s) := by
  unfold State.sramFails
  repeat'
    first
    | with_reducible assumption
    | (intro _)
    | (extract_lets +onlyGivenNames z; clear_value z; revert z; intro y)
    | with_reducible apply journal_frame (ms (by decide) hm)
    | with_reducible apply faultStops_frame (ms (by decide) hm)
    | with_reducible apply qpError_frame (ms (by decide) hm)
    | with_reducible apply halt_frame (ms (by decide) hm)
    | with_reducible apply Fr_ite
    | split

theorem protectCheck_frame {x0} {x1} {s : State} {m : Nat} {o : State} (hm : 102760584 ||| m = m) (h : Fr m o s) : Fr m o (State.protectCheck x0 x1 s) := by
  unfold State.protectCheck
  repeat'
    first
    | with_reducible assumption
    | (intro _)
    | (extract_lets +onlyGivenNames z; clear_value z; revert z; intro y)
    | with_reducible apply journal_frame (ms (by decide) hm)
    | with_reducible apply modClk_frame (ms (by decide) hm)
    | with_reducible apply Fr_ite

theorem lowerTo_frame {x0} {x1} {s : State} {m : Nat} {o : State} (hm : 67108872 ||| m = m) (h : Fr m o s) : Fr m o (State.lowerTo x0 x1 s) := by
  unfold State.lowerTo
  repeat'
    first
    | with_reducible assumption
    | with_reducible apply sendSetpoint_frame (ms (by decide) hm)
    | with_reducible apply modClk_frame (ms (by decide) hm)

theorem raiseTo_frame {x0} {x1} {s : State} {m : Nat} {o : State} (hm : 67108872 ||| m = m) (h : Fr m o s) : Fr m o (State.raiseTo x0 x1 s) := by
  unfold State.raiseTo
  repeat'
    first
    | with_reducible assumption
    | with_reducible apply sendSetpoint_frame (ms (by decide) hm)
    | with_reducible apply modClk_frame (ms (by decide) hm)

theorem loopDie_frame {x0} {x1} {x2} {s : State} {m : Nat} {o : State} (hm : 100663304 ||| m = m) (h : Fr m o s) : Fr m o (State.loopDie x0 x1 x2 s) := by
  unfold State.loopDie
  repeat'
    first
    | with_reducible assumption
    | (intro _)
    | (extract_lets +onlyGivenNames z; clear_value z; revert z; intro y)
    | with_reducible apply lowerTo_frame (ms (by decide) hm)
    | with_reducible apply polLimit_frame (ms (by decide) hm)
    | with_reducible apply modClk_frame (ms (by decide) hm)
    | with_reducible apply raiseTo_frame (ms (by decide) hm)
    | with_reducible apply Fr_ite

theorem clockLoop_frame {x0} {s : State} {m : Nat} {o : State} (hm : 102760584 ||| m = m) (h : Fr m o s) : Fr m o (State.clockLoop x0 s) := by
  unfold State.clockLoop
  repeat'
    first
    | with_reducible assumption
    | (intro _)
    | (extract_lets +onlyGivenNames z; refine (fun (hz : Fr m o z) => ?_) ?_; clear_value z; revert z; intro y hy; rotate_left; dsimp only [z]; clear z)
    | (extract_lets +onlyGivenNames z; clear_value z; revert z; intro y)
    | simp -zeta only [Fr_mk]
    | with_reducible apply Fr_pwr (ms (by decide) hm)
    | with_reducible apply protectCheck_frame (ms (by decide) hm)
    | with_reducible apply loopDie_frame (ms (by decide) hm)
    | with_reducible apply each_frame

theorem writeHeld_frame {x0} {s : State} {m : Nat} {o : State} (hm : 2097288 ||| m = m) (h : Fr m o s) : Fr m o (State.writeHeld x0 s) := by
  unfold State.writeHeld
  repeat'
    first
    | with_reducible assumption
    | (intro _)
    | (extract_lets +onlyGivenNames z; refine (fun (hz : Fr m o z) => ?_) ?_; clear_value z; revert z; intro y hy; rotate_left; dsimp only [z]; clear z)
    | (extract_lets +onlyGivenNames z; clear_value z; revert z; intro y)
    | with_reducible apply modQp_frame (ms (by decide) hm)
    | with_reducible apply sendRec_frame (ms (by decide) hm)
    | with_reducible apply event_frame (ms (by decide) hm)
    | with_reducible apply Fr_ite
    | with_reducible apply each_frame

theorem reach_frame {x0} {s : State} {m : Nat} {o : State} (hm : 102760584 ||| m = m) (h : Fr m o s) : Fr m o (State.reach x0 s) := by
  unfold State.reach
  repeat'
    first
    | with_reducible assumption
    | (extract_lets +onlyGivenNames z; refine (fun (hz : Fr m o z) => ?_) ?_; clear_value z; revert z; intro y hy; rotate_left; dsimp only [z]; clear z)
    | (extract_lets +onlyGivenNames z; clear_value z; revert z; intro y)
    | simp -zeta only [Fr_mk]
    | with_reducible apply Fr_pwr (ms (by decide) hm)
    | with_reducible apply finalRecord_frame (ms (by decide) hm)
    | split

theorem d0_frame {s : State} {m : Nat} {o : State} (hm : 102760584 ||| m = m) (h : Fr m o s) : Fr m o (State.d0 s) := by
  unfold State.d0
  repeat'
    first
    | with_reducible assumption
    | (intro _)
    | (extract_lets +onlyGivenNames z; refine (fun (hz : Fr m o z) => ?_) ?_; clear_value z; revert z; intro y hy; rotate_left; dsimp only [z]; clear z)
    | (extract_lets +onlyGivenNames z; clear_value z; revert z; intro y)
    | simp -zeta only [Fr_mk]
    | with_reducible apply Fr_pwr (ms (by decide) hm)
    | with_reducible apply writeHeld_frame (ms (by decide) hm)
    | with_reducible apply reach_frame (ms (by decide) hm)
    | with_reducible apply drainEvents_frame (ms (by decide) hm)
    | with_reducible apply Fr_ite
    | with_reducible apply each_frame

theorem d3hotAsked_frame {s : State} {m : Nat} {o : State} (hm : 67108864 ||| m = m) (h : Fr m o s) : Fr m o (State.d3hotAsked s) := by
  unfold State.d3hotAsked
  repeat'
    first
    | with_reducible assumption
    | (intro _)
    | (extract_lets +onlyGivenNames z; clear_value z; revert z; intro y)
    | simp -zeta only [Fr_mk]
    | with_reducible apply Fr_pwr (ms (by decide) hm)
    | with_reducible apply Fr_ite

theorem dip_frame {x0} {x1} {s : State} {m : Nat} {o : State} (hm : 102760648 ||| m = m) (h : Fr m o s) : Fr m o (State.dip x0 x1 s) := by
  unfold State.dip
  repeat'
    first
    | with_reducible assumption
    | (intro _)
    | (extract_lets +onlyGivenNames z; refine (fun (hz : Fr m o z) => ?_) ?_; clear_value z; revert z; intro y hy; rotate_left; dsimp only [z]; clear z)
    | (extract_lets +onlyGivenNames z; clear_value z; revert z; intro y)
    | simp -zeta only [Fr_mk]
    | with_reducible apply Fr_rnd (ms (by decide) hm)
    | with_reducible apply modSup_frame (ms (by decide) hm)
    | with_reducible apply protectCheck_frame (ms (by decide) hm)
    | with_reducible apply modClk_frame (ms (by decide) hm)
    | with_reducible apply Fr_ite

theorem dipEnds_frame {x0} {s : State} {m : Nat} {o : State} (hm : 102760588 ||| m = m) (h : Fr m o s) : Fr m o (State.dipEnds x0 s) := by
  unfold State.dipEnds
  repeat'
    first
    | with_reducible assumption
    | (intro _)
    | (extract_lets +onlyGivenNames z; refine (fun (hz : Fr m o z) => ?_) ?_; clear_value z; revert z; intro y hy; rotate_left; dsimp only [z]; clear z)
    | (extract_lets +onlyGivenNames z; refine (fun (hz : Fr m o z.2) => ?_) ?_; clear_value z; revert z; intro y hy; rotate_left; dsimp only [z]; clear z)
    | with_reducible apply fresh_frame (ms (by decide) hm)
    | with_reducible apply modSup_frame (ms (by decide) hm)
    | with_reducible apply protectCheck_frame (ms (by decide) hm)
    | with_reducible apply modClk_frame (ms (by decide) hm)
    | with_reducible apply Fr_ite

theorem dipStays_frame {x0} {x1} {s : State} {m : Nat} {o : State} (hm : 102760584 ||| m = m) (h : Fr m o s) : Fr m o (State.dipStays x0 x1 s) := by
  unfold State.dipStays
  repeat'
    first
    | with_reducible assumption
    | (intro _)
    | (extract_lets +onlyGivenNames z; refine (fun (hz : Fr m o z) => ?_) ?_; clear_value z; revert z; intro y hy; rotate_left; dsimp only [z]; clear z)
    | with_reducible apply modSup_frame (ms (by decide) hm)
    | with_reducible apply protectCheck_frame (ms (by decide) hm)
    | with_reducible apply modClk_frame (ms (by decide) hm)
    | with_reducible apply Fr_ite

theorem throttle_frame {x0} {s : State} {m : Nat} {o : State} (hm : 102760584 ||| m = m) (h : Fr m o s) : Fr m o (State.throttle x0 s) := by
  unfold State.throttle
  repeat'
    first
    | with_reducible assumption
    | (intro _)
    | (extract_lets +onlyGivenNames z; refine (fun (hz : Fr m o z) => ?_) ?_; clear_value z; revert z; intro y hy; rotate_left; dsimp only [z]; clear z)
    | with_reducible apply lowerTo_frame (ms (by decide) hm)
    | with_reducible apply modClk_frame (ms (by decide) hm)
    | with_reducible apply protectCheck_frame (ms (by decide) hm)
    | with_reducible apply Fr_ite

theorem overTdp_frame {x0} {s : State} {m : Nat} {o : State} (hm : 102760584 ||| m = m) (h : Fr m o s) : Fr m o (State.overTdp x0 s) := by
  unfold State.overTdp
  repeat'
    first
    | with_reducible assumption
    | (intro _)
    | (extract_lets +onlyGivenNames z; clear_value z; revert z; intro y)
    | simp -zeta only [Fr_mk]
    | with_reducible apply Fr_pwr (ms (by decide) hm)
    | with_reducible apply throttle_frame (ms (by decide) hm)
    | with_reducible apply Fr_ite
    | with_reducible apply each_frame

theorem refBack_frame {s : State} {m : Nat} {o : State} (hm : 64 ||| m = m) (h : Fr m o s) : Fr m o (State.refBack s) := by
  unfold State.refBack
  repeat'
    first
    | with_reducible assumption
    | (intro _)
    | (extract_lets +onlyGivenNames z; clear_value z; revert z; intro y)
    | simp -zeta only [Fr_mk]
    | with_reducible apply Fr_rnd (ms (by decide) hm)
    | with_reducible apply Fr_ite

theorem refLost_frame {s : State} {m : Nat} {o : State} (hm : 1126957260 ||| m = m) (h : Fr m o s) : Fr m o (State.refLost s) := by
  unfold State.refLost
  repeat'
    first
    | with_reducible assumption
    | (intro _)
    | (extract_lets +onlyGivenNames z; refine (fun (hz : Fr m o z) => ?_) ?_; clear_value z; revert z; intro y hy; rotate_left; dsimp only [z]; clear z)
    | (extract_lets +onlyGivenNames z; clear_value z; revert z; intro y)
    | simp -zeta only [Fr_mk]
    | with_reducible apply Fr_rnd (ms (by decide) hm)
    | with_reducible apply dlDown_frame (ms (by decide) hm)
    | with_reducible apply journal_frame (ms (by decide) hm)
    | with_reducible apply linkDown_frame (ms (by decide) hm)
    | with_reducible apply Fr_ite
    | with_reducible apply each_frame

theorem restoreCells_frame {s : State} {m : Nat} {o : State} (hm : 35651976 ||| m = m) (h : Fr m o s) : Fr m o (State.restoreCells s) := by
  unfold State.restoreCells
  repeat'
    first
    | with_reducible assumption
    | (intro _)
    | with_reducible apply modCell_frame (ms (by decide) hm)
    | with_reducible apply journal_frame (ms (by decide) hm)
    | with_reducible apply Fr_ite
    | with_reducible apply each_frame
    | split

theorem saveCells_frame {s : State} {m : Nat} {o : State} (hm : 41728 ||| m = m) (h : Fr m o s) : Fr m o (State.saveCells s) := by
  unfold State.saveCells
  repeat'
    first
    | with_reducible assumption
    | (intro _)
    | (extract_lets +onlyGivenNames z; refine (fun (hz : Fr m o z) => ?_) ?_; clear_value z; revert z; intro y hy; rotate_left; dsimp only [z]; clear z)
    | simp -zeta only [Fr_mk]
    | with_reducible apply Fr_cells (ms (by decide) hm)
    | with_reducible apply saveImage_frame (ms (by decide) hm)
    | with_reducible apply takeSave_frame (ms (by decide) hm)
    | with_reducible apply Fr_ite
    | with_reducible apply each_frame
    | split

theorem sawTj_frame {x0} {s : State} {m : Nat} {o : State} (hm : 67108864 ||| m = m) (h : Fr m o s) : Fr m o (State.sawTj x0 s) := by
  unfold State.sawTj
  repeat'
    first
    | with_reducible assumption
    | (extract_lets +onlyGivenNames z; clear_value z; revert z; intro y)
    | simp -zeta only [Fr_mk]
    | with_reducible apply Fr_pwr (ms (by decide) hm)

theorem shelfEntry_frame {s : State} {m : Nat} {o : State} (hm : 102802312 ||| m = m) (h : Fr m o s) : Fr m o (State.shelfEntry s) := by
  unfold State.shelfEntry
  repeat'
    first
    | with_reducible assumption
    | (intro _)
    | (extract_lets +onlyGivenNames z; refine (fun (hz : Fr m o z) => ?_) ?_; clear_value z; revert z; intro y hy; rotate_left; dsimp only [z]; clear z)
    | (extract_lets +onlyGivenNames z; clear_value z; revert z; intro y)
    | simp -zeta only [Fr_mk]
    | with_reducible apply Fr_pwr (ms (by decide) hm)
    | with_reducible apply reach_frame (ms (by decide) hm)
    | with_reducible apply saveCells_frame (ms (by decide) hm)
    | with_reducible apply Fr_ite
    | split

theorem shelfExitReady_frame {s : State} {m : Nat} {o : State} (hm : 67108872 ||| m = m) (h : Fr m o s) : Fr m o (State.shelfExitReady s) := by
  unfold State.shelfExitReady
  repeat'
    first
    | with_reducible assumption
    | (intro _)
    | (extract_lets +onlyGivenNames z; clear_value z; revert z; intro y)
    | simp -zeta only [Fr_mk]
    | with_reducible apply Fr_pwr (ms (by decide) hm)
    | with_reducible apply sendSetpoint_frame (ms (by decide) hm)
    | with_reducible apply Fr_ite
    | with_reducible apply each_frame

theorem thermal_frame {x0} {x1} {s : State} {m : Nat} {o : State} (hm : 102760584 ||| m = m) (h : Fr m o s) : Fr m o (State.thermal x0 x1 s) := by
  unfold State.thermal
  repeat'
    first
    | with_reducible assumption
    | (intro _)
    | with_reducible apply throttle_frame (ms (by decide) hm)
    | with_reducible apply sawTj_frame (ms (by decide) hm)
    | with_reducible apply Fr_ite

theorem trip_frame {x0} {x1} {s : State} {m : Nat} {o : State} (hm : 104066440 ||| m = m) (h : Fr m o s) : Fr m o (State.trip x0 x1 s) := by
  unfold State.trip
  repeat'
    first
    | with_reducible assumption
    | (intro _)
    | (extract_lets +onlyGivenNames z; refine (fun (hz : Fr m o z) => ?_) ?_; clear_value z; revert z; intro y hy; rotate_left; dsimp only [z]; clear z)
    | (extract_lets +onlyGivenNames z; clear_value z; revert z; intro y)
    | simp -zeta only [Fr_mk]
    | with_reducible apply Fr_cells_pwr (ms (by decide) hm)
    | with_reducible apply halt_frame (ms (by decide) hm)
    | with_reducible apply sawTj_frame (ms (by decide) hm)
    | with_reducible apply Fr_ite

theorem vrcAck_frame {x0} {s : State} {m : Nat} {o : State} (hm : 102760584 ||| m = m) (h : Fr m o s) : Fr m o (State.vrcAck x0 s) := by
  unfold State.vrcAck
  repeat'
    first
    | with_reducible assumption
    | with_reducible apply protectCheck_frame (ms (by decide) hm)
    | with_reducible apply modClk_frame (ms (by decide) hm)
    | split

theorem vrcTimeout_frame {x0} {s : State} {m : Nat} {o : State} (hm : 67108864 ||| m = m) (h : Fr m o s) : Fr m o (State.vrcTimeout x0 s) := by
  unfold State.vrcTimeout
  repeat'
    first
    | with_reducible assumption
    | (intro _)
    | with_reducible apply modClk_frame (ms (by decide) hm)
    | with_reducible apply Fr_ite

theorem closeSpdm_frame {x0} {s : State} {m : Nat} {o : State} (hm : 16777216 ||| m = m) (h : Fr m o s) : Fr m o (State.closeSpdm x0 s) := by
  unfold State.closeSpdm
  repeat'
    first
    | with_reducible assumption
    | (extract_lets +onlyGivenNames z; clear_value z; revert z; intro y)
    | simp -zeta only [Fr_mk]
    | with_reducible apply Fr_lid (ms (by decide) hm)

theorem refuse_frame {s : State} {m : Nat} {o : State} (hm : 16777216 ||| m = m) (h : Fr m o s) : Fr m o (State.refuse s) := by
  unfold State.refuse
  repeat'
    first
    | with_reducible assumption
    | (extract_lets +onlyGivenNames z; clear_value z; revert z; intro y)
    | simp -zeta only [Fr_mk]
    | with_reducible apply Fr_lid (ms (by decide) hm)

theorem vendor_frame {x0} {x1} {x2} {x3} {x4} {s : State} {m : Nat} {o : State} (hm : 16777224 ||| m = m) (hf : ∀ t, Fr m o t → Fr m o (x4 t)) (h : Fr m o s) : Fr m o (State.vendor x0 x1 x2 x3 x4 s) := by
  unfold State.vendor
  repeat'
    first
    | with_reducible assumption
    | (intro _)
    | (extract_lets +onlyGivenNames z; refine (fun (hz : Fr m o z) => ?_) ?_; clear_value z; revert z; intro y hy; rotate_left; dsimp only [z]; clear z)
    | with_reducible apply emit_frame (ms (by decide) hm)
    | with_reducible apply refuse_frame (ms (by decide) hm)
    | with_reducible apply Fr_ite
    | split
    | with_reducible apply_assumption

theorem consentSet_frame {x0} {x1} {x2} {x3} {s : State} {m : Nat} {o : State} (hm : 25165832 ||| m = m) (h : Fr m o s) : Fr m o (State.consentSet x0 x1 x2 x3 s) := by
  unfold State.consentSet
  repeat'
    first
    | with_reducible assumption
    | (intro _)
    | (extract_lets +onlyGivenNames z; clear_value z; revert z; intro y)
    | with_reducible apply vendor_frame (ms (by decide) hm)
    | with_reducible apply modCtx_frame (ms (by decide) hm)

theorem debugUnlock_frame {x0} {s : State} {m : Nat} {o : State} (hm : 16777224 ||| m = m) (h : Fr m o s) : Fr m o (State.debugUnlock x0 s) := by
  unfold State.debugUnlock
  repeat'
    first
    | with_reducible assumption
    | (intro _)
    | (extract_lets +onlyGivenNames z; refine (fun (hz : ∀ t, Fr m o t → Fr m o (z t)) => ?_) ?_; clear_value z; revert z; intro y hy; rotate_left; dsimp only [z]; clear z)
    | (extract_lets +onlyGivenNames z; clear_value z; revert z; intro y)
    | simp -zeta only [Fr_mk]
    | with_reducible apply Fr_lid (ms (by decide) hm)
    | with_reducible apply measured_frame (ms (by decide) hm)
    | with_reducible apply vendor_frame (ms (by decide) hm)
    | with_reducible apply Fr_ite

theorem sendMeas_frame {x0} {x1} {x2} {s : State} {m : Nat} {o : State} (hm : 8 ||| m = m) (h : Fr m o s) : Fr m o (State.sendMeas x0 x1 x2 s) := by
  unfold State.sendMeas
  repeat'
    first
    | with_reducible assumption
    | with_reducible apply emit_frame (ms (by decide) hm)

theorem getMeasurements_frame {x0} {x1} {s : State} {m : Nat} {o : State} (hm : 8 ||| m = m) (h : Fr m o s) : Fr m o (State.getMeasurements x0 x1 s) := by
  unfold State.getMeasurements
  repeat'
    first
    | with_reducible assumption
    | (intro _)
    | with_reducible apply emit_frame (ms (by decide) hm)
    | with_reducible apply sendMeas_frame (ms (by decide) hm)
    | with_reducible apply Fr_ite

theorem setLinkIde_frame {x0} {s : State} {m : Nat} {o : State} (hm : 16777216 ||| m = m) (h : Fr m o s) : Fr m o (State.setLinkIde x0 s) := by
  unfold State.setLinkIde
  repeat'
    first
    | with_reducible assumption
    | (intro _)
    | (extract_lets +onlyGivenNames z; clear_value z; revert z; intro y)
    | simp -zeta only [Fr_mk]
    | with_reducible apply Fr_lid (ms (by decide) hm)
    | with_reducible apply measured_frame (ms (by decide) hm)
    | with_reducible apply Fr_ite

theorem ideKm_frame {x0} {x1} {s : State} {m : Nat} {o : State} (hm : 16777224 ||| m = m) (h : Fr m o s) : Fr m o (State.ideKm x0 x1 s) := by
  unfold State.ideKm
  repeat'
    first
    | with_reducible assumption
    | (intro _)
    | (extract_lets +onlyGivenNames z; clear_value z; revert z; intro y)
    | simp -zeta only [Fr_mk]
    | with_reducible apply Fr_lid (ms (by decide) hm)
    | with_reducible apply emit_frame (ms (by decide) hm)
    | with_reducible apply setLinkIde_frame (ms (by decide) hm)
    | with_reducible apply Fr_ite

theorem keyExchange_frame {x0} {x1} {x2} {s : State} {m : Nat} {o : State} (hm : 16777224 ||| m = m) (h : Fr m o s) : Fr m o (State.keyExchange x0 x1 x2 s) := by
  unfold State.keyExchange
  repeat'
    first
    | with_reducible assumption
    | (extract_lets +onlyGivenNames z; clear_value z; revert z; intro y)
    | simp -zeta only [Fr_mk]
    | with_reducible apply Fr_lid (ms (by decide) hm)
    | with_reducible apply emit_frame (ms (by decide) hm)
    | split

theorem released_frame {x0} {x1} {s : State} {m : Nat} {o : State} (hm : 25427968 ||| m = m) (h : Fr m o s) : Fr m o (State.released x0 x1 s) := by
  unfold State.released
  repeat'
    first
    | with_reducible assumption
    | (extract_lets +onlyGivenNames z; refine (fun (hz : Fr m o z) => ?_) ?_; clear_value z; revert z; intro y hy; rotate_left; dsimp only [z]; clear z)
    | (extract_lets +onlyGivenNames z; clear_value z; revert z; intro y)
    | simp -zeta only [Fr_mk]
    | with_reducible apply Fr_lid (ms (by decide) hm)
    | with_reducible apply modCtx_frame (ms (by decide) hm)
    | with_reducible apply modTkey_frame (ms (by decide) hm)
    | with_reducible apply modSkey_frame (ms (by decide) hm)
    | with_reducible apply modPort_frame (ms (by decide) hm)
    | split

theorem keyRelease_frame {x0} {x1} {s : State} {m : Nat} {o : State} (hm : 25427976 ||| m = m) (h : Fr m o s) : Fr m o (State.keyRelease x0 x1 s) := by
  unfold State.keyRelease
  repeat'
    first
    | with_reducible assumption
    | (intro _)
    | (extract_lets +onlyGivenNames z; clear_value z; revert z; intro y)
    | with_reducible apply vendor_frame (ms (by decide) hm)
    | with_reducible apply released_frame (ms (by decide) hm)

theorem keyRevoke_frame {x0} {x1} {s : State} {m : Nat} {o : State} (hm : 1135078792 ||| m = m) (h : Fr m o s) : Fr m o (State.keyRevoke x0 x1 s) := by
  unfold State.keyRevoke
  repeat'
    first
    | with_reducible assumption
    | (intro _)
    | (extract_lets +onlyGivenNames z; clear_value z; revert z; intro y)
    | with_reducible apply vendor_frame (ms (by decide) hm)
    | with_reducible apply startRemoval_frame (ms (by decide) hm)

theorem operatorSet_frame {x0} {x1} {s : State} {m : Nat} {o : State} (hm : 2147483647 ||| m = m) (h : Fr m o s) : Fr m o (State.operatorSet x0 x1 s) := by
  unfold State.operatorSet
  repeat'
    first
    | with_reducible assumption
    | (intro _)
    | (extract_lets +onlyGivenNames z; refine (fun (hz : Fr m o z) => ?_) ?_; clear_value z; revert z; intro y hy; rotate_left; dsimp only [z]; clear z)
    | (extract_lets +onlyGivenNames z; refine (fun (hz : ∀ t, Fr m o t → Fr m o (z t)) => ?_) ?_; clear_value z; revert z; intro y hy; rotate_left; dsimp only [z]; clear z)
    | (extract_lets +onlyGivenNames z; clear_value z; revert z; intro y)
    | simp -zeta only [Fr_mk]
    | with_reducible apply Fr_lid (ms (by decide) hm)
    | with_reducible apply measured_frame (ms (by decide) hm)
    | with_reducible apply vendor_frame (ms (by decide) hm)
    | with_reducible apply lidReset_frame (ms (by decide) hm)
    | with_reducible apply Fr_ite

theorem State_policySet_frame {x0} {x1} {s : State} {m : Nat} {o : State} (hm : 16777224 ||| m = m) (h : Fr m o s) : Fr m o (State.policySet x0 x1 s) := by
  unfold State.policySet
  repeat'
    first
    | with_reducible assumption
    | (intro _)
    | (extract_lets +onlyGivenNames z; refine (fun (hz : ∀ t, Fr m o t → Fr m o (z t)) => ?_) ?_; clear_value z; revert z; intro y hy; rotate_left; dsimp only [z]; clear z)
    | simp -zeta only [Fr_mk]
    | with_reducible apply Fr_lid (ms (by decide) hm)
    | with_reducible apply measured_frame (ms (by decide) hm)
    | with_reducible apply vendor_frame (ms (by decide) hm)
    | with_reducible apply Fr_ite

theorem endGrants_frame {s : State} {m : Nat} {o : State} (hm : 16777216 ||| m = m) (h : Fr m o s) : Fr m o (State.endGrants s) := by
  unfold State.endGrants
  repeat'
    first
    | with_reducible assumption
    | (intro _)
    | (extract_lets +onlyGivenNames z; clear_value z; revert z; intro y)
    | simp -zeta only [Fr_mk]
    | with_reducible apply Fr_lid (ms (by decide) hm)
    | with_reducible apply measured_frame (ms (by decide) hm)
    | with_reducible apply Fr_ite

theorem journalRead_frame {x0} {s : State} {m : Nat} {o : State} (hm : 123008 ||| m = m) (h : Fr m o s) : Fr m o (journalRead x0 s).2 := by
  unfold journalRead
  repeat'
    first
    | with_reducible assumption
    | (intro _)
    | (extract_lets +onlyGivenNames z; refine (fun (hz : Fr m o z.2) => ?_) ?_; clear_value z; revert z; intro y hy; rotate_left; dsimp only [z]; clear z)
    | (extract_lets +onlyGivenNames z; clear_value z; revert z; intro y)
    | with_reducible apply writeDva_frame (ms (by decide) hm)
    | with_reducible apply charge_frame (ms (by decide) hm)
    | with_reducible apply Fr_ite2
    | split

theorem journalCommand_frame {x0} {s : State} {m : Nat} {o : State} (hm : 6414472 ||| m = m) (h : Fr m o s) : Fr m o (State.journalCommand x0 s) := by
  unfold State.journalCommand
  repeat'
    first
    | with_reducible assumption
    | (intro _)
    | (extract_lets +onlyGivenNames z; refine (fun (hz : Fr m o z.2) => ?_) ?_; clear_value z; revert z; intro y hy; rotate_left; dsimp only [z]; clear z)
    | (extract_lets +onlyGivenNames z; clear_value z; revert z; intro y)
    | with_reducible apply journalRead_frame (ms (by decide) hm)
    | with_reducible apply command_frame (ms (by decide) hm)
    | with_reducible apply Fr_ite

theorem debugRelease_frame {x0} {s : State} {m : Nat} {o : State} (hm : 16777216 ||| m = m) (h : Fr m o s) : Fr m o (debugRelease x0 s).2 := by
  unfold debugRelease
  repeat'
    first
    | with_reducible assumption
    | (extract_lets +onlyGivenNames z; clear_value z; revert z; intro y)
    | simp -zeta only [Fr_mk]
    | with_reducible apply Fr_lid (ms (by decide) hm)
    | with_reducible apply checked_frame (ms (by decide) hm)
    | with_reducible apply measured_frame (ms (by decide) hm)

theorem debugRequest_frame {x0} {s : State} {m : Nat} {o : State} (hm : 16777216 ||| m = m) (h : Fr m o s) : Fr m o (debugRequest x0 s).2 := by
  unfold debugRequest
  repeat'
    first
    | with_reducible assumption
    | (extract_lets +onlyGivenNames z; clear_value z; revert z; intro y)
    | simp -zeta only [Fr_mk]
    | with_reducible apply Fr_lid (ms (by decide) hm)
    | with_reducible apply checked_frame (ms (by decide) hm)
    | with_reducible apply measured_frame (ms (by decide) hm)

theorem faultQuery_frame {x0} {s : State} {m : Nat} {o : State} (hm : 0 ||| m = m) (h : Fr m o s) : Fr m o (faultQuery x0 s).2 := by
  unfold faultQuery
  repeat'
    first
    | with_reducible assumption
    | (intro _)
    | (extract_lets +onlyGivenNames z; refine (fun (hz : ∀ a b c d, Fr m o (z a b c d).2) => ?_) ?_; clear_value z; revert z; intro y hy; rotate_left; dsimp only [z]; clear z)
    | (extract_lets +onlyGivenNames z; clear_value z; revert z; intro y)
    | with_reducible apply Fr_ite2
    | split
    | with_reducible apply_assumption

theorem keyQuery_frame {x0} {s : State} {m : Nat} {o : State} (hm : 0 ||| m = m) (h : Fr m o s) : Fr m o (keyQuery x0 s).2 := by
  unfold keyQuery
  repeat'
    first
    | with_reducible assumption
    | (extract_lets +onlyGivenNames z; clear_value z; revert z; intro y)
    | with_reducible apply checked_frame (ms (by decide) hm)

theorem powerLimitSet_frame {x0} {s : State} {m : Nat} {o : State} (hm : 67108864 ||| m = m) (h : Fr m o s) : Fr m o (powerLimitSet x0 s).2 := by
  unfold powerLimitSet
  repeat'
    first
    | with_reducible assumption
    | (extract_lets +onlyGivenNames z; clear_value z; revert z; intro y)
    | simp -zeta only [Fr_mk]
    | with_reducible apply Fr_pwr (ms (by decide) hm)
    | with_reducible apply checked_frame (ms (by decide) hm)

theorem powerQuery_frame {x0} {s : State} {m : Nat} {o : State} (hm : 0 ||| m = m) (h : Fr m o s) : Fr m o (powerQuery x0 s).2 := by
  unfold powerQuery
  repeat'
    first
    | with_reducible assumption

theorem powerStateSet_frame {x0} {s : State} {m : Nat} {o : State} (hm : 102760584 ||| m = m) (h : Fr m o s) : Fr m o (powerStateSet x0 s).2 := by
  unfold powerStateSet
  repeat'
    first
    | with_reducible assumption
    | (intro _)
    | (extract_lets +onlyGivenNames z; clear_value z; revert z; intro y)
    | simp -zeta only [Fr_mk]
    | with_reducible apply Fr_pwr (ms (by decide) hm)
    | with_reducible apply finalRecord_frame (ms (by decide) hm)
    | with_reducible apply Fr_ite2
    | split

theorem channelAssign_frame {x0} {s : State} {m : Nat} {o : State} (hm : 4194304 ||| m = m) (h : Fr m o s) : Fr m o (channelAssign x0 s).2 := by
  unfold channelAssign
  repeat'
    first
    | with_reducible assumption
    | (extract_lets +onlyGivenNames z; clear_value z; revert z; intro y)
    | with_reducible apply checked_frame (ms (by decide) hm)
    | with_reducible apply modChan_frame (ms (by decide) hm)

theorem devCaps_frame {x0} {s : State} {m : Nat} {o : State} (hm : 0 ||| m = m) (h : Fr m o s) : Fr m o (devCaps x0 s).2 := by
  unfold devCaps
  repeat'
    first
    | with_reducible assumption

theorem deviceReset_frame {x0} {s : State} {m : Nat} {o : State} (hm : 134217728 ||| m = m) (h : Fr m o s) : Fr m o (deviceReset x0 s).2 := by
  unfold deviceReset
  repeat'
    first
    | with_reducible assumption
    | (extract_lets +onlyGivenNames z; clear_value z; revert z; intro y)
    | simp -zeta only [Fr_mk]
    | with_reducible apply Fr_rst (ms (by decide) hm)

theorem fwActivate_frame {x0} {s : State} {m : Nat} {o : State} (hm : 268435456 ||| m = m) (h : Fr m o s) : Fr m o (fwActivate x0 s).2 := by
  unfold fwActivate
  repeat'
    first
    | with_reducible assumption
    | (extract_lets +onlyGivenNames z; clear_value z; revert z; intro y)
    | simp -zeta only [Fr_mk]
    | with_reducible apply Fr_fw (ms (by decide) hm)
    | with_reducible apply checked_frame (ms (by decide) hm)

theorem fwQuery_frame {x0} {s : State} {m : Nat} {o : State} (hm : 0 ||| m = m) (h : Fr m o s) : Fr m o (fwQuery x0 s).2 := by
  unfold fwQuery
  repeat'
    first
    | with_reducible assumption

theorem fwStage_frame {x0} {s : State} {m : Nat} {o : State} (hm : 268533888 ||| m = m) (h : Fr m o s) : Fr m o (fwStage x0 s).2 := by
  unfold fwStage
  repeat'
    first
    | with_reducible assumption
    | (intro _)
    | (extract_lets +onlyGivenNames z; refine (fun (hz : Fr m o z) => ?_) ?_; clear_value z; revert z; intro y hy; rotate_left; dsimp only [z]; clear z)
    | (extract_lets +onlyGivenNames z; refine (fun (hz : Fr m o z.2) => ?_) ?_; clear_value z; revert z; intro y hy; rotate_left; dsimp only [z]; clear z)
    | (extract_lets +onlyGivenNames z; clear_value z; revert z; intro y)
    | simp -zeta only [Fr_mk]
    | with_reducible apply Fr_fw (ms (by decide) hm)
    | with_reducible apply readOwn_frame (ms (by decide) hm)
    | with_reducible apply Fr_ite2
    | split

theorem portAddrSet_frame {x0} {s : State} {m : Nat} {o : State} (hm : 262144 ||| m = m) (h : Fr m o s) : Fr m o (portAddrSet x0 s).2 := by
  unfold portAddrSet
  repeat'
    first
    | with_reducible assumption
    | (extract_lets +onlyGivenNames z; clear_value z; revert z; intro y)
    | with_reducible apply checked_frame (ms (by decide) hm)
    | with_reducible apply modPort_frame (ms (by decide) hm)

theorem carryCheck_frame {x0} {s : State} {m : Nat} {o : State} (hm : 2056 ||| m = m) (h : Fr m o s) : Fr m o (State.carryCheck x0 s) := by
  unfold State.carryCheck
  repeat'
    first
    | with_reducible assumption
    | (intro _)
    | (extract_lets +onlyGivenNames z; refine (fun (hz : Fr m o z) => ?_) ?_; clear_value z; revert z; intro y hy; rotate_left; dsimp only [z]; clear z)
    | (extract_lets +onlyGivenNames z; clear_value z; revert z; intro y)
    | with_reducible apply modWeaver_frame (ms (by decide) hm)
    | with_reducible apply emit_frame (ms (by decide) hm)
    | with_reducible apply Fr_ite
    | split

theorem carryOutcome_frame {x0} {x1} {s : State} {m : Nat} {o : State} (hm : 2048 ||| m = m) (h : Fr m o s) : Fr m o (State.carryOutcome x0 x1 s) := by
  unfold State.carryOutcome
  repeat'
    first
    | with_reducible assumption
    | (intro _)
    | with_reducible apply modWeaver_frame (ms (by decide) hm)
    | with_reducible apply Fr_ite

theorem nextProbe_frame {s : State} {m : Nat} {o : State} (hm : 35976 ||| m = m) (h : Fr m o s) : Fr m o (State.nextProbe s) := by
  unfold State.nextProbe
  repeat'
    first
    | with_reducible assumption
    | (intro _)
    | (extract_lets +onlyGivenNames z; refine (fun (hz : Fr m o z) => ?_) ?_; clear_value z; revert z; intro y hy; rotate_left; dsimp only [z]; clear z)
    | with_reducible apply carryCheck_frame (ms (by decide) hm)
    | with_reducible apply setProbe_frame (ms (by decide) hm)
    | with_reducible apply demand_frame (ms (by decide) hm)
    | with_reducible apply Fr_ite
    | with_reducible apply each_frame
    | split

theorem powerBoundary_frame {s : State} {m : Nat} {o : State} (hm : 102760584 ||| m = m) (h : Fr m o s) : Fr m o (State.powerBoundary s) := by
  unfold State.powerBoundary
  repeat'
    first
    | with_reducible assumption
    | (intro _)
    | with_reducible apply reach_frame (ms (by decide) hm)
    | with_reducible apply Fr_ite
    | split

theorem cycle40_frame {s : State} {m : Nat} {o : State} (hm : 1178075084 ||| m = m) (h : Fr m o s) : Fr m o (State.cycle40 s) := by
  unfold State.cycle40
  repeat'
    first
    | with_reducible assumption
    | (intro _)
    | (extract_lets +onlyGivenNames z; refine (fun (hz : Fr m o z) => ?_) ?_; clear_value z; revert z; intro y hy; rotate_left; dsimp only [z]; clear z)
    | (extract_lets +onlyGivenNames z; clear_value z; revert z; intro y)
    | simp -zeta only [Fr_mk]
    | with_reducible apply Fr_bud (ms (by decide) hm)
    | with_reducible apply powerBoundary_frame (ms (by decide) hm)
    | with_reducible apply startSends_frame (ms (by decide) hm)
    | with_reducible apply walePass_frame (ms (by decide) hm)
    | with_reducible apply settlePlaces_frame (ms (by decide) hm)
    | with_reducible apply markParked_frame (ms (by decide) hm)
    | with_reducible apply dropPlanless_frame (ms (by decide) hm)
    | with_reducible apply replayReady_frame (ms (by decide) hm)
    | with_reducible apply reapJobs_frame (ms (by decide) hm)
    | with_reducible apply finishQueues_frame (ms (by decide) hm)
    | with_reducible apply pumpOuts_frame (ms (by decide) hm)
    | with_reducible apply retryUpdates_frame (ms (by decide) hm)
    | with_reducible apply retryUnits_frame (ms (by decide) hm)
    | with_reducible apply retryTune_frame (ms (by decide) hm)
    | with_reducible apply pumpAll_frame (ms (by decide) hm)
    | with_reducible apply sendReports_frame (ms (by decide) hm)
    | with_reducible apply tryCourse_frame (ms (by decide) hm)
    | with_reducible apply announce_frame (ms (by decide) hm)
    | with_reducible apply each_frame

theorem roundLength_frame {x0} {s : State} {m : Nat} {o : State} (hm : 64 ||| m = m) (h : Fr m o s) : Fr m o (State.roundLength x0 s) := by
  unfold State.roundLength
  repeat'
    first
    | with_reducible assumption
    | (intro _)
    | (extract_lets +onlyGivenNames z; clear_value z; revert z; intro y)
    | simp -zeta only [Fr_mk]
    | with_reducible apply Fr_rnd (ms (by decide) hm)
    | with_reducible apply Fr_ite

theorem cycle32_frame {x0} {s : State} {m : Nat} {o : State} (hm : 35651784 ||| m = m) (h : Fr m o s) : Fr m o (State.cycle32 x0 s) := by
  unfold State.cycle32
  repeat'
    first
    | with_reducible assumption
    | with_reducible apply newBudgets_frame (ms (by decide) hm)
    | with_reducible apply roundLength_frame (ms (by decide) hm)

theorem cycle28_frame {s : State} {m : Nat} {o : State} (hm : 35685256 ||| m = m) (h : Fr m o s) : Fr m o (State.cycle28 s) := by
  unfold State.cycle28
  repeat'
    first
    | with_reducible assumption
    | (intro _)
    | with_reducible apply lateChanges_frame (ms (by decide) hm)
    | with_reducible apply restoreCells_frame (ms (by decide) hm)
    | with_reducible apply Fr_ite

theorem cycle24_frame {s : State} {m : Nat} {o : State} (hm : 52690824 ||| m = m) (h : Fr m o s) : Fr m o (State.cycle24 s) := by
  unfold State.cycle24
  repeat'
    first
    | with_reducible assumption
    | (intro _)
    | (extract_lets +onlyGivenNames z; refine (fun (hz : Fr m o z) => ?_) ?_; clear_value z; revert z; intro y hy; rotate_left; dsimp only [z]; clear z)
    | with_reducible apply closeGens_frame (ms (by decide) hm)
    | with_reducible apply switchGen_frame (ms (by decide) hm)
    | with_reducible apply switchImage_frame (ms (by decide) hm)
    | with_reducible apply publishDue_frame (ms (by decide) hm)
    | with_reducible apply each_frame

theorem contexts20_frame {s : State} {m : Nat} {o : State} (hm : 65269640 ||| m = m) (h : Fr m o s) (h2 : Fr m o s2) : Fr m o (State.contexts20 s) := by
  unfold State.contexts20
  repeat'
    first
    | with_reducible assumption
    | (intro _)
    | (extract_lets +onlyGivenNames z; refine (fun (hz : Fr m o z) => ?_) ?_; clear_value z; revert z; intro y hy; rotate_left; dsimp only [z]; clear z)
    | with_reducible apply endFlr_frame (ms (by decide) hm)
    | with_reducible apply endGrants_frame (ms (by decide) hm)
    | with_reducible apply applyReset_frame (ms (by decide) hm)
    | with_reducible apply forcedAbort_frame (ms (by decide) hm)
    | with_reducible apply scrub_frame (ms (by decide) hm)
    | with_reducible apply each_frame

theorem demandAll_frame {s : State} {m : Nat} {o : State} (hm : 34944 ||| m = m) (h : Fr m o s) : Fr m o (State.demandAll s) := by
  unfold State.demandAll
  repeat'
    first
    | with_reducible assumption
    | (intro _)
    | (extract_lets +onlyGivenNames z; refine (fun (hz : Fr m o z) => ?_) ?_; clear_value z; revert z; intro y hy; rotate_left; dsimp only [z]; clear z)
    | with_reducible apply demand_frame (ms (by decide) hm)
    | with_reducible apply each_frame
    | split

theorem cycle20_frame {s : State} {m : Nat} {o : State} (hm : 65273736 ||| m = m) (h : Fr m o s) : Fr m o (State.cycle20 s) := by
  unfold State.cycle20
  repeat'
    first
    | with_reducible assumption
    | (intro _)
    | (extract_lets +onlyGivenNames z; refine (fun (hz : Fr m o z) => ?_) ?_; clear_value z; revert z; intro y hy; rotate_left; dsimp only [z]; clear z)
    | (extract_lets +onlyGivenNames z; clear_value z; revert z; intro y)
    | with_reducible apply sideBoundary_frame (ms (by decide) hm)
    | with_reducible apply contexts20_frame (ms (by decide) hm)
    | with_reducible apply removeFrames_frame (ms (by decide) hm)
    | with_reducible apply gensAt20_frame (ms (by decide) hm)
    | with_reducible apply commonsRefs_frame (ms (by decide) hm)
    | with_reducible apply applyQuotas_frame (ms (by decide) hm)
    | with_reducible apply demandAll_frame (ms (by decide) hm)
    | with_reducible apply nextProbe_frame (ms (by decide) hm)
    | with_reducible apply prepare_frame (ms (by decide) hm)
    | with_reducible apply holdCovered_frame (ms (by decide) hm)
    | with_reducible apply evalDefers_frame (ms (by decide) hm)
    | with_reducible apply pressAccounts_frame (ms (by decide) hm)
    | with_reducible apply finishQueues_frame (ms (by decide) hm)
    | with_reducible apply unholdCourses_frame (ms (by decide) hm)
    | with_reducible apply startCleaning_frame (ms (by decide) hm)
    | with_reducible apply placeAll_frame (ms (by decide) hm)
    | with_reducible apply each_frame

theorem cycle16_frame {s : State} {m : Nat} {o : State} (hm : 52429708 ||| m = m) (h : Fr m o s) : Fr m o (State.cycle16 s) := by
  unfold State.cycle16
  repeat'
    first
    | with_reducible assumption
    | (intro _)
    | with_reducible apply bindSpare_frame (ms (by decide) hm)
    | with_reducible apply each_frame

theorem cycle12_frame {s : State} {m : Nat} {o : State} (hm : 35909064 ||| m = m) (h : Fr m o s) : Fr m o (State.cycle12 s) := by
  unfold State.cycle12
  repeat'
    first
    | with_reducible assumption
    | (extract_lets +onlyGivenNames z; refine (fun (hz : Fr m o z) => ?_) ?_; clear_value z; revert z; intro y hy; rotate_left; dsimp only [z]; clear z)
    | (extract_lets +onlyGivenNames z; clear_value z; revert z; intro y)
    | simp -zeta only [Fr_mk]
    | with_reducible apply Fr_rnd (ms (by decide) hm)
    | with_reducible apply completeAll_frame (ms (by decide) hm)
    | with_reducible apply commitAll_frame (ms (by decide) hm)

theorem frameDecay_frame {s : State} {m : Nat} {o : State} (hm : 32832 ||| m = m) (h : Fr m o s) : Fr m o (State.frameDecay s) := by
  unfold State.frameDecay
  repeat'
    first
    | with_reducible assumption
    | (intro _)
    | (extract_lets +onlyGivenNames z; refine (fun (_ : z = (z : Mem)) => ?_) rfl; subst z)
    | (extract_lets +onlyGivenNames z; clear_value z; revert z; intro y)
    | simp -zeta only [Fr_mk]
    | (with_reducible apply Fr_rnd_tables (ms (by decide) hm) <;> try with_reducible rfl)
    | with_reducible apply Fr_ite

theorem stakeDecay_frame {s : State} {m : Nat} {o : State} (hm : 4160 ||| m = m) (h : Fr m o s) : Fr m o (State.stakeDecay s) := by
  unfold State.stakeDecay
  repeat'
    first
    | with_reducible assumption
    | (intro _)
    | (extract_lets +onlyGivenNames z; clear_value z; revert z; intro y)
    | simp -zeta only [Fr_mk]
    | with_reducible apply Fr_rnd_stakes (ms (by decide) hm)
    | with_reducible apply Fr_ite

theorem weaverDecay_frame {s : State} {m : Nat} {o : State} (hm : 2112 ||| m = m) (h : Fr m o s) : Fr m o (State.weaverDecay s) := by
  unfold State.weaverDecay
  repeat'
    first
    | with_reducible assumption
    | (intro _)
    | (extract_lets +onlyGivenNames z; clear_value z; revert z; intro y)
    | simp -zeta only [Fr_mk]
    | with_reducible apply Fr_rnd_weav (ms (by decide) hm)
    | with_reducible apply Fr_ite

theorem roundMessages_frame {s : State} {m : Nat} {o : State} (hm : 1048584 ||| m = m) (h : Fr m o s) : Fr m o (State.roundMessages s) := by
  unfold State.roundMessages
  repeat'
    first
    | with_reducible assumption
    | (intro _)
    | (extract_lets +onlyGivenNames z; refine (fun (hz : Fr m o z) => ?_) ?_; clear_value z; revert z; intro y hy; rotate_left; dsimp only [z]; clear z)
    | with_reducible apply originate_frame (ms (by decide) hm)
    | with_reducible apply sendReady_frame (ms (by decide) hm)
    | with_reducible apply Fr_ite
    | with_reducible apply each_frame

theorem equalise_frame {x0} {x1} {s : State} {m : Nat} {o : State} (hm : 33816576 ||| m = m) (h : Fr m o s) : Fr m o (State.equalise x0 x1 s) := by
  unfold State.equalise
  repeat'
    first
    | with_reducible assumption
    | (intro _)
    | (extract_lets +onlyGivenNames z; clear_value z; revert z; intro y)
    | with_reducible apply modPort_frame (ms (by decide) hm)
    | with_reducible apply polLimit_frame (ms (by decide) hm)
    | with_reducible apply Fr_ite

theorem equaliseAll_frame {s : State} {m : Nat} {o : State} (hm : 33816576 ||| m = m) (h : Fr m o s) : Fr m o (State.equaliseAll s) := by
  unfold State.equaliseAll
  repeat'
    first
    | with_reducible assumption
    | (intro _)
    | with_reducible apply equalise_frame (ms (by decide) hm)
    | with_reducible apply each_frame

theorem roundCounts_frame {s : State} {m : Nat} {o : State} (hm : 36700224 ||| m = m) (h : Fr m o s) : Fr m o (State.roundCounts s) := by
  unfold State.roundCounts
  repeat'
    first
    | with_reducible assumption
    | (extract_lets +onlyGivenNames z; clear_value z; revert z; intro y)
    | simp -zeta only [Fr_mk]
    | with_reducible apply Fr_rnd_hoop_host_flt (ms (by decide) hm)

theorem expireJobs_frame {s : State} {m : Nat} {o : State} (hm : 1109912972 ||| m = m) (h : Fr m o s) : Fr m o (State.expireJobs s) := by
  unfold State.expireJobs
  repeat'
    first
    | with_reducible assumption
    | (intro _)
    | (extract_lets +onlyGivenNames z; refine (fun (hz : Fr m o z) => ?_) ?_; clear_value z; revert z; intro y hy; rotate_left; dsimp only [z]; clear z)
    | (extract_lets +onlyGivenNames z; clear_value z; revert z; intro y)
    | with_reducible apply probeTimeout_frame (ms (by decide) hm)
    | with_reducible apply bucketLate_frame (ms (by decide) hm)
    | with_reducible apply pieceLost_frame (ms (by decide) hm)
    | with_reducible apply memberSilence_frame (ms (by decide) hm)
    | with_reducible apply Fr_ite
    | with_reducible apply each_frame

theorem expireLimits_frame {s : State} {m : Nat} {o : State} (hm : 1114111372 ||| m = m) (h : Fr m o s) : Fr m o (State.expireLimits s) := by
  unfold State.expireLimits
  repeat'
    first
    | with_reducible assumption
    | (intro _)
    | (extract_lets +onlyGivenNames z; refine (fun (hz : Fr m o z) => ?_) ?_; clear_value z; revert z; intro y hy; rotate_left; dsimp only [z]; clear z)
    | with_reducible apply synTimeout_frame (ms (by decide) hm)
    | with_reducible apply ulistTimeout_frame (ms (by decide) hm)
    | with_reducible apply repairTimeout_frame (ms (by decide) hm)
    | with_reducible apply holdExpires_frame (ms (by decide) hm)
    | with_reducible apply parkTimeout_frame (ms (by decide) hm)
    | with_reducible apply cqStall_frame (ms (by decide) hm)
    | with_reducible apply peerTimeout_frame (ms (by decide) hm)
    | with_reducible apply expireJobs_frame (ms (by decide) hm)
    | with_reducible apply probeExpires_frame (ms (by decide) hm)
    | with_reducible apply each_frame

theorem tickSource_frame {x0} {s : State} {m : Nat} {o : State} (hm : 64 ||| m = m) (h : Fr m o s) : Fr m o (State.tickSource x0 s) := by
  unfold State.tickSource
  repeat'
    first
    | with_reducible assumption
    | (extract_lets +onlyGivenNames z; clear_value z; revert z; intro y)
    | simp -zeta only [Fr_mk]
    | with_reducible apply Fr_rnd (ms (by decide) hm)

theorem nextRound_frame {x0} {s : State} {m : Nat} {o : State} (hm : 35651784 ||| m = m) (h : Fr m o s) : Fr m o (State.nextRound x0 s) := by
  unfold State.nextRound
  repeat'
    first
    | with_reducible assumption
    | (intro _)
    | (extract_lets +onlyGivenNames z; refine (fun (hz : Fr m o z) => ?_) ?_; clear_value z; revert z; intro y hy; rotate_left; dsimp only [z]; clear z)
    | (extract_lets +onlyGivenNames z; clear_value z; revert z; intro y)
    | simp -zeta only [Fr_mk]
    | with_reducible apply Fr_rnd (ms (by decide) hm)
    | with_reducible apply journal_frame (ms (by decide) hm)
    | with_reducible apply Fr_ite

theorem markUndervolt_frame {s : State} {m : Nat} {o : State} (hm : 35651720 ||| m = m) (h : Fr m o s) : Fr m o (State.markUndervolt s) := by
  unfold State.markUndervolt
  repeat'
    first
    | with_reducible assumption
    | (intro _)
    | with_reducible apply journal_frame (ms (by decide) hm)
    | with_reducible apply Fr_ite

theorem cycle0_frame {x0} {s : State} {m : Nat} {o : State} (hm : 1115160012 ||| m = m) (h : Fr m o s) : Fr m o (State.cycle0 x0 s) := by
  unfold State.cycle0
  repeat'
    first
    | with_reducible assumption
    | (extract_lets +onlyGivenNames z; refine (fun (hz : Fr m o z) => ?_) ?_; clear_value z; revert z; intro y hy; rotate_left; dsimp only [z]; clear z)
    | with_reducible apply frameDecay_frame (ms (by decide) hm)
    | with_reducible apply stakeDecay_frame (ms (by decide) hm)
    | with_reducible apply weaverDecay_frame (ms (by decide) hm)
    | with_reducible apply roundMessages_frame (ms (by decide) hm)
    | with_reducible apply equaliseAll_frame (ms (by decide) hm)
    | with_reducible apply roundCounts_frame (ms (by decide) hm)
    | with_reducible apply expireLimits_frame (ms (by decide) hm)
    | with_reducible apply tickSource_frame (ms (by decide) hm)
    | with_reducible apply nextRound_frame (ms (by decide) hm)
    | with_reducible apply markUndervolt_frame (ms (by decide) hm)
    | with_reducible apply latchTallies_frame (ms (by decide) hm)

theorem boundary_frame {s : State} {m : Nat} {o : State} (hm : 1610612732 ||| m = m) (h : Fr m o s) : Fr m o (State.boundary s) := by
  unfold State.boundary
  repeat'
    first
    | with_reducible assumption
    | (intro _)
    | with_reducible apply warm_frame (ms (by decide) hm)
    | with_reducible apply cycle40_frame (ms (by decide) hm)
    | with_reducible apply cycle32_frame (ms (by decide) hm)
    | with_reducible apply cycle28_frame (ms (by decide) hm)
    | with_reducible apply cycle24_frame (ms (by decide) hm)
    | with_reducible apply cycle20_frame (ms (by decide) hm)
    | with_reducible apply cycle16_frame (ms (by decide) hm)
    | with_reducible apply cycle12_frame (ms (by decide) hm)
    | with_reducible apply cycle0_frame (ms (by decide) hm)
    | with_reducible apply Fr_ite
    | split

theorem ctxCreate_frame {x0} {s : State} {m : Nat} {o : State} (hm : 8421376 ||| m = m) (h : Fr m o s) : Fr m o (ctxCreate x0 s).2 := by
  unfold ctxCreate
  repeat'
    first
    | with_reducible assumption
    | (extract_lets +onlyGivenNames z; clear_value z; revert z; intro y)
    | with_reducible apply checked_frame (ms (by decide) hm)
    | with_reducible apply modAcct_frame (ms (by decide) hm)
    | with_reducible apply modCtx_frame (ms (by decide) hm)

theorem ctxQuery_frame {x0} {s : State} {m : Nat} {o : State} (hm : 0 ||| m = m) (h : Fr m o s) : Fr m o (ctxQuery x0 s).2 := by
  unfold ctxQuery
  repeat'
    first
    | with_reducible assumption
    | (extract_lets +onlyGivenNames z; clear_value z; revert z; intro y)
    | with_reducible apply checked_frame (ms (by decide) hm)

theorem ctxRemove_frame {x0} {s : State} {m : Nat} {o : State} (hm : 1135078792 ||| m = m) (h : Fr m o s) : Fr m o (ctxRemove x0 s).2 := by
  unfold ctxRemove
  repeat'
    first
    | with_reducible assumption
    | (extract_lets +onlyGivenNames z; clear_value z; revert z; intro y)
    | with_reducible apply checked_frame (ms (by decide) hm)
    | with_reducible apply startRemoval_frame (ms (by decide) hm)

theorem ctxReset_frame {x0} {s : State} {m : Nat} {o : State} (hm : 25165824 ||| m = m) (h : Fr m o s) : Fr m o (ctxReset x0 s).2 := by
  unfold ctxReset
  repeat'
    first
    | with_reducible assumption
    | (extract_lets +onlyGivenNames z; clear_value z; revert z; intro y)
    | with_reducible apply checked_frame (ms (by decide) hm)
    | with_reducible apply modCtx_frame (ms (by decide) hm)
    | with_reducible apply modTkey_frame (ms (by decide) hm)

theorem ctxSet_frame {x0} {s : State} {m : Nat} {o : State} (hm : 8388608 ||| m = m) (h : Fr m o s) : Fr m o (ctxSet x0 s).2 := by
  unfold ctxSet
  repeat'
    first
    | with_reducible assumption
    | (extract_lets +onlyGivenNames z; clear_value z; revert z; intro y)
    | with_reducible apply checked_frame (ms (by decide) hm)
    | with_reducible apply modCtx_frame (ms (by decide) hm)

theorem withFetchWord_frame {s : State} {x0} {x1} {m : Nat} {o : State} (hm : 2 ||| m = m) (h : Fr m o s) : Fr m o (State.withFetchWord s x0 x1) := by
  unfold State.withFetchWord
  repeat'
    first
    | with_reducible assumption
    | simp -zeta only [Fr_mk]
    | with_reducible apply Fr_pending (ms (by decide) hm)
    | split

theorem attnBody_frame {x0} {s : State} {m : Nat} {o : State} (hm : 98560 ||| m = m) (h : Fr m o s) : FrU m o (attnBody x0 s) := by
  unfold attnBody
  repeat'
    first
    | with_reducible assumption
    | (intro _)
    | (extract_lets +onlyGivenNames z; refine (fun (hz : Fr m o z.2) => ?_) ?_; clear_value z; revert z; intro y hy; rotate_left; dsimp only [z]; clear z)
    | (extract_lets +onlyGivenNames z; clear_value z; revert z; intro y)
    | with_reducible apply attnGroup_frame (ms (by decide) hm)
    | with_reducible apply courseRead_frame (ms (by decide) hm)
    | with_reducible apply FrU_ite
    | with_reducible exact FrU_none
    | with_reducible apply FrU_some
    | with_reducible apply foldl_frame2
    | split

theorem gemvBody_frame {x0} {s : State} {m : Nat} {o : State} (hm : 98560 ||| m = m) (h : Fr m o s) : FrU m o (gemvBody x0 s) := by
  unfold gemvBody
  repeat'
    first
    | with_reducible assumption
    | (intro _)
    | (extract_lets +onlyGivenNames z; refine (fun (hz : Fr m o z.2) => ?_) ?_; clear_value z; revert z; intro y hy; rotate_left; dsimp only [z]; clear z)
    | (extract_lets +onlyGivenNames z; clear_value z; revert z; intro y)
    | with_reducible apply courseRead_frame (ms (by decide) hm)
    | with_reducible apply modCell_frame (ms (by decide) hm)
    | with_reducible apply FrU_ite
    | with_reducible exact FrU_none
    | with_reducible apply FrU_some
    | split

theorem updateBody_frame {x0} {x1} {s : State} {m : Nat} {o : State} (hm : 123904 ||| m = m) (h : Fr m o s) : FrU m o (updateBody x0 x1 s) := by
  unfold updateBody
  repeat'
    first
    | with_reducible assumption
    | (intro _)
    | (extract_lets +onlyGivenNames z; clear_value z; revert z; intro y)
    | with_reducible apply updateRun_frame (ms (by decide) hm)
    | with_reducible apply FrU_ite
    | with_reducible exact FrU_none
    | with_reducible apply FrU_some
    | split

theorem accBody_frame {x0} {s : State} {m : Nat} {o : State} (hm : 123904 ||| m = m) (h : Fr m o s) : FrU m o (accBody x0 s) := by
  unfold accBody
  repeat'
    first
    | with_reducible assumption
    | (intro _)
    | (extract_lets +onlyGivenNames z; refine (fun (hz : Fr m o z.2) => ?_) ?_; clear_value z; revert z; intro y hy; rotate_left; dsimp only [z]; clear z)
    | (extract_lets +onlyGivenNames z; clear_value z; revert z; intro y)
    | with_reducible apply courseRead_frame (ms (by decide) hm)
    | with_reducible apply uWrites_frame (ms (by decide) hm)
    | with_reducible apply modCourse_frame (ms (by decide) hm)
    | with_reducible apply Fr_ite2
    | with_reducible apply FrU_ite
    | with_reducible exact FrU_none
    | with_reducible apply FrU_some
    | split

end Sys2Proof.Machine
end

