-- ==== Sys2Proof/Laws/CanonOps.lean ====
section
/-! SUPPORT. Laws of the canonical form: every operation keeps both memories in it. -/

set_option linter.unusedVariables false
set_option linter.unusedSimpArgs false
set_option linter.tactic.unusedName false

namespace Sys2Proof.Machine

theorem charge_canon {x0} {x1} {s : State} (h : Canon s) : Canon (State.charge x0 x1 s) :=
  Canon_keep (charge_frame (Nat.or_self _) Fr.rfl) (by decide) h

theorem modQp_canon {s : State} {x0} {x1} (h : Canon s) : Canon (State.modQp s x0 x1) :=
  Canon_keep (modQp_frame (Nat.or_self _) Fr.rfl) (by decide) h

theorem summarize_canon {x0} {s : State} (h : Canon s) : Canon (State.summarize x0 s) :=
  Canon_keep (summarize_frame (Nat.or_self _) Fr.rfl) (by decide) h

theorem noteFull_canon {x0} {s : State} (h : Canon s) : Canon (State.noteFull x0 s) :=
  Canon_keep (noteFull_frame (Nat.or_self _) Fr.rfl) (by decide) h

theorem emit_canon {x0} {s : State} (h : Canon s) : Canon (State.emit x0 s) :=
  Canon_keep (emit_frame (Nat.or_self _) Fr.rfl) (by decide) h

theorem sendRec_canon {x0} {x1} {x2} {s : State} (h : Canon s) : Canon (State.sendRec x0 x1 x2 s) :=
  Canon_keep (sendRec_frame (Nat.or_self _) Fr.rfl) (by decide) h

theorem modFn_canon {s : State} {x0} {x1} (h : Canon s) : Canon (State.modFn s x0 x1) :=
  Canon_keep (modFn_frame (Nat.or_self _) Fr.rfl) (by decide) h

theorem modRing_canon {s : State} {x0} {x1} {x2} (h : Canon s) : Canon (State.modRing s x0 x1 x2) :=
  Canon_keep (modRing_frame (Nat.or_self _) Fr.rfl) (by decide) h

theorem putEvent_canon {x0} {x1} {x2} {s : State} (h : Canon s) : Canon (State.putEvent x0 x1 x2 s) :=
  Canon_keep (putEvent_frame (Nat.or_self _) Fr.rfl) (by decide) h

theorem keepEvent_canon {x0} {x1} {x2} {s : State} (h : Canon s) : Canon (State.keepEvent x0 x1 x2 s) :=
  Canon_keep (keepEvent_frame (Nat.or_self _) Fr.rfl) (by decide) h

theorem event_canon {x0} {x1} {x2} {s : State} (h : Canon s) : Canon (State.event x0 x1 x2 s) :=
  Canon_keep (event_frame (Nat.or_self _) Fr.rfl) (by decide) h

theorem writeRec_canon {x0} {x1} {s : State} (h : Canon s) : Canon (State.writeRec x0 x1 s) :=
  Canon_keep (writeRec_frame (Nat.or_self _) Fr.rfl) (by decide) h

theorem record_canon {x0} {x1} {s : State} (h : Canon s) : Canon (State.record x0 x1 s) :=
  Canon_keep (record_frame (Nat.or_self _) Fr.rfl) (by decide) h

theorem closeDesc_canon {x0} {x1} {x2} {s : State} (h : Canon s) : Canon (State.closeDesc x0 x1 x2 s) :=
  Canon_keep (closeDesc_frame (Nat.or_self _) Fr.rfl) (by decide) h

theorem ctxEvent_canon {x0} {x1} {s : State} (h : Canon s) : Canon (State.ctxEvent x0 x1 s) :=
  Canon_keep (ctxEvent_frame (Nat.or_self _) Fr.rfl) (by decide) h

theorem drainEvents_canon {x0} {s : State} (h : Canon s) : Canon (State.drainEvents x0 s) :=
  Canon_keep (drainEvents_frame (Nat.or_self _) Fr.rfl) (by decide) h

theorem drainHeld_canon {x0} {s : State} (h : Canon s) : Canon (State.drainHeld x0 s) :=
  Canon_keep (drainHeld_frame (Nat.or_self _) Fr.rfl) (by decide) h

theorem modDesc_canon {s : State} {x0} {x1} {x2} (h : Canon s) : Canon (State.modDesc s x0 x1 x2) :=
  Canon_keep (modDesc_frame (Nat.or_self _) Fr.rfl) (by decide) h

theorem releaseTurn_canon {x0} {s : State} (h : Canon s) : Canon (State.releaseTurn x0 s) :=
  Canon_keep (releaseTurn_frame (Nat.or_self _) Fr.rfl) (by decide) h

theorem endTurn_canon {x0} {x1} {x2} {s : State} (h : Canon s) : Canon (State.endTurn x0 x1 x2 s) :=
  Canon_keep (endTurn_frame (Nat.or_self _) Fr.rfl) (by decide) h

theorem finalRecord_canon {x0} {x1} {x2} {s : State} (h : Canon s) : Canon (State.finalRecord x0 x1 x2 s) :=
  Canon_keep (finalRecord_frame (Nat.or_self _) Fr.rfl) (by decide) h

theorem finishDesc_canon {x0} {x1} {x2} {s : State} (h : Canon s) : Canon (State.finishDesc x0 x1 x2 s) :=
  Canon_keep (finishDesc_frame (Nat.or_self _) Fr.rfl) (by decide) h

theorem fresh_canon {s : State} (h : Canon s) : Canon (State.fresh s).2 :=
  Canon_keep (fresh_frame (Nat.or_self _) Fr.rfl) (by decide) h

theorem journal_canon {x0} {s : State} (h : Canon s) : Canon (State.journal x0 s) :=
  Canon_keep (journal_frame (Nat.or_self _) Fr.rfl) (by decide) h

theorem measured_canon {s : State} (h : Canon s) : Canon (State.measured s) :=
  Canon_keep (measured_frame (Nat.or_self _) Fr.rfl) (by decide) h

theorem modAcct_canon {s : State} {x0} {x1} (h : Canon s) : Canon (State.modAcct s x0 x1) :=
  Canon_keep (modAcct_frame (Nat.or_self _) Fr.rfl) (by decide) h

theorem modCell_canon {s : State} {x0} {x1} (h : Canon s) : Canon (State.modCell s x0 x1) :=
  Canon_keep (modCell_frame (Nat.or_self _) Fr.rfl) (by decide) h

theorem modChan_canon {s : State} {x0} {x1} (h : Canon s) : Canon (State.modChan s x0 x1) :=
  Canon_keep (modChan_frame (Nat.or_self _) Fr.rfl) (by decide) h

theorem modClk_canon {s : State} {x0} {x1} (h : Canon s) : Canon (State.modClk s x0 x1) :=
  Canon_keep (modClk_frame (Nat.or_self _) Fr.rfl) (by decide) h

theorem modCourse_canon {s : State} {x0} {x1} (h : Canon s) : Canon (State.modCourse s x0 x1) :=
  Canon_keep (modCourse_frame (Nat.or_self _) Fr.rfl) (by decide) h

theorem modCtx_canon {s : State} {x0} {x1} (h : Canon s) : Canon (State.modCtx s x0 x1) :=
  Canon_keep (modCtx_frame (Nat.or_self _) Fr.rfl) (by decide) h

theorem modFlow_canon {s : State} {x0} {x1} (h : Canon s) : Canon (State.modFlow s x0 x1) :=
  Canon_keep (modFlow_frame (Nat.or_self _) Fr.rfl) (by decide) h

theorem modFrame_canon {s : State} {x0} {x1} (h : Canon s) : Canon (State.modFrame s x0 x1) :=
  Canon_keep (modFrame_frame (Nat.or_self _) Fr.rfl) (by decide) h

theorem modStake_canon {s : State} {x0} {x1} (h : Canon s) : Canon (State.modStake s x0 x1) :=
  Canon_keep (modStake_frame (Nat.or_self _) Fr.rfl) (by decide) h

theorem modGen_canon {s : State} {x0} {x1} {x2} (h : Canon s) : Canon (State.modGen s x0 x1 x2) :=
  Canon_keep (modGen_frame (Nat.or_self _) Fr.rfl) (by decide) h

theorem modJob_canon {s : State} {x0} {x1} (h : Canon s) : Canon (State.modJob s x0 x1) :=
  Canon_keep (modJob_frame (Nat.or_self _) Fr.rfl) (by decide) h

theorem modMig_canon {s : State} {x0} {x1} (h : Canon s) : Canon (State.modMig s x0 x1) :=
  Canon_keep (modMig_frame (Nat.or_self _) Fr.rfl) (by decide) h

theorem modMsd_canon {s : State} {x0} {x1} (h : Canon s) : Canon (State.modMsd s x0 x1) :=
  Canon_keep (modMsd_frame (Nat.or_self _) Fr.rfl) (by decide) h

theorem modPort_canon {s : State} {x0} {x1} (h : Canon s) : Canon (State.modPort s x0 x1) :=
  Canon_keep (modPort_frame (Nat.or_self _) Fr.rfl) (by decide) h

theorem modPte_canon {s : State} {x0} {x1} (h : Canon s) : Canon (State.modPte s x0 x1) :=
  Canon_keep (modPte_frame (Nat.or_self _) Fr.rfl) (by decide) h

theorem modSession_canon {s : State} {x0} {x1} (h : Canon s) : Canon (State.modSession s x0 x1) :=
  Canon_keep (modSession_frame (Nat.or_self _) Fr.rfl) (by decide) h

theorem modSide_canon {s : State} {x0} {x1} (h : Canon s) : Canon (State.modSide s x0 x1) :=
  Canon_keep (modSide_frame (Nat.or_self _) Fr.rfl) (by decide) h

theorem modSkey_canon {s : State} {x0} {x1} (h : Canon s) : Canon (State.modSkey s x0 x1) :=
  Canon_keep (modSkey_frame (Nat.or_self _) Fr.rfl) (by decide) h

theorem modStream_canon {s : State} {x0} {x1} {x2} (h : Canon s) : Canon (State.modStream s x0 x1 x2) :=
  Canon_keep (modStream_frame (Nat.or_self _) Fr.rfl) (by decide) h

theorem modSup_canon {s : State} {x0} {x1} (h : Canon s) : Canon (State.modSup s x0 x1) :=
  Canon_keep (modSup_frame (Nat.or_self _) Fr.rfl) (by decide) h

theorem modTkey_canon {s : State} {x0} {x1} (h : Canon s) : Canon (State.modTkey s x0 x1) :=
  Canon_keep (modTkey_frame (Nat.or_self _) Fr.rfl) (by decide) h

theorem modWeaver_canon {s : State} {x0} {x1} (h : Canon s) : Canon (State.modWeaver s x0 x1) :=
  Canon_keep (modWeaver_frame (Nat.or_self _) Fr.rfl) (by decide) h

theorem originate_canon {x0} {x1} {x2} {s : State} (h : Canon s) : Canon (State.originate x0 x1 x2 s) :=
  Canon_keep (originate_frame (Nat.or_self _) Fr.rfl) (by decide) h

theorem polLimit_canon {x0} {s : State} (h : Canon s) : Canon (State.polLimit x0 s) :=
  Canon_keep (polLimit_frame (Nat.or_self _) Fr.rfl) (by decide) h

theorem rekey_canon {s : State} (h : Canon s) : Canon (State.rekey s) :=
  Canon_keep (rekey_frame (Nat.or_self _) Fr.rfl) (by decide) h

theorem reserved_canon {s : State} (h : Canon s) : Canon (State.reserved s) :=
  Canon_keep (reserved_frame (Nat.or_self _) Fr.rfl) (by decide) h

theorem translate_canon {x0} {x1} {x2} {s : State} (h : Canon s) : Canon (State.translate x0 x1 x2 s) :=
  Canon_keep (translate_frame (Nat.or_self _) Fr.rfl) (by decide) h

theorem testBorrow_canon {s : State} (h : Canon s) : Canon (State.testBorrow s) :=
  Canon_keep (testBorrow_frame (Nat.or_self _) Fr.rfl) (by decide) h

theorem turnAway_canon {x0} {x1} {s : State} (h : Canon s) : Canon (State.turnAway x0 x1 s) :=
  Canon_keep (turnAway_frame (Nat.or_self _) Fr.rfl) (by decide) h

theorem admitMany_canon {x0} {x1} {x2} {s : State} (h : Canon s) : Canon (State.admitMany x0 x1 x2 s).2 :=
  Canon_keep (admitMany_frame (Nat.or_self _) Fr.rfl) (by decide) h

theorem admitMove_canon {x0} {s : State} (h : Canon s) : Canon (State.admitMove x0 s).2 :=
  Canon_keep (admitMove_frame (Nat.or_self _) Fr.rfl) (by decide) h

theorem admitUnit_canon {x0} {x1} {s : State} (h : Canon s) : Canon (State.admitUnit x0 x1 s).2 :=
  Canon_keep (admitUnit_frame (Nat.or_self _) Fr.rfl) (by decide) h

theorem admitOnce_canon {x0} {x1} {x2} {s : State} (h : Canon s) : Canon (State.admitOnce x0 x1 x2 s).2 :=
  Canon_keep (admitOnce_frame (Nat.or_self _) Fr.rfl) (by decide) h

theorem applyShares_canon {s : State} (h : Canon s) : Canon (State.applyShares s) :=
  Canon_keep (applyShares_frame (Nat.or_self _) Fr.rfl) (by decide) h

theorem dropMove_canon {x0} {s : State} (h : Canon s) : Canon (State.dropMove x0 s) :=
  Canon_keep (dropMove_frame (Nat.or_self _) Fr.rfl) (by decide) h

theorem freshBudgets_canon {s : State} (h : Canon s) : Canon (State.freshBudgets s) :=
  Canon_keep (freshBudgets_frame (Nat.or_self _) Fr.rfl) (by decide) h

theorem hold_canon {x0} {x1} {x2} {s : State} (h : Canon s) : Canon (State.hold x0 x1 x2 s) :=
  Canon_keep (hold_frame (Nat.or_self _) Fr.rfl) (by decide) h

theorem holdMove_canon {x0} {s : State} (h : Canon s) : Canon (State.holdMove x0 s) :=
  Canon_keep (holdMove_frame (Nat.or_self _) Fr.rfl) (by decide) h

theorem latchTallies_canon {s : State} (h : Canon s) : Canon (State.latchTallies s) :=
  Canon_keep (latchTallies_frame (Nat.or_self _) Fr.rfl) (by decide) h

theorem newBudgets_canon {s : State} (h : Canon s) : Canon (State.newBudgets s) :=
  Canon_keep (newBudgets_frame (Nat.or_self _) Fr.rfl) (by decide) h

theorem pushMove_canon {x0} {s : State} (h : Canon s) : Canon (State.pushMove x0 s) :=
  Canon_keep (pushMove_frame (Nat.or_self _) Fr.rfl) (by decide) h

theorem pumpMoves_canon {x0} {s : State} (h : Canon s) : Canon (State.pumpMoves x0 s) :=
  Canon_keep (pumpMoves_frame (Nat.or_self _) Fr.rfl) (by decide) h

theorem answer_canon {x0} {x1} {x2} {x3} {x4} {s : State} (h : Canon s) : Canon (State.answer x0 x1 x2 x3 x4 s) :=
  Canon_keep (answer_frame (Nat.or_self _) Fr.rfl) (by decide) h

theorem accept_canon {x0} {s : State} (h : Canon s) : Canon (State.accept x0 s) :=
  Canon_keep (accept_frame (Nat.or_self _) Fr.rfl) (by decide) h

theorem command_canon {x0} {x1} {x2} {x3} {x4} {s : State} (hf : ∀ q t, Canon t → Canon (x3 q t).2) (h : Canon s) : Canon (State.command x0 x1 x2 x3 x4 s) := by
  unfold State.command
  repeat'
    first
    | with_reducible assumption
    | (intro _)
    | (extract_lets +onlyGivenNames z; refine (fun (hz : Canon z.2) => ?_) ?_; clear_value z; revert z; intro y hy; rotate_left; dsimp only [z]; clear z)
    | (extract_lets +onlyGivenNames z; clear_value z; revert z; intro y)
    | with_reducible apply answer_canon
    | with_reducible apply Canon_ite
    | split
    | with_reducible apply_assumption

theorem mbCtl_canon {x0} {x1} {s : State} (h : Canon s) : Canon (State.mbCtl x0 x1 s) :=
  Canon_keep (mbCtl_frame (Nat.or_self _) Fr.rfl) (by decide) h

theorem reqWrite_canon {x0} {x1} {x2} {s : State} (h : Canon s) : Canon (State.reqWrite x0 x1 x2 s) :=
  Canon_keep (reqWrite_frame (Nat.or_self _) Fr.rfl) (by decide) h

theorem checked_canon {x0} {x1} {s : State} (hx : Canon x1.2) (h : Canon s) : Canon (checked x0 x1 s).2 := by
  unfold checked
  repeat'
    first
    | with_reducible assumption
    | split

theorem wrMailbox_canon {x0} {x1} {x2} {s : State} (h : Canon s) : Canon (State.wrMailbox x0 x1 x2 s) :=
  Canon_keep (wrMailbox_frame (Nat.or_self _) Fr.rfl) (by decide) h

theorem wrEvent_canon {x0} {x1} {x2} {s : State} (h : Canon s) : Canon (State.wrEvent x0 x1 x2 s) :=
  Canon_keep (wrEvent_frame (Nat.or_self _) Fr.rfl) (by decide) h

theorem startRounds_canon {s : State} (h : Canon s) : Canon (State.startRounds s) :=
  Canon_keep (startRounds_frame (Nat.or_self _) Fr.rfl) (by decide) h

theorem stopRounds_canon {s : State} (h : Canon s) : Canon (State.stopRounds s) :=
  Canon_keep (stopRounds_frame (Nat.or_self _) Fr.rfl) (by decide) h

theorem wrRndCtl_canon {x0} {s : State} (h : Canon s) : Canon (State.wrRndCtl x0 s) :=
  Canon_keep (wrRndCtl_frame (Nat.or_self _) Fr.rfl) (by decide) h

theorem wrRndLen_canon {x0} {s : State} (h : Canon s) : Canon (State.wrRndLen x0 s) :=
  Canon_keep (wrRndLen_frame (Nat.or_self _) Fr.rfl) (by decide) h

theorem wrRndNum_canon {x0} {s : State} (h : Canon s) : Canon (State.wrRndNum x0 s) :=
  Canon_keep (wrRndNum_frame (Nat.or_self _) Fr.rfl) (by decide) h

theorem wrRound_canon {x0} {x1} {s : State} (h : Canon s) : Canon (State.wrRound x0 x1 s) :=
  Canon_keep (wrRound_frame (Nat.or_self _) Fr.rfl) (by decide) h

theorem wrShare_canon {x0} {x1} {s : State} (h : Canon s) : Canon (State.wrShare x0 x1 s) :=
  Canon_keep (wrShare_frame (Nat.or_self _) Fr.rfl) (by decide) h

theorem wrBudCtl_canon {x0} {s : State} (h : Canon s) : Canon (State.wrBudCtl x0 s) :=
  Canon_keep (wrBudCtl_frame (Nat.or_self _) Fr.rfl) (by decide) h

theorem wrBudget_canon {x0} {x1} {s : State} (h : Canon s) : Canon (State.wrBudget x0 x1 s) :=
  Canon_keep (wrBudget_frame (Nat.or_self _) Fr.rfl) (by decide) h

theorem blockReset_canon {x0} {x1} {s : State} (h : Canon s) : Canon (State.blockReset x0 x1 s) :=
  Canon_keep (blockReset_frame (Nat.or_self _) Fr.rfl) (by decide) h

theorem wrPower_canon {x0} {x1} {s : State} (h : Canon s) : Canon (State.wrPower x0 x1 s) :=
  Canon_keep (wrPower_frame (Nat.or_self _) Fr.rfl) (by decide) h

theorem wrHoop_canon {x0} {x1} {s : State} (h : Canon s) : Canon (State.wrHoop x0 x1 s) :=
  Canon_keep (wrHoop_frame (Nat.or_self _) Fr.rfl) (by decide) h

theorem wrFault_canon {x0} {x1} {s : State} (h : Canon s) : Canon (State.wrFault x0 x1 s) :=
  Canon_keep (wrFault_frame (Nat.or_self _) Fr.rfl) (by decide) h

theorem wrPortCfg_canon {x0} {x1} {s : State} (h : Canon s) : Canon (State.wrPortCfg x0 x1 s) :=
  Canon_keep (wrPortCfg_frame (Nat.or_self _) Fr.rfl) (by decide) h

theorem wrPort_canon {x0} {x1} {x2} {s : State} (h : Canon s) : Canon (State.wrPort x0 x1 x2 s) :=
  Canon_keep (wrPort_frame (Nat.or_self _) Fr.rfl) (by decide) h

theorem wrMsd_canon {x0} {x1} {x2} {s : State} (h : Canon s) : Canon (State.wrMsd x0 x1 x2 s) :=
  Canon_keep (wrMsd_frame (Nat.or_self _) Fr.rfl) (by decide) h

theorem barWrite_canon {x0} {x1} {x2} {s : State} (h : Canon s) : Canon (State.barWrite x0 x1 x2 s) :=
  Canon_keep (barWrite_frame (Nat.or_self _) Fr.rfl) (by decide) h

theorem barAccess_canon {x0} {x1} {x2} {x3} {s : State} (h : Canon s) : Canon (State.barAccess x0 x1 x2 x3 s) :=
  Canon_keep (barAccess_frame (Nat.or_self _) Fr.rfl) (by decide) h

theorem readHigh_canon {x0} {x1} {s : State} (h : Canon s) : Canon (State.readHigh x0 x1 s) :=
  Canon_keep (readHigh_frame (Nat.or_self _) Fr.rfl) (by decide) h

theorem readLow_canon {x0} {x1} {s : State} (h : Canon s) : Canon (State.readLow x0 x1 s) :=
  Canon_keep (readLow_frame (Nat.or_self _) Fr.rfl) (by decide) h

theorem readWide_canon {x0} {x1} {s : State} (h : Canon s) : Canon (State.readWide x0 x1 s) :=
  Canon_keep (readWide_frame (Nat.or_self _) Fr.rfl) (by decide) h

theorem dropWait_canon {x0} {s : State} (h : Canon s) : Canon (State.dropWait x0 s) :=
  Canon_keep (dropWait_frame (Nat.or_self _) Fr.rfl) (by decide) h

theorem takeFrame_canon {x0} {x1} {s : State} (h : Canon s) : Canon (State.takeFrame x0 x1 s) :=
  Canon_keep (takeFrame_frame (Nat.or_self _) Fr.rfl) (by decide) h

theorem fillZero_canon {x0} {x1} {s : State} (h : Canon s) : Canon (State.fillZero x0 x1 s) :=
  Canon_keep (fillZero_frame (Nat.or_self _) Fr.rfl) (by decide) h

theorem waitFrame_canon {x0} {s : State} (h : Canon s) : Canon (State.waitFrame x0 s) :=
  Canon_keep (waitFrame_frame (Nat.or_self _) Fr.rfl) (by decide) h

theorem allocZero_canon {x0} {s : State} (h : Canon s) : Canon (State.allocZero x0 s).2 :=
  Canon_keep (allocZero_frame (Nat.or_self _) Fr.rfl) (by decide) h

theorem refreshPoison_canon {x0} {s : State} (h : Canon s) : Canon (State.refreshPoison x0 s) :=
  Canon_keep (refreshPoison_frame (Nat.or_self _) Fr.rfl) (by decide) h

theorem clearLines_canon {x0} {x1} {x2} {s : State} (h : Canon s) : Canon (State.clearLines x0 x1 x2 s) :=
  Canon_keep (clearLines_frame (Nat.or_self _) Fr.rfl) (by decide) h

theorem slowStore_canon {x0} {x1} {s : State} (h : Canon s) : Canon (State.slowStore x0 x1 s) := by
  unfold State.slowStore
  repeat'
    first
    | with_reducible assumption
    | (extract_lets +onlyGivenNames z; refine (fun (hz : MemOk z) => ?_) ?_; clear_value z; revert z; intro y hy; rotate_left; dsimp only [z]; clear z)
    | simp -zeta only [Canon_mk]
    | simp only [MemOk_mk]
    | with_reducible apply Canon.mem
    | with_reducible apply And.intro
    | with_reducible apply BytesOk_fold
    | with_reducible apply MemOk.hbm
    | with_reducible apply MemOk.slow

theorem slowWrite_canon {x0} {x1} {x2} {s : State} (h : Canon s) : Canon (State.slowWrite x0 x1 x2 s) := by
  unfold State.slowWrite
  repeat'
    first
    | with_reducible assumption
    | (extract_lets +onlyGivenNames z; refine (fun (hz : Canon z) => ?_) ?_; clear_value z; revert z; intro y hy; rotate_left; dsimp only [z]; clear z)
    | (extract_lets +onlyGivenNames z; refine (fun (hz : MemOk z) => ?_) ?_; clear_value z; revert z; intro y hy; rotate_left; dsimp only [z]; clear z)
    | (extract_lets +onlyGivenNames z; clear_value z; revert z; intro y)
    | simp -zeta only [Canon_mk]
    | with_reducible apply slowStore_canon
    | simp only [MemOk_mk]
    | with_reducible apply Canon.mem
    | with_reducible apply And.intro
    | with_reducible apply MemOk.hbm
    | with_reducible apply MemOk.slow

theorem copyOut_canon {x0} {x1} {x2} {x3} {s : State} (h : Canon s) : Canon (State.copyOut x0 x1 x2 x3 s) := by
  unfold State.copyOut
  repeat'
    first
    | with_reducible assumption
    | (extract_lets +onlyGivenNames z; refine (fun (hz : Canon z) => ?_) ?_; clear_value z; revert z; intro y hy; rotate_left; dsimp only [z]; clear z)
    | (extract_lets +onlyGivenNames z; refine (fun (hz : MemOk z) => ?_) ?_; clear_value z; revert z; intro y hy; rotate_left; dsimp only [z]; clear z)
    | (extract_lets +onlyGivenNames z; clear_value z; revert z; intro y)
    | simp -zeta only [Canon_mk]
    | with_reducible apply slowWrite_canon
    | simp only [MemOk_mk]
    | with_reducible apply Canon.mem
    | with_reducible apply And.intro
    | with_reducible apply MemOk.hbm
    | with_reducible apply MemOk.slow

theorem countStale_canon {x0} {s : State} (h : Canon s) : Canon (State.countStale x0 s) :=
  Canon_keep (countStale_frame (Nat.or_self _) Fr.rfl) (by decide) h

theorem endMove_canon {x0} {s : State} (h : Canon s) : Canon (State.endMove x0 s) :=
  Canon_keep (endMove_frame (Nat.or_self _) Fr.rfl) (by decide) h

theorem finishWorks_canon {s : State} (h : Canon s) : Canon (State.finishWorks s) :=
  Canon_keep (finishWorks_frame (Nat.or_self _) Fr.rfl) (by decide) h

theorem forget_canon {x0} {s : State} (h : Canon s) : Canon (State.forget x0 s) :=
  Canon_keep (forget_frame (Nat.or_self _) Fr.rfl) (by decide) h

theorem frameWrite_canon {x0} {x1} {x2} {s : State} (h : Canon s) : Canon (State.frameWrite x0 x1 x2 s) := by
  unfold State.frameWrite
  repeat'
    first
    | with_reducible assumption
    | (intro _)
    | (extract_lets +onlyGivenNames z; refine (fun (hz : Canon z) => ?_) ?_; clear_value z; revert z; intro y hy; rotate_left; dsimp only [z]; clear z)
    | (extract_lets +onlyGivenNames z; refine (fun (hz : MemOk z) => ?_) ?_; clear_value z; revert z; intro y hy; rotate_left; dsimp only [z]; clear z)
    | (extract_lets +onlyGivenNames z; clear_value z; revert z; intro y)
    | simp -zeta only [Canon_mk]
    | with_reducible apply clearLines_canon
    | with_reducible apply modFrame_canon
    | with_reducible apply Canon_ite
    | simp only [MemOk_mk]
    | with_reducible apply Canon.mem
    | with_reducible apply And.intro
    | with_reducible apply BytesOk_wr
    | with_reducible apply MemOk.hbm
    | with_reducible apply MemOk.slow

theorem freeFrame_canon {x0} {s : State} (h : Canon s) : Canon (State.freeFrame x0 s) := by
  unfold State.freeFrame
  repeat'
    first
    | with_reducible assumption
    | (extract_lets +onlyGivenNames z; refine (fun (hz : Canon z) => ?_) ?_; clear_value z; revert z; intro y hy; rotate_left; dsimp only [z]; clear z)
    | (extract_lets +onlyGivenNames z; refine (fun (hz : MemOk z) => ?_) ?_; clear_value z; revert z; intro y hy; rotate_left; dsimp only [z]; clear z)
    | simp -zeta only [Canon_mk]
    | with_reducible apply finishWorks_canon
    | with_reducible apply modFrame_canon
    | simp only [MemOk_mk]
    | with_reducible apply Canon.mem
    | with_reducible apply And.intro
    | with_reducible apply BytesOk_zero
    | with_reducible apply MemOk.hbm
    | with_reducible apply MemOk.slow

theorem zeroFrame_canon {x0} {s : State} (h : Canon s) : Canon (State.zeroFrame x0 s) :=
  Canon_keep (zeroFrame_frame (Nat.or_self _) Fr.rfl) (by decide) h

theorem switchToT2_canon {x0} {x1} {s : State} (h : Canon s) : Canon (State.switchToT2 x0 x1 s) :=
  Canon_keep (switchToT2_frame (Nat.or_self _) Fr.rfl) (by decide) h

theorem leftFor_canon {x0} {x1} {s : State} (h : Canon s) : Canon (State.leftFor x0 x1 s) :=
  Canon_keep (leftFor_frame (Nat.or_self _) Fr.rfl) (by decide) h

theorem writeBack_canon {x0} {x1} {s : State} (h : Canon s) : Canon (State.writeBack x0 x1 s) := by
  unfold State.writeBack
  repeat'
    first
    | with_reducible assumption
    | (intro _)
    | with_reducible apply each_canon
    | with_reducible apply copyOut_canon

theorem takeT2_canon {x0} {s : State} (h : Canon s) : Canon (State.takeT2 x0 s).2 :=
  Canon_keep (takeT2_frame (Nat.or_self _) Fr.rfl) (by decide) h

theorem leaveFrame_canon {x0} {s : State} (h : Canon s) : Canon (State.leaveFrame x0 s) := by
  unfold State.leaveFrame
  repeat'
    first
    | with_reducible assumption
    | (intro _)
    | (extract_lets +onlyGivenNames z; refine (fun (hz : Canon z.2) => ?_) ?_; clear_value z; revert z; intro y hy; rotate_left; dsimp only [z]; clear z)
    | (extract_lets +onlyGivenNames z; clear_value z; revert z; intro y)
    | with_reducible apply zeroFrame_canon
    | with_reducible apply forget_canon
    | with_reducible apply leftFor_canon
    | with_reducible apply writeBack_canon
    | with_reducible apply takeT2_canon
    | with_reducible apply copyOut_canon
    | with_reducible apply Canon_ite
    | split

theorem moveFrame_canon {x0} {x1} {s : State} (h : Canon s) : Canon (State.moveFrame x0 x1 s) :=
  Canon_keep (moveFrame_frame (Nat.or_self _) Fr.rfl) (by decide) h

theorem noKey_canon {x0} {s : State} (h : Canon s) : Canon (State.noKey x0 s) :=
  Canon_keep (noKey_frame (Nat.or_self _) Fr.rfl) (by decide) h

theorem startRepair_canon {x0} {x1} {x2} {s : State} (h : Canon s) : Canon (State.startRepair x0 x1 x2 s) :=
  Canon_keep (startRepair_frame (Nat.or_self _) Fr.rfl) (by decide) h

theorem poison_canon {x0} {x1} {x2} {x3} {s : State} (h : Canon s) : Canon (State.poison x0 x1 x2 x3 s) :=
  Canon_keep (poison_frame (Nat.or_self _) Fr.rfl) (by decide) h

theorem touchT2_canon {x0} {x1} {x2} {s : State} (h : Canon s) : Canon (State.touchT2 x0 x1 x2 s) :=
  Canon_keep (touchT2_frame (Nat.or_self _) Fr.rfl) (by decide) h

theorem readPoison_canon {x0} {x1} {s : State} (h : Canon s) : Canon (State.readPoison x0 x1 s).2 :=
  Canon_keep (readPoison_frame (Nat.or_self _) Fr.rfl) (by decide) h

theorem touch_canon {x0} {x1} {x2} {s : State} (h : Canon s) : Canon (State.touch x0 x1 x2 s) :=
  Canon_keep (touch_frame (Nat.or_self _) Fr.rfl) (by decide) h

theorem readSpot_canon {x0} {x1} {x2} {s : State} (h : Canon s) : Canon (State.readSpot x0 x1 x2 s).2 :=
  Canon_keep (readSpot_frame (Nat.or_self _) Fr.rfl) (by decide) h

theorem readDva_canon {x0} {x1} {x2} {x3} {s : State} (h : Canon s) : Canon (State.readDva x0 x1 x2 x3 s).2 :=
  Canon_keep (readDva_frame (Nat.or_self _) Fr.rfl) (by decide) h

theorem readAll_canon {x0} {x1} {s : State} (h : Canon s) : Canon (State.readAll x0 x1 s).2 :=
  Canon_keep (readAll_frame (Nat.or_self _) Fr.rfl) (by decide) h

theorem readFor_canon {x0} {x1} {x2} {x3} {s : State} (h : Canon s) : Canon (State.readFor x0 x1 x2 x3 s).2 :=
  Canon_keep (readFor_frame (Nat.or_self _) Fr.rfl) (by decide) h

theorem slowSpoil_canon {x0} {x1} {s : State} (h : Canon s) : Canon (State.slowSpoil x0 x1 s) :=
  Canon_keep (slowSpoil_frame (Nat.or_self _) Fr.rfl) (by decide) h

theorem startLeave_canon {x0} {x1} {x2} {s : State} (h : Canon s) : Canon (State.startLeave x0 x1 x2 s) :=
  Canon_keep (startLeave_frame (Nat.or_self _) Fr.rfl) (by decide) h

theorem startDemote_canon {x0} {x1} {s : State} (h : Canon s) : Canon (State.startDemote x0 x1 s) :=
  Canon_keep (startDemote_frame (Nat.or_self _) Fr.rfl) (by decide) h

theorem startEvict_canon {x0} {s : State} (h : Canon s) : Canon (State.startEvict x0 s) :=
  Canon_keep (startEvict_frame (Nat.or_self _) Fr.rfl) (by decide) h

theorem startPromote_canon {x0} {x1} {s : State} (h : Canon s) : Canon (State.startPromote x0 x1 s).2 :=
  Canon_keep (startPromote_frame (Nat.or_self _) Fr.rfl) (by decide) h

theorem unpinPage_canon {x0} {s : State} (h : Canon s) : Canon (State.unpinPage x0 s) :=
  Canon_keep (unpinPage_frame (Nat.or_self _) Fr.rfl) (by decide) h

theorem unmapPage_canon {x0} {s : State} (h : Canon s) : Canon (State.unmapPage x0 s) :=
  Canon_keep (unmapPage_frame (Nat.or_self _) Fr.rfl) (by decide) h

theorem writeSpot_canon {x0} {x1} {x2} {s : State} (h : Canon s) : Canon (State.writeSpot x0 x1 x2 s).2 := by
  unfold State.writeSpot
  repeat'
    first
    | with_reducible assumption
    | (intro _)
    | (extract_lets +onlyGivenNames z; refine (fun (hz : Canon z.2) => ?_) ?_; clear_value z; revert z; intro y hy; rotate_left; dsimp only [z]; clear z)
    | (extract_lets +onlyGivenNames z; clear_value z; revert z; intro y)
    | simp -zeta only [Canon_mk]
    | with_reducible apply allocZero_canon
    | with_reducible apply touch_canon
    | with_reducible apply frameWrite_canon
    | with_reducible apply dropWait_canon
    | with_reducible apply touchT2_canon
    | with_reducible apply slowWrite_canon
    | with_reducible apply noKey_canon
    | with_reducible apply Canon_ite2
    | split

theorem writeDva_canon {x0} {x1} {x2} {s : State} (h : Canon s) : Canon (State.writeDva x0 x1 x2 s).2 := by
  unfold State.writeDva
  repeat'
    first
    | with_reducible assumption
    | (intro _)
    | with_reducible apply writeSpot_canon
    | with_reducible apply foldl_canon2
    | split

theorem bufWrite_canon {x0} {x1} {x2} {x3} {s : State} (h : Canon s) : Canon (State.bufWrite x0 x1 x2 x3 s) := by
  unfold State.bufWrite
  repeat'
    first
    | with_reducible assumption
    | with_reducible apply modCourse_canon
    | with_reducible apply frameWrite_canon

theorem readView_canon {x0} {x1} {x2} {s : State} (h : Canon s) : Canon (State.readView x0 x1 x2 s).2 :=
  Canon_keep (readView_frame (Nat.or_self _) Fr.rfl) (by decide) h

theorem courseRead_canon {x0} {x1} {x2} {x3} {x4} {s : State} (h : Canon s) : Canon (State.courseRead x0 x1 x2 x3 x4 s).2 :=
  Canon_keep (courseRead_frame (Nat.or_self _) Fr.rfl) (by decide) h

theorem courseWriteSpot_canon {x0} {x1} {x2} {x3} {s : State} (h : Canon s) : Canon (State.courseWriteSpot x0 x1 x2 x3 s).2 := by
  unfold State.courseWriteSpot
  repeat'
    first
    | with_reducible assumption
    | (extract_lets +onlyGivenNames z; refine (fun (hz : Canon z.2) => ?_) ?_; clear_value z; revert z; intro y hy; rotate_left; dsimp only [z]; clear z)
    | simp -zeta only [Canon_mk]
    | with_reducible apply writeSpot_canon
    | with_reducible apply modCourse_canon
    | split

theorem courseWrite_canon {x0} {x1} {x2} {x3} {x4} {s : State} (h : Canon s) : Canon (State.courseWrite x0 x1 x2 x3 x4 s).2 := by
  unfold State.courseWrite
  repeat'
    first
    | with_reducible assumption
    | (intro _)
    | (extract_lets +onlyGivenNames z; clear_value z; revert z; intro y)
    | simp -zeta only [Canon_mk]
    | with_reducible apply courseWriteSpot_canon
    | with_reducible apply bufWrite_canon
    | with_reducible apply Canon_ite2
    | with_reducible apply foldl_canon2
    | split

theorem addEvc_canon {x0} {x1} {x2} {x3} {s : State} (h : Canon s) : Canon (State.addEvc x0 x1 x2 x3 s) :=
  Canon_keep (addEvc_frame (Nat.or_self _) Fr.rfl) (by decide) h

theorem checkSegment_canon {x0} {s : State} (h : Canon s) : Canon (State.checkSegment x0 s) :=
  Canon_keep (checkSegment_frame (Nat.or_self _) Fr.rfl) (by decide) h

theorem report_canon {x0} {s : State} (h : Canon s) : Canon (State.report x0 s) :=
  Canon_keep (report_frame (Nat.or_self _) Fr.rfl) (by decide) h

theorem endBlock_canon {x0} {s : State} (h : Canon s) : Canon (State.endBlock x0 s) :=
  Canon_keep (endBlock_frame (Nat.or_self _) Fr.rfl) (by decide) h

theorem passOrphan_canon {x0} {x1} {x2} {x3} {s : State} (h : Canon s) : Canon (State.passOrphan x0 x1 x2 x3 s) :=
  Canon_keep (passOrphan_frame (Nat.or_self _) Fr.rfl) (by decide) h

theorem retire_canon {x0} {x1} {s : State} (h : Canon s) : Canon (State.retire x0 x1 s) :=
  Canon_keep (retire_frame (Nat.or_self _) Fr.rfl) (by decide) h

theorem violation_canon {x0} {s : State} (h : Canon s) : Canon (State.violation x0 s) :=
  Canon_keep (violation_frame (Nat.or_self _) Fr.rfl) (by decide) h

theorem skipUnassigned_canon {x0} {x1} {x2} {s : State} (h : Canon s) : Canon (State.skipUnassigned x0 x1 x2 s) := by
  induction x0 generalizing s with
  | zero => exact h
  | succ k ih =>
    rw [State.skipUnassigned]
    split
    · exact Canon_ite (fun _ => h) fun _ => ih (violation_canon h)
    · exact h

theorem issue_canon {x0} {x1} {x2} {x3} {x4} {s : State} (hf : ∀ p t, Canon t → CanonO (x4 p t)) (h : Canon s) : Canon (State.issue x0 x1 x2 x3 x4 s) := by
  unfold State.issue
  repeat'
    first
    | with_reducible assumption
    | (intro _)
    | (extract_lets +onlyGivenNames z; refine (fun (hz : Canon z) => ?_) ?_; clear_value z; revert z; intro y hy; rotate_left; dsimp only [z]; clear z)
    | with_reducible apply passOrphan_canon
    | with_reducible apply skipUnassigned_canon
    | with_reducible apply violation_canon
    | with_reducible apply Canon_ite
    | with_reducible apply getD_canon
    | split
    | with_reducible apply_assumption

theorem issueCell_canon {x0} {x1} {x2} {x3} {x4} {s : State} (h : Canon s) : Canon (State.issueCell x0 x1 x2 x3 x4 s) :=
  Canon_keep (issueCell_frame (Nat.or_self _) Fr.rfl) (by decide) h

theorem closeSeq_canon {x0} {x1} {x2} {s : State} (h : Canon s) : Canon (State.closeSeq x0 x1 x2 s) :=
  Canon_keep (closeSeq_frame (Nat.or_self _) Fr.rfl) (by decide) h

theorem closeSession_canon {x0} {s : State} (h : Canon s) : Canon (State.closeSession x0 s) :=
  Canon_keep (closeSession_frame (Nat.or_self _) Fr.rfl) (by decide) h

theorem unqueue_canon {x0} {s : State} (h : Canon s) : Canon (State.unqueue x0 s) :=
  Canon_keep (unqueue_frame (Nat.or_self _) Fr.rfl) (by decide) h

theorem stopCourse_canon {x0} {s : State} (h : Canon s) : Canon (State.stopCourse x0 s) :=
  Canon_keep (stopCourse_frame (Nat.or_self _) Fr.rfl) (by decide) h

theorem holdCourse_canon {x0} {x1} {x2} {s : State} (h : Canon s) : Canon (State.holdCourse x0 x1 x2 s) :=
  Canon_keep (holdCourse_frame (Nat.or_self _) Fr.rfl) (by decide) h

theorem sumCourse_canon {x0} {x1} {x2} {s : State} (h : Canon s) : Canon (State.sumCourse x0 x1 x2 s) :=
  Canon_keep (sumCourse_frame (Nat.or_self _) Fr.rfl) (by decide) h

theorem unpinCourse_canon {x0} {s : State} (h : Canon s) : Canon (State.unpinCourse x0 s) :=
  Canon_keep (unpinCourse_frame (Nat.or_self _) Fr.rfl) (by decide) h

theorem releaseCourse_canon {x0} {s : State} (h : Canon s) : Canon (State.releaseCourse x0 s) :=
  Canon_keep (releaseCourse_frame (Nat.or_self _) Fr.rfl) (by decide) h

theorem outDone_canon {x0} {x1} {s : State} (h : Canon s) : Canon (State.outDone x0 x1 s) :=
  Canon_keep (outDone_frame (Nat.or_self _) Fr.rfl) (by decide) h

theorem outStart_canon {x0} {x1} {x2} {s : State} (h : Canon s) : Canon (State.outStart x0 x1 x2 s) :=
  Canon_keep (outStart_frame (Nat.or_self _) Fr.rfl) (by decide) h

theorem openTurn_canon {x0} {s : State} (h : Canon s) : Canon (State.openTurn x0 s) :=
  Canon_keep (openTurn_frame (Nat.or_self _) Fr.rfl) (by decide) h

theorem finishSeq_canon {x0} {x1} {x2} {x3} {x4} {s : State} (h : Canon s) : Canon (State.finishSeq x0 x1 x2 x3 x4 s) :=
  Canon_keep (finishSeq_frame (Nat.or_self _) Fr.rfl) (by decide) h

theorem setProbe_canon {x0} {s : State} (h : Canon s) : Canon (State.setProbe x0 s) :=
  Canon_keep (setProbe_frame (Nat.or_self _) Fr.rfl) (by decide) h

theorem probeFails_canon {x0} {s : State} (h : Canon s) : Canon (State.probeFails x0 s) :=
  Canon_keep (probeFails_frame (Nat.or_self _) Fr.rfl) (by decide) h

theorem endCourse_canon {x0} {x1} {s : State} (h : Canon s) : Canon (State.endCourse x0 x1 s) :=
  Canon_keep (endCourse_frame (Nat.or_self _) Fr.rfl) (by decide) h

theorem courseFails_canon {x0} {x1} {s : State} (h : Canon s) : Canon (State.courseFails x0 x1 s) :=
  Canon_keep (courseFails_frame (Nat.or_self _) Fr.rfl) (by decide) h

theorem endSeq_canon {x0} {x1} {s : State} (h : Canon s) : Canon (State.endSeq x0 x1 s) :=
  Canon_keep (endSeq_frame (Nat.or_self _) Fr.rfl) (by decide) h

theorem dropSeq_canon {x0} {x1} {s : State} (h : Canon s) : Canon (State.dropSeq x0 x1 s) :=
  Canon_keep (dropSeq_frame (Nat.or_self _) Fr.rfl) (by decide) h

theorem probeDone_canon {x0} {s : State} (h : Canon s) : Canon (State.probeDone x0 s) :=
  Canon_keep (probeDone_frame (Nat.or_self _) Fr.rfl) (by decide) h

theorem pumpOuts_canon {s : State} (h : Canon s) : Canon (State.pumpOuts s) :=
  Canon_keep (pumpOuts_frame (Nat.or_self _) Fr.rfl) (by decide) h

theorem modList_canon {x0} {x1} {x2} {s : State} (h : Canon s) : Canon (State.modList x0 x1 x2 s) :=
  Canon_keep (modList_frame (Nat.or_self _) Fr.rfl) (by decide) h

theorem deliver_canon {x0} {x1} {x2} {s : State} (h : Canon s) : Canon (State.deliver x0 x1 x2 s) :=
  Canon_keep (deliver_frame (Nat.or_self _) Fr.rfl) (by decide) h

theorem loadArrives_canon {x0} {x1} {s : State} (h : Canon s) : Canon (State.loadArrives x0 x1 s) :=
  Canon_keep (loadArrives_frame (Nat.or_self _) Fr.rfl) (by decide) h

theorem loadBlock_canon {x0} {x1} {s : State} (h : Canon s) : Canon (State.loadBlock x0 x1 s) :=
  Canon_keep (loadBlock_frame (Nat.or_self _) Fr.rfl) (by decide) h

theorem moveCursor_canon {x0} {x1} {s : State} (h : Canon s) : Canon (State.moveCursor x0 x1 s) :=
  Canon_keep (moveCursor_frame (Nat.or_self _) Fr.rfl) (by decide) h

theorem signal_canon {x0} {x1} {s : State} (h : Canon s) : Canon (State.signal x0 x1 s) :=
  Canon_keep (signal_frame (Nat.or_self _) Fr.rfl) (by decide) h

theorem putDelivered_canon {x0} {x1} {s : State} (h : Canon s) : Canon (State.putDelivered x0 x1 s) :=
  Canon_keep (putDelivered_frame (Nat.or_self _) Fr.rfl) (by decide) h

theorem readParts_canon {x0} {x1} {x2} {s : State} (h : Canon s) : Canon (State.readParts x0 x1 x2 s).2 :=
  Canon_keep (readParts_frame (Nat.or_self _) Fr.rfl) (by decide) h

theorem writeParts_canon {x0} {x1} {x2} {s : State} (h : Canon s) : Canon (State.writeParts x0 x1 x2 s).2 := by
  unfold State.writeParts
  repeat'
    first
    | with_reducible assumption
    | (intro _)
    | with_reducible apply courseWrite_canon
    | with_reducible apply foldl_canon2
    | split

theorem storeAccepted_canon {x0} {x1} {s : State} (h : Canon s) : Canon (State.storeAccepted x0 x1 s) := by
  unfold State.storeAccepted
  repeat'
    first
    | with_reducible assumption
    | with_reducible apply writeParts_canon
    | with_reducible apply modStream_canon
    | with_reducible apply courseFails_canon
    | simp only [MemOk_mk]
    | split

theorem waited_canon {x0} {s : State} (h : Canon s) : Canon (State.waited x0 s).2 :=
  Canon_keep (waited_frame (Nat.or_self _) Fr.rfl) (by decide) h

theorem synTimeout_canon {x0} {x1} {s : State} (h : Canon s) : Canon (State.synTimeout x0 x1 s) :=
  Canon_keep (synTimeout_frame (Nat.or_self _) Fr.rfl) (by decide) h

theorem endBody_canon {x0} {s : State} (h : Canon s) : CanonO (endBody x0 s) :=
  CanonO_keep (endBody_frame (Nat.or_self _) Fr.rfl) (by decide) h

theorem ldwBody_canon {x0} {s : State} (h : Canon s) : CanonO (ldwBody x0 s) :=
  CanonO_keep (ldwBody_frame (Nat.or_self _) Fr.rfl) (by decide) h

theorem nopBody_canon {x0} {s : State} (h : Canon s) : CanonO (nopBody x0 s) :=
  CanonO_keep (nopBody_frame (Nat.or_self _) Fr.rfl) (by decide) h

theorem putBody_canon {x0} {s : State} (h : Canon s) : CanonO (putBody x0 s) :=
  CanonO_keep (putBody_frame (Nat.or_self _) Fr.rfl) (by decide) h

theorem sigBody_canon {x0} {s : State} (h : Canon s) : CanonO (sigBody x0 s) :=
  CanonO_keep (sigBody_frame (Nat.or_self _) Fr.rfl) (by decide) h

theorem stwBody_canon {x0} {s : State} (h : Canon s) : CanonO (stwBody x0 s) :=
  CanonO_keep (stwBody_frame (Nat.or_self _) Fr.rfl) (by decide) h

theorem synBody_canon {x0} {s : State} (h : Canon s) : CanonO (synBody x0 s) :=
  CanonO_keep (synBody_frame (Nat.or_self _) Fr.rfl) (by decide) h

theorem startUnit_canon {x0} {s : State} (h : Canon s) : Canon (State.startUnit x0 s) :=
  Canon_keep (startUnit_frame (Nat.or_self _) Fr.rfl) (by decide) h

theorem presentWith_canon {x0} {x1} {s : State} (hf : ∀ a t, Canon t → Canon (x0 a t)) (h : Canon s) : Canon (State.presentWith x0 x1 s) := by
  unfold State.presentWith
  repeat'
    first
    | with_reducible assumption
    | (intro _)
    | with_reducible apply hold_canon
    | with_reducible apply admitUnit_canon
    | with_reducible apply startUnit_canon
    | with_reducible apply Canon_ite
    | simp only [MemOk_mk]
    | split
    | with_reducible apply_assumption

theorem retryTune_canon {s s2 : State} (h2 : Canon s2) : Canon (State.retryTune s s2) := by
  unfold State.retryTune
  extract_lets q
  split
  · exact h2
  · refine pumpMoves_canon (each_canon (fun w t ht => presentWith_canon (fun _ _ h => h) ht) ?_)
    simp only [Canon_mk]
    exact h2.mem

theorem ask_canon {x0} {x1} {x2} {s : State} (h : Canon s) : Canon (State.ask x0 x1 x2 s).2 :=
  Canon_keep (ask_frame (Nat.or_self _) Fr.rfl) (by decide) h

theorem forwardTick_canon {x0} {x1} {s : State} (h : Canon s) : Canon (State.forwardTick x0 x1 s) :=
  Canon_keep (forwardTick_frame (Nat.or_self _) Fr.rfl) (by decide) h

theorem predictNext_canon {s : State} (h : Canon s) : Canon (State.predictNext s) :=
  Canon_keep (predictNext_frame (Nat.or_self _) Fr.rfl) (by decide) h

theorem holdoverEntry_canon {s : State} (h : Canon s) : Canon (State.holdoverEntry s) :=
  Canon_keep (holdoverEntry_frame (Nat.or_self _) Fr.rfl) (by decide) h

theorem isolate_canon {s : State} (h : Canon s) : Canon (State.isolate s) :=
  Canon_keep (isolate_frame (Nat.or_self _) Fr.rfl) (by decide) h

theorem holdoverTick_canon {s : State} (h : Canon s) : Canon (State.holdoverTick s) :=
  Canon_keep (holdoverTick_frame (Nat.or_self _) Fr.rfl) (by decide) h

theorem hoopTick_canon {x0} {x1} {x2} {s : State} (h : Canon s) : Canon (State.hoopTick x0 x1 x2 s) :=
  Canon_keep (hoopTick_frame (Nat.or_self _) Fr.rfl) (by decide) h

theorem localTick_canon {s : State} (h : Canon s) : Canon (State.localTick s) :=
  Canon_keep (localTick_frame (Nat.or_self _) Fr.rfl) (by decide) h

theorem present_canon {x0} {s : State} (h : Canon s) : Canon (State.present x0 s) :=
  presentWith_canon (fun _ _ ht => retryTune_canon ht) h

theorem recvTick_canon {x0} {x1} {s : State} (h : Canon s) : Canon (State.recvTick x0 x1 s) :=
  Canon_keep (recvTick_frame (Nat.or_self _) Fr.rfl) (by decide) h

theorem retryUnits_canon {s : State} (h : Canon s) : Canon (State.retryUnits s) :=
  Canon_keep (retryUnits_frame (Nat.or_self _) Fr.rfl) (by decide) h

theorem sendTick_canon {s : State} (h : Canon s) : Canon (State.sendTick s) :=
  Canon_keep (sendTick_frame (Nat.or_self _) Fr.rfl) (by decide) h

theorem askFetch_canon {x0} {s : State} (h : Canon s) : Canon (State.askFetch x0 s) :=
  Canon_keep (askFetch_frame (Nat.or_self _) Fr.rfl) (by decide) h

theorem parkSessions_canon {x0} {s : State} (h : Canon s) : Canon (State.parkSessions x0 s) :=
  Canon_keep (parkSessions_frame (Nat.or_self _) Fr.rfl) (by decide) h

theorem evictWeaver_canon {x0} {s : State} (h : Canon s) : Canon (State.evictWeaver x0 s) :=
  Canon_keep (evictWeaver_frame (Nat.or_self _) Fr.rfl) (by decide) h

theorem commonsRefs_canon {s : State} (h : Canon s) : Canon (State.commonsRefs s) :=
  Canon_keep (commonsRefs_frame (Nat.or_self _) Fr.rfl) (by decide) h

theorem takeFrames_canon {x0} {x1} {x2} {s : State} (h : Canon s) : CanonP (State.takeFrames x0 x1 x2 s) := by
  induction x1 generalizing s x2 with
  | zero => exact CanonP_some h
  | succ k ih =>
    rw [State.takeFrames]
    split
    · exact CanonP_none
    · have hr := ih (x2 := x2 + 1) (takeFrame_canon (x0 := ‹Nat›) (x1 := x0 x2) h)
      split
      · exact CanonP_none
      · rename_i r e
        exact CanonP_some (show Canon r.2 from hr.out r e)

theorem tryFetch_canon {x0} {s : State} (h : Canon s) : Canon (State.tryFetch x0 s) :=
  Canon_keep (tryFetch_frame (Nat.or_self _) Fr.rfl) (by decide) h

theorem demand_canon {x0} {s : State} (h : Canon s) : Canon (State.demand x0 s) :=
  Canon_keep (demand_frame (Nat.or_self _) Fr.rfl) (by decide) h

theorem fetchFails_canon {x0} {s : State} (h : Canon s) : Canon (State.fetchFails x0 s) :=
  Canon_keep (fetchFails_frame (Nat.or_self _) Fr.rfl) (by decide) h

theorem fillShard_canon {x0} {x1} {s : State} (h : Canon s) : Canon (State.fillShard x0 x1 s) := by
  unfold State.fillShard
  repeat'
    first
    | with_reducible assumption
    | (intro _)
    | (extract_lets +onlyGivenNames z; refine (fun (hz : MemOk z) => ?_) ?_; clear_value z; revert z; intro y hy; rotate_left; dsimp only [z]; clear z)
    | (extract_lets +onlyGivenNames z; clear_value z; revert z; intro y)
    | simp -zeta only [Canon_mk]
    | with_reducible apply each_canon
    | with_reducible apply modFrame_canon
    | simp only [MemOk_mk]
    | with_reducible apply Canon.mem
    | with_reducible apply And.intro
    | with_reducible apply BytesOk_wr
    | with_reducible apply MemOk.hbm
    | with_reducible apply MemOk.slow

theorem mapSide_canon {x0} {s : State} (h : Canon s) : Canon (State.mapSide x0 s) :=
  Canon_keep (mapSide_frame (Nat.or_self _) Fr.rfl) (by decide) h

theorem recheck_canon {x0} {s : State} (h : Canon s) : Canon (State.recheck x0 s) := by
  unfold State.recheck
  repeat'
    first
    | with_reducible assumption
    | (intro _)
    | (extract_lets +onlyGivenNames z; refine (fun (hz : Canon z) => ?_) ?_; clear_value z; revert z; intro y hy; rotate_left; dsimp only [z]; clear z)
    | (extract_lets +onlyGivenNames z; clear_value z; revert z; intro y)
    | with_reducible apply slowWrite_canon
    | with_reducible apply modWeaver_canon
    | with_reducible apply foldl_canon

theorem releaseClaims_canon {x0} {s : State} (h : Canon s) : Canon (State.releaseClaims x0 s) :=
  Canon_keep (releaseClaims_frame (Nat.or_self _) Fr.rfl) (by decide) h

theorem slowScrub_canon {x0} {x1} {s : State} (h : Canon s) : Canon (State.slowScrub x0 x1 s) := by
  unfold State.slowScrub
  repeat'
    first
    | with_reducible assumption
    | (intro _)
    | (extract_lets +onlyGivenNames z; refine (fun (hz : MemOk z) => ?_) ?_; clear_value z; revert z; intro y hy; rotate_left; dsimp only [z]; clear z)
    | (extract_lets +onlyGivenNames z; clear_value z; revert z; intro y)
    | simp -zeta only [Canon_mk]
    | with_reducible apply Canon_ite
    | simp only [MemOk_mk]
    | with_reducible apply Canon.mem
    | with_reducible apply And.intro
    | with_reducible apply BytesOk_zero
    | with_reducible apply BytesOk_filter
    | with_reducible apply MemOk.hbm
    | with_reducible apply MemOk.slow

theorem removeComplete_canon {x0} {s : State} (h : Canon s) : Canon (State.removeComplete x0 s) := by
  unfold State.removeComplete
  repeat'
    first
    | with_reducible assumption
    | (intro _)
    | (extract_lets +onlyGivenNames z; refine (fun (hz : Canon z) => ?_) ?_; clear_value z; revert z; intro y hy; rotate_left; dsimp only [z]; clear z)
    | (extract_lets +onlyGivenNames z; clear_value z; revert z; intro y)
    | with_reducible apply slowScrub_canon
    | with_reducible apply modWeaver_canon
    | with_reducible apply each_canon
    | with_reducible apply finalRecord_canon
    | with_reducible apply Canon_ite

theorem removeFrames_canon {x0} {s : State} (h : Canon s) : Canon (State.removeFrames x0 s) :=
  Canon_keep (removeFrames_frame (Nat.or_self _) Fr.rfl) (by decide) h

theorem shardFetched_canon {x0} {x1} {s : State} (h : Canon s) : Canon (State.shardFetched x0 x1 s) := by
  unfold State.shardFetched
  repeat'
    first
    | with_reducible assumption
    | (intro _)
    | (extract_lets +onlyGivenNames z; refine (fun (hz : Canon z) => ?_) ?_; clear_value z; revert z; intro y hy; rotate_left; dsimp only [z]; clear z)
    | (extract_lets +onlyGivenNames z; clear_value z; revert z; intro y)
    | with_reducible apply fetchFails_canon
    | with_reducible apply noKey_canon
    | with_reducible apply askFetch_canon
    | with_reducible apply countStale_canon
    | with_reducible apply fillShard_canon
    | with_reducible apply modWeaver_canon
    | with_reducible apply Canon_ite

theorem sideBoundary_canon {s : State} (h : Canon s) : Canon (State.sideBoundary s) :=
  Canon_keep (sideBoundary_frame (Nat.or_self _) Fr.rfl) (by decide) h

theorem startRemove_canon {x0} {s : State} (h : Canon s) : Canon (State.startRemove x0 s) :=
  Canon_keep (startRemove_frame (Nat.or_self _) Fr.rfl) (by decide) h

theorem weaverFrameFreed_canon {x0} {s : State} (h : Canon s) : Canon (State.weaverFrameFreed x0 s) :=
  Canon_keep (weaverFrameFreed_frame (Nat.or_self _) Fr.rfl) (by decide) h

theorem weaverWriteBack_canon {x0} {s : State} (h : Canon s) : Canon (State.weaverWriteBack x0 s) := by
  unfold State.weaverWriteBack
  repeat'
    first
    | with_reducible assumption
    | (intro _)
    | (extract_lets +onlyGivenNames z; refine (fun (hz : Canon z) => ?_) ?_; clear_value z; revert z; intro y hy; rotate_left; dsimp only [z]; clear z)
    | (extract_lets +onlyGivenNames z; clear_value z; revert z; intro y)
    | with_reducible apply writeBack_canon
    | with_reducible apply recheck_canon
    | with_reducible apply Canon_ite
    | split

theorem abortCommit_canon {x0} {s : State} (h : Canon s) : Canon (State.abortCommit x0 s) :=
  Canon_keep (abortCommit_frame (Nat.or_self _) Fr.rfl) (by decide) h

theorem announce_canon {x0} {s : State} (h : Canon s) : Canon (State.announce x0 s) :=
  Canon_keep (announce_frame (Nat.or_self _) Fr.rfl) (by decide) h

theorem askShard_canon {x0} {s : State} (h : Canon s) : Canon (State.askShard x0 s) :=
  Canon_keep (askShard_frame (Nat.or_self _) Fr.rfl) (by decide) h

theorem buildFails_canon {x0} {x1} {x2} {s : State} (h : Canon s) : Canon (State.buildFails x0 x1 x2 s) :=
  Canon_keep (buildFails_frame (Nat.or_self _) Fr.rfl) (by decide) h

theorem closeGens_canon {x0} {s : State} (h : Canon s) : Canon (State.closeGens x0 s) :=
  Canon_keep (closeGens_frame (Nat.or_self _) Fr.rfl) (by decide) h

theorem endEvicts_canon {x0} {x1} {s : State} (h : Canon s) : Canon (State.endEvicts x0 x1 s) :=
  Canon_keep (endEvicts_frame (Nat.or_self _) Fr.rfl) (by decide) h

theorem endGenCourses_canon {x0} {x1} {s : State} (h : Canon s) : Canon (State.endGenCourses x0 x1 s) :=
  Canon_keep (endGenCourses_frame (Nat.or_self _) Fr.rfl) (by decide) h

theorem freeGen_canon {x0} {x1} {s : State} (h : Canon s) : Canon (State.freeGen x0 x1 s) :=
  Canon_keep (freeGen_frame (Nat.or_self _) Fr.rfl) (by decide) h

theorem genDone_canon {x0} {x1} {s : State} (h : Canon s) : Canon (State.genDone x0 x1 s) :=
  Canon_keep (genDone_frame (Nat.or_self _) Fr.rfl) (by decide) h

theorem evictStake_canon {x0} {s : State} (h : Canon s) : Canon (State.evictStake x0 s) :=
  Canon_keep (evictStake_frame (Nat.or_self _) Fr.rfl) (by decide) h

theorem genFrameFreed_canon {x0} {s : State} (h : Canon s) : Canon (State.genFrameFreed x0 s) :=
  Canon_keep (genFrameFreed_frame (Nat.or_self _) Fr.rfl) (by decide) h

theorem startCarry_canon {x0} {x1} {s : State} (h : Canon s) : Canon (State.startCarry x0 x1 s) :=
  Canon_keep (startCarry_frame (Nat.or_self _) Fr.rfl) (by decide) h

theorem startCarries_canon {x0} {x1} {s : State} (h : Canon s) : Canon (State.startCarries x0 x1 s) :=
  Canon_keep (startCarries_frame (Nat.or_self _) Fr.rfl) (by decide) h

theorem takeTable_canon {x0} {x1} {s : State} (h : Canon s) : CanonO (State.takeTable x0 x1 s) :=
  CanonO_keep (takeTable_frame (Nat.or_self _) Fr.rfl) (by decide) h

theorem tryBuildFrames_canon {x0} {s : State} (h : Canon s) : Canon (State.tryBuildFrames x0 s) :=
  Canon_keep (tryBuildFrames_frame (Nat.or_self _) Fr.rfl) (by decide) h

theorem gensAt20_canon {x0} {s : State} (h : Canon s) : Canon (State.gensAt20 x0 s) :=
  Canon_keep (gensAt20_frame (Nat.or_self _) Fr.rfl) (by decide) h

theorem nextSource_canon {x0} {x1} {s : State} (h : Canon s) : Canon (State.nextSource x0 x1 s) :=
  Canon_keep (nextSource_frame (Nat.or_self _) Fr.rfl) (by decide) h

theorem peerTimeout_canon {x0} {s : State} (h : Canon s) : Canon (State.peerTimeout x0 s) :=
  Canon_keep (peerTimeout_frame (Nat.or_self _) Fr.rfl) (by decide) h

theorem sendReady_canon {x0} {s : State} (h : Canon s) : Canon (State.sendReady x0 s) :=
  Canon_keep (sendReady_frame (Nat.or_self _) Fr.rfl) (by decide) h

theorem servePeer_canon {x0} {s : State} (h : Canon s) : Canon (State.servePeer x0 s) :=
  Canon_keep (servePeer_frame (Nat.or_self _) Fr.rfl) (by decide) h

theorem shardArrives_canon {x0} {x1} {s : State} (h : Canon s) : Canon (State.shardArrives x0 x1 s) := by
  unfold State.shardArrives
  repeat'
    first
    | with_reducible assumption
    | (intro _)
    | simp -zeta only [Canon_mk]
    | with_reducible apply nextSource_canon
    | with_reducible apply buildFails_canon
    | with_reducible apply noKey_canon
    | with_reducible apply askShard_canon
    | with_reducible apply countStale_canon
    | with_reducible apply each_canon
    | with_reducible apply modFrame_canon
    | with_reducible apply modGen_canon
    | with_reducible apply modStake_canon
    | with_reducible apply Canon_ite
    | simp only [MemOk_mk]
    | with_reducible apply Canon.mem
    | with_reducible apply And.intro
    | with_reducible apply BytesOk_wr
    | with_reducible apply MemOk.hbm
    | with_reducible apply MemOk.slow
    | split

theorem switchGen_canon {x0} {s : State} (h : Canon s) : Canon (State.switchGen x0 s) :=
  Canon_keep (switchGen_frame (Nat.or_self _) Fr.rfl) (by decide) h

theorem garble_canon {x0} {x1} {x2} {s : State} (h : Canon s) : Canon (State.garble x0 x1 x2 s) := by
  unfold State.garble
  repeat'
    first
    | with_reducible assumption
    | (extract_lets +onlyGivenNames z; refine (fun (hz : MemOk z) => ?_) ?_; clear_value z; revert z; intro y hy; rotate_left; dsimp only [z]; clear z)
    | (extract_lets +onlyGivenNames z; clear_value z; revert z; intro y)
    | simp -zeta only [Canon_mk]
    | simp only [MemOk_mk]
    | with_reducible apply Canon.mem
    | with_reducible apply And.intro
    | with_reducible apply BytesOk_wr
    | with_reducible apply MemOk.hbm
    | with_reducible apply MemOk.slow

theorem lineLost_canon {x0} {x1} {x2} {s : State} (h : Canon s) : Canon (State.lineLost x0 x1 x2 s) :=
  Canon_keep (lineLost_frame (Nat.or_self _) Fr.rfl) (by decide) h

theorem lineTaken_canon {x0} {x1} {x2} {s : State} (h : Canon s) : Canon (State.lineTaken x0 x1 x2 s) := by
  unfold State.lineTaken
  repeat'
    first
    | with_reducible assumption
    | (intro _)
    | (extract_lets +onlyGivenNames z; refine (fun (hz : Canon z) => ?_) ?_; clear_value z; revert z; intro y hy; rotate_left; dsimp only [z]; clear z)
    | with_reducible apply lineLost_canon
    | with_reducible apply garble_canon
    | with_reducible apply clearLines_canon
    | with_reducible apply poison_canon
    | with_reducible apply Canon_ite

theorem lineRead_canon {x0} {x1} {x2} {s : State} (h : Canon s) : Canon (State.lineRead x0 x1 x2 s) := by
  unfold State.lineRead
  repeat'
    first
    | with_reducible assumption
    | (intro _)
    | (extract_lets +onlyGivenNames z; refine (fun (hz : Canon z) => ?_) ?_; clear_value z; revert z; intro y hy; rotate_left; dsimp only [z]; clear z)
    | (extract_lets +onlyGivenNames z; clear_value z; revert z; intro y)
    | with_reducible apply lineLost_canon
    | with_reducible apply lineTaken_canon
    | with_reducible apply modMsd_canon
    | with_reducible apply pushMove_canon
    | with_reducible apply Canon_ite
    | split

theorem applyQuotas_canon {s : State} (h : Canon s) : Canon (State.applyQuotas s) :=
  Canon_keep (applyQuotas_frame (Nat.or_self _) Fr.rfl) (by decide) h

theorem burstServes_canon {x0} {s : State} (h : Canon s) : Canon (State.burstServes x0 s).2 :=
  Canon_keep (burstServes_frame (Nat.or_self _) Fr.rfl) (by decide) h

theorem cleanStep_canon {x0} {s : State} (h : Canon s) : Canon (State.cleanStep x0 s) := by
  unfold State.cleanStep
  repeat'
    first
    | with_reducible assumption
    | (intro _)
    | (extract_lets +onlyGivenNames z; refine (fun (hz : Canon z) => ?_) ?_; clear_value z; revert z; intro y hy; rotate_left; dsimp only [z]; clear z)
    | (extract_lets +onlyGivenNames z; clear_value z; revert z; intro y)
    | with_reducible apply burstServes_canon
    | with_reducible apply modFrame_canon
    | with_reducible apply writeBack_canon
    | with_reducible apply recheck_canon
    | with_reducible apply Canon_ite
    | split

theorem startPass_canon {x0} {s : State} (h : Canon s) : Canon (State.startPass x0 s) :=
  Canon_keep (startPass_frame (Nat.or_self _) Fr.rfl) (by decide) h

theorem cleanDone_canon {x0} {s : State} (h : Canon s) : Canon (State.cleanDone x0 s) := by
  unfold State.cleanDone
  repeat'
    first
    | with_reducible assumption
    | (intro _)
    | (extract_lets +onlyGivenNames z; refine (fun (hz : Canon z) => ?_) ?_; clear_value z; revert z; intro y hy; rotate_left; dsimp only [z]; clear z)
    | (extract_lets +onlyGivenNames z; clear_value z; revert z; intro y)
    | with_reducible apply cleanStep_canon
    | with_reducible apply startPass_canon
    | with_reducible apply finishWorks_canon
    | with_reducible apply modFrame_canon
    | with_reducible apply Canon_ite

theorem copyIn_canon {x0} {x1} {s : State} (h : Canon s) : Canon (State.copyIn x0 x1 s) := by
  unfold State.copyIn
  repeat'
    first
    | with_reducible assumption
    | (extract_lets +onlyGivenNames z; refine (fun (hz : MemOk z) => ?_) ?_; clear_value z; revert z; intro y hy; rotate_left; dsimp only [z]; clear z)
    | simp -zeta only [Canon_mk]
    | simp only [MemOk_mk]
    | with_reducible apply Canon.mem
    | with_reducible apply And.intro
    | with_reducible apply BytesOk_wr
    | with_reducible apply MemOk.hbm
    | with_reducible apply MemOk.slow

theorem limited_canon {x0} {x1} {x2} {x3} {s : State} (h : Canon s) : Canon (State.limited x0 x1 x2 x3 s) :=
  Canon_keep (limited_frame (Nat.or_self _) Fr.rfl) (by decide) h

theorem limBudget_canon {x0} {x1} {s : State} (h : Canon s) : Canon (State.limBudget x0 x1 s) :=
  Canon_keep (limBudget_frame (Nat.or_self _) Fr.rfl) (by decide) h

theorem countBudgetWaits_canon {s : State} (h : Canon s) : Canon (State.countBudgetWaits s) :=
  Canon_keep (countBudgetWaits_frame (Nat.or_self _) Fr.rfl) (by decide) h

theorem withdraw_canon {x0} {x1} {s : State} (h : Canon s) : Canon (State.withdraw x0 x1 s) :=
  Canon_keep (withdraw_frame (Nat.or_self _) Fr.rfl) (by decide) h

theorem evalDefers_canon {s : State} (h : Canon s) : Canon (State.evalDefers s) :=
  Canon_keep (evalDefers_frame (Nat.or_self _) Fr.rfl) (by decide) h

theorem evictionDone_canon {x0} {s : State} (h : Canon s) : Canon (State.evictionDone x0 s) := by
  unfold State.evictionDone
  repeat'
    first
    | with_reducible assumption
    | (intro _)
    | (extract_lets +onlyGivenNames z; refine (fun (hz : Canon z) => ?_) ?_; clear_value z; revert z; intro y hy; rotate_left; dsimp only [z]; clear z)
    | (extract_lets +onlyGivenNames z; refine (fun (hz : Canon z.2) => ?_) ?_; clear_value z; revert z; intro y hy; rotate_left; dsimp only [z]; clear z)
    | (extract_lets +onlyGivenNames z; clear_value z; revert z; intro y)
    | with_reducible apply burstServes_canon
    | with_reducible apply weaverWriteBack_canon
    | with_reducible apply leaveFrame_canon
    | with_reducible apply modMig_canon
    | with_reducible apply Canon_ite

theorem poisonFrom_canon {x0} {x1} {x2} {s : State} (h : Canon s) : Canon (State.poisonFrom x0 x1 x2 s) :=
  Canon_keep (poisonFrom_frame (Nat.or_self _) Fr.rfl) (by decide) h

theorem fillDone_canon {x0} {s : State} (h : Canon s) : Canon (State.fillDone x0 s) := by
  unfold State.fillDone
  repeat'
    first
    | with_reducible assumption
    | (intro _)
    | (extract_lets +onlyGivenNames z; refine (fun (hz : Canon z.2) => ?_) ?_; clear_value z; revert z; intro y hy; rotate_left; dsimp only [z]; clear z)
    | (extract_lets +onlyGivenNames z; clear_value z; revert z; intro y)
    | with_reducible apply burstServes_canon
    | with_reducible apply finishWorks_canon
    | with_reducible apply poisonFrom_canon
    | with_reducible apply modFrame_canon
    | with_reducible apply copyIn_canon
    | with_reducible apply Canon_ite
    | split

theorem giveFrame_canon {x0} {x1} {s : State} (h : Canon s) : Canon (State.giveFrame x0 x1 s) :=
  Canon_keep (giveFrame_frame (Nat.or_self _) Fr.rfl) (by decide) h

theorem limMoves_canon {x0} {x1} {s : State} (h : Canon s) : Canon (State.limMoves x0 x1 s) :=
  Canon_keep (limMoves_frame (Nat.or_self _) Fr.rfl) (by decide) h

theorem limQuota_canon {x0} {x1} {s : State} (h : Canon s) : Canon (State.limQuota x0 x1 s) :=
  Canon_keep (limQuota_frame (Nat.or_self _) Fr.rfl) (by decide) h

theorem limSpace_canon {x0} {x1} {s : State} (h : Canon s) : Canon (State.limSpace x0 x1 s) :=
  Canon_keep (limSpace_frame (Nat.or_self _) Fr.rfl) (by decide) h

theorem markOver_canon {s : State} (h : Canon s) : Canon (State.markOver s) :=
  Canon_keep (markOver_frame (Nat.or_self _) Fr.rfl) (by decide) h

theorem markShort_canon {x0} {x1} {s : State} (h : Canon s) : Canon (State.markShort x0 x1 s) :=
  Canon_keep (markShort_frame (Nat.or_self _) Fr.rfl) (by decide) h

theorem modRepair_canon {x0} {x1} {x2} {s : State} (h : Canon s) : Canon (State.modRepair x0 x1 x2 s) :=
  Canon_keep (modRepair_frame (Nat.or_self _) Fr.rfl) (by decide) h

theorem nextRepair_canon {s : State} (h : Canon s) : Canon (State.nextRepair s) :=
  Canon_keep (nextRepair_frame (Nat.or_self _) Fr.rfl) (by decide) h

theorem nextScrub_canon {x0} {s : State} (h : Canon s) : Canon (State.nextScrub x0 s) :=
  Canon_keep (nextScrub_frame (Nat.or_self _) Fr.rfl) (by decide) h

theorem patrol_canon {x0} {x1} {s : State} (h : Canon s) : Canon (State.patrol x0 x1 s) := by
  unfold State.patrol
  repeat'
    first
    | with_reducible assumption
    | (intro _)
    | (extract_lets +onlyGivenNames z; refine (fun (hz : Canon z) => ?_) ?_; clear_value z; revert z; intro y hy; rotate_left; dsimp only [z]; clear z)
    | (extract_lets +onlyGivenNames z; refine (fun (hz : Canon z.2) => ?_) ?_; clear_value z; revert z; intro y hy; rotate_left; dsimp only [z]; clear z)
    | (extract_lets +onlyGivenNames z; clear_value z; revert z; intro y)
    | with_reducible apply admitOnce_canon
    | with_reducible apply each_canon
    | with_reducible apply lineRead_canon
    | with_reducible apply nextScrub_canon
    | with_reducible apply modMsd_canon
    | with_reducible apply Canon_ite

theorem placePage_canon {x0} {s : State} (h : Canon s) : Canon (State.placePage x0 s) :=
  Canon_keep (placePage_frame (Nat.or_self _) Fr.rfl) (by decide) h

theorem placeLoop_canon {x0} {x1} {x2} {x3} {s : State} (h : Canon s) : Canon (State.placeLoop x0 x1 x2 x3 s) := by
  induction x1 generalizing x2 x3 s with
  | nil => exact h
  | cons p up ih =>
    unfold State.placeLoop
    refine Canon_ite (fun _ => limMoves_canon h) fun _ => ?_
    refine Canon_ite (fun _ => ?_) fun _ => ih (placePage_canon h)
    split
    · exact limQuota_canon h
    · refine Canon_ite (fun _ => limQuota_canon h) fun _ => ?_
      exact Canon_ite (fun _ => limSpace_canon h) fun _ => ih (placePage_canon (startDemote_canon h))

theorem place_canon {x0} {s : State} (h : Canon s) : Canon (State.place x0 s) :=
  Canon_keep (place_frame (Nat.or_self _) Fr.rfl) (by decide) h

theorem placeAll_canon {s : State} (h : Canon s) : Canon (State.placeAll s) :=
  Canon_keep (placeAll_frame (Nat.or_self _) Fr.rfl) (by decide) h

theorem pressTable_canon {s : State} (h : Canon s) : Canon (State.pressTable s) :=
  Canon_keep (pressTable_frame (Nat.or_self _) Fr.rfl) (by decide) h

theorem release_canon {x0} {x1} {x2} {x3} {s : State} (hf : ∀ x t, Canon t → Canon (x3 x t)) (h : Canon s) : Canon (State.release x0 x1 x2 x3 s) := by
  unfold State.release
  repeat'
    first
    | with_reducible assumption
    | (intro _)
    | with_reducible apply Canon_ite
    | with_reducible apply foldl_canon
    | with_reducible apply_assumption

theorem pressCtx_canon {x0} {x1} {s : State} (h : Canon s) : Canon (State.pressCtx x0 x1 s) :=
  Canon_keep (pressCtx_frame (Nat.or_self _) Fr.rfl) (by decide) h

theorem pressCommons_canon {x0} {s : State} (h : Canon s) : Canon (State.pressCommons x0 s) :=
  Canon_keep (pressCommons_frame (Nat.or_self _) Fr.rfl) (by decide) h

theorem wantPage_canon {x0} {s : State} (h : Canon s) : Canon (State.wantPage x0 s) :=
  Canon_keep (wantPage_frame (Nat.or_self _) Fr.rfl) (by decide) h

theorem trySave_canon {x0} {x1} {s : State} (h : Canon s) : Canon (State.trySave x0 x1 s) :=
  Canon_keep (trySave_frame (Nat.or_self _) Fr.rfl) (by decide) h

theorem serveWait_canon {x0} {s : State} (h : Canon s) : Canon (State.serveWait x0 s) :=
  Canon_keep (serveWait_frame (Nat.or_self _) Fr.rfl) (by decide) h

theorem serveWaits_canon {s : State} (h : Canon s) : Canon (State.serveWaits s) :=
  Canon_keep (serveWaits_frame (Nat.or_self _) Fr.rfl) (by decide) h

theorem pressAccounts_canon {x0} {s : State} (h : Canon s) : Canon (State.pressAccounts x0 s) :=
  Canon_keep (pressAccounts_frame (Nat.or_self _) Fr.rfl) (by decide) h

theorem promotionDone_canon {x0} {s : State} (h : Canon s) : Canon (State.promotionDone x0 s) := by
  unfold State.promotionDone
  repeat'
    first
    | with_reducible assumption
    | (intro _)
    | (extract_lets +onlyGivenNames z; refine (fun (hz : Canon z) => ?_) ?_; clear_value z; revert z; intro y hy; rotate_left; dsimp only [z]; clear z)
    | (extract_lets +onlyGivenNames z; refine (fun (hz : Canon z.2) => ?_) ?_; clear_value z; revert z; intro y hy; rotate_left; dsimp only [z]; clear z)
    | (extract_lets +onlyGivenNames z; clear_value z; revert z; intro y)
    | with_reducible apply burstServes_canon
    | with_reducible apply modFrame_canon
    | with_reducible apply copyIn_canon
    | with_reducible apply each_canon
    | with_reducible apply modPte_canon
    | with_reducible apply modMig_canon
    | with_reducible apply poisonFrom_canon
    | with_reducible apply refreshPoison_canon
    | with_reducible apply Canon_ite

theorem pumpAll_canon {s : State} (h : Canon s) : Canon (State.pumpAll s) := by
  unfold State.pumpAll
  repeat'
    first
    | with_reducible assumption
    | (intro _)
    | (extract_lets +onlyGivenNames z; refine (fun (hz : Canon z) => ?_) ?_; clear_value z; revert z; intro y hy; rotate_left; dsimp only [z]; clear z)
    | with_reducible apply pumpMoves_canon
    | with_reducible apply each_canon
    | with_reducible apply cleanStep_canon

theorem repairResult_canon {x0} {x1} {x2} {s : State} (h : Canon s) : Canon (State.repairResult x0 x1 x2 s) :=
  Canon_keep (repairResult_frame (Nat.or_self _) Fr.rfl) (by decide) h

theorem repairDone_canon {x0} {x1} {x2} {s : State} (h : Canon s) : Canon (State.repairDone x0 x1 x2 s) := by
  unfold State.repairDone
  repeat'
    first
    | with_reducible assumption
    | (intro _)
    | (extract_lets +onlyGivenNames z; refine (fun (hz : MemOk z) => ?_) ?_; clear_value z; revert z; intro y hy; rotate_left; dsimp only [z]; clear z)
    | (extract_lets +onlyGivenNames z; clear_value z; revert z; intro y)
    | simp -zeta only [Canon_mk]
    | with_reducible apply modRepair_canon
    | with_reducible apply clearLines_canon
    | with_reducible apply slowWrite_canon
    | with_reducible apply modMig_canon
    | with_reducible apply nextRepair_canon
    | with_reducible apply repairResult_canon
    | with_reducible apply charge_canon
    | with_reducible apply Canon_ite
    | simp only [MemOk_mk]
    | with_reducible apply Canon.mem
    | with_reducible apply And.intro
    | with_reducible apply BytesOk_wr
    | with_reducible apply MemOk.hbm
    | with_reducible apply MemOk.slow
    | split

theorem repairTimeout_canon {x0} {x1} {s : State} (h : Canon s) : Canon (State.repairTimeout x0 x1 s) :=
  Canon_keep (repairTimeout_frame (Nat.or_self _) Fr.rfl) (by decide) h

theorem slowPoison_canon {x0} {x1} {s : State} (h : Canon s) : Canon (State.slowPoison x0 x1 s) :=
  Canon_keep (slowPoison_frame (Nat.or_self _) Fr.rfl) (by decide) h

theorem startCleaning_canon {s : State} (h : Canon s) : Canon (State.startCleaning s) :=
  Canon_keep (startCleaning_frame (Nat.or_self _) Fr.rfl) (by decide) h

theorem takeSave_canon {x0} {x1} {s : State} (h : Canon s) : Canon (State.takeSave x0 x1 s) :=
  Canon_keep (takeSave_frame (Nat.or_self _) Fr.rfl) (by decide) h

theorem zeroDone_canon {x0} {s : State} (h : Canon s) : Canon (State.zeroDone x0 s) := by
  unfold State.zeroDone
  repeat'
    first
    | with_reducible assumption
    | (intro _)
    | with_reducible apply serveWaits_canon
    | with_reducible apply genFrameFreed_canon
    | with_reducible apply weaverFrameFreed_canon
    | with_reducible apply freeFrame_canon
    | with_reducible apply Canon_ite

theorem refuseAper_canon {x0} {s : State} (h : Canon s) : Canon (State.refuseAper x0 s) :=
  Canon_keep (refuseAper_frame (Nat.or_self _) Fr.rfl) (by decide) h

theorem aperture_canon {x0} {s : State} (h : Canon s) : Canon (State.aperture x0 s) := by
  unfold State.aperture
  repeat'
    first
    | with_reducible assumption
    | (intro _)
    | (extract_lets +onlyGivenNames z; refine (fun (hz : Canon z.2) => ?_) ?_; clear_value z; revert z; intro y hy; rotate_left; dsimp only [z]; clear z)
    | (extract_lets +onlyGivenNames z; clear_value z; revert z; intro y)
    | with_reducible apply refuseAper_canon
    | with_reducible apply writeDva_canon
    | with_reducible apply charge_canon
    | with_reducible apply readDva_canon
    | with_reducible apply emit_canon
    | with_reducible apply fresh_canon
    | with_reducible apply Canon_ite
    | split

theorem qpEvent_canon {x0} {x1} {x2} {s : State} (h : Canon s) : Canon (State.qpEvent x0 x1 x2 s) :=
  Canon_keep (qpEvent_frame (Nat.or_self _) Fr.rfl) (by decide) h

theorem qpError_canon {x0} {x1} {s : State} (h : Canon s) : Canon (State.qpError x0 x1 s) :=
  Canon_keep (qpError_frame (Nat.or_self _) Fr.rfl) (by decide) h

theorem doneDesc_canon {x0} {x1} {x2} {s : State} (h : Canon s) : Canon (State.doneDesc x0 x1 x2 s) :=
  Canon_keep (doneDesc_frame (Nat.or_self _) Fr.rfl) (by decide) h

theorem copyEnds_canon {x0} {x1} {x2} {s : State} (h : Canon s) : Canon (State.copyEnds x0 x1 x2 s) :=
  Canon_keep (copyEnds_frame (Nat.or_self _) Fr.rfl) (by decide) h

theorem completionTimeout_canon {x0} {x1} {x2} {s : State} (h : Canon s) : Canon (State.completionTimeout x0 x1 x2 s) :=
  Canon_keep (completionTimeout_frame (Nat.or_self _) Fr.rfl) (by decide) h

theorem staleBurst_canon {x0} {x1} {s : State} (h : Canon s) : Canon (State.staleBurst x0 x1 s) :=
  Canon_keep (staleBurst_frame (Nat.or_self _) Fr.rfl) (by decide) h

theorem moveBurst_canon {x0} {x1} {x2} {x3} {x4} {x5} {s : State} (h : Canon s) : Canon (State.moveBurst x0 x1 x2 x3 x4 x5 s).2 := by
  unfold State.moveBurst
  repeat'
    first
    | with_reducible assumption
    | (intro _)
    | (extract_lets +onlyGivenNames z; refine (fun (hz : ∀ p, Canon p.2 → Canon (z p).2) => ?_) ?_; clear_value z; revert z; intro y hy; rotate_left; dsimp only [z]; clear z)
    | simp -zeta only [Canon_mk]
    | with_reducible apply writeDva_canon
    | with_reducible apply emit_canon
    | with_reducible apply readDva_canon
    | with_reducible apply Canon_ite2
    | split
    | with_reducible apply_assumption

theorem translateBurst_canon {x0} {x1} {x2} {x3} {s : State} (h : Canon s) : Canon (State.translateBurst x0 x1 x2 x3 s) :=
  Canon_keep (translateBurst_frame (Nat.or_self _) Fr.rfl) (by decide) h

theorem copyBurst_canon {x0} {x1} {x2} {s : State} (h : Canon s) : Canon (State.copyBurst x0 x1 x2 s) := by
  unfold State.copyBurst
  repeat'
    first
    | with_reducible assumption
    | (intro _)
    | (extract_lets +onlyGivenNames z; refine (fun (hz : Canon z) => ?_) ?_; clear_value z; revert z; intro y hy; rotate_left; dsimp only [z]; clear z)
    | (extract_lets +onlyGivenNames z; clear_value z; revert z; intro y)
    | with_reducible apply copyEnds_canon
    | with_reducible apply staleBurst_canon
    | with_reducible apply modDesc_canon
    | with_reducible apply moveBurst_canon
    | with_reducible apply ask_canon
    | with_reducible apply translateBurst_canon
    | with_reducible apply Canon_ite
    | simp only [MemOk_mk]
    | split

theorem fetch_canon {x0} {x1} {x2} {x3} {s : State} (hf : ∀ x t, Canon t → Canon (x3 x t)) (h : Canon s) : Canon (State.fetch x0 x1 x2 x3 s) := by
  unfold State.fetch
  repeat'
    first
    | with_reducible assumption
    | (intro _)
    | (extract_lets +onlyGivenNames z; refine (fun (hz : Canon z) => ?_) ?_; clear_value z; revert z; intro y hy; rotate_left; dsimp only [z]; clear z)
    | (extract_lets +onlyGivenNames z; clear_value z; revert z; intro y)
    | with_reducible apply charge_canon
    | with_reducible apply modQp_canon
    | with_reducible apply endTurn_canon
    | with_reducible apply finishDesc_canon
    | with_reducible apply Canon_ite
    | split
    | with_reducible apply_assumption

theorem copyDesc_canon {x0} {x1} {s : State} (h : Canon s) : Canon (State.copyDesc x0 x1 s) :=
  Canon_keep (copyDesc_frame (Nat.or_self _) Fr.rfl) (by decide) h

theorem cqStall_canon {x0} {s : State} (h : Canon s) : Canon (State.cqStall x0 s) :=
  Canon_keep (cqStall_frame (Nat.or_self _) Fr.rfl) (by decide) h

theorem ringSq_canon {x0} {x1} {s : State} (h : Canon s) : Canon (State.ringSq x0 x1 s) :=
  Canon_keep (ringSq_frame (Nat.or_self _) Fr.rfl) (by decide) h

theorem ringCq_canon {x0} {x1} {x2} {s : State} (h : Canon s) : Canon (State.ringCq x0 x1 x2 s) :=
  Canon_keep (ringCq_frame (Nat.or_self _) Fr.rfl) (by decide) h

theorem doorbell_canon {x0} {x1} {x2} {x3} {x4} {s : State} (h : Canon s) : Canon (State.doorbell x0 x1 x2 x3 x4 s) :=
  Canon_keep (doorbell_frame (Nat.or_self _) Fr.rfl) (by decide) h

theorem fenceRead_canon {x0} {x1} {x2} {s : State} (h : Canon s) : Canon (State.fenceRead x0 x1 x2 s) :=
  Canon_keep (fenceRead_frame (Nat.or_self _) Fr.rfl) (by decide) h

theorem nopDesc_canon {x0} {x1} {s : State} (h : Canon s) : Canon (State.nopDesc x0 x1 s) :=
  Canon_keep (nopDesc_frame (Nat.or_self _) Fr.rfl) (by decide) h

theorem acceptSession_canon {x0} {s : State} (h : Canon s) : Canon (State.acceptSession x0 s) :=
  Canon_keep (acceptSession_frame (Nat.or_self _) Fr.rfl) (by decide) h

theorem acceptSeq_canon {x0} {s : State} (h : Canon s) : Canon (State.acceptSeq x0 s) :=
  Canon_keep (acceptSeq_frame (Nat.or_self _) Fr.rfl) (by decide) h

theorem serveDesc_canon {x0} {x1} {s : State} (h : Canon s) : Canon (State.serveDesc x0 x1 s) :=
  Canon_keep (serveDesc_frame (Nat.or_self _) Fr.rfl) (by decide) h

theorem areaWrite_canon {x0} {x1} {x2} {s : State} (h : Canon s) : Canon (State.areaWrite x0 x1 x2 s) := by
  unfold State.areaWrite
  repeat'
    first
    | with_reducible assumption
    | (intro _)
    | simp -zeta only [Canon_mk]
    | with_reducible apply each_canon
    | with_reducible apply clearLines_canon
    | simp only [MemOk_mk]
    | with_reducible apply Canon.mem
    | with_reducible apply And.intro
    | with_reducible apply BytesOk_wrRange
    | with_reducible apply MemOk.hbm
    | with_reducible apply MemOk.slow
    | split

theorem changeCell_canon {x0} {x1} {s : State} (h : Canon s) : Canon (State.changeCell x0 x1 s) :=
  Canon_keep (changeCell_frame (Nat.or_self _) Fr.rfl) (by decide) h

theorem bindCell_canon {x0} {x1} {s : State} (h : Canon s) : Canon (State.bindCell x0 x1 s) :=
  Canon_keep (bindCell_frame (Nat.or_self _) Fr.rfl) (by decide) h

theorem flushStream_canon {x0} {x1} {s : State} (h : Canon s) : Canon (State.flushStream x0 x1 s) := by
  unfold State.flushStream
  repeat'
    first
    | with_reducible assumption
    | (intro _)
    | (extract_lets +onlyGivenNames z; refine (fun (hz : Canon z) => ?_) ?_; clear_value z; revert z; intro y hy; rotate_left; dsimp only [z]; clear z)
    | with_reducible apply each_canon
    | with_reducible apply loadArrives_canon
    | with_reducible apply storeAccepted_canon
    | with_reducible apply putDelivered_canon

theorem flushCourse_canon {x0} {s : State} (h : Canon s) : Canon (State.flushCourse x0 s) := by
  unfold State.flushCourse
  repeat'
    first
    | with_reducible assumption
    | (intro _)
    | with_reducible apply each_canon
    | with_reducible apply flushStream_canon
    | with_reducible apply Canon_ite

theorem commitCourse_canon {x0} {s : State} (h : Canon s) : Canon (State.commitCourse x0 s) := by
  unfold State.commitCourse
  repeat'
    first
    | with_reducible assumption
    | (extract_lets +onlyGivenNames z; refine (fun (hz : Canon z) => ?_) ?_; clear_value z; revert z; intro y hy; rotate_left; dsimp only [z]; clear z)
    | with_reducible apply flushCourse_canon
    | with_reducible apply modCourse_canon
    | simp only [MemOk_mk]
    | split

theorem overrun_canon {x0} {s : State} (h : Canon s) : Canon (State.overrun x0 s) :=
  Canon_keep (overrun_frame (Nat.or_self _) Fr.rfl) (by decide) h

theorem commitAll_canon {s : State} (h : Canon s) : Canon (State.commitAll s) := by
  unfold State.commitAll
  repeat'
    first
    | with_reducible assumption
    | (intro _)
    | with_reducible apply each_canon
    | with_reducible apply commitCourse_canon
    | with_reducible apply modCourse_canon
    | with_reducible apply overrun_canon
    | with_reducible apply Canon_ite
    | with_reducible apply elim_canon

theorem rowDone_canon {x0} {x1} {s : State} (h : Canon s) : Canon (State.rowDone x0 x1 s) :=
  Canon_keep (rowDone_frame (Nat.or_self _) Fr.rfl) (by decide) h

theorem courseComplete_canon {x0} {s : State} (h : Canon s) : Canon (State.courseComplete x0 s) := by
  unfold State.courseComplete
  repeat'
    first
    | with_reducible assumption
    | (intro _)
    | with_reducible apply flushCourse_canon
    | with_reducible apply sumCourse_canon
    | with_reducible apply releaseCourse_canon
    | with_reducible apply each_canon
    | with_reducible apply rowDone_canon
    | with_reducible apply probeFails_canon
    | with_reducible apply probeDone_canon
    | with_reducible apply modJob_canon
    | with_reducible apply Canon_ite
    | simp only [MemOk_mk]
    | split

theorem completeAll_canon {s : State} (h : Canon s) : Canon (State.completeAll s) := by
  unfold State.completeAll
  repeat'
    first
    | with_reducible assumption
    | (intro _)
    | with_reducible apply each_canon
    | with_reducible apply courseComplete_canon

theorem completeNow_canon {x0} {s : State} (h : Canon s) : Canon (State.completeNow x0 s) := by
  unfold State.completeNow
  repeat'
    first
    | with_reducible assumption
    | (intro _)
    | with_reducible apply courseComplete_canon
    | with_reducible apply modCourse_canon
    | with_reducible apply commitCourse_canon
    | with_reducible apply Canon_ite
    | simp only [MemOk_mk]
    | split

theorem dropPlanless_canon {s : State} (h : Canon s) : Canon (State.dropPlanless s) :=
  Canon_keep (dropPlanless_frame (Nat.or_self _) Fr.rfl) (by decide) h

theorem holdCovered_canon {x0} {s : State} (h : Canon s) : Canon (State.holdCovered x0 s) :=
  Canon_keep (holdCovered_frame (Nat.or_self _) Fr.rfl) (by decide) h

theorem holdExpires_canon {x0} {s : State} (h : Canon s) : Canon (State.holdExpires x0 s) :=
  Canon_keep (holdExpires_frame (Nat.or_self _) Fr.rfl) (by decide) h

theorem lateChanges_canon {s : State} (h : Canon s) : Canon (State.lateChanges s) :=
  Canon_keep (lateChanges_frame (Nat.or_self _) Fr.rfl) (by decide) h

theorem markParked_canon {s : State} (h : Canon s) : Canon (State.markParked s) :=
  Canon_keep (markParked_frame (Nat.or_self _) Fr.rfl) (by decide) h

theorem parkSeq_canon {x0} {s : State} (h : Canon s) : Canon (State.parkSeq x0 s) :=
  Canon_keep (parkSeq_frame (Nat.or_self _) Fr.rfl) (by decide) h

theorem parkTimeout_canon {x0} {x1} {s : State} (h : Canon s) : Canon (State.parkTimeout x0 x1 s) :=
  Canon_keep (parkTimeout_frame (Nat.or_self _) Fr.rfl) (by decide) h

theorem prepare_canon {x0} {s : State} (h : Canon s) : Canon (State.prepare x0 s) :=
  Canon_keep (prepare_frame (Nat.or_self _) Fr.rfl) (by decide) h

theorem refuseCourse_canon {x0} {x1} {s : State} (h : Canon s) : Canon (State.refuseCourse x0 x1 s) :=
  Canon_keep (refuseCourse_frame (Nat.or_self _) Fr.rfl) (by decide) h

theorem rewindCell_canon {x0} {x1} {s : State} (h : Canon s) : Canon (State.rewindCell x0 x1 s) :=
  Canon_keep (rewindCell_frame (Nat.or_self _) Fr.rfl) (by decide) h

theorem undoWrites_canon {x0} {s : State} (h : Canon s) : Canon (State.undoWrites x0 s) := by
  unfold State.undoWrites
  repeat'
    first
    | with_reducible assumption
    | (intro _)
    | (extract_lets +onlyGivenNames z; clear_value z; revert z; intro y)
    | with_reducible apply each_canon
    | with_reducible apply frameWrite_canon
    | with_reducible apply slowWrite_canon
    | with_reducible apply Canon_ite
    | split

theorem replay_canon {x0} {s : State} (h : Canon s) : Canon (State.replay x0 s) := by
  unfold State.replay
  repeat'
    first
    | with_reducible assumption
    | (intro _)
    | simp -zeta only [Canon_mk]
    | with_reducible apply endCourse_canon
    | with_reducible apply each_canon
    | with_reducible apply rewindCell_canon
    | with_reducible apply undoWrites_canon
    | with_reducible apply modCourse_canon
    | with_reducible apply Canon_ite
    | simp only [MemOk_mk]
    | with_reducible apply Canon.mem
    | split

theorem replayReady_canon {s : State} (h : Canon s) : Canon (State.replayReady s) := by
  unfold State.replayReady
  repeat'
    first
    | with_reducible assumption
    | (intro _)
    | with_reducible apply each_canon
    | with_reducible apply replay_canon
    | with_reducible apply Canon_ite

theorem saveImage_canon {x0} {x1} {x2} {s : State} (h : Canon s) : Canon (State.saveImage x0 x1 x2 s) := by
  unfold State.saveImage
  repeat'
    first
    | with_reducible assumption
    | (extract_lets +onlyGivenNames z; refine (fun (hz : Canon z) => ?_) ?_; clear_value z; revert z; intro y hy; rotate_left; dsimp only [z]; clear z)
    | (extract_lets +onlyGivenNames z; clear_value z; revert z; intro y)
    | simp -zeta only [Canon_mk]
    | with_reducible apply areaWrite_canon
    | with_reducible apply Canon.mem

theorem sendReports_canon {s : State} (h : Canon s) : Canon (State.sendReports s) :=
  Canon_keep (sendReports_frame (Nat.or_self _) Fr.rfl) (by decide) h

theorem settlePlaces_canon {s : State} (h : Canon s) : Canon (State.settlePlaces s) :=
  Canon_keep (settlePlaces_frame (Nat.or_self _) Fr.rfl) (by decide) h

theorem startCourse_canon {x0} {s : State} (h : Canon s) : Canon (State.startCourse x0 s) :=
  Canon_keep (startCourse_frame (Nat.or_self _) Fr.rfl) (by decide) h

theorem tryCourse_canon {x0} {s : State} (h : Canon s) : Canon (State.tryCourse x0 s) :=
  Canon_keep (tryCourse_frame (Nat.or_self _) Fr.rfl) (by decide) h

theorem unholdCourses_canon {s : State} (h : Canon s) : Canon (State.unholdCourses s) :=
  Canon_keep (unholdCourses_frame (Nat.or_self _) Fr.rfl) (by decide) h

theorem modBucket_canon {x0} {x1} {x2} {s : State} (h : Canon s) : Canon (State.modBucket x0 x1 x2 s) :=
  Canon_keep (modBucket_frame (Nat.or_self _) Fr.rfl) (by decide) h

theorem sealBucket_canon {x0} {x1} {s : State} (h : Canon s) : Canon (State.sealBucket x0 x1 s) :=
  Canon_keep (sealBucket_frame (Nat.or_self _) Fr.rfl) (by decide) h

theorem attnGroup_canon {x0} {x1} {x2} {x3} {s : State} (h : Canon s) : Canon (State.attnGroup x0 x1 x2 x3 s).2 :=
  Canon_keep (attnGroup_frame (Nat.or_self _) Fr.rfl) (by decide) h

theorem reportRm_canon {x0} {s : State} (h : Canon s) : Canon (State.reportRm x0 s) :=
  Canon_keep (reportRm_frame (Nat.or_self _) Fr.rfl) (by decide) h

theorem sealAfter_canon {x0} {s : State} (h : Canon s) : Canon (State.sealAfter x0 s) :=
  Canon_keep (sealAfter_frame (Nat.or_self _) Fr.rfl) (by decide) h

theorem uNext_canon {x0} {s : State} (h : Canon s) : Canon (State.uNext x0 s) :=
  Canon_keep (uNext_frame (Nat.or_self _) Fr.rfl) (by decide) h

theorem uViolation_canon {x0} {s : State} (h : Canon s) : Canon (State.uViolation x0 s) :=
  Canon_keep (uViolation_frame (Nat.or_self _) Fr.rfl) (by decide) h

theorem uGate_canon {x0} {s : State} (h : Canon s) : Canon (State.uGate x0 s) :=
  Canon_keep (uGate_frame (Nat.or_self _) Fr.rfl) (by decide) h

theorem skipUops_canon {x0} {x1} {x2} {s : State} (h : Canon s) : Canon (State.skipUops x0 x1 x2 s) := by
  induction x0 generalizing s with
  | zero => exact h
  | succ k ih =>
    rw [State.skipUops]
    split
    · exact h
    · exact Canon_ite (fun _ => h) fun _ => ih (uViolation_canon (uGate_canon h))

theorem uAsk_canon {x0} {x1} {s : State} (h : Canon s) : Canon (State.uAsk x0 x1 s) :=
  Canon_keep (uAsk_frame (Nat.or_self _) Fr.rfl) (by decide) h

theorem uDone_canon {x0} {s : State} (h : Canon s) : Canon (State.uDone x0 s) :=
  Canon_keep (uDone_frame (Nat.or_self _) Fr.rfl) (by decide) h

theorem uWaits_canon {s s2 : State} (h2 : Canon s2) : Canon (State.uWaits s s2) := ⟨⟨h2.mem.hbm, h2.mem.slow⟩⟩

theorem uIssue_canon {x0} {x1} {x2} {x3} {x4} {s : State} (hf : ∀ c t, Canon t → CanonU (x4 c t)) (h : Canon s) : Canon (State.uIssue x0 x1 x2 x3 x4 s) := by
  unfold State.uIssue
  repeat'
    first
    | with_reducible assumption
    | (intro _)
    | (extract_lets +onlyGivenNames z; refine (fun (hz : Canon z) => ?_) ?_; clear_value z; revert z; intro y hy; rotate_left; dsimp only [z]; clear z)
    | with_reducible apply skipUops_canon
    | with_reducible apply uViolation_canon
    | with_reducible apply uGate_canon
    | with_reducible apply uAsk_canon
    | with_reducible apply uNext_canon
    | with_reducible apply countStale_canon
    | with_reducible apply uWaits_canon
    | with_reducible apply courseFails_canon
    | with_reducible apply uDone_canon
    | with_reducible apply reportRm_canon
    | with_reducible apply Canon_ite
    | with_reducible apply CanonU_ite
    | with_reducible exact CanonU_none
    | with_reducible apply UOk.run
    | simp only [MemOk_mk]
    | split
    | with_reducible refine CanonU_out ?_ (by assumption)
    | with_reducible apply_assumption

theorem uReads_canon {x0} {x1} {s : State} (h : Canon s) : Canon (State.uReads x0 x1 s).2 :=
  Canon_keep (uReads_frame (Nat.or_self _) Fr.rfl) (by decide) h

theorem uWrites_canon {x0} {x1} {s : State} (h : Canon s) : Canon (State.uWrites x0 x1 s).2 := by
  unfold State.uWrites
  repeat'
    first
    | with_reducible assumption
    | (intro _)
    | with_reducible apply courseWrite_canon
    | with_reducible apply foldl_canon2
    | split

theorem ulistTimeout_canon {x0} {x1} {s : State} (h : Canon s) : Canon (State.ulistTimeout x0 x1 s) :=
  Canon_keep (ulistTimeout_frame (Nat.or_self _) Fr.rfl) (by decide) h

theorem writeWork_canon {x0} {x1} {x2} {s : State} (h : Canon s) : Canon (State.writeWork x0 x1 x2 s).2 := by
  unfold State.writeWork
  repeat'
    first
    | with_reducible assumption
    | (intro _)
    | (extract_lets +onlyGivenNames z; clear_value z; revert z; intro y)
    | simp -zeta only [Canon_mk]
    | with_reducible apply touch_canon
    | with_reducible apply frameWrite_canon
    | with_reducible apply noKey_canon
    | with_reducible apply courseWrite_canon
    | with_reducible apply Canon_ite2
    | with_reducible apply foldl_canon2
    | split

theorem updateRun_canon {x0} {x1} {x2} {s : State} (h : Canon s) : Canon (State.updateRun x0 x1 x2 s).2 := by
  unfold State.updateRun
  repeat'
    first
    | with_reducible assumption
    | (extract_lets +onlyGivenNames z; refine (fun (hz : Canon z.2) => ?_) ?_; clear_value z; revert z; intro y hy; rotate_left; dsimp only [z]; clear z)
    | (extract_lets +onlyGivenNames z; clear_value z; revert z; intro y)
    | simp -zeta only [Canon_mk]
    | with_reducible apply uReads_canon
    | with_reducible apply uWrites_canon
    | with_reducible apply writeWork_canon
    | simp only [MemOk_mk]
    | split

theorem addLeaf_canon {x0} {s : State} (h : Canon s) : CanonO (State.addLeaf x0 s) :=
  CanonO_keep (addLeaf_frame (Nat.or_self _) Fr.rfl) (by decide) h

theorem addWork_canon {x0} {x1} {s : State} (h : Canon s) : Canon (State.addWork x0 x1 s) :=
  Canon_keep (addWork_frame (Nat.or_self _) Fr.rfl) (by decide) h

theorem evictPage_canon {x0} {x1} {s : State} (h : Canon s) : Canon (State.evictPage x0 x1 s) :=
  Canon_keep (evictPage_frame (Nat.or_self _) Fr.rfl) (by decide) h

theorem mapPage_canon {x0} {x1} {s : State} (h : Canon s) : CanonO (State.mapPage x0 x1 s) :=
  CanonO_keep (mapPage_frame (Nat.or_self _) Fr.rfl) (by decide) h

theorem sharePage_canon {x0} {x1} {s : State} (h : Canon s) : Canon (State.sharePage x0 x1 s) :=
  Canon_keep (sharePage_frame (Nat.or_self _) Fr.rfl) (by decide) h

theorem chain_canon {α : Type} {xs : List α} {f : α → State → Option State} {s : State} (hf : ∀ x t, Canon t → CanonO (f x t)) (h : Canon s) : CanonO (chain xs f s) := by
  have key : ∀ (ys : List α) (o : Option State), CanonO o → CanonO (ys.foldl (fun o x => o.bind (f x)) o) := by
    intro ys
    induction ys with
    | nil => exact fun o ho => ho
    | cons y r ih => exact fun o ho => ih _ (CanonO_bind ho fun t ht => hf y t ht)
  exact key xs _ (CanonO_some h)

theorem memEvict_canon {x0} {s : State} (h : Canon s) : Canon (memEvict x0 s).2 :=
  Canon_keep (memEvict_frame (Nat.or_self _) Fr.rfl) (by decide) h

theorem memFlush_canon {x0} {s : State} (h : Canon s) : Canon (memFlush x0 s).2 :=
  Canon_keep (memFlush_frame (Nat.or_self _) Fr.rfl) (by decide) h

theorem memMap_canon {x0} {s : State} (h : Canon s) : CanonP (memMap x0 s) := by
  unfold memMap
  repeat'
    first
    | with_reducible assumption
    | (intro _)
    | (extract_lets +onlyGivenNames z; clear_value z; revert z; intro y)
    | with_reducible apply chain_canon
    | with_reducible apply addLeaf_canon
    | with_reducible apply each_canon
    | with_reducible apply sharePage_canon
    | with_reducible apply mapPage_canon
    | with_reducible apply CanonO_ite
    | with_reducible apply CanonO_some
    | with_reducible apply CanonP_some
    | with_reducible apply CanonO_bind
    | with_reducible apply CanonP_mapS
    | split

theorem memPin_canon {x0} {s : State} (h : Canon s) : Canon (memPin x0 s).2 :=
  Canon_keep (memPin_frame (Nat.or_self _) Fr.rfl) (by decide) h

theorem memQuery_canon {x0} {s : State} (h : Canon s) : Canon (memQuery x0 s).2 :=
  Canon_keep (memQuery_frame (Nat.or_self _) Fr.rfl) (by decide) h

theorem memUnmap_canon {x0} {s : State} (h : Canon s) : Canon (memUnmap x0 s).2 :=
  Canon_keep (memUnmap_frame (Nat.or_self _) Fr.rfl) (by decide) h

theorem poisonQuery_canon {x0} {s : State} (h : Canon s) : Canon (poisonQuery x0 s).2 :=
  Canon_keep (poisonQuery_frame (Nat.or_self _) Fr.rfl) (by decide) h

theorem policySet_canon {x0} {s : State} (h : Canon s) : Canon (policySet x0 s).2 :=
  Canon_keep (policySet_frame (Nat.or_self _) Fr.rfl) (by decide) h

theorem quotaSet_canon {x0} {s : State} (h : Canon s) : Canon (quotaSet x0 s).2 :=
  Canon_keep (quotaSet_frame (Nat.or_self _) Fr.rfl) (by decide) h

theorem regionRegister_canon {x0} {s : State} (h : Canon s) : Canon (regionRegister x0 s).2 :=
  Canon_keep (regionRegister_frame (Nat.or_self _) Fr.rfl) (by decide) h

theorem regionRemove_canon {x0} {s : State} (h : Canon s) : Canon (regionRemove x0 s).2 :=
  Canon_keep (regionRemove_frame (Nat.or_self _) Fr.rfl) (by decide) h

theorem slowConfig_canon {x0} {s : State} (h : Canon s) : Canon (slowConfig x0 s).2 :=
  Canon_keep (slowConfig_frame (Nat.or_self _) Fr.rfl) (by decide) h

theorem dropJobMoves_canon {x0} {s : State} (h : Canon s) : Canon (State.dropJobMoves x0 s) :=
  Canon_keep (dropJobMoves_frame (Nat.or_self _) Fr.rfl) (by decide) h

theorem jobOut_canon {x0} {x1} {s : State} (h : Canon s) : Canon (State.jobOut x0 x1 s) :=
  Canon_keep (jobOut_frame (Nat.or_self _) Fr.rfl) (by decide) h

theorem putDva_canon {x0} {x1} {x2} {s : State} (h : Canon s) : Canon (State.putDva x0 x1 x2 s) := by
  unfold State.putDva
  repeat'
    first
    | with_reducible assumption
    | with_reducible apply writeDva_canon

theorem writeLedger_canon {x0} {x1} {s : State} (h : Canon s) : Canon (State.writeLedger x0 x1 s) := by
  unfold State.writeLedger
  repeat'
    first
    | with_reducible assumption
    | (intro _)
    | with_reducible apply putDva_canon
    | with_reducible apply Canon_ite

theorem sendLedger_canon {x0} {x1} {s : State} (h : Canon s) : Canon (State.sendLedger x0 x1 s) := by
  unfold State.sendLedger
  repeat'
    first
    | with_reducible assumption
    | (extract_lets +onlyGivenNames z; clear_value z; revert z; intro y)
    | with_reducible apply jobOut_canon
    | with_reducible apply charge_canon
    | with_reducible apply writeLedger_canon

theorem stateWrite_canon {x0} {x1} {x2} {s : State} (h : Canon s) : Canon (State.stateWrite x0 x1 x2 s) := by
  unfold State.stateWrite
  repeat'
    first
    | with_reducible assumption
    | (extract_lets +onlyGivenNames z; clear_value z; revert z; intro y)
    | with_reducible apply slowWrite_canon
    | with_reducible apply slowSpoil_canon
    | split

theorem saveBucket_canon {x0} {x1} {s : State} (h : Canon s) : Canon (State.saveBucket x0 x1 s) :=
  stateWrite_canon (charge_canon (readAll_canon h))

theorem saveState_canon {x0} {s : State} (h : Canon s) : Canon (State.saveState x0 s) := by
  unfold State.saveState
  repeat'
    first
    | with_reducible assumption
    | (intro _)
    | with_reducible apply each_canon
    | with_reducible apply saveBucket_canon

theorem unpinState_canon {x0} {s : State} (h : Canon s) : Canon (State.unpinState x0 s) :=
  Canon_keep (unpinState_frame (Nat.or_self _) Fr.rfl) (by decide) h

theorem freeState_canon {x0} {s : State} (h : Canon s) : Canon (State.freeState x0 s) :=
  Canon_keep (freeState_frame (Nat.or_self _) Fr.rfl) (by decide) h

theorem closeJob_canon {x0} {x1} {x2} {s : State} (h : Canon s) : Canon (State.closeJob x0 x1 x2 s) := by
  unfold State.closeJob
  repeat'
    first
    | with_reducible assumption
    | (intro _)
    | (extract_lets +onlyGivenNames z; refine (fun (hz : Canon z) => ?_) ?_; clear_value z; revert z; intro y hy; rotate_left; dsimp only [z]; clear z)
    | (extract_lets +onlyGivenNames z; clear_value z; revert z; intro y)
    | with_reducible apply each_canon
    | with_reducible apply endCourse_canon
    | with_reducible apply dropJobMoves_canon
    | with_reducible apply sendLedger_canon
    | with_reducible apply saveState_canon
    | with_reducible apply unpinState_canon
    | with_reducible apply freeState_canon
    | with_reducible apply modJob_canon
    | with_reducible apply modWeaver_canon
    | with_reducible apply record_canon
    | with_reducible apply summarize_canon
    | with_reducible apply Canon_ite
    | split

theorem copyWrite_canon {x0} {x1} {x2} {s : State} (h : Canon s) : Canon (State.copyWrite x0 x1 x2 s) := by
  unfold State.copyWrite
  repeat'
    first
    | with_reducible assumption
    | with_reducible apply frameWrite_canon
    | split

theorem endDescs_canon {x0} {x1} {s : State} (h : Canon s) : Canon (State.endDescs x0 x1 s) :=
  Canon_keep (endDescs_frame (Nat.or_self _) Fr.rfl) (by decide) h

theorem halt_canon {x0} {x1} {x2} {s : State} (h : Canon s) : Canon (State.halt x0 x1 x2 s) := by
  unfold State.halt
  repeat'
    first
    | with_reducible assumption
    | (intro _)
    | (extract_lets +onlyGivenNames z; refine (fun (hz : Canon z) => ?_) ?_; clear_value z; revert z; intro y hy; rotate_left; dsimp only [z]; clear z)
    | (extract_lets +onlyGivenNames z; clear_value z; revert z; intro y)
    | simp -zeta only [Canon_mk]
    | with_reducible apply journal_canon
    | with_reducible apply each_canon
    | with_reducible apply endCourse_canon
    | with_reducible apply endSeq_canon
    | with_reducible apply closeJob_canon
    | with_reducible apply endDescs_canon
    | with_reducible apply Canon_ite
    | with_reducible apply Canon.mem

theorem loadState_canon {x0} {s : State} (h : Canon s) : Canon (State.loadState x0 s) := by
  unfold State.loadState
  repeat'
    first
    | with_reducible assumption
    | (intro _)
    | (extract_lets +onlyGivenNames z; clear_value z; revert z; intro y)
    | with_reducible apply each_canon
    | with_reducible apply modJob_canon
    | with_reducible apply charge_canon
    | with_reducible apply putDva_canon
    | with_reducible apply Canon_ite

theorem mapState_canon {x0} {x1} {s : State} (h : Canon s) : CanonO (State.mapState x0 x1 s) :=
  CanonO_keep (mapState_frame (Nat.or_self _) Fr.rfl) (by decide) h

theorem zeroGrad_canon {x0} {x1} {s : State} (h : Canon s) : Canon (State.zeroGrad x0 x1 s) := by
  unfold State.zeroGrad
  repeat'
    first
    | with_reducible assumption
    | with_reducible apply putDva_canon

theorem openStep_canon {x0} {x1} {s : State} (h : Canon s) : Canon (State.openStep x0 x1 s) := by
  unfold State.openStep
  repeat'
    first
    | with_reducible assumption
    | (intro _)
    | (extract_lets +onlyGivenNames z; refine (fun (hz : Canon z) => ?_) ?_; clear_value z; revert z; intro y hy; rotate_left; dsimp only [z]; clear z)
    | (extract_lets +onlyGivenNames z; clear_value z; revert z; intro y)
    | with_reducible apply each_canon
    | with_reducible apply modBucket_canon
    | with_reducible apply zeroGrad_canon
    | with_reducible apply modJob_canon
    | with_reducible apply polLimit_canon
    | with_reducible apply Canon_ite

theorem reapJobs_canon {s : State} (h : Canon s) : Canon (State.reapJobs s) := by
  unfold State.reapJobs
  repeat'
    first
    | with_reducible assumption
    | (intro _)
    | with_reducible apply each_canon
    | with_reducible apply closeJob_canon
    | split

theorem buffer_canon {x0} {x1} {x2} {s : State} (h : Canon s) : Canon (State.buffer x0 x1 x2 s) :=
  Canon_keep (buffer_frame (Nat.or_self _) Fr.rfl) (by decide) h

theorem cxlIde_canon {x0} {x1} {s : State} (h : Canon s) : Canon (State.cxlIde x0 x1 s) :=
  Canon_keep (cxlIde_frame (Nat.or_self _) Fr.rfl) (by decide) h

theorem ethFrame_canon {x0} {x1} {x2} {s : State} (h : Canon s) : Canon (State.ethFrame x0 x1 x2 s) :=
  Canon_keep (ethFrame_frame (Nat.or_self _) Fr.rfl) (by decide) h

theorem setMacsec_canon {x0} {x1} {x2} {s : State} (h : Canon s) : Canon (State.setMacsec x0 x1 x2 s) :=
  Canon_keep (setMacsec_frame (Nat.or_self _) Fr.rfl) (by decide) h

theorem linkDown_canon {x0} {x1} {x2} {s : State} (h : Canon s) : Canon (State.linkDown x0 x1 x2 s) :=
  Canon_keep (linkDown_frame (Nat.or_self _) Fr.rfl) (by decide) h

theorem linkUp_canon {x0} {x1} {x2} {s : State} (h : Canon s) : Canon (State.linkUp x0 x1 x2 s) :=
  Canon_keep (linkUp_frame (Nat.or_self _) Fr.rfl) (by decide) h

theorem mka_canon {x0} {x1} {x2} {s : State} (h : Canon s) : Canon (State.mka x0 x1 x2 s) :=
  Canon_keep (mka_frame (Nat.or_self _) Fr.rfl) (by decide) h

theorem pfcXon_canon {x0} {x1} {s : State} (h : Canon s) : Canon (State.pfcXon x0 x1 s) :=
  Canon_keep (pfcXon_frame (Nat.or_self _) Fr.rfl) (by decide) h

theorem portOut_canon {x0} {x1} {x2} {x3} {s : State} (h : Canon s) : Canon (State.portOut x0 x1 x2 x3 s) :=
  Canon_keep (portOut_frame (Nat.or_self _) Fr.rfl) (by decide) h

theorem releaseHeld_canon {x0} {x1} {s : State} (h : Canon s) : Canon (State.releaseHeld x0 x1 s) :=
  Canon_keep (releaseHeld_frame (Nat.or_self _) Fr.rfl) (by decide) h

theorem reply_canon {x0} {x1} {x2} {s : State} (h : Canon s) : Canon (State.reply x0 x1 x2 s) :=
  Canon_keep (reply_frame (Nat.or_self _) Fr.rfl) (by decide) h

theorem twineOut_canon {x0} {x1} {x2} {x3} {x4} {s : State} (h : Canon s) : Canon (State.twineOut x0 x1 x2 x3 x4 s) :=
  Canon_keep (twineOut_frame (Nat.or_self _) Fr.rfl) (by decide) h

theorem ackTo_canon {x0} {x1} {s : State} (h : Canon s) : Canon (State.ackTo x0 x1 s) :=
  Canon_keep (ackTo_frame (Nat.or_self _) Fr.rfl) (by decide) h

theorem endFlow_canon {x0} {x1} {s : State} (h : Canon s) : Canon (State.endFlow x0 x1 s) :=
  Canon_keep (endFlow_frame (Nat.or_self _) Fr.rfl) (by decide) h

theorem waleOut_canon {x0} {x1} {x2} {s : State} (h : Canon s) : Canon (State.waleOut x0 x1 x2 s) :=
  Canon_keep (waleOut_frame (Nat.or_self _) Fr.rfl) (by decide) h

theorem closeFlow_canon {x0} {x1} {s : State} (h : Canon s) : Canon (State.closeFlow x0 x1 s) :=
  Canon_keep (closeFlow_frame (Nat.or_self _) Fr.rfl) (by decide) h

theorem closeKeyFlows_canon {x0} {s : State} (h : Canon s) : Canon (State.closeKeyFlows x0 s) :=
  Canon_keep (closeKeyFlows_frame (Nat.or_self _) Fr.rfl) (by decide) h

theorem pump_canon {x0} {x1} {s : State} (h : Canon s) : Canon (State.pump x0 x1 s) := by
  induction x0 generalizing s with
  | zero => exact h
  | succ k ih =>
    rw [State.pump]
    refine Canon_ite (fun _ => h) fun _ => ?_
    split
    · exact h
    · exact ih (modFlow_canon (waleOut_canon h))

theorem enqueue_canon {x0} {x1} {s : State} (h : Canon s) : Canon (State.enqueue x0 x1 s) :=
  Canon_keep (enqueue_frame (Nat.or_self _) Fr.rfl) (by decide) h

theorem pfcFrame_canon {x0} {x1} {x2} {s : State} (h : Canon s) : Canon (State.pfcFrame x0 x1 x2 s) :=
  Canon_keep (pfcFrame_frame (Nat.or_self _) Fr.rfl) (by decide) h

theorem resend_canon {x0} {s : State} (h : Canon s) : Canon (State.resend x0 s) :=
  Canon_keep (resend_frame (Nat.or_self _) Fr.rfl) (by decide) h

theorem sendAck_canon {x0} {s : State} (h : Canon s) : Canon (State.sendAck x0 s) :=
  Canon_keep (sendAck_frame (Nat.or_self _) Fr.rfl) (by decide) h

theorem waleAck_canon {x0} {x1} {s : State} (h : Canon s) : Canon (State.waleAck x0 x1 s) :=
  Canon_keep (waleAck_frame (Nat.or_self _) Fr.rfl) (by decide) h

theorem waleClose_canon {x0} {x1} {s : State} (h : Canon s) : Canon (State.waleClose x0 x1 s) :=
  Canon_keep (waleClose_frame (Nat.or_self _) Fr.rfl) (by decide) h

theorem waleData_canon {x0} {x1} {s : State} (h : Canon s) : Canon (State.waleData x0 x1 s) :=
  Canon_keep (waleData_frame (Nat.or_self _) Fr.rfl) (by decide) h

theorem waleNak_canon {x0} {x1} {s : State} (h : Canon s) : Canon (State.waleNak x0 x1 s) :=
  Canon_keep (waleNak_frame (Nat.or_self _) Fr.rfl) (by decide) h

theorem waleOpen_canon {x0} {x1} {s : State} (h : Canon s) : Canon (State.waleOpen x0 x1 s) :=
  Canon_keep (waleOpen_frame (Nat.or_self _) Fr.rfl) (by decide) h

theorem waleOpenAck_canon {x0} {x1} {s : State} (h : Canon s) : Canon (State.waleOpenAck x0 x1 s) :=
  Canon_keep (waleOpenAck_frame (Nat.or_self _) Fr.rfl) (by decide) h

theorem walePass_canon {s : State} (h : Canon s) : Canon (State.walePass s) :=
  Canon_keep (walePass_frame (Nat.or_self _) Fr.rfl) (by decide) h

theorem waleSend_canon {x0} {x1} {x2} {x3} {x4} {s : State} (h : Canon s) : Canon (State.waleSend x0 x1 x2 x3 x4 s) :=
  Canon_keep (waleSend_frame (Nat.or_self _) Fr.rfl) (by decide) h

theorem backCopy_canon {x0} {s : State} (h : Canon s) : Canon (State.backCopy x0 s) :=
  Canon_keep (backCopy_frame (Nat.or_self _) Fr.rfl) (by decide) h

theorem applyPublish_canon {x0} {s : State} (h : Canon s) : Canon (State.applyPublish x0 s) := by
  unfold State.applyPublish
  repeat'
    first
    | with_reducible assumption
    | (intro _)
    | (extract_lets +onlyGivenNames z; refine (fun (hz : Canon z) => ?_) ?_; clear_value z; revert z; intro y hy; rotate_left; dsimp only [z]; clear z)
    | (extract_lets +onlyGivenNames z; clear_value z; revert z; intro y)
    | simp -zeta only [Canon_mk]
    | with_reducible apply closeJob_canon
    | with_reducible apply backCopy_canon
    | with_reducible apply modWeaver_canon
    | with_reducible apply modJob_canon
    | with_reducible apply saveState_canon
    | with_reducible apply sendLedger_canon
    | with_reducible apply openStep_canon
    | with_reducible apply Canon_ite
    | with_reducible apply Canon.mem
    | split

theorem writeSums_canon {x0} {x1} {x2} {x3} {s : State} (h : Canon s) : Canon (State.writeSums x0 x1 x2 x3 s) := by
  unfold State.writeSums
  repeat'
    first
    | with_reducible assumption
    | (extract_lets +onlyGivenNames z; clear_value z; revert z; intro y)
    | with_reducible apply putDva_canon

theorem writeShard_canon {x0} {x1} {x2} {x3} {s : State} (h : Canon s) : Canon (State.writeShard x0 x1 x2 x3 s) := by
  unfold State.writeShard
  repeat'
    first
    | with_reducible assumption
    | (intro _)
    | (extract_lets +onlyGivenNames z; clear_value z; revert z; intro y)
    | with_reducible apply each_canon
    | with_reducible apply copyWrite_canon
    | split

theorem shardOut_canon {x0} {x1} {x2} {x3} {s : State} (h : Canon s) : Canon (State.shardOut x0 x1 x2 x3 s) :=
  Canon_keep (shardOut_frame (Nat.or_self _) Fr.rfl) (by decide) h

theorem checkClosed_canon {x0} {x1} {s : State} (h : Canon s) : Canon (State.checkClosed x0 x1 s) := by
  unfold State.checkClosed
  repeat'
    first
    | with_reducible assumption
    | (intro _)
    | (extract_lets +onlyGivenNames z; refine (fun (hz : Canon z) => ?_) ?_; clear_value z; revert z; intro y hy; rotate_left; dsimp only [z]; clear z)
    | (extract_lets +onlyGivenNames z; clear_value z; revert z; intro y)
    | with_reducible apply modBucket_canon
    | with_reducible apply modJob_canon
    | with_reducible apply zeroGrad_canon
    | with_reducible apply Canon_ite

theorem tryUpdate_canon {x0} {x1} {s : State} (h : Canon s) : Canon (State.tryUpdate x0 x1 s) := by
  unfold State.tryUpdate
  repeat'
    first
    | with_reducible assumption
    | (intro _)
    | (extract_lets +onlyGivenNames z; refine (fun (hz : Canon z) => ?_) ?_; clear_value z; revert z; intro y hy; rotate_left; dsimp only [z]; clear z)
    | (extract_lets +onlyGivenNames z; refine (fun (hz : Canon z.2) => ?_) ?_; clear_value z; revert z; intro y hy; rotate_left; dsimp only [z]; clear z)
    | (extract_lets +onlyGivenNames z; clear_value z; revert z; intro y)
    | with_reducible apply readAll_canon
    | with_reducible apply uWaits_canon
    | with_reducible apply closeJob_canon
    | with_reducible apply pushMove_canon
    | with_reducible apply modBucket_canon
    | with_reducible apply putDva_canon
    | with_reducible apply writeShard_canon
    | with_reducible apply modWeaver_canon
    | with_reducible apply each_canon
    | with_reducible apply shardOut_canon
    | with_reducible apply checkClosed_canon
    | with_reducible apply Canon_ite
    | simp only [MemOk_mk]
    | split

theorem applyVerdict_canon {x0} {x1} {x2} {s : State} (h : Canon s) : Canon (State.applyVerdict x0 x1 x2 s) := by
  unfold State.applyVerdict
  repeat'
    first
    | with_reducible assumption
    | (intro _)
    | (extract_lets +onlyGivenNames z; clear_value z; revert z; intro y)
    | with_reducible apply modJob_canon
    | with_reducible apply modBucket_canon
    | with_reducible apply closeJob_canon
    | with_reducible apply each_canon
    | with_reducible apply writeSums_canon
    | with_reducible apply tryUpdate_canon
    | with_reducible apply Canon_ite
    | with_reducible apply elim_canon
    | simp only [MemOk_mk]
    | split

theorem runJob_canon {x0} {x1} {s : State} (h : Canon s) : Canon (State.runJob x0 x1 s) := by
  unfold State.runJob
  repeat'
    first
    | with_reducible assumption
    | (intro _)
    | (extract_lets +onlyGivenNames z; refine (fun (hz : Canon z) => ?_) ?_; clear_value z; revert z; intro y hy; rotate_left; dsimp only [z]; clear z)
    | with_reducible apply modJob_canon
    | with_reducible apply demand_canon
    | with_reducible apply modWeaver_canon
    | with_reducible apply openStep_canon
    | with_reducible apply loadState_canon
    | with_reducible apply each_canon
    | with_reducible apply twineOut_canon

theorem beginJob_canon {x0} {x1} {s : State} (h : Canon s) : CanonO (State.beginJob x0 x1 s) := by
  unfold State.beginJob
  repeat'
    first
    | with_reducible assumption
    | (intro _)
    | (extract_lets +onlyGivenNames z; clear_value z; revert z; intro y)
    | with_reducible apply runJob_canon
    | with_reducible apply chain_canon
    | with_reducible apply mapState_canon
    | with_reducible apply CanonO_mapS

theorem bucketLate_canon {x0} {x1} {s : State} (h : Canon s) : Canon (State.bucketLate x0 x1 s) :=
  Canon_keep (bucketLate_frame (Nat.or_self _) Fr.rfl) (by decide) h

theorem twnCount_canon {x0} {x1} {s : State} (h : Canon s) : Canon (State.twnCount x0 x1 s) :=
  Canon_keep (twnCount_frame (Nat.or_self _) Fr.rfl) (by decide) h

theorem sendPiece_canon {x0} {x1} {x2} {x3} {s : State} (h : Canon s) : Canon (State.sendPiece x0 x1 x2 x3 s) :=
  Canon_keep (sendPiece_frame (Nat.or_self _) Fr.rfl) (by decide) h

theorem ringDone_canon {x0} {x1} {x2} {x3} {s : State} (h : Canon s) : Canon (State.ringDone x0 x1 x2 x3 s) := by
  unfold State.ringDone
  repeat'
    first
    | with_reducible assumption
    | (intro _)
    | (extract_lets +onlyGivenNames z; refine (fun (hz : Canon z) => ?_) ?_; clear_value z; revert z; intro y hy; rotate_left; dsimp only [z]; clear z)
    | (extract_lets +onlyGivenNames z; clear_value z; revert z; intro y)
    | with_reducible apply modBucket_canon
    | with_reducible apply writeSums_canon
    | with_reducible apply Canon_ite

theorem startRing_canon {x0} {x1} {x2} {x3} {s : State} (h : Canon s) : Canon (State.startRing x0 x1 x2 x3 s) := by
  unfold State.startRing
  repeat'
    first
    | with_reducible assumption
    | (intro _)
    | (extract_lets +onlyGivenNames z; clear_value z; revert z; intro y)
    | with_reducible apply ringDone_canon
    | with_reducible apply emit_canon
    | with_reducible apply Canon_ite

theorem sendVerdict_canon {x0} {x1} {x2} {x3} {s : State} (h : Canon s) : Canon (State.sendVerdict x0 x1 x2 x3 s) := by
  unfold State.sendVerdict
  repeat'
    first
    | with_reducible assumption
    | (intro _)
    | (extract_lets +onlyGivenNames z; refine (fun (hz : Canon z) => ?_) ?_; clear_value z; revert z; intro y hy; rotate_left; dsimp only [z]; clear z)
    | (extract_lets +onlyGivenNames z; clear_value z; revert z; intro y)
    | with_reducible apply jobOut_canon
    | with_reducible apply applyVerdict_canon
    | with_reducible apply modBucket_canon
    | with_reducible apply closeJob_canon
    | with_reducible apply Canon_ite
    | simp only [MemOk_mk]
    | split

theorem settleBucket_canon {x0} {x1} {x2} {s : State} (h : Canon s) : Canon (State.settleBucket x0 x1 x2 s) := by
  unfold State.settleBucket
  repeat'
    first
    | with_reducible assumption
    | (intro _)
    | (extract_lets +onlyGivenNames z; refine (fun (hz : Canon z) => ?_) ?_; clear_value z; revert z; intro y hy; rotate_left; dsimp only [z]; clear z)
    | (extract_lets +onlyGivenNames z; clear_value z; revert z; intro y)
    | with_reducible apply modBucket_canon
    | with_reducible apply closeJob_canon
    | with_reducible apply sendVerdict_canon
    | with_reducible apply modJob_canon
    | with_reducible apply each_canon
    | with_reducible apply journal_canon
    | with_reducible apply twineOut_canon
    | with_reducible apply Canon_ite

theorem leadReport_canon {x0} {x1} {s : State} (h : Canon s) : Canon (State.leadReport x0 x1 s) := by
  unfold State.leadReport
  repeat'
    first
    | with_reducible assumption
    | (intro _)
    | (extract_lets +onlyGivenNames z; refine (fun (hz : Canon z) => ?_) ?_; clear_value z; revert z; intro y hy; rotate_left; dsimp only [z]; clear z)
    | (extract_lets +onlyGivenNames z; clear_value z; revert z; intro y)
    | with_reducible apply modJob_canon
    | with_reducible apply settleBucket_canon
    | with_reducible apply modBucket_canon
    | with_reducible apply Canon_ite

theorem tryReport_canon {x0} {x1} {s : State} (h : Canon s) : Canon (State.tryReport x0 x1 s) := by
  unfold State.tryReport
  repeat'
    first
    | with_reducible assumption
    | (intro _)
    | (extract_lets +onlyGivenNames z; refine (fun (hz : Canon z) => ?_) ?_; clear_value z; revert z; intro y hy; rotate_left; dsimp only [z]; clear z)
    | (extract_lets +onlyGivenNames z; clear_value z; revert z; intro y)
    | with_reducible apply modBucket_canon
    | with_reducible apply leadReport_canon
    | with_reducible apply jobOut_canon
    | with_reducible apply Canon_ite

theorem bucketSend_canon {x0} {x1} {s : State} (h : Canon s) : Canon (State.bucketSend x0 x1 s) := by
  unfold State.bucketSend
  repeat'
    first
    | with_reducible assumption
    | (intro _)
    | (extract_lets +onlyGivenNames z; refine (fun (hz : Canon z.2) => ?_) ?_; clear_value z; revert z; intro y hy; rotate_left; dsimp only [z]; clear z)
    | (extract_lets +onlyGivenNames z; clear_value z; revert z; intro y)
    | with_reducible apply readAll_canon
    | with_reducible apply uWaits_canon
    | with_reducible apply closeJob_canon
    | with_reducible apply pushMove_canon
    | with_reducible apply modBucket_canon
    | with_reducible apply each_canon
    | with_reducible apply sendPiece_canon
    | with_reducible apply startRing_canon
    | with_reducible apply tryReport_canon
    | with_reducible apply Canon_ite
    | simp only [MemOk_mk]
    | split

theorem leadHeard_canon {x0} {s : State} (h : Canon s) : Canon (State.leadHeard x0 s) :=
  Canon_keep (leadHeard_frame (Nat.or_self _) Fr.rfl) (by decide) h

theorem learnStep_canon {x0} {s : State} (h : Canon s) : Canon (State.learnStep x0 s) := by
  unfold State.learnStep
  repeat'
    first
    | with_reducible assumption
    | (intro _)
    | (extract_lets +onlyGivenNames z; refine (fun (hz : Canon z) => ?_) ?_; clear_value z; revert z; intro y hy; rotate_left; dsimp only [z]; clear z)
    | (extract_lets +onlyGivenNames z; refine (fun (hz : ∀ a t, Canon t → Canon (z a t)) => ?_) ?_; clear_value z; revert z; intro y hy; rotate_left; dsimp only [z]; clear z)
    | (extract_lets +onlyGivenNames z; clear_value z; revert z; intro y)
    | simp -zeta only [Canon_mk]
    | with_reducible apply beginJob_canon
    | with_reducible apply Canon_ite
    | with_reducible apply elim_canonS
    | with_reducible apply Canon.mem
    | with_reducible apply_assumption

theorem memberSilence_canon {x0} {x1} {s : State} (h : Canon s) : Canon (State.memberSilence x0 x1 s) := by
  unfold State.memberSilence
  repeat'
    first
    | with_reducible assumption
    | (intro _)
    | (extract_lets +onlyGivenNames z; clear_value z; revert z; intro y)
    | with_reducible apply closeJob_canon
    | with_reducible apply Canon_ite
    | simp only [MemOk_mk]
    | split

theorem pieceLost_canon {x0} {x1} {x2} {s : State} (h : Canon s) : Canon (State.pieceLost x0 x1 x2 s) := by
  unfold State.pieceLost
  repeat'
    first
    | with_reducible assumption
    | (intro _)
    | (extract_lets +onlyGivenNames z; clear_value z; revert z; intro y)
    | with_reducible apply tryReport_canon
    | with_reducible apply twnCount_canon
    | with_reducible apply modBucket_canon
    | with_reducible apply Canon_ite

theorem twnDrop_canon {x0} {s : State} (h : Canon s) : Canon (State.twnDrop x0 s) :=
  Canon_keep (twnDrop_frame (Nat.or_self _) Fr.rfl) (by decide) h

theorem probeReply_canon {x0} {x1} {s : State} (h : Canon s) : Canon (State.probeReply x0 x1 s) :=
  Canon_keep (probeReply_frame (Nat.or_self _) Fr.rfl) (by decide) h

theorem probeTimeout_canon {x0} {x1} {s : State} (h : Canon s) : Canon (State.probeTimeout x0 x1 s) :=
  Canon_keep (probeTimeout_frame (Nat.or_self _) Fr.rfl) (by decide) h

theorem publish_canon {x0} {x1} {x2} {s : State} (h : Canon s) : Canon (State.publish x0 x1 x2 s) :=
  Canon_keep (publish_frame (Nat.or_self _) Fr.rfl) (by decide) h

theorem publishDue_canon {x0} {s : State} (h : Canon s) : Canon (State.publishDue x0 s) := by
  unfold State.publishDue
  repeat'
    first
    | with_reducible assumption
    | (intro _)
    | with_reducible apply each_canon
    | with_reducible apply applyPublish_canon
    | with_reducible apply Canon_ite

theorem shardIn_canon {x0} {x1} {x2} {x3} {s : State} (h : Canon s) : Canon (State.shardIn x0 x1 x2 x3 s) := by
  unfold State.shardIn
  repeat'
    first
    | with_reducible assumption
    | (intro _)
    | (extract_lets +onlyGivenNames z; refine (fun (hz : Canon z) => ?_) ?_; clear_value z; revert z; intro y hy; rotate_left; dsimp only [z]; clear z)
    | (extract_lets +onlyGivenNames z; clear_value z; revert z; intro y)
    | with_reducible apply modJob_canon
    | with_reducible apply charge_canon
    | with_reducible apply writeShard_canon
    | with_reducible apply checkClosed_canon
    | with_reducible apply modBucket_canon
    | with_reducible apply Canon_ite

theorem shardsArrived_canon {x0} {s : State} (h : Canon s) : Canon (State.shardsArrived x0 s) := by
  unfold State.shardsArrived
  repeat'
    first
    | with_reducible assumption
    | (intro _)
    | with_reducible apply each_canon
    | with_reducible apply shardIn_canon
    | with_reducible apply modJob_canon

theorem retryUpdates_canon {s : State} (h : Canon s) : Canon (State.retryUpdates s) := by
  unfold State.retryUpdates
  repeat'
    first
    | with_reducible assumption
    | (intro _)
    | with_reducible apply each_canon
    | with_reducible apply tryUpdate_canon
    | with_reducible apply shardsArrived_canon

theorem ringContrib_canon {x0} {x1} {s : State} (h : Canon s) : Canon (State.ringContrib x0 x1 s) := by
  unfold State.ringContrib
  repeat'
    first
    | with_reducible assumption
    | (intro _)
    | (extract_lets +onlyGivenNames z; refine (fun (hz : Canon z.2) => ?_) ?_; clear_value z; revert z; intro y hy; rotate_left; dsimp only [z]; clear z)
    | (extract_lets +onlyGivenNames z; clear_value z; revert z; intro y)
    | with_reducible apply readAll_canon
    | with_reducible apply uWaits_canon
    | with_reducible apply closeJob_canon
    | with_reducible apply charge_canon
    | with_reducible apply tryReport_canon
    | with_reducible apply ringDone_canon
    | with_reducible apply emit_canon
    | with_reducible apply Canon_ite
    | simp only [MemOk_mk]
    | split

theorem stepLedger_canon {x0} {x1} {s : State} (h : Canon s) : Canon (State.stepLedger x0 x1 s) := by
  unfold State.stepLedger
  repeat'
    first
    | with_reducible assumption
    | (intro _)
    | (extract_lets +onlyGivenNames z; clear_value z; revert z; intro y)
    | with_reducible apply writeLedger_canon
    | with_reducible apply leadHeard_canon
    | with_reducible apply Canon_ite

theorem twineBounce_canon {x0} {x1} {s : State} (h : Canon s) : Canon (State.twineBounce x0 x1 s) := by
  unfold State.twineBounce
  repeat'
    first
    | with_reducible assumption
    | (intro _)
    | (extract_lets +onlyGivenNames z; refine (fun (hz : Canon z) => ?_) ?_; clear_value z; revert z; intro y hy; rotate_left; dsimp only [z]; clear z)
    | with_reducible apply twnDrop_canon
    | with_reducible apply twnCount_canon
    | with_reducible apply tryReport_canon
    | with_reducible apply modBucket_canon
    | with_reducible apply Canon_ite
    | simp only [MemOk_mk]
    | split

theorem twineResult_canon {x0} {x1} {s : State} (h : Canon s) : Canon (State.twineResult x0 x1 s) := by
  unfold State.twineResult
  repeat'
    first
    | with_reducible assumption
    | (intro _)
    | (extract_lets +onlyGivenNames z; refine (fun (hz : Canon z) => ?_) ?_; clear_value z; revert z; intro y hy; rotate_left; dsimp only [z]; clear z)
    | with_reducible apply twnDrop_canon
    | with_reducible apply charge_canon
    | with_reducible apply twnCount_canon
    | with_reducible apply modBucket_canon
    | with_reducible apply writeSums_canon
    | with_reducible apply tryReport_canon
    | with_reducible apply Canon_ite
    | with_reducible apply elim_canon
    | simp only [MemOk_mk]
    | split

theorem verdict_canon {x0} {x1} {s : State} (h : Canon s) : Canon (State.verdict x0 x1 s) := by
  unfold State.verdict
  repeat'
    first
    | with_reducible assumption
    | (intro _)
    | with_reducible apply applyVerdict_canon
    | with_reducible apply leadHeard_canon
    | with_reducible apply Canon_ite

theorem probeExpires_canon {s : State} (h : Canon s) : Canon (State.probeExpires s) :=
  Canon_keep (probeExpires_frame (Nat.or_self _) Fr.rfl) (by decide) h

theorem readOwn_canon {x0} {x1} {x2} {s : State} (h : Canon s) : Canon (State.readOwn x0 x1 x2 s).2 :=
  Canon_keep (readOwn_frame (Nat.or_self _) Fr.rfl) (by decide) h

theorem twineProbe_canon {x0} {s : State} (h : Canon s) : Canon (State.twineProbe x0 s) :=
  Canon_keep (twineProbe_frame (Nat.or_self _) Fr.rfl) (by decide) h

theorem feedback_canon {x0} {s : State} (h : Canon s) : Canon (feedback x0 s).2 :=
  Canon_keep (feedback_frame (Nat.or_self _) Fr.rfl) (by decide) h

theorem jobQuery_canon {x0} {s : State} (h : Canon s) : Canon (jobQuery x0 s).2 :=
  Canon_keep (jobQuery_frame (Nat.or_self _) Fr.rfl) (by decide) h

theorem jobStart_canon {x0} {s : State} (h : Canon s) : Canon (jobStart x0 s).2 := by
  unfold jobStart
  repeat'
    first
    | with_reducible assumption
    | (intro _)
    | (extract_lets +onlyGivenNames z; refine (fun (hz : Canon z) => ?_) ?_; clear_value z; revert z; intro y hy; rotate_left; dsimp only [z]; clear z)
    | (extract_lets +onlyGivenNames z; refine (fun (hz : Canon z.2) => ?_) ?_; clear_value z; revert z; intro y hy; rotate_left; dsimp only [z]; clear z)
    | with_reducible apply readOwn_canon
    | with_reducible apply beginJob_canon
    | with_reducible apply elim_canonS2
    | simp only [MemOk_mk]
    | split

theorem jobStop_canon {x0} {s : State} (h : Canon s) : Canon (jobStop x0 s).2 := by
  unfold jobStop
  repeat'
    first
    | with_reducible assumption
    | (intro _)
    | (extract_lets +onlyGivenNames z; clear_value z; revert z; intro y)
    | simp -zeta only [Canon_mk]
    | with_reducible apply closeJob_canon
    | with_reducible apply modJob_canon
    | with_reducible apply Canon_ite2

theorem learnPolicy_canon {x0} {s : State} (h : Canon s) : Canon (learnPolicy x0 s).2 :=
  Canon_keep (learnPolicy_frame (Nat.or_self _) Fr.rfl) (by decide) h

theorem cnp_canon {x0} {s : State} (h : Canon s) : Canon (State.cnp x0 s) :=
  Canon_keep (cnp_frame (Nat.or_self _) Fr.rfl) (by decide) h

theorem failSends_canon {x0} {s : State} (h : Canon s) : Canon (State.failSends x0 s) :=
  Canon_keep (failSends_frame (Nat.or_self _) Fr.rfl) (by decide) h

theorem roceOut_canon {x0} {x1} {x2} {x3} {s : State} (h : Canon s) : Canon (State.roceOut x0 x1 x2 x3 s) :=
  Canon_keep (roceOut_frame (Nat.or_self _) Fr.rfl) (by decide) h

theorem rocePkt_canon {x0} {x1} {s : State} (h : Canon s) : Canon (State.rocePkt x0 x1 s) :=
  Canon_keep (rocePkt_frame (Nat.or_self _) Fr.rfl) (by decide) h

theorem sendFrom_canon {x0} {x1} {x2} {x3} {s : State} (h : Canon s) : Canon (State.sendFrom x0 x1 x2 x3 s) :=
  Canon_keep (sendFrom_frame (Nat.or_self _) Fr.rfl) (by decide) h

theorem goBack_canon {x0} {s : State} (h : Canon s) : Canon (State.goBack x0 s) :=
  Canon_keep (goBack_frame (Nat.or_self _) Fr.rfl) (by decide) h

theorem markCe_canon {x0} {x1} {s : State} (h : Canon s) : Canon (State.markCe x0 x1 s) :=
  Canon_keep (markCe_frame (Nat.or_self _) Fr.rfl) (by decide) h

theorem rateRestore_canon {x0} {s : State} (h : Canon s) : Canon (State.rateRestore x0 s) :=
  Canon_keep (rateRestore_frame (Nat.or_self _) Fr.rfl) (by decide) h

theorem storeUnder_canon {x0} {x1} {x2} {x3} {x4} {s : State} (h : Canon s) : Canon (State.storeUnder x0 x1 x2 x3 x4 s).2 := by
  unfold State.storeUnder
  repeat'
    first
    | with_reducible assumption
    | (intro _)
    | (extract_lets +onlyGivenNames z; refine (fun (hz : Canon z.2) => ?_) ?_; clear_value z; revert z; intro y hy; rotate_left; dsimp only [z]; clear z)
    | with_reducible apply writeDva_canon
    | with_reducible apply Canon_ite2
    | split

theorem serveSend_canon {x0} {x1} {s : State} (h : Canon s) : Canon (State.serveSend x0 x1 s).2 := by
  unfold State.serveSend
  repeat'
    first
    | with_reducible assumption
    | (intro _)
    | (extract_lets +onlyGivenNames z; clear_value z; revert z; intro y)
    | simp -zeta only [Canon_mk]
    | with_reducible apply finishDesc_canon
    | with_reducible apply storeUnder_canon
    | with_reducible apply modDesc_canon
    | with_reducible apply doneDesc_canon
    | with_reducible apply Canon_ite
    | with_reducible apply Canon_ite2
    | simp only [MemOk_mk]
    | split

theorem serveWrite_canon {x0} {x1} {s : State} (h : Canon s) : Canon (State.serveWrite x0 x1 s).2 := by
  unfold State.serveWrite
  repeat'
    first
    | with_reducible assumption
    | (extract_lets +onlyGivenNames z; refine (fun (hz : Canon z.2) => ?_) ?_; clear_value z; revert z; intro y hy; rotate_left; dsimp only [z]; clear z)
    | (extract_lets +onlyGivenNames z; clear_value z; revert z; intro y)
    | simp -zeta only [Canon_mk]
    | with_reducible apply storeUnder_canon
    | with_reducible apply doneDesc_canon
    | split

theorem serveRead_canon {x0} {x1} {s : State} (h : Canon s) : Canon (State.serveRead x0 x1 s).2 :=
  Canon_keep (serveRead_frame (Nat.or_self _) Fr.rfl) (by decide) h

theorem serveRequest_canon {x0} {x1} {s : State} (h : Canon s) : Canon (State.serveRequest x0 x1 s).2 := by
  unfold State.serveRequest
  repeat'
    first
    | with_reducible assumption
    | with_reducible apply serveSend_canon
    | with_reducible apply serveWrite_canon
    | with_reducible apply serveRead_canon
    | split

theorem rcRequest_canon {x0} {x1} {s : State} (h : Canon s) : Canon (State.rcRequest x0 x1 s) := by
  unfold State.rcRequest
  repeat'
    first
    | with_reducible assumption
    | (intro _)
    | (extract_lets +onlyGivenNames z; refine (fun (hz : Canon z) => ?_) ?_; clear_value z; revert z; intro y hy; rotate_left; dsimp only [z]; clear z)
    | (extract_lets +onlyGivenNames z; refine (fun (hz : Canon z.2) => ?_) ?_; clear_value z; revert z; intro y hy; rotate_left; dsimp only [z]; clear z)
    | (extract_lets +onlyGivenNames z; clear_value z; revert z; intro y)
    | simp -zeta only [Canon_mk]
    | with_reducible apply rocePkt_canon
    | with_reducible apply serveRequest_canon
    | with_reducible apply modQp_canon
    | with_reducible apply serveRead_canon
    | with_reducible apply Canon_ite
    | split

theorem readResponse_canon {x0} {x1} {s : State} (h : Canon s) : Canon (State.readResponse x0 x1 s) := by
  unfold State.readResponse
  repeat'
    first
    | with_reducible assumption
    | (intro _)
    | (extract_lets +onlyGivenNames z; clear_value z; revert z; intro y)
    | with_reducible apply storeUnder_canon
    | with_reducible apply finishDesc_canon
    | with_reducible apply modQp_canon
    | with_reducible apply modDesc_canon
    | with_reducible apply doneDesc_canon
    | with_reducible apply Canon_ite
    | simp only [MemOk_mk]
    | split

theorem recvDesc_canon {x0} {x1} {s : State} (h : Canon s) : Canon (State.recvDesc x0 x1 s) :=
  Canon_keep (recvDesc_frame (Nat.or_self _) Fr.rfl) (by decide) h

theorem retrySends_canon {x0} {s : State} (h : Canon s) : Canon (State.retrySends x0 s) :=
  Canon_keep (retrySends_frame (Nat.or_self _) Fr.rfl) (by decide) h

theorem roceAck_canon {x0} {x1} {s : State} (h : Canon s) : Canon (State.roceAck x0 x1 s) :=
  Canon_keep (roceAck_frame (Nat.or_self _) Fr.rfl) (by decide) h

theorem sendUd_canon {x0} {x1} {x2} {s : State} (h : Canon s) : Canon (State.sendUd x0 x1 x2 s) :=
  Canon_keep (sendUd_frame (Nat.or_self _) Fr.rfl) (by decide) h

theorem startSend_canon {x0} {x1} {s : State} (h : Canon s) : Canon (State.startSend x0 x1 s) :=
  Canon_keep (startSend_frame (Nat.or_self _) Fr.rfl) (by decide) h

theorem startSends_canon {x0} {s : State} (h : Canon s) : Canon (State.startSends x0 s) :=
  Canon_keep (startSends_frame (Nat.or_self _) Fr.rfl) (by decide) h

theorem rocePacket_canon {x0} {x1} {s : State} (h : Canon s) : Canon (State.rocePacket x0 x1 s) := by
  unfold State.rocePacket
  repeat'
    first
    | with_reducible assumption
    | (intro _)
    | (extract_lets +onlyGivenNames z; refine (fun (hz : Canon z) => ?_) ?_; clear_value z; revert z; intro y hy; rotate_left; dsimp only [z]; clear z)
    | (extract_lets +onlyGivenNames z; clear_value z; revert z; intro y)
    | with_reducible apply markCe_canon
    | with_reducible apply charge_canon
    | with_reducible apply cnp_canon
    | with_reducible apply startSends_canon
    | with_reducible apply roceAck_canon
    | with_reducible apply modQp_canon
    | with_reducible apply retrySends_canon
    | with_reducible apply failSends_canon
    | with_reducible apply readResponse_canon
    | with_reducible apply rcRequest_canon
    | with_reducible apply serveSend_canon
    | with_reducible apply Canon_ite
    | split

theorem sendDesc_canon {x0} {x1} {x2} {s : State} (h : Canon s) : Canon (State.sendDesc x0 x1 x2 s) :=
  Canon_keep (sendDesc_frame (Nat.or_self _) Fr.rfl) (by decide) h

theorem dropRedeliver_canon {x0} {x1} {s : State} (h : Canon s) : Canon (State.dropRedeliver x0 x1 s) :=
  Canon_keep (dropRedeliver_frame (Nat.or_self _) Fr.rfl) (by decide) h

theorem finishDereg_canon {x0} {s : State} (h : Canon s) : Canon (State.finishDereg x0 s) :=
  Canon_keep (finishDereg_frame (Nat.or_self _) Fr.rfl) (by decide) h

theorem freeQueue_canon {x0} {s : State} (h : Canon s) : Canon (State.freeQueue x0 s) :=
  Canon_keep (freeQueue_frame (Nat.or_self _) Fr.rfl) (by decide) h

theorem finishDestroy_canon {x0} {s : State} (h : Canon s) : Canon (State.finishDestroy x0 s) :=
  Canon_keep (finishDestroy_frame (Nat.or_self _) Fr.rfl) (by decide) h

theorem repeatWrite_canon {x0} {x1} {x2} {s : State} (h : Canon s) : Canon (State.repeatWrite x0 x1 x2 s) :=
  Canon_keep (repeatWrite_frame (Nat.or_self _) Fr.rfl) (by decide) h

theorem finishRedeliver_canon {x0} {s : State} (h : Canon s) : Canon (State.finishRedeliver x0 s) :=
  Canon_keep (finishRedeliver_frame (Nat.or_self _) Fr.rfl) (by decide) h

theorem finishUnbind_canon {x0} {s : State} (h : Canon s) : Canon (State.finishUnbind x0 s) :=
  Canon_keep (finishUnbind_frame (Nat.or_self _) Fr.rfl) (by decide) h

theorem finishQueues_canon {s : State} (h : Canon s) : Canon (State.finishQueues s) :=
  Canon_keep (finishQueues_frame (Nat.or_self _) Fr.rfl) (by decide) h

theorem ahSet_canon {x0} {s : State} (h : Canon s) : Canon (ahSet x0 s).2 :=
  Canon_keep (ahSet_frame (Nat.or_self _) Fr.rfl) (by decide) h

theorem aperBind_canon {x0} {s : State} (h : Canon s) : Canon (aperBind x0 s).2 :=
  Canon_keep (aperBind_frame (Nat.or_self _) Fr.rfl) (by decide) h

theorem aperUnbind_canon {x0} {s : State} (h : Canon s) : Canon (aperUnbind x0 s).2 :=
  Canon_keep (aperUnbind_frame (Nat.or_self _) Fr.rfl) (by decide) h

theorem blockAlloc_canon {x0} {s : State} (h : Canon s) : Canon (blockAlloc x0 s).2 :=
  Canon_keep (blockAlloc_frame (Nat.or_self _) Fr.rfl) (by decide) h

theorem blockFree_canon {x0} {s : State} (h : Canon s) : Canon (blockFree x0 s).2 :=
  Canon_keep (blockFree_frame (Nat.or_self _) Fr.rfl) (by decide) h

theorem mrDeregister_canon {x0} {s : State} (h : Canon s) : Canon (mrDeregister x0 s).2 :=
  Canon_keep (mrDeregister_frame (Nat.or_self _) Fr.rfl) (by decide) h

theorem mrRegister_canon {x0} {s : State} (h : Canon s) : Canon (mrRegister x0 s).2 :=
  Canon_keep (mrRegister_frame (Nat.or_self _) Fr.rfl) (by decide) h

theorem qpCreate_canon {x0} {s : State} (h : Canon s) : CanonP (qpCreate x0 s) := by
  unfold qpCreate
  repeat'
    first
    | with_reducible assumption
    | (intro _)
    | (extract_lets +onlyGivenNames z; clear_value z; revert z; intro y)
    | simp -zeta only [Canon_mk]
    | with_reducible apply modQp_canon
    | with_reducible apply takeFrame_canon
    | with_reducible apply CanonP_some
    | with_reducible apply CanonP_map
    | simp only [MemOk_mk]
    | split

theorem qpDestroy_canon {x0} {s : State} (h : Canon s) : Canon (qpDestroy x0 s).2 :=
  Canon_keep (qpDestroy_frame (Nat.or_self _) Fr.rfl) (by decide) h

theorem qpQuery_canon {x0} {s : State} (h : Canon s) : Canon (qpQuery x0 s).2 :=
  Canon_keep (qpQuery_frame (Nat.or_self _) Fr.rfl) (by decide) h

theorem qpRearm_canon {x0} {s : State} (h : Canon s) : Canon (qpRearm x0 s).2 :=
  Canon_keep (qpRearm_frame (Nat.or_self _) Fr.rfl) (by decide) h

theorem qpRedeliver_canon {x0} {s : State} (h : Canon s) : Canon (qpRedeliver x0 s).2 :=
  Canon_keep (qpRedeliver_frame (Nat.or_self _) Fr.rfl) (by decide) h

theorem qpUndelivered_canon {x0} {s : State} (h : Canon s) : Canon (qpUndelivered x0 s).2 :=
  Canon_keep (qpUndelivered_frame (Nat.or_self _) Fr.rfl) (by decide) h

theorem ringSet_canon {x0} {s : State} (h : Canon s) : Canon (ringSet x0 s).2 :=
  Canon_keep (ringSet_frame (Nat.or_self _) Fr.rfl) (by decide) h

theorem clearCells_canon {x0} {s : State} (h : Canon s) : Canon (State.clearCells x0 s) :=
  Canon_keep (clearCells_frame (Nat.or_self _) Fr.rfl) (by decide) h

theorem releaseKv_canon {x0} {s : State} (h : Canon s) : Canon (State.releaseKv x0 s) :=
  Canon_keep (releaseKv_frame (Nat.or_self _) Fr.rfl) (by decide) h

theorem dropPins_canon {x0} {x1} {s : State} (h : Canon s) : Canon (State.dropPins x0 x1 s) :=
  Canon_keep (dropPins_frame (Nat.or_self _) Fr.rfl) (by decide) h

theorem endRows_canon {x0} {x1} {x2} {s : State} (h : Canon s) : Canon (State.endRows x0 x1 x2 s) :=
  Canon_keep (endRows_frame (Nat.or_self _) Fr.rfl) (by decide) h

theorem endQueue_canon {x0} {x1} {x2} {s : State} (h : Canon s) : Canon (State.endQueue x0 x1 x2 s) :=
  Canon_keep (endQueue_frame (Nat.or_self _) Fr.rfl) (by decide) h

theorem endWork_canon {x0} {x1} {x2} {x3} {x4} {s : State} (h : Canon s) : Canon (State.endWork x0 x1 x2 x3 x4 s) := by
  unfold State.endWork
  repeat'
    first
    | with_reducible assumption
    | (intro _)
    | (extract_lets +onlyGivenNames z; refine (fun (hz : Canon z) => ?_) ?_; clear_value z; revert z; intro y hy; rotate_left; dsimp only [z]; clear z)
    | with_reducible apply each_canon
    | with_reducible apply endRows_canon
    | with_reducible apply endSeq_canon
    | with_reducible apply closeJob_canon
    | with_reducible apply closeSession_canon
    | with_reducible apply endQueue_canon
    | with_reducible apply Canon_ite

theorem applyReset_canon {x0} {x1} {s : State} (h : Canon s) : Canon (State.applyReset x0 x1 s) := by
  unfold State.applyReset
  repeat'
    first
    | with_reducible assumption
    | (extract_lets +onlyGivenNames z; refine (fun (hz : Canon z) => ?_) ?_; clear_value z; revert z; intro y hy; rotate_left; dsimp only [z]; clear z)
    | with_reducible apply clearCells_canon
    | with_reducible apply releaseKv_canon
    | with_reducible apply endWork_canon
    | with_reducible apply finalRecord_canon
    | with_reducible apply modCtx_canon
    | split

theorem carryNew_canon {x0} {s : State} (h : Canon s) : Canon (State.carryNew x0 s) :=
  Canon_keep (carryNew_frame (Nat.or_self _) Fr.rfl) (by decide) h

theorem forceSessions_canon {x0} {s : State} (h : Canon s) : Canon (State.forceSessions x0 s) :=
  Canon_keep (forceSessions_frame (Nat.or_self _) Fr.rfl) (by decide) h

theorem sideClaim_canon {x0} {s : State} (h : Canon s) : Canon (sideClaim x0 s).2 :=
  Canon_keep (sideClaim_frame (Nat.or_self _) Fr.rfl) (by decide) h

theorem sideQuery_canon {x0} {s : State} (h : Canon s) : Canon (sideQuery x0 s).2 :=
  Canon_keep (sideQuery_frame (Nat.or_self _) Fr.rfl) (by decide) h

theorem sideRelease_canon {x0} {s : State} (h : Canon s) : Canon (sideRelease x0 s).2 :=
  Canon_keep (sideRelease_frame (Nat.or_self _) Fr.rfl) (by decide) h

theorem weaverPin_canon {x0} {s : State} (h : Canon s) : Canon (weaverPin x0 s).2 :=
  Canon_keep (weaverPin_frame (Nat.or_self _) Fr.rfl) (by decide) h

theorem weaverPrefetch_canon {x0} {s : State} (h : Canon s) : Canon (weaverPrefetch x0 s).2 :=
  Canon_keep (weaverPrefetch_frame (Nat.or_self _) Fr.rfl) (by decide) h

theorem weaverQuery_canon {x0} {s : State} (h : Canon s) : Canon (weaverQuery x0 s).2 :=
  Canon_keep (weaverQuery_frame (Nat.or_self _) Fr.rfl) (by decide) h

theorem weaverRegister_canon {x0} {s : State} (h : Canon s) : Canon (weaverRegister x0 s).2 :=
  Canon_keep (weaverRegister_frame (Nat.or_self _) Fr.rfl) (by decide) h

theorem weaverRemove_canon {x0} {s : State} (h : Canon s) : Canon (weaverRemove x0 s).2 := by
  unfold weaverRemove
  repeat'
    first
    | with_reducible assumption
    | (intro _)
    | (extract_lets +onlyGivenNames z; refine (fun (hz : Canon z) => ?_) ?_; clear_value z; revert z; intro y hy; rotate_left; dsimp only [z]; clear z)
    | (extract_lets +onlyGivenNames z; clear_value z; revert z; intro y)
    | simp -zeta only [Canon_mk]
    | with_reducible apply checked_canon
    | with_reducible apply forceSessions_canon
    | with_reducible apply startRemove_canon
    | with_reducible apply modWeaver_canon
    | with_reducible apply removeComplete_canon
    | with_reducible apply Canon_ite

theorem carryQuery_canon {x0} {s : State} (h : Canon s) : Canon (carryQuery x0 s).2 :=
  Canon_keep (carryQuery_frame (Nat.or_self _) Fr.rfl) (by decide) h

theorem stakeAbort_canon {x0} {s : State} (h : Canon s) : Canon (stakeAbort x0 s).2 :=
  Canon_keep (stakeAbort_frame (Nat.or_self _) Fr.rfl) (by decide) h

theorem stakeBuild_canon {x0} {s : State} (h : Canon s) : Canon (stakeBuild x0 s).2 :=
  Canon_keep (stakeBuild_frame (Nat.or_self _) Fr.rfl) (by decide) h

theorem stakeCommit_canon {x0} {s : State} (h : Canon s) : Canon (stakeCommit x0 s).2 :=
  Canon_keep (stakeCommit_frame (Nat.or_self _) Fr.rfl) (by decide) h

theorem stakeEvict_canon {x0} {s : State} (h : Canon s) : Canon (stakeEvict x0 s).2 :=
  Canon_keep (stakeEvict_frame (Nat.or_self _) Fr.rfl) (by decide) h

theorem stakeQuery_canon {x0} {s : State} (h : Canon s) : Canon (stakeQuery x0 s).2 :=
  Canon_keep (stakeQuery_frame (Nat.or_self _) Fr.rfl) (by decide) h

theorem stakeRegister_canon {x0} {s : State} (h : Canon s) : Canon (stakeRegister x0 s).2 :=
  Canon_keep (stakeRegister_frame (Nat.or_self _) Fr.rfl) (by decide) h

theorem setKey_canon {x0} {x1} {s : State} (h : Canon s) : Canon (State.setKey x0 x1 s) :=
  Canon_keep (setKey_frame (Nat.or_self _) Fr.rfl) (by decide) h

theorem drain_canon {x0} {s : State} (h : Canon s) : Canon (State.drain x0 s) :=
  Canon_keep (drain_frame (Nat.or_self _) Fr.rfl) (by decide) h

theorem endMemWorks_canon {x0} {s : State} (h : Canon s) : Canon (State.endMemWorks x0 s) :=
  Canon_keep (endMemWorks_frame (Nat.or_self _) Fr.rfl) (by decide) h

theorem forcedAbort_canon {x0} {s : State} (h : Canon s) : Canon (State.forcedAbort x0 s) :=
  Canon_keep (forcedAbort_frame (Nat.or_self _) Fr.rfl) (by decide) h

theorem removalEnds_canon {x0} {x1} {s : State} (h : Canon s) : Canon (State.removalEnds x0 x1 s) :=
  Canon_keep (removalEnds_frame (Nat.or_self _) Fr.rfl) (by decide) h

theorem revokedEvent_canon {x0} {s : State} (h : Canon s) : Canon (State.revokedEvent x0 s) :=
  Canon_keep (revokedEvent_frame (Nat.or_self _) Fr.rfl) (by decide) h

theorem scrub_canon {x0} {s : State} (h : Canon s) : Canon (State.scrub x0 s) :=
  Canon_keep (scrub_frame (Nat.or_self _) Fr.rfl) (by decide) h

theorem scrubDone_canon {x0} {s : State} (h : Canon s) : Canon (State.scrubDone x0 s) := by
  unfold State.scrubDone
  repeat'
    first
    | with_reducible assumption
    | (intro _)
    | (extract_lets +onlyGivenNames z; refine (fun (hz : Canon z) => ?_) ?_; clear_value z; revert z; intro y hy; rotate_left; dsimp only [z]; clear z)
    | (extract_lets +onlyGivenNames z; refine (fun (hz : MemOk z) => ?_) ?_; clear_value z; revert z; intro y hy; rotate_left; dsimp only [z]; clear z)
    | (extract_lets +onlyGivenNames z; clear_value z; revert z; intro y)
    | simp -zeta only [Canon_mk]
    | with_reducible apply each_canon
    | with_reducible apply removeComplete_canon
    | with_reducible apply removalEnds_canon
    | with_reducible apply Canon_ite
    | simp only [MemOk_mk]
    | with_reducible apply Canon.mem
    | with_reducible apply And.intro
    | with_reducible apply MemOk.hbm
    | with_reducible apply MemOk.slow

theorem startRemoval_canon {x0} {x1} {s : State} (h : Canon s) : Canon (State.startRemoval x0 x1 s) := by
  unfold State.startRemoval
  repeat'
    first
    | with_reducible assumption
    | (intro _)
    | (extract_lets +onlyGivenNames z; refine (fun (hz : Canon z) => ?_) ?_; clear_value z; revert z; intro y hy; rotate_left; dsimp only [z]; clear z)
    | (extract_lets +onlyGivenNames z; clear_value z; revert z; intro y)
    | simp -zeta only [Canon_mk]
    | with_reducible apply modTkey_canon
    | with_reducible apply modCtx_canon
    | with_reducible apply revokedEvent_canon
    | with_reducible apply each_canon
    | with_reducible apply modQp_canon
    | with_reducible apply endWork_canon
    | with_reducible apply endMemWorks_canon
    | with_reducible apply finalRecord_canon
    | with_reducible apply closeKeyFlows_canon
    | with_reducible apply startRemove_canon
    | with_reducible apply modWeaver_canon
    | with_reducible apply Canon_ite
    | with_reducible apply Canon.mem
    | split

theorem zeroised_canon {x0} {s : State} (h : Canon s) : Canon (State.zeroised x0 s) :=
  Canon_keep (zeroised_frame (Nat.or_self _) Fr.rfl) (by decide) h

theorem atsInvalidate_canon {x0} {x1} {s : State} (h : Canon s) : Canon (State.atsInvalidate x0 x1 s) :=
  Canon_keep (atsInvalidate_frame (Nat.or_self _) Fr.rfl) (by decide) h

theorem bmeRestored_canon {x0} {s : State} (h : Canon s) : Canon (State.bmeRestored x0 s) :=
  Canon_keep (bmeRestored_frame (Nat.or_self _) Fr.rfl) (by decide) h

theorem unacked_canon {x0} {s : State} (h : Canon s) : Canon (State.unacked x0 s) :=
  Canon_keep (unacked_frame (Nat.or_self _) Fr.rfl) (by decide) h

theorem loseQueues_canon {x0} {s : State} (h : Canon s) : Canon (State.loseQueues x0 s) :=
  Canon_keep (loseQueues_frame (Nat.or_self _) Fr.rfl) (by decide) h

theorem loseLink_canon {s : State} (h : Canon s) : Canon (State.loseLink s) :=
  Canon_keep (loseLink_frame (Nat.or_self _) Fr.rfl) (by decide) h

theorem dlDown_canon {s : State} (h : Canon s) : Canon (State.dlDown s) :=
  Canon_keep (dlDown_frame (Nat.or_self _) Fr.rfl) (by decide) h

theorem endFlr_canon {s : State} (h : Canon s) : Canon (State.endFlr s) := by
  unfold State.endFlr
  repeat'
    first
    | with_reducible assumption
    | (intro _)
    | (extract_lets +onlyGivenNames z; refine (fun (hz : Canon z) => ?_) ?_; clear_value z; revert z; intro y hy; rotate_left; dsimp only [z]; clear z)
    | (extract_lets +onlyGivenNames z; clear_value z; revert z; intro y)
    | simp -zeta only [Canon_mk]
    | with_reducible apply each_canon
    | with_reducible apply clearCells_canon
    | with_reducible apply endWork_canon
    | with_reducible apply Canon.mem

theorem flr_canon {x0} {s : State} (h : Canon s) : Canon (State.flr x0 s) := by
  unfold State.flr
  repeat'
    first
    | with_reducible assumption
    | (intro _)
    | (extract_lets +onlyGivenNames z; refine (fun (hz : Canon z) => ?_) ?_; clear_value z; revert z; intro y hy; rotate_left; dsimp only [z]; clear z)
    | (extract_lets +onlyGivenNames z; clear_value z; revert z; intro y)
    | simp -zeta only [Canon_mk]
    | with_reducible apply loseQueues_canon
    | with_reducible apply each_canon
    | with_reducible apply clearCells_canon
    | with_reducible apply endWork_canon
    | with_reducible apply freeQueue_canon
    | with_reducible apply modFn_canon
    | with_reducible apply Canon_ite
    | with_reducible apply Canon.mem

theorem modExpiry_canon {x0} {x1} {s : State} (h : Canon s) : Canon (State.modExpiry x0 x1 s) :=
  Canon_keep (modExpiry_frame (Nat.or_self _) Fr.rfl) (by decide) h

theorem vfEnable_canon {x0} {s : State} (h : Canon s) : Canon (State.vfEnable x0 s) :=
  Canon_keep (vfEnable_frame (Nat.or_self _) Fr.rfl) (by decide) h

theorem bankZeroed_canon {x0} {s : State} (h : Canon s) : Canon (State.bankZeroed x0 s) :=
  Canon_keep (bankZeroed_frame (Nat.or_self _) Fr.rfl) (by decide) h

theorem bindSpare_canon {x0} {s : State} (h : Canon s) : Canon (State.bindSpare x0 s) :=
  Canon_keep (bindSpare_frame (Nat.or_self _) Fr.rfl) (by decide) h

theorem keepImage_canon {x0} {s : State} (h : Canon s) : Canon (State.keepImage x0 s) :=
  Canon_keep (keepImage_frame (Nat.or_self _) Fr.rfl) (by decide) h

theorem cellFails_canon {x0} {s : State} (h : Canon s) : Canon (State.cellFails x0 s) :=
  Canon_keep (cellFails_frame (Nat.or_self _) Fr.rfl) (by decide) h

theorem cellSaved_canon {x0} {s : State} (h : Canon s) : Canon (State.cellSaved x0 s) := by
  unfold State.cellSaved
  repeat'
    first
    | with_reducible assumption
    | (intro _)
    | with_reducible apply modCell_canon
    | with_reducible apply takeSave_canon
    | with_reducible apply saveImage_canon
    | with_reducible apply Canon_ite
    | simp only [MemOk_mk]
    | split

theorem restoreCheck_canon {x0} {s : State} (h : Canon s) : Canon (State.restoreCheck x0 s) :=
  Canon_keep (restoreCheck_frame (Nat.or_self _) Fr.rfl) (by decide) h

theorem spareLoaded_canon {x0} {s : State} (h : Canon s) : Canon (State.spareLoaded x0 s) := by
  unfold State.spareLoaded
  repeat'
    first
    | with_reducible assumption
    | (intro _)
    | (extract_lets +onlyGivenNames z; refine (fun (hz : Canon z) => ?_) ?_; clear_value z; revert z; intro y hy; rotate_left; dsimp only [z]; clear z)
    | (extract_lets +onlyGivenNames z; clear_value z; revert z; intro y)
    | simp -zeta only [Canon_mk]
    | with_reducible apply each_canon
    | with_reducible apply replay_canon
    | with_reducible apply Canon_ite
    | with_reducible apply Canon.mem

theorem stageImage_canon {x0} {s : State} (h : Canon s) : Canon (State.stageImage x0 s) :=
  Canon_keep (stageImage_frame (Nat.or_self _) Fr.rfl) (by decide) h

theorem switchImage_canon {s : State} (h : Canon s) : Canon (State.switchImage s) :=
  Canon_keep (switchImage_frame (Nat.or_self _) Fr.rfl) (by decide) h

theorem presentFrom_canon {x0} {s : State} (h : Canon s) : Canon (State.presentFrom x0 s) :=
  Canon_keep (presentFrom_frame (Nat.or_self _) Fr.rfl) (by decide) h

theorem stakeReady_canon {x0} {x1} {x2} {x3} {s : State} (h : Canon s) : Canon (State.stakeReady x0 x1 x2 x3 s) :=
  Canon_keep (stakeReady_frame (Nat.or_self _) Fr.rfl) (by decide) h

theorem stakeGo_canon {x0} {x1} {x2} {s : State} (h : Canon s) : Canon (State.stakeGo x0 x1 x2 s) :=
  Canon_keep (stakeGo_frame (Nat.or_self _) Fr.rfl) (by decide) h

theorem stakeAbortMsg_canon {x0} {x1} {x2} {s : State} (h : Canon s) : Canon (State.stakeAbortMsg x0 x1 x2 s) :=
  Canon_keep (stakeAbortMsg_frame (Nat.or_self _) Fr.rfl) (by decide) h

theorem stakeCurrent_canon {x0} {x1} {s : State} (h : Canon s) : Canon (State.stakeCurrent x0 x1 s) :=
  Canon_keep (stakeCurrent_frame (Nat.or_self _) Fr.rfl) (by decide) h

theorem actOn_canon {x0} {s : State} (h : Canon s) : Canon (State.actOn x0 s) :=
  Canon_keep (actOn_frame (Nat.or_self _) Fr.rfl) (by decide) h

theorem bypassClose_canon {x0} {s : State} (h : Canon s) : Canon (State.bypassClose x0 s) :=
  Canon_keep (bypassClose_frame (Nat.or_self _) Fr.rfl) (by decide) h

theorem bypassSwitch_canon {s : State} (h : Canon s) : Canon (State.bypassSwitch s) :=
  Canon_keep (bypassSwitch_frame (Nat.or_self _) Fr.rfl) (by decide) h

theorem mgmtFrame_canon {x0} {s : State} (h : Canon s) : Canon (State.mgmtFrame x0 s) :=
  Canon_keep (mgmtFrame_frame (Nat.or_self _) Fr.rfl) (by decide) h

theorem blockLoses_canon {x0} {x1} {s : State} (h : Canon s) : Canon (State.blockLoses x0 x1 s) :=
  Canon_keep (blockLoses_frame (Nat.or_self _) Fr.rfl) (by decide) h

theorem blockRelease_canon {s : State} (h : Canon s) : Canon (State.blockRelease s) := by
  unfold State.blockRelease
  repeat'
    first
    | with_reducible assumption
    | (intro _)
    | (extract_lets +onlyGivenNames z; clear_value z; revert z; intro y)
    | simp -zeta only [Canon_mk]
    | with_reducible apply replayReady_canon
    | with_reducible apply Canon_ite
    | with_reducible apply Canon.mem

theorem coldStart_canon {x0} {x1} {s : State} (h : Canon s) : Canon (State.coldStart x0 x1 s) := by
  unfold State.coldStart
  repeat'
    first
    | with_reducible assumption
    | (extract_lets +onlyGivenNames z; refine (fun (hz : Canon z) => ?_) ?_; clear_value z; revert z; intro y hy; rotate_left; dsimp only [z]; clear z)
    | (extract_lets +onlyGivenNames z; clear_value z; revert z; intro y)
    | simp -zeta only [Canon_mk]
    | with_reducible apply rekey_canon
    | with_reducible apply reset_canon
    | with_reducible apply Canon.mem

theorem cold_canon {x0} {s : State} (h : Canon s) : Canon (State.cold x0 s) := by
  unfold State.cold
  repeat'
    first
    | with_reducible assumption
    | with_reducible apply coldStart_canon

theorem countCrossing_canon {x0} {s : State} (h : Canon s) : Canon (State.countCrossing x0 s) :=
  Canon_keep (countCrossing_frame (Nat.or_self _) Fr.rfl) (by decide) h

theorem keepSticky_canon {s : State} {s2 : State} (h : Canon s) (h2 : Canon s2) : Canon (State.keepSticky s s2) := by
  unfold State.keepSticky
  repeat'
    first
    | with_reducible assumption
    | (extract_lets +onlyGivenNames z; refine (fun (hz : MemOk z) => ?_) ?_; clear_value z; revert z; intro y hy; rotate_left; dsimp only [z]; clear z)
    | (extract_lets +onlyGivenNames z; clear_value z; revert z; intro y)
    | simp -zeta only [Canon_mk]
    | simp only [MemOk_mk]
    | with_reducible apply Canon.mem
    | with_reducible apply And.intro
    | with_reducible apply MemOk.hbm
    | with_reducible apply MemOk.slow

theorem d3cold_canon {s : State} (h : Canon s) : Canon (State.d3cold s) := by
  unfold State.d3cold
  repeat'
    first
    | with_reducible assumption
    | (intro _)
    | (extract_lets +onlyGivenNames z; refine (fun (hz : Canon z) => ?_) ?_; clear_value z; revert z; intro y hy; rotate_left; dsimp only [z]; clear z)
    | (extract_lets +onlyGivenNames z; clear_value z; revert z; intro y)
    | simp -zeta only [Canon_mk]
    | with_reducible apply keepSticky_canon
    | with_reducible apply coldStart_canon
    | with_reducible apply Canon_ite
    | with_reducible apply Canon.mem

theorem sendSetpoint_canon {x0} {s : State} (h : Canon s) : Canon (State.sendSetpoint x0 s) :=
  Canon_keep (sendSetpoint_frame (Nat.or_self _) Fr.rfl) (by decide) h

theorem deviceReady_canon {s : State} (h : Canon s) : Canon (State.deviceReady s) :=
  Canon_keep (deviceReady_frame (Nat.or_self _) Fr.rfl) (by decide) h

theorem endPending_canon {x0} {s : State} (h : Canon s) : Canon (State.endPending x0 s) := by
  unfold State.endPending
  repeat'
    first
    | with_reducible assumption
    | (intro _)
    | (extract_lets +onlyGivenNames z; refine (fun (hz : Canon z) => ?_) ?_; clear_value z; revert z; intro y hy; rotate_left; dsimp only [z]; clear z)
    | (extract_lets +onlyGivenNames z; refine (fun (hz : MemOk z) => ?_) ?_; clear_value z; revert z; intro y hy; rotate_left; dsimp only [z]; clear z)
    | (extract_lets +onlyGivenNames z; clear_value z; revert z; intro y)
    | simp -zeta only [Canon_mk]
    | with_reducible apply finishQueues_canon
    | with_reducible apply each_canon
    | with_reducible apply dropRedeliver_canon
    | with_reducible apply finalRecord_canon
    | with_reducible apply buildFails_canon
    | with_reducible apply modStake_canon
    | with_reducible apply modWeaver_canon
    | with_reducible apply modQp_canon
    | with_reducible apply applyReset_canon
    | simp only [MemOk_mk]
    | with_reducible apply Canon.mem
    | with_reducible apply And.intro
    | with_reducible apply MemOk.hbm
    | with_reducible apply MemOk.slow
    | split

theorem endAllWork_canon {x0} {x1} {s : State} (h : Canon s) : Canon (State.endAllWork x0 x1 s) := by
  unfold State.endAllWork
  repeat'
    first
    | with_reducible assumption
    | (intro _)
    | with_reducible apply each_canon
    | with_reducible apply endWork_canon

theorem warmFields_canon {s : State} (h : Canon s) : Canon (State.warmFields s) := by
  unfold State.warmFields
  repeat'
    first
    | with_reducible assumption
    | (extract_lets +onlyGivenNames z; refine (fun (hz : MemOk z) => ?_) ?_; clear_value z; revert z; intro y hy; rotate_left; dsimp only [z]; clear z)
    | (extract_lets +onlyGivenNames z; clear_value z; revert z; intro y)
    | simp -zeta only [Canon_mk]
    | simp only [MemOk_mk]
    | with_reducible apply Canon.mem
    | with_reducible apply And.intro
    | with_reducible apply MemOk.hbm
    | with_reducible apply MemOk.slow

theorem warm_canon {x0} {s : State} (h : Canon s) : Canon (State.warm x0 s) := by
  unfold State.warm
  repeat'
    first
    | with_reducible assumption
    | (intro _)
    | (extract_lets +onlyGivenNames z; refine (fun (hz : Canon z) => ?_) ?_; clear_value z; revert z; intro y hy; rotate_left; dsimp only [z]; clear z)
    | (extract_lets +onlyGivenNames z; clear_value z; revert z; intro y)
    | simp -zeta only [Canon_mk]
    | with_reducible apply endPending_canon
    | with_reducible apply endAllWork_canon
    | with_reducible apply loseLink_canon
    | with_reducible apply each_canon
    | with_reducible apply setKey_canon
    | with_reducible apply rekey_canon
    | with_reducible apply warmFields_canon
    | with_reducible apply measured_canon
    | with_reducible apply Canon_ite
    | with_reducible apply Canon.mem

theorem lidReset_canon {x0} {s : State} (h : Canon s) : Canon (State.lidReset x0 s) := by
  unfold State.lidReset
  repeat'
    first
    | with_reducible assumption
    | (intro _)
    | (extract_lets +onlyGivenNames z; refine (fun (hz : Canon z) => ?_) ?_; clear_value z; revert z; intro y hy; rotate_left; dsimp only [z]; clear z)
    | (extract_lets +onlyGivenNames z; clear_value z; revert z; intro y)
    | simp -zeta only [Canon_mk]
    | with_reducible apply each_canon
    | with_reducible apply startRemoval_canon
    | with_reducible apply endPending_canon
    | with_reducible apply endWork_canon
    | with_reducible apply coldStart_canon
    | with_reducible apply Canon_ite
    | with_reducible apply Canon.mem

theorem domainReset_canon {x0} {s : State} (h : Canon s) : Canon (State.domainReset x0 s) := by
  unfold State.domainReset
  repeat'
    first
    | with_reducible assumption
    | (intro _)
    | (extract_lets +onlyGivenNames z; refine (fun (hz : Canon z) => ?_) ?_; clear_value z; revert z; intro y hy; rotate_left; dsimp only [z]; clear z)
    | (extract_lets +onlyGivenNames z; clear_value z; revert z; intro y)
    | with_reducible apply journal_canon
    | with_reducible apply warm_canon
    | with_reducible apply each_canon
    | with_reducible apply blockReset_canon
    | with_reducible apply dlDown_canon
    | with_reducible apply cold_canon
    | with_reducible apply lidReset_canon
    | with_reducible apply Canon_ite
    | split

theorem fwFallback_canon {s : State} (h : Canon s) : Canon (State.fwFallback s) :=
  Canon_keep (fwFallback_frame (Nat.or_self _) Fr.rfl) (by decide) h

theorem idleWaitEnds_canon {x0} {s : State} (h : Canon s) : Canon (State.idleWaitEnds x0 s) :=
  Canon_keep (idleWaitEnds_frame (Nat.or_self _) Fr.rfl) (by decide) h

theorem perstAssert_canon {s : State} (h : Canon s) : Canon (State.perstAssert s) := by
  unfold State.perstAssert
  repeat'
    first
    | with_reducible assumption
    | (intro _)
    | (extract_lets +onlyGivenNames z; refine (fun (hz : Canon z) => ?_) ?_; clear_value z; revert z; intro y hy; rotate_left; dsimp only [z]; clear z)
    | (extract_lets +onlyGivenNames z; clear_value z; revert z; intro y)
    | simp -zeta only [Canon_mk]
    | with_reducible apply warm_canon
    | with_reducible apply Canon_ite
    | with_reducible apply Canon.mem

theorem perstDeassert_canon {s : State} (h : Canon s) : Canon (State.perstDeassert s) :=
  Canon_keep (perstDeassert_frame (Nat.or_self _) Fr.rfl) (by decide) h

theorem powerReturns_canon {s : State} (h : Canon s) : Canon (State.powerReturns s) := by
  unfold State.powerReturns
  repeat'
    first
    | with_reducible assumption
    | (intro _)
    | with_reducible apply keepSticky_canon
    | with_reducible apply coldStart_canon
    | with_reducible apply Canon_ite

theorem railCrosses_canon {x0} {s : State} (h : Canon s) : Canon (State.railCrosses x0 s) := by
  unfold State.railCrosses
  repeat'
    first
    | with_reducible assumption
    | (intro _)
    | (extract_lets +onlyGivenNames z; refine (fun (hz : Canon z) => ?_) ?_; clear_value z; revert z; intro y hy; rotate_left; dsimp only [z]; clear z)
    | (extract_lets +onlyGivenNames z; clear_value z; revert z; intro y)
    | simp -zeta only [Canon_mk]
    | with_reducible apply countCrossing_canon
    | with_reducible apply domainReset_canon
    | with_reducible apply Canon_ite
    | with_reducible apply Canon.mem

theorem warmReset_canon {x0} {s : State} (h : Canon s) : Canon (State.warmReset x0 s) := by
  unfold State.warmReset
  repeat'
    first
    | with_reducible assumption
    | (intro _)
    | with_reducible apply perstAssert_canon
    | with_reducible apply warm_canon
    | with_reducible apply Canon_ite
    | split

theorem windowExpires_canon {x0} {s : State} (h : Canon s) : Canon (State.windowExpires x0 s) := by
  unfold State.windowExpires
  repeat'
    first
    | with_reducible assumption
    | (intro _)
    | (extract_lets +onlyGivenNames z; refine (fun (hz : Canon z) => ?_) ?_; clear_value z; revert z; intro y hy; rotate_left; dsimp only [z]; clear z)
    | (extract_lets +onlyGivenNames z; clear_value z; revert z; intro y)
    | simp -zeta only [Canon_mk]
    | with_reducible apply each_canon
    | with_reducible apply countCrossing_canon
    | with_reducible apply domainReset_canon
    | with_reducible apply Canon_ite
    | with_reducible apply Canon.mem
    | split

theorem copyEngineFails_canon {x0} {s : State} (h : Canon s) : Canon (State.copyEngineFails x0 s) :=
  Canon_keep (copyEngineFails_frame (Nat.or_self _) Fr.rfl) (by decide) h

theorem setLink_canon {x0} {x1} {x2} {s : State} (h : Canon s) : Canon (State.setLink x0 x1 x2 s) :=
  Canon_keep (setLink_frame (Nat.or_self _) Fr.rfl) (by decide) h

theorem retrainFails_canon {x0} {x1} {x2} {s : State} (h : Canon s) : Canon (State.retrainFails x0 x1 x2 s) := by
  unfold State.retrainFails
  repeat'
    first
    | with_reducible assumption
    | (intro _)
    | (extract_lets +onlyGivenNames z; refine (fun (hz : Canon z) => ?_) ?_; clear_value z; revert z; intro y hy; rotate_left; dsimp only [z]; clear z)
    | with_reducible apply setLink_canon
    | with_reducible apply halt_canon
    | with_reducible apply Canon_ite

theorem fabricFails_canon {x0} {x1} {s : State} (h : Canon s) : Canon (State.fabricFails x0 x1 s) := by
  unfold State.fabricFails
  repeat'
    first
    | with_reducible assumption
    | (intro _)
    | with_reducible apply retrainFails_canon
    | with_reducible apply Canon_ite
    | split

theorem faultStops_canon {x0} {x1} {s : State} (h : Canon s) : Canon (State.faultStops x0 x1 s) :=
  Canon_keep (faultStops_frame (Nat.or_self _) Fr.rfl) (by decide) h

theorem firmwareRestarts_canon {s : State} (h : Canon s) : Canon (State.firmwareRestarts s) :=
  Canon_keep (firmwareRestarts_frame (Nat.or_self _) Fr.rfl) (by decide) h

theorem flitFails_canon {x0} {x1} {s : State} (h : Canon s) : Canon (State.flitFails x0 x1 s) :=
  Canon_keep (flitFails_frame (Nat.or_self _) Fr.rfl) (by decide) h

theorem migrationFails_canon {x0} {s : State} (h : Canon s) : Canon (State.migrationFails x0 s) :=
  Canon_keep (migrationFails_frame (Nat.or_self _) Fr.rfl) (by decide) h

theorem retrainDone_canon {x0} {x1} {x2} {s : State} (h : Canon s) : Canon (State.retrainDone x0 x1 x2 s) := by
  unfold State.retrainDone
  repeat'
    first
    | with_reducible assumption
    | (intro _)
    | with_reducible apply replayReady_canon
    | with_reducible apply setLink_canon
    | with_reducible apply retrainFails_canon
    | with_reducible apply Canon_ite
    | split

theorem slathFails_canon {x0} {x1} {s : State} (h : Canon s) : Canon (State.slathFails x0 x1 s) :=
  Canon_keep (slathFails_frame (Nat.or_self _) Fr.rfl) (by decide) h

theorem sramFails_canon {x0} {x1} {s : State} (h : Canon s) : Canon (State.sramFails x0 x1 s) := by
  unfold State.sramFails
  repeat'
    first
    | with_reducible assumption
    | (intro _)
    | (extract_lets +onlyGivenNames z; clear_value z; revert z; intro y)
    | with_reducible apply journal_canon
    | with_reducible apply faultStops_canon
    | with_reducible apply qpError_canon
    | with_reducible apply halt_canon
    | with_reducible apply Canon_ite
    | split

theorem protectCheck_canon {x0} {x1} {s : State} (h : Canon s) : Canon (State.protectCheck x0 x1 s) :=
  Canon_keep (protectCheck_frame (Nat.or_self _) Fr.rfl) (by decide) h

theorem lowerTo_canon {x0} {x1} {s : State} (h : Canon s) : Canon (State.lowerTo x0 x1 s) :=
  Canon_keep (lowerTo_frame (Nat.or_self _) Fr.rfl) (by decide) h

theorem raiseTo_canon {x0} {x1} {s : State} (h : Canon s) : Canon (State.raiseTo x0 x1 s) :=
  Canon_keep (raiseTo_frame (Nat.or_self _) Fr.rfl) (by decide) h

theorem loopDie_canon {x0} {x1} {x2} {s : State} (h : Canon s) : Canon (State.loopDie x0 x1 x2 s) :=
  Canon_keep (loopDie_frame (Nat.or_self _) Fr.rfl) (by decide) h

theorem clockLoop_canon {x0} {s : State} (h : Canon s) : Canon (State.clockLoop x0 s) :=
  Canon_keep (clockLoop_frame (Nat.or_self _) Fr.rfl) (by decide) h

theorem writeHeld_canon {x0} {s : State} (h : Canon s) : Canon (State.writeHeld x0 s) :=
  Canon_keep (writeHeld_frame (Nat.or_self _) Fr.rfl) (by decide) h

theorem reach_canon {x0} {s : State} (h : Canon s) : Canon (State.reach x0 s) :=
  Canon_keep (reach_frame (Nat.or_self _) Fr.rfl) (by decide) h

theorem d0_canon {s : State} (h : Canon s) : Canon (State.d0 s) :=
  Canon_keep (d0_frame (Nat.or_self _) Fr.rfl) (by decide) h

theorem d3hotAsked_canon {s : State} (h : Canon s) : Canon (State.d3hotAsked s) :=
  Canon_keep (d3hotAsked_frame (Nat.or_self _) Fr.rfl) (by decide) h

theorem dip_canon {x0} {x1} {s : State} (h : Canon s) : Canon (State.dip x0 x1 s) :=
  Canon_keep (dip_frame (Nat.or_self _) Fr.rfl) (by decide) h

theorem dipEnds_canon {x0} {s : State} (h : Canon s) : Canon (State.dipEnds x0 s) :=
  Canon_keep (dipEnds_frame (Nat.or_self _) Fr.rfl) (by decide) h

theorem dipStays_canon {x0} {x1} {s : State} (h : Canon s) : Canon (State.dipStays x0 x1 s) :=
  Canon_keep (dipStays_frame (Nat.or_self _) Fr.rfl) (by decide) h

theorem throttle_canon {x0} {s : State} (h : Canon s) : Canon (State.throttle x0 s) :=
  Canon_keep (throttle_frame (Nat.or_self _) Fr.rfl) (by decide) h

theorem overTdp_canon {x0} {s : State} (h : Canon s) : Canon (State.overTdp x0 s) :=
  Canon_keep (overTdp_frame (Nat.or_self _) Fr.rfl) (by decide) h

theorem refBack_canon {s : State} (h : Canon s) : Canon (State.refBack s) :=
  Canon_keep (refBack_frame (Nat.or_self _) Fr.rfl) (by decide) h

theorem refLost_canon {s : State} (h : Canon s) : Canon (State.refLost s) :=
  Canon_keep (refLost_frame (Nat.or_self _) Fr.rfl) (by decide) h

theorem restoreCells_canon {s : State} (h : Canon s) : Canon (State.restoreCells s) :=
  Canon_keep (restoreCells_frame (Nat.or_self _) Fr.rfl) (by decide) h

theorem saveCells_canon {s : State} (h : Canon s) : Canon (State.saveCells s) := by
  unfold State.saveCells
  repeat'
    first
    | with_reducible assumption
    | (intro _)
    | (extract_lets +onlyGivenNames z; refine (fun (hz : Canon z) => ?_) ?_; clear_value z; revert z; intro y hy; rotate_left; dsimp only [z]; clear z)
    | simp -zeta only [Canon_mk]
    | with_reducible apply each_canon
    | with_reducible apply saveImage_canon
    | with_reducible apply takeSave_canon
    | with_reducible apply Canon_ite
    | with_reducible apply Canon.mem
    | split

theorem sawTj_canon {x0} {s : State} (h : Canon s) : Canon (State.sawTj x0 s) :=
  Canon_keep (sawTj_frame (Nat.or_self _) Fr.rfl) (by decide) h

theorem shelfEntry_canon {s : State} (h : Canon s) : Canon (State.shelfEntry s) := by
  unfold State.shelfEntry
  repeat'
    first
    | with_reducible assumption
    | (intro _)
    | (extract_lets +onlyGivenNames z; refine (fun (hz : Canon z) => ?_) ?_; clear_value z; revert z; intro y hy; rotate_left; dsimp only [z]; clear z)
    | (extract_lets +onlyGivenNames z; clear_value z; revert z; intro y)
    | simp -zeta only [Canon_mk]
    | with_reducible apply reach_canon
    | with_reducible apply saveCells_canon
    | with_reducible apply Canon_ite
    | with_reducible apply Canon.mem
    | split

theorem shelfExitReady_canon {s : State} (h : Canon s) : Canon (State.shelfExitReady s) :=
  Canon_keep (shelfExitReady_frame (Nat.or_self _) Fr.rfl) (by decide) h

theorem thermal_canon {x0} {x1} {s : State} (h : Canon s) : Canon (State.thermal x0 x1 s) :=
  Canon_keep (thermal_frame (Nat.or_self _) Fr.rfl) (by decide) h

theorem trip_canon {x0} {x1} {s : State} (h : Canon s) : Canon (State.trip x0 x1 s) := by
  unfold State.trip
  repeat'
    first
    | with_reducible assumption
    | (intro _)
    | (extract_lets +onlyGivenNames z; refine (fun (hz : Canon z) => ?_) ?_; clear_value z; revert z; intro y hy; rotate_left; dsimp only [z]; clear z)
    | (extract_lets +onlyGivenNames z; clear_value z; revert z; intro y)
    | simp -zeta only [Canon_mk]
    | with_reducible apply halt_canon
    | with_reducible apply sawTj_canon
    | with_reducible apply Canon_ite
    | with_reducible apply Canon.mem

theorem vrcAck_canon {x0} {s : State} (h : Canon s) : Canon (State.vrcAck x0 s) :=
  Canon_keep (vrcAck_frame (Nat.or_self _) Fr.rfl) (by decide) h

theorem vrcTimeout_canon {x0} {s : State} (h : Canon s) : Canon (State.vrcTimeout x0 s) :=
  Canon_keep (vrcTimeout_frame (Nat.or_self _) Fr.rfl) (by decide) h

theorem closeSpdm_canon {x0} {s : State} (h : Canon s) : Canon (State.closeSpdm x0 s) :=
  Canon_keep (closeSpdm_frame (Nat.or_self _) Fr.rfl) (by decide) h

theorem refuse_canon {s : State} (h : Canon s) : Canon (State.refuse s) :=
  Canon_keep (refuse_frame (Nat.or_self _) Fr.rfl) (by decide) h

theorem vendor_canon {x0} {x1} {x2} {x3} {x4} {s : State} (hf : ∀ t, Canon t → Canon (x4 t)) (h : Canon s) : Canon (State.vendor x0 x1 x2 x3 x4 s) := by
  unfold State.vendor
  repeat'
    first
    | with_reducible assumption
    | (intro _)
    | (extract_lets +onlyGivenNames z; refine (fun (hz : Canon z) => ?_) ?_; clear_value z; revert z; intro y hy; rotate_left; dsimp only [z]; clear z)
    | with_reducible apply emit_canon
    | with_reducible apply refuse_canon
    | with_reducible apply Canon_ite
    | split
    | with_reducible apply_assumption

theorem consentSet_canon {x0} {x1} {x2} {x3} {s : State} (h : Canon s) : Canon (State.consentSet x0 x1 x2 x3 s) :=
  Canon_keep (consentSet_frame (Nat.or_self _) Fr.rfl) (by decide) h

theorem debugUnlock_canon {x0} {s : State} (h : Canon s) : Canon (State.debugUnlock x0 s) :=
  Canon_keep (debugUnlock_frame (Nat.or_self _) Fr.rfl) (by decide) h

theorem sendMeas_canon {x0} {x1} {x2} {s : State} (h : Canon s) : Canon (State.sendMeas x0 x1 x2 s) :=
  Canon_keep (sendMeas_frame (Nat.or_self _) Fr.rfl) (by decide) h

theorem getMeasurements_canon {x0} {x1} {s : State} (h : Canon s) : Canon (State.getMeasurements x0 x1 s) :=
  Canon_keep (getMeasurements_frame (Nat.or_self _) Fr.rfl) (by decide) h

theorem setLinkIde_canon {x0} {s : State} (h : Canon s) : Canon (State.setLinkIde x0 s) :=
  Canon_keep (setLinkIde_frame (Nat.or_self _) Fr.rfl) (by decide) h

theorem ideKm_canon {x0} {x1} {s : State} (h : Canon s) : Canon (State.ideKm x0 x1 s) :=
  Canon_keep (ideKm_frame (Nat.or_self _) Fr.rfl) (by decide) h

theorem keyExchange_canon {x0} {x1} {x2} {s : State} (h : Canon s) : Canon (State.keyExchange x0 x1 x2 s) :=
  Canon_keep (keyExchange_frame (Nat.or_self _) Fr.rfl) (by decide) h

theorem released_canon {x0} {x1} {s : State} (h : Canon s) : Canon (State.released x0 x1 s) :=
  Canon_keep (released_frame (Nat.or_self _) Fr.rfl) (by decide) h

theorem keyRelease_canon {x0} {x1} {s : State} (h : Canon s) : Canon (State.keyRelease x0 x1 s) :=
  Canon_keep (keyRelease_frame (Nat.or_self _) Fr.rfl) (by decide) h

theorem keyRevoke_canon {x0} {x1} {s : State} (h : Canon s) : Canon (State.keyRevoke x0 x1 s) := by
  unfold State.keyRevoke
  repeat'
    first
    | with_reducible assumption
    | (intro _)
    | (extract_lets +onlyGivenNames z; clear_value z; revert z; intro y)
    | with_reducible apply vendor_canon
    | with_reducible apply startRemoval_canon

theorem operatorSet_canon {x0} {x1} {s : State} (h : Canon s) : Canon (State.operatorSet x0 x1 s) := by
  unfold State.operatorSet
  repeat'
    first
    | with_reducible assumption
    | (intro _)
    | (extract_lets +onlyGivenNames z; refine (fun (hz : Canon z) => ?_) ?_; clear_value z; revert z; intro y hy; rotate_left; dsimp only [z]; clear z)
    | (extract_lets +onlyGivenNames z; refine (fun (hz : ∀ t, Canon t → Canon (z t)) => ?_) ?_; clear_value z; revert z; intro y hy; rotate_left; dsimp only [z]; clear z)
    | (extract_lets +onlyGivenNames z; clear_value z; revert z; intro y)
    | simp -zeta only [Canon_mk]
    | with_reducible apply measured_canon
    | with_reducible apply vendor_canon
    | with_reducible apply lidReset_canon
    | with_reducible apply Canon_ite
    | with_reducible apply Canon.mem

theorem State_policySet_canon {x0} {x1} {s : State} (h : Canon s) : Canon (State.policySet x0 x1 s) :=
  Canon_keep (State_policySet_frame (Nat.or_self _) Fr.rfl) (by decide) h

theorem endGrants_canon {s : State} (h : Canon s) : Canon (State.endGrants s) :=
  Canon_keep (endGrants_frame (Nat.or_self _) Fr.rfl) (by decide) h

theorem journalRead_canon {x0} {s : State} (h : Canon s) : Canon (journalRead x0 s).2 := by
  unfold journalRead
  repeat'
    first
    | with_reducible assumption
    | (intro _)
    | (extract_lets +onlyGivenNames z; refine (fun (hz : Canon z.2) => ?_) ?_; clear_value z; revert z; intro y hy; rotate_left; dsimp only [z]; clear z)
    | (extract_lets +onlyGivenNames z; clear_value z; revert z; intro y)
    | simp -zeta only [Canon_mk]
    | with_reducible apply writeDva_canon
    | with_reducible apply charge_canon
    | with_reducible apply Canon_ite2
    | split

theorem journalCommand_canon {x0} {s : State} (h : Canon s) : Canon (State.journalCommand x0 s) := by
  unfold State.journalCommand
  repeat'
    first
    | with_reducible assumption
    | (intro _)
    | (extract_lets +onlyGivenNames z; refine (fun (hz : Canon z.2) => ?_) ?_; clear_value z; revert z; intro y hy; rotate_left; dsimp only [z]; clear z)
    | (extract_lets +onlyGivenNames z; clear_value z; revert z; intro y)
    | with_reducible apply journalRead_canon
    | with_reducible apply command_canon
    | with_reducible apply Canon_ite

theorem debugRelease_canon {x0} {s : State} (h : Canon s) : Canon (debugRelease x0 s).2 :=
  Canon_keep (debugRelease_frame (Nat.or_self _) Fr.rfl) (by decide) h

theorem debugRequest_canon {x0} {s : State} (h : Canon s) : Canon (debugRequest x0 s).2 :=
  Canon_keep (debugRequest_frame (Nat.or_self _) Fr.rfl) (by decide) h

theorem faultQuery_canon {x0} {s : State} (h : Canon s) : Canon (faultQuery x0 s).2 :=
  Canon_keep (faultQuery_frame (Nat.or_self _) Fr.rfl) (by decide) h

theorem keyQuery_canon {x0} {s : State} (h : Canon s) : Canon (keyQuery x0 s).2 :=
  Canon_keep (keyQuery_frame (Nat.or_self _) Fr.rfl) (by decide) h

theorem powerLimitSet_canon {x0} {s : State} (h : Canon s) : Canon (powerLimitSet x0 s).2 :=
  Canon_keep (powerLimitSet_frame (Nat.or_self _) Fr.rfl) (by decide) h

theorem powerQuery_canon {x0} {s : State} (h : Canon s) : Canon (powerQuery x0 s).2 :=
  Canon_keep (powerQuery_frame (Nat.or_self _) Fr.rfl) (by decide) h

theorem powerStateSet_canon {x0} {s : State} (h : Canon s) : Canon (powerStateSet x0 s).2 :=
  Canon_keep (powerStateSet_frame (Nat.or_self _) Fr.rfl) (by decide) h

theorem channelAssign_canon {x0} {s : State} (h : Canon s) : Canon (channelAssign x0 s).2 :=
  Canon_keep (channelAssign_frame (Nat.or_self _) Fr.rfl) (by decide) h

theorem devCaps_canon {x0} {s : State} (h : Canon s) : Canon (devCaps x0 s).2 :=
  Canon_keep (devCaps_frame (Nat.or_self _) Fr.rfl) (by decide) h

theorem deviceReset_canon {x0} {s : State} (h : Canon s) : Canon (deviceReset x0 s).2 :=
  Canon_keep (deviceReset_frame (Nat.or_self _) Fr.rfl) (by decide) h

theorem fwActivate_canon {x0} {s : State} (h : Canon s) : Canon (fwActivate x0 s).2 :=
  Canon_keep (fwActivate_frame (Nat.or_self _) Fr.rfl) (by decide) h

theorem fwQuery_canon {x0} {s : State} (h : Canon s) : Canon (fwQuery x0 s).2 :=
  Canon_keep (fwQuery_frame (Nat.or_self _) Fr.rfl) (by decide) h

theorem fwStage_canon {x0} {s : State} (h : Canon s) : Canon (fwStage x0 s).2 :=
  Canon_keep (fwStage_frame (Nat.or_self _) Fr.rfl) (by decide) h

theorem portAddrSet_canon {x0} {s : State} (h : Canon s) : Canon (portAddrSet x0 s).2 :=
  Canon_keep (portAddrSet_frame (Nat.or_self _) Fr.rfl) (by decide) h

theorem carryCheck_canon {x0} {s : State} (h : Canon s) : Canon (State.carryCheck x0 s) :=
  Canon_keep (carryCheck_frame (Nat.or_self _) Fr.rfl) (by decide) h

theorem carryOutcome_canon {x0} {x1} {s : State} (h : Canon s) : Canon (State.carryOutcome x0 x1 s) :=
  Canon_keep (carryOutcome_frame (Nat.or_self _) Fr.rfl) (by decide) h

theorem nextProbe_canon {s : State} (h : Canon s) : Canon (State.nextProbe s) :=
  Canon_keep (nextProbe_frame (Nat.or_self _) Fr.rfl) (by decide) h

theorem powerBoundary_canon {s : State} (h : Canon s) : Canon (State.powerBoundary s) :=
  Canon_keep (powerBoundary_frame (Nat.or_self _) Fr.rfl) (by decide) h

theorem cycle40_canon {s : State} (h : Canon s) : Canon (State.cycle40 s) := by
  unfold State.cycle40
  repeat'
    first
    | with_reducible assumption
    | (intro _)
    | (extract_lets +onlyGivenNames z; refine (fun (hz : Canon z) => ?_) ?_; clear_value z; revert z; intro y hy; rotate_left; dsimp only [z]; clear z)
    | (extract_lets +onlyGivenNames z; clear_value z; revert z; intro y)
    | simp -zeta only [Canon_mk]
    | with_reducible apply powerBoundary_canon
    | with_reducible apply each_canon
    | with_reducible apply startSends_canon
    | with_reducible apply walePass_canon
    | with_reducible apply settlePlaces_canon
    | with_reducible apply markParked_canon
    | with_reducible apply dropPlanless_canon
    | with_reducible apply replayReady_canon
    | with_reducible apply reapJobs_canon
    | with_reducible apply finishQueues_canon
    | with_reducible apply pumpOuts_canon
    | with_reducible apply retryUpdates_canon
    | with_reducible apply retryUnits_canon
    | with_reducible apply retryTune_canon
    | with_reducible apply pumpAll_canon
    | with_reducible apply sendReports_canon
    | with_reducible apply tryCourse_canon
    | with_reducible apply announce_canon
    | with_reducible apply Canon.mem

theorem roundLength_canon {x0} {s : State} (h : Canon s) : Canon (State.roundLength x0 s) :=
  Canon_keep (roundLength_frame (Nat.or_self _) Fr.rfl) (by decide) h

theorem cycle32_canon {x0} {s : State} (h : Canon s) : Canon (State.cycle32 x0 s) :=
  Canon_keep (cycle32_frame (Nat.or_self _) Fr.rfl) (by decide) h

theorem cycle28_canon {s : State} (h : Canon s) : Canon (State.cycle28 s) :=
  Canon_keep (cycle28_frame (Nat.or_self _) Fr.rfl) (by decide) h

theorem cycle24_canon {s : State} (h : Canon s) : Canon (State.cycle24 s) := by
  unfold State.cycle24
  repeat'
    first
    | with_reducible assumption
    | (intro _)
    | (extract_lets +onlyGivenNames z; refine (fun (hz : Canon z) => ?_) ?_; clear_value z; revert z; intro y hy; rotate_left; dsimp only [z]; clear z)
    | with_reducible apply each_canon
    | with_reducible apply closeGens_canon
    | with_reducible apply switchGen_canon
    | with_reducible apply switchImage_canon
    | with_reducible apply publishDue_canon

theorem contexts20_canon {s : State} (h : Canon s) (h2 : Canon s2) : Canon (State.contexts20 s) := by
  unfold State.contexts20
  repeat'
    first
    | with_reducible assumption
    | (intro _)
    | (extract_lets +onlyGivenNames z; refine (fun (hz : Canon z) => ?_) ?_; clear_value z; revert z; intro y hy; rotate_left; dsimp only [z]; clear z)
    | with_reducible apply endFlr_canon
    | with_reducible apply endGrants_canon
    | with_reducible apply each_canon
    | with_reducible apply applyReset_canon
    | with_reducible apply forcedAbort_canon
    | with_reducible apply scrub_canon

theorem demandAll_canon {s : State} (h : Canon s) : Canon (State.demandAll s) :=
  Canon_keep (demandAll_frame (Nat.or_self _) Fr.rfl) (by decide) h

theorem cycle20_canon {s : State} (h : Canon s) : Canon (State.cycle20 s) := by
  unfold State.cycle20
  repeat'
    first
    | with_reducible assumption
    | (intro _)
    | (extract_lets +onlyGivenNames z; refine (fun (hz : Canon z) => ?_) ?_; clear_value z; revert z; intro y hy; rotate_left; dsimp only [z]; clear z)
    | (extract_lets +onlyGivenNames z; clear_value z; revert z; intro y)
    | with_reducible apply sideBoundary_canon
    | with_reducible apply contexts20_canon
    | with_reducible apply each_canon
    | with_reducible apply removeFrames_canon
    | with_reducible apply gensAt20_canon
    | with_reducible apply commonsRefs_canon
    | with_reducible apply applyQuotas_canon
    | with_reducible apply demandAll_canon
    | with_reducible apply nextProbe_canon
    | with_reducible apply prepare_canon
    | with_reducible apply holdCovered_canon
    | with_reducible apply evalDefers_canon
    | with_reducible apply pressAccounts_canon
    | with_reducible apply finishQueues_canon
    | with_reducible apply unholdCourses_canon
    | with_reducible apply startCleaning_canon
    | with_reducible apply placeAll_canon

theorem cycle16_canon {s : State} (h : Canon s) : Canon (State.cycle16 s) :=
  Canon_keep (cycle16_frame (Nat.or_self _) Fr.rfl) (by decide) h

theorem cycle12_canon {s : State} (h : Canon s) : Canon (State.cycle12 s) := by
  unfold State.cycle12
  repeat'
    first
    | with_reducible assumption
    | (extract_lets +onlyGivenNames z; refine (fun (hz : Canon z) => ?_) ?_; clear_value z; revert z; intro y hy; rotate_left; dsimp only [z]; clear z)
    | (extract_lets +onlyGivenNames z; clear_value z; revert z; intro y)
    | simp -zeta only [Canon_mk]
    | with_reducible apply completeAll_canon
    | with_reducible apply commitAll_canon
    | with_reducible apply Canon.mem

theorem frameDecay_canon {s : State} (h : Canon s) : Canon (State.frameDecay s) :=
  Canon_keep (frameDecay_frame (Nat.or_self _) Fr.rfl) (by decide) h

theorem stakeDecay_canon {s : State} (h : Canon s) : Canon (State.stakeDecay s) :=
  Canon_keep (stakeDecay_frame (Nat.or_self _) Fr.rfl) (by decide) h

theorem weaverDecay_canon {s : State} (h : Canon s) : Canon (State.weaverDecay s) :=
  Canon_keep (weaverDecay_frame (Nat.or_self _) Fr.rfl) (by decide) h

theorem roundMessages_canon {s : State} (h : Canon s) : Canon (State.roundMessages s) :=
  Canon_keep (roundMessages_frame (Nat.or_self _) Fr.rfl) (by decide) h

theorem equalise_canon {x0} {x1} {s : State} (h : Canon s) : Canon (State.equalise x0 x1 s) :=
  Canon_keep (equalise_frame (Nat.or_self _) Fr.rfl) (by decide) h

theorem equaliseAll_canon {s : State} (h : Canon s) : Canon (State.equaliseAll s) :=
  Canon_keep (equaliseAll_frame (Nat.or_self _) Fr.rfl) (by decide) h

theorem roundCounts_canon {s : State} (h : Canon s) : Canon (State.roundCounts s) :=
  Canon_keep (roundCounts_frame (Nat.or_self _) Fr.rfl) (by decide) h

theorem expireJobs_canon {s : State} (h : Canon s) : Canon (State.expireJobs s) := by
  unfold State.expireJobs
  repeat'
    first
    | with_reducible assumption
    | (intro _)
    | (extract_lets +onlyGivenNames z; refine (fun (hz : Canon z) => ?_) ?_; clear_value z; revert z; intro y hy; rotate_left; dsimp only [z]; clear z)
    | (extract_lets +onlyGivenNames z; clear_value z; revert z; intro y)
    | with_reducible apply each_canon
    | with_reducible apply probeTimeout_canon
    | with_reducible apply bucketLate_canon
    | with_reducible apply pieceLost_canon
    | with_reducible apply memberSilence_canon
    | with_reducible apply Canon_ite

theorem expireLimits_canon {s : State} (h : Canon s) : Canon (State.expireLimits s) := by
  unfold State.expireLimits
  repeat'
    first
    | with_reducible assumption
    | (intro _)
    | (extract_lets +onlyGivenNames z; refine (fun (hz : Canon z) => ?_) ?_; clear_value z; revert z; intro y hy; rotate_left; dsimp only [z]; clear z)
    | with_reducible apply each_canon
    | with_reducible apply synTimeout_canon
    | with_reducible apply ulistTimeout_canon
    | with_reducible apply repairTimeout_canon
    | with_reducible apply holdExpires_canon
    | with_reducible apply parkTimeout_canon
    | with_reducible apply cqStall_canon
    | with_reducible apply peerTimeout_canon
    | with_reducible apply expireJobs_canon
    | with_reducible apply probeExpires_canon

theorem tickSource_canon {x0} {s : State} (h : Canon s) : Canon (State.tickSource x0 s) :=
  Canon_keep (tickSource_frame (Nat.or_self _) Fr.rfl) (by decide) h

theorem nextRound_canon {x0} {s : State} (h : Canon s) : Canon (State.nextRound x0 s) :=
  Canon_keep (nextRound_frame (Nat.or_self _) Fr.rfl) (by decide) h

theorem markUndervolt_canon {s : State} (h : Canon s) : Canon (State.markUndervolt s) :=
  Canon_keep (markUndervolt_frame (Nat.or_self _) Fr.rfl) (by decide) h

theorem cycle0_canon {x0} {s : State} (h : Canon s) : Canon (State.cycle0 x0 s) := by
  unfold State.cycle0
  repeat'
    first
    | with_reducible assumption
    | (extract_lets +onlyGivenNames z; refine (fun (hz : Canon z) => ?_) ?_; clear_value z; revert z; intro y hy; rotate_left; dsimp only [z]; clear z)
    | with_reducible apply frameDecay_canon
    | with_reducible apply stakeDecay_canon
    | with_reducible apply weaverDecay_canon
    | with_reducible apply roundMessages_canon
    | with_reducible apply equaliseAll_canon
    | with_reducible apply roundCounts_canon
    | with_reducible apply expireLimits_canon
    | with_reducible apply tickSource_canon
    | with_reducible apply nextRound_canon
    | with_reducible apply markUndervolt_canon
    | with_reducible apply latchTallies_canon

theorem boundary_canon {s : State} (h : Canon s) : Canon (State.boundary s) := by
  unfold State.boundary
  repeat'
    first
    | with_reducible assumption
    | (intro _)
    | with_reducible apply warm_canon
    | with_reducible apply cycle40_canon
    | with_reducible apply cycle32_canon
    | with_reducible apply cycle28_canon
    | with_reducible apply cycle24_canon
    | with_reducible apply cycle20_canon
    | with_reducible apply cycle16_canon
    | with_reducible apply cycle12_canon
    | with_reducible apply cycle0_canon
    | with_reducible apply Canon_ite
    | split

theorem ctxCreate_canon {x0} {s : State} (h : Canon s) : Canon (ctxCreate x0 s).2 :=
  Canon_keep (ctxCreate_frame (Nat.or_self _) Fr.rfl) (by decide) h

theorem ctxQuery_canon {x0} {s : State} (h : Canon s) : Canon (ctxQuery x0 s).2 :=
  Canon_keep (ctxQuery_frame (Nat.or_self _) Fr.rfl) (by decide) h

theorem ctxRemove_canon {x0} {s : State} (h : Canon s) : Canon (ctxRemove x0 s).2 := by
  unfold ctxRemove
  repeat'
    first
    | with_reducible assumption
    | (extract_lets +onlyGivenNames z; clear_value z; revert z; intro y)
    | simp -zeta only [Canon_mk]
    | with_reducible apply checked_canon
    | with_reducible apply startRemoval_canon

theorem ctxReset_canon {x0} {s : State} (h : Canon s) : Canon (ctxReset x0 s).2 :=
  Canon_keep (ctxReset_frame (Nat.or_self _) Fr.rfl) (by decide) h

theorem ctxSet_canon {x0} {s : State} (h : Canon s) : Canon (ctxSet x0 s).2 :=
  Canon_keep (ctxSet_frame (Nat.or_self _) Fr.rfl) (by decide) h

theorem withFetchWord_canon {s : State} {x0} {x1} (h : Canon s) : Canon (State.withFetchWord s x0 x1) :=
  Canon_keep (withFetchWord_frame (Nat.or_self _) Fr.rfl) (by decide) h

theorem attnBody_canon {x0} {s : State} (h : Canon s) : CanonU (attnBody x0 s) := by
  unfold attnBody
  repeat'
    first
    | with_reducible assumption
    | (intro _)
    | (extract_lets +onlyGivenNames z; refine (fun (hz : Canon z.2) => ?_) ?_; clear_value z; revert z; intro y hy; rotate_left; dsimp only [z]; clear z)
    | (extract_lets +onlyGivenNames z; clear_value z; revert z; intro y)
    | with_reducible apply attnGroup_canon
    | with_reducible apply courseRead_canon
    | with_reducible apply CanonU_ite
    | with_reducible exact CanonU_none
    | with_reducible apply CanonU_some
    | with_reducible apply foldl_canon2
    | simp only [MemOk_mk]
    | split

theorem gemvBody_canon {x0} {s : State} (h : Canon s) : CanonU (gemvBody x0 s) := by
  unfold gemvBody
  repeat'
    first
    | with_reducible assumption
    | (intro _)
    | (extract_lets +onlyGivenNames z; refine (fun (hz : Canon z.2) => ?_) ?_; clear_value z; revert z; intro y hy; rotate_left; dsimp only [z]; clear z)
    | (extract_lets +onlyGivenNames z; clear_value z; revert z; intro y)
    | simp -zeta only [Canon_mk]
    | with_reducible apply courseRead_canon
    | with_reducible apply modCell_canon
    | with_reducible apply CanonU_ite
    | with_reducible exact CanonU_none
    | with_reducible apply CanonU_some
    | simp only [MemOk_mk]
    | split

theorem updateBody_canon {x0} {x1} {s : State} (h : Canon s) : CanonU (updateBody x0 x1 s) := by
  unfold updateBody
  repeat'
    first
    | with_reducible assumption
    | (intro _)
    | (extract_lets +onlyGivenNames z; clear_value z; revert z; intro y)
    | with_reducible apply updateRun_canon
    | with_reducible apply CanonU_ite
    | with_reducible exact CanonU_none
    | with_reducible apply CanonU_some
    | split

theorem accBody_canon {x0} {s : State} (h : Canon s) : CanonU (accBody x0 s) := by
  unfold accBody
  repeat'
    first
    | with_reducible assumption
    | (intro _)
    | (extract_lets +onlyGivenNames z; refine (fun (hz : Canon z.2) => ?_) ?_; clear_value z; revert z; intro y hy; rotate_left; dsimp only [z]; clear z)
    | (extract_lets +onlyGivenNames z; clear_value z; revert z; intro y)
    | simp -zeta only [Canon_mk]
    | with_reducible apply courseRead_canon
    | with_reducible apply uWrites_canon
    | with_reducible apply modCourse_canon
    | with_reducible apply Canon_ite2
    | with_reducible apply CanonU_ite
    | with_reducible exact CanonU_none
    | with_reducible apply CanonU_some
    | simp only [MemOk_mk]
    | split

end Sys2Proof.Machine
end

