-- ==== Sys2Proof/Laws/CanonExec.lean ====
section
/-! SUPPORT. Laws of the canonical form: what a command that may write a memory answers as next state keeps it. -/

set_option linter.unusedVariables false
set_option linter.unusedSimpArgs false
set_option linter.tactic.unusedName false

namespace Sys2Proof.Machine

theorem execStwAccepted_canon {x0} {x1} {s : State} (h : Canon s) : CanonX (execStwAccepted x0 x1 s) := by
  unfold execStwAccepted
  refine act_canon ?_
  repeat'
    first
    | with_reducible assumption
    | with_reducible apply storeAccepted_canon

theorem execWeaverRemoveComplete_canon {x0} {s : State} (h : Canon s) : CanonX (execWeaverRemoveComplete x0 s) := by
  unfold execWeaverRemoveComplete
  refine act_canon ?_
  repeat'
    first
    | with_reducible assumption
    | with_reducible apply removeComplete_canon

theorem execWeaverShardFetched_canon {x0} {x1} {s : State} (h : Canon s) : CanonX (execWeaverShardFetched x0 x1 s) := by
  unfold execWeaverShardFetched
  refine act_canon ?_
  repeat'
    first
    | with_reducible assumption
    | with_reducible apply shardFetched_canon

theorem execBuildShardFetched_canon {x0} {x1} {s : State} (h : Canon s) : CanonX (execBuildShardFetched x0 x1 s) := by
  unfold execBuildShardFetched
  refine act_canon ?_
  repeat'
    first
    | with_reducible assumption
    | with_reducible apply shardArrives_canon

theorem execCleaningPassDone_canon {x0} {s : State} (h : Canon s) : CanonX (execCleaningPassDone x0 s) := by
  unfold execCleaningPassDone
  refine act_canon ?_
  repeat'
    first
    | with_reducible assumption
    | with_reducible apply cleanDone_canon

theorem execEvictionDone_canon {x0} {s : State} (h : Canon s) : CanonX (execEvictionDone x0 s) := by
  unfold execEvictionDone
  refine act_canon ?_
  repeat'
    first
    | with_reducible assumption
    | with_reducible apply evictionDone_canon

theorem execFrameFillDone_canon {x0} {s : State} (h : Canon s) : CanonX (execFrameFillDone x0 s) := by
  unfold execFrameFillDone
  refine act_canon ?_
  repeat'
    first
    | with_reducible assumption
    | with_reducible apply fillDone_canon

theorem execFrameZeroDone_canon {x0} {s : State} (h : Canon s) : CanonX (execFrameZeroDone x0 s) := by
  unfold execFrameZeroDone
  refine act_canon ?_
  repeat'
    first
    | with_reducible assumption
    | with_reducible apply zeroDone_canon

theorem execHbmUncorrectable_canon {x0} {x1} {x2} {s : State} (h : Canon s) : CanonX (execHbmUncorrectable x0 x1 x2 s) := by
  unfold execHbmUncorrectable
  refine act_canon ?_
  repeat'
    first
    | with_reducible assumption
    | with_reducible apply lineRead_canon

theorem execPatrolScrub_canon {x0} {x1} {s : State} (h : Canon s) : CanonX (execPatrolScrub x0 x1 s) := by
  unfold execPatrolScrub
  refine act_canon ?_
  repeat'
    first
    | with_reducible assumption
    | with_reducible apply patrol_canon

theorem execPromotionDone_canon {x0} {s : State} (h : Canon s) : CanonX (execPromotionDone x0 s) := by
  unfold execPromotionDone
  refine act_canon ?_
  repeat'
    first
    | with_reducible assumption
    | with_reducible apply promotionDone_canon

theorem execRepairDone_canon {x0} {x1} {x2} {s : State} (h : Canon s) : CanonX (execRepairDone x0 x1 x2 s) := by
  unfold execRepairDone
  refine act_canon ?_
  repeat'
    first
    | with_reducible assumption
    | with_reducible apply repairDone_canon

theorem execApertureAccess_canon {x0} {s : State} (h : Canon s) : CanonX (execApertureAccess x0 s) := by
  unfold execApertureAccess
  refine act_canon ?_
  repeat'
    first
    | with_reducible assumption
    | with_reducible apply aperture_canon

theorem execCopyBurst_canon {x0} {x1} {x2} {s : State} (h : Canon s) : CanonX (execCopyBurst x0 x1 x2 s) := by
  unfold execCopyBurst
  refine act_canon ?_
  repeat'
    first
    | with_reducible assumption
    | with_reducible apply copyBurst_canon

theorem execCourseComplete_canon {x0} {s : State} (h : Canon s) : CanonX (execCourseComplete x0 s) := by
  unfold execCourseComplete
  refine act_canon ?_
  repeat'
    first
    | with_reducible assumption
    | with_reducible apply completeNow_canon

theorem execAcc_canon {x0} {x1} {x2} {s : State} (h : Canon s) : CanonX (execAcc x0 x1 x2 s) := by
  unfold execAcc
  refine act_canon ?_
  repeat'
    first
    | with_reducible assumption
    | (intro _)
    | with_reducible apply uIssue_canon
    | with_reducible apply accBody_canon

theorem execAdamw_canon {x0} {x1} {x2} {s : State} (h : Canon s) : CanonX (execAdamw x0 x1 x2 s) := by
  unfold execAdamw
  refine act_canon ?_
  repeat'
    first
    | with_reducible assumption
    | (intro _)
    | with_reducible apply uIssue_canon
    | with_reducible apply updateBody_canon

theorem execSgdm_canon {x0} {x1} {x2} {s : State} (h : Canon s) : CanonX (execSgdm x0 x1 x2 s) := by
  unfold execSgdm
  refine act_canon ?_
  repeat'
    first
    | with_reducible assumption
    | (intro _)
    | with_reducible apply uIssue_canon
    | with_reducible apply updateBody_canon

theorem execBucketSend_canon {x0} {x1} {s : State} (h : Canon s) : CanonX (execBucketSend x0 x1 s) := by
  unfold execBucketSend
  refine act_canon ?_
  repeat'
    first
    | with_reducible assumption
    | with_reducible apply bucketSend_canon

theorem execLearningStepStart_canon {x0} {s : State} (h : Canon s) : CanonX (execLearningStepStart x0 s) := by
  unfold execLearningStepStart
  refine act_canon ?_
  repeat'
    first
    | with_reducible assumption
    | with_reducible apply learnStep_canon

theorem execMemberSilence_canon {x0} {x1} {s : State} (h : Canon s) : CanonX (execMemberSilence x0 x1 s) := by
  unfold execMemberSilence
  refine act_canon ?_
  repeat'
    first
    | with_reducible assumption
    | with_reducible apply memberSilence_canon

theorem execOwnerReport_canon {x0} {x1} {s : State} (h : Canon s) : CanonX (execOwnerReport x0 x1 s) := by
  unfold execOwnerReport
  refine act_canon ?_
  repeat'
    first
    | with_reducible assumption
    | with_reducible apply leadReport_canon

theorem execPieceLost_canon {x0} {x1} {x2} {s : State} (h : Canon s) : CanonX (execPieceLost x0 x1 x2 s) := by
  unfold execPieceLost
  refine act_canon ?_
  repeat'
    first
    | with_reducible assumption
    | with_reducible apply pieceLost_canon

theorem execPublishApply_canon {x0} {s : State} (h : Canon s) : CanonX (execPublishApply x0 s) := by
  unfold execPublishApply
  refine act_canon ?_
  repeat'
    first
    | with_reducible assumption
    | (intro _)
    | with_reducible apply applyPublish_canon
    | with_reducible apply Canon_ite

theorem execRingContrib_canon {x0} {x1} {s : State} (h : Canon s) : CanonX (execRingContrib x0 x1 s) := by
  unfold execRingContrib
  refine act_canon ?_
  repeat'
    first
    | with_reducible assumption
    | with_reducible apply ringContrib_canon

theorem execStepLedger_canon {x0} {x1} {s : State} (h : Canon s) : CanonX (execStepLedger x0 x1 s) := by
  unfold execStepLedger
  refine act_canon ?_
  repeat'
    first
    | with_reducible assumption
    | with_reducible apply stepLedger_canon

theorem execTwineBounce_canon {x0} {x1} {s : State} (h : Canon s) : CanonX (execTwineBounce x0 x1 s) := by
  unfold execTwineBounce
  refine act_canon ?_
  repeat'
    first
    | with_reducible assumption
    | with_reducible apply twineBounce_canon

theorem execTwineResult_canon {x0} {x1} {s : State} (h : Canon s) : CanonX (execTwineResult x0 x1 s) := by
  unfold execTwineResult
  refine act_canon ?_
  repeat'
    first
    | with_reducible assumption
    | with_reducible apply twineResult_canon

theorem execVerdict_canon {x0} {x1} {s : State} (h : Canon s) : CanonX (execVerdict x0 x1 s) := by
  unfold execVerdict
  refine act_canon ?_
  repeat'
    first
    | with_reducible assumption
    | with_reducible apply verdict_canon

theorem execWorkingCopyShard_canon {x0} {x1} {x2} {x3} {s : State} (h : Canon s) : CanonX (execWorkingCopyShard x0 x1 x2 x3 s) := by
  unfold execWorkingCopyShard
  refine act_canon ?_
  repeat'
    first
    | with_reducible assumption
    | with_reducible apply shardIn_canon

theorem execTrainJobStart_canon {x0} {s : State} (h : Canon s) : CanonX (execTrainJobStart x0 s) := by
  unfold execTrainJobStart
  refine act_canon ?_
  repeat'
    first
    | with_reducible assumption
    | (intro _)
    | with_reducible apply command_canon
    | with_reducible apply jobStart_canon

theorem execTrainJobStop_canon {x0} {s : State} (h : Canon s) : CanonX (execTrainJobStop x0 s) := by
  unfold execTrainJobStop
  refine act_canon ?_
  repeat'
    first
    | with_reducible assumption
    | (intro _)
    | with_reducible apply command_canon
    | with_reducible apply jobStop_canon

theorem execRocePacket_canon {x0} {x1} {s : State} (h : Canon s) : CanonX (execRocePacket x0 x1 s) := by
  unfold execRocePacket
  refine act_canon ?_
  repeat'
    first
    | with_reducible assumption
    | with_reducible apply rocePacket_canon

theorem execWeaverRemove_canon {x0} {s : State} (h : Canon s) : CanonX (execWeaverRemove x0 s) := by
  unfold execWeaverRemove
  refine act_canon ?_
  repeat'
    first
    | with_reducible assumption
    | (intro _)
    | with_reducible apply command_canon
    | with_reducible apply weaverRemove_canon

theorem execContextScrubDone_canon {x0} {s : State} (h : Canon s) : CanonX (execContextScrubDone x0 s) := by
  unfold execContextScrubDone
  refine act_canon ?_
  repeat'
    first
    | with_reducible assumption
    | with_reducible apply scrubDone_canon

theorem execFlr_canon {x0} {s : State} (h : Canon s) : CanonX (execFlr x0 s) := by
  unfold execFlr
  refine act_canon ?_
  repeat'
    first
    | with_reducible assumption
    | with_reducible apply flr_canon

theorem execCellSaveDone_canon {x0} {s : State} (h : Canon s) : CanonX (execCellSaveDone x0 s) := by
  unfold execCellSaveDone
  refine act_canon ?_
  repeat'
    first
    | with_reducible assumption
    | with_reducible apply cellSaved_canon

theorem execSpareLoadDone_canon {x0} {s : State} (h : Canon s) : CanonX (execSpareLoadDone x0 s) := by
  unfold execSpareLoadDone
  refine act_canon ?_
  repeat'
    first
    | with_reducible assumption
    | with_reducible apply spareLoaded_canon

theorem execBlockRelease_canon {s : State} (h : Canon s) : CanonX (execBlockRelease s) := by
  unfold execBlockRelease
  refine act_canon ?_
  repeat'
    first
    | with_reducible assumption
    | with_reducible apply blockRelease_canon

theorem execD3coldEntry_canon {s : State} (h : Canon s) : CanonX (execD3coldEntry s) := by
  unfold execD3coldEntry
  refine act_canon ?_
  repeat'
    first
    | with_reducible assumption
    | with_reducible apply d3cold_canon

theorem execD3coldWindowExpiry_canon {x0} {s : State} (h : Canon s) : CanonX (execD3coldWindowExpiry x0 s) := by
  unfold execD3coldWindowExpiry
  refine act_canon ?_
  repeat'
    first
    | with_reducible assumption
    | with_reducible apply windowExpires_canon

theorem execLidReset_canon {x0} {s : State} (h : Canon s) : CanonX (execLidReset x0 s) := by
  unfold execLidReset
  refine act_canon ?_
  repeat'
    first
    | with_reducible assumption
    | with_reducible apply lidReset_canon

theorem execMainPowerReturn_canon {s : State} (h : Canon s) : CanonX (execMainPowerReturn s) := by
  unfold execMainPowerReturn
  refine act_canon ?_
  repeat'
    first
    | with_reducible assumption
    | with_reducible apply powerReturns_canon

theorem execPcieHotReset_canon {s : State} (h : Canon s) : CanonX (execPcieHotReset s) := by
  unfold execPcieHotReset
  refine act_canon ?_
  repeat'
    first
    | with_reducible assumption
    | with_reducible apply warm_canon

theorem execPerstAssert_canon {s : State} (h : Canon s) : CanonX (execPerstAssert s) := by
  unfold execPerstAssert
  refine act_canon ?_
  repeat'
    first
    | with_reducible assumption
    | with_reducible apply perstAssert_canon

theorem execPwrokCycle_canon {s : State} (h : Canon s) : CanonX (execPwrokCycle s) := by
  unfold execPwrokCycle
  refine act_canon ?_
  repeat'
    first
    | with_reducible assumption
    | with_reducible apply cold_canon

theorem execRailUvReset_canon {x0} {s : State} (h : Canon s) : CanonX (execRailUvReset x0 s) := by
  unfold execRailUvReset
  refine act_canon ?_
  repeat'
    first
    | with_reducible assumption
    | with_reducible apply railCrosses_canon

theorem execVaonPowerOn_canon {s : State} (h : Canon s) : CanonX (execVaonPowerOn s) := by
  unfold execVaonPowerOn
  refine act_canon ?_
  repeat'
    first
    | with_reducible assumption
    | with_reducible apply cold_canon

theorem execWarmReset_canon {x0} {s : State} (h : Canon s) : CanonX (execWarmReset x0 s) := by
  unfold execWarmReset
  refine act_canon ?_
  repeat'
    first
    | with_reducible assumption
    | with_reducible apply warmReset_canon

theorem execFabricFailed_canon {x0} {x1} {s : State} (h : Canon s) : CanonX (execFabricFailed x0 x1 s) := by
  unfold execFabricFailed
  refine act_canon ?_
  repeat'
    first
    | with_reducible assumption
    | with_reducible apply fabricFails_canon

theorem execLidSelfCheckFail_canon {s : State} (h : Canon s) : CanonX (execLidSelfCheckFail s) := by
  unfold execLidSelfCheckFail
  refine act_canon ?_
  repeat'
    first
    | with_reducible assumption
    | with_reducible apply lidReset_canon

theorem execLinkRetrainDone_canon {x0} {x1} {x2} {s : State} (h : Canon s) : CanonX (execLinkRetrainDone x0 x1 x2 s) := by
  unfold execLinkRetrainDone
  refine act_canon ?_
  repeat'
    first
    | with_reducible assumption
    | with_reducible apply retrainDone_canon

theorem execSramUncorrectable_canon {x0} {x1} {s : State} (h : Canon s) : CanonX (execSramUncorrectable x0 x1 s) := by
  unfold execSramUncorrectable
  refine act_canon ?_
  repeat'
    first
    | with_reducible assumption
    | with_reducible apply sramFails_canon

theorem execShelfEntry_canon {s : State} (h : Canon s) : CanonX (execShelfEntry s) := by
  unfold execShelfEntry
  refine act_canon ?_
  repeat'
    first
    | with_reducible assumption
    | with_reducible apply shelfEntry_canon

theorem execThermalTrip_canon {x0} {x1} {s : State} (h : Canon s) : CanonX (execThermalTrip x0 x1 s) := by
  unfold execThermalTrip
  refine act_canon ?_
  repeat'
    first
    | with_reducible assumption
    | with_reducible apply trip_canon

theorem execKeyRevoke_canon {x0} {x1} {s : State} (h : Canon s) : CanonX (execKeyRevoke x0 x1 s) := by
  unfold execKeyRevoke
  refine act_canon ?_
  repeat'
    first
    | with_reducible assumption
    | with_reducible apply keyRevoke_canon

theorem execOperatorSet_canon {x0} {x1} {s : State} (h : Canon s) : CanonX (execOperatorSet x0 x1 s) := by
  unfold execOperatorSet
  refine act_canon ?_
  repeat'
    first
    | with_reducible assumption
    | with_reducible apply operatorSet_canon

theorem execJournalRead_canon {x0} {s : State} (h : Canon s) : CanonX (execJournalRead x0 s) := by
  unfold execJournalRead
  refine act_canon ?_
  repeat'
    first
    | with_reducible assumption
    | with_reducible apply journalCommand_canon

theorem execRoundTick_canon {s : State} (h : Canon s) : CanonX (execRoundTick s) := by
  unfold execRoundTick
  refine act_canon ?_
  repeat'
    first
    | with_reducible assumption
    | with_reducible apply boundary_canon

theorem execCtxRemove_canon {x0} {s : State} (h : Canon s) : CanonX (execCtxRemove x0 s) := by
  unfold execCtxRemove
  refine act_canon ?_
  repeat'
    first
    | with_reducible assumption
    | (intro _)
    | with_reducible apply command_canon
    | with_reducible apply ctxRemove_canon

end Sys2Proof.Machine
end

