-- ==== Sys2Proof/Laws/State.lean ====
section
/-! SUPPORT. Laws of the state: what each update of a part by key leaves alone and how it is read back. -/

namespace Sys2Proof.Machine

variable (s : State) (k : Nat)

/-! ### modCell -/

@[simp] theorem modCell_variant (f : Cell → Cell) : (s.modCell k f).variant = s.variant := rfl
@[simp] theorem modCell_pending (f : Cell → Cell) : (s.modCell k f).pending = s.pending := rfl
@[simp] theorem modCell_free (f : Cell → Cell) : (s.modCell k f).free = s.free := rfl
@[simp] theorem modCell_out (f : Cell → Cell) : (s.modCell k f).out = s.out := rfl
@[simp] theorem modCell_latch (f : Cell → Cell) : (s.modCell k f).latch = s.latch := rfl
@[simp] theorem modCell_rsvdAcc (f : Cell → Cell) : (s.modCell k f).rsvdAcc = s.rsvdAcc := rfl
@[simp] theorem modCell_rnd (f : Cell → Cell) : (s.modCell k f).rnd = s.rnd := rfl
@[simp] theorem modCell_bud (f : Cell → Cell) : (s.modCell k f).bud = s.bud := rfl
@[simp] theorem modCell_ups (f : Cell → Cell) : (s.modCell k f).ups = s.ups := rfl
@[simp] theorem modCell_crs (f : Cell → Cell) : (s.modCell k f).crs = s.crs := rfl
@[simp] theorem modCell_weav (f : Cell → Cell) : (s.modCell k f).weav = s.weav := rfl
@[simp] theorem modCell_stakes (f : Cell → Cell) : (s.modCell k f).stakes = s.stakes := rfl
@[simp] theorem modCell_mem (f : Cell → Cell) : (s.modCell k f).mem = s.mem := rfl
@[simp] theorem modCell_msd (f : Cell → Cell) : (s.modCell k f).msd = s.msd := rfl
@[simp] theorem modCell_train (f : Cell → Cell) : (s.modCell k f).train = s.train := rfl
@[simp] theorem modCell_ports (f : Cell → Cell) : (s.modCell k f).ports = s.ports := rfl
@[simp] theorem modCell_straps (f : Cell → Cell) : (s.modCell k f).straps = s.straps := rfl
@[simp] theorem modCell_txHeld (f : Cell → Cell) : (s.modCell k f).txHeld = s.txHeld := rfl
@[simp] theorem modCell_cxl (f : Cell → Cell) : (s.modCell k f).cxl = s.cxl := rfl
@[simp] theorem modCell_hoop (f : Cell → Cell) : (s.modCell k f).hoop = s.hoop := rfl
@[simp] theorem modCell_host (f : Cell → Cell) : (s.modCell k f).host = s.host := rfl
@[simp] theorem modCell_mb (f : Cell → Cell) : (s.modCell k f).mb = s.mb := rfl
@[simp] theorem modCell_ctxs (f : Cell → Cell) : (s.modCell k f).ctxs = s.ctxs := rfl
@[simp] theorem modCell_lid (f : Cell → Cell) : (s.modCell k f).lid = s.lid := rfl
@[simp] theorem modCell_flt (f : Cell → Cell) : (s.modCell k f).flt = s.flt := rfl
@[simp] theorem modCell_pwr (f : Cell → Cell) : (s.modCell k f).pwr = s.pwr := rfl
@[simp] theorem modCell_rst (f : Cell → Cell) : (s.modCell k f).rst = s.rst := rfl
@[simp] theorem modCell_fw (f : Cell → Cell) : (s.modCell k f).fw = s.fw := rfl
@[simp] theorem modCell_read (f : Cell → Cell) : (s.modCell k f).cell k = f (s.cell k) := look_adj_eq _ _ _ _
theorem modCell_read_ne (f : Cell → Cell) {j : Nat} (h : j ≠ k) : (s.modCell k f).cell j = s.cell j := look_adj_ne _ _ _ h

/-! ### modCtx -/

@[simp] theorem modCtx_variant (f : Ctx → Ctx) : (s.modCtx k f).variant = s.variant := rfl
@[simp] theorem modCtx_pending (f : Ctx → Ctx) : (s.modCtx k f).pending = s.pending := rfl
@[simp] theorem modCtx_free (f : Ctx → Ctx) : (s.modCtx k f).free = s.free := rfl
@[simp] theorem modCtx_out (f : Ctx → Ctx) : (s.modCtx k f).out = s.out := rfl
@[simp] theorem modCtx_latch (f : Ctx → Ctx) : (s.modCtx k f).latch = s.latch := rfl
@[simp] theorem modCtx_rsvdAcc (f : Ctx → Ctx) : (s.modCtx k f).rsvdAcc = s.rsvdAcc := rfl
@[simp] theorem modCtx_rnd (f : Ctx → Ctx) : (s.modCtx k f).rnd = s.rnd := rfl
@[simp] theorem modCtx_bud (f : Ctx → Ctx) : (s.modCtx k f).bud = s.bud := rfl
@[simp] theorem modCtx_cells (f : Ctx → Ctx) : (s.modCtx k f).cells = s.cells := rfl
@[simp] theorem modCtx_ups (f : Ctx → Ctx) : (s.modCtx k f).ups = s.ups := rfl
@[simp] theorem modCtx_crs (f : Ctx → Ctx) : (s.modCtx k f).crs = s.crs := rfl
@[simp] theorem modCtx_weav (f : Ctx → Ctx) : (s.modCtx k f).weav = s.weav := rfl
@[simp] theorem modCtx_stakes (f : Ctx → Ctx) : (s.modCtx k f).stakes = s.stakes := rfl
@[simp] theorem modCtx_mem (f : Ctx → Ctx) : (s.modCtx k f).mem = s.mem := rfl
@[simp] theorem modCtx_msd (f : Ctx → Ctx) : (s.modCtx k f).msd = s.msd := rfl
@[simp] theorem modCtx_train (f : Ctx → Ctx) : (s.modCtx k f).train = s.train := rfl
@[simp] theorem modCtx_ports (f : Ctx → Ctx) : (s.modCtx k f).ports = s.ports := rfl
@[simp] theorem modCtx_straps (f : Ctx → Ctx) : (s.modCtx k f).straps = s.straps := rfl
@[simp] theorem modCtx_txHeld (f : Ctx → Ctx) : (s.modCtx k f).txHeld = s.txHeld := rfl
@[simp] theorem modCtx_cxl (f : Ctx → Ctx) : (s.modCtx k f).cxl = s.cxl := rfl
@[simp] theorem modCtx_hoop (f : Ctx → Ctx) : (s.modCtx k f).hoop = s.hoop := rfl
@[simp] theorem modCtx_host (f : Ctx → Ctx) : (s.modCtx k f).host = s.host := rfl
@[simp] theorem modCtx_mb (f : Ctx → Ctx) : (s.modCtx k f).mb = s.mb := rfl
@[simp] theorem modCtx_lid (f : Ctx → Ctx) : (s.modCtx k f).lid = s.lid := rfl
@[simp] theorem modCtx_flt (f : Ctx → Ctx) : (s.modCtx k f).flt = s.flt := rfl
@[simp] theorem modCtx_pwr (f : Ctx → Ctx) : (s.modCtx k f).pwr = s.pwr := rfl
@[simp] theorem modCtx_rst (f : Ctx → Ctx) : (s.modCtx k f).rst = s.rst := rfl
@[simp] theorem modCtx_fw (f : Ctx → Ctx) : (s.modCtx k f).fw = s.fw := rfl
@[simp] theorem modCtx_read (f : Ctx → Ctx) : (s.modCtx k f).ctx k = f (s.ctx k) := look_adj_eq _ _ _ _
theorem modCtx_read_ne (f : Ctx → Ctx) {j : Nat} (h : j ≠ k) : (s.modCtx k f).ctx j = s.ctx j := look_adj_ne _ _ _ h

/-! ### modWeaver -/

@[simp] theorem modWeaver_variant (f : Weaver → Weaver) : (s.modWeaver k f).variant = s.variant := rfl
@[simp] theorem modWeaver_pending (f : Weaver → Weaver) : (s.modWeaver k f).pending = s.pending := rfl
@[simp] theorem modWeaver_free (f : Weaver → Weaver) : (s.modWeaver k f).free = s.free := rfl
@[simp] theorem modWeaver_out (f : Weaver → Weaver) : (s.modWeaver k f).out = s.out := rfl
@[simp] theorem modWeaver_latch (f : Weaver → Weaver) : (s.modWeaver k f).latch = s.latch := rfl
@[simp] theorem modWeaver_rsvdAcc (f : Weaver → Weaver) : (s.modWeaver k f).rsvdAcc = s.rsvdAcc := rfl
@[simp] theorem modWeaver_rnd (f : Weaver → Weaver) : (s.modWeaver k f).rnd = s.rnd := rfl
@[simp] theorem modWeaver_bud (f : Weaver → Weaver) : (s.modWeaver k f).bud = s.bud := rfl
@[simp] theorem modWeaver_cells (f : Weaver → Weaver) : (s.modWeaver k f).cells = s.cells := rfl
@[simp] theorem modWeaver_ups (f : Weaver → Weaver) : (s.modWeaver k f).ups = s.ups := rfl
@[simp] theorem modWeaver_crs (f : Weaver → Weaver) : (s.modWeaver k f).crs = s.crs := rfl
@[simp] theorem modWeaver_stakes (f : Weaver → Weaver) : (s.modWeaver k f).stakes = s.stakes := rfl
@[simp] theorem modWeaver_mem (f : Weaver → Weaver) : (s.modWeaver k f).mem = s.mem := rfl
@[simp] theorem modWeaver_msd (f : Weaver → Weaver) : (s.modWeaver k f).msd = s.msd := rfl
@[simp] theorem modWeaver_train (f : Weaver → Weaver) : (s.modWeaver k f).train = s.train := rfl
@[simp] theorem modWeaver_ports (f : Weaver → Weaver) : (s.modWeaver k f).ports = s.ports := rfl
@[simp] theorem modWeaver_straps (f : Weaver → Weaver) : (s.modWeaver k f).straps = s.straps := rfl
@[simp] theorem modWeaver_txHeld (f : Weaver → Weaver) : (s.modWeaver k f).txHeld = s.txHeld := rfl
@[simp] theorem modWeaver_cxl (f : Weaver → Weaver) : (s.modWeaver k f).cxl = s.cxl := rfl
@[simp] theorem modWeaver_hoop (f : Weaver → Weaver) : (s.modWeaver k f).hoop = s.hoop := rfl
@[simp] theorem modWeaver_host (f : Weaver → Weaver) : (s.modWeaver k f).host = s.host := rfl
@[simp] theorem modWeaver_mb (f : Weaver → Weaver) : (s.modWeaver k f).mb = s.mb := rfl
@[simp] theorem modWeaver_ctxs (f : Weaver → Weaver) : (s.modWeaver k f).ctxs = s.ctxs := rfl
@[simp] theorem modWeaver_lid (f : Weaver → Weaver) : (s.modWeaver k f).lid = s.lid := rfl
@[simp] theorem modWeaver_flt (f : Weaver → Weaver) : (s.modWeaver k f).flt = s.flt := rfl
@[simp] theorem modWeaver_pwr (f : Weaver → Weaver) : (s.modWeaver k f).pwr = s.pwr := rfl
@[simp] theorem modWeaver_rst (f : Weaver → Weaver) : (s.modWeaver k f).rst = s.rst := rfl
@[simp] theorem modWeaver_fw (f : Weaver → Weaver) : (s.modWeaver k f).fw = s.fw := rfl
@[simp] theorem modWeaver_read (f : Weaver → Weaver) : (s.modWeaver k f).weaver k = f (s.weaver k) := look_adj_eq _ _ _ _
theorem modWeaver_read_ne (f : Weaver → Weaver) {j : Nat} (h : j ≠ k) : (s.modWeaver k f).weaver j = s.weaver j := look_adj_ne _ _ _ h

/-! ### modSide -/

@[simp] theorem modSide_variant (f : SideSlot → SideSlot) : (s.modSide k f).variant = s.variant := rfl
@[simp] theorem modSide_pending (f : SideSlot → SideSlot) : (s.modSide k f).pending = s.pending := rfl
@[simp] theorem modSide_free (f : SideSlot → SideSlot) : (s.modSide k f).free = s.free := rfl
@[simp] theorem modSide_out (f : SideSlot → SideSlot) : (s.modSide k f).out = s.out := rfl
@[simp] theorem modSide_latch (f : SideSlot → SideSlot) : (s.modSide k f).latch = s.latch := rfl
@[simp] theorem modSide_rsvdAcc (f : SideSlot → SideSlot) : (s.modSide k f).rsvdAcc = s.rsvdAcc := rfl
@[simp] theorem modSide_rnd (f : SideSlot → SideSlot) : (s.modSide k f).rnd = s.rnd := rfl
@[simp] theorem modSide_bud (f : SideSlot → SideSlot) : (s.modSide k f).bud = s.bud := rfl
@[simp] theorem modSide_cells (f : SideSlot → SideSlot) : (s.modSide k f).cells = s.cells := rfl
@[simp] theorem modSide_ups (f : SideSlot → SideSlot) : (s.modSide k f).ups = s.ups := rfl
@[simp] theorem modSide_crs (f : SideSlot → SideSlot) : (s.modSide k f).crs = s.crs := rfl
@[simp] theorem modSide_stakes (f : SideSlot → SideSlot) : (s.modSide k f).stakes = s.stakes := rfl
@[simp] theorem modSide_mem (f : SideSlot → SideSlot) : (s.modSide k f).mem = s.mem := rfl
@[simp] theorem modSide_msd (f : SideSlot → SideSlot) : (s.modSide k f).msd = s.msd := rfl
@[simp] theorem modSide_train (f : SideSlot → SideSlot) : (s.modSide k f).train = s.train := rfl
@[simp] theorem modSide_ports (f : SideSlot → SideSlot) : (s.modSide k f).ports = s.ports := rfl
@[simp] theorem modSide_straps (f : SideSlot → SideSlot) : (s.modSide k f).straps = s.straps := rfl
@[simp] theorem modSide_txHeld (f : SideSlot → SideSlot) : (s.modSide k f).txHeld = s.txHeld := rfl
@[simp] theorem modSide_cxl (f : SideSlot → SideSlot) : (s.modSide k f).cxl = s.cxl := rfl
@[simp] theorem modSide_hoop (f : SideSlot → SideSlot) : (s.modSide k f).hoop = s.hoop := rfl
@[simp] theorem modSide_host (f : SideSlot → SideSlot) : (s.modSide k f).host = s.host := rfl
@[simp] theorem modSide_mb (f : SideSlot → SideSlot) : (s.modSide k f).mb = s.mb := rfl
@[simp] theorem modSide_ctxs (f : SideSlot → SideSlot) : (s.modSide k f).ctxs = s.ctxs := rfl
@[simp] theorem modSide_lid (f : SideSlot → SideSlot) : (s.modSide k f).lid = s.lid := rfl
@[simp] theorem modSide_flt (f : SideSlot → SideSlot) : (s.modSide k f).flt = s.flt := rfl
@[simp] theorem modSide_pwr (f : SideSlot → SideSlot) : (s.modSide k f).pwr = s.pwr := rfl
@[simp] theorem modSide_rst (f : SideSlot → SideSlot) : (s.modSide k f).rst = s.rst := rfl
@[simp] theorem modSide_fw (f : SideSlot → SideSlot) : (s.modSide k f).fw = s.fw := rfl
@[simp] theorem modSide_read (f : SideSlot → SideSlot) : (s.modSide k f).side k = f (s.side k) := look_adj_eq _ _ _ _
theorem modSide_read_ne (f : SideSlot → SideSlot) {j : Nat} (h : j ≠ k) : (s.modSide k f).side j = s.side j := look_adj_ne _ _ _ h

/-! ### modSession -/

@[simp] theorem modSession_variant (f : Session → Session) : (s.modSession k f).variant = s.variant := rfl
@[simp] theorem modSession_pending (f : Session → Session) : (s.modSession k f).pending = s.pending := rfl
@[simp] theorem modSession_free (f : Session → Session) : (s.modSession k f).free = s.free := rfl
@[simp] theorem modSession_out (f : Session → Session) : (s.modSession k f).out = s.out := rfl
@[simp] theorem modSession_latch (f : Session → Session) : (s.modSession k f).latch = s.latch := rfl
@[simp] theorem modSession_rsvdAcc (f : Session → Session) : (s.modSession k f).rsvdAcc = s.rsvdAcc := rfl
@[simp] theorem modSession_rnd (f : Session → Session) : (s.modSession k f).rnd = s.rnd := rfl
@[simp] theorem modSession_bud (f : Session → Session) : (s.modSession k f).bud = s.bud := rfl
@[simp] theorem modSession_cells (f : Session → Session) : (s.modSession k f).cells = s.cells := rfl
@[simp] theorem modSession_ups (f : Session → Session) : (s.modSession k f).ups = s.ups := rfl
@[simp] theorem modSession_crs (f : Session → Session) : (s.modSession k f).crs = s.crs := rfl
@[simp] theorem modSession_stakes (f : Session → Session) : (s.modSession k f).stakes = s.stakes := rfl
@[simp] theorem modSession_mem (f : Session → Session) : (s.modSession k f).mem = s.mem := rfl
@[simp] theorem modSession_msd (f : Session → Session) : (s.modSession k f).msd = s.msd := rfl
@[simp] theorem modSession_train (f : Session → Session) : (s.modSession k f).train = s.train := rfl
@[simp] theorem modSession_ports (f : Session → Session) : (s.modSession k f).ports = s.ports := rfl
@[simp] theorem modSession_straps (f : Session → Session) : (s.modSession k f).straps = s.straps := rfl
@[simp] theorem modSession_txHeld (f : Session → Session) : (s.modSession k f).txHeld = s.txHeld := rfl
@[simp] theorem modSession_cxl (f : Session → Session) : (s.modSession k f).cxl = s.cxl := rfl
@[simp] theorem modSession_hoop (f : Session → Session) : (s.modSession k f).hoop = s.hoop := rfl
@[simp] theorem modSession_host (f : Session → Session) : (s.modSession k f).host = s.host := rfl
@[simp] theorem modSession_mb (f : Session → Session) : (s.modSession k f).mb = s.mb := rfl
@[simp] theorem modSession_ctxs (f : Session → Session) : (s.modSession k f).ctxs = s.ctxs := rfl
@[simp] theorem modSession_lid (f : Session → Session) : (s.modSession k f).lid = s.lid := rfl
@[simp] theorem modSession_flt (f : Session → Session) : (s.modSession k f).flt = s.flt := rfl
@[simp] theorem modSession_pwr (f : Session → Session) : (s.modSession k f).pwr = s.pwr := rfl
@[simp] theorem modSession_rst (f : Session → Session) : (s.modSession k f).rst = s.rst := rfl
@[simp] theorem modSession_fw (f : Session → Session) : (s.modSession k f).fw = s.fw := rfl
@[simp] theorem modSession_read (f : Session → Session) : (s.modSession k f).session k = f (s.session k) := look_adj_eq _ _ _ _
theorem modSession_read_ne (f : Session → Session) {j : Nat} (h : j ≠ k) : (s.modSession k f).session j = s.session j := look_adj_ne _ _ _ h

/-! ### modStake -/

@[simp] theorem modStake_variant (f : Stake → Stake) : (s.modStake k f).variant = s.variant := rfl
@[simp] theorem modStake_pending (f : Stake → Stake) : (s.modStake k f).pending = s.pending := rfl
@[simp] theorem modStake_free (f : Stake → Stake) : (s.modStake k f).free = s.free := rfl
@[simp] theorem modStake_out (f : Stake → Stake) : (s.modStake k f).out = s.out := rfl
@[simp] theorem modStake_latch (f : Stake → Stake) : (s.modStake k f).latch = s.latch := rfl
@[simp] theorem modStake_rsvdAcc (f : Stake → Stake) : (s.modStake k f).rsvdAcc = s.rsvdAcc := rfl
@[simp] theorem modStake_rnd (f : Stake → Stake) : (s.modStake k f).rnd = s.rnd := rfl
@[simp] theorem modStake_bud (f : Stake → Stake) : (s.modStake k f).bud = s.bud := rfl
@[simp] theorem modStake_cells (f : Stake → Stake) : (s.modStake k f).cells = s.cells := rfl
@[simp] theorem modStake_ups (f : Stake → Stake) : (s.modStake k f).ups = s.ups := rfl
@[simp] theorem modStake_crs (f : Stake → Stake) : (s.modStake k f).crs = s.crs := rfl
@[simp] theorem modStake_weav (f : Stake → Stake) : (s.modStake k f).weav = s.weav := rfl
@[simp] theorem modStake_mem (f : Stake → Stake) : (s.modStake k f).mem = s.mem := rfl
@[simp] theorem modStake_msd (f : Stake → Stake) : (s.modStake k f).msd = s.msd := rfl
@[simp] theorem modStake_train (f : Stake → Stake) : (s.modStake k f).train = s.train := rfl
@[simp] theorem modStake_ports (f : Stake → Stake) : (s.modStake k f).ports = s.ports := rfl
@[simp] theorem modStake_straps (f : Stake → Stake) : (s.modStake k f).straps = s.straps := rfl
@[simp] theorem modStake_txHeld (f : Stake → Stake) : (s.modStake k f).txHeld = s.txHeld := rfl
@[simp] theorem modStake_cxl (f : Stake → Stake) : (s.modStake k f).cxl = s.cxl := rfl
@[simp] theorem modStake_hoop (f : Stake → Stake) : (s.modStake k f).hoop = s.hoop := rfl
@[simp] theorem modStake_host (f : Stake → Stake) : (s.modStake k f).host = s.host := rfl
@[simp] theorem modStake_mb (f : Stake → Stake) : (s.modStake k f).mb = s.mb := rfl
@[simp] theorem modStake_ctxs (f : Stake → Stake) : (s.modStake k f).ctxs = s.ctxs := rfl
@[simp] theorem modStake_lid (f : Stake → Stake) : (s.modStake k f).lid = s.lid := rfl
@[simp] theorem modStake_flt (f : Stake → Stake) : (s.modStake k f).flt = s.flt := rfl
@[simp] theorem modStake_pwr (f : Stake → Stake) : (s.modStake k f).pwr = s.pwr := rfl
@[simp] theorem modStake_rst (f : Stake → Stake) : (s.modStake k f).rst = s.rst := rfl
@[simp] theorem modStake_fw (f : Stake → Stake) : (s.modStake k f).fw = s.fw := rfl
@[simp] theorem modStake_read (f : Stake → Stake) : (s.modStake k f).stake k = f (s.stake k) := look_adj_eq _ _ _ _
theorem modStake_read_ne (f : Stake → Stake) {j : Nat} (h : j ≠ k) : (s.modStake k f).stake j = s.stake j := look_adj_ne _ _ _ h

/-! ### modFrame -/

@[simp] theorem modFrame_variant (f : FrameE → FrameE) : (s.modFrame k f).variant = s.variant := rfl
@[simp] theorem modFrame_pending (f : FrameE → FrameE) : (s.modFrame k f).pending = s.pending := rfl
@[simp] theorem modFrame_free (f : FrameE → FrameE) : (s.modFrame k f).free = s.free := rfl
@[simp] theorem modFrame_out (f : FrameE → FrameE) : (s.modFrame k f).out = s.out := rfl
@[simp] theorem modFrame_latch (f : FrameE → FrameE) : (s.modFrame k f).latch = s.latch := rfl
@[simp] theorem modFrame_rsvdAcc (f : FrameE → FrameE) : (s.modFrame k f).rsvdAcc = s.rsvdAcc := rfl
@[simp] theorem modFrame_rnd (f : FrameE → FrameE) : (s.modFrame k f).rnd = s.rnd := rfl
@[simp] theorem modFrame_bud (f : FrameE → FrameE) : (s.modFrame k f).bud = s.bud := rfl
@[simp] theorem modFrame_cells (f : FrameE → FrameE) : (s.modFrame k f).cells = s.cells := rfl
@[simp] theorem modFrame_ups (f : FrameE → FrameE) : (s.modFrame k f).ups = s.ups := rfl
@[simp] theorem modFrame_crs (f : FrameE → FrameE) : (s.modFrame k f).crs = s.crs := rfl
@[simp] theorem modFrame_weav (f : FrameE → FrameE) : (s.modFrame k f).weav = s.weav := rfl
@[simp] theorem modFrame_stakes (f : FrameE → FrameE) : (s.modFrame k f).stakes = s.stakes := rfl
@[simp] theorem modFrame_msd (f : FrameE → FrameE) : (s.modFrame k f).msd = s.msd := rfl
@[simp] theorem modFrame_train (f : FrameE → FrameE) : (s.modFrame k f).train = s.train := rfl
@[simp] theorem modFrame_ports (f : FrameE → FrameE) : (s.modFrame k f).ports = s.ports := rfl
@[simp] theorem modFrame_straps (f : FrameE → FrameE) : (s.modFrame k f).straps = s.straps := rfl
@[simp] theorem modFrame_txHeld (f : FrameE → FrameE) : (s.modFrame k f).txHeld = s.txHeld := rfl
@[simp] theorem modFrame_cxl (f : FrameE → FrameE) : (s.modFrame k f).cxl = s.cxl := rfl
@[simp] theorem modFrame_hoop (f : FrameE → FrameE) : (s.modFrame k f).hoop = s.hoop := rfl
@[simp] theorem modFrame_host (f : FrameE → FrameE) : (s.modFrame k f).host = s.host := rfl
@[simp] theorem modFrame_mb (f : FrameE → FrameE) : (s.modFrame k f).mb = s.mb := rfl
@[simp] theorem modFrame_ctxs (f : FrameE → FrameE) : (s.modFrame k f).ctxs = s.ctxs := rfl
@[simp] theorem modFrame_lid (f : FrameE → FrameE) : (s.modFrame k f).lid = s.lid := rfl
@[simp] theorem modFrame_flt (f : FrameE → FrameE) : (s.modFrame k f).flt = s.flt := rfl
@[simp] theorem modFrame_pwr (f : FrameE → FrameE) : (s.modFrame k f).pwr = s.pwr := rfl
@[simp] theorem modFrame_rst (f : FrameE → FrameE) : (s.modFrame k f).rst = s.rst := rfl
@[simp] theorem modFrame_fw (f : FrameE → FrameE) : (s.modFrame k f).fw = s.fw := rfl
@[simp] theorem modFrame_read (f : FrameE → FrameE) : (s.modFrame k f).frame k = f (s.frame k) := look_adj_eq _ _ _ _
theorem modFrame_read_ne (f : FrameE → FrameE) {j : Nat} (h : j ≠ k) : (s.modFrame k f).frame j = s.frame j := look_adj_ne _ _ _ h

/-! ### modPte -/

@[simp] theorem modPte_variant (f : Pte → Pte) : (s.modPte k f).variant = s.variant := rfl
@[simp] theorem modPte_pending (f : Pte → Pte) : (s.modPte k f).pending = s.pending := rfl
@[simp] theorem modPte_free (f : Pte → Pte) : (s.modPte k f).free = s.free := rfl
@[simp] theorem modPte_out (f : Pte → Pte) : (s.modPte k f).out = s.out := rfl
@[simp] theorem modPte_latch (f : Pte → Pte) : (s.modPte k f).latch = s.latch := rfl
@[simp] theorem modPte_rsvdAcc (f : Pte → Pte) : (s.modPte k f).rsvdAcc = s.rsvdAcc := rfl
@[simp] theorem modPte_rnd (f : Pte → Pte) : (s.modPte k f).rnd = s.rnd := rfl
@[simp] theorem modPte_bud (f : Pte → Pte) : (s.modPte k f).bud = s.bud := rfl
@[simp] theorem modPte_cells (f : Pte → Pte) : (s.modPte k f).cells = s.cells := rfl
@[simp] theorem modPte_ups (f : Pte → Pte) : (s.modPte k f).ups = s.ups := rfl
@[simp] theorem modPte_crs (f : Pte → Pte) : (s.modPte k f).crs = s.crs := rfl
@[simp] theorem modPte_weav (f : Pte → Pte) : (s.modPte k f).weav = s.weav := rfl
@[simp] theorem modPte_stakes (f : Pte → Pte) : (s.modPte k f).stakes = s.stakes := rfl
@[simp] theorem modPte_msd (f : Pte → Pte) : (s.modPte k f).msd = s.msd := rfl
@[simp] theorem modPte_train (f : Pte → Pte) : (s.modPte k f).train = s.train := rfl
@[simp] theorem modPte_ports (f : Pte → Pte) : (s.modPte k f).ports = s.ports := rfl
@[simp] theorem modPte_straps (f : Pte → Pte) : (s.modPte k f).straps = s.straps := rfl
@[simp] theorem modPte_txHeld (f : Pte → Pte) : (s.modPte k f).txHeld = s.txHeld := rfl
@[simp] theorem modPte_cxl (f : Pte → Pte) : (s.modPte k f).cxl = s.cxl := rfl
@[simp] theorem modPte_hoop (f : Pte → Pte) : (s.modPte k f).hoop = s.hoop := rfl
@[simp] theorem modPte_host (f : Pte → Pte) : (s.modPte k f).host = s.host := rfl
@[simp] theorem modPte_mb (f : Pte → Pte) : (s.modPte k f).mb = s.mb := rfl
@[simp] theorem modPte_ctxs (f : Pte → Pte) : (s.modPte k f).ctxs = s.ctxs := rfl
@[simp] theorem modPte_lid (f : Pte → Pte) : (s.modPte k f).lid = s.lid := rfl
@[simp] theorem modPte_flt (f : Pte → Pte) : (s.modPte k f).flt = s.flt := rfl
@[simp] theorem modPte_pwr (f : Pte → Pte) : (s.modPte k f).pwr = s.pwr := rfl
@[simp] theorem modPte_rst (f : Pte → Pte) : (s.modPte k f).rst = s.rst := rfl
@[simp] theorem modPte_fw (f : Pte → Pte) : (s.modPte k f).fw = s.fw := rfl
@[simp] theorem modPte_read (f : Pte → Pte) : (s.modPte k f).pteAt k = f (s.pteAt k) := look_adj_eq _ _ _ _
theorem modPte_read_ne (f : Pte → Pte) {j : Nat} (h : j ≠ k) : (s.modPte k f).pteAt j = s.pteAt j := look_adj_ne _ _ _ h

/-! ### modAcct -/

@[simp] theorem modAcct_variant (f : Account → Account) : (s.modAcct k f).variant = s.variant := rfl
@[simp] theorem modAcct_pending (f : Account → Account) : (s.modAcct k f).pending = s.pending := rfl
@[simp] theorem modAcct_free (f : Account → Account) : (s.modAcct k f).free = s.free := rfl
@[simp] theorem modAcct_out (f : Account → Account) : (s.modAcct k f).out = s.out := rfl
@[simp] theorem modAcct_latch (f : Account → Account) : (s.modAcct k f).latch = s.latch := rfl
@[simp] theorem modAcct_rsvdAcc (f : Account → Account) : (s.modAcct k f).rsvdAcc = s.rsvdAcc := rfl
@[simp] theorem modAcct_rnd (f : Account → Account) : (s.modAcct k f).rnd = s.rnd := rfl
@[simp] theorem modAcct_bud (f : Account → Account) : (s.modAcct k f).bud = s.bud := rfl
@[simp] theorem modAcct_cells (f : Account → Account) : (s.modAcct k f).cells = s.cells := rfl
@[simp] theorem modAcct_ups (f : Account → Account) : (s.modAcct k f).ups = s.ups := rfl
@[simp] theorem modAcct_crs (f : Account → Account) : (s.modAcct k f).crs = s.crs := rfl
@[simp] theorem modAcct_weav (f : Account → Account) : (s.modAcct k f).weav = s.weav := rfl
@[simp] theorem modAcct_stakes (f : Account → Account) : (s.modAcct k f).stakes = s.stakes := rfl
@[simp] theorem modAcct_msd (f : Account → Account) : (s.modAcct k f).msd = s.msd := rfl
@[simp] theorem modAcct_train (f : Account → Account) : (s.modAcct k f).train = s.train := rfl
@[simp] theorem modAcct_ports (f : Account → Account) : (s.modAcct k f).ports = s.ports := rfl
@[simp] theorem modAcct_straps (f : Account → Account) : (s.modAcct k f).straps = s.straps := rfl
@[simp] theorem modAcct_txHeld (f : Account → Account) : (s.modAcct k f).txHeld = s.txHeld := rfl
@[simp] theorem modAcct_cxl (f : Account → Account) : (s.modAcct k f).cxl = s.cxl := rfl
@[simp] theorem modAcct_hoop (f : Account → Account) : (s.modAcct k f).hoop = s.hoop := rfl
@[simp] theorem modAcct_host (f : Account → Account) : (s.modAcct k f).host = s.host := rfl
@[simp] theorem modAcct_mb (f : Account → Account) : (s.modAcct k f).mb = s.mb := rfl
@[simp] theorem modAcct_ctxs (f : Account → Account) : (s.modAcct k f).ctxs = s.ctxs := rfl
@[simp] theorem modAcct_lid (f : Account → Account) : (s.modAcct k f).lid = s.lid := rfl
@[simp] theorem modAcct_flt (f : Account → Account) : (s.modAcct k f).flt = s.flt := rfl
@[simp] theorem modAcct_pwr (f : Account → Account) : (s.modAcct k f).pwr = s.pwr := rfl
@[simp] theorem modAcct_rst (f : Account → Account) : (s.modAcct k f).rst = s.rst := rfl
@[simp] theorem modAcct_fw (f : Account → Account) : (s.modAcct k f).fw = s.fw := rfl
@[simp] theorem modAcct_read (f : Account → Account) : (s.modAcct k f).acct k = f (s.acct k) := look_adj_eq _ _ _ _
theorem modAcct_read_ne (f : Account → Account) {j : Nat} (h : j ≠ k) : (s.modAcct k f).acct j = s.acct j := look_adj_ne _ _ _ h

/-! ### modMig -/

@[simp] theorem modMig_variant (f : MigCnt → MigCnt) : (s.modMig k f).variant = s.variant := rfl
@[simp] theorem modMig_pending (f : MigCnt → MigCnt) : (s.modMig k f).pending = s.pending := rfl
@[simp] theorem modMig_free (f : MigCnt → MigCnt) : (s.modMig k f).free = s.free := rfl
@[simp] theorem modMig_out (f : MigCnt → MigCnt) : (s.modMig k f).out = s.out := rfl
@[simp] theorem modMig_latch (f : MigCnt → MigCnt) : (s.modMig k f).latch = s.latch := rfl
@[simp] theorem modMig_rsvdAcc (f : MigCnt → MigCnt) : (s.modMig k f).rsvdAcc = s.rsvdAcc := rfl
@[simp] theorem modMig_rnd (f : MigCnt → MigCnt) : (s.modMig k f).rnd = s.rnd := rfl
@[simp] theorem modMig_bud (f : MigCnt → MigCnt) : (s.modMig k f).bud = s.bud := rfl
@[simp] theorem modMig_cells (f : MigCnt → MigCnt) : (s.modMig k f).cells = s.cells := rfl
@[simp] theorem modMig_ups (f : MigCnt → MigCnt) : (s.modMig k f).ups = s.ups := rfl
@[simp] theorem modMig_crs (f : MigCnt → MigCnt) : (s.modMig k f).crs = s.crs := rfl
@[simp] theorem modMig_weav (f : MigCnt → MigCnt) : (s.modMig k f).weav = s.weav := rfl
@[simp] theorem modMig_stakes (f : MigCnt → MigCnt) : (s.modMig k f).stakes = s.stakes := rfl
@[simp] theorem modMig_msd (f : MigCnt → MigCnt) : (s.modMig k f).msd = s.msd := rfl
@[simp] theorem modMig_train (f : MigCnt → MigCnt) : (s.modMig k f).train = s.train := rfl
@[simp] theorem modMig_ports (f : MigCnt → MigCnt) : (s.modMig k f).ports = s.ports := rfl
@[simp] theorem modMig_straps (f : MigCnt → MigCnt) : (s.modMig k f).straps = s.straps := rfl
@[simp] theorem modMig_txHeld (f : MigCnt → MigCnt) : (s.modMig k f).txHeld = s.txHeld := rfl
@[simp] theorem modMig_cxl (f : MigCnt → MigCnt) : (s.modMig k f).cxl = s.cxl := rfl
@[simp] theorem modMig_hoop (f : MigCnt → MigCnt) : (s.modMig k f).hoop = s.hoop := rfl
@[simp] theorem modMig_host (f : MigCnt → MigCnt) : (s.modMig k f).host = s.host := rfl
@[simp] theorem modMig_mb (f : MigCnt → MigCnt) : (s.modMig k f).mb = s.mb := rfl
@[simp] theorem modMig_ctxs (f : MigCnt → MigCnt) : (s.modMig k f).ctxs = s.ctxs := rfl
@[simp] theorem modMig_lid (f : MigCnt → MigCnt) : (s.modMig k f).lid = s.lid := rfl
@[simp] theorem modMig_flt (f : MigCnt → MigCnt) : (s.modMig k f).flt = s.flt := rfl
@[simp] theorem modMig_pwr (f : MigCnt → MigCnt) : (s.modMig k f).pwr = s.pwr := rfl
@[simp] theorem modMig_rst (f : MigCnt → MigCnt) : (s.modMig k f).rst = s.rst := rfl
@[simp] theorem modMig_fw (f : MigCnt → MigCnt) : (s.modMig k f).fw = s.fw := rfl

/-! ### modMsd -/

@[simp] theorem modMsd_variant (f : Msd → Msd) : (s.modMsd k f).variant = s.variant := rfl
@[simp] theorem modMsd_pending (f : Msd → Msd) : (s.modMsd k f).pending = s.pending := rfl
@[simp] theorem modMsd_free (f : Msd → Msd) : (s.modMsd k f).free = s.free := rfl
@[simp] theorem modMsd_out (f : Msd → Msd) : (s.modMsd k f).out = s.out := rfl
@[simp] theorem modMsd_latch (f : Msd → Msd) : (s.modMsd k f).latch = s.latch := rfl
@[simp] theorem modMsd_rsvdAcc (f : Msd → Msd) : (s.modMsd k f).rsvdAcc = s.rsvdAcc := rfl
@[simp] theorem modMsd_rnd (f : Msd → Msd) : (s.modMsd k f).rnd = s.rnd := rfl
@[simp] theorem modMsd_bud (f : Msd → Msd) : (s.modMsd k f).bud = s.bud := rfl
@[simp] theorem modMsd_cells (f : Msd → Msd) : (s.modMsd k f).cells = s.cells := rfl
@[simp] theorem modMsd_ups (f : Msd → Msd) : (s.modMsd k f).ups = s.ups := rfl
@[simp] theorem modMsd_crs (f : Msd → Msd) : (s.modMsd k f).crs = s.crs := rfl
@[simp] theorem modMsd_weav (f : Msd → Msd) : (s.modMsd k f).weav = s.weav := rfl
@[simp] theorem modMsd_stakes (f : Msd → Msd) : (s.modMsd k f).stakes = s.stakes := rfl
@[simp] theorem modMsd_mem (f : Msd → Msd) : (s.modMsd k f).mem = s.mem := rfl
@[simp] theorem modMsd_train (f : Msd → Msd) : (s.modMsd k f).train = s.train := rfl
@[simp] theorem modMsd_ports (f : Msd → Msd) : (s.modMsd k f).ports = s.ports := rfl
@[simp] theorem modMsd_straps (f : Msd → Msd) : (s.modMsd k f).straps = s.straps := rfl
@[simp] theorem modMsd_txHeld (f : Msd → Msd) : (s.modMsd k f).txHeld = s.txHeld := rfl
@[simp] theorem modMsd_cxl (f : Msd → Msd) : (s.modMsd k f).cxl = s.cxl := rfl
@[simp] theorem modMsd_hoop (f : Msd → Msd) : (s.modMsd k f).hoop = s.hoop := rfl
@[simp] theorem modMsd_host (f : Msd → Msd) : (s.modMsd k f).host = s.host := rfl
@[simp] theorem modMsd_mb (f : Msd → Msd) : (s.modMsd k f).mb = s.mb := rfl
@[simp] theorem modMsd_ctxs (f : Msd → Msd) : (s.modMsd k f).ctxs = s.ctxs := rfl
@[simp] theorem modMsd_lid (f : Msd → Msd) : (s.modMsd k f).lid = s.lid := rfl
@[simp] theorem modMsd_flt (f : Msd → Msd) : (s.modMsd k f).flt = s.flt := rfl
@[simp] theorem modMsd_pwr (f : Msd → Msd) : (s.modMsd k f).pwr = s.pwr := rfl
@[simp] theorem modMsd_rst (f : Msd → Msd) : (s.modMsd k f).rst = s.rst := rfl
@[simp] theorem modMsd_fw (f : Msd → Msd) : (s.modMsd k f).fw = s.fw := rfl
@[simp] theorem modMsd_read (f : Msd → Msd) : (s.modMsd k f).msdOf k = f (s.msdOf k) := look_adj_eq _ _ _ _
theorem modMsd_read_ne (f : Msd → Msd) {j : Nat} (h : j ≠ k) : (s.modMsd k f).msdOf j = s.msdOf j := look_adj_ne _ _ _ h

/-! ### modJob -/

@[simp] theorem modJob_variant (f : Job → Job) : (s.modJob k f).variant = s.variant := rfl
@[simp] theorem modJob_pending (f : Job → Job) : (s.modJob k f).pending = s.pending := rfl
@[simp] theorem modJob_free (f : Job → Job) : (s.modJob k f).free = s.free := rfl
@[simp] theorem modJob_out (f : Job → Job) : (s.modJob k f).out = s.out := rfl
@[simp] theorem modJob_latch (f : Job → Job) : (s.modJob k f).latch = s.latch := rfl
@[simp] theorem modJob_rsvdAcc (f : Job → Job) : (s.modJob k f).rsvdAcc = s.rsvdAcc := rfl
@[simp] theorem modJob_rnd (f : Job → Job) : (s.modJob k f).rnd = s.rnd := rfl
@[simp] theorem modJob_bud (f : Job → Job) : (s.modJob k f).bud = s.bud := rfl
@[simp] theorem modJob_cells (f : Job → Job) : (s.modJob k f).cells = s.cells := rfl
@[simp] theorem modJob_ups (f : Job → Job) : (s.modJob k f).ups = s.ups := rfl
@[simp] theorem modJob_crs (f : Job → Job) : (s.modJob k f).crs = s.crs := rfl
@[simp] theorem modJob_weav (f : Job → Job) : (s.modJob k f).weav = s.weav := rfl
@[simp] theorem modJob_stakes (f : Job → Job) : (s.modJob k f).stakes = s.stakes := rfl
@[simp] theorem modJob_mem (f : Job → Job) : (s.modJob k f).mem = s.mem := rfl
@[simp] theorem modJob_msd (f : Job → Job) : (s.modJob k f).msd = s.msd := rfl
@[simp] theorem modJob_ports (f : Job → Job) : (s.modJob k f).ports = s.ports := rfl
@[simp] theorem modJob_straps (f : Job → Job) : (s.modJob k f).straps = s.straps := rfl
@[simp] theorem modJob_txHeld (f : Job → Job) : (s.modJob k f).txHeld = s.txHeld := rfl
@[simp] theorem modJob_cxl (f : Job → Job) : (s.modJob k f).cxl = s.cxl := rfl
@[simp] theorem modJob_hoop (f : Job → Job) : (s.modJob k f).hoop = s.hoop := rfl
@[simp] theorem modJob_host (f : Job → Job) : (s.modJob k f).host = s.host := rfl
@[simp] theorem modJob_mb (f : Job → Job) : (s.modJob k f).mb = s.mb := rfl
@[simp] theorem modJob_ctxs (f : Job → Job) : (s.modJob k f).ctxs = s.ctxs := rfl
@[simp] theorem modJob_lid (f : Job → Job) : (s.modJob k f).lid = s.lid := rfl
@[simp] theorem modJob_flt (f : Job → Job) : (s.modJob k f).flt = s.flt := rfl
@[simp] theorem modJob_pwr (f : Job → Job) : (s.modJob k f).pwr = s.pwr := rfl
@[simp] theorem modJob_rst (f : Job → Job) : (s.modJob k f).rst = s.rst := rfl
@[simp] theorem modJob_fw (f : Job → Job) : (s.modJob k f).fw = s.fw := rfl
@[simp] theorem modJob_read (f : Job → Job) : (s.modJob k f).job k = f (s.job k) := look_adj_eq _ _ _ _
theorem modJob_read_ne (f : Job → Job) {j : Nat} (h : j ≠ k) : (s.modJob k f).job j = s.job j := look_adj_ne _ _ _ h

/-! ### modPort -/

@[simp] theorem modPort_variant (f : Port → Port) : (s.modPort k f).variant = s.variant := rfl
@[simp] theorem modPort_pending (f : Port → Port) : (s.modPort k f).pending = s.pending := rfl
@[simp] theorem modPort_free (f : Port → Port) : (s.modPort k f).free = s.free := rfl
@[simp] theorem modPort_out (f : Port → Port) : (s.modPort k f).out = s.out := rfl
@[simp] theorem modPort_latch (f : Port → Port) : (s.modPort k f).latch = s.latch := rfl
@[simp] theorem modPort_rsvdAcc (f : Port → Port) : (s.modPort k f).rsvdAcc = s.rsvdAcc := rfl
@[simp] theorem modPort_rnd (f : Port → Port) : (s.modPort k f).rnd = s.rnd := rfl
@[simp] theorem modPort_bud (f : Port → Port) : (s.modPort k f).bud = s.bud := rfl
@[simp] theorem modPort_cells (f : Port → Port) : (s.modPort k f).cells = s.cells := rfl
@[simp] theorem modPort_ups (f : Port → Port) : (s.modPort k f).ups = s.ups := rfl
@[simp] theorem modPort_crs (f : Port → Port) : (s.modPort k f).crs = s.crs := rfl
@[simp] theorem modPort_weav (f : Port → Port) : (s.modPort k f).weav = s.weav := rfl
@[simp] theorem modPort_stakes (f : Port → Port) : (s.modPort k f).stakes = s.stakes := rfl
@[simp] theorem modPort_mem (f : Port → Port) : (s.modPort k f).mem = s.mem := rfl
@[simp] theorem modPort_straps (f : Port → Port) : (s.modPort k f).straps = s.straps := rfl
@[simp] theorem modPort_txHeld (f : Port → Port) : (s.modPort k f).txHeld = s.txHeld := rfl
@[simp] theorem modPort_msd (f : Port → Port) : (s.modPort k f).msd = s.msd := rfl
@[simp] theorem modPort_train (f : Port → Port) : (s.modPort k f).train = s.train := rfl
@[simp] theorem modPort_cxl (f : Port → Port) : (s.modPort k f).cxl = s.cxl := rfl
@[simp] theorem modPort_hoop (f : Port → Port) : (s.modPort k f).hoop = s.hoop := rfl
@[simp] theorem modPort_host (f : Port → Port) : (s.modPort k f).host = s.host := rfl
@[simp] theorem modPort_mb (f : Port → Port) : (s.modPort k f).mb = s.mb := rfl
@[simp] theorem modPort_ctxs (f : Port → Port) : (s.modPort k f).ctxs = s.ctxs := rfl
@[simp] theorem modPort_lid (f : Port → Port) : (s.modPort k f).lid = s.lid := rfl
@[simp] theorem modPort_flt (f : Port → Port) : (s.modPort k f).flt = s.flt := rfl
@[simp] theorem modPort_pwr (f : Port → Port) : (s.modPort k f).pwr = s.pwr := rfl
@[simp] theorem modPort_rst (f : Port → Port) : (s.modPort k f).rst = s.rst := rfl
@[simp] theorem modPort_fw (f : Port → Port) : (s.modPort k f).fw = s.fw := rfl
@[simp] theorem modPort_read (f : Port → Port) : (s.modPort k f).port k = f (s.port k) := look_adj_eq _ _ _ _
theorem modPort_read_ne (f : Port → Port) {j : Nat} (h : j ≠ k) : (s.modPort k f).port j = s.port j := look_adj_ne _ _ _ h

/-! ### modQp -/

@[simp] theorem modQp_variant (f : Qp → Qp) : (s.modQp k f).variant = s.variant := rfl
@[simp] theorem modQp_pending (f : Qp → Qp) : (s.modQp k f).pending = s.pending := rfl
@[simp] theorem modQp_free (f : Qp → Qp) : (s.modQp k f).free = s.free := rfl
@[simp] theorem modQp_out (f : Qp → Qp) : (s.modQp k f).out = s.out := rfl
@[simp] theorem modQp_latch (f : Qp → Qp) : (s.modQp k f).latch = s.latch := rfl
@[simp] theorem modQp_rsvdAcc (f : Qp → Qp) : (s.modQp k f).rsvdAcc = s.rsvdAcc := rfl
@[simp] theorem modQp_rnd (f : Qp → Qp) : (s.modQp k f).rnd = s.rnd := rfl
@[simp] theorem modQp_bud (f : Qp → Qp) : (s.modQp k f).bud = s.bud := rfl
@[simp] theorem modQp_cells (f : Qp → Qp) : (s.modQp k f).cells = s.cells := rfl
@[simp] theorem modQp_ups (f : Qp → Qp) : (s.modQp k f).ups = s.ups := rfl
@[simp] theorem modQp_crs (f : Qp → Qp) : (s.modQp k f).crs = s.crs := rfl
@[simp] theorem modQp_weav (f : Qp → Qp) : (s.modQp k f).weav = s.weav := rfl
@[simp] theorem modQp_stakes (f : Qp → Qp) : (s.modQp k f).stakes = s.stakes := rfl
@[simp] theorem modQp_mem (f : Qp → Qp) : (s.modQp k f).mem = s.mem := rfl
@[simp] theorem modQp_msd (f : Qp → Qp) : (s.modQp k f).msd = s.msd := rfl
@[simp] theorem modQp_train (f : Qp → Qp) : (s.modQp k f).train = s.train := rfl
@[simp] theorem modQp_ports (f : Qp → Qp) : (s.modQp k f).ports = s.ports := rfl
@[simp] theorem modQp_straps (f : Qp → Qp) : (s.modQp k f).straps = s.straps := rfl
@[simp] theorem modQp_txHeld (f : Qp → Qp) : (s.modQp k f).txHeld = s.txHeld := rfl
@[simp] theorem modQp_cxl (f : Qp → Qp) : (s.modQp k f).cxl = s.cxl := rfl
@[simp] theorem modQp_hoop (f : Qp → Qp) : (s.modQp k f).hoop = s.hoop := rfl
@[simp] theorem modQp_mb (f : Qp → Qp) : (s.modQp k f).mb = s.mb := rfl
@[simp] theorem modQp_ctxs (f : Qp → Qp) : (s.modQp k f).ctxs = s.ctxs := rfl
@[simp] theorem modQp_lid (f : Qp → Qp) : (s.modQp k f).lid = s.lid := rfl
@[simp] theorem modQp_flt (f : Qp → Qp) : (s.modQp k f).flt = s.flt := rfl
@[simp] theorem modQp_pwr (f : Qp → Qp) : (s.modQp k f).pwr = s.pwr := rfl
@[simp] theorem modQp_rst (f : Qp → Qp) : (s.modQp k f).rst = s.rst := rfl
@[simp] theorem modQp_fw (f : Qp → Qp) : (s.modQp k f).fw = s.fw := rfl
@[simp] theorem modQp_read (f : Qp → Qp) : (s.modQp k f).qp k = f (s.qp k) := look_adj_eq _ _ _ _
theorem modQp_read_ne (f : Qp → Qp) {j : Nat} (h : j ≠ k) : (s.modQp k f).qp j = s.qp j := look_adj_ne _ _ _ h

/-! ### modFlow -/

@[simp] theorem modFlow_variant (f : Flow → Flow) : (s.modFlow k f).variant = s.variant := rfl
@[simp] theorem modFlow_pending (f : Flow → Flow) : (s.modFlow k f).pending = s.pending := rfl
@[simp] theorem modFlow_free (f : Flow → Flow) : (s.modFlow k f).free = s.free := rfl
@[simp] theorem modFlow_out (f : Flow → Flow) : (s.modFlow k f).out = s.out := rfl
@[simp] theorem modFlow_latch (f : Flow → Flow) : (s.modFlow k f).latch = s.latch := rfl
@[simp] theorem modFlow_rsvdAcc (f : Flow → Flow) : (s.modFlow k f).rsvdAcc = s.rsvdAcc := rfl
@[simp] theorem modFlow_rnd (f : Flow → Flow) : (s.modFlow k f).rnd = s.rnd := rfl
@[simp] theorem modFlow_bud (f : Flow → Flow) : (s.modFlow k f).bud = s.bud := rfl
@[simp] theorem modFlow_cells (f : Flow → Flow) : (s.modFlow k f).cells = s.cells := rfl
@[simp] theorem modFlow_ups (f : Flow → Flow) : (s.modFlow k f).ups = s.ups := rfl
@[simp] theorem modFlow_crs (f : Flow → Flow) : (s.modFlow k f).crs = s.crs := rfl
@[simp] theorem modFlow_weav (f : Flow → Flow) : (s.modFlow k f).weav = s.weav := rfl
@[simp] theorem modFlow_stakes (f : Flow → Flow) : (s.modFlow k f).stakes = s.stakes := rfl
@[simp] theorem modFlow_mem (f : Flow → Flow) : (s.modFlow k f).mem = s.mem := rfl
@[simp] theorem modFlow_msd (f : Flow → Flow) : (s.modFlow k f).msd = s.msd := rfl
@[simp] theorem modFlow_train (f : Flow → Flow) : (s.modFlow k f).train = s.train := rfl
@[simp] theorem modFlow_ports (f : Flow → Flow) : (s.modFlow k f).ports = s.ports := rfl
@[simp] theorem modFlow_straps (f : Flow → Flow) : (s.modFlow k f).straps = s.straps := rfl
@[simp] theorem modFlow_txHeld (f : Flow → Flow) : (s.modFlow k f).txHeld = s.txHeld := rfl
@[simp] theorem modFlow_cxl (f : Flow → Flow) : (s.modFlow k f).cxl = s.cxl := rfl
@[simp] theorem modFlow_hoop (f : Flow → Flow) : (s.modFlow k f).hoop = s.hoop := rfl
@[simp] theorem modFlow_mb (f : Flow → Flow) : (s.modFlow k f).mb = s.mb := rfl
@[simp] theorem modFlow_ctxs (f : Flow → Flow) : (s.modFlow k f).ctxs = s.ctxs := rfl
@[simp] theorem modFlow_lid (f : Flow → Flow) : (s.modFlow k f).lid = s.lid := rfl
@[simp] theorem modFlow_flt (f : Flow → Flow) : (s.modFlow k f).flt = s.flt := rfl
@[simp] theorem modFlow_pwr (f : Flow → Flow) : (s.modFlow k f).pwr = s.pwr := rfl
@[simp] theorem modFlow_rst (f : Flow → Flow) : (s.modFlow k f).rst = s.rst := rfl
@[simp] theorem modFlow_fw (f : Flow → Flow) : (s.modFlow k f).fw = s.fw := rfl
@[simp] theorem modFlow_read (f : Flow → Flow) : (s.modFlow k f).flow k = f (s.flow k) := look_adj_eq _ _ _ _
theorem modFlow_read_ne (f : Flow → Flow) {j : Nat} (h : j ≠ k) : (s.modFlow k f).flow j = s.flow j := look_adj_ne _ _ _ h

/-! ### modFn -/

@[simp] theorem modFn_variant (f : Fn → Fn) : (s.modFn k f).variant = s.variant := rfl
@[simp] theorem modFn_pending (f : Fn → Fn) : (s.modFn k f).pending = s.pending := rfl
@[simp] theorem modFn_free (f : Fn → Fn) : (s.modFn k f).free = s.free := rfl
@[simp] theorem modFn_out (f : Fn → Fn) : (s.modFn k f).out = s.out := rfl
@[simp] theorem modFn_latch (f : Fn → Fn) : (s.modFn k f).latch = s.latch := rfl
@[simp] theorem modFn_rsvdAcc (f : Fn → Fn) : (s.modFn k f).rsvdAcc = s.rsvdAcc := rfl
@[simp] theorem modFn_rnd (f : Fn → Fn) : (s.modFn k f).rnd = s.rnd := rfl
@[simp] theorem modFn_bud (f : Fn → Fn) : (s.modFn k f).bud = s.bud := rfl
@[simp] theorem modFn_cells (f : Fn → Fn) : (s.modFn k f).cells = s.cells := rfl
@[simp] theorem modFn_ups (f : Fn → Fn) : (s.modFn k f).ups = s.ups := rfl
@[simp] theorem modFn_crs (f : Fn → Fn) : (s.modFn k f).crs = s.crs := rfl
@[simp] theorem modFn_weav (f : Fn → Fn) : (s.modFn k f).weav = s.weav := rfl
@[simp] theorem modFn_stakes (f : Fn → Fn) : (s.modFn k f).stakes = s.stakes := rfl
@[simp] theorem modFn_mem (f : Fn → Fn) : (s.modFn k f).mem = s.mem := rfl
@[simp] theorem modFn_msd (f : Fn → Fn) : (s.modFn k f).msd = s.msd := rfl
@[simp] theorem modFn_train (f : Fn → Fn) : (s.modFn k f).train = s.train := rfl
@[simp] theorem modFn_ports (f : Fn → Fn) : (s.modFn k f).ports = s.ports := rfl
@[simp] theorem modFn_straps (f : Fn → Fn) : (s.modFn k f).straps = s.straps := rfl
@[simp] theorem modFn_txHeld (f : Fn → Fn) : (s.modFn k f).txHeld = s.txHeld := rfl
@[simp] theorem modFn_cxl (f : Fn → Fn) : (s.modFn k f).cxl = s.cxl := rfl
@[simp] theorem modFn_hoop (f : Fn → Fn) : (s.modFn k f).hoop = s.hoop := rfl
@[simp] theorem modFn_mb (f : Fn → Fn) : (s.modFn k f).mb = s.mb := rfl
@[simp] theorem modFn_ctxs (f : Fn → Fn) : (s.modFn k f).ctxs = s.ctxs := rfl
@[simp] theorem modFn_lid (f : Fn → Fn) : (s.modFn k f).lid = s.lid := rfl
@[simp] theorem modFn_flt (f : Fn → Fn) : (s.modFn k f).flt = s.flt := rfl
@[simp] theorem modFn_pwr (f : Fn → Fn) : (s.modFn k f).pwr = s.pwr := rfl
@[simp] theorem modFn_rst (f : Fn → Fn) : (s.modFn k f).rst = s.rst := rfl
@[simp] theorem modFn_fw (f : Fn → Fn) : (s.modFn k f).fw = s.fw := rfl
@[simp] theorem modFn_read (f : Fn → Fn) : (s.modFn k f).fnOf k = f (s.fnOf k) := look_adj_eq _ _ _ _
theorem modFn_read_ne (f : Fn → Fn) {j : Nat} (h : j ≠ k) : (s.modFn k f).fnOf j = s.fnOf j := look_adj_ne _ _ _ h

/-! ### modChan -/

@[simp] theorem modChan_variant (f : Chan → Chan) : (s.modChan k f).variant = s.variant := rfl
@[simp] theorem modChan_pending (f : Chan → Chan) : (s.modChan k f).pending = s.pending := rfl
@[simp] theorem modChan_free (f : Chan → Chan) : (s.modChan k f).free = s.free := rfl
@[simp] theorem modChan_out (f : Chan → Chan) : (s.modChan k f).out = s.out := rfl
@[simp] theorem modChan_latch (f : Chan → Chan) : (s.modChan k f).latch = s.latch := rfl
@[simp] theorem modChan_rsvdAcc (f : Chan → Chan) : (s.modChan k f).rsvdAcc = s.rsvdAcc := rfl
@[simp] theorem modChan_rnd (f : Chan → Chan) : (s.modChan k f).rnd = s.rnd := rfl
@[simp] theorem modChan_bud (f : Chan → Chan) : (s.modChan k f).bud = s.bud := rfl
@[simp] theorem modChan_cells (f : Chan → Chan) : (s.modChan k f).cells = s.cells := rfl
@[simp] theorem modChan_ups (f : Chan → Chan) : (s.modChan k f).ups = s.ups := rfl
@[simp] theorem modChan_crs (f : Chan → Chan) : (s.modChan k f).crs = s.crs := rfl
@[simp] theorem modChan_weav (f : Chan → Chan) : (s.modChan k f).weav = s.weav := rfl
@[simp] theorem modChan_stakes (f : Chan → Chan) : (s.modChan k f).stakes = s.stakes := rfl
@[simp] theorem modChan_mem (f : Chan → Chan) : (s.modChan k f).mem = s.mem := rfl
@[simp] theorem modChan_msd (f : Chan → Chan) : (s.modChan k f).msd = s.msd := rfl
@[simp] theorem modChan_train (f : Chan → Chan) : (s.modChan k f).train = s.train := rfl
@[simp] theorem modChan_ports (f : Chan → Chan) : (s.modChan k f).ports = s.ports := rfl
@[simp] theorem modChan_straps (f : Chan → Chan) : (s.modChan k f).straps = s.straps := rfl
@[simp] theorem modChan_txHeld (f : Chan → Chan) : (s.modChan k f).txHeld = s.txHeld := rfl
@[simp] theorem modChan_cxl (f : Chan → Chan) : (s.modChan k f).cxl = s.cxl := rfl
@[simp] theorem modChan_hoop (f : Chan → Chan) : (s.modChan k f).hoop = s.hoop := rfl
@[simp] theorem modChan_host (f : Chan → Chan) : (s.modChan k f).host = s.host := rfl
@[simp] theorem modChan_ctxs (f : Chan → Chan) : (s.modChan k f).ctxs = s.ctxs := rfl
@[simp] theorem modChan_lid (f : Chan → Chan) : (s.modChan k f).lid = s.lid := rfl
@[simp] theorem modChan_flt (f : Chan → Chan) : (s.modChan k f).flt = s.flt := rfl
@[simp] theorem modChan_pwr (f : Chan → Chan) : (s.modChan k f).pwr = s.pwr := rfl
@[simp] theorem modChan_rst (f : Chan → Chan) : (s.modChan k f).rst = s.rst := rfl
@[simp] theorem modChan_fw (f : Chan → Chan) : (s.modChan k f).fw = s.fw := rfl
@[simp] theorem modChan_read (f : Chan → Chan) : (s.modChan k f).chan k = f (s.chan k) := look_adj_eq _ _ _ _
theorem modChan_read_ne (f : Chan → Chan) {j : Nat} (h : j ≠ k) : (s.modChan k f).chan j = s.chan j := look_adj_ne _ _ _ h

/-! ### modTkey -/

@[simp] theorem modTkey_variant (f : KeySlot → KeySlot) : (s.modTkey k f).variant = s.variant := rfl
@[simp] theorem modTkey_pending (f : KeySlot → KeySlot) : (s.modTkey k f).pending = s.pending := rfl
@[simp] theorem modTkey_free (f : KeySlot → KeySlot) : (s.modTkey k f).free = s.free := rfl
@[simp] theorem modTkey_out (f : KeySlot → KeySlot) : (s.modTkey k f).out = s.out := rfl
@[simp] theorem modTkey_latch (f : KeySlot → KeySlot) : (s.modTkey k f).latch = s.latch := rfl
@[simp] theorem modTkey_rsvdAcc (f : KeySlot → KeySlot) : (s.modTkey k f).rsvdAcc = s.rsvdAcc := rfl
@[simp] theorem modTkey_rnd (f : KeySlot → KeySlot) : (s.modTkey k f).rnd = s.rnd := rfl
@[simp] theorem modTkey_bud (f : KeySlot → KeySlot) : (s.modTkey k f).bud = s.bud := rfl
@[simp] theorem modTkey_cells (f : KeySlot → KeySlot) : (s.modTkey k f).cells = s.cells := rfl
@[simp] theorem modTkey_ups (f : KeySlot → KeySlot) : (s.modTkey k f).ups = s.ups := rfl
@[simp] theorem modTkey_crs (f : KeySlot → KeySlot) : (s.modTkey k f).crs = s.crs := rfl
@[simp] theorem modTkey_weav (f : KeySlot → KeySlot) : (s.modTkey k f).weav = s.weav := rfl
@[simp] theorem modTkey_stakes (f : KeySlot → KeySlot) : (s.modTkey k f).stakes = s.stakes := rfl
@[simp] theorem modTkey_mem (f : KeySlot → KeySlot) : (s.modTkey k f).mem = s.mem := rfl
@[simp] theorem modTkey_msd (f : KeySlot → KeySlot) : (s.modTkey k f).msd = s.msd := rfl
@[simp] theorem modTkey_train (f : KeySlot → KeySlot) : (s.modTkey k f).train = s.train := rfl
@[simp] theorem modTkey_ports (f : KeySlot → KeySlot) : (s.modTkey k f).ports = s.ports := rfl
@[simp] theorem modTkey_straps (f : KeySlot → KeySlot) : (s.modTkey k f).straps = s.straps := rfl
@[simp] theorem modTkey_txHeld (f : KeySlot → KeySlot) : (s.modTkey k f).txHeld = s.txHeld := rfl
@[simp] theorem modTkey_cxl (f : KeySlot → KeySlot) : (s.modTkey k f).cxl = s.cxl := rfl
@[simp] theorem modTkey_hoop (f : KeySlot → KeySlot) : (s.modTkey k f).hoop = s.hoop := rfl
@[simp] theorem modTkey_host (f : KeySlot → KeySlot) : (s.modTkey k f).host = s.host := rfl
@[simp] theorem modTkey_mb (f : KeySlot → KeySlot) : (s.modTkey k f).mb = s.mb := rfl
@[simp] theorem modTkey_ctxs (f : KeySlot → KeySlot) : (s.modTkey k f).ctxs = s.ctxs := rfl
@[simp] theorem modTkey_flt (f : KeySlot → KeySlot) : (s.modTkey k f).flt = s.flt := rfl
@[simp] theorem modTkey_pwr (f : KeySlot → KeySlot) : (s.modTkey k f).pwr = s.pwr := rfl
@[simp] theorem modTkey_rst (f : KeySlot → KeySlot) : (s.modTkey k f).rst = s.rst := rfl
@[simp] theorem modTkey_fw (f : KeySlot → KeySlot) : (s.modTkey k f).fw = s.fw := rfl
@[simp] theorem modTkey_read (f : KeySlot → KeySlot) : (s.modTkey k f).tkey k = f (s.tkey k) := look_adj_eq _ _ _ _
theorem modTkey_read_ne (f : KeySlot → KeySlot) {j : Nat} (h : j ≠ k) : (s.modTkey k f).tkey j = s.tkey j := look_adj_ne _ _ _ h

/-! ### modSkey -/

@[simp] theorem modSkey_variant (f : KeySlot → KeySlot) : (s.modSkey k f).variant = s.variant := rfl
@[simp] theorem modSkey_pending (f : KeySlot → KeySlot) : (s.modSkey k f).pending = s.pending := rfl
@[simp] theorem modSkey_free (f : KeySlot → KeySlot) : (s.modSkey k f).free = s.free := rfl
@[simp] theorem modSkey_out (f : KeySlot → KeySlot) : (s.modSkey k f).out = s.out := rfl
@[simp] theorem modSkey_latch (f : KeySlot → KeySlot) : (s.modSkey k f).latch = s.latch := rfl
@[simp] theorem modSkey_rsvdAcc (f : KeySlot → KeySlot) : (s.modSkey k f).rsvdAcc = s.rsvdAcc := rfl
@[simp] theorem modSkey_rnd (f : KeySlot → KeySlot) : (s.modSkey k f).rnd = s.rnd := rfl
@[simp] theorem modSkey_bud (f : KeySlot → KeySlot) : (s.modSkey k f).bud = s.bud := rfl
@[simp] theorem modSkey_cells (f : KeySlot → KeySlot) : (s.modSkey k f).cells = s.cells := rfl
@[simp] theorem modSkey_ups (f : KeySlot → KeySlot) : (s.modSkey k f).ups = s.ups := rfl
@[simp] theorem modSkey_crs (f : KeySlot → KeySlot) : (s.modSkey k f).crs = s.crs := rfl
@[simp] theorem modSkey_weav (f : KeySlot → KeySlot) : (s.modSkey k f).weav = s.weav := rfl
@[simp] theorem modSkey_stakes (f : KeySlot → KeySlot) : (s.modSkey k f).stakes = s.stakes := rfl
@[simp] theorem modSkey_mem (f : KeySlot → KeySlot) : (s.modSkey k f).mem = s.mem := rfl
@[simp] theorem modSkey_msd (f : KeySlot → KeySlot) : (s.modSkey k f).msd = s.msd := rfl
@[simp] theorem modSkey_train (f : KeySlot → KeySlot) : (s.modSkey k f).train = s.train := rfl
@[simp] theorem modSkey_ports (f : KeySlot → KeySlot) : (s.modSkey k f).ports = s.ports := rfl
@[simp] theorem modSkey_straps (f : KeySlot → KeySlot) : (s.modSkey k f).straps = s.straps := rfl
@[simp] theorem modSkey_txHeld (f : KeySlot → KeySlot) : (s.modSkey k f).txHeld = s.txHeld := rfl
@[simp] theorem modSkey_cxl (f : KeySlot → KeySlot) : (s.modSkey k f).cxl = s.cxl := rfl
@[simp] theorem modSkey_hoop (f : KeySlot → KeySlot) : (s.modSkey k f).hoop = s.hoop := rfl
@[simp] theorem modSkey_host (f : KeySlot → KeySlot) : (s.modSkey k f).host = s.host := rfl
@[simp] theorem modSkey_mb (f : KeySlot → KeySlot) : (s.modSkey k f).mb = s.mb := rfl
@[simp] theorem modSkey_ctxs (f : KeySlot → KeySlot) : (s.modSkey k f).ctxs = s.ctxs := rfl
@[simp] theorem modSkey_flt (f : KeySlot → KeySlot) : (s.modSkey k f).flt = s.flt := rfl
@[simp] theorem modSkey_pwr (f : KeySlot → KeySlot) : (s.modSkey k f).pwr = s.pwr := rfl
@[simp] theorem modSkey_rst (f : KeySlot → KeySlot) : (s.modSkey k f).rst = s.rst := rfl
@[simp] theorem modSkey_fw (f : KeySlot → KeySlot) : (s.modSkey k f).fw = s.fw := rfl
@[simp] theorem modSkey_read (f : KeySlot → KeySlot) : (s.modSkey k f).skey k = f (s.skey k) := look_adj_eq _ _ _ _
theorem modSkey_read_ne (f : KeySlot → KeySlot) {j : Nat} (h : j ≠ k) : (s.modSkey k f).skey j = s.skey j := look_adj_ne _ _ _ h

/-! ### modClk -/

@[simp] theorem modClk_variant (f : Clk → Clk) : (s.modClk k f).variant = s.variant := rfl
@[simp] theorem modClk_pending (f : Clk → Clk) : (s.modClk k f).pending = s.pending := rfl
@[simp] theorem modClk_free (f : Clk → Clk) : (s.modClk k f).free = s.free := rfl
@[simp] theorem modClk_out (f : Clk → Clk) : (s.modClk k f).out = s.out := rfl
@[simp] theorem modClk_latch (f : Clk → Clk) : (s.modClk k f).latch = s.latch := rfl
@[simp] theorem modClk_rsvdAcc (f : Clk → Clk) : (s.modClk k f).rsvdAcc = s.rsvdAcc := rfl
@[simp] theorem modClk_rnd (f : Clk → Clk) : (s.modClk k f).rnd = s.rnd := rfl
@[simp] theorem modClk_bud (f : Clk → Clk) : (s.modClk k f).bud = s.bud := rfl
@[simp] theorem modClk_cells (f : Clk → Clk) : (s.modClk k f).cells = s.cells := rfl
@[simp] theorem modClk_ups (f : Clk → Clk) : (s.modClk k f).ups = s.ups := rfl
@[simp] theorem modClk_crs (f : Clk → Clk) : (s.modClk k f).crs = s.crs := rfl
@[simp] theorem modClk_weav (f : Clk → Clk) : (s.modClk k f).weav = s.weav := rfl
@[simp] theorem modClk_stakes (f : Clk → Clk) : (s.modClk k f).stakes = s.stakes := rfl
@[simp] theorem modClk_mem (f : Clk → Clk) : (s.modClk k f).mem = s.mem := rfl
@[simp] theorem modClk_msd (f : Clk → Clk) : (s.modClk k f).msd = s.msd := rfl
@[simp] theorem modClk_train (f : Clk → Clk) : (s.modClk k f).train = s.train := rfl
@[simp] theorem modClk_ports (f : Clk → Clk) : (s.modClk k f).ports = s.ports := rfl
@[simp] theorem modClk_straps (f : Clk → Clk) : (s.modClk k f).straps = s.straps := rfl
@[simp] theorem modClk_txHeld (f : Clk → Clk) : (s.modClk k f).txHeld = s.txHeld := rfl
@[simp] theorem modClk_cxl (f : Clk → Clk) : (s.modClk k f).cxl = s.cxl := rfl
@[simp] theorem modClk_hoop (f : Clk → Clk) : (s.modClk k f).hoop = s.hoop := rfl
@[simp] theorem modClk_host (f : Clk → Clk) : (s.modClk k f).host = s.host := rfl
@[simp] theorem modClk_mb (f : Clk → Clk) : (s.modClk k f).mb = s.mb := rfl
@[simp] theorem modClk_ctxs (f : Clk → Clk) : (s.modClk k f).ctxs = s.ctxs := rfl
@[simp] theorem modClk_lid (f : Clk → Clk) : (s.modClk k f).lid = s.lid := rfl
@[simp] theorem modClk_flt (f : Clk → Clk) : (s.modClk k f).flt = s.flt := rfl
@[simp] theorem modClk_rst (f : Clk → Clk) : (s.modClk k f).rst = s.rst := rfl
@[simp] theorem modClk_fw (f : Clk → Clk) : (s.modClk k f).fw = s.fw := rfl
@[simp] theorem modClk_read (f : Clk → Clk) : (s.modClk k f).clk k = f (s.clk k) := look_adj_eq _ _ _ _
theorem modClk_read_ne (f : Clk → Clk) {j : Nat} (h : j ≠ k) : (s.modClk k f).clk j = s.clk j := look_adj_ne _ _ _ h

/-! ### modSup -/

@[simp] theorem modSup_variant (f : Sup → Sup) : (s.modSup k f).variant = s.variant := rfl
@[simp] theorem modSup_pending (f : Sup → Sup) : (s.modSup k f).pending = s.pending := rfl
@[simp] theorem modSup_free (f : Sup → Sup) : (s.modSup k f).free = s.free := rfl
@[simp] theorem modSup_out (f : Sup → Sup) : (s.modSup k f).out = s.out := rfl
@[simp] theorem modSup_latch (f : Sup → Sup) : (s.modSup k f).latch = s.latch := rfl
@[simp] theorem modSup_rsvdAcc (f : Sup → Sup) : (s.modSup k f).rsvdAcc = s.rsvdAcc := rfl
@[simp] theorem modSup_rnd (f : Sup → Sup) : (s.modSup k f).rnd = s.rnd := rfl
@[simp] theorem modSup_bud (f : Sup → Sup) : (s.modSup k f).bud = s.bud := rfl
@[simp] theorem modSup_cells (f : Sup → Sup) : (s.modSup k f).cells = s.cells := rfl
@[simp] theorem modSup_ups (f : Sup → Sup) : (s.modSup k f).ups = s.ups := rfl
@[simp] theorem modSup_crs (f : Sup → Sup) : (s.modSup k f).crs = s.crs := rfl
@[simp] theorem modSup_weav (f : Sup → Sup) : (s.modSup k f).weav = s.weav := rfl
@[simp] theorem modSup_stakes (f : Sup → Sup) : (s.modSup k f).stakes = s.stakes := rfl
@[simp] theorem modSup_mem (f : Sup → Sup) : (s.modSup k f).mem = s.mem := rfl
@[simp] theorem modSup_msd (f : Sup → Sup) : (s.modSup k f).msd = s.msd := rfl
@[simp] theorem modSup_train (f : Sup → Sup) : (s.modSup k f).train = s.train := rfl
@[simp] theorem modSup_ports (f : Sup → Sup) : (s.modSup k f).ports = s.ports := rfl
@[simp] theorem modSup_straps (f : Sup → Sup) : (s.modSup k f).straps = s.straps := rfl
@[simp] theorem modSup_txHeld (f : Sup → Sup) : (s.modSup k f).txHeld = s.txHeld := rfl
@[simp] theorem modSup_cxl (f : Sup → Sup) : (s.modSup k f).cxl = s.cxl := rfl
@[simp] theorem modSup_hoop (f : Sup → Sup) : (s.modSup k f).hoop = s.hoop := rfl
@[simp] theorem modSup_host (f : Sup → Sup) : (s.modSup k f).host = s.host := rfl
@[simp] theorem modSup_mb (f : Sup → Sup) : (s.modSup k f).mb = s.mb := rfl
@[simp] theorem modSup_ctxs (f : Sup → Sup) : (s.modSup k f).ctxs = s.ctxs := rfl
@[simp] theorem modSup_lid (f : Sup → Sup) : (s.modSup k f).lid = s.lid := rfl
@[simp] theorem modSup_flt (f : Sup → Sup) : (s.modSup k f).flt = s.flt := rfl
@[simp] theorem modSup_rst (f : Sup → Sup) : (s.modSup k f).rst = s.rst := rfl
@[simp] theorem modSup_fw (f : Sup → Sup) : (s.modSup k f).fw = s.fw := rfl

/-! ### modCourse -/

@[simp] theorem modCourse_variant (f : Course → Course) : (s.modCourse k f).variant = s.variant := rfl
@[simp] theorem modCourse_pending (f : Course → Course) : (s.modCourse k f).pending = s.pending := rfl
@[simp] theorem modCourse_free (f : Course → Course) : (s.modCourse k f).free = s.free := rfl
@[simp] theorem modCourse_out (f : Course → Course) : (s.modCourse k f).out = s.out := rfl
@[simp] theorem modCourse_latch (f : Course → Course) : (s.modCourse k f).latch = s.latch := rfl
@[simp] theorem modCourse_rsvdAcc (f : Course → Course) : (s.modCourse k f).rsvdAcc = s.rsvdAcc := rfl
@[simp] theorem modCourse_rnd (f : Course → Course) : (s.modCourse k f).rnd = s.rnd := rfl
@[simp] theorem modCourse_bud (f : Course → Course) : (s.modCourse k f).bud = s.bud := rfl
@[simp] theorem modCourse_cells (f : Course → Course) : (s.modCourse k f).cells = s.cells := rfl
@[simp] theorem modCourse_ups (f : Course → Course) : (s.modCourse k f).ups = s.ups := rfl
@[simp] theorem modCourse_weav (f : Course → Course) : (s.modCourse k f).weav = s.weav := rfl
@[simp] theorem modCourse_stakes (f : Course → Course) : (s.modCourse k f).stakes = s.stakes := rfl
@[simp] theorem modCourse_mem (f : Course → Course) : (s.modCourse k f).mem = s.mem := rfl
@[simp] theorem modCourse_msd (f : Course → Course) : (s.modCourse k f).msd = s.msd := rfl
@[simp] theorem modCourse_train (f : Course → Course) : (s.modCourse k f).train = s.train := rfl
@[simp] theorem modCourse_ports (f : Course → Course) : (s.modCourse k f).ports = s.ports := rfl
@[simp] theorem modCourse_straps (f : Course → Course) : (s.modCourse k f).straps = s.straps := rfl
@[simp] theorem modCourse_txHeld (f : Course → Course) : (s.modCourse k f).txHeld = s.txHeld := rfl
@[simp] theorem modCourse_cxl (f : Course → Course) : (s.modCourse k f).cxl = s.cxl := rfl
@[simp] theorem modCourse_hoop (f : Course → Course) : (s.modCourse k f).hoop = s.hoop := rfl
@[simp] theorem modCourse_host (f : Course → Course) : (s.modCourse k f).host = s.host := rfl
@[simp] theorem modCourse_mb (f : Course → Course) : (s.modCourse k f).mb = s.mb := rfl
@[simp] theorem modCourse_ctxs (f : Course → Course) : (s.modCourse k f).ctxs = s.ctxs := rfl
@[simp] theorem modCourse_lid (f : Course → Course) : (s.modCourse k f).lid = s.lid := rfl
@[simp] theorem modCourse_flt (f : Course → Course) : (s.modCourse k f).flt = s.flt := rfl
@[simp] theorem modCourse_pwr (f : Course → Course) : (s.modCourse k f).pwr = s.pwr := rfl
@[simp] theorem modCourse_rst (f : Course → Course) : (s.modCourse k f).rst = s.rst := rfl
@[simp] theorem modCourse_fw (f : Course → Course) : (s.modCourse k f).fw = s.fw := rfl

/-! ### emit -/

@[simp] theorem emit_variant (o : Out) : (s.emit o).variant = s.variant := rfl
@[simp] theorem emit_pending (o : Out) : (s.emit o).pending = s.pending := rfl
@[simp] theorem emit_free (o : Out) : (s.emit o).free = s.free := rfl
@[simp] theorem emit_latch (o : Out) : (s.emit o).latch = s.latch := rfl
@[simp] theorem emit_rsvdAcc (o : Out) : (s.emit o).rsvdAcc = s.rsvdAcc := rfl
@[simp] theorem emit_rnd (o : Out) : (s.emit o).rnd = s.rnd := rfl
@[simp] theorem emit_bud (o : Out) : (s.emit o).bud = s.bud := rfl
@[simp] theorem emit_cells (o : Out) : (s.emit o).cells = s.cells := rfl
@[simp] theorem emit_ups (o : Out) : (s.emit o).ups = s.ups := rfl
@[simp] theorem emit_crs (o : Out) : (s.emit o).crs = s.crs := rfl
@[simp] theorem emit_weav (o : Out) : (s.emit o).weav = s.weav := rfl
@[simp] theorem emit_stakes (o : Out) : (s.emit o).stakes = s.stakes := rfl
@[simp] theorem emit_mem (o : Out) : (s.emit o).mem = s.mem := rfl
@[simp] theorem emit_msd (o : Out) : (s.emit o).msd = s.msd := rfl
@[simp] theorem emit_train (o : Out) : (s.emit o).train = s.train := rfl
@[simp] theorem emit_ports (o : Out) : (s.emit o).ports = s.ports := rfl
@[simp] theorem emit_straps (o : Out) : (s.emit o).straps = s.straps := rfl
@[simp] theorem emit_txHeld (o : Out) : (s.emit o).txHeld = s.txHeld := rfl
@[simp] theorem emit_cxl (o : Out) : (s.emit o).cxl = s.cxl := rfl
@[simp] theorem emit_hoop (o : Out) : (s.emit o).hoop = s.hoop := rfl
@[simp] theorem emit_host (o : Out) : (s.emit o).host = s.host := rfl
@[simp] theorem emit_mb (o : Out) : (s.emit o).mb = s.mb := rfl
@[simp] theorem emit_ctxs (o : Out) : (s.emit o).ctxs = s.ctxs := rfl
@[simp] theorem emit_lid (o : Out) : (s.emit o).lid = s.lid := rfl
@[simp] theorem emit_flt (o : Out) : (s.emit o).flt = s.flt := rfl
@[simp] theorem emit_pwr (o : Out) : (s.emit o).pwr = s.pwr := rfl
@[simp] theorem emit_rst (o : Out) : (s.emit o).rst = s.rst := rfl
@[simp] theorem emit_fw (o : Out) : (s.emit o).fw = s.fw := rfl
@[simp] theorem emit_out (o : Out) : (s.emit o).out = o :: s.out := rfl

/-! ### Reads that an update of another part leaves alone -/

theorem cell_of_cells {s t : State} (h : t.cells = s.cells) : t.cell k = s.cell k := by simp [State.cell, h]
theorem ctx_of_ctxs {s t : State} (h : t.ctxs = s.ctxs) : t.ctx k = s.ctx k := by simp [State.ctx, h]
theorem weaver_of_weav {s t : State} (h : t.weav = s.weav) : t.weaver k = s.weaver k := by simp [State.weaver, h]
theorem side_of_weav {s t : State} (h : t.weav = s.weav) : t.side k = s.side k := by simp [State.side, h]
theorem session_of_weav {s t : State} (h : t.weav = s.weav) : t.session k = s.session k := by simp [State.session, h]
theorem stake_of_stakes {s t : State} (h : t.stakes = s.stakes) : t.stake k = s.stake k := by simp [State.stake, h]
theorem frame_of_mem {s t : State} (h : t.mem = s.mem) : t.frame k = s.frame k := by simp [State.frame, h]
theorem pteAt_of_mem {s t : State} (h : t.mem = s.mem) : t.pteAt k = s.pteAt k := by simp [State.pteAt, h]
theorem acct_of_mem {s t : State} (h : t.mem = s.mem) : t.acct k = s.acct k := by simp [State.acct, h]
theorem msdOf_of_msd {s t : State} (h : t.msd = s.msd) : t.msdOf k = s.msdOf k := by simp [State.msdOf, h]
theorem job_of_train {s t : State} (h : t.train = s.train) : t.job k = s.job k := by simp [State.job, h]
theorem port_of_ports {s t : State} (h : t.ports = s.ports) : t.port k = s.port k := by simp [State.port, h]
theorem qp_of_host {s t : State} (h : t.host = s.host) : t.qp k = s.qp k := by simp [State.qp, h]
theorem flow_of_host {s t : State} (h : t.host = s.host) : t.flow k = s.flow k := by simp [State.flow, h]
theorem fnOf_of_host {s t : State} (h : t.host = s.host) : t.fnOf k = s.fnOf k := by simp [State.fnOf, h]
theorem chan_of_mb {s t : State} (h : t.mb = s.mb) : t.chan k = s.chan k := by simp [State.chan, h]
theorem tkey_of_lid {s t : State} (h : t.lid = s.lid) : t.tkey k = s.tkey k := by simp [State.tkey, h]
theorem skey_of_lid {s t : State} (h : t.lid = s.lid) : t.skey k = s.skey k := by simp [State.skey, h]
theorem clk_of_pwr {s t : State} (h : t.pwr = s.pwr) : t.clk k = s.clk k := by simp [State.clk, h]
theorem course_of_crs {s t : State} (h : t.crs = s.crs) : t.course k = s.course k := by simp [State.course, h]

end Sys2Proof.Machine
end

