-- ==== Sys2Proof/Laws/Registers.lean ====
section
/-! SUPPORT. Laws of the register rows: which operation a write to each register of BAR0 carries out, through a function whose BAR
decodes. -/

namespace Sys2Proof.Machine

variable {s : State} {fn : Nat}

theorem barAccess_live {off v : Nat} (h : barLive s fn = true) : s.barAccess fn off true v = s.barWrite fn off v := by
  simp [State.barAccess, h]

theorem barAccess_dead {off v : Nat} {wide : Bool} (h : barLive s fn = false) : s.barAccess fn off wide v = s := by
  simp [State.barAccess, h]

theorem barAccess_narrow {off v : Nat} (h : barLive s fn = true) : s.barAccess fn off false v = s.reserved := by
  simp [State.barAccess, h]

theorem barWrite_rndCtl (v : Nat) : s.barWrite 0 0x10000 v = s.wrRndCtl v := by simp [State.barWrite, isReg, State.wrRound]
theorem barWrite_rndLen (v : Nat) : s.barWrite 0 0x10008 v = s.wrRndLen v := by simp [State.barWrite, isReg, State.wrRound]
theorem barWrite_rndNum (v : Nat) : s.barWrite 0 0x10010 v = s.wrRndNum v := by simp [State.barWrite, isReg, State.wrRound]
theorem barWrite_hoopCtl (v : Nat) : s.barWrite 0 0x40000 v = s.wrHoop 0 v := by simp [State.barWrite, isReg]
theorem barWrite_gtime (v : Nat) : s.barWrite 0 0x40038 v = s.wrHoop 0x38 v := by simp [State.barWrite, isReg]
theorem barWrite_blkRst (v : Nat) : s.barWrite 0 0x30008 v = s.wrPower 0x8 v := by simp [State.barWrite, isReg]

theorem barWrite_share {c : Nat} (hc : c < 8) (v : Nat) : s.barWrite 0 (0x20000 + 8 * c) v = s.wrShare c v := by
  have e1 : (0x20000 + 8 * c) / 0x10000 = 2 := by omega
  have e2 : (0x20000 + 8 * c) % 0x10000 = 8 * c := by omega
  have e3 : (0x20000 + 8 * c) % 8 = 0 := by omega
  have e4 : ¬0x4000000 ≤ 0x20000 + 8 * c := by omega
  have e5 : isReg (0x20000 + 8 * c) = true := by
    unfold isReg; simp [e1, e2, e3]; omega
  have e6 : 8 * c < 64 := by omega
  have e7 : 8 * c / 8 = c := by omega
  simp [State.barWrite, e1, e2, e3, e4, e5, State.wrBudget, e6, e7]

theorem barWrite_portCfg {p : Nat} (hp : p < 12) (v : Nat) : s.barWrite 0 (0x200000 + 0x10000 * p) v = s.wrPort p 0 v := by
  have e1 : (0x200000 + 0x10000 * p) / 0x10000 = 0x20 + p := by omega
  have e2 : (0x200000 + 0x10000 * p) % 0x10000 = 0 := by omega
  have e3 : (0x200000 + 0x10000 * p) % 8 = 0 := by omega
  have e4 : ¬0x4000000 ≤ 0x200000 + 0x10000 * p := by omega
  have e5 : isReg (0x200000 + 0x10000 * p) = true := by
    unfold isReg; simp [e1, e2, e3]; omega
  have e9 : ¬(16 ≤ 32 + p ∧ 32 + p < 32) := by omega
  have e10 : 32 + p < 44 := by omega
  have e12 : 32 + p ≠ 1 ∧ 32 + p ≠ 2 ∧ 32 + p ≠ 3 ∧ 32 + p ≠ 4 ∧ 32 + p ≠ 5 ∧ 32 + p ≠ 8 ∧ 32 + p ≠ 0 := by omega
  simp [State.barWrite, e1, e2, e3, e4, e5, e9, e10, e12]

theorem barWrite_evtHead {ring : Nat} (hr : ring < 16) (v : Nat) :
    s.barWrite fn (0x50100 + 8 * ring) v = (s.modRing fn ring fun r => { r with head := bits v 0 32 }).drainEvents fn := by
  have e1 : (0x50100 + 8 * ring) / 0x10000 = 5 := by omega
  have e2 : (0x50100 + 8 * ring) % 0x10000 = 0x100 + 8 * ring := by omega
  have e3 : (0x50100 + 8 * ring) % 8 = 0 := by omega
  have e4 : ¬0x4000000 ≤ 0x50100 + 8 * ring := by omega
  have e5 : isReg (0x50100 + 8 * ring) = true := by
    unfold isReg; simp [e1, e2, e3]; omega
  have e10 : 0x100 ≤ 0x100 + 8 * ring ∧ 0x100 + 8 * ring < 0x180 := by omega
  simp [State.barWrite, e1, e2, e3, e4, e5, State.wrEvent, e10]

theorem barWrite_channel {ch o : Nat} (hc : ch < 64) (ho : o < 0x4000) (h8 : o % 8 = 0) (v : Nat) :
    s.barWrite fn (0x100000 + 0x4000 * ch + o) v = s.wrMailbox fn (0x4000 * ch + o) v := by
  have e1 : 16 ≤ (0x100000 + 0x4000 * ch + o) / 0x10000 ∧ (0x100000 + 0x4000 * ch + o) / 0x10000 < 32 := by omega
  have e3 : (0x100000 + 0x4000 * ch + o) % 8 = 0 := by omega
  have e4 : ¬0x4000000 ≤ 0x100000 + 0x4000 * ch + o := by omega
  have e6 : 0x100000 + 0x4000 * ch + o - 0x100000 = 0x4000 * ch + o := by omega
  simp [State.barWrite, e1, e3, e4, e6]

/-! ### act -/

theorem act_true (s t : State) : act true s t = .next { t with variant := s.variant, pending := s.pending } := rfl

/-- An effect that leaves the variant and the queue alone is the whole next state. -/
theorem act_next {t : State} (hv : t.variant = s.variant) (hp : t.pending = s.pending) : act true s t = .next t := by
  cases t
  cases hv
  cases hp
  rfl

theorem act_ok {ok : Bool} {t : State} (h : ok = true) (hv : t.variant = s.variant) (hp : t.pending = s.pending) :
    act ok s t = .next t := by
  rw [h]; exact act_next hv hp

end Sys2Proof.Machine
end

