-- ==== Sys2Proof/Laws/Cells.lean ====
section
/-! SUPPORT. Laws of instruction issue: what a word at its stream's place does, for a cell whose role takes it. -/

namespace Sys2Proof.Machine

variable {s : State} {opc lc : Nat} {st : Strm} {f : CellWord} {p : Site}

/-- The opcode is bits 63:56 of the word (R53). -/
theorem encWord_opcode (opc : Nat) (f : CellWord) : encWord opc f / 2 ^ 56 = opc := by
  have h1 := f.fmta.isLt; have h2 := f.fmtb.isLt; have h3 := f.rm.isLt; have h4 := f.sat.isLt
  have h5 := f.tidx.isLt; have h6 := f.cnt.isLt; have h7 := f.opnd.isLt
  unfold encWord
  omega

theorem siteAt_some (h : siteAt s lc st opc f = some p) :
    p.lc = lc ∧ p.st = st ∧ p.f = f ∧ p.opc = opc ∧ p.off = (s.stream lc st).off ∧ (s.stream lc st).running = true ∧
    (s.cell lc).course = some p.course.id ∧ s.course p.course.id = some p.course := by
  unfold siteAt at h
  simp only [] at h
  split at h
  · cases h
  · rename_i hr
    split at h
    · cases h
    · rename_i cid hc
      split at h
      · cases h
      · rename_i co hco
        cases h
        have hid : co.id = cid := by
          have := List.find?_some hco
          simpa using this
        refine ⟨rfl, rfl, rfl, rfl, ?_, ?_, ?_, ?_⟩
        · cases st <;> rfl
        · have hr' := hr
          simp only [not_or, Bool.not_eq_true', Bool.not_eq_false] at hr'
          cases st <;> exact hr'.1
        · simpa [hid] using hc
        · simpa [hid] using hco

theorem stream_eq (s : State) (lc : Nat) (st : Strm) : s.stream lc st = (s.cell lc).stream st := by cases st <;> rfl

/-- A stream that stands at an instruction belongs to a course: its block is no orphan. -/
theorem siteAt_orphan (h : siteAt s lc st opc f = some p) : (s.stream lc st).orphan = false := by
  unfold siteAt at h
  simp only at h
  split at h
  · cases h
  · next hr =>
    simp only [not_or, Bool.not_eq_true', Bool.not_eq_false] at hr
    rw [stream_eq]
    simpa using hr.2.1

theorem skip_assigned (n : Nat) {w : Nat} (hw : wordAt s lc st = some w) (ha : opAssigned (w / 2 ^ 56) = true) :
    s.skipUnassigned n lc st = s := by
  cases n with
  | zero => rfl
  | succ k =>
    unfold State.skipUnassigned
    rw [hw]
    split
    · rename_i w' p' h1 _
      cases h1
      rw [if_pos ha]
    · rfl

/-- A word at its stream's place has the effect that its body gives, or none when it is a plan violation. -/
theorem issue_stands (body : Site → State → Option State) (ha : opAssigned opc = true) (h : Stands opc lc st f p s) :
    s.issue opc lc st f body = (body p s).getD (s.violation p) := by
  obtain ⟨_, hs, hw, hr⟩ := h
  unfold State.issue
  rw [siteAt_orphan hs, if_neg (by decide)]
  simp only [skip_assigned 1024 hw (by rw [encWord_opcode]; exact ha), hs, hw, hr]
  simp

/-- A word whose group the role does not enable is a plan violation (R55, R56). -/
theorem issue_wrongRole (body : Site → State → Option State) (ha : opAssigned opc = true) (hs : siteAt s lc st opc f = some p)
    (hw : wordAt s lc st = some (encWord opc f)) (hr : roleTakes (roleOf s lc) opc = false) :
    s.issue opc lc st f body = s.violation p := by
  unfold State.issue
  rw [siteAt_orphan hs, if_neg (by decide)]
  simp only [skip_assigned 1024 hw (by rw [encWord_opcode]; exact ha), hs, hw, hr]
  simp

theorem stream_modCell_ne {j : Nat} (g : Cell → Cell) (h : j ≠ lc) (st' : Strm) : (s.modCell lc g).stream j st' = s.stream j st' := by
  simp only [State.stream]
  cases st' <;> simp [modCell_read_ne (h := h)]

@[simp] theorem modStream_stream (c : Cell) (st : Strm) (g : StreamS → StreamS) : (c.modStream st g).stream st = g (c.stream st) := by
  cases st <;> rfl
@[simp] theorem modStream_bank (c : Cell) (st : Strm) (g : StreamS → StreamS) : (c.modStream st g).bank = c.bank := by cases st <;> rfl
@[simp] theorem modStream_table (c : Cell) (st : Strm) (g : StreamS → StreamS) : (c.modStream st g).table = c.table := by cases st <;> rfl
@[simp] theorem modStream_slots (c : Cell) (st : Strm) (g : StreamS → StreamS) : (c.modStream st g).slots = c.slots := by cases st <;> rfl
@[simp] theorem modStream_vregs (c : Cell) (st : Strm) (g : StreamS → StreamS) : (c.modStream st g).vregs = c.vregs := by cases st <;> rfl
@[simp] theorem modStream_slot (c : Cell) (st : Strm) (g : StreamS → StreamS) (t : Nat) : (c.modStream st g).slot t = c.slot t := by
  cases st <;> rfl
@[simp] theorem modStream_vreg (c : Cell) (st : Strm) (g : StreamS → StreamS) (r : Nat) : (c.modStream st g).vreg r = c.vreg r := by
  cases st <;> rfl

@[simp] theorem journal_cells (s : State) (e : JEntry) : (s.journal e).cells = s.cells := by
  exact (journal_frame (Nat.or_self _) Fr.rfl).same .cells rfl

/-- What `issue` gives at a command that completes. -/
theorem issue_answers {c : Instr} {body : Site → State → Option State} {t : State} {P : State → Prop}
    (hx : exec c s = act (okCell lc) s (s.issue opc lc st f body)) (ha : opAssigned opc = true) (h : Stands opc lc st f p s)
    (hb : body p s = some t) (hv : t.variant = s.variant) (hp : t.pending = s.pending) (hP : P t) : Answers c s P := by
  have hlc : okCell lc = true := by simp [okCell, h.1]
  exact ⟨t, by rw [hx, hlc, issue_stands _ ha h, hb]; exact act_next hv hp, hP⟩

/-- An instruction that changes only its own cell, in a cell whose streams its effect leaves as they are. -/
theorem issueCell_answers {c : Instr} {body : Site → Cell → Option Effect} {e : Effect} {P : Cell → Prop}
    (hx : exec c s = act (okCell lc) s (s.issueCell opc lc st f body)) (ha : opAssigned opc = true) (h : Stands opc lc st f p s)
    (hb : body p (s.cell lc) = some e) (hst : (e.cell.stream st).off = (s.stream lc st).off ∧ (e.cell.stream st).cycles = (s.stream lc st).cycles)
    (hP : P (e.cell.modStream st fun x => { x with off := x.off + 1, cycles := x.cycles + e.cycles })) :
    CellAnswers c lc st e.cycles s P := by
  have hp := siteAt_some h.2.1
  have hlc : okCell lc = true := by simp [okCell, h.1]
  have hi : s.issueCell opc lc st f body =
      (if e.report then ((s.modCell lc fun _ => e.cell).retire p e.cycles).report p
        else (s.modCell lc fun _ => e.cell).retire p e.cycles) := by
    unfold State.issueCell
    rw [issue_stands _ ha h]
    simp [hb]
  have hcell : ∀ j, (s.issueCell opc lc st f body).cell j =
      if j = lc then e.cell.modStream st fun x => { x with off := x.off + 1, cycles := x.cycles + e.cycles } else s.cell j := by
    intro j
    have h0 : (s.issueCell opc lc st f body).cells = ((s.modCell lc fun _ => e.cell).retire p e.cycles).cells := by
      rw [hi]
      split
      · simp [State.report]
      · rfl
    have h1 : (s.issueCell opc lc st f body).cell j = ((s.modCell lc fun _ => e.cell).retire p e.cycles).cell j := by
      simp [State.cell, h0]
    rw [h1]
    unfold State.retire State.modStream
    rw [hp.1, hp.2.1]
    by_cases hj : j = lc
    · subst hj; simp
    · simp [hj, modCell_read_ne]
  refine ⟨_, by rw [hx, hlc]; rfl, ⟨?_, ?_⟩, ?_, ?_⟩
  · show (State.stream _ lc st).off = _
    rw [stream_eq]
    show ((s.issueCell opc lc st f body).cell lc |>.stream st).off = _
    rw [hcell]
    simp [hst]
  · show (State.stream _ lc st).cycles = _
    rw [stream_eq]
    show ((s.issueCell opc lc st f body).cell lc |>.stream st).cycles = _
    rw [hcell]
    simp [hst]
  · intro j hj
    show (s.issueCell opc lc st f body).cell j = _
    rw [hcell]; simp [hj]
  · show P ((s.issueCell opc lc st f body).cell lc)
    rw [hcell]; simpa using hP

/-- A write of bytes, as reads of the table before and after. -/
theorem stored_wrBytes (t : Tab Byte) (a : Nat) (bs : List Byte) : Stored t (wrBytes t a bs) a bs.length fun i => bs.getD i 0 := by
  intro k
  split
  · rename_i h
    obtain ⟨i, rfl⟩ := Nat.exists_eq_add_of_le h.1
    have hi : i < bs.length := by omega
    have := look_wrBytes_in t a bs hi
    simpa [List.getD, hi] using this
  · rename_i h
    exact look_wrBytes_out t a bs (by omega)

@[simp] theorem rdBytes_length (t : Tab Byte) (a n : Nat) : (rdBytes t a n).length = n := by simp [rdBytes]
theorem rdBytes_getD (t : Tab Byte) (a : Nat) {n i : Nat} (h : i < n) : (rdBytes t a n).getD i 0 = look 0 t (a + i) := by
  simp [rdBytes, List.getD, h]

/-! ### Vector registers -/

theorem VReg.write_live (v : VReg) (i : Nat) (xs : List Nat) : (v.write i xs).live = true := by
  induction xs generalizing v i with
  | nil => rfl
  | cons x r ih => exact ih _ _

theorem VReg.write_elem_lt (v : VReg) (i : Nat) (xs : List Nat) {j : Nat} (h : j < i) : (v.write i xs).elem j = v.elem j := by
  induction xs generalizing v i with
  | nil => rfl
  | cons x r ih =>
    show ((VReg.write _ (i + 1) r).elem j) = _
    rw [ih _ _ (by omega)]
    simp [VReg.elem, look_store_ne _ _ _ (show j ≠ i by omega)]

/-- Elements written from element `i` on read back, in 32 bits. -/
theorem VReg.write_elem (v : VReg) (i : Nat) (xs : List Nat) (j : Nat) :
    (v.write i xs).elem (i + j) = xs[j]?.elim (v.elem (i + j)) fun x => x % 2 ^ 32 := by
  induction xs generalizing v i j with
  | nil => rfl
  | cons x r ih =>
    cases j with
    | zero =>
      show ((VReg.write _ (i + 1) r).elem i) = _
      rw [VReg.write_elem_lt _ _ _ (by omega)]
      simp [VReg.elem]
    | succ k =>
      show ((VReg.write _ (i + 1) r).elem (i + (k + 1))) = _
      have := ih { v with elems := store 0 v.elems i (BitVec.ofNat 32 x) } (i + 1) k
      rw [show i + (k + 1) = i + 1 + k by omega, this]
      simp only [List.getElem?_cons_succ]
      cases r[k]? with
      | some x => rfl
      | none => simp [VReg.elem, look_store_ne _ _ _ (show i + 1 + k ≠ i by omega)]

@[simp] theorem setVreg_vreg (c : Cell) (r : Nat) (x : VReg) : (c.setVreg r x).vreg r = x := by simp [Cell.setVreg, Cell.vreg]
theorem setVreg_vreg_ne (c : Cell) (x : VReg) {r q : Nat} (h : q ≠ r) : (c.setVreg r x).vreg q = c.vreg q := by
  simp [Cell.setVreg, Cell.vreg, look_store_ne _ _ _ h]

/-- A write of elements from element 0 on writes the register so, and nothing else of the cell. -/
theorem writesVreg_setVreg (r : Nat) (c : Cell) (st : Strm) (g : StreamS → StreamS) (xs : List Nat) :
    WritesVreg r c ((c.setVreg r ((c.vreg r).write 0 xs)).modStream st g) fun i => xs[i]? := by
  refine ⟨by simp [VReg.write_live], fun i => ?_, fun q hq => by simp [setVreg_vreg_ne _ _ hq], ?_, ?_, ?_⟩
  · have := VReg.write_elem (c.vreg r) 0 xs i
    simp only [Nat.zero_add] at this
    rw [modStream_vreg, setVreg_vreg, this]
  all_goals simp [Cell.setVreg]

end Sys2Proof.Machine
end

