-- ==== Sys2Proof/Laws/FrameExec.lean ====
section
/-! SUPPORT. Laws of frames: which parts each command can change. -/

set_option linter.unusedVariables false
set_option linter.unusedSimpArgs false
set_option linter.tactic.unusedName false

namespace Sys2Proof.Machine

theorem execBar0HighRead_frame {x0} {x1} {s : State} : FrX 24 s (execBar0HighRead x0 x1 s) := by
  unfold execBar0HighRead
  refine act_frame ?_
  have h := Fr.rfl (m := 27) (o := s)
  repeat'
    first
    | with_reducible apply readHigh_frame (by decide)
    | with_reducible apply_assumption

theorem execBar0LowRead_frame {x0} {x1} {s : State} : FrX 24 s (execBar0LowRead x0 x1 s) := by
  unfold execBar0LowRead
  refine act_frame ?_
  have h := Fr.rfl (m := 27) (o := s)
  repeat'
    first
    | (intro _)
    | with_reducible apply readWide_frame (by decide)
    | with_reducible apply readLow_frame (by decide)
    | with_reducible apply Fr_ite
    | with_reducible apply_assumption

theorem execBlkRstGo_frame {x0} {x1} {s : State} : FrX 1265959144 s (execBlkRstGo x0 x1 s) := by
  unfold execBlkRstGo
  refine act_frame ?_
  have h := Fr.rfl (m := 1265959147) (o := s)
  repeat'
    first
    | with_reducible apply barAccess_frame (by decide)
    | with_reducible apply_assumption

theorem execBudShareWrite_frame {x0} {x1} {x2} {s : State} : FrX 1265959144 s (execBudShareWrite x0 x1 x2 s) := by
  unfold execBudShareWrite
  refine act_frame ?_
  have h := Fr.rfl (m := 1265959147) (o := s)
  repeat'
    first
    | with_reducible apply barAccess_frame (by decide)
    | with_reducible apply_assumption

theorem execEventHeadWrite_frame {x0} {x1} {x2} {s : State} : FrX 1265959144 s (execEventHeadWrite x0 x1 x2 s) := by
  unfold execEventHeadWrite
  refine act_frame ?_
  have h := Fr.rfl (m := 1265959147) (o := s)
  repeat'
    first
    | with_reducible apply barAccess_frame (by decide)
    | with_reducible apply_assumption

theorem execGtimeWrite_frame {x0} {x1} {s : State} : FrX 1265959144 s (execGtimeWrite x0 x1 s) := by
  unfold execGtimeWrite
  refine act_frame ?_
  have h := Fr.rfl (m := 1265959147) (o := s)
  repeat'
    first
    | with_reducible apply barAccess_frame (by decide)
    | with_reducible apply_assumption

theorem execHoopBypassReq_frame {x0} {x1} {s : State} : FrX 1265959144 s (execHoopBypassReq x0 x1 s) := by
  unfold execHoopBypassReq
  refine act_frame ?_
  have h := Fr.rfl (m := 1265959147) (o := s)
  repeat'
    first
    | with_reducible apply barAccess_frame (by decide)
    | with_reducible apply_assumption

theorem execHoopJoin_frame {x0} {x1} {s : State} : FrX 1265959144 s (execHoopJoin x0 x1 s) := by
  unfold execHoopJoin
  refine act_frame ?_
  have h := Fr.rfl (m := 1265959147) (o := s)
  repeat'
    first
    | with_reducible apply barAccess_frame (by decide)
    | with_reducible apply_assumption

theorem execHoopLock_frame {x0} {x1} {s : State} : FrX 1265959144 s (execHoopLock x0 x1 s) := by
  unfold execHoopLock
  refine act_frame ?_
  have h := Fr.rfl (m := 1265959147) (o := s)
  repeat'
    first
    | with_reducible apply barAccess_frame (by decide)
    | with_reducible apply_assumption

theorem execPortEnable_frame {x0} {x1} {x2} {s : State} : FrX 1265959144 s (execPortEnable x0 x1 x2 s) := by
  unfold execPortEnable
  refine act_frame ?_
  have h := Fr.rfl (m := 1265959147) (o := s)
  repeat'
    first
    | with_reducible apply barAccess_frame (by decide)
    | with_reducible apply_assumption

theorem execPortLock_frame {x0} {x1} {x2} {s : State} : FrX 1265959144 s (execPortLock x0 x1 x2 s) := by
  unfold execPortLock
  refine act_frame ?_
  have h := Fr.rfl (m := 1265959147) (o := s)
  repeat'
    first
    | with_reducible apply barAccess_frame (by decide)
    | with_reducible apply_assumption

theorem execRegisterWrite_frame {x0} {x1} {x2} {x3} {s : State} : FrX 1265959144 s (execRegisterWrite x0 x1 x2 x3 s) := by
  unfold execRegisterWrite
  refine act_frame ?_
  have h := Fr.rfl (m := 1265959147) (o := s)
  repeat'
    first
    | with_reducible apply barAccess_frame (by decide)
    | with_reducible apply_assumption

theorem execRndEnableSet_frame {x0} {x1} {s : State} : FrX 1265959144 s (execRndEnableSet x0 x1 s) := by
  unfold execRndEnableSet
  refine act_frame ?_
  have h := Fr.rfl (m := 1265959147) (o := s)
  repeat'
    first
    | with_reducible apply barAccess_frame (by decide)
    | with_reducible apply_assumption

theorem execRndLenSet_frame {x0} {x1} {s : State} : FrX 1265959144 s (execRndLenSet x0 x1 s) := by
  unfold execRndLenSet
  refine act_frame ?_
  have h := Fr.rfl (m := 1265959147) (o := s)
  repeat'
    first
    | with_reducible apply barAccess_frame (by decide)
    | with_reducible apply_assumption

theorem execRndLock_frame {x0} {x1} {s : State} : FrX 1265959144 s (execRndLock x0 x1 s) := by
  unfold execRndLock
  refine act_frame ?_
  have h := Fr.rfl (m := 1265959147) (o := s)
  repeat'
    first
    | with_reducible apply barAccess_frame (by decide)
    | with_reducible apply_assumption

theorem execRndNumSet_frame {x0} {x1} {s : State} : FrX 1265959144 s (execRndNumSet x0 x1 s) := by
  unfold execRndNumSet
  refine act_frame ?_
  have h := Fr.rfl (m := 1265959147) (o := s)
  repeat'
    first
    | with_reducible apply barAccess_frame (by decide)
    | with_reducible apply_assumption

theorem execRndSrcSet_frame {x0} {x1} {s : State} : FrX 1265959144 s (execRndSrcSet x0 x1 s) := by
  unfold execRndSrcSet
  refine act_frame ?_
  have h := Fr.rfl (m := 1265959147) (o := s)
  repeat'
    first
    | with_reducible apply barAccess_frame (by decide)
    | with_reducible apply_assumption

theorem execMbAck_frame {x0} {x1} {x2} {s : State} : FrX 1265959144 s (execMbAck x0 x1 x2 s) := by
  unfold execMbAck
  refine act_frame ?_
  have h := Fr.rfl (m := 1265959147) (o := s)
  repeat'
    first
    | with_reducible apply barAccess_frame (by decide)
    | with_reducible apply_assumption

theorem execMbGo_frame {x0} {x1} {x2} {s : State} : FrX 1265959144 s (execMbGo x0 x1 x2 s) := by
  unfold execMbGo
  refine act_frame ?_
  have h := Fr.rfl (m := 1265959147) (o := s)
  repeat'
    first
    | with_reducible apply barAccess_frame (by decide)
    | with_reducible apply_assumption

theorem execRequestBufferWrite_frame {x0} {x1} {x2} {x3} {x4} {s : State} : FrX 1265959144 s (execRequestBufferWrite x0 x1 x2 x3 x4 s) := by
  unfold execRequestBufferWrite
  refine act_frame ?_
  have h := Fr.rfl (m := 1265959147) (o := s)
  repeat'
    first
    | with_reducible apply barAccess_frame (by decide)
    | with_reducible apply_assumption

theorem execBlockLoad_frame {x0} {x1} {s : State} : FrX 35653000 s (execBlockLoad x0 x1 s) := by
  unfold execBlockLoad
  refine act_frame ?_
  have h := Fr.rfl (m := 35653003) (o := s)
  repeat'
    first
    | with_reducible apply loadBlock_frame (by decide)
    | with_reducible apply_assumption

theorem execEndBlock_frame {x0} {x1} {x2} {s : State} : FrX 35653004 s (execEndBlock x0 x1 x2 s) := by
  unfold execEndBlock
  refine act_frame ?_
  have h := Fr.rfl (m := 35653007) (o := s)
  repeat'
    first
    | with_reducible assumption
    | (intro _)
    | with_reducible apply issue_frame (by decide)
    | with_reducible apply endBody_frame (by decide)
    | with_reducible apply_assumption

theorem execLdw_frame {x0} {x1} {x2} {s : State} : FrX 35884424 s (execLdw x0 x1 x2 s) := by
  unfold execLdw
  refine act_frame ?_
  have h := Fr.rfl (m := 35884427) (o := s)
  repeat'
    first
    | with_reducible assumption
    | (intro _)
    | with_reducible apply issue_frame (by decide)
    | with_reducible apply ldwBody_frame (by decide)
    | with_reducible apply_assumption

theorem execLdwDataArrived_frame {x0} {x1} {s : State} : FrX 256 s (execLdwDataArrived x0 x1 s) := by
  unfold execLdwDataArrived
  refine act_frame ?_
  have h := Fr.rfl (m := 259) (o := s)
  repeat'
    first
    | with_reducible apply loadArrives_frame (by decide)
    | with_reducible apply_assumption

theorem execMov_frame {x0} {x1} {x2} {s : State} : FrX 35653000 s (execMov x0 x1 x2 s) := by
  unfold execMov
  refine act_frame ?_
  have h := Fr.rfl (m := 35653003) (o := s)
  repeat'
    first
    | with_reducible apply issueCell_frame (by decide)
    | with_reducible apply_assumption

theorem execNop_frame {x0} {x1} {x2} {s : State} : FrX 35653000 s (execNop x0 x1 x2 s) := by
  unfold execNop
  refine act_frame ?_
  have h := Fr.rfl (m := 35653003) (o := s)
  repeat'
    first
    | with_reducible assumption
    | (intro _)
    | with_reducible apply issue_frame (by decide)
    | with_reducible apply nopBody_frame (by decide)
    | with_reducible apply_assumption

theorem execPut_frame {x0} {x1} {x2} {s : State} : FrX 35653000 s (execPut x0 x1 x2 s) := by
  unfold execPut
  refine act_frame ?_
  have h := Fr.rfl (m := 35653003) (o := s)
  repeat'
    first
    | with_reducible assumption
    | (intro _)
    | with_reducible apply issue_frame (by decide)
    | with_reducible apply putBody_frame (by decide)
    | with_reducible apply_assumption

theorem execPutDelivered_frame {x0} {x1} {s : State} : FrX 65792 s (execPutDelivered x0 x1 s) := by
  unfold execPutDelivered
  refine act_frame ?_
  have h := Fr.rfl (m := 65795) (o := s)
  repeat'
    first
    | with_reducible apply putDelivered_frame (by decide)
    | with_reducible apply_assumption

theorem execRcl_frame {x0} {x1} {x2} {s : State} : FrX 35653000 s (execRcl x0 x1 x2 s) := by
  unfold execRcl
  refine act_frame ?_
  have h := Fr.rfl (m := 35653003) (o := s)
  repeat'
    first
    | with_reducible apply issueCell_frame (by decide)
    | with_reducible apply_assumption

theorem execSig_frame {x0} {x1} {x2} {s : State} : FrX 35718536 s (execSig x0 x1 x2 s) := by
  unfold execSig
  refine act_frame ?_
  have h := Fr.rfl (m := 35718539) (o := s)
  repeat'
    first
    | with_reducible assumption
    | (intro _)
    | with_reducible apply issue_frame (by decide)
    | with_reducible apply sigBody_frame (by decide)
    | with_reducible apply_assumption

theorem execStw_frame {x0} {x1} {x2} {s : State} : FrX 35653000 s (execStw x0 x1 x2 s) := by
  unfold execStw
  refine act_frame ?_
  have h := Fr.rfl (m := 35653003) (o := s)
  repeat'
    first
    | with_reducible assumption
    | (intro _)
    | with_reducible apply issue_frame (by decide)
    | with_reducible apply stwBody_frame (by decide)
    | with_reducible apply_assumption

theorem execStwAccepted_frame {x0} {x1} {s : State} : FrX 35909000 s (execStwAccepted x0 x1 s) := by
  unfold execStwAccepted
  refine act_frame ?_
  have h := Fr.rfl (m := 35909003) (o := s)
  repeat'
    first
    | with_reducible apply storeAccepted_frame (by decide)
    | with_reducible apply_assumption

theorem execSyn_frame {x0} {x1} {x2} {s : State} : FrX 35653004 s (execSyn x0 x1 x2 s) := by
  unfold execSyn
  refine act_frame ?_
  have h := Fr.rfl (m := 35653007) (o := s)
  repeat'
    first
    | with_reducible assumption
    | (intro _)
    | with_reducible apply issue_frame (by decide)
    | with_reducible apply synBody_frame (by decide)
    | with_reducible apply_assumption

theorem execSynTimeout_frame {x0} {x1} {s : State} : FrX 35653004 s (execSynTimeout x0 x1 s) := by
  unfold execSynTimeout
  refine act_frame ?_
  have h := Fr.rfl (m := 35653007) (o := s)
  repeat'
    first
    | with_reducible apply synTimeout_frame (by decide)
    | with_reducible apply_assumption

theorem execTbw_frame {x0} {x1} {x2} {s : State} : FrX 35653000 s (execTbw x0 x1 x2 s) := by
  unfold execTbw
  refine act_frame ?_
  have h := Fr.rfl (m := 35653003) (o := s)
  repeat'
    first
    | with_reducible apply issueCell_frame (by decide)
    | with_reducible apply_assumption

theorem execVld_frame {x0} {x1} {x2} {s : State} : FrX 35653000 s (execVld x0 x1 x2 s) := by
  unfold execVld
  refine act_frame ?_
  have h := Fr.rfl (m := 35653003) (o := s)
  repeat'
    first
    | with_reducible apply issueCell_frame (by decide)
    | with_reducible apply_assumption

theorem execVst_frame {x0} {x1} {x2} {s : State} : FrX 35653000 s (execVst x0 x1 x2 s) := by
  unfold execVst
  refine act_frame ?_
  have h := Fr.rfl (m := 35653003) (o := s)
  repeat'
    first
    | with_reducible apply issueCell_frame (by decide)
    | with_reducible apply_assumption

theorem execHoldoverEntry_frame  {s : State} : FrX 64 s (execHoldoverEntry s) := by
  unfold execHoldoverEntry
  refine act_frame ?_
  have h := Fr.rfl (m := 67) (o := s)
  repeat'
    first
    | with_reducible apply holdoverEntry_frame (by decide)
    | with_reducible apply_assumption

theorem execHoldoverTick_frame  {s : State} : FrX 35651784 s (execHoldoverTick s) := by
  unfold execHoldoverTick
  refine act_frame ?_
  have h := Fr.rfl (m := 35651787) (o := s)
  repeat'
    first
    | with_reducible apply holdoverTick_frame (by decide)
    | with_reducible apply_assumption

theorem execIsolatedEntry_frame  {s : State} : FrX 35651784 s (execIsolatedEntry s) := by
  unfold execIsolatedEntry
  refine act_frame ?_
  have h := Fr.rfl (m := 35651787) (o := s)
  repeat'
    first
    | with_reducible apply isolate_frame (by decide)
    | with_reducible apply_assumption

theorem execLocalTick_frame  {s : State} : FrX 64 s (execLocalTick s) := by
  unfold execLocalTick
  refine act_frame ?_
  have h := Fr.rfl (m := 67) (o := s)
  repeat'
    first
    | with_reducible apply localTick_frame (by decide)
    | with_reducible apply_assumption

theorem execTickFrameReceive_frame {x0} {x1} {s : State} : FrX 1048648 s (execTickFrameReceive x0 x1 s) := by
  unfold execTickFrameReceive
  refine act_frame ?_
  have h := Fr.rfl (m := 1048651) (o := s)
  repeat'
    first
    | with_reducible apply recvTick_frame (by decide)
    | with_reducible apply_assumption

theorem execTickFrameSend_frame  {s : State} : FrX 8 s (execTickFrameSend s) := by
  unfold execTickFrameSend
  refine act_frame ?_
  have h := Fr.rfl (m := 11) (o := s)
  repeat'
    first
    | with_reducible apply sendTick_frame (by decide)
    | with_reducible apply_assumption

theorem execUnitAdmit_frame {x0} {s : State} : FrX 384 s (execUnitAdmit x0 s) := by
  unfold execUnitAdmit
  refine act_frame ?_
  have h := Fr.rfl (m := 387) (o := s)
  repeat'
    first
    | with_reducible apply present_frame (by decide)
    | with_reducible apply_assumption

theorem execWeaverRemoveComplete_frame {x0} {s : State} : FrX 35670152 s (execWeaverRemoveComplete x0 s) := by
  unfold execWeaverRemoveComplete
  refine act_frame ?_
  have h := Fr.rfl (m := 35670155) (o := s)
  repeat'
    first
    | with_reducible apply removeComplete_frame (by decide)
    | with_reducible apply_assumption

theorem execWeaverShardFetched_frame {x0} {x1} {s : State} : FrX 35761288 s (execWeaverShardFetched x0 x1 s) := by
  unfold execWeaverShardFetched
  refine act_frame ?_
  have h := Fr.rfl (m := 35761291) (o := s)
  repeat'
    first
    | with_reducible apply shardFetched_frame (by decide)
    | with_reducible apply_assumption

theorem execBuildShardFetched_frame {x0} {x1} {s : State} : FrX 35762312 s (execBuildShardFetched x0 x1 s) := by
  unfold execBuildShardFetched
  refine act_frame ?_
  have h := Fr.rfl (m := 35762315) (o := s)
  repeat'
    first
    | with_reducible apply shardArrives_frame (by decide)
    | with_reducible apply_assumption

theorem execCommitAnnounce_frame {x0} {s : State} : FrX 36704392 s (execCommitAnnounce x0 s) := by
  unfold execCommitAnnounce
  refine act_frame ?_
  have h := Fr.rfl (m := 36704395) (o := s)
  repeat'
    first
    | with_reducible apply announce_frame (by decide)
    | with_reducible apply_assumption

theorem execGenClose_frame {x0} {s : State} : FrX 4096 s (execGenClose x0 s) := by
  unfold execGenClose
  refine act_frame ?_
  have h := Fr.rfl (m := 4099) (o := s)
  repeat'
    first
    | with_reducible apply closeGens_frame (by decide)
    | with_reducible apply_assumption

theorem execPeerShardRequest_frame {x0} {s : State} : FrX 136 s (execPeerShardRequest x0 s) := by
  unfold execPeerShardRequest
  refine act_frame ?_
  have h := Fr.rfl (m := 139) (o := s)
  repeat'
    first
    | with_reducible apply servePeer_frame (by decide)
    | with_reducible apply_assumption

theorem execPeerShardTimeout_frame {x0} {s : State} : FrX 35688584 s (execPeerShardTimeout x0 s) := by
  unfold execPeerShardTimeout
  refine act_frame ?_
  have h := Fr.rfl (m := 35688587) (o := s)
  repeat'
    first
    | with_reducible apply peerTimeout_frame (by decide)
    | with_reducible apply_assumption

theorem execCleaningPassDone_frame {x0} {s : State} : FrX 35768456 s (execCleaningPassDone x0 s) := by
  unfold execCleaningPassDone
  refine act_frame ?_
  have h := Fr.rfl (m := 35768459) (o := s)
  repeat'
    first
    | with_reducible apply cleanDone_frame (by decide)
    | with_reducible apply_assumption

theorem execEvictionDone_frame {x0} {s : State} : FrX 116868 s (execEvictionDone x0 s) := by
  unfold execEvictionDone
  refine act_frame ?_
  have h := Fr.rfl (m := 116871) (o := s)
  repeat'
    first
    | with_reducible apply evictionDone_frame (by decide)
    | with_reducible apply_assumption

theorem execFrameFillDone_frame {x0} {s : State} : FrX 35758216 s (execFrameFillDone x0 s) := by
  unfold execFrameFillDone
  refine act_frame ?_
  have h := Fr.rfl (m := 35758219) (o := s)
  repeat'
    first
    | with_reducible apply fillDone_frame (by decide)
    | with_reducible apply_assumption

theorem execFrameZeroDone_frame {x0} {s : State} : FrX 35698824 s (execFrameZeroDone x0 s) := by
  unfold execFrameZeroDone
  refine act_frame ?_
  have h := Fr.rfl (m := 35698827) (o := s)
  repeat'
    first
    | with_reducible apply zeroDone_frame (by decide)
    | with_reducible apply_assumption

theorem execHbmUncorrectable_frame {x0} {x1} {x2} {s : State} : FrX 35758216 s (execHbmUncorrectable x0 x1 x2 s) := by
  unfold execHbmUncorrectable
  refine act_frame ?_
  have h := Fr.rfl (m := 35758219) (o := s)
  repeat'
    first
    | with_reducible apply lineRead_frame (by decide)
    | with_reducible apply_assumption

theorem execPatrolScrub_frame {x0} {x1} {s : State} : FrX 35758216 s (execPatrolScrub x0 x1 s) := by
  unfold execPatrolScrub
  refine act_frame ?_
  have h := Fr.rfl (m := 35758219) (o := s)
  repeat'
    first
    | with_reducible apply patrol_frame (by decide)
    | with_reducible apply_assumption

theorem execPromotionDone_frame {x0} {s : State} : FrX 35758216 s (execPromotionDone x0 s) := by
  unfold execPromotionDone
  refine act_frame ?_
  have h := Fr.rfl (m := 35758219) (o := s)
  repeat'
    first
    | with_reducible apply promotionDone_frame (by decide)
    | with_reducible apply_assumption

theorem execRepairDone_frame {x0} {x1} {x2} {s : State} : FrX 35709064 s (execRepairDone x0 x1 x2 s) := by
  unfold execRepairDone
  refine act_frame ?_
  have h := Fr.rfl (m := 35709067) (o := s)
  repeat'
    first
    | with_reducible apply repairDone_frame (by decide)
    | with_reducible apply_assumption

theorem execRepairSourceTimeout_frame {x0} {x1} {s : State} : FrX 35684488 s (execRepairSourceTimeout x0 x1 s) := by
  unfold execRepairSourceTimeout
  refine act_frame ?_
  have h := Fr.rfl (m := 35684491) (o := s)
  repeat'
    first
    | with_reducible apply repairTimeout_frame (by decide)
    | with_reducible apply_assumption

theorem execSlowTierPoison_frame {x0} {x1} {s : State} : FrX 35684488 s (execSlowTierPoison x0 x1 s) := by
  unfold execSlowTierPoison
  refine act_frame ?_
  have h := Fr.rfl (m := 35684491) (o := s)
  repeat'
    first
    | with_reducible apply slowPoison_frame (by decide)
    | with_reducible apply_assumption

theorem execApertureAccess_frame {x0} {s : State} : FrX 2220172 s (execApertureAccess x0 s) := by
  unfold execApertureAccess
  refine act_frame ?_
  have h := Fr.rfl (m := 2220175) (o := s)
  repeat'
    first
    | with_reducible apply aperture_frame (by decide)
    | with_reducible apply_assumption

theorem execCopy_frame {x0} {x1} {s : State} : FrX 35651720 s (execCopy x0 x1 s) := by
  unfold execCopy
  refine act_frame ?_
  have h := Fr.rfl (m := 35651723) (o := s)
  repeat'
    first
    | with_reducible apply copyDesc_frame (by decide)
    | with_reducible apply_assumption

theorem execCopyBurst_frame {x0} {x1} {x2} {s : State} : FrX 35774856 s (execCopyBurst x0 x1 x2 s) := by
  unfold execCopyBurst
  refine act_frame ?_
  have h := Fr.rfl (m := 35774859) (o := s)
  repeat'
    first
    | with_reducible apply copyBurst_frame (by decide)
    | with_reducible apply_assumption

theorem execCqHead_frame {x0} {x1} {x2} {x3} {x4} {s : State} : FrX 2097292 s (execCqHead x0 x1 x2 x3 x4 s) := by
  unfold execCqHead
  refine act_frame ?_
  have h := Fr.rfl (m := 2097295) (o := s)
  repeat'
    first
    | with_reducible apply doorbell_frame (by decide)
    | with_reducible apply_assumption

theorem execCqStalled_frame {x0} {s : State} : FrX 2097288 s (execCqStalled x0 s) := by
  unfold execCqStalled
  refine act_frame ?_
  have h := Fr.rfl (m := 2097291) (o := s)
  repeat'
    first
    | with_reducible apply cqStall_frame (by decide)
    | with_reducible apply_assumption

theorem execDescNop_frame {x0} {x1} {s : State} : FrX 35651720 s (execDescNop x0 x1 s) := by
  unfold execDescNop
  refine act_frame ?_
  have h := Fr.rfl (m := 35651723) (o := s)
  repeat'
    first
    | with_reducible apply nopDesc_frame (by decide)
    | with_reducible apply_assumption

theorem execPathFenceRead_frame {x0} {x1} {x2} {s : State} : FrX 35750024 s (execPathFenceRead x0 x1 x2 s) := by
  unfold execPathFenceRead
  refine act_frame ?_
  have h := Fr.rfl (m := 35750027) (o := s)
  repeat'
    first
    | with_reducible apply fenceRead_frame (by decide)
    | with_reducible apply_assumption

theorem execPcieCompletionTimeout_frame {x0} {x1} {x2} {s : State} : FrX 35651720 s (execPcieCompletionTimeout x0 x1 x2 s) := by
  unfold execPcieCompletionTimeout
  refine act_frame ?_
  have h := Fr.rfl (m := 35651723) (o := s)
  repeat'
    first
    | with_reducible apply completionTimeout_frame (by decide)
    | with_reducible apply_assumption

theorem execRqTail_frame {x0} {x1} {x2} {x3} {x4} {s : State} : FrX 2097292 s (execRqTail x0 x1 x2 x3 x4 s) := by
  unfold execRqTail
  refine act_frame ?_
  have h := Fr.rfl (m := 2097295) (o := s)
  repeat'
    first
    | with_reducible apply doorbell_frame (by decide)
    | with_reducible apply_assumption

theorem execSqTail_frame {x0} {x1} {x2} {x3} {x4} {s : State} : FrX 2097292 s (execSqTail x0 x1 x2 x3 x4 s) := by
  unfold execSqTail
  refine act_frame ?_
  have h := Fr.rfl (m := 2097295) (o := s)
  repeat'
    first
    | with_reducible apply doorbell_frame (by decide)
    | with_reducible apply_assumption

theorem execBeatWriteback_frame {x0} {x1} {s : State} : FrX 256 s (execBeatWriteback x0 x1 s) := by
  unfold execBeatWriteback
  refine act_frame ?_
  have h := Fr.rfl (m := 259) (o := s)
  repeat'
    first
    | with_reducible apply modCell_frame (by decide)
    | with_reducible apply_assumption

theorem execMma_frame {x0} {x1} {x2} {s : State} : FrX 35653000 s (execMma x0 x1 x2 s) := by
  unfold execMma
  refine act_frame ?_
  have h := Fr.rfl (m := 35653003) (o := s)
  repeat'
    first
    | with_reducible apply issueCell_frame (by decide)
    | with_reducible apply_assumption

theorem execSlr_frame {x0} {x1} {x2} {s : State} : FrX 35653000 s (execSlr x0 x1 x2 s) := by
  unfold execSlr
  refine act_frame ?_
  have h := Fr.rfl (m := 35653003) (o := s)
  repeat'
    first
    | with_reducible apply issueCell_frame (by decide)
    | with_reducible apply_assumption

theorem execDrn_frame {x0} {x1} {x2} {s : State} : FrX 35653000 s (execDrn x0 x1 x2 s) := by
  unfold execDrn
  refine act_frame ?_
  have h := Fr.rfl (m := 35653003) (o := s)
  repeat'
    first
    | with_reducible apply issueCell_frame (by decide)
    | with_reducible apply_assumption

theorem execTld_frame {x0} {x1} {x2} {s : State} : FrX 35653000 s (execTld x0 x1 x2 s) := by
  unfold execTld
  refine act_frame ?_
  have h := Fr.rfl (m := 35653003) (o := s)
  repeat'
    first
    | with_reducible apply issueCell_frame (by decide)
    | with_reducible apply_assumption

theorem execTsv_frame {x0} {x1} {x2} {s : State} : FrX 35653000 s (execTsv x0 x1 x2 s) := by
  unfold execTsv
  refine act_frame ?_
  have h := Fr.rfl (m := 35653003) (o := s)
  repeat'
    first
    | with_reducible apply issueCell_frame (by decide)
    | with_reducible apply_assumption

theorem execTzr_frame {x0} {x1} {x2} {s : State} : FrX 35653000 s (execTzr x0 x1 x2 s) := by
  unfold execTzr
  refine act_frame ?_
  have h := Fr.rfl (m := 35653003) (o := s)
  repeat'
    first
    | with_reducible apply issueCell_frame (by decide)
    | with_reducible apply_assumption

theorem execTlk_frame {x0} {x1} {x2} {s : State} : FrX 35653000 s (execTlk x0 x1 x2 s) := by
  unfold execTlk
  refine act_frame ?_
  have h := Fr.rfl (m := 35653003) (o := s)
  repeat'
    first
    | with_reducible apply issueCell_frame (by decide)
    | with_reducible apply_assumption

theorem execTlkm_frame {x0} {x1} {x2} {s : State} : FrX 35653000 s (execTlkm x0 x1 x2 s) := by
  unfold execTlkm
  refine act_frame ?_
  have h := Fr.rfl (m := 35653003) (o := s)
  repeat'
    first
    | with_reducible apply issueCell_frame (by decide)
    | with_reducible apply_assumption

theorem execTlkn_frame {x0} {x1} {x2} {s : State} : FrX 35653000 s (execTlkn x0 x1 x2 s) := by
  unfold execTlkn
  refine act_frame ?_
  have h := Fr.rfl (m := 35653003) (o := s)
  repeat'
    first
    | with_reducible apply issueCell_frame (by decide)
    | with_reducible apply_assumption

theorem execVabs_frame {x0} {x1} {x2} {s : State} : FrX 35653000 s (execVabs x0 x1 x2 s) := by
  unfold execVabs
  refine act_frame ?_
  have h := Fr.rfl (m := 35653003) (o := s)
  repeat'
    first
    | with_reducible apply issueCell_frame (by decide)
    | with_reducible apply_assumption

theorem execVadd_frame {x0} {x1} {x2} {s : State} : FrX 35653000 s (execVadd x0 x1 x2 s) := by
  unfold execVadd
  refine act_frame ?_
  have h := Fr.rfl (m := 35653003) (o := s)
  repeat'
    first
    | with_reducible apply issueCell_frame (by decide)
    | with_reducible apply_assumption

theorem execVand_frame {x0} {x1} {x2} {s : State} : FrX 35653000 s (execVand x0 x1 x2 s) := by
  unfold execVand
  refine act_frame ?_
  have h := Fr.rfl (m := 35653003) (o := s)
  repeat'
    first
    | with_reducible apply issueCell_frame (by decide)
    | with_reducible apply_assumption

theorem execVceq_frame {x0} {x1} {x2} {s : State} : FrX 35653000 s (execVceq x0 x1 x2 s) := by
  unfold execVceq
  refine act_frame ?_
  have h := Fr.rfl (m := 35653003) (o := s)
  repeat'
    first
    | with_reducible apply issueCell_frame (by decide)
    | with_reducible apply_assumption

theorem execVcge_frame {x0} {x1} {x2} {s : State} : FrX 35653000 s (execVcge x0 x1 x2 s) := by
  unfold execVcge
  refine act_frame ?_
  have h := Fr.rfl (m := 35653003) (o := s)
  repeat'
    first
    | with_reducible apply issueCell_frame (by decide)
    | with_reducible apply_assumption

theorem execVcgt_frame {x0} {x1} {x2} {s : State} : FrX 35653000 s (execVcgt x0 x1 x2 s) := by
  unfold execVcgt
  refine act_frame ?_
  have h := Fr.rfl (m := 35653003) (o := s)
  repeat'
    first
    | with_reducible apply issueCell_frame (by decide)
    | with_reducible apply_assumption

theorem execVcvt_frame {x0} {x1} {x2} {s : State} : FrX 35653000 s (execVcvt x0 x1 x2 s) := by
  unfold execVcvt
  refine act_frame ?_
  have h := Fr.rfl (m := 35653003) (o := s)
  repeat'
    first
    | with_reducible apply issueCell_frame (by decide)
    | with_reducible apply_assumption

theorem execVexp2_frame {x0} {x1} {x2} {s : State} : FrX 35653000 s (execVexp2 x0 x1 x2 s) := by
  unfold execVexp2
  refine act_frame ?_
  have h := Fr.rfl (m := 35653003) (o := s)
  repeat'
    first
    | with_reducible apply issueCell_frame (by decide)
    | with_reducible apply_assumption

theorem execVfma_frame {x0} {x1} {x2} {s : State} : FrX 35653000 s (execVfma x0 x1 x2 s) := by
  unfold execVfma
  refine act_frame ?_
  have h := Fr.rfl (m := 35653003) (o := s)
  repeat'
    first
    | with_reducible apply issueCell_frame (by decide)
    | with_reducible apply_assumption

theorem execViadd_frame {x0} {x1} {x2} {s : State} : FrX 35653000 s (execViadd x0 x1 x2 s) := by
  unfold execViadd
  refine act_frame ?_
  have h := Fr.rfl (m := 35653003) (o := s)
  repeat'
    first
    | with_reducible apply issueCell_frame (by decide)
    | with_reducible apply_assumption

theorem execVimax_frame {x0} {x1} {x2} {s : State} : FrX 35653000 s (execVimax x0 x1 x2 s) := by
  unfold execVimax
  refine act_frame ?_
  have h := Fr.rfl (m := 35653003) (o := s)
  repeat'
    first
    | with_reducible apply issueCell_frame (by decide)
    | with_reducible apply_assumption

theorem execVimin_frame {x0} {x1} {x2} {s : State} : FrX 35653000 s (execVimin x0 x1 x2 s) := by
  unfold execVimin
  refine act_frame ?_
  have h := Fr.rfl (m := 35653003) (o := s)
  repeat'
    first
    | with_reducible apply issueCell_frame (by decide)
    | with_reducible apply_assumption

theorem execVimul_frame {x0} {x1} {x2} {s : State} : FrX 35653000 s (execVimul x0 x1 x2 s) := by
  unfold execVimul
  refine act_frame ?_
  have h := Fr.rfl (m := 35653003) (o := s)
  repeat'
    first
    | with_reducible apply issueCell_frame (by decide)
    | with_reducible apply_assumption

theorem execVisub_frame {x0} {x1} {x2} {s : State} : FrX 35653000 s (execVisub x0 x1 x2 s) := by
  unfold execVisub
  refine act_frame ?_
  have h := Fr.rfl (m := 35653003) (o := s)
  repeat'
    first
    | with_reducible apply issueCell_frame (by decide)
    | with_reducible apply_assumption

theorem execVmax_frame {x0} {x1} {x2} {s : State} : FrX 35653000 s (execVmax x0 x1 x2 s) := by
  unfold execVmax
  refine act_frame ?_
  have h := Fr.rfl (m := 35653003) (o := s)
  repeat'
    first
    | with_reducible apply issueCell_frame (by decide)
    | with_reducible apply_assumption

theorem execVmin_frame {x0} {x1} {x2} {s : State} : FrX 35653000 s (execVmin x0 x1 x2 s) := by
  unfold execVmin
  refine act_frame ?_
  have h := Fr.rfl (m := 35653003) (o := s)
  repeat'
    first
    | with_reducible apply issueCell_frame (by decide)
    | with_reducible apply_assumption

theorem execVmov_frame {x0} {x1} {x2} {s : State} : FrX 35653000 s (execVmov x0 x1 x2 s) := by
  unfold execVmov
  refine act_frame ?_
  have h := Fr.rfl (m := 35653003) (o := s)
  repeat'
    first
    | with_reducible apply issueCell_frame (by decide)
    | with_reducible apply_assumption

theorem execVmul_frame {x0} {x1} {x2} {s : State} : FrX 35653000 s (execVmul x0 x1 x2 s) := by
  unfold execVmul
  refine act_frame ?_
  have h := Fr.rfl (m := 35653003) (o := s)
  repeat'
    first
    | with_reducible apply issueCell_frame (by decide)
    | with_reducible apply_assumption

theorem execVneg_frame {x0} {x1} {x2} {s : State} : FrX 35653000 s (execVneg x0 x1 x2 s) := by
  unfold execVneg
  refine act_frame ?_
  have h := Fr.rfl (m := 35653003) (o := s)
  repeat'
    first
    | with_reducible apply issueCell_frame (by decide)
    | with_reducible apply_assumption

theorem execVor_frame {x0} {x1} {x2} {s : State} : FrX 35653000 s (execVor x0 x1 x2 s) := by
  unfold execVor
  refine act_frame ?_
  have h := Fr.rfl (m := 35653003) (o := s)
  repeat'
    first
    | with_reducible apply issueCell_frame (by decide)
    | with_reducible apply_assumption

theorem execVqnt_frame {x0} {x1} {x2} {s : State} : FrX 35653000 s (execVqnt x0 x1 x2 s) := by
  unfold execVqnt
  refine act_frame ?_
  have h := Fr.rfl (m := 35653003) (o := s)
  repeat'
    first
    | with_reducible apply issueCell_frame (by decide)
    | with_reducible apply_assumption

theorem execVrcp_frame {x0} {x1} {x2} {s : State} : FrX 35653000 s (execVrcp x0 x1 x2 s) := by
  unfold execVrcp
  refine act_frame ?_
  have h := Fr.rfl (m := 35653003) (o := s)
  repeat'
    first
    | with_reducible apply issueCell_frame (by decide)
    | with_reducible apply_assumption

theorem execVrmax_frame {x0} {x1} {x2} {s : State} : FrX 35653000 s (execVrmax x0 x1 x2 s) := by
  unfold execVrmax
  refine act_frame ?_
  have h := Fr.rfl (m := 35653003) (o := s)
  repeat'
    first
    | with_reducible apply issueCell_frame (by decide)
    | with_reducible apply_assumption

theorem execVrsq_frame {x0} {x1} {x2} {s : State} : FrX 35653000 s (execVrsq x0 x1 x2 s) := by
  unfold execVrsq
  refine act_frame ?_
  have h := Fr.rfl (m := 35653003) (o := s)
  repeat'
    first
    | with_reducible apply issueCell_frame (by decide)
    | with_reducible apply_assumption

theorem execVrsum_frame {x0} {x1} {x2} {s : State} : FrX 35653000 s (execVrsum x0 x1 x2 s) := by
  unfold execVrsum
  refine act_frame ?_
  have h := Fr.rfl (m := 35653003) (o := s)
  repeat'
    first
    | with_reducible apply issueCell_frame (by decide)
    | with_reducible apply_assumption

theorem execVsel_frame {x0} {x1} {x2} {s : State} : FrX 35653000 s (execVsel x0 x1 x2 s) := by
  unfold execVsel
  refine act_frame ?_
  have h := Fr.rfl (m := 35653003) (o := s)
  repeat'
    first
    | with_reducible apply issueCell_frame (by decide)
    | with_reducible apply_assumption

theorem execVshl_frame {x0} {x1} {x2} {s : State} : FrX 35653000 s (execVshl x0 x1 x2 s) := by
  unfold execVshl
  refine act_frame ?_
  have h := Fr.rfl (m := 35653003) (o := s)
  repeat'
    first
    | with_reducible apply issueCell_frame (by decide)
    | with_reducible apply_assumption

theorem execVshr_frame {x0} {x1} {x2} {s : State} : FrX 35653000 s (execVshr x0 x1 x2 s) := by
  unfold execVshr
  refine act_frame ?_
  have h := Fr.rfl (m := 35653003) (o := s)
  repeat'
    first
    | with_reducible apply issueCell_frame (by decide)
    | with_reducible apply_assumption

theorem execVsub_frame {x0} {x1} {x2} {s : State} : FrX 35653000 s (execVsub x0 x1 x2 s) := by
  unfold execVsub
  refine act_frame ?_
  have h := Fr.rfl (m := 35653003) (o := s)
  repeat'
    first
    | with_reducible apply issueCell_frame (by decide)
    | with_reducible apply_assumption

theorem execVxor_frame {x0} {x1} {x2} {s : State} : FrX 35653000 s (execVxor x0 x1 x2 s) := by
  unfold execVxor
  refine act_frame ?_
  have h := Fr.rfl (m := 35653003) (o := s)
  repeat'
    first
    | with_reducible apply issueCell_frame (by decide)
    | with_reducible apply_assumption

theorem execServe_frame {x0} {x1} {s : State} : FrX 35753096 s (execServe x0 x1 s) := by
  unfold execServe
  refine act_frame ?_
  have h := Fr.rfl (m := 35753099) (o := s)
  repeat'
    first
    | with_reducible apply serveDesc_frame (by decide)
    | with_reducible apply_assumption

theorem execCourseComplete_frame {x0} {s : State} : FrX 35909000 s (execCourseComplete x0 s) := by
  unfold execCourseComplete
  refine act_frame ?_
  have h := Fr.rfl (m := 35909003) (o := s)
  repeat'
    first
    | with_reducible apply completeNow_frame (by decide)
    | with_reducible apply_assumption

theorem execParkTimeout_frame {x0} {x1} {s : State} : FrX 35753096 s (execParkTimeout x0 x1 s) := by
  unfold execParkTimeout
  refine act_frame ?_
  have h := Fr.rfl (m := 35753099) (o := s)
  repeat'
    first
    | with_reducible apply parkTimeout_frame (by decide)
    | with_reducible apply_assumption

theorem execPoisonHoldExpiry_frame {x0} {s : State} : FrX 35884424 s (execPoisonHoldExpiry x0 s) := by
  unfold execPoisonHoldExpiry
  refine act_frame ?_
  have h := Fr.rfl (m := 35884427) (o := s)
  repeat'
    first
    | (intro _)
    | with_reducible apply holdExpires_frame (by decide)
    | with_reducible apply Fr_ite
    | with_reducible apply_assumption

theorem execResidencyReport_frame {x0} {x1} {s : State} : FrX 1024 s (execResidencyReport x0 x1 s) := by
  unfold execResidencyReport
  refine act_frame ?_
  have h := Fr.rfl (m := 1027) (o := s)
  repeat'
    first
    | (extract_lets +onlyGivenNames z; clear_value z; revert z; intro y)
    | simp -zeta only [Fr_mk]
    | (with_reducible apply Fr_crs (by decide) <;> try with_reducible rfl)
    | with_reducible apply_assumption

theorem execSegmentTableReceive_frame {x0} {s : State} : FrX 1152 s (execSegmentTableReceive x0 s) := by
  unfold execSegmentTableReceive
  refine act_frame ?_
  have h := Fr.rfl (m := 1155) (o := s)
  repeat'
    first
    | (extract_lets +onlyGivenNames z; clear_value z; revert z; intro y)
    | with_reducible apply charge_frame (by decide)
    | simp -zeta only [Fr_mk]
    | (with_reducible apply Fr_crs (by decide) <;> try with_reducible rfl)
    | with_reducible apply_assumption

theorem execAcc_frame {x0} {x1} {x2} {s : State} : FrX 35909000 s (execAcc x0 x1 x2 s) := by
  unfold execAcc
  refine act_frame ?_
  have h := Fr.rfl (m := 35909003) (o := s)
  repeat'
    first
    | with_reducible assumption
    | (intro _)
    | with_reducible apply uIssue_frame (by decide)
    | with_reducible apply accBody_frame (by decide)
    | with_reducible apply_assumption

theorem execAdamw_frame {x0} {x1} {x2} {s : State} : FrX 35909000 s (execAdamw x0 x1 x2 s) := by
  unfold execAdamw
  refine act_frame ?_
  have h := Fr.rfl (m := 35909003) (o := s)
  repeat'
    first
    | with_reducible assumption
    | (intro _)
    | with_reducible apply uIssue_frame (by decide)
    | with_reducible apply updateBody_frame (by decide)
    | with_reducible apply_assumption

theorem execAttn_frame {x0} {x1} {x2} {s : State} : FrX 35884424 s (execAttn x0 x1 x2 s) := by
  unfold execAttn
  refine act_frame ?_
  have h := Fr.rfl (m := 35884427) (o := s)
  repeat'
    first
    | with_reducible assumption
    | (intro _)
    | with_reducible apply uIssue_frame (by decide)
    | with_reducible apply attnBody_frame (by decide)
    | with_reducible apply_assumption

theorem execGemv_frame {x0} {x1} {x2} {s : State} : FrX 35884424 s (execGemv x0 x1 x2 s) := by
  unfold execGemv
  refine act_frame ?_
  have h := Fr.rfl (m := 35884427) (o := s)
  repeat'
    first
    | with_reducible assumption
    | (intro _)
    | with_reducible apply uIssue_frame (by decide)
    | with_reducible apply gemvBody_frame (by decide)
    | with_reducible apply_assumption

theorem execSgdm_frame {x0} {x1} {x2} {s : State} : FrX 35909000 s (execSgdm x0 x1 x2 s) := by
  unfold execSgdm
  refine act_frame ?_
  have h := Fr.rfl (m := 35909003) (o := s)
  repeat'
    first
    | with_reducible assumption
    | (intro _)
    | with_reducible apply uIssue_frame (by decide)
    | with_reducible apply updateBody_frame (by decide)
    | with_reducible apply_assumption

theorem execUlistTimeout_frame {x0} {x1} {s : State} : FrX 35718280 s (execUlistTimeout x0 x1 s) := by
  unfold execUlistTimeout
  refine act_frame ?_
  have h := Fr.rfl (m := 35718283) (o := s)
  repeat'
    first
    | with_reducible apply ulistTimeout_frame (by decide)
    | with_reducible apply_assumption

theorem execMemEvict_frame {x0} {s : State} : FrX 6324360 s (execMemEvict x0 s) := by
  unfold execMemEvict
  refine act_frame ?_
  have h := Fr.rfl (m := 6324363) (o := s)
  repeat'
    first
    | with_reducible assumption
    | (intro _)
    | with_reducible apply command_frame (by decide)
    | with_reducible apply memEvict_frame (by decide)
    | with_reducible apply_assumption

theorem execMemFlush_frame {x0} {s : State} : FrX 39878792 s (execMemFlush x0 s) := by
  unfold execMemFlush
  refine act_frame ?_
  have h := Fr.rfl (m := 39878795) (o := s)
  repeat'
    first
    | with_reducible assumption
    | (intro _)
    | with_reducible apply finishWorks_frame (by decide)
    | with_reducible apply command_frame (by decide)
    | with_reducible apply memFlush_frame (by decide)
    | with_reducible apply_assumption

theorem execMemMap_frame {x0} {s : State} : FrX 6324360 s (execMemMap x0 s) := by
  unfold execMemMap
  refine act_frame ?_
  have h := Fr.rfl (m := 6324363) (o := s)
  repeat'
    first
    | with_reducible assumption
    | (intro _)
    | with_reducible apply waitFrame_frame (by decide)
    | with_reducible apply dropWait_frame (by decide)
    | with_reducible apply command_frame (by decide)
    | with_reducible apply memMap_frame (by decide)
    | with_reducible apply Fr_ite
    | with_reducible apply getD_frameP
    | with_reducible apply_assumption

theorem execMemPin_frame {x0} {s : State} : FrX 6324360 s (execMemPin x0 s) := by
  unfold execMemPin
  refine act_frame ?_
  have h := Fr.rfl (m := 6324363) (o := s)
  repeat'
    first
    | with_reducible assumption
    | (intro _)
    | with_reducible apply command_frame (by decide)
    | with_reducible apply memPin_frame (by decide)
    | with_reducible apply_assumption

theorem execMemPoisonQuery_frame {x0} {s : State} : FrX 6291592 s (execMemPoisonQuery x0 s) := by
  unfold execMemPoisonQuery
  refine act_frame ?_
  have h := Fr.rfl (m := 6291595) (o := s)
  repeat'
    first
    | with_reducible assumption
    | (intro _)
    | with_reducible apply command_frame (by decide)
    | with_reducible apply poisonQuery_frame (by decide)
    | with_reducible apply_assumption

theorem execMemPolicySet_frame {x0} {s : State} : FrX 6324360 s (execMemPolicySet x0 s) := by
  unfold execMemPolicySet
  refine act_frame ?_
  have h := Fr.rfl (m := 6324363) (o := s)
  repeat'
    first
    | with_reducible assumption
    | (intro _)
    | with_reducible apply command_frame (by decide)
    | with_reducible apply policySet_frame (by decide)
    | with_reducible apply_assumption

theorem execMemQuery_frame {x0} {s : State} : FrX 6291592 s (execMemQuery x0 s) := by
  unfold execMemQuery
  refine act_frame ?_
  have h := Fr.rfl (m := 6291595) (o := s)
  repeat'
    first
    | with_reducible assumption
    | (intro _)
    | with_reducible apply command_frame (by decide)
    | with_reducible apply memQuery_frame (by decide)
    | with_reducible apply_assumption

theorem execMemQuotaSet_frame {x0} {s : State} : FrX 6324360 s (execMemQuotaSet x0 s) := by
  unfold execMemQuotaSet
  refine act_frame ?_
  have h := Fr.rfl (m := 6324363) (o := s)
  repeat'
    first
    | with_reducible assumption
    | (intro _)
    | with_reducible apply command_frame (by decide)
    | with_reducible apply quotaSet_frame (by decide)
    | with_reducible apply_assumption

theorem execMemRegionRegister_frame {x0} {s : State} : FrX 6324360 s (execMemRegionRegister x0 s) := by
  unfold execMemRegionRegister
  refine act_frame ?_
  have h := Fr.rfl (m := 6324363) (o := s)
  repeat'
    first
    | with_reducible assumption
    | (intro _)
    | with_reducible apply command_frame (by decide)
    | with_reducible apply regionRegister_frame (by decide)
    | with_reducible apply_assumption

theorem execMemRegionRemove_frame {x0} {s : State} : FrX 6324360 s (execMemRegionRemove x0 s) := by
  unfold execMemRegionRemove
  refine act_frame ?_
  have h := Fr.rfl (m := 6324363) (o := s)
  repeat'
    first
    | with_reducible assumption
    | (intro _)
    | with_reducible apply command_frame (by decide)
    | with_reducible apply regionRemove_frame (by decide)
    | with_reducible apply_assumption

theorem execMemSlowConfig_frame {x0} {s : State} : FrX 6324360 s (execMemSlowConfig x0 s) := by
  unfold execMemSlowConfig
  refine act_frame ?_
  have h := Fr.rfl (m := 6324363) (o := s)
  repeat'
    first
    | with_reducible assumption
    | (intro _)
    | with_reducible apply command_frame (by decide)
    | with_reducible apply slowConfig_frame (by decide)
    | with_reducible apply_assumption

theorem execMemUnmap_frame {x0} {s : State} : FrX 39878792 s (execMemUnmap x0 s) := by
  unfold execMemUnmap
  refine act_frame ?_
  have h := Fr.rfl (m := 39878795) (o := s)
  repeat'
    first
    | with_reducible assumption
    | (intro _)
    | with_reducible apply finishWorks_frame (by decide)
    | with_reducible apply command_frame (by decide)
    | with_reducible apply memUnmap_frame (by decide)
    | with_reducible apply_assumption

theorem execArpRequest_frame {x0} {x1} {s : State} : FrX 1073741832 s (execArpRequest x0 x1 s) := by
  unfold execArpRequest
  refine act_frame ?_
  have h := Fr.rfl (m := 1073741835) (o := s)
  repeat'
    first
    | with_reducible apply reply_frame (by decide)
    | with_reducible apply_assumption

theorem execCxlIdeLoss_frame {x0} {s : State} : FrX 16777216 s (execCxlIdeLoss x0 s) := by
  unfold execCxlIdeLoss
  refine act_frame ?_
  have h := Fr.rfl (m := 16777219) (o := s)
  repeat'
    first
    | with_reducible apply cxlIde_frame (by decide)
    | with_reducible apply_assumption

theorem execCxlIdeReturn_frame {x0} {s : State} : FrX 16777216 s (execCxlIdeReturn x0 s) := by
  unfold execCxlIdeReturn
  refine act_frame ?_
  have h := Fr.rfl (m := 16777219) (o := s)
  repeat'
    first
    | with_reducible apply cxlIde_frame (by decide)
    | with_reducible apply_assumption

theorem execEchoRequest_frame {x0} {x1} {x2} {s : State} : FrX 1073741832 s (execEchoRequest x0 x1 x2 s) := by
  unfold execEchoRequest
  refine act_frame ?_
  have h := Fr.rfl (m := 1073741835) (o := s)
  repeat'
    first
    | (intro _)
    | with_reducible apply reply_frame (by decide)
    | with_reducible apply Fr_ite
    | with_reducible apply_assumption

theorem execEthFrameReceive_frame {x0} {x1} {x2} {s : State} : FrX 262152 s (execEthFrameReceive x0 x1 x2 s) := by
  unfold execEthFrameReceive
  refine act_frame ?_
  have h := Fr.rfl (m := 262155) (o := s)
  repeat'
    first
    | with_reducible apply ethFrame_frame (by decide)
    | with_reducible apply_assumption

theorem execLinkDown_frame {x0} {x1} {x2} {s : State} : FrX 1126957192 s (execLinkDown x0 x1 x2 s) := by
  unfold execLinkDown
  refine act_frame ?_
  have h := Fr.rfl (m := 1126957195) (o := s)
  repeat'
    first
    | with_reducible apply linkDown_frame (by decide)
    | with_reducible apply_assumption

theorem execLinkUp_frame {x0} {x1} {x2} {s : State} : FrX 17563648 s (execLinkUp x0 x1 x2 s) := by
  unfold execLinkUp
  refine act_frame ?_
  have h := Fr.rfl (m := 17563651) (o := s)
  repeat'
    first
    | with_reducible apply linkUp_frame (by decide)
    | with_reducible apply_assumption

theorem execMkaFrame_frame {x0} {x1} {x2} {s : State} : FrX 17039360 s (execMkaFrame x0 x1 x2 s) := by
  unfold execMkaFrame
  refine act_frame ?_
  have h := Fr.rfl (m := 17039363) (o := s)
  repeat'
    first
    | with_reducible apply mka_frame (by decide)
    | with_reducible apply_assumption

theorem execNeighborSolicitation_frame {x0} {x1} {s : State} : FrX 1073741832 s (execNeighborSolicitation x0 x1 s) := by
  unfold execNeighborSolicitation
  refine act_frame ?_
  have h := Fr.rfl (m := 1073741835) (o := s)
  repeat'
    first
    | with_reducible apply reply_frame (by decide)
    | with_reducible apply_assumption

theorem execPauseFrame_frame {x0} {s : State} : FrX 0 s (execPauseFrame x0 s) := by
  unfold execPauseFrame
  refine act_frame ?_
  have h := Fr.rfl (m := 3) (o := s)
  repeat'
    first
    | with_reducible apply_assumption

theorem execPfcXonSend_frame {x0} {x1} {s : State} : FrX 262152 s (execPfcXonSend x0 x1 s) := by
  unfold execPfcXonSend
  refine act_frame ?_
  have h := Fr.rfl (m := 262155) (o := s)
  repeat'
    first
    | with_reducible apply pfcXon_frame (by decide)
    | with_reducible apply_assumption

theorem execPfcFrame_frame {x0} {x1} {x2} {s : State} : FrX 1076101256 s (execPfcFrame x0 x1 x2 s) := by
  unfold execPfcFrame
  refine act_frame ?_
  have h := Fr.rfl (m := 1076101259) (o := s)
  repeat'
    first
    | with_reducible apply pfcFrame_frame (by decide)
    | with_reducible apply_assumption

theorem execWaleAck_frame {x0} {x1} {s : State} : FrX 1075839112 s (execWaleAck x0 x1 s) := by
  unfold execWaleAck
  refine act_frame ?_
  have h := Fr.rfl (m := 1075839115) (o := s)
  repeat'
    first
    | with_reducible apply waleAck_frame (by decide)
    | with_reducible apply_assumption

theorem execWaleAckTimer_frame {x0} {s : State} : FrX 1075839112 s (execWaleAckTimer x0 s) := by
  unfold execWaleAckTimer
  refine act_frame ?_
  have h := Fr.rfl (m := 1075839115) (o := s)
  repeat'
    first
    | (intro _)
    | with_reducible apply sendAck_frame (by decide)
    | with_reducible apply Fr_ite
    | with_reducible apply_assumption

theorem execWaleClose_frame {x0} {x1} {s : State} : FrX 2359304 s (execWaleClose x0 x1 s) := by
  unfold execWaleClose
  refine act_frame ?_
  have h := Fr.rfl (m := 2359307) (o := s)
  repeat'
    first
    | with_reducible apply waleClose_frame (by decide)
    | with_reducible apply_assumption

theorem execWaleData_frame {x0} {x1} {s : State} : FrX 1076101256 s (execWaleData x0 x1 s) := by
  unfold execWaleData
  refine act_frame ?_
  have h := Fr.rfl (m := 1076101259) (o := s)
  repeat'
    first
    | with_reducible apply waleData_frame (by decide)
    | with_reducible apply_assumption

theorem execWaleNak_frame {x0} {x1} {s : State} : FrX 1076101256 s (execWaleNak x0 x1 s) := by
  unfold execWaleNak
  refine act_frame ?_
  have h := Fr.rfl (m := 1076101259) (o := s)
  repeat'
    first
    | with_reducible apply waleNak_frame (by decide)
    | with_reducible apply_assumption

theorem execWaleOpen_frame {x0} {x1} {s : State} : FrX 1075839116 s (execWaleOpen x0 x1 s) := by
  unfold execWaleOpen
  refine act_frame ?_
  have h := Fr.rfl (m := 1075839119) (o := s)
  repeat'
    first
    | with_reducible apply waleOpen_frame (by decide)
    | with_reducible apply_assumption

theorem execWaleOpenAck_frame {x0} {x1} {s : State} : FrX 1075839112 s (execWaleOpenAck x0 x1 s) := by
  unfold execWaleOpenAck
  refine act_frame ?_
  have h := Fr.rfl (m := 1075839115) (o := s)
  repeat'
    first
    | with_reducible apply waleOpenAck_frame (by decide)
    | with_reducible apply_assumption

theorem execWaleResendTimeout_frame {x0} {s : State} : FrX 1076101256 s (execWaleResendTimeout x0 s) := by
  unfold execWaleResendTimeout
  refine act_frame ?_
  have h := Fr.rfl (m := 1076101259) (o := s)
  repeat'
    first
    | (intro _)
    | with_reducible apply resend_frame (by decide)
    | with_reducible apply Fr_ite
    | with_reducible apply_assumption

theorem execBucketLate_frame {x0} {x1} {s : State} : FrX 131072 s (execBucketLate x0 x1 s) := by
  unfold execBucketLate
  refine act_frame ?_
  have h := Fr.rfl (m := 131075) (o := s)
  repeat'
    first
    | with_reducible apply bucketLate_frame (by decide)
    | with_reducible apply_assumption

theorem execBucketSend_frame {x0} {x1} {s : State} : FrX 1109912972 s (execBucketSend x0 x1 s) := by
  unfold execBucketSend
  refine act_frame ?_
  have h := Fr.rfl (m := 1109912975) (o := s)
  repeat'
    first
    | with_reducible apply bucketSend_frame (by decide)
    | with_reducible apply_assumption

theorem execLearningStepStart_frame {x0} {s : State} : FrX 1107552392 s (execLearningStepStart x0 s) := by
  unfold execLearningStepStart
  refine act_frame ?_
  have h := Fr.rfl (m := 1107552395) (o := s)
  repeat'
    first
    | with_reducible apply learnStep_frame (by decide)
    | with_reducible apply_assumption

theorem execMemberSilence_frame {x0} {x1} {s : State} : FrX 35909000 s (execMemberSilence x0 x1 s) := by
  unfold execMemberSilence
  refine act_frame ?_
  have h := Fr.rfl (m := 35909003) (o := s)
  repeat'
    first
    | with_reducible apply memberSilence_frame (by decide)
    | with_reducible apply_assumption

theorem execOwnerReport_frame {x0} {x1} {s : State} : FrX 1109912972 s (execOwnerReport x0 x1 s) := by
  unfold execOwnerReport
  refine act_frame ?_
  have h := Fr.rfl (m := 1109912975) (o := s)
  repeat'
    first
    | with_reducible apply leadReport_frame (by decide)
    | with_reducible apply_assumption

theorem execPieceLost_frame {x0} {x1} {x2} {s : State} : FrX 1109912972 s (execPieceLost x0 x1 x2 s) := by
  unfold execPieceLost
  refine act_frame ?_
  have h := Fr.rfl (m := 1109912975) (o := s)
  repeat'
    first
    | with_reducible apply pieceLost_frame (by decide)
    | with_reducible apply_assumption

theorem execProbeTimeout_frame {x0} {x1} {s : State} : FrX 35782792 s (execProbeTimeout x0 x1 s) := by
  unfold execProbeTimeout
  refine act_frame ?_
  have h := Fr.rfl (m := 35782795) (o := s)
  repeat'
    first
    | with_reducible apply probeTimeout_frame (by decide)
    | with_reducible apply_assumption

theorem execPublish_frame {x0} {x1} {x2} {s : State} : FrX 35782792 s (execPublish x0 x1 x2 s) := by
  unfold execPublish
  refine act_frame ?_
  have h := Fr.rfl (m := 35782795) (o := s)
  repeat'
    first
    | with_reducible apply publish_frame (by decide)
    | with_reducible apply_assumption

theorem execPublishApply_frame {x0} {s : State} : FrX 35909000 s (execPublishApply x0 s) := by
  unfold execPublishApply
  refine act_frame ?_
  have h := Fr.rfl (m := 35909003) (o := s)
  repeat'
    first
    | (intro _)
    | with_reducible apply applyPublish_frame (by decide)
    | with_reducible apply Fr_ite
    | with_reducible apply_assumption

theorem execRingContrib_frame {x0} {x1} {s : State} : FrX 1109912972 s (execRingContrib x0 x1 s) := by
  unfold execRingContrib
  refine act_frame ?_
  have h := Fr.rfl (m := 1109912975) (o := s)
  repeat'
    first
    | with_reducible apply ringContrib_frame (by decide)
    | with_reducible apply_assumption

theorem execStepLedger_frame {x0} {x1} {s : State} : FrX 253952 s (execStepLedger x0 x1 s) := by
  unfold execStepLedger
  refine act_frame ?_
  have h := Fr.rfl (m := 253955) (o := s)
  repeat'
    first
    | with_reducible apply stepLedger_frame (by decide)
    | with_reducible apply_assumption

theorem execTwineBounce_frame {x0} {x1} {s : State} : FrX 1109912972 s (execTwineBounce x0 x1 s) := by
  unfold execTwineBounce
  refine act_frame ?_
  have h := Fr.rfl (m := 1109912975) (o := s)
  repeat'
    first
    | with_reducible apply twineBounce_frame (by decide)
    | with_reducible apply_assumption

theorem execTwineProbeReply_frame {x0} {x1} {s : State} : FrX 6422664 s (execTwineProbeReply x0 x1 s) := by
  unfold execTwineProbeReply
  refine act_frame ?_
  have h := Fr.rfl (m := 6422667) (o := s)
  repeat'
    first
    | with_reducible apply probeReply_frame (by decide)
    | with_reducible apply_assumption

theorem execTwineResult_frame {x0} {x1} {s : State} : FrX 1109912972 s (execTwineResult x0 x1 s) := by
  unfold execTwineResult
  refine act_frame ?_
  have h := Fr.rfl (m := 1109912975) (o := s)
  repeat'
    first
    | with_reducible apply twineResult_frame (by decide)
    | with_reducible apply_assumption

theorem execVerdict_frame {x0} {x1} {s : State} : FrX 1109912972 s (execVerdict x0 x1 s) := by
  unfold execVerdict
  refine act_frame ?_
  have h := Fr.rfl (m := 1109912975) (o := s)
  repeat'
    first
    | with_reducible apply verdict_frame (by decide)
    | with_reducible apply_assumption

theorem execWorkingCopyShard_frame {x0} {x1} {x2} {x3} {s : State} : FrX 254080 s (execWorkingCopyShard x0 x1 x2 x3 s) := by
  unfold execWorkingCopyShard
  refine act_frame ?_
  have h := Fr.rfl (m := 254083) (o := s)
  repeat'
    first
    | with_reducible apply shardIn_frame (by decide)
    | with_reducible apply_assumption

theorem execTrainFeedback_frame {x0} {s : State} : FrX 6520968 s (execTrainFeedback x0 s) := by
  unfold execTrainFeedback
  refine act_frame ?_
  have h := Fr.rfl (m := 6520971) (o := s)
  repeat'
    first
    | with_reducible assumption
    | (intro _)
    | with_reducible apply command_frame (by decide)
    | with_reducible apply feedback_frame (by decide)
    | with_reducible apply_assumption

theorem execTrainJobQuery_frame {x0} {s : State} : FrX 6291592 s (execTrainJobQuery x0 s) := by
  unfold execTrainJobQuery
  refine act_frame ?_
  have h := Fr.rfl (m := 6291595) (o := s)
  repeat'
    first
    | with_reducible assumption
    | (intro _)
    | with_reducible apply command_frame (by decide)
    | with_reducible apply jobQuery_frame (by decide)
    | with_reducible apply_assumption

theorem execTrainJobStart_frame {x0} {s : State} : FrX 1113843848 s (execTrainJobStart x0 s) := by
  unfold execTrainJobStart
  refine act_frame ?_
  have h := Fr.rfl (m := 1113843851) (o := s)
  repeat'
    first
    | with_reducible assumption
    | (intro _)
    | with_reducible apply command_frame (by decide)
    | with_reducible apply jobStart_frame (by decide)
    | with_reducible apply_assumption

theorem execTrainJobStop_frame {x0} {s : State} : FrX 40103304 s (execTrainJobStop x0 s) := by
  unfold execTrainJobStop
  refine act_frame ?_
  have h := Fr.rfl (m := 40103307) (o := s)
  repeat'
    first
    | with_reducible assumption
    | (intro _)
    | with_reducible apply command_frame (by decide)
    | with_reducible apply jobStop_frame (by decide)
    | with_reducible apply_assumption

theorem execTrainLearnPolicy_frame {x0} {s : State} : FrX 6520968 s (execTrainLearnPolicy x0 s) := by
  unfold execTrainLearnPolicy
  refine act_frame ?_
  have h := Fr.rfl (m := 6520971) (o := s)
  repeat'
    first
    | with_reducible assumption
    | (intro _)
    | with_reducible apply command_frame (by decide)
    | with_reducible apply learnPolicy_frame (by decide)
    | with_reducible apply_assumption

theorem execTwineProbe_frame {x0} {s : State} : FrX 1080164488 s (execTwineProbe x0 s) := by
  unfold execTwineProbe
  refine act_frame ?_
  have h := Fr.rfl (m := 1080164491) (o := s)
  repeat'
    first
    | with_reducible apply twineProbe_frame (by decide)
    | with_reducible apply_assumption

theorem execCnp_frame {x0} {s : State} : FrX 2097152 s (execCnp x0 s) := by
  unfold execCnp
  refine act_frame ?_
  have h := Fr.rfl (m := 2097155) (o := s)
  repeat'
    first
    | with_reducible apply cnp_frame (by decide)
    | with_reducible apply_assumption

theorem execRdmaRead_frame {x0} {x1} {s : State} : FrX 1109492104 s (execRdmaRead x0 x1 s) := by
  unfold execRdmaRead
  refine act_frame ?_
  have h := Fr.rfl (m := 1109492107) (o := s)
  repeat'
    first
    | with_reducible apply sendDesc_frame (by decide)
    | with_reducible apply_assumption

theorem execRdmaWrite_frame {x0} {x1} {s : State} : FrX 1109492104 s (execRdmaWrite x0 x1 s) := by
  unfold execRdmaWrite
  refine act_frame ?_
  have h := Fr.rfl (m := 1109492107) (o := s)
  repeat'
    first
    | with_reducible apply sendDesc_frame (by decide)
    | with_reducible apply_assumption

theorem execRdmaWriteWithImmediate_frame {x0} {x1} {s : State} : FrX 1109492104 s (execRdmaWriteWithImmediate x0 x1 s) := by
  unfold execRdmaWriteWithImmediate
  refine act_frame ?_
  have h := Fr.rfl (m := 1109492107) (o := s)
  repeat'
    first
    | with_reducible apply sendDesc_frame (by decide)
    | with_reducible apply_assumption

theorem execRecv_frame {x0} {x1} {s : State} : FrX 35651720 s (execRecv x0 x1 s) := by
  unfold execRecv
  refine act_frame ?_
  have h := Fr.rfl (m := 35651723) (o := s)
  repeat'
    first
    | with_reducible apply recvDesc_frame (by decide)
    | with_reducible apply_assumption

theorem execRoceAckTimeout_frame {x0} {s : State} : FrX 1109491848 s (execRoceAckTimeout x0 s) := by
  unfold execRoceAckTimeout
  refine act_frame ?_
  have h := Fr.rfl (m := 1109491851) (o := s)
  repeat'
    first
    | (intro _)
    | with_reducible apply retrySends_frame (by decide)
    | with_reducible apply Fr_ite
    | with_reducible apply_assumption

theorem execRocePacket_frame {x0} {x1} {s : State} : FrX 1109516680 s (execRocePacket x0 x1 s) := by
  unfold execRocePacket
  refine act_frame ?_
  have h := Fr.rfl (m := 1109516683) (o := s)
  repeat'
    first
    | with_reducible apply rocePacket_frame (by decide)
    | with_reducible apply_assumption

theorem execRoceRateRestore_frame {x0} {s : State} : FrX 2097152 s (execRoceRateRestore x0 s) := by
  unfold execRoceRateRestore
  refine act_frame ?_
  have h := Fr.rfl (m := 2097155) (o := s)
  repeat'
    first
    | with_reducible apply rateRestore_frame (by decide)
    | with_reducible apply_assumption

theorem execSend_frame {x0} {x1} {s : State} : FrX 1109492104 s (execSend x0 x1 s) := by
  unfold execSend
  refine act_frame ?_
  have h := Fr.rfl (m := 1109492107) (o := s)
  repeat'
    first
    | with_reducible apply sendDesc_frame (by decide)
    | with_reducible apply_assumption

theorem execSendWithImmediate_frame {x0} {x1} {s : State} : FrX 1109492104 s (execSendWithImmediate x0 x1 s) := by
  unfold execSendWithImmediate
  refine act_frame ?_
  have h := Fr.rfl (m := 1109492107) (o := s)
  repeat'
    first
    | with_reducible apply sendDesc_frame (by decide)
    | with_reducible apply_assumption

theorem execAhSet_frame {x0} {s : State} : FrX 6291592 s (execAhSet x0 s) := by
  unfold execAhSet
  refine act_frame ?_
  have h := Fr.rfl (m := 6291595) (o := s)
  repeat'
    first
    | with_reducible assumption
    | (intro _)
    | with_reducible apply command_frame (by decide)
    | with_reducible apply ahSet_frame (by decide)
    | with_reducible apply_assumption

theorem execApertureBind_frame {x0} {s : State} : FrX 6291592 s (execApertureBind x0 s) := by
  unfold execApertureBind
  refine act_frame ?_
  have h := Fr.rfl (m := 6291595) (o := s)
  repeat'
    first
    | with_reducible assumption
    | (intro _)
    | with_reducible apply command_frame (by decide)
    | with_reducible apply aperBind_frame (by decide)
    | with_reducible apply_assumption

theorem execApertureUnbind_frame {x0} {s : State} : FrX 39944328 s (execApertureUnbind x0 s) := by
  unfold execApertureUnbind
  refine act_frame ?_
  have h := Fr.rfl (m := 39944331) (o := s)
  repeat'
    first
    | with_reducible assumption
    | (intro _)
    | with_reducible apply finishQueues_frame (by decide)
    | with_reducible apply command_frame (by decide)
    | with_reducible apply aperUnbind_frame (by decide)
    | with_reducible apply_assumption

theorem execEventRingSet_frame {x0} {s : State} : FrX 6291592 s (execEventRingSet x0 s) := by
  unfold execEventRingSet
  refine act_frame ?_
  have h := Fr.rfl (m := 6291595) (o := s)
  repeat'
    first
    | with_reducible assumption
    | (intro _)
    | with_reducible apply command_frame (by decide)
    | with_reducible apply ringSet_frame (by decide)
    | with_reducible apply_assumption

theorem execMrDeregister_frame {x0} {s : State} : FrX 39944328 s (execMrDeregister x0 s) := by
  unfold execMrDeregister
  refine act_frame ?_
  have h := Fr.rfl (m := 39944331) (o := s)
  repeat'
    first
    | with_reducible assumption
    | (intro _)
    | with_reducible apply finishQueues_frame (by decide)
    | with_reducible apply command_frame (by decide)
    | with_reducible apply mrDeregister_frame (by decide)
    | with_reducible apply_assumption

theorem execMrRegister_frame {x0} {s : State} : FrX 6291596 s (execMrRegister x0 s) := by
  unfold execMrRegister
  refine act_frame ?_
  have h := Fr.rfl (m := 6291599) (o := s)
  repeat'
    first
    | with_reducible assumption
    | (intro _)
    | with_reducible apply command_frame (by decide)
    | with_reducible apply mrRegister_frame (by decide)
    | with_reducible apply_assumption

theorem execQpBlockAlloc_frame {x0} {s : State} : FrX 6291596 s (execQpBlockAlloc x0 s) := by
  unfold execQpBlockAlloc
  refine act_frame ?_
  have h := Fr.rfl (m := 6291599) (o := s)
  repeat'
    first
    | with_reducible assumption
    | (intro _)
    | with_reducible apply command_frame (by decide)
    | with_reducible apply blockAlloc_frame (by decide)
    | with_reducible apply_assumption

theorem execQpBlockFree_frame {x0} {s : State} : FrX 6291592 s (execQpBlockFree x0 s) := by
  unfold execQpBlockFree
  refine act_frame ?_
  have h := Fr.rfl (m := 6291595) (o := s)
  repeat'
    first
    | with_reducible assumption
    | (intro _)
    | with_reducible apply command_frame (by decide)
    | with_reducible apply blockFree_frame (by decide)
    | with_reducible apply_assumption

theorem execQpCreate_frame {x0} {s : State} : FrX 6324360 s (execQpCreate x0 s) := by
  unfold execQpCreate
  refine act_frame ?_
  have h := Fr.rfl (m := 6324363) (o := s)
  repeat'
    first
    | with_reducible assumption
    | (intro _)
    | with_reducible apply waitFrame_frame (by decide)
    | with_reducible apply dropWait_frame (by decide)
    | with_reducible apply command_frame (by decide)
    | with_reducible apply qpCreate_frame (by decide)
    | with_reducible apply Fr_ite
    | with_reducible apply getD_frameP
    | with_reducible apply_assumption

theorem execQpDestroy_frame {x0} {s : State} : FrX 39944328 s (execQpDestroy x0 s) := by
  unfold execQpDestroy
  refine act_frame ?_
  have h := Fr.rfl (m := 39944331) (o := s)
  repeat'
    first
    | with_reducible assumption
    | (intro _)
    | with_reducible apply finishQueues_frame (by decide)
    | with_reducible apply command_frame (by decide)
    | with_reducible apply qpDestroy_frame (by decide)
    | with_reducible apply_assumption

theorem execQpQuery_frame {x0} {s : State} : FrX 6291592 s (execQpQuery x0 s) := by
  unfold execQpQuery
  refine act_frame ?_
  have h := Fr.rfl (m := 6291595) (o := s)
  repeat'
    first
    | with_reducible assumption
    | (intro _)
    | with_reducible apply command_frame (by decide)
    | with_reducible apply qpQuery_frame (by decide)
    | with_reducible apply_assumption

theorem execQpRearm_frame {x0} {s : State} : FrX 6291592 s (execQpRearm x0 s) := by
  unfold execQpRearm
  refine act_frame ?_
  have h := Fr.rfl (m := 6291595) (o := s)
  repeat'
    first
    | with_reducible assumption
    | (intro _)
    | with_reducible apply command_frame (by decide)
    | with_reducible apply qpRearm_frame (by decide)
    | with_reducible apply_assumption

theorem execQpRedeliver_frame {x0} {s : State} : FrX 39944328 s (execQpRedeliver x0 s) := by
  unfold execQpRedeliver
  refine act_frame ?_
  have h := Fr.rfl (m := 39944331) (o := s)
  repeat'
    first
    | with_reducible assumption
    | (intro _)
    | with_reducible apply finishQueues_frame (by decide)
    | with_reducible apply command_frame (by decide)
    | with_reducible apply qpRedeliver_frame (by decide)
    | with_reducible apply_assumption

theorem execQpUndelivered_frame {x0} {s : State} : FrX 6291592 s (execQpUndelivered x0 s) := by
  unfold execQpUndelivered
  refine act_frame ?_
  have h := Fr.rfl (m := 6291595) (o := s)
  repeat'
    first
    | with_reducible assumption
    | (intro _)
    | with_reducible apply command_frame (by decide)
    | with_reducible apply qpUndelivered_frame (by decide)
    | with_reducible apply_assumption

theorem execSideClaim_frame {x0} {s : State} : FrX 6293640 s (execSideClaim x0 s) := by
  unfold execSideClaim
  refine act_frame ?_
  have h := Fr.rfl (m := 6293643) (o := s)
  repeat'
    first
    | with_reducible assumption
    | (intro _)
    | with_reducible apply command_frame (by decide)
    | with_reducible apply sideClaim_frame (by decide)
    | with_reducible apply_assumption

theorem execSideQuery_frame {x0} {s : State} : FrX 6291592 s (execSideQuery x0 s) := by
  unfold execSideQuery
  refine act_frame ?_
  have h := Fr.rfl (m := 6291595) (o := s)
  repeat'
    first
    | with_reducible assumption
    | (intro _)
    | with_reducible apply command_frame (by decide)
    | with_reducible apply sideQuery_frame (by decide)
    | with_reducible apply_assumption

theorem execSideRelease_frame {x0} {s : State} : FrX 6293640 s (execSideRelease x0 s) := by
  unfold execSideRelease
  refine act_frame ?_
  have h := Fr.rfl (m := 6293643) (o := s)
  repeat'
    first
    | with_reducible assumption
    | (intro _)
    | with_reducible apply command_frame (by decide)
    | with_reducible apply sideRelease_frame (by decide)
    | with_reducible apply_assumption

theorem execWeaverPin_frame {x0} {s : State} : FrX 6293640 s (execWeaverPin x0 s) := by
  unfold execWeaverPin
  refine act_frame ?_
  have h := Fr.rfl (m := 6293643) (o := s)
  repeat'
    first
    | with_reducible assumption
    | (intro _)
    | with_reducible apply command_frame (by decide)
    | with_reducible apply weaverPin_frame (by decide)
    | with_reducible apply_assumption

theorem execWeaverPrefetch_frame {x0} {s : State} : FrX 6326408 s (execWeaverPrefetch x0 s) := by
  unfold execWeaverPrefetch
  refine act_frame ?_
  have h := Fr.rfl (m := 6326411) (o := s)
  repeat'
    first
    | with_reducible assumption
    | (intro _)
    | with_reducible apply command_frame (by decide)
    | with_reducible apply weaverPrefetch_frame (by decide)
    | with_reducible apply_assumption

theorem execWeaverQuery_frame {x0} {s : State} : FrX 6291592 s (execWeaverQuery x0 s) := by
  unfold execWeaverQuery
  refine act_frame ?_
  have h := Fr.rfl (m := 6291595) (o := s)
  repeat'
    first
    | with_reducible assumption
    | (intro _)
    | with_reducible apply command_frame (by decide)
    | with_reducible apply weaverQuery_frame (by decide)
    | with_reducible apply_assumption

theorem execWeaverRegister_frame {x0} {s : State} : FrX 6326408 s (execWeaverRegister x0 s) := by
  unfold execWeaverRegister
  refine act_frame ?_
  have h := Fr.rfl (m := 6326411) (o := s)
  repeat'
    first
    | with_reducible assumption
    | (intro _)
    | with_reducible apply command_frame (by decide)
    | with_reducible apply weaverRegister_frame (by decide)
    | with_reducible apply_assumption

theorem execWeaverRemove_frame {x0} {s : State} : FrX 39963784 s (execWeaverRemove x0 s) := by
  unfold execWeaverRemove
  refine act_frame ?_
  have h := Fr.rfl (m := 39963787) (o := s)
  repeat'
    first
    | with_reducible assumption
    | (intro _)
    | with_reducible apply command_frame (by decide)
    | with_reducible apply weaverRemove_frame (by decide)
    | with_reducible apply_assumption

theorem execStakeAbort_frame {x0} {s : State} : FrX 39882888 s (execStakeAbort x0 s) := by
  unfold execStakeAbort
  refine act_frame ?_
  have h := Fr.rfl (m := 39882891) (o := s)
  repeat'
    first
    | with_reducible assumption
    | (intro _)
    | with_reducible apply command_frame (by decide)
    | with_reducible apply stakeAbort_frame (by decide)
    | with_reducible apply_assumption

theorem execStakeBuild_frame {x0} {s : State} : FrX 39884936 s (execStakeBuild x0 s) := by
  unfold execStakeBuild
  refine act_frame ?_
  have h := Fr.rfl (m := 39884939) (o := s)
  repeat'
    first
    | with_reducible assumption
    | (intro _)
    | with_reducible apply command_frame (by decide)
    | with_reducible apply stakeBuild_frame (by decide)
    | with_reducible apply_assumption

theorem execStakeCarryQuery_frame {x0} {s : State} : FrX 6291592 s (execStakeCarryQuery x0 s) := by
  unfold execStakeCarryQuery
  refine act_frame ?_
  have h := Fr.rfl (m := 6291595) (o := s)
  repeat'
    first
    | with_reducible assumption
    | (intro _)
    | with_reducible apply command_frame (by decide)
    | with_reducible apply carryQuery_frame (by decide)
    | with_reducible apply_assumption

theorem execStakeCommit_frame {x0} {s : State} : FrX 7344264 s (execStakeCommit x0 s) := by
  unfold execStakeCommit
  refine act_frame ?_
  have h := Fr.rfl (m := 7344267) (o := s)
  repeat'
    first
    | with_reducible assumption
    | (intro _)
    | with_reducible apply command_frame (by decide)
    | with_reducible apply stakeCommit_frame (by decide)
    | with_reducible apply_assumption

theorem execStakeEvict_frame {x0} {s : State} : FrX 6295688 s (execStakeEvict x0 s) := by
  unfold execStakeEvict
  refine act_frame ?_
  have h := Fr.rfl (m := 6295691) (o := s)
  repeat'
    first
    | with_reducible assumption
    | (intro _)
    | with_reducible apply command_frame (by decide)
    | with_reducible apply stakeEvict_frame (by decide)
    | with_reducible apply_assumption

theorem execStakeQuery_frame {x0} {s : State} : FrX 6291592 s (execStakeQuery x0 s) := by
  unfold execStakeQuery
  refine act_frame ?_
  have h := Fr.rfl (m := 6291595) (o := s)
  repeat'
    first
    | with_reducible assumption
    | (intro _)
    | with_reducible apply command_frame (by decide)
    | with_reducible apply stakeQuery_frame (by decide)
    | with_reducible apply_assumption

theorem execStakeRegister_frame {x0} {s : State} : FrX 23072904 s (execStakeRegister x0 s) := by
  unfold execStakeRegister
  refine act_frame ?_
  have h := Fr.rfl (m := 23072907) (o := s)
  repeat'
    first
    | with_reducible assumption
    | (intro _)
    | with_reducible apply command_frame (by decide)
    | with_reducible apply stakeRegister_frame (by decide)
    | with_reducible apply_assumption

theorem execContextScrubDone_frame {x0} {s : State} : FrX 44223624 s (execContextScrubDone x0 s) := by
  unfold execContextScrubDone
  refine act_frame ?_
  have h := Fr.rfl (m := 44223627) (o := s)
  repeat'
    first
    | with_reducible apply scrubDone_frame (by decide)
    | with_reducible apply_assumption

theorem execForcedAbort_frame {x0} {s : State} : FrX 52463752 s (execForcedAbort x0 s) := by
  unfold execForcedAbort
  refine act_frame ?_
  have h := Fr.rfl (m := 52463755) (o := s)
  repeat'
    first
    | with_reducible apply forcedAbort_frame (by decide)
    | with_reducible apply_assumption

theorem execKeyZeroiseDone_frame {x0} {s : State} : FrX 25165824 s (execKeyZeroiseDone x0 s) := by
  unfold execKeyZeroiseDone
  refine act_frame ?_
  have h := Fr.rfl (m := 25165827) (o := s)
  repeat'
    first
    | with_reducible apply zeroised_frame (by decide)
    | with_reducible apply_assumption

theorem execRemovalDrain_frame {x0} {s : State} : FrX 16777216 s (execRemovalDrain x0 s) := by
  unfold execRemovalDrain
  refine act_frame ?_
  have h := Fr.rfl (m := 16777219) (o := s)
  repeat'
    first
    | with_reducible apply drain_frame (by decide)
    | with_reducible apply_assumption

theorem execAtsInvalidation_frame {x0} {x1} {s : State} : FrX 2097160 s (execAtsInvalidation x0 x1 s) := by
  unfold execAtsInvalidation
  refine act_frame ?_
  have h := Fr.rfl (m := 2097163) (o := s)
  repeat'
    first
    | with_reducible apply atsInvalidate_frame (by decide)
    | with_reducible apply_assumption

theorem execBmeRestored_frame {x0} {s : State} : FrX 2097288 s (execBmeRestored x0 s) := by
  unfold execBmeRestored
  refine act_frame ?_
  have h := Fr.rfl (m := 2097291) (o := s)
  repeat'
    first
    | with_reducible apply bmeRestored_frame (by decide)
    | with_reducible apply_assumption

theorem execDlDown_frame  {s : State} : FrX 35651724 s (execDlDown s) := by
  unfold execDlDown
  refine act_frame ?_
  have h := Fr.rfl (m := 35651727) (o := s)
  repeat'
    first
    | with_reducible apply dlDown_frame (by decide)
    | with_reducible apply_assumption

theorem execEvtModExpiry_frame {x0} {x1} {s : State} : FrX 2097160 s (execEvtModExpiry x0 x1 s) := by
  unfold execEvtModExpiry
  refine act_frame ?_
  have h := Fr.rfl (m := 2097163) (o := s)
  repeat'
    first
    | with_reducible apply modExpiry_frame (by decide)
    | with_reducible apply_assumption

theorem execFlr_frame {x0} {s : State} : FrX 40103820 s (execFlr x0 s) := by
  unfold execFlr
  refine act_frame ?_
  have h := Fr.rfl (m := 40103823) (o := s)
  repeat'
    first
    | with_reducible apply flr_frame (by decide)
    | with_reducible apply_assumption

theorem execVfEnable_frame {x0} {s : State} : FrX 2097152 s (execVfEnable x0 s) := by
  unfold execVfEnable
  refine act_frame ?_
  have h := Fr.rfl (m := 2097155) (o := s)
  repeat'
    first
    | with_reducible apply vfEnable_frame (by decide)
    | with_reducible apply_assumption

theorem execBankZeroDone_frame {x0} {s : State} : FrX 256 s (execBankZeroDone x0 s) := by
  unfold execBankZeroDone
  refine act_frame ?_
  have h := Fr.rfl (m := 259) (o := s)
  repeat'
    first
    | with_reducible apply bankZeroed_frame (by decide)
    | with_reducible apply_assumption

theorem execCellFailure_frame {x0} {s : State} : FrX 35719048 s (execCellFailure x0 s) := by
  unfold execCellFailure
  refine act_frame ?_
  have h := Fr.rfl (m := 35719051) (o := s)
  repeat'
    first
    | with_reducible apply cellFails_frame (by decide)
    | with_reducible apply_assumption

theorem execCellSaveDone_frame {x0} {s : State} : FrX 41728 s (execCellSaveDone x0 s) := by
  unfold execCellSaveDone
  refine act_frame ?_
  have h := Fr.rfl (m := 41731) (o := s)
  repeat'
    first
    | with_reducible apply cellSaved_frame (by decide)
    | with_reducible apply_assumption

theorem execRestoreCheck_frame {x0} {s : State} : FrX 35719048 s (execRestoreCheck x0 s) := by
  unfold execRestoreCheck
  refine act_frame ?_
  have h := Fr.rfl (m := 35719051) (o := s)
  repeat'
    first
    | with_reducible apply restoreCheck_frame (by decide)
    | with_reducible apply_assumption

theorem execSpareLoadDone_frame {x0} {s : State} : FrX 35909512 s (execSpareLoadDone x0 s) := by
  unfold execSpareLoadDone
  refine act_frame ?_
  have h := Fr.rfl (m := 35909515) (o := s)
  repeat'
    first
    | with_reducible apply spareLoaded_frame (by decide)
    | with_reducible apply_assumption

theorem execUpsettImageStage_frame {x0} {s : State} : FrX 16777728 s (execUpsettImageStage x0 s) := by
  unfold execUpsettImageStage
  refine act_frame ?_
  have h := Fr.rfl (m := 16777731) (o := s)
  repeat'
    first
    | with_reducible apply stageImage_frame (by decide)
    | with_reducible apply_assumption

theorem execBypassForcedClose_frame {x0} {s : State} : FrX 1048576 s (execBypassForcedClose x0 s) := by
  unfold execBypassForcedClose
  refine act_frame ?_
  have h := Fr.rfl (m := 1048579) (o := s)
  repeat'
    first
    | with_reducible apply bypassClose_frame (by decide)
    | with_reducible apply_assumption

theorem execBypassSwitch_frame  {s : State} : FrX 1048576 s (execBypassSwitch s) := by
  unfold execBypassSwitch
  refine act_frame ?_
  have h := Fr.rfl (m := 1048579) (o := s)
  repeat'
    first
    | with_reducible apply bypassSwitch_frame (by decide)
    | with_reducible apply_assumption

theorem execHoopRxLockChange_frame {x0} {s : State} : FrX 1048576 s (execHoopRxLockChange x0 s) := by
  unfold execHoopRxLockChange
  refine act_frame ?_
  have h := Fr.rfl (m := 1048579) (o := s)
  repeat'
    first
    | (extract_lets +onlyGivenNames z; clear_value z; revert z; intro y)
    | simp -zeta only [Fr_mk]
    | (with_reducible apply Fr_hoop (by decide) <;> try with_reducible rfl)
    | with_reducible apply_assumption

theorem execMgmtFrameReceive_frame {x0} {s : State} : FrX 36704392 s (execMgmtFrameReceive x0 s) := by
  unfold execMgmtFrameReceive
  refine act_frame ?_
  have h := Fr.rfl (m := 36704395) (o := s)
  repeat'
    first
    | with_reducible apply mgmtFrame_frame (by decide)
    | with_reducible apply_assumption

theorem execPresent_frame {x0} {x1} {s : State} : FrX 1048576 s (execPresent x0 x1 s) := by
  unfold execPresent
  refine act_frame ?_
  have h := Fr.rfl (m := 1048579) (o := s)
  repeat'
    first
    | with_reducible apply presentFrom_frame (by decide)
    | with_reducible apply_assumption

theorem execStakeAbortMsg_frame {x0} {x1} {x2} {s : State} : FrX 35655816 s (execStakeAbortMsg x0 x1 x2 s) := by
  unfold execStakeAbortMsg
  refine act_frame ?_
  have h := Fr.rfl (m := 35655819) (o := s)
  repeat'
    first
    | with_reducible apply stakeAbortMsg_frame (by decide)
    | with_reducible apply_assumption

theorem execStakeCurrent_frame {x0} {x1} {s : State} : FrX 4096 s (execStakeCurrent x0 x1 s) := by
  unfold execStakeCurrent
  refine act_frame ?_
  have h := Fr.rfl (m := 4099) (o := s)
  repeat'
    first
    | with_reducible apply stakeCurrent_frame (by decide)
    | with_reducible apply_assumption

theorem execStakeGo_frame {x0} {x1} {x2} {s : State} : FrX 4096 s (execStakeGo x0 x1 x2 s) := by
  unfold execStakeGo
  refine act_frame ?_
  have h := Fr.rfl (m := 4099) (o := s)
  repeat'
    first
    | with_reducible apply stakeGo_frame (by decide)
    | with_reducible apply_assumption

theorem execStakeReady_frame {x0} {x1} {x2} {x3} {x4} {s : State} : FrX 4096 s (execStakeReady x0 x1 x2 x3 x4 s) := by
  unfold execStakeReady
  refine act_frame ?_
  have h := Fr.rfl (m := 4099) (o := s)
  repeat'
    first
    | with_reducible apply stakeReady_frame (by decide)
    | with_reducible apply_assumption

theorem execBlkIdleWaitEnd_frame {x0} {s : State} : FrX 1262290316 s (execBlkIdleWaitEnd x0 s) := by
  unfold execBlkIdleWaitEnd
  refine act_frame ?_
  have h := Fr.rfl (m := 1262290319) (o := s)
  repeat'
    first
    | with_reducible apply idleWaitEnds_frame (by decide)
    | with_reducible apply_assumption

theorem execBlockRelease_frame  {s : State} : FrX 170126728 s (execBlockRelease s) := by
  unfold execBlockRelease
  refine act_frame ?_
  have h := Fr.rfl (m := 170126731) (o := s)
  repeat'
    first
    | with_reducible apply blockRelease_frame (by decide)
    | with_reducible apply_assumption

theorem execD3coldEntry_frame  {s : State} : FrX 2147483644 s (execD3coldEntry s) := by
  unfold execD3coldEntry
  refine act_frame ?_
  have h := Fr.rfl (m := 2147483647) (o := s)
  repeat'
    first
    | with_reducible apply d3cold_frame (by decide)
    | with_reducible apply_assumption

theorem execD3coldWindowExpiry_frame {x0} {s : State} : FrX 2147483644 s (execD3coldWindowExpiry x0 s) := by
  unfold execD3coldWindowExpiry
  refine act_frame ?_
  have h := Fr.rfl (m := 2147483647) (o := s)
  repeat'
    first
    | with_reducible apply windowExpires_frame (by decide)
    | with_reducible apply_assumption

theorem execDeviceReady_frame  {s : State} : FrX 497549320 s (execDeviceReady s) := by
  unfold execDeviceReady
  refine act_frame ?_
  have h := Fr.rfl (m := 497549323) (o := s)
  repeat'
    first
    | with_reducible apply deviceReady_frame (by decide)
    | with_reducible apply_assumption

theorem execFwFallback_frame  {s : State} : FrX 320864392 s (execFwFallback s) := by
  unfold execFwFallback
  refine act_frame ?_
  have h := Fr.rfl (m := 320864395) (o := s)
  repeat'
    first
    | with_reducible apply fwFallback_frame (by decide)
    | with_reducible apply_assumption

theorem execLidReset_frame {x0} {s : State} : FrX 2147483644 s (execLidReset x0 s) := by
  unfold execLidReset
  refine act_frame ?_
  have h := Fr.rfl (m := 2147483647) (o := s)
  repeat'
    first
    | with_reducible apply lidReset_frame (by decide)
    | with_reducible apply_assumption

theorem execMainPowerReturn_frame  {s : State} : FrX 2147483644 s (execMainPowerReturn s) := by
  unfold execMainPowerReturn
  refine act_frame ?_
  have h := Fr.rfl (m := 2147483647) (o := s)
  repeat'
    first
    | with_reducible apply powerReturns_frame (by decide)
    | with_reducible apply_assumption

theorem execPcieHotReset_frame  {s : State} : FrX 1610612732 s (execPcieHotReset s) := by
  unfold execPcieHotReset
  refine act_frame ?_
  have h := Fr.rfl (m := 1610612735) (o := s)
  repeat'
    first
    | with_reducible apply warm_frame (by decide)
    | with_reducible apply_assumption

theorem execPerstAssert_frame  {s : State} : FrX 1610612732 s (execPerstAssert s) := by
  unfold execPerstAssert
  refine act_frame ?_
  have h := Fr.rfl (m := 1610612735) (o := s)
  repeat'
    first
    | with_reducible apply perstAssert_frame (by decide)
    | with_reducible apply_assumption

theorem execPerstDeassert_frame  {s : State} : FrX 136314880 s (execPerstDeassert s) := by
  unfold execPerstDeassert
  refine act_frame ?_
  have h := Fr.rfl (m := 136314883) (o := s)
  repeat'
    first
    | with_reducible apply perstDeassert_frame (by decide)
    | with_reducible apply_assumption

theorem execPwrokCycle_frame  {s : State} : FrX 2147483644 s (execPwrokCycle s) := by
  unfold execPwrokCycle
  refine act_frame ?_
  have h := Fr.rfl (m := 2147483647) (o := s)
  repeat'
    first
    | with_reducible apply cold_frame (by decide)
    | with_reducible apply_assumption

theorem execRailUvReset_frame {x0} {s : State} : FrX 2147483644 s (execRailUvReset x0 s) := by
  unfold execRailUvReset
  refine act_frame ?_
  have h := Fr.rfl (m := 2147483647) (o := s)
  repeat'
    first
    | with_reducible apply railCrosses_frame (by decide)
    | with_reducible apply_assumption

theorem execVaonPowerOn_frame  {s : State} : FrX 2147483644 s (execVaonPowerOn s) := by
  unfold execVaonPowerOn
  refine act_frame ?_
  have h := Fr.rfl (m := 2147483647) (o := s)
  repeat'
    first
    | with_reducible apply cold_frame (by decide)
    | with_reducible apply_assumption

theorem execWarmReset_frame {x0} {s : State} : FrX 1610612732 s (execWarmReset x0 s) := by
  unfold execWarmReset
  refine act_frame ?_
  have h := Fr.rfl (m := 1610612735) (o := s)
  repeat'
    first
    | with_reducible apply warmReset_frame (by decide)
    | with_reducible apply_assumption

theorem execCopyEngineFault_frame {x0} {s : State} : FrX 169869448 s (execCopyEngineFault x0 s) := by
  unfold execCopyEngineFault
  refine act_frame ?_
  have h := Fr.rfl (m := 169869451) (o := s)
  repeat'
    first
    | with_reducible apply copyEngineFails_frame (by decide)
    | with_reducible apply_assumption

theorem execFabricFailed_frame {x0} {x1} {s : State} : FrX 36957576 s (execFabricFailed x0 x1 s) := by
  unfold execFabricFailed
  refine act_frame ?_
  have h := Fr.rfl (m := 36957579) (o := s)
  repeat'
    first
    | with_reducible apply fabricFails_frame (by decide)
    | with_reducible apply_assumption

theorem execFirmwareWatchdog_frame  {s : State} : FrX 39977096 s (execFirmwareWatchdog s) := by
  unfold execFirmwareWatchdog
  refine act_frame ?_
  have h := Fr.rfl (m := 39977099) (o := s)
  repeat'
    first
    | with_reducible apply firmwareRestarts_frame (by decide)
    | with_reducible apply_assumption

theorem execFlitReplayFail_frame {x0} {x1} {s : State} : FrX 35718536 s (execFlitReplayFail x0 x1 s) := by
  unfold execFlitReplayFail
  refine act_frame ?_
  have h := Fr.rfl (m := 35718539) (o := s)
  repeat'
    first
    | with_reducible apply flitFails_frame (by decide)
    | with_reducible apply_assumption

theorem execLidSelfCheckFail_frame  {s : State} : FrX 2147483644 s (execLidSelfCheckFail s) := by
  unfold execLidSelfCheckFail
  refine act_frame ?_
  have h := Fr.rfl (m := 2147483647) (o := s)
  repeat'
    first
    | with_reducible apply lidReset_frame (by decide)
    | with_reducible apply_assumption

theorem execLinkRetrainDone_frame {x0} {x1} {x2} {s : State} : FrX 36957576 s (execLinkRetrainDone x0 x1 x2 s) := by
  unfold execLinkRetrainDone
  refine act_frame ?_
  have h := Fr.rfl (m := 36957579) (o := s)
  repeat'
    first
    | with_reducible apply retrainDone_frame (by decide)
    | with_reducible apply_assumption

theorem execMigrationEngineFault_frame {x0} {s : State} : FrX 35651720 s (execMigrationEngineFault x0 s) := by
  unfold execMigrationEngineFault
  refine act_frame ?_
  have h := Fr.rfl (m := 35651723) (o := s)
  repeat'
    first
    | with_reducible apply migrationFails_frame (by decide)
    | with_reducible apply_assumption

theorem execSlathEngineFault_frame {x0} {x1} {s : State} : FrX 35718536 s (execSlathEngineFault x0 x1 s) := by
  unfold execSlathEngineFault
  refine act_frame ?_
  have h := Fr.rfl (m := 35718539) (o := s)
  repeat'
    first
    | with_reducible apply slathFails_frame (by decide)
    | with_reducible apply_assumption

theorem execSramUncorrectable_frame {x0} {x1} {s : State} : FrX 36957576 s (execSramUncorrectable x0 x1 s) := by
  unfold execSramUncorrectable
  refine act_frame ?_
  have h := Fr.rfl (m := 36957579) (o := s)
  repeat'
    first
    | with_reducible apply sramFails_frame (by decide)
    | with_reducible apply_assumption

theorem execClockLoopEval_frame {x0} {s : State} : FrX 102760584 s (execClockLoopEval x0 s) := by
  unfold execClockLoopEval
  refine act_frame ?_
  have h := Fr.rfl (m := 102760587) (o := s)
  repeat'
    first
    | with_reducible apply clockLoop_frame (by decide)
    | with_reducible apply_assumption

theorem execDipRecovered_frame {x0} {s : State} : FrX 102760588 s (execDipRecovered x0 s) := by
  unfold execDipRecovered
  refine act_frame ?_
  have h := Fr.rfl (m := 102760591) (o := s)
  repeat'
    first
    | with_reducible apply dipEnds_frame (by decide)
    | with_reducible apply_assumption

theorem execDipTimeout_frame {x0} {x1} {s : State} : FrX 102760584 s (execDipTimeout x0 x1 s) := by
  unfold execDipTimeout
  refine act_frame ?_
  have h := Fr.rfl (m := 102760587) (o := s)
  repeat'
    first
    | with_reducible apply dipStays_frame (by decide)
    | with_reducible apply_assumption

theorem execPmcsrD0_frame  {s : State} : FrX 102760584 s (execPmcsrD0 s) := by
  unfold execPmcsrD0
  refine act_frame ?_
  have h := Fr.rfl (m := 102760587) (o := s)
  repeat'
    first
    | with_reducible apply d0_frame (by decide)
    | with_reducible apply_assumption

theorem execPmcsrD3hot_frame  {s : State} : FrX 67108864 s (execPmcsrD3hot s) := by
  unfold execPmcsrD3hot
  refine act_frame ?_
  have h := Fr.rfl (m := 67108867) (o := s)
  repeat'
    first
    | with_reducible apply d3hotAsked_frame (by decide)
    | with_reducible apply_assumption

theorem execPowerOverTdp_frame {x0} {s : State} : FrX 102760584 s (execPowerOverTdp x0 s) := by
  unfold execPowerOverTdp
  refine act_frame ?_
  have h := Fr.rfl (m := 102760587) (o := s)
  repeat'
    first
    | with_reducible apply overTdp_frame (by decide)
    | with_reducible apply_assumption

theorem execRailDip_frame {x0} {x1} {s : State} : FrX 102760648 s (execRailDip x0 x1 s) := by
  unfold execRailDip
  refine act_frame ?_
  have h := Fr.rfl (m := 102760651) (o := s)
  repeat'
    first
    | with_reducible apply dip_frame (by decide)
    | with_reducible apply_assumption

theorem execRefclkLoss_frame  {s : State} : FrX 1126957260 s (execRefclkLoss s) := by
  unfold execRefclkLoss
  refine act_frame ?_
  have h := Fr.rfl (m := 1126957263) (o := s)
  repeat'
    first
    | with_reducible apply refLost_frame (by decide)
    | with_reducible apply_assumption

theorem execRefclkRestore_frame  {s : State} : FrX 64 s (execRefclkRestore s) := by
  unfold execRefclkRestore
  refine act_frame ?_
  have h := Fr.rfl (m := 67) (o := s)
  repeat'
    first
    | with_reducible apply refBack_frame (by decide)
    | with_reducible apply_assumption

theorem execShelfEntry_frame  {s : State} : FrX 102802312 s (execShelfEntry s) := by
  unfold execShelfEntry
  refine act_frame ?_
  have h := Fr.rfl (m := 102802315) (o := s)
  repeat'
    first
    | with_reducible apply shelfEntry_frame (by decide)
    | with_reducible apply_assumption

theorem execShelfExitReady_frame  {s : State} : FrX 67108872 s (execShelfExitReady s) := by
  unfold execShelfExitReady
  refine act_frame ?_
  have h := Fr.rfl (m := 67108875) (o := s)
  repeat'
    first
    | with_reducible apply shelfExitReady_frame (by decide)
    | with_reducible apply_assumption

theorem execThermalThrottle_frame {x0} {x1} {s : State} : FrX 102760584 s (execThermalThrottle x0 x1 s) := by
  unfold execThermalThrottle
  refine act_frame ?_
  have h := Fr.rfl (m := 102760587) (o := s)
  repeat'
    first
    | with_reducible apply thermal_frame (by decide)
    | with_reducible apply_assumption

theorem execThermalTrip_frame {x0} {x1} {s : State} : FrX 104066440 s (execThermalTrip x0 x1 s) := by
  unfold execThermalTrip
  refine act_frame ?_
  have h := Fr.rfl (m := 104066443) (o := s)
  repeat'
    first
    | with_reducible apply trip_frame (by decide)
    | with_reducible apply_assumption

theorem execVrcAckRelease_frame {x0} {s : State} : FrX 102760584 s (execVrcAckRelease x0 s) := by
  unfold execVrcAckRelease
  refine act_frame ?_
  have h := Fr.rfl (m := 102760587) (o := s)
  repeat'
    first
    | with_reducible apply vrcAck_frame (by decide)
    | with_reducible apply_assumption

theorem execVrcAckTimeout_frame {x0} {s : State} : FrX 67108864 s (execVrcAckTimeout x0 s) := by
  unfold execVrcAckTimeout
  refine act_frame ?_
  have h := Fr.rfl (m := 67108867) (o := s)
  repeat'
    first
    | with_reducible apply vrcTimeout_frame (by decide)
    | with_reducible apply_assumption

theorem execConsentSet_frame {x0} {x1} {x2} {x3} {s : State} : FrX 25165832 s (execConsentSet x0 x1 x2 x3 s) := by
  unfold execConsentSet
  refine act_frame ?_
  have h := Fr.rfl (m := 25165835) (o := s)
  repeat'
    first
    | with_reducible apply consentSet_frame (by decide)
    | with_reducible apply_assumption

theorem execDebugUnlock_frame {x0} {s : State} : FrX 16777224 s (execDebugUnlock x0 s) := by
  unfold execDebugUnlock
  refine act_frame ?_
  have h := Fr.rfl (m := 16777227) (o := s)
  repeat'
    first
    | with_reducible apply debugUnlock_frame (by decide)
    | with_reducible apply_assumption

theorem execGetMeasurements_frame {x0} {x1} {s : State} : FrX 8 s (execGetMeasurements x0 x1 s) := by
  unfold execGetMeasurements
  refine act_frame ?_
  have h := Fr.rfl (m := 11) (o := s)
  repeat'
    first
    | with_reducible apply getMeasurements_frame (by decide)
    | with_reducible apply_assumption

theorem execIdeInsecure_frame  {s : State} : FrX 16777216 s (execIdeInsecure s) := by
  unfold execIdeInsecure
  refine act_frame ?_
  have h := Fr.rfl (m := 16777219) (o := s)
  repeat'
    first
    | with_reducible apply setLinkIde_frame (by decide)
    | with_reducible apply_assumption

theorem execIdeKm_frame {x0} {x1} {s : State} : FrX 16777224 s (execIdeKm x0 x1 s) := by
  unfold execIdeKm
  refine act_frame ?_
  have h := Fr.rfl (m := 16777227) (o := s)
  repeat'
    first
    | with_reducible apply ideKm_frame (by decide)
    | with_reducible apply_assumption

theorem execJtagInstruction_frame {x0} {s : State} : FrX 8 s (execJtagInstruction x0 s) := by
  unfold execJtagInstruction
  refine act_frame ?_
  have h := Fr.rfl (m := 11) (o := s)
  repeat'
    first
    | with_reducible apply emit_frame (by decide)
    | with_reducible apply_assumption

theorem execKeyExchange_frame {x0} {x1} {x2} {s : State} : FrX 16777224 s (execKeyExchange x0 x1 x2 s) := by
  unfold execKeyExchange
  refine act_frame ?_
  have h := Fr.rfl (m := 16777227) (o := s)
  repeat'
    first
    | with_reducible apply keyExchange_frame (by decide)
    | with_reducible apply_assumption

theorem execKeyRelease_frame {x0} {x1} {s : State} : FrX 25427976 s (execKeyRelease x0 x1 s) := by
  unfold execKeyRelease
  refine act_frame ?_
  have h := Fr.rfl (m := 25427979) (o := s)
  repeat'
    first
    | with_reducible apply keyRelease_frame (by decide)
    | with_reducible apply_assumption

theorem execKeyRevoke_frame {x0} {x1} {s : State} : FrX 1135078792 s (execKeyRevoke x0 x1 s) := by
  unfold execKeyRevoke
  refine act_frame ?_
  have h := Fr.rfl (m := 1135078795) (o := s)
  repeat'
    first
    | with_reducible apply keyRevoke_frame (by decide)
    | with_reducible apply_assumption

theorem execOperatorSet_frame {x0} {x1} {s : State} : FrX 2147483644 s (execOperatorSet x0 x1 s) := by
  unfold execOperatorSet
  refine act_frame ?_
  have h := Fr.rfl (m := 2147483647) (o := s)
  repeat'
    first
    | with_reducible apply operatorSet_frame (by decide)
    | with_reducible apply_assumption

theorem execPolicySet_frame {x0} {x1} {s : State} : FrX 16777224 s (execPolicySet x0 x1 s) := by
  unfold execPolicySet
  refine act_frame ?_
  have h := Fr.rfl (m := 16777227) (o := s)
  repeat'
    first
    | with_reducible apply State_policySet_frame (by decide)
    | with_reducible apply_assumption

theorem execSpdmHeartbeatTimeout_frame {x0} {s : State} : FrX 16777216 s (execSpdmHeartbeatTimeout x0 s) := by
  unfold execSpdmHeartbeatTimeout
  refine act_frame ?_
  have h := Fr.rfl (m := 16777219) (o := s)
  repeat'
    first
    | with_reducible apply closeSpdm_frame (by decide)
    | with_reducible apply_assumption

theorem execDebugRelease_frame {x0} {s : State} : FrX 23068808 s (execDebugRelease x0 s) := by
  unfold execDebugRelease
  refine act_frame ?_
  have h := Fr.rfl (m := 23068811) (o := s)
  repeat'
    first
    | with_reducible assumption
    | (intro _)
    | with_reducible apply command_frame (by decide)
    | with_reducible apply debugRelease_frame (by decide)
    | with_reducible apply_assumption

theorem execDebugRequest_frame {x0} {s : State} : FrX 23068808 s (execDebugRequest x0 s) := by
  unfold execDebugRequest
  refine act_frame ?_
  have h := Fr.rfl (m := 23068811) (o := s)
  repeat'
    first
    | with_reducible assumption
    | (intro _)
    | with_reducible apply command_frame (by decide)
    | with_reducible apply debugRequest_frame (by decide)
    | with_reducible apply_assumption

theorem execFaultQuery_frame {x0} {s : State} : FrX 6291592 s (execFaultQuery x0 s) := by
  unfold execFaultQuery
  refine act_frame ?_
  have h := Fr.rfl (m := 6291595) (o := s)
  repeat'
    first
    | with_reducible assumption
    | (intro _)
    | with_reducible apply command_frame (by decide)
    | with_reducible apply faultQuery_frame (by decide)
    | with_reducible apply_assumption

theorem execJournalRead_frame {x0} {s : State} : FrX 6414472 s (execJournalRead x0 s) := by
  unfold execJournalRead
  refine act_frame ?_
  have h := Fr.rfl (m := 6414475) (o := s)
  repeat'
    first
    | with_reducible apply journalCommand_frame (by decide)
    | with_reducible apply_assumption

theorem execKeyQuery_frame {x0} {s : State} : FrX 6291592 s (execKeyQuery x0 s) := by
  unfold execKeyQuery
  refine act_frame ?_
  have h := Fr.rfl (m := 6291595) (o := s)
  repeat'
    first
    | with_reducible assumption
    | (intro _)
    | with_reducible apply command_frame (by decide)
    | with_reducible apply keyQuery_frame (by decide)
    | with_reducible apply_assumption

theorem execPowerLimitSet_frame {x0} {s : State} : FrX 73400456 s (execPowerLimitSet x0 s) := by
  unfold execPowerLimitSet
  refine act_frame ?_
  have h := Fr.rfl (m := 73400459) (o := s)
  repeat'
    first
    | with_reducible assumption
    | (intro _)
    | with_reducible apply command_frame (by decide)
    | with_reducible apply powerLimitSet_frame (by decide)
    | with_reducible apply_assumption

theorem execPowerQuery_frame {x0} {s : State} : FrX 6291592 s (execPowerQuery x0 s) := by
  unfold execPowerQuery
  refine act_frame ?_
  have h := Fr.rfl (m := 6291595) (o := s)
  repeat'
    first
    | with_reducible assumption
    | (intro _)
    | with_reducible apply command_frame (by decide)
    | with_reducible apply powerQuery_frame (by decide)
    | with_reducible apply_assumption

theorem execPowerStateSet_frame {x0} {s : State} : FrX 106954888 s (execPowerStateSet x0 s) := by
  unfold execPowerStateSet
  refine act_frame ?_
  have h := Fr.rfl (m := 106954891) (o := s)
  repeat'
    first
    | with_reducible assumption
    | (intro _)
    | with_reducible apply command_frame (by decide)
    | with_reducible apply powerStateSet_frame (by decide)
    | with_reducible apply_assumption

theorem execChannelAssign_frame {x0} {s : State} : FrX 6291592 s (execChannelAssign x0 s) := by
  unfold execChannelAssign
  refine act_frame ?_
  have h := Fr.rfl (m := 6291595) (o := s)
  repeat'
    first
    | with_reducible assumption
    | (intro _)
    | with_reducible apply command_frame (by decide)
    | with_reducible apply channelAssign_frame (by decide)
    | with_reducible apply_assumption

theorem execDevCaps_frame {x0} {s : State} : FrX 6291592 s (execDevCaps x0 s) := by
  unfold execDevCaps
  refine act_frame ?_
  have h := Fr.rfl (m := 6291595) (o := s)
  repeat'
    first
    | with_reducible assumption
    | (intro _)
    | with_reducible apply command_frame (by decide)
    | with_reducible apply devCaps_frame (by decide)
    | with_reducible apply_assumption

theorem execDeviceReset_frame {x0} {s : State} : FrX 140509320 s (execDeviceReset x0 s) := by
  unfold execDeviceReset
  refine act_frame ?_
  have h := Fr.rfl (m := 140509323) (o := s)
  repeat'
    first
    | with_reducible assumption
    | (intro _)
    | with_reducible apply command_frame (by decide)
    | with_reducible apply deviceReset_frame (by decide)
    | with_reducible apply_assumption

theorem execFwActivate_frame {x0} {s : State} : FrX 274727048 s (execFwActivate x0 s) := by
  unfold execFwActivate
  refine act_frame ?_
  have h := Fr.rfl (m := 274727051) (o := s)
  repeat'
    first
    | with_reducible assumption
    | (intro _)
    | with_reducible apply command_frame (by decide)
    | with_reducible apply fwActivate_frame (by decide)
    | with_reducible apply_assumption

theorem execFwQuery_frame {x0} {s : State} : FrX 6291592 s (execFwQuery x0 s) := by
  unfold execFwQuery
  refine act_frame ?_
  have h := Fr.rfl (m := 6291595) (o := s)
  repeat'
    first
    | with_reducible assumption
    | (intro _)
    | with_reducible apply command_frame (by decide)
    | with_reducible apply fwQuery_frame (by decide)
    | with_reducible apply_assumption

theorem execFwStage_frame {x0} {s : State} : FrX 274825352 s (execFwStage x0 s) := by
  unfold execFwStage
  refine act_frame ?_
  have h := Fr.rfl (m := 274825355) (o := s)
  repeat'
    first
    | with_reducible assumption
    | (intro _)
    | with_reducible apply command_frame (by decide)
    | with_reducible apply fwStage_frame (by decide)
    | with_reducible apply_assumption

theorem execPortAddrSet_frame {x0} {s : State} : FrX 6553736 s (execPortAddrSet x0 s) := by
  unfold execPortAddrSet
  refine act_frame ?_
  have h := Fr.rfl (m := 6553739) (o := s)
  repeat'
    first
    | with_reducible assumption
    | (intro _)
    | with_reducible apply command_frame (by decide)
    | with_reducible apply portAddrSet_frame (by decide)
    | with_reducible apply_assumption

theorem execCarryCheck_frame {x0} {x1} {s : State} : FrX 2056 s (execCarryCheck x0 x1 s) := by
  unfold execCarryCheck
  refine act_frame ?_
  have h := Fr.rfl (m := 2059) (o := s)
  repeat'
    first
    | (intro _)
    | with_reducible apply carryCheck_frame (by decide)
    | with_reducible apply Fr_ite
    | with_reducible apply_assumption

theorem execCarryOutcome_frame {x0} {x1} {s : State} : FrX 2048 s (execCarryOutcome x0 x1 s) := by
  unfold execCarryOutcome
  refine act_frame ?_
  have h := Fr.rfl (m := 2051) (o := s)
  repeat'
    first
    | with_reducible apply carryOutcome_frame (by decide)
    | with_reducible apply_assumption

theorem execFrameHeatDecay_frame  {s : State} : FrX 32832 s (execFrameHeatDecay s) := by
  unfold execFrameHeatDecay
  refine act_frame ?_
  have h := Fr.rfl (m := 32835) (o := s)
  repeat'
    first
    | with_reducible apply frameDecay_frame (by decide)
    | with_reducible apply_assumption

theorem execRoundTick_frame  {s : State} : FrX 1610612732 s (execRoundTick s) := by
  unfold execRoundTick
  refine act_frame ?_
  have h := Fr.rfl (m := 1610612735) (o := s)
  repeat'
    first
    | with_reducible apply boundary_frame (by decide)
    | with_reducible apply_assumption

theorem execStakeUseDecay_frame  {s : State} : FrX 4160 s (execStakeUseDecay s) := by
  unfold execStakeUseDecay
  refine act_frame ?_
  have h := Fr.rfl (m := 4163) (o := s)
  repeat'
    first
    | with_reducible apply stakeDecay_frame (by decide)
    | with_reducible apply_assumption

theorem execWeaverHeatDecay_frame  {s : State} : FrX 2112 s (execWeaverHeatDecay s) := by
  unfold execWeaverHeatDecay
  refine act_frame ?_
  have h := Fr.rfl (m := 2115) (o := s)
  repeat'
    first
    | with_reducible apply weaverDecay_frame (by decide)
    | with_reducible apply_assumption

theorem execCtxCreate_frame {x0} {s : State} : FrX 14712968 s (execCtxCreate x0 s) := by
  unfold execCtxCreate
  refine act_frame ?_
  have h := Fr.rfl (m := 14712971) (o := s)
  repeat'
    first
    | with_reducible assumption
    | (intro _)
    | with_reducible apply command_frame (by decide)
    | with_reducible apply ctxCreate_frame (by decide)
    | with_reducible apply_assumption

theorem execCtxQuery_frame {x0} {s : State} : FrX 6291592 s (execCtxQuery x0 s) := by
  unfold execCtxQuery
  refine act_frame ?_
  have h := Fr.rfl (m := 6291595) (o := s)
  repeat'
    first
    | with_reducible assumption
    | (intro _)
    | with_reducible apply command_frame (by decide)
    | with_reducible apply ctxQuery_frame (by decide)
    | with_reducible apply_assumption

theorem execCtxRemove_frame {x0} {s : State} : FrX 1139273096 s (execCtxRemove x0 s) := by
  unfold execCtxRemove
  refine act_frame ?_
  have h := Fr.rfl (m := 1139273099) (o := s)
  repeat'
    first
    | with_reducible assumption
    | (intro _)
    | with_reducible apply command_frame (by decide)
    | with_reducible apply ctxRemove_frame (by decide)
    | with_reducible apply_assumption

theorem execCtxReset_frame {x0} {s : State} : FrX 31457416 s (execCtxReset x0 s) := by
  unfold execCtxReset
  refine act_frame ?_
  have h := Fr.rfl (m := 31457419) (o := s)
  repeat'
    first
    | with_reducible assumption
    | (intro _)
    | with_reducible apply command_frame (by decide)
    | with_reducible apply ctxReset_frame (by decide)
    | with_reducible apply_assumption

theorem execCtxSet_frame {x0} {s : State} : FrX 14680200 s (execCtxSet x0 s) := by
  unfold execCtxSet
  refine act_frame ?_
  have h := Fr.rfl (m := 14680203) (o := s)
  repeat'
    first
    | with_reducible assumption
    | (intro _)
    | with_reducible apply command_frame (by decide)
    | with_reducible apply ctxSet_frame (by decide)
    | with_reducible apply_assumption

end Sys2Proof.Machine
end

