-- ==== Sys2Proof/Laws/SlowTier.lean ====
section
/-! SUPPORT. The slow tier's seal: decryption undoes encryption, block by block, and what is written to a part of the slow tier is read back from
it. -/

namespace Sys2Proof.Machine

/-! ### Byte strings as numbers -/

@[simp] theorem leBytes_length (n v : Nat) : (leBytes n v).length = n := by
  induction n generalizing v with
  | zero => rfl
  | succ n ih => simp [leBytes, ih]

theorem leNat_cons (b : Byte) (bs : List Byte) : leNat (b :: bs) = b.toNat + 256 * leNat bs := rfl

theorem leNat_leBytes (n v : Nat) : leNat (leBytes n v) = v % 256 ^ n := by
  induction n generalizing v with
  | zero => simp [leBytes, leNat, Nat.mod_one]
  | succ n ih =>
    rw [leBytes, leNat_cons, ih, Nat.pow_succ', Nat.mod_mul]
    simp [BitVec.toNat_ofNat]

theorem leNat_lt (bs : List Byte) : leNat bs < 256 ^ bs.length := by
  induction bs with
  | nil => simp [leNat]
  | cons b bs ih =>
    rw [leNat_cons, List.length_cons, Nat.pow_succ']
    have := b.isLt
    omega

theorem leBytes_leNat (bs : List Byte) : leBytes bs.length (leNat bs) = bs := by
  induction bs with
  | nil => rfl
  | cons b bs ih =>
    rw [List.length_cons, leBytes, leNat_cons]
    have hb := b.isLt
    have h : (b.toNat + 256 * leNat bs) / 256 = leNat bs := by omega
    rw [h, ih]
    congr 1
    apply BitVec.eq_of_toNat_eq
    rw [BitVec.toNat_ofNat]
    omega

/-! ### One block -/

theorem swapBlock_swapBlock (x : BitVec 128 × BitVec 128) (b : BitVec 128) : swapBlock x (swapBlock x b) = b := by
  unfold swapBlock
  repeat' split
  all_goals simp_all

theorem swaps_undone (l : List (BitVec 128 × BitVec 128)) (b : BitVec 128) : l.foldr swapBlock (l.foldl (fun b x => swapBlock x b) b) = b := by
  induction l generalizing b with
  | nil => rfl
  | cons x l ih => rw [List.foldl_cons, List.foldr_cons, ih, swapBlock_swapBlock]

theorem xtsLock_length (key u i : Nat) (bs : List Byte) : (xtsLock key u i bs).length = 16 := leBytes_length _ _
theorem xtsUnlock_length (key u i : Nat) (bs : List Byte) : (xtsUnlock key u i bs).length = 16 := leBytes_length _ _

/-- Decryption undoes encryption. -/
theorem xtsUnlock_xtsLock (key u i : Nat) (bs : List Byte) (h : bs.length = 16) : xtsUnlock key u i (xtsLock key u i bs) = bs := by
  have hn := leNat_lt bs
  rw [h] at hn
  unfold xtsUnlock xtsLock
  rw [leNat_leBytes, Nat.mod_eq_of_lt (by have := BitVec.isLt ((Config.xts key u i).foldl (fun b x => swapBlock x b) (BitVec.ofNat 128 (leNat bs))); omega),
    BitVec.ofNat_toNat, BitVec.setWidth_eq, swaps_undone, BitVec.toNat_ofNat, Nat.mod_eq_of_lt (by omega)]
  rw [← h]
  exact leBytes_leNat bs

theorem lock_length (c : Seal) (i : Nat) (bs : List Byte) : (c.lock i bs).length = 16 := xtsLock_length _ _ _ _
theorem unlock_length (c : Seal) (i : Nat) (bs : List Byte) : (c.unlock i bs).length = 16 := xtsUnlock_length _ _ _ _
theorem block_unlock_lock (c : Seal) (i : Nat) (bs : List Byte) (h : bs.length = 16) : c.unlock i (c.lock i bs) = bs := xtsUnlock_xtsLock _ _ _ _ h

/-! ### Blocks in turn -/

variable {f g : Nat → List Byte → List Byte}

theorem mapBlocks_length (hf : ∀ i b, (f i b).length = 16) (n i : Nat) (bs : List Byte) : (mapBlocks f n i bs).length = 16 * n := by
  induction n generalizing i bs with
  | zero => rfl
  | succ n ih => rw [mapBlocks, List.length_append, hf, ih]; omega

/-- Block `k` of the result is what becomes of block `k` of the bytes. -/
theorem mapBlocks_block (hf : ∀ i b, (f i b).length = 16) (n i k : Nat) (bs : List Byte) (hk : k < n) :
    ((mapBlocks f n i bs).drop (16 * k)).take 16 = f (i + k) ((bs.drop (16 * k)).take 16) := by
  induction n generalizing i k bs with
  | zero => omega
  | succ n ih =>
    rw [mapBlocks]
    cases k with
    | zero => simp [hf]
    | succ k =>
      have e : 16 * (k + 1) = 16 + 16 * k := by omega
      rw [e, ← List.drop_drop, ← List.drop_drop, List.drop_left' (hf _ _), ih _ _ _ (by omega)]
      congr 1
      omega

theorem mapBlocks_mapBlocks (hf : ∀ i b, (f i b).length = 16) (hg : ∀ i b, b.length = 16 → g i (f i b) = b) (n i : Nat) (bs : List Byte)
    (h : bs.length = 16 * n) : mapBlocks g n i (mapBlocks f n i bs) = bs := by
  induction n generalizing i bs with
  | zero => exact (List.eq_nil_of_length_eq_zero h).symm
  | succ n ih =>
    rw [mapBlocks, mapBlocks, List.take_left' (hf _ _), List.drop_left' (hf _ _), hg _ _ (by rw [List.length_take]; omega),
      ih _ _ (by rw [List.length_drop]; omega), List.take_append_drop]

/-- A byte of the result stands in the block that its place falls in. -/
theorem mapBlocks_get (hf : ∀ i b, (f i b).length = 16) (n i p : Nat) (bs : List Byte) (hp : p < 16 * n) :
    (mapBlocks f n i bs)[p]? = (f (i + p / 16) ((bs.drop (16 * (p / 16))).take 16))[p % 16]? := by
  rw [← mapBlocks_block hf n i (p / 16) bs (by omega), List.getElem?_take, if_pos (by omega), List.getElem?_drop]
  congr 1
  omega

/-- A part's plaintext survives its encryption and decryption. -/
theorem unlock_lock (c : Seal) (n i : Nat) (bs : List Byte) (h : bs.length = 16 * n) :
    mapBlocks c.unlock n i (mapBlocks c.lock n i bs) = bs :=
  mapBlocks_mapBlocks (lock_length c) (block_unlock_lock c) n i bs h

/-! ### A byte of a part -/

/-- The plaintext of the byte at an address of a part. -/
def slowByte (c : Seal) (s : State) (a : Nat) : Byte :=
  (c.unlock ((a - c.base) / 16) (slowRaw s (c.base + 16 * ((a - c.base) / 16)) 16)).getD ((a - c.base) % 16) 0

theorem slowRaw_length (s : State) (a n : Nat) : (slowRaw s a n).length = n := by simp [slowRaw]

theorem slowRaw_part (s : State) (a n k m : Nat) (h : k + m ≤ n) : ((slowRaw s a n).drop k).take m = slowRaw s (a + k) m := by
  apply List.ext_getElem?
  intro i
  rw [List.getElem?_take, List.getElem?_drop]
  by_cases hi : i < m
  · simp [slowRaw, hi, show k + i < n by omega, Nat.add_assoc]
  · simp [slowRaw, hi]

theorem seal_blocks (c : Seal) (a n : Nat) : a - c.base + n ≤ 16 * c.first a + 16 * c.count a n := by
  unfold Seal.count Seal.first ceilDiv
  omega

/-- A read takes the plaintext of each byte in turn. -/
theorem slowRead_eq (c : Seal) (s : State) (a n : Nat) (h : c.base ≤ a) : slowRead c s a n = (List.range n).map fun i => slowByte c s (a + i) := by
  have hb := seal_blocks c a n
  apply List.ext_getElem?
  intro i
  unfold slowRead slowBlocks
  rw [List.getElem?_take]
  by_cases hi : i < n
  · rw [if_pos hi, List.getElem?_drop, mapBlocks_get (unlock_length c) _ _ _ _ (by unfold Seal.first at *; omega)]
    have e : c.first a + (a - c.base - 16 * c.first a + i) / 16 = (a + i - c.base) / 16 := by unfold Seal.first; omega
    have e2 : (a - c.base - 16 * c.first a + i) % 16 = (a + i - c.base) % 16 := by unfold Seal.first; omega
    rw [slowRaw_part _ _ _ _ _ (by unfold Seal.first at *; omega), e, e2]
    have e3 : c.base + 16 * c.first a + 16 * ((a - c.base - 16 * c.first a + i) / 16) = c.base + 16 * ((a + i - c.base) / 16) := by omega
    rw [e3]
    have hl := unlock_length c ((a + i - c.base) / 16) (slowRaw s (c.base + 16 * ((a + i - c.base) / 16)) 16)
    simp only [List.getElem?_map, List.getElem?_range hi, Option.map_some, slowByte]
    rw [List.getD_eq_getElem?_getD, List.getElem?_eq_getElem (by rw [hl]; omega)]
    rfl
  · simp [hi]

/-! ### Written and read back -/

theorem look_stores (key : Nat → Nat) (bs : List Byte) (m : Nat) (t : Tab Byte)
    (inj : ∀ i j, i < m + bs.length → j < m + bs.length → key i = key j → i = j) :
    (∀ i, i < bs.length → look 0 ((bs.zip ((List.range' m bs.length))).foldl (fun t x => store 0 t (key x.2) x.1) t) (key (m + i)) = bs.getD i 0) ∧
    ∀ k, (∀ i, m ≤ i → i < m + bs.length → key i ≠ k) →
      look 0 ((bs.zip ((List.range' m bs.length))).foldl (fun t x => store 0 t (key x.2) x.1) t) k = look 0 t k := by
  induction bs generalizing m t with
  | nil => exact ⟨fun i h => absurd h (by simp), fun k _ => rfl⟩
  | cons b bs ih =>
    have ih := ih (m + 1) (store 0 t (key m) b) (fun i j hi hj => inj i j (by simp at *; omega) (by simp at *; omega))
    simp only [List.length_cons, List.range'_succ, List.zip_cons_cons, List.foldl_cons]
    refine ⟨fun i hi => ?_, fun k hk => ?_⟩
    · cases i with
      | zero =>
        show look 0 _ (key m) = b
        rw [ih.2 (key m) (fun i h1 h2 e => by have := inj i m (by simp; omega) (by simp) e; omega)]
        simp
      | succ i => have := ih.1 i (by omega); rw [show m + (i + 1) = m + 1 + i by omega]; simpa using this
    · rw [ih.2 k (fun i h1 h2 => hk i (by omega) (by omega)), look_store_ne _ _ _ (fun e => hk m (by omega) (by omega) e.symm)]

/-- What stands where bytes were stored, where no two of their addresses are one place. -/
theorem slowRaw_slowStore (s : State) (a : Nat) (bs : List Byte)
    (inj : ∀ i j, i < bs.length → j < bs.length → slowKey s (a + i) = slowKey s (a + j) → i = j) : slowRaw (s.slowStore a bs) a bs.length = bs := by
  have h := (look_stores (fun i => slowKey s (a + i)) bs 0 s.mem.slow (by simpa using inj)).1
  apply List.ext_getElem?
  intro i
  by_cases hi : i < bs.length
  · have := h i hi
    rw [Nat.zero_add] at this
    have hk : slowKey (s.slowStore a bs) (a + i) = slowKey s (a + i) := rfl
    simp only [slowRaw, List.getElem?_map, List.getElem?_range hi, Option.map_some, hk]
    unfold State.slowStore
    rw [List.range_eq_range', this, List.getD_eq_getElem?_getD, List.getElem?_eq_getElem hi]
    rfl
  · simp [slowRaw, hi]

/-- What is written to a part of the slow tier is read back from it, with the same key, in whole or in part. -/
theorem slowRead_slowWrite (c : Seal) (s : State) (a : Nat) (bs : List Byte) (k n : Nat) (ha : c.base ≤ a) (hk : k + n ≤ bs.length)
    (inj : ∀ i j, i < 16 * c.count a bs.length → j < 16 * c.count a bs.length →
      slowKey s (c.base + 16 * c.first a + i) = slowKey s (c.base + 16 * c.first a + j) → i = j) :
    slowRead c (s.slowWrite c a bs) (a + k) n = (bs.drop k).take n := by
  have hb := seal_blocks c a bs.length
  have hol : (slowBlocks c s a bs.length).length = 16 * c.count a bs.length := mapBlocks_length (unlock_length c) _ _ _
  generalize ho : slowBlocks c s a bs.length = old at hol
  have hin : (old.take (a - c.base - 16 * c.first a) ++ bs ++ old.drop (a - c.base - 16 * c.first a + bs.length)).length = 16 * c.count a bs.length := by
    simp only [List.length_append, List.length_take, List.length_drop]
    unfold Seal.first at *
    omega
  have hout := mapBlocks_length (lock_length c) (c.count a bs.length) (c.first a)
    (old.take (a - c.base - 16 * c.first a) ++ bs ++ old.drop (a - c.base - 16 * c.first a + bs.length))
  have hraw := slowRaw_slowStore s (c.base + 16 * c.first a)
    (mapBlocks c.lock (c.count a bs.length) (c.first a)
      (old.take (a - c.base - 16 * c.first a) ++ bs ++ old.drop (a - c.base - 16 * c.first a + bs.length))) (by rw [hout]; exact inj)
  rw [hout] at hraw
  have hall : slowBlocks c (s.slowWrite c a bs) a bs.length =
      old.take (a - c.base - 16 * c.first a) ++ bs ++ old.drop (a - c.base - 16 * c.first a + bs.length) := by
    have : slowRaw (s.slowWrite c a bs) (c.base + 16 * c.first a) (16 * c.count a bs.length) =
        mapBlocks c.lock (c.count a bs.length) (c.first a)
          (old.take (a - c.base - 16 * c.first a) ++ bs ++ old.drop (a - c.base - 16 * c.first a + bs.length)) := by
      rw [← hraw, ← ho]; rfl
    unfold slowBlocks
    rw [this]
    exact unlock_lock c _ _ _ hin
  have hfull : slowRead c (s.slowWrite c a bs) a bs.length = bs := by
    unfold slowRead
    rw [hall, List.append_assoc, List.drop_left' (by rw [List.length_take]; unfold Seal.first at *; omega), List.take_left' rfl]
  rw [slowRead_eq _ _ _ _ ha] at hfull
  rw [slowRead_eq _ _ _ _ (by omega)]
  conv => rhs; rw [← hfull]
  apply List.ext_getElem?
  intro i
  rw [List.getElem?_take, List.getElem?_drop]
  by_cases hi : i < n
  · simp [hi, show k + i < bs.length by omega, Nat.add_assoc]
  · simp [hi]

/-- The bytes of a part of a host region lie at places of their own. -/
theorem slowKey_region (s : State) (a n : Nat) (ha : 2 ^ 56 ≤ a) (hn : a % 2 ^ 48 + n ≤ 2 ^ 48) (i j : Nat) (hi : i < n) (hj : j < n)
    (h : slowKey s (a + i) = slowKey s (a + j)) : i = j := by
  have key : ∀ i, i < n → slowKey s (a + i) = 2 ^ 60 + (region s (a / 2 ^ 56)).base + (a % 2 ^ 48 + i) := by
    intro i hi
    have h1 : sdaSpace (a + i) = a / 2 ^ 56 := by unfold sdaSpace; omega
    have h2 : sdaOff (a + i) = a % 2 ^ 48 + i := by unfold sdaOff; omega
    have h3 : a / 2 ^ 56 ≠ 0 := by omega
    unfold slowKey
    rw [h1, h2]
    split <;> first | rfl | exact absurd ‹_› h3
  rw [key i hi, key j hj] at h
  omega

end Sys2Proof.Machine
end

