-- ==== Sys2Proof/Tests/Slice0.lean ====
section
/-! SUPPORT. Tests of the model: what the checks of WellFormed refuse, witnesses that the hypotheses of each statement can be met
together, and steps on small states whose results are worked out from the manual. -/

namespace Sys2Proof.Tests

open Sys2Proof Sys2Proof.Machine

set_option maxRecDepth 20000
-- One test after the other: each waits for the kernel, and many waiting at once take more threads than the memory has room for.
set_option Elab.async false

/-! ### WellFormed: an ill-formed command for each check -/

theorem test_okFn : (Instr.flr 128).wf = false ∧ (Instr.flr 127).wf = true := by decide
theorem test_okBar0 : (Instr.bar0LowRead 0 { off := 0x4000000 }).wf = false ∧ (Instr.bar0LowRead 0 { off := 0x3FFFFFF, wide := true }).wf = true := by decide
theorem test_okCell : (Instr.bankZeroDone 960).wf = false ∧ (Instr.bankZeroDone 959).wf = true := by decide
theorem test_okChan : (Instr.devCaps 64).wf = false ∧ (Instr.devCaps 63).wf = true := by decide
theorem test_okClass : (Instr.budShareWrite 0 8 0).wf = false ∧ (Instr.budShareWrite 0 7 0).wf = true := by decide
theorem test_okQpn : (Instr.cnp 262144).wf = false ∧ (Instr.cnp 262143).wf = true := by decide
theorem test_okCtx : (Instr.forcedAbort 4096).wf = false ∧ (Instr.forcedAbort 4095).wf = true := by decide
theorem test_okStake : (Instr.genClose 256).wf = false ∧ (Instr.genClose 255).wf = true := by decide
theorem test_okHandle : (Instr.weaverRemoveComplete 65536).wf = false ∧ (Instr.weaverRemoveComplete 65535).wf = true := by decide
theorem test_okFrame : (Instr.frameZeroDone 196608).wf = false ∧ (Instr.frameZeroDone 196607).wf = true := by decide
theorem test_okGranule : (Instr.slowTierPoison 0 512).wf = false ∧ (Instr.slowTierPoison 0 511).wf = true := by decide
theorem test_okLine : (Instr.hbmUncorrectable 0 32768 []).wf = false ∧ (Instr.hbmUncorrectable 0 32767 []).wf = true := by decide
theorem test_okRail : (Instr.railUvReset 10).wf = false ∧ (Instr.railUvReset 9).wf = true := by decide
theorem test_okRing : (Instr.evtModExpiry 0 16).wf = false ∧ (Instr.evtModExpiry 0 15).wf = true := by decide
theorem test_okEngine : (Instr.copyEngineFault 40).wf = false ∧ (Instr.copyEngineFault 39).wf = true := by decide
theorem test_okSess : (Instr.spdmHeartbeatTimeout 10).wf = false ∧ (Instr.spdmHeartbeatTimeout 9).wf = true := by decide
theorem test_okPos : (Instr.present 16 0).wf = false ∧ (Instr.present 15 0).wf = true := by decide
theorem test_okPart : (Instr.stakeReady 0 0 1 16 0).wf = false ∧ (Instr.stakeReady 0 0 1 15 0).wf = true := by decide
theorem test_okIdx : (Instr.parkTimeout 0 (2 ^ 32)).wf = false ∧ (Instr.parkTimeout 0 (2 ^ 32 - 1)).wf = true := by decide
theorem test_okDesc : (Instr.pathFenceRead 0 (2 ^ 33) true).wf = false ∧ (Instr.pathFenceRead 0 (2 ^ 33 - 1) true).wf = true := by decide
theorem test_okSub : (Instr.linkDown false 0 4).wf = false ∧ (Instr.linkDown false 0 3).wf = true := by decide
theorem test_okPrio : (Instr.pfcFrame 0 8 true).wf = false ∧ (Instr.pfcFrame 0 7 true).wf = true := by decide
theorem test_okDev : (Instr.residencyReport 16 ⟨[], [], []⟩).wf = false ∧ (Instr.residencyReport 15 ⟨[], [], []⟩).wf = true := by decide
theorem test_okBucket : (Instr.bucketLate 1 65536).wf = false ∧ (Instr.bucketLate 1 65535).wf = true := by decide
theorem test_okMsd : (Instr.migrationEngineFault 8).wf = false ∧ (Instr.migrationEngineFault 7).wf = true := by decide
theorem test_okCd : (Instr.vrcAckTimeout 4).wf = false ∧ (Instr.vrcAckTimeout 3).wf = true := by decide
theorem test_okCxl : (Instr.cxlIdeLoss 4).wf = false ∧ (Instr.cxlIdeLoss 3).wf = true := by decide
theorem test_okPort : (Instr.pauseFrame 12).wf = false ∧ (Instr.pauseFrame 11).wf = true := by decide
theorem test_okTwineRail : (Instr.probeTimeout 1 12).wf = false ∧ (Instr.probeTimeout 1 11).wf = true := by decide
theorem test_okSel : (Instr.ideKm 0 9).wf = false ∧ (Instr.ideKm 0 8).wf = true := by decide
theorem test_requestBuffer : (Instr.requestBufferWrite 0 0 4096 true 0).wf = false ∧ (Instr.requestBufferWrite 0 0 4088 true 0).wf = true := by
  decide

/-! ### States that the witnesses share -/

/-- The device after reset. -/
def dev : State := State.reset

/-- A request that stands in channel 1, of context `ctx`: opcode, payload length, CFLAGS and payload, with queue pair 9 as its WORK queue
pair. -/
def mbChan (ctx op len flags pay : Nat) : Chan where
  assigned := true
  ctx := ctx
  state := Ch.busy
  goSeq := 5
  accept := 1
  req := natTab (32 + len) (op + len * 2 ^ 16 + 0x77 * 2 ^ 64 + (9 + 2 ^ 31) * 2 ^ 128 + flags * 2 ^ 160 + pay * 2 ^ 256)

/-- Channel 1 holds a request that firmware has accepted. -/
def onMb (s : State) (ctx op len flags pay : Nat) : State :=
  { s with mb := { chans := [(0, { assigned := true }), (1, mbChan ctx op len flags pay)], number := 1 } }

/-- The same without a WORK queue pair. -/
def onMb0 (s : State) (ctx op len flags pay : Nat) : State :=
  onMb s ctx op len flags (pay) |>.modChan 1 fun c =>
    { c with req := natTab (32 + len) (op + len * 2 ^ 16 + 0x77 * 2 ^ 64 + flags * 2 ^ 160 + pay * 2 ^ 256) }

/-! ### The queue, the invariants and the whole-machine statements -/

theorem witness_StepTakesFront : dev.pending = [] := by decide +kernel

theorem witness_CommandsComplete : (Instr.flr 128).wf = false ∧ Instr.roundTick.wf = true := by decide

theorem witness_QueueStaysWellFormed :
    (∀ c ∈ ({ dev with pending := [.localTick, .flr 127] } : State).pending, c.wf = true) ∧
    ∃ t, step { dev with pending := [.localTick, .flr 127] } = .next t := ⟨by decide +kernel, _, rfl⟩

theorem witness_MemoryStaysCanonical :
    Memory.wf ({ dev with mem := { dev.mem with hbm := [(3, 1), (9, 7)] }, pending := [.localTick] } : State).mem = true ∧
    ∃ t, step { dev with mem := { dev.mem with hbm := [(3, 1), (9, 7)] }, pending := [.localTick] } = .next t := ⟨by decide +kernel, _, rfl⟩

theorem witness_EveryCommandFrame : (∃ t, exec (.cnp 262143) dev = .next t) ∧ Part.rnd ∉ mayChange (.cnp 262143) :=
  ⟨⟨_, rfl⟩, by decide⟩

theorem witness_RoundNumber : ∃ t, exec (.rndNumSet 0 9) dev = .next t := ⟨_, rfl⟩

theorem witness_IntegerRange : let lo : Int := -(2 ^ (8 - 1)); 1 ≤ 8 ∧ (-129 : Int) < lo ∧ lo ≤ -128 ∧ (-128 : Int) ≤ 127 ∧ (127 : Int) < 128 := by decide

/-! ### Registers, the mailbox and doorbells -/

/-- GW960-S with TWINE_PROBE accepted on channel 1. -/
def partS : State := onMb0 { dev with variant := .s } 0 0x0706 18 0 1

theorem witness_TrainingAbsentOnS :
    hasTrain partS = false ∧ chanState (partS.chan 1) = Ch.busy ∧ (partS.chan 1).discard = false ∧ partS.flt.halted = false ∧
    ctxGoing partS (partS.chan 1).ctx = false ∧ partS.pwr.state ≠ .shelf ∧ partS.pwr.state ≠ .d3hot ∧ partS.train.probe = none ∧
    turnOf partS 1 0x0700 = true ∧ bytesAt (reqNat (partS.chan 1)) 0 2 = 0x0706 := by decide +kernel

/-- Four virtual functions. -/
def vfs : State := { dev with host := { dev.host with numVf := 4 } }

theorem witness_VirtualFunctionWritesDropped : barLive vfs 4 = true ∧ 1 ≤ 4 ∧ 4 < 128 ∧ 0x10000 ≤ 0x2FFF8 ∧ 0x2FFF8 < 0x30000 := by decide +kernel

theorem witness_SealedPacketDrops : let w : WalePkt := { isSealed := true, keyId := 77 };
    w.isSealed = true ∧ keyLive dev w.keyId = false ∧ (11 : Nat) < 12 := by decide +kernel

theorem witness_RoundRegisterWrites : barLive dev 0 = true := by decide +kernel

theorem witness_BlockRegisterWrites : barLive dev 0 = true ∧ barLive vfs 4 = true := by decide +kernel

/-- Function 2 has latched the high half of a register. -/
def latched : State := { vfs with latch := [(2, some (0x10018, 7))] }

theorem witness_RegisterReadsAndDrops :
    (barLive latched 2 = true ∧ isReg 0x10018 = true ∧ look none latched.latch 2 = some (0x10018, 7)) ∧
    (look none dev.latch 0 = none ∧ barLive dev 0 = true) ∧ barLive dev 1 = false ∧
    -- a register of the identification region, one of the physical function alone, and one of an unassigned channel
    (isReg 0x8 = true ∧ 0x8 < 0x10000) ∧ (isReg 0x20000 = true ∧ barLive vfs 2 = true) ∧ chanSeen vfs 2 3 = false := by decide +kernel

/-- Channel 1 of the physical function, idle, with the opcode of DEV_CAPS in its buffer, and channel 2 with a finished command. -/
def chans : State := { dev with mb := { chans :=
  [(0, { assigned := true }), (1, { assigned := true, req := [(0, 1), (1, 1)] }), (2, { assigned := true, state := Ch.done }),
   (3, { assigned := true, state := Ch.busy })] } }

/-- Queue pair 64 of context 0, reliable, with 3 descriptors fetched, and its block. -/
def pair : State := { dev with host := { dev.host with
  blocks := [(1, 1)], qps := [(64, { state := .active, typ := 4, logSq := 6, logCq := 6, fetched := 3 })] } }

theorem witness_MailboxAndDoorbells :
    (barLive chans 0 = true ∧ chanSeen chans 0 1 = true ∧ chanState (chans.chan 1) = Ch.idle ∧ chans.lid.ready = true ∧
      opcodeKnown (bytesAt (tabNat (chans.chan 1).req) 0 2) = true) ∧
    (chanState (chans.chan 2) = Ch.done ∧ chanState (chans.chan 3) = Ch.busy ∧ chanState (chans.chan 63) = Ch.unassigned) ∧
    (4088 < 4096 ∧ 4088 % 8 = 0) ∧
    doorbellTaken pair 0 64 4 = false ∧
    (doorbellTaken pair 0 64 0 = true ∧ idxSub (67 % 2 ^ 32) (pair.qp 64).fetched ≤ 2 ^ (pair.qp 64).logSq) ∧
    ((pair.qp 64).state = .active ∧ 2 ^ (pair.qp 64).logSq < idxSub (68 % 2 ^ 32) (pair.qp 64).fetched) ∧
    (doorbellTaken pair 0 64 8 = true ∧ (pair.qp 64).held = []) ∧ doorbellTaken pair 0 64 16 = true := by decide +kernel

/-! ### Rounds, budgets and the hoop -/

/-- Rounds of a FOLLOWER, its tick adopted from the hoop, with budgets open and use counts to halve. -/
def ticked : State := { dev with
  rnd := { dev.rnd with enable := true, src := 2, active := 2, num := 255, tick := some { num := some 512, gtime := some 9, len := some 4 } } }

theorem witness_RoundBoundary : dev.rnd.tick = none ∧
    (ticked.rnd.tick = some { num := some 512, gtime := some 9, len := some 4 } ∧ deviceResetDue ticked = false) := by decide +kernel

/-- A sequence of context 1, descriptor 2 of queue pair 64. -/
def seq1 : Seq where
  qpn := 64
  idx := 2
  tag := 0
  ctx := 1
  handle := none
  sid := 0
  session := 1
  oneShot := false
  opens := false
  closes := false
  plan := 0
  inp := 0
  nin := 0
  maxtok := 4
  out := 0
  hostout := 0
  fence := false
  order := 0
  produced := 0
  parked := 0
  parkRounds := 0
  carried := false
  gone := false

/-- Course 7 of context 1. -/
def running1 : Course := { id := 7, plan := {}, ctx := 1, sid := 0, gen := 0, rows := [], segs := [] }

/-- A plan of class SIDE with one block for cell 5. -/
def oneBlock : Plan := { cls := 3, cellPlans := [{ lc := 5, st := .f, blocks := [{ words := [0], cost := {}, seg := 0 }] }] }

/-- Admission is open, context 1 has block 0 of cell 5 ready in a course of class SIDE, and a sequence has been parked for 65 rounds. -/
def admitting : State := { dev with
  rnd := { dev.rnd with enable := true }
  bud := { dev.bud with isOpen := true, cap := ⟨2048, 2048, 2048⟩ }
  crs := { dev.crs with
    running := [{ running1 with plan := oneBlock }]
    waiting := [{ seq1 with parked := 1, parkRounds := 65 }] }
  cells := [(5, { ctx := some 1, course := some 7, f := { idle := some (0, [0]) } })] }

theorem witness_BudgetsAndUseCounts :
    (decayDue 256 ticked.rnd.weaverDecay ticked = true ∧ decayDue 256 ticked.rnd.stakeDecay ticked = true ∧
      decayDue (2 ^ ticked.mem.heatShift) ticked.rnd.frameDecay ticked = true) ∧
    (admitOpen admitting 7 ⟨0, 24, 24⟩ = true ∧ fitsAll ⟨0, 24, 24⟩ (tallyOf admitting 7) (effAllowance admitting 7) = true) ∧
    (admitOpen admitting 3 ⟨1, 1, 1⟩ = true ∧ fitsAll ⟨1, 1, 1⟩ (tallyOf admitting 3) (effAllowance admitting 3) = false ∧
      (admitting.bud.queue.any fun w => w.unit == .access 3 1 1 1) = false) ∧
    (∃ co ∈ admitting.crs.running, ∃ i ∈ [0], ∃ b ∈ [({ words := [0], cost := {}, seg := 0 } : Block)], readyBlock admitting 5 .f = some (co, i, b) ∧ co.plan.cls ≠ Act.serve ∧ co.plan.cls ≠ Act.tune ∧
      (admitting.bud.queue.any fun w => w.unit == .block 5 .f) = false ∧ admitOpen admitting co.plan.cls b.cost = true ∧
      fitsAll b.cost (tallyOf admitting co.plan.cls) (effAllowance admitting co.plan.cls) = true) ∧
    (∃ r ∈ admitting.crs.waiting, (admitting.crs.waiting.find? fun r => r.qpn == 64 && r.idx == 2) = some r ∧ r.gone = false ∧
      (if (admitting.ctx r.ctx).parkMax = 0 then 64 else (admitting.ctx r.ctx).parkMax) < r.parkRounds) := by decide +kernel

/-- A FOLLOWER in step with the hoop; `m` says how it stands. -/
def follower (m : Lock) (n : Nat) : State := { dev with
  rnd := { dev.rnd with enable := true, src := 2, active := 2, mode := m, holdCnt := n, predicted := some 1000 }
  hoop := { dev.hoop with bypassed := false, origin := some 3, ndev := 3, pos := 1, path := [(1, 400), (2, 800)] } }

/-- A valid tick frame of the MASTER at position 3. -/
def frame3 : TickFrame :=
  { originPos := 3, lastPos := 0, accDly := 0, len := 32, lenNext := 1, rndNum := 9, gtime := 77, tAlign := 2000, crcOk := true }

/-- A MASTER whose rounds run. -/
def master : State := { dev with
  rnd := { dev.rnd with enable := true, src := 1, active := 1 }, hoop := { dev.hoop with bypassed := false } }

theorem witness_TickSources :
    (master.rnd.enable = true ∧ master.rnd.awaitHoop = false ∧ (master.rnd.src ≠ 2 ∨ master.rnd.active ≠ 2) ∧ master.rnd.src = 1 ∧
      master.hoop.bypassed = false) ∧
    (followerTimed (follower .locked 0) = true ∧ (follower .locked 0).rnd.mode = .locked ∧ (follower .locked 0).rnd.predicted = some 1000) ∧
    (followerTimed (follower .isolated 16) = true ∧ (follower .isolated 16).rnd.mode = .isolated) ∧
    (followerTimed (follower .holdover 15) = true ∧ (follower .holdover 15).rnd.holdCnt < holdLimit (follower .holdover 15)) ∧
    ((follower .holdover 16).rnd.mode = .holdover ∧ holdLimit (follower .holdover 16) ≤ (follower .holdover 16).rnd.holdCnt) ∧
    ({ frame3 with crcOk := false } : TickFrame).crcOk = false ∧
    (tickValid (follower .locked 0) frame3 = true ∧ (follower .locked 0).rnd.enable = true ∧ (follower .locked 0).rnd.src = 2) := by decide +kernel

/-- A management frame. -/
def mgmt (src dst hops msg : Nat) (ok : Bool) : MgmtFrame := { src := src, dst := dst, hops := hops, msg := msg, len := 0, payload := 0, crcOk := ok }

theorem witness_HoopFramesAndBypass :
    (mgmt 0 255 0 1 false).crcOk = false ∧ msgKnown (mgmt 0 255 0 2 true).msg = false ∧
    (let f := mgmt 0 255 14 1 true; f.crcOk = true ∧ f.msg = 1 ∧ f.dst = 255 ∧ f.src < 16 ∧ f.src ≠ (follower .locked 0).hoop.pos ∧
      (follower .locked 0).hoop.pos ≠ 255 ∧ (follower .locked 0).hoop.bypassed = false ∧ f.hops + 1 < 16) ∧
    (let f := mgmt 0 2 15 1 true; f.crcOk = true ∧ msgKnown f.msg = true ∧ f.dst ≠ (follower .locked 0).hoop.pos ∧ f.dst ≠ 255 ∧
      f.src ≠ (follower .locked 0).hoop.pos ∧ 16 ≤ f.hops + 1) := by decide +kernel

/-! ### Cells -/

/-- Operand fields of an instruction word. -/
def fw (a b rm sat tidx cnt opnd : Nat) : CellWord where
  fmta := BitVec.ofNat 4 a
  fmtb := BitVec.ofNat 4 b
  rm := BitVec.ofNat 3 rm
  sat := BitVec.ofNat 1 sat
  tidx := BitVec.ofNat 5 tidx
  cnt := BitVec.ofNat 13 cnt
  opnd := BitVec.ofNat 26 opnd

/-- A value at a bit of the operand field. -/
def at' (n v : Nat) : Nat := v * 2 ^ n

/-- A plan with two windows, a block for each of two cells. -/
def planC : Plan where
  windows := [(0, { va := 100, len := 4096, cstride := 0, write := false, wrap := false, view := false, valid := true }),
    (1, { va := 100, len := 4096, cstride := 0, write := true, wrap := false, view := false, valid := true })]
  cellPlans := [{ lc := 5, st := .f, blocks := [{ words := [BitVec.ofNat 64 (0xFF * 2 ^ 56)], cost := {}, seg := 0 }] },
    { lc := 9, st := .b, blocks := [] }]

/-- The frames of pages 0 to 2 of context 1, its page table and its key. -/
def withMem (s : State) : State := { s with
  ctxs := [(0, { state := .active }), (1, { state := .active })]
  lid := { s.lid with tenant := [(0, { state := .live, gen := 1 }), (1, { state := .live, gen := 1, keyId := 77, key := 5 })] }
  mem := { s.mem with
    pte := [(0, { valid := true, tier := .t1, frame := 8 }), (2 ^ 25, { valid := true, tier := .t1, frame := 0 }),
      (2 ^ 25 + 1, { valid := true, tier := .t1, frame := 1 }), (2 ^ 25 + 2, { valid := true, tier := .t1, frame := 2 })]
    frames := [(0, { state := .resident, ctx := 1, key := 1, page := 0, mapped := true }),
      (1, { state := .resident, ctx := 1, key := 1, page := 1, mapped := true }),
      (2, { state := .resident, ctx := 1, key := 1, page := 2, mapped := true }), (8, { state := .resident, mapped := true })]
    acct := [(0, { q1 := 1000, q2 := 1000 }), (1, { q1 := 1000, q2 := 1000 })] } }

/-- An Upsett image of six cells: its role map at byte 24 gives cell 5 the role `r` and leaves the others unused; route 1 of cell 5, in the
route tables at byte 32, is valid and sends 3 KB to event counter 4 of cell 9's backward stream. -/
def imageFor (r : Role) : UpsettImage :=
  let code : Nat := match r with | .matrix => 0 | .vector => 1 | .reduce => 2 | .stream => 3 | .unused => 255;
  { meas := 0
    bytes := [(6, 6), (8, 24), (16, 32)] ++ ((List.range 5).map fun i => (24 + i, 255)) ++ [(29, BitVec.ofNat 8 code)]
      ++ (List.range 4).map fun i => (32 + 8 * (64 * 5 + 1) + i, BitVec.ofNat 8 (bytesAt (9 + 3 * 2 ^ 10 + 4 * 2 ^ 20 + 3 * 2 ^ 24) i 1)) }

/-- Cell 5 of role `r` runs course 7 and stands at the word of opcode `o` and fields `f`; `c` is the rest of the cell. -/
def onCell (r : Role) (o : Nat) (f : CellWord) (c : Cell) : State := withMem { dev with
  rnd := { dev.rnd with num := 10 }
  ups := { cur := some (imageFor r) }
  crs := { running := [{ running1 with plan := planC }] }
  cells := [(5, { c with
    course := some 7
    ctx := some 1
    f := { c.f with running := true, code := [0, BitVec.ofNat 64 (encWord o f)], off := 1 } })] }

/-- The site of that word. -/
def siteOf (s : State) (o : Nat) (f : CellWord) : Site :=
  (siteAt s 5 .f o f).getD { lc := 0, st := .f, opc := 0, f := {}, ctx := 0, course := running1, blk := 0, off := 0, fsplit := 0 }

/-- A vector instruction on FP32: VD 4, VA 1, VB 2, VC 3. -/
def fV (a b cnt : Nat) : CellWord := fw a b 0 0 0 cnt (at' 22 4 + at' 18 1 + at' 14 2 + at' 10 3)

def onV (o : Nat) (f : CellWord) : State := onCell .vector o f {}

theorem witness_FloatElementwise : let s := onV 0x41 (fV 0 0 1)
    let p := siteOf s 0x41 (fV 0 0 1);
    p.fmts 0 0 = true ∧ VecOk p ∧ Stands 0x41 5 .f (fV 0 0 1) p s := by decide +kernel

theorem witness_IntegerElementwise :
    (let s := onV 0x60 (fV 8 8 4096)
      let p := siteOf s 0x60 (fV 8 8 4096);
      VecOk p ∧ p.fmts 8 8 = true ∧ Stands 0x60 5 .f (fV 8 8 4096) p s) ∧
    (let s := onV 0x50 (fV 0 8 1)
      let p := siteOf s 0x50 (fV 0 8 1);
      VecOk p ∧ p.fmts 0 8 = true ∧ Stands 0x50 5 .f (fV 0 8 1) p s) := by decide +kernel

/-- A table instruction over ROM table 1: VD 4, VA 1. -/
def fT (cnt : Nat) : CellWord := fw 0 0 0 0 0 cnt (at' 22 4 + at' 18 1 + at' 17 1 + at' 8 1)

theorem witness_ReductionsAndLookups :
    (let s := onV 0x58 (fV 0 0 1)
      let p := siteOf s 0x58 (fV 0 0 1);
      VecOk p ∧ p.fmts 0 0 = true ∧ Stands 0x58 5 .f (fV 0 0 1) p s) ∧
    (let s := onV 0x80 (fT 4096)
      let p := siteOf s 0x80 (fT 4096);
      (p.table (s.cell 5)).isSome = true ∧ p.fmts 0 0 = true ∧ 1 ≤ p.cnt ∧ p.cnt ≤ 4096 ∧ p.op 0 8 = 0 ∧
        Stands 0x80 5 .f (fT 4096) p s) := by decide +kernel

/-- A move of `n` units at bank KiB `a`, the rest of the operand field `x`. -/
def fM (a b n k x : Nat) : CellWord := fw a b 0 0 0 n (at' 16 k + x)

theorem witness_BankMoves :
    (let f := fM 0 0 4096 0 0
      let s := onV 0x03 f
      let p := siteOf s 0x03 f;
      Stands 0x03 5 .f f p s ∧ 1 ≤ p.cnt ∧ p.op 0 6 = 0 ∧ 1024 * p.op 16 10 + 256 * p.cnt ≤ bankSize ∧
        1024 * p.op 6 10 + 256 * p.cnt ≤ bankSize) ∧
    (let f := fM 0 0 1 1023 0
      let s := onV 0x06 f
      let p := siteOf s 0x06 f;
      Stands 0x06 5 .f f p s ∧ 1 ≤ p.cnt ∧ p.op 0 6 = 0 ∧ p.op 15 1 = 0 ∧ 1024 * p.op 16 10 + 64 * p.cnt ≤ bankSize ∧
        64 * p.op 6 9 + 64 * p.cnt ≤ tableSize) ∧
    (let f := fM 9 8 4096 0 4
      let s := onV 0x04 f
      let p := siteOf s 0x04 f;
      Stands 0x04 5 .f f p s ∧ 1 ≤ p.cnt ∧ p.f.fmtb.toNat = (if isInt p.f.fmta.toNat then 8 else 0) ∧ p.cnt ≤ 4096 ∧ p.op 4 12 = 0 ∧
        1024 * p.op 16 10 + packedLen (fmtWidth p.f.fmta.toNat) p.cnt ≤ bankSize) ∧
    (let f := fM 8 9 1 1023 3
      let s := onV 0x05 f
      let p := siteOf s 0x05 f;
      Stands 0x05 5 .f f p s ∧ 1 ≤ p.cnt ∧ (p.f.fmta.toNat = 0 ∨ p.f.fmta.toNat = 8) ∧ p.cnt ≤ 4096 ∧ p.op 4 12 = 0 ∧
        1024 * p.op 16 10 + packedLen (fmtWidth p.f.fmtb.toNat) p.cnt ≤ bankSize) := by decide +kernel

/-- A cell with an LDW, an STW, a PUT and a beat in flight. -/
def inFlight : Cell where
  f := { ldws := [{ evc := 3, base := 1000, bytes := [1, 2, 3] }], stws := [{ evc := 2, view := false, parts := [(100, [1, 2, 3])] }]
         puts := [{ tgt := .cell 9 .b 3, base := 64, bytes := [7, 8] }]
         beats := [{ slot := 2, row := 0, fmtI := true, sat := false, zero := false, sums := [FVal.ofInt 3, FVal.ofInt 5] }]
         evc := [(1, 5), (4, 2)] }
  slots := [(2, { live := true, fmtI := true, entries := [(0, 77), (65, 99)] })]
  bank := [(0, 1), (700, 5), (1024, 9), (1500, 255)]

def onM (o : Nat) (f : CellWord) : State := onCell .matrix o f inFlight

/-- LDW and STW of 512 bytes through windows 0 and 1. -/
def fL (w : Nat) : CellWord := fw 0 0 0 0 0 2 (at' 16 1023 + at' 8 w + 3)

theorem witness_WindowLoadsAndStores :
    (let f := fM 0 0 1 1023 3
      let s := onM 0x01 f
      let p := siteOf s 0x01 f;
      Stands 0x01 5 .f f p s ∧ 1 ≤ p.cnt ∧ p.op 4 4 = 0 ∧ 1024 * p.op 16 10 + 256 * p.cnt ≤ bankSize ∧
        (match windowParts p false with
        | some (w, xs, _) => (match (s.readParts p.course w.view xs).1 with | .ok _ => true | .error _ => false)
        | none => false) = true) ∧
    (let f := fM 0 0 2 0 (at' 8 1)
      let s := onM 0x02 f
      let p := siteOf s 0x02 f;
      Stands 0x02 5 .f f p s ∧ 1 ≤ p.cnt ∧ p.op 4 4 = 0 ∧ 1024 * p.op 16 10 + 256 * p.cnt ≤ bankSize ∧
        (match windowParts p true with
        | some (w, xs, _) => xs.all fun x => courseWritable s p.course w.view p.course.ctx x.1 x.2
        | none => false) = true) ∧
    ((onM 0x01 {}).stream 5 .f).ldws = [{ evc := 3, base := 1000, bytes := [1, 2, 3] }] ∧
    (∃ c ∈ (onM 0x01 {}).crs.running, ((onM 0x01 {}).cell 5).course = some c.id ∧ (onM 0x01 {}).course c.id = some c ∧
      (match ((onM 0x01 {}).writeParts c false [(100, [1, 2, 3])]).1 with | .ok _ => true | .error _ => false) = true) := by decide +kernel

theorem witness_PutsAndSignals :
    (let f := fM 0 0 1 1023 1
      let s := onM 0x08 f
      let p := siteOf s 0x08 f;
      Stands 0x08 5 .f f p s ∧ 1 ≤ p.cnt ∧ p.op 6 10 = 0 ∧ 1024 * p.op 16 10 + 256 * p.cnt ≤ bankSize ∧
        (match routeTarget s p (p.op 0 6) with
        | some (e, tgt) => decide (1024 * e.bankKb + 256 * p.cnt ≤ targetSize s tgt)
        | none => false) = true) ∧
    ((onM 0x01 {}).stream 5 .f).puts = [{ tgt := .cell 9 .b 3, base := 64, bytes := [7, 8] }] ∧
    (let f := fM 0 0 1 0 1
      let s := onM 0xF2 f
      let p := siteOf s 0xF2 f;
      Stands 0xF2 5 .f f p s ∧ 1 ≤ p.cnt ∧ p.op 6 20 = 0 ∧
        (match routeTarget s p (p.op 0 6) with
        | some (_, .cell j u ev) => decide (j = 9 ∧ u = .b ∧ ev = 4)
        | _ => false) = true) := by decide +kernel

/-- An instruction on tray slot 2. -/
def fS (a b n x : Nat) : CellWord := fw a b 0 0 2 n x

theorem witness_TraySlots :
    (let f := fS 0 0 64 0
      let s := onM 0x91 f
      let p := siteOf s 0x91 f;
      Stands 0x91 5 .f f p s ∧ 1 ≤ p.cnt ∧ p.cnt ≤ 64 ∧ p.op 0 16 = 0 ∧ 1024 * p.op 16 10 + 384 * p.cnt ≤ bankSize) ∧
    (let f := fS 0 0 1 (at' 16 1023 + at' 15 1)
      let s := onM 0x92 f
      let p := siteOf s 0x92 f;
      Stands 0x92 5 .f f p s ∧ 1 ≤ p.cnt ∧ p.cnt ≤ 64 ∧ p.op 0 14 = 0 ∧ p.owns p.f.tidx.toNat = true ∧ p.op 15 1 = 1 ∧
        1024 * p.op 16 10 + 384 * p.cnt ≤ bankSize) ∧
    (let f := fS 0 0 0 0
      let s := onM 0x93 f
      let p := siteOf s 0x93 f;
      Stands 0x93 5 .f f p s ∧ p.owns p.f.tidx.toNat = true) ∧
    (let f := fS 0 8 1 (at' 4 1 + at' 5 1 + at' 11 31 + 7)
      let s := onM 0x90 f
      let p := siteOf s 0x90 f;
      Stands 0x90 5 .f f p s ∧ 1 ≤ p.cnt ∧ p.cnt ≤ 64 ∧ p.op 8 3 ≤ 3 ∧ p.op 4 1 = 1 ∧ (p.f.fmtb.toNat = 0 ∨ p.f.fmtb.toNat = 8) ∧
        (match epilogueAt (s.cell 5).table (p.op 11 5) with
        | some e => e.ok ((s.cell 5).settle p.f.tidx.toNat) p.cnt && decide (e.act < 2)
        | none => false) = true) := by decide +kernel

/-- A cell with a run list of one run: rows 0 and 1 at rank 8. -/
def runs : Cell := { inFlight with table := [(0, 0x80), (2, 0x80)] }

theorem witness_MatrixInstructions :
    (let f := fS 9 9 64 (at' 16 1 + at' 2 1)
      let s := onM 0x20 f
      let p := siteOf s 0x20 f;
      (mmaEffect p (s.cell 5)).isSome = true ∧ Stands 0x20 5 .f f p s) ∧
    (let f := fS 9 9 2 (at' 16 1)
      let s := onCell .matrix 0x21 f runs
      let p := siteOf s 0x21 f;
      (slrEffect p (s.cell 5)).isSome = true ∧ Stands 0x21 5 .f f p s) ∧
    (let f := fw 4 4 0 0 3 1 (at' 2 15)
      let s := onM 0x20 f
      let p := siteOf s 0x20 f
      let c := s.cell 5;
      chunkWidth 4 4 ≠ 0 ∧ 1 ≤ p.cnt ∧ p.cnt ≤ 64 ∧ p.op 0 1 = 0 ∧ p.owns p.f.tidx.toNat = true ∧
        1024 * p.op 16 10 + p.cnt * ((p.op 2 4 + 1) * chunkWidth 4 4 * fmtWidth 4 / 8) + (p.op 2 4 + 1) * chunkWidth 4 4 * fmtWidth 4 ≤ bankSize ∧
        1024 * p.op 6 10 + (p.op 2 4 + 1) * (64 * chunkWidth 4 4 * fmtWidth 4 / 8) ≤ bankSize ∧
        ((c.settle p.f.tidx.toNat).slot p.f.tidx.toNat).live = false) ∧
    ((onM 0x20 {}).stream 5 .f).beats = inFlight.f.beats := by decide +kernel

def onS (o : Nat) (f : CellWord) (c : Cell) : State := onCell .stream o f c

/-- The stream has waited in SYN since round 6. -/
def waited : Cell :=
  let f := inFlight.f;
  { inFlight with f := { f with synFrom := some 6 } }

/-- The stream is between blocks. -/
def fresh : Cell := {}

theorem witness_SyncInstructions :
    (let s := onS 0xF0 {} {}
      let p := siteOf s 0xF0 {};
      Stands 0xF0 5 .f {} p s ∧ p.op 0 26 = 0) ∧
    (let f := fw 0 0 0 0 0 0 (1 + at' 4 5)
      let s := onS 0xF1 f inFlight
      let p := siteOf s 0xF1 f;
      Stands 0xF1 5 .f f p s ∧ p.op 4 16 ≤ look 0 (s.stream 5 .f).evc (p.op 0 4)) ∧
    (let f := fw 0 0 0 0 0 0 (1 + at' 4 6)
      let s := onS 0xF1 f inFlight
      let p := siteOf s 0xF1 f;
      Stands 0xF1 5 .f f p s ∧ look 0 (s.stream 5 .f).evc (p.op 0 4) < p.op 4 16) ∧
    (let f := fw 0 0 0 0 0 0 0x8001
      let s := onS 0xF3 f {}
      let p := siteOf s 0xF3 f;
      Stands 0xF3 5 .f f p s) ∧
    (let s := onS 0xFF {} {}
      let p := siteOf s 0xFF {};
      Stands 0xFF 5 .f {} p s) ∧
    (let s := onS 0xF1 {} waited
      let p := siteOf s 0xF1 {};
      siteAt s 5 .f 0xF1 {} = some p ∧ (s.stream 5 .f).synFrom = some 6 ∧ 6 + 4 ≤ boundaryRnd s) ∧
    (let s := onS 0xF1 {} fresh
      let x := s.stream 5 .f;
      x.idle = none ∧ ∃ c ∈ s.crs.running, (s.cell 5).course = some c.id ∧ s.course c.id = some c ∧ c.stopped = false ∧
        (match (blocksOf c 5 .f)[x.next]? with
        | some b => decide (b.words.length ≤ 1024) && b.words.any endsBlock
        | none => false) = true) := by decide +kernel

theorem witness_WrongRoleIsAViolation : let f := fM 0 0 1 0 0
    let s := onCell .unused 0x01 f {};
    siteAt s 5 .f 0x01 f = some (siteOf s 0x01 f) ∧ wordAt s 5 .f = some (encWord 0x01 f) ∧ roleTakes (roleOf s 5) 0x01 = false := by
  decide +kernel

/-! ### The slath engines -/

/-- A command of a U list: opcode, WAIT on gate 3, DCELL 5 with counter 4 of stream B, context 1, and the bytes from 16 on. -/
def uWord (opc wait rest : Nat) : BitVec 512 :=
  BitVec.ofNat 512 (opc + at' 8 3 + at' 16 wait + at' 32 5 + at' 48 0x14 + at' 80 1 + rest)

/-- Course 7 of context 1 with a U list on die 0 that stands at `u`; gate 3 holds 2. -/
def onU (u : BitVec 512) : State :=
  let s := withMem { dev with rnd := { dev.rnd with num := 10 } };
  { s with
    bud := { s.bud with isOpen := true, cap := ⟨2048, 2048, 2048⟩, share := [(0, ⟨1000, 1000, 1000⟩), (2, ⟨500, 500, 500⟩)] }
    crs := { running := [{ running1 with plan := { planC with ulists := [{ tag := 0, version := 1, die := 0, stageKb := 1, cmds := [u, u] }] } }] }
    msd := [(0, { lists := [{ cid := 7, gates := [(3, 2)], since := 6 }] })] }

/-- ATTN over one token: D 64, one head, FP8 keys; the block table is page 1 of the context, which reads as block 0. -/
def uAttn : BitVec 512 := uWord 1 2 (at' 128 frameBytes + at' 176 1 + at' 256 4 + at' 272 3 + at' 280 6 + at' 288 1)

/-- GEMV of one row by one chunk. -/
def uGemv : BitVec 512 := uWord 2 0 (at' 192 1 + at' 200 0x99 + at' 208 1)

/-- An update of one element: parameters at 0 of page 0, state at 64, gradient at 128, working copy at 192. -/
def uUpdate (opc : Nat) : BitVec 512 := uWord opc 1 (at' 176 64 + at' 224 128 + at' 272 192 + at' 320 1)

/-- ACC of one INT32. -/
def uAcc (wait : Nat) : BitVec 512 := uWord 5 wait (at' 192 1 + at' 224 8)

/-- The command at the head of the list issues, its body answers, its effect runs and its bytes are admitted. -/
def uGoes (opc : Nat) (u : BitVec 512) (body : UCmd → State → Option UEffect) : Bool :=
  let s := onU u;
  match uCmdAt s 7 0 with
  | none => false
  | some c =>
    match body c s with
    | none => false
    | some e => c.raw == u && decide (c.at 2 2 ≤ look 0 c.list.gates (c.at 1 1 % 16)) && uHeadOk c && c.opc == opc && c.dcell != 0x3FF &&
      (match (e.run s).1 with | .ok _ => true | .error _ => false) &&
      (s.ask (3, 7, 0) (if opc = 3 ∨ opc = 4 then Act.update else c.course.plan.cls) { hbm := e.cost }).1

/-- The head of the list waits at its gate, or breaks a limit of the header. -/
def uStops (u : BitVec 512) : Bool :=
  let s := onU u;
  match uCmdAt s 7 0 with
  | none => false
  | some c => (decide (look 0 c.list.gates (c.at 1 1 % 16) < c.at 2 2) && decide (c.list.since + 4 ≤ boundaryRnd s)) ||
    (decide (c.at 2 2 ≤ look 0 c.list.gates (c.at 1 1 % 16)) && c.opc == 5 && !uHeadOk c)

theorem witness_SlathEngineCommands :
    uGoes 1 uAttn attnBody = true ∧ uGoes 2 uGemv gemvBody = true ∧ uGoes 3 (uUpdate 3) (updateBody false) = true ∧
    uGoes 4 (uUpdate 4) (updateBody true) = true ∧ uGoes 5 (uAcc 2) accBody = true ∧
    uStops (uAcc 3) = true ∧ uStops (uAcc 2 ||| BitVec.ofNat 512 (at' 96 1)) = true := by decide +kernel

/-! ### Stake sets and weavers -/

/-- A notice to queue pair 9. -/
def told : Notice := ⟨9, 0x77, 1⟩

/-- Stake set 2 in round 20 as a device of hoop role `a` holds it, its commit of generation 6 accepted for round 21. -/
def committing (a : Nat) : State := { dev with
  rnd := { dev.rnd with num := 20, active := a }
  stakes := [(2, { reg := true, gens := [(1, { gen := 6, state := .ready, parts := 2 })]
                   commit := some { gen := 6, c := 21, openRounds := 4, ready := [3], go := false, late := false, note := told } })] }

/-- The commit that stands there. -/
def standing : Commit := { gen := 6, c := 21, openRounds := 4, ready := [3], go := false, late := false, note := told }

theorem witness_CommitMessages :
    ((committing 1).stake 2).commit = some standing ∧ (committing 1).rnd.active = 1 ∧ 15 ∉ standing.ready ∧ standing.go = false ∧
    ((committing 0).stake 2).commit = some standing ∧ standing.c ≤ boundaryRnd (committing 0) + 1 ∧ (committing 0).rnd.active = 0 := by
  decide +kernel

/-- The 4,096 bytes of a page of which the first bytes and the last 4 are given. -/
def pageOf (head : Nat) (crc : Nat) : List Byte := leBytes 4092 head ++ leBytes 4 crc

/-- Where a blank page stands in host region 1. -/
def blankAddr : Nat := 2 ^ 56

theorem pageOf_length (h c : Nat) : (pageOf h c).length = 4096 := by simp [pageOf]

/-- A page that was written to host region 1 reads back, in part or as a whole. -/
theorem slowRead_page (s t : State) (c : Seal) (h crc k n : Nat) (hm : t.mem = (s.slowWrite c c.base (pageOf h crc)).mem)
    (hb : 2 ^ 56 ≤ c.base) (hc : c.base % 2 ^ 48 + 4096 ≤ 2 ^ 48) (hk : k + n ≤ 4096) :
    slowRead c t (c.base + k) n = ((pageOf h crc).drop k).take n := by
  have e : slowRead c t (c.base + k) n = slowRead c (s.slowWrite c c.base (pageOf h crc)) (c.base + k) n := by
    unfold slowRead slowBlocks slowRaw slowKey region
    rw [hm]
  rw [e]
  refine slowRead_slowWrite c s c.base _ k n (Nat.le_refl _) (by rw [pageOf_length]; exact hk) ?_
  have h0 : c.first c.base = 0 := by simp [Seal.first]
  have h1 : 16 * c.count c.base (pageOf h crc).length = 4096 := by rw [pageOf_length]; simp [Seal.count, Seal.first, ceilDiv]
  rw [h0, h1]
  intro i j hi hj
  exact slowKey_region s c.base 4096 hb hc i j hi hj

/-- A build in slot 1 of stake set 2 that asks peer 5 for shard 0 of two, with its image in host region 1 behind it. -/
def building : Build := { slot := 1, shard := 0, source := 0, since := 16, note := told, burst := some 1 }

def buildBase (left : Nat) : State := { dev with
  rnd := { dev.rnd with num := 20 }
  bud := { dev.bud with share := [(4, ⟨0, 10, 10⟩)], moves := if left = 0 then [] else [{ what := .build 2, cls := 4, bytes := left }] }
  lid := { dev.lid with stake := [(0, { state := .live, gen := 1, key := 3 })] }
  mem := { dev.mem with regions := [(1, { reg := true, len := frameBytes })] }
  stakes := [(2, { reg := true, build := some building
                   gens := [(0, { gen := 5, state := .current, nshard := 1, part := 3, imgPages := 512, frames := [41] }),
                            (1, { gen := 6, state := .building, nshard := 2, peers := [5], image := blankAddr, frames := [40] })] })] }

/-- The seal of that image, of which a blank page stands in the slow tier. -/
def buildSeal : Seal := { key := 3, base := blankAddr }
def onBuild : State := (buildBase 0).slowWrite buildSeal (blankAddr) (pageOf 0 0)

theorem build_read (k n : Nat) (hk : k + n ≤ 4096) : slowRead buildSeal onBuild (blankAddr + k) n = ((pageOf 0 0).drop k).take n :=
  slowRead_page (buildBase 0) onBuild buildSeal 0 0 k n rfl (by decide) (by decide) hk

theorem build_image : imageAt onBuild 2 (blankAddr) = { base := blankAddr, key := 3, head := 0 } := by
  show Pkg.mk (blankAddr) 3 (leNat (slowRead buildSeal onBuild (blankAddr + 0) 64)) = _
  rw [build_read 0 64 (by decide), show leNat (((pageOf 0 0).drop 0).take 64) = 0 by decide +kernel]

theorem witness_BuildShards :
    (let s := buildBase 0
      let b := building
      let g := (s.stake 2).gen 1;
      (s.stake 2).build = some b ∧ g.frames ≠ [] ∧ b.shard < g.nshard ∧ b.source + 1 < (buildSources g).length ∧
      b.source < g.peers.length ∧ b.since + 4 ≤ boundaryRnd s) ∧
    (((buildBase 4096).stake 2).build = some building ∧ moveLeft (buildBase 4096) (.build 2) ≠ 0) ∧
    (let s := onBuild
      let b := building
      let g := (s.stake 2).gen 1
      let key := s.skey (s.stake 2).keySlot;
      (s.stake 2).build = some b ∧ g.frames ≠ [] ∧ b.shard + 1 < g.nshard ∧ (buildSources g).getD b.source none = none ∧ moveLeft s (.build 2) = 0 ∧
      key.state = .live ∧ b.burst = some key.gen ∧ shardLen g.imgPages b.shard = 0 ∧ g.image = blankAddr) ∧
    genOf onBuild 2 7 = none ∧
    (∃ x ∈ [(onBuild.stake 2).gen 0], genOf onBuild 2 5 = some x ∧ x.part = 3 ∧ 0 < x.nshard ∧
      x.state ∈ [GState.ready, .current, .isOpen, .closed] ∧ (look ({} : Cost) onBuild.bud.share Act.swap).link ≠ 0 ∧
      ((shardFrames x.frames.length 0).map fun k => x.frames.getD k 0) = [41] ∧ (∀ l ∈ onBuild.mem.lines, l.1 ≠ 41) ∧
      shardLen x.imgPages 0 = frameBytes) := by
  decide +kernel

/-- The shard of no bytes that the peer sends has the CRC that the image's table holds for it. -/
theorem witness_BuildShards_crc : let p := imageAt onBuild 2 (blankAddr);
    crc32c (([] : List Byte).map BitVec.toNat) = leNat (slowRead p.seal onBuild (blankAddr + 64 + 16 * p.nlayer + 32 * p.imgSect + 4 * 0) 4) := by
  intro p
  show _ = leNat (slowRead (imageAt onBuild 2 (blankAddr)).seal onBuild
    (blankAddr + 64 + 16 * (imageAt onBuild 2 (blankAddr)).nlayer + 32 * (imageAt onBuild 2 (blankAddr)).imgSect + 4 * 0) 4)
  rw [build_image]
  show _ = leNat (slowRead buildSeal onBuild (blankAddr + 64) 4)
  rw [build_read 64 4 (by decide)]
  decide +kernel

/-- Weavers of stake set 2: 3 being fetched, 4 the same after one failed read, 5 being removed, 6 resident with its carry-over pending;
generation 6 of the stake set is READY, and its probe set of one sequence, one token and one output in frame 60 has been run. -/
def weaverBase (left : Nat) : State := { dev with
  rnd := { dev.rnd with num := 20 }
  bud := { dev.bud with moves := if left = 0 then [] else [{ what := .fetch 3, cls := 5, bytes := left }] }
  mem := { dev.mem with regions := [(1, { reg := true, len := frameBytes })], hbm := wrBytes [] (60 * frameBytes) (leBytes 5 (1 + 2 ^ 16 + 2 ^ 32)) }
  crs := { dev.crs with probe := some { sid := 2, gen := 6, pack := [6], pos := 2, ready := true } }
  weav := { dev.weav with dir :=
    [(3, { state := .fetching, nshard := 1, frames := [50], slow := blankAddr, burst := some 1 }),
     (4, { state := .fetching, nshard := 2, retried := true, burst := some 1 }),
     (5, { state := .removing, slow := 4096 }), (6, { state := .resident, sid := 2, carry := .pending, carryGen := 6 })] }
  stakes := [(2, { reg := true, gens := [(1, {
    gen := 6, state := .ready, checkMode := 1, agreeMin := 1, divMax := 0x3F800000, frames := [60]
    sections := [{ layer := 0, kind := 4, mat := 0, expert := 0, fmt := 0, split := 0, zero := 0, k := 0, n := 0, offset := 0, length := 1 }] })] })] }

/-- The blank package part that weaver 3 names. -/
def blankSeal : Seal := { key := ((weaverBase 0).tkey 0).key, base := blankAddr }
def weavers : State := (weaverBase 0).slowWrite blankSeal (blankAddr) (pageOf 0 0)

theorem blank_read (k n : Nat) (hk : k + n ≤ 4096) : slowRead blankSeal weavers (blankAddr + k) n = ((pageOf 0 0).drop k).take n :=
  slowRead_page (weaverBase 0) weavers blankSeal 0 0 k n rfl (by decide) (by decide) hk

theorem witness_WeaverEvents_shard : shardOk weavers (weavers.weaver 3) 0 = true := by
  have e : partOf weavers (weavers.weaver 3) = { base := blankAddr, key := blankSeal.key, head := 0 } := by
    show Pkg.mk (blankAddr) blankSeal.key (leNat (slowRead blankSeal weavers (blankAddr + 0) 64)) = _
    rw [blank_read 0 64 (by decide)]
    rw [show leNat (((pageOf 0 0).drop 0).take 64) = 0 by decide +kernel]
  unfold shardOk
  rw [e]
  show (crc32c ((slowRead blankSeal weavers (blankAddr + 4096) 0).map BitVec.toNat) == leNat (slowRead blankSeal weavers (blankAddr + 64) 4)) = true
  rw [blank_read 4096 0 (by decide), blank_read 64 4 (by decide)]
  decide +kernel

theorem witness_WeaverEvents : let s := weavers;
    moveLeft (weaverBase 4096) (.fetch 3) ≠ 0 ∧
    (let w := s.weaver 3;
      w.state = .fetching ∧ moveLeft s (.fetch 3) = 0 ∧ (s.tkey w.keySlot).state = .live ∧ w.burst = some (s.tkey w.keySlot).gen ∧ w.shard = 0 ∧
      w.nshard ≤ w.shard + 1 ∧ w.retried = false) ∧
    (let w := s.weaver 4;
      w.state = .fetching ∧ moveLeft s (.fetch 4) = 0 ∧ (s.tkey w.keySlot).state = .live ∧ w.burst = some (s.tkey w.keySlot).gen ∧ w.retried = true) ∧
    ((s.weaver 5).state = .removing ∧ weaverPins s 5 = 0 ∧ (s.weaver 5).frames = []) ∧
    (∃ p ∈ s.crs.probe.toList, ∃ g ∈ [(s.stake 2).gen 1], s.crs.probe = some p ∧ genOf s p.sid p.gen = some g ∧ p.ready = true ∧
      p.pack.contains 6 = true ∧ probing s p.sid p.gen 6 = true ∧ decidesCarry s (probePlan s g) = true ∧
      (probeOutcome s p g (p.pack.findIdx (· == 6))).1 = true ∧ (probeOutcome s p g (p.pack.findIdx (· == 6))).2.1 = 1) ∧
    (s.weaver 6).carry = .pending := by decide +kernel

/-! ### Frames and poison -/

/-- Frames 0 to 5 of context 1 on their way: filling, promoting, leaving, being zeroed, being cleaned, and filling with a key that has gone;
`left` bytes of frame 0's fill and of frame 3's zeroing are not admitted yet. -/
def moving (left : Nat) : State :=
  let s := withMem dev;
  { s with
    rnd := { dev.rnd with num := 30 }
    bud := { s.bud with moves := if left = 0 then []
      else [{ what := .frame 0, cls := 5, bytes := left }, { what := .zero 3, cls := 6, bytes := left }] }
    mem := { s.mem with
      pte := [(2 ^ 25 + 7, { valid := true, tier := .t2, sda := 3 * frameBytes })]
      frames := [(0, { state := .filling, ctx := 1, key := 1, fillFrom := some frameBytes, burst := some 1 }),
        (1, { state := .promoting, ctx := 1, key := 1, back := 3 * frameBytes, burst := some 1 }),
        (2, { state := .evicting, ctx := 1, key := 1, burst := some 1 }), (3, { state := .evicting, zeroing := true }),
        (4, { state := .dirty, ctx := 1, key := 1, backed := true, back := 5 * frameBytes, dirty := 5, pass := 5, cleaning := true, burst := some 1 }),
        (5, { state := .filling, ctx := 1, key := 1, fillFrom := some frameBytes, burst := some 0 })] } }

theorem witness_FrameMoves : let s := moving 0
    let k := frameKey s (s.frame 0);
    (moveLeft (moving 4096) (.frame 0) ≠ 0 ∧ moveLeft (moving 4096) (.zero 3) ≠ 0) ∧
    ((s.frame 5).burst = some 0 ∧ (frameKey s (s.frame 5)).gen ≠ 0 ∧ (s.frame 5).state = .filling ∧ (s.frame 5).fillFrom = some frameBytes ∧
      moveLeft s (.frame 5) = 0) ∧
    (k.state = .live ∧ ∀ f ∈ [0, 1, 2, 4], frameKey s (s.frame f) = k ∧ moveLeft s (.frame f) = 0 ∧ (s.frame f).burst = some k.gen) ∧
    ((s.frame 0).state = .filling ∧ (s.frame 0).fillFrom = some frameBytes ∧ slowUp s frameBytes = true) ∧
    ((s.frame 1).state = .promoting ∧ slowUp s (s.frame 1).back = true ∧ ptesAt s (s.frame 1).back ≠ []) ∧
    ((s.frame 2).state = .evicting ∧ (s.frame 2).zeroing = false ∧ (s.frame 2).kind ≠ 3 ∧ (ptesOf s 2).isEmpty = true) ∧
    ((s.frame 3).zeroing = true ∧ moveLeft s (.zero 3) = 0 ∧ s.mem.waits = [] ∧ s.weav.dir = [] ∧ s.stakes = []) ∧
    ((s.frame 4).cleaning = true ∧ slowUp s (s.frame 4).back = true ∧ (s.frame 4).kind ≠ 3 ∧ (s.frame 4).pass = (s.frame 4).dirty ∧
      (s.frame 4).dirty < 2 ^ 32) := by decide +kernel

/-- Granule 5 of frame 40 lost, its first repair source asked 4 rounds ago; the same for a granule whose last source was asked. -/
def poisoned (n : Nat) : State :=
  let s := withMem dev;
  { s with
    rnd := { dev.rnd with num := 30 }
    bud := { s.bud with isOpen := true, cap := ⟨2048, 2048, 2048⟩ }
    crs := { running := [{ running1 with held := some (13, 40, 5) }] }
    weav := { s.weav with dir := [(3, { state := .resident, frames := [40], slow := 4096 })] }
    mem := { s.mem with
      frames := [(0, { state := .filling, ctx := 1 }), (40, { state := .resident, kind := 3, commons := true, poison := true, backed := true, back := 4096 })]
      lines := [(40, 5 * 64 + 3), (40, 9 * 64)]
      repairs := [{ frame := 40, granule := 5, source := n, since := 26, detected := 20, back := none, failed := false, rnd := 20 }] } }

theorem witness_PoisonAndRepair :
    (patrolTurn dev = some 0 ∧ patrolTurn { dev with mem := { dev.mem with scrubNext := 7 } } = some 7 ∧
      ((poisoned 0).admitOnce (0, 7, 0) Act.scrub { hbm := 4096 }).1 = true ∧ okErrs [(71, 255)] = true) ∧
    (hasMsd dev (msdOfFrame 196607) = true ∧ decodeErr (errTab [(0, 1), (1, 1)]) = .many ∧ decodeErr (errTab []) = .clean ∧
      errTab [(3, 7)] = [(3, 7)] ∧ decodeErr (errTab [(3, 7)]) = .one 3 7) ∧
    ((poisoned 0).frame 0).state = .filling ∧
    (∃ r ∈ (poisoned 0).mem.repairs, repairAt (poisoned 0) 40 5 = some r ∧ r.since + 4 ≤ boundaryRnd (poisoned 0) ∧
      r.source + 1 < (repairSources (poisoned 0) 40 5).length) ∧
    (∃ r ∈ (poisoned 1).mem.repairs, repairAt (poisoned 1) 40 5 = some r ∧ r.since + 4 ≤ boundaryRnd (poisoned 1) ∧
      (repairSources (poisoned 1) 40 5).length ≤ r.source + 1 ∧
      (match (repairSources (poisoned 1) 40 5)[r.source]? with | some (.outside _) => true | _ => false) = true ∧ r.back = none) ∧
    (∃ c ∈ (poisoned 0).crs.running, (poisoned 0).course 7 = some c ∧ c.held = some (13, 40, 5) ∧ 13 + 17 ≤ boundaryRnd (poisoned 0)) := by
  decide +kernel


/-! ### Cells between contexts, and faults of blocks -/

/-- The save image of an empty cell 7 of context 2. -/
def image7 : SaveImage := imageOf dev 2 7 {}

/-- Cells 5 to 8: being saved, being zeroed, about to be restored from the image that stands in frame 9, and one whose spare is loading; a course
uses cells 5 and 9. -/
def switching : State :=
  let s := withMem dev;
  { s with
    crs := { running := [{ running1 with plan := planC }] }
    ups := { s.ups with loading := [8], areas := [saveKey 1 5, saveKey 2 7] }
    mem := { s.mem with
      hbm := wrRange [] (9 * frameBytes) (imageBytes image7)
      frames := [(9, { state := .resident, kind := 6, ctx := 2 }), (10, { state := .resident, kind := 6, ctx := 1 })] }
    cells := [(5, { ctx := some 1, incoming := some 2, saving := some {}, slots := [(0, { live := true })], bank := [(3, 9)] }),
      (6, { ctx := some 1, zeroing := true, bank := [(3, 9)], slots := [(0, { live := true })] }),
      (7, { incoming := some 2, restore := true })] }

/-- Link 3 of the weft has been down for `n` boundaries. -/
def linkDown (n : Nat) : State := { dev with
  rnd := { dev.rnd with num := 12 }
  flt := { dev.flt with links := [{ warp := false, link := 3, fails := n, since := some 11 }] }
  msd := [(7, { lastFail := [(2, 11)] })]
  train := { dev.train with probe := some (1, 4, 11) } }

/-- The same link as it stopped in this round. -/
def linkStops : State := { dev with
  rnd := { dev.rnd with num := 12 }
  flt := { dev.flt with links := [{ warp := false, link := 3, since := some 12 }] } }

theorem witness_CellAndBlockFaults :
    (let s := switching;
      ((s.cell 5).saving = some {} ∧ (s.cell 5).ctx = some 1 ∧ ctxGoing s 1 = false ∧ saveKey 1 5 ∈ s.ups.areas ∧ savesFit s 1 = true ∧
        (areaPieces s 1 5 0 (imageSize {})).isSome = true) ∧ (s.cell 6).zeroing = true ∧
      (hasCell s 9 = true ∧ 9 ∉ s.ups.lost ∧ 9 ∉ s.ups.fenced ∧
        ∃ k ∈ s.crs.running, (planCells k.plan).contains 9 = true ∧ ∀ y ∈ s.crs.running, y.id = k.id → y = k) ∧
      8 ∈ s.ups.loading) ∧
    (linkFitted dev false 15 = true ∧ linkDownNow dev false 15 = none ∧ dev.crs.running = [] ∧ dev.flt.halted = false) ∧
    (∃ l ∈ linkStops.flt.links, linkDownNow linkStops false 3 = some l ∧ retrains linkStops l = false) ∧
    (∃ l ∈ (linkDown 1).flt.links, linkDownNow (linkDown 1) false 3 = some l ∧ retrains (linkDown 1) l = true ∧ l.fails = 1) ∧
    (∃ l ∈ (linkDown 2).flt.links, linkDownNow (linkDown 2) false 3 = some l ∧ retrains (linkDown 2) l = true ∧ l.fails = 2) ∧
    (linkDown 2).flt.halted = false ∧
    (hasMsd (linkDown 1) 7 = true ∧ 2 ∉ ((linkDown 1).msdOf 7).disabled ∧ 3 ∉ ((linkDown 1).msdOf 7).disabled) ∧
    (dev.rst.running = true ∧ (dev.rst.busy.any fun b => b.sel == 4 && b.unit == 39) = false) ∧ dev.pwr.state ≠ .d3cold := by decide +kernel

/-- The image stands in its save area as it was taken, and passes the checks of R79. -/
theorem witness_CellAndBlockFaults_restore : (switching.cell 7).saving = none ∧ (switching.cell 7).restore = true ∧
    (switching.cell 7).incoming = some 2 ∧ restoredImage switching 2 7 = some image7 := by decide +kernel


/-! ### Wale, the ports and RoCE -/

/-- Port 3 with both ends up and secured. -/
def port3 : Port := { enable := true, linkUp := 1, macsecUp := 1, ipv6 := 0xFD00, ipv4 := 0x0A000001, v4valid := true, nextHop := 6, caks := [(0, 1, 2), (1, 1, 2)]
                      oldSa := [0], xoffSent := [5], rxUsed := [(5, 4096)] }

/-- Flow 70 to queue pair 90 of a peer: `n` resends of PSN 10, two messages on their way, 15 packets received and not acknowledged. -/
def flow70 (n : Nat) : Flow where
  state := .isOpen
  peerQpn := 90
  port := 3
  sndUna := 10
  sndNext := 12
  queued := 12
  resends := n
  msgs := [{ id := 1, bytes := [1, 2, 3], psn := 10 }, { id := 2, bytes := [4], psn := 11 }]
  rcvNext := 5
  rcvUnack := 15

/-- Flow 70 on port 3; flow 71 that is being opened; the blocks of context 1, and a key of it. -/
def wire (n : Nat) : State :=
  let s := withMem dev;
  { s with
    ports := [(3, port3)]
    host := { s.host with
      blocks := [(1, 2), (2, 1)]
      qps := [(70, { state := .active, typ := 6 }), (71, { state := .active, typ := 6 })]
      flows := [(70, flow70 n), (71, { state := .opening, port := 3, opener := true, nonceL := 9 })] } }

/-- A packet of that flow. -/
def pkt (psn : Nat) : WalePkt := { dstQpn := 70, srcQpn := 90, psn := psn, msgId := 4, payload := [1, 2] }

theorem witness_WalePackets : let s := wire 0;
    (flowFor s 3 (pkt 5) = some (flow70 0) ∧ s.flow 70 = flow70 0 ∧ (pkt 5).isSealed = false ∧ (pkt 5).psn = (flow70 0).rcvNext ∧
      (flow70 0).rcvNext < (pkt 6).psn ∧ (pkt 4).psn < (flow70 0).rcvNext ∧ 0 < (flow70 0).rcvUnack) ∧
    (let w := { pkt 5 with isSealed := true, keyId := 77 }; flowFor s 3 w = some (flow70 0) ∧ keyLive s w.keyId = true) ∧
    (let w := { pkt 5 with isSealed := true, keyId := 78 }; flowFor s 3 w = some (flow70 0) ∧ keyLive s w.keyId = false) ∧
    (flowFor s 3 (pkt 11) = some (flow70 0) ∧ (flow70 0).sndUna < 11 ∧ 11 < (flow70 0).sndNext ∧ (flow70 0).resends < 7 ∧
      pausedOn s (flow70 0).port (walePrio s (flow70 0)) = false) ∧
    (flowFor (wire 7) 3 (pkt 10) = some (flow70 7) ∧ (flow70 7).sndUna < (flow70 7).sndNext ∧ 7 ≤ (flow70 7).resends) := by decide +kernel

/-- A packet of that flow, sealed under the key of context 1, with the tag that is due, or one that is off by `n`. -/
def sealed (n : Nat) : WalePkt :=
  let w := { pkt 5 with isSealed := true, keyId := 77 };
  { w with tag := sealTag (flow70 0).sealKey true w + n }

theorem witness_WalePackets_sealed : flowFor (wire 0) 3 (sealed 0) = some (flow70 0) ∧ keyLive (wire 0) (sealed 0).keyId = true ∧
    sealFails (wire 0) (flow70 0) (sealed 0) = false := by
  refine ⟨by decide +kernel, by decide +kernel, ?_⟩
  have h : keyLive (wire 0) (sealed 0).keyId = true := by decide +kernel
  unfold sealFails
  rw [h]
  exact bne_self_eq_false (sealed 0).tag

theorem witness_SealedPacketDrops_tag : (sealed 1).isSealed = true ∧ flowFor (wire 0) 3 (sealed 1) = some (flow70 0) ∧
    (sealed 1).tag ≠ sealTag (flow70 0).sealKey (!(flow70 0).opener) (sealed 1) :=
  ⟨rfl, by decide +kernel, Nat.succ_ne_self (sealTag (flow70 0).sealKey true (sealed 0))⟩

/-- An OPEN under a key of context 1, under none, and under one that is not live. -/
def opens (key : Nat) : WalePkt := { srcQpn := 33, cls := 1, keyId := key, nonce := 5 }

theorem witness_WaleOpenClose : let s := wire 0;
    ((∀ x ∈ s.host.flows, s.flow x.1 = x.2 ∧ ¬ (x.2.opener = false ∧ x.2.state = .isOpen ∧ x.2.port = 3 ∧ x.2.peerQpn = 33 ∧ x.2.nonceR = 5)) ∧
      hasPort s 3 = true ∧ canSend s 3 0 = true) ∧
    (keyLive s (opens 77).keyId = true ∧ freeQp s (flowCtx s (opens 77).keyId) = some 64) ∧
    freeQp dev (flowCtx dev (opens 0).keyId) = none ∧
    ((opens 78).keyId ≠ 0 ∧ keyLive s (opens 78).keyId = false) ∧
    ((s.flow 71).state = .opening ∧ (s.flow 71).port = 3) ∧
    flowFor s 3 (pkt 5) = some (flow70 0) := by decide +kernel

/-- A frame of 64 bytes. -/
def eth (len prio : Nat) (k : EthKind) (ok : Bool) : EthFrame := { len := len, prio := prio, kind := k, fecOk := ok }

theorem witness_PortLinksAndFrames : let s := wire 0;
    (bit (s.port 3).linkUp 0 = true ∧ (hasPort dev 11 = true ∧ ({ dev with ports := [(11, port3)] }.port 11).enable = true ∧ 0 < subPorts dev 11)) ∧
    (hasCxl s 3 = true ∧ look 0 s.cxl 3 = 0) ∧
    (9216 < (eth 9217 0 .pfc true).len ∧ (eth 9216 0 .pfc false).fecOk = false) ∧
    (let e := eth 9216 5 (.secured true) true; e.len ≤ 9216 ∧ e.fecOk = true ∧ bit (s.port 3).macsecUp 0 = true ∧
      bit (s.port 3).pfcEn (e.prio % 8) = true ∧ bit (s.port 3).pfcEn (7 % 8) = false) ∧
    (s.port 3).xoffSent.contains 5 = true ∧
    (((s.port 3).caks.any fun c => c.1 == 0) = true ∧
      bit ({ s with ports := [(3, { port3 with macsecUp := 0 })] }.port 3).macsecUp 0 = false) ∧
    (canSend s 3 0 = true ∧ (s.port 3).ipv6 ≠ 0 ∧ (s.port 3).v4valid = true ∧ (s.port 3).ipv6 ≠ 7) := by decide +kernel

/-- Queue pair 80 of context 1, reliable, on port 3: one SEND outstanding, no receive buffer, PSN 9 expected. -/
def roce : State :=
  let s := wire 0;
  { s with host := { s.host with qps := (80, { state := .active, ctx := 1, typ := 4, port := 3, epsn := 9, psn := 2
                                               descs := [{ idx := 0, raw := BitVec.ofNat 512 0x10, started := true }] }) :: s.host.qps } }

theorem witness_RoceQueuePairs : let s := roce;
    isRoce (s.qp 80) = true ∧ roceLive s 80 = true ∧ (s.qp 80).port = 3 ∧ (s.qp 80).typ = 4 ∧ (s.qp 80).epsn = 9 ∧ nextRecv (s.qp 80) = none ∧
    keyGives s (s.qp 80).ctx 0 0 1 (some Rt.remoteWrite) = false ∧ canSend s 3 (s.qp 80).sub = true ∧
    (0 < (10 + 2 ^ 24 - (s.qp 80).epsn) % 2 ^ 24 ∧ (10 + 2 ^ 24 - (s.qp 80).epsn) % 2 ^ 24 < 2 ^ 23) ∧ outstanding (s.qp 80) ≠ [] := by
  decide +kernel

/-! ### The host interface -/

/-- A descriptor: DTYPE and the bytes from 16 on. -/
def desc (t rest : Nat) : BitVec 512 := BitVec.ofNat 512 (t + rest)

/-- Queue pair 70 of context 1 with one descriptor to fetch; port 3, key 0 over bytes 0 to 99; stake set 2 is registered. -/
def onQueue (typ : Nat) : State :=
  let s := wire 0;
  { s with
    bud := { s.bud with isOpen := true, cap := ⟨2048, 2048, 2048⟩ }
    crs := { s.crs with plans := [((1, 0x30), planC)] }
    stakes := [(2, { reg := true })]
    host := { s.host with
      fns := [(0, { bme := true })]
      mrs := [(0, { set := true, ctx := 1, len := 100, rights := 7 })]
      qps := [(70, { state := .active, ctx := 1, typ := typ, fetched := 3, sqTail := 4, rqTail := 1, port := 3 })] } }

/-- The descriptor as it is fetched there. -/
def fetchedAs (d : BitVec 512) : DescS := { idx := 3, raw := d, gen := 1 }

/-- A COPY of 4 bytes from the host to page 0, and one that names no length. -/
def dCopy (n : Nat) : BitVec 512 := desc 1 (at' 128 1 + at' 192 0x9000 + at' 320 n)

/-- A SERVE without a handle on stake set 2 that opens session 5 or goes on with it. -/
def dServe (opens : Nat) : BitVec 512 := desc 2 (at' 144 2 + at' 152 (1 + 2 * opens) + at' 160 5 + at' 192 0x30 + at' 320 1 + at' 352 4)

/-- A SEND, or another operation of the reliable transport, of no bytes under key `k`. -/
def dSend (t k : Nat) : BitVec 512 := desc t (at' 192 k)

/-- A descriptor may be fetched there and is the only one. -/
abbrev Fetchable (s : State) (d : BitVec 512) : Prop :=
  fetches s 70 = true ∧ (s.qp 70).state = .active ∧ ctxGoing s (s.qp 70).ctx = false ∧ (s.ctx (s.qp 70).ctx).state = .active ∧
  (s.ctx (s.qp 70).ctx).reset = none ∧ s.flt.halted = false ∧ (s.ctx (s.qp 70).ctx).requireIde = false ∧ dflags d = 0 ∧ (s.qp 70).descs = []

/-- The state after the fetch of `d`. -/
def fetchedOn (s : State) (d : BitVec 512) : State :=
  (s.modQp 70 fun q => { q with fetched := idxAdd q.fetched 1, descs := q.descs ++ [fetchedAs d] }).charge (s.qp 70).cls { link := 64 }

theorem witness_DescriptorFetch_refused_and_copies : let s := onQueue 0;
    (Fetchable s (desc 0 0) ∧ isNop (desc 0 0) = true ∧ headOk (desc 0 0) = true ∧ dAt (desc 0 0) 16 48 = 0 ∧
      dAt (desc 0 (at' 504 1)) 16 48 ≠ 0 ∧ isNop (desc 0 (at' 504 1)) = true) ∧
    (Fetchable s (desc 3 0) ∧ assignedType (dtype (desc 3 0)) = false ∧ isNop (desc 3 0) = false) ∧
    (Fetchable s (dCopy 4) ∧ dtype (dCopy 4) = 1 ∧ copyOk (dCopy 4) (s.qp 70) = true ∧ copyOk (dCopy 0) (s.qp 70) = false) := by
  decide +kernel

/-- The sequence of a SERVE that is fetched there. -/
def seqFetched (s : State) (d : BitVec 512) : Seq := seqOf (fetchedOn s d) 70 (fetchedAs d)

theorem witness_DescriptorFetch_serve : let s := onQueue 3;
    (Fetchable s (dServe 1) ∧ dtype (dServe 1) = 2 ∧ serveOk s (dServe 1) (s.qp 70) = true ∧ sessionBad s (seqFetched s (dServe 1)) = false ∧
      serveBad (fetchedOn s (dServe 1)) (seqFetched s (dServe 1)) = none) ∧
    (serveOk s (dServe 0) (s.qp 70) = true ∧ sessionBad s (seqFetched s (dServe 0)) = true) := by decide +kernel

/-- The data of a send-side descriptor is read there and its bytes are admitted. -/
def sendStarts (s : State) (t : Nat) : Bool :=
  match (if t = 0x14 then (.ok [], fetchedOn s (dSend t 0)) else (fetchedOn s (dSend t 0)).readDva 1 0 0 0) with
  | (.ok bs, r) => (r.ask (2, 70, 3) (s.qp 70).cls (sideCost r 1 0 bs.length)).1
  | _ => false

theorem witness_DescriptorFetch_sends : let s := onQueue 4;
    ∀ t ∈ [0x10, 0x11, 0x12, 0x13, 0x14],
      (Fetchable s (dSend t 0) ∧ sendOk 70 (dSend t 0) (s.qp 70) = true ∧ (s.qp 70).typ = 4 ∧
        keyGives s (s.qp 70).ctx (rKey (dSend t 0)) (rAddr (dSend t 0)) (rLen (dSend t 0)) (localRight (dSend t 0)) = true ∧
        canSend s (s.qp 70).port (s.qp 70).sub = true ∧ pausedOn s (s.qp 70).port (s.port (s.qp 70).port).tcRoce = false ∧
        sendStarts s t = true) ∧
      sendOk 70 (desc t (at' 504 1)) (s.qp 70) = false ∧
      keyGives s (s.qp 70).ctx (rKey (dSend t 1)) (rAddr (dSend t 1)) (rLen (dSend t 1)) (localRight (dSend t 1)) = false ∧
      canSend { s with ports := [] } (s.qp 70).port (s.qp 70).sub = false := by decide +kernel

theorem witness_DescriptorFetch_recv : let s := onQueue 4
    let q := s.qp 70
    let d := desc 0x18 (at' 224 (2 ^ 31));
    dtype d = 0x18 ∧ isRoce q = true ∧ q.rqHead ≠ q.rqTail ∧ fetching s 70 = true ∧ headOk d = true ∧ rLen d ≤ 2 ^ 31 ∧ dAt d 32 32 = 0 := by
  decide +kernel

/-- Queue pair 70 with one copy under way, `done` bytes of 4 moved, under key generation `g`. -/
def copying (g : Nat) (held : Option Rec) : State :=
  let s := onQueue 0;
  { s with
    rnd := { s.rnd with num := 30 }
    host := { s.host with qps := [(70, { state := .active, ctx := 1, fetched := 4, sqTail := 5, descs := [{ fetchedAs (dCopy 4) with gen := g, held := held }] })] } }

/-- The same with a completion queue that has been full for 8 rounds. -/
def cqFullNow : State :=
  let s := copying 1 none;
  { s with host := { s.host with qps := [(70, { state := .active, ctx := 1, cqTail := 64, fullSince := some 22 })] } }

/-- Aperture 2 over page 0 of context 1, 16 MiB long, open to every requester. -/
def apertures : State :=
  let s := onQueue 0;
  { s with host := { s.host with apers := [(2, { bound := true, ctx := 1, len := 4096, cls := 0 })] } }

/-- A request at an offset of that aperture. -/
def aperAt (o n : Nat) (write : Bool) : AperReq := { rid := 4, off := 2 * 16777216 + o, write := write, data := List.replicate n 7, len := n }

theorem witness_CopiesAndHostWindow :
    (let s := copying 1 none;
      (activeCopy s 70 3 = some (fetchedAs (dCopy 4)) ∧ burstFits (s.qp 70) .failed = true ∧ hostOk s (qpFn s 70) = true ∧
        (fetchedAs (dCopy 4)).gen = (s.tkey (s.qp 70).ctx).gen ∧ cqFull (s.qp 70) = false ∧ (s.qp 70).held = [] ∧
        (s.qp 70).descs = [fetchedAs (dCopy 4)] ∧ s.host.flrCut.contains (s.qp 70).ctx = false ∧
        ({ s with host := { s.host with flrCut := [1] } }).host.flrCut.contains (s.qp 70).ctx = true) ∧
      (let s1 := s.modDesc 70 3 fun y => { y with started := true };
        burstFits (s.qp 70) (.data [1, 2, 3, 4]) = true ∧ copyTo (dCopy 4) = 0 ∧ burstLen (dCopy 4) 0 = 4 ∧
        (match (s1.writeDva 1 (copyDst (dCopy 4)) [1, 2, 3, 4]).1 with | .ok _ => true | .error _ => false) = true ∧
        (s1.ask (1, 70, 3) (s.qp 70).cls (burstCost s1 (s.qp 70) (dCopy 4) 0 4)).1 = true ∧ copyLen (dCopy 4) ≤ 0 + 4 ∧
        bit (dflags (dCopy 4)) 0 = false ∧ bit (dflags (dCopy 4)) 2 = false) ∧
      (s.host.linkUp = true ∧ (s.qp 70).state = .active ∧ (s.qp 70).fetched ≠ (s.qp 70).sqTail ∧ (s.qp 70).typ = 0)) ∧
    (let s := copying 9 none;
      (activeCopy s 70 3).isSome = true ∧ 9 ≠ (s.tkey (s.qp 70).ctx).gen ∧ ctxGoing s (s.qp 70).ctx = false) ∧
    (let s := copying 1 (some { status := 0 });
      (∃ x ∈ (s.qp 70).descs, s.desc 70 3 = some x ∧ x.held = some { status := 0 } ∧ (s.qp 70).descs = [x] ∧ bit (dflags x.raw) 2 = false) ∧
      cqFull (s.qp 70) = false ∧ (s.qp 70).held = []) ∧
    (let q := cqFullNow.qp 70;
      q.fullSince = some 22 ∧ cqFull q = true ∧ q.stalled = false ∧ 22 + 8 ≤ cqFullNow.rnd.num) ∧
    (let s := apertures;
      barLive s 0 = true ∧ (aperAt 0 8 true).off / aperSize s = 2 ∧ aperRefused s (aper s 2) 4089 8 (aperAt 4089 8 true) = true ∧
      aperRefused s (aper s 2) 4088 8 (aperAt 4088 8 true) = false ∧
      (match (s.writeDva 1 4088 (aperAt 4088 8 true).data).1 with | .ok _ => true | .error _ => false) = true ∧
      (match (s.readDva 1 0 4088 8).1 with | .ok _ => true | .error _ => false) = true) := by decide +kernel

/-- Function 2 of four has lost one queue pair, has a ring 0 with room, and a ring 15 whose moderation time runs with a message owed. -/
def functions : State := { dev with
  ctxs := [(0, { state := .active }), (1, { state := .active, func := 2 })]
  host := { dev.host with
    numVf := 4
    ats := [4096, 8192]
    fns := [(2, { bme := true, lostQps := some 1, rings := [(0, { set := true }), (15, { set := true, vector := 3, modRun := true, owed := true })] })]
    qps := [(70, { state := .active, ctx := 1 })] } }

theorem witness_HostLink : let s := functions;
    s.host.linkUp = true ∧ 2 ≤ s.host.numVf ∧ s.rst.perstLow = false ∧ (s.qp 70).state = .active ∧ (s.ctx (s.qp 70).ctx).func = 2 ∧
    ((s.fnOf 2).lostQps = some 1 ∧ (s.fnOf 2).store = [] ∧ (s.ring 2 0).set = true ∧ ringRoom (s.ring 2 0) = true ∧ inD3 s = false) ∧
    ((s.ring 2 15).modRun = true ∧ (s.ring 2 15).owed = true ∧ hostOk s 2 = true) := by decide +kernel

/-! ### Courses and training -/

/-- Course 7 has finished; its row is a sequence of `n` tokens at most, from descriptor 2 of queue pair 64. -/
def finishedCourse (n : Nat) : State :=
  let s := withMem dev;
  { s with
    crs := { running := [{ running1 with plan := planC, finished := true, rows := [{ seq1 with maxtok := n }] }], waiting := [] }
    host := { s.host with
      blocks := [(1, 2)], fns := [(0, { bme := true })]
      qps := [(64, { state := .active, ctx := 1, typ := 3, fetched := 3, sqTail := 3, descs := [{ idx := 2, raw := dServe 1 }] })] } }

theorem witness_CourseCompletion :
    (∀ n ∈ [1, 4], let s := finishedCourse n
      ∃ c ∈ s.crs.running, ∃ r ∈ c.rows, s.course 7 = some c ∧ c.finished = true ∧ c.rows = [r] ∧ c.violated = false ∧ r.gone = false ∧
        (∀ lc ∈ planCells c.plan, (s.stream lc .f).stws = [] ∧ (s.stream lc .f).puts = [] ∧ (s.stream lc .b).stws = [] ∧ (s.stream lc .b).puts = []) ∧
        (r.produced + min c.plan.tokens (r.maxtok - r.produced) < r.maxtok ↔ n = 4)) ∧
    (let s := finishedCourse 1;
      (∃ d ∈ (s.qp 64).descs, s.desc 64 2 = some d ∧ (s.qp 64).descs = [d] ∧ bit (dflags d.raw) 0 = false ∧ bit (dflags d.raw) 2 = false) ∧
      seq1.hostout = 0 ∧ ctxGoing s 1 = false ∧
      cqFull (s.qp 64) = false ∧ (s.qp 64).held = []) := by decide +kernel

/-- Job 12 of weaver 3: 32 elements in one bucket, two members of which this device is `memb`, eight rails; its bucket is `x`. -/
def job12 (memb : Nat) (x : Bucket) : Job where
  active := true
  desc := { handle := 3, jobId := 12, m := 2, member := memb, npart := 1, steps := 4, deadline := 2, nledger := 2 }
  plan := { tensors := [(32, 0)], areas := [{}], seals := [(0, 0)] }
  ctx := 1
  nrail := 8
  probing := [3]
  probeRnd := 19
  firstRnd := some 2
  buckets := [(0, x)]

/-- The device trains that job in round 20; weaver 3 learns on its own, and a probe waits on port 4. -/
def training (memb : Nat) (x : Bucket) : State :=
  let s := withMem dev;
  { s with
    rnd := { s.rnd with num := 20 }
    bud := { s.bud with isOpen := true, cap := ⟨2048, 2048, 2048⟩, share := [(5, ⟨0, 0, 1000⟩)] }
    weav := { s.weav with dir := [(3, { state := .resident, ctx := 1, keySlot := 1, trainable := true, frames := [50, 51], pkgPages := 1 })] }
    train := { s.train with jobs := [(12, job12 memb x)], probe := some (1, 4, 19) } }

/-- A RESULT of rail 3 for the owner's piece of two elements, and frames of another group. -/
def frame (grp : Nat) : TwineFrame := { group := grp, keyId := 77, rail := 3, mask := 3, payload := [5, 6] }

/-- A bucket that waits for its results, sent in round 16. -/
def waiting : Bucket := { state := .waiting, sentRnd := 16 }

theorem witness_TwineFrames : let s := training 0 waiting
    let j := s.job 12
    let x := j.bucket (j.own 0);
    hasTrain s = true ∧ ({ wellFormed := false } : TwineFrame).wellFormed = false ∧
    (keyLive s 78 = false ∧ keyLive s (frame 192).keyId = true ∧ groupJob s (frame 192).group = some 12 ∧ resultFits j 3 (frame 192) = true ∧
      7 < j.nrail ∧ railSettled j 0 x 7 = false) ∧
    (current j (frame 192) = true ∧ (frame 192).rail = 3 ∧ x.bounced.contains 3 = false ∧ 3 < j.nrail ∧ railSettled j 0 x 3 = false ∧
      x.lost.contains 3 = false ∧ j.probing.contains 3 = true ∧ j.probeRnd + 1 ≤ s.rnd.num) ∧
    (groupJob s (frame 5).group = none ∧ s.train.probe = some (1, 4, 19)) ∧
    (x.state = .waiting ∧ x.sentRnd + 4 ≤ s.rnd.num ∧ j.byTwine x 3 = true ∧ twinePiece j 0 x 3 = none) := by decide +kernel

/-- The ring path carries rail 2 of the bucket. -/
def onRing : Bucket := { waiting with ringRails := [2] }

/-- A report of owner 1. -/
def report1 : OwnerRpt :=
  { part := 0, bucket := 0, owner := 1, ovf := false, exp := 3, nfcnt := 0, lost := [], bounce := [], check := .notChecked, badRails := [], mstat := 0 }

theorem witness_BucketExchange :
    (let s := training 0 { state := .isSealed, toSend := true }
      let j := s.job 12
      let x := j.bucket (j.own 0);
      j.active = true ∧ 0 < j.nbucket ∧ ctxGoing s j.ctx = false ∧ sendTurn j 0 = true ∧ (∀ r < j.nrail, pausedOn s r (s.port r).tcTwine = false) ∧
      (s.ask (5, 12, 0) Act.reduce { link := sendCost j 0 x }).1 = true ∧ railSettled j 0 x 0 = false ∧ 2 ≤ j.desc.m) ∧
    (let s := training 0 {}
      let j := s.job 12;
      j.active = true ∧ j.firstRnd = some 2 ∧ j.desc.replay = false ∧ (j.bucket (j.own 0)).state = .isOpen ∧ 2 + j.desc.deadline ≤ s.rnd.num) ∧
    (let s := training 0 onRing
      let j := s.job 12;
      (s.tkey (s.weaver j.desc.handle).keySlot).state = .live ∧ (j.bucket (j.own 0)).state = .waiting ∧ (j.bucket (j.own 0)).attempt = 0 ∧
      1 < j.desc.m ∧ 2 < j.nrail ∧ j.byRing 0 (j.bucket (j.own 0)) 2 = true ∧ j.pieceLen 0 1 2 = 2 ∧ 1 ≠ j.desc.member) ∧
    (let j := (training 0 waiting).job 12;
      j.isLead = true ∧ report1.part < j.desc.npart ∧ report1.owner < j.desc.m ∧
      (j.bucket (bktKey report1.part 0)).reports.length + 1 < j.desc.m) ∧
    (let s := training 0 waiting
      let j := s.job 12
      let x := j.bucket (j.own 0);
      x.state = .waiting ∧ 1 < j.desc.m ∧ 1 ≠ j.desc.member ∧ x.shards.contains 1 = false ∧ 2 * j.shardLen 0 1 = 32 ∧
      copyBusy s j.desc.handle = false ∧ x.shards.length + 1 < j.desc.m) := by decide +kernel

/-- The send of bucket 0: what it reads, and what is not admitted of it once it has asked. -/
def sendAsked (s : State) : State :=
  let j := s.job 12
  let m : Move := { what := .bucket 12 0, cls := Act.reduce, bytes := 0 };
  if (j.bucket 0).asked then s else
    ((s.modBucket 12 0 fun x => { x with state := .sending, asked := true }).pushMove { m with link := false, bytes := 128 }).pushMove
      { m with hbm := false, bytes := sendCost j 0 (j.bucket 0) }

/-- The bytes of a read that was granted. -/
def bytesRead : Except AccErr (List (List Byte)) → Option Nat
  | .ok bs => some (bs.map List.length).sum
  | .error _ => none

theorem witness_BucketExchange_send :
    (∀ a ∈ [false, true], let s := training 0 { state := .isSealed, toSend := true, asked := a }
      let j := s.job 12;
      ctxGoing s j.ctx = false ∧ sendTurn j 0 = true ∧ j.own 0 = 0 ∧ bytesRead (s.readAll j.ctx (gradArea j 0)).1 = some 128 ∧
      (moveLeft (sendAsked s) (.bucket 12 0) = 0 ↔ a = true)) ∧
    (let s := training 0 onRing
      let j := s.job 12
      let p := j.piece 0 1 2;
      bytesRead (s.readAll j.ctx [((j.area 0).grad + 4 * p.1, 4 * (p.2 - p.1))]).1 = some 8) := by decide +kernel

/-- A course runs on an older version of weaver 3: a shard for its next copy waits. -/
theorem witness_BucketExchange_shard_waits : copyBusy { training 0 waiting with crs := { running := [{ running1 with
    segs := [{ handle := 3, ctx := 1, wver := 9, row0 := 0, nrows := 1, forms := 1, baseOnly := false, rankL := 0, rankQ := 0 }] }] } } 3 = true := by
  decide +kernel

/-- All buckets of the step are closed; with `p`, its publication is announced for round 21 and the tick of that round is asserted. -/
def publishing (memb : Nat) (p : Bool) : State :=
  let s := training memb {};
  { s with
    rnd := { s.rnd with tick := if p then some {} else none }
    train := { s.train with jobs := [(12, { job12 memb { state := .closed } with pubRnd := if p then some 21 else none })] } }

/-- Weaver 3 learns from records of version `v` and batches of two. -/
def learningFrom (v : Nat) : State :=
  let s := training 0 {};
  { s with
    crs := { s.crs with plans := [((1, 0x30), { tensors := [(32, 0)], areas := [{}], seals := [(0, 0)] })] }
    weav := { s.weav with dir := [(3, { state := .resident, ctx := 1, keySlot := 1, trainable := true, frames := [50, 51], pkgPages := 1, version := 4 })] }
    train := { s.train with learn := [(3, { enabled := true, batch := 2, ctx := 1, desc := { handle := 3, jobId := 40, plan := 0x30, maxLag := 1 }
                                            queue := [⟨3, 0, 1, 0, 1⟩, ⟨v, 0, 1, 0, 1⟩] })] } }

/-- An entry of the job's ledger. -/
def entry0 : LedgerEntry :=
  { nbucket := 1, jobId := 12, step := 3, wverIn := 0, wverOut := 1, gen := 0, nmemb := 2, npart := 1, nrail := 8, outcome := 0, saved := false
    precCrc := 0, sample0 := 0, pubRnd := 0, buckets := [] }

theorem witness_TrainingSteps :
    (∀ m ∈ [0, 1], let s := publishing m false
      let j := s.job 12;
      j.active = true ∧ j.pubRnd = none ∧ allClosed j = true ∧ (j.isLead = true ↔ m = 0) ∧ s.rnd.num + 2 ≤ 22) ∧
    (let s := publishing 0 true
      let j := s.job 12;
      j.active = true ∧ j.pubRnd = some 21 ∧ s.rnd.tick.isSome = true ∧ 21 ≤ boundaryRnd s ∧ (s.weaver j.desc.handle).version < 0xFFFFFFFF ∧
      j.learning = false ∧ j.desc.replay = false ∧ j.published + 1 < j.desc.steps ∧ j.stopAfter = false) ∧
    (let s := training 1 waiting
      let j := s.job 12;
      entry0.jobId = j.desc.jobId ∧ entry0.nbucket = j.nbucket ∧ entry0.npart = j.desc.npart ∧ ctxActive s j.ctx = true ∧ j.desc.replay = false ∧
      j.active = true ∧ j.firstRnd = some 2 ∧ j.isLead = false ∧ max j.leadHeard (2 + j.desc.deadline) + 16 ≤ s.rnd.num) ∧
    (∀ v ∈ [2, 3], let s := learningFrom v
      let l := look {} s.train.learn 3
      let fresh := l.queue.filter fun r => decide ((s.weaver 3).version ≤ r.wver + l.desc.maxLag)
      let n := { jobOf s l.ctx { l.desc with steps := 1, m := 1, npart := 1, member := 0, part := 0 } none with learning := true };
      hasTrain s = true ∧ l.enabled = true ∧ (s.weaver 3).trainable = true ∧ (s.weaver 3).training = false ∧ l.batch ≤ l.queue.length ∧
      s.flt.halted = false ∧ ctxActive s l.ctx = true ∧ (fresh.length < l.batch ↔ v = 2) ∧ bucketsOk n = true ∧ newPages s n = [] ∧
      hasRoom s l.ctx 0 = true) := by decide +kernel

/-! ### Resets, power and the Lid -/

/-- A running device whose DEVICE_RESET is due at the boundary of round 6 that has begun, with one queue pair that is ACTIVE. -/
def resetDue : State := { dev with
  rnd := { dev.rnd with num := 5, tick := some {} }
  rst := { dev.rst with devReset := some 6 }
  host := { dev.host with qps := [(70, { state := .active, ctx := 0 })] } }

/-- Held in reset: PERST# low, and an image marked that stands in the bank it booted from. -/
def inReset (cls : Nat) : State := { dev with
  rst := { dev.rst with running := false, cls := cls, perstLow := true }
  fw := { dev.fw with marked := true } }

theorem witness_DeviceResets :
    (resetDue.rst.running = true ∧ resetDue.pwr.state ≠ .d3cold ∧ resetDue.rst.perstLow = false ∧ deviceResetDue resetDue = true ∧
      (resetDue.qp 70).state = .active ∧ (resetDue.qp 70).typ ≠ 6) ∧
    (let s := inReset 2;
      s.rst.perstLow = true ∧ s.rst.running = false ∧ s.pwr.state ≠ .d3cold ∧ s.fw.marked = true ∧ s.fw.bank = s.fw.boot ∧
      hasCd s 3 = true) := by decide +kernel

/-- A device in a power state; rail 6 has crossed its limit in D3hot. -/
def inPower (p : PState) : State := { dev with pwr := { dev.pwr with state := p, crossed := if p = .d3hot then [6] else [] } }

/-- A block of a selector waits for its idle, or is held in its reset. -/
def blockBusyIn (sel unit : Nat) (reset : Bool) : State := { dev with
  rst := { dev.rst with busy := [{ sel := sel, unit := unit, reset := reset }] }
  cells := [(5, { bank := [(3, 9)] }), (245, { bank := [(3, 9)] })] }

theorem witness_RailsAndBlocks :
    ((inPower .d3hot).pwr.state = .d3hot ∧ hasCd (inPower .d3hot) 3 = true) ∧
    (dev.rst.running = true ∧ dev.pwr.state ≠ .d3hot ∧ dev.pwr.state ≠ .d3cold ∧ hasCd dev 3 = true) ∧
    strongestRail ((inPower .d3hot).pwr.crossed ++ [3, 7].filter fun r =>
      decide (r < 9) && !(inPower .d3hot).pwr.crossed.contains r && (r != 3 || hasCd (inPower .d3hot) 3)) = some 6 ∧
    (inPower .d3cold).pwr.state = .d3cold ∧
    (∀ x ∈ [(1, 0), (6, 3), (7, 0)], (blockBusyIn x.1 x.2 false).rst.busy = [{ sel := x.1, unit := x.2, reset := false }]) ∧
    hasCxl (blockBusyIn 6 3 false) 3 = true ∧
    (blockBusyIn 1 0 true).rst.busy = [{ sel := 1, unit := 0, reset := true }] := by decide +kernel

/-- A block that entered its reset in this round keeps it to the next boundary. -/
theorem witness_RailsAndBlocks_release :
    let s := { blockBusyIn 1 0 true with rst := { dev.rst with busy := [{ sel := 1, unit := 0, reset := true, since := some dev.rnd.num }] } };
    s.rst.busy = [{ sel := 1, unit := 0, reset := true, since := some s.rnd.num }] := by decide +kernel

/-- Die 3 clocks at 1,600 MHz, its rail at 800 mV below its limit and its clock stretched, a raise to 1,625 MHz asked of its regulator. -/
def clocked (p : PState) (target : Option PState) (before : PState) : State := { dev with
  rnd := { dev.rnd with lidTimed := p == .shelf }
  pwr := { dev.pwr with
    state := p, target := target, before := before
    clk := [(3, { stretch := true, raiseTo := some 1625 })]
    sup := [(3, { below := true })] } }

theorem witness_PowerAndClocks :
    (let s := dev;
      hasCd s 3 = true ∧ 100 * 752 ≤ 94 * railSet s 3 ∧ s.pwr.state ≠ .d3cold ∧ railBelow s 3 = false ∧ (poweredDies s).contains 3 = true ∧
      s.rnd.lidTimed = false ∧ s.host.linkUp = true ∧ hasCxl s 3 = true ∧ s.pwr.cap < 2101 ∧ (s.clk 3).freq ≤ s.pwr.fmax ∧
      s.pwr.fmin + 25 ≤ (s.clk 3).freq ∧ tdp s < 2101 ∧ s.pwr.thermTrip = false ∧ inD3 s = false ∧ s.rst.running = true) ∧
    (let s := clocked .active none .active;
      railBelow s 3 = true ∧ (s.clk 3).stretch = true ∧ 100 * 752 ≤ 94 * railSet s 3 ∧ (s.clk 3).raiseTo = some 1625) ∧
    (clocked .shelf none .active).rnd.lidTimed = true ∧
    ((clocked .active (some .shelf) .active).crs.running = [] ∧ (clocked .active (some .shelf) .active).cells = [] ∧
      (clocked .active (some .shelf) .active).pwr.since ≠ some (clocked .active (some .shelf) .active).rnd.num ∧ (clocked .active (some .shelf) .active).pwr.target = some .shelf ∧
      (clocked .active (some .d3hot) .active).pwr.target = some .d3hot ∧
      (clocked .active (some .d3hot) .active).pwr.before = (clocked .active (some .d3hot) .active).pwr.state) ∧
    (let s := clocked .shelf (some .active) .shelf;
      s.pwr.state = .shelf ∧ s.pwr.target = some .active ∧ s.pwr.exitUp = false) ∧
    (let s := clocked .d3hot none .active;
      s.pwr.state = .d3hot ∧ s.pwr.target = none ∧ s.pwr.before ≠ .shelf) := by decide +kernel

/-- Session 4 of authority 500 with mutual authentication, which is the operator and the authority of context 1; context 2 is CREATED. -/
def sessions (auth : Bool) : State :=
  let s := withMem dev;
  { s with
    ctxs := [(0, { state := .active }), (1, { state := .active, auth := some 500, dbg := true }), (2, { state := .created })]
    lid := { s.lid with anchor := some 500, sess := [(4, { isOpen := true, who := 500, mutAuth := auth })] } }

/-- A release for a context, under the measurement that the device shows. -/
def releaseFor (c : Nat) : KeyRel :=
  { kind := 0, target := c, keyId := 9, dbg := false, prof := false, hostWindow := false, requireIde := false, denyRoce := false, rsvdZero := true
    measDigest := measDigest (sessions true), key := 3, ckn := 0 }

theorem witness_LidRequests :
    (((sessions false).sess 4).isOpen = true ∧ ((sessions false).sess 4).mutAuth = false ∧ ((sessions false).sess 5).isOpen = false) ∧
    (let s := sessions true
      let who := (s.sess 4).who;
      (s.sess 4).isOpen = true ∧ (s.sess 4).mutAuth = true ∧ (s.sess 4).doe = true ∧ s.lid.ready = true ∧
      (releaseChecks s who (releaseFor 3)).find? Prod.fst = some (true, St.targetInvalid) ∧
      ctxActive s 1 = true ∧ isAuthority s 1 who = true ∧ isOperator s who = true ∧
      (s.lid.tenant.all fun p => p.1 == 0 || p.2.state != .live || (s.ctx p.1).dbg) = true) ∧
    ((∀ i, i < 5 → (i = 4 ↔ ((sessions true).sess i).isOpen = true)) ∧ ((sessions true).sess 0).isOpen = false ∧
      ((sessions true).sess 8).isOpen = false) := by decide +kernel

theorem witness_LidRequests_release : (releaseChecks (sessions true) 500 (releaseFor 2)).find? Prod.fst = none ∧ (releaseFor 2).kind = 0 := by
  have h : (measDigest (sessions true) != measDigest (sessions true)) = false := bne_self_eq_false _
  refine ⟨?_, rfl⟩
  unfold releaseChecks releaseFor
  simp only [h]
  decide +kernel

/-- Context 1 in a state of its removal, its key in another; with `n` one copy of its queue pair is under way. -/
def removing (c : CState) (k : KState) (n : Bool) : State := { dev with
  rnd := { dev.rnd with num := 12 }
  ctxs := [(0, { state := .active }), (1, { state := c, since := 10, why := some (.remove told), scrubbed := 3, unmapped := true })]
  lid := { dev.lid with tenant := [(0, { state := .live, gen := 1 }), (1, { state := k, gen := 2, keyId := 77, key := 5 })] }
  host := { dev.host with
    qps := if n then [(70, { state := .revoked, ctx := 1, descs := [{ fetchedAs (dCopy 4) with started := true }] })] else [] } }

theorem witness_ContextRemoval :
    (∀ n ∈ [false, true], let s := removing .revoking .revoked n
      (s.ctx 1).state = .revoking ∧ (s.tkey 1).state = .revoked ∧ (s.ctx 1).since + 2 ≤ boundaryRnd s ∧ (inflightOf s 1 = 0 ↔ n = false)) ∧
    (let s := removing .revoking .zeroising false;
      (s.ctx 1).state = .revoking ∧ (s.tkey 1).state = .zeroising) ∧
    (let s := removing .scrubbing .empty false;
      (s.ctx 1).state = .scrubbing ∧ (s.ctx 1).unmapped = true ∧ chargedT1 s 1 = 0 ∧ (∀ p ∈ s.weav.dir, p.2.ctx ≠ 1) ∧
      (s.ctx 1).why = some (.remove told)) := by decide +kernel

/-! ### Mailbox commands -/

/-- A payload of fields: byte offset, bytes, value. -/
def pay (fs : List (Nat × Nat × Nat)) : Nat := pack (fs.map fun f => (8 * f.1, 8 * f.2.1, f.2.2))

/-- Contexts 0 and 1 with memory, keys and blocks; queue pair 9 is a WORK queue pair of context `c`. -/
def mbBase (c : Nat) : State :=
  let s := withMem dev;
  { s with
    ctxs := [(0, { state := .active }), (1, { state := .active, hostWindow := true, dbg := true }), (2, { state := .created })]
    host := { dev.host with
      numVf := 4
      blocks := [(0, c + 1), (1, 1), (2, 2)]
      qps := [(9, { state := .active, typ := 3, ctx := c, logSq := 6, logCq := 6 })] } }

/-- The request of a command on channel 1, with queue pair 9 as its WORK queue pair where it takes one, and its acceptance. -/
def asks (s : State) (l : Layout) (c flags : Nat) (fs : List (Nat × Nat × Nat)) : State :=
  if l.long then onMb s c l.op l.len flags (pay fs) else onMb0 s c l.op l.len flags (pay fs)

/-- The same on the base state of the caller's context. -/
def asksOf (l : Layout) (c : Nat) (fs : List (Nat × Nat × Nat)) : State := asks (mbBase c) l c 0 fs

theorem witness_MailboxRefusals :
    (let s := asksOf ctxRemoveLayout 1 [(0, 2, 1)];
      chanState (s.chan 1) = Ch.busy ∧ (s.chan 1).discard = false ∧ bytesAt (reqNat (s.chan 1)) 0 2 = ctxRemoveLayout.op ∧
      turnOf s 1 ctxRemoveLayout.op = true ∧
      (checkReq s ctxRemoveLayout true ownsAny (s.chan 1) (reqOn s 1) (reqNat (s.chan 1))).map Reply.status = some St.adminOnly) ∧
    (let s := asksOf qpQueryLayout 1 [(0, 4, 64)];
      chanState (s.chan 1) = Ch.busy ∧ turnOf s 1 qpQueryLayout.op = true ∧
      (checkReq s qpQueryLayout true (ownsQp s) (s.chan 1) (reqOn s 1) (reqNat (s.chan 1))).map Reply.status = some St.notOwner) := by
  refine ⟨?_, ?_⟩ <;> decide +kernel

/-- FW_ACTIVATE of an image of no bytes; the signature and the version are the device's own values, which the statement takes as hypotheses. -/
def activating (whole : Bool) : State :=
  let s := asksOf fwActivateLayout 0 [(0, 4, 0), (4, 4, crc32c [])];
  { s with fw := { s.fw with covered := if whole then [(0, 16)] else [] } }

/-- CHANNEL_ASSIGN of channel 63. -/
def assigning (out : Bool) : State :=
  let s := asksOf channelAssignLayout 0 [(0, 1, 63), (2, 2, 1), (4, 1, b2n out)];
  s.modChan 63 fun c => { c with assigned := out }

theorem witness_DeviceAndContextCommands_device :
    Admitted devCapsLayout true ownsAny 1 (asksOf devCapsLayout 1 []) ∧
    Admitted deviceResetLayout true ownsAny 1 (asksOf deviceResetLayout 0 []) ∧
    (let s := asksOf portAddrSetLayout 0 [(0, 1, 11), (1, 1, 1), (2, 16, 0xFD00), (18, 4, 5), (22, 6, 6)];
      Admitted portAddrSetLayout true ownsAny 1 s ∧ hasPort s ((reqOn s 1).at 0 1) = true) ∧
    (let s := assigning false;
      Admitted channelAssignLayout true ownsAny 1 s ∧ (reqOn s 1).at 0 1 = 63 ∧ (reqOn s 1).bit 4 0 = false ∧
      (s.chan 63).assigned = false ∧ ctxUsable s ((reqOn s 1).at 2 2) = true) ∧
    (let s := assigning true;
      Admitted channelAssignLayout true ownsAny 1 s ∧ (reqOn s 1).bit 4 0 = true ∧ chanState (s.chan 63) = Ch.idle) ∧
    (let s := asksOf fwStageLayout 0 [(0, 8, 64), (8, 4, 0), (12, 4, 16)];
      Admitted fwStageLayout true ownsAny 1 s ∧ (reqOn s 1).at 12 4 ≤ 4194304 ∧
      (s.readOwn 0 64 16).1.toOption = some (List.replicate 16 0)) ∧
    (let s := activating true;
      Admitted fwActivateLayout true ownsAny 1 s ∧ (s.fw.covered.any fun x => x.1 == 0 && decide ((reqOn s 1).at 0 4 ≤ x.2)) = true ∧
      (crc32c ((rdBytes s.fw.image 0 ((reqOn s 1).at 0 4)).map BitVec.toNat) == (reqOn s 1).at 4 4) = true) ∧
    (let s := activating false;
      Admitted fwActivateLayout true ownsAny 1 s ∧ (s.fw.covered.any fun x => x.1 == 0 && decide ((reqOn s 1).at 0 4 ≤ x.2)) = false) ∧
    Admitted fwQueryLayout true ownsAny 1 (asksOf fwQueryLayout 1 []) := by
  refine ⟨?_, ?_, ?_, ?_, ?_, ?_, ?_, ?_, ?_⟩ <;> decide +kernel

theorem witness_DeviceAndContextCommands_context :
    (let s := asksOf ctxCreateLayout 0 [(0, 2, 4095), (2, 2, 4), (4, 8, 9), (12, 1, 31)];
      Admitted ctxCreateLayout true ownsAny 1 s ∧ (s.ctx 4095).state = .free ∧ (reqOn s 1).at 0 2 = 4095 ∧
      (reqOn s 1).at 2 2 ≤ s.host.numVf ∧ (reqOn s 1).at 12 1 = 31) ∧
    (let s := asksOf ctxCreateLayout 0 [(0, 2, 2)];
      Admitted ctxCreateLayout true ownsAny 1 s ∧ (reqOn s 1).at 0 2 = 2 ∧ (s.ctx 2).state ≠ .free) ∧
    (let s := asksOf ctxSetLayout 1 [(0, 2, 1), (2, 1, 1), (4, 1, 3)];
      Admitted ctxSetLayout true (ownsCtx 0) 1 s ∧ ctxUsable s ((reqOn s 1).at 0 2) = true ∧ (reqOn s 1).bit 4 0 = true ∧ (reqOn s 1).at 2 1 = 1) ∧
    (let s := asksOf ctxQueryLayout 0 [(0, 2, 4095)];
      Admitted ctxQueryLayout true (ownsCtx 0) 1 s ∧ (reqOn s 1).at 0 2 ≤ 4095) ∧
    (let s := asksOf ctxRemoveLayout 0 [(0, 2, 2)];
      Admitted ctxRemoveLayout true ownsAny 1 s ∧ (reqOn s 1).at 0 2 = 2 ∧ ctxUsable s 2 = true) ∧
    (let s := asksOf ctxResetLayout 1 [(0, 2, 1)];
      Admitted ctxResetLayout true (ownsCtx 0) 1 s ∧ (reqOn s 1).at 0 2 = 1 ∧ (s.ctx 1).state = .active) := by
  refine ⟨?_, ?_, ?_, ?_, ?_, ?_⟩ <;> decide +kernel

/-- Queue pair 127 of context 0 in a state, with a descriptor under way and 3 undelivered records. -/
def onQp (l : Layout) (st : QState) (fs : List (Nat × Nat × Nat)) : State :=
  let s := asksOf l 0 ((0, 4, 127) :: fs);
  { s with host := { s.host with
    qps := s.host.qps ++ [(127, { state := st, typ := 1, logSq := 6, logCq := 6, fetched := 9, sqTail := 9, cqTail := 8, und := [5, 6, 7]
                                  descs := [fetchedAs (dCopy 4)] })] } }

/-- Aperture 63 and memory region 0x123 of context 1, in the hands of a command. -/
def onObjects (l : Layout) (bound : Bool) (fs : List (Nat × Nat × Nat)) : State :=
  let s := asksOf l 1 fs;
  { s with host := { s.host with
    apers := if bound then [(63, { bound := true, ctx := 1 })] else []
    mrs := [(0x123, { set := true, tag := 9, ctx := 1, len := 4096 })] } }

theorem witness_QueueCommands :
    (let s := asksOf qpBlockAllocLayout 1 [(0, 2, 1), (2, 2, 16)];
      Admitted qpBlockAllocLayout true (ownsCtx 0) 1 s ∧ notActive s ((reqOn s 1).at 0 2) = none ∧ (reqOn s 1).at 2 2 = 16 ∧
      ∀ i, i < 16 → blockOwner s (4080 + i) = none) ∧
    (let s := asksOf qpBlockFreeLayout 1 [(0, 2, 2), (2, 2, 1)];
      Admitted qpBlockFreeLayout true (blocksOwned s) 1 s ∧ (reqOn s 1).at 2 2 = 1 ∧ (reqOn s 1).at 0 2 = 2 ∧
      (blockOwner s 2).isSome = true ∧ (∀ p ∈ s.host.qps, ¬ 2 ≤ p.1 / 64)) ∧
    (let s := asksOf createLayout 0 [(0, 4, 127), (4, 1, 5), (6, 1, 6), (7, 1, 16), (8, 1, 6), (9, 1, 15), (11, 1, 0x3B), (16, 8, 4096), (32, 8, 8192)];
      Admitted createLayout true (ownsQp s) 1 s ∧ (∀ y ∈ createBad (reqOn s 1) s, y.1 = false) ∧ behind s (.cmd 1) = false ∧
        (pickFrame s 15 0).isSome = true) := by
  refine ⟨?_, ?_, ?_⟩ <;> decide +kernel

theorem witness_QueueCommands_pairs :
    (let s := onQp qpDestroyLayout .active [];
      Admitted qpDestroyLayout true (ownsQp s) 1 s ∧ (s.qp 127).state ≠ .free ∧ (s.qp 127).typ ≠ 6 ∧ (s.qp 127).destroy = none ∧
      (s.qp 127).descs ≠ [] ∧ (s.qp 127).redeliver = none) ∧
    (let s := onQp qpQueryLayout .error []; Admitted qpQueryLayout true (ownsQp s) 1 s ∧ (s.qp 127).state ≠ .free) ∧
    (let s := onQp qpRearmLayout .hostLost [];
      Admitted qpRearmLayout true (ownsQp s) 1 s ∧ (s.qp 127).state = .hostLost ∧ (reqOn s 1).bit 4 0 = false) ∧
    (let s := onQp qpUndeliveredLayout .hostLost []; Admitted qpUndeliveredLayout true (ownsQp s) 1 s ∧ (s.qp 127).state ≠ .free) ∧
    (let s := onQp qpRedeliverLayout .active [(4, 4, 5)];
      Admitted qpRedeliverLayout true (ownsQp s) 1 s ∧ (s.qp 127).state = .active ∧ (∀ p ∈ s.host.qps, p.2.redeliver = none) ∧
      idxSub (s.qp 127).cqTail ((reqOn s 1).at 4 4) = 3 ∧ idxSub (s.qp 127).cqTail (firstUnd (s.qp 127)) = 3 ∧ (s.qp 127).redeliver = none) ∧
    (∀ o ∈ [false, true],
      let a := onQp qpRedeliverLayout .active [(4, 4, 5)]
      let s := { a with
        bud := { a.bud with isOpen := o, cap := ⟨2048, 2048, 2048⟩, share := [(0, ⟨1000, 1000, 1000⟩)] }
        host := { a.host with
          fns := [(0, { bme := true })]
          qps := [(9, a.qp 9), (127, { a.qp 127 with shadow := [(5, { progress := 4 }), (6, {}), (7, {})], copies := [(5, dCopy 4)] })] } }
      let m : Move := { what := .redeliver 127, cls := (s.qp 127).cls, bytes := repeatBytes s 127 5 };
      Admitted qpRedeliverLayout true (ownsQp s) 1 s ∧ hostOk s (qpFn s 127) = true ∧
      (moveLeft (s.pushMove m) (.redeliver 127) = 0 ↔ o = true)) := by
  refine ⟨?_, ?_, ?_, ?_, ?_, ?_⟩ <;> decide +kernel

theorem witness_QueueCommands_objects :
    (let s := asksOf eventRingSetLayout 1 [(0, 1, 15), (1, 1, 16), (2, 2, 255), (4, 2, 1023), (8, 8, 4096)];
      let q := reqOn s 1;
      Admitted eventRingSetLayout true ownsAny 1 s ∧ q.at 0 1 < 16 ∧ logOk (q.at 1 1) = true ∧
      q.at 2 2 < (if (s.ctx q.ctx).func = 0 then 256 else 14) ∧ q.at 4 2 ≤ 1023 ∧ q.at 8 8 % 4096 = 0) ∧
    (let s := onObjects apertureBindLayout false [(0, 1, 63), (1, 1, 7), (2, 2, 1), (8, 8, frameBytes), (16, 8, 4096)];
      let q := reqOn s 1;
      Admitted apertureBindLayout true (ownsCtx 2) 1 s ∧ notActive s (q.at 2 2) = none ∧ q.ctx = 1 ∧ (s.ctx (q.at 2 2)).hostWindow = true ∧
      q.at 0 1 < 64 ∧ q.at 1 1 < 8 ∧ q.at 8 8 % frameBytes = 0 ∧ q.at 8 8 + q.at 16 8 ≤ 2 ^ 46 ∧ q.at 16 8 ≠ 0 ∧ q.at 16 8 ≤ aperSize s ∧
      (aper s (q.at 0 1)).bound = false) ∧
    (let s := onObjects apertureUnbindLayout true [(0, 1, 63)];
      Admitted apertureUnbindLayout true (ownsAper s) 1 s ∧ (aper s ((reqOn s 1).at 0 1)).bound = true) ∧
    (let s := asksOf mrRegisterLayout 1 [(0, 8, 4096), (8, 4, 8192), (12, 1, 7)];
      let q := reqOn s 1;
      Admitted mrRegisterLayout true ownsAny 1 s ∧ notActive s q.ctx = none ∧ q.at 0 8 % 4096 = 0 ∧ q.at 0 8 + q.at 8 4 ≤ 2 ^ 46 ∧ q.at 8 4 ≠ 0 ∧
      q.at 8 4 % 4096 = 0 ∧ q.at 8 4 ≤ 2 ^ 31 ∧ (look {} s.host.mrs 0).set = false) ∧
    (let s := onObjects mrDeregisterLayout false [(0, 4, 0x12309)];
      let m := look {} s.host.mrs ((reqOn s 1).at 0 4 / 256);
      Admitted mrDeregisterLayout true (ownsMr s) 1 s ∧ m.set = true ∧ m.tag = (reqOn s 1).at 0 4 % 256 ∧ m.dereg = none ∧
      (∀ p ∈ s.host.qps, p.2.redeliver = none) ∧ (∀ a ∈ s.host.apers, a.2.unbind = none) ∧ (∀ x ∈ s.host.mrs, x.2.dereg = none)) ∧
    (let s := asksOf ahSetLayout 1 [(0, 2, 65535), (2, 1, 11), (3, 1, 3), (4, 16, 0xFD00), (20, 6, 6)];
      Admitted ahSetLayout true ownsAny 1 s ∧ hasPort s ((reqOn s 1).at 2 1) = true ∧ (reqOn s 1).at 3 1 < 4) := by
  refine ⟨?_, ?_, ?_, ?_, ?_, ?_⟩ <;> decide +kernel

/-- A package part with no sections, of stake set 2, generation 5: one page, with the CRC of its head at its end. -/
def pkgHead : Nat := leNat
  [0x50, 0x57, 0x60, 9, 1, 0, 0, 0, 3, 0, 0, 0, 2, 0, 5, 0, 7, 0, 0, 0, 0, 0, 1, 0, 0, 0, 1, 0, 1, 0, 0, 0, 0, 0, 0, 0, 1, 0, 0x20]
def pkgPage : List Byte := pageOf pkgHead 0xb47809df

/-- An image part of one layer, of stake set 3, generation 6. -/
def imgHead : Nat := leNat
  [0x53, 0x53, 0x60, 9, 1, 0, 3, 0, 6, 0, 0, 1, 1, 0, 0, 0, 0, 0, 0, 0, 0, 0, 0, 0, 1, 0, 0, 0, 1]
def imgPage : List Byte := pageOf imgHead 0x6ba638b

def pkgAddr : Nat := 2 ^ 56
def imgAddr : Nat := 2 ^ 56 + 4096

/-- Stake set 2 with generation 5 CURRENT, whose layer 1 is MoE, and stake set 3 with nothing; weaver 6 of context 1 is resident, with side
slots of layer 1 of which it owns slot 15. -/
def wvBase (c : Nat) : State :=
  let s := mbBase c;
  { s with
    host := { s.host with linkUp := true }
    lid := { s.lid with stake := [(15, { state := .live, gen := 1, keyId := 88, key := 5 })] }
    mem := { s.mem with regions := [(1, { reg := true, len := frameBytes })], acct := (s.mem.acct ++ [(commonsAcct, { q1 := 100, q2 := 100 })]) }
    stakes := [(2, { reg := true, autoEvict := true
                     gens := [(0, { gen := 5, state := .current, structSig := 7, layers := [⟨1, 0, 0, 0, 0⟩, ⟨2, 0, 0, 0, 0⟩] })] }),
               (3, { reg := true, keySlot := 15 }),
               (4, { reg := true, gens := [(2, { gen := 9, state := .ready })] })]
    weav := { s.weav with
      dir := [(6, { ctx := 1, state := .resident, sid := 2, genBound := 5, xcount := 2, frames := [4], trainable := true })]
      side := [(31, { owned := true, owner := 6, j := 0, share := true })] } }

/-- A command on those weavers and stake sets. -/
def wv (l : Layout) (c flags : Nat) (fs : List (Nat × Nat × Nat)) : State := asks (wvBase c) l c flags fs

/-- The seals of that package part, under context 1's key, and of that image part, under the key of stake set 3. -/
def pkgSeal : Seal := { key := 5, base := pkgAddr }
def imgSeal : Seal := { key := 5, base := imgAddr }

/-- WEAVER_REGISTER of that part by context `c`. -/
def registers (h c : Nat) : State :=
  asks ((wvBase c).slowWrite pkgSeal pkgAddr pkgPage) weaverRegisterLayout c 0
    [(0, 2, h), (2, 2, 1), (4, 2, 1), (6, 1, if c = 0 then 1 else 2), (8, 8, pkgAddr)]

/-- Weaver 6 has a sharer on its slot. -/
def sharing (s : State) : State :=
  { s with weav := { s.weav with side := [(31, { owned := true, owner := 6, share := true, sharers := [(7, 0)] })] } }

theorem pkg_read (h c k n : Nat) (hk : k + n ≤ 4096) : slowRead pkgSeal (registers h c) (pkgAddr + k) n = (pkgPage.drop k).take n :=
  slowRead_page (wvBase c) (registers h c) pkgSeal _ _ k n rfl (by decide) (by decide) hk

/-- The part that `registers` names, as its head gives it. -/
def pkg : Pkg := { base := pkgAddr, key := 5, head := pkgHead }

theorem pkg_at (h c : Nat) : pkgAt (registers h c) 5 pkgAddr = pkg := by
  show Pkg.mk pkgAddr 5 (leNat (slowRead pkgSeal (registers h c) (pkgAddr + 0) 64)) = pkg
  rw [pkg_read h c 0 64 (by decide), show leNat ((pkgPage.drop 0).take 64) = pkgHead by decide +kernel]
  rfl

/-- It passes the checks, CRC and all, with what else the command needs of it. -/
theorem witness_WeaverCommands_package : let s := registers 65535 1;
    pkgAt s (s.tkey 1).key pkgAddr = pkg ∧ pkgBad s pkg = none ∧ sdaBad s pkgAddr (4096 * pkg.pages) true = none ∧
    ∀ g ∈ (s.stake (pkg.at 12 1)).gens, g.2.state ≠ .ready := by
  intro s
  refine ⟨pkg_at 65535 1, ?_, by decide +kernel, by decide +kernel⟩
  have h : headCheck s pkg pkg.headPages = (crc32c (((pkgPage.drop 0).take 4092).map BitVec.toNat), leNat ((pkgPage.drop 4092).take 4)) := by
    show (crc32c ((slowRead pkgSeal s (pkgAddr + 0) 4092).map BitVec.toNat), leNat (slowRead pkgSeal s (pkgAddr + 4092) 4)) = _
    rw [pkg_read 65535 1 0 4092 (by decide), pkg_read 65535 1 4092 4 (by decide)]
  have hc : crc32c (((pkgPage.drop 0).take 4092).map BitVec.toNat) = leNat ((pkgPage.drop 4092).take 4) := by decide +kernel
  unfold pkgBad
  dsimp only
  rw [if_neg (by decide +kernel), h, if_neg fun k => k hc]
  decide +kernel

theorem witness_WeaverCommands :
    (let s := registers 65535 1
      let q := reqOn s 1;
      Admitted weaverRegisterLayout true (ownsCtx 2) 1 s ∧ q.bit 6 0 = false ∧ (q.bit 6 1 = true ∧ hasTrain s = true) ∧ notActive s (q.at 2 2) = none ∧
      q.at 2 2 = 1 ∧ q.at 4 2 = q.at 2 2 ∧ (s.weaver (q.at 0 2)).state = .free ∧ sdaBad s (q.at 8 8) 4096 true = none ∧
      slowUp s (q.at 8 8) = true ∧ q.at 8 8 = pkgAddr) ∧
    (let s := registers 6 0
      let q := reqOn s 1;
      Admitted weaverRegisterLayout true (ownsCtx 2) 1 s ∧ (q.bit 6 0 = true ∧ q.ctx = 0) ∧ q.bit 6 1 = false ∧ notActive s (q.at 2 2) = none ∧
      q.at 4 2 = q.at 2 2 ∧ (s.weaver (q.at 0 2)).state ≠ .free) ∧
    (let s := wv weaverPrefetchLayout 1 0 [(0, 2, 6)];
      (s.weaver 6).state ≠ .free ∧ (s.weaver 6).state ≠ .removing ∧ Admitted weaverPrefetchLayout true (ownsWeaver s) 1 s ∧ (reqOn s 1).at 0 2 = 6) ∧
    (let s := sharing (wv weaverRemoveLayout 1 0 [(0, 2, 6)]);
      Admitted weaverRemoveLayout true (ownsWeaver s) 1 s ∧ bit (reqOn s 1).flags 0 = false ∧ hasSharers s 6 = true) ∧
    (let s := wv weaverRemoveLayout 1 1 [(0, 2, 6)];
      Admitted weaverRemoveLayout true (ownsWeaver s) 1 s ∧ bit (reqOn s 1).flags 0 = true ∧ (s.weaver 6).frames ≠ []) ∧
    (let s := wv sideClaimLayout 1 0 [(0, 2, 6), (2, 2, 1), (4, 1, 1), (5, 1, 0xFF)]
      let q := reqOn s 1;
      Admitted sideClaimLayout true (ownsWeaver s) 1 s ∧ q.at 5 1 = 0xFF ∧ (moeLayers s (s.weaver 6)).contains (q.at 2 2) = true ∧
      q.at 4 1 < (s.weaver 6).xcount ∧ (claimSlot s q).toOption = some (0, false)) ∧
    (let s := wv sideClaimLayout 1 0 [(0, 2, 6), (2, 2, 1), (4, 1, 1), (5, 1, 15), (6, 1, 2)]
      let q := reqOn s 1;
      Admitted sideClaimLayout true (ownsWeaver s) 1 s ∧ q.at 5 1 < 16 ∧ (claimSlot s q).toOption = some (15, true)) ∧
    (let s := wv sideClaimLayout 1 0 [(0, 2, 6), (2, 2, 1), (4, 1, 1), (5, 1, 15)]
      let q := reqOn s 1;
      Admitted sideClaimLayout true (ownsWeaver s) 1 s ∧ (match claimSlot s q with | .error k => k | .ok _ => 0) = St.slotBusy) ∧
    (let s := wv sideReleaseLayout 1 0 [(0, 2, 6), (2, 2, 1), (4, 1, 0)]
      let x := s.side (sideKey 1 15);
      Admitted sideReleaseLayout true (ownsWeaver s) 1 s ∧ (∀ i, i < 15 → (s.side (sideKey 1 i)).owned = false) ∧
      x.owned = true ∧ x.releasing = none ∧ x.owner = 6 ∧ x.j = (reqOn s 1).at 4 1 ∧ x.sharers = [] ∧ x.joining = []) ∧
    (let s := wv weaverPinLayout 1 0 [(0, 2, 6), (2, 1, 1)]; Admitted weaverPinLayout true (ownsWeaver s) 1 s ∧ (s.weaver 6).state ≠ .free) ∧
    (let s := wv weaverQueryLayout 1 0 [(0, 2, 65535)]; Admitted weaverQueryLayout true (ownsWeaver s) 1 s) ∧
    Admitted sideQueryLayout true ownsAny 1 (wv sideQueryLayout 1 0 [(0, 2, 1)]) := by
  refine ⟨?_, ?_, ?_, ?_, ?_, ?_, ?_, ?_, ?_, ?_, ?_, ?_⟩ <;> decide +kernel

/-- STAKE_BUILD of that part. -/
def builds : State :=
  asks ((wvBase 0).slowWrite imgSeal imgAddr imgPage) (buildLayout (wvBase 0) 1) 0 0
    [(0, 1, 3), (1, 2, 6), (3, 1, 1), (16, 8, imgAddr)]

theorem img_read (k n : Nat) (hk : k + n ≤ 4096) : slowRead imgSeal builds (imgAddr + k) n = (imgPage.drop k).take n :=
  slowRead_page (wvBase 0) builds imgSeal _ _ k n rfl (by decide) (by decide) hk

/-- The part that `builds` names, as its head gives it. -/
def img : Pkg := { base := imgAddr, key := 5, head := imgHead }

/-- It passes the checks, with what else the command needs of it. -/
theorem witness_StakeCommands_image : imageAt builds 3 imgAddr = img ∧ imageOk builds 3 6 img = true ∧ probeN builds img = 0 ∧
    shortfall (builds.pressCommons (buildFrames builds 3 0 img.imgPages)) commonsAcct (buildFrames builds 3 0 img.imgPages) = 0 := by
  refine ⟨?_, ?_, by decide +kernel, by decide +kernel⟩
  · show Pkg.mk imgAddr 5 (leNat (slowRead imgSeal builds (imgAddr + 0) 64)) = img
    rw [img_read 0 64 (by decide), show leNat ((imgPage.drop 0).take 64) = imgHead by decide +kernel]
    rfl
  have h : headCheck builds img img.imgHead = (crc32c (((imgPage.drop 0).take 4092).map BitVec.toNat), leNat ((imgPage.drop 4092).take 4)) := by
    show (crc32c ((slowRead imgSeal builds (imgAddr + 0) 4092).map BitVec.toNat), leNat (slowRead imgSeal builds (imgAddr + 4092) 4)) = _
    rw [img_read 0 4092 (by decide), img_read 4092 4 (by decide)]
  have hc : crc32c (((imgPage.drop 0).take 4092).map BitVec.toNat) = leNat ((imgPage.drop 4092).take 4) := by decide +kernel
  unfold imageOk
  dsimp only
  rw [h, hc, beq_self_eq_true]
  decide +kernel

theorem witness_StakeCommands :
    (let s := wv stakeRegisterLayout 0 0 [(0, 1, 255), (1, 1, 15)];
      Admitted stakeRegisterLayout true ownsAny 1 s ∧ (reqOn s 1).at 1 1 ≤ 15 ∧ (s.stake ((reqOn s 1).at 0 1)).reg = false ∧
      (countTab s.stakes fun _ k => k.reg) < 16) ∧
    (let s := builds
      let q := reqOn s 1
      let k := s.stake (q.at 0 1);
      k.reg = true ∧ Admitted (buildLayout s 1) true ownsAny 1 s ∧ (q.at 3 1 = 1 ∧ q.at 4 1 = 0) ∧ q.at 5 1 ≤ 8 ∧
      q.pay / 256 ^ (40 + 16 * q.at 5 1) = 0 ∧ (∀ g ∈ k.gens, g.2.state ≠ .building ∧ g.2.state ≠ .ready) ∧ freeSlot k = some 0 ∧
      sdaBad s (q.at 16 8) 4096 false = none ∧ q.at 24 8 = 0 ∧ q.at 32 8 = 0 ∧ (s.skey k.keySlot).state = .live ∧
      (q.at 0 1 = 3 ∧ q.at 1 2 = 6 ∧ q.at 16 8 = imgAddr)) ∧
    (let s := wv stakeCommitLayout 0 0 [(0, 1, 4), (1, 2, 9), (3, 2, 8), (8, 8, 4)]
      let q := reqOn s 1;
      Admitted stakeCommitLayout true ownsAny 1 s ∧ (s.stake 4).reg = true ∧ (s.stake 4).commit = none ∧ s.rnd.num + 4 ≤ q.at 8 8 ∧
      genOf s 4 (q.at 1 2) = some { gen := 9, state := .ready }) ∧
    (let s := wv stakeCommitLayout 0 0 [(0, 1, 4), (1, 2, 8)];
      Admitted stakeCommitLayout true ownsAny 1 s ∧ genOf s 4 ((reqOn s 1).at 1 2) = none) ∧
    (let s := wv stakeAbortLayout 0 0 [(0, 1, 4), (1, 2, 9)];
      Admitted stakeAbortLayout true ownsAny 1 s ∧ (s.stake 4).build = none ∧ slotOf s 4 ((reqOn s 1).at 1 2) = some 2 ∧
      ((s.stake 4).gen 2).state = .ready) ∧
    Admitted stakeQueryLayout true ownsAny 1 (wv stakeQueryLayout 0 0 [(0, 1, 2)]) ∧
    (let s := wv stakeEvictLayout 0 0 [(0, 1, 4)]; Admitted stakeEvictLayout true ownsAny 1 s ∧ (s.stake 4).autoEvict = false) ∧
    (let s := wv stakeEvictLayout 0 0 [(0, 1, 2)];
      Admitted stakeEvictLayout true ownsAny 1 s ∧ (s.stake 2).autoEvict = true ∧ stakeIdle s 2 = true) ∧
    (let s := wv stakeCarryQueryLayout 0 0 [(0, 1, 2), (4, 2, 338)];
      Admitted stakeCarryQueryLayout true ownsAny 1 s ∧ (reqOn s 1).at 4 2 ≤ 338) := by
  refine ⟨?_, ?_, ?_, ?_, ?_, ?_, ?_, ?_, ?_⟩ <;> decide +kernel

/-- Two host regions; page 7 of context 1 lies in region 1, page 8 in frame 5, which is on its way out, page 9 in frame 6, which has a dirty
granule; the leaf table of the context is there. -/
def memBase (c : Nat) : State :=
  let s := mbBase c;
  { s with mem := { s.mem with
    pte := s.mem.pte ++ [(2 ^ 25 + 7, { valid := true, tier := .t2, sda := 2 ^ 56 }), (2 ^ 25 + 8, { valid := true, tier := .t1, frame := 5 }),
      (2 ^ 25 + 9, { valid := true, tier := .t1, frame := 6, epins := [1] })]
    frames := [(0, { state := .resident, ctx := 1, key := 1, page := 0, mapped := true }), (1, { state := .dirty, ctx := 1, page := 1, mapped := true }),
      (2, { state := .resident, ctx := 1, page := 2, mapped := true }), (5, { state := .evicting, ctx := 1, page := 8, mapped := true }),
      (6, { state := .dirty, ctx := 1, page := 9, mapped := true, backed := true, back := 2 ^ 56 + frameBytes, dirty := 1 }),
      (8, { state := .resident, mapped := true })]
    leaves := [(512, 200)]
    regions := [(1, { reg := true, len := 4096 * frameBytes }), (2, { reg := true, len := frameBytes })] } }

/-- A memory command on that state. -/
def onMem (l : Layout) (c : Nat) (fs : List (Nat × Nat × Nat)) : State := asks (memBase c) l c 0 fs

/-- A range of pages of context 1. -/
def pages (first n : Nat) : List (Nat × Nat × Nat) := [(0, 2, 1), (4, 4, n), (8, 8, first * frameBytes)]

/-- Pages from the end of the memory that context 1 has mapped on, TIER in byte 3. -/
def maps (tier n : Nat) : State :=
  onMem mapLayout 1 (pages 16 n ++ [(3, 1, 2 * tier), (16, 8, if tier = 1 then 2 ^ 56 + 8 * frameBytes else 0)])

theorem witness_MemoryCommands_regions :
    (let s := onMem memRegionRegisterLayout 0 [(0, 1, 64), (16, 8, 2 ^ 48)]
      let q := reqOn s 1;
      Admitted memRegionRegisterLayout true ownsAny 1 s ∧ q.at 0 1 = 64 ∧ q.at 16 8 = 2 ^ 48 ∧ (region s 64).reg = false) ∧
    (let s := onMem memRegionRemoveLayout 0 [(0, 1, 2)];
      Admitted memRegionRemoveLayout true ownsAny 1 s ∧ (reqOn s 1).at 0 1 = 2 ∧ (region s 2).reg = true ∧ spaceUsed s 2 = false ∧
      sourceIn s 2 = false) ∧
    (let s := onMem memRegionRemoveLayout 0 [(0, 1, 1)];
      Admitted memRegionRemoveLayout true ownsAny 1 s ∧ (reqOn s 1).at 0 1 = 1 ∧ (region s 1).reg = true ∧ spaceUsed s 1 = true) ∧
    (let s := onMem memSlowConfigLayout 0 [(0, 1, 4), (1, 1, 0xE4), (8, 8, 4096)]
      let map := (List.range 4).map fun i => bits ((reqOn s 1).at 1 1) (2 * i) 2;
      Admitted memSlowConfigLayout (s.variant != .c) ownsAny 1 s ∧ (reqOn s 1).at 0 1 = 4 ∧ map.eraseDups.length = 4 ∧ spaceUsed s 0 = false ∧
      ∀ p ∈ map, p ∉ s.lid.cxlIde) ∧
    (let s := onMem memQuotaSetLayout 0 [(0, 2, 1), (4, 4, 5), (8, 4, 97)]
      let q := reqOn s 1
      let a := acctOf (q.at 0 2);
      Admitted memQuotaSetLayout true ownsAny 1 s ∧ (s.ctx a).state ≠ .free ∧ quotaSum s a (q.at 4 4) willQ1 ≤ msdCount s * 24544 ∧
      quotaSum s a (q.at 8 4) willQ2 ≤ t2Pages s ∧ (countTab s.mem.frames fun f e => !frameFree e && ownerOf e == a && pinsOf s f != 0) ≤ q.at 4 4) ∧
    (let s := onMem memPolicySetLayout 0 [(0, 2, 0xFFF), (2, 1, 1), (4, 2, 9), (6, 2, 2), (8, 1, 3), (9, 1, 12)]
      let q := reqOn s 1;
      Admitted memPolicySetLayout true (fun q => q.at 0 2 == q.ctx || q.at 0 2 == 0xFFF) 1 s ∧ q.ctx = 0 ∧ acctOf (q.at 0 2) = commonsAcct ∧
      q.at 9 1 = 12) ∧
    Admitted memPoisonQueryLayout true ownsAny 1 (onMem memPoisonQueryLayout 1 []) := by
  refine ⟨?_, ?_, ?_, ?_, ?_, ?_, ?_⟩ <;> decide +kernel

theorem witness_MemoryCommands_pages :
    (let s := maps 1 2
      let q := reqOn s 1
      let m := mapReq q;
      Admitted mapLayout true (ownsCtx 0) 1 s ∧ (∀ x ∈ mapBad q m s, x.1 = false) ∧ newRoots s m.ctx m.dva m.pages = [] ∧ m.share = 0 ∧ m.tier = 1) ∧
    (let s := maps 0 1
      let q := reqOn s 1
      let m := mapReq q;
      Admitted mapLayout true (ownsCtx 0) 1 s ∧ (∀ x ∈ mapBad q m s, x.1 = false) ∧ newRoots s m.ctx m.dva m.pages = [] ∧ m.share = 0 ∧ m.tier = 0 ∧
      m.pages = 1 ∧ behind s (.cmd 1) = false ∧ pickFrame s m.stack (m.dva / frameBytes) = some 3) ∧
    (let s := onMem memUnmapLayout 1 (pages 7 3)
      let q := reqOn s 1;
      Admitted memUnmapLayout true (ownsCtx 0) 1 s ∧ q.at 4 4 = 3 ∧ q.at 8 8 = 7 * frameBytes ∧
      ∀ k ∈ rangeKeys (q.at 0 2) (q.at 8 8) (q.at 4 4), (s.pteAt k).valid = true ∧ (s.pteAt k).shared = false) ∧
    (let s := onMem memEvictLayout 1 (pages 0 3)
      let q := reqOn s 1;
      Admitted memEvictLayout true (ownsCtx 0) 1 s ∧ q.at 4 4 = 3 ∧ q.at 8 8 = 0 ∧ ∀ k ∈ rangeKeys (q.at 0 2) (q.at 8 8) (q.at 4 4),
        (s.pteAt k).valid = true ∧ (evictFrame s k).any (fun f => (s.frame f).state == .resident || (s.frame f).state == .dirty) = true) ∧
    (let s := onMem memEvictLayout 1 (pages 7 2)
      let q := reqOn s 1;
      Admitted memEvictLayout true (ownsCtx 0) 1 s ∧ q.at 4 4 = 2 ∧ q.at 8 8 = 7 * frameBytes ∧
      (∀ k ∈ rangeKeys (q.at 0 2) (q.at 8 8) (q.at 4 4), (s.pteAt k).valid = true) ∧
      evictFrame s (2 ^ 25 + 8) = some 5 ∧ (s.frame 5).state = .evicting) ∧
    (let s := onMem memPinLayout 1 [(0, 1, 1), (4, 4, 3), (8, 8, 0)]
      let q := reqOn s 1;
      Admitted memPinLayout true ownsAny 1 s ∧ q.bit 0 0 = true ∧ q.at 4 4 = 3 ∧ ∀ k ∈ rangeKeys q.ctx (q.at 8 8) (q.at 4 4), (s.pteAt k).valid = true) ∧
    (let s := onMem memPinLayout 1 [(4, 4, 1), (8, 8, 9 * frameBytes)]
      let q := reqOn s 1;
      Admitted memPinLayout true ownsAny 1 s ∧ q.bit 0 0 = false ∧ q.at 4 4 = 1 ∧ ∀ k ∈ rangeKeys q.ctx (q.at 8 8) (q.at 4 4),
        (s.pteAt k).valid = true ∧ (s.pteAt k).epins.contains q.ctx = true) ∧
    (let s := onMem memFlushLayout 1 (pages 7 3)
      let q := reqOn s 1;
      Admitted memFlushLayout true (ownsCtx 0) 1 s ∧ q.at 4 4 = 3 ∧ q.at 8 8 = 7 * frameBytes ∧
      (∀ k ∈ rangeKeys (q.at 0 2) (q.at 8 8) (q.at 4 4), (s.pteAt k).valid = true) ∧ 2 ^ 25 + 9 ∈ rangeKeys (q.at 0 2) (q.at 8 8) (q.at 4 4) ∧
      (s.pteAt (2 ^ 25 + 9)).tier = .t1 ∧ (s.frame 6).backed = true ∧ (s.frame 6).dirty ≠ 0 ∧ occupied (s.frame 6) = true) ∧
    (∀ x ∈ [(0, 254), (1, 127), (2, 0)], let s := onMem memQueryLayout 1 (pages 0 x.2 ++ [(2, 1, x.1)])
      let q := reqOn s 1;
      Admitted memQueryLayout true (fun q => q.at 0 2 == q.ctx || q.at 0 2 == 0xFFF) 1 s ∧ q.at 2 1 = x.1 ∧ q.at 0 2 = 1 ∧ q.at 4 4 = x.2) := by
  refine ⟨?_, ?_, ?_, ?_, ?_, ?_, ?_, ?_, ?_⟩ <;> decide +kernel

/-- The first `n` frames of the device hold a page of context 2. -/
def allFull (n : Nat) : State :=
  let s := maps 0 1;
  { s with mem := { s.mem with frames := (List.range n).map fun f => (f, { state := .resident, ctx := 2 }) } }

theorem fold_full (c : Nat) (e : FrameE) (he : frameFree e = false) : ∀ n : Nat,
    ((List.range n).map fun f => (f, e)).foldl (fun c p => if p.1 == c && !frameFree p.2 then c + 1 else c) c = max c n
  | 0 => by simp
  | n + 1 => by
    rw [List.range_succ, List.map_append, List.foldl_append, fold_full c e he n]
    simp only [List.map_cons, List.map_nil, List.foldl_cons, List.foldl_nil, he, Bool.not_false, Bool.and_true, beq_iff_eq]
    split <;> omega

theorem allFull_frames (n : Nat) : (allFull n).mem.frames = (List.range n).map fun f => (f, ({ state := .resident, ctx := 2 } : FrameE)) := rfl

theorem allFull_pickFrame (n hint page : Nat) (hn : 196608 ≤ n) : pickFrame (allFull n) hint page = none := by
  have h : msdCount (allFull n) = 8 := rfl
  unfold pickFrame
  simp only [h]
  rw [List.findSome?_eq_none_iff]
  intro i _
  unfold lowestFree
  rw [allFull_frames, fold_full _ _ rfl]
  exact if_neg (by have := Nat.mod_lt ((if hint = 15 then page % 8 else if hint < 8 then hint else 0) + i) (show 0 < 8 by decide); omega)

theorem allFull_charged (n : Nat) : chargedT1 (allFull n) 1 = 0 := by
  unfold chargedT1 countTab
  rw [allFull_frames, List.length_eq_zero_iff, List.filter_eq_nil_iff]
  intro x hx
  obtain ⟨i, _, rfl⟩ := List.mem_map.mp hx
  simp [ownerOf]

def mapAsked : Req := reqOn (maps 0 1) 1

theorem allFull_checks (n : Nat) : (mapBad mapAsked (mapReq mapAsked) (allFull n)).all (fun x => !x.1) = true := by
  obtain ⟨d, hd⟩ : ∃ d, chargedT1 (allFull n) = fun a => if a = 1 then 0 else d a :=
    ⟨chargedT1 (allFull n), by
      funext a
      split
      · subst a; exact allFull_charged n
      · rfl⟩
  have hm : mapReq mapAsked = { ctx := 1, kind := 0, stack := 0, tier := 0, ro := false, shared := false, movable := false, backed := false, pages := 1, dva := 16 * 2097152, sda := 0, src := 0, share := 0 } := by
    unfold mapReq
    rw [MapReq.mk.injEq]
    decide +kernel
  have hl : leafFrames (allFull n) 1 (newRoots (allFull n) 1 (16 * 2097152) 1).length = 0 := by
    have h : newRoots (maps 0 1) 1 (16 * 2097152) 1 = [] := by decide +kernel
    have e : newRoots (allFull n) 1 (16 * 2097152) 1 = newRoots (maps 0 1) 1 (16 * 2097152) 1 := rfl
    rw [e, h, leafFrames]
    simp [ceilDiv]
  rw [hm]
  unfold mapBad hasRoom
  have h4 : mapAsked.at 4 4 = 1 := by decide +kernel
  have h8 : mapAsked.at 8 8 = 16 * 2097152 := by decide +kernel
  have hx : mapAsked.ctx = 1 := by decide +kernel
  simp only [hd, hl, h4, h8, hx]
  rfl

theorem allFull_waits (n : Nat) (hn : 196608 ≤ n) :
    Admitted mapLayout true (ownsCtx 0) 1 (allFull n) ∧
    (∀ x ∈ mapBad (reqOn (allFull n) 1) (mapReq (reqOn (allFull n) 1)) (allFull n), x.1 = false) ∧ memMap (reqOn (allFull n) 1) (allFull n) = none := by
  have hq : reqOn (allFull n) 1 = mapAsked := rfl
  rw [hq]
  have hb : ∀ x ∈ mapBad mapAsked (mapReq mapAsked) (allFull n), x.1 = false := fun x hx => by
    simpa using List.all_eq_true.mp (allFull_checks n) x hx
  have ha : Admitted mapLayout true (ownsCtx 0) 1 (allFull n) := by
    have e1 : (allFull n).chan 1 = (maps 0 1).chan 1 := rfl
    have e2 : turnOf (allFull n) 1 mapLayout.op = turnOf (maps 0 1) 1 mapLayout.op := rfl
    have e3 : ∀ o c q r, checkReq (allFull n) mapLayout true o c q r = checkReq (maps 0 1) mapLayout true o c q r := fun _ _ _ _ => rfl
    unfold Admitted
    rw [e3, hq, e1, e2]
    decide +kernel
  refine ⟨ha, hb, ?_⟩
  have e : (mapBad mapAsked (mapReq mapAsked) (allFull n)).find? (fun x => x.1) = none := by
    rw [List.find?_eq_none]
    intro x hx
    rw [hb x hx]
    decide
  have hr : newRoots (allFull n) (mapReq mapAsked).ctx (mapReq mapAsked).dva (mapReq mapAsked).pages = [] := by
    show newRoots (maps 0 1) _ _ _ = []
    decide +kernel
  have hp : (mapReq mapAsked).pages = 1 := by decide +kernel
  have hs : (mapReq mapAsked).share = 0 := by decide +kernel
  have ht : (mapReq mapAsked).tier = 0 := by decide +kernel
  have h1 : List.range 1 = [0] := rfl
  unfold memMap
  dsimp only
  rw [e, hr, hp, hs, h1]
  simp [chain, State.mapPage, ht, allFull_pickFrame _ _ _ hn]

/-- A MEM_MAP that every check lets through waits for a frame to become FREE. -/
theorem witness_MemoryCommands_waits : Admitted mapLayout true (ownsCtx 0) 1 (allFull 196608) ∧
    (∀ x ∈ mapBad (reqOn (allFull 196608) 1) (mapReq (reqOn (allFull 196608) 1)) (allFull 196608), x.1 = false) ∧
    memMap (reqOn (allFull 196608) 1) (allFull 196608) = none :=
  allFull_waits _ (Nat.le_refl _)

/-- A page of another request waits for a frame first. -/
theorem witness_MemoryCommands_behind : let s := { maps 0 1 with mem := { (maps 0 1).mem with waits := [{ what := .page 5, short := true }] } };
    Admitted mapLayout true (ownsCtx 0) 1 s ∧ (∀ x ∈ mapBad (reqOn s 1) (mapReq (reqOn s 1)) s, x.1 = false) ∧ mapTakes (reqOn s 1) s = true ∧
    behind s (.cmd 1) = true := by decide +kernel


/-- A job descriptor: weaver 3, job 12, one member, one part, its plan at 0x3000, its state in host region 1. -/
def jobBytes : Nat := pay [(0, 2, 3), (4, 4, 12), (16, 4, 4), (20, 4, 1), (24, 4, 1), (28, 4, 1), (32, 8, 0x3000), (48, 4, 1), (68, 4, 2), (72, 8, 2 ^ 56), (101, 1, 1),
  (103, 1, 1), (104, 1, 1), (106, 1, 1), (107, 1, 1), (110, 1, 1)]

/-- A feedback record for weaver 3: two tokens, one of them the prompt's. -/
def feedBytes : Nat := pay [(0, 2, 3), (4, 4, 1), (16, 4, 2), (20, 4, 1)]

/-- Weaver 3 of context 1 may be trained; the descriptor stands at 0 and the record at 128 of page 0. -/
def trBase (c : Nat) : State :=
  let s := mbBase c;
  { s with
    mem := { s.mem with hbm := natTab 160 (jobBytes + 256 ^ 128 * feedBytes), regions := [(1, { reg := true, len := frameBytes })] }
    weav := { s.weav with dir := [(3, { state := .resident, ctx := 1, keySlot := 1, trainable := true, frames := [50, 51], pkgPages := 1 })] }
    crs := { s.crs with plans := [((1, 0x3000), { tensors := [(32, 0)], areas := [{}], seals := [(0, 0)] })] } }

/-- A training command on that state. -/
def onTrain (l : Layout) (c flags : Nat) (fs : List (Nat × Nat × Nat)) : State := asks (trBase c) l c flags fs

/-- The same while job 12 runs. -/
def whileJob (l : Layout) (flags : Nat) : State :=
  let s := onTrain l 1 flags [(0, 4, 12)];
  { s with train := { s.train with jobs := [(12, job12 0 waiting)] } }

/-- TWINE_PROBE with a probe that has waited for one round. -/
def probing : State :=
  let s := onTrain probeLayout 0 0 [(0, 1, 11), (2, 16, 1)];
  { s with train := { s.train with probe := some (1, 11, 0) }, rnd := { s.rnd with num := 1 } }

theorem witness_TrainingCommands :
    (let s := onTrain trainJobStartLayout 1 0 []
      let bs := leBytes 128 jobBytes
      let n := jobOf s 1 (descOf (leNat bs)) (some (reqOn s 1).note);
      hasTrain s = true ∧ Admitted trainJobStartLayout true ownsAny 1 s ∧ (reqOn s 1).ctx = 1 ∧ (s.readOwn 1 ((reqOn s 1).at 0 8) 128).1.toOption = some bs ∧
      notActive s 1 = none ∧ jobBad s 1 (leNat bs) n = none ∧ newPages s n = []) ∧
    (let s := onTrain trainJobStartLayout 1 0 [(0, 8, 512)]
      let bs := leBytes 128 0;
      Admitted trainJobStartLayout true ownsAny 1 s ∧ (s.readOwn 1 ((reqOn s 1).at 0 8) 128).1.toOption = some bs ∧
      jobBad s 1 (leNat bs) (jobOf s 1 (descOf (leNat bs)) (some (reqOn s 1).note)) = some St.weaverNotTrainable) ∧
    (∀ f ∈ [0, 1], let s := whileJob trainJobStopLayout f;
      Admitted trainJobStopLayout true (fun q => !jobActive s (q.at 0 4) || (s.job (q.at 0 4)).ctx == q.ctx) 1 s ∧
      (s.job ((reqOn s 1).at 0 4)).active = true ∧ (reqOn s 1).flags % 2 = f) ∧
    (let s := whileJob trainJobQueryLayout 0;
      Admitted trainJobQueryLayout true (fun q => !jobActive s (q.at 0 4) || (s.job (q.at 0 4)).ctx == q.ctx) 1 s ∧
      (s.job ((reqOn s 1).at 0 4)).active = true) ∧
    (let s := onTrain trainJobQueryLayout 1 0 [(0, 4, 12)];
      Admitted trainJobQueryLayout true (fun q => !jobActive s (q.at 0 4) || (s.job (q.at 0 4)).ctx == q.ctx) 1 s ∧
      (s.job ((reqOn s 1).at 0 4)).active = false) ∧
    (let s := onTrain trainFeedbackLayout 1 0 [(0, 8, 128), (8, 4, 1)]
      let bs := leBytes 32 feedBytes;
      Admitted trainFeedbackLayout true ownsAny 1 s ∧ (reqOn s 1).at 8 4 = 1 ∧ (s.readOwn 1 ((reqOn s 1).at 0 8) 32).1.toOption = some bs ∧
      (feedbackOf s 1 (leNat bs)).map Prod.fst = some 3 ∧ ∀ p ∈ s.train.learn, p.2.queue.length < 65536) ∧
    (let s := onTrain trainLearnPolicyLayout 1 0 [(0, 2, 3)];
      Admitted trainLearnPolicyLayout true ownsAny 1 s ∧ (s.weaver ((reqOn s 1).at 0 2)).state ≠ .free ∧ (s.weaver 3).ctx = 1 ∧
      (s.weaver 3).trainable = true ∧ (reqOn s 1).bit 2 0 = false) ∧
    (let s := onTrain trainLearnPolicyLayout 1 0 [(0, 2, 3), (2, 1, 1), (4, 2, 1024)]
      let bs := leBytes 128 jobBytes
      let d := descOf (leNat bs);
      Admitted trainLearnPolicyLayout true ownsAny 1 s ∧ (reqOn s 1).bit 2 0 = true ∧ (s.readOwn 1 ((reqOn s 1).at 8 8) 128).1.toOption = some bs ∧
      (reqOn s 1).at 4 2 = 1024 ∧ descOk (leNat bs) d = true ∧ d.m = 1 ∧ d.npart = 1 ∧ d.handle = (reqOn s 1).at 0 2 ∧
      bucketsOk (jobOf s 1 d none) = true ∧ stateBad s (jobOf s 1 d none) = none) ∧
    (let s := onTrain probeLayout 0 0 [(0, 1, 11), (2, 16, 1)];
      Admitted probeLayout true ownsAny 1 s ∧ s.train.probe = none ∧ hasPort s ((reqOn s 1).at 0 1) = true) ∧
    (let s := probing;
      s.train.probe = some (1, 11, 0) ∧ 0 + 1 ≤ s.rnd.num ∧ chanState (s.chan 1) = Ch.busy ∧ (s.chan 1).discard = false ∧
      bytesAt (reqNat (s.chan 1)) 0 2 = 0x0706) := by
  refine ⟨?_, ?_, ?_, ?_, ?_, ?_, ?_, ?_, ?_, ?_⟩ <;> decide +kernel

/-- A finished training job, a journal entry and a grant of context 1. -/
def sysBase (c : Nat) : State :=
  let s := mbBase c;
  { s with
    lid := { s.lid with grants := [⟨7, 1, true, false⟩], nextGrant := 2 ^ 32 - 1 }
    flt := { s.flt with
      sums := [{ kind := 2, ctx := 1, tag := 5, progress := 3, rnd := 9, gen := 1, status := 0 }]
      ring := [(4095, { seq := 4095, ctx := 1, tag := 5 })] } }

/-- A command of the security, fault or power group on that state. -/
def onSys (l : Layout) (c : Nat) (fs : List (Nat × Nat × Nat)) : State := asks (sysBase c) l c 0 fs

/-- POWER_STATE_SET of a code, with a change under way or not. -/
def powering (n : Nat) (busy : Bool) : State :=
  let s := onSys powerStateSetLayout 0 [(0, 1, n)];
  { s with pwr := { s.pwr with target := if busy then some .shelf else none } }

theorem witness_SystemCommands :
    (let s := onSys keyQueryLayout 0 [(0, 2, 4111)]; Admitted keyQueryLayout true (ownsCtx 0) 1 s ∧ (reqOn s 1).at 0 2 < 4112) ∧
    (let s := onSys debugRequestLayout 1 [(0, 2, 1), (2, 1, 1)]
      let q := reqOn s 1;
      Admitted debugRequestLayout true (ownsCtx 0) 1 s ∧ q.at 0 2 = 1 ∧ ctxActive s 1 = true ∧ q.bit 2 0 = true ∧ q.bit 2 1 = false ∧
      s.lid.grants.length < 64 ∧ (s.ctx 1).dbg = true) ∧
    (let s := onSys debugRequestLayout 0 [(2, 1, 1)]
      let q := reqOn s 1;
      Admitted debugRequestLayout true (ownsCtx 0) 1 s ∧ q.at 0 2 = 0 ∧ ctxActive s 0 = true ∧ q.bit 2 0 = true ∧ (s.ctx 0).dbg = false) ∧
    (let s := onSys debugReleaseLayout 1 [(0, 4, 7)];
      Admitted debugReleaseLayout true (ownsGrant s) 1 s ∧ ∃ g ∈ s.lid.grants, g.id = (reqOn s 1).at 0 4) ∧
    (let s := onSys faultQueryLayout 1 [(0, 8, 5), (8, 2, 1), (10, 1, 2)]
      let q := reqOn s 1;
      Admitted faultQueryLayout true (ownsCtx 8) 1 s ∧ q.at 10 1 ≤ 2 ∧ (∀ x ∈ running s, ¬ (x.kind = q.at 10 1 ∧ x.ctx = q.at 8 2 ∧ x.tag = q.at 0 8)) ∧
      (s.flt.sums.find? fun y => y.kind == q.at 10 1 && y.ctx == q.at 8 2 && y.tag == q.at 0 8).isSome = true) ∧
    (let s := onSys journalLayout 1 [(0, 2, 4095), (2, 2, 64), (8, 8, 256)]
      let q := reqOn s 1
      let bs := journalBytes s q.ctx (q.at 0 2) (q.at 2 2);
      Admitted journalLayout true ownsAny 1 s ∧ q.at 0 2 ≤ 4095 ∧ q.at 2 2 ≤ 64 ∧ bs ≠ [] ∧ (s.writeDva q.ctx (q.at 8 8) bs).1.toOption = some ()) ∧
    (let s := onSys journalLayout 1 [(0, 2, 0), (2, 2, 64)]
      let q := reqOn s 1;
      Admitted journalLayout true ownsAny 1 s ∧ journalBytes s q.ctx (q.at 0 2) (q.at 2 2) = []) ∧
    (let s := onSys powerLimitSetLayout 0 [(0, 2, 1000), (2, 2, 1000), (4, 2, 1800)]
      let q := reqOn s 1;
      Admitted powerLimitSetLayout true ownsAny 1 s ∧ 1000 ≤ q.at 0 2 ∧ q.at 0 2 ≤ tdp s ∧ clockBad (q.at 2 2) = false ∧ clockBad (q.at 4 2) = false ∧
      q.at 2 2 ≤ q.at 4 2) ∧
    (let s := powering 2 false;
      Admitted powerStateSetLayout true ownsAny 1 s ∧ s.pwr.target = none ∧ (powerChange s.pwr.state ((reqOn s 1).at 0 1)).toOption = some (some .shelf)) ∧
    (let s := powering 0 false;
      Admitted powerStateSetLayout true ownsAny 1 s ∧ s.pwr.target = none ∧ (powerChange s.pwr.state ((reqOn s 1).at 0 1)).toOption = some none) ∧
    (let s := powering 1 true; Admitted powerStateSetLayout true ownsAny 1 s ∧ s.pwr.target ≠ none) ∧
    Admitted powerQueryLayout true ownsAny 1 (onSys powerQueryLayout 1 []) := by
  refine ⟨?_, ?_, ?_, ?_, ?_, ?_, ?_, ?_, ?_, ?_, ?_, ?_⟩ <;> decide +kernel

/-! ### One step each, with the result that the manual gives -/

/-- What holds of the state after a command. -/
def after (c : Instr) (s : State) (p : State → Bool) : Bool := match exec c s with | .next t => p t | _ => false

/-- R380, R484: a DEVICE_RESET asked for in round 0 falls due at the boundary of round 2. -/
theorem test_deviceReset : after (.deviceReset 1) (asksOf deviceResetLayout 0 []) (fun t => t.rst.devReset == some 2) = true := by decide +kernel

/-- R391: a PARK_MAX of 0 is applied as 64, and FSPLIT stays where its bit is clear. -/
theorem test_ctxSet_parkMax : after (.ctxSet 1) (asksOf ctxSetLayout 1 [(0, 2, 1), (2, 1, 9), (4, 1, 2)])
    (fun t => (t.ctx 1).parkMax == 64 && (t.ctx 1).fsplit == (dev.ctx 1).fsplit) = true := by decide +kernel

/-- R376: a tenant's CTX_REMOVE is answered with ADMIN_ONLY and removes nothing. -/
theorem test_ctxRemove_admin : after (.ctxRemove 1) (asksOf ctxRemoveLayout 1 [(0, 2, 1)])
    (fun t => chanState (t.chan 1) == Ch.done && bytesAt (tabNat (t.chan 1).rsp) 2 2 == St.adminOnly && (t.ctx 1).state == .active) = true := by
  decide +kernel

/-- R415: the key slot of a removed context is REVOKED and its generation advances. -/
theorem test_ctxRemove : after (.ctxRemove 1) (asksOf ctxRemoveLayout 0 [(0, 2, 1)])
    (fun t => (t.ctx 1).state == .revoking && (t.tkey 1).state == .revoked && (t.tkey 1).gen == 2) = true := by decide +kernel

/-- R226: the decay shift of heat is taken from 4 to 12 only. -/
theorem test_memPolicySet : after (.memPolicySet 1) (onMem memPolicySetLayout 0 [(0, 2, 0), (9, 1, 13)])
    (fun t => t.mem.heatShift == dev.mem.heatShift && bytesAt (tabNat (t.chan 1).rsp) 2 2 == St.fieldInvalid) = true := by decide +kernel

/-- R205: four ways of the pool over ports 3, 2, 1, 0. -/
theorem test_memSlowConfig : after (.memSlowConfig 1) (onMem memSlowConfigLayout 0 [(0, 1, 4), (1, 1, 0x1B)])
    (fun t => t.mem.pool == some { ways := 4, map := [3, 2, 1, 0], base := [0, 0, 0, 0] }) = true := by decide +kernel

/-- R464: POWER_LIMIT_SET takes a frequency on a 25 MHz step only. -/
theorem test_powerLimitSet : after (.powerLimitSet 1) (onSys powerLimitSetLayout 0 [(0, 2, 1000), (2, 2, 1010), (4, 2, 1800)])
    (fun t => t.pwr == dev.pwr && bytesAt (tabNat (t.chan 1).rsp) 12 4 == 34) = true := by decide +kernel

/-- R308: NOW stops a job at once; without it the job goes on to the end of its step. -/
theorem test_trainJobStop : after (.trainJobStop 1) (whileJob trainJobStopLayout 1) (fun t => !(t.job 12).active) = true ∧
    after (.trainJobStop 1) (whileJob trainJobStopLayout 0) (fun t => (t.job 12).active && (t.job 12).stopAfter) = true := by decide +kernel

end Sys2Proof.Tests
end

section
/-! PROOFS. The queue of the block, the rows of BAR0 and the doorbells: what each row carries out, what the operation behind it leaves,
and from these the statements about the registers, the mailbox channels and the doorbells. -/

namespace Sys2Proof.Machine

variable {s : State} {fn : Nat}

/-! ### The queue -/

/-- Settles O1: `step` by whether the queue is empty, and the table, which spells no command. -/
theorem stepTakesFront : Obligations.StepTakesFront := by
  refine fun s => ⟨fun c rest => ?_, fun hq => ?_, fun nbits w => ⟨?_, ?_⟩⟩
  · simp only [step]
  · simp only [step, hq]
  · simp only [decodeTableWord]
  · simp only [State.withFetchWord, decodeTableWord]

/-! ### The rows that write to BAR0 -/

/-- The write to BAR0 that a row carries out: its function, its offset, whether it is one of 64 bits, and its value. -/
def barWriteOf (c : Instr) : Option (Nat × Nat × Bool × BitVec 64) :=
  match c with
  | .registerWrite fn off wide v => some (fn, off, wide, v)
  | .rndSrcSet fn v | .rndEnableSet fn v | .rndLock fn v => some (fn, 0x10000, true, v)
  | .rndLenSet fn v => some (fn, 0x10008, true, v)
  | .rndNumSet fn v => some (fn, 0x10010, true, v)
  | .budShareWrite fn k v => some (fn, 0x20000 + 8 * k, true, v)
  | .blkRstGo fn v => some (fn, 0x30008, true, v)
  | .hoopJoin fn v | .hoopBypassReq fn v | .hoopLock fn v => some (fn, 0x40000, true, v)
  | .gtimeWrite fn v => some (fn, 0x40038, true, v)
  | .eventHeadWrite fn ring v => some (fn, 0x50100 + 8 * ring, true, v)
  | .mbGo fn ch v | .mbAck fn ch v => some (fn, 0x100000 + 0x4000 * ch, true, v)
  | .requestBufferWrite fn ch off wide v => some (fn, 0x101000 + 0x4000 * ch + off, wide, v)
  | .portEnable fn p v | .portLock fn p v => some (fn, 0x200000 + 0x10000 * p, true, v)
  | _ => none

/-- The check of a row that names a function and whatever else `b` checks. -/
theorem wf_of_fn {b : Bool} (hf : fn < 128) (hb : b = true) : (okFn fn && b) = true := by simp [okFn, hf, hb]

/-- An effect whose frame keeps the variant and the queue is the whole next state. -/
theorem act_of_frame {ok : Bool} {t : State} {m : Nat} (h : ok = true) (hf : Fr m s t)
    (hm : m.testBit Part.variant.code = false ∧ m.testBit Part.pending.code = false) : act ok s t = .next t :=
  act_ok h (hf.same .variant hm.1) (hf.same .pending hm.2)

theorem exec_barWriteOf {c : Instr} {off : Nat} {wide : Bool} {v : BitVec 64} (hc : barWriteOf c = some (fn, off, wide, v))
    (hw : c.wf = true) : exec c s = .next (s.barAccess fn off wide v.toNat) := by
  unfold barWriteOf at hc
  split at hc <;> cases hc <;> exact act_of_frame hw (barAccess_frame (Nat.or_self _) Fr.rfl) (by decide)

/-- A row whose write the function's BAR decodes. -/
theorem exec_barWrite {c : Instr} {off : Nat} {v : BitVec 64} (h : barLive s fn = true)
    (hc : barWriteOf c = some (fn, off, true, v) ∧ c.wf = true) : exec c s = .next (s.barWrite fn off v.toNat) := by
  rw [exec_barWriteOf hc.1 hc.2, barAccess_live h]

/-! ### RND_CTL -/

/-- RND_CTL's fields written, before ENABLE takes effect. -/
def State.rndCtlFields (v : Nat) (s : State) : State :=
  let badSrc := !s.rnd.lock && bits v 0 2 == 3
  { s with
    rnd := { s.rnd with
      src := if s.rnd.lock || badSrc then s.rnd.src else bits v 0 2
      holdMax := rwl s.rnd.lock s.rnd.holdMax (bits v 8 8)
      lock := s.rnd.lock || bit v 16
      awaitHoop := s.rnd.awaitHoop && (s.rnd.lock || badSrc || bits v 0 2 == 2) }
    rsvdAcc := if badSrc then sat 32 (s.rsvdAcc + 1) else s.rsvdAcc }

/-- A write to RND_CTL stores its fields, then starts the rounds, stops them, or neither (R485). -/
theorem wrRndCtl_eq (v : Nat) : s.wrRndCtl v =
    if bit v 2 && !s.rnd.enable then (s.rndCtlFields v).startRounds
    else if !bit v 2 && s.rnd.enable then (s.rndCtlFields v).stopRounds else s.rndCtlFields v := by
  unfold State.wrRndCtl State.rndCtlFields
  by_cases hb : (!s.rnd.lock && bits v 0 2 == 3) = true <;> simp only [hb] <;> rfl

/-- What starting and stopping the rounds leave of the fields that RND_CTL writes. -/
theorem wrRndCtl_fields (v : Nat) :
    let t := s.wrRndCtl v
    let u := s.rndCtlFields v
    t.rnd.lock = u.rnd.lock ∧ t.rnd.src = u.rnd.src ∧ t.rnd.holdMax = u.rnd.holdMax ∧ t.rnd.num = u.rnd.num ∧ t.rsvdAcc = u.rsvdAcc := by
  rw [wrRndCtl_eq]
  split
  · exact ⟨rfl, rfl, rfl, rfl, rfl⟩
  · split <;> exact ⟨rfl, rfl, rfl, rfl, rfl⟩

theorem wrRndCtl_enable (v : Nat) : (s.wrRndCtl v).rnd.enable = bit v 2 := by
  rw [wrRndCtl_eq]
  cases hb : bit v 2 <;> cases he : s.rnd.enable
  · exact he
  · rfl
  · rfl
  · exact he

/-- ENABLE from 1 to 0 closes admission and drops the asserted tick. -/
theorem wrRndCtl_stops {v : Nat} (he : s.rnd.enable = true) (hb : bit v 2 = false) :
    (s.wrRndCtl v).bud.isOpen = false ∧ (s.wrRndCtl v).rnd.tick = none := by
  rw [wrRndCtl_eq, hb, he]
  exact ⟨rfl, rfl⟩

/-- Settles O12: RND_CTL by its fields and by ENABLE's two edges, RND_NUM and RND_LEN by their own write operations. -/
theorem roundRegisterWrites : Obligations.RoundRegisterWrites := by
  refine ⟨fun s v h c hc => ?_, fun s v h => ⟨?_, ?_⟩⟩
  · have hw : ∀ c ∈ [Instr.rndSrcSet 0 v, .rndEnableSet 0 v, .rndLock 0 v], barWriteOf c = some (0, 0x10000, true, v) ∧ c.wf = true := by
      simp only [List.mem_cons, List.not_mem_nil, or_false]
      rintro c (rfl | rfl | rfl) <;> exact ⟨rfl, rfl⟩
    refine ⟨s.wrRndCtl v.toNat, by rw [exec_barWrite h (hw c hc), barWrite_rndCtl], ?_⟩
    obtain ⟨hlock, hsrc, hmax, hnum, hacc⟩ := wrRndCtl_fields (s := s) v.toNat
    refine ⟨wrRndCtl_enable _, hlock, hnum, ?_, wrRndCtl_stops⟩
    rw [hsrc, hmax, hacc]
    cases hl : s.rnd.lock with
    | true => simp [State.rndCtlFields, rwl, hl]
    | false => by_cases hb : bits v.toNat 0 2 = 3 <;> simp [State.rndCtlFields, rwl, hl, hb]
  · rw [exec_barWrite h ⟨rfl, rfl⟩, barWrite_rndNum, State.wrRndNum, Nat.mod_eq_of_lt v.isLt]
  · rw [exec_barWrite h ⟨rfl, rfl⟩, barWrite_rndLen]
    rfl

/-! ### HOOP_CTL, PORT_CFG and BLK_RST -/

/-- A write to HOOP_GTIME (R337). -/
theorem wrHoop_gtime (v : Nat) :
    s.wrHoop 0x38 v = if isFollower s then s else { s with rnd := { s.rnd with gtimeNext := some (v % 2 ^ 64) } } := rfl

/-- A port's PORT_CFG written (R311, R312). -/
def Port.cfgWritten (v : Nat) (x : Port) : Port :=
  { x with
    mode := rwl x.lock x.mode (bits v 0 2)
    vid := rwl x.lock x.vid (bits v 16 12)
    enable := bit v 2
    modeEff := if bit v 2 && !x.enable then rwl x.lock x.mode (bits v 0 2) else x.modeEff
    linkUp := if bit v 2 then x.linkUp else 0
    macsecUp := if bit v 2 then x.macsecUp else 0
    lock := x.lock || bit v 32 }

/-- A PORT_CFG write that is taken: the port's fields, the measurement of a lost MACsec association, and the lost held frames. -/
theorem wrPortCfg_taken {p v : Nat} (h : (!(s.port p).lock && bits v 0 2 == 3) = false) :
    s.wrPortCfg p v = ({ (if bit v 2 || (s.port p).macsecUp == 0 then s else s.measured) with
      txHeld := if bit v 2 then s.txHeld else s.txHeld.filter fun h => h.port != p }).modPort p fun _ => (s.port p).cfgWritten v := by
  have hn : ¬(!(s.port p).lock ∧ bits v 0 2 = 3) := by simpa using h
  simp only [State.wrPortCfg, if_neg hn]
  split <;> rfl

/-- PORT_CFG of a port that the part lacks, or with MODE 3 not locked out, is dropped and counted. -/
theorem wrPort_cfg_dropped {p v : Nat} (h : (!hasPort s p || (!(s.port p).lock && bits v 0 2 == 3)) = true) :
    s.wrPort p 0 v = s.reserved := by
  cases hp : hasPort s p with
  | false => simp only [State.wrPort, hp, Bool.not_false, if_true]
  | true =>
    have hmode : !(s.port p).lock ∧ bits v 0 2 = 3 := by simpa only [hp, Bool.not_true, Bool.false_or, Bool.and_eq_true, beq_iff_eq] using h
    simp only [State.wrPort, hp, Bool.not_true, Bool.false_eq_true, if_false, if_true, State.wrPortCfg, if_pos hmode]

/-- PORT_CFG of a port of the part whose MODE is taken or locked. -/
theorem wrPort_cfg_taken {p v : Nat} (h : (!hasPort s p || (!(s.port p).lock && bits v 0 2 == 3)) = false) :
    s.wrPort p 0 v = s.wrPortCfg p v := by
  have hp : (!hasPort s p) = false := (Bool.or_eq_false_iff.1 h).1
  simp only [State.wrPort, hp, Bool.false_eq_true, if_false, if_true]

/-- A block reset adds a request unless the device is held in reset or the block's own reset is in progress. -/
theorem blockReset_eq (sel unit : Nat) : s.blockReset sel unit = { s with rst := { s.rst with
    busy := s.rst.busy ++ if s.rst.running && !blockBusy s sel unit then [{ sel := sel, unit := unit, reset := false }] else [] } } := by
  unfold State.blockReset blockBusy
  cases s.rst.running <;> cases s.rst.busy.any fun b => b.sel == sel && b.unit == unit <;> simp

/-- Which blocks a part has does not depend on its resets. -/
theorem blockPresent_rst (r : Rst) (sel unit : Nat) : blockPresent { s with rst := r } sel unit = blockPresent s sel unit := rfl

/-- Which blocks are being reset does not depend on SEL and UNIT. -/
theorem blockBusy_select (a b sel unit : Nat) :
    blockBusy { s with rst := { s.rst with sel := a, unit := b } } sel unit = blockBusy s sel unit := rfl

/-- A write to BLK_RST by whether GO is set and names a block of the part (R452, R454). -/
theorem wrPower_blkRst (v : Nat) : ∃ r : Rst,
    s.wrPower 0x8 v = (if bit v 16 && !blockPresent s (bits v 0 8) (bits v 8 8) then
      { s with rst := r, rsvdAcc := sat 32 (s.rsvdAcc + 1) } else { s with rst := r }) ∧
    r.sel = bits v 0 8 ∧ r.unit = bits v 8 8 ∧
    r.busy = s.rst.busy ++
      (if bit v 16 && blockPresent s r.sel r.unit && s.rst.running && !blockBusy s r.sel r.unit then
        [{ sel := r.sel, unit := r.unit, reset := false }] else []) := by
  refine ⟨(s.wrPower 0x8 v).rst, ?_⟩
  cases hg : bit v 16 with
  | false => simp [State.wrPower, hg]
  | true =>
    cases hp : blockPresent s (bits v 0 8) (bits v 8 8) with
    | false => simp [State.wrPower, hg, State.reserved, blockPresent_rst, hp]
    | true => simp [State.wrPower, hg, blockPresent_rst, hp, blockReset_eq, blockBusy_select]

/-- Settles O13: each register by its own write operation. -/
theorem blockRegisterWrites : Obligations.BlockRegisterWrites := by
  refine ⟨fun s v h => ⟨fun c hc => ?_, fun c hc => ?_, ?_⟩, fun s fn p ring v h hfn hlt hp hr => ⟨fun c hc => ?_, ?_, ?_⟩⟩
  · have hw : (Instr.budShareWrite 0 c v).wf = true := wf_of_fn (fn := 0) (by decide) (decide_eq_true hc)
    rw [exec_barWrite h ⟨rfl, hw⟩, barWrite_share hc]
    rfl
  · have hw : ∀ c ∈ [Instr.hoopJoin 0 v, .hoopBypassReq 0 v, .hoopLock 0 v], barWriteOf c = some (0, 0x40000, true, v) ∧ c.wf = true := by
      simp only [List.mem_cons, List.not_mem_nil, or_false]
      rintro c (rfl | rfl | rfl) <;> exact ⟨rfl, rfl⟩
    refine ⟨(s.wrHoop 0 v.toNat).hoop, by rw [exec_barWrite h (hw c hc), barWrite_hoopCtl]; rfl, rfl, rfl, rfl, rfl, ?_, rfl, rfl⟩
    cases hl : s.hoop.lock <;> simp [State.wrHoop, rwl, hl]
  · rw [exec_barWrite h ⟨rfl, rfl⟩, barWrite_gtime, wrHoop_gtime, Nat.mod_eq_of_lt v.isLt]
  · have hok : Instr.wf c = true ∧ barWriteOf c = some (0, 0x200000 + 0x10000 * p, true, v) := by
      simp only [List.mem_cons, List.not_mem_nil, or_false] at hc
      rcases hc with rfl | rfl <;> exact ⟨wf_of_fn (fn := 0) (by decide) (decide_eq_true hp), rfl⟩
    rw [exec_barWrite h hok.symm, barWrite_portCfg hp]
    split
    · next hd => rw [wrPort_cfg_dropped hd]; rfl
    · next ht =>
      have ht := eq_false_of_ne_true ht
      refine ⟨(s.port p).cfgWritten v.toNat, by rw [wrPort_cfg_taken ht, wrPortCfg_taken (Bool.or_eq_false_iff.1 ht).2], rfl, rfl, ?_, ?_, rfl⟩
      · cases hl : (s.port p).lock <;> simp [Port.cfgWritten, rwl, hl]
      · cases hb : bit v.toNat 2 <;> simp [Port.cfgWritten, hb]
  · obtain ⟨r, hw, hr⟩ := wrPower_blkRst (s := s) v.toNat
    exact ⟨r, by rw [exec_barWrite h ⟨rfl, rfl⟩, barWrite_blkRst, hw], hr⟩
  · have hw : (Instr.eventHeadWrite fn ring v).wf = true := wf_of_fn hlt (decide_eq_true hr)
    rw [exec_barWrite hfn ⟨rfl, hw⟩, barWrite_evtHead hr]

/-! ### Reads of BAR0 -/

theorem exec_bar0WideRead {off : Nat} (hf : fn < 128) (ho : off < 0x4000000) :
    exec (.bar0LowRead fn { off := off, wide := true }) s = .next (s.readWide fn off) :=
  act_of_frame (wf_of_fn hf (decide_eq_true ho)) (readWide_frame (Nat.or_self _) Fr.rfl) (by decide)

theorem exec_bar0LowRead {off : Nat} (hf : fn < 128) (ho : off < 0x4000000) :
    exec (.bar0LowRead fn { off := off }) s = .next (s.readLow fn off) :=
  act_of_frame (wf_of_fn hf (decide_eq_true ho)) (readLow_frame (Nat.or_self _) Fr.rfl) (by decide)

theorem exec_bar0HighRead {off : Nat} (hf : fn < 128) (ho : off < 0x4000000) :
    exec (.bar0HighRead fn off) s = .next (s.readHigh fn off) :=
  act_of_frame (wf_of_fn hf (decide_eq_true ho)) (readHigh_frame (Nat.or_self _) Fr.rfl) (by decide)

theorem readLow_eq (off : Nat) : s.readLow fn off =
    if barLive s fn then
      { s with
        out := .readData fn (readReg s fn off % 2 ^ 32) :: s.out
        latch := if isReg off then store none s.latch fn (some (off, readReg s fn off / 2 ^ 32)) else s.latch }
    else s := by
  unfold State.readLow
  cases barLive s fn <;> cases isReg off <;> rfl

theorem readWide_eq (off : Nat) : s.readWide fn off =
    if barLive s fn then { s with out := .readData fn (readReg s fn off) :: s.out } else s := by
  unfold State.readWide
  cases barLive s fn <;> rfl

/-- The high half of the register that the function's latch holds: the latched value, which is released (R5). -/
theorem readHigh_latched {off h : Nat} (hl : barLive s fn = true) (hr : isReg off = true) (hk : look none s.latch fn = some (off, h)) :
    s.readHigh fn off = { s with out := .readData fn h :: s.out, latch := store none s.latch fn none } := by
  simp [State.readHigh, hl, hr, hk, State.emit]

/-- The high half of a register that the function's latch does not hold: the current value (R5). -/
theorem readHigh_current {off : Nat} (hl : barLive s fn = true) (hk : ∀ h, look none s.latch fn ≠ some (off, h)) :
    s.readHigh fn off = { s with out := .readData fn (readReg s fn off / 2 ^ 32) :: s.out } := by
  cases hs : look none s.latch fn with
  | none => simp [State.readHigh, hl, hs, State.emit]
  | some x =>
    have hne : x.1 ≠ off := fun he => hk x.2 (by rw [hs, ← he])
    simp [State.readHigh, hl, hs, hne, State.emit]

theorem readHigh_dead {off : Nat} (hl : barLive s fn = false) : s.readHigh fn off = s := by
  simp [State.readHigh, hl]

/-! ### Writes of single registers -/

theorem barWrite_guard (v : Nat) : s.barWrite 0 0x20218 v = s.wrBudCtl v := by simp [State.barWrite, isReg, State.wrBudget]
theorem barWrite_rstTmo (v : Nat) : s.barWrite 0 0x30018 v = s.wrPower 0x18 v := by simp [State.barWrite, isReg]
theorem barWrite_faultSel (v : Nat) : s.barWrite 0 0x80010 v = s.wrFault 0x10 v := by simp [State.barWrite, isReg]

/-- The region and the place in it of a register's offset. -/
theorem offset_parts {off r o : Nat} (he : off = 0x10000 * r + o) (hr : r < 0x400) (ho : o < 0x10000) (h8 : o % 8 = 0) :
    off / 0x10000 = r ∧ off % 0x10000 = o ∧ off % 8 = 0 ∧ ¬0x4000000 ≤ off := by omega

theorem barWrite_hoopPath {i : Nat} (hi : i < 4) (v : Nat) : s.barWrite 0 (0x40010 + 8 * i) v = s.wrHoop (0x10 + 8 * i) v := by
  obtain ⟨hr, ho, h8, hb⟩ := offset_parts (off := 0x40010 + 8 * i) (r := 4) (o := 0x10 + 8 * i) (by omega) (by omega) (by omega) (by omega)
  have hreg : isReg (0x40010 + 8 * i) = true := by simp [isReg, hr, ho, h8]; omega
  simp [State.barWrite, hr, ho, h8, hb, hreg]

/-- The registers of a port below its Twine counters (R311 to R317). -/
theorem barWrite_port {off p o : Nat} (hp : p < 12) (ho : o ≤ 0x28) (h8 : o % 8 = 0) (he : off = 0x10000 * (0x20 + p) + o) (v : Nat) :
    s.barWrite 0 off v = s.wrPort p o v := by
  obtain ⟨hr, ho', h8', hb⟩ := offset_parts he (by omega) (by omega) h8
  have hn : 32 + p ≠ 0 ∧ 32 + p ≠ 1 ∧ 32 + p ≠ 2 ∧ 32 + p ≠ 3 ∧ 32 + p ≠ 4 ∧ 32 + p ≠ 5 ∧ 32 + p ≠ 6 ∧ 32 + p ≠ 7 ∧ 32 + p ≠ 8 ∧
    ¬32 + p < 32 ∧ 32 + p < 44 := by omega
  have hreg : isReg off = true := by simp [isReg, hr, ho', h8', ho, hn]
  simp [State.barWrite, hr, ho', h8', hb, hreg, hn]

/-- The scrub enable of a memory-side die. -/
theorem barWrite_scrub {d : Nat} (hd : d < 8) (v : Nat) : s.barWrite 0 (0x400060 + 0x10000 * d) v = s.wrMsd d 0x60 v := by
  obtain ⟨hr, ho, h8, hb⟩ := offset_parts (off := 0x400060 + 0x10000 * d) (r := 0x40 + d) (o := 0x60) (by omega) (by omega) (by omega) rfl
  have hn : 64 + d ≠ 0 ∧ 64 + d ≠ 1 ∧ 64 + d ≠ 2 ∧ 64 + d ≠ 3 ∧ 64 + d ≠ 4 ∧ 64 + d ≠ 5 ∧ 64 + d ≠ 6 ∧ 64 + d ≠ 7 ∧ 64 + d ≠ 8 ∧
    ¬64 + d < 32 ∧ ¬64 + d < 44 ∧ 64 + d < 72 := by omega
  have hreg : isReg (0x400060 + 0x10000 * d) = true := by simp [isReg, hr, ho, h8, hn]
  simp [State.barWrite, hr, ho, h8, hb, hreg, hn]

theorem hasPort_lt {p : Nat} (h : hasPort s p = true) : p < 12 := by
  have h := of_decide_eq_true h
  split at h <;> omega

theorem hasMsd_lt {d : Nat} (h : hasMsd s d = true) : d < 8 := by
  have h := of_decide_eq_true h
  split at h <;> omega

/-! ### HOOP_PATH -/

/-- The four 16-bit entries of HOOP_PATH that a write to its register `i` lists. -/
def pathStored (t : Tab Nat) (i v : Nat) : Tab Nat :=
  store 0 (store 0 (store 0 (store 0 t (4 * i) (bits v 0 16)) (4 * i + 1) (bits v 16 16)) (4 * i + 2) (bits v 32 16)) (4 * i + 3) (bits v 48 16)

theorem look_pathStored (t : Tab Nat) (i v k : Nat) :
    look 0 (pathStored t i v) k = if k / 4 = i then bits v (16 * (k % 4)) 16 else look 0 t k := by
  unfold pathStored
  split
  · next hk =>
    have hcase : k = 4 * i ∨ k = 4 * i + 1 ∨ k = 4 * i + 2 ∨ k = 4 * i + 3 := by omega
    obtain rfl | rfl | rfl | rfl := hcase
    · rw [look_store_ne _ _ _ (by omega), look_store_ne _ _ _ (by omega), look_store_ne _ _ _ (by omega), look_store_eq,
        show 4 * i % 4 = 0 by omega]
    · rw [look_store_ne _ _ _ (by omega), look_store_ne _ _ _ (by omega), look_store_eq, show (4 * i + 1) % 4 = 1 by omega]
    · rw [look_store_ne _ _ _ (by omega), look_store_eq, show (4 * i + 2) % 4 = 2 by omega]
    · rw [look_store_eq, show (4 * i + 3) % 4 = 3 by omega]
  · next hk =>
    rw [look_store_ne _ _ _ (by omega), look_store_ne _ _ _ (by omega), look_store_ne _ _ _ (by omega), look_store_ne _ _ _ (by omega)]

theorem wrHoop_path {i : Nat} (hi : i < 4) (v : Nat) : s.wrHoop (0x10 + 8 * i) v =
    { s with hoop := { s.hoop with path := if s.hoop.lock then s.hoop.path else pathStored s.hoop.path i v } } := by
  have h0 : 0x10 + 8 * i ≠ 0 := by omega
  have hr : 0x10 ≤ 0x10 + 8 * i ∧ 0x10 + 8 * i < 0x30 := by omega
  have hq : (0x10 + 8 * i - 0x10) / 8 = i := by omega
  simp only [State.wrHoop, if_neg h0, if_pos hr, hq]
  by_cases hl : s.hoop.lock = true
  · rw [if_pos hl, if_pos hl]
  · rw [if_neg hl, if_neg hl]
    rfl

/-! ### Writes that are dropped and counted -/

/-- A write of 64 bits that reaches no register of the function (R6, R7, R33, R341). -/
theorem barWrite_dropped {off : Nat} (v : Nat)
    (h : off % 8 ≠ 0 ∨
      (¬(0x100000 ≤ off ∧ off < 0x200000) ∧ (isReg off = false ∨ (fn ≠ 0 ∧ 0x10000 ≤ off ∧ ¬(0x50000 ≤ off ∧ off < 0x60000)))) ∨
      (0x100000 ≤ off ∧ off < 0x200000 ∧ chanSeen s fn ((off - 0x100000) / 0x4000) = false)) :
    s.barWrite fn off v = s.reserved := by
  have hmail : (0x10 ≤ off / 0x10000 ∧ off / 0x10000 < 0x20) ↔ (0x100000 ≤ off ∧ off < 0x200000) := by omega
  simp only [State.barWrite, hmail]
  by_cases hbad : off % 8 ≠ 0 ∨ 0x4000000 ≤ off
  · rw [if_pos hbad]
  rw [if_neg hbad]
  obtain h8 | ⟨hm, hreg | ⟨hfn, hlo, hev⟩⟩ | ⟨hlo, hhi, hch⟩ := h
  · exact absurd (Or.inl h8) hbad
  · simp [hm, hreg]
  · have hr : off / 0x10000 ≠ 0 ∧ off / 0x10000 ≠ 5 := by omega
    simp [hm, hr, hfn]
  · simp [hlo, hhi, State.wrMailbox, hch]

/-- A write to a register of the IDENT and CAPS region, which are read only. -/
theorem barWrite_ident {off : Nat} (hr : isReg off = true) (ho : off < 0x10000) (v : Nat) : s.barWrite fn off v = s := by
  have h8 : off % 8 = 0 := by simp [isReg] at hr; exact hr.1
  have hz : off / 0x10000 = 0 := by omega
  have hb : ¬0x4000000 ≤ off := by omega
  simp [State.barWrite, h8, hb, hr, hz]

/-- REGISTER_WRITE of 64 bits through a function whose BAR decodes. -/
theorem exec_registerWrite {off : Nat} {v : BitVec 64} (h : barLive s fn = true) (hf : fn < 128) (ho : off < 0x4000000) :
    exec (.registerWrite fn off true v) s = .next (s.barWrite fn off v.toNat) :=
  have hw : (Instr.registerWrite fn off true v).wf = true := wf_of_fn hf (decide_eq_true ho)
  exec_barWrite h ⟨rfl, hw⟩

/-- Settles O14: the reads by their three operations, each register by its own write operation, and the writes that reach none. -/
theorem registerReadsAndDrops : Obligations.RegisterReadsAndDrops := by
  refine ⟨fun s fn off hf ho => ⟨?_, ?_, fun h hl hr hk => ?_, fun hk hl => ?_, fun hd => ?_⟩,
    fun s v h => ⟨?_, ?_, ?_, fun i hi => ?_, fun p hp => ⟨?_, ?_⟩, fun d hd => ?_, fun fn ring hf hr hl => ?_, fun x hx => ?_⟩,
    fun s fn off wide v hf ho => ⟨fun hd => ?_, fun hl hdrop => ?_, fun hl hw hr hlo => ?_⟩⟩
  · rw [exec_bar0WideRead hf ho, readWide_eq]
  · rw [exec_bar0LowRead hf ho, readLow_eq]
  · rw [exec_bar0HighRead hf ho, readHigh_latched hl hr hk]
  · rw [exec_bar0HighRead hf ho, readHigh_current hl hk]
  · rw [exec_bar0HighRead hf ho, readHigh_dead hd]
  · rw [exec_registerWrite h (by decide) (by decide), barWrite_guard]; rfl
  · rw [exec_registerWrite h (by decide) (by decide), barWrite_rstTmo]; rfl
  · rw [exec_registerWrite h (by decide) (by decide), barWrite_faultSel]; rfl
  · refine ⟨_, by rw [exec_registerWrite h (by decide) (by omega), barWrite_hoopPath hi, wrHoop_path hi], rfl, fun k => ?_⟩
    cases s.hoop.lock <;> simp [look_pathStored]
  · rw [exec_registerWrite h (by decide) (by have := hasPort_lt hp; omega),
      barWrite_port (p := p) (o := 0x8) (hasPort_lt hp) (by decide) rfl (by omega)]
    simp [State.wrPort, hp]
  · rw [exec_registerWrite h (by decide) (by have := hasPort_lt hp; omega),
      barWrite_port (p := p) (o := 0x28) (hasPort_lt hp) (by decide) rfl (by omega)]
    simp [State.wrPort, hp]
  · rw [exec_registerWrite h (by decide) (by have := hasMsd_lt hd; omega), barWrite_scrub (hasMsd_lt hd)]
    simp [State.wrMsd, hd]
  · rw [exec_registerWrite hl hf (by omega), barWrite_evtHead hr]
  · have hrow : barWriteOf x.2 = some (0, x.1, true, v) ∧ x.2.wf = true ∧ (Instr.registerWrite 0 x.1 true v).wf = true := by
      simp only [List.mem_cons, List.not_mem_nil, or_false] at hx
      rcases hx with rfl | rfl | rfl | rfl | rfl | rfl | rfl | rfl <;> exact ⟨rfl, rfl, rfl⟩
    rw [exec_barWriteOf rfl hrow.2.2, exec_barWriteOf hrow.1 hrow.2.1]
  · have hw : (Instr.registerWrite fn off wide v).wf = true := wf_of_fn hf (decide_eq_true ho)
    rw [exec_barWriteOf rfl hw, barAccess_dead hd]
  · have hw : (Instr.registerWrite fn off wide v).wf = true := wf_of_fn hf (decide_eq_true ho)
    rw [exec_barWriteOf rfl hw]
    cases wide with
    | false => rw [barAccess_narrow hl]; rfl
    | true => rw [barAccess_live hl, barWrite_dropped _ (by simpa using hdrop)]; rfl
  · subst hw
    rw [exec_registerWrite hl hf ho, barWrite_ident hr hlo]

/-! ### Mailbox channels -/

/-- Of the mailbox, channel `ch` and the acceptance number alone differ from `s`: they are `c` and `n`. -/
def ChanSet (ch n : Nat) (c : Chan) (s t : State) : Prop :=
  t = { s with mb := t.mb } ∧ (∀ d, d ≠ ch → t.chan d = s.chan d) ∧ t.mb.number = n ∧ t.chan ch = c

theorem ChanSet.refl (ch : Nat) : ChanSet ch s.mb.number (s.chan ch) s s := ⟨rfl, fun _ _ => rfl, rfl, rfl⟩

theorem ChanSet.modChan {ch n : Nat} {c : Chan} {t : State} (h : ChanSet ch n c s t) (f : Chan → Chan) :
    ChanSet ch n (f c) s (t.modChan ch f) := by
  obtain ⟨hs, ho, hn, hc⟩ := h
  refine ⟨?_, fun d hd => by rw [modChan_read_ne _ _ _ hd, ho d hd], hn, by rw [modChan_read, hc]⟩
  rw [hs]
  rfl

theorem ChanSet.setNumber {ch n : Nat} {c : Chan} {t : State} (h : ChanSet ch n c s t) (m : Nat) :
    ChanSet ch m c s { t with mb := { t.mb with number := m } } := by
  obtain ⟨hs, ho, -, hc⟩ := h
  refine ⟨?_, ho, rfl, hc⟩
  rw [hs]

/-- MB_CTL's SEQ is stored whatever else the write does. -/
theorem seqStored (ch v : Nat) : ChanSet ch s.mb.number { s.chan ch with seq := bits v 32 32 } s
    (s.modChan ch fun c => { c with seq := bits v 32 32 }) := (ChanSet.refl ch).modChan _

/-- An accepted command whose opcode is assigned waits for firmware under the next acceptance number. -/
theorem accept_known {ch : Nat} (hop : opcodeKnown (bytesAt (tabNat (s.chan ch).req) 0 2) = true) :
    let n := (s.mb.number + 1) % 2 ^ 64
    s.accept ch = { s with mb := { s.mb with number := n } }.modChan ch fun c =>
      { c with state := Ch.busy, accept := n, goSeq := c.seq, rsp := [] } := by
  simp only [State.accept]
  rw [if_pos (by rw [modChan_read]; exact hop)]

/-- GO of an idle channel of a READY device, its opcode assigned (R369). -/
theorem mbCtl_go_taken {ch v : Nat} (hgo : bit v 0 = true) (hack : bit v 1 = false) (hst : chanState (s.chan ch) = Ch.idle)
    (hrdy : s.lid.ready = true) (hop : opcodeKnown (bytesAt (tabNat (s.chan ch).req) 0 2) = true) :
    ChanSet ch ((s.mb.number + 1) % 2 ^ 64) { s.chan ch with
      seq := bits v 32 32, state := Ch.busy, accept := (s.mb.number + 1) % 2 ^ 64, goSeq := bits v 32 32, rsp := [] } s (s.mbCtl ch v) := by
  have he : s.mbCtl ch v = (s.modChan ch fun c => { c with seq := bits v 32 32 }).accept ch := by
    simp [State.mbCtl, hgo, hack, hst, hrdy]
  rw [he, accept_known (by rw [modChan_read]; exact hop)]
  exact ((seqStored ch v).setNumber _).modChan _

/-- GO of a channel that is not idle, or before READY, is dropped and counted (R370). -/
theorem mbCtl_go_dropped {ch v : Nat} (hgo : bit v 0 = true) (hack : bit v 1 = false)
    (h : chanState (s.chan ch) ≠ Ch.idle ∨ s.lid.ready = false) :
    ChanSet ch s.mb.number { s.chan ch with seq := bits v 32 32, drops := sat 16 ((s.chan ch).drops + 1) } s (s.mbCtl ch v) := by
  have hn : ¬(chanState (s.chan ch) = Ch.idle ∧ s.lid.ready = true) := by
    rintro ⟨hi, hr⟩
    obtain hne | hnr := h
    · exact hne hi
    · exact absurd hr (by rw [hnr]; decide)
  have he : s.mbCtl ch v = (s.modChan ch fun c => { c with seq := bits v 32 32 }).modChan ch dropped := by
    simp [State.mbCtl, hgo, hack, hn]
  rw [he]
  exact (seqStored ch v).modChan dropped

/-- ACK of a finished channel ends its command; on an unassigned one it stores SEQ alone; elsewhere it is dropped and counted (R370). -/
theorem mbCtl_ack {ch v : Nat} (hgo : bit v 0 = false) (hack : bit v 1 = true) :
    ChanSet ch s.mb.number
      (if chanState (s.chan ch) = Ch.done then { s.chan ch with seq := bits v 32 32, state := Ch.idle }
        else if chanState (s.chan ch) = Ch.unassigned then { s.chan ch with seq := bits v 32 32 }
        else { s.chan ch with seq := bits v 32 32, drops := sat 16 ((s.chan ch).drops + 1) }) s (s.mbCtl ch v) := by
  have hset := seqStored (s := s) ch v
  simp only [State.mbCtl, hgo, hack, if_true, Bool.false_eq_true, if_false]
  split
  · exact hset.modChan _
  · split
    · exact hset
    · exact hset.modChan dropped

/-- MB_CTL of a channel that the function reaches. -/
theorem barWrite_mbCtl {ch : Nat} (hc : ch < 64) (hs : chanSeen s fn ch = true) (v : Nat) :
    s.barWrite fn (0x100000 + 0x4000 * ch) v = s.mbCtl ch v := by
  have hw : 0x4000 * ch / 0x4000 = ch ∧ 0x4000 * ch % 0x4000 = 0 := by omega
  have hb := barWrite_channel (s := s) (fn := fn) (o := 0) hc (by decide) rfl v
  simp only [Nat.add_zero] at hb
  simp [hb, State.wrMailbox, hw, hs]

/-- The request buffer of a channel that the function reaches. -/
theorem barWrite_request {ch off : Nat} (hc : ch < 64) (hs : chanSeen s fn ch = true) (ho : off < 4096) (h8 : off % 8 = 0) (v : Nat) :
    s.barWrite fn (0x101000 + 0x4000 * ch + off) v = s.reqWrite ch off v := by
  have hw : (0x4000 * ch + (0x1000 + off)) / 0x4000 = ch ∧ (0x4000 * ch + (0x1000 + off)) % 0x4000 = 0x1000 + off := by omega
  have he : 0x101000 + 0x4000 * ch + off = 0x100000 + 0x4000 * ch + (0x1000 + off) := by omega
  have hr : 0x1000 + off ≠ 0 ∧ 0x1000 + off < 0x2000 := by omega
  rw [he, barWrite_channel hc (by omega) (by omega)]
  simp [State.wrMailbox, hw, hs, hr]

theorem reqWrite_eq (ch off v : Nat) : s.reqWrite ch off v = s.modChan ch fun x =>
    if chanState (s.chan ch) = Ch.busy ∨ chanState (s.chan ch) = Ch.done then { x with drops := sat 16 (x.drops + 1) }
    else { x with req := wrBytes x.req off (leBytes 8 v) } := by
  simp only [State.reqWrite]
  split <;> rfl

/-! ### Doorbells -/

/-- The doorbell write that a row carries out: its function, its queue pair, its offset, whether it is one of 64 bits, and its value. -/
def doorbellOf (c : Instr) : Option (Nat × Nat × Nat × Bool × BitVec 64) :=
  match c with
  | .sqTail fn qpn off wide v | .cqHead fn qpn off wide v | .rqTail fn qpn off wide v => some (fn, qpn, off, wide, v)
  | _ => none

theorem exec_doorbellOf {c : Instr} {qpn off : Nat} {wide : Bool} {v : BitVec 64} (hc : doorbellOf c = some (fn, qpn, off, wide, v))
    (hf : fn < 128) (hq : qpn < 262144) : exec c s = .next (s.doorbell fn qpn off wide v.toNat) := by
  unfold doorbellOf at hc
  split at hc <;> cases hc <;>
    exact act_of_frame (wf_of_fn hf (decide_eq_true hq)) (doorbell_frame (Nat.or_self _) Fr.rfl) (by decide)

section
variable {qpn off v : Nat} {wide : Bool} (hl : barLive s fn = true)
include hl

theorem doorbell_dropped (h : doorbellTaken s fn qpn off = false) :
    s.doorbell fn qpn off wide v = s.modFn fn fun f => { f with dbDrop := sat 16 (f.dbDrop + 1) } := by
  simp [State.doorbell, hl, h]

theorem doorbell_sq (h : doorbellTaken s fn qpn 0 = true) : s.doorbell fn qpn 0 wide v = s.ringSq qpn (v % 2 ^ 32) := by
  simp [State.doorbell, hl, h]

theorem doorbell_cq (h : doorbellTaken s fn qpn 8 = true) :
    s.doorbell fn qpn 8 wide v = s.ringCq qpn (v % 2 ^ 32) (wide && bit v 32) := by
  simp [State.doorbell, hl, h]

theorem doorbell_rq (h : doorbellTaken s fn qpn 16 = true) :
    s.doorbell fn qpn 16 wide v = s.modQp qpn fun q => { q with rqTail := v % 2 ^ 32 } := by
  simp [State.doorbell, hl, h]

end

/-- Writing an event record changes no queue pair. -/
theorem putEvent_qps (ring : Nat) (e : EvRec) : (s.putEvent fn ring e).host.qps = s.host.qps := by
  simp only [State.putEvent]
  split <;> rfl

/-- Keeping an event changes no queue pair. -/
theorem keepEvent_qps (ring : Nat) (e : EvRec) : (s.keepEvent fn ring e).host.qps = s.host.qps := by
  simp only [State.keepEvent]
  split
  · rfl
  · split <;> rfl

/-- Raising an event changes no queue pair. -/
theorem event_qps (ring : Nat) (e : EvRec) : (s.event fn ring e).host.qps = s.host.qps := by
  unfold State.event
  split
  · rfl
  · split
    · exact putEvent_qps ring _
    · exact keepEvent_qps ring _

theorem qp_of_qps {t : State} (q : Nat) (h : t.host.qps = s.host.qps) : t.qp q = s.qp q := by simp [State.qp, h]

/-- A tail of an active queue pair beyond the SQ's end puts it in ERROR and is not stored. -/
theorem ringSq_overrun {qpn v : Nat} (ha : (s.qp qpn).state = .active) (ho : 2 ^ (s.qp qpn).logSq < idxSub v (s.qp qpn).fetched) :
    (s.ringSq qpn v).qp qpn = { s.qp qpn with state := .error } := by
  have ha' : (s.fresh.2.qp qpn).state = .active := ha
  simp only [State.ringSq, if_pos (And.intro ha ho), State.qpError, if_pos ha', State.qpEvent]
  rw [qp_of_qps qpn (event_qps _ _), modQp_read]
  rfl

theorem ringSq_within {qpn v : Nat} (h : idxSub v (s.qp qpn).fetched ≤ 2 ^ (s.qp qpn).logSq) :
    s.ringSq qpn v = s.modQp qpn fun q => { q with sqTail := v } := by
  have hn : ¬((s.qp qpn).state = .active ∧ 2 ^ (s.qp qpn).logSq < idxSub v (s.qp qpn).fetched) := fun ⟨_, ho⟩ => absurd ho (by omega)
  simp only [State.ringSq, if_neg hn]

/-- A CQ head of a queue pair without held records: nothing is written to the CQ. -/
theorem ringCq_none_held {qpn v : Nat} {arm : Bool} (h : (s.qp qpn).held = []) :
    let q := (s.ringCq qpn v arm).qp qpn
    q.cqHead = v ∧ q.arm = ((s.qp qpn).arm || arm) ∧ q.cqTail = (s.qp qpn).cqTail := by
  simp only [State.ringCq, State.drainHeld, modQp_read, h, State.each, List.foldl_nil, State.noteFull]
  split <;> exact ⟨rfl, rfl, rfl⟩

/-- Settles O15: MB_CTL by its three outcomes, the request buffer, and each doorbell by the operation that takes it. -/
theorem mailboxAndDoorbells : Obligations.MailboxAndDoorbells := by
  refine ⟨fun s fn ch v hf hc hl hs => ⟨fun c hm => ?_, fun off ho h8 => ?_⟩,
    fun s fn qpn wide v hf hq hl => ⟨fun off hd c hm => ?_, fun ht hw => ?_, fun ht ha hov => ?_, fun ht hh => ?_, fun ht => ?_⟩⟩
  · have hrow : barWriteOf c = some (fn, 0x100000 + 0x4000 * ch, true, v) ∧ c.wf = true := by
      simp only [List.mem_cons, List.not_mem_nil, or_false] at hm
      rcases hm with rfl | rfl <;> exact ⟨rfl, wf_of_fn hf (decide_eq_true hc)⟩
    refine ⟨s.mbCtl ch v.toNat, by rw [exec_barWrite hl hrow, barWrite_mbCtl hc hs], fun hgo hack hst hrdy hop => ?_, mbCtl_go_dropped, mbCtl_ack⟩
    obtain ⟨hmb, hoth, hnum, hch⟩ := mbCtl_go_taken hgo hack hst hrdy hop
    exact ⟨hmb, hoth, hnum, by rw [hnum, hch]⟩
  · have hw (wide : Bool) : (Instr.requestBufferWrite fn ch off wide v).wf = true := by
      change (okFn fn && okChan ch && decide (off < 4096)) = true
      simp [okFn, okChan, hf, hc, ho]
    exact ⟨by rw [exec_barWriteOf rfl (hw false), barAccess_narrow hl]; rfl,
      by rw [exec_barWrite hl ⟨rfl, hw true⟩, barWrite_request hc hs ho h8, reqWrite_eq]⟩
  · have hrow : doorbellOf c = some (fn, qpn, off, wide, v) := by
      simp only [List.mem_cons, List.not_mem_nil, or_false] at hm
      rcases hm with rfl | rfl | rfl <;> rfl
    rw [exec_doorbellOf hrow hf hq, doorbell_dropped hl hd]
  · rw [exec_doorbellOf rfl hf hq, doorbell_sq hl ht, ringSq_within hw]
  · refine ⟨_, exec_doorbellOf rfl hf hq, ?_⟩
    rw [doorbell_sq hl ht]
    have herr := ringSq_overrun ha hov
    exact ⟨by rw [herr], by rw [herr]⟩
  · refine ⟨_, exec_doorbellOf rfl hf hq, ?_⟩
    rw [doorbell_cq hl ht]
    exact ringCq_none_held hh
  · rw [exec_doorbellOf rfl hf hq, doorbell_rq hl ht]

end Sys2Proof.Machine
end

section
/-! PROOFS. What holds of every command alike: it completes exactly on its well-formed operands, it leaves the queue, and it keeps the
parts of the state that its row of `mayChange` does not list. -/

namespace Sys2Proof.Machine

variable {s : State}

/-! ### Completion and the queue -/

/-- Every row is one `act` on the row's own check, so completion and the queue are read off `act` alone. -/
theorem exec_eq_act (c : Instr) (s : State) : ∃ t, exec c s = act c.wf s t := by
  cases c <;> exact ⟨_, rfl⟩

/-- An outcome of `act` that goes on leaves the waiting commands. -/
theorem act_next_pending {ok : Bool} {t u : State} (h : act ok s t = .next u) : u.pending = s.pending := by
  cases ok with
  | true => rw [act_true] at h; cases h; rfl
  | false => cases h

theorem exec_of_not_wf {c : Instr} (h : c.wf = false) : exec c s = .fault .noSuchUnit := by
  obtain ⟨t, ht⟩ := exec_eq_act c s
  rw [ht, h]
  rfl

theorem exec_of_wf {c : Instr} (h : c.wf = true) : ∃ t, exec c s = .next t := by
  obtain ⟨t, ht⟩ := exec_eq_act c s
  exact ⟨_, by rw [ht, h, act_true]⟩

theorem exec_next_iff_wf {c : Instr} : (∃ t, exec c s = .next t) ↔ c.wf = true := by
  refine ⟨fun ⟨t, ht⟩ => ?_, exec_of_wf⟩
  cases hw : c.wf with
  | true => rfl
  | false => rw [exec_of_not_wf hw] at ht; cases ht

/-- No command reaches the queue (log entry 5). -/
theorem exec_next_pending {c : Instr} {t : State} (h : exec c s = .next t) : t.pending = s.pending := by
  obtain ⟨u, hu⟩ := exec_eq_act c s
  exact act_next_pending (hu.symm.trans h)

/-- Settles O3: `act` goes on exactly where its check holds, and stops with `noSuchUnit` elsewhere. -/
theorem commandsComplete : Obligations.CommandsComplete :=
  fun _ _ => ⟨exec_next_iff_wf, exec_of_not_wf⟩

theorem step_safe (hq : ∀ c ∈ s.pending, c.wf = true) : Safe s := by
  unfold Safe step
  split
  · rfl
  · next c rest hp =>
    obtain ⟨t, ht⟩ := exec_of_wf (s := { s with pending := rest }) (hq c (by simp [hp]))
    rw [ht]
    rfl

theorem step_next_pending {t : State} (h : step s = .next t) : t.pending = s.pending.tail := by
  unfold step at h
  split at h
  · next hp => cases h; rw [hp]; rfl
  · next c rest hp => rw [exec_next_pending h, hp]; rfl

/-- Settles O4: a step leaves the tail of the queue, whose commands were waiting before. -/
theorem queueStaysWellFormed : Obligations.QueueStaysWellFormed := by
  refine fun s hq => ⟨step_safe hq, fun t h => ?_⟩
  have hp := step_next_pending h
  exact ⟨fun c hc => hq c (List.mem_of_mem_tail (hp ▸ hc)), hp⟩

/-! ### The frame of every command -/

/-- A list of parts as a set of parts in the form that `Fr` takes, one bit a part. -/
def partBits : List Part → Nat
  | [] => 0
  | p :: ps => 2 ^ p.code ||| partBits ps

theorem Part.code_injective : Function.Injective Part.code :=
  Function.LeftInverse.injective (g := Part.ofNat) fun p => by cases p <;> rfl

theorem testBit_partBits_of_notMem {p : Part} {ps : List Part} (h : p ∉ ps) : (partBits ps).testBit p.code = false := by
  induction ps with
  | nil => exact Nat.zero_testBit _
  | cons q qs ih =>
    rw [List.mem_cons, not_or] at h
    obtain ⟨hq, hqs⟩ := h
    have hc : q.code ≠ p.code := fun e => hq (Part.code_injective e).symm
    rw [partBits, Nat.testBit_or, ih hqs, Nat.testBit_two_pow_of_ne hc]
    rfl

/-- The frame of each row, by the frame lemma of what the row carries out. -/
theorem exec_frame (c : Instr) (s : State) : FrX (partBits (mayChange c)) s (exec c s) := by
  cases c with
  | bar0LowRead => exact execBar0LowRead_frame
  | bar0HighRead => exact execBar0HighRead_frame
  | registerWrite => exact execRegisterWrite_frame
  | rndSrcSet => exact execRndSrcSet_frame
  | rndEnableSet => exact execRndEnableSet_frame
  | rndLock => exact execRndLock_frame
  | rndLenSet => exact execRndLenSet_frame
  | rndNumSet => exact execRndNumSet_frame
  | budShareWrite => exact execBudShareWrite_frame
  | mbGo => exact execMbGo_frame
  | mbAck => exact execMbAck_frame
  | hoopJoin => exact execHoopJoin_frame
  | hoopBypassReq => exact execHoopBypassReq_frame
  | hoopLock => exact execHoopLock_frame
  | gtimeWrite => exact execGtimeWrite_frame
  | portEnable => exact execPortEnable_frame
  | portLock => exact execPortLock_frame
  | blkRstGo => exact execBlkRstGo_frame
  | eventHeadWrite => exact execEventHeadWrite_frame
  | sqTail => exact execSqTail_frame
  | cqHead => exact execCqHead_frame
  | rqTail => exact execRqTail_frame
  | apertureAccess => exact execApertureAccess_frame
  | ldw => exact execLdw_frame
  | ldwDataArrived => exact execLdwDataArrived_frame
  | stw => exact execStw_frame
  | stwAccepted => exact execStwAccepted_frame
  | mov => exact execMov_frame
  | vld => exact execVld_frame
  | vst => exact execVst_frame
  | tbw => exact execTbw_frame
  | put => exact execPut_frame
  | putDelivered => exact execPutDelivered_frame
  | mma => exact execMma_frame
  | slr => exact execSlr_frame
  | beatWriteback => exact execBeatWriteback_frame
  | drn => exact execDrn_frame
  | tsv => exact execTsv_frame
  | tld => exact execTld_frame
  | tzr => exact execTzr_frame
  | nop => exact execNop_frame
  | syn => exact execSyn_frame
  | synTimeout => exact execSynTimeout_frame
  | sig => exact execSig_frame
  | rcl => exact execRcl_frame
  | endBlock => exact execEndBlock_frame
  | blockLoad => exact execBlockLoad_frame
  | vmov => exact execVmov_frame
  | vadd => exact execVadd_frame
  | vsub => exact execVsub_frame
  | vmul => exact execVmul_frame
  | vfma => exact execVfma_frame
  | vmax => exact execVmax_frame
  | vmin => exact execVmin_frame
  | vabs => exact execVabs_frame
  | vneg => exact execVneg_frame
  | vrcp => exact execVrcp_frame
  | vrsq => exact execVrsq_frame
  | vexp2 => exact execVexp2_frame
  | vceq => exact execVceq_frame
  | vcgt => exact execVcgt_frame
  | vcge => exact execVcge_frame
  | vsel => exact execVsel_frame
  | vcvt => exact execVcvt_frame
  | vqnt => exact execVqnt_frame
  | vrsum => exact execVrsum_frame
  | vrmax => exact execVrmax_frame
  | viadd => exact execViadd_frame
  | visub => exact execVisub_frame
  | vimul => exact execVimul_frame
  | vshl => exact execVshl_frame
  | vshr => exact execVshr_frame
  | vand => exact execVand_frame
  | vor => exact execVor_frame
  | vxor => exact execVxor_frame
  | vimax => exact execVimax_frame
  | vimin => exact execVimin_frame
  | tlk => exact execTlk_frame
  | tlkn => exact execTlkn_frame
  | tlkm => exact execTlkm_frame
  | attn => exact execAttn_frame
  | gemv => exact execGemv_frame
  | adamw => exact execAdamw_frame
  | sgdm => exact execSgdm_frame
  | acc => exact execAcc_frame
  | ulistTimeout => exact execUlistTimeout_frame
  | roundTick => exact execRoundTick_frame
  | weaverHeatDecay => exact execWeaverHeatDecay_frame
  | stakeUseDecay => exact execStakeUseDecay_frame
  | frameHeatDecay => exact execFrameHeatDecay_frame
  | genClose => exact execGenClose_frame
  | parkTimeout => exact execParkTimeout_frame
  | unitAdmit => exact execUnitAdmit_frame
  | localTick => exact execLocalTick_frame
  | tickFrameSend => exact execTickFrameSend_frame
  | tickFrameReceive => exact execTickFrameReceive_frame
  | holdoverEntry => exact execHoldoverEntry_frame
  | holdoverTick => exact execHoldoverTick_frame
  | isolatedEntry => exact execIsolatedEntry_frame
  | mgmtFrameReceive => exact execMgmtFrameReceive_frame
  | present src rnd => exact execPresent_frame (x1 := rnd)
  | stakeReady => exact execStakeReady_frame
  | stakeGo => exact execStakeGo_frame
  | stakeAbortMsg => exact execStakeAbortMsg_frame
  | stakeCurrent => exact execStakeCurrent_frame
  | commitAnnounce => exact execCommitAnnounce_frame
  | bypassSwitch => exact execBypassSwitch_frame
  | bypassForcedClose => exact execBypassForcedClose_frame
  | waleData => exact execWaleData_frame
  | waleAck => exact execWaleAck_frame
  | waleNak => exact execWaleNak_frame
  | waleOpen => exact execWaleOpen_frame
  | waleOpenAck => exact execWaleOpenAck_frame
  | waleClose => exact execWaleClose_frame
  | waleAckTimer => exact execWaleAckTimer_frame
  | waleResendTimeout => exact execWaleResendTimeout_frame
  | segmentTableReceive => exact execSegmentTableReceive_frame
  | twineResult => exact execTwineResult_frame
  | twineBounce => exact execTwineBounce_frame
  | twineProbeReply => exact execTwineProbeReply_frame
  | probeTimeout => exact execProbeTimeout_frame
  | pieceLost => exact execPieceLost_frame
  | ringContrib => exact execRingContrib_frame
  | bucketSend => exact execBucketSend_frame
  | bucketLate => exact execBucketLate_frame
  | ownerReport => exact execOwnerReport_frame
  | verdict => exact execVerdict_frame
  | workingCopyShard => exact execWorkingCopyShard_frame
  | publish => exact execPublish_frame
  | publishApply => exact execPublishApply_frame
  | stepLedger => exact execStepLedger_frame
  | memberSilence => exact execMemberSilence_frame
  | learningStepStart => exact execLearningStepStart_frame
  | peerShardRequest => exact execPeerShardRequest_frame
  | buildShardFetched => exact execBuildShardFetched_frame
  | peerShardTimeout => exact execPeerShardTimeout_frame
  | carryCheck => exact execCarryCheck_frame
  | weaverShardFetched => exact execWeaverShardFetched_frame
  | frameFillDone => exact execFrameFillDone_frame
  | promotionDone => exact execPromotionDone_frame
  | evictionDone => exact execEvictionDone_frame
  | frameZeroDone => exact execFrameZeroDone_frame
  | cleaningPassDone => exact execCleaningPassDone_frame
  | weaverRemoveComplete => exact execWeaverRemoveComplete_frame
  | patrolScrub => exact execPatrolScrub_frame
  | hbmUncorrectable => exact execHbmUncorrectable_frame
  | slowTierPoison => exact execSlowTierPoison_frame
  | repairSourceTimeout => exact execRepairSourceTimeout_frame
  | repairDone => exact execRepairDone_frame
  | poisonHoldExpiry => exact execPoisonHoldExpiry_frame
  | cellFailure => exact execCellFailure_frame
  | spareLoadDone => exact execSpareLoadDone_frame
  | cellSaveDone => exact execCellSaveDone_frame
  | restoreCheck => exact execRestoreCheck_frame
  | bankZeroDone => exact execBankZeroDone_frame
  | flitReplayFail => exact execFlitReplayFail_frame
  | linkRetrainDone => exact execLinkRetrainDone_frame
  | fabricFailed => exact execFabricFailed_frame
  | sramUncorrectable => exact execSramUncorrectable_frame
  | slathEngineFault => exact execSlathEngineFault_frame
  | migrationEngineFault => exact execMigrationEngineFault_frame
  | copyEngineFault => exact execCopyEngineFault_frame
  | firmwareWatchdog => exact execFirmwareWatchdog_frame
  | lidSelfCheckFail => exact execLidSelfCheckFail_frame
  | linkDown => exact execLinkDown_frame
  | cxlIdeLoss => exact execCxlIdeLoss_frame
  | cxlIdeReturn => exact execCxlIdeReturn_frame
  | ethFrameReceive => exact execEthFrameReceive_frame
  | pfcFrame => exact execPfcFrame_frame
  | pfcXonSend => exact execPfcXonSend_frame
  | pauseFrame => exact execPauseFrame_frame
  | mkaFrame => exact execMkaFrame_frame
  | neighborSolicitation => exact execNeighborSolicitation_frame
  | echoRequest => exact execEchoRequest_frame
  | arpRequest => exact execArpRequest_frame
  | rocePacket => exact execRocePacket_frame
  | cnp => exact execCnp_frame
  | roceRateRestore => exact execRoceRateRestore_frame
  | descNop => exact execDescNop_frame
  | copy => exact execCopy_frame
  | copyBurst => exact execCopyBurst_frame
  | serve => exact execServe_frame
  | courseComplete => exact execCourseComplete_frame
  | send => exact execSend_frame
  | sendWithImmediate => exact execSendWithImmediate_frame
  | rdmaWrite => exact execRdmaWrite_frame
  | rdmaWriteWithImmediate => exact execRdmaWriteWithImmediate_frame
  | rdmaRead => exact execRdmaRead_frame
  | recv => exact execRecv_frame
  | pathFenceRead => exact execPathFenceRead_frame
  | cqStalled => exact execCqStalled_frame
  | dlDown => exact execDlDown_frame
  | bmeRestored => exact execBmeRestored_frame
  | flr => exact execFlr_frame
  | perstAssert => exact execPerstAssert_frame
  | pcieHotReset => exact execPcieHotReset_frame
  | warmReset => exact execWarmReset_frame
  | lidReset => exact execLidReset_frame
  | pwrokCycle => exact execPwrokCycle_frame
  | vaonPowerOn => exact execVaonPowerOn_frame
  | deviceReady => exact execDeviceReady_frame
  | fwFallback => exact execFwFallback_frame
  | railDip => exact execRailDip_frame
  | dipRecovered => exact execDipRecovered_frame
  | dipTimeout => exact execDipTimeout_frame
  | railUvReset => exact execRailUvReset_frame
  | d3coldEntry => exact execD3coldEntry_frame
  | d3coldWindowExpiry => exact execD3coldWindowExpiry_frame
  | mainPowerReturn => exact execMainPowerReturn_frame
  | refclkLoss => exact execRefclkLoss_frame
  | refclkRestore => exact execRefclkRestore_frame
  | clockLoopEval => exact execClockLoopEval_frame
  | vrcAckRelease => exact execVrcAckRelease_frame
  | thermalThrottle => exact execThermalThrottle_frame
  | powerOverTdp => exact execPowerOverTdp_frame
  | thermalTrip => exact execThermalTrip_frame
  | blkIdleWaitEnd => exact execBlkIdleWaitEnd_frame
  | blockRelease => exact execBlockRelease_frame
  | shelfEntry => exact execShelfEntry_frame
  | shelfExitReady => exact execShelfExitReady_frame
  | pmcsrD3hot => exact execPmcsrD3hot_frame
  | pmcsrD0 => exact execPmcsrD0_frame
  | ideInsecure => exact execIdeInsecure_frame
  | jtagInstruction => exact execJtagInstruction_frame
  | getMeasurements => exact execGetMeasurements_frame
  | ideKm => exact execIdeKm_frame
  | keyRelease => exact execKeyRelease_frame
  | keyRevoke => exact execKeyRevoke_frame
  | consentSet => exact execConsentSet_frame
  | operatorSet => exact execOperatorSet_frame
  | policySet => exact execPolicySet_frame
  | debugUnlock => exact execDebugUnlock_frame
  | removalDrain => exact execRemovalDrain_frame
  | forcedAbort => exact execForcedAbort_frame
  | keyZeroiseDone => exact execKeyZeroiseDone_frame
  | contextScrubDone => exact execContextScrubDone_frame
  | devCaps => exact execDevCaps_frame
  | deviceReset => exact execDeviceReset_frame
  | portAddrSet => exact execPortAddrSet_frame
  | channelAssign => exact execChannelAssign_frame
  | fwStage => exact execFwStage_frame
  | fwActivate => exact execFwActivate_frame
  | fwQuery => exact execFwQuery_frame
  | ctxCreate => exact execCtxCreate_frame
  | ctxSet => exact execCtxSet_frame
  | ctxQuery => exact execCtxQuery_frame
  | ctxRemove => exact execCtxRemove_frame
  | ctxReset => exact execCtxReset_frame
  | qpBlockAlloc => exact execQpBlockAlloc_frame
  | qpBlockFree => exact execQpBlockFree_frame
  | qpCreate => exact execQpCreate_frame
  | qpDestroy => exact execQpDestroy_frame
  | qpQuery => exact execQpQuery_frame
  | qpRearm => exact execQpRearm_frame
  | qpUndelivered => exact execQpUndelivered_frame
  | qpRedeliver => exact execQpRedeliver_frame
  | eventRingSet => exact execEventRingSet_frame
  | apertureBind => exact execApertureBind_frame
  | apertureUnbind => exact execApertureUnbind_frame
  | mrRegister => exact execMrRegister_frame
  | mrDeregister => exact execMrDeregister_frame
  | ahSet => exact execAhSet_frame
  | weaverRegister => exact execWeaverRegister_frame
  | weaverPrefetch => exact execWeaverPrefetch_frame
  | weaverPin => exact execWeaverPin_frame
  | weaverQuery => exact execWeaverQuery_frame
  | weaverRemove => exact execWeaverRemove_frame
  | sideClaim => exact execSideClaim_frame
  | sideRelease => exact execSideRelease_frame
  | sideQuery => exact execSideQuery_frame
  | stakeRegister => exact execStakeRegister_frame
  | stakeBuild => exact execStakeBuild_frame
  | stakeCommit => exact execStakeCommit_frame
  | stakeAbort => exact execStakeAbort_frame
  | stakeQuery => exact execStakeQuery_frame
  | stakeEvict => exact execStakeEvict_frame
  | stakeCarryQuery => exact execStakeCarryQuery_frame
  | memRegionRegister => exact execMemRegionRegister_frame
  | memRegionRemove => exact execMemRegionRemove_frame
  | memSlowConfig => exact execMemSlowConfig_frame
  | memMap => exact execMemMap_frame
  | memUnmap => exact execMemUnmap_frame
  | memQuotaSet => exact execMemQuotaSet_frame
  | memPolicySet => exact execMemPolicySet_frame
  | memEvict => exact execMemEvict_frame
  | memPin => exact execMemPin_frame
  | memFlush => exact execMemFlush_frame
  | memQuery => exact execMemQuery_frame
  | memPoisonQuery => exact execMemPoisonQuery_frame
  | trainJobStart => exact execTrainJobStart_frame
  | trainJobStop => exact execTrainJobStop_frame
  | trainJobQuery => exact execTrainJobQuery_frame
  | trainFeedback => exact execTrainFeedback_frame
  | trainLearnPolicy => exact execTrainLearnPolicy_frame
  | twineProbe => exact execTwineProbe_frame
  | keyQuery => exact execKeyQuery_frame
  | debugRequest => exact execDebugRequest_frame
  | debugRelease => exact execDebugRelease_frame
  | faultQuery => exact execFaultQuery_frame
  | journalRead => exact execJournalRead_frame
  | powerLimitSet => exact execPowerLimitSet_frame
  | powerStateSet => exact execPowerStateSet_frame
  | powerQuery => exact execPowerQuery_frame
  | linkUp => exact execLinkUp_frame
  | perstDeassert => exact execPerstDeassert_frame
  | hoopRxLockChange => exact execHoopRxLockChange_frame
  | keyExchange => exact execKeyExchange_frame
  | spdmHeartbeatTimeout => exact execSpdmHeartbeatTimeout_frame
  | evtModExpiry => exact execEvtModExpiry_frame
  | roceAckTimeout => exact execRoceAckTimeout_frame
  | pcieCompletionTimeout => exact execPcieCompletionTimeout_frame
  | residencyReport => exact execResidencyReport_frame
  | carryOutcome => exact execCarryOutcome_frame
  | vrcAckTimeout => exact execVrcAckTimeout_frame
  | vfEnable => exact execVfEnable_frame
  | atsInvalidation => exact execAtsInvalidation_frame
  | requestBufferWrite => exact execRequestBufferWrite_frame
  | upsettImageStage => exact execUpsettImageStage_frame

/-- Settles O6: a part outside the row's list has no bit in the row's frame. -/
theorem everyCommandFrame : Obligations.EveryCommandFrame :=
  fun c s t h _ hp => ((exec_frame c s).out t h).same _ (testBit_partBits_of_notMem hp)

end Sys2Proof.Machine
end

section
/-! PROOFS. The integers of R106 and the vector instructions that give them: what an integer destination holds, what an element-wise
instruction writes, and from these the statements about integer ranges and integer element-wise instructions. -/

namespace Sys2Proof.Machine

/-! ### Integer destinations (R106) -/

/-- The value that the encoding `n` of a `w`-bit integer stands for (R92). -/
def intVal (w : Nat) (signed : Bool) (n : Nat) : Int := if signed then signedOf w n else n

theorem ofNat_two_pow (k : Nat) : Int.ofNat (2 ^ k) = 2 ^ k := Int.natCast_pow 2 k

theorem two_pow_pos (w : Nat) : (0 : Int) < 2 ^ w := Int.pow_pos (by decide)

theorem two_pow_eq_add_half {w : Nat} (hw : 1 ≤ w) : (2 : Int) ^ w = 2 ^ (w - 1) + 2 ^ (w - 1) := by
  obtain ⟨k, rfl⟩ := Nat.exists_eq_add_of_le' hw
  rw [Nat.add_sub_cancel, Int.pow_succ]
  omega

theorem intMin_eq (w : Nat) (signed : Bool) : intMin w signed = if signed then -(2 ^ (w - 1)) else 0 := by
  rw [intMin, ofNat_two_pow]

theorem intMax_eq (w : Nat) (signed : Bool) : intMax w signed = if signed then 2 ^ (w - 1) - 1 else 2 ^ w - 1 := by
  rw [intMax, ofNat_two_pow, ofNat_two_pow]

/-- A `w`-bit range holds each residue modulo `2 ^ w` once. -/
theorem intMax_eq_intMin_add {w : Nat} (hw : 1 ≤ w) (signed : Bool) : intMax w signed = intMin w signed + 2 ^ w - 1 := by
  have hp := two_pow_eq_add_half hw
  rw [intMin_eq, intMax_eq]
  split <;> omega

/-- The encoding of an integer result is the residue of the result, clamped first under SAT. -/
theorem intBits_cast (w : Nat) (signed sat : Bool) (v : Int) :
    (intBits w signed sat v : Int) = (if sat then max (intMin w signed) (min (intMax w signed) v) else v) % 2 ^ w := by
  rw [intBits, ofNat_two_pow]
  exact Int.toNat_of_nonneg (Int.emod_nonneg _ (Int.ne_of_gt (two_pow_pos w)))

theorem intBits_lt (w : Nat) (signed sat : Bool) (v : Int) : intBits w signed sat v < 2 ^ w := by
  have h := Int.emod_lt_of_pos (if sat then max (intMin w signed) (min (intMax w signed) v) else v) (two_pow_pos w)
  rw [← intBits_cast, ← ofNat_two_pow] at h
  exact Int.ofNat_lt.1 h

/-- Two's complement is the residue balanced around zero. -/
theorem signedOf_eq_bmod {w : Nat} (hw : 1 ≤ w) (n : Nat) : signedOf w n = Int.bmod n (2 ^ w) := by
  obtain ⟨k, rfl⟩ := Nat.exists_eq_add_of_le' hw
  have hh : (((2 ^ (k + 1) : Nat) : Int) + 1) / 2 = (2 ^ k : Nat) := by rw [Nat.pow_succ]; omega
  have hm : (n : Int) % (2 ^ (k + 1) : Nat) = (n % 2 ^ (k + 1) : Nat) := (Int.natCast_emod _ _).symm
  simp only [signedOf, Int.bmod, Nat.add_sub_cancel, hm, hh, Int.ofNat_eq_natCast, Int.ofNat_lt]

theorem intVal_emod {w : Nat} (hw : 1 ≤ w) (signed : Bool) (n : Nat) : intVal w signed n % 2 ^ w = n % 2 ^ w := by
  cases signed with
  | false => rfl
  | true =>
    rw [intVal, if_pos rfl, signedOf_eq_bmod hw, ← ofNat_two_pow]
    exact Int.bmod_emod

theorem intVal_mem_range {w n : Nat} (hw : 1 ≤ w) (signed : Bool) (hn : n < 2 ^ w) :
    intMin w signed ≤ intVal w signed n ∧ intVal w signed n ≤ intMax w signed := by
  have hp := two_pow_eq_add_half hw
  rw [intMin_eq, intMax_eq]
  cases signed with
  | false =>
    have hn' : (n : Int) < 2 ^ w := by rw [← ofNat_two_pow]; exact Int.ofNat_lt.2 hn
    exact ⟨Int.natCast_nonneg n, Int.le_sub_one_of_lt hn'⟩
  | true =>
    have hle := Int.le_bmod (x := n) (Nat.two_pow_pos w)
    have hlt := Int.bmod_lt (x := n) (Nat.two_pow_pos w)
    rw [← Int.ofNat_eq_natCast (2 ^ w), ofNat_two_pow] at hle hlt
    rw [intVal, if_pos rfl, if_pos rfl, if_pos rfl, signedOf_eq_bmod hw]
    omega

/-- Of the values congruent modulo `2 ^ w`, one lies in the destination's range. -/
theorem eq_of_emod_eq_of_mem_range {w : Nat} (hw : 1 ≤ w) {signed : Bool} {a b : Int} (h : a % 2 ^ w = b % 2 ^ w)
    (ha : intMin w signed ≤ a ∧ a ≤ intMax w signed) (hb : intMin w signed ≤ b ∧ b ≤ intMax w signed) : a = b := by
  have hm := intMax_eq_intMin_add hw signed
  have hs : (a - intMin w signed) % 2 ^ w = (b - intMin w signed) % 2 ^ w := by rw [Int.sub_emod, h, ← Int.sub_emod]
  rw [Int.emod_eq_of_lt (by omega) (by omega), Int.emod_eq_of_lt (by omega) (by omega)] at hs
  omega

theorem intVal_intBits_mem_range {w : Nat} (hw : 1 ≤ w) (signed sat : Bool) (v : Int) :
    intMin w signed ≤ intVal w signed (intBits w signed sat v) ∧ intVal w signed (intBits w signed sat v) ≤ intMax w signed :=
  intVal_mem_range hw signed (intBits_lt w signed sat v)

/-- With SAT 0 the destination's value is congruent to the result. -/
theorem intVal_intBits_wrap {w : Nat} (hw : 1 ≤ w) (signed : Bool) (v : Int) :
    intVal w signed (intBits w signed false v) % 2 ^ w = v % 2 ^ w := by
  rw [intVal_emod hw, intBits_cast, if_neg Bool.false_ne_true]
  exact Int.emod_emod_of_dvd v (Int.dvd_refl _)

/-- With SAT 1 the destination's value is the result clamped to the range. -/
theorem intVal_intBits_sat {w : Nat} (hw : 1 ≤ w) (signed : Bool) (v : Int) :
    intVal w signed (intBits w signed true v) = max (intMin w signed) (min (intMax w signed) v) := by
  have hm := intMax_eq_intMin_add hw signed
  have hp := two_pow_pos w
  refine eq_of_emod_eq_of_mem_range hw ?_ (intVal_intBits_mem_range hw signed true v) ⟨by omega, by omega⟩
  rw [intVal_emod hw, intBits_cast, if_pos rfl]
  exact Int.emod_emod_of_dvd _ (Int.dvd_refl _)

/-- A result within the destination's range is held as it is. -/
theorem intVal_intBits_of_mem_range {w : Nat} (hw : 1 ≤ w) {signed : Bool} (sat : Bool) {v : Int}
    (hv : intMin w signed ≤ v ∧ v ≤ intMax w signed) : intVal w signed (intBits w signed sat v) = v := by
  cases sat with
  | false => exact eq_of_emod_eq_of_mem_range hw (intVal_intBits_wrap hw signed v) (intVal_intBits_mem_range hw signed false v) hv
  | true => rw [intVal_intBits_sat hw]; omega

/-- Settles O8: the value within the range, the clamped value under SAT, and the congruent one without. -/
theorem integerRange : Obligations.IntegerRange := by
  intro w signed sat v hw
  have hm := intMax_eq_intMin_add hw signed
  have hp := two_pow_pos w
  simp only [← intMin_eq, ← intMax_eq]
  obtain ⟨hlo, hhi⟩ := intVal_intBits_mem_range hw signed sat v
  refine ⟨intBits_lt w signed sat v, hlo, hhi, fun h1 h2 => intVal_intBits_of_mem_range hw sat ⟨h1, h2⟩, ?_, ?_⟩
  · rintro rfl
    have hs := intVal_intBits_sat hw signed v
    exact ⟨fun h => hs.trans (by omega), fun h => hs.trans (by omega)⟩
  · rintro rfl
    exact intVal_intBits_wrap hw signed v

/-! ### Element-wise instructions (R111) -/

section
variable {s : State} {opc lc : Nat} {st : Strm} {f : CellWord} {p : Site} {c : Instr} {body : Site → Cell → Option Effect}
  {fmts rounds slow : Bool} {g : Nat → Nat}

/-- The result of element `i` of the first `n`. -/
theorem getElem?_map_range (n : Nat) (g : Nat → Nat) (i : Nat) :
    ((List.range n).map g)[i]? = if i < n then some (g i) else none := by
  rw [List.getElem?_map]
  split
  · next h => rw [List.getElem?_range h]; rfl
  · next h => rw [List.getElem?_eq_none (by rw [List.length_range]; omega)]; rfl

/-- An element-wise instruction with legal formats, count and reserved bits has an effect. -/
theorem elementwise_eq_some (hf : fmts = true) (hv : VecOk p) (d : Cell) :
    elementwise fmts rounds slow g p d = some
      { cell := d.setVreg p.vd ((d.vreg p.vd).write 0 ((List.range p.cnt).map g))
        cycles := ceilDiv p.cnt 64 * (if slow then 2 else 1), report := rounds && p.badRm } := by
  obtain ⟨h1, h2, h3⟩ := hv
  have hc : ¬ ((!fmts) = true ∨ p.cnt = 0 ∨ 4096 < p.cnt ∨ p.op 6 3 ≠ 0) := by
    simp only [hf, h3, Bool.not_true, Bool.false_eq_true, ne_eq, not_true_eq_false, or_false, false_or]
    omega
  exact if_neg hc

/-- An element-wise instruction writes its results to elements 0 to CNT − 1 of VD, each group in one cell cycle, or two where it is slow
(R111, R115). -/
theorem elementwise_answers (hx : exec c s = act (okCell lc) s (s.issueCell opc lc st f body)) (ha : opAssigned opc = true)
    (hb : body p (s.cell lc) = elementwise fmts rounds slow g p (s.cell lc)) (hf : fmts = true) (hv : VecOk p)
    (h : Stands opc lc st f p s) :
    CellAnswers c lc st (ceilDiv p.cnt 64 * (if slow then 2 else 1)) s fun d =>
      WritesVreg p.vd (s.cell lc) d fun i => if i < p.cnt then some (g i) else none := by
  refine issueCell_answers hx ha h (hb.trans (elementwise_eq_some hf hv _)) ?_ ?_
  · rw [stream_eq]
    cases st <;> exact ⟨rfl, rfl⟩
  · simp only [← getElem?_map_range]
    exact writesVreg_setVreg _ _ _ _ _

/-- The rows of R115 that take one cell cycle a group. -/
theorem elementwise_answers_one_cycle (hx : exec c s = act (okCell lc) s (s.issueCell opc lc st f body)) (ha : opAssigned opc = true)
    (hb : body p (s.cell lc) = elementwise fmts rounds false g p (s.cell lc)) (hf : fmts = true) (hv : VecOk p)
    (h : Stands opc lc st f p s) :
    CellAnswers c lc st (ceilDiv p.cnt 64) s fun d =>
      WritesVreg p.vd (s.cell lc) d fun i => if i < p.cnt then some (g i) else none := by
  have h1 := elementwise_answers hx ha hb hf hv h
  rwa [if_neg Bool.false_ne_true, Nat.mul_one] at h1

/-- VCVT at the formats that its word names (R112). -/
theorem vcvtEffect_eq {a b : Nat} (hab : p.fmts a b = true) (d : Cell) :
    vcvtEffect p d = elementwise ((a == 0 && b == 8) || (a == 8 && b == 0)) true false
      (fun i => convert b p.rm (p.u i) p.sat (decElem a (p.va d i))) p d := by
  simp only [Site.fmts, Bool.and_eq_true, beq_iff_eq] at hab
  obtain ⟨rfl, rfl⟩ := hab
  rfl

end

/-- Settles O17: every row is one element-wise instruction, with the result that R112 gives it and the formats that it takes. -/
theorem integerElementwise : Obligations.IntegerElementwise := by
  intro s lc st f p hv
  refine ⟨fun hf => ?_, ?_⟩
  · simp only [List.forall_mem_cons]
    refine ⟨?viadd, ?visub, ?vimul, ?vshl, ?vshr, ?vand, ?vor, ?vxor, ?vimax, ?vimin, fun _ h => absurd h List.not_mem_nil⟩
    case viadd | visub | vimul | vand | vor | vxor | vimax | vimin => exact elementwise_answers_one_cycle rfl (by decide) rfl hf hv
    case vshl | vshr => exact elementwise_answers_one_cycle (rounds := false) rfl (by decide) (by simp only [intOp, ofNat_two_pow]) hf hv
  · simp only [List.forall_mem_cons]
    refine ⟨?vceq, ?vcgt, ?vcge, ?vmov, ?vsel, ?toInt, ?toFloat, ?vqnt, fun _ h => absurd h List.not_mem_nil⟩
    case vceq | vcgt | vcge | vmov | vsel | vqnt => exact fun hf => elementwise_answers_one_cycle rfl (by decide) rfl hf hv
    case toInt | toFloat => exact fun hf => elementwise_answers_one_cycle rfl (by decide) (vcvtEffect_eq hf _) rfl hv

end Sys2Proof.Machine
end

section
/-! PROOFS. The floating vector instructions, the reductions and the table lookups: each kind of effect by the elements that it writes
to VD, and from these the statements about floating element-wise instructions and about reductions and lookups. -/

namespace Sys2Proof.Machine

section
variable {s : State} {opc lc : Nat} {st : Strm} {f : CellWord} {p : Site} {c : Instr} {body : Site → Cell → Option Effect}

/-- An effect that writes `xs` to VD from element 0 on, and nothing else, retires after its `n` cell cycles with VD written so. -/
theorem writeVd_answers {xs : List Nat} {n : Nat} {report : Bool}
    (hx : exec c s = act (okCell lc) s (s.issueCell opc lc st f body)) (ha : opAssigned opc = true)
    (hb : body p (s.cell lc) = some
      { cell := (s.cell lc).setVreg p.vd (((s.cell lc).vreg p.vd).write 0 xs), cycles := n, report := report })
    (h : Stands opc lc st f p s) :
    CellAnswers c lc st n s fun d => WritesVreg p.vd (s.cell lc) d fun i => xs[i]? := by
  refine issueCell_answers hx ha h hb ?_ (writesVreg_setVreg _ _ _ _ _)
  rw [stream_eq]
  cases st <;> exact ⟨rfl, rfl⟩

/-- The formats, the count and the reserved bits of a word that R111 and R118 let execute. -/
theorem not_refused {fmts : Bool} {n reserved : Nat} (hf : fmts = true) (h1 : 1 ≤ n) (h2 : n ≤ 4096) (h3 : reserved = 0) :
    ¬ ((!fmts) = true ∨ n = 0 ∨ 4096 < n ∨ reserved ≠ 0) := by
  simp only [hf, h3, Bool.not_true, Bool.false_eq_true, ne_eq, not_true_eq_false, or_false, false_or]
  omega

/-! ### Floating element-wise instructions (R112) -/

/-- A floating instruction on FP32 operands rounds each exact result once under RM (R112), in the cycles of R115. -/
theorem floatOp_answers {slow : Bool} {g : Nat → FVal} (hx : exec c s = act (okCell lc) s (s.issueCell opc lc st f body))
    (ha : opAssigned opc = true) (hb : body p (s.cell lc) = floatOp slow g p (s.cell lc)) (hf : p.fmts 0 0 = true) (hv : VecOk p)
    (h : Stands opc lc st f p s) :
    CellAnswers c lc st (ceilDiv p.cnt 64 * (if slow then 2 else 1)) s fun d =>
      WritesVreg p.vd (s.cell lc) d fun i => if i < p.cnt then some (roundF (ffmt 0) p.rm (p.u i) (g i)) else none :=
  elementwise_answers hx ha hb hf hv h

/-! ### Reductions (R114) -/

theorem fmts_iff {a b : Nat} : p.fmts a b = true ↔ p.f.fmta.toNat = a ∧ p.f.fmtb.toNat = b := by
  simp only [Site.fmts, Bool.and_eq_true, beq_iff_eq]

/-- FP32 for both operands, or INT32 for both, are the formats that R111 calls equal. -/
theorem same_of_fmts {a : Nat} (ha : a = 0 ∨ a = 8) (h : p.fmts a a = true) : p.same = true := by
  obtain ⟨h1, h2⟩ := fmts_iff.1 h
  have hab : p.f.fmta = p.f.fmtb := BitVec.eq_of_toNat_eq (h1.trans h2.symm)
  simpa [Site.same, hab, h2] using ha

/-- A reduction with legal formats, count and reserved bits has an effect. -/
theorem reduceOp_eq_some {g : Nat} (hs : p.same = true) (hv : VecOk p) (d : Cell) :
    reduceOp g p d = some { cell := d.setVreg p.vd ((d.vreg p.vd).write 0 [g]), cycles := ceilDiv p.cnt 64 } := by
  obtain ⟨h1, h2, h3⟩ := hv
  exact if_neg (not_refused hs h1 h2 h3)

/-- A reduction writes its result to element 0 of VD, one cell cycle a group (R114, R115). -/
theorem reduceOp_answers {g : Nat} (hx : exec c s = act (okCell lc) s (s.issueCell opc lc st f body)) (ha : opAssigned opc = true)
    (hb : body p (s.cell lc) = reduceOp g p (s.cell lc)) (hs : p.same = true) (hv : VecOk p) (h : Stands opc lc st f p s) :
    CellAnswers c lc st (ceilDiv p.cnt 64) s fun d =>
      WritesVreg p.vd (s.cell lc) d fun i => if i = 0 then some g else none := by
  simp only [← List.getElem?_singleton]
  exact writeVd_answers hx ha (hb.trans (reduceOp_eq_some hs hv _)) h

theorem vrsumEffect_fp32 (hf : p.fmts 0 0 = true) (d : Cell) :
    vrsumEffect p d = reduceOp (roundF (ffmt 0) 0 0 (reduceVec (fun a b => rnd32 (a.add b)) .zero p.cnt (p.fa d))) p d := by
  rw [vrsumEffect, if_pos (fmts_iff.1 hf).1]

theorem vrsumEffect_int32 (hf : p.fmts 8 8 = true) (d : Cell) :
    vrsumEffect p d = reduceOp (intBits 32 true p.sat (reduceVec (· + ·) 0 p.cnt fun i => int32 (p.va d i))) p d := by
  rw [vrsumEffect, (fmts_iff.1 hf).1, if_neg (by decide)]

theorem vrmaxEffect_fp32 (hf : p.fmts 0 0 = true) (d : Cell) :
    vrmaxEffect p d = reduceOp (roundF (ffmt 0) 0 0 (reduceVec maxV .zero p.cnt (p.fa d))) p d := by
  rw [vrmaxEffect, if_pos (fmts_iff.1 hf).1]

theorem vrmaxEffect_int32 (hf : p.fmts 8 8 = true) (d : Cell) :
    vrmaxEffect p d =
      reduceOp (intBits 32 true false (reduceVec max (int32 (p.va d 0)) p.cnt fun i => int32 (p.va d i))) p d := by
  rw [vrmaxEffect, (fmts_iff.1 hf).1, if_neg (by decide)]

/-! ### Table lookups (R118 to R121) -/

/-- The result of element `i`: TLKN's nearest entry, TLK's lookup, or under `times` TLKM's product of the input with it, rounded once. -/
def lookupElem (near times : Bool) (p : Site) (d : Cell) (t : LookupTable) (i : Nat) : Nat :=
  let x := p.fa d i
  let v := lookupAt t near x
  if near then roundF (ffmt 0) 0 0 v else roundF (ffmt 0) p.rm (p.u i) (if times then x.mul v else v)

/-- A lookup in a table that its word names, with legal formats, count and reserved bits, has an effect. -/
theorem lookupEffect_eq_some {near times : Bool} {d : Cell} {t : LookupTable} (ht : p.table d = some t) (hf : p.fmts 0 0 = true)
    (h1 : 1 ≤ p.cnt) (h2 : p.cnt ≤ 4096) (h3 : p.op 0 8 = 0) :
    lookupEffect near times p d = some
      { cell := d.setVreg p.vd ((d.vreg p.vd).write 0 ((List.range p.cnt).map (lookupElem near times p d t)))
        cycles := ceilDiv p.cnt 64, report := !near && p.badRm } := by
  simp only [lookupEffect, ht]
  exact if_neg (not_refused hf h1 h2 h3)

/-- A lookup writes its results to elements 0 to CNT − 1 of VD, one cell cycle a group. -/
theorem lookupEffect_answers {near times : Bool} {t : LookupTable}
    (hx : exec c s = act (okCell lc) s (s.issueCell opc lc st f (lookupEffect near times))) (ha : opAssigned opc = true)
    (ht : p.table (s.cell lc) = some t) (hf : p.fmts 0 0 = true) (h1 : 1 ≤ p.cnt) (h2 : p.cnt ≤ 4096) (h3 : p.op 0 8 = 0)
    (h : Stands opc lc st f p s) :
    CellAnswers c lc st (ceilDiv p.cnt 64) s fun d =>
      WritesVreg p.vd (s.cell lc) d fun i => if i < p.cnt then some (lookupElem near times p (s.cell lc) t i) else none := by
  simp only [← getElem?_map_range]
  exact writeVd_answers hx ha (lookupEffect_eq_some ht hf h1 h2 h3) h

end

/-- Settles O16: every row is one floating instruction, with the exact result that R112 and R113 give it and the cycles of R115. -/
theorem floatElementwise : Obligations.FloatElementwise := by
  intro s lc st f p hf hv
  simp only [List.forall_mem_cons]
  refine ⟨?vadd, ?vsub, ?vmul, ?vfma, ?vmax, ?vmin, ?vabs, ?vneg, ?vrcp, ?vrsq, ?vexp2, fun _ h => absurd h List.not_mem_nil⟩
  case vadd | vsub | vmul | vfma | vmax | vmin | vabs | vneg => exact floatOp_answers (slow := false) rfl (by decide) rfl hf hv
  case vrcp | vrsq | vexp2 => exact floatOp_answers (slow := true) rfl (by decide) rfl hf hv

/-- Settles O18: a reduction by its operands' format, a lookup by the element that it gives for its table. -/
theorem reductionsAndLookups : Obligations.ReductionsAndLookups := by
  intro s lc st f p
  refine ⟨fun hv => ?_, fun t ht hf h1 h2 h3 => ?_⟩
  · simp only [List.forall_mem_cons]
    refine ⟨?sumFp32, ?sumInt32, ?maxFp32, ?maxInt32, fun _ h => absurd h List.not_mem_nil⟩
    case sumFp32 => exact fun hf => reduceOp_answers rfl (by decide) (vrsumEffect_fp32 hf _) (same_of_fmts (.inl rfl) hf) hv
    case sumInt32 => exact fun hf => reduceOp_answers rfl (by decide) (vrsumEffect_int32 hf _) (same_of_fmts (.inr rfl) hf) hv
    case maxFp32 => exact fun hf => reduceOp_answers rfl (by decide) (vrmaxEffect_fp32 hf _) (same_of_fmts (.inl rfl) hf) hv
    case maxInt32 => exact fun hf => reduceOp_answers rfl (by decide) (vrmaxEffect_int32 hf _) (same_of_fmts (.inr rfl) hf) hv
  · simp only [List.forall_mem_cons]
    refine ⟨?tlk, ?tlkn, ?tlkm, fun _ h => absurd h List.not_mem_nil⟩
    case tlk => exact lookupEffect_answers (near := false) (times := false) rfl (by decide) ht hf h1 h2 h3
    case tlkn => exact lookupEffect_answers (near := true) (times := false) rfl (by decide) ht hf h1 h2 h3
    case tlkm => exact lookupEffect_answers (near := false) (times := true) rfl (by decide) ht hf h1 h2 h3

end Sys2Proof.Machine
end

section
/-! PROOFS. The rules that the proofs about weavers, sequences, contexts and jobs share: the parts outside a frame, what a row answers by
the frame of what it carries out, and what the completion of a sequence leaves of the weaver directory and of the fault journal. -/

namespace Sys2Proof.Machine

variable {s : State}

/-! ### Parts outside a frame -/

section
variable {m : Nat} {o : State} (h : Fr m o s)
include h

theorem Fr.out_eq (hb : m.testBit Part.out.code = false := by decide) : s.out = o.out := h.same .out hb
theorem Fr.rnd_eq (hb : m.testBit Part.rnd.code = false := by decide) : s.rnd = o.rnd := h.same .rnd hb
theorem Fr.weav_eq (hb : m.testBit Part.weav.code = false := by decide) : s.weav = o.weav := h.same .weav hb
theorem Fr.hbm_eq (hb : m.testBit Part.hbm.code = false := by decide) : s.mem.hbm = o.mem.hbm := h.same .hbm hb
theorem Fr.slow_eq (hb : m.testBit Part.slow.code = false := by decide) : s.mem.slow = o.mem.slow := h.same .slow hb
theorem Fr.train_eq (hb : m.testBit Part.train.code = false := by decide) : s.train = o.train := h.same .train hb
theorem Fr.host_eq (hb : m.testBit Part.host.code = false := by decide) : s.host = o.host := h.same .host hb
theorem Fr.mb_eq (hb : m.testBit Part.mb.code = false := by decide) : s.mb = o.mb := h.same .mb hb
theorem Fr.ctxs_eq (hb : m.testBit Part.ctxs.code = false := by decide) : s.ctxs = o.ctxs := h.same .ctxs hb
theorem Fr.lid_eq (hb : m.testBit Part.lid.code = false := by decide) : s.lid = o.lid := h.same .lid hb
theorem Fr.flt_eq (hb : m.testBit Part.flt.code = false := by decide) : s.flt = o.flt := h.same .flt hb

/-- A frame without the bytes of either tier and without the tables keeps the whole memory. -/
theorem Fr.mem_eq (hh : m.testBit Part.hbm.code = false := by decide) (hs : m.testBit Part.slow.code = false := by decide)
    (ht : m.testBit Part.tables.code = false := by decide) : s.mem = o.mem := by
  have hbm : s.mem.hbm = o.mem.hbm := h.same .hbm hh
  have slow : s.mem.slow = o.mem.slow := h.same .slow hs
  have tables : memTables s.mem = memTables o.mem := h.same .tables ht
  cases hsm : s.mem
  cases hom : o.mem
  rw [hsm, hom] at hbm slow tables
  cases hbm
  cases slow
  cases tables
  rfl

end

/-- A row that carries out an effect whose frame keeps the variant and the queue answers that effect. -/
theorem answers_of_frame {c : Instr} {ok : Bool} {t : State} {P : State → Prop} {m : Nat} (hx : exec c s = act ok s t) (hok : ok = true)
    (hf : Fr m s t) (hp : P t)
    (hm : m.testBit Part.variant.code = false ∧ m.testBit Part.pending.code = false := by decide) : Answers c s P :=
  ⟨t, hx.trans (act_of_frame hok hf hm), hp⟩

/-- A fold keeps what each of its steps keeps. -/
theorem each_keeps {α β : Type} (g : State → β) {f : α → State → State} (hf : ∀ x t, g (f x t) = g t) (xs : List α) (s : State) :
    g (s.each xs f) = g s := by
  induction xs generalizing s with
  | nil => rfl
  | cons x xs ih => exact (ih (f x s)).trans (hf x s)

/-! ### The fault journal -/

/-- A journal entry takes the next index (R435). -/
theorem journal_head (e : JEntry) : (s.journal e).flt.head = s.flt.head + 1 := by
  unfold State.journal
  dsimp only
  split
  · exact congrArg Flt.head (event_frame (Nat.or_self _) Fr.rfl).flt_eq
  · rfl

theorem summarize_head (x : Summary) : (s.summarize x).flt.head = s.flt.head := rfl

theorem record_head (qpn : Nat) (r : Rec) : (s.record qpn r).flt.head = s.flt.head :=
  congrArg Flt.head (record_frame (Nat.or_self _) Fr.rfl).flt_eq

theorem closeDesc_head (qpn : Nat) (d : DescS) (r : Rec) : (s.closeDesc qpn d r).flt.head = s.flt.head := by
  unfold State.closeDesc
  dsimp only
  split
  · rfl
  · rw [record_head]
    split <;> rfl

/-- The descriptors of a queue pair that end write no journal entry. -/
theorem endQueue_head (qpn status : Nat) (wait : Bool) : (s.endQueue qpn status wait).flt.head = s.flt.head :=
  each_keeps (fun t => t.flt.head) (fun _ _ => closeDesc_head ..) _ s

end Sys2Proof.Machine
end

section
/-! PROOFS. The removal of a context (R415, R416): its slot drains or is aborted and is zeroised, and the context becomes FREE. -/

namespace Sys2Proof.Machine

variable {s : State} {c : Nat}

theorem setKey_state (st : KState) : ((s.setKey c st).tkey c).state = st := by simp [State.setKey]

theorem setKey_gen (st : KState) : ((s.setKey c st).tkey c).gen = (s.tkey c).gen := by simp [State.setKey]

theorem setKey_forced (st : KState) : (s.setKey c st).lid.forced = s.lid.forced := rfl
theorem setKey_flt (st : KState) : (s.setKey c st).flt = s.flt := rfl
theorem setKey_mem (st : KState) : (s.setKey c st).mem = s.mem := rfl

theorem drain_eq (h1 : (s.ctx c).state = .revoking) (h2 : (s.tkey c).state = .revoked) :
    s.drain c = if inflightOf s c = 0 then s.setKey c .zeroising else s := by
  simp [State.drain, holdsBursts, h1, h2]

theorem zeroised_eq (h1 : (s.ctx c).state = .revoking) (h2 : (s.tkey c).state = .zeroising) :
    s.zeroised c = (s.modTkey c fun k => { gen := k.gen }).modCtx c fun c => { c with state := .scrubbing } := by
  simp [State.zeroised, h1, h2]

/-! ### The forced abort -/

/-- Whatever is in flight under a context's slot is aborted (R416). -/
def State.abortBursts (ctx : Nat) (s : State) : State :=
  let s := s.each (queuesOf s ctx) fun n s => s.endQueue n St.revoked false
  let s := s.each (keysWhere s.mem.frames fun _ e => !e.stakeKey && e.key == ctx && e.burst.isSome) State.endMove
  s.each (keysWhere s.weav.dir fun _ w => w.keySlot == ctx && w.burst.isSome) fun h s =>
    (s.dropMove (.fetch h)).modWeaver h fun w => { w with burst := none }

/-- One more forced abort is counted, and its journal entry written (R416). -/
def State.forcedNoted (ctx : Nat) (s : State) : State :=
  ({ s with lid := { s.lid with forced := sat 16 (s.lid.forced + 1) } }).journal
    { code := St.forcedAbort, cls := Cls.info, blk := Blk.lid, ctx := ctx }

/-- With bursts in flight two rounds after the removal began they are aborted, counted and journalled. -/
theorem forcedAbort_eq (h1 : (s.ctx c).state = .revoking) (h2 : (s.tkey c).state = .revoked) (hr : (s.ctx c).since + 2 ≤ boundaryRnd s)
    (hb : 0 < inflightOf s c) :
    s.forcedAbort c = ((s.abortBursts c).forcedNoted c).setKey c .zeroising := by
  have hh : holdsBursts s c = true := by simp [holdsBursts, Nat.ne_of_gt hb]
  simp [State.forcedAbort, h1, h2, hh, Nat.not_lt.mpr hr, State.abortBursts, State.forcedNoted]

theorem forcedNoted_forced : (s.forcedNoted c).lid.forced = sat 16 (s.lid.forced + 1) :=
  congrArg Lid.forced (journal_frame (Nat.or_self _) Fr.rfl).lid_eq

theorem forcedNoted_head : (s.forcedNoted c).flt.head = s.flt.head + 1 := journal_head _

theorem forcedNoted_mem : (s.forcedNoted c).mem = s.mem := (journal_frame (Nat.or_self _) Fr.rfl).mem_eq

theorem abortBursts_frame : Fr 35686536 s (s.abortBursts c) :=
  each_frame (fun _ _ h => modWeaver_frame (by decide) (dropMove_frame (by decide) h))
    (each_frame (fun _ _ h => endMove_frame (by decide) h) (each_frame (fun _ _ h => endQueue_frame (by decide) h) Fr.rfl))

theorem abortBursts_head : (s.abortBursts c).flt.head = s.flt.head :=
  (each_keeps (fun t => t.flt.head) (fun _ _ => by rfl) _ _).trans
    ((each_keeps (fun t => t.flt.head) (fun _ _ => by rfl) _ _).trans (each_keeps (fun t => t.flt.head) (fun _ _ => endQueue_head ..) _ s))

/-- An aborted move leaves the page tables. -/
theorem abortBursts_pte : (s.abortBursts c).mem.pte = s.mem.pte :=
  (each_keeps (fun t => t.mem.pte) (fun _ _ => by rfl) _ _).trans
    ((each_keeps (fun t => t.mem.pte) (fun _ _ => by rfl) _ _).trans
      (each_keeps (fun t => t.mem.pte) (fun _ _ => congrArg Mem.pte (endQueue_frame (Nat.or_self _) Fr.rfl).mem_eq) _ s))

theorem forcedAbort_answers (hc : c < 4096) (h1 : (s.ctx c).state = .revoking) (h2 : (s.tkey c).state = .revoked)
    (hr : (s.ctx c).since + 2 ≤ boundaryRnd s) (hb : 0 < inflightOf s c) :
    Answers (.forcedAbort c) s fun t => (t.tkey c).state = .zeroising ∧ t.lid.forced = sat 16 (s.lid.forced + 1) ∧
      s.flt.head + 1 ≤ t.flt.head ∧ t.mem.hbm = s.mem.hbm ∧ t.mem.slow = s.mem.slow ∧ t.mem.pte = s.mem.pte := by
  have hf : Fr _ s (s.forcedAbort c) := forcedAbort_frame (Nat.or_self _) Fr.rfl
  refine answers_of_frame rfl (decide_eq_true hc) hf ⟨?state, ?forced, ?head, hf.hbm_eq, hf.slow_eq, ?pte⟩
  all_goals rw [forcedAbort_eq h1 h2 hr hb]
  case state => exact setKey_state _
  case forced => rw [setKey_forced, forcedNoted_forced, abortBursts_frame.lid_eq]
  case head => exact Nat.le_of_eq (by rw [setKey_flt, forcedNoted_head, abortBursts_head])
  case pte => rw [setKey_mem, forcedNoted_mem, abortBursts_pte]

/-! ### The context becomes FREE -/

/-- Nothing is left of a context but what its removal owes (R415, step 8). -/
def State.contextGone (ctx : Nat) (s : State) : State :=
  { s with
    ctxs := drop s.ctxs ctx
    mem := { s.mem with acct := drop s.mem.acct ctx }
    weav := { s.weav with sessions := s.weav.sessions.filter fun p => p.1 / 2 ^ 32 != ctx }
    train := { s.train with jobs := s.train.jobs.filter fun p => p.2.ctx != ctx, learn := s.train.learn.filter fun p => p.2.ctx != ctx }
    crs := { s.crs with plans := s.crs.plans.filter fun p => p.1.1 != ctx } }

/-- With no frame charged to the context and no weaver of its in the directory the scrub is done. -/
theorem scrubDone_eq (h1 : (s.ctx c).state = .scrubbing) (h2 : (s.ctx c).unmapped = true) (h3 : chargedT1 s c = 0)
    (hw : ∀ p ∈ s.weav.dir, p.2.ctx ≠ c) : s.scrubDone c = (s.contextGone c).removalEnds c (s.ctx c) := by
  have hmine : keysWhere s.weav.dir (fun _ w => w.ctx == c && w.state != .free) = [] := by
    simpa [keysWhere] using fun k w hp hc => absurd hc (hw (k, w) hp)
  have hany : (s.weav.dir.any fun p => p.2.ctx == c && p.2.state != .free) = false := by
    simpa using fun k w hp hc => absurd hc (hw (k, w) hp)
  simp [State.scrubDone, h1, h2, h3, hmine, State.each, hany, State.contextGone]

theorem contextGone_ctx : (s.contextGone c).ctx c = {} := look_drop_eq _ _ _

theorem contextGone_ctx_ne {k : Nat} (hk : k ≠ c) : (s.contextGone c).ctx k = s.ctx k := look_drop_ne _ _ hk

theorem contextScrubDone_answers (hc : c < 4096) (h1 : (s.ctx c).state = .scrubbing) (h2 : (s.ctx c).unmapped = true)
    (h3 : chargedT1 s c = 0) (hw : ∀ p ∈ s.weav.dir, p.2.ctx ≠ c) :
    Answers (.contextScrubDone c) s fun t => t.ctx c = {} ∧ (∀ k, k ≠ c → t.ctx k = s.ctx k) ∧ (∀ j ∈ t.train.jobs, j.2.ctx ≠ c) ∧
      (∀ k ∈ t.weav.sessions, k.1 / 2 ^ 32 ≠ c) ∧
      (∀ m, (s.ctx c).why = some (.remove m) →
        ∃ u : State, u.host = s.host ∧ u.ctx c = {} ∧ t = u.finalRecord m St.ok (s.ctx c).scrubbed) := by
  have hf := removalEnds_frame (x0 := c) (x1 := s.ctx c) (Nat.or_self _) (Fr.rfl (o := s.contextGone c))
  refine answers_of_frame rfl (decide_eq_true hc) (scrubDone_frame (Nat.or_self _) Fr.rfl) ?_
  rw [scrubDone_eq h1 h2 h3 hw, hf.train_eq, hf.weav_eq]
  refine ⟨(ctx_of_ctxs _ hf.ctxs_eq).trans contextGone_ctx, fun k hk => (ctx_of_ctxs _ hf.ctxs_eq).trans (contextGone_ctx_ne hk), ?jobs, ?sessions,
    fun m hm => ⟨s.contextGone c, rfl, contextGone_ctx, by simp only [State.removalEnds, hm]⟩⟩
  case jobs => exact fun j hj => bne_iff_ne.mp (List.mem_filter.mp hj).2
  case sessions => exact fun k hk => bne_iff_ne.mp (List.mem_filter.mp hk).2

/-- Settles O52: the drain by whether a burst is in flight, the abort by what it aborts, and the last step by what `contextGone` takes away. -/
theorem contextRemoval : Obligations.ContextRemoval := by
  refine fun s c hc => ⟨fun h1 h2 h3 => ?drains, fun h1 h2 h3 => ?waits, forcedAbort_answers hc, fun h1 h2 => ?zeroised, contextScrubDone_answers hc⟩
  case drains =>
    refine answers_of_frame rfl (decide_eq_true hc) (drain_frame (Nat.or_self _) Fr.rfl) ?_
    rw [drain_eq h1 h2, if_pos h3]
    exact ⟨setKey_state _, setKey_gen _, rfl⟩
  case waits =>
    rw [show exec (.removalDrain c) s = act (okCtx c) s (s.drain c) from rfl, drain_eq h1 h2, if_neg (Nat.ne_of_gt h3)]
    exact act_ok (decide_eq_true hc) rfl rfl
  case zeroised =>
    refine answers_of_frame rfl (decide_eq_true hc) (zeroised_frame (Nat.or_self _) Fr.rfl) ?_
    rw [zeroised_eq h1 h2]
    have hk : ((s.modTkey c fun k => { gen := k.gen }).modCtx c fun c => { c with state := .scrubbing }).tkey c = { gen := (s.tkey c).gen } :=
      modTkey_read _ _ _
    exact ⟨hk, by simp, by rw [hk], by rw [hk], fun k hk => ⟨modTkey_read_ne _ _ _ hk, modCtx_read_ne _ _ _ hk⟩⟩

end Sys2Proof.Machine
end

section
/-! PROOFS. The end of a sequence: what it leaves of the weaver directory and of the fault journal. -/

namespace Sys2Proof.Machine

variable {s : State}

theorem weaver_of_dir {t : State} (h : t.weav.dir = s.weav.dir) (k : Nat) : t.weaver k = s.weaver k := by simp [State.weaver, h]

/-! ### No journal entry is written -/

theorem modDesc_head (qpn idx : Nat) (f : DescS → DescS) : (s.modDesc qpn idx f).flt.head = s.flt.head := rfl

theorem releaseTurn_head (qpn : Nat) : (s.releaseTurn qpn).flt.head = s.flt.head := by
  refine each_keeps (fun t => t.flt.head) (fun x t => ?_) _ s
  dsimp only
  cases x.ends with
  | none => rfl
  | some st =>
    dsimp only
    split
    · rfl
    · split
      · exact modDesc_head ..
      · exact closeDesc_head ..

theorem finishDesc_head (qpn : Nat) (d : DescS) (r : Rec) : (s.finishDesc qpn d r).flt.head = s.flt.head :=
  (releaseTurn_head _).trans (closeDesc_head ..)

theorem closeSeq_head (qpn : Nat) (d : DescS) (x : Rec) : (s.closeSeq qpn d x).flt.head = s.flt.head := by
  unfold State.closeSeq
  split
  · exact modDesc_head ..
  · exact finishDesc_head ..

theorem outDone_head (qpn idx : Nat) : (s.outDone qpn idx).flt.head = s.flt.head := by
  unfold State.outDone
  split
  · rfl
  · split
    · rfl
    · split
      · exact closeSeq_head ..
      · split
        · rfl
        · dsimp only
          split
          · rw [closeSeq_head, emit_flt, (translate_frame (Nat.or_self _) Fr.rfl).flt_eq, (readDva_frame (Nat.or_self _) Fr.rfl).flt_eq]
          · rw [closeSeq_head, (readDva_frame (Nat.or_self _) Fr.rfl).flt_eq]

theorem outStart_head (r : Seq) (d : DescS) (x : Rec) : (s.outStart r d x).flt.head = s.flt.head := by
  unfold State.outStart
  dsimp only
  split
  · exact closeSeq_head ..
  · rw [outDone_head, (pushMove_frame (Nat.or_self _) Fr.rfl).flt_eq, modDesc_head]

/-! ### What a sequence that ends leaves -/

section
variable {β : Type} {g : State → β} (hsess : ∀ t k f, g (State.modSession t k f) = g t)
include hsess

/-- What every write of a session keeps, the opening of a session keeps. -/
theorem openTurn_keeps (k : Nat) : g (s.openTurn k) = g s := by
  unfold State.openTurn
  split
  · rfl
  · split
    · exact hsess ..
    · rfl

/-- What the waiting sequences, the sessions and the descriptor of a sequence do not touch, its end keeps. -/
theorem finishSeq_keeps (hwait : ∀ (t : State) ws, g { t with crs := { t.crs with waiting := ws } } = g t)
    (hout : ∀ (t : State) r d x, g (t.outStart r d x) = g t) (r : Seq) (status gen wver rnd : Nat) :
    g (s.finishSeq r status gen wver rnd) = g s := by
  unfold State.finishSeq
  split
  · rfl
  · dsimp only
    rw [openTurn_keeps hsess]
    split
    all_goals simp only [hout, apply_ite g, State.closeSession, hsess, hwait, ite_self]

end

theorem closeSession_dir (k : Nat) : (s.closeSession k).weav.dir = s.weav.dir := rfl

theorem finishSeq_dir (r : Seq) (status gen wver rnd : Nat) : (s.finishSeq r status gen wver rnd).weav.dir = s.weav.dir :=
  finishSeq_keeps (g := fun t => t.weav.dir) (fun _ _ _ => rfl) (fun _ _ => rfl)
    (fun _ _ _ _ => congrArg Weav.dir (outStart_frame (Nat.or_self _) Fr.rfl).weav_eq) ..

theorem finishSeq_head (r : Seq) (status gen wver rnd : Nat) : (s.finishSeq r status gen wver rnd).flt.head = s.flt.head :=
  finishSeq_keeps (g := fun t => t.flt.head) (fun _ _ _ => rfl) (fun _ _ => rfl) (fun _ _ _ _ => outStart_head ..) ..

/-- A waiting sequence whose course is refused leaves the directory. -/
theorem dropSeq_dir (r : Seq) (status : Nat) : (s.dropSeq r status).weav.dir = s.weav.dir := finishSeq_dir ..

theorem dropSeq_head (r : Seq) (status : Nat) : (s.dropSeq r status).flt.head = s.flt.head := finishSeq_head ..

end Sys2Proof.Machine
end

section
/-! PROOFS. The rows that end a weaver's fetch, its removal and its carry-over check (R135, R189, R190). -/

namespace Sys2Proof.Machine

variable {s : State} {h : Nat}

/-! ### A shard that has been fetched -/

/-- Until its units are admitted a shard has not been read. -/
theorem shardFetched_waits (ok : Bool) (hm : moveLeft s (.fetch h) ≠ 0) : s.shardFetched h ok = s := by
  simp [State.shardFetched, hm]

section
variable (hst : (s.weaver h).state = .fetching) (hm : moveLeft s (.fetch h) = 0) (hk : (s.tkey (s.weaver h).keySlot).state = .live)
  (hb : (s.weaver h).burst = some (s.tkey (s.weaver h).keySlot).gen)
include hst hm hk hb

theorem shardFetched_last (hc : shardOk s (s.weaver h) (s.weaver h).shard = true) (hn : (s.weaver h).nshard ≤ (s.weaver h).shard + 1) :
    s.shardFetched h true = (s.fillShard h (s.weaver h).shard).modWeaver h fun w =>
      { w with state := .resident, usableFrom := s.rnd.num + 1, burst := none } := by
  have hr : (s.fillShard h (s.weaver h).shard).rnd = s.rnd := (fillShard_frame (Nat.or_self _) Fr.rfl).rnd_eq
  simp [State.shardFetched, hst, hm, hk, hb, hc, Nat.not_lt.mpr hn, hr]

theorem shardFetched_retries (hr : (s.weaver h).retried = false) :
    s.shardFetched h false = (s.modWeaver h fun w => { w with retried := true }).askFetch h := by
  simp [State.shardFetched, hst, hm, hk, hb, hr]

theorem shardFetched_fails (hr : (s.weaver h).retried = true) : s.shardFetched h false = s.fetchFails h := by
  simp [State.shardFetched, hst, hm, hk, hb, hr]

end

/-- A fetch that fails leaves the weaver REGISTERED without frames. -/
theorem fetchFails_dir : (s.fetchFails h).weav.dir = (s.modWeaver h fun w =>
    { w with state := .registered, frames := [], wantFetch := false, burst := none }).weav.dir := by
  have hz : (s.each (s.weaver h).frames fun f s => s.zeroFrame f).weav = s.weav :=
    each_keeps State.weav (fun _ _ => (zeroFrame_frame (Nat.or_self _) Fr.rfl).weav_eq) _ _
  unfold State.fetchFails
  dsimp only
  rw [each_keeps (fun t => t.weav.dir) fun _ _ => dropSeq_dir _ _, (journal_frame (Nat.or_self _) Fr.rfl).weav_eq]
  simp only [State.modWeaver, State.dropMove, hz]

/-- A fetch that fails writes one journal entry (R135). -/
theorem fetchFails_head : (s.fetchFails h).flt.head = s.flt.head + 1 := by
  have hz : (s.each (s.weaver h).frames fun f s => s.zeroFrame f).flt = s.flt :=
    each_keeps State.flt (fun _ _ => (zeroFrame_frame (Nat.or_self _) Fr.rfl).flt_eq) _ _
  unfold State.fetchFails
  dsimp only
  rw [each_keeps (fun t => t.flt.head) fun _ _ => dropSeq_head _ _, journal_head, modWeaver_flt]
  simp only [State.dropMove, hz]

/-! ### A removal that is complete -/

theorem removeComplete_eq (hst : (s.weaver h).state = .removing) (hp : weaverPins s h = 0) (hf : (s.weaver h).frames = []) :
    s.removeComplete h = State.each (s.weaver h).removers (fun n s => s.finalRecord n St.ok 0)
      ((s.slowScrub (s.weaver h).slow (4096 * (s.weaver h).pkgPages)).modWeaver h fun _ => {}) := by
  simp [State.removeComplete, hst, hp, hf]

/-- The directory entry of a removed weaver is zeroed. -/
theorem removeComplete_dir (hst : (s.weaver h).state = .removing) (hp : weaverPins s h = 0) (hf : (s.weaver h).frames = []) :
    (s.removeComplete h).weav.dir = (s.modWeaver h fun _ => {}).weav.dir := by
  have hs : (s.slowScrub (s.weaver h).slow (4096 * (s.weaver h).pkgPages)).weav = s.weav := (slowScrub_frame (Nat.or_self _) Fr.rfl).weav_eq
  rw [removeComplete_eq hst hp hf, each_keeps State.weav fun _ _ => (finalRecord_frame (Nat.or_self _) Fr.rfl).weav_eq]
  simp only [State.modWeaver, hs]

/-! ### The outcome of a carry-over check -/

/-- A check that passes has its sum of matches at AGREE_MIN or above (R189). -/
theorem probeOutcome_agrees {p : ProbeRun} {g : Gen} {place : Nat} (hr : (probeOutcome s p g place).1 = true) :
    g.agreeMin ≤ (probeOutcome s p g place).2.1 := by
  unfold probeOutcome at hr ⊢
  split at hr
  · cases hr
  · split at hr
    · cases hr
    · next hfail =>
      rw [if_neg hfail]
      unfold checkOutcome at hr ⊢
      dsimp only at hr ⊢
      split at hr
      · cases hr
      · next hnan =>
        rw [if_neg hnan]
        simp only [Bool.and_eq_true, decide_eq_true_eq] at hr
        exact hr.1.1

/-- The outcome of a check stands in the weaver's entry. -/
def State.carrySet (h : Nat) (r : Bool × Nat × FVal) (s : State) : State :=
  s.modWeaver h fun w =>
    { w with carry := if r.1 then .passed else .failed, carrySum := r.2.1, carryMax := roundF (ffmt 0) 0 0 r.2.2 }

theorem carryCheck_eq {p : ProbeRun} {g : Gen} (hp : s.crs.probe = some p) (hg : genOf s p.sid p.gen = some g) (hr : p.ready = true)
    (hk : p.pack.contains h = true) (hc : probing s p.sid p.gen h = true) (hd : decidesCarry s (probePlan s g) = true) :
    s.carryCheck h =
      let r := probeOutcome s p g (p.pack.findIdx (· == h))
      if (probePlan s g).any Plan.multi then (s.carrySet h r).emit (.carry h r.1) else s.carrySet h r := by
  simp only [State.carryCheck, hp, hg, hr, hk, hc, hd, State.carrySet]
  simp

theorem carryCheck_answers (hh : h < 65536) {p : ProbeRun} {g : Gen} (hp : s.crs.probe = some p) (hg : genOf s p.sid p.gen = some g)
    (hr : p.ready = true) (hk : p.pack.contains h = true) (hc : probing s p.sid p.gen h = true)
    (hd : decidesCarry s (probePlan s g) = true) :
    let r := probeOutcome s p g (p.pack.findIdx (· == h))
    Answers (.carryCheck h p.gen) s fun t =>
      (t.weaver h).carry = (if r.1 then .passed else .failed) ∧ (t.weaver h).carrySum = r.2.1 ∧ (r.1 = true → g.agreeMin ≤ r.2.1) ∧
      t.out = (if (probePlan s g).any Plan.multi then .carry h r.1 :: s.out else s.out) ∧ (∀ k, k ≠ h → t.weaver k = s.weaver k) := by
  intro r
  have hx : exec (.carryCheck h p.gen) s = act (okHandle h) s (s.carryCheck h) := by
    show act (okHandle h) s (if s.crs.probe.any fun q => q.gen == p.gen then s.carryCheck h else s) = _
    rw [hp, if_pos (by simp)]
  refine answers_of_frame hx (decide_eq_true hh) (carryCheck_frame (Nat.or_self _) Fr.rfl) ?_
  rw [carryCheck_eq hp hg hr hk hc hd]
  have hw : (s.carrySet h r).weaver h = _ := modWeaver_read s h _
  have hne : ∀ k, k ≠ h → (s.carrySet h r).weaver k = s.weaver k := fun k hk => modWeaver_read_ne s h _ hk
  by_cases hmul : (probePlan s g).any Plan.multi = true
  · simp only [hmul, if_true]
    exact ⟨congrArg Weaver.carry hw, congrArg Weaver.carrySum hw, probeOutcome_agrees, rfl, hne⟩
  · simp only [hmul]
    exact ⟨congrArg Weaver.carry hw, congrArg Weaver.carrySum hw, probeOutcome_agrees, rfl, hne⟩

/-- Settles O33: each row by its guards, the fetch by the three outcomes of a shard that has been read. -/
theorem weaverEvents : Obligations.WeaverEvents := by
  intro s h hh w
  have hok : okHandle h = true := decide_eq_true hh
  refine ⟨fun ok hm => ?waits, fun hst hm hk hb => ⟨fun hc hn => ?last, fun hr => ?retries, fun hr => ?fails⟩, fun hst hp hf => ?removed,
    fun p g => carryCheck_answers hh, fun ok hc => ?outcome⟩
  case waits =>
    show act (okHandle h) s (s.shardFetched h ok) = _
    rw [shardFetched_waits ok hm]
    exact act_ok hok rfl rfl
  case last =>
    have hfill : (s.fillShard h (s.weaver h).shard).weav = s.weav := (fillShard_frame (Nat.or_self _) Fr.rfl).weav_eq
    refine answers_of_frame rfl hok (shardFetched_frame (Nat.or_self _) Fr.rfl) ?_
    rw [shardFetched_last hst hm hk hb hc hn]
    exact ⟨by simp, by simp, fun k hk => (modWeaver_read_ne _ _ _ hk).trans (weaver_of_weav _ hfill)⟩
  case retries =>
    show act (okHandle h) s (s.shardFetched h false) = _
    rw [shardFetched_retries hst hm hk hb hr]
    exact act_of_frame hok (askFetch_frame (m := 2176) (by decide) (modWeaver_frame (by decide) Fr.rfl)) (by decide)
  case fails =>
    refine answers_of_frame rfl hok (shardFetched_frame (Nat.or_self _) Fr.rfl) ?_
    rw [shardFetched_fails hst hm hk hb hr, weaver_of_dir fetchFails_dir, modWeaver_read]
    exact ⟨rfl, rfl, fetchFails_head, (fetchFails_frame (Nat.or_self _) Fr.rfl).hbm_eq⟩
  case removed =>
    refine answers_of_frame rfl hok (removeComplete_frame (Nat.or_self _) Fr.rfl) ⟨?_, fun k hk => ?_⟩
    · rw [weaver_of_dir (removeComplete_dir hst hp hf), modWeaver_read]
    · rw [weaver_of_dir (removeComplete_dir hst hp hf), modWeaver_read_ne _ _ _ hk]
  case outcome =>
    have hx : exec (.carryOutcome h ok) s = act (okHandle h) s (s.modWeaver h fun w => { w with carry := if ok then .passed else .failed }) := by
      show act (okHandle h) s (s.carryOutcome h ok) = _
      rw [State.carryOutcome, if_pos hc]
    rw [hx]
    exact act_ok hok rfl rfl

end Sys2Proof.Machine
end

section
/-! PROOFS. A command on a mailbox channel, and the weaver command group (R133, R141, R142, R150 to R153, R383). -/

namespace Sys2Proof.Machine

variable {s : State} {ch : Nat}

/-! ### A command on a mailbox channel -/

/-- The response stands in the channel, unless a function-level reset has discarded it. -/
theorem answer_chan {status detail len payload : Nat} (hd : (s.chan ch).discard = false) :
    (s.answer ch status detail len payload).chan ch = respond s (s.chan ch) status detail len payload := by
  unfold State.answer
  rw [if_neg (by simp [hd])]
  exact (chan_of_mb _ (event_frame (Nat.or_self _) Fr.rfl).mb_eq).trans (modChan_read _ _ _)

section
variable {l : Layout} {present : Bool} {owns : Req → Bool} {eff : Req → State → Reply × State} {x : Reply} {u : State}
  (ha : Admitted l present owns ch s) (he : eff (reqOn s ch) s = (x, u))
include ha he

/-- An admitted command does what it does, and answers. -/
theorem command_admitted : s.command l present owns eff ch = u.answer ch x.status x.detail x.len x.payload := by
  obtain ⟨-, hbusy, -, hop, hturn, hcheck⟩ := ha
  unfold State.command
  dsimp only
  rw [if_pos ⟨hbusy, hop, hturn⟩]
  unfold reqOn at hcheck he
  rw [hcheck, he]

/-- What an admitted command answers: the response to its request in its channel, and the rest as its effect `u` leaves it. -/
theorem command_answers {c : Instr} {m : Nat} {P : State → Prop} (hx : exec c s = act (okChan ch) s (s.command l present owns eff ch))
    (hf : Fr m s u) (hp : ∀ t, Responded ch x s t → Fr 6291592 u t → P t)
    (hm : m.testBit Part.variant.code = false ∧ m.testBit Part.pending.code = false ∧ m.testBit Part.rnd.code = false ∧
      m.testBit Part.mb.code = false := by decide) : Answers c s P := by
  obtain ⟨hvar, hpen, hrnd, hmb⟩ := hm
  have hch : u.chan ch = s.chan ch := chan_of_mb _ (hf.mb_eq hmb)
  have ht : Fr 6291592 u (u.answer ch x.status x.detail x.len x.payload) := answer_frame (Nat.or_self _) Fr.rfl
  refine ⟨_, hx.trans ?_, hp _ ?_ ht⟩
  · rw [command_admitted ha he]
    exact act_ok (decide_eq_true ha.1) ((ht.same .variant (by decide)).trans (hf.same .variant hvar))
      ((ht.same .pending (by decide)).trans (hf.same .pending hpen))
  · show (u.answer _ _ _ _ _).chan ch = _
    rw [answer_chan (by rw [hch]; exact ha.2.2.1), hch]
    simp only [respond, hf.rnd_eq hrnd]

end

/-! ### Registration (R141) -/

/-- What a fetch and a carry-over check leave of a directory entry: what WEAVER_REGISTER wrote. -/
def Weaver.registration (w : Weaver) : Weaver :=
  { w with state := .free, frames := [], shard := 0, retried := false, wantFetch := false, copy := 0, burst := none, carry := .none, carryGen := 0
           carrySum := 0, carryMax := 0 }

/-- Weaver `h` keeps what registered it, and the others keep all. -/
structure KeepsRegistration (h : Nat) (s t : State) : Prop where
  self : (t.weaver h).registration = (s.weaver h).registration
  others : ∀ k, k ≠ h → t.weaver k = s.weaver k

namespace KeepsRegistration

variable {h : Nat} {t u : State}

theorem of_weav (hw : t.weav = s.weav) : KeepsRegistration h s t :=
  ⟨congrArg Weaver.registration (weaver_of_weav _ hw), fun _ _ => weaver_of_weav _ hw⟩

theorem trans (h1 : KeepsRegistration h s t) (h2 : KeepsRegistration h t u) : KeepsRegistration h s u :=
  ⟨h2.self.trans h1.self, fun k hk => (h2.others k hk).trans (h1.others k hk)⟩

theorem modWeaver {f : Weaver → Weaver} (hf : ∀ w, (f w).registration = w.registration) : KeepsRegistration h s (s.modWeaver h f) :=
  ⟨by rw [modWeaver_read, hf], fun _ hk => modWeaver_read_ne _ _ _ hk⟩

theorem askFetch : KeepsRegistration h s (s.askFetch h) := by
  have hpush : ∀ (t : State) m, KeepsRegistration h t (t.pushMove m) := fun t m => of_weav (pushMove_frame (Nat.or_self _) Fr.rfl).weav_eq
  have hburst : KeepsRegistration h s (s.modWeaver h fun w => { w with burst := some (s.tkey w.keySlot).gen }) := modWeaver fun _ => rfl
  have hdrop := hburst.trans (of_weav (t := (s.modWeaver h fun w => { w with burst := some (s.tkey w.keySlot).gen }).dropMove (.fetch h)) rfl)
  unfold State.askFetch
  dsimp only
  split
  · exact (hdrop.trans (hpush _ _)).trans (hpush _ _)
  · exact hdrop.trans (hpush _ _)

theorem tryFetch : KeepsRegistration h s (s.tryFetch h) := by
  have hwait : KeepsRegistration h s (s.waitFrame (.fetch h)) := of_weav (waitFrame_frame (Nat.or_self _) Fr.rfl).weav_eq
  unfold State.tryFetch
  dsimp only
  split
  · exact of_weav rfl
  · split
    · exact hwait
    · split
      · exact hwait
      · next fs t hf =>
        have ht : t.weav = s.weav := ((takeFrames_frame (Nat.or_self _) Fr.rfl).out _ hf).weav_eq
        exact ((of_weav (t := t.dropWait (.fetch h)) ht).trans (modWeaver fun _ => by rfl)).trans askFetch

theorem demand : KeepsRegistration h s (s.demand h) := by
  unfold State.demand
  split
  · exact (modWeaver fun _ => by rfl).trans tryFetch
  · exact of_weav rfl

theorem startCarry (g : Gen) : KeepsRegistration h s (s.startCarry h g) := by
  unfold State.startCarry
  extract_lets w c t
  have ht : KeepsRegistration h s t := modWeaver fun _ => rfl
  split
  · exact ht.trans demand
  · exact ht

theorem carryNew : KeepsRegistration h s (s.carryNew h) := by
  unfold State.carryNew
  dsimp only
  split
  · split
    · exact startCarry _
    · exact of_weav rfl
  · exact of_weav rfl

end KeepsRegistration

/-- Without a READY generation of its set a new weaver takes part in no carry-over. -/
theorem carryNew_of_none_ready {h : Nat} (hg : ∀ g ∈ (s.stake (s.weaver h).sid).gens, g.2.state ≠ .ready) : s.carryNew h = s := by
  have hfind : ((s.stake (s.weaver h).sid).gens.find? fun p => p.2.state == GState.ready) = none := by
    simpa [List.find?_eq_none] using fun a b hab => hg (a, b) hab
  simp [State.carryNew, hfind]

section
variable {q : Req}

theorem weaverRegister_free (hadm : q.bit 6 0 = true → q.ctx = 0) (hact : notActive s (q.at 2 2) = none) (hkey : q.at 4 2 = q.at 2 2)
    (hfree : (s.weaver (q.at 0 2)).state = .free) (h4 : sdaBad s (q.at 8 8) 4096 (q.bit 6 1) = none) (hup : slowUp s (q.at 8 8) = true)
    (hpkg : pkgBad s (pkgAt s (s.tkey (q.at 2 2)).key (q.at 8 8)) = none)
    (hall : sdaBad s (q.at 8 8) (4096 * (pkgAt s (s.tkey (q.at 2 2)).key (q.at 8 8)).pages) (q.bit 6 1) = none) :
    weaverRegister q s =
      ({}, (s.modWeaver (q.at 0 2) fun _ => entryOf q s (pkgAt s (s.tkey (q.at 2 2)).key (q.at 8 8))).carryNew (q.at 0 2)) := by
  have hadm' : (q.bit 6 0 && q.ctx != 0) = false := by cases hb : q.bit 6 0 <;> simp_all
  simp [weaverRegister, checked, hadm', hact, hkey, hfree, h4, hup, hpkg, hall]

theorem weaverRegister_inUse (hadm : q.bit 6 0 = true → q.ctx = 0) (hact : notActive s (q.at 2 2) = none) (hkey : q.at 4 2 = q.at 2 2)
    (hused : (s.weaver (q.at 0 2)).state ≠ .free) : weaverRegister q s = (fail St.handleInUse, s) := by
  have hadm' : (q.bit 6 0 && q.ctx != 0) = false := by cases hb : q.bit 6 0 <;> simp_all
  simp [weaverRegister, checked, hadm', hact, hkey, hused]

end

/-! ### Removal (R135, R142) -/

/-- A removal that starts leaves every directory entry but that of its weaver, which is REMOVING. -/
theorem startRemove_dir {h : Nat} :
    (s.startRemove h).weav.dir = (s.modWeaver h fun w => { w with state := .removing, wantFetch := false }).weav.dir := by
  unfold State.startRemove
  dsimp only
  show (State.each _ _ (State.each _ _ _)).weav.dir = _
  rw [each_keeps (fun t => t.weav.dir) fun _ _ => closeSession_dir _, each_keeps (fun t => t.weav.dir) fun _ _ => dropSeq_dir _ _]
  rfl

/-- ADMIN_PIN or a frame holds a removal back. -/
theorem removeComplete_held {h : Nat} (hw : (s.weaver h).adminPin = true ∨ (s.weaver h).frames ≠ []) : s.removeComplete h = s := by
  rcases hw with hp | hf
  · have hpin : weaverPins s h ≠ 0 := by simp [weaverPins, hp, b2n]
    simp [State.removeComplete, hpin]
  · simp [State.removeComplete, hf]

section
variable {q : Req} (hfree : (s.weaver (q.at 0 2)).state ≠ .free) (hgoing : (s.weaver (q.at 0 2)).state ≠ .removing)
include hfree hgoing

theorem weaverPrefetch_eq : weaverPrefetch q s = ({}, s.demand (q.at 0 2)) := by
  simp [weaverPrefetch, checked, noWeaver, goingWeaver, hfree, hgoing]

theorem weaverRemove_inUse (hforce : bit q.flags 0 = false) (huse : sessionsOf s (q.at 0 2) ≠ 0 ∨ hasSharers s (q.at 0 2) = true) :
    weaverRemove q s = (fail St.weaverInUse, s) := by
  simp [weaverRemove, checked, noWeaver, hfree, hgoing, hforce, huse]

/-- The weaver as WEAVER_REMOVE leaves it, its completion owed. -/
def State.removing (q : Req) (s : State) : State :=
  (s.startRemove (q.at 0 2)).modWeaver (q.at 0 2) fun w => { w with removers := w.removers ++ [q.note] }

omit hfree hgoing in
theorem removing_weaver : (s.removing q).weaver (q.at 0 2) =
    { s.weaver (q.at 0 2) with state := .removing, wantFetch := false, removers := (s.weaver (q.at 0 2)).removers ++ [q.note] } := by
  rw [State.removing, modWeaver_read, weaver_of_dir startRemove_dir, modWeaver_read]

theorem weaverRemove_pends (hforce : bit q.flags 0 = true ∨ sessionsOf s (q.at 0 2) = 0 ∧ hasSharers s (q.at 0 2) = false)
    (hheld : (s.weaver (q.at 0 2)).adminPin = true ∨ (s.weaver (q.at 0 2)).frames ≠ []) :
    weaverRemove q s = (pendingReply, s.removing q) := by
  have hcomplete : (s.removing q).removeComplete (q.at 0 2) = s.removing q := removeComplete_held (by rw [removing_weaver]; exact hheld)
  have hchk : ¬ (bit q.flags 0 = false ∧ (¬ sessionsOf s (q.at 0 2) = 0 ∨ hasSharers s (q.at 0 2) = true)) := by
    rcases hforce with hf | ⟨hs, hh⟩
    · simp [hf]
    · simp [hs, hh]
  rw [← hcomplete]
  simp [weaverRemove, checked, noWeaver, hfree, hgoing, hchk, State.removing]

/-! ### Side slots (R151, R153) -/

section
variable (hslot : q.at 5 1 < 16 ∨ q.at 5 1 = 0xFF) (hmoe : (moeLayers s (s.weaver (q.at 0 2))).contains (q.at 2 2) = true)
  (hx : q.at 4 1 < (s.weaver (q.at 0 2)).xcount)
include hslot hmoe hx

/-- A claim in a MoE layer, of an expert that the weaver has, passes the checks of SIDE_CLAIM. -/
theorem sideClaim_checks (ok : Reply × State) :
    checked [noWeaver s q, goingWeaver s q, (decide (16 ≤ q.at 5 1) && q.at 5 1 != 0xFF, badField 5),
      (!(moeLayers s (s.weaver (q.at 0 2))).contains (q.at 2 2), fail St.notMoeLayer),
      (decide ((s.weaver (q.at 0 2)).xcount ≤ q.at 4 1), badField 4)] ok s = ok := by
  have hbad : (decide (16 ≤ q.at 5 1) && q.at 5 1 != 0xFF) = false := by
    rcases hslot with hs | hs
    · simp [Nat.not_le.mpr hs]
    · simp [hs]
  simp only [checked, noWeaver, goingWeaver, List.find?_cons, beq_eq_false_iff_ne.mpr hfree, beq_eq_false_iff_ne.mpr hgoing, hbad, hmoe,
    Bool.not_true, decide_eq_false (Nat.not_le.mpr hx), List.find?_nil]

theorem sideClaim_takes {k : Nat} (hc : claimSlot s q = .ok (k, false)) :
    sideClaim q s = (answerOf 1 k, (s.modSide (sideKey (q.at 2 2) k) fun _ =>
      { owned := true, owner := q.at 0 2, j := q.at 4 1, share := q.bit 6 0, boundRnd := s.rnd.num + 1 }).modWeaver (q.at 0 2)
        fun w => { w with shareX := w.shareX || q.bit 6 0 }) := by
  unfold sideClaim
  dsimp only
  rw [sideClaim_checks hfree hgoing hslot hmoe hx, hc]

theorem sideClaim_joins {k : Nat} (hc : claimSlot s q = .ok (k, true)) :
    sideClaim q s =
      (answerOf 1 k, s.modSide (sideKey (q.at 2 2) k) fun x => { x with joining := x.joining ++ [(q.at 0 2, q.at 4 1)] }) := by
  unfold sideClaim
  dsimp only
  rw [sideClaim_checks hfree hgoing hslot hmoe hx, hc]

theorem sideClaim_refused {status : Nat} (hc : claimSlot s q = .error status) : sideClaim q s = (fail status, s) := by
  unfold sideClaim
  dsimp only
  rw [sideClaim_checks hfree hgoing hslot hmoe hx, hc]

end

end

theorem claimSlot_free {q : Req} {k : Nat} (h : claimSlot s q = .ok (k, false)) : slotFree s (s.side (sideKey (q.at 2 2) k)) = true := by
  unfold claimSlot at h
  dsimp only at h
  split at h
  · split at h
    · next hk => cases h; exact (List.find?_some hk :)
    · cases h
  · split at h
    · next hk => cases h; exact hk
    · split at h <;> cases h

theorem claimSlot_shares {q : Req} {k : Nat} (h : claimSlot s q = .ok (k, true)) : (s.side (sideKey (q.at 2 2) k)).share = true := by
  unfold claimSlot at h
  dsimp only at h
  split at h
  · split at h <;> cases h
  · split at h
    · cases h
    · split at h
      · next hk => cases h; exact hk.2.1
      · cases h

/-- The owner's release of an expert that no other weaver shares. -/
theorem sideRelease_owner {q : Req} {k : Nat} (hfree : (s.weaver (q.at 0 2)).state ≠ .free) (hk : k < 16)
    (hfirst : ∀ i, i < k → ¬ ((s.side (sideKey (q.at 2 2) i)).owned = true ∧ (s.side (sideKey (q.at 2 2) i)).owner = q.at 0 2 ∧
      (s.side (sideKey (q.at 2 2) i)).j = q.at 4 1))
    (howned : (s.side (sideKey (q.at 2 2) k)).owned = true) (hrel : (s.side (sideKey (q.at 2 2) k)).releasing = none)
    (howner : (s.side (sideKey (q.at 2 2) k)).owner = q.at 0 2) (hj : (s.side (sideKey (q.at 2 2) k)).j = q.at 4 1)
    (hsh : (s.side (sideKey (q.at 2 2) k)).sharers = []) (hjo : (s.side (sideKey (q.at 2 2) k)).joining = []) :
    sideRelease q s = ({}, s.modSide (sideKey (q.at 2 2) k) fun x => { x with releasing := some s.rnd.num }) := by
  have hmine : ((List.range 16).find? fun k =>
      let x := s.side (sideKey (q.at 2 2) k)
      x.owned && x.releasing.isNone && x.owner == q.at 0 2 && x.j == q.at 4 1) = some k := by
    refine List.find?_range_eq_some.mpr ⟨by simp [howned, hrel, howner, hj], List.mem_range.mpr hk, fun i hi => ?_⟩
    rw [Bool.not_eq_true', Bool.eq_false_iff]
    intro hp
    simp only [Bool.and_eq_true, beq_iff_eq] at hp
    exact hfirst i hi ⟨hp.1.1.1, hp.1.2, hp.2⟩
  simp [sideRelease, checked, noWeaver, hfree, hmine, hsh, hjo]

/-! ### What the commands answer -/

/-- A command that is refused, or only reads, leaves all but its channel and what an answer may write. -/
theorem command_reads {c : Instr} {l : Layout} {present : Bool} {owns : Req → Bool} {eff : Req → State → Reply × State} {x : Reply}
    (ha : Admitted l present owns ch s) (he : eff (reqOn s ch) s = (x, s))
    (hx : exec c s = act (okChan ch) s (s.command l present owns eff ch)) :
    Answers c s fun t => Responded ch x s t ∧ t.weav = s.weav :=
  command_answers ha he hx (Fr.rfl (m := 0)) fun _ hr hf => ⟨hr, hf.weav_eq⟩

/-- A side slot written for a claim or a release, the others as they were. -/
theorem command_writesSide {c : Instr} {l : Layout} {present : Bool} {owns : Req → Bool} {eff : Req → State → Reply × State} {x : Reply} {u : State}
    {i : Nat} {f : SideSlot → SideSlot} (ha : Admitted l present owns ch s) (he : eff (reqOn s ch) s = (x, u))
    (hx : exec c s = act (okChan ch) s (s.command l present owns eff ch)) (hf : Fr 2048 s u) (hside : u.weav.side = (s.modSide i f).weav.side) :
    Answers c s fun t => Responded ch x s t ∧ t.side i = f (s.side i) ∧ ∀ j, j ≠ i → t.side j = s.side j := by
  have hu : ∀ j, u.side j = (s.modSide i f).side j := fun j => by simp only [State.side, hside]
  refine command_answers ha he hx hf fun t hr ht => ⟨hr, ?_, fun j hj => ?_⟩
  · rw [side_of_weav _ ht.weav_eq, hu, modSide_read]
  · rw [side_of_weav _ ht.weav_eq, hu, modSide_read_ne _ _ _ hj]

theorem weaverRegister_answers (ha : Admitted weaverRegisterLayout true (ownsCtx 2) ch s) (hadm : (reqOn s ch).bit 6 0 = true → (reqOn s ch).ctx = 0)
    (hact : notActive s ((reqOn s ch).at 2 2) = none) (hkey : (reqOn s ch).at 4 2 = (reqOn s ch).at 2 2)
    (hfree : (s.weaver ((reqOn s ch).at 0 2)).state = .free) (h4 : sdaBad s ((reqOn s ch).at 8 8) 4096 ((reqOn s ch).bit 6 1) = none)
    (hup : slowUp s ((reqOn s ch).at 8 8) = true) :
    let q := reqOn s ch
    let h := q.at 0 2
    let p := pkgAt s (s.tkey (q.at 2 2)).key (q.at 8 8)
    pkgBad s p = none → sdaBad s (q.at 8 8) (4096 * p.pages) (q.bit 6 1) = none →
    Answers (.weaverRegister ch) s fun t => Responded ch {} s t ∧ (t.weaver h).ctx = q.at 2 2 ∧ (t.weaver h).commons = q.bit 6 0 ∧
      (t.weaver h).sid = p.at 12 1 ∧ (t.weaver h).version = p.wver ∧ (t.weaver h).slow = p.base ∧ (t.weaver h).keySlot = q.at 4 2 ∧
      (t.weaver h).trainable = q.bit 6 1 ∧
      ((∀ g ∈ (s.stake (p.at 12 1)).gens, g.2.state ≠ .ready) → (t.weaver h).state = .registered ∧ (t.weaver h).frames = []) ∧
      ∀ k, k ≠ h → t.weaver k = s.weaver k := by
  intro q h p hpkg hall
  refine command_answers ha (weaverRegister_free hadm hact hkey hfree h4 hup hpkg hall) rfl
    (carryNew_frame (m := 34944) (by decide) (modWeaver_frame (by decide) Fr.rfl)) fun t hr ht => ?_
  have hent : (s.modWeaver h fun _ => entryOf q s p).weaver h = entryOf q s p := modWeaver_read _ _ _
  have hkeep := (KeepsRegistration.carryNew (s := s.modWeaver h fun _ => entryOf q s p) (h := h)).trans (.of_weav ht.weav_eq)
  have hreg : (t.weaver h).registration = (entryOf q s p).registration := hkeep.self.trans (congrArg _ hent)
  refine ⟨hr, congrArg Weaver.ctx hreg, congrArg Weaver.commons hreg, congrArg Weaver.sid hreg, congrArg Weaver.version hreg,
    congrArg Weaver.slow hreg, congrArg Weaver.keySlot hreg, congrArg Weaver.trainable hreg, fun hready => ?_,
    fun k hk => (hkeep.others k hk).trans (modWeaver_read_ne _ _ _ hk)⟩
  have hnone : (s.modWeaver h fun _ => entryOf q s p).carryNew h = s.modWeaver h fun _ => entryOf q s p :=
    carryNew_of_none_ready (by rw [hent]; exact hready)
  rw [weaver_of_weav _ (ht.weav_eq.trans (congrArg State.weav hnone)), hent]
  exact ⟨rfl, rfl⟩

/-- Settles O56: each command by what it does once it is admitted, and what its answer leaves. -/
theorem weaverCommands : Obligations.WeaverCommands := by
  intro s ch q h w
  refine ⟨fun ha hadm _ hact hkey hfree h4 hup => weaverRegister_answers ha hadm hact hkey hfree h4 hup,
    fun ha hadm hact hkey _ hused => command_reads ha (weaverRegister_inUse hadm hact hkey hused) rfl,
    fun hfree hgoing => ⟨fun ha => ?prefetch, fun ha => ⟨fun hforce huse => command_reads ha (weaverRemove_inUse hfree hgoing hforce huse) rfl,
      fun hforce hheld => ?remove⟩, fun ha hslot hmoe hx k => ⟨fun hc => ?takes, fun hc => ?joins, fun hc => ?refused⟩,
      fun ha k hk hfirst howned hrel howner hj hsh hjo => ?release⟩,
    fun hfree ha => ?pin, fun ha => command_reads ha rfl rfl, fun ha => command_reads ha rfl rfl⟩
  case prefetch =>
    exact command_answers ha (weaverPrefetch_eq hfree hgoing) rfl (demand_frame (Nat.or_self _) Fr.rfl)
      fun t hr ht => ⟨hr, ht.weav_eq, ht.mem_eq⟩
  case remove =>
    refine command_answers ha (weaverRemove_pends hfree hgoing hforce hheld) rfl
      (modWeaver_frame (m := 35753096) (by decide) (startRemove_frame (by decide) Fr.rfl)) fun t hr ht => ?_
    rw [weaver_of_weav _ ht.weav_eq, removing_weaver]
    exact ⟨hr, rfl, rfl⟩
  case takes =>
    obtain ⟨t, ht, hr, hs⟩ := command_writesSide (c := .sideClaim ch) (i := sideKey (q.at 2 2) k) (f := fun _ =>
      { owned := true, owner := h, j := q.at 4 1, share := q.bit 6 0, boundRnd := s.rnd.num + 1 }) ha
      (sideClaim_takes hfree hgoing hslot hmoe hx hc) rfl
      (modWeaver_frame (by decide) (modSide_frame (by decide) Fr.rfl)) rfl
    exact ⟨t, ht, hr, claimSlot_free hc, hs⟩
  case joins =>
    obtain ⟨t, ht, hr, hs⟩ := command_writesSide (c := .sideClaim ch) (i := sideKey (q.at 2 2) k) (f := fun x => { x with joining := x.joining ++ [(h, q.at 4 1)] }) ha
      (sideClaim_joins hfree hgoing hslot hmoe hx hc) rfl (modSide_frame (by decide) Fr.rfl) rfl
    exact ⟨t, ht, hr, claimSlot_shares hc, hs⟩
  case refused => exact command_reads ha (sideClaim_refused hfree hgoing hslot hmoe hx hc) rfl
  case release =>
    exact command_writesSide ha (sideRelease_owner hfree hk hfirst howned hrel howner hj hsh hjo) rfl (modSide_frame (by decide) Fr.rfl) rfl
  case pin =>
    refine command_answers ha (u := s.modWeaver h fun w => { w with adminPin := q.bit 2 0 }) (by
      simp [weaverPin, checked, noWeaver, show (s.weaver ((reqOn s ch).at 0 2)).state ≠ .free from hfree]; rfl) rfl
      (modWeaver_frame (m := 2048) (by decide) Fr.rfl) fun t hr ht => ⟨hr, ?_, fun k hk => ?_⟩
    · rw [weaver_of_weav _ ht.weav_eq, modWeaver_read]
    · rw [weaver_of_weav _ ht.weav_eq, modWeaver_read_ne _ _ _ hk]

end Sys2Proof.Machine
end

section
/-! PROOFS. The end of a course (R162): a probe course (R189) that has finished has a row, and no row of it waits for its next course. -/

namespace Sys2Proof.Machine

/-- The row of a probe course of weaver 3: two tokens at most, of which none has been produced. -/
def probeSeq : Seq := probeRow { n := 1, len := 1, width := 2, tokens := 0 } 1 3 0 0

/-- The probe course on generation 1 of stake set 0, whose plan gives one token a course; it has finished. -/
def finishedProbe : Course :=
  { id := 7, plan := {}, ctx := 1, sid := 0, gen := 1, rows := [probeSeq], segs := [], finished := true, probe := some (0, 1) }

/-- The device on which that course has finished. -/
def probeFinished : State := { State.reset with crs := { running := [finishedProbe] } }

/-- A probe course leaves no row behind: its rows stand for no descriptors. -/
theorem probeFinished_waiting : ∃ t, exec (.courseComplete 7) probeFinished = .next t ∧ t.crs.waiting = [] := ⟨_, rfl, rfl⟩

/-- Refutes O44: a probe course with one row, which has a token left to produce, completes, and its row does not wait for a next course. -/
theorem not_courseCompletion : ¬ Obligations.CourseCompletion := by
  intro h
  obtain ⟨-, -, hcourse⟩ := h probeFinished
  have hrow := (hcourse 7 finishedProbe probeSeq rfl rfl rfl rfl rfl fun _ hlc => absurd hlc List.not_mem_nil).1
  obtain ⟨t, ht, -, hwait, -⟩ := hrow (by decide) (by decide)
  obtain ⟨u, hu, hnone⟩ := probeFinished_waiting
  cases ht.symm.trans hu
  rw [hnone] at hwait
  cases hwait

end Sys2Proof.Machine
end

section
/-! PROOFS. The steps of a training job (R161, R278, R280, R300, R302, R303): publication, the step ledger, a silent member, and a learning
step. -/

namespace Sys2Proof.Machine

variable {s : State} {key : Nat}

/-! ### What the opening of a step keeps -/

/-- A job without its buckets and what a step or a failure sets back in it. -/
def Job.course (j : Job) : Job :=
  { j with buckets := [], clamped := 0, failed := none, firstRnd := none, heard := [], leadHeard := 0, pubRnd := none, pubLate := false, microsDone := 0 }

/-- What the steps of a job keep: its course, and the learning state of the weavers. -/
def State.jobKept (key : Nat) (s : State) : Job × Tab Learn := ((s.job key).course, s.train.learn)

/-- Jobs with the same course agree in what a step reads of it. -/
theorem Job.same_of_course {a b : Job} (h : a.course = b.course) :
    a.active = b.active ∧ a.learning = b.learning ∧ a.probing = b.probing ∧ a.published = b.published ∧ a.step = b.step ∧ a.lastVer = b.lastVer := by
  have hsame {β : Type} (g : Job → β) : g a.course = g b.course := congrArg g h
  exact ⟨hsame Job.active, hsame Job.learning, hsame Job.probing, hsame Job.published, hsame Job.step, hsame Job.lastVer⟩

theorem jobKept_of_train {t : State} (h : t.train = s.train) : t.jobKept key = s.jobKept key := by
  simp only [State.jobKept, State.job, h]

theorem jobKept_modJob {f : Job → Job} (hf : ∀ j, (f j).course = j.course) : (s.modJob key f).jobKept key = s.jobKept key := by
  rw [State.jobKept, modJob_read, hf]
  rfl

theorem openStep_jobKept (first : Bool) : (s.openStep key first).jobKept key = s.jobKept key := by
  have hbuckets : ∀ (xs : List (Nat × Nat)) (t : State) (g : Nat × Nat → Bucket → Bucket),
      (t.each xs fun x s => s.modBucket key (bktKey x.1 x.2) (g x)).jobKept key = t.jobKept key :=
    fun xs t g => each_keeps (State.jobKept key) (fun _ _ => jobKept_modJob fun _ => by rfl) xs t
  have hzero : ∀ (j : Job) xs (t : State), (t.each xs fun b s => s.zeroGrad j b).jobKept key = t.jobKept key :=
    fun j xs t => each_keeps (State.jobKept key) (fun _ _ => jobKept_of_train (zeroGrad_frame (Nat.or_self _) Fr.rfl).train_eq) xs t
  have hclamp : ∀ t : State, ((t.polLimit 3).modJob key fun j => { j with clamped := j.clamped + 1 }).jobKept key = t.jobKept key :=
    fun t => (jobKept_modJob fun _ => by rfl).trans (jobKept_of_train (polLimit_frame (Nat.or_self _) Fr.rfl).train_eq)
  unfold State.openStep
  dsimp only
  refine (jobKept_modJob fun _ => by rfl).trans ?_
  simp only [apply_ite (State.jobKept key), hclamp, hzero, hbuckets, ite_self]

theorem openStep_pubRnd (first : Bool) : ((s.openStep key first).job key).pubRnd = none := by
  unfold State.openStep
  dsimp only
  rw [modJob_read]

theorem jobOut_out (o : Out) (n : Nat) : (s.jobOut o n).out = o :: s.out := rfl

theorem jobOut_mem (o : Out) (n : Nat) : (s.jobOut o n).mem = s.mem := rfl

theorem charge_train (c : Nat) (x : Cost) : (s.charge c x).train = s.train := rfl

theorem loadState_jobKept : (s.loadState key).jobKept key = s.jobKept key := by
  have hput : ∀ (t : State) c a bs, (t.putDva c a bs).train = t.train := fun _ _ _ _ => (putDva_frame (Nat.or_self _) Fr.rfl).train_eq
  unfold State.loadState
  refine each_keeps (State.jobKept key) (fun b t => ?_) _ s
  dsimp only
  split
  · split
    · exact jobKept_modJob fun _ => rfl
    · exact jobKept_of_train (by rw [charge_train, hput, hput])
  · exact jobKept_of_train (by rw [charge_train, hput, hput])

theorem runJob_jobKept (j : Job) : (s.runJob key j).jobKept key = (j.course, s.train.learn) := by
  unfold State.runJob
  dsimp only
  rw [each_keeps (State.jobKept key) fun _ _ => jobKept_of_train (twineOut_frame (Nat.or_self _) Fr.rfl).train_eq, openStep_jobKept, loadState_jobKept,
    jobKept_of_train (demand_frame (Nat.or_self _) Fr.rfl).train_eq, jobKept_of_train (modWeaver_train ..), State.jobKept, modJob_read]
  rfl

/-! ### Publication (R161, R302) -/

/-- An announcement that is taken: the job knows the round, the lead tells the others, a late member notes it. -/
theorem publish_eq {p : Nat} (ha : (s.job key).active = true) (hn : (s.job key).pubRnd = none) (hc : allClosed (s.job key) = true)
    (hp : (s.job key).isLead = true → s.rnd.num + 2 ≤ p) :
    s.publish key (s.job key).step p =
      let t := (s.leadHeard key).modJob key fun j => { j with pubRnd := some p, pubLate := decide (p ≤ s.rnd.num) }
      if (s.job key).isLead then t.jobOut (.publish key (s.job key).step p) Config.publishBytes
      else if p ≤ s.rnd.num then
        t.journal { code := St.groupTiming, cls := Cls.info, blk := Blk.round, ctx := (s.job key).ctx, gen := (s.job key).gen, detail := 3 }
      else t := by
  have hlead : ¬ ((s.job key).isLead = true ∧ p < s.rnd.num + 2) := fun h => absurd (hp h.1) (Nat.not_le.mpr h.2)
  simp only [State.publish, ha, hn, hc, hlead]
  simp

theorem publish_early {p : Nat} (hl : (s.job key).isLead = true) (hp : p < s.rnd.num + 2) : s.publish key (s.job key).step p = s := by
  simp [State.publish, hl, hp]

/-- The version of a step published: the weaver's pointer moved to its idle copy, and the step counted (R161). -/
def State.versionOut (key : Nat) (s : State) : State :=
  let j := s.job key
  let w := s.weaver j.desc.handle
  ((s.modWeaver j.desc.handle fun w => { w with version := w.version + 1, nextVersion := w.version + 1, copy := 1 - w.copy }).backCopy
    j.desc.handle).modJob key fun b => { b with published := j.published + 1, lastVer := w.version + 1 }

/-- A published step that is not the last: the state saved when it is due, and the lead's ledger entry (R275, R302). -/
def State.stepOut (key : Nat) (s : State) : State :=
  let j := s.job key
  let saved := j.desc.saveEvery != 0 && (j.published + 1) % j.desc.saveEvery == 0
  let t := if saved then (s.versionOut key).saveState key else s.versionOut key
  if j.isLead then t.sendLedger key (ledgerOf t j 0 (boundaryRnd t) saved) else t

theorem applyPublish_goesOn {p : Nat} (ha : (s.job key).active = true) (hp : (s.job key).pubRnd = some p)
    (hv : (s.weaver (s.job key).desc.handle).version < 0xFFFFFFFF) (hl : (s.job key).learning = false) (hr : (s.job key).desc.replay = false)
    (hn : (s.job key).published + 1 < (s.job key).desc.steps) (hs : (s.job key).stopAfter = false) :
    s.applyPublish key = ((s.stepOut key).modJob key fun j => { j with step := j.step + 1 }).openStep key false := by
  simp [State.applyPublish, State.stepOut, State.versionOut, ha, hp, hl, hr, hs, Nat.not_le.mpr hn, Nat.not_le.mpr hv]

/-- Saving and telling touch neither the weavers nor the jobs. -/
theorem stepOut_keeps : (s.stepOut key).weav = (s.versionOut key).weav ∧ (s.stepOut key).train = (s.versionOut key).train := by
  have hsave : ∀ t : State, (t.saveState key).weav = t.weav ∧ (t.saveState key).train = t.train := fun t =>
    ⟨(saveState_frame (Nat.or_self _) Fr.rfl).weav_eq, (saveState_frame (Nat.or_self _) Fr.rfl).train_eq⟩
  have htell : ∀ (t : State) e, (t.sendLedger key e).weav = t.weav ∧ (t.sendLedger key e).train = t.train := fun t e =>
    ⟨(sendLedger_frame (Nat.or_self _) Fr.rfl).weav_eq, (sendLedger_frame (Nat.or_self _) Fr.rfl).train_eq⟩
  unfold State.stepOut
  dsimp only
  constructor
  · simp only [apply_ite State.weav, htell, hsave, ite_self]
  · simp only [apply_ite State.train, htell, hsave, ite_self]

theorem versionOut_weaver : (s.versionOut key).weaver (s.job key).desc.handle =
    { s.weaver (s.job key).desc.handle with
      version := (s.weaver (s.job key).desc.handle).version + 1, nextVersion := (s.weaver (s.job key).desc.handle).version + 1
      copy := 1 - (s.weaver (s.job key).desc.handle).copy } := by
  rw [State.versionOut, weaver_of_weav _ (modJob_weav ..), weaver_of_weav _ (backCopy_frame (Nat.or_self _) Fr.rfl).weav_eq, modWeaver_read]

theorem versionOut_job : (s.versionOut key).job key = { s.job key with
    published := (s.job key).published + 1, lastVer := (s.weaver (s.job key).desc.handle).version + 1 } := by
  rw [State.versionOut, modJob_read, job_of_train _ (backCopy_frame (Nat.or_self _) Fr.rfl).train_eq, job_of_train _ (modWeaver_train ..)]

/-! ### A job that ends, and a lead that is silent (R300) -/

/-- A job that ends is active no more, and its weaver is out of training. -/
theorem closeJob_ends {status outcome : Nat} (ha : (s.job key).active = true) :
    ((s.closeJob key status outcome).job key).active = false ∧
      ((s.closeJob key status outcome).weaver (s.job key).desc.handle).training = false := by
  unfold State.closeJob
  rw [if_neg (by simp [ha])]
  dsimp only
  split
  · exact ⟨by rw [job_of_train _ (modWeaver_train ..), modJob_read], by rw [modWeaver_read]⟩
  · have hrec : ∀ (t : State) x qpn r, ((t.summarize x).record qpn r).train = t.train ∧ ((t.summarize x).record qpn r).weav = t.weav :=
      fun t x qpn r => ⟨(record_frame (Nat.or_self _) Fr.rfl).train_eq, (record_frame (Nat.or_self _) Fr.rfl).weav_eq⟩
    exact ⟨by rw [job_of_train _ (hrec ..).1, job_of_train _ (modWeaver_train ..), modJob_read],
      by rw [weaver_of_weav _ (hrec ..).2, modWeaver_read]⟩

theorem memberSilence_lost {member f : Nat} (ha : (s.job key).active = true) (hf : (s.job key).firstRnd = some f) (hl : (s.job key).isLead = false)
    (hq : max (s.job key).leadHeard (f + (s.job key).desc.deadline) + 16 ≤ boundaryRnd s) :
    s.memberSilence key member = s.closeJob key St.memberLost 1 := by
  simp only [State.memberSilence, hf, hl, ha, hq]
  simp

/-! ### The step ledger (R303) -/

theorem stepLedger_eq {e : LedgerEntry} (h1 : e.jobId = (s.job key).desc.jobId) (h2 : e.nbucket = (s.job key).nbucket)
    (h3 : e.npart = (s.job key).desc.npart) (hc : ctxActive s (s.job key).ctx = true) (hr : (s.job key).desc.replay = false) :
    s.stepLedger key e = ((s.leadHeard key).writeDva (s.job key).ctx
      ((s.job key).desc.ledger + e.step % (s.job key).desc.nledger * ledgerSize e.npart e.nbucket) (ledgerBytes e)).2 := by
  simp [State.stepLedger, State.writeLedger, State.putDva, h1, h2, h3, hc, hr]

/-! ### What a read sees of the training jobs: nothing -/

/-- The training jobs and learning states replaced. -/
def State.withTrain (x : Train) (s : State) : State := { s with train := x }

section
variable (x : Train)

theorem startRepair_withTrain (f g : Nat) (back : Option Nat) :
    (s.withTrain x).startRepair f g back = (s.startRepair f g back).withTrain x := by
  unfold State.startRepair
  dsimp only
  rw [apply_ite (State.withTrain x)]
  rfl

theorem readPoison_withTrain (f g : Nat) :
    (s.withTrain x).readPoison f g = ((s.readPoison f g).1, (s.readPoison f g).2.withTrain x) := by
  unfold State.readPoison
  dsimp only
  rw [startRepair_withTrain]
  rfl

theorem readSpot_withTrain (k : Nat) (sp : Spot) (n : Nat) :
    (s.withTrain x).readSpot k sp n = ((s.readSpot k sp n).1, (s.readSpot k sp n).2.withTrain x) := by
  have hpair : ∀ (c : Prop) [Decidable c] (a b : Except AccErr (List Byte) × State),
      ((if c then a else b).1, (if c then a else b).2.withTrain x) = if c then (a.1, a.2.withTrain x) else (b.1, b.2.withTrain x) :=
    fun c _ a b => by split <;> rfl
  cases sp with
  | unmapped => rfl
  | zero k => rfl
  | slow a =>
    simp only [State.readSpot, hpair]
    rfl
  | frame f off =>
    simp only [State.readSpot, hpair]
    rw [readPoison_withTrain]
    rfl

theorem spotAt_withTrain (ctx stamp dva : Nat) : spotAt (s.withTrain x) ctx stamp dva = spotAt s ctx stamp dva := rfl

theorem joinRead_withTrain (bs : List Byte) (r : Except AccErr (List Byte) × State) :
    joinRead bs (r.1, r.2.withTrain x) = ((joinRead bs r).1, (joinRead bs r).2.withTrain x) := rfl

/-- A fold whose steps do not see the training jobs does not see them. -/
theorem foldl_withTrain {α β : Type} {f : β × State → α → β × State}
    (hf : ∀ (r : β × State) y, f (r.1, r.2.withTrain x) y = ((f r y).1, (f r y).2.withTrain x)) (ys : List α) (r : β × State) :
    ys.foldl f (r.1, r.2.withTrain x) = ((ys.foldl f r).1, (ys.foldl f r).2.withTrain x) := by
  induction ys generalizing r with
  | nil => rfl
  | cons y ys ih =>
    rw [List.foldl_cons, List.foldl_cons, hf]
    exact ih _

theorem readDva_withTrain (ctx stamp dva n : Nat) :
    (s.withTrain x).readDva ctx stamp dva n = ((s.readDva ctx stamp dva n).1, (s.readDva ctx stamp dva n).2.withTrain x) := by
  unfold State.readDva
  refine foldl_withTrain x (fun r y => ?_) _ ((Except.ok [] : Except AccErr (List Byte)), s)
  obtain ⟨got, t⟩ := r
  cases got with
  | error e => rfl
  | ok bs =>
    dsimp only
    rw [readSpot_withTrain, spotAt_withTrain, joinRead_withTrain]

theorem peekDva_withTrain (ctx stamp dva n : Nat) : peekDva (s.withTrain x) ctx stamp dva n = peekDva s ctx stamp dva n := by
  unfold peekDva
  rw [readDva_withTrain]

/-- A descriptor's job does not depend on the jobs that are there. -/
theorem jobOf_withTrain (ctx : Nat) (d : JobDesc) (note : Option Notice) : jobOf (s.withTrain x) ctx d note = jobOf s ctx d note := by
  simp only [jobOf, planAt, railCount, peekDva_withTrain]
  rfl

end

/-! ### A learning step (R278, R280) -/

/-- The learning state of a weaver written. -/
def State.putLearn (h : Nat) (f : Learn → Learn) (s : State) : State := { s with train := { s.train with learn := adj {} s.train.learn h f } }

theorem putLearn_read (h : Nat) (f : Learn → Learn) : look {} (s.putLearn h f).train.learn h = f (look {} s.train.learn h) := look_adj_eq _ _ _ _

/-- The records that are not too old for a step of weaver `h` (R279). -/
def freshRecords (s : State) (h : Nat) : List Feedback :=
  (look {} s.train.learn h).queue.filter fun r => decide ((s.weaver h).version ≤ r.wver + (look {} s.train.learn h).desc.maxLag)

/-- The records that are too old discarded. -/
def State.dropStale (h : Nat) (s : State) : State :=
  s.putLearn h fun l => { l with queue := freshRecords s h, discarded := l.discarded + (l.queue.length - (freshRecords s h).length) }

/-- The job that a learning step with learning state `l` is. -/
def learnJob (s : State) (l : Learn) : Job :=
  { jobOf s l.ctx { l.desc with steps := 1, m := 1, npart := 1, member := 0, part := 0 } none with learning := true }

section
variable {h : Nat} (ht : hasTrain s = true) (he : (look {} s.train.learn h).enabled = true) (hw : (s.weaver h).trainable = true)
  (hn : (s.weaver h).training = false) (hb : (look {} s.train.learn h).batch ≤ (look {} s.train.learn h).queue.length)
  (hh : s.flt.halted = false) (hc : ctxActive s (look {} s.train.learn h).ctx = true)
include ht he hw hn hb hh hc

/-- A step is tried: the stale records go, and with a batch of fresh ones, a plan and room its job begins. -/
theorem learnStep_eq :
    s.learnStep h =
      let l := look {} s.train.learn h
      let t := s.dropStale h
      let j := learnJob t l
      if (freshRecords s h).length < l.batch ∨ !bucketsOk j ∨ !hasRoom t l.ctx (newPages t j).length then t
      else (t.beginJob l.desc.jobId j).elim t (State.putLearn h fun l =>
        { l with queue := (freshRecords s h).drop l.batch, forming := (freshRecords s h).take l.batch }) := by
  unfold State.learnStep
  dsimp only
  rw [if_neg (by simp [ht, he, hw, hn, hh, hc, Nat.not_lt.mpr hb])]
  rfl

theorem learnStep_stale (hf : (freshRecords s h).length < (look {} s.train.learn h).batch) : s.learnStep h = s.dropStale h := by
  rw [learnStep_eq ht he hw hn hb hh hc]
  exact if_pos (.inl hf)

theorem learnStep_begins (hf : (look {} s.train.learn h).batch ≤ (freshRecords s h).length)
    (hk : bucketsOk (learnJob s (look {} s.train.learn h)) = true) (hp : newPages s (learnJob s (look {} s.train.learn h)) = [])
    (hr : hasRoom s (look {} s.train.learn h).ctx 0 = true) :
    let j := learnJob s (look {} s.train.learn h)
    s.learnStep h = ((s.dropStale h).runJob (look {} s.train.learn h).desc.jobId { j with pages := [], probing := List.range j.nrail }).putLearn h
      fun l => { l with queue := (freshRecords s h).drop l.batch, forming := (freshRecords s h).take l.batch } := by
  have hj : learnJob (s.dropStale h) (look {} s.train.learn h) = learnJob s (look {} s.train.learn h) := by
    unfold learnJob
    rw [show s.dropStale h = s.withTrain (s.dropStale h).train from rfl, jobOf_withTrain]
  have hp' : newPages (s.dropStale h) (learnJob s (look {} s.train.learn h)) = [] := hp
  have hr' : hasRoom (s.dropStale h) (look {} s.train.learn h).ctx 0 = true := hr
  rw [learnStep_eq ht he hw hn hb hh hc]
  simp only [hj, hp', List.length_nil, hr', hk, Nat.not_lt.mpr hf, Bool.not_true, Bool.false_eq_true, or_self, if_false]
  simp only [State.beginJob, hp', chain, List.foldl_nil, Option.map_some, Option.elim_some]

end

/-- Settles O47: each row by its guards; publication and a learning step by what the opening of a step keeps of a job. -/
theorem trainingSteps : Obligations.TrainingSteps := by
  intro s key j
  refine ⟨fun p ha hn hc => ⟨fun hl hp => ?announced, fun hl hp => ?early, fun hl => ?heard⟩, fun p ha hp ht hle hv hl hr hs hstop => ?applied,
    fun e h1 h2 h3 hc hr => ?ledger, fun member f ha hf hl hq => ?silent,
    fun h hh ht he hw hn hb hhalt hc => ⟨fun hf => ?stale, fun hf hk hp hr => ?begins⟩⟩
  case announced =>
    refine answers_of_frame rfl rfl (publish_frame (Nat.or_self _) Fr.rfl) ?_
    rw [publish_eq ha hn hc fun _ => hp]
    dsimp only
    rw [if_pos hl, job_of_train _ (jobOut_frame (Nat.or_self _) Fr.rfl).train_eq, modJob_read, jobOut_out, jobOut_mem]
    exact ⟨rfl, decide_eq_false (by omega), rfl, rfl⟩
  case early =>
    show act true s (s.publish key j.step p) = _
    rw [publish_early hl hp]
    exact act_ok rfl rfl rfl
  case heard =>
    refine answers_of_frame rfl rfl (publish_frame (Nat.or_self _) Fr.rfl) ?_
    rw [publish_eq ha hn hc fun h => absurd (hl.symm.trans h) Bool.false_ne_true]
    dsimp only
    rw [if_neg (Bool.eq_false_iff.mp hl)]
    split
    next hlate =>
      rw [job_of_train _ (journal_frame (Nat.or_self _) Fr.rfl).train_eq, modJob_read, journal_head]
      exact ⟨rfl, rfl, rfl⟩
    next hintime =>
      rw [modJob_read]
      exact ⟨rfl, rfl, rfl⟩
  case applied =>
    have hx : exec (.publishApply key) s = act true s (s.applyPublish key) := by
      show act true s (if _ then _ else _) = _
      rw [if_pos (by rw [ht, show (s.job key).pubRnd = some p from hp]; simp [hle])]
    refine answers_of_frame hx rfl (applyPublish_frame (Nat.or_self _) Fr.rfl) ?_
    rw [applyPublish_goesOn ha hp hv hl hr hs hstop]
    have hopen : ∀ t : State, (t.openStep key false).weav = t.weav := fun _ => (openStep_frame (Nat.or_self _) Fr.rfl).weav_eq
    have hcourse := congrArg Prod.fst (openStep_jobKept (s := (s.stepOut key).modJob key fun j => { j with step := j.step + 1 }) (key := key) false)
    simp only [State.jobKept, modJob_read, job_of_train _ stepOut_keeps.2, versionOut_job] at hcourse
    obtain ⟨-, -, -, hpublished, hstep, hlast⟩ := Job.same_of_course hcourse
    rw [weaver_of_weav _ (hopen _), weaver_of_weav _ (modJob_weav ..), weaver_of_weav _ stepOut_keeps.1, versionOut_weaver]
    exact ⟨rfl, rfl, hpublished, hstep, openStep_pubRnd false, hlast⟩
  case ledger =>
    refine answers_of_frame rfl rfl (stepLedger_frame (Nat.or_self _) Fr.rfl) ?_
    rw [stepLedger_eq h1 h2 h3 hc hr]
    have hf := writeDva_frame (x0 := j.ctx) (x1 := j.desc.ledger + e.step % j.desc.nledger * ledgerSize e.npart e.nbucket) (x2 := ledgerBytes e)
      (Nat.or_self _) (Fr.rfl (o := s.leadHeard key))
    exact ⟨by rw [job_of_train _ hf.train_eq, State.leadHeard, modJob_read], hf.out_eq, rfl⟩
  case silent =>
    refine answers_of_frame rfl rfl (memberSilence_frame (Nat.or_self _) Fr.rfl) ?_
    rw [memberSilence_lost ha hf hl hq]
    exact closeJob_ends ha
  case stale =>
    refine answers_of_frame rfl (decide_eq_true hh) (learnStep_frame (Nat.or_self _) Fr.rfl) ?_
    rw [learnStep_stale ht he hw hn hb hhalt hc hf, State.dropStale, putLearn_read]
    exact ⟨rfl, rfl, rfl, rfl⟩
  case begins =>
    refine answers_of_frame rfl (decide_eq_true hh) (learnStep_frame (Nat.or_self _) Fr.rfl) ?_
    rw [learnStep_begins ht he hw hn hb hhalt hc hf hk hp hr]
    have hkept := runJob_jobKept (s := s.dropStale h) (key := (look {} s.train.learn h).desc.jobId)
      { learnJob s (look {} s.train.learn h) with pages := [], probing := List.range (learnJob s (look {} s.train.learn h)).nrail }
    have hcourse := congrArg Prod.fst hkept
    have hlearn := congrArg Prod.snd hkept
    dsimp only [State.jobKept] at hcourse hlearn
    rw [putLearn_read, hlearn, State.dropStale, putLearn_read]
    obtain ⟨hactive, hlearning, hprobing, -⟩ := Job.same_of_course hcourse
    exact ⟨rfl, rfl, hactive, hlearning, hprobing⟩

end Sys2Proof.Machine
end

section
/-! PROOFS. The commit of a stake set (R182 to R184): its messages at the MASTER and at the others, and the announcement of a LOCAL device. -/

namespace Sys2Proof.Machine

variable {s : State} {sid : Nat}

theorem Fr.stakes_eq {m : Nat} {o : State} (h : Fr m o s) (hb : m.testBit Part.stakes.code = false := by decide) : s.stakes = o.stakes :=
  h.same .stakes hb

/-! ### The commit that a message speaks of -/

section
variable {x : Commit} (hx : (s.stake sid).commit = some x)
include hx

theorem commitOf_own : commitOf s sid x.gen x.c = some x := by simp [commitOf, hx]

/-- READY of a part from which the MASTER had none (R182). -/
theorem stakeReady_counts {part : Nat} (ha : s.rnd.active = 1) (hp : part ∉ x.ready) :
    s.stakeReady sid x.gen part x.c = s.modStake sid fun k => { k with commit := some { x with ready := part :: x.ready } } := by
  simp [State.stakeReady, commitOf_own hx, ha, hp]

section
variable (hgo : x.go = false)
include hgo

/-- GO, late once the boundary of round C has passed (R184). -/
theorem stakeGo_goes : s.stakeGo sid x.gen x.c =
    s.modStake sid fun k => { k with commit := some { x with go := true, late := decide (x.c ≤ s.rnd.num) } } := by
  simp [State.stakeGo, commitOf_own hx, hgo]

theorem stakeAbortMsg_aborts : s.stakeAbortMsg sid x.gen x.c = s.abortCommit sid := by
  simp [State.stakeAbortMsg, commitOf_own hx, hgo]

/-- CURRENT, from which a device learns of a GO that it missed (R184). -/
theorem stakeCurrent_goes :
    s.stakeCurrent sid x.gen = s.modStake sid fun k => { k with commit := some { x with go := true, late := true } } := by
  simp [State.stakeCurrent, hx, hgo]

/-- A LOCAL device announces by its own generation alone (R182). -/
theorem announce_local (hc : x.c ≤ boundaryRnd s + 1) (ha : s.rnd.active = 0) : s.announce sid =
    if (genOf s sid x.gen).elim false (fun g => g.state == .ready) = true then
      s.modStake sid fun k => { k with commit := some { x with go := true } }
    else s.abortCommit sid := by
  cases hg : genOf s sid x.gen <;> simp [State.announce, hx, hg, hgo, Nat.not_lt.mpr hc, ha]

end

end

/-- An aborted commit leaves its stake set as it is otherwise (R183). -/
theorem abortCommit_stake : (s.abortCommit sid).stake sid = { s.stake sid with commit := none } := by
  unfold State.abortCommit
  split
  · next hnone => rw [← hnone]
  · rw [stake_of_stakes _ (finalRecord_frame (Nat.or_self _) Fr.rfl).stakes_eq, modStake_read]

/-- Settles O31: a message by what it does to the commit that it speaks of, the announcement by the generation's state. -/
theorem commitMessages : Obligations.CommitMessages := by
  intro s sid x hsid hx
  have hok : okStake sid = true := decide_eq_true hsid
  refine ⟨fun src part hsrc hpart ha hp => ?ready, fun hgo => ?go, fun hgo => ?abort, fun hgo => ?current, fun hgo hc ha => ?announce⟩
  case ready =>
    show act (okPos src && okStake sid && okPart part) s (s.stakeReady sid x.gen part x.c) = _
    rw [stakeReady_counts hx ha hp]
    exact act_ok (by simp [okPos, okPart, hok, hsrc, hpart]) rfl rfl
  case go =>
    show act (okStake sid) s (s.stakeGo sid x.gen x.c) = _
    rw [stakeGo_goes hx hgo]
    exact act_ok hok rfl rfl
  case abort =>
    refine answers_of_frame rfl hok (stakeAbortMsg_frame (Nat.or_self _) Fr.rfl) ?_
    rw [stakeAbortMsg_aborts hx hgo, abortCommit_stake]
    exact ⟨rfl, rfl⟩
  case current =>
    show act (okStake sid) s (s.stakeCurrent sid x.gen) = _
    rw [stakeCurrent_goes hx hgo]
    exact act_ok hok rfl rfl
  case announce =>
    refine answers_of_frame rfl hok (announce_frame (Nat.or_self _) Fr.rfl) ?_
    rw [announce_local hx hgo hc ha]
    split
    · rw [modStake_read]
    · rw [abortCommit_stake]

end Sys2Proof.Machine
end

section
/-! PROOFS. The stake-set command group (R166, R176 to R178, R181, R191, R195, R384). -/

namespace Sys2Proof.Machine

variable {s : State} {ch : Nat} {q : Req}

/-! ### What the start of a build keeps (R178, R179) -/

/-- A generation without the frames that its build takes. -/
def Gen.unframed (g : Gen) : Gen := { g with frames := [] }

/-- A build without the key generation under which its shard is asked. -/
def Build.unasked (b : Build) : Build := { b with burst := none }

/-- A stake set's build and the generation in a slot, without what the taking of frames and the request for a shard set in them. -/
def Stake.started (k : Stake) (slot : Nat) : Option Build × Gen := (k.build.map Build.unasked, (k.gen slot).unframed)

theorem modGen_stake (sid slot : Nat) (f : Gen → Gen) :
    (s.modGen sid slot f).stake sid = { s.stake sid with gens := adj {} (s.stake sid).gens slot f } := modStake_read _ _ _

theorem modGen_read (sid slot : Nat) (f : Gen → Gen) : ((s.modGen sid slot f).stake sid).gen slot = f ((s.stake sid).gen slot) := by
  rw [modGen_stake]
  exact look_adj_eq _ _ _ _

theorem modGen_read_ne (sid slot : Nat) (f : Gen → Gen) {i : Nat} (hi : i ≠ slot) :
    ((s.modGen sid slot f).stake sid).gen i = (s.stake sid).gen i := by
  rw [modGen_stake]
  exact look_adj_ne _ _ _ hi

theorem setFrames_started (sid slot i : Nat) (fs : List Nat) :
    ((s.modGen sid i fun g => { g with frames := fs }).stake sid).started slot = (s.stake sid).started slot := by
  refine Prod.ext (by rw [modGen_stake]; rfl) ?_
  show (((s.modGen sid i fun g => { g with frames := fs }).stake sid).gen slot).unframed = ((s.stake sid).gen slot).unframed
  by_cases hi : slot = i
  · rw [hi, modGen_read]
    rfl
  · rw [modGen_read_ne _ _ _ hi]

theorem takeTable_started {sid slot i : Nat} {t : State} (ht : s.takeTable sid i = some t) :
    (t.stake sid).started slot = (s.stake sid).started slot := by
  unfold State.takeTable at ht
  split at ht
  · cases ht
    rfl
  · split at ht
    · cases ht
    · cases ht
      rw [modStake_read]
      rfl

theorem tryBuildFrames_started (sid slot : Nat) : ((s.tryBuildFrames sid).stake sid).started slot = (s.stake sid).started slot := by
  have hwait : (s.waitFrame (.build sid)).stake sid = s.stake sid := stake_of_stakes _ (waitFrame_frame (Nat.or_self _) Fr.rfl).stakes_eq
  unfold State.tryBuildFrames
  split
  · rfl
  · dsimp only
    split
    · rfl
    · split
      · rw [hwait]
      · split
        · rw [hwait]
        · next htaken =>
          obtain ⟨r, hframes, htable⟩ := Option.bind_eq_some_iff.mp htaken
          obtain ⟨t, htable, heq⟩ := Option.map_eq_some_iff.mp htable
          cases heq
          rw [setFrames_started]
          refine (takeTable_started htable).trans ?_
          rw [stake_of_stakes _ ((takeFrames_frame (Nat.or_self _) Fr.rfl).out _ hframes).stakes_eq]

theorem askShard_started (sid slot : Nat) : ((s.askShard sid).stake sid).started slot = (s.stake sid).started slot := by
  unfold State.askShard
  split
  · rfl
  · next b hb =>
    dsimp only
    rw [stake_of_stakes _ (emit_frame (Nat.or_self _) Fr.rfl).stakes_eq, stake_of_stakes _ (pushMove_frame (Nat.or_self _) Fr.rfl).stakes_eq]
    show ((s.modStake sid fun x => { x with build := some { b with burst := some (s.skey (s.stake sid).keySlot).gen } }).stake sid).started slot = _
    rw [modStake_read]
    exact Prod.ext (congrArg (Option.map Build.unasked) hb).symm rfl

/-- The build that an accepted STAKE_BUILD begins. -/
def buildOf (s : State) (q : Req) (slot : Nat) : Build := { slot := slot, shard := 0, source := 0, since := s.rnd.num, note := q.note }

/-- An accepted STAKE_BUILD's generation and build entered in their stake set. -/
def State.enterBuild (q : Req) (slot : Nat) (s : State) : State :=
  (s.modGen (q.at 0 1) slot fun _ => buildGen q s (imageAt s (q.at 0 1) (q.at 16 8))).modStake (q.at 0 1) fun k =>
    { k with build := some (buildOf s q slot), maxStamp := max k.maxStamp (q.at 1 2) }

theorem enterBuild_started (slot : Nat) : ((s.enterBuild q slot).stake (q.at 0 1)).started slot =
    (some (buildOf s q slot), buildGen q s (imageAt s (q.at 0 1) (q.at 16 8))) := by
  rw [State.enterBuild, modStake_read]
  exact Prod.ext rfl (congrArg Gen.unframed (modGen_read _ _ _))

/-- What STAKE_BUILD leaves of its generation and of its build. -/
theorem started_build {k : Stake} {slot : Nat} (h : k.started slot = (some (buildOf s q slot), buildGen q s (imageAt s (q.at 0 1) (q.at 16 8)))) :
    (k.gen slot).state = .building ∧ (k.gen slot).gen = q.at 1 2 ∧ (k.gen slot).image = q.at 16 8 ∧
      ∃ b, k.build = some b ∧ b.slot = slot ∧ b.note = q.note := by
  obtain ⟨hbuild, hgen⟩ := Prod.mk.inj h
  obtain ⟨b, hb, hunasked⟩ := Option.map_eq_some_iff.mp hbuild
  exact ⟨congrArg Gen.state hgen, congrArg Gen.gen hgen, congrArg Gen.image hgen, b, hb, congrArg Build.slot hunasked, congrArg Build.note hunasked⟩

/-! ### The effects of the commands -/

theorem stakeRegister_new (hkey : q.at 1 1 ≤ 15) (hnew : (s.stake (q.at 0 1)).reg = false) (hroom : (countTab s.stakes fun _ k => k.reg) < 16) :
    stakeRegister q s = ({}, (s.modStake (q.at 0 1) fun _ => { reg := true, keySlot := q.at 1 1, autoEvict := q.bit 2 0 }).measured) := by
  simp [stakeRegister, checked, hkey, hnew, hroom]

/-- The commit that an accepted STAKE_COMMIT enters. -/
def commitAsked (q : Req) : Commit :=
  { gen := q.at 1 2, c := q.at 8 8, openRounds := q.at 3 2, ready := [], go := false, late := false, note := q.note }

section
variable (hreg : (s.stake (q.at 0 1)).reg = true)
include hreg

theorem stakeBuild_begins {slot : Nat} (hmode : q.at 3 1 ≤ 1)
    (hprobe : q.at 3 1 = 1 → q.at 4 1 ≤ probeN s (imageAt s (q.at 0 1) (q.at 16 8))) (hpeers : q.at 5 1 ≤ 8)
    (hend : q.pay / 256 ^ (40 + 16 * q.at 5 1) = 0) (hidle : ∀ g ∈ (s.stake (q.at 0 1)).gens, g.2.state ≠ .building ∧ g.2.state ≠ .ready)
    (hslot : freeSlot (s.stake (q.at 0 1)) = some slot) (himage : sdaBad s (q.at 16 8) 4096 false = none)
    (hmirror : q.at 24 8 = 0 ∨ sdaBad s (q.at 24 8) 4096 false = none) (hhost : q.at 32 8 = 0 ∨ sdaBad s (q.at 32 8) 4096 false = none)
    (hlive : (s.skey (s.stake (q.at 0 1)).keySlot).state = .live) (hok : imageOk s (q.at 0 1) (q.at 1 2) (imageAt s (q.at 0 1) (q.at 16 8)) = true)
    (hroom : shortfall (s.pressCommons (buildFrames s (q.at 0 1) slot (imageAt s (q.at 0 1) (q.at 16 8)).imgPages)) commonsAcct
      (buildFrames s (q.at 0 1) slot (imageAt s (q.at 0 1) (q.at 16 8)).imgPages) = 0) :
    stakeBuild q s = (pendingReply, ((s.enterBuild q slot).tryBuildFrames (q.at 0 1)).askShard (q.at 0 1)) := by
  have hbusy : ((s.stake (q.at 0 1)).gens.any fun g => g.2.state == .building || g.2.state == .ready) = false := by
    simpa using fun i g hg => hidle (i, g) hg
  have hsource : ∀ a, a = 0 ∨ sdaBad s a 4096 false = none → (!(a == 0) && (sdaBad s a 4096 false).isSome) = false := by
    rintro a (ha | ha) <;> simp [ha]
  have hagree : (q.at 3 1 == 1 && decide (probeN s (imageAt s (q.at 0 1) (q.at 16 8)) < q.at 4 1)) = false := by
    by_cases hm : q.at 3 1 = 1
    · simp [Nat.not_lt.mpr (hprobe hm)]
    · simp [hm]
  unfold stakeBuild
  simp only [hslot, Option.getD_some]
  simp [checked, noStake, hreg, hmode, hpeers, hend, hbusy, himage, hsource _ hmirror, hsource _ hhost, hlive, hok, hagree, hroom,
    State.enterBuild, buildOf]

theorem stakeCommit_accepted {g : Gen} (hnone : (s.stake (q.at 0 1)).commit = none) (hc : s.rnd.num + 4 ≤ q.at 8 8)
    (hg : genOf s (q.at 0 1) (q.at 1 2) = some g) (hready : g.state = .ready)
    (hq : g.qSel = true → (s.weaver g.commonsQ).commons = true ∧ (s.weaver g.commonsQ).state = .resident ∧
      (s.weaver g.commonsQ).genBound = g.gen) :
    stakeCommit q s = (pendingReply, (s.modStake (q.at 0 1) fun k => { k with commit := some (commitAsked q) }).sendReady (q.at 0 1)) := by
  have hqok : (g.qSel && (!(s.weaver g.commonsQ).commons || !((s.weaver g.commonsQ).state == .resident)
      || !((s.weaver g.commonsQ).genBound == g.gen))) = false := by
    cases hsel : g.qSel with
    | false => rfl
    | true =>
      obtain ⟨hcommons, hres, hbound⟩ := hq hsel
      simp [hcommons, hres, hbound]
  simp [stakeCommit, checked, noStake, hreg, hg, Option.filter, hready, Nat.not_lt.mpr hc, hqok, hnone, commitAsked]

theorem stakeCommit_unknown (hg : genOf s (q.at 0 1) (q.at 1 2) = none) : stakeCommit q s = (fail St.genInvalid, s) := by
  simp [stakeCommit, checked, noStake, hreg, hg]

theorem stakeAbort_ready {slot : Nat} (hnone : (s.stake (q.at 0 1)).build = none) (hslot : slotOf s (q.at 0 1) (q.at 1 2) = some slot)
    (hready : ((s.stake (q.at 0 1)).gen slot).state = .ready) :
    stakeAbort q s = ({}, (s.abortCommit (q.at 0 1)).modGen (q.at 0 1) slot fun g => { g with failed := true }) := by
  simp [stakeAbort, checked, noStake, hreg, hnone, hslot, hready]

theorem stakeQuery_eq : stakeQuery q s = (answerOf 144 (pack [(0, 32, (s.stake (q.at 0 1)).use), (64, 64, (s.stake (q.at 0 1)).lastRnd)]
    + 2 ^ 128 * concat 32 ((List.range 4).map (genRecord s (q.at 0 1)))), s) := by
  simp [stakeQuery, checked, noStake, hreg]

theorem stakeEvict_inUse (huse : (s.stake (q.at 0 1)).autoEvict = false ∨ stakeIdle s (q.at 0 1) = false) :
    stakeEvict q s = (fail St.stakeInUse, s) := by
  rcases huse with h | h <;> simp [stakeEvict, checked, noStake, hreg, h]

theorem stakeEvict_accepted (hauto : (s.stake (q.at 0 1)).autoEvict = true) (hidle : stakeIdle s (q.at 0 1) = true) :
    stakeEvict q s = (pendingReply, s.modStake (q.at 0 1) fun k => { k with evictNotes := k.evictNotes ++ [q.note] }) := by
  simp [stakeEvict, checked, noStake, hreg, hauto, hidle]

end

/-- A list of checks whose effect reads only leaves the state, refused or not. -/
theorem checked_reads (xs : List (Bool × Reply)) (r : Reply) : (checked xs (r, s) s).2 = s := by
  unfold checked
  split <;> rfl

theorem carryQuery_reads : carryQuery q s = ((carryQuery q s).1, s) := Prod.ext rfl (checked_reads _ _)

/-! ### What the commands answer -/

/-- A command that is refused, or only reads, leaves the stake sets. -/
theorem command_keepsStakes {c : Instr} {l : Layout} {present : Bool} {owns : Req → Bool} {eff : Req → State → Reply × State} {x : Reply}
    (ha : Admitted l present owns ch s) (hx : exec c s = act (okChan ch) s (s.command l present owns eff ch))
    (he : eff (reqOn s ch) s = (x, s)) : Answers c s fun t => Responded ch x s t ∧ t.stakes = s.stakes :=
  command_answers ha he hx (Fr.rfl (m := 0)) fun _ hr hf => ⟨hr, hf.stakes_eq⟩

/-- Settles O57: each command by what it does once it is admitted, and what its answer leaves. -/
theorem stakeCommands : Obligations.StakeCommands := by
  intro s ch q id k
  refine ⟨fun ha hkey hnew hroom => ?register, fun hreg => ⟨
    fun ha hmode hprobe hpeers hend hidle slot hslot himage hmirror hhost hlive hok hroom => ?build,
    fun ha hnone hc g hg hready hq => ?commit, fun ha hg => command_keepsStakes ha rfl (stakeCommit_unknown hreg hg),
    fun ha hnone slot hslot hready => ?abort, fun ha => command_keepsStakes ha rfl (stakeQuery_eq hreg),
    fun ha huse => command_keepsStakes ha rfl (stakeEvict_inUse hreg huse), fun ha hauto hidle => ?evict, fun ha _ => ?carry⟩⟩
  case register =>
    refine command_answers ha (stakeRegister_new hkey hnew hroom) rfl (measured_frame (m := 16781312) (by decide) (modStake_frame (by decide) Fr.rfl))
      fun t hr ht => ?_
    have hstakes := ht.stakes_eq.trans (measured_frame (Nat.or_self _) Fr.rfl).stakes_eq
    refine ⟨hr, ?_, fun i hi => ?_⟩
    · rw [stake_of_stakes _ hstakes, modStake_read]
    · rw [stake_of_stakes _ hstakes, modStake_read_ne _ _ _ hi]
  case build =>
    refine command_answers ha (stakeBuild_begins hreg hmode hprobe hpeers hend hidle hslot himage hmirror hhost hlive hok hroom) rfl
      (askShard_frame (m := 37000) (by decide) (tryBuildFrames_frame (by decide) (modStake_frame (by decide) (modGen_frame (by decide) Fr.rfl))))
      fun t hr ht => ⟨hr, started_build (s := s) ?_⟩
    rw [stake_of_stakes _ ht.stakes_eq, askShard_started, tryBuildFrames_started, enterBuild_started]
  case commit =>
    refine command_answers ha (stakeCommit_accepted hreg hnone hc hg hready hq) rfl
      (sendReady_frame (m := 1052680) (by decide) (modStake_frame (by decide) Fr.rfl)) fun t hr ht => ?_
    rw [stake_of_stakes _ (ht.stakes_eq.trans (sendReady_frame (Nat.or_self _) Fr.rfl).stakes_eq), modStake_read]
    exact ⟨hr, rfl, rfl⟩
  case abort =>
    refine command_answers ha (stakeAbort_ready hreg hnone hslot hready) rfl
      (modGen_frame (m := 35655816) (by decide) (abortCommit_frame (by decide) Fr.rfl)) fun t hr ht => ?_
    rw [stake_of_stakes _ ht.stakes_eq, modGen_read, abortCommit_stake]
    exact ⟨hr, rfl, hready⟩
  case evict =>
    refine command_answers ha (stakeEvict_accepted hreg hauto hidle) rfl (modStake_frame (m := 4096) (by decide) Fr.rfl)
      fun t hr ht => ⟨hr, ?_, ht.mem_eq, fun i hi => ?_⟩
    · rw [stake_of_stakes _ ht.stakes_eq, modStake_read]
    · rw [stake_of_stakes _ ht.stakes_eq, modStake_read_ne _ _ _ hi]
  case carry =>
    exact command_answers ha carryQuery_reads rfl (Fr.rfl (m := 0)) fun t hr ht => ⟨hr, ht.stakes_eq, ht.weav_eq⟩

end Sys2Proof.Machine
end

section
/-! PROOFS. The canonical form of the two memories, which every command keeps (R208, R210, R229). -/

namespace Sys2Proof.Machine

variable {s : State}

/-- A row whose list in `mayChange` has neither memory keeps both. -/
theorem exec_canon_of_keeps {c : Instr} (hk : ((mayChange c).contains .hbm || (mayChange c).contains .slow) = false) (h : Canon s) :
    CanonX (exec c s) := by
  obtain ⟨hhbm, hslow⟩ := Bool.or_eq_false_iff.mp hk
  have hmem : ∀ p, (mayChange c).contains p = false → ∀ t, exec c s = .next t → p.same s t := fun p hp t ht =>
    everyCommandFrame c s t ht p (by simpa using hp)
  refine ⟨fun t ht => ⟨?_, ?_⟩⟩
  · exact hmem .hbm hhbm t ht ▸ h.mem.hbm
  · exact hmem .slow hslow t ht ▸ h.mem.slow

/-- A row whose list in `mayChange` has neither memory keeps both; each of the others by what it carries out. -/
theorem exec_canon (c : Instr) (h : Canon s) : CanonX (exec c s) := by
  cases c with
  | stwAccepted => exact execStwAccepted_canon h
  | weaverRemoveComplete => exact execWeaverRemoveComplete_canon h
  | weaverShardFetched => exact execWeaverShardFetched_canon h
  | buildShardFetched => exact execBuildShardFetched_canon h
  | cleaningPassDone => exact execCleaningPassDone_canon h
  | evictionDone => exact execEvictionDone_canon h
  | frameFillDone => exact execFrameFillDone_canon h
  | frameZeroDone => exact execFrameZeroDone_canon h
  | hbmUncorrectable => exact execHbmUncorrectable_canon h
  | patrolScrub => exact execPatrolScrub_canon h
  | promotionDone => exact execPromotionDone_canon h
  | repairDone => exact execRepairDone_canon h
  | apertureAccess => exact execApertureAccess_canon h
  | copyBurst => exact execCopyBurst_canon h
  | courseComplete => exact execCourseComplete_canon h
  | acc => exact execAcc_canon h
  | adamw => exact execAdamw_canon h
  | sgdm => exact execSgdm_canon h
  | bucketSend => exact execBucketSend_canon h
  | learningStepStart => exact execLearningStepStart_canon h
  | memberSilence => exact execMemberSilence_canon h
  | ownerReport => exact execOwnerReport_canon h
  | pieceLost => exact execPieceLost_canon h
  | publishApply => exact execPublishApply_canon h
  | ringContrib => exact execRingContrib_canon h
  | stepLedger => exact execStepLedger_canon h
  | twineBounce => exact execTwineBounce_canon h
  | twineResult => exact execTwineResult_canon h
  | verdict => exact execVerdict_canon h
  | workingCopyShard => exact execWorkingCopyShard_canon h
  | trainJobStart => exact execTrainJobStart_canon h
  | trainJobStop => exact execTrainJobStop_canon h
  | rocePacket => exact execRocePacket_canon h
  | weaverRemove => exact execWeaverRemove_canon h
  | contextScrubDone => exact execContextScrubDone_canon h
  | flr => exact execFlr_canon h
  | cellSaveDone => exact execCellSaveDone_canon h
  | spareLoadDone => exact execSpareLoadDone_canon h
  | blockRelease => exact execBlockRelease_canon h
  | d3coldEntry => exact execD3coldEntry_canon h
  | d3coldWindowExpiry => exact execD3coldWindowExpiry_canon h
  | lidReset => exact execLidReset_canon h
  | mainPowerReturn => exact execMainPowerReturn_canon h
  | pcieHotReset => exact execPcieHotReset_canon h
  | perstAssert => exact execPerstAssert_canon h
  | pwrokCycle => exact execPwrokCycle_canon h
  | railUvReset => exact execRailUvReset_canon h
  | vaonPowerOn => exact execVaonPowerOn_canon h
  | warmReset => exact execWarmReset_canon h
  | fabricFailed => exact execFabricFailed_canon h
  | lidSelfCheckFail => exact execLidSelfCheckFail_canon h
  | linkRetrainDone => exact execLinkRetrainDone_canon h
  | sramUncorrectable => exact execSramUncorrectable_canon h
  | shelfEntry => exact execShelfEntry_canon h
  | thermalTrip => exact execThermalTrip_canon h
  | keyRevoke => exact execKeyRevoke_canon h
  | operatorSet => exact execOperatorSet_canon h
  | journalRead => exact execJournalRead_canon h
  | roundTick => exact execRoundTick_canon h
  | ctxRemove => exact execCtxRemove_canon h
  | _ => exact exec_canon_of_keeps rfl h

/-- Settles O5: a step carries out the front command on the state without it, whose memories are the same. -/
theorem memoryStaysCanonical : Obligations.MemoryStaysCanonical := by
  refine fun s t hwf hstep => (canon_iff t).mp ?_
  have hs : Canon s := (canon_iff s).mpr hwf
  unfold step at hstep
  split at hstep
  · cases hstep
    exact hs
  · next c rest _ =>
    have hrest : Canon { s with pending := rest } := ⟨hs.mem⟩
    exact (exec_canon c hrest).out t hstep

end Sys2Proof.Machine
end

section
/-! PROOFS. The end of a copy (R348, R363): a FREE queue pair takes no record. -/

namespace Sys2Proof.Machine

/-- A COPY descriptor that a queue pair holds. -/
def freeCopy : DescS := { idx := 0, raw := 1 }

/-- Queue pair 0 is FREE and holds a copy; the function of its context has been reset. -/
def freeHolds : State := { State.reset with host := { qps := [(0, { descs := [freeCopy] })], flrCut := [0] } }

theorem freeHolds_active : activeCopy freeHolds 0 0 = some freeCopy := by decide +kernel

/-- The copy ends, and no record of it is written. -/
theorem freeHolds_shadow : ∃ t, exec (.copyBurst 0 0 .failed) freeHolds = .next t ∧ (t.qp 0).shadow = [] := ⟨_, rfl, by decide +kernel⟩

/-- Refutes O42: a copy of a FREE queue pair, whose context's function has been reset, ends, and no record in the queue pair's shadow ring has
HOST_LOST. -/
theorem not_copiesAndHostWindow : ¬ Obligations.CopiesAndHostWindow := by
  intro h
  obtain ⟨hcut, -⟩ := h.1 freeHolds 0 0 (by decide) (by decide)
  obtain ⟨t, ht, -, r, hr, hstatus, -⟩ := hcut freeCopy .failed freeHolds_active rfl rfl rfl rfl
  obtain ⟨u, hu, hshadow⟩ := freeHolds_shadow
  cases ht.symm.trans hu
  rw [hshadow] at hr
  cases hr
  cases hstatus

end Sys2Proof.Machine
end

section
/-! PROOFS. The rules that the proofs about the memory's tables share: what an operation that touches no table, the end of long commands and the
marking of poisoned lines leave of frames, page-table entries and counters (R208 to R211, R232, R237). -/

namespace Sys2Proof.Machine

variable {s t : State}

/-! ### Reads by one table -/

theorem frame_of_frames (k : Nat) (h : t.mem.frames = s.mem.frames) : t.frame k = s.frame k := by simp [State.frame, h]
theorem pteAt_of_pte (k : Nat) (h : t.mem.pte = s.mem.pte) : t.pteAt k = s.pteAt k := by simp [State.pteAt, h]
theorem Fr.msd_eq {m : Nat} {o : State} (h : Fr m o s) (hb : m.testBit Part.msd.code = false := by decide) : s.msd = o.msd := h.same .msd hb

theorem modMig_read (d : Nat) (g : MigCnt → MigCnt) : look {} (s.modMig d g).mem.mig d = g (look {} s.mem.mig d) := look_adj_eq _ _ _ _

/-! ### Folds over a list -/

/-- A fold keeps a relation that each of its steps keeps. -/
theorem each_rel {α : Type} {R : State → State → Prop} (hrefl : ∀ s, R s s) (htrans : ∀ {a b c}, R a b → R b c → R a c) {f : α → State → State}
    (hf : ∀ x t, R t (f x t)) (xs : List α) (s : State) : R s (s.each xs f) := by
  induction xs generalizing s with
  | nil => exact hrefl s
  | cons x xs ih => exact htrans (hf x s) (ih (f x s))

/-- A change of page-table entries that gives nothing new a second time is made once at each key of a list. -/
theorem each_modPte {g : Pte → Pte} (hg : ∀ e, g (g e) = g e) (ks : List Nat) (s : State) (j : Nat) :
    (s.each ks fun k s => s.modPte k g).pteAt j = if j ∈ ks then g (s.pteAt j) else s.pteAt j := by
  induction ks generalizing s with
  | nil => rfl
  | cons k ks ih =>
    refine (ih (s.modPte k g)).trans ?_
    by_cases hj : j = k
    · subst hj
      simp [hg]
    · simp [modPte_read_ne _ _ _ hj, hj]

/-! ### Moves -/

theorem pushMove_mem (m : Move) : (s.pushMove m).mem = s.mem := (pushMove_frame (Nat.or_self _) Fr.rfl).mem_eq

/-- A move of a frame's content touches of the memory only the frame's burst. -/
theorem moveFrame_mem (f n : Nat) : (s.moveFrame f n).mem =
    (s.modFrame f fun e => { e with burst := if n = 0 then none else some (frameKey s (s.frame f)).gen }).mem := by
  unfold State.moveFrame
  dsimp only
  have hp := pushMove_mem (s := s.dropMove (.frame f)) { what := .frame f, cls := Act.migrate, bytes := n }
  generalize (s.dropMove (.frame f)).pushMove { what := .frame f, cls := Act.migrate, bytes := n } = u at hp
  show Mem.mk .. = Mem.mk ..
  rw [hp]
  rfl

theorem copyOut_frames (f off n a : Nat) : (s.copyOut f off n a).mem.frames = s.mem.frames := by
  unfold State.copyOut
  rfl

theorem writeBack_frames (f mask : Nat) : (s.writeBack f mask).mem.frames = s.mem.frames :=
  each_keeps (fun t => t.mem.frames) (fun _ _ => copyOut_frames _ _ _ _) _ s

/-! ### The end of long commands (R232) -/

/-- The completion of long commands touches of the memory only their list. -/
theorem finishWorks_mem : ∃ ws, s.finishWorks.mem = { s.mem with works := ws } := by
  have htrans : ∀ {a b c : State}, (∃ ws, b.mem = { a.mem with works := ws }) → (∃ ws, c.mem = { b.mem with works := ws }) →
      ∃ ws, c.mem = { a.mem with works := ws } := by
    rintro a b c ⟨v, hv⟩ ⟨w, hw⟩
    exact ⟨w, by rw [hw, hv]⟩
  refine each_rel (R := fun s t => ∃ ws, t.mem = { s.mem with works := ws }) (fun s => ⟨s.mem.works, rfl⟩) htrans (fun w t => ?_) _ s
  split
  · exact ⟨t.mem.works.erase w, (finalRecord_frame (Nat.or_self _) Fr.rfl).mem_eq⟩
  · exact ⟨t.mem.works, rfl⟩

/-- A part of the memory other than the list of long commands outlasts their completion. -/
theorem finishWorks_keeps {α : Type} (g : Mem → α) (hg : ∀ m ws, g { m with works := ws } = g m) : g s.finishWorks.mem = g s.mem := by
  obtain ⟨ws, hws⟩ := finishWorks_mem (s := s)
  rw [hws, hg]

theorem finishWorks_frames : s.finishWorks.mem.frames = s.mem.frames := finishWorks_keeps Mem.frames fun _ _ => rfl
theorem finishWorks_pte : s.finishWorks.mem.pte = s.mem.pte := finishWorks_keeps Mem.pte fun _ _ => rfl
theorem finishWorks_hbm : s.finishWorks.mem.hbm = s.mem.hbm := finishWorks_keeps Mem.hbm fun _ _ => rfl
theorem finishWorks_slow : s.finishWorks.mem.slow = s.mem.slow := finishWorks_keeps Mem.slow fun _ _ => rfl

/-! ### Marks of poison (R237) -/

def FrameE.unmarked (e : FrameE) : FrameE := { e with poison := false }
def Pte.unmarked (e : Pte) : Pte := { e with poison := false }
def MigCnt.unmarked (m : MigCnt) : MigCnt := { m with detected := 0 }

/-- What marks of poison leave of the tables: frames and page-table entries but for POISON, and the counters but for those detected. -/
structure Marked (s t : State) : Prop where
  frames : ∀ k, (t.frame k).unmarked = (s.frame k).unmarked
  ptes : ∀ k, (t.pteAt k).unmarked = (s.pteAt k).unmarked
  mig : ∀ d, (look {} t.mem.mig d).unmarked = (look {} s.mem.mig d).unmarked

namespace Marked

theorem refl (s : State) : Marked s s := ⟨fun _ => rfl, fun _ => rfl, fun _ => rfl⟩

theorem trans {a b c : State} (h : Marked a b) (g : Marked b c) : Marked a c :=
  ⟨fun k => (g.frames k).trans (h.frames k), fun k => (g.ptes k).trans (h.ptes k), fun d => (g.mig d).trans (h.mig d)⟩

theorem of_mem (h : t.mem = s.mem) : Marked s t :=
  ⟨fun k => by rw [frame_of_mem k h], fun k => by rw [pteAt_of_mem k h], fun d => by rw [h]⟩

theorem modFrame {f : Nat} {g : FrameE → FrameE} (hg : ∀ e, (g e).unmarked = e.unmarked) : Marked s (s.modFrame f g) := by
  refine ⟨fun k => ?_, fun _ => rfl, fun _ => rfl⟩
  by_cases hk : k = f
  · rw [hk, modFrame_read, hg]
  · rw [modFrame_read_ne _ _ _ hk]

theorem modPte {k : Nat} {g : Pte → Pte} (hg : ∀ e, (g e).unmarked = e.unmarked) : Marked s (s.modPte k g) := by
  refine ⟨fun _ => rfl, fun j => ?_, fun _ => rfl⟩
  by_cases hj : j = k
  · rw [hj, modPte_read, hg]
  · rw [modPte_read_ne _ _ _ hj]

theorem modMig {d : Nat} {g : MigCnt → MigCnt} (hg : ∀ m, (g m).unmarked = m.unmarked) : Marked s (s.modMig d g) := by
  refine ⟨fun _ => rfl, fun _ => rfl, fun j => ?_⟩
  show (look {} (adj {} s.mem.mig d g) j).unmarked = _
  by_cases hj : j = d
  · rw [hj, look_adj_eq, hg]
  · rw [look_adj_ne _ _ _ hj]

theorem setMarks (ms : List (Nat × Nat × Nat)) : Marked s { s with mem := { s.mem with marks := ms } } :=
  ⟨fun _ => rfl, fun _ => rfl, fun _ => rfl⟩

theorem setRepairs (rs : List Repair) : Marked s { s with mem := { s.mem with repairs := rs } } :=
  ⟨fun _ => rfl, fun _ => rfl, fun _ => rfl⟩

theorem addLine (x : Nat × Nat) : Marked s { s with mem := { s.mem with lines := x :: s.mem.lines } } :=
  ⟨fun _ => rfl, fun _ => rfl, fun _ => rfl⟩

theorem each {α : Type} {f : α → State → State} (hf : ∀ x t, Marked t (f x t)) (xs : List α) (s : State) : Marked s (s.each xs f) :=
  each_rel refl trans hf xs s

theorem refreshPoison (f : Nat) : Marked s (s.refreshPoison f) :=
  ((setMarks _).trans (modFrame fun _ => by rfl)).trans (each (fun _ _ => modPte fun _ => by rfl) _ _)

theorem startRepair (f granule : Nat) (back : Option Nat) : Marked s (s.startRepair f granule back) := by
  unfold State.startRepair
  dsimp only
  split
  · exact refl s
  · exact setRepairs _

end Marked

/-- A line entered among the poisoned ones, once. -/
def State.enterLine (x : Nat × Nat) (s : State) : State :=
  if s.mem.lines.contains x then s else { s with mem := { s.mem with lines := x :: s.mem.lines } }

/-- A granule's first poisoned line noted: listed, counted and journalled. -/
def State.noteGranule (f g code : Nat) (s : State) : State :=
  (({ s with mem := { s.mem with marks := s.mem.marks ++ [(f, g, s.rnd.num)] } }.modMig (msdOfFrame f) fun m =>
    { m with detected := sat 16 (m.detected + 1) }).journal
    { code := code, cls := Cls.recovered, blk := Blk.hbm, unit := msdOfFrame f, ctx := (s.frame f).ctx, detail := f + g * 2 ^ 32 })

theorem poison_eq (f line code : Nat) (back : Option Nat) : s.poison f line code back =
    ((if !(s.mem.lines.any fun x => x.1 == f && x.2 / 64 == line / 64) then
      ((s.enterLine (f, line)).refreshPoison f).noteGranule f (line / 64) code
    else (s.enterLine (f, line)).refreshPoison f).startRepair f (line / 64) back) := rfl

theorem Marked.enterLine (x : Nat × Nat) : Marked s (s.enterLine x) := by
  unfold State.enterLine
  split
  · exact .refl s
  · exact .addLine x

theorem Marked.noteGranule (f g code : Nat) : Marked s (s.noteGranule f g code) := by
  have hcount : ∀ t : State, Marked t (t.modMig (msdOfFrame f) fun m => { m with detected := sat 16 (m.detected + 1) }) :=
    fun _ => .modMig fun _ => rfl
  exact ((Marked.setMarks _).trans (hcount _)).trans (.of_mem (journal_frame (Nat.or_self _) Fr.rfl).mem_eq)

theorem Marked.poison (f line code : Nat) (back : Option Nat) : Marked s (s.poison f line code back) := by
  have hline : Marked s ((s.enterLine (f, line)).refreshPoison f) := (Marked.enterLine _).trans (.refreshPoison f)
  rw [poison_eq]
  split
  · exact (hline.trans (.noteGranule _ _ _)).trans (.startRepair _ _ _)
  · exact hline.trans (.startRepair _ _ _)

theorem Marked.poisonFrom (f a : Nat) (bad : List Nat) : Marked s (s.poisonFrom f a bad) := .each (fun _ _ => .poison _ _ _ _) _ _

end Sys2Proof.Machine
end

section
/-! PROOFS. The rows that end a move of a frame's content: fills, promotions, evictions, zeroing and cleaning passes (R214, R217, R230, R231, R265). -/

namespace Sys2Proof.Machine

variable {s : State} {f : Nat}

/-! ### A move whose units are not all admitted -/

section
variable (h : moveLeft s (.frame f) ≠ 0)
include h

theorem fillDone_waits : s.fillDone f = s := by
  unfold State.fillDone
  dsimp only
  split
  · rw [if_pos (.inr h)]
  · rfl

theorem promotionDone_waits : s.promotionDone f = s := if_pos (.inr (.inr h))

theorem evictionDone_waits : s.evictionDone f = s := if_pos (.inr (.inr h))

end

theorem zeroDone_waits (h : moveLeft s (.zero f) ≠ 0) : s.zeroDone f = s := if_pos (.inr h)

/-! ### The burst of a move (R265) -/

/-- A burst under an earlier generation of its key slot is not served: it is counted, and the move begins again or is given up. -/
theorem burstServes_stale {g : Nat} (hb : (s.frame f).burst = some g) (hg : g ≠ (frameKey s (s.frame f)).gen) :
    s.burstServes f = (false, if (frameKey s (s.frame f)).state = .live
      then (s.countStale (msdOfFrame f)).moveFrame f (moveBytes (s.countStale (msdOfFrame f)) f)
      else (s.countStale (msdOfFrame f)).endMove f) := by
  simp [State.burstServes, hb, hg]

theorem burstServes_live (hb : (s.frame f).burst = some (frameKey s (s.frame f)).gen) (hk : (frameKey s (s.frame f)).state = .live) :
    s.burstServes f = (true, s) := by
  simp [State.burstServes, hb, hk]

/-- What a stale burst leaves: both memories, and one more count on the frame's die. -/
theorem burstServes_stale_keeps {g : Nat} (hb : (s.frame f).burst = some g) (hg : g ≠ (frameKey s (s.frame f)).gen) :
    let t := (s.burstServes f).2
    t.mem.hbm = s.mem.hbm ∧ t.mem.slow = s.mem.slow ∧ (t.msdOf (msdOfFrame f)).stale = sat 32 ((s.msdOf (msdOfFrame f)).stale + 1) := by
  have hcount : ((s.countStale (msdOfFrame f)).msdOf (msdOfFrame f)).stale = sat 32 ((s.msdOf (msdOfFrame f)).stale + 1) :=
    congrArg Msd.stale (modMsd_read s _ _)
  have hmove : ∀ {t : State}, Fr 32896 (s.countStale (msdOfFrame f)) t → t.mem.hbm = s.mem.hbm ∧ t.mem.slow = s.mem.slow ∧
      (t.msdOf (msdOfFrame f)).stale = sat 32 ((s.msdOf (msdOfFrame f)).stale + 1) := fun ht =>
    ⟨ht.hbm_eq, ht.slow_eq, by rw [msdOf_of_msd _ ht.msd_eq, hcount]⟩
  rw [burstServes_stale hb hg]
  dsimp only
  split
  · exact hmove (moveFrame_frame (Nat.or_self _) Fr.rfl)
  · exact hmove (endMove_frame (Nat.or_self _) Fr.rfl)

/-! ### What the moves leave -/

/-- What a promotion makes of the page-table entries of its page: the page lies in the frame, its slow-tier copy kept as backing. -/
def Pte.promoted (f : Nat) (p : Pte) : Pte := { p with tier := .t1, frame := f, backed := true, heat := 0 }

/-- The frame that a promotion has filled, its page's entries switched to it, and the promotion counted. -/
def State.promotedTo (f : Nat) (s : State) : State :=
  (((s.copyIn f (s.frame f).back).modFrame f fun e =>
    { e with state := .resident, backed := true, dirty := 0, byHeat := none, burst := none }).each (ptesAt s (s.frame f).back) fun k s =>
      s.modPte k (Pte.promoted f)).modMig (msdOfFrame f) fun m => { m with promoted := sat 16 (m.promoted + 1) }

theorem promotedTo_mem : let t := s.promotedTo f
    t.mem.hbm = wrBytes s.mem.hbm (f * frameBytes) (slowRead (frameSeal s f) s (s.frame f).back frameBytes) ∧ t.mem.slow = s.mem.slow ∧
      t.frame f = { s.frame f with state := .resident, backed := true, dirty := 0, byHeat := none, burst := none } ∧
      (∀ k ∈ ptesAt s (s.frame f).back, t.pteAt k = (s.pteAt k).promoted f) ∧
      look {} t.mem.mig (msdOfFrame f) = { look {} s.mem.mig (msdOfFrame f) with promoted := sat 16 ((look {} s.mem.mig (msdOfFrame f)).promoted + 1) } := by
  unfold State.promotedTo
  generalize hu : (s.copyIn f (s.frame f).back).modFrame f _ = u
  generalize hv : u.each _ _ = v
  have hkeep : ∀ {β : Type} (g : State → β), (∀ k t, g (t.modPte k (Pte.promoted f)) = g t) → g v = g u := fun g hg => by
    rw [← hv]
    exact each_keeps g hg _ _
  refine ⟨(hkeep (fun t => t.mem.hbm) fun _ _ => rfl).trans ?_, (hkeep (fun t => t.mem.slow) fun _ _ => rfl).trans ?_,
    (hkeep (fun t => t.frame f) fun _ _ => rfl).trans ?_, fun k hk => ?_, ?_⟩
  · rw [← hu]; rfl
  · rw [← hu]; rfl
  · rw [← hu]; exact modFrame_read _ _ _
  · show v.pteAt k = _
    rw [← hv, each_modPte (g := Pte.promoted f) fun _ => rfl, if_pos hk, ← hu]
    rfl
  · rw [modMig_read, hkeep (fun t => t.mem.mig) fun _ _ => rfl, ← hu]
    rfl

theorem leaveFrame_unmapped (hp : (ptesOf s f).isEmpty = true) : s.leaveFrame f = (s.forget f).zeroFrame f := if_pos hp

/-- A frame that is being zeroed from now on (R217). -/
def FrameE.emptied (e : FrameE) : FrameE :=
  { e with state := .evicting, zeroing := true, mapped := false, backed := false, cleaning := false, pass := 0, dirty := 0, byHeat := none, burst := none }

/-- Zeroing touches of the memory only the frame's entry. -/
theorem zeroFrame_mem : (s.zeroFrame f).mem = (s.modFrame f FrameE.emptied).mem := by
  unfold State.zeroFrame
  dsimp only
  split
  · rfl
  · exact pushMove_mem _

/-- The granules that a mask names are those of its bits below 2^n. -/
theorem sum_bits (mask n : Nat) : ((((List.range n).filter fun i => bit mask i).map fun i => 2 ^ i).sum) = mask % 2 ^ n := by
  induction n with
  | zero => simp [Nat.mod_one]
  | succ n ih =>
    rw [List.range_succ, List.filter_append, List.map_append, List.sum_append, ih, Nat.mod_pow_succ]
    congr 1
    have hbit := Nat.mod_two_eq_zero_or_one (mask / 2 ^ n)
    rcases hbit with hbit | hbit <;> simp [bit, hbit]

/-- A pass none of whose units waits has written all its granules. -/
theorem passDone_zero {mask : Nat} (h : mask < 2 ^ 32) : passDone mask 0 = mask := by
  unfold passDone
  dsimp only
  rw [Nat.sub_zero, List.take_length, sum_bits, Nat.mod_eq_of_lt h]

/-! ### Fills and promotions (R214) -/

section
variable (hm : moveLeft s (.frame f) = 0)
include hm

theorem fillDone_stale {a g : Nat} (hst : (s.frame f).state = .filling) (hfrom : (s.frame f).fillFrom = some a) (hup : slowUp s a = true)
    (hb : (s.frame f).burst = some g) (hg : g ≠ (frameKey s (s.frame f)).gen) : s.fillDone f = (s.burstServes f).2 := by
  simp [State.fillDone, hst, hfrom, hup, hm, burstServes_stale hb hg]

variable (hb : (s.frame f).burst = some (frameKey s (s.frame f)).gen) (hk : (frameKey s (s.frame f)).state = .live)
include hb hk

/-- The content of a fill in its frame, which holds it from now on. -/
theorem fillDone_lands {a : Nat} (hst : (s.frame f).state = .filling) (hfrom : (s.frame f).fillFrom = some a) (hup : slowUp s a = true) :
    s.fillDone f = (((s.copyIn f a).modFrame f fun e => { e with state := .resident, fillFrom := none, burst := none }).poisonFrom f a
      (slowBadIn s a frameBytes)).finishWorks := by
  simp [State.fillDone, hst, hfrom, hup, hm, burstServes_live hb hk]

theorem fillDone_leaves {a : Nat} (hst : (s.frame f).state = .filling) (hfrom : (s.frame f).fillFrom = some a) (hup : slowUp s a = true) :
    let t := s.fillDone f
    t.mem.hbm = wrBytes s.mem.hbm (f * frameBytes) (slowRead (frameSeal s f) s a frameBytes) ∧
      (t.frame f).state = .resident ∧ (t.frame f).fillFrom = none ∧ t.mem.slow = s.mem.slow := by
  rw [fillDone_lands hm hb hk hst hfrom hup]
  dsimp only
  rw [frame_of_frames f finishWorks_frames, finishWorks_hbm, finishWorks_slow]
  generalize hu : (s.copyIn f a).modFrame f _ = u
  have hframe := (Marked.poisonFrom (s := u) f a (slowBadIn s a frameBytes)).frames f
  have hpoison : Fr 35684488 u (u.poisonFrom f a (slowBadIn s a frameBytes)) := poisonFrom_frame (Nat.or_self _) Fr.rfl
  have hread : u.frame f = { s.frame f with state := .resident, fillFrom := none, burst := none } := by
    rw [← hu]
    exact modFrame_read _ _ _
  rw [hread] at hframe
  refine ⟨hpoison.hbm_eq.trans ?_, congrArg FrameE.state hframe, congrArg FrameE.fillFrom hframe, hpoison.slow_eq.trans ?_⟩ <;>
    · rw [← hu]
      rfl

theorem promotionDone_lands (hst : (s.frame f).state = .promoting) (hup : slowUp s (s.frame f).back = true) :
    s.promotionDone f = ((s.promotedTo f).refreshPoison f).poisonFrom f (s.frame f).back (slowBadIn s (s.frame f).back frameBytes) := by
  simp [State.promotionDone, hst, hup, hm, burstServes_live hb hk]
  rfl

theorem promotionDone_leaves (hst : (s.frame f).state = .promoting) (hup : slowUp s (s.frame f).back = true) :
    let t := s.promotionDone f
    t.mem.hbm = wrBytes s.mem.hbm (f * frameBytes) (slowRead (frameSeal s f) s (s.frame f).back frameBytes) ∧
      (t.frame f).state = .resident ∧ (t.frame f).backed = true ∧ (t.frame f).dirty = 0 ∧ t.mem.slow = s.mem.slow ∧
      (∀ k ∈ ptesAt s (s.frame f).back, (t.pteAt k).tier = .t1 ∧ (t.pteAt k).frame = f ∧ (t.pteAt k).backed = true) ∧
      (look {} t.mem.mig (msdOfFrame f)).promoted = sat 16 ((look {} s.mem.mig (msdOfFrame f)).promoted + 1) := by
  rw [promotionDone_lands hm hb hk hst hup]
  obtain ⟨hhbm, hslow, hframe, hpte, hmig⟩ := promotedTo_mem (s := s) (f := f)
  generalize s.promotedTo f = u at *
  obtain ⟨hframes, hptes, hmigs⟩ := (Marked.refreshPoison (s := u) f).trans
    (.poisonFrom f (s.frame f).back (slowBadIn s (s.frame f).back frameBytes))
  have hpoison : Fr 35684488 u ((u.refreshPoison f).poisonFrom f (s.frame f).back (slowBadIn s (s.frame f).back frameBytes)) :=
    poisonFrom_frame (Nat.or_self _) (refreshPoison_frame (by decide) Fr.rfl)
  have hf := hframes f
  have hd := hmigs (msdOfFrame f)
  rw [hframe] at hf
  rw [hmig] at hd
  refine ⟨hpoison.hbm_eq.trans hhbm, congrArg FrameE.state hf, congrArg FrameE.backed hf, congrArg FrameE.dirty hf, hpoison.slow_eq.trans hslow,
    fun k hkey => ?_, congrArg MigCnt.promoted hd⟩
  have hp := hptes k
  rw [hpte k hkey] at hp
  exact ⟨congrArg Pte.tier hp, congrArg Pte.frame hp, congrArg Pte.backed hp⟩

/-! ### Evictions (R231) -/

/-- An eviction of a frame whose page is not mapped any more keeps nothing of it. -/
theorem evictionDone_unmapped (hst : (s.frame f).state = .evicting) (hz : (s.frame f).zeroing = false) (hkind : (s.frame f).kind ≠ 3)
    (hp : (ptesOf s f).isEmpty = true) : s.evictionDone f =
      ((s.forget f).zeroFrame f).modMig (msdOfFrame f) fun m => { m with evicted := sat 16 (m.evicted + 1) } := by
  have hnone : leaveTarget s f = none := by simp [leaveTarget, hp]
  have hzero : (((s.forget f).zeroFrame f).frame f).zeroing = true := by
    rw [frame_of_mem f zeroFrame_mem, modFrame_read]
    rfl
  simp [State.evictionDone, hst, hz, hm, hnone, burstServes_live hb hk, hkind, leaveFrame_unmapped hp, hzero]

theorem evictionDone_leaves (hst : (s.frame f).state = .evicting) (hz : (s.frame f).zeroing = false) (hkind : (s.frame f).kind ≠ 3)
    (hp : (ptesOf s f).isEmpty = true) :
    let t := s.evictionDone f
    (t.frame f).state = .evicting ∧ (t.frame f).zeroing = true ∧ t.mem.hbm = s.mem.hbm ∧ t.mem.slow = s.mem.slow ∧ (∀ l, (f, l) ∉ t.mem.lines) ∧
      (look {} t.mem.mig (msdOfFrame f)).evicted = sat 16 ((look {} s.mem.mig (msdOfFrame f)).evicted + 1) := by
  rw [evictionDone_unmapped hm hb hk hst hz hkind hp]
  have hmem := zeroFrame_mem (s := s.forget f) (f := f)
  generalize (s.forget f).zeroFrame f = u at hmem
  have hframe : u.frame f = (s.frame f).emptied := (frame_of_mem f hmem).trans (modFrame_read _ _ _)
  have hlines : u.mem.lines = s.mem.lines.filter fun x => x.1 != f := congrArg Mem.lines hmem
  have hhbm : u.mem.hbm = s.mem.hbm := by rw [hmem]; rfl
  have hslow : u.mem.slow = s.mem.slow := by rw [hmem]; rfl
  have hmig : u.mem.mig = s.mem.mig := by rw [hmem]; rfl
  refine ⟨congrArg FrameE.state hframe, congrArg FrameE.zeroing hframe, hhbm, hslow, fun l hl => ?_, ?_⟩
  · replace hl : (f, l) ∈ u.mem.lines := hl
    rw [hlines] at hl
    simp at hl
  · rw [modMig_read, hmig]

/-! ### Cleaning passes (R230) -/

section
variable (hc : (s.frame f).cleaning = true) (hup : slowUp s (s.frame f).back = true) (hkind : (s.frame f).kind ≠ 3)
  (hpass : (s.frame f).pass = (s.frame f).dirty) (hd : (s.frame f).dirty < 2 ^ 32)
include hc hup hkind hpass hd

theorem cleanStep_writes (hne : (s.frame f).dirty ≠ 0) : s.cleanStep f = (s.writeBack f (s.frame f).dirty).modFrame f fun e =>
    { e with dirty := e.dirty - (e.dirty &&& (s.frame f).dirty), pass := e.pass - (e.pass &&& (s.frame f).dirty) } := by
  have hout : passDone (s.frame f).pass (ceilDiv (moveLeft s (.frame f)) 65536) = (s.frame f).dirty := by
    rw [hm, hpass]
    exact passDone_zero hd
  simp [State.cleanStep, hout, hc, hup, hne, hb, hk, hkind]

/-- A pass over every dirty granule leaves none dirty. -/
theorem cleanStep_leaves : let t := s.cleanStep f
    t.frame f = { s.frame f with dirty := 0, pass := 0 } ∧ t.mem.hbm = s.mem.hbm ∧ t.mem.slow = (s.writeBack f (s.frame f).dirty).mem.slow := by
  by_cases hne : (s.frame f).dirty = 0
  · have hnone : s.cleanStep f = s := by
      unfold State.cleanStep
      dsimp only
      rw [hpass, hne, hm, if_pos (.inr (.inr (.inl rfl)))]
    rw [hnone, hne]
    refine ⟨?_, rfl, rfl⟩
    rw [hne] at hpass
    generalize s.frame f = e at hne hpass
    cases e
    cases hne
    cases hpass
    rfl
  · have hback : (s.writeBack f (s.frame f).dirty).frame f = s.frame f := frame_of_frames f (writeBack_frames _ _)
    rw [cleanStep_writes hm hb hk hc hup hkind hpass hd hne]
    refine ⟨?_, (writeBack_frame (Nat.or_self _) Fr.rfl).hbm_eq, rfl⟩
    rw [modFrame_read, hback, hpass, Nat.and_self, Nat.sub_self]

theorem cleanDone_ends : s.cleanDone f = ((s.cleanStep f).modFrame f fun e =>
    { e with state := if e.state = .dirty then .resident else e.state, cleaning := false, burst := none }).finishWorks := by
  obtain ⟨hframe, -, -⟩ := cleanStep_leaves hm hb hk hc hup hkind hpass hd
  simp [State.cleanDone, hframe, hc]

theorem cleanDone_leaves : let t := s.cleanDone f
    (t.frame f).dirty = 0 ∧ (t.frame f).cleaning = false ∧ (t.frame f).state = (if (s.frame f).state = .dirty then .resident else (s.frame f).state) ∧
      t.mem.hbm = s.mem.hbm ∧ t.mem.slow = (s.writeBack f (s.frame f).dirty).mem.slow := by
  obtain ⟨hframe, hhbm, hslow⟩ := cleanStep_leaves hm hb hk hc hup hkind hpass hd
  rw [cleanDone_ends hm hb hk hc hup hkind hpass hd]
  dsimp only
  rw [frame_of_frames f finishWorks_frames, finishWorks_hbm, finishWorks_slow, modFrame_read, hframe]
  exact ⟨rfl, rfl, rfl, hhbm, hslow⟩

end

end

/-! ### Zeroing (R217) -/

theorem zeroDone_frees (hz : (s.frame f).zeroing = true) (hm : moveLeft s (.zero f) = 0) :
    s.zeroDone f = (((s.freeFrame f).weaverFrameFreed f).genFrameFreed f).serveWaits := by
  simp [State.zeroDone, hz, hm]

theorem freeFrame_hbm : (s.freeFrame f).mem.hbm = zeroBytes s.mem.hbm (f * frameBytes) frameBytes := finishWorks_hbm

theorem freeFrame_frame_read : (s.freeFrame f).frame f = {} := (frame_of_frames f finishWorks_frames).trans (modFrame_read _ _ _)

theorem zeroDone_hbm (hz : (s.frame f).zeroing = true) (hm : moveLeft s (.zero f) = 0) (k : Nat) :
    look 0 (s.zeroDone f).mem.hbm k = if f * frameBytes ≤ k ∧ k < f * frameBytes + frameBytes then 0 else look 0 s.mem.hbm k := by
  have htold : Fr 35690632 (s.freeFrame f) (((s.freeFrame f).weaverFrameFreed f).genFrameFreed f).serveWaits :=
    serveWaits_frame (by decide) (genFrameFreed_frame (by decide) (weaverFrameFreed_frame (by decide) Fr.rfl))
  rw [zeroDone_frees hz hm, htold.hbm_eq, freeFrame_hbm, look_zeroBytes]

theorem weaverFrameFreed_of_no_weaver (h : s.weav.dir = []) : s.weaverFrameFreed f = s := by
  simp [State.weaverFrameFreed, keysWhere, State.each, h]

theorem genFrameFreed_of_no_stake (h : s.stakes = []) : s.genFrameFreed f = s := by
  simp [State.genFrameFreed, State.each, h]

theorem serveWaits_of_no_wait (h : s.mem.waits = []) : s.serveWaits = s.markShort false fun _ => true := by
  simp [State.serveWaits, State.each, h]

/-- A frame for which nothing waited is FREE. -/
theorem zeroDone_free (hz : (s.frame f).zeroing = true) (hm : moveLeft s (.zero f) = 0) (hw : s.mem.waits = []) (hd : s.weav.dir = [])
    (hs : s.stakes = []) : (s.zeroDone f).frame f = {} := by
  have hfree : Fr 35692680 s (s.freeFrame f) := freeFrame_frame (Nat.or_self _) Fr.rfl
  have hwaits : (s.freeFrame f).mem.waits = [] := (finishWorks_keeps Mem.waits fun _ _ => rfl).trans hw
  rw [zeroDone_frees hz hm, weaverFrameFreed_of_no_weaver (by rw [hfree.weav_eq, hd]), genFrameFreed_of_no_stake (by rw [hfree.stakes_eq, hs]),
    serveWaits_of_no_wait hwaits]
  exact freeFrame_frame_read

/-- Settles O34: each row by whether its units have been admitted and its burst is served, and what it then leaves of the memory. -/
theorem frameMoves : Obligations.FrameMoves := by
  intro s f hf e k
  have hok : okFrame f = true := decide_eq_true hf
  have hstay : act (okFrame f) s s = .next s := act_ok hok rfl rfl
  have hfill : ∀ {P}, P (s.fillDone f) → Answers (.frameFillDone f) s P := answers_of_frame rfl hok (fillDone_frame (Nat.or_self _) Fr.rfl)
  refine ⟨fun hm c hc => ?waits, fun hm => ?zeroWaits, fun hm g hb hg a hst hfrom hup => hfill ?stale, fun hm hb hk =>
    ⟨fun a hst hfrom hup => hfill (fillDone_leaves hm hb hk hst hfrom hup), fun hst hup => ?promotion, fun hst hz hkind hp => ?eviction,
      fun hc hup hkind hpass hd => ?clean⟩, fun hz hm => ?zero⟩
  case waits =>
    simp only [List.mem_cons, List.not_mem_nil, or_false] at hc
    rcases hc with rfl | rfl | rfl
    · exact (congrArg (act _ s) (fillDone_waits hm)).trans hstay
    · exact (congrArg (act _ s) (promotionDone_waits hm)).trans hstay
    · exact (congrArg (act _ s) (evictionDone_waits hm)).trans hstay
  case zeroWaits => exact (congrArg (act _ s) (zeroDone_waits hm)).trans hstay
  case stale =>
    rw [fillDone_stale hm hst hfrom hup hb hg]
    exact burstServes_stale_keeps hb hg
  case promotion =>
    exact answers_of_frame rfl hok (promotionDone_frame (Nat.or_self _) Fr.rfl) (promotionDone_leaves hm hb hk hst hup)
  case eviction =>
    exact answers_of_frame rfl hok (evictionDone_frame (Nat.or_self _) Fr.rfl) (evictionDone_leaves hm hb hk hst hz hkind hp)
  case clean =>
    exact answers_of_frame rfl hok (cleanDone_frame (Nat.or_self _) Fr.rfl) (cleanDone_leaves hm hb hk hc hup hkind hpass hd)
  case zero =>
    exact answers_of_frame rfl hok (zeroDone_frame (Nat.or_self _) Fr.rfl) ⟨zeroDone_hbm hz hm, zeroDone_free hz hm⟩

end Sys2Proof.Machine
end

section
/-! PROOFS. Poison holds (R239): between a boundary and the tick that asserts the next one, a poison hold does not expire. -/

namespace Sys2Proof.Machine

/-- A course that has waited for granule 0 of frame 0 since round 0. -/
def heldCourse : Course := { id := 7, plan := {}, ctx := 1, sid := 0, gen := 1, rows := [], segs := [], held := some (0, 0, 0) }

/-- The device in round 17, with that course running and no tick asserted. -/
def holdsLong : State := { State.reset with rnd := { State.reset.rnd with num := 17 }, crs := { running := [heldCourse] } }

/-- Its hold is as old as R239 allows, and yet the row leaves the state. -/
theorem holdsLong_stays : exec (.poisonHoldExpiry 7) holdsLong = .next holdsLong := rfl

/-- Refutes O35: with no tick asserted, a course that has been held for seventeen rounds is not ended. -/
theorem not_poisonAndRepair : ¬ Obligations.PoisonAndRepair := by
  intro h
  obtain ⟨-, -, -, -, -, hhold⟩ := h holdsLong
  obtain ⟨t, ht, hgone⟩ := hhold 7 heldCourse 0 0 0 rfl rfl (Nat.le_refl 17)
  cases ht.symm.trans holdsLong_stays
  cases hgone

end Sys2Proof.Machine
end

section
/-! PROOFS. The memory command group (R205 to R209, R216, R219, R221, R222, R225, R226, R232, R385). -/

namespace Sys2Proof.Machine

variable {s : State} {ch : Nat} {q : Req}

/-! ### Commands that end more than themselves -/

section
variable {l : Layout} {present : Bool} {owns : Req → Bool} {eff : Req → State → Reply × State} {x : Reply} {u : State}
  (ha : Admitted l present owns ch s) (he : eff (reqOn s ch) s = (x, u))
include ha he

/-- A command whose row goes on after it: what follows the answer leaves the response where it stands. -/
theorem command_answers_then {c : Instr} {m n : Nat} {P : State → Prop} (post : State → State)
    (hx : exec c s = act (okChan ch) s (post (s.command l present owns eff ch))) (hf : Fr m s u) (hpost : ∀ t, Fr n t (post t))
    (hp : ∀ t, Responded ch x s (post t) → Fr 6291592 u t → P (post t))
    (hm : (m ||| n).testBit Part.variant.code = false ∧ (m ||| n).testBit Part.pending.code = false ∧
      (m ||| n).testBit Part.rnd.code = false ∧ (m ||| n).testBit Part.mb.code = false := by decide) : Answers c s P := by
  simp only [Nat.testBit_or, Bool.or_eq_false_iff] at hm
  obtain ⟨⟨hvar, hvar'⟩, ⟨hpen, hpen'⟩, ⟨hrnd, -⟩, hmb, hmb'⟩ := hm
  have hch : u.chan ch = s.chan ch := chan_of_mb _ (hf.mb_eq hmb)
  have ht : Fr 6291592 u (u.answer ch x.status x.detail x.len x.payload) := answer_frame (Nat.or_self _) Fr.rfl
  rw [command_admitted ha he] at hx
  have hp' := hpost (u.answer ch x.status x.detail x.len x.payload)
  refine ⟨_, hx.trans (act_ok (decide_eq_true ha.1) ?_ ?_), hp _ ?_ ht⟩
  · exact (hp'.same .variant hvar').trans ((ht.same .variant (by decide)).trans (hf.same .variant hvar))
  · exact (hp'.same .pending hpen').trans ((ht.same .pending (by decide)).trans (hf.same .pending hpen))
  · rw [Responded, chan_of_mb _ (hp'.mb_eq hmb'), answer_chan (by rw [hch]; exact ha.2.2.1), hch]
    simp only [respond, hf.rnd_eq hrnd]

/-- A command that writes only the memory. -/
theorem command_writesMem {c : Instr} {P : State → Prop} (hx : exec c s = act (okChan ch) s (s.command l present owns eff ch))
    (hf : Fr 32768 s (eff (reqOn s ch) s).2) (hp : ∀ t, Responded ch x s t → t.mem = u.mem → P t) : Answers c s P := by
  rw [he] at hf
  exact command_answers ha he hx hf fun t hr ht => hp t hr ht.mem_eq

end

/-- A command that is refused, or only reads, leaves the memory. -/
theorem command_keepsMem {c : Instr} {l : Layout} {present : Bool} {owns : Req → Bool} {eff : Req → State → Reply × State} {x : Reply}
    (ha : Admitted l present owns ch s) (he : eff (reqOn s ch) s = (x, s))
    (hx : exec c s = act (okChan ch) s (s.command l present owns eff ch)) : Answers c s fun t => Responded ch x s t ∧ t.mem = s.mem :=
  command_writesMem ha he hx (he ▸ Fr.rfl) fun _ hr ht => ⟨hr, ht⟩

/-- Checks of which none fails. -/
theorem checked_passes {xs : List (Bool × Reply)} (h : ∀ x ∈ xs, x.1 = false) (ok : Reply × State) : checked xs ok s = ok := by
  have hnone : (xs.find? fun x => x.1) = none := List.find?_eq_none.mpr fun x hx => by simp [h x hx]
  simp only [checked, hnone]

/-! ### Regions and the pool (R205, R206) -/

theorem regionRegister_free (h1 : 1 ≤ q.at 0 1) (h64 : q.at 0 1 ≤ 64) (hlen : q.at 16 8 ≠ 0) (hpage : q.at 16 8 % frameBytes = 0)
    (hmax : q.at 16 8 ≤ 2 ^ 48) (hfree : (region s (q.at 0 1)).reg = false) :
    regionRegister q s = ({}, { s with mem := { s.mem with
      regions := store {} s.mem.regions (q.at 0 1) { reg := true, base := q.at 8 8, len := q.at 16 8, ro := q.bit 1 0 } } }) := by
  refine checked_passes ?_ _
  have hmax' : decide (2 ^ 48 < q.at 16 8) = false := decide_eq_false (Nat.not_lt.mpr hmax)
  simp only [hmax']
  simp [hlen, hpage, hfree, h64, Nat.ne_of_gt h1]

section
variable (h1 : 1 ≤ q.at 0 1) (h64 : q.at 0 1 ≤ 64) (hreg : (region s (q.at 0 1)).reg = true)
include h1 h64 hreg

theorem regionRemove_unused (hused : spaceUsed s (q.at 0 1) = false) (hsrc : sourceIn s (q.at 0 1) = false) :
    regionRemove q s = ({}, { s with mem := { s.mem with regions := drop s.mem.regions (q.at 0 1) } }) := by
  simp [regionRemove, checked, hused, hsrc, hreg, h64, Nat.ne_of_gt h1]

theorem regionRemove_used (hused : spaceUsed s (q.at 0 1) = true) : regionRemove q s = (fail St.mapConflict, s) := by
  simp [regionRemove, checked, hused, hreg, h64, Nat.ne_of_gt h1]

end

/-- The port of each way, and its base. -/
def poolMap (q : Req) : List Nat := (List.range (q.at 0 1)).map fun i => bits (q.at 1 1) (2 * i) 2
def poolBase (q : Req) : List Nat := (List.range (q.at 0 1)).map fun i => q.at (8 + 8 * i) 8

theorem slowConfig_accepted (hways : q.at 0 1 = 1 ∨ q.at 0 1 = 2 ∨ q.at 0 1 = 4) (hdup : (poolMap q).eraseDups.length = q.at 0 1)
    (hused : spaceUsed s 0 = false) (hide : (∀ p ∈ poolMap q, p ∉ s.lid.cxlIde) ∨ s.lid.plainOk = true) :
    slowConfig q s = ({}, { s with mem := { s.mem with pool := some { ways := q.at 0 1, map := poolMap q, base := poolBase q } } }) := by
  have hways' : (q.at 0 1 != 1 && q.at 0 1 != 2 && q.at 0 1 != 4) = false := by
    rcases hways with h | h | h <;> simp [h]
  have hide' : ((poolMap q).any (fun p => s.lid.cxlIde.contains p) && !s.lid.plainOk) = false := by
    rcases hide with h | h
    · rw [List.any_eq_false.mpr fun p hp => by simpa using h p hp, Bool.false_and]
    · rw [h, Bool.not_true, Bool.and_false]
  have hdup' : ((poolMap q).eraseDups.length != q.at 0 1) = false := by simp [hdup]
  show checked [(_, badField 0), ((poolMap q).eraseDups.length != q.at 0 1, badField 1), (spaceUsed s 0, fail St.mapConflict),
    ((poolMap q).any (fun p => s.lid.cxlIde.contains p) && !s.lid.plainOk, fail St.linkInsecure)] _ s = _
  simp only [checked, List.find?, hways', hdup', hused, hide']
  rfl

/-! ### Quotas and bounds (R222, R225, R226) -/

theorem quotaSet_accepted (hctx : acctOf (q.at 0 2) = commonsAcct ∨ (s.ctx (acctOf (q.at 0 2))).state ≠ .free)
    (h1 : quotaSum s (acctOf (q.at 0 2)) (q.at 4 4) willQ1 ≤ msdCount s * 24544) (h2 : quotaSum s (acctOf (q.at 0 2)) (q.at 8 4) willQ2 ≤ t2Pages s)
    (hpins : (countTab s.mem.frames fun f e => !frameFree e && ownerOf e == acctOf (q.at 0 2) && pinsOf s f != 0) ≤ q.at 4 4) :
    quotaSet q s = ({}, s.modAcct (acctOf (q.at 0 2)) fun x => { x with next := some (q.at 4 4, q.at 8 4) }) := by
  have hctx' : (acctOf (q.at 0 2) != commonsAcct && (s.ctx (acctOf (q.at 0 2))).state == .free) = false := by
    rcases hctx with h | h <;> simp [h]
  simp only [quotaSet, checked, List.find?, hctx', decide_eq_false (Nat.not_lt.mpr h1), decide_eq_false (Nat.not_lt.mpr h2),
    decide_eq_false (Nat.not_lt.mpr hpins), Bool.or_false]

/-- The bounds of an account as MEM_POLICY_SET gives them. -/
def Account.bounded (q : Req) (x : Account) : Account :=
  { x with pol := { x.pol with placeEn := q.bit 2 0, thr := q.at 4 2, hyst := q.at 6 2, moves := q.at 8 1 } }

theorem policySet_accepted (hadm : q.ctx = 0 ∨ acctOf (q.at 0 2) ≠ commonsAcct ∧ q.at 9 1 = 0)
    (hctx : acctOf (q.at 0 2) = commonsAcct ∨ (s.ctx (acctOf (q.at 0 2))).state ≠ .free)
    (hshift : q.at 9 1 = 0 ∨ 4 ≤ q.at 9 1 ∧ q.at 9 1 ≤ 12) :
    policySet q s = ({}, { s.modAcct (acctOf (q.at 0 2)) (Account.bounded q) with
      mem := { (s.modAcct (acctOf (q.at 0 2)) (Account.bounded q)).mem with
        heatShift := if q.at 9 1 = 0 then s.mem.heatShift else q.at 9 1 } }) := by
  have hadm' : ((acctOf (q.at 0 2) == commonsAcct || q.at 9 1 != 0) && q.ctx != 0) = false := by
    rcases hadm with h | ⟨h, h'⟩
    · simp [h]
    · simp [h, h']
  have hctx' : (acctOf (q.at 0 2) != commonsAcct && (s.ctx (acctOf (q.at 0 2))).state == .free) = false := by
    rcases hctx with h | h <;> simp [h]
  have hshift' : (q.at 9 1 != 0 && (decide (q.at 9 1 < 4) || decide (12 < q.at 9 1))) = false := by
    rcases hshift with h | ⟨h, h'⟩
    · simp [h]
    · simp [Nat.not_lt.mpr h, Nat.not_lt.mpr h']
  simp only [policySet, checked, List.find?, hadm', hctx', hshift']
  rfl

/-! ### Queries (R208, R211, R385) -/

theorem memQuery_account (hmode : q.at 2 1 = 2) (hadm : q.at 0 2 = 0xFFF → q.ctx = 0) :
    memQuery q s = (answerOf 32 (acctBytes s (acctOf (q.at 0 2))), s) := by
  have hadm' : (q.at 0 2 == 0xFFF && q.ctx != 0) = false := by
    by_cases h : q.at 0 2 = 0xFFF
    · simp [hadm h]
    · simp [h]
  unfold memQuery
  dsimp only
  rw [if_pos hmode]
  exact checked_passes (by simp [hadm']) _

section
variable (hpage : q.at 8 8 % frameBytes = 0) (hend : q.at 8 8 + q.at 4 4 * frameBytes ≤ 2 ^ 46)
include hpage hend

theorem memQuery_pages (hmode : q.at 2 1 = 0) (hsize : 16 * q.at 4 4 ≤ 4064) :
    memQuery q s = (answerOf (16 * q.at 4 4)
      (concat 16 ((rangeKeys (q.at 0 2) (q.at 8 8) (q.at 4 4)).map fun k => pteBytes (s.pteAt k))), s) := by
  unfold memQuery
  dsimp only
  rw [if_neg (by rw [hmode]; decide), checked_passes]
  · rw [if_pos hmode, if_pos hmode]
  · have hend' : decide (2 ^ 46 < q.at 8 8 + q.at 4 4 * frameBytes) = false := decide_eq_false (Nat.not_lt.mpr hend)
    simp only [hend', hpage]
    simp [hmode, hsize]

theorem memQuery_frames (hmode : q.at 2 1 = 1) (hsize : 32 * q.at 4 4 ≤ 4064) :
    memQuery q s = (answerOf (32 * q.at 4 4) (concat 32 ((rangeKeys (q.at 0 2) (q.at 8 8) (q.at 4 4)).map fun k =>
      if (s.pteAt k).valid ∧ (s.pteAt k).tier = .t1 then frameEntry s (s.pteAt k).frame else 0)), s) := by
  have hmode0 : ¬ q.at 2 1 = 0 := by rw [hmode]; decide
  unfold memQuery
  dsimp only
  rw [if_neg (by rw [hmode]; decide), checked_passes]
  · rw [if_neg hmode0, if_neg hmode0]
  · have hend' : decide (2 ^ 46 < q.at 8 8 + q.at 4 4 * frameBytes) = false := decide_eq_false (Nat.not_lt.mpr hend)
    simp only [hend', hpage]
    simp [hmode, hsize]

end

/-! ### Ranges of pages -/

/-- The range of a command starts on a page and lies in its context's own space. -/
@[reducible] def RangeOk (q : Req) : Prop := 1 ≤ q.at 4 4 ∧ q.at 8 8 % frameBytes = 0 ∧ q.at 8 8 + q.at 4 4 * frameBytes ≤ 2 ^ 46

theorem rangeBad_passes (h : RangeOk q) : ∀ x ∈ rangeBad q, x.1 = false := by
  obtain ⟨hn, hpage, hend⟩ := h
  have hend' : decide (2 ^ 46 < q.at 8 8 + q.at 4 4 * frameBytes) = false := decide_eq_false (Nat.not_lt.mpr hend)
  simp only [rangeBad, hend', hpage]
  simp [Nat.ne_of_gt hn]

theorem anyUnmapped_of_valid {ks : List Nat} (h : ∀ k ∈ ks, (s.pteAt k).valid = true) : anyUnmapped s ks = false :=
  List.any_eq_false.mpr fun k hk => by simp [h k hk]

/-- The checks of a command on a range of mapped pages, but for those of its own. -/
theorem range_passes (h : RangeOk q) {ks : List Nat} (hks : ∀ k ∈ ks, (s.pteAt k).valid = true) {r : Reply} {xs : List (Bool × Reply)}
    (hxs : ∀ x ∈ xs, x.1 = false) (ok : Reply × State) : checked (rangeBad q ++ (anyUnmapped s ks, r) :: xs) ok s = ok := by
  refine checked_passes (fun x hx => ?_) ok
  rcases List.mem_append.mp hx with hx | hx
  · exact rangeBad_passes h x hx
  · rcases List.mem_cons.mp hx with rfl | hx
    · exact anyUnmapped_of_valid hks
    · exact hxs x hx

theorem pteKey_injective (c p : Nat) : Function.Injective fun i => pteKey c (p + i) := fun i j h => by
  simp only [pteKey] at h
  omega

theorem rangeKeys_nodup (c a n : Nat) : (rangeKeys c a n).Nodup :=
  List.Pairwise.map _ (fun _ _ hne heq => hne (pteKey_injective c _ heq)) List.nodup_range

/-! ### Folds over pages -/

/-- A change of page-table entries made once at each key of a list without repetitions. -/
theorem each_modPte_nodup (g : Pte → Pte) {ks : List Nat} (hks : ks.Nodup) (s : State) (j : Nat) :
    (s.each ks fun k s => s.modPte k g).pteAt j = if j ∈ ks then g (s.pteAt j) else s.pteAt j := by
  induction ks generalizing s with
  | nil => rfl
  | cons k ks ih =>
    obtain ⟨hk, hks⟩ := List.nodup_cons.mp hks
    refine (ih hks (s.modPte k g)).trans ?_
    by_cases hj : j = k
    · simp [hj, hk]
    · simp [modPte_read_ne _ _ _ hj, hj]

/-- Entries written one after the other, each at a key of its own. -/
theorem each_putPte {key : Nat → Nat} (hkey : Function.Injective key) (v : Nat → Pte) (n : Nat) (s : State) {i : Nat} (hi : i < n) :
    (s.each (List.range n) fun i s => s.modPte (key i) fun _ => v i).pteAt (key i) = v i := by
  induction n with
  | zero => exact absurd hi (Nat.not_lt_zero i)
  | succ n ih =>
    simp only [State.each, List.range_succ, List.foldl_append, List.foldl_cons, List.foldl_nil]
    by_cases hn : i = n
    · rw [hn, modPte_read]
    · rw [modPte_read_ne _ _ _ (fun h => hn (hkey h))]
      exact ih (by omega)

/-! ### MEM_UNMAP (R209, R221) -/

/-- An entry that has left the table, or that leaves it with the pins of its courses. -/
def Pte.leaves (e : Pte) : Prop := e = {} ∨ e.unmapDue = true ∧ e.epins = []

theorem unmapPage_read (k : Nat) : ((s.unmapPage k).pteAt k).leaves := by
  unfold State.unmapPage State.unpinPage
  dsimp only
  split
  · exact .inl (modPte_read _ _ _)
  · exact .inr (by simp)

theorem unmapPage_read_ne {j k : Nat} (h : j ≠ k) : (s.unmapPage k).pteAt j = s.pteAt j := by
  unfold State.unmapPage State.unpinPage
  dsimp only
  split
  · rw [modPte_read_ne _ _ _ h, modPte_read_ne _ _ _ h]
  · exact modPte_read_ne _ _ _ h

theorem each_unmapPage (ks : List Nat) (s : State) (j : Nat) :
    (j ∈ ks → ((s.each ks State.unmapPage).pteAt j).leaves) ∧ (j ∉ ks → (s.each ks State.unmapPage).pteAt j = s.pteAt j) := by
  induction ks generalizing s with
  | nil => exact ⟨fun h => absurd h List.not_mem_nil, fun _ => rfl⟩
  | cons k ks ih =>
    obtain ⟨hin, hout⟩ := ih (s.unmapPage k)
    refine ⟨fun hj => ?_, fun hj => ?_⟩
    · by_cases hjs : j ∈ ks
      · exact hin hjs
      · obtain rfl : j = k := (List.mem_cons.mp hj).resolve_right hjs
        exact (hout hjs).symm ▸ unmapPage_read j
    · exact (hout (List.not_mem_of_not_mem_cons hj)).trans (unmapPage_read_ne (List.ne_of_not_mem_cons hj))

/-- What a request names at payload offsets 0, 4 and 8. -/
def reqKeys (q : Req) : List Nat := rangeKeys (q.at 0 2) (q.at 8 8) (q.at 4 4)

section
variable (hrange : RangeOk q) (hvalid : ∀ k ∈ reqKeys q, (s.pteAt k).valid = true)
include hrange hvalid

theorem memUnmap_accepted
    (hshared : ∀ k ∈ reqKeys q, (s.pteAt k).shared = false ∨ (s.pteAt k).sharedOf ≠ none ∨ ∀ p ∈ s.mem.pte, p.2.sharedOf ≠ some k) :
    memUnmap q s = (pendingReply, (s.each (reqKeys q) State.unmapPage).addWork .unmap q) := by
  refine range_passes hrange hvalid (fun x hx => ?_) _
  rw [List.mem_singleton.mp hx]
  refine List.any_eq_false.mpr fun k hk => ?_
  rcases hshared k hk with h | h | h
  · simp [h]
  · simp [Option.isNone_iff_eq_none, h]
  · have hany : (s.mem.pte.any fun p => p.2.sharedOf == some k) = false := List.any_eq_false.mpr fun p hp => by simpa using h p hp
    simp [hany]

/-! ### MEM_FLUSH (R232) -/

/-- The frames of a range that a flush writes back. -/
def flushFrames (s : State) (ks : List Nat) : List Nat :=
  (((ks.filter fun k => (s.pteAt k).tier == .t1).map fun k => (s.pteAt k).frame).eraseDups).filter fun f =>
    (s.frame f).backed && (s.frame f).dirty != 0 && !(s.frame f).cleaning && occupied (s.frame f)

theorem memFlush_accepted :
    memFlush q s = (pendingReply, (s.each (flushFrames s (reqKeys q)) State.startPass).addWork .flush q) :=
  range_passes hrange hvalid (fun _ hx => absurd hx List.not_mem_nil) _

end

theorem startPass_cleaning (f g : Nat) : ((s.startPass f).frame g).cleaning = true ↔ g = f ∨ (s.frame g).cleaning = true := by
  unfold State.startPass
  dsimp only
  rw [frame_of_mem g (moveFrame_mem _ _)]
  by_cases h : g = f
  · simp [h]
  · simp [modFrame_read_ne _ _ _ h, h]

theorem startPass_pte (f : Nat) : (s.startPass f).mem.pte = s.mem.pte := by
  unfold State.startPass
  dsimp only
  rw [moveFrame_mem]
  rfl

theorem each_startPass (fs : List Nat) (s : State) (g : Nat) :
    ((s.each fs State.startPass).frame g).cleaning = true ↔ g ∈ fs ∨ (s.frame g).cleaning = true := by
  induction fs generalizing s with
  | nil => exact ⟨.inr, fun h => h.resolve_left List.not_mem_nil⟩
  | cons f fs ih =>
    rw [List.mem_cons, or_assoc]
    exact (ih (s.startPass f)).trans (or_congr .rfl (startPass_cleaning f g) |>.trans or_left_comm)

/-- Each page's frame with dirty granules is being cleaned: by a pass of this flush, or by one that ran already. -/
theorem flushFrames_cleaning {ks : List Nat} {k : Nat} (hk : k ∈ ks) (htier : (s.pteAt k).tier = .t1)
    (hback : (s.frame (s.pteAt k).frame).backed = true) (hdirty : (s.frame (s.pteAt k).frame).dirty ≠ 0)
    (hocc : occupied (s.frame (s.pteAt k).frame) = true) :
    ((s.each (flushFrames s ks) State.startPass).frame (s.pteAt k).frame).cleaning = true := by
  refine (each_startPass _ s _).mpr ?_
  by_cases hc : (s.frame (s.pteAt k).frame).cleaning = true
  · exact .inr hc
  · refine .inl (List.mem_filter.mpr ⟨List.mem_eraseDups.mpr (List.mem_map.mpr ⟨k, List.mem_filter.mpr ⟨hk, by simp [htier]⟩, rfl⟩), ?_⟩)
    simp [hback, hdirty, hocc, hc]

/-! ### MEM_EVICT (R216, R218) -/

def Pte.unheld (e : Pte) : Pte := { e with held := false }

/-- Which frame decides on a page does not depend on HELD. -/
theorem evictFrame_unheld (k j : Nat) : evictFrame (s.modPte k Pte.unheld) j = evictFrame s j := by
  have hpte : ∀ i, ((s.modPte k Pte.unheld).pteAt i).unheld = (s.pteAt i).unheld := fun i => by
    by_cases h : i = k
    · rw [h, modPte_read]; rfl
    · rw [modPte_read_ne _ _ _ h]
  have htier := congrArg Pte.tier (hpte j)
  have hframe := congrArg Pte.frame (hpte j)
  have hsda := congrArg Pte.sda (hpte j)
  have hof := congrArg Pte.sharedOf (hpte j)
  simp only [Pte.unheld] at htier hframe hsda hof
  simp only [evictFrame, promoting, leaving, heatKey, htier, hframe, hsda, hof]
  rfl

/-- What decides on a page holds its content in place: it lies in no frame, or in one that nothing moves. -/
def atRest (s : State) (k : Nat) : Prop := ∀ f, evictFrame s k = some f → (s.frame f).state = .resident ∨ (s.frame f).state = .dirty

theorem withdraw_page (k : Nat) : s.withdraw (k / 2 ^ 25) (k % 2 ^ 25) = s.modPte k Pte.unheld := by
  unfold State.withdraw pteKey
  rw [Nat.div_add_mod']
  rfl

theorem evictPage_atRest {k : Nat} (note : Notice) (h : atRest s k) : s.evictPage note k = s.modPte k Pte.unheld := by
  unfold State.evictPage
  dsimp only
  split
  · exact withdraw_page k
  · next f hf =>
    rcases h f hf with hs | hs <;> rw [hs] <;> exact withdraw_page k

theorem each_evictPage (note : Notice) {ks : List Nat} (h : ∀ k ∈ ks, atRest s k) :
    s.each ks (State.evictPage note) = s.each ks fun k s => s.modPte k Pte.unheld := by
  induction ks generalizing s with
  | nil => rfl
  | cons k ks ih =>
    have hk : s.evictPage note k = s.modPte k Pte.unheld := evictPage_atRest note (h k List.mem_cons_self)
    show (s.evictPage note k).each ks _ = (s.modPte k Pte.unheld).each ks _
    rw [hk]
    exact ih fun j hj f hf => h j (List.mem_cons_of_mem k hj) f ((evictFrame_unheld k j).symm.trans hf)

section
variable (hrange : RangeOk q) (hvalid : ∀ k ∈ reqKeys q, (s.pteAt k).valid = true)
include hrange hvalid

theorem memEvict_atRest (h : ∀ k ∈ reqKeys q, atRest s k) : memEvict q s = ({}, s.each (reqKeys q) fun k s => s.modPte k Pte.unheld) := by
  unfold memEvict
  extract_lets keys held deferred t
  have hheld : held = [] := List.filter_eq_nil_iff.mpr fun k hk => by
    cases hf : evictFrame s k with
    | none => simp
    | some f => rcases h k hk f hf with hs | hs <;> simp [hs]
  refine (range_passes hrange hvalid (fun _ hx => absurd hx List.not_mem_nil) _).trans ?_
  rw [hheld, ← each_evictPage q.note h]
  rfl

theorem memEvict_joins (h : ∃ k ∈ reqKeys q, ∃ f, evictFrame s k = some f ∧ (s.frame f).state = .evicting) :
    ∃ u, memEvict q s = (pendingReply, State.addWork .evict q u) := by
  unfold memEvict
  extract_lets keys held deferred t joined
  have hheld : held.isEmpty = false := by
    obtain ⟨k, hk, f, hf, hs⟩ := h
    exact List.isEmpty_eq_false_iff_exists_mem.mpr ⟨k, List.mem_filter.mpr ⟨hk, by simp [hf, hs]⟩⟩
  refine ⟨joined, (range_passes hrange hvalid (fun _ hx => absurd hx List.not_mem_nil) _).trans ?_⟩
  rw [hheld]
  rfl

end

/-! ### MEM_PIN (R219) -/

/-- An entry's explicit pins after MEM_PIN. -/
def Pte.pinned (q : Req) (e : Pte) : Pte := { e with epins := if q.bit 0 0 then q.ctx :: e.epins else e.epins.erase q.ctx }

theorem memPin_accepted (hrange : RangeOk q) (hvalid : ∀ k ∈ rangeKeys q.ctx (q.at 8 8) (q.at 4 4), (s.pteAt k).valid = true)
    (hmine : q.bit 0 0 = false → ∀ k ∈ rangeKeys q.ctx (q.at 8 8) (q.at 4 4), (s.pteAt k).epins.contains q.ctx = true) :
    memPin q s = ({}, s.each (rangeKeys q.ctx (q.at 8 8) (q.at 4 4)) fun k s => s.modPte k (Pte.pinned q)) := by
  refine range_passes hrange hvalid (fun x hx => ?_) _
  rw [List.mem_singleton.mp hx]
  cases hb : q.bit 0 0 with
  | true => rfl
  | false => exact List.any_eq_false.mpr fun k hk => by simpa using hmine hb k hk

/-! ### MEM_MAP (R207 to R209, R222) -/

/-- A chain of steps that all succeed. -/
theorem chain_eq_each {α : Type} {f : α → State → Option State} {g : α → State → State} (h : ∀ x t, f x t = some (g x t)) (xs : List α) (s : State) :
    chain xs f s = some (s.each xs g) := by
  induction xs generalizing s with
  | nil => rfl
  | cons x xs ih =>
    show List.foldl (fun o x => o.bind (f x)) (f x s) xs = _
    rw [h]
    exact ih (g x s)

/-- Whether an admitted MEM_MAP waits. -/
theorem mapWaits_iff (ha : Admitted mapLayout true (ownsCtx 0) ch s) :
    mapWaits mapLayout (ownsCtx 0) ch s = true ↔ memMap (reqOn s ch) s = none ∨ mapTakes (reqOn s ch) s = true ∧ behind s (.cmd ch) = true := by
  obtain ⟨-, hbusy, -, hop, hturn, hcheck⟩ := ha
  unfold reqOn at hcheck ⊢
  simp [mapWaits, hbusy, hop, hturn, hcheck]

/-- A MEM_MAP that does not wait is carried out, and no wait of it is left. -/
theorem memMap_answers {u : State} {P : State → Prop} (ha : Admitted mapLayout true (ownsCtx 0) ch s) (he : memMap (reqOn s ch) s = some ({}, u))
    (hturn : mapTakes (reqOn s ch) s = false ∨ behind s (.cmd ch) = false)
    (hp : ∀ t, Responded ch {} s t → t.mem.pte = u.mem.pte → t.mem.frames = u.mem.frames → t.mem.hbm = u.mem.hbm → t.mem.slow = u.mem.slow → P t) :
    Answers (.memMap ch) s P := by
  have hwaits : ¬ mapWaits mapLayout (ownsCtx 0) ch s = true := by
    rw [mapWaits_iff ha, he]
    rcases hturn with h | h <;> simp [h]
  have hf : Fr 32896 s u := (memMap_frame (Nat.or_self _) Fr.rfl).out _ he
  refine command_answers_then (n := 32768) (eff := fun q s => (memMap q s).getD ({}, s)) ha (congrArg (Option.getD · ({}, s)) he)
    (State.dropWait (.cmd ch)) ?_ hf (fun t => dropWait_frame (Nat.or_self _) Fr.rfl) fun t hr ht => ?_
  · exact congrArg (act (okChan ch) s) (if_neg hwaits)
  · have hmem : t.mem = u.mem := ht.mem_eq
    refine hp _ hr ?_ ?_ ?_ ?_ <;> rw [← hmem] <;> rfl

section
variable (hpass : ∀ x ∈ mapBad q (mapReq q) s, x.1 = false)
  (hroots : newRoots s (mapReq q).ctx (mapReq q).dva (mapReq q).pages = []) (hshare : (mapReq q).share = 0)
include hpass hroots hshare

/-- Without new root entries a mapping that is not shared maps its pages in turn. -/
theorem memMap_pages : memMap q s = (chain (List.range (mapReq q).pages) (State.mapPage (mapReq q)) s).map fun t => ({}, t) := by
  have hnone : ((mapBad q (mapReq q) s).find? fun x => x.1) = none := List.find?_eq_none.mpr fun x hx => by simp [hpass x hx]
  unfold memMap
  dsimp only
  rw [hnone, hroots, hshare]
  rfl

/-- The entry of page `i` of a mapping at TIER 1. -/
def slowPte (m : MapReq) (i : Nat) : Pte :=
  { valid := true, ro := m.ro, shared := m.shared, movable := m.movable, kind := m.kind, stack := m.stack, sda := m.sda + i * frameBytes, held := true
    tier := .t2 }

/-- The pages of a mapping at TIER 1, each entered where it lies. -/
def State.mapSlow (m : MapReq) (s : State) : State :=
  s.each (List.range m.pages) fun i s => s.modPte (pteKey m.ctx (m.dva / frameBytes + i)) fun _ => slowPte m i

omit hpass hroots hshare in
theorem mapSlow_hbm (m : MapReq) : (s.mapSlow m).mem.hbm = s.mem.hbm := each_keeps (fun t => t.mem.hbm) (fun _ _ => by rfl) _ s

omit hpass hroots hshare in
theorem mapSlow_slow (m : MapReq) : (s.mapSlow m).mem.slow = s.mem.slow := each_keeps (fun t => t.mem.slow) (fun _ _ => by rfl) _ s

theorem memMap_slow (htier : (mapReq q).tier = 1) : memMap q s = some ({}, s.mapSlow (mapReq q)) := by
  rw [memMap_pages hpass hroots hshare]
  generalize mapReq q = m at htier
  have hpage : ∀ i t, State.mapPage m i t = some (t.modPte (pteKey m.ctx (m.dva / frameBytes + i)) fun _ => slowPte m i) := fun i t => by
    simp [State.mapPage, htier, slowPte]
  rw [chain_eq_each hpage]
  rfl

omit hpass hshare in
theorem mapTakes_slow (htier : (mapReq q).tier = 1) : mapTakes q s = false := by
  have hleaf : leafFrames s (mapReq q).ctx 0 = 0 := by simp [leafFrames, ceilDiv]
  simp [mapTakes, htier, hroots, hleaf]

/-- The frame and the entry of a page mapped at TIER 0. -/
def nearFrame (m : MapReq) : FrameE :=
  { state := if m.src = 0 then .resident else .filling, kind := m.kind, commons := m.shared, movable := m.movable, ctx := m.ctx, key := m.ctx
    page := m.dva / frameBytes, mapped := true, backed := m.backed, back := if m.backed then m.sda else 0
    dirty := if m.backed ∧ m.src ≠ m.sda then 2 ^ 32 - 1 else 0, fillFrom := if m.src = 0 then none else some m.src }
def nearPte (m : MapReq) (f : Nat) : Pte :=
  { valid := true, ro := m.ro, shared := m.shared, movable := m.movable, backed := m.backed, kind := m.kind, stack := m.stack
    sda := if m.backed then m.sda else 0, held := true, tier := .t1, frame := f }

/-- A page mapped at TIER 0 in a frame, and the move that fills it. -/
def State.mapNear (m : MapReq) (f : Nat) (s : State) : State :=
  ((s.takeFrame f (nearFrame m)).modPte (pteKey m.ctx (m.dva / frameBytes)) fun _ => nearPte m f).moveFrame f (if m.src = 0 then 0 else frameBytes)

theorem memMap_near {f : Nat} (htier : (mapReq q).tier = 0) (hone : (mapReq q).pages = 1)
    (hf : pickFrame s (mapReq q).stack ((mapReq q).dva / frameBytes) = some f) : memMap q s = some ({}, s.mapNear (mapReq q) f) := by
  rw [memMap_pages hpass hroots hshare, hone]
  generalize mapReq q = m at htier hf
  have hsrc : (if m.src = 0 then none else some (if m.src = 0 then 0 else m.src + 0 * frameBytes)) = if m.src = 0 then none else some m.src := by
    split <;> simp
  have hpage : State.mapPage m 0 s = some (s.mapNear m f) := by
    simp only [State.mapPage, htier, Nat.add_zero, hf, hsrc]
    simp [State.mapNear, nearFrame, nearPte]
  exact congrArg (Option.map fun t => (({} : Reply), t)) hpage

end

theorem takeFrame_read (f : Nat) (e : FrameE) : (s.takeFrame f e).frame f =
    { e with fixedPins := max e.fixedPins (fixedOf e.kind), lastRnd := s.rnd.num % 2 ^ 32 } := modFrame_read _ _ _

theorem mapNear_mem (m : MapReq) (f : Nat) : let t := s.mapNear m f
    (t.frame f).kind = m.kind ∧ (t.frame f).mapped = true ∧ (t.frame f).state = (if m.src = 0 then .resident else .filling) ∧
      t.pteAt (pteKey m.ctx (m.dva / frameBytes)) = nearPte m f ∧ t.mem.hbm = s.mem.hbm := by
  unfold State.mapNear
  generalize hu : (s.takeFrame f (nearFrame m)).modPte (pteKey m.ctx (m.dva / frameBytes)) _ = u
  have htaken : u.frame f = (s.takeFrame f (nearFrame m)).frame f := by rw [← hu]; rfl
  have hpte : u.pteAt (pteKey m.ctx (m.dva / frameBytes)) = nearPte m f := by rw [← hu, modPte_read]
  have hhbm : u.mem.hbm = s.mem.hbm := by rw [← hu]; rfl
  have hmem := moveFrame_mem (s := u) f (if m.src = 0 then 0 else frameBytes)
  dsimp only
  rw [frame_of_mem f hmem, pteAt_of_mem _ hmem, hmem, modFrame_read, htaken, takeFrame_read]
  exact ⟨rfl, rfl, rfl, hpte, hhbm⟩

theorem memMap_waits (ha : Admitted mapLayout true (ownsCtx 0) ch s)
    (h : memMap (reqOn s ch) s = none ∨ mapTakes (reqOn s ch) s = true ∧ behind s (.cmd ch) = true) :
    exec (.memMap ch) s = .next (s.waitFrame (.cmd ch)) := by
  show act (okChan ch) s (if _ then _ else _) = _
  rw [if_pos ((mapWaits_iff ha).mpr h)]
  exact act_of_frame (decide_eq_true ha.1) (waitFrame_frame (m := 32768) (Nat.or_self _) Fr.rfl) (by decide)

/-! ### What the commands answer -/

theorem memPin_answers (ha : Admitted memPinLayout true ownsAny ch s) :
    let q := reqOn s ch
    let mine := rangeKeys q.ctx (q.at 8 8) (q.at 4 4)
    RangeOk q → (∀ k ∈ mine, (s.pteAt k).valid = true) → (q.bit 0 0 = false → ∀ k ∈ mine, (s.pteAt k).epins.contains q.ctx = true) →
      Answers (.memPin ch) s fun t =>
        Responded ch {} s t ∧ (∀ k ∈ mine, t.pteAt k = (s.pteAt k).pinned q) ∧ ∀ k, k ∉ mine → t.pteAt k = s.pteAt k := by
  intro q mine hrange hvalid hmine
  refine command_writesMem ha (memPin_accepted hrange hvalid hmine) rfl (memPin_frame (Nat.or_self _) Fr.rfl) fun t hr ht => ?_
  have hread : ∀ k, t.pteAt k = if k ∈ mine then (s.pteAt k).pinned q else s.pteAt k := fun k =>
    (pteAt_of_mem _ ht).trans (each_modPte_nodup _ (rangeKeys_nodup _ _ _) s k)
  exact ⟨hr, fun k hk => (hread k).trans (if_pos hk), fun k hk => (hread k).trans (if_neg hk)⟩

/-- Settles O58: each command by what it does once it is admitted, and what its answer leaves of the memory. -/
theorem memoryCommands : Obligations.MemoryCommands := by
  intro s ch q keys inRange
  refine ⟨fun ha h1 h64 hlen hpage hmax hfree => ?register, fun ha h1 h64 hreg => ⟨fun hused hsrc => ?remove, fun hused => ?inUse⟩,
    fun ha hways hdup hused hide => ?pool, ?mapping, fun ha hrange hvalid hshared => ?unmap, fun ha hctx h1 h2 hpins => ?quota,
    fun ha hadm hctx hshift => ?policy, fun ha hrange hvalid hrest => ?evict, fun ha hrange hvalid hgoing => ?joins,
    fun ha hrange hvalid => ?pin, fun ha hrange hvalid => ?flush, fun ha => ⟨fun hmode hadm => ?acct, fun hmode hsize hpage hend => ?pages,
      fun hmode hsize hpage hend => ?frames⟩, fun ha => ?poison⟩
  case register =>
    refine command_writesMem ha (regionRegister_free h1 h64 hlen hpage hmax hfree) rfl (regionRegister_frame (Nat.or_self _) Fr.rfl)
      fun t hr ht => ?_
    have hregions := congrArg Mem.regions ht
    refine ⟨hr, ?_, fun k hk => ?_, by rw [ht]⟩
    · rw [region, hregions, look_store_eq]
    · rw [region, hregions, look_store_ne _ _ _ hk]
      rfl
  case remove =>
    refine command_writesMem ha (regionRemove_unused h1 h64 hreg hused hsrc) rfl (regionRemove_frame (Nat.or_self _) Fr.rfl) fun t hr ht => ?_
    have hregions := congrArg Mem.regions ht
    refine ⟨hr, ?_, fun k hk => ?_⟩
    · rw [region, hregions, look_drop_eq]
    · rw [region, hregions, look_drop_ne _ _ hk]
      rfl
  case inUse => exact command_keepsMem ha (regionRemove_used h1 h64 hreg hused) rfl
  case pool =>
    exact command_writesMem ha (slowConfig_accepted hways hdup hused hide) rfl (slowConfig_frame (Nat.or_self _) Fr.rfl)
      fun t hr ht => ⟨hr, _, congrArg Mem.pool ht, rfl, rfl, rfl⟩
  case mapping =>
    intro ha m hchecks
    have hpass : ∀ x ∈ mapBad q m s, x.1 = false := hchecks
    refine ⟨memMap_waits ha, fun hroots hshare htier => ?slow, fun f hroots hshare htier hone hbehind hf => ?near⟩
    case slow =>
      refine memMap_answers ha (memMap_slow hpass hroots hshare htier) (.inl (mapTakes_slow hroots htier)) fun t hr hpte _ hhbm hslow =>
        ⟨hr, fun i hi => ?_, hhbm.trans (mapSlow_hbm m), hslow.trans (mapSlow_slow m)⟩
      rw [pteAt_of_pte _ hpte]
      exact each_putPte (pteKey_injective _ _) (slowPte m) _ s hi
    case near =>
      obtain ⟨hkind, hmapped, hstate, hentry, hbytes⟩ := mapNear_mem (s := s) m f
      refine memMap_answers ha (memMap_near hpass hroots hshare htier hone hf) (.inr hbehind) fun t hr hpte hframes hhbm _ => ?_
      rw [frame_of_frames f hframes, pteAt_of_pte _ hpte, hhbm, hentry]
      exact ⟨hr, hkind, hmapped, hstate, rfl, rfl, rfl, hbytes⟩
  case unmap =>
    have hpages : Fr 32768 s (s.each (reqKeys q) State.unmapPage) := each_frame (fun _ _ h => unmapPage_frame (Nat.or_self _) h) Fr.rfl
    refine command_answers_then (n := 35684488) ha (memUnmap_accepted hrange hvalid hshared) State.finishWorks rfl
      (addWork_frame (m := 32768) (by decide) hpages) (fun t => finishWorks_frame (Nat.or_self _) Fr.rfl) fun t hr ht => ?_
    have hpte : t.finishWorks.mem.pte = (s.each (reqKeys q) State.unmapPage).mem.pte := by
      rw [finishWorks_pte, ht.mem_eq]
      rfl
    refine ⟨hr, fun k hk => ?_, fun k hk => ?_, finishWorks_hbm.trans (ht.hbm_eq.trans hpages.hbm_eq)⟩ <;> rw [pteAt_of_pte _ hpte]
    · exact (each_unmapPage _ s k).1 hk
    · exact (each_unmapPage _ s k).2 hk
  case quota =>
    refine command_writesMem ha (quotaSet_accepted hctx h1 h2 hpins) rfl (quotaSet_frame (Nat.or_self _) Fr.rfl) fun t hr ht => ⟨hr, ?_, fun k hk => ?_⟩
      <;> rw [acct_of_mem _ ht]
    · exact modAcct_read _ _ _
    · exact modAcct_read_ne _ _ _ hk
  case policy =>
    refine command_writesMem ha (policySet_accepted hadm hctx hshift) rfl (policySet_frame (Nat.or_self _) Fr.rfl) fun t hr ht => ⟨hr, ?_⟩
    have hacct : t.acct (acctOf (q.at 0 2)) = Account.bounded q (s.acct (acctOf (q.at 0 2))) := (acct_of_mem _ ht).trans (modAcct_read _ _ _)
    rw [hacct, ht]
    exact ⟨rfl, rfl, rfl, rfl, rfl, rfl⟩
  case evict =>
    refine command_writesMem ha (memEvict_atRest hrange hvalid hrest) rfl (memEvict_frame (Nat.or_self _) Fr.rfl) fun t hr ht =>
      ⟨hr, fun k hk => ?_, fun k hk => ?_, ?_⟩
    · rw [pteAt_of_mem _ ht, (each_modPte (fun _ => by rfl) (reqKeys q) s k).trans (if_pos hk)]
      rfl
    · rw [pteAt_of_mem _ ht, (each_modPte (fun _ => by rfl) (reqKeys q) s k).trans (if_neg hk)]
    · rw [ht]
      exact each_keeps (fun t => t.mem.frames) (fun _ _ => by rfl) _ s
  case joins =>
    obtain ⟨u, hu⟩ := memEvict_joins hrange hvalid hgoing
    refine command_writesMem ha hu rfl (memEvict_frame (Nat.or_self _) Fr.rfl) fun t hr ht => ⟨hr, ?_⟩
    rw [ht]
    exact ⟨_, List.mem_append_right _ (List.mem_singleton_self _), rfl⟩
  case pin =>
    refine ⟨fun hset => ?_, fun hset hmine => ?_⟩
    · obtain ⟨t, ht, hr, hin, hout⟩ := memPin_answers ha hrange hvalid fun h => absurd (hset.symm.trans h) (by decide)
      exact ⟨t, ht, hr, fun k hk => by rw [hin k hk, Pte.pinned, hset]; rfl, hout⟩
    · obtain ⟨t, ht, hr, hin, hout⟩ := memPin_answers ha hrange hvalid fun _ => hmine
      exact ⟨t, ht, hr, fun k hk => by rw [hin k hk, Pte.pinned, hset]; rfl, hout⟩
  case flush =>
    have hpass : Fr 32896 s (s.each (flushFrames s (reqKeys q)) State.startPass) :=
      each_frame (fun _ _ h => startPass_frame (Nat.or_self _) h) Fr.rfl
    refine command_answers_then (m := 32896) (n := 35684488) ha (memFlush_accepted hrange hvalid) State.finishWorks rfl
      (addWork_frame (by decide) hpass) (fun t => finishWorks_frame (Nat.or_self _) Fr.rfl) fun t hr ht => ?_
    have hpte : t.finishWorks.mem.pte = (s.each (flushFrames s (reqKeys q)) State.startPass).mem.pte := by
      rw [finishWorks_pte, ht.mem_eq]
      rfl
    have hframes : t.finishWorks.mem.frames = (s.each (flushFrames s (reqKeys q)) State.startPass).mem.frames := by
      rw [finishWorks_frames, ht.mem_eq]
      rfl
    refine ⟨hr, hpte.trans (each_keeps (fun t => t.mem.pte) (fun f t => startPass_pte f) _ s),
      finishWorks_hbm.trans (ht.hbm_eq.trans hpass.hbm_eq), finishWorks_slow.trans (ht.slow_eq.trans hpass.slow_eq),
      fun k hk htier hback hdirty hocc => ?_⟩
    rw [frame_of_frames _ hframes]
    exact flushFrames_cleaning hk htier hback hdirty hocc
  case acct => exact command_keepsMem ha (memQuery_account hmode hadm) rfl
  case pages => exact command_keepsMem ha (memQuery_pages hpage hend hmode hsize) rfl
  case frames => exact command_keepsMem ha (memQuery_frames hpage hend hmode hsize) rfl
  case poison => exact command_keepsMem ha (x := (poisonQuery q s).1) rfl rfl

end Sys2Proof.Machine
end

section
/-! PROOFS. The frames that Twine returns, the probes, and a rail whose results do not come (R273, R293, R310): while a rail of a bucket is not
settled, its owner takes what comes and does not report. -/

namespace Sys2Proof.Machine

variable {s : State} {key p : Nat} {w : TwineFrame}

/-! ### Buckets, counters and tallies -/

@[simp] theorem modBucket_job (k : Nat) (f : Bucket → Bucket) :
    (s.modBucket key k f).job key = { s.job key with buckets := adj {} (s.job key).buckets k f } := modJob_read _ _ _

@[simp] theorem modBucket_read (k : Nat) (f : Bucket → Bucket) :
    ((s.modBucket key k f).job key).bucket k = f ((s.job key).bucket k) := by
  rw [modBucket_job]
  exact look_adj_eq _ _ _ _

theorem twnCount_read (f : TwnCnt → TwnCnt) : look {} (s.twnCount p f).train.twn p = f (look {} s.train.twn p) := look_adj_eq _ _ _ _

@[simp] theorem modBucket_twn (k : Nat) (f : Bucket → Bucket) : (s.modBucket key k f).train.twn = s.train.twn := rfl

@[simp] theorem twnCount_job (k : Nat) (f : TwnCnt → TwnCnt) : (s.twnCount p f).job k = s.job k := rfl

@[simp] theorem groupJob_twnCount (g : Nat) (f : TwnCnt → TwnCnt) : groupJob (s.twnCount p f) g = groupJob s g := rfl

@[simp] theorem charge_job (k c : Nat) (x : Cost) : (s.charge c x).job k = s.job k := rfl

@[simp] theorem groupJob_charge (g c : Nat) (x : Cost) : groupJob (s.charge c x) g = groupJob s g := rfl

@[simp] theorem keyLive_charge (k c : Nat) (x : Cost) : keyLive (s.charge c x) k = keyLive s k := rfl

theorem tallyOf_charge (c : Nat) (x : Cost) : tallyOf (s.charge c x) c = (tallyOf s c).add x :=
  look_adj_eq ({} : Cost) s.bud.tally c fun t => t.add x

theorem Fr.tallyOf_eq {m : Nat} {o : State} (h : Fr m o s) (c : Nat) (hb : m.testBit Part.bud.code = false := by decide) :
    tallyOf s c = tallyOf o c := by
  have hbud : s.bud = o.bud := h.same .bud hb
  simp only [tallyOf, hbud]

/-! ### Pieces (R288) -/

/-- One of the `d` parts into which `n` elements are cut has at most `n`. -/
theorem part_le (n k d : Nat) : n * (k + 1) / d - n * k / d ≤ n := by
  rcases Nat.eq_zero_or_pos d with rfl | hd
  · simp
  · have h : n * (k + 1) / d ≤ n * k / d + n := by
      rw [← Nat.add_mul_div_right _ _ hd]
      exact Nat.div_le_div_right (Nat.add_le_add_left (Nat.le_mul_of_pos_right n hd) (n * k))
    omega

/-- A piece has at most the elements of a bucket (R281). -/
theorem pieceLen_le (j : Job) (b m r : Nat) : j.pieceLen b m r ≤ 1048576 := by
  have hpiece : j.pieceLen b m r ≤ j.shardLen b m := by
    have h := part_le (j.shardLen b m) r j.nrail
    simp only [Job.pieceLen, Job.piece, Job.shardLen] at h ⊢
    omega
  have hshard : j.shardLen b m ≤ j.elems b := part_le (j.elems b) m j.desc.m
  have helems : j.elems b ≤ 1048576 := Nat.min_le_left _ _
  omega

/-! ### Reports (R301) -/

/-- While a rail is not settled an owner does not report. -/
theorem tryReport_waits {b i : Nat} (hi : i < (s.job key).nrail)
    (hun : railSettled (s.job key) b ((s.job key).bucket ((s.job key).own b)) i = false) : s.tryReport key b = s := by
  have hall : (List.range (s.job key).nrail).all (railSettled (s.job key) b ((s.job key).bucket ((s.job key).own b))) = false :=
    List.all_eq_false.mpr ⟨i, List.mem_range.mpr hi, by simp [hun]⟩
  simp [State.tryReport, hall]

/-- The same where the bucket has been changed by `f`. -/
theorem tryReport_waits_of {t : State} {b i : Nat} {f : Bucket → Bucket} (ht : t.job key = (s.modBucket key ((s.job key).own b) f).job key)
    (hi : i < (s.job key).nrail) (hun : railSettled (s.job key) b (f ((s.job key).bucket ((s.job key).own b))) i = false) :
    t.tryReport key b = t := by
  have hread := modBucket_read (s := s) (key := key) ((s.job key).own b) f
  rw [← ht] at hread
  have hown : (t.job key).own b = (s.job key).own b := by rw [ht, modBucket_job]; rfl
  refine tryReport_waits (i := i) ?_ ?_
  · rw [ht, modBucket_job]
    exact hi
  · rw [hown, hread, ht, modBucket_job]
    exact hun

/-! ### Results (R293) -/

/-- A bucket that has taken a RESULT. -/
def Bucket.received (w : TwineFrame) (x : Bucket) : Bucket :=
  { x with results := x.results ++ [(w.rail * 65536 + w.seq, w.payload)], ovf := x.ovf || w.ovf, exp := max x.exp w.exp, nfcnt := x.nfcnt + w.nfcnt }

/-- A RESULT that fits came on its rail, and its SEQ is one that a bucket's piece has. -/
theorem resultFits_inv {j : Job} (h : resultFits j p w = true) : w.rail = p ∧ w.seq < 65536 := by
  have hlen := pieceLen_le j w.bucket j.desc.member w.rail
  simp only [resultFits, Bool.and_eq_true, beq_iff_eq, decide_eq_true_eq] at h
  obtain ⟨⟨⟨⟨⟨⟨⟨-, -⟩, hrail⟩, -⟩, -⟩, hseq⟩, -⟩, -⟩ := h
  exact ⟨hrail, by omega⟩

/-- A RESULT of one rail is no frame of another's piece. -/
theorem twinePiece_received {j : Job} {b i : Nat} {x : Bucket} (hi : i ≠ w.rail) (hs : w.seq < 65536) :
    twinePiece j b (x.received w) i = twinePiece j b x i := by
  have hlen := pieceLen_le j b j.desc.member i
  have hframes : ((List.range (ceilDiv (j.pieceLen b j.desc.member i) 1024)).map fun n =>
        ((x.received w).results.find? fun y => y.1 == i * 65536 + n).map Prod.snd) =
      (List.range (ceilDiv (j.pieceLen b j.desc.member i) 1024)).map fun n => (x.results.find? fun y => y.1 == i * 65536 + n).map Prod.snd := by
    refine List.map_congr_left fun n hn => ?_
    have hlt : n < 65536 := by
      have := List.mem_range.mp hn
      unfold ceilDiv at this
      omega
    have hne : (w.rail * 65536 + w.seq == i * 65536 + n) = false := by
      rw [beq_eq_false_iff_ne]
      omega
    simp [Bucket.received, List.find?_append, hne]
  unfold twinePiece
  rw [hframes]

theorem railSettled_received {j : Job} {b i : Nat} {x : Bucket} (hi : i ≠ w.rail) (hs : w.seq < 65536) :
    railSettled j b (x.received w) i = railSettled j b x i := by
  unfold railSettled
  rw [twinePiece_received hi hs]
  rfl

/-- The state with a RESULT that fits charged, counted and taken. -/
def State.received (key p : Nat) (w : TwineFrame) (s : State) : State :=
  ((s.charge Act.reduce { link := frameBytesOn w.payload.length }).twnCount p fun t => { t with result := sat 32 (t.result + 1) }).modBucket key
    ((s.job key).own w.bucket) (Bucket.received w)

/-- The same with the sums of its piece written, when it was the last frame that the piece lacked. -/
def State.resultTaken (key p : Nat) (w : TwineFrame) (s : State) : State :=
  let t := s.received key p w
  (twinePiece (s.job key) w.bucket ((t.job key).bucket ((s.job key).own w.bucket)) w.rail).elim t fun ws => t.writeSums key w.bucket w.rail ws

theorem resultTaken_frame : Fr 122880 (s.received key p w) (s.resultTaken key p w) :=
  elim_frame Fr.rfl fun _ => writeSums_frame (Nat.or_self _) Fr.rfl

theorem twineResult_malformed (hw : w.wellFormed = false) : s.twineResult p w = s.twnDrop p := if_pos (.inr (by simp [hw]))

theorem twineResult_stale (ht : hasTrain s = true) (hw : w.wellFormed = true) (hk : keyLive s w.keyId = false) :
    s.twineResult p w = (s.charge Act.reduce { link := frameBytesOn w.payload.length }).twnCount p fun t =>
      { t with staleKey := sat 16 (t.staleKey + 1) } := by
  simp only [State.twineResult, ht, hw, keyLive_charge, hk, Bool.not_true, Bool.not_false, Bool.false_eq_true, or_self, if_false, if_true]

/-- A RESULT that fits is taken, and the owner then looks whether it has all. -/
theorem twineResult_fits (ht : hasTrain s = true) (hw : w.wellFormed = true) (hk : keyLive s w.keyId = true)
    (hg : groupJob s w.group = some key) (hfit : resultFits (s.job key) p w = true) :
    s.twineResult p w = (s.resultTaken key p w).tryReport key w.bucket := by
  simp only [State.twineResult, ht, hw, keyLive_charge, hk, groupJob_charge, hg, charge_job, hfit, Bool.not_true, Bool.false_eq_true, or_self, if_false]
  rfl

/-- While another rail is not settled, a RESULT brings no report. -/
theorem resultTaken_waits {i : Nat} (hfit : resultFits (s.job key) p w = true) (hi : i < (s.job key).nrail) (hne : i ≠ p)
    (hun : railSettled (s.job key) w.bucket ((s.job key).bucket ((s.job key).own w.bucket)) i = false) :
    (s.resultTaken key p w).tryReport key w.bucket = s.resultTaken key p w := by
  obtain ⟨hrail, hseq⟩ := resultFits_inv hfit
  exact tryReport_waits_of (s := s) (f := Bucket.received w) ((job_of_train _ resultTaken_frame.train_eq).trans rfl) hi
    ((railSettled_received (hrail ▸ hne) hseq).trans hun)

/-! ### Bounces (R293) -/

/-- A bounce of a rail that a bucket has not noted yet, while the rail is not settled: it is noted and counted. -/
theorem twineBounce_noted (ht : hasTrain s = true) (hw : w.wellFormed = true) (hg : groupJob s w.group = some key)
    (hc : current (s.job key) w = true) (hrail : w.rail = p)
    (hb : (((s.job key).bucket ((s.job key).own w.bucket)).bounced.contains p) = false) (hp : p < (s.job key).nrail)
    (hun : railSettled (s.job key) w.bucket ((s.job key).bucket ((s.job key).own w.bucket)) p = false) :
    s.twineBounce p w = (s.twnCount p fun t => { t with bounce := sat 16 (t.bounce + 1) }).modBucket key ((s.job key).own w.bucket) fun x =>
      { x with bounced := x.bounced ++ [p] } := by
  subst hrail
  simp only [State.twineBounce, ht, hw, groupJob_twnCount, hg, twnCount_job, hc, hb, Bool.not_true, Bool.false_eq_true, ne_eq, not_true_eq_false,
    or_self, if_false]
  exact tryReport_waits_of (s := s) (f := fun x => { x with bounced := x.bounced ++ [w.rail] }) rfl hp hun

/-! ### Lost pieces (R293) -/

/-- A lost piece is noted and counted, while another rail is not settled. -/
theorem pieceLost_noted {b i : Nat} (hst : ((s.job key).bucket ((s.job key).own b)).state = .waiting) (hp : p < (s.job key).nrail)
    (hrnd : ((s.job key).bucket ((s.job key).own b)).sentRnd + 4 ≤ boundaryRnd s)
    (htw : (s.job key).byTwine ((s.job key).bucket ((s.job key).own b)) p = true)
    (hnone : twinePiece (s.job key) b ((s.job key).bucket ((s.job key).own b)) p = none)
    (hl : ((s.job key).bucket ((s.job key).own b)).lost.contains p = false) (hi : i < (s.job key).nrail) (hne : i ≠ p)
    (hun : railSettled (s.job key) b ((s.job key).bucket ((s.job key).own b)) i = false) :
    s.pieceLost key b p = (s.modBucket key ((s.job key).own b) fun x => { x with lost := x.lost ++ [p] }).twnCount p fun t =>
      { t with lost := sat 16 (t.lost + 1) } := by
  have hlost : ∀ x : Bucket, railSettled (s.job key) b { x with lost := x.lost ++ [p] } i = railSettled (s.job key) b x i := fun x => by
    simp [railSettled, hne, twinePiece, ringPiece, Job.byTwine, Job.byRing, Job.ringOnly]
  simp only [State.pieceLost, hst, hp, hrnd, htw, hnone, hl, Bool.not_false, and_self, if_true]
  exact tryReport_waits_of (s := s) (f := fun x => { x with lost := x.lost ++ [p] }) rfl hi ((hlost _).trans hun)

/-! ### Probes (R273) -/

/-- The reply of a probed rail of a job: the rail has a reducing switch. -/
theorem probeReply_job (ht : hasTrain s = true) (hw : w.wellFormed = true) (hg : groupJob s w.group = some key)
    (hprobed : (s.job key).probing.contains p = true) :
    s.probeReply p w = s.modJob key fun j => { j with probing := j.probing.filter fun r => r != p } := by
  simp only [State.probeReply, ht, hw, hg, hprobed, Bool.not_true, Bool.false_eq_true, or_self, if_false, if_true]

/-- The reply that TWINE_PROBE has waited for. -/
theorem probeReply_mailbox {ch rnd : Nat} (ht : hasTrain s = true) (hw : w.wellFormed = true) (hg : groupJob s w.group = none)
    (hprobe : s.train.probe = some (ch, p, rnd)) :
    s.probeReply p w = ({ s with train := { s.train with probe := none } }).answer ch St.ok 0 4 (w.capacity % 2 ^ 32) := by
  simp only [State.probeReply, ht, hw, hg, hprobe, Bool.not_true, Bool.false_eq_true, or_self, if_false, if_true]

/-- A probe without a reply: the rail is reduced by the ring path, and a journal entry says so. -/
theorem probeTimeout_noted (hprobed : (s.job key).probing.contains p = true) (hrnd : (s.job key).probeRnd + 1 ≤ boundaryRnd s) :
    s.probeTimeout key p = (s.modJob key fun j =>
      { j with probing := j.probing.filter fun r => r != p, ringRails := (j.ringRails ++ [p]).eraseDups }).journal (reduceEntry (s.job key) p 0) :=
  if_pos ⟨hprobed, hrnd⟩

/-- The code of the entry that the journal has taken. -/
theorem journal_code (e : JEntry) : (look {} (s.journal e).flt.ring ((s.flt.head + 1) % 4096)).code = e.code := by
  have hstored : ∀ f : Flt, f.ring = store {} s.flt.ring ((s.flt.head + 1) % 4096) { e with seq := s.flt.head + 1, rnd := s.rnd.num } →
      (look {} f.ring ((s.flt.head + 1) % 4096)).code = e.code := fun f hf => by rw [hf, look_store_eq]
  unfold State.journal
  dsimp only
  split
  · unfold State.ctxEvent
    rw [(event_frame (Nat.or_self _) Fr.rfl).flt_eq]
    exact hstored _ rfl
  · exact hstored _ rfl

/-- Settles O45: each row by what it does on its occasion; no report is due, since a rail of the bucket is not settled. -/
theorem twineFrames : Obligations.TwineFrames := by
  intro s p w hp ht
  refine ⟨fun hw => ?malformed, fun hw hk => ?stale, fun key hw hk hg hfit i hi hne hun => ?result,
    fun key hw hg => ⟨fun hc hrail hb hpr hun _ => ?bounce, fun hprobed => ?reply⟩, fun ch rnd hw hg hprobe => ?mailbox,
    fun key hprobed hrnd => ?timeout, fun key b i hb hst hpr hrnd htw hnone hl hi hne hun => ?lost⟩
  case malformed =>
    refine answers_of_frame rfl (decide_eq_true hp) (twineResult_frame (Nat.or_self _) Fr.rfl) ?_
    rw [twineResult_malformed hw]
    exact ⟨congrArg TwnCnt.drop (twnCount_read _), rfl, rfl⟩
  case stale =>
    refine answers_of_frame rfl (decide_eq_true hp) (twineResult_frame (Nat.or_self _) Fr.rfl) ?_
    rw [twineResult_stale ht hw hk]
    exact ⟨congrArg TwnCnt.staleKey (twnCount_read _), rfl, congrArg Cost.link (tallyOf_charge _ _)⟩
  case result =>
    refine answers_of_frame rfl (decide_eq_true hp) (twineResult_frame (Nat.or_self _) Fr.rfl) ?_
    rw [twineResult_fits ht hw hk hg hfit, resultTaken_waits hfit hi hne hun]
    have hf := resultTaken_frame (s := s) (key := key) (p := p) (w := w)
    rw [job_of_train _ hf.train_eq, hf.train_eq, hf.out_eq, hf.tallyOf_eq, State.received, modBucket_read, modBucket_twn, ← (resultFits_inv hfit).1]
    exact ⟨congrArg TwnCnt.result (twnCount_read _), rfl, rfl, congrArg Cost.link (tallyOf_charge _ _)⟩
  case bounce =>
    refine answers_of_frame rfl (decide_eq_true hp) (twineBounce_frame (Nat.or_self _) Fr.rfl) ?_
    rw [twineBounce_noted ht hw hg hc hrail hb hpr hun, modBucket_read, modBucket_twn]
    exact ⟨rfl, congrArg TwnCnt.bounce (twnCount_read _)⟩
  case reply =>
    refine answers_of_frame rfl (decide_eq_true hp) (probeReply_frame (Nat.or_self _) Fr.rfl) ?_
    rw [probeReply_job ht hw hg hprobed, modJob_read]
    exact ⟨by simp, rfl, rfl⟩
  case mailbox =>
    refine answers_of_frame rfl (decide_eq_true hp) (probeReply_frame (Nat.or_self _) Fr.rfl) ?_
    rw [probeReply_mailbox ht hw hg hprobe, (answer_frame (Nat.or_self _) Fr.rfl).train_eq]
    exact ⟨rfl, rfl⟩
  case timeout =>
    refine answers_of_frame rfl (decide_eq_true hp) (probeTimeout_frame (Nat.or_self _) Fr.rfl) ?_
    rw [probeTimeout_noted hprobed hrnd, job_of_train _ (journal_frame (Nat.or_self _) Fr.rfl).train_eq, modJob_read, journal_head]
    exact ⟨by simp, by simp, rfl, journal_code _⟩
  case lost =>
    refine answers_of_frame rfl (Bool.and_eq_true_iff.mpr ⟨decide_eq_true hb, decide_eq_true hp⟩) (pieceLost_frame (Nat.or_self _) Fr.rfl) ?_
    rw [pieceLost_noted hst hpr hrnd htw hnone hl hi hne hun]
    exact ⟨congrArg Bucket.lost (modBucket_read _ _), congrArg TwnCnt.lost (twnCount_read _), rfl⟩

end Sys2Proof.Machine
end

section
/-! PROOFS. The training commands on a GW960-S (R310): a command that is refused has its MAILBOX_DONE event, whose bytes a budget pays for. -/

namespace Sys2Proof.Machine

/-- A GW960-S with TRAIN_JOB_QUERY accepted on channel 1; ring 0 of the PF is set up and has room. -/
def absentAsked : State := { State.reset with
  variant := .s
  host := { State.reset.host with linkUp := true, fns := [(0, { bme := true, rings := [(0, { set := true })] })] }
  mb := { State.reset.mb with chans := [(1, { assigned := true, state := Ch.busy, req := [(0, 0x03), (1, 0x07)] })] } }

/-- The event record of the answer is charged to MGMT. -/
theorem absentAsked_charged : ∃ t, exec (.trainJobQuery 1) absentAsked = .next t ∧ (tallyOf t Act.mgmt).link = 32 := ⟨_, rfl, by decide +kernel⟩

/-- Refutes O9: TRAIN_JOB_QUERY on a GW960-S completes with UNIT_ABSENT, and the 32 bytes of its MAILBOX_DONE event change the tally of MGMT. -/
theorem not_trainingAbsentOnS : ¬ Obligations.TrainingAbsentOnS := by
  intro h
  obtain ⟨hcommand, -⟩ := h absentAsked rfl
  obtain ⟨t, ht, -, -, -, hsame⟩ := hcommand 1 (by decide) (by decide +kernel) rfl rfl (by decide +kernel) (by decide +kernel) (by decide +kernel) rfl
    (by decide +kernel) (.trainJobQuery 1, 0x0703) (by simp) (by decide +kernel)
  have hbud : t.bud = absentAsked.bud := hsame .bud (by decide)
  obtain ⟨u, hu, hlink⟩ := absentAsked_charged
  cases ht.symm.trans hu
  rw [tallyOf, hbud] at hlink
  exact absurd hlink (by decide +kernel)

end Sys2Proof.Machine
end

section
/-! PROOFS. The send of a bucket (R283): the read of a gradient that lies in the slow tier adds to the heat of its page (R225). -/

namespace Sys2Proof.Machine

/-- Job 12 of two members, whose only bucket of 32 elements has been admitted and waits to leave; its gradient begins at address 0 of context 1. -/
def slowJob : Job where
  active := true
  desc := { m := 2 }
  plan := { tensors := [(32, 0)], areas := [{}] }
  ctx := 1
  buckets := [(0, { state := .sending, toSend := true, asked := true })]

/-- The device that trains it; page 0 of context 1 lies in host region 1. -/
def slowSend : State := { State.reset with
  host := { State.reset.host with linkUp := true }
  ctxs := [(1, { state := .active })]
  mem := { State.reset.mem with pte := [(pteKey 1 0, { valid := true, tier := .t2, sda := 2 ^ 56 })], regions := [(1, { reg := true, len := frameBytes })] }
  train := { jobs := [(12, slowJob)] } }

theorem slowSend_read : ∃ bs, (slowSend.readAll 1 (gradArea slowJob 0)).1 = .ok bs := ⟨_, rfl⟩

/-- The bucket leaves, and its page has become hotter. -/
theorem slowSend_heat : ∃ t, exec (.bucketSend 12 0) slowSend = .next t ∧ (t.pteAt (pteKey 1 0)).heat = 1 := ⟨_, rfl, by decide +kernel⟩

/-- Refutes O46: a bucket leaves whose gradient lies in the slow tier, and the page-table entry of its page is not what it was. -/
theorem not_bucketExchange : ¬ Obligations.BucketExchange := by
  intro h
  obtain ⟨bs, hbs⟩ := slowSend_read
  obtain ⟨hsend, -⟩ := h slowSend 12 0 (by decide) rfl (by decide +kernel)
  obtain ⟨-, hleaves⟩ := hsend (by decide +kernel) (by decide +kernel) (by decide +kernel) bs hbs
  obtain ⟨t, ht, -, -, -, -, -, -, -, hpte⟩ := hleaves rfl ⟨0, by decide +kernel⟩ (by decide)
  obtain ⟨u, hu, hheat⟩ := slowSend_heat
  cases ht.symm.trans hu
  rw [State.pteAt, hpte] at hheat
  exact absurd hheat (by decide +kernel)

end Sys2Proof.Machine
end

section
/-! PROOFS. The start of a tuning job (R273): the read of its descriptor marks the frame that it stands in as used, and a frame table that is
not in canonical form then lists that frame twice. -/

namespace Sys2Proof.Machine

/-- A job descriptor of weaver 3 and job 12: one step of one micro-batch, one member, one part, its state in host region 1. -/
def startBytes : Tab Byte :=
  [(0, 3), (4, 12), (16, 1), (20, 1), (24, 1), (28, 1), (48, 1), (68, 1), (79, 1), (101, 1), (103, 1), (104, 1), (106, 1), (107, 1), (110, 1)]

/-- A resident frame of context 1. -/
def ownFrame (page : Nat) : FrameE := { state := .resident, ctx := 1, key := 1, page := page, mapped := true }

/-- TRAIN_JOB_START accepted on channel 1, for context 1, with queue pair 9 as its WORK queue pair and the descriptor at address 0. The context
has the two frames that its quota allows; the frame table lists frame 1 before frame 0. -/
def startAsked : State := { State.reset with
  ctxs := [(1, { state := .active })]
  lid := { State.reset.lid with tenant := [(1, { state := .live })] }
  weav := { State.reset.weav with dir := [(3, { state := .resident, ctx := 1, keySlot := 1, trainable := true })] }
  crs := { State.reset.crs with plans := [((1, 0), { tensors := [(32, 0)], areas := [{}], seals := [(0, 0)] })] }
  host := { State.reset.host with qps := [(9, { state := .active, ctx := 1, typ := 3 })] }
  mem := { State.reset.mem with
    hbm := startBytes
    pte := [(pteKey 1 0, { valid := true, tier := .t1, frame := 0 })]
    frames := [(1, ownFrame 1), (0, ownFrame 0)]
    acct := [(1, { q1 := 2 })]
    regions := [(1, { reg := true, len := frameBytes })] }
  mb := { State.reset.mb with
    chans := [(1, { assigned := true, ctx := 1, state := Ch.busy, req := [(0, 0x01), (1, 0x07), (2, 8), (16, 9), (19, 0x80)] })] } }

/-- The request, the bytes of the descriptor, and the job that they describe. -/
def startReq : Req := reqOn startAsked 1
def startDesc : List Byte := rdBytes startBytes 0 128
def startJob : Job := jobOf startAsked startReq.ctx (descOf (leNat startDesc)) (some startReq.note)

theorem startAsked_admitted : Admitted trainJobStartLayout true ownsAny 1 startAsked := by decide +kernel

/-- A read is granted when it gives bytes. -/
theorem eq_ok_of_toOption {ε α : Type} {x : Except ε α} {a : α} (h : x.toOption = some a) : x = .ok a := by
  cases x with
  | error e => cases h
  | ok b => exact congrArg Except.ok (Option.some.inj h)

theorem startAsked_read : (startAsked.readOwn startReq.ctx (startReq.at 0 8) 128).1 = .ok startDesc :=
  eq_ok_of_toOption (by decide +kernel)

/-- The job passes every check on the state as it stands, and needs no new page. -/
theorem startAsked_passes : notActive startAsked startReq.ctx = none ∧ jobBad startAsked startReq.ctx (leNat startDesc) startJob = none ∧
    newPages startAsked startJob = [] := by decide +kernel

/-- Once the descriptor has been read, three entries of the frame table are charged to the context, and the command is refused. -/
theorem startAsked_refused : ∃ t, exec (.trainJobStart 1) startAsked = .next t ∧
    t.chan 1 = respond startAsked (startAsked.chan 1) St.quotaExceeded 0 0 0 := ⟨_, rfl, by decide +kernel⟩

/-- Refutes O59: TRAIN_JOB_START of a job that passes every check before its descriptor is read is refused with QUOTA_EXCEEDED. -/
theorem not_trainingCommands : ¬ Obligations.TrainingCommands := by
  intro h
  obtain ⟨hstart, -⟩ := h startAsked 1 rfl
  obtain ⟨hactive, hpasses, hpages⟩ := startAsked_passes
  obtain ⟨hbegins, -⟩ := hstart startDesc startAsked_admitted startAsked_read hactive
  obtain ⟨t, ht, hpending, -⟩ := hbegins hpasses hpages
  obtain ⟨u, hu, hquota⟩ := startAsked_refused
  cases ht.symm.trans hu
  exact absurd (hpending.symm.trans hquota) (by decide +kernel)

end Sys2Proof.Machine
end

section
/-! PROOFS. The rules that the proofs about ports, Wale and RoCE share: the flow of a packet, parts outside a frame, bits of a mask, and what leaves
through a port. -/

namespace Sys2Proof.Machine

/-! ### The flow of a packet (R322) -/

/-- A packet that comes in on port `p` belongs to flow `f`, which is open. -/
structure BelongsTo (s : State) (p : Nat) (w : WalePkt) (f : Flow) : Prop where
  flow : s.flow w.dstQpn = f
  isOpen : f.state = .isOpen
  port : f.port = p
  peer : f.peerQpn = w.srcQpn

theorem belongsTo_of_flowFor {s : State} {p : Nat} {w : WalePkt} {f : Flow} (hf : flowFor s p w = some f) : BelongsTo s p w f := by
  unfold flowFor at hf
  dsimp only at hf
  split at hf
  · next h =>
    obtain ⟨hopen, hport, hpeer⟩ := h
    cases hf
    exact ⟨rfl, hopen, hport, hpeer⟩
  · cases hf

variable {s : State}

/-! ### Parts outside a frame -/

section
variable {m : Nat} {o : State} (h : Fr m o s)
include h

theorem Fr.ports_eq (hb : m.testBit Part.ports.code = false := by decide) : s.ports = o.ports := h.same .ports hb
theorem Fr.cxl_eq (hb : m.testBit Part.cxl.code = false := by decide) : s.cxl = o.cxl := h.same .cxl hb
theorem Fr.txHeld_eq (hb : m.testBit Part.txHeld.code = false := by decide) : s.txHeld = o.txHeld := h.same .txHeld hb
theorem Fr.fw_eq (hb : m.testBit Part.fw.code = false := by decide) : s.fw = o.fw := h.same .fw hb
theorem Fr.rst_eq (hb : m.testBit Part.rst.code = false := by decide) : s.rst = o.rst := h.same .rst hb

end

/-! ### Bits of a mask -/

theorem bit_eq_testBit (v i : Nat) : bit v i = v.testBit i := by
  rw [Nat.testBit_eq_decide_div_mod_eq]
  rfl

/-- A number by its bits below `i`, its bit `i`, and its bits above. -/
theorem bit_cut (v i : Nat) : v = 2 ^ i * (2 * (v / 2 ^ i / 2) + b2n (bit v i)) + v % 2 ^ i := by
  have hbit : b2n (bit v i) = v / 2 ^ i % 2 := by
    rcases Nat.mod_two_eq_zero_or_one (v / 2 ^ i) with h | h <;> simp [b2n, bit, h]
  rw [hbit, Nat.div_add_mod, Nat.div_add_mod]

theorem setBit_cut (v i : Nat) (b : Bool) : setBit v i b = 2 ^ i * (2 * (v / 2 ^ i / 2) + b2n b) + v % 2 ^ i := by
  have hv := bit_cut v i
  rw [Nat.mul_add, Nat.mul_comm _ (b2n _)] at hv
  rw [Nat.mul_add, Nat.mul_comm _ (b2n _)]
  unfold setBit
  omega

/-- One bit of a mask is written, the others stay. -/
theorem bit_setBit (v i j : Nat) (b : Bool) : bit (setBit v i b) j = if j = i then b else bit v j := by
  have hlow : v % 2 ^ i < 2 ^ i := Nat.mod_lt _ (Nat.two_pow_pos i)
  have hhalf : ∀ c : Bool, (2 * (v / 2 ^ i / 2) + b2n c) / 2 = v / 2 ^ i / 2 := fun c => by
    have hc : b2n c < 2 := by cases c <;> decide
    omega
  have hread : ∀ c : Bool, (2 ^ i * (2 * (v / 2 ^ i / 2) + b2n c) + v % 2 ^ i).testBit j =
      if j < i then (v % 2 ^ i).testBit j else if j = i then c else (v / 2 ^ i / 2).testBit (j - i - 1) := fun c => by
    rw [Nat.testBit_two_pow_mul_add _ hlow]
    split
    · rfl
    · split
      · next hji => cases c <;> simp [hji, b2n]
      · next hlt hne =>
        obtain ⟨k, hk⟩ : ∃ k, j - i = k + 1 := ⟨j - i - 1, by omega⟩
        rw [hk, Nat.testBit_succ, hhalf]
        rfl
  rw [bit_eq_testBit, bit_eq_testBit, setBit_cut, hread]
  conv => rhs; rw [bit_cut v i, hread]
  split
  · next hlt => rw [if_neg (Nat.ne_of_lt hlt)]
  · split <;> rfl

@[simp] theorem bit_setBit_self (v i : Nat) (b : Bool) : bit (setBit v i b) i = b := (bit_setBit v i i b).trans (if_pos rfl)

theorem bit_setBit_ne (v : Nat) {i j : Nat} (b : Bool) (h : j ≠ i) : bit (setBit v i b) j = bit v j := (bit_setBit v i j b).trans (if_neg h)

/-! ### What leaves through a port (R315, R318) -/

section
variable {p sub prio : Nat} {o : Out} (hc : canSend s p sub = true)
include hc

theorem portOut_sends (hp : pausedOn s p prio = false) : s.portOut p sub prio o = s.emit o := by
  simp [State.portOut, hc, hp]

theorem portOut_waits (hp : pausedOn s p prio = true) :
    s.portOut p sub prio o = { s with txHeld := s.txHeld ++ [{ port := p, sub := sub, prio := prio, frame := o }] } := by
  simp [State.portOut, hc, hp]

end

/-- What leaves in turn for each item of a list. -/
theorem each_emit_out {α : Type} (g : α → Out) (xs : List α) (s : State) :
    (s.each xs fun x s => s.emit (g x)).out = (xs.map g).reverse ++ s.out := by
  induction xs generalizing s with
  | nil => rfl
  | cons x xs ih =>
    refine (ih (s.emit (g x))).trans ?_
    simp

end Sys2Proof.Machine
end

section
/-! PROOFS. Wale (R322 to R327): what a packet sent leaves, the receiver's answers to DATA, the sender's window, resends, and the end of a
flow. -/

namespace Sys2Proof.Machine

variable {s : State} {p q : Nat} {w : WalePkt} {f : Flow}

/-! ### A packet sent (R322) -/

@[simp] theorem waleOut_host (typ : Nat) : (s.waleOut f typ w).host = s.host := (waleOut_frame (Nat.or_self _) Fr.rfl).host_eq
@[simp] theorem waleOut_ports (typ : Nat) : (s.waleOut f typ w).ports = s.ports := (waleOut_frame (Nat.or_self _) Fr.rfl).ports_eq
@[simp] theorem waleOut_flow (typ k : Nat) : (s.waleOut f typ w).flow k = s.flow k := flow_of_host k (waleOut_host typ)
@[simp] theorem charge_flow (c : Nat) (x : Cost) (k : Nat) : (s.charge c x).flow k = s.flow k := rfl

@[simp] theorem modQp_flow (k j : Nat) (g : Qp → Qp) : (s.modQp k g).flow j = s.flow j := rfl

/-- What a packet adds to its class's tally does not depend on whether the port may send. -/
theorem tallyOf_waleOut (typ : Nat) :
    tallyOf (s.waleOut f typ w) f.cls = (tallyOf s f.cls).add { link := waleBytes w.isSealed w.payload.length } := by
  refine (tallyOf_charge _ _).trans ?_
  rw [(portOut_frame (Nat.or_self _) Fr.rfl).tallyOf_eq]

/-- A packet leaves where its sub-port may send and its priority is not paused. -/
theorem waleOut_sends {typ : Nat} (hc : canSend s f.port (subOf s f.port w.psn) = true) (hp : pausedOn s f.port (walePrio s f) = false) :
    (s.waleOut f typ w).out =
      .wale f.port (subOf s f.port w.psn) typ w (frameTag s f.port (walePrio s f) true) :: s.out := by
  unfold State.waleOut
  dsimp only
  rw [portOut_sends hc hp]
  rfl

/-! ### The receiver (R325 to R327) -/

/-- A packet that fails its seal is counted by its port. -/
def State.sealDropped (p : Nat) (s : State) : State := s.modPort p fun x => { x with sealDrop := sat 16 (x.sealDrop + 1) }

theorem sealDropped_port : ((s.sealDropped p).port p).sealDrop = sat 16 ((s.port p).sealDrop + 1) := congrArg Port.sealDrop (modPort_read _ _ _)
theorem sealDropped_port_ne {r : Nat} (hr : r ≠ p) : (s.sealDropped p).port r = s.port r := modPort_read_ne _ _ _ hr

/-- A packet of a flow as it comes in: charged to the flow's class. -/
def State.inbound (f : Flow) (w : WalePkt) (s : State) : State := s.charge f.cls { link := waleBytes w.isSealed w.payload.length }

/-- A flow that has taken the packet expected. -/
def Flow.taken (w : WalePkt) (f : Flow) : Flow :=
  let buf := wrBytes f.rcvBuf w.offset (openedBytes f w)
  let len := max f.rcvLen (w.offset + w.payload.length)
  { f with
    rcvNext := f.rcvNext + 1, rcvUnack := f.rcvUnack + 1, nakSent := false, rcvCe := f.rcvCe || w.ce
    rcvBuf := if w.last then [] else buf, rcvLen := if w.last then 0 else len
    rcvDone := if w.last then f.rcvDone ++ [(w.msgId, rdBytes buf 0 len)] else f.rcvDone }

theorem sealFails_eq_true_iff :
    sealFails s f w = true ↔ w.isSealed = true ∧ (keyLive s w.keyId = false ∨ w.tag ≠ sealTag f.sealKey (!f.opener) w) := by
  simp [sealFails]

theorem sealFails_eq_false_iff :
    sealFails s f w = false ↔ (w.isSealed = true → keyLive s w.keyId = true ∧ w.tag = sealTag f.sealKey (!f.opener) w) := by
  simp [sealFails]

/-- A packet of no flow, sealed under a key that is not live. -/
theorem waleData_noFlow (hf : flowFor s p w = none) (hs : w.isSealed = true) (hk : keyLive s w.keyId = false) :
    s.waleData p w = s.sealDropped p := by
  simp [State.waleData, hf, hs, hk, State.sealDropped]

section
variable (hf : flowFor s p w = some f)
include hf

theorem waleData_sealFails (hs : sealFails s f w = true) : s.waleData p w = (s.inbound f w).sealDropped p := by
  simp only [State.waleData, hf]
  exact if_pos hs

section
variable (hs : sealFails s f w = false)
include hs

/-- A packet ahead of its turn is asked for once (R325). -/
theorem waleData_ahead (hn : f.rcvNext < w.psn) : s.waleData p w =
    if f.nakSent then s.inbound f w
    else ((s.inbound f w).waleOut f 3 { dstQpn := f.peerQpn, srcQpn := w.dstQpn, psn := f.rcvNext }).modFlow w.dstQpn fun f =>
      { f with nakSent := true } := by
  simp only [State.waleData, hf]
  exact (if_neg (ne_true_of_eq_false hs)).trans (if_pos hn)

/-- A packet that has been taken before is acknowledged again. -/
theorem waleData_again (hn : w.psn < f.rcvNext) : s.waleData p w = (s.inbound f w).sendAck w.dstQpn := by
  simp only [State.waleData, hf]
  exact (if_neg (ne_true_of_eq_false hs)).trans ((if_neg (Nat.lt_asymm hn)).trans (if_pos hn))

/-- The packet expected is taken, and acknowledged when it ends a message, asks for it, or is the sixteenth. -/
theorem waleData_expected (hn : w.psn = f.rcvNext) : s.waleData p w =
    if w.last = true ∨ w.ackReq = true ∨ 16 ≤ f.rcvUnack + 1 then
      ((s.inbound f w).modFlow w.dstQpn (Flow.taken w)).sendAck w.dstQpn
    else (s.inbound f w).modFlow w.dstQpn (Flow.taken w) := by
  simp only [State.waleData, hf]
  exact (if_neg (ne_true_of_eq_false hs)).trans
    ((if_neg (Nat.not_lt.mpr (Nat.le_of_eq hn))).trans (if_neg (Nat.not_lt.mpr (Nat.le_of_eq hn.symm))))

end
end

theorem sendAck_flow : (s.sendAck q).flow q = { s.flow q with rcvUnack := 0, rcvCe := false } := by
  unfold State.sendAck
  simp

theorem sendAck_tally : tallyOf (s.sendAck q) (s.flow q).cls = (tallyOf s (s.flow q).cls).add { link := waleBytes false 0 } :=
  tallyOf_waleOut _

/-- Settles O11: a packet of a flow, or of none, is counted by its port, and nothing leaves. -/
theorem sealedPacketDrops : Obligations.SealedPacketDrops := by
  intro s p w hp hs hbad
  refine answers_of_frame rfl (decide_eq_true hp) (waleData_frame (Nat.or_self _) Fr.rfl) ?_
  cases hf : flowFor s p w with
  | none =>
    rw [waleData_noFlow hf hs (by simpa [hf] using hbad)]
    exact ⟨sealDropped_port, rfl, rfl, rfl, fun _ hr => sealDropped_port_ne hr⟩
  | some f =>
    rw [waleData_sealFails hf (sealFails_eq_true_iff.mpr ⟨hs, by simpa [hf] using hbad⟩)]
    exact ⟨sealDropped_port, rfl, rfl, rfl, fun _ hr => sealDropped_port_ne hr⟩

/-! ### The sender (R325) -/

/-- What leaves by the window moves a flow's next PSN on, and nothing else of the flow. -/
theorem pump_flow (n : Nat) (s : State) : ∃ k, (s.flow q).sndNext ≤ k ∧ (s.pump n q).flow q = { s.flow q with sndNext := k } := by
  induction n generalizing s with
  | zero => exact ⟨_, Nat.le_refl _, rfl⟩
  | succ n ih =>
    unfold State.pump
    dsimp only
    split
    · exact ⟨_, Nat.le_refl _, rfl⟩
    · split
      · exact ⟨_, Nat.le_refl _, rfl⟩
      · next x _ =>
        obtain ⟨k, hk, hflow⟩ := ih ((s.waleOut (s.flow q) 1 x).modFlow q fun f => { f with sndNext := f.sndNext + 1 })
        rw [modFlow_read, waleOut_flow] at hk hflow
        exact ⟨k, Nat.le_of_succ_le hk, hflow⟩

/-- A flow of which everything below `n` is acknowledged. -/
def Flow.acked (n : Nat) (f : Flow) : Flow :=
  { f with sndUna := max f.sndUna n, msgs := f.msgs.filter fun m => decide (max f.sndUna n < m.psn + m.npkt) }

theorem ackTo_flow (n : Nat) : (s.ackTo q n).flow q = (s.flow q).acked n := by
  unfold State.ackTo
  dsimp only
  rw [modFlow_read, flow_of_host _ (each_keeps State.host (fun _ _ => emit_host _ _) _ _), modFlow_read]
  rfl

theorem ackTo_ports (n : Nat) : (s.ackTo q n).ports = s.ports := (ackTo_frame (Nat.or_self _) Fr.rfl).ports_eq

/-- The priority of a flow depends on its port and its class. -/
theorem walePrio_of {t : State} {g : Flow} (ht : t.ports = s.ports) (hport : g.port = f.port) (hcls : g.cls = f.cls) :
    walePrio t g = walePrio s f := by
  simp only [walePrio, hport, hcls, port_of_ports _ ht]

theorem pausedOn_of_ports {t : State} (ht : t.ports = s.ports) (n : Nat) : pausedOn t p n = pausedOn s p n := by
  simp only [pausedOn, port_of_ports _ ht]

theorem waleAck_acks (hf : flowFor s p w = some f) (hlo : f.sndUna ≤ w.psn) (hhi : w.psn ≤ f.sndNext) :
    s.waleAck p w = ((s.ackTo w.dstQpn w.psn).modFlow w.dstQpn fun x => { x with
      window := if w.ece then max 16 (x.window / 2) else min 256 (x.window + 1)
      resends := if f.sndUna < w.psn then 0 else x.resends }).pump 256 w.dstQpn := by
  simp only [State.waleAck, hf]
  exact if_neg (by omega)

theorem waleNak_acks (hf : flowFor s p w = some f) (hlo : f.sndUna ≤ w.psn) (hhi : w.psn < f.sndNext) :
    s.waleNak p w = (if f.sndUna < w.psn then (s.ackTo w.dstQpn w.psn).modFlow w.dstQpn fun x => { x with resends := 0 }
      else s.ackTo w.dstQpn w.psn).resend w.dstQpn := by
  simp only [State.waleNak, hf]
  exact if_neg (by omega)

/-- Sending again counts one resend, and leaves the rest of the flow. -/
theorem resend_flow (hr : (s.flow q).resends < 7) (hp : pausedOn s (s.flow q).port (walePrio s (s.flow q)) = false) :
    (s.resend q).flow q = { s.flow q with resends := (s.flow q).resends + 1 } := by
  unfold State.resend
  dsimp only
  rw [if_neg (Nat.not_le.mpr hr), hp, if_neg Bool.false_ne_true]
  refine (each_keeps (fun t => t.flow q) (fun i t => ?_) _ _).trans (modFlow_read _ _ _)
  split
  · rfl
  · exact waleOut_flow _ _

/-- NAK acknowledges what is below its PSN and sends the rest again (R325). -/
theorem waleNak_flow (hf : flowFor s p w = some f) (hlo : f.sndUna ≤ w.psn) (hhi : w.psn < f.sndNext) (hr : f.sndUna < w.psn ∨ f.resends < 7)
    (hp : pausedOn s f.port (walePrio s f) = false) :
    (s.waleNak p w).flow w.dstQpn = { f.acked w.psn with resends := (if f.sndUna < w.psn then 0 else f.resends) + 1 } := by
  have hacked : (s.ackTo w.dstQpn w.psn).flow w.dstQpn = f.acked w.psn := by rw [ackTo_flow, (belongsTo_of_flowFor hf).flow]
  rw [waleNak_acks hf hlo hhi]
  generalize ht : (if f.sndUna < w.psn then (s.ackTo w.dstQpn w.psn).modFlow w.dstQpn fun x => { x with resends := 0 }
      else s.ackTo w.dstQpn w.psn) = t
  have hflow : t.flow w.dstQpn = { f.acked w.psn with resends := if f.sndUna < w.psn then 0 else f.resends } := by
    rw [← ht]
    split
    · rw [modFlow_read, hacked]
    · exact hacked
  have hports : t.ports = s.ports := by
    rw [← ht]
    split
    · rw [modFlow_ports, ackTo_ports]
    · exact ackTo_ports _
  rw [resend_flow, hflow]
  · rw [hflow]
    show (if f.sndUna < w.psn then 0 else f.resends) < 7
    split
    · decide
    · next hnot => exact hr.resolve_left hnot
  · rw [pausedOn_of_ports hports, walePrio_of hports (f := f) (by rw [hflow]; rfl) (by rw [hflow]; rfl), hflow]
    exact hp

/-! ### The end of a flow (R325) -/

/-- What an ended flow's messages complete with. -/
def partialDone (q : Nat) (f : Flow) (m : WMsg) : Out := .waleDone q m.id St.partialEnd (ackedOf f m)

/-- The messages in progress complete with PARTIAL, and a flow that fails is counted by its port. -/
def State.partials (q reason : Nat) (s : State) : State :=
  let u := s.each (s.flow q).msgs fun m t => t.emit (partialDone q (s.flow q) m)
  if reason = 3 then u.modPort (s.flow q).port fun p => { p with flowFail := sat 16 (p.flowFail + 1) } else u

theorem endFlow_eq (reason : Nat) :
    s.endFlow q reason = ((s.partials q reason).modFlow q fun _ => {}).modQp q fun _ => {} := rfl

theorem endFlow_flow (reason : Nat) : (s.endFlow q reason).flow q = {} := by
  rw [endFlow_eq, modQp_flow, modFlow_read]

theorem endFlow_qp (reason : Nat) : (s.endFlow q reason).qp q = {} := by
  rw [endFlow_eq, modQp_read]

theorem endFlow_out (reason : Nat) : (s.endFlow q reason).out = ((s.flow q).msgs.map (partialDone q (s.flow q))).reverse ++ s.out := by
  rw [endFlow_eq, modQp_out, modFlow_out]
  unfold State.partials
  dsimp only
  split <;> exact each_emit_out _ _ _

/-- A flow that fails is counted by its port. -/
theorem endFlow_failed : ((s.endFlow q 3).port (s.flow q).port).flowFail = sat 16 ((s.port (s.flow q).port).flowFail + 1) := by
  have hports := each_keeps State.ports (f := fun m t => t.emit (partialDone q (s.flow q) m)) (fun _ _ => rfl) (s.flow q).msgs s
  rw [endFlow_eq, port_of_ports _ (modQp_ports _ _ _), port_of_ports _ (modFlow_ports _ _ _), State.partials, if_pos rfl, modPort_read,
    port_of_ports _ hports]

/-- This device closes a flow that is open: a CLOSE leaves, and the flow ends. -/
theorem closeFlow_open (reason : Nat) (hopen : (s.flow q).state = .isOpen) : s.closeFlow q reason =
    (s.waleOut (s.flow q) 6 { dstQpn := (s.flow q).peerQpn, srcQpn := q, reason := reason }).endFlow q reason := by
  simp [State.closeFlow, hopen]

theorem resend_fails (hr : 7 ≤ (s.flow q).resends) : s.resend q = s.closeFlow q 3 := if_pos hr

/-! ### DATA, ACK, NAK and the timers -/

section
variable (hf : flowFor s p w = some f) (hs : sealFails s f w = false) (hn : w.psn = f.rcvNext)
include hf hs hn

theorem waleData_expected_flow : (s.waleData p w).flow w.dstQpn =
    if w.last = true ∨ w.ackReq = true ∨ 16 ≤ f.rcvUnack + 1 then { f.taken w with rcvUnack := 0, rcvCe := false } else f.taken w := by
  have hflow : ((s.inbound f w).modFlow w.dstQpn (Flow.taken w)).flow w.dstQpn = f.taken w := by
    rw [modFlow_read, State.inbound, charge_flow, (belongsTo_of_flowFor hf).flow]
  rw [waleData_expected hf hs hn]
  split
  · rw [sendAck_flow, hflow]
  · exact hflow

theorem waleData_expected_tally : tallyOf (s.waleData p w) f.cls =
    ((tallyOf s f.cls).add { link := waleBytes w.isSealed w.payload.length }).add
      (if w.last = true ∨ w.ackReq = true ∨ 16 ≤ f.rcvUnack + 1 then { link := waleBytes false 0 } else {}) := by
  have hcls : (((s.inbound f w).modFlow w.dstQpn (Flow.taken w)).flow w.dstQpn).cls = f.cls := by
    rw [modFlow_read, State.inbound, charge_flow, (belongsTo_of_flowFor hf).flow]
    rfl
  have hin : tallyOf ((s.inbound f w).modFlow w.dstQpn (Flow.taken w)) f.cls =
      (tallyOf s f.cls).add { link := waleBytes w.isSealed w.payload.length } := tallyOf_charge _ _
  rw [waleData_expected hf hs hn]
  split
  · conv => lhs; rw [← hcls]
    rw [sendAck_tally, hcls, hin]
  · exact hin

end

/-- Settles O37: a DATA packet by its PSN and its seal; ACK and NAK by what they acknowledge; a resend that the flow's count allows or not. -/
theorem walePackets : Obligations.WalePackets := by
  refine ⟨?receiver, ?sender⟩
  case receiver =>
    intro s p w f hp hf _ q good
    obtain ⟨hq, hopen, hport, -⟩ := belongsTo_of_flowFor hf
    have hdata : ∀ P : State → Prop, P (s.waleData p w) → Answers (.waleData p w) s P := fun P =>
      answers_of_frame rfl (decide_eq_true hp) (waleData_frame (Nat.or_self _) Fr.rfl)
    refine ⟨fun hg hn => hdata _ ?expected, fun hg hn => hdata _ ?ahead, fun hg hn => hdata _ ?again, fun hg => hdata _ ?dropped,
      fun hlt hu => ?timer⟩
    case expected =>
      have hs := sealFails_eq_false_iff.mpr hg
      refine ⟨?_, ?_, ?_, fun hl => ?_, fun hl => ?_, waleData_expected_tally hf hs hn⟩ <;> rw [waleData_expected_flow hf hs hn]
      · split <;> rfl
      · split <;> rfl
      · split <;> rfl
      · split <;> simp [Flow.taken, hl]
      · split <;> simp [Flow.taken, hl]
    case ahead =>
      rw [waleData_ahead hf (sealFails_eq_false_iff.mpr hg) hn]
      cases hnak : f.nakSent with
      | true =>
        refine ⟨?_, fun _ => rfl, fun h => absurd h (by decide)⟩
        rw [if_pos rfl, ← hnak]
        exact hq
      | false =>
        rw [if_neg Bool.false_ne_true]
        refine ⟨?_, fun h => absurd h (by decide), fun _ hc hpause => ?_⟩
        · rw [modFlow_read, waleOut_flow, State.inbound, charge_flow, hq]
        · subst hport
          exact waleOut_sends (s := s.inbound f w) hc hpause
    case again =>
      rw [waleData_again hf (sealFails_eq_false_iff.mpr hg) hn, sendAck_flow, State.inbound, charge_flow, hq]
      exact ⟨rfl, rfl, rfl, rfl⟩
    case dropped =>
      have hs : sealFails s f w = true := eq_true_of_ne_false fun hpass => hg (sealFails_eq_false_iff.mp hpass)
      rw [waleData_sealFails hf hs]
      exact ⟨rfl, sealDropped_port, rfl⟩
    case timer =>
      subst hq
      refine answers_of_frame (m := 1075839112) rfl (decide_eq_true hlt) (Fr_ite (fun _ => sendAck_frame (by decide) Fr.rfl) fun _ => Fr.rfl) ?_
      rw [if_pos ⟨hopen, hu⟩, sendAck_flow]
  case sender =>
    intro s p w f hp hf _ q
    obtain ⟨hq, hopen, hport, -⟩ := belongsTo_of_flowFor hf
    have hacked : ∀ n, f.sndUna ≤ n → max f.sndUna n = n := fun n hn => Nat.max_eq_right hn
    refine ⟨fun hlo hhi => ?ack, fun hlo hhi hr hpause => ?nak, fun hlt hr hpause hqpn => ?again, fun hlt hr hqpn => ?fails⟩
    case ack =>
      refine answers_of_frame rfl (decide_eq_true hp) (waleAck_frame (Nat.or_self _) Fr.rfl) ?_
      rw [waleAck_acks hf hlo hhi]
      obtain ⟨k, hk, hflow⟩ := pump_flow (q := w.dstQpn) 256 ((s.ackTo w.dstQpn w.psn).modFlow w.dstQpn fun x => { x with
        window := if w.ece then max 16 (x.window / 2) else min 256 (x.window + 1)
        resends := if f.sndUna < w.psn then 0 else x.resends })
      rw [modFlow_read, ackTo_flow, hq] at hk hflow
      rw [hflow]
      refine ⟨hacked _ hlo, hk, rfl, rfl, ?_⟩
      simp only [Flow.acked, hacked _ hlo]
    case nak =>
      refine answers_of_frame rfl (decide_eq_true hp) (waleNak_frame (Nat.or_self _) Fr.rfl) ?_
      rw [waleNak_flow hf hlo hhi hr hpause]
      exact ⟨hacked _ hlo, rfl, rfl⟩
    case again =>
      subst hq
      refine answers_of_frame (m := 1076101256) rfl (decide_eq_true hqpn) (Fr_ite (fun _ => resend_frame (by decide) Fr.rfl) fun _ => Fr.rfl) ?_
      rw [if_pos ⟨hopen, hlt⟩, resend_flow hr hpause]
    case fails =>
      subst hq
      subst hport
      refine answers_of_frame (m := 1076101256) rfl (decide_eq_true hqpn) (Fr_ite (fun _ => resend_frame (by decide) Fr.rfl) fun _ => Fr.rfl) ?_
      rw [if_pos ⟨hopen, hlt⟩, resend_fails hr, closeFlow_open _ hopen]
      refine ⟨endFlow_flow _, congrArg Qp.state (endFlow_qp _), ?_, fun m hm => ?_⟩
      · have hfail := endFlow_failed (s := s.waleOut (s.flow w.dstQpn) 6 { dstQpn := (s.flow w.dstQpn).peerQpn, srcQpn := w.dstQpn, reason := 3 })
          (q := w.dstQpn)
        rwa [waleOut_flow, port_of_ports (s := s) _ (waleOut_ports _)] at hfail
      · rw [endFlow_out, waleOut_flow]
        exact List.mem_append_left _ (List.mem_reverse.mpr (List.mem_map_of_mem hm))

end Sys2Proof.Machine
end

section
/-! PROOFS. The opening and the closing of Wale flows (R322, R324). -/

namespace Sys2Proof.Machine

variable {s : State} {p q : Nat} {w : WalePkt} {f : Flow}

/-! ### An OPEN at the responder -/

/-- Whether an OPEN packet is one that this flow has already answered. -/
def answersOpen (p : Nat) (w : WalePkt) (f : Flow) : Bool :=
  !f.opener && f.state == .isOpen && f.port == p && f.peerQpn == w.srcQpn && f.nonceR == w.nonce

/-- The flow as whose a refusal of an OPEN leaves. -/
def refusal (p : Nat) (w : WalePkt) : Flow := { port := p, cls := w.cls % 8, peerQpn := w.srcQpn }

/-- The flow that an accepted OPEN makes. -/
def acceptedFlow (s : State) (p : Nat) (w : WalePkt) : Flow where
  state := .isOpen
  ctx := flowCtx s w.keyId
  peerQpn := w.srcQpn
  port := p
  cls := w.cls % 8
  nonceL := s.fresh.1 % 2 ^ 64
  nonceR := w.nonce
  keyId := w.keyId
  sealKey := sealKey s w.keyId w.nonce (s.fresh.1 % 2 ^ 64)

/-- An accepted OPEN's flow and queue pair entered. -/
def State.enterFlow (p q : Nat) (w : WalePkt) (s : State) : State :=
  (s.fresh.2.modFlow q fun _ => acceptedFlow s p w).modQp q fun _ =>
    { state := .active, ctx := flowCtx s w.keyId, typ := 6, cls := w.cls % 8, port := p }

/-- No flow has answered an OPEN that none of the flows fits, where the flow table lists no key twice. -/
theorem keysWhere_answersOpen (hnone : ∀ q, answersOpen p w (s.flow q) = false) (hlisted : ∀ x ∈ s.host.flows, s.flow x.1 = x.2) :
    keysWhere s.host.flows (fun _ => answersOpen p w) = [] := by
  refine List.map_eq_nil_iff.mpr (List.filter_eq_nil_iff.mpr fun x hx => ?_)
  rw [← hlisted x hx]
  exact ne_true_of_eq_false (hnone x.1)

section
variable (hnew : keysWhere s.host.flows (fun _ => answersOpen p w) = []) (hp : hasPort s p = true)
include hnew hp

/-- An OPEN under a key that is not live is refused with reason KEY. -/
theorem waleOpen_deadKey (hk : w.keyId ≠ 0) (hdead : keyLive s w.keyId = false) :
    s.waleOpen p w = s.waleOut (refusal p w) 6 { dstQpn := w.srcQpn, reason := 2 } := by
  unfold answersOpen at hnew
  simp [State.waleOpen, hnew, hp, hk, hdead, refusal]

section
variable (hk : w.keyId = 0 ∨ keyLive s w.keyId = true)
include hk

/-- An OPEN for which no queue pair is free is refused with reason NO_QP. -/
theorem waleOpen_noQp (hq : freeQp s (flowCtx s w.keyId) = none) :
    s.waleOpen p w = s.waleOut (refusal p w) 6 { dstQpn := w.srcQpn, reason := 1 } := by
  have hlive : ¬(w.keyId ≠ 0 ∧ keyLive s w.keyId = false) := fun ⟨h0, hd⟩ => hk.elim h0 (by simp [hd])
  unfold answersOpen at hnew
  simp [State.waleOpen, hnew, hp, hlive, hq, refusal]

theorem waleOpen_accepted (hq : freeQp s (flowCtx s w.keyId) = some q) :
    s.waleOpen p w = (s.enterFlow p q w).waleOut (acceptedFlow s p w) 5 (openPkt q (acceptedFlow s p w)) := by
  have hlive : ¬(w.keyId ≠ 0 ∧ keyLive s w.keyId = false) := fun ⟨h0, hd⟩ => hk.elim h0 (by simp [hd])
  unfold answersOpen at hnew
  simp [State.waleOpen, hnew, hp, hlive, hq, State.enterFlow, acceptedFlow]

end
end

/-- A refusal leaves on the first sub-port, and the host interface is untouched. -/
theorem refused_leaves (reason : Nat) (hc : canSend s p 0 = true)
    (hpause : pausedOn s p (walePrio s (refusal p w)) = false) :
    (s.waleOut (refusal p w) 6 { dstQpn := w.srcQpn, reason := reason }).host = s.host ∧
    (s.waleOut (refusal p w) 6 { dstQpn := w.srcQpn, reason := reason }).out =
      .wale p 0 6 { dstQpn := w.srcQpn, srcQpn := 0, reason := reason } (frameTag s p (walePrio s (refusal p w)) true) :: s.out := by
  have hsub : subOf s p 0 = 0 := Nat.zero_mod _
  refine ⟨waleOut_host _, ?_⟩
  rw [waleOut_sends (by rw [refusal, hsub]; exact hc) hpause]
  show Out.wale p (subOf s p 0) 6 _ _ :: s.out = _
  rw [hsub]
  rfl

/-! ### The opener, and a CLOSE -/

/-- The answer to an opener's OPEN opens the flow under both nonces (R324). -/
theorem waleOpenAck_opens (hst : (s.flow w.dstQpn).state = .opening) (hport : (s.flow w.dstQpn).port = p) :
    s.waleOpenAck p w = (s.modFlow w.dstQpn fun f => { f with
      state := .isOpen, peerQpn := w.srcQpn, nonceR := w.nonce
      sealKey := sealKey s (s.flow w.dstQpn).keyId (s.flow w.dstQpn).nonceL w.nonce }).pump 256 w.dstQpn := by
  simp [State.waleOpenAck, hst, hport]

/-- An opener refused with NO_QP tries again. -/
theorem waleClose_retries (hst : (s.flow w.dstQpn).state = .opening) (hport : (s.flow w.dstQpn).port = p) (hr : w.reason = 1) :
    s.waleClose p w = s.modFlow w.dstQpn fun f => { f with state := .retry } := by
  simp [State.waleClose, hst, hport, hr]

theorem waleClose_ends (hf : flowFor s p w = some f) : s.waleClose p w = s.endFlow w.dstQpn w.reason := by
  obtain ⟨hq, hopen, hport, hpeer⟩ := belongsTo_of_flowFor hf
  simp [State.waleClose, hq, hopen, hport, hpeer]

/-- Settles O38: an OPEN by its key and the free queue pair, the answers to an opener, and a CLOSE of an open flow. -/
theorem waleOpenClose : Obligations.WaleOpenClose := by
  intro s p w hp prio
  have hok : okPort p = true := decide_eq_true hp
  refine ⟨fun hnone hlisted hport => ?responder, fun hst hport => ⟨?opened, fun hr => ?retries⟩, fun f hf hq _ => ?closed⟩
  case responder =>
    have hnew := keysWhere_answersOpen (p := p) (w := w) (fun q => by simpa [answersOpen] using hnone q) hlisted
    have hopen : ∀ P : State → Prop, P (s.waleOpen p w) → Answers (.waleOpen p w) s P := fun P =>
      answers_of_frame rfl hok (waleOpen_frame (Nat.or_self _) Fr.rfl)
    refine ⟨fun hk => ⟨fun q hq => hopen _ ?_, fun hq hc hpause => hopen _ ?_⟩, fun hk hdead hc hpause => hopen _ ?_⟩
    · rw [waleOpen_accepted hnew hport hk hq, waleOut_flow, qp_of_host _ (waleOut_host _), State.enterFlow, modQp_flow, modFlow_read, modQp_read]
      refine ⟨rfl, rfl, rfl, rfl, rfl, rfl, rfl, rfl, rfl, rfl, fun k hne => ?_⟩
      rw [waleOut_flow, modQp_flow, modFlow_read_ne _ _ _ hne]
      rfl
    · rw [waleOpen_noQp hnew hport hk hq]
      exact refused_leaves 1 hc hpause
    · rw [waleOpen_deadKey hnew hport hk hdead]
      exact refused_leaves 2 hc hpause
  case opened =>
    refine answers_of_frame rfl hok (waleOpenAck_frame (Nat.or_self _) Fr.rfl) ?_
    rw [waleOpenAck_opens hst hport]
    obtain ⟨k, -, hflow⟩ := pump_flow (q := w.dstQpn) 256 (s.modFlow w.dstQpn fun f => { f with
      state := .isOpen, peerQpn := w.srcQpn, nonceR := w.nonce
      sealKey := sealKey s (s.flow w.dstQpn).keyId (s.flow w.dstQpn).nonceL w.nonce })
    rw [hflow, modFlow_read]
    exact ⟨rfl, rfl, rfl, rfl⟩
  case retries =>
    show act (okPort p) s (s.waleClose p w) = _
    rw [waleClose_retries hst hport hr]
    exact act_ok hok rfl rfl
  case closed =>
    refine answers_of_frame rfl hok (waleClose_frame (Nat.or_self _) Fr.rfl) ?_
    rw [waleClose_ends hf]
    refine ⟨endFlow_flow _, congrArg Qp.state (endFlow_qp _), ?_⟩
    rw [endFlow_out, hq, List.length_append, List.length_reverse, List.length_map, Nat.add_comm]

end Sys2Proof.Machine
end

section
/-! PROOFS. The hoop's management frames, PRESENT and the bypass (R333 to R336). -/

namespace Sys2Proof.Machine

variable {s : State}

/-- PRESENT of a position sets its bit, and no other (R334). -/
theorem presentFrom_eq (src : Nat) : s.presentFrom src =
    { s with hoop := { s.hoop with presentNow := setBit s.hoop.presentNow src true } } := by
  unfold State.presentFrom
  cases hb : bit s.hoop.presentNow src with
  | true =>
    have hpos : 2 ^ src ≤ s.hoop.presentNow := by
      have hcut := bit_cut s.hoop.presentNow src
      rw [hb, Nat.mul_add] at hcut
      simp only [b2n, if_true] at hcut
      omega
    simp [setBit, hb, b2n, Nat.sub_add_cancel hpos]
  | false => simp [setBit, hb, b2n]

/-! ### A management frame (R333) -/

section
variable {f : MgmtFrame}

theorem mgmtFrame_badCrc (hc : f.crcOk = false) :
    s.mgmtFrame f = { s with hoop := { s.hoop with crcErr := sat 16 (s.hoop.crcErr + 1) } } := by
  simp [State.mgmtFrame, hc]

section
variable (hc : f.crcOk = true)
include hc

theorem mgmtFrame_unknown (hm : msgKnown f.msg = false) :
    s.mgmtFrame f = { s with hoop := { s.hoop with msgDrop := sat 16 (s.hoop.msgDrop + 1) } } := by
  simp [State.mgmtFrame, hc, hm]

section
variable (hm : msgKnown f.msg = true) (hsrc : f.src ≠ s.hoop.pos)
include hm hsrc

/-- A frame to every device is acted on and goes on, one hop further. -/
theorem mgmtFrame_passedOn (hpos : s.hoop.pos ≠ 255) (hdst : f.dst = 255) (hh : f.hops + 1 < 16) (ha : (s.actOn f).hoop.bypassed = false) :
    s.mgmtFrame f = (s.actOn f).emit (.mgmtFrame { f with hops := f.hops + 1 }) := by
  simp [State.mgmtFrame, hc, hm, hsrc, hdst, hpos.symm, ha, Nat.not_le.mpr (Nat.lt_of_succ_lt_succ hh)]

/-- A frame to another device that has made its 16 hops is dropped and counted. -/
theorem mgmtFrame_hopLimit (hb : s.hoop.bypassed = false) (hdst : f.dst ≠ s.hoop.pos) (hall : f.dst ≠ 255) (hh : 16 ≤ f.hops + 1) :
    s.mgmtFrame f = { s with hoop := { s.hoop with hopDrop := sat 16 (s.hoop.hopDrop + 1) } } := by
  simp [State.mgmtFrame, hc, hm, hsrc, hdst, hall, hb, hh]

end
end
end

/-- Settles O30: a frame by its check, its message and its hops; PRESENT by its bit; the bypass as it stands. -/
theorem hoopFramesAndBypass : Obligations.HoopFramesAndBypass := by
  refine ⟨fun s f => ⟨fun hc => ?badCrc, fun hc hm => ?unknown, fun hc hmsg hdst hsrc hown hpos hb hh => ?present,
    fun hc hm hdst hall hsrc hb hh => ?hopLimit, fun src rnd hsrc => ?presentRow⟩, fun s => ⟨?switch, fun c => ?forced, fun _ => rfl⟩⟩
  case badCrc =>
    show act true s (s.mgmtFrame f) = _
    rw [mgmtFrame_badCrc hc]
    rfl
  case unknown =>
    show act true s (s.mgmtFrame f) = _
    rw [mgmtFrame_unknown hc hm]
    rfl
  case present =>
    have hact : s.actOn f = s.presentFrom f.src := by simp [State.actOn, hmsg, Nat.mod_eq_of_lt hsrc]
    refine answers_of_frame rfl rfl (mgmtFrame_frame (Nat.or_self _) Fr.rfl) ?_
    rw [mgmtFrame_passedOn hc (by rw [hmsg]; rfl) hown hpos hdst hh (by rw [hact, presentFrom_eq]; exact hb), hact, presentFrom_eq]
    exact ⟨bit_setBit_self _ _ _, rfl⟩
  case hopLimit =>
    show act true s (s.mgmtFrame f) = _
    rw [mgmtFrame_hopLimit hc hm hsrc hb hdst hall hh]
    rfl
  case presentRow =>
    refine answers_of_frame rfl (decide_eq_true hsrc) (presentFrom_frame (Nat.or_self _) Fr.rfl) ?_
    rw [presentFrom_eq]
    exact ⟨bit_setBit_self _ _ _, fun i hi => bit_setBit_ne _ _ hi, rfl⟩
  case switch => exact act_of_frame (t := s.bypassSwitch) rfl (bypassSwitch_frame (Nat.or_self _) Fr.rfl) (by decide)
  case forced =>
    refine ⟨s.bypassClose c, rfl, rfl, ?_, ?_, rfl⟩ <;> cases c <;> rfl

end Sys2Proof.Machine
end

section
/-! PROOFS. RoCE queue pairs (R319, R320): the rate, the requests of the reliable transport by what they are answered with, and time-outs. -/

namespace Sys2Proof.Machine

variable {s : State} {n : Nat} {k : RocePkt}

/-! ### A packet sent -/

@[simp] theorem charge_qp (c : Nat) (x : Cost) (j : Nat) : (s.charge c x).qp j = s.qp j := rfl

theorem rocePkt_host : (s.rocePkt n k).host = s.host := (rocePkt_frame (Nat.or_self _) Fr.rfl).host_eq
theorem rocePkt_mem : (s.rocePkt n k).mem = s.mem := (rocePkt_frame (Nat.or_self _) Fr.rfl).mem_eq

/-- A packet of a queue pair leaves where its sub-port may send and the priority of RoCE is not paused. -/
theorem rocePkt_sends {p sub : Nat} (hport : (s.qp n).port = p) (hsub : (s.qp n).sub = sub) (hc : canSend s p sub = true)
    (hp : pausedOn s p (s.port p).tcRoce = false) :
    (s.rocePkt n k).out = .roce n p sub k (frameTag s p (s.port p).tcRoce true) :: s.out := by
  subst hport hsub
  unfold State.rocePkt State.roceOut
  dsimp only
  rw [portOut_sends hc hp]
  rfl

/-! ### Requests of the reliable transport (R320) -/

/-- A packet of a queue pair as it comes in: charged to the queue pair's class. -/
def State.roceIn (n : Nat) (k : RocePkt) (s : State) : State := s.charge (s.qp n).cls { link := k.payload.length + Config.roceOverhead }

/-- A packet that is only answered: what is expected stays, and the answer leaves. -/
theorem roceIn_answered {p : Nat} (hport : (s.qp n).port = p) (r : RocePkt) :
    let t := (s.roceIn n k).rocePkt n r
    (t.qp n).epsn = (s.qp n).epsn ∧ t.mem = s.mem ∧ (canSend s p (s.qp n).sub = true → pausedOn s p (s.port p).tcRoce = false →
      t.out = .roce n p (s.qp n).sub r (frameTag s p (s.port p).tcRoce true) :: s.out) :=
  ⟨congrArg Qp.epsn (qp_of_host (s := s.roceIn n k) _ rocePkt_host), rocePkt_mem, fun hc hp => rocePkt_sends (s := s.roceIn n k) hport rfl hc hp⟩

/-- A SEND or a WRITE that no switch has marked is charged and served. -/
theorem rocePacket_request {p : Nat} (hlive : roceLive s k.qpn = true) (hport : (s.qp k.qpn).port = p) (htyp : (s.qp k.qpn).typ = 4)
    (hce : k.ce = false) (hop : k.op = .send ∨ k.op = .write) : s.rocePacket p k = (s.roceIn k.qpn k).rcRequest k.qpn k := by
  have hmark : (s.roceIn k.qpn k).markCe k.qpn k = s.roceIn k.qpn k := by simp [State.markCe, hce]
  unfold State.roceIn at hmark ⊢
  rcases hop with hop | hop <;> simp [State.rocePacket, hlive, hport, hmark, hop, htyp]

/-- A SEND without a receive buffer waits for one. -/
theorem serveRequest_noBuffer (hop : k.op = .send) (hbuf : nextRecv (s.qp n) = none) : s.serveRequest n k = (.later, s) := by
  simp [State.serveRequest, hop, State.serveSend, hbuf]

/-- A WRITE without immediate is done as its payload is stored. -/
theorem serveRequest_write (hop : k.op = .write) :
    s.serveRequest n k = s.storeUnder (s.qp n).ctx k.key k.addr Rt.remoteWrite k.payload := by
  simp [State.serveRequest, hop, State.serveWrite]

section
variable (hn : k.psn = (s.qp n).epsn)
include hn

/-- The request expected, served: the next one is expected, and an acknowledgement leaves. -/
theorem rcRequest_done (hop : k.op = .write) (hs : s.serveRequest n k = (.done, s)) :
    s.rcRequest n k = (s.modQp n fun q => { q with epsn := ((s.qp n).epsn + 1) % 2 ^ 24 }).rocePkt n { op := .ack, psn := k.psn } := by
  simp [State.rcRequest, hn, hs, hop]

theorem rcRequest_later (hs : s.serveRequest n k = (.later, s)) :
    s.rcRequest n k = s.rocePkt n { op := .nak true, psn := (s.qp n).epsn } := by
  simp [State.rcRequest, hn, hs]

theorem rcRequest_refused (hs : s.serveRequest n k = (.refused, s)) :
    s.rcRequest n k = s.rocePkt n { op := .nak false, psn := (s.qp n).epsn } := by
  simp [State.rcRequest, hn, hs]

end

/-- A request ahead of its turn: the one expected is asked for. -/
theorem rcRequest_ahead (hpos : 0 < (k.psn + 2 ^ 24 - (s.qp n).epsn) % 2 ^ 24)
    (hhalf : (k.psn + 2 ^ 24 - (s.qp n).epsn) % 2 ^ 24 < 2 ^ 23) :
    s.rcRequest n k = s.rocePkt n { op := .nak true, psn := (s.qp n).epsn } := by
  have hne : k.psn ≠ (s.qp n).epsn := fun h => by omega
  unfold State.rcRequest
  dsimp only
  rw [if_neg hne, if_pos hhalf]

/-! ### Time-outs (R320) -/

/-- A time-out counts a retry, or ends what is outstanding and begins to count anew. -/
theorem retrySends_retries (hout : outstanding (s.qp n) ≠ []) :
    ((s.retrySends n).qp n).retries = if Config.roceRetries n ≤ (s.qp n).retries then 0 else (s.qp n).retries + 1 := by
  unfold State.retrySends
  dsimp only
  rw [if_neg (by simpa using hout)]
  split
  · exact congrArg Qp.retries (modQp_read _ _ _)
  · rw [qp_of_host _ (goBack_frame (Nat.or_self _) Fr.rfl).host_eq, modQp_read]

/-- Settles O40: congestion by the queue pair's rate, a request by what answers it, a time-out by the retry count. -/
theorem roceQueuePairs : Obligations.RoceQueuePairs := by
  intro s qpn hqpn hroce q
  have hok : okQpn qpn = true := decide_eq_true hqpn
  refine ⟨?cnp, ?restore, fun p k hp hkq hlive hport htyp hce _ => ?packet, fun hlive hout => ?timeout⟩
  case cnp =>
    have hcnp : s.cnp qpn = s.modQp qpn fun q => { q with halvings := q.halvings + 1 } := if_pos hroce
    show act (okQpn qpn) s (s.cnp qpn) = _
    rw [hcnp]
    exact act_ok hok rfl rfl
  case restore =>
    refine answers_of_frame rfl hok (rateRestore_frame (Nat.or_self _) Fr.rfl) ?_
    unfold State.rateRestore
    rw [if_pos hroce, modQp_read]
    dsimp only
    refine ⟨by split <;> rfl, ?_, fun j hj => modQp_read_ne _ _ _ hj⟩
    split
    · exact ⟨rfl, rfl⟩
    · exact ⟨rfl, rfl⟩
  case packet =>
    subst hkq
    have hin : ∀ P : State → Prop, k.op = .send ∨ k.op = .write → P ((s.roceIn k.qpn k).rcRequest k.qpn k) → Answers (.rocePacket p k) s P :=
      fun P hop h => answers_of_frame rfl (decide_eq_true hp) (rocePacket_frame (Nat.or_self _) Fr.rfl)
        (by rwa [rocePacket_request hlive hport htyp hce hop])
    refine ⟨fun hop hn hbuf => hin _ (.inl hop) ?_, fun hop hn hempty => hin _ (.inr hop) ?_, fun hop hn hload hkey => hin _ (.inr hop) ?_,
      fun hop hpos hhalf => hin _ hop ?_⟩
    · rw [rcRequest_later (s := s.roceIn k.qpn k) hn (serveRequest_noBuffer hop hbuf)]
      exact roceIn_answered hport _
    · have hdone : (s.roceIn k.qpn k).serveRequest k.qpn k = (.done, s.roceIn k.qpn k) := (serveRequest_write hop).trans (if_pos hempty)
      rw [rcRequest_done (s := s.roceIn k.qpn k) hn hop hdone, qp_of_host _ rocePkt_host, rocePkt_mem, modQp_read]
      refine ⟨rfl, rfl, fun hc hpause => ?_⟩
      exact rocePkt_sends (by rw [modQp_read]; exact hport) (by rw [modQp_read]; rfl) hc hpause
    · have hrefused : (s.roceIn k.qpn k).serveRequest k.qpn k = (.refused, s.roceIn k.qpn k) := by
        have hkey' : keyGives (s.roceIn k.qpn k) ((s.roceIn k.qpn k).qp k.qpn).ctx k.key k.addr k.payload.length (some Rt.remoteWrite) = false :=
          hkey
        rw [serveRequest_write hop, State.storeUnder, if_neg hload, hkey']
        rfl
      rw [rcRequest_refused (s := s.roceIn k.qpn k) hn hrefused]
      exact roceIn_answered hport _
    · rw [rcRequest_ahead (s := s.roceIn k.qpn k) hpos hhalf]
      exact roceIn_answered hport _
  case timeout =>
    refine answers_of_frame (m := 1109491848) rfl hok (Fr_ite (fun _ => retrySends_frame (by decide) Fr.rfl) fun _ => Fr.rfl) ?_
    rw [if_pos hlive]
    exact retrySends_retries hout

end Sys2Proof.Machine
end

section
/-! PROOFS. The Ethernet and CXL ports: links that go down and come up (R311, R312, R414, R427), the frames that a port takes, drops or answers (R313,
R315, R316), and PFC (R317, R318). -/

namespace Sys2Proof.Machine

variable {s : State} {p sub : Nat}

/-! ### Links -/

/-- The entry that the journal has taken (R435). -/
theorem journal_entry (e : JEntry) :
    look {} (s.journal e).flt.ring ((s.flt.head + 1) % 4096) = { e with seq := s.flt.head + 1, rnd := s.rnd.num } := by
  unfold State.journal
  dsimp only
  split
  · unfold State.ctxEvent
    rw [(event_frame (Nat.or_self _) Fr.rfl).flt_eq, look_store_eq]
  · rw [look_store_eq]

@[simp] theorem measured_port (r : Nat) : s.measured.port r = s.port r := rfl

/-- A MACsec state set: the sub-port's bit, and nothing else of the ports. -/
theorem setMacsec_port (b : Bool) : ∃ m, bit m sub = b ∧ (s.setMacsec p sub b).port p = { s.port p with macsecUp := m } := by
  unfold State.setMacsec
  split
  · next h => exact ⟨_, h, rfl⟩
  · exact ⟨_, bit_setBit_self _ _ _, by rw [measured_port, modPort_read]⟩

theorem setMacsec_port_ne (b : Bool) {r : Nat} (hr : r ≠ p) : (s.setMacsec p sub b).port r = s.port r := by
  unfold State.setMacsec
  split
  · rfl
  · rw [measured_port, modPort_read_ne _ _ _ hr]

/-- A port of which a sub-port's link is lost, and with it the association that was to be retired. -/
def Port.unlinked (sub : Nat) (x : Port) : Port :=
  { x with linkUp := setBit x.linkUp sub false, oldSa := x.oldSa.filter fun y => y != sub }

/-- An Ethernet sub-port that is lost: its link, its associations and its held frames. -/
def State.linkLost (p sub : Nat) (s : State) : State :=
  { (s.setMacsec p sub false).modPort p (Port.unlinked sub) with
    txHeld := (s.setMacsec p sub false).txHeld.filter fun h => !(h.port == p && h.sub == sub) }

theorem linkLost_read (r : Nat) : (s.linkLost p sub).port r = ((s.setMacsec p sub false).modPort p (Port.unlinked sub)).port r := rfl

theorem linkLost_port : ∃ m, bit m sub = false ∧ (s.linkLost p sub).port p = Port.unlinked sub { s.port p with macsecUp := m } := by
  obtain ⟨m, hm, hport⟩ := setMacsec_port (s := s) (p := p) (sub := sub) false
  exact ⟨m, hm, by rw [linkLost_read, modPort_read, hport]⟩

theorem linkLost_port_ne {r : Nat} (hr : r ≠ p) : (s.linkLost p sub).port r = s.port r := by
  rw [linkLost_read, modPort_read_ne _ _ _ hr, setMacsec_port_ne _ hr]

theorem setMacsec_others (b : Bool) : (s.setMacsec p sub b).host = s.host ∧ (s.setMacsec p sub b).flt = s.flt ∧
    (s.setMacsec p sub b).txHeld = s.txHeld := by
  unfold State.setMacsec
  split <;> exact ⟨rfl, rfl, rfl⟩

theorem linkDown_ethernet (hup : bit (s.port p).linkUp sub = true) : s.linkDown false p sub =
    (s.linkLost p sub).journal (linkEntry false p sub (if portBusy s p then Cls.workEnded else Cls.recovered)) := by
  have hbusy : portBusy (s.linkLost p sub) p = portBusy s p := by
    have hhost : (s.linkLost p sub).host = s.host := (setMacsec_others false).1
    simp only [portBusy, hhost]
  rw [← hbusy]
  simp only [State.linkDown, hup, Bool.false_eq_true, Bool.not_true, if_false]
  rfl

theorem linkUp_ethernet (hp : hasPort s p = true) (he : (s.port p).enable = true) (hsub : sub < subPorts s p) :
    s.linkUp false p sub = s.modPort p fun x => { x with linkUp := setBit x.linkUp sub true } := by
  simp [State.linkUp, hp, he, Nat.not_le.mpr hsub]

section
variable (hx : hasCxl s p = true)
include hx

theorem linkDown_cxl (h0 : look 0 s.cxl p = 0) :
    s.linkDown true p sub = ({ s with cxl := store 0 s.cxl p 1 }).journal (linkEntry true p 0 Cls.recovered) := by
  simp [State.linkDown, hx, h0]

theorem linkUp_cxl : s.linkUp true p sub =
    { s with cxl := store 0 s.cxl p 0, lid := { s.lid with cxlIde := s.lid.cxlIde.filter fun x => x != p } } := by
  simp [State.linkUp, hx]

theorem cxlIde_eq (lost : Bool) : s.cxlIde p lost =
    { s with lid := { s.lid with cxlIde := (s.lid.cxlIde.filter fun x => x != p) ++ if lost then [p] else [] } } := by
  simp [State.cxlIde, hx]

end

/-! ### Frames (R313, R315) -/

section
variable {e : EthFrame} (hup : bit (s.port p).linkUp sub = true)
include hup

theorem ethFrame_dropped (hbad : 9216 < e.len ∨ e.fecOk = false) :
    s.ethFrame p sub e = s.modPort p fun x => { x with rxDrop := sat 16 (x.rxDrop + 1) } := by
  simp [State.ethFrame, hup, hbad]

section
variable (hlen : e.len ≤ 9216) (hfec : e.fecOk = true)
include hlen hfec

/-- A frame without a SecTAG, or that fails MACsec. -/
theorem ethFrame_insecure (hk : e.kind = .noSecTag ∨ e.kind = .secured false) :
    s.ethFrame p sub e = s.modPort p fun x => { x with macsecDrop := sat 16 (x.macsecDrop + 1) } := by
  rcases hk with hk | hk <;> simp [State.ethFrame, hup, hfec, Nat.not_lt.mpr hlen, hk]

theorem ethFrame_secured (hk : e.kind = .secured true) (hm : bit (s.port p).macsecUp sub = true) :
    s.ethFrame p sub e = s.buffer p (e.prio % 8) e.len := by
  simp [State.ethFrame, hup, hfec, Nat.not_lt.mpr hlen, hk, hm]

end
end

theorem buffer_lossy {prio : Nat} (n : Nat) (hl : bit (s.port p).pfcEn prio = false) : s.buffer p prio n = s := by
  simp [State.buffer, lossless, hl]

/-- A frame of a lossless priority takes its bytes of the reserve, whether XOFF leaves or not; nothing is dropped. -/
theorem buffer_lossless {prio : Nat} (n : Nat) (hl : bit (s.port p).pfcEn prio = true) :
    ((s.buffer p prio n).port p).rxDrop = (s.port p).rxDrop ∧ ((s.buffer p prio n).port p).macsecDrop = (s.port p).macsecDrop ∧
      look 0 ((s.buffer p prio n).port p).rxUsed prio = look 0 (s.port p).rxUsed prio + n := by
  unfold State.buffer
  simp only [lossless, hl, Bool.not_true, Bool.false_eq_true, if_false]
  split
  · rw [modPort_read]
    exact ⟨rfl, rfl, look_adj_eq 0 (s.port p).rxUsed prio (· + n)⟩
  · rw [port_of_ports _ (emit_ports _ _), modPort_read, modPort_read]
    exact ⟨rfl, rfl, look_adj_eq 0 (s.port p).rxUsed prio (· + n)⟩

/-! ### PFC (R317, R318) -/

/-- A port that has taken a PFC frame of a priority. -/
def Port.pfcTaken (prio : Nat) (xoff : Bool) (x : Port) : Port :=
  { x with
    xoffRx := if xoff then sat 16 (x.xoffRx + 1) else x.xoffRx
    paused := (x.paused.filter fun y => y != prio) ++ if xoff && bit x.pfcEn prio then [prio] else [] }

theorem pfcTaken_paused (prio i : Nat) (xoff : Bool) (x : Port) :
    (x.pfcTaken prio xoff).paused.contains i = if i = prio then xoff && bit x.pfcEn prio else x.paused.contains i := by
  by_cases hi : i = prio
  · subst hi
    cases hb : (xoff && bit x.pfcEn i) <;> simp [Port.pfcTaken, hb]
  · cases hb : (xoff && bit x.pfcEn prio) <;> simp [Port.pfcTaken, hb, hi]

theorem pfcFrame_eq {prio : Nat} {xoff : Bool} (hp : hasPort s p = true) : s.pfcFrame p prio xoff =
    if xoff then s.modPort p (Port.pfcTaken prio xoff)
    else ((s.modPort p (Port.pfcTaken prio xoff)).releaseHeld p prio).each
      (keysWhere (s.modPort p (Port.pfcTaken prio xoff)).host.flows fun _ f => f.port == p) fun q t => t.pump 256 q := by
  simp only [State.pfcFrame, hp, Bool.not_true, Bool.false_eq_true, if_false]
  rfl

/-- XON and XOFF alike are taken by the port; what then leaves changes no port. -/
theorem pfcFrame_port {prio : Nat} {xoff : Bool} (hp : hasPort s p = true) :
    (s.pfcFrame p prio xoff).port p = (s.port p).pfcTaken prio xoff := by
  rw [← modPort_read s p (Port.pfcTaken prio xoff), pfcFrame_eq hp]
  split
  · rfl
  · refine port_of_ports _ ((each_keeps State.ports (fun _ _ => (pump_frame (Nat.or_self _) Fr.rfl).ports_eq) _ _).trans ?_)
    exact (releaseHeld_frame (Nat.or_self _) Fr.rfl).ports_eq

theorem pfcXon_sent {prio : Nat} (hs : (s.port p).xoffSent.contains prio = true) : s.pfcXon p prio =
    (s.modPort p fun x => { x with xoffSent := x.xoffSent.filter fun y => y != prio, rxUsed := store 0 x.rxUsed prio 0 }).emit
      (.pfc p prio false) := by
  simp only [State.pfcXon, hs, Bool.not_true, Bool.false_eq_true, if_false]

/-! ### MKA (R315, R412) -/

section
variable (hup : bit (s.port p).linkUp sub = true) (hcak : ((s.port p).caks.any fun c => c.1 == sub) = true)
include hup hcak

theorem mka_retire : s.mka p sub .retire = s.modPort p fun x => { x with oldSa := x.oldSa.filter fun y => y != sub } := by
  simp only [State.mka, hup, hcak, Bool.not_true, Bool.false_eq_true, or_self, if_false]

theorem mka_install : s.mka p sub .install =
    if bit (s.port p).macsecUp sub then s.modPort p fun x => { x with oldSa := sub :: x.oldSa.filter fun y => y != sub }
    else s.setMacsec p sub true := by
  simp only [State.mka, hup, hcak, Bool.not_true, Bool.false_eq_true, or_self, if_false]

end

/-! ### Answered requests (R316) -/

/-- A request that is not the port's is not answered. -/
theorem reply_refused (kind : Nat) : s.reply p kind false = s := rfl

/-- An answer leaves through the first sub-port when that may send. -/
theorem reply_first (kind : Nat) (hc : canSend s p 0 = true) : s.reply p kind true =
    s.portOut p 0 (s.port p).tcOther (.eth p kind (frameTag s p (s.port p).tcOther false)) := by
  have hfind : (List.range (subPorts s p)).find? (fun i => canSend s p i) = some 0 := by
    obtain ⟨n, hn⟩ : ∃ n, subPorts s p = n + 1 := Nat.exists_eq_add_one.mpr (Nat.two_pow_pos _)
    rw [hn, List.range_succ_eq_map]
    exact List.find?_cons_of_pos hc
  simp only [State.reply, hfind, Bool.not_true, Bool.false_eq_true, if_false]

theorem reply_sends (kind : Nat) (hc : canSend s p 0 = true) (hp : pausedOn s p (s.port p).tcOther = false) :
    s.reply p kind true = s.emit (.eth p kind (frameTag s p (s.port p).tcOther false)) :=
  (reply_first kind hc).trans (portOut_sends hc hp)

/-! ### The statement -/

/-- What a sub-port's LINK_DOWN leaves (R311, R427). -/
theorem linkDown_leaves (hup : bit (s.port p).linkUp sub = true) :
    let t := s.linkDown false p sub
    bit (t.port p).linkUp sub = false ∧ bit (t.port p).macsecUp sub = false ∧
      (∀ i, i ≠ sub → bit (t.port p).linkUp i = bit (s.port p).linkUp i) ∧ (∀ r, r ≠ p → t.port r = s.port r) ∧
      (∀ h, h ∈ t.txHeld ↔ h ∈ s.txHeld ∧ ¬(h.port = p ∧ h.sub = sub)) ∧
      t.flt.head = s.flt.head + 1 ∧ (look {} t.flt.ring ((s.flt.head + 1) % 4096)).code = St.linkDown ∧
      (look {} t.flt.ring ((s.flt.head + 1) % 4096)).cls = (if portBusy s p then Cls.workEnded else Cls.recovered) := by
  obtain ⟨-, hflt, hheld⟩ := setMacsec_others (s := s) (p := p) (sub := sub) false
  obtain ⟨m, hm, hport⟩ := linkLost_port (s := s) (p := p) (sub := sub)
  have hlost : (s.linkLost p sub).flt = s.flt := hflt
  dsimp only
  rw [linkDown_ethernet hup]
  generalize hcls : (if portBusy s p then Cls.workEnded else Cls.recovered) = cls
  have hf := journal_frame (x0 := linkEntry false p sub cls) (s := s.linkLost p sub) (Nat.or_self _) Fr.rfl
  have hentry := journal_entry (s := s.linkLost p sub) (linkEntry false p sub cls)
  rw [hlost] at hentry
  rw [port_of_ports _ hf.ports_eq, hf.txHeld_eq, journal_head, hlost, hentry, hport]
  refine ⟨bit_setBit_self _ _ _, hm, fun i hi => bit_setBit_ne _ _ hi, fun r hr => ?_, fun h => ?_, rfl, rfl, rfl⟩
  · rw [port_of_ports _ hf.ports_eq, linkLost_port_ne hr]
  · show h ∈ (s.setMacsec p sub false).txHeld.filter _ ↔ _
    rw [hheld, List.mem_filter, Decidable.not_and_iff_not_or_not]
    simp

/-- Settles O39: each row by what it does on its occasion. -/
theorem portLinksAndFrames : Obligations.PortLinksAndFrames := by
  refine ⟨fun s p sub hp hsub => ?links, ?frames⟩
  case links =>
    have hok : (okPort p && okSub sub) = true := by simp [okPort, okSub, hp, hsub]
    refine ⟨fun hup => ?down, fun hhas hen hlt => ?up, fun hlt hx => ?cxl, ?pause⟩
    case down => exact answers_of_frame rfl hok (linkDown_frame (Nat.or_self _) Fr.rfl) (linkDown_leaves hup)
    case up =>
      refine answers_of_frame rfl hok (linkUp_frame (Nat.or_self _) Fr.rfl) ?_
      rw [linkUp_ethernet hhas hen hlt, modPort_read]
      exact ⟨bit_setBit_self _ _ _, fun i hi => bit_setBit_ne _ _ hi, fun r hr => modPort_read_ne _ _ _ hr⟩
    case cxl =>
      have hokx : okCxl p = true := decide_eq_true hlt
      have hoks : (okCxl p && okSub sub) = true := by simp [hokx, okSub, hsub]
      refine ⟨fun h0 => ?_, ?_, ?_, ?_⟩
      · refine answers_of_frame rfl hoks (linkDown_frame (Nat.or_self _) Fr.rfl) ?_
        rw [linkDown_cxl hx h0, journal_head]
        have hf := journal_frame (x0 := linkEntry true p 0 Cls.recovered) (s := { s with cxl := store 0 s.cxl p 1 }) (Nat.or_self _) Fr.rfl
        rw [hf.cxl_eq, hf.ports_eq]
        refine ⟨look_store_eq 0 s.cxl p 1, fun r hr => look_store_ne 0 s.cxl 1 hr, rfl, ?_, rfl⟩
        exact congrArg JEntry.cls (journal_entry (s := { s with cxl := store 0 s.cxl p 1 }) _)
      · refine answers_of_frame rfl hoks (linkUp_frame (Nat.or_self _) Fr.rfl) ?_
        rw [linkUp_cxl hx]
        exact ⟨look_store_eq 0 s.cxl p 0, by simp, rfl⟩
      · refine answers_of_frame rfl hokx (cxlIde_frame (Nat.or_self _) Fr.rfl) ?_
        rw [cxlIde_eq hx]
        exact ⟨by simp, fun r hr => by simp [hr], rfl⟩
      · refine answers_of_frame rfl hokx (cxlIde_frame (Nat.or_self _) Fr.rfl) ?_
        rw [cxlIde_eq hx]
        exact ⟨by simp, fun r hr => by simp [hr], rfl⟩
    case pause => exact act_of_frame (t := s) (decide_eq_true hp) (Fr.rfl (m := 0)) (by decide)
  case frames =>
    intro s p sub e hp hsub prio tag
    have hokp : okPort p = true := decide_eq_true hp
    have hok : (okPort p && okSub sub) = true := by simp [hokp, okSub, hsub]
    have hframe : exec (.ethFrameReceive p sub e) s = .next (s.ethFrame p sub e) :=
      act_of_frame hok (ethFrame_frame (Nat.or_self _) Fr.rfl) (by decide)
    have hreply : ∀ kind b, act (okPort p) s (s.reply p kind b) = .next (s.reply p kind b) := fun kind b =>
      act_of_frame hokp (reply_frame (Nat.or_self _) Fr.rfl) (by decide)
    refine ⟨fun hup hbad => ?dropped, fun hup hlen hfec hk => ?insecure, fun hup hlen hfec hk hm => ?taken, fun prio hprio hhas => ?pfc,
      fun hup hcak => ?mka, fun hc hpause hv => ?held, fun hc hpause addr => ?answered⟩
    case dropped => rw [hframe, ethFrame_dropped hup hbad]
    case insecure => rw [hframe, ethFrame_insecure hup hlen hfec hk]
    case taken =>
      refine ⟨_, hframe, ?_⟩
      rw [ethFrame_secured hup hlen hfec hk hm]
      cases hl : bit (s.port p).pfcEn (e.prio % 8) with
      | true =>
        obtain ⟨hrx, hsec, hused⟩ := buffer_lossless e.len hl
        exact ⟨hrx, hsec, fun _ => hused, fun h => absurd h (by decide)⟩
      | false =>
        rw [buffer_lossy e.len hl]
        exact ⟨rfl, rfl, fun h => absurd h (by decide), fun _ => rfl⟩
    case pfc =>
      have hokq : (okPort p && okPrio prio) = true := by simp [hokp, okPrio, hprio]
      have hpaused : ∀ xoff i, pausedOn (s.pfcFrame p prio xoff) p i = if i = prio then xoff && bit (s.port p).pfcEn prio else pausedOn s p i :=
        fun xoff i => by rw [pausedOn, pfcFrame_port hhas, pfcTaken_paused, pausedOn]
      refine ⟨?_, ?_, fun hs => ?_⟩
      · refine answers_of_frame rfl hokq (pfcFrame_frame (Nat.or_self _) Fr.rfl) ⟨?_, ?_, fun i hi => ?_⟩
        · rw [pfcFrame_port hhas]
          rfl
        · rw [hpaused, if_pos rfl, Bool.true_and]
        · rw [hpaused, if_neg hi]
      · refine answers_of_frame rfl hokq (pfcFrame_frame (Nat.or_self _) Fr.rfl) ⟨?_, fun i hi => ?_, ?_⟩
        · rw [hpaused, if_pos rfl, Bool.false_and]
        · rw [hpaused, if_neg hi]
        · rw [pfcFrame_port hhas]
          rfl
      · refine answers_of_frame rfl hokq (pfcXon_frame (Nat.or_self _) Fr.rfl) ?_
        rw [pfcXon_sent hs, port_of_ports _ (emit_ports _ _), modPort_read]
        exact ⟨by simp, look_store_eq 0 (s.port p).rxUsed prio 0, rfl⟩
    case mka =>
      refine ⟨fun hdown => ?_, fun hm => ?_, ?_⟩ <;> refine answers_of_frame rfl hok (mka_frame (Nat.or_self _) Fr.rfl) ?_
      · obtain ⟨m, hm, hport⟩ := setMacsec_port (s := s) (p := p) (sub := sub) true
        rw [mka_install hup hcak, hdown, if_neg Bool.false_ne_true, hport]
        exact ⟨hm, rfl, rfl⟩
      · rw [mka_install hup hcak, if_pos hm, modPort_read]
        exact ⟨List.mem_cons_self, rfl⟩
      · rw [mka_retire hup hcak, modPort_read]
        exact ⟨by simp, rfl⟩
    case held =>
      have hown : ((s.port p).v4valid && (s.port p).ipv4 == (s.port p).ipv4) = true := by simp [hv]
      show act (okPort p) s (s.reply p 2 ((s.port p).v4valid && (s.port p).ipv4 == (s.port p).ipv4)) = _
      rw [hreply, hown, reply_first 2 hc, portOut_waits hc hpause]
    case answered =>
      refine ⟨fun h0 h6 => ?_, fun hv h4 => ?_, fun hne => ?_⟩
      · have hown : ((s.port p).ipv6 != 0 && (s.port p).ipv6 == addr) = true := by simp [h6, h0]
        refine ⟨(hreply 1 _).trans ?_, (hreply 3 _).trans ?_⟩ <;> rw [hown, reply_sends _ hc hpause]
      · have hown : ((s.port p).v4valid && (s.port p).ipv4 == addr) = true := by simp [hv, h4]
        refine ⟨(hreply 2 _).trans ?_, (hreply 4 _).trans ?_⟩ <;> rw [hown, reply_sends _ hc hpause]
      · have hother : ((s.port p).ipv6 != 0 && (s.port p).ipv6 == addr) = false := by simp [hne]
        refine ⟨(hreply 1 _).trans ?_, (hreply 3 _).trans ?_⟩ <;> rw [hother, reply_refused]

end Sys2Proof.Machine
end

section
/-! PROOFS. The device command group and the context command group (R316, R368, R378, R380, R381, R389 to R391, R397, R415, R484). -/

namespace Sys2Proof.Machine

variable {s : State} {ch : Nat} {q : Req}

/-! ### Channels (R368) -/

/-- An answer leaves every channel but its own. -/
theorem answer_chan_ne {status detail len payload n : Nat} (hn : n ≠ ch) : (s.answer ch status detail len payload).chan n = s.chan n := by
  unfold State.answer
  split
  · exact modChan_read_ne _ _ _ hn
  · exact (chan_of_mb _ (event_frame (Nat.or_self _) Fr.rfl).mb_eq).trans (modChan_read_ne _ _ _ hn)

/-- A command that changes one channel other than the one that it stands in. -/
theorem command_writesChan {c : Instr} {l : Layout} {present : Bool} {owns : Req → Bool} {eff : Req → State → Reply × State} {x : Reply} {n : Nat}
    {f : Chan → Chan} (ha : Admitted l present owns ch s) (he : eff (reqOn s ch) s = (x, s.modChan n f)) (hn : n ≠ ch)
    (hx : exec c s = act (okChan ch) s (s.command l present owns eff ch)) :
    Answers c s fun t => Responded ch x s t ∧ t.chan n = f (s.chan n) := by
  have hch : (s.modChan n f).chan ch = s.chan ch := modChan_read_ne _ _ _ hn.symm
  refine ⟨(s.modChan n f).answer ch x.status x.detail x.len x.payload, hx.trans ?_, ?_, ?_⟩
  · rw [command_admitted ha he]
    exact act_of_frame (m := 6291592) (decide_eq_true ha.1) (answer_frame (by decide) (modChan_frame (by decide) Fr.rfl)) (by decide)
  · rw [Responded, answer_chan (by rw [hch]; exact ha.2.2.1), hch]
    rfl
  · rw [answer_chan_ne hn, modChan_read]

/-- The channel that a command stands in is BUSY. -/
theorem ne_of_chanState {n : Nat} (hbusy : chanState (s.chan ch) = Ch.busy) (hn : chanState (s.chan n) ≠ Ch.busy) : n ≠ ch := fun h =>
  hn (h ▸ hbusy)

section
variable (hlo : 1 ≤ q.at 0 1) (hhi : q.at 0 1 ≤ 63)
include hlo hhi

theorem channelAssign_binds (hb : q.bit 4 0 = false) (hfree : (s.chan (q.at 0 1)).assigned = false) (hc : ctxUsable s (q.at 2 2) = true) :
    channelAssign q s = ({}, s.modChan (q.at 0 1) fun x =>
      { x with assigned := true, ctx := q.at 2 2, func := (s.ctx (q.at 2 2)).func, state := Ch.idle }) := by
  have h0 : q.at 0 1 ≠ 0 := Nat.ne_of_gt hlo
  simp only [ctxUsable, Bool.and_eq_true, decide_eq_true_eq, bne_iff_ne, ne_eq, Bool.not_eq_true'] at hc
  obtain ⟨⟨hlt, hused⟩, hgoing⟩ := hc
  simp [channelAssign, checked, h0, Nat.not_lt.mpr hhi, hb, hfree, Nat.not_lt.mpr (Nat.le_of_lt_succ hlt), hused, hgoing]

theorem channelAssign_frees (hb : q.bit 4 0 = true) (hidle : chanState (s.chan (q.at 0 1)) = Ch.idle) :
    channelAssign q s = ({}, s.modChan (q.at 0 1) fun x => { x with assigned := false, ctx := 0, func := 0, state := Ch.idle }) := by
  have h0 : q.at 0 1 ≠ 0 := Nat.ne_of_gt hlo
  simp [channelAssign, checked, h0, Nat.not_lt.mpr hhi, hb, hidle]

end

/-! ### Firmware (R389) -/

/-- The staged image with `bs` at `off`; a mark on it is cleared. -/
def Fw.stored (off n : Nat) (bs : List Byte) (f : Fw) : Fw :=
  { f with
    boot := f.bank, marked := false, stagedVer := 0, image := wrBytes f.image off bs
    covered := if n = 0 then f.covered else cover off (off + n) f.covered }

/-- The firmware with the staged image of `n` bytes marked to boot. -/
def Fw.activated (crc : Nat) (f : Fw) : Fw :=
  { f with
    boot := 1 - f.bank, marked := true, stagedVer := Config.fwVersion crc, ver := store 0 f.ver (1 - f.bank) (Config.fwVersion crc)
    crcs := store 0 f.crcs (1 - f.bank) (crc + 1) }

theorem fwStage_stores {bs : List Byte} (hlen : q.at 12 4 ≤ 4194304) (hr : (s.readOwn q.ctx (q.at 0 8) (q.at 12 4)).1 = .ok bs) :
    fwStage q s = (answerOf 4 (stagedBytes (s.fw.stored (q.at 8 4) (q.at 12 4) bs).covered),
      { (s.readOwn q.ctx (q.at 0 8) (q.at 12 4)).2 with fw := s.fw.stored (q.at 8 4) (q.at 12 4) bs }) := by
  have hfw := (readOwn_frame (x0 := q.ctx) (x1 := q.at 0 8) (x2 := q.at 12 4) (s := s) (Nat.or_self _) Fr.rfl).fw_eq
  simp only [fwStage, if_neg (Nat.not_lt.mpr hlen), hr, hfw]
  rfl

theorem fwActivate_marks (hwhole : (s.fw.covered.any fun x => x.1 == 0 && decide (q.at 0 4 ≤ x.2)) = true)
    (hgood : (crc32c ((rdBytes s.fw.image 0 (q.at 0 4)).map BitVec.toNat) == q.at 4 4 && Config.fwSignatureOk (q.at 4 4) (q.at 0 4)) = true)
    (hsvn : Config.minSvn ≤ Config.fwSvn (q.at 4 4)) :
    fwActivate q s = (answerOf 4 (Config.fwVersion (q.at 4 4)), { s with fw := s.fw.activated (q.at 4 4) }) := by
  simp only [fwActivate, checked, hwhole, hgood, decide_eq_false (Nat.not_lt.mpr hsvn)]
  rfl

theorem fwActivate_incomplete (hwhole : (s.fw.covered.any fun x => x.1 == 0 && decide (q.at 0 4 ≤ x.2)) = false) :
    fwActivate q s = (fail St.fwStageIncomplete, s) := by
  simp only [fwActivate, checked, hwhole]
  rfl

theorem portAddrSet_eq (hp : q.at 0 1 < 12) : portAddrSet q s = ({}, s.modPort (q.at 0 1) fun x =>
    { x with ipv6 := q.at 2 16, ipv4 := q.at 18 4, v4valid := q.bit 1 0, nextHop := q.at 22 6 }) := by
  simp only [portAddrSet, checked, decide_eq_false (Nat.not_le.mpr hp)]
  rfl

theorem lt_of_hasPort {p : Nat} (h : hasPort s p = true) : p < 12 := by
  have h := of_decide_eq_true h
  split at h <;> omega

/-! ### Contexts (R381, R390, R391, R397) -/

/-- The context that CTX_CREATE makes. -/
def ctxAsked (q : Req) : Ctx :=
  { state := .created, func := q.at 2 2, seed := q.at 4 8, fsplit := q.at 12 1, parkMax := if q.at 13 1 = 0 then 64 else q.at 13 1 }

section
variable (hlo : 1 ≤ q.at 0 2) (hhi : q.at 0 2 ≤ 4095)
include hlo hhi

theorem ctxCreate_new (hfree : (s.ctx (q.at 0 2)).state = .free) (hfn : q.at 2 2 ≤ s.host.numVf) (hs1 : 1 ≤ q.at 12 1) (hs2 : q.at 12 1 ≤ 31) :
    ctxCreate q s = ({}, (s.modCtx (q.at 0 2) fun _ => ctxAsked q).modAcct (q.at 0 2) fun _ => {}) := by
  have h0 : q.at 0 2 ≠ 0 := Nat.ne_of_gt hlo
  have h1 : q.at 12 1 ≠ 0 := Nat.ne_of_gt hs1
  simp [ctxCreate, checked, h0, Nat.not_lt.mpr hhi, hfree, Nat.not_lt.mpr hfn, fsplitBad, h1, Nat.not_lt.mpr hs2, ctxAsked, parkOf]

theorem ctxCreate_busy (hused : (s.ctx (q.at 0 2)).state ≠ .free) : ctxCreate q s = (fail St.ctxBusy, s) := by
  have h0 : q.at 0 2 ≠ 0 := Nat.ne_of_gt hlo
  simp [ctxCreate, checked, h0, Nat.not_lt.mpr hhi, hused]

end

theorem ctxSet_eq (hc : ctxUsable s (q.at 0 2) = true) (hs : q.bit 4 0 = true → 1 ≤ q.at 2 1 ∧ q.at 2 1 ≤ 31) :
    ctxSet q s = ({}, s.modCtx (q.at 0 2) fun x => { x with
      fsplit := if q.bit 4 0 then q.at 2 1 else x.fsplit, parkMax := if q.bit 4 1 then parkOf (q.at 3 1) else x.parkMax }) := by
  have hok : (q.bit 4 0 && fsplitBad (q.at 2 1)) = false := by
    cases hb : q.bit 4 0 with
    | false => rfl
    | true =>
      obtain ⟨h1, h31⟩ := hs hb
      simp [fsplitBad, Nat.ne_of_gt h1, Nat.not_lt.mpr h31]
  simp only [ctxSet, checked, hc, hok]
  rfl

theorem ctxQuery_eq (hc : q.at 0 2 ≤ 4095) : ctxQuery q s = (answerOf 32 (pack [(0, 8, cStateCode (s.ctx (q.at 0 2)).state),
    (8, 8, fsplitOf s (q.at 0 2)), (16, 8, (s.ctx (q.at 0 2)).parkMax), (24, 16, (s.ctx (q.at 0 2)).func), (64, 64, (s.ctx (q.at 0 2)).seed),
    (128, 64, chargedT1 s (q.at 0 2)), (192, 64, chargedT2 s (q.at 0 2))]), s) := by
  simp only [ctxQuery, checked, decide_eq_false (Nat.not_lt.mpr hc)]
  rfl

theorem ctxRemove_eq (h0 : q.at 0 2 ≠ 0) (hc : ctxUsable s (q.at 0 2) = true) :
    ctxRemove q s = (pendingReply, s.startRemoval (q.at 0 2) (.remove q.note)) := by
  simp [ctxRemove, checked, h0, hc]

theorem ctxReset_eq (h0 : q.at 0 2 ≠ 0) (hc : q.at 0 2 ≤ 4095) (ha : (s.ctx (q.at 0 2)).state = .active) :
    ctxReset q s = (pendingReply, (s.modTkey (q.at 0 2) bumpGen).modCtx (q.at 0 2) fun x =>
      { x with state := .resetting, reset := some q.note }) := by
  simp [ctxReset, checked, h0, Nat.not_lt.mpr hc, ha]

/-! ### The start of a removal (R415) -/

/-- The removal of a context counted by the Lid. -/
def State.countRemoval (ctx : Nat) (s : State) : State :=
  { s with lid := { s.lid with revoked := sat 16 (s.lid.revoked + 1), lastCtx := ctx } }

@[simp] theorem countRemoval_ctx (c k : Nat) : (s.countRemoval c).ctx k = s.ctx k := rfl
@[simp] theorem countRemoval_tkey (c k : Nat) : (s.countRemoval c).tkey k = s.tkey k := rfl

/-- A key slot that is live no more. -/
def KeySlot.revoke (k : KeySlot) : KeySlot := { k with state := .revoked, gen := (k.gen + 1) % 65536 }

/-- A context entered in REVOKING: its key is live no more, and the Lid counts the removal. -/
def State.enterRemoval (ctx : Nat) (why : RemovalWhy) (s : State) : State :=
  ((s.modTkey ctx KeySlot.revoke).modCtx ctx fun c =>
    { c with state := .revoking, why := some why, since := s.rnd.num, scrubbed := chargedT1 (s.modTkey ctx KeySlot.revoke) ctx, unmapped := false
             reset := none }).countRemoval ctx

theorem enterRemoval_ctx (c : Nat) (why : RemovalWhy) : (s.enterRemoval c why).ctx c =
    { s.ctx c with state := .revoking, why := some why, since := s.rnd.num, scrubbed := chargedT1 (s.modTkey c KeySlot.revoke) c, unmapped := false
                   reset := none } := by
  rw [State.enterRemoval, countRemoval_ctx, modCtx_read]
  rfl

theorem enterRemoval_tkey (c : Nat) (why : RemovalWhy) : (s.enterRemoval c why).tkey c = (s.tkey c).revoke := by
  rw [State.enterRemoval, countRemoval_tkey, tkey_of_lid _ (modCtx_lid _ _ _), modTkey_read]

/-- What the removal then ends touches neither the contexts nor the keys. -/
theorem startRemoval_frameEntered (ctx : Nat) (why : RemovalWhy) : Fr 1109912968 (s.enterRemoval ctx why) (s.startRemoval ctx why) := by
  unfold State.startRemoval
  extract_lets key t1 held now owed t2 lid t3 t4 t5 t6 t7 t8 t9
  have hentered : s.enterRemoval ctx why = t3 := rfl
  rw [hentered]
  clear_value t3
  have hwork : Fr 1109912968 t3 t7 := endMemWorks_frame (by decide) (endWork_frame (by decide)
    (each_frame (fun _ _ h => modQp_frame (by decide) h) (revokedEvent_frame (by decide) Fr.rfl)))
  have hnote : Fr 1109912968 t3 t8 := by
    cases howed : owed with
    | none => simpa only [t8, howed] using hwork
    | some n => simpa only [t8, howed] using finalRecord_frame (by decide) hwork
  have hkeys : Fr 1109912968 t3 t9 := Fr_ite (fun _ => hnote) fun _ => closeKeyFlows_frame (by decide) hnote
  exact each_frame (fun _ _ h => startRemove_frame (by decide) (modWeaver_frame (by decide) h)) hkeys

/-! ### What the commands answer -/

/-- Settles O54: each command by what it does once it is admitted, and what its answer leaves. -/
theorem deviceAndContextCommands : Obligations.DeviceAndContextCommands := by
  refine ⟨fun s ch => ?device, fun s ch => ?context⟩
  case device =>
    intro q
    refine ⟨fun ha => ?caps, fun ha => ?reset, fun ha hp => ?addr, fun ha hlo hhi => ⟨fun hb hfree hc => ?binds, fun hb hidle => ?frees⟩,
      fun ha hlen bs hr => ?stage, fun ha hwhole hgood hsvn => ?activate, fun ha hwhole => ?incomplete, fun ha => ?query⟩
    case caps => exact command_answers (x := (devCaps q s).1) ha rfl rfl (Fr.rfl (m := 0)) fun t hr ht => ⟨hr, ht.mem_eq, ht.rst_eq⟩
    case reset =>
      exact command_answers ha rfl rfl (Fr_mk.mpr (Fr_rst (m := 134217728) (by decide) Fr.rfl)) fun t hr ht => ⟨hr, ht.rst_eq, ht.mem_eq⟩
    case addr =>
      refine command_answers ha (portAddrSet_eq (lt_of_hasPort hp)) rfl (modPort_frame (m := 262144) (by decide) Fr.rfl)
        fun t hr ht => ⟨hr, ?_, fun p hne => ?_⟩
      · rw [port_of_ports _ ht.ports_eq, modPort_read]
      · rw [port_of_ports _ ht.ports_eq, modPort_read_ne _ _ _ hne]
    case binds =>
      have hne : q.at 0 1 ≠ ch := ne_of_chanState ha.2.1 (by rw [chanState, hfree, if_neg Bool.false_ne_true]; decide)
      obtain ⟨t, ht, hr, hn⟩ := command_writesChan (c := .channelAssign ch) ha (channelAssign_binds hlo hhi hb hfree hc) hne rfl
      exact ⟨t, ht, hr, by rw [hn], by rw [hn], by rw [hn], by rw [hn]; rfl⟩
    case frees =>
      have hne : q.at 0 1 ≠ ch := ne_of_chanState ha.2.1 (by rw [hidle]; decide)
      obtain ⟨t, ht, hr, hn⟩ := command_writesChan (c := .channelAssign ch) ha (channelAssign_frees hlo hhi hb hidle) hne rfl
      exact ⟨t, ht, hr, by rw [hn]; rfl⟩
    case stage =>
      refine command_answers ha (fwStage_stores hlen hr) rfl (Fr_mk.mpr (Fr_fw (m := 268533888) (by decide) (readOwn_frame (by decide) Fr.rfl)))
        fun t hresp ht => ⟨_, hresp, ?_⟩
      rw [ht.fw_eq]
      exact ⟨rfl, rfl, rfl, rfl, rfl, rfl⟩
    case activate =>
      refine command_answers ha (fwActivate_marks hwhole hgood hsvn) rfl (Fr_mk.mpr (Fr_fw (m := 268435456) (by decide) Fr.rfl)) fun t hr ht => ⟨hr, ?_⟩
      rw [ht.fw_eq]
      exact ⟨rfl, rfl, rfl, rfl⟩
    case incomplete => exact command_answers ha (fwActivate_incomplete hwhole) rfl (Fr.rfl (m := 0)) fun t hr ht => ⟨hr, ht.fw_eq⟩
    case query => exact command_answers (x := (fwQuery q s).1) ha rfl rfl (Fr.rfl (m := 0)) fun t hr ht => ⟨hr, ht.fw_eq⟩
  case context =>
    intro q c
    refine ⟨fun ha hlo hhi => ⟨fun hfree hfn hs1 hs2 => ?create, fun hused => ?busy⟩, fun ha hc hs => ?set, fun ha hc => ?query,
      fun ha h0 hc => ?remove, fun ha h0 hc hact => ?reset⟩
    case create =>
      refine command_answers ha (ctxCreate_new hlo hhi hfree hfn hs1 hs2) rfl
        (modAcct_frame (m := 8421376) (by decide) (modCtx_frame (by decide) Fr.rfl)) fun t hr ht => ⟨hr, ?_, ?_, fun k hk => ?_⟩
      · rw [ctx_of_ctxs _ ht.ctxs_eq, ctx_of_ctxs _ (modAcct_ctxs _ _ _), modCtx_read]
        rfl
      · rw [acct_of_mem _ ht.mem_eq, modAcct_read]
      · rw [ctx_of_ctxs _ ht.ctxs_eq, ctx_of_ctxs _ (modAcct_ctxs _ _ _), modCtx_read_ne _ _ _ hk]
    case busy => exact command_answers ha (ctxCreate_busy hlo hhi hused) rfl (Fr.rfl (m := 0)) fun t hr ht => ⟨hr, ht.ctxs_eq⟩
    case set =>
      refine command_answers ha (ctxSet_eq hc hs) rfl (modCtx_frame (m := 8388608) (by decide) Fr.rfl) fun t hr ht => ?_
      rw [ctx_of_ctxs _ ht.ctxs_eq, modCtx_read]
      exact ⟨hr, rfl, rfl, rfl, fun k hk => by rw [ctx_of_ctxs _ ht.ctxs_eq, modCtx_read_ne _ _ _ hk]⟩
    case query => exact command_answers ha (ctxQuery_eq hc) rfl (Fr.rfl (m := 0)) fun t hr ht => ⟨hr, ht.ctxs_eq, ht.mem_eq⟩
    case remove =>
      have hf := startRemoval_frameEntered (s := s) c (.remove q.note)
      refine command_answers ha (ctxRemove_eq h0 hc) rfl (startRemoval_frame (Nat.or_self _) Fr.rfl) fun t hr ht => ⟨hr, ?_⟩
      have hctx : t.ctx c = (s.enterRemoval c (.remove q.note)).ctx c := ctx_of_ctxs _ (ht.ctxs_eq.trans hf.ctxs_eq)
      have hkey : t.tkey c = (s.enterRemoval c (.remove q.note)).tkey c := tkey_of_lid _ (ht.lid_eq.trans hf.lid_eq)
      rw [hctx, hkey, ht.lid_eq, hf.lid_eq, enterRemoval_ctx, enterRemoval_tkey]
      exact ⟨rfl, rfl, rfl, rfl, rfl⟩
    case reset =>
      refine command_answers ha (ctxReset_eq h0 hc hact) rfl (modCtx_frame (m := 25165824) (by decide) (modTkey_frame (by decide) Fr.rfl))
        fun t hr ht => ?_
      rw [ctx_of_ctxs _ ht.ctxs_eq, tkey_of_lid _ ht.lid_eq, tkey_of_lid _ (modCtx_lid _ _ _), modCtx_read, modTkey_read]
      exact ⟨hr, rfl, rfl, rfl⟩

end Sys2Proof.Machine
end

section
/-! PROOFS. The security, fault and power command groups (R387, R388, R398, R399, R418, R433, R434, R436, R456, R464). -/

namespace Sys2Proof.Machine

-- One theorem after the other: as one text the files are near the memory limit of the check, and every thread that waits counts.
set_option Elab.async false

variable {s : State} {ch : Nat} {q : Req}

theorem Fr.pwr_eq {m : Nat} {o : State} (h : Fr m o s) (hb : m.testBit Part.pwr.code = false := by decide) : s.pwr = o.pwr := h.same .pwr hb

/-! ### Keys and grants (R398, R399, R418) -/

theorem keyQuery_eq (hn : q.at 0 2 < 4112) :
    let k := if q.at 0 2 < 4096 then s.tkey (q.at 0 2) else s.skey (q.at 0 2 - 4096)
    keyQuery q s = (answerOf 10 (pack [(0, 8, kStateCode k.state), (32, 32, k.keyId), (64, 16, genShown s k)]), s) := by
  simp only [keyQuery, checked, decide_eq_false (Nat.not_le.mpr hn)]
  rfl

/-- The Lid with one grant more. -/
def State.granted (q : Req) (s : State) : State :=
  ({ s with lid := { s.lid with
      grants := s.lid.grants ++ [(⟨s.lid.nextGrant, q.at 0 2, q.bit 2 0, q.bit 2 1⟩ : Grant)]
      nextGrant := (s.lid.nextGrant + 1) % 2 ^ 32 } }).measured

/-- The Lid with a grant less. -/
def State.ungranted (id : Nat) (s : State) : State :=
  ({ s with lid := { s.lid with grants := s.lid.grants.filter fun g => g.id != id } }).measured

section
variable (hc : q.at 0 2 ≤ 4095) (ha : ctxActive s (q.at 0 2) = true) (hscope : q.bit 2 0 = true ∨ q.bit 2 1 = true)
include hc ha hscope

/-- A request for grants in a live context goes by the consents, then by the number of grants. -/
theorem debugRequest_checks : debugRequest q s =
    checked [((q.bit 2 0 && !(s.ctx (q.at 0 2)).dbg) || (q.bit 2 1 && !(s.ctx (q.at 0 2)).prof), fail St.consentRequired),
      (decide (64 ≤ s.lid.grants.length), fail St.grantLimit)] (answerOf 4 s.lid.nextGrant, s.granted q) s := by
  have hctx : (decide (4095 < q.at 0 2) || !ctxActive s (q.at 0 2)) = false := by simp [ha, hc]
  have hask : (!q.bit 2 0 && !q.bit 2 1) = false := by rcases hscope with h | h <;> simp [h]
  simp only [debugRequest, checked, hctx, hask, List.find?_cons]
  rfl

theorem debugRequest_granted (hroom : s.lid.grants.length < 64) (hdbg : q.bit 2 0 = true → (s.ctx (q.at 0 2)).dbg = true)
    (hprof : q.bit 2 1 = true → (s.ctx (q.at 0 2)).prof = true) : debugRequest q s = (answerOf 4 s.lid.nextGrant, s.granted q) := by
  rw [debugRequest_checks hc ha hscope]
  refine checked_passes (fun x hx => ?_) _
  simp only [List.mem_cons, List.not_mem_nil, or_false] at hx
  rcases hx with rfl | rfl
  · cases hd : q.bit 2 0 <;> cases hp : q.bit 2 1 <;> simp [hd, hp] at hdbg hprof ⊢ <;> simp [hdbg, hprof]
  · exact decide_eq_false (Nat.not_le.mpr hroom)

theorem debugRequest_noConsent (hd : q.bit 2 0 = true) (hno : (s.ctx (q.at 0 2)).dbg = false) :
    debugRequest q s = (fail St.consentRequired, s) := by
  rw [debugRequest_checks hc ha hscope]
  simp [checked, hd, hno]

end

theorem debugRelease_eq (hg : ∃ g ∈ s.lid.grants, g.id = q.at 0 4) : debugRelease q s = ({}, s.ungranted (q.at 0 4)) := by
  obtain ⟨g, hmem, hid⟩ := hg
  have hknown : (s.lid.grants.all fun g => g.id != q.at 0 4) = false := List.all_eq_false.mpr ⟨g, hmem, by simp [hid]⟩
  simp only [debugRelease, checked, hknown]
  rfl

/-! ### The fault journal (R433, R434, R436) -/

/-- Work that has finished is answered by its newest summary. -/
theorem faultQuery_finished (hkind : q.at 10 1 ≤ 2) (hrun : ∀ x ∈ running s, ¬(x.kind = q.at 10 1 ∧ x.ctx = q.at 8 2 ∧ x.tag = q.at 0 8))
    {x : Summary} (hx : s.flt.sums.find? (fun y => y.kind == q.at 10 1 && y.ctx == q.at 8 2 && y.tag == q.at 0 8) = some x) :
    let es := entriesOf s (q.at 8 2) (q.at 0 8)
    faultQuery q s = (answerOf 20 (pack [(0, 32, sat 32 x.progress), (32, 64, x.rnd), (96, 16, x.gen), (112, 16, x.status),
      (128, 16, (es.2.getD 0) % 4096), (144, 16, es.1)]), s) := by
  have hnone : (running s).find? (fun x => x.kind == q.at 10 1 && x.ctx == q.at 8 2 && x.tag == q.at 0 8) = none :=
    List.find?_eq_none.mpr fun y hy => by simpa [and_assoc] using hrun y hy
  simp only [faultQuery, if_neg (Nat.not_lt.mpr hkind), hnone, hx]

section
variable (hfirst : q.at 0 2 ≤ 4095) (hcount : q.at 2 2 ≤ 64)
include hfirst hcount

theorem journalRead_empty (hb : journalBytes s q.ctx (q.at 0 2) (q.at 2 2) = []) :
    journalRead q s = (some (answerOf 2 ((q.at 0 2 + q.at 2 2) % 4096)), s.charge Act.mgmt (rangeCost s q.ctx (q.at 8 8) 0)) := by
  simp [journalRead, Nat.not_lt.mpr hfirst, Nat.not_lt.mpr hcount, hb]

theorem journalRead_copies (hb : journalBytes s q.ctx (q.at 0 2) (q.at 2 2) ≠ [])
    (hw : (s.writeDva q.ctx (q.at 8 8) (journalBytes s q.ctx (q.at 0 2) (q.at 2 2))).1 = .ok ()) :
    journalRead q s = (some (answerOf 2 ((q.at 0 2 + q.at 2 2) % 4096)),
      (s.writeDva q.ctx (q.at 8 8) (journalBytes s q.ctx (q.at 0 2) (q.at 2 2))).2.charge Act.mgmt
        (rangeCost s q.ctx (q.at 8 8) (journalBytes s q.ctx (q.at 0 2) (q.at 2 2)).length)) := by
  simp [journalRead, Nat.not_lt.mpr hfirst, Nat.not_lt.mpr hcount, hb, hw]

end

/-- JOURNAL_READ that does not wait for a frame is a command like the others. -/
theorem exec_journalRead {x : Reply} {u : State} (hr : journalRead (reqOn s ch) s = (some x, u)) :
    exec (.journalRead ch) s =
      act (okChan ch) s (s.command journalLayout true ownsAny (fun q s => ((journalRead q s).1.getD {}, (journalRead q s).2)) ch) := by
  have hanswers : (journalRead (reqOf (s.chan ch) (reqNat (s.chan ch))) s).1.isNone = false := by
    rw [reqOn] at hr
    rw [hr]
    rfl
  show act (okChan ch) s (s.journalCommand ch) = _
  unfold State.journalCommand
  simp only [hanswers, Bool.and_false, Bool.false_eq_true, if_false]

/-! ### Power (R456, R464) -/

theorem powerLimitSet_eq (hlo : 1000 ≤ q.at 0 2) (hhi : q.at 0 2 ≤ tdp s) (hfmin : clockBad (q.at 2 2) = false)
    (hfmax : clockBad (q.at 4 2) = false) (hle : q.at 2 2 ≤ q.at 4 2) :
    powerLimitSet q s = ({}, { s with pwr := { s.pwr with cap := q.at 0 2, fmin := q.at 2 2, fmax := q.at 4 2 } }) := by
  simp [powerLimitSet, checked, Nat.not_lt.mpr hlo, Nat.not_lt.mpr hhi, hfmin, hfmax, Nat.not_lt.mpr hle]

section
variable (hidle : s.pwr.target = none)
include hidle

theorem powerStateSet_changes {p : PState} (hp : powerChange s.pwr.state (q.at 0 1) = .ok (some p)) :
    powerStateSet q s =
      (fail St.pending, { s with pwr := { s.pwr with target := some p, note := some q.note, exitUp := false, since := some s.rnd.num } }) := by
  simp only [powerStateSet, hidle, hp]
  rfl

theorem powerStateSet_present (hp : powerChange s.pwr.state (q.at 0 1) = .ok none) :
    powerStateSet q s = (fail St.pending, s.finalRecord q.note St.ok 0) := by
  simp only [powerStateSet, hidle, hp]
  rfl

end

theorem powerStateSet_busy (hbusy : s.pwr.target ≠ none) : powerStateSet q s = (fail St.powerBusy, s) := by
  simp [powerStateSet, Option.isSome_iff_ne_none.mpr hbusy]

/-- Settles O60: each command by what it does once it is admitted, and what its answer leaves. -/
theorem systemCommands : Obligations.SystemCommands := by
  intro s ch q
  refine ⟨fun ha hn => ?key, fun ha => ?request, fun ha hg => ?release, fun ha hkind hrun x hx => ?fault, fun ha hfirst hcount => ?journal,
    fun ha hlo hhi hfmin hfmax hle => ?limit, fun ha => ⟨fun p hidle hp => ?changes, fun hidle hp => ?present, fun hbusy => ?busy⟩, fun ha => ?power⟩
  case key => exact command_answers ha (keyQuery_eq hn) rfl (Fr.rfl (m := 0)) fun t hr ht => ⟨hr, ht.lid_eq⟩
  case request =>
    intro c hc hact hscope
    refine ⟨fun hroom hdbg hprof => ?_, fun ⟨hd, hno⟩ => ?_⟩
    · refine command_answers ha (debugRequest_granted hc hact hscope hroom hdbg hprof) rfl
        (measured_frame (m := 16777216) (by decide) (Fr_mk.mpr (Fr_lid (by decide) Fr.rfl))) fun t hr ht => ?_
      rw [ht.lid_eq]
      exact ⟨hr, rfl, rfl⟩
    · exact command_answers ha (debugRequest_noConsent hc hact hscope hd hno) rfl (Fr.rfl (m := 0)) fun t hr ht => ⟨hr, ht.lid_eq⟩
  case release =>
    refine command_answers ha (debugRelease_eq hg) rfl
      (measured_frame (m := 16777216) (by decide) (Fr_mk.mpr (Fr_lid (by decide) Fr.rfl))) fun t hr ht => ?_
    rw [ht.lid_eq]
    exact ⟨hr, rfl⟩
  case fault =>
    exact command_answers ha (faultQuery_finished hkind hrun hx) rfl (Fr.rfl (m := 0)) fun t hr ht => ⟨hr, ht.flt_eq⟩
  case journal =>
    intro bs
    refine ⟨fun hb => ?_, fun hb hw => ?_⟩
    · have hread := journalRead_empty hfirst hcount hb
      refine command_answers ha (u := s.charge Act.mgmt (rangeCost s q.ctx (q.at 8 8) 0)) (by rw [hread]; rfl) (exec_journalRead hread)
        (charge_frame (Nat.or_self _) Fr.rfl) fun t hr ht => ⟨hr, ht.mem_eq⟩
    · have hread := journalRead_copies hfirst hcount hb hw
      refine command_answers ha (u := (s.writeDva q.ctx (q.at 8 8) bs).2.charge Act.mgmt (rangeCost s q.ctx (q.at 8 8) bs.length))
        (by rw [hread]; rfl) (exec_journalRead hread)
        (charge_frame (m := 123008) (by decide) (writeDva_frame (by decide) Fr.rfl)) fun t hr ht => ⟨hr, ht.mem_eq, ?_⟩
      rw [ht.flt_eq]
      exact (writeDva_frame (Nat.or_self _) Fr.rfl).flt_eq
  case limit =>
    refine command_answers ha (powerLimitSet_eq hlo hhi hfmin hfmax hle) rfl (Fr_mk.mpr (Fr_pwr (m := 67108864) (by decide) Fr.rfl))
      fun t hr ht => ⟨hr, ht.pwr_eq⟩
  case changes =>
    refine command_answers ha (powerStateSet_changes hidle hp) rfl (Fr_mk.mpr (Fr_pwr (m := 67108864) (by decide) Fr.rfl)) fun t hr ht => ?_
    rw [ht.pwr_eq]
    exact ⟨hr, rfl, rfl, rfl⟩
  case present =>
    refine command_answers ha (powerStateSet_present hidle hp) rfl (finalRecord_frame (Nat.or_self _) Fr.rfl) fun t hr ht => ⟨hr, ?_⟩
    exact ht.pwr_eq.trans (finalRecord_frame (Nat.or_self _) Fr.rfl).pwr_eq
  case busy => exact command_answers ha (powerStateSet_busy hbusy) rfl (Fr.rfl (m := 0)) fun t hr ht => ⟨hr, ht.pwr_eq⟩
  case power => exact command_answers (x := (powerQuery q s).1) ha rfl rfl (Fr.rfl (m := 0)) fun t hr ht => ⟨hr, ht.pwr_eq⟩

end Sys2Proof.Machine
end

section
/-! PROOFS. QP_REDELIVER (R364): the response to a re-delivery whose copies wait for admission raises MAILBOX_DONE (R369), which leaves through an
event ring that is set. -/

namespace Sys2Proof.Machine

-- One theorem after the other: as one text the files are near the memory limit of the check, and every thread that waits counts.
set_option Elab.async false

/-- QP_REDELIVER from index 0 accepted on channel 1, with queue pair 9 as its WORK queue pair. D2H queue pair 20 has one record, of a copy of 4
bytes, that the host did not get. The rounds have not started, so no unit is admitted; the PF has set event ring 0. -/
def redeliverAsked : State := { State.reset with
  host := { State.reset.host with
    linkUp := true
    blocks := [(0, 1)]
    fns := [(0, { bme := true, rings := [(0, { set := true, log := 6 })] })]
    qps := [(9, { state := .active, typ := 3, logSq := 6, logCq := 6 }),
      (20, { state := .active, typ := 1, logSq := 6, logCq := 6, cqTail := 1, shadow := [(0, { progress := 4 })], und := [0], copies := [(0, 1)] })] }
  mb := { State.reset.mb with
    chans := [(1, { assigned := true, state := Ch.busy, req := [(0, 0x08), (1, 0x03), (2, 8), (16, 9), (19, 0x80), (32, 20)] })] } }

theorem redeliverAsked_admitted : Admitted qpRedeliverLayout true (ownsQp redeliverAsked) 1 redeliverAsked := by decide +kernel

/-- The 4 bytes of the copy wait. -/
theorem redeliverAsked_left : let n := (reqOn redeliverAsked 1).at 0 4
    moveLeft (redeliverAsked.pushMove { what := .redeliver n, cls := (redeliverAsked.qp n).cls
                                        bytes := repeatBytes redeliverAsked n ((reqOn redeliverAsked 1).at 4 4) }) (.redeliver n) ≠ 0 := by
  decide +kernel

/-- The event and its MSI-X message have left. -/
theorem redeliverAsked_out : ∃ t, exec (.qpRedeliver 1) redeliverAsked = .next t ∧ t.out.length = 2 := ⟨_, rfl, by decide +kernel⟩

/-- Refutes O55: a re-delivery that waits has been answered, and the event of its response has left the device. -/
theorem not_queueCommands : ¬ Obligations.QueueCommands := by
  intro h
  obtain ⟨-, -, -, hpair, -⟩ := h redeliverAsked 1
  obtain ⟨-, -, -, -, hredeliver⟩ := hpair (by decide +kernel) (by decide +kernel)
  obtain ⟨t, ht, -, hwaits, -⟩ := hredeliver redeliverAsked_admitted (by decide +kernel) (by decide +kernel) (by decide +kernel) (by decide +kernel)
    (by decide +kernel) (by decide +kernel)
  have hout : t.out = redeliverAsked.out := (hwaits redeliverAsked_left).2
  obtain ⟨u, hu, htwo⟩ := redeliverAsked_out
  cases ht.symm.trans hu
  rw [hout] at htwo
  exact absurd htwo (by decide +kernel)

end Sys2Proof.Machine
end

section
/-! PROOFS. A mailbox command that a check of R376 refuses, or that R415, R425 or R457 does: it is answered with that status. -/

namespace Sys2Proof.Machine

-- One theorem after the other: as one text the files are near the memory limit of the check, and every thread that waits counts.
set_option Elab.async false

variable {s : State} {ch : Nat} {x : Reply} {l : Layout} {owns : Req → Bool}

/-- The response of a check: a status that is not OK, and no payload. -/
theorem checkReq_refuses {present : Bool} {c : Chan} {q : Req} {r : Nat} (h : checkReq s l present owns c q r = some x) :
    x.status ≠ St.ok ∧ x.len = 0 ∧ x.payload = 0 := by
  unfold checkReq at h
  repeat' split at h
  all_goals
    cases h
  all_goals
    refine ⟨?_, rfl, rfl⟩
    dsimp only [fail]
    decide

/-! ### An event writes the functions' rings, and nothing else of the host interface -/

theorem putEvent_host (fn ring : Nat) (e : EvRec) : ∃ fs, (s.putEvent fn ring e).host = { s.host with fns := fs } := by
  unfold State.putEvent
  dsimp only
  split <;> exact ⟨_, rfl⟩

theorem keepEvent_host (fn ring : Nat) (e : EvRec) : ∃ fs, (s.keepEvent fn ring e).host = { s.host with fns := fs } := by
  unfold State.keepEvent
  dsimp only
  split
  · exact ⟨_, rfl⟩
  · split <;> exact ⟨_, rfl⟩

theorem event_host (fn ring : Nat) (e : EvRec) : ∃ fs, (s.event fn ring e).host = { s.host with fns := fs } := by
  unfold State.event
  dsimp only
  split
  · exact ⟨_, rfl⟩
  · split
    · exact putEvent_host ..
    · exact keepEvent_host ..

theorem answer_host (status detail len payload : Nat) :
    ∃ fs, (s.answer ch status detail len payload).host = { s.host with fns := fs } := by
  unfold State.answer
  split
  · exact ⟨_, rfl⟩
  · exact event_host ..

/-! ### The commands -/

/-- A command refused: the response stands in its channel, and nothing else has changed but who waits for a frame. -/
def RefusedWith (ch : Nat) (x : Reply) (s t : State) : Prop :=
  Responded ch x s t ∧ x.status ≠ St.ok ∧ (∀ n, n ≠ ch → t.chan n = s.chan n) ∧
    t.mem = { s.mem with waits := t.mem.waits } ∧ t.ctxs = s.ctxs ∧
    t.host.qps = s.host.qps ∧ t.host.mrs = s.host.mrs ∧ t.weav = s.weav ∧ t.stakes = s.stakes ∧ t.lid = s.lid ∧ t.fw = s.fw ∧ t.pwr = s.pwr ∧
    t.rst = s.rst ∧ t.flt = s.flt ∧ t.crs = s.crs ∧ t.train = s.train

/-- The wait for a frame that a command may end with changes nothing but who waits. -/
theorem RefusedWith.dropWait {t : State} (h : RefusedWith ch x s t) (w : WaitFor) : RefusedWith ch x s (t.dropWait w) := by
  obtain ⟨hresp, hst, hchan, hmem, hrest⟩ := h
  refine ⟨hresp, hst, hchan, ?_, hrest⟩
  unfold State.dropWait
  dsimp only
  rw [hmem]

section
variable (hch : ch < 64) (hbusy : chanState (s.chan ch) = Ch.busy) (hd : (s.chan ch).discard = false) (hop : bytesAt (reqNat (s.chan ch)) 0 2 = l.op)
  (hturn : turnOf s ch l.op = true) (hcheck : checkReq s l true owns (s.chan ch) (reqOn s ch) (reqNat (s.chan ch)) = some x)
include hbusy hd hop hturn hcheck

omit hd in
theorem command_refused (eff : Req → State → Reply × State) : s.command l true owns eff ch = s.answer ch x.status x.detail 0 0 := by
  unfold State.command
  dsimp only
  rw [if_pos ⟨hbusy, hop, hturn⟩]
  unfold reqOn at hcheck
  rw [hcheck]

theorem command_refusedWith (eff : Req → State → Reply × State) : RefusedWith ch x s (s.command l true owns eff ch) := by
  obtain ⟨hst, hlen, hpay⟩ := checkReq_refuses hcheck
  have hf : Fr 6291592 s (s.answer ch x.status x.detail 0 0) := answer_frame (Nat.or_self _) Fr.rfl
  obtain ⟨fs, hhost⟩ := answer_host (s := s) (ch := ch) x.status x.detail 0 0
  rw [command_refused hbusy hop hturn hcheck]
  refine ⟨?_, hst, fun n hn => answer_chan_ne hn, ?_, hf.ctxs_eq, by rw [hhost], by rw [hhost], hf.weav_eq, hf.stakes_eq, hf.lid_eq,
    hf.fw_eq, hf.pwr_eq, hf.rst_eq, hf.flt_eq, hf.same .crs (by decide), hf.train_eq⟩
  · rw [Responded, answer_chan hd, hlen, hpay]
  · rw [hf.mem_eq]


end

section
variable (hch : ch < 64) (hbusy : chanState (s.chan ch) = Ch.busy) (hd : (s.chan ch).discard = false)
include hch hbusy hd

/-- A row that carries out its command, refused. -/
theorem row_refused (eff : Req → State → Reply × State) {c : Instr} (hx : exec c s = act (okChan ch) s (s.command l true owns eff ch))
    (hop : bytesAt (reqNat (s.chan ch)) 0 2 = l.op) (hturn : turnOf s ch l.op = true)
    (hcheck : checkReq s l true owns (s.chan ch) (reqOn s ch) (reqNat (s.chan ch)) = some x) : Answers c s (RefusedWith ch x s) := by
  refine answers_of_frame (m := 6291592) hx (decide_eq_true hch) ?_ (command_refusedWith hbusy hd hop hturn hcheck eff)
  rw [command_refused hbusy hop hturn hcheck]
  exact answer_frame (Nat.or_self _) Fr.rfl

/-- A row that waits for a frame only where its checks pass, refused. -/
theorem waitingRow_refused (eff : Req → State → Reply × State) {c : Instr} {b : Bool} {u : State}
    (hx : exec c s = act (okChan ch) s (if b then u else (s.command l true owns eff ch).dropWait (.cmd ch)))
    (hb : (checkReq s l true owns (s.chan ch) (reqOn s ch) (reqNat (s.chan ch))).isNone = false → b = false)
    (hop : bytesAt (reqNat (s.chan ch)) 0 2 = l.op) (hturn : turnOf s ch l.op = true)
    (hcheck : checkReq s l true owns (s.chan ch) (reqOn s ch) (reqNat (s.chan ch)) = some x) : Answers c s (RefusedWith ch x s) := by
  rw [if_neg (by simp [hb (by simp [hcheck])])] at hx
  refine answers_of_frame (m := 6324360) hx (decide_eq_true hch) ?_ ((command_refusedWith hbusy hd hop hturn hcheck eff).dropWait _)
  rw [command_refused hbusy hop hturn hcheck]
  exact dropWait_frame (m := 6324360) (by decide) (answer_frame (by decide) Fr.rfl)

end

/-- JOURNAL_READ waits for a frame only where its checks pass. -/
theorem exec_journalRead_refused (hcheck : checkReq s journalLayout true ownsAny (s.chan ch) (reqOn s ch) (reqNat (s.chan ch)) = some x) :
    exec (.journalRead ch) s =
      act (okChan ch) s (s.command journalLayout true ownsAny (fun q s => ((journalRead q s).1.getD {}, (journalRead q s).2)) ch) := by
  have hsome : (checkReq s journalLayout true ownsAny (s.chan ch) (reqOf (s.chan ch) (reqNat (s.chan ch))) (reqNat (s.chan ch))).isNone = false := by
    rw [← reqOn, hcheck]
    rfl
  show act (okChan ch) s (s.journalCommand ch) = _
  unfold State.journalCommand
  simp only [hsome, Bool.and_false, Bool.false_and, Bool.false_eq_true, if_false]

/-- Settles O53: each row is its command, and a command that a check refuses is answered without being carried out. -/
theorem mailboxRefusals : Obligations.MailboxRefusals := by
  intro s ch x hch hbusy hd
  have plain : ∀ {c : Instr} {l : Layout} {owns : Req → Bool} (eff : Req → State → Reply × State),
      exec c s = act (okChan ch) s (s.command l true owns eff ch) → _ := fun eff hx => row_refused (x := x) hch hbusy hd eff hx
  simp only [List.forall_mem_cons, List.not_mem_nil, false_implies, implies_true, and_true]
  refine ⟨plain devCaps rfl, plain deviceReset rfl, plain portAddrSet rfl, plain channelAssign rfl, plain fwStage rfl, plain fwActivate rfl,
    plain fwQuery rfl, plain ctxCreate rfl, plain ctxSet rfl, plain ctxQuery rfl, plain ctxRemove rfl, plain ctxReset rfl, plain blockAlloc rfl,
    ?create, plain qpQuery rfl, plain qpRearm rfl, plain ringSet rfl, plain mrRegister rfl, plain weaverRegister rfl, plain weaverPin rfl,
    plain weaverRemove rfl, plain sideClaim rfl, plain stakeRegister rfl, plain stakeBuild rfl, plain stakeCommit rfl, ?map, plain quotaSet rfl,
    plain memEvict rfl, plain memPin rfl, plain keyQuery rfl, plain debugRequest rfl, ?journal, plain powerStateSet rfl⟩
  case create =>
    refine waitingRow_refused hch hbusy hd _ rfl fun h => ?_
    rw [createWaits, ← reqOn, h, Bool.and_false, Bool.false_and]
  case map =>
    refine waitingRow_refused hch hbusy hd _ rfl fun h => ?_
    rw [mapWaits, ← reqOn, h, Bool.and_false, Bool.false_and]
  case journal =>
    exact fun hop hturn hcheck => row_refused hch hbusy hd _ (exec_journalRead_refused hcheck) hop hturn hcheck

end Sys2Proof.Machine
end

section
/-! PROOFS. The warm reset (R450) and a queue pair whose destruction is owed (R365): its work ends with the reset, and with that it is FREE. -/

namespace Sys2Proof.Machine

-- One theorem after the other: as one text the files are near the memory limit of the check, and every thread that waits counts.
set_option Elab.async false

/-- Queue pair 20 of context 0 has a copy under way, for whose end QP_DESTROY waits; queue pair 9 takes its final record. -/
def destroyOwed : State := { State.reset with
  rst := { State.reset.rst with running := true }
  host := { State.reset.host with
    linkUp := true
    qps := [(9, { state := .active, typ := 3, logSq := 6, logCq := 6 }),
      (20, { state := .active, logSq := 6, logCq := 6, fetched := 1, sqTail := 1, descs := [{ idx := 0, raw := 1 }]
             destroy := some { qpn := 9, tag := 5, ctx := 0 } })] } }

/-- After a hot reset the queue pair is FREE. -/
theorem destroyOwed_freed : ∃ t, exec .pcieHotReset destroyOwed = .next t ∧ (t.qp 20).state = .free := ⟨_, rfl, by decide +kernel⟩

/-- Refutes O48: a queue pair that was ACTIVE is not HOST_LOST after a warm reset when its QP_DESTROY was PENDING. -/
theorem not_deviceResets : ¬ Obligations.DeviceResets := by
  intro h
  obtain ⟨hwarm, -⟩ := h destroyOwed
  obtain ⟨-, hhot, -⟩ := hwarm (.inl rfl) (by decide +kernel)
  obtain ⟨t, ht, ⟨-, -, -, -, -, -, -, -, -, -, -, -, -, -, -, -, -, hlost⟩, -⟩ := hhot
  have hlost20 : (t.qp 20).state = .hostLost := hlost 20 (by decide +kernel) (by decide +kernel)
  obtain ⟨u, hu, hfree⟩ := destroyOwed_freed
  cases ht.symm.trans hu
  exact absurd (hlost20.symm.trans hfree) (by decide)

end Sys2Proof.Machine
end

section
/-! PROOFS. The return of main power (R459): of a rail's record only the fields of class S are kept, and its measured voltage is none of them. -/

namespace Sys2Proof.Machine

-- One theorem after the other: as one text the files are near the memory limit of the check, and every thread that waits counts.
set_option Elab.async false

/-- The device in D3cold; VDD_CD0 was last measured at 750 mV, and has crossed its reset threshold once. -/
def coldMeasured : State := { State.reset with
  pwr := { State.reset.pwr with state := .d3cold, sup := [(0, { meas := 750, resets := 1 })] }
  rst := { State.reset.rst with running := false } }

/-- The crossing is still counted, the measurement is gone. -/
theorem coldMeasured_returns : ∃ t, exec .mainPowerReturn coldMeasured = .next t ∧ look {} t.pwr.sup 0 = { resets := 1 } := ⟨_, rfl, by decide +kernel⟩

/-- Refutes O49: the supply records after the return of main power are not those before it, since the measured voltages are reset. -/
theorem not_railsAndBlocks : ¬ Obligations.RailsAndBlocks := by
  intro h
  obtain ⟨-, -, -, -, -, hreturn, -⟩ := h coldMeasured
  obtain ⟨t, ht, -, -, -, -, -, hsup, -⟩ := hreturn rfl
  obtain ⟨u, hu, hcounted⟩ := coldMeasured_returns
  cases ht.symm.trans hu
  rw [hsup] at hcounted
  exact absurd hcounted (by decide +kernel)

end Sys2Proof.Machine
end

section
/-! PROOFS. A function-level reset (R363) marks the contexts that the context table lists for its function; of a context that is listed twice only
the first entry is read. -/

namespace Sys2Proof.Machine

-- One theorem after the other: as one text the files are near the memory limit of the check, and every thread that waits counts.
set_option Elab.async false

/-- Context 1 is listed for the PF, and once more for function 1; the rounds run. -/
def listedTwice : State := { State.reset with
  rnd := { State.reset.rnd with enable := true }
  host := { State.reset.host with numVf := 1 }
  ctxs := [(1, { state := .active }), (1, { state := .active, func := 1 })] }

/-- The reset of function 1 marks context 1. -/
theorem listedTwice_cut : ∃ t, exec (.flr 1) listedTwice = .next t ∧ 1 ∈ t.host.flrCut := ⟨_, rfl, by decide +kernel⟩

/-- Refutes O43: a context whose table entry is not in canonical form is marked by the reset of a function that it does not read as its own. -/
theorem not_hostLink : ¬ Obligations.HostLink := by
  intro h
  obtain ⟨-, -, hflr, -⟩ := h listedTwice 1 (by decide)
  obtain ⟨t, ht, hruns, -⟩ := hflr (by decide)
  obtain ⟨-, -, hmarks⟩ := hruns rfl
  obtain ⟨u, hu, hcut⟩ := listedTwice_cut
  cases ht.symm.trans hu
  rcases (hmarks 1).mp hcut with hbefore | ⟨hfunc, -⟩
  · exact absurd hbefore (by decide +kernel)
  · exact absurd hfunc (by decide +kernel)

end Sys2Proof.Machine
end

section
/-! PROOFS. A SERVE (R351) in a session whose removed weaver still had it open when a descriptor that opens it for the base model had been accepted
(R135): the device takes the SERVE, and the session stays cut. -/

namespace Sys2Proof.Machine

-- One theorem after the other: as one text the files are near the memory limit of the check, and every thread that waits counts.
set_option Elab.async false

/-- A SERVE without a weaver, without flags, in session 5 of stake set 0: one token in, one out, its plan at address 0. -/
def baseServe : BitVec 512 := BitVec.ofNat 512 (2 + 2 ^ 152 + 5 * 2 ^ 160 + 2 ^ 320 + 2 ^ 352)

/-- WORK queue pair 20 of context 0, whose SQ has one descriptor. Session 5 was cut by the removal of the weaver that had it open; the last
descriptor that it had accepted was to open it without a weaver. -/
def cutSession : State := { State.reset with
  host := { State.reset.host with
    linkUp := true
    fns := [(0, { bme := true })]
    qps := [(20, { state := .active, typ := 3, sqTail := 1 })] }
  stakes := [(0, { reg := true })]
  crs := { State.reset.crs with plans := [((0, 0), {})] }
  weav := { State.reset.weav with sessions := [(5, { cut := true })] } }

/-- The descriptor as it is fetched, and the state in which it is. -/
def cutDesc : DescS := { idx := 0, raw := baseServe, gen := (cutSession.tkey 0).gen }
def cutFetched : State :=
  (cutSession.modQp 20 fun q => { q with fetched := idxAdd (cutSession.qp 20).fetched 1, descs := q.descs ++ [cutDesc] }).charge
    (cutSession.qp 20).cls { link := 64 }

/-- The sequence is taken as if its session were open. -/
theorem cutSession_taken : serveOk cutSession baseServe (cutSession.qp 20) = true ∧
    sessionBad cutSession (seqOf cutFetched 20 cutDesc) = false ∧ serveBad cutFetched (seqOf cutFetched 20 cutDesc) = none := by decide +kernel

/-- No descriptor after it is accepted in the session. -/
theorem cutSession_stays : ∃ t, exec (.serve 20 baseServe) cutSession = .next t ∧
    (t.session (seqKey (seqOf cutFetched 20 cutDesc))).accepted = false := ⟨_, rfl, by decide +kernel⟩

/-- Refutes O41: a SERVE without CLOSE that is accepted in a cut session does not leave the session accepting. -/
theorem not_descriptorFetch : ¬ Obligations.DescriptorFetch := by
  intro h
  obtain ⟨hfetch, -⟩ := h cutSession 20 baseServe (by decide)
  obtain ⟨-, -, -, -, -, hserve, -⟩ := hfetch (by decide +kernel) (by decide +kernel) (by decide +kernel) (by decide +kernel) (by decide +kernel)
    (by decide +kernel) (by decide +kernel) (by decide +kernel) (by decide +kernel)
  obtain ⟨hok, hsession, hpasses⟩ := cutSession_taken
  obtain ⟨t, ht, -, -, -, -, haccepts⟩ := hserve (by decide +kernel) hok hsession hpasses
  obtain ⟨u, hu, hstays⟩ := cutSession_stays
  cases ht.symm.trans hu
  exact absurd (haccepts.symm.trans hstays) (by decide +kernel)

end Sys2Proof.Machine
end

section
/-! PROOFS. The end of work, as a halt or a removal orders it, opens no admission, halts nothing and moves no queue pair to another state. -/

namespace Sys2Proof.Machine

-- One theorem after the other: as one text the files are near the memory limit of the check, and every thread that waits counts.
set_option Elab.async false

variable {s o : State}

/-- From `o` to `s` work was wound up at most: admission, the halt and the states of the queue pairs are as they were. -/
structure Winds (o s : State) : Prop where
  isOpen : s.bud.isOpen = o.bud.isOpen
  halted : s.flt.halted = o.flt.halted
  code : s.flt.code = o.flt.code
  linkUp : s.host.linkUp = o.host.linkUp
  states : ∀ q, (s.qp q).state = (o.qp q).state

theorem Winds.rfl : Winds s s := ⟨Eq.refl _, Eq.refl _, Eq.refl _, Eq.refl _, fun _ => Eq.refl _⟩

theorem Winds.trans {t : State} (h : Winds o s) (g : Winds s t) : Winds o t :=
  ⟨g.isOpen.trans h.isOpen, g.halted.trans h.halted, g.code.trans h.code, g.linkUp.trans h.linkUp, fun q => (g.states q).trans (h.states q)⟩

/-- A change outside the budgets, the host interface and the journal. -/
theorem Winds.frame {t : State} {m : Nat} (h : Winds o s) (hf : Fr m s t) (hbud : m.testBit Part.bud.code = false := by decide)
    (hhost : m.testBit Part.host.code = false := by decide) (hflt : m.testBit Part.flt.code = false := by decide) : Winds o t :=
  h.trans ⟨congrArg Bud.isOpen (hf.same .bud hbud), congrArg Flt.halted (hf.same .flt hflt), congrArg Flt.code (hf.same .flt hflt),
    congrArg HostIf.linkUp (hf.same .host hhost), fun _ => congrArg Qp.state (qp_of_host _ (hf.same .host hhost))⟩

/-- A change of other fields of the budgets, the journal and the host interface. -/
theorem Winds.step {t : State} (h : Winds o s) (hbud : t.bud.isOpen = s.bud.isOpen := by rfl) (hhalt : t.flt.halted = s.flt.halted := by rfl)
    (hcode : t.flt.code = s.flt.code := by rfl) (hlink : t.host.linkUp = s.host.linkUp := by rfl)
    (hqps : t.host.qps = s.host.qps := by rfl) : Winds o t :=
  h.trans ⟨hbud, hhalt, hcode, hlink, fun q => congrArg (fun x => (look {} x q).state) hqps⟩

/-- A change of one queue pair's other fields. -/
theorem Winds.modQp {q : Nat} {f : Qp → Qp} (h : Winds o s) (hf : ∀ x, (f x).state = x.state := by intro; rfl) : Winds o (s.modQp q f) := by
  refine h.trans ⟨Eq.refl _, Eq.refl _, Eq.refl _, Eq.refl _, fun k => ?_⟩
  by_cases hk : k = q
  · subst hk
    exact (congrArg Qp.state (modQp_read s _ f)).trans (hf _)
  · exact congrArg Qp.state (modQp_read_ne s _ f hk)

theorem Winds.ite {p : Prop} [Decidable p] {t : State} (hs : p → Winds o s) (ht : ¬p → Winds o t) : Winds o (if p then s else t) := by
  split
  · exact hs ‹_›
  · exact ht ‹_›

theorem Winds.each {α : Type} {f : α → State → State} {xs : List α} (h : Winds o s) (hf : ∀ x t, Winds o t → Winds o (f x t)) :
    Winds o (s.each xs f) := by
  induction xs generalizing s with
  | nil => exact h
  | cons x xs ih => exact ih (hf x s h)

/-! ### Events and completion records -/

theorem modFn_winds {fn : Nat} {f : Fn → Fn} (h : Winds o s) : Winds o (s.modFn fn f) := h.step
theorem emit_winds {x : Out} (h : Winds o s) : Winds o (s.emit x) := h.step
theorem charge_winds {c : Nat} {x : Cost} (h : Winds o s) : Winds o (s.charge c x) := h.step
theorem summarize_winds {x : Summary} (h : Winds o s) : Winds o (s.summarize x) := h.step

theorem putEvent_winds {fn ring : Nat} {e : EvRec} (h : Winds o s) : Winds o (s.putEvent fn ring e) :=
  .ite (fun _ => modFn_winds (charge_winds (emit_winds h))) fun _ => modFn_winds (emit_winds (charge_winds (emit_winds h)))

theorem keepEvent_winds {fn ring : Nat} {e : EvRec} (h : Winds o s) : Winds o (s.keepEvent fn ring e) :=
  have hr : Winds o (s.modRing fn ring fun r => { r with overflow := true }) := modFn_winds h
  .ite (fun _ => hr) fun _ => .ite (fun _ => modFn_winds hr) fun _ => modFn_winds hr

theorem event_winds {fn ring : Nat} {e : EvRec} (h : Winds o s) : Winds o (s.event fn ring e) :=
  .ite (fun _ => h) fun _ => .ite (fun _ => putEvent_winds h) fun _ => keepEvent_winds h

theorem journal_winds {e : JEntry} (h : Winds o s) : Winds o (s.journal e) :=
  .ite (fun _ => event_winds h.step) fun _ => h.step

theorem noteFull_winds {qpn : Nat} (h : Winds o s) : Winds o (s.noteFull qpn) :=
  h.modQp fun x => by split <;> rfl

theorem writeRec_winds {qpn : Nat} {r : Rec} (h : Winds o s) : Winds o (s.writeRec qpn r) := by
  unfold State.writeRec
  extract_lets q fn r' live t1 t2 t3
  have hw : Winds o t2 := noteFull_winds (charge_winds h.modQp)
  exact .ite (fun _ => hw) fun _ => .ite (fun _ => event_winds (charge_winds (emit_winds hw))) fun _ => charge_winds (emit_winds hw)

theorem record_winds {qpn : Nat} {r : Rec} (h : Winds o s) : Winds o (s.record qpn r) :=
  .ite (fun _ => h) fun _ => .ite (fun _ => h.modQp) fun _ => writeRec_winds h

theorem finalRecord_winds {n : Notice} {status progress : Nat} (h : Winds o s) : Winds o (s.finalRecord n status progress) :=
  record_winds (summarize_winds h)

/-! ### Descriptors -/

theorem closeDesc_winds {qpn : Nat} {d : DescS} {r : Rec} (h : Winds o s) : Winds o (s.closeDesc qpn d r) :=
  have hd := summarize_winds (h.modQp (q := qpn))
  .ite (fun _ => hd) fun _ => record_winds (.ite (fun _ => hd.modQp) fun _ => hd)

theorem endDescs_winds {qpn status : Nat} (h : Winds o s) : Winds o (s.endDescs qpn status) :=
  h.each fun _ _ ht => closeDesc_winds ht

theorem endQueue_winds {qpn status : Nat} {wait : Bool} (h : Winds o s) : Winds o (s.endQueue qpn status wait) :=
  h.each fun _ _ ht => closeDesc_winds ht

theorem modDesc_winds {qpn idx : Nat} {f : DescS → DescS} (h : Winds o s) : Winds o (s.modDesc qpn idx f) := h.modQp

theorem releaseTurn_winds {qpn : Nat} (h : Winds o s) : Winds o (s.releaseTurn qpn) := by
  unfold State.releaseTurn
  refine h.each fun x t ht => ?_
  split
  · exact ht
  · exact .ite (fun _ => ht) fun _ => .ite (fun _ => modDesc_winds ht) fun _ => closeDesc_winds ht

theorem closeSeq_winds {qpn : Nat} {d : DescS} {x : Rec} (h : Winds o s) : Winds o (s.closeSeq qpn d x) :=
  .ite (fun _ => modDesc_winds h) fun _ => releaseTurn_winds (closeDesc_winds h)

/-! ### Transfers that ask for admission -/

theorem testBorrow_winds (h : Winds o s) : Winds o s.testBorrow :=
  .ite (fun _ => h) fun _ => .ite (fun _ => h) fun _ => h.step

theorem turnAway_winds {c n : Nat} (h : Winds o s) : Winds o (s.turnAway c n) := h.step

theorem admitMany_winds {c n : Nat} {x : Cost} (h : Winds o s) : Winds o (s.admitMany c x n).2 := by
  unfold State.admitMany
  split
  · exact h
  · have ht : Winds o (if c = Act.tune then s.testBorrow else s) := .ite (fun _ => testBorrow_winds h) fun _ => h
    extract_lets t1 tally e k t2
    have ht2 : Winds o t2 := charge_winds ht
    split
    · exact turnAway_winds ht2
    · exact .ite (fun _ => testBorrow_winds ht2) fun _ => ht2

theorem admitMove_winds {m : Move} (h : Winds o s) : Winds o (s.admitMove m).2 := by
  unfold State.admitMove
  dsimp only
  split
  · exact admitMany_winds h
  · exact admitMany_winds (admitMany_winds h)

theorem dropMove_winds {w : MoveOf} (h : Winds o s) : Winds o (s.dropMove w) := h.step

theorem pushMove_winds {m : Move} (h : Winds o s) : Winds o (s.pushMove m) :=
  have hm := admitMove_winds (m := m) h
  .ite (fun _ => hm) fun _ => hm.step

theorem zeroFrame_winds {f : Nat} (h : Winds o s) : Winds o (s.zeroFrame f) :=
  have hf := h.frame (modFrame_frame (Nat.or_self _) Fr.rfl)
  .ite (fun _ => hf) fun _ => pushMove_winds (dropMove_winds hf)

/-! ### Sequences -/

theorem translate_winds {qpn a n : Nat} (h : Winds o s) : Winds o (s.translate qpn a n) :=
  .ite (fun _ => h) fun _ => h.step

theorem outDone_winds {qpn idx : Nat} (h : Winds o s) : Winds o (s.outDone qpn idx) := by
  unfold State.outDone
  split
  · exact h
  split
  · exact h
  next c _ =>
    refine .ite (fun _ => closeSeq_winds (dropMove_winds h)) fun _ => .ite (fun _ => h) fun _ => ?_
    have hread := h.frame (readDva_frame (x0 := (s.qp qpn).ctx) (x1 := 0) (x2 := c.src) (x3 := c.len) (Nat.or_self _) Fr.rfl)
    dsimp only
    split
    · exact closeSeq_winds (emit_winds (translate_winds hread))
    · exact closeSeq_winds hread

theorem outStart_winds {r : Seq} {d : DescS} {x : Rec} (h : Winds o s) : Winds o (s.outStart r d x) :=
  .ite (fun _ => closeSeq_winds h) fun _ => outDone_winds (pushMove_winds (modDesc_winds h))

theorem closeSession_winds {k : Nat} (h : Winds o s) : Winds o (s.closeSession k) :=
  h.frame (closeSession_frame (Nat.or_self _) Fr.rfl)

theorem openTurn_winds {k : Nat} (h : Winds o s) : Winds o (s.openTurn k) := h.frame (openTurn_frame (Nat.or_self _) Fr.rfl)

theorem finishSeq_winds {r : Seq} {status gen wver rnd : Nat} (h : Winds o s) : Winds o (s.finishSeq r status gen wver rnd) := by
  unfold State.finishSeq
  extract_lets st leaves crs t1 t2 x t3
  have ht1 : Winds o t1 := h.step
  have ht2 : Winds o t2 := .ite (fun _ => ht1.frame (modSession_frame (Nat.or_self _) Fr.rfl)) fun _ =>
    .ite (fun _ => closeSession_winds ht1) fun _ => ht1
  have ht3 : Winds o t3 := by
    dsimp only [t3]
    split
    · exact ht2
    · exact outStart_winds ht2
  exact .ite (fun _ => h) fun _ => openTurn_winds ht3

theorem endSeq_winds {r : Seq} {status : Nat} (h : Winds o s) : Winds o (s.endSeq r status) := finishSeq_winds h

/-! ### Courses -/

theorem finishWorks_winds (h : Winds o s) : Winds o s.finishWorks :=
  h.each fun _ _ ht => .ite (fun _ => finalRecord_winds ht.step) fun _ => ht

theorem unpinCourse_winds {c : Course} (h : Winds o s) : Winds o (s.unpinCourse c) :=
  finishWorks_winds (h.each fun _ _ ht => (ht.frame (modFrame_frame (Nat.or_self _) Fr.rfl)).each fun _ _ hu =>
    hu.frame (unpinPage_frame (Nat.or_self _) Fr.rfl))

theorem releaseCourse_winds {c : Course} (h : Winds o s) : Winds o (s.releaseCourse c) := by
  unfold State.releaseCourse
  extract_lets t1 t2 t3 t4 t5
  have ht1 : Winds o t1 := h.step
  have ht2 : Winds o t2 := ht1.each fun _ _ hu => hu.frame (modCell_frame (Nat.or_self _) Fr.rfl)
  have ht4 : Winds o t4 := unpinCourse_winds (s := t3) ht2.step
  have ht5 : Winds o t5 := by
    dsimp only [t5]
    split
    · exact zeroFrame_winds ht4
    · exact ht4
  exact ht5.step

theorem probeFails_winds {c : Course} (h : Winds o s) : Winds o (s.probeFails c) := by
  unfold State.probeFails
  split
  · exact h
  · exact h.step

theorem endCourse_winds {cid status : Nat} (h : Winds o s) : Winds o (s.endCourse cid status) := by
  unfold State.endCourse
  split
  · exact h
  next c _ =>
    extract_lets t1 t2 t3
    have ht1 : Winds o t1 := (releaseCourse_winds h).each fun _ _ hu => summarize_winds hu
    have ht2 : Winds o t2 := ht1.each fun _ _ hu => finishSeq_winds hu
    have ht3 : Winds o t3 := .ite (fun _ => probeFails_winds ht2) fun _ => ht2
    split
    · exact ht3
    · exact ht3.step

/-! ### Jobs -/

theorem saveBucket_winds {j : Job} {b : Nat} (h : Winds o s) : Winds o (s.saveBucket j b) :=
  (charge_winds (h.frame (readAll_frame (Nat.or_self _) Fr.rfl))).frame (stateWrite_frame (Nat.or_self _) Fr.rfl)

theorem sendLedger_winds {key : Nat} {e : LedgerEntry} (h : Winds o s) : Winds o (s.sendLedger key e) :=
  charge_winds (emit_winds (charge_winds (h.frame (writeLedger_frame (Nat.or_self _) Fr.rfl))))

theorem freeState_winds {j : Job} (h : Winds o s) : Winds o (s.freeState j) :=
  h.each fun _ _ ht => zeroFrame_winds ((ht.frame (modPte_frame (Nat.or_self _) Fr.rfl)).frame (modFrame_frame (Nat.or_self _) Fr.rfl))

theorem closeJob_winds {key status outcome : Nat} (h : Winds o s) : Winds o (s.closeJob key status outcome) := by
  unfold State.closeJob
  extract_lets j t1 t2 t3 t4 t5 t6
  have ht1 : Winds o t1 := Winds.each (s := s.dropJobMoves key) h.step fun _ _ hu => endCourse_winds hu
  have ht2 : Winds o t2 := .ite (fun _ => sendLedger_winds ht1) fun _ => ht1
  have ht3 : Winds o t3 := .ite (fun _ => ht2) fun _ => ht2.each fun _ _ hu => saveBucket_winds hu
  have ht4 : Winds o t4 := .ite (fun _ => ht3.frame (unpinState_frame (Nat.or_self _) Fr.rfl)) fun _ => freeState_winds ht3
  have ht6 : Winds o t6 := ht4.step
  refine .ite (fun _ => h) fun _ => ?_
  split
  · exact ht6
  · exact record_winds (summarize_winds ht6)

/-! ### A context's work -/

theorem dropPins_winds {cid ctx : Nat} (h : Winds o s) : Winds o (s.dropPins cid ctx) := h.frame (dropPins_frame (Nat.or_self _) Fr.rfl)

theorem endRows_winds {ctx status cid : Nat} (h : Winds o s) : Winds o (s.endRows ctx status cid) := by
  unfold State.endRows
  split
  · exact h
  next c _ =>
    extract_lets t1 mark t2
    have ht1 : Winds o t1 := h.each fun _ _ hu => .ite (fun _ => finishSeq_winds hu) fun _ => hu
    have ht2 : Winds o t2 := (dropPins_winds ht1).frame (modCourse_frame (Nat.or_self _) Fr.rfl)
    exact .ite (fun _ => endCourse_winds h) fun _ => .ite (fun _ => h) fun _ => .ite (fun _ => endCourse_winds ht2) fun _ => ht2

theorem endWork_winds {ctx status outcome : Nat} {wait close : Bool} (h : Winds o s) : Winds o (s.endWork ctx status outcome wait close) := by
  unfold State.endWork
  extract_lets t1 t2 t3 t4
  have ht1 : Winds o t1 := h.each fun _ _ hu => endRows_winds hu
  have ht2 : Winds o t2 := ht1.each fun _ _ hu => endSeq_winds hu
  have ht3 : Winds o t3 := ht2.each fun _ _ hu => closeJob_winds hu
  have ht4 : Winds o t4 := .ite (fun _ => ht3.each fun _ _ hu => closeSession_winds hu) fun _ => ht3
  exact ht4.each fun _ _ hu => endQueue_winds hu

theorem endMemWorks_winds {ctx : Nat} (h : Winds o s) : Winds o (s.endMemWorks ctx) := by
  refine Winds.each ?_ fun _ _ hu => finalRecord_winds hu
  exact h.step

theorem startRemove_winds {k : Nat} (h : Winds o s) : Winds o (s.startRemove k) := by
  unfold State.startRemove
  extract_lets st t1 t2 inCourse t3
  have ht1 : Winds o t1 := h.step
  have ht2 : Winds o t2 := ht1.each fun _ _ hu => endSeq_winds hu
  have ht3 : Winds o t3 := ht2.each fun _ _ hu => closeSession_winds hu
  exact ht3.frame (releaseClaims_frame (Nat.or_self _) Fr.rfl)

end Sys2Proof.Machine
end

section
/-! PROOFS. Supply dips, the reference clock, the clock and voltage loop, thermal protection, and the power states (R456 to R467, R480). -/

namespace Sys2Proof.Machine

-- One theorem after the other: as one text the files are near the memory limit of the check, and every thread that waits counts.
set_option Elab.async false

variable {s t u : State} {d : Nat}

/-! ### What a step on one die's clock keeps -/

/-- From `s` to `t` only clocks changed among the power fields, and of die `d`'s clock nothing but the protection mark. -/
structure Steady (d : Nat) (s t : State) : Prop where
  clk : t.clk d = { s.clk d with prot := (t.clk d).prot }
  rest : t.pwr = { s.pwr with clk := t.pwr.clk }

theorem Steady.rfl : Steady d s s := ⟨Eq.refl _, Eq.refl _⟩

theorem Steady.of_pwr (h : t.pwr = s.pwr) : Steady d s t := by
  have hclk : t.clk d = s.clk d := clk_of_pwr d h
  exact ⟨by rw [hclk], by rw [h]⟩

theorem Steady.trans (h : Steady d s t) (g : Steady d t u) : Steady d s u := by
  constructor
  · rw [g.clk, h.clk]
  · rw [g.rest, h.rest]

theorem Steady.freq (h : Steady d s t) : (t.clk d).freq = (s.clk d).freq := by rw [h.clk]
theorem Steady.vset (h : Steady d s t) : (t.clk d).vset = (s.clk d).vset := by rw [h.clk]
theorem Steady.stretch (h : Steady d s t) : (t.clk d).stretch = (s.clk d).stretch := by rw [h.clk]
theorem Steady.raise (h : Steady d s t) : (t.clk d).raiseTo = (s.clk d).raiseTo := by rw [h.clk]

theorem Steady.sup (h : Steady d s t) : t.pwr.sup = s.pwr.sup := by rw [h.rest]

theorem modClk_steady {x : Nat} (f : Clk → Clk) (hx : x ≠ d) : Steady d s (s.modClk x f) := by
  constructor
  · rw [modClk_read_ne _ _ _ hx.symm]
  · rfl

/-- A protection episode that starts or ends marks the clock and enters the journal. -/
theorem protectCheck_steady (x cause : Nat) : Steady d s (s.protectCheck x cause) := by
  unfold State.protectCheck
  extract_lets below
  split
  · exact .rfl
  · refine Steady.trans (t := s.modClk x fun c => { c with prot := below }) ?_ (.of_pwr (journal_frame (Nat.or_self _) Fr.rfl).pwr_eq)
    by_cases hx : x = d
    · subst hx
      exact ⟨by rw [modClk_read], rfl⟩
    · exact modClk_steady _ hx

theorem protectCheck_rnd (x cause : Nat) : (s.protectCheck x cause).rnd = s.rnd := (protectCheck_frame (Nat.or_self _) Fr.rfl).rnd_eq

theorem sendSetpoint_pwr (x : Nat) : (s.sendSetpoint x).pwr = s.pwr := rfl

theorem lowerTo_clk (f : Nat) : (s.lowerTo d f).clk d = { s.clk d with freq := f, vset := setpointFor d f, raiseTo := none } :=
  modClk_read s d _

theorem lowerTo_steady {x : Nat} (f : Nat) (hx : x ≠ d) : Steady d s (s.lowerTo x f) := (modClk_steady _ hx).trans (.of_pwr rfl)

theorem raiseTo_steady {x : Nat} (f : Nat) (hx : x ≠ d) : Steady d s (s.raiseTo x f) := (modClk_steady _ hx).trans (.of_pwr rfl)

theorem loopDie_steady {past up : Bool} {x : Nat} (hx : x ≠ d) : Steady d s (s.loopDie past up x) := by
  have hlimit : Steady d s (s.polLimit 0) := .of_pwr (polLimit_frame (Nat.or_self _) Fr.rfl).pwr_eq
  unfold State.loopDie
  extract_lets c
  split
  · exact lowerTo_steady _ hx
  split
  · split
    · exact lowerTo_steady _ hx
    · exact hlimit
  split
  · exact .rfl
  split
  · split
    · exact modClk_steady _ hx
    · exact .rfl
  split
  · exact raiseTo_steady _ hx
  split
  · exact .rfl
  split
  · exact raiseTo_steady _ hx
  · exact hlimit

theorem throttle_steady {x : Nat} (hx : x ≠ d) : Steady d s (s.throttle x) := by
  refine Steady.trans ?_ (protectCheck_steady x 0)
  split
  · exact lowerTo_steady _ hx
  · exact modClk_steady _ hx

/-- One step down: 25 MHz while that leaves 1,000 MHz, then a stretch. -/
theorem throttle_clk : (if 1025 ≤ (s.clk d).freq then ((s.throttle d).clk d).freq = (s.clk d).freq - 25
      else ((s.throttle d).clk d).stretch = true ∧ ((s.throttle d).clk d).freq = (s.clk d).freq) ∧
    (s.throttle d).pwr = { s.pwr with clk := (s.throttle d).pwr.clk } := by
  have hstep (u : State) (hu : u.pwr = { s.pwr with clk := u.pwr.clk }) :
      (u.protectCheck d 0).pwr = { s.pwr with clk := (u.protectCheck d 0).pwr.clk } := by
    rw [(protectCheck_steady (d := d) d 0).rest, hu]
  unfold State.throttle
  by_cases hf : 1025 ≤ (s.clk d).freq
  · simp only [if_pos hf]
    exact ⟨by rw [(protectCheck_steady d 0).freq, lowerTo_clk], hstep _ rfl⟩
  · simp only [if_neg hf]
    exact ⟨⟨by rw [(protectCheck_steady d 0).stretch, modClk_read], by rw [(protectCheck_steady d 0).freq, modClk_read]⟩, hstep _ rfl⟩

/-! ### A pass over the powered dies -/

/-- A pass over a list without repetition acts on `d` once; what the other members keep still holds before and after that. -/
theorem each_once {R : State → State → Prop} (hrefl : ∀ s, R s s) (htrans : ∀ {a b c}, R a b → R b c → R a c) {f : Nat → State → State}
    (hf : ∀ x t, x ≠ d → R t (f x t)) {xs : List Nat} (hn : xs.Nodup) (hd : d ∈ xs) (s : State) :
    ∃ u, R s u ∧ R (f d u) (s.each xs f) := by
  have hothers (ys : List Nat) (hy : d ∉ ys) (t : State) : R t (t.each ys f) := by
    induction ys generalizing t with
    | nil => exact hrefl t
    | cons y ys ih =>
      obtain ⟨hne, hrest⟩ := not_or.mp (mt List.mem_cons.mpr hy)
      exact htrans (hf y t (Ne.symm hne)) (ih hrest (f y t))
  induction xs generalizing s with
  | nil => exact absurd hd List.not_mem_nil
  | cons x xs ih =>
    obtain ⟨hx, hxs⟩ := List.nodup_cons.mp hn
    by_cases he : x = d
    · subst he
      exact ⟨s, hrefl s, hothers xs hx _⟩
    · obtain ⟨u, hu, hres⟩ := ih hxs ((List.mem_cons.mp hd).resolve_left (Ne.symm he)) (f x s)
      exact ⟨u, htrans (hf x s he) hu, hres⟩

theorem poweredDies_nodup : (poweredDies s).Nodup := List.nodup_range.filter _

theorem mem_poweredDies (h : (poweredDies s).contains d = true) : d ∈ poweredDies s := List.contains_iff_mem.mp h

theorem running_of_powered (h : (poweredDies s).contains d = true) : s.flt.halted = false := by
  have hd := (List.mem_filter.mp (mem_poweredDies h)).2
  simp only [Bool.and_eq_true, Bool.not_eq_true'] at hd
  exact hd.1.2

/-- The loop on a die inside the bounds, with the package above its cap. -/
theorem loopDie_lowers {up : Bool} (hmax : (s.clk d).freq ≤ s.pwr.fmax) (hmin : s.pwr.fmin + 25 ≤ (s.clk d).freq) :
    s.loopDie true up d = s.lowerTo d ((s.clk d).freq - 25) := by
  simp only [State.loopDie, if_neg (Nat.not_lt.mpr hmax), if_pos hmin, if_true]

/-- The package power and the hottest junction of an evaluation, not a calm one. -/
def State.loopSaw (m : PowerSample) (s : State) : State :=
  { s with pwr := { s.pwr with watts := m.watts, tjMax := m.tj.foldl max 0, calm := 0 } }

theorem clockLoop_over {m : PowerSample} (h : s.pwr.cap < m.watts) :
    s.clockLoop m = (s.loopSaw m).each (poweredDies s) fun d s => (s.loopDie true false d).protectCheck d 0 := by
  have hpast : decide (s.pwr.cap < m.watts) = true := decide_eq_true h
  have hgood : decide (100 * m.watts < 98 * s.pwr.cap) = false := decide_eq_false (by omega)
  unfold State.clockLoop
  simp only [hpast, hgood, Bool.false_and]
  rfl

theorem clockLoop_lowers {m : PowerSample} (h : s.pwr.cap < m.watts) (hd : (poweredDies s).contains d = true)
    (hmax : (s.clk d).freq ≤ s.pwr.fmax) (hmin : s.pwr.fmin + 25 ≤ (s.clk d).freq) :
    let t := s.clockLoop m
    (t.clk d).freq = (s.clk d).freq - 25 ∧ (t.clk d).vset = setpointFor d ((s.clk d).freq - 25) ∧ t.pwr.watts = m.watts ∧ t.pwr.calm = 0 ∧
      t.pwr.cap = s.pwr.cap := by
  intro t
  obtain ⟨u, hu, ht⟩ := each_once (R := Steady d) (d := d) (f := fun d s => (s.loopDie true false d).protectCheck d 0) (fun _ => .rfl)
    (fun h g => h.trans g) (fun x _ hx => (loopDie_steady hx).trans (protectCheck_steady x 0)) (poweredDies_nodup (s := s)) (mem_poweredDies hd)
    (s.loopSaw m)
  rw [← clockLoop_over h] at ht
  have hfreq : (u.clk d).freq = (s.clk d).freq := hu.freq
  have hmax' : (u.clk d).freq ≤ u.pwr.fmax := by rw [hfreq, hu.rest]; exact hmax
  have hmin' : u.pwr.fmin + 25 ≤ (u.clk d).freq := by rw [hfreq, hu.rest]; exact hmin
  simp only [loopDie_lowers hmax' hmin', hfreq] at ht
  have hlow := (protectCheck_steady (s := u.lowerTo d ((s.clk d).freq - 25)) (d := d) d 0).trans ht
  have hpwr : t.pwr = { (s.loopSaw m).pwr with clk := t.pwr.clk } := by
    rw [hlow.rest]
    change { u.pwr with clk := t.pwr.clk } = _
    rw [hu.rest]
  refine ⟨by rw [hlow.freq, lowerTo_clk], by rw [hlow.vset, lowerTo_clk], ?_, ?_, ?_⟩ <;> rw [hpwr] <;> rfl

theorem overTdp_throttles {w : Nat} (h : tdp s < w) (hd : (poweredDies s).contains d = true) :
    let t := s.overTdp w
    (if 1025 ≤ (s.clk d).freq then (t.clk d).freq = (s.clk d).freq - 25 else (t.clk d).stretch = true) ∧ t.pwr.watts = w := by
  intro t
  let s1 : State := { s with pwr := { s.pwr with watts := w, calm := 0 } }
  obtain ⟨u, hu, ht⟩ := each_once (R := Steady d) (d := d) (f := fun d s => s.throttle d) (fun _ => .rfl) (fun h g => h.trans g)
    (fun x _ hx => throttle_steady hx) (poweredDies_nodup (s := s)) (mem_poweredDies hd) s1
  have hover : t = s1.each (poweredDies s) fun d s => s.throttle d := if_neg (Nat.not_le.mpr h)
  rw [← hover] at ht
  have hfreq : (u.clk d).freq = (s.clk d).freq := hu.freq
  obtain ⟨hclk, hrest⟩ := throttle_clk (s := u) (d := d)
  rw [hfreq] at hclk
  refine ⟨?_, by rw [ht.rest, hrest, hu.rest]⟩
  by_cases hf : 1025 ≤ (s.clk d).freq
  · rw [if_pos hf] at hclk ⊢
    exact ht.freq.trans hclk
  · rw [if_neg hf] at hclk ⊢
    exact ht.stretch.trans hclk.1

theorem thermal_throttles {tj : Nat} (h : 103 ≤ tj) (hd : (poweredDies s).contains d = true) : s.thermal d tj = (s.sawTj tj).throttle d := by
  have hguard : ¬(tj < 103 ∨ (!(poweredDies s).contains d) = true) := by
    rw [hd]
    simpa using h
  exact if_neg hguard

/-! ### Supply dips (R460, R461) -/

/-- What the monitors of a rail record of a dip that starts. -/
def Sup.dipped (rail mv : Nat) (x : Sup) : Sup :=
  { x with meas := mv % 2048, below := true, stretch := x.stretch || (rail == 4 || rail == 5), warn := sat 16 (x.warn + 1) }

theorem dip_first {rail mv : Nat} (hfit : rail = 3 → hasCd s 3 = true) (hlow : 100 * mv ≤ 94 * railSet s rail) (hon : s.pwr.state ≠ .d3cold)
    (hup : railBelow s rail = false) :
    let t := s.dip rail mv
    t.pwr.sup = (s.modSup rail (Sup.dipped rail mv)).pwr.sup ∧ (rail ≤ 5 → t.rnd.undervolt = true) ∧
      ((poweredDies s).contains rail = true → (t.clk rail).stretch = true ∧ (t.clk rail).freq = (s.clk rail).freq) := by
  have hguard : ¬(94 * railSet s rail < 100 * mv ∨ (rail = 3 ∧ (!hasCd s 3) = true) ∨ s.pwr.state = .d3cold) := by
    rintro (h | ⟨h3, h⟩ | h)
    · omega
    · simp [hfit h3] at h
    · exact hon h
  intro t
  have ht : t = if feedsClock rail then
      let u := { s.modSup rail (Sup.dipped rail mv) with rnd := { s.rnd with undervolt := true } }
      if (poweredDies s).contains rail then
        (u.modClk rail fun c => { c with beforeDip := if c.stretch then c.beforeDip else c.freq, stretch := true }).protectCheck rail 1
      else u
    else s.modSup rail (Sup.dipped rail mv) := by
    show State.dip rail mv s = _
    unfold State.dip
    rw [if_neg hguard]
    simp only [hup]
    cases feedsClock rail <;> rfl
  rw [ht]
  by_cases hfeeds : rail ≤ 5
  · have hc : feedsClock rail = true := decide_eq_true hfeeds
    simp only [hc, if_true]
    split
    · have hp (u : State) := protectCheck_steady (s := u) (d := rail) rail 1
      refine ⟨by rw [(hp _).rest]; rfl, fun _ => by rw [protectCheck_rnd]; rfl, fun _ => ⟨by rw [(hp _).stretch, modClk_read], ?_⟩⟩
      rw [(hp _).freq, modClk_read]
      rfl
    · next h => exact ⟨rfl, fun _ => rfl, fun h' => absurd h' h⟩
  · have hc : feedsClock rail = false := decide_eq_false hfeeds
    simp only [hc]
    refine ⟨rfl, fun h => absurd h hfeeds, fun h => ?_⟩
    have hr : rail < 4 := List.mem_range.mp (List.mem_filter.mp (mem_poweredDies h)).1
    omega

theorem modClk_sup (f : Clk → Clk) : (s.modClk d f).pwr.sup = s.pwr.sup := rfl

theorem modSup_read (f : Sup → Sup) (r : Nat) : look {} (s.modSup r f).pwr.sup r = f (look {} s.pwr.sup r) := look_adj_eq _ _ _ _

section
variable (hd : d < 4) (hbelow : railBelow s d = true) (hstretch : (s.clk d).stretch = true)
include hd hbelow hstretch

theorem dipEnds_runs : railBelow (s.dipEnds d) d = false ∧ ((s.dipEnds d).clk d).stretch = false ∧
    ((s.dipEnds d).clk d).freq = (s.clk d).beforeDip := by
  have hp (u : State) := protectCheck_steady (s := u) (d := d) d 1
  have ht : s.dipEnds d = ((s.fresh.2.modSup d fun y => { y with meas := s.fresh.1 % 2048, below := false, stretch := false }).modClk d
      fun c => { c with freq := c.beforeDip, stretch := false }).protectCheck d 1 := by
    unfold State.dipEnds
    rw [if_neg (by simp [hbelow])]
    exact if_pos ⟨hd, hstretch⟩
  rw [ht]
  refine ⟨?_, by rw [(hp _).stretch, modClk_read], by rw [(hp _).freq, modClk_read]; rfl⟩
  rw [railBelow, (hp _).sup, modClk_sup, modSup_read]

theorem dipStays_lowers {mv : Nat} (hlow : 100 * mv ≤ 94 * railSet s d) : railBelow (s.dipStays d mv) d = true ∧
    ((s.dipStays d mv).clk d).stretch = false ∧ ((s.dipStays d mv).clk d).freq = pointFor d mv ∧
    (look {} (s.dipStays d mv).pwr.sup d).meas = mv % 2048 := by
  have hp (u : State) := protectCheck_steady (s := u) (d := d) d 1
  have hguard : ¬((!railBelow s d) = true ∨ 94 * railSet s d < 100 * mv) := by
    rw [hbelow]
    simpa using hlow
  have ht : s.dipStays d mv = ((s.modSup d fun x => { x with meas := mv % 2048, stretch := false }).modClk d
      fun c => { c with freq := pointFor d mv, stretch := false, raiseTo := none }).protectCheck d 1 := by
    unfold State.dipStays
    rw [if_neg hguard]
    exact if_pos ⟨hd, hstretch⟩
  rw [ht]
  refine ⟨?_, by rw [(hp _).stretch, modClk_read], by rw [(hp _).freq, modClk_read], ?_⟩
  · rw [railBelow, (hp _).sup, modClk_sup, modSup_read]
    exact hbelow
  · rw [(hp _).sup, modClk_sup, modSup_read]

end

/-! ### The reference clock (R467) -/

theorem dlDown_winds (h : s.host.linkUp = true) : Winds s.loseLink s.dlDown := by
  unfold State.dlDown
  rw [h]
  exact Winds.rfl.each fun _ _ ht => endQueue_winds ht

theorem dlDown_linkUp (h : s.host.linkUp = true) : s.dlDown.host.linkUp = false := (dlDown_winds h).linkUp

theorem dlDown_head : s.dlDown.flt.head = s.flt.head := by
  have hlose : s.loseLink.flt = s.flt := (loseLink_frame (Nat.or_self _) Fr.rfl).flt_eq
  unfold State.dlDown
  split
  · rfl
  · exact (each_keeps (fun t => t.flt.head) (fun _ _ => endQueue_head ..) _ _).trans (congrArg Flt.head hlose)

/-- What a CXL port that goes down leaves: the round timing, the host's link, the other ports that are down, the entries of the journal. -/
structure CxlFalls (s t : State) : Prop where
  rnd : t.rnd = s.rnd
  linkUp : t.host.linkUp = s.host.linkUp
  head : s.flt.head ≤ t.flt.head
  variant : t.variant = s.variant
  down : ∀ p, look 0 s.cxl p ≠ 0 → look 0 t.cxl p ≠ 0

theorem CxlFalls.rfl : CxlFalls s s := ⟨Eq.refl _, Eq.refl _, Nat.le_refl _, Eq.refl _, fun _ h => h⟩

theorem CxlFalls.trans (h : CxlFalls s t) (g : CxlFalls t u) : CxlFalls s u :=
  ⟨g.rnd.trans h.rnd, g.linkUp.trans h.linkUp, h.head.trans g.head, g.variant.trans h.variant, fun p hp => g.down p (h.down p hp)⟩

theorem linkDown_cxlFalls (p : Nat) : CxlFalls s (s.linkDown true p 0) := by
  unfold State.linkDown
  rw [if_pos rfl]
  split
  · exact .rfl
  · let u : State := { s with cxl := store 0 s.cxl p 1 }
    have hf : Fr 35651720 u (u.journal (linkEntry true p 0 Cls.recovered)) := journal_frame (Nat.or_self _) Fr.rfl
    refine ⟨hf.rnd_eq, (journal_winds Winds.rfl).linkUp, ?_, hf.same .variant (by decide), fun q hq => ?_⟩
    · rw [journal_head]
      exact Nat.le_succ _
    · rw [hf.cxl_eq]
      by_cases hqp : q = p
      · subst hqp
        rw [look_store_eq]
        exact Nat.one_ne_zero
      · rwa [look_store_ne _ _ _ hqp]

theorem linkDown_down {p : Nat} (h : hasCxl s p = true) : look 0 (s.linkDown true p 0).cxl p ≠ 0 := by
  unfold State.linkDown
  rw [if_pos rfl]
  split
  · next hdown => exact hdown.resolve_left (by simp [h])
  · rw [(journal_frame (Nat.or_self _) Fr.rfl).cxl_eq, look_store_eq]
    exact Nat.one_ne_zero

theorem hasCxl_of_variant {p : Nat} (h : t.variant = s.variant) : hasCxl t p = hasCxl s p := by simp only [hasCxl, h]

theorem refLost_falls (htimed : s.rnd.lidTimed = false) (hlink : s.host.linkUp = true) :
    let t := s.refLost
    t.rnd.lidTimed = true ∧ t.host.linkUp = false ∧ s.flt.head + 1 ≤ t.flt.head ∧ ∀ p, p < 4 → hasCxl s p = true → look 0 t.cxl p ≠ 0 := by
  let s1 : State := { s with rnd := { s.rnd with lidTimed := true, refBack := false } }
  let s2 := s1.journal { code := St.refclkLost, cls := Cls.info, blk := Blk.power }
  have hs2 : Fr 35651720 s1 s2 := journal_frame (Nat.or_self _) Fr.rfl
  have hs3 : Fr 35651724 s2 s2.dlDown := dlDown_frame (Nat.or_self _) Fr.rfl
  have hlink2 : s2.host.linkUp = true := (journal_winds Winds.rfl).linkUp.trans hlink
  have ht : s.refLost = s2.dlDown.each (List.range 4) fun p s => s.linkDown true p 0 := by
    unfold State.refLost
    rw [htimed]
    rfl
  have hall := each_rel (R := CxlFalls) (fun _ => .rfl) (fun h g => h.trans g) (fun p _ => linkDown_cxlFalls p) (List.range 4) s2.dlDown
  intro t
  rw [← ht] at hall
  have hvar : s2.dlDown.variant = s.variant := (hs3.same .variant (by decide)).trans (hs2.same .variant (by decide))
  refine ⟨?_, hall.linkUp.trans (dlDown_linkUp hlink2), ?_, fun p hp hcxl => ?_⟩
  · rw [hall.rnd, hs3.rnd_eq, hs2.rnd_eq]
  · refine Nat.le_trans (Nat.le_of_eq ?_) hall.head
    rw [dlDown_head]
    exact (journal_head (s := s1) _).symm
  · obtain ⟨u, hu, hres⟩ := each_once (R := CxlFalls) (d := p) (f := fun p s => s.linkDown true p 0) (fun _ => .rfl) (fun h g => h.trans g)
      (fun x _ _ => linkDown_cxlFalls x) List.nodup_range (List.mem_range.mpr hp) s2.dlDown
    rw [← ht] at hres
    exact hres.down p (linkDown_down ((hasCxl_of_variant (hu.variant.trans hvar)).trans hcxl))

/-! ### Raises and the thermal trip (R465, R480) -/

theorem vrcAck_runs {f : Nat} (h : (s.clk d).raiseTo = some f) : ((s.vrcAck d).clk d).freq = f ∧ ((s.vrcAck d).clk d).raiseTo = none ∧
    ((s.vrcAck d).clk d).vset = (s.clk d).vset := by
  have hp (u : State) := protectCheck_steady (s := u) (d := d) d 0
  have ht : s.vrcAck d = (s.modClk d fun c => { c with freq := f, raiseTo := none }).protectCheck d 0 := by
    unfold State.vrcAck
    rw [h]
  rw [ht]
  exact ⟨by rw [(hp _).freq, modClk_read], by rw [(hp _).raise, modClk_read], by rw [(hp _).vset, modClk_read]⟩

theorem vrcAckTimeout_eq {f : Nat} (hd : d < 4) (h : (s.clk d).raiseTo = some f) :
    exec (.vrcAckTimeout d) s = .next (s.modClk d fun c => { c with raiseTo := none }) := by
  have hok : okCd d = true := decide_eq_true hd
  show act (okCd d) s (s.vrcTimeout d) = _
  rw [hok]
  unfold State.vrcTimeout
  rw [h]
  rfl

/-- A halt's own marks, before the work is ended. -/
def State.haltMarks (code : Nat) (s : State) : State :=
  { s with flt := { s.flt with halted := true, code := code }, bud := { s.bud with isOpen := false, queue := [] },
           hoop := { s.hoop with bypassed := true, cause := 2 } }

theorem halt_winds {code blk unit : Nat} (h : s.flt.halted = false) : Winds (s.haltMarks code) (s.halt code blk unit) := by
  unfold State.halt
  rw [h]
  exact ((((journal_winds Winds.rfl).each fun _ _ ht => endCourse_winds ht).each fun _ _ ht => endSeq_winds ht).each fun _ _ ht =>
    closeJob_winds ht).each fun _ _ ht => endDescs_winds ht

theorem halt_hoop {code blk unit : Nat} (h : s.flt.halted = false) : (s.halt code blk unit).hoop = (s.haltMarks code).hoop := by
  have hf : Fr 35909000 (s.haltMarks code) (s.halt code blk unit) := by
    unfold State.halt
    rw [h]
    exact each_frame (fun _ _ h => endDescs_frame (by decide) h) (each_frame (fun _ _ h => closeJob_frame (by decide) h)
      (each_frame (fun _ _ h => endSeq_frame (by decide) h) (each_frame (fun _ _ h => endCourse_frame (by decide) h)
        (journal_frame (by decide) Fr.rfl))))
  exact hf.same .hoop (by decide)

theorem trip_halts {tj : Nat} (hhot : 110 ≤ tj) (hd : (poweredDies s).contains d = true) (hcool : s.pwr.thermTrip = false) :
    let t := s.trip d tj
    t.pwr.thermTrip = true ∧ t.flt.halted = true ∧ t.flt.code = St.thermalTrip ∧ t.bud.isOpen = false ∧ t.hoop.bypassed = true := by
  have hguard : ¬(tj < 110 ∨ (!(poweredDies s).contains d) = true ∨ s.pwr.thermTrip = true) := by
    rw [hd, hcool]
    simpa using hhot
  have hrun : (s.sawTj tj).flt.halted = false := running_of_powered hd
  obtain ⟨hopen, hhalted, hcode, -, -⟩ := halt_winds (code := St.thermalTrip) (blk := Blk.power) (unit := d) hrun
  unfold State.trip
  rw [if_neg hguard]
  exact ⟨rfl, hhalted, hcode, hopen, congrArg Hoop.bypassed (halt_hoop hrun)⟩

/-! ### Power states (R456 to R458) -/

theorem reach_pwr {p : PState} : (s.reach p).pwr = { s.pwr with state := p, target := none, note := none, exitUp := false } := by
  unfold State.reach
  dsimp only
  split
  · rfl
  · exact (finalRecord_frame (Nat.or_self _) Fr.rfl).pwr_eq

theorem reach_cells {p : PState} : (s.reach p).cells = s.cells := (reach_frame (Nat.or_self _) Fr.rfl).same .cells (by decide)

/-- A cell whose power is taken keeps its context and its failure, no course and no bytes. -/
theorem saveCells_empty : ∀ x ∈ s.saveCells.cells, x.2.course = none ∧ x.2.bank = [] ∧ x.2.table = [] := by
  intro x hx
  obtain ⟨y, -, rfl⟩ := List.mem_map.mp (List.mem_filter.mp hx).1
  exact ⟨rfl, rfl, rfl⟩

section
variable (hidle : s.crs.running = []) (hcells : ∀ x ∈ s.cells, x.2.f.running = false ∧ x.2.b.running = false)
  (hlater : s.pwr.since ≠ some s.rnd.num)
include hidle hcells hlater

theorem shelfEntry_quiet :
    ¬((!s.crs.running.isEmpty) = true ∨ (s.cells.any fun x => x.2.f.running || x.2.b.running) = true ∨ s.pwr.since = some s.rnd.num) := by
  rintro (h | h | h)
  · simp [hidle] at h
  · obtain ⟨x, hx, hrun⟩ := List.any_eq_true.mp h
    obtain ⟨hf, hb⟩ := hcells x hx
    simp [hf, hb] at hrun
  · exact hlater h

theorem shelfEntry_shelf (htarget : s.pwr.target = some .shelf) : s.shelfEntry = s.saveCells.reach .shelf := by
  unfold State.shelfEntry
  rw [if_neg (shelfEntry_quiet hidle hcells hlater), htarget]

theorem shelfEntry_d3hot (htarget : s.pwr.target = some .d3hot) : s.shelfEntry.pwr.state = .d3hot ∧ s.shelfEntry.pwr.target = none := by
  unfold State.shelfEntry
  rw [if_neg (shelfEntry_quiet hidle hcells hlater), htarget]
  exact ⟨rfl, rfl⟩

end

/-- On the way out of Shelf every fitted die's setpoint is sent again; the cells are restored later. -/
theorem shelfExitReady_sends {p : PState} (hshelf : s.pwr.state = .shelf) (htarget : s.pwr.target = some p) (hp : p ≠ .d3hot)
    (hdown : s.pwr.exitUp = false) (hd : d < 4) (hfit : hasCd s d = true) :
    let t := s.shelfExitReady
    t.pwr.exitUp = true ∧ t.pwr.state = .shelf ∧ .vrc (vrcFrame d (s.clk d).vset) ∈ t.out ∧ t.cells = s.cells := by
  let s1 : State := { s with pwr := { s.pwr with exitUp := true } }
  let dies := (List.range 4).filter fun d => hasCd s1 d
  have hguard : s.pwr.state = .shelf ∧ s.pwr.target.isSome = true ∧ s.pwr.target ≠ some .d3hot ∧ (!s.pwr.exitUp) = true := by
    rw [htarget, hdown]
    exact ⟨hshelf, rfl, fun h => hp (Option.some.inj h), rfl⟩
  have ht : s.shelfExitReady = s1.each dies fun d s => s.sendSetpoint d := if_pos hguard
  have hf : Fr 8 s1 s.shelfExitReady := ht ▸ each_frame (fun _ _ h => sendSetpoint_frame (Nat.or_self _) h) Fr.rfl
  have hpwr : s.shelfExitReady.pwr = s1.pwr := hf.pwr_eq
  have hmem : d ∈ dies := List.mem_filter.mpr ⟨List.mem_range.mpr hd, hfit⟩
  obtain ⟨u, hu, hsent⟩ := each_once (R := fun a b => b.pwr = a.pwr ∧ ∀ x ∈ a.out, x ∈ b.out) (d := d) (f := fun d s => s.sendSetpoint d)
    (fun _ => ⟨rfl, fun _ h => h⟩) (fun h g => ⟨g.1.trans h.1, fun x hx => g.2 x (h.2 x hx)⟩) (fun _ _ _ => ⟨rfl, fun _ => List.mem_cons_of_mem _⟩)
    (List.nodup_range.filter _) hmem s1
  rw [← ht] at hsent
  refine ⟨congrArg Pwr.exitUp hpwr, (congrArg Pwr.state hpwr).trans hshelf, hsent.2 _ ?_, hf.same .cells (by decide)⟩
  have hclk : u.clk d = s.clk d := clk_of_pwr (s := s1) d hu.1
  show Out.vrc (vrcFrame d (s.clk d).vset) ∈ Out.vrc (vrcFrame d (u.clk d).vset) :: u.out
  rw [hclk]
  exact List.mem_cons_self

theorem writeAllHeld_pwr (xs : List (Nat × Qp)) : (s.each xs fun q s => s.writeHeld q.1).pwr = s.pwr :=
  (each_frame (m := 2097288) (fun _ _ h => writeHeld_frame (Nat.or_self _) h) Fr.rfl).pwr_eq

theorem drainAllEvents_pwr (xs : List Nat) : (s.each xs fun fn s => s.drainEvents fn).pwr = s.pwr :=
  (each_frame (m := 2097288) (fun _ _ h => drainEvents_frame (Nat.or_self _) h) Fr.rfl).pwr_eq

theorem d0_stays (htarget : s.pwr.target = some .d3hot) (hbefore : s.pwr.before = s.pwr.state) : s.d0.pwr = { s.pwr with target := none } := by
  let s1 : State := { s with pwr := { s.pwr with target := none } }
  have ht : s.d0 = s1.each s.host.qps fun q s => s.writeHeld q.1 := by
    unfold State.d0
    rw [if_pos htarget, if_pos hbefore]
  rw [ht]
  exact writeAllHeld_pwr _

theorem d0_returns (hstate : s.pwr.state = .d3hot) (htarget : s.pwr.target = none) (hbefore : s.pwr.before ≠ .shelf) :
    s.d0.pwr = { s.pwr with state := .shelf, crossed := [], target := some s.pwr.before } := by
  let s1 : State := { s with pwr := { s.pwr with state := .shelf, crossed := [], target := some s.pwr.before } }
  let s2 := s1.each s.host.qps fun q s => s.writeHeld q.1
  have ht : s.d0 = s2.each (List.range (s2.host.numVf + 1)) fun fn s => s.drainEvents fn := by
    unfold State.d0
    rw [if_neg (by simp [htarget]), if_neg (by simp [hstate]), if_neg hbefore]
    rfl
  have hheld : s2.pwr = s1.pwr := writeAllHeld_pwr _
  rw [ht]
  exact (drainAllEvents_pwr _).trans hheld

/-- Settles O50: each event by what it does to the clock of one die, to a rail, and to the power state. -/
theorem powerAndClocks : Obligations.PowerAndClocks := by
  intro s d hd hfit c
  have hcd : okCd d = true := decide_eq_true hd
  have hrail : okRail d = true := decide_eq_true (by omega)
  refine ⟨fun rail mv hr h3 hlow hon hup => ?dip, fun hb hs => ⟨?recovered, fun mv hlow => ?stays⟩, fun htimed hlink => ?lost, fun htimed => ?back,
    fun m hcap hpow hmax hmin => ?loop, fun f hf => ⟨?ack, vrcAckTimeout_eq hd hf⟩, fun tj hhot hpow => ?thermal, fun w hw hpow => ?tdp,
    fun tj hhot hpow hcool => ?trip, fun hidle hcells hlater => ⟨fun htarget => ?shelf, fun htarget => ?d3hot⟩,
    fun p hshelf htarget hp hdown => ?exit, fun hd3 hrun => ?asked, fun htarget hbefore => ?stay, fun hstate htarget hbefore => ?d0⟩
  case dip =>
    obtain ⟨hsup, hvolt, hclk⟩ := dip_first h3 hlow hon hup
    refine answers_of_frame rfl (decide_eq_true hr) (dip_frame (Nat.or_self _) Fr.rfl) ⟨?_, ?_, hvolt, hclk⟩
    · rw [hsup, modSup_read]
      rfl
    · exact (congrArg (fun x => (look {} x rail).below) hsup).trans (congrArg Sup.below (modSup_read _ rail))
  case recovered => exact answers_of_frame rfl hrail (dipEnds_frame (Nat.or_self _) Fr.rfl) (dipEnds_runs hd hb hs)
  case stays => exact answers_of_frame rfl hrail (dipStays_frame (Nat.or_self _) Fr.rfl) (dipStays_lowers hd hb hs hlow)
  case lost => exact answers_of_frame rfl rfl (refLost_frame (Nat.or_self _) Fr.rfl) (refLost_falls htimed hlink)
  case back =>
    show act true s s.refBack = _
    unfold State.refBack
    rw [if_pos htimed]
    rfl
  case loop => exact answers_of_frame rfl rfl (clockLoop_frame (Nat.or_self _) Fr.rfl) (clockLoop_lowers hcap hpow hmax hmin)
  case ack => exact answers_of_frame rfl hcd (vrcAck_frame (Nat.or_self _) Fr.rfl) (vrcAck_runs hf)
  case thermal =>
    refine answers_of_frame rfl hcd (thermal_frame (Nat.or_self _) Fr.rfl) ?_
    obtain ⟨hclk, hrest⟩ := throttle_clk (s := s.sawTj tj) (d := d)
    rw [thermal_throttles hhot hpow, hrest]
    exact ⟨hclk, rfl⟩
  case tdp => exact answers_of_frame rfl rfl (overTdp_frame (Nat.or_self _) Fr.rfl) (overTdp_throttles hw hpow)
  case trip => exact answers_of_frame rfl hcd (trip_frame (Nat.or_self _) Fr.rfl) (trip_halts hhot hpow hcool)
  case shelf =>
    refine answers_of_frame rfl rfl (shelfEntry_frame (Nat.or_self _) Fr.rfl) ?_
    rw [shelfEntry_shelf hidle hcells hlater htarget, reach_pwr, reach_cells]
    exact ⟨rfl, rfl, saveCells_empty⟩
  case d3hot =>
    exact answers_of_frame rfl rfl (shelfEntry_frame (Nat.or_self _) Fr.rfl) (shelfEntry_d3hot hidle hcells hlater htarget)
  case exit =>
    exact answers_of_frame rfl rfl (shelfExitReady_frame (Nat.or_self _) Fr.rfl) (shelfExitReady_sends hshelf htarget hp hdown hd hfit)
  case asked =>
    show act true s s.d3hotAsked = _
    unfold State.d3hotAsked
    rw [hd3, hrun]
    rfl
  case stay =>
    refine answers_of_frame rfl rfl (d0_frame (Nat.or_self _) Fr.rfl) ?_
    rw [d0_stays htarget hbefore]
    exact ⟨rfl, rfl⟩
  case d0 =>
    refine answers_of_frame rfl rfl (d0_frame (Nat.or_self _) Fr.rfl) ?_
    rw [d0_returns hstate htarget hbefore]
    exact ⟨rfl, rfl, rfl⟩

end Sys2Proof.Machine
end

section
/-! PROOFS. SPDM sessions and the Lid's vendor-defined requests (R403 to R405, R408 to R411, R413, R419). -/

namespace Sys2Proof.Machine

-- One theorem after the other: as one text the files are near the memory limit of the check, and every thread that waits counts.
set_option Elab.async false

variable {s : State} {n : Nat}

/-! ### How a vendor-defined request is answered (R408) -/

section
variable {msg : Nat} {v : VSlot} {checks : List (Bool × Nat)} {eff : State → State}

theorem vendor_unauthenticated (h : (s.sess n).isOpen = false ∨ (s.sess n).mutAuth = false) :
    s.vendor n msg v checks eff = s.refuse.emit (.spdmError (some n)) :=
  if_pos (by rcases h with h | h <;> simp [h])

section
variable (ho : (s.sess n).isOpen = true) (ha : (s.sess n).mutAuth = true)
include ho ha

theorem vendor_refused {x : Bool × Nat} (hfind : checks.find? Prod.fst = some x) :
    s.vendor n msg v checks eff = s.refuse.emit (.spdm n msg x.2 v.num (v.gen s)) := by
  simp only [State.vendor, ho, ha, hfind]
  rfl

theorem vendor_passed (hpass : checks.find? Prod.fst = none) :
    s.vendor n msg v checks eff = (eff s).emit (.spdm n msg St.ok v.num (v.gen (eff s))) := by
  simp only [State.vendor, ho, ha, hpass]
  rfl

end

variable {c : Instr} {P : State → Prop} (hx : exec c s = act (okSess n) s (s.vendor n msg v checks eff)) (hn : n < 10)
include hx hn

theorem answers_unauthenticated (h : (s.sess n).isOpen = false ∨ (s.sess n).mutAuth = false)
    (hp : P (s.refuse.emit (.spdmError (some n)))) : Answers c s P := by
  rw [vendor_unauthenticated h] at hx
  exact ⟨_, hx.trans (act_ok (decide_eq_true hn) rfl rfl), hp⟩

variable (ho : (s.sess n).isOpen = true) (ha : (s.sess n).mutAuth = true)
include ho ha

theorem answers_refused {x : Bool × Nat} (hfind : checks.find? Prod.fst = some x)
    (hp : P (s.refuse.emit (.spdm n msg x.2 v.num (v.gen s)))) : Answers c s P := by
  rw [vendor_refused ho ha hfind] at hx
  exact ⟨_, hx.trans (act_ok (decide_eq_true hn) rfl rfl), hp⟩

theorem answers_carriedOut {m : Nat} (hpass : checks.find? Prod.fst = none) (hf : Fr m s (eff s))
    (hp : P ((eff s).emit (.spdm n msg St.ok v.num (v.gen (eff s)))))
    (hm : m.testBit Part.variant.code = false ∧ m.testBit Part.pending.code = false := by decide) : Answers c s P := by
  rw [vendor_passed ho ha hpass] at hx
  exact ⟨_, hx.trans (act_ok (decide_eq_true hn) (hf.same .variant hm.1) (hf.same .pending hm.2)), hp⟩

end

/-! ### What the requests set -/

/-- The operator anchor, measured when it changes. -/
def State.setAnchor (anchor : Option Nat) (s : State) : State :=
  if s.lid.anchor = anchor then s else ({ s with lid := { s.lid with anchor := anchor } }).measured

/-- The policy for CXL ports without IDE, measured when it changes. -/
def State.setPlainOk (b : Bool) (s : State) : State :=
  if s.lid.plainOk = b then s else ({ s with lid := { s.lid with plainOk := b } }).measured

/-- JTAG open, measured when it opens. -/
def State.unlockJtag (s : State) : State := if s.lid.jtag then s else ({ s with lid := { s.lid with jtag := true } }).measured

theorem setAnchor_frame {a : Option Nat} : Fr 16777216 s (s.setAnchor a) :=
  Fr_ite (fun _ => Fr.rfl) fun _ => measured_frame (by decide) (Fr_mk.mpr (Fr_lid (by decide) Fr.rfl))

theorem setPlainOk_frame {b : Bool} : Fr 16777216 s (s.setPlainOk b) :=
  Fr_ite (fun _ => Fr.rfl) fun _ => measured_frame (by decide) (Fr_mk.mpr (Fr_lid (by decide) Fr.rfl))

theorem unlockJtag_frame : Fr 16777216 s s.unlockJtag :=
  Fr_ite (fun _ => Fr.rfl) fun _ => measured_frame (by decide) (Fr_mk.mpr (Fr_lid (by decide) Fr.rfl))

theorem setAnchor_anchor (a : Option Nat) : (s.setAnchor a).lid.anchor = a := by
  unfold State.setAnchor
  split
  · assumption
  · rfl

theorem setPlainOk_lid (b : Bool) : (s.setPlainOk b).lid.plainOk = b ∧ (s.setPlainOk b).lid.anchor = s.lid.anchor := by
  unfold State.setPlainOk
  split
  · exact ⟨‹_›, rfl⟩
  · exact ⟨rfl, rfl⟩

theorem unlockJtag_jtag : s.unlockJtag.lid.jtag = true := by
  unfold State.unlockJtag
  split
  · assumption
  · rfl

theorem setLinkIde_lid (b : Bool) : (s.setLinkIde b).lid.linkIde = b ∧ (s.setLinkIde b).lid.jtag = s.lid.jtag := by
  unfold State.setLinkIde
  split
  · exact ⟨‹_›, rfl⟩
  · exact ⟨rfl, rfl⟩

/-- OPERATOR_SET's only check: the one who asks owns the anchor, or there is none. -/
def anchorChecks (s : State) (n : Nat) : List (Bool × Nat) :=
  [(!(s.lid.anchor.isNone || isOperator s (s.sess n).who), St.authorityMismatch)]

theorem anchorChecks_pass (h : s.lid.anchor = none ∨ isOperator s (s.sess n).who = true) : (anchorChecks s n).find? Prod.fst = none := by
  rcases h with h | h <;> simp [anchorChecks, h]

theorem operatorSet_nonzero {a : Nat} (ha : a ≠ 0) :
    s.operatorSet n a = s.vendor n 0x04 (.tenant 0) (anchorChecks s n) (State.setAnchor (some a)) := by
  unfold State.operatorSet
  simp only [if_neg ha, beq_false_of_ne ha, Bool.and_false, Bool.false_eq_true, if_false]
  rfl

/-- What a released context key sets: the slot, then the context with its first authority and the release's terms. -/
def State.tenantReleased (who : Nat) (r : KeyRel) (s : State) : State :=
  (({ s with lid := { s.lid with released := sat 16 (s.lid.released + 1) } }).modTkey r.target (KeySlot.release r)).modCtx r.target fun c =>
    { c with state := .active, auth := some (c.auth.getD who), dbg := r.dbg, prof := r.prof, hostWindow := r.hostWindow
             requireIde := r.requireIde, denyRoce := r.denyRoce }

theorem tenantReleased_tkey {who : Nat} {r : KeyRel} : (s.tenantReleased who r).tkey r.target = (s.tkey r.target).release r := by
  rw [State.tenantReleased, tkey_of_lid _ (modCtx_lid _ _ _), modTkey_read]
  rfl

theorem tenantReleased_ctx {who : Nat} {r : KeyRel} : (s.tenantReleased who r).ctx r.target =
    { s.ctx r.target with
        state := .active, auth := some ((s.ctx r.target).auth.getD who), dbg := r.dbg, prof := r.prof, hostWindow := r.hostWindow
        requireIde := r.requireIde, denyRoce := r.denyRoce } := by
  rw [State.tenantReleased, modCtx_read]
  rfl

theorem released_tenant {who : Nat} {r : KeyRel} (hk : r.kind = 0) : s.released who r = s.tenantReleased who r := by
  unfold State.released
  rw [hk]
  rfl

theorem releaseSlot_tenant {r : KeyRel} (hk : r.kind = 0) : releaseSlot r = .tenant r.target := by
  unfold releaseSlot
  rw [hk]
  rfl

theorem emit_ctx (o : Out) (c : Nat) : (s.emit o).ctx c = s.ctx c := rfl

/-! ### The queue pairs of a context that is removed (R415) -/

/-- A member of a list that brings `P` about, where all the others keep it, brings it about for the whole pass. -/
theorem each_reaches {α : Type} {P : State → Prop} {f : α → State → State} {x : α} (hx : ∀ t, P (f x t)) (hkeep : ∀ y t, P t → P (f y t))
    {xs : List α} (hmem : x ∈ xs) (s : State) : P (s.each xs f) := by
  have hall (ys : List α) (t : State) (h : P t) : P (t.each ys f) := by
    induction ys generalizing t with
    | nil => exact h
    | cons y ys ih => exact ih _ (hkeep y t h)
  induction xs generalizing s with
  | nil => exact absurd hmem List.not_mem_nil
  | cons y ys ih =>
    rcases List.mem_cons.mp hmem with rfl | hin
    · exact hall ys _ (hx s)
    · exact ih hin (f y s)

/-- A key whose value is not the default is listed with it. -/
theorem mem_of_look_ne {α : Type} {d : α} {t : Tab α} {k : Nat} (h : look d t k ≠ d) : (k, look d t k) ∈ t := by
  induction t with
  | nil => exact absurd rfl h
  | cons p r ih =>
    obtain ⟨j, w⟩ := p
    by_cases hj : j = k
    · simp [look, hj]
    · simp only [look, hj, if_false] at h ⊢
      exact List.mem_cons_of_mem _ (ih h)

theorem mem_queuesOf {q c : Nat} (hctx : (s.qp q).ctx = c) (hstate : (s.qp q).state ≠ .free) : q ∈ queuesOf s c := by
  have hlisted : (q, s.qp q) ∈ s.host.qps := mem_of_look_ne fun h => hstate (congrArg Qp.state h)
  exact List.mem_map.mpr ⟨_, List.mem_filter.mpr ⟨hlisted, by simp [hctx, hstate]⟩, rfl⟩

/-- A queue pair no longer serves: its context was removed, or it was closed. -/
def QueueGone (q : Nat) (s : State) : Prop := (s.qp q).state = .revoked ∨ (s.qp q).state = .free

theorem QueueGone.winds {q : Nat} {t : State} (h : QueueGone q s) (hw : Winds s t) : QueueGone q t := by
  rw [QueueGone, hw.states]
  exact h

theorem QueueGone.modQp {q k : Nat} {f : Qp → Qp} (h : QueueGone q s) (hf : ∀ x, (f x).state = .revoked ∨ (f x).state = .free) :
    QueueGone q (s.modQp k f) := by
  by_cases hq : q = k
  · subst hq
    rw [QueueGone, modQp_read]
    exact hf _
  · rw [QueueGone, modQp_read_ne _ _ _ hq]
    exact h

theorem revokeQueues_gone {q c : Nat} (hctx : (s.qp q).ctx = c) :
    QueueGone q (s.each (queuesOf s c) fun n s => s.modQp n fun q => { q with state := .revoked }) := by
  have hkeep (k : Nat) (t : State) (h : QueueGone q t) : QueueGone q (t.modQp k fun q => { q with state := .revoked }) :=
    h.modQp fun _ => .inl rfl
  by_cases hfree : (s.qp q).state = .free
  · exact each_rel (R := fun a b => QueueGone q a → QueueGone q b) (fun _ h => h) (fun h g x => g (h x)) hkeep _ s (.inr hfree)
  · refine each_reaches (x := q) (fun t => ?_) hkeep (mem_queuesOf hctx hfree) s
    rw [QueueGone, modQp_read]
    exact .inl rfl

theorem partials_frame (q reason : Nat) : Fr 262152 s (s.partials q reason) := by
  have hemit : Fr 262152 s (s.each (s.flow q).msgs fun m t => t.emit (partialDone q (s.flow q) m)) :=
    each_frame (fun _ _ h => emit_frame (by decide) h) Fr.rfl
  exact Fr_ite (fun _ => modPort_frame (by decide) hemit) fun _ => hemit

theorem QueueGone.closeFlow {q k reason : Nat} (h : QueueGone q s) : QueueGone q (s.closeFlow k reason) := by
  unfold State.closeFlow
  extract_lets f
  split
  · exact h
  · rw [endFlow_eq]
    have hsent : QueueGone q (s.waleOut f 6 { dstQpn := f.peerQpn, srcQpn := k, reason := reason }) := by
      rw [QueueGone, qp_of_host _ (waleOut_host 6)]
      exact h
    exact (hsent.winds (Winds.rfl.frame (partials_frame k reason)).step).modQp fun _ => .inr rfl

theorem QueueGone.closeKeyFlows {q key : Nat} (h : QueueGone q s) : QueueGone q (s.closeKeyFlows key) := by
  unfold State.closeKeyFlows
  split
  · exact h
  · exact each_rel (R := fun a b => QueueGone q a → QueueGone q b) (fun _ h => h) (fun h g x => g (h x)) (fun _ _ h => h.closeFlow) _ s h

theorem revokedEvent_qps (c : Nat) : (s.revokedEvent c).host.qps = s.host.qps := by
  unfold State.revokedEvent
  extract_lets fn e t
  split
  · exact event_qps _ e
  · exact (event_qps _ e).trans (event_qps _ e)

theorem startRemoval_queues {q c : Nat} (why : RemovalWhy) (hctx : (s.qp q).ctx = c) : QueueGone q (s.startRemoval c why) := by
  unfold State.startRemoval
  extract_lets key t1 held now owed t2 lid t3 t4 t5 t6 t7 t8 t9
  have ht4 : (t4.qp q).ctx = c := (congrArg (fun x => (look {} x q).ctx) (revokedEvent_qps (s := t3) c)).trans hctx
  have ht7 : QueueGone q t7 := (revokeQueues_gone ht4).winds (endMemWorks_winds (endWork_winds Winds.rfl))
  have ht8 : QueueGone q t8 := by
    cases howed : owed with
    | none => simpa only [t8, howed] using ht7
    | some m => simpa only [t8, howed] using ht7.winds (finalRecord_winds Winds.rfl)
  have ht9 : QueueGone q t9 := by
    dsimp only [t9]
    split
    · exact ht8
    · exact ht8.closeKeyFlows
  exact ht9.winds (Winds.rfl.each fun _ _ hu => startRemove_winds (hu.frame (modWeaver_frame (Nat.or_self _) Fr.rfl)))

/-! ### The reset that follows a cleared anchor -/

theorem coldStart_anchor (cls source : Nat) : (s.coldStart cls source).lid.anchor = s.lid.anchor := rfl

theorem coldStart_rst (cls source : Nat) :
    (s.coldStart cls source).rst = { cls := cls, source := source, running := false, perstLow := s.rst.perstLow } := rfl

theorem startRemoval_anchor (c : Nat) (why : RemovalWhy) : (s.startRemoval c why).lid.anchor = s.lid.anchor :=
  (congrArg Lid.anchor (startRemoval_frameEntered c why).lid_eq).trans rfl

theorem startRemovals_anchor (xs : List Nat) : (s.each xs fun c s => s.startRemoval c .lid).lid.anchor = s.lid.anchor := by
  induction xs generalizing s with
  | nil => rfl
  | cons c xs ih => exact (ih (s := s.startRemoval c .lid)).trans (startRemoval_anchor c .lid)

theorem lidReset_marks (c : LCause) :
    (s.lidReset c).lid.anchor = s.lid.anchor ∧ (s.lidReset c).rst.cls = 1 ∧ (s.lidReset c).rst.source = lidSource c := by
  unfold State.lidReset
  extract_lets tenants t1 t2 dark t3
  have ht1 : t1.lid.anchor = s.lid.anchor := startRemovals_anchor (s := s) tenants
  have hends : Fr 111411080 t1 t2 := endPending_frame (by decide) (endWork_frame (by decide) Fr.rfl)
  have hcold : t3 = t2.coldStart 1 (lidSource c) := rfl
  have ht3 : t3.lid.anchor = s.lid.anchor := by rw [hcold, coldStart_anchor, hends.lid_eq, ht1]
  have hrst : t3.rst.cls = 1 ∧ t3.rst.source = lidSource c := by
    rw [hcold, coldStart_rst]
    exact ⟨rfl, rfl⟩
  clear_value t3
  split <;> exact ⟨ht3, hrst⟩

/-- A command's answer by what it leaves apart from the variant and the waiting commands, which `act` puts back. -/
theorem answers_of_act {c : Instr} {ok : Bool} {t : State} {P : State → Prop} (hx : exec c s = act ok s t) (hok : ok = true)
    (hp : P { t with variant := s.variant, pending := s.pending }) : Answers c s P :=
  ⟨_, hx.trans (if_pos hok), hp⟩

/-- OPERATOR_SET with zero clears the anchor and resets the Lid. -/
theorem operatorSet_zero (ho : (s.sess n).isOpen = true) (ha : (s.sess n).mutAuth = true) (hop : isOperator s (s.sess n).who = true) :
    s.operatorSet n 0 = ((s.setAnchor none).emit (.spdm n 0x04 St.ok 0 (genShown (s.setAnchor none) ((s.setAnchor none).tkey 0)))).lidReset
      .operatorCleared := by
  have hv := vendor_passed (v := .tenant 0) (msg := 0x04) (eff := State.setAnchor none) ho ha (anchorChecks_pass (.inr hop))
  unfold State.operatorSet
  simp only [ho, ha, hop, Bool.or_true, Bool.and_self, beq_self_eq_true, if_true]
  refine congrArg (State.lidReset .operatorCleared) (Eq.trans ?_ hv)
  simp only [anchorChecks, hop, Bool.or_true]
  rfl

theorem operatorSet_zero_marks (ho : (s.sess n).isOpen = true) (ha : (s.sess n).mutAuth = true) (hop : isOperator s (s.sess n).who = true) :
    (s.operatorSet n 0).lid.anchor = none ∧ (s.operatorSet n 0).rst.cls = 1 ∧ (s.operatorSet n 0).rst.source = 0x11 := by
  rw [operatorSet_zero ho ha hop]
  obtain ⟨hanchor, hcls, hsource⟩ := lidReset_marks (s := (s.setAnchor none).emit (.spdm n 0x04 St.ok 0
    (genShown (s.setAnchor none) ((s.setAnchor none).tkey 0)))) .operatorCleared
  refine ⟨?_, hcls, hsource⟩
  rw [hanchor, emit_lid, setAnchor_anchor]

/-! ### Sessions (R405) -/

/-- The session that KEY_EXCHANGE takes is the first free one of its transport. -/
theorem firstFree_eq {doe : Bool} {k : Nat} (hk : if doe then k < 8 else 8 ≤ k ∧ k < 10)
    (hbefore : ∀ i, i < k → (doe = true ∨ 8 ≤ i) → (s.sess i).isOpen = true) (hfree : (s.sess k).isOpen = false) :
    (((List.range 10).filter fun n => (n < 8) = doe).find? fun n => !(s.sess n).isOpen) = some k := by
  rw [List.find?_filter, List.find?_range_eq_some]
  cases doe
  · obtain ⟨h8, h10⟩ : 8 ≤ k ∧ k < 10 := hk
    refine ⟨by simp [hfree, h8], List.mem_range.mpr h10, fun j hj => ?_⟩
    by_cases hj8 : 8 ≤ j
    · simp [hbefore j hj (.inr hj8)]
    · simp [Nat.not_le.mp hj8]
  · have h8 : k < 8 := hk
    refine ⟨by simp [hfree, h8], List.mem_range.mpr (by omega), fun j hj => ?_⟩
    simp [hbefore j hj (.inl rfl)]

/-- A refused request counts, answers, and leaves the Lid's state, the contexts and the memory as they are. -/
def LidRefuses (s : State) (o : Out) (t : State) : Prop :=
  t.lid.refused = sat 16 (s.lid.refused + 1) ∧ t.out = o :: s.out ∧ t.lid.tenant = s.lid.tenant ∧ t.lid.anchor = s.lid.anchor ∧
    t.lid.jtag = s.lid.jtag ∧ t.ctxs = s.ctxs ∧ t.mem = s.mem

theorem refuse_lidRefuses (o : Out) : LidRefuses s o (s.refuse.emit o) := ⟨rfl, rfl, rfl, rfl, rfl, rfl, rfl⟩

/-- Outside a session with mutual authentication every vendor-defined request is refused. -/
theorem requests_refused (hn : n < 10) (h : (s.sess n).isOpen = false ∨ (s.sess n).mutAuth = false) :
    (∀ c ∈ ([.keyRevoke n 1, .consentSet n 1 true true, .operatorSet n 1, .policySet n true, .debugUnlock n] : List Instr),
      Answers c s (LidRefuses s (.spdmError (some n)))) ∧ ∀ r, Answers (.keyRelease n r) s (LidRefuses s (.spdmError (some n))) := by
  have hp := refuse_lidRefuses (s := s) (.spdmError (some n))
  refine ⟨fun c hc => ?_, fun r => answers_unauthenticated rfl hn h hp⟩
  simp only [List.mem_cons, List.not_mem_nil, or_false] at hc
  rcases hc with rfl | rfl | rfl | rfl | rfl
  · exact answers_unauthenticated rfl hn h hp
  · exact answers_unauthenticated rfl hn h hp
  · exact answers_unauthenticated (congrArg (act (okSess n) s) (operatorSet_nonzero Nat.one_ne_zero)) hn h hp
  · exact answers_unauthenticated rfl hn h hp
  · exact answers_unauthenticated rfl hn h hp

section
variable (hn : n < 10) (ho : (s.sess n).isOpen = true) (ha : (s.sess n).mutAuth = true)
include hn ho ha

theorem keyRelease_tenant {r : KeyRel} (hpass : (releaseChecks s (s.sess n).who r).find? Prod.fst = none) (hk : r.kind = 0) :
    Answers (.keyRelease n r) s fun t =>
      (t.tkey r.target).state = .live ∧ (t.tkey r.target).keyId = r.keyId ∧ (t.tkey r.target).key = r.key ∧
      (t.ctx r.target).state = .active ∧ (t.ctx r.target).auth = some ((s.ctx r.target).auth.getD (s.sess n).who) ∧
      (t.ctx r.target).requireIde = r.requireIde ∧ t.lid.released = sat 16 (s.lid.released + 1) ∧
      t.out = .spdm n 0x01 St.ok r.target (genShown t (t.tkey r.target)) :: s.out := by
  refine answers_carriedOut rfl hn ho ha hpass (released_frame (Nat.or_self _) Fr.rfl) ?_
  simp only [releaseSlot_tenant hk, released_tenant hk]
  have hkey := tenantReleased_tkey (s := s) (who := (s.sess n).who) (r := r)
  have hctx := tenantReleased_ctx (s := s) (who := (s.sess n).who) (r := r)
  exact ⟨congrArg KeySlot.state hkey, congrArg KeySlot.keyId hkey, congrArg KeySlot.key hkey, congrArg Ctx.state hctx, congrArg Ctx.auth hctx,
    congrArg Ctx.requireIde hctx, rfl, rfl⟩

theorem keyRevoke_removes {c : Nat} (hlo : 1 ≤ c) (hhi : c ≤ 4095) (hact : ctxActive s c = true)
    (hwho : isAuthority s c (s.sess n).who = true ∨ isOperator s (s.sess n).who = true) :
    Answers (.keyRevoke n c) s fun t =>
      (t.ctx c).state = .revoking ∧ (t.tkey c).state = .revoked ∧ (t.tkey c).gen = ((s.tkey c).gen + 1) % 65536 ∧
      ∀ q, (s.qp q).ctx = c → (t.qp q).state = .revoked ∨ (t.qp q).state = .free := by
  have hf := startRemoval_frameEntered (s := s) c .revoke
  have hpass : ([(c == 0 || decide (4095 < c) || !ctxActive s c, St.targetInvalid),
      (!(isAuthority s c (s.sess n).who || isOperator s (s.sess n).who), St.authorityMismatch)].find? Prod.fst) = none := by
    have hc : (c == 0 || decide (4095 < c) || !ctxActive s c) = false := by simp [hact, Nat.not_lt.mpr hhi, Nat.ne_of_gt hlo]
    rcases hwho with h | h <;> simp [hc, h]
  refine answers_carriedOut rfl hn ho ha hpass (startRemoval_frame (Nat.or_self _) Fr.rfl) ?_
  have hctx : (s.startRemoval c .revoke).ctx c = (s.enterRemoval c .revoke).ctx c := ctx_of_ctxs c hf.ctxs_eq
  have hkey : (s.startRemoval c .revoke).tkey c = (s.enterRemoval c .revoke).tkey c := tkey_of_lid c hf.lid_eq
  rw [enterRemoval_ctx] at hctx
  rw [enterRemoval_tkey] at hkey
  exact ⟨congrArg Ctx.state hctx, congrArg KeySlot.state hkey, congrArg KeySlot.gen hkey, fun q hq => startRemoval_queues .revoke hq⟩

theorem consentSet_sets {c : Nat} {dbg prof : Bool} (hlo : 1 ≤ c) (hhi : c < 4096) (hwho : isAuthority s c (s.sess n).who = true) :
    Answers (.consentSet n c dbg prof) s fun t => t.ctx c = { s.ctx c with dbg := dbg, prof := prof } ∧ ∀ k, k ≠ c → t.ctx k = s.ctx k := by
  refine answers_carriedOut rfl hn ho ha (m := 8388608) ?_ (modCtx_frame (by decide) Fr.rfl) ⟨?_, fun k hk => ?_⟩
  · simp [Nat.ne_of_gt hlo, hhi, hwho]
  · rw [emit_ctx, modCtx_read]
  · rw [emit_ctx, modCtx_read_ne _ _ _ hk]

theorem operatorSet_sets {a : Nat} (h0 : a ≠ 0) (hown : s.lid.anchor = none ∨ isOperator s (s.sess n).who = true) :
    Answers (.operatorSet n a) s fun t => t.lid.anchor = some a ∧ t.mem = s.mem :=
  answers_carriedOut (congrArg (act (okSess n) s) (operatorSet_nonzero h0)) hn ho ha (anchorChecks_pass hown) setAnchor_frame
    ⟨setAnchor_anchor _, setAnchor_frame.mem_eq⟩

variable (hop : isOperator s (s.sess n).who = true)
include hop

theorem operatorSet_clears : Answers (.operatorSet n 0) s fun t => t.lid.anchor = none ∧ t.rst.cls = 1 ∧ t.rst.source = 0x11 := by
  have hx : exec (.operatorSet n 0) s = act (okSess n) s (s.operatorSet n 0) := rfl
  have hmarks := operatorSet_zero_marks ho ha hop
  generalize s.operatorSet n 0 = t at hx hmarks
  exact answers_of_act hx (decide_eq_true hn) hmarks

theorem policySet_sets (b : Bool) : Answers (.policySet n b) s fun t => t.lid.plainOk = b ∧ t.lid.anchor = s.lid.anchor := by
  have hx : exec (.policySet n b) s = act (okSess n) s (s.vendor n 0x05 (.tenant 0) [(!isOperator s (s.sess n).who, St.authorityMismatch)]
      (State.setPlainOk b)) := rfl
  exact answers_carriedOut hx hn ho ha (by simp [hop]) setPlainOk_frame (setPlainOk_lid b)

theorem debugUnlock_opens (hagreed : (s.lid.tenant.all fun p => p.1 == 0 || p.2.state != .live || (s.ctx p.1).dbg) = true) :
    Answers (.debugUnlock n) s fun t => t.lid.jtag = true := by
  have hx : exec (.debugUnlock n) s = act (okSess n) s (s.vendor n 0x06 (.tenant 0) [(!isOperator s (s.sess n).who, St.authorityMismatch),
      (!s.lid.tenant.all fun p => p.1 == 0 || p.2.state != .live || (s.ctx p.1).dbg, St.consentRequired)] State.unlockJtag) := rfl
  refine answers_carriedOut hx hn ho ha ?_ unlockJtag_frame unlockJtag_jtag
  simp only [hop, hagreed]
  rfl

end

/-! ### Measurements and sessions (R403 to R405) -/

theorem getMeasurements_eq (hn : n < 10) (ho : (s.sess n).isOpen = true) (hready : s.lid.ready = true) {i : Nat} (hi : i ≤ 9) :
    exec (.getMeasurements n i) s = .next (s.sendMeas n i (if i = 0 then [9] else measBytes s i)) := by
  have ht : s.getMeasurements n i = s.sendMeas n i (if i = 0 then [9] else measBytes s i) := by
    unfold State.getMeasurements
    rw [ho, hready, if_neg (by decide), if_neg (show i ≠ 0xFF by omega), if_pos hi]
    split <;> rename_i h0
    · rw [h0]
    · rfl
  show act (okSess n) s (s.getMeasurements n i) = _
  rw [ht]
  exact act_ok (decide_eq_true hn) rfl rfl

theorem keyExchange_opens {doe auth : Bool} {k id : Nat} (hk : if doe then k < 8 else 8 ≤ k ∧ k < 10)
    (hbefore : ∀ i, i < k → (doe = true ∨ 8 ≤ i) → (s.sess i).isOpen = true) (hfree : (s.sess k).isOpen = false) :
    let t := s.keyExchange doe auth id
    t.sess k = { isOpen := true, doe := doe, who := id, mutAuth := auth } ∧ t.out = .keyExchange k (signed s [k, id]) :: s.out ∧
      ∀ i, i ≠ k → t.sess i = s.sess i := by
  intro t
  let opened : Sess := { isOpen := true, doe := doe, who := id, mutAuth := auth }
  have ht : t = ({ s with lid := { s.lid with sess := store {} s.lid.sess k opened } }).emit (.keyExchange k (signed s [k, id])) := by
    show State.keyExchange doe auth id s = _
    unfold State.keyExchange
    rw [firstFree_eq hk hbefore hfree]
  have hsess (i : Nat) : t.sess i = look {} (store {} s.lid.sess k opened) i := by
    rw [ht]
    rfl
  refine ⟨?_, by rw [ht]; rfl, fun i hi => ?_⟩
  · rw [hsess, look_store_eq]
  · rw [hsess, look_store_ne _ _ _ hi]
    rfl

/-- Settles O51: each request by the answer of its checks, then sessions, measurements, IDE and JTAG. -/
theorem lidRequests : Obligations.LidRequests := by
  intro s n hn who refused
  have hok : okSess n = true := decide_eq_true hn
  refine ⟨requests_refused hn, fun ho ha => ⟨fun r x hx => answers_refused rfl hn ho ha hx (refuse_lidRefuses _),
      fun r hpass hk => keyRelease_tenant hn ho ha hpass hk, fun c hlo hhi hact hwho => keyRevoke_removes hn ho ha hlo hhi hact hwho,
      fun c dbg prof hlo hhi hwho => consentSet_sets hn ho ha hlo hhi hwho, fun a h0 hown => operatorSet_sets hn ho ha h0 hown,
      fun hop => ⟨operatorSet_clears hn ho ha hop, policySet_sets hn ho ha hop, debugUnlock_opens hn ho ha hop⟩⟩,
    fun ho hready i hlo hhi => ⟨?block, getMeasurements_eq hn ho hready (Nat.zero_le 9)⟩, fun ho hdoe => ?ide, ?insecure,
    fun b => act_ok rfl rfl rfl, ?heartbeat, fun doe auth k id hk hbefore hfree => ?exchange⟩
  case block =>
    rw [getMeasurements_eq hn ho hready hhi, if_neg (Nat.ne_of_gt hlo)]
    rfl
  case ide =>
    have ht : s.ideKm n 0 = s.setLinkIde true := by
      unfold State.ideKm
      rw [ho, hdoe]
      rfl
    refine answers_of_frame (ok := okSess n && okSel 0) rfl (by rw [hok]; rfl) (ideKm_frame (Nat.or_self _) Fr.rfl) ?_
    rw [ht]
    exact setLinkIde_lid true
  case insecure =>
    have hf : Fr 16777216 s (s.setLinkIde false) := setLinkIde_frame (Nat.or_self _) Fr.rfl
    exact answers_of_frame rfl rfl hf ⟨(setLinkIde_lid false).1, hf.host_eq⟩
  case heartbeat =>
    exact answers_of_frame rfl hok (closeSpdm_frame (Nat.or_self _) Fr.rfl) ⟨look_drop_eq _ _ _, fun k hk => look_drop_ne _ _ hk⟩
  case exchange => exact answers_of_frame rfl rfl (keyExchange_frame (Nat.or_self _) Fr.rfl) (keyExchange_opens hk hbefore hfree)

end Sys2Proof.Machine
end

section
/-! PROOFS. Writes to the ROUND and BUDGET regions through a virtual function (R33). -/

namespace Sys2Proof.Machine

-- One theorem after the other: as one text the files are near the memory limit of the check, and every thread that waits counts.
set_option Elab.async false

variable {s : State} {fn : Nat}

/-- A row that writes to the ROUND or BUDGET region through a virtual function, in 32 bits or 64, counts as a reserved access. -/
theorem exec_virtualFunctionWrite {c : Instr} {off : Nat} {wide : Bool} {v : BitVec 64} (hfn : 1 ≤ fn) (hl : barLive s fn = true)
    (hlo : 0x10000 ≤ off) (hhi : off < 0x30000) (hc : barWriteOf c = some (fn, off, wide, v) ∧ c.wf = true) :
    exec c s = .next s.reserved := by
  rw [exec_barWriteOf hc.1 hc.2]
  cases wide with
  | false => rw [barAccess_narrow hl]
  | true => rw [barAccess_live hl, barWrite_dropped _ (.inr (.inl ⟨by omega, .inr ⟨by omega, hlo, by omega⟩⟩))]

/-- Settles O10: every row of the two regions is one write to BAR0, which reaches no register of a virtual function. -/
theorem virtualFunctionWritesDropped : Obligations.VirtualFunctionWritesDropped := by
  refine fun s fn off wide v h1 hfn hl hlo hhi => ⟨?offset, fun c hc => ?round, fun k hk => ?share⟩
  case offset => exact exec_virtualFunctionWrite h1 hl hlo hhi ⟨rfl, wf_of_fn hfn (decide_eq_true (by omega))⟩
  case round =>
    have hw : okFn fn = true := decide_eq_true hfn
    simp only [List.mem_cons, List.not_mem_nil, or_false] at hc
    obtain rfl | rfl | rfl | rfl | rfl := hc
    all_goals exact exec_virtualFunctionWrite h1 hl (by decide) (by decide) ⟨rfl, hw⟩
  case share => exact exec_virtualFunctionWrite h1 hl (by omega) (by omega) ⟨rfl, wf_of_fn hfn (decide_eq_true hk)⟩

end Sys2Proof.Machine
end

section
/-! PROOFS. The state after reset (R37, R389, R449, R450): a table that reset leaves empty reads as its default at every key. -/

namespace Sys2Proof.Machine

-- One theorem after the other: as one text the files are near the memory limit of the check, and every thread that waits counts.
set_option Elab.async false

/-- A table that lists key 0 alone reads its default at every other key. -/
theorem look_singleton {α : Type} (d v : α) (k : Nat) : look d [(0, v)] k = if k = 0 then v else d := by
  simp only [look, eq_comm]

theorem reset_share (c : Nat) : look ({} : Cost) State.reset.bud.share c =
    if c = 0 then ⟨1000, 1000, 1000⟩ else if c = 6 ∨ c = 7 then ⟨12, 12, 12⟩ else ⟨0, 0, 0⟩ := by
  show look ({} : Cost) resetShares c = _
  simp only [resetShares, look]
  grind

theorem reset_ctx_state (c : Nat) : (State.reset.ctx c).state = if c = 0 then .active else .free := by
  rw [State.ctx, State.reset, look_singleton, apply_ite Ctx.state]

theorem reset_chanState (ch : Nat) : chanState (State.reset.chan ch) = if ch = 0 then Ch.idle else Ch.unassigned := by
  rw [State.chan, State.reset, look_singleton, apply_ite chanState]
  rfl

theorem reset_tkey_state (n : Nat) : (State.reset.tkey n).state = if n = 0 then .live else .empty := by
  rw [State.tkey, State.reset, look_singleton, apply_ite KeySlot.state]

/-- Settles O2: the tables that list something after reset by their one listed key, and the rest by what `State.reset` gives. -/
theorem resetState : Obligations.ResetState := by
  refine ⟨rfl, rfl, rfl, rfl, rfl, rfl, rfl, rfl, rfl, rfl, rfl, rfl, reset_share, rfl, fun _ => rfl, rfl, reset_ctx_state, reset_chanState,
    fun _ => rfl, reset_tkey_state, fun _ => rfl, fun _ => rfl, fun _ => rfl, fun _ => ⟨rfl, rfl⟩, fun _ _ => ⟨rfl, rfl⟩, rfl, rfl, rfl, rfl, rfl,
    rfl, rfl⟩

end Sys2Proof.Machine
end

section
/-! PROOFS. Instruction issue: what a stream that retires, a plan violation and the end of a block leave of the cells, the courses and the fault
journal (R56, R70, R71), and from these the statements about words that a role does not enable and about the sync instructions. -/

namespace Sys2Proof.Machine

-- One theorem after the other: as one text the files are near the memory limit of the check, and every thread that waits counts.
set_option Elab.async false

variable {s : State} {opc lc : Nat} {st : Strm} {f : CellWord} {p : Site}

/-- A fold keeps what each of its steps keeps. -/
theorem foldl_keeps {α β γ : Type} (g : β → γ) {k : β → α → β} (hk : ∀ b a, g (k b a) = g b) (xs : List α) (b : β) : g (xs.foldl k b) = g b := by
  induction xs generalizing b with
  | nil => rfl
  | cons x xs ih => exact (ih _).trans (hk b x)

/-- A fold stands in every reflexive and transitive relation in which each of its steps stands. -/
theorem foldl_rel {α β : Type} {R : β → β → Prop} (hrefl : ∀ b, R b b) (htrans : ∀ {a b c}, R a b → R b c → R a c) {k : β → α → β}
    (hk : ∀ b x, R b (k b x)) (xs : List α) (b : β) : R b (xs.foldl k b) := by
  induction xs generalizing b with
  | nil => exact hrefl b
  | cons x xs ih => exact htrans (hk b x) (ih _)

/-! ### Streams -/

theorem Fr.cells_eq {m : Nat} {o s : State} (h : Fr m o s) (hb : m.testBit Part.cells.code = false := by decide) : s.cells = o.cells :=
  h.same .cells hb

theorem Fr.crs_eq {m : Nat} {o s : State} (h : Fr m o s) (hb : m.testBit Part.crs.code = false := by decide) : s.crs = o.crs :=
  h.same .crs hb

theorem stream_of_cells {t : State} (h : t.cells = s.cells) (lc : Nat) (st : Strm) : t.stream lc st = s.stream lc st := by
  rw [stream_eq, stream_eq, cell_of_cells _ h]

theorem cell_modStream (lc : Nat) (st : Strm) (g : StreamS → StreamS) (j : Nat) :
    (s.modStream lc st g).cell j = if j = lc then (s.cell j).modStream st g else s.cell j := by
  unfold State.modStream
  split
  · next h => rw [h, modCell_read]
  · next h => rw [modCell_read_ne _ _ _ h]

theorem cell_modStream_ne (st : Strm) (g : StreamS → StreamS) {j : Nat} (h : j ≠ lc) : (s.modStream lc st g).cell j = s.cell j := by
  rw [cell_modStream, if_neg h]

theorem bank_modStream (lc : Nat) (st : Strm) (g : StreamS → StreamS) (j : Nat) : ((s.modStream lc st g).cell j).bank = (s.cell j).bank := by
  rw [cell_modStream, apply_ite Cell.bank, modStream_bank, ite_self]

theorem stream_modStream (lc : Nat) (st : Strm) (g : StreamS → StreamS) (j : Nat) (u : Strm) :
    (s.modStream lc st g).stream j u = if j = lc ∧ u = st then g (s.stream j u) else s.stream j u := by
  rw [stream_eq, stream_eq, cell_modStream]
  by_cases hj : j = lc
  · rw [if_pos hj]
    cases u <;> cases st <;> simp [hj, Cell.modStream, Cell.stream]
  · rw [if_neg hj, if_neg fun h => hj h.1]

@[simp] theorem stream_modStream_self (lc : Nat) (st : Strm) (g : StreamS → StreamS) : (s.modStream lc st g).stream lc st = g (s.stream lc st) := by
  rw [stream_modStream, if_pos ⟨rfl, rfl⟩]

theorem cell_retire (n j : Nat) : (s.retire p n).cell j = if j = p.lc then (s.cell j).past p.st n else s.cell j := cell_modStream ..

theorem cell_retire_ne (n : Nat) {j : Nat} (h : j ≠ p.lc) : (s.retire p n).cell j = s.cell j := cell_modStream_ne _ _ h

theorem bank_retire (n j : Nat) : ((s.retire p n).cell j).bank = (s.cell j).bank := bank_modStream ..

@[simp] theorem stream_retire (n : Nat) :
    (s.retire p n).stream p.lc p.st = { s.stream p.lc p.st with off := (s.stream p.lc p.st).off + 1, cycles := (s.stream p.lc p.st).cycles + n } :=
  stream_modStream_self ..

/-- An instruction that stands at its stream's place answers what its body gives. -/
theorem issue_answers_of_frame {c : Instr} {body : Site → State → Option State} {t : State} {P : State → Prop} {m : Nat}
    (hx : exec c s = act (okCell lc) s (s.issue opc lc st f body)) (ha : opAssigned opc = true) (h : Stands opc lc st f p s)
    (hb : body p s = some t) (hf : Fr m s t) (hP : P t)
    (hm : m.testBit Part.variant.code = false ∧ m.testBit Part.pending.code = false := by decide) : Answers c s P :=
  issue_answers hx ha h hb (hf.same .variant hm.1) (hf.same .pending hm.2) hP

/-! ### Courses -/

theorem course_id {k : Nat} {c : Course} (h : s.course k = some c) : c.id = k := by
  simpa using List.find?_some h

theorem course_modCourse {g : Course → Course} (hid : ∀ c, (g c).id = c.id) (k j : Nat) :
    (s.modCourse k g).course j = (s.course j).map fun c => if c.id == k then g c else c := by
  show List.find? _ (List.map _ _) = _
  rw [List.find?_map]
  congr 2
  funext c
  simp only [Function.comp_apply]
  split
  · rw [hid]
  · rfl

/-- A course that a plan violation has marked (R56). -/
def CourseViolated (k : Nat) (t : State) : Prop := ∃ c, t.course k = some c ∧ c.violated = true

theorem CourseViolated.of_crs {k : Nat} {t : State} (h : CourseViolated k s) (ht : t.crs = s.crs) : CourseViolated k t := by
  obtain ⟨c, hc, hv⟩ := h
  exact ⟨c, (course_of_crs _ ht).trans hc, hv⟩

theorem CourseViolated.modCourse {k j : Nat} {g : Course → Course} (h : CourseViolated k s) (hid : ∀ c, (g c).id = c.id) (hv : ∀ c, (g c).violated = c.violated) :
    CourseViolated k (s.modCourse j g) := by
  obtain ⟨c, hc, hm⟩ := h
  refine ⟨if c.id == j then g c else c, by rw [course_modCourse hid, hc]; rfl, ?_⟩
  rw [apply_ite Course.violated, hv, ite_self, hm]

/-- The mark of a violation on a course that runs. -/
theorem marked_modCourse {c : Course} (hc : s.course c.id = some c) : CourseViolated c.id (s.modCourse c.id fun c => { c with violated := true }) := by
  refine ⟨{ c with violated := true }, ?_, rfl⟩
  rw [course_modCourse (g := fun c => { c with violated := true }) (fun _ => rfl), hc]
  simp

theorem CourseViolated.checkSegment {k : Nat} (h : CourseViolated k s) (j : Nat) : CourseViolated k (s.checkSegment j) := by
  unfold State.checkSegment
  split
  · exact h
  · split
    · exact h.modCourse (fun _ => rfl) fun _ => rfl
    · exact h

/-! ### Plan violations (R56) -/

theorem cell_violation (j : Nat) : (s.violation p).cell j = if j = p.lc then (s.cell j).past p.st 1 else s.cell j := by
  unfold State.violation
  rw [cell_retire, cell_of_cells _ ((modCourse_cells ..).trans (journal_cells ..))]

theorem violation_flt : (s.violation p).flt = (s.journal (p.entry Cls.workEnded)).flt := rfl

theorem violation_mem : (s.violation p).mem = s.mem := (violation_frame (Nat.or_self _) Fr.rfl).mem_eq

theorem stream_violation (j : Nat) (u : Strm) : (s.violation p).stream j u =
    if j = p.lc ∧ u = p.st then { s.stream j u with off := (s.stream j u).off + 1, cycles := (s.stream j u).cycles + 1 } else s.stream j u := by
  unfold State.violation State.retire
  rw [stream_modStream, stream_of_cells ((modCourse_cells ..).trans (journal_cells ..))]

theorem violation_marked (hc : s.course p.course.id = some p.course) : CourseViolated p.course.id (s.violation p) := by
  have hcrs : (s.journal (p.entry Cls.workEnded)).crs = s.crs := (journal_frame (Nat.or_self _) Fr.rfl).crs_eq
  exact (marked_modCourse ((course_of_crs _ hcrs).trans hc)).of_crs rfl

/-- A word that the role does not enable is answered by a plan violation. -/
theorem wrongRole_answers {c : Instr} {body : Site → State → Option State} (hx : exec c s = act (okCell lc) s (s.issue opc lc st f body))
    (ha : opAssigned opc = true) (hlc : lc < 960) (hs : siteAt s lc st opc f = some p) (hw : wordAt s lc st = some (encWord opc f))
    (hr : roleTakes (roleOf s lc) opc = false) :
    Answers c s fun t => Retired lc st 1 s t ∧ t.mem = s.mem ∧
      (∀ j, (t.cell j).bank = (s.cell j).bank ∧ (t.cell j).vregs = (s.cell j).vregs ∧ (t.cell j).slots = (s.cell j).slots) ∧
      t.flt.head = s.flt.head + 1 ∧ (look {} t.flt.ring ((s.flt.head + 1) % 4096)).code = St.planViolation ∧
      (look {} t.flt.ring ((s.flt.head + 1) % 4096)).unit = lc ∧ ∃ c, t.course p.course.id = some c ∧ c.violated = true := by
  obtain ⟨rfl, rfl, -, -, -, -, -, hco⟩ := siteAt_some hs
  rw [issue_wrongRole body ha hs hw hr] at hx
  refine answers_of_frame hx (decide_eq_true hlc) (violation_frame (Nat.or_self _) Fr.rfl)
    ⟨?retired, violation_mem, fun j => ?cell, ?head, ?code, ?unit, violation_marked hco⟩
  case retired =>
    rw [Retired, stream_violation, if_pos ⟨rfl, rfl⟩]
    exact ⟨rfl, rfl⟩
  case cell =>
    rw [cell_violation]
    split
    · exact ⟨modStream_bank .., modStream_vregs .., modStream_slots ..⟩
    · exact ⟨rfl, rfl, rfl⟩
  case head => exact journal_head _
  case code => rw [violation_flt, journal_code]; rfl
  case unit => rw [violation_flt, journal_entry]; rfl

/-- Settles O25: each of the rows issues through the check of its role. -/
theorem wrongRoleIsAViolation : Obligations.WrongRoleIsAViolation := by
  intro s lc st f p hlc
  simp only [List.forall_mem_cons]
  refine ⟨?ldw, ?stw, ?mov, ?vld, ?put, ?mma, ?slr, ?vadd, ?viadd, ?tlk, ?drn, ?tsv, ?tld, ?tzr, fun _ h => absurd h List.not_mem_nil⟩
  all_goals exact wrongRole_answers rfl (by decide) hlc

end Sys2Proof.Machine
end

section
/-! PROOFS. The sync instructions, the end of a block, the SYN time-out and the block loader (R69 to R71). -/

namespace Sys2Proof.Machine

-- One theorem after the other: as one text the files are near the memory limit of the check, and every thread that waits counts.
set_option Elab.async false

variable {s : State} {lc : Nat} {st : Strm} {f : CellWord} {p : Site}

/-! ### RCL -/

/-- A vector register cleared where its bit of the mask is set. -/
def Cell.clearBit (mask : Nat) (c : Cell) (r : Nat) : Cell := if bit mask r then c.setVreg r {} else c

theorem clearBit_keeps {α : Type} (g : Cell → α) (hg : ∀ c r, g (c.setVreg r {}) = g c) (mask : Nat) (c : Cell) (r : Nat) :
    g (c.clearBit mask r) = g c := by
  unfold Cell.clearBit
  rw [apply_ite g, hg, ite_self]

theorem clearBits_vreg (mask : Nat) (rs : List Nat) (c : Cell) (r : Nat) :
    (rs.foldl (Cell.clearBit mask) c).vreg r = if r ∈ rs ∧ bit mask r = true then {} else c.vreg r := by
  induction rs generalizing c with
  | nil => simp
  | cons q rs ih =>
    rw [List.foldl_cons, ih]
    unfold Cell.clearBit
    simp only [List.mem_cons]
    by_cases hr : r = q
    · subst hr
      by_cases hb : bit mask r = true <;> simp [hb]
    · have hq : (if bit mask q then c.setVreg q {} else c).vreg r = c.vreg r := by
        rw [apply_ite (Cell.vreg · r), setVreg_vreg_ne _ _ hr, ite_self]
      simp only [hr, false_or, hq]

theorem rcl_answers (h : Stands 0xF3 lc st f p s) : CellAnswers (.rcl lc st f) lc st 1 s fun d =>
    (∀ r, d.vreg r = if r < 16 ∧ bit (p.op 0 16) r = true then {} else (s.cell lc).vreg r) ∧ d.bank = (s.cell lc).bank := by
  refine issueCell_answers rfl (by decide) h
    (e := { cell := (List.range 16).foldl (Cell.clearBit (p.op 0 16)) (s.cell lc), cycles := 1 }) rfl ?_ ⟨fun r => ?_, ?_⟩
  · rw [stream_eq]
    have hkeeps : ∀ c r, (Cell.clearBit (p.op 0 16) c r).stream st = c.stream st :=
      clearBit_keeps (Cell.stream · st) (fun _ _ => by cases st <;> rfl) _
    have hstream := foldl_keeps (Cell.stream · st) hkeeps (List.range 16) (s.cell lc)
    exact ⟨congrArg StreamS.off hstream, congrArg StreamS.cycles hstream⟩
  · rw [modStream_vreg, clearBits_vreg]
    simp only [List.mem_range]
  · rw [modStream_bank]
    exact foldl_keeps Cell.bank (clearBit_keeps Cell.bank (fun _ _ => rfl) _) ..

/-! ### NOP and SYN -/

theorem nop_answers (h : Stands 0xF0 lc st f p s) (h0 : p.op 0 26 = 0) :
    CellAnswers (.nop lc st f) lc st 1 s fun d => d = (s.cell lc).past st 1 := by
  obtain ⟨rfl, rfl, -⟩ := siteAt_some h.2.1
  refine issue_answers_of_frame rfl (by decide) h (if_neg (not_not_intro h0)) (retire_frame (Nat.or_self _) Fr.rfl) ⟨?_, fun j hj => ?_, ?_⟩
  · rw [Retired, stream_retire]
    exact ⟨rfl, rfl⟩
  · exact cell_retire_ne _ hj
  · rw [cell_retire, if_pos rfl]

theorem waited_cells : (s.waited p).2.cells = s.cells := (waited_frame (Nat.or_self _) Fr.rfl).cells_eq

theorem waited_of_none (h : (s.stream p.lc p.st).synFrom = none) : s.waited p = (0, s) := by
  unfold State.waited
  rw [h]

/-- A SYN whose counter has reached its value goes on, and subtracts it (R70). -/
theorem syn_passes (h : Stands 0xF1 lc st f p s) (hv : p.op 4 16 ≤ look 0 (s.stream lc st).evc (p.op 0 4)) :
    Answers (.syn lc st f) s fun t => (t.stream lc st).off = (s.stream lc st).off + 1 ∧ (s.stream lc st).cycles + 1 ≤ (t.stream lc st).cycles ∧
      ((s.stream lc st).synFrom = none → (t.stream lc st).cycles = (s.stream lc st).cycles + 1) ∧ (t.stream lc st).synFrom = none ∧
      ∀ e, look 0 (t.stream lc st).evc e = look 0 (s.stream lc st).evc e - (if e = p.op 0 4 then p.op 4 16 else 0) := by
  obtain ⟨rfl, rfl, -⟩ := siteAt_some h.2.1
  refine issue_answers_of_frame rfl (by decide) h (if_pos hv)
    (retire_frame (by decide) (modStream_frame (by decide) (waited_frame (m := 260) (by decide) Fr.rfl))) ?_
  rw [stream_retire, stream_modStream_self, stream_of_cells waited_cells]
  refine ⟨rfl, by dsimp only; omega, fun hn => ?_, rfl, fun e => ?_⟩
  · rw [waited_of_none hn]
    rfl
  · dsimp only
    split
    · next he => rw [he, look_store_eq]
    · next he => rw [look_store_ne _ _ _ he, Nat.sub_zero]

/-- A SYN whose counter has not reached its value waits, from this round on (R70). -/
theorem syn_waits (h : Stands 0xF1 lc st f p s) (hv : look 0 (s.stream lc st).evc (p.op 0 4) < p.op 4 16) :
    Answers (.syn lc st f) s fun t => (t.stream lc st).off = (s.stream lc st).off ∧ (t.stream lc st).evc = (s.stream lc st).evc ∧
      (t.stream lc st).synFrom = some ((s.stream lc st).synFrom.getD s.rnd.num) := by
  obtain ⟨rfl, rfl, -⟩ := siteAt_some h.2.1
  refine issue_answers_of_frame rfl (by decide) h (if_neg (Nat.not_le.mpr hv)) (modStream_frame (Nat.or_self _) Fr.rfl) ?_
  rw [stream_modStream_self]
  exact ⟨rfl, rfl, rfl⟩

/-! ### The end of a block -/

/-- What the end of a block leaves of the cells: its stream has stopped. -/
theorem endBlock_cells : (s.endBlock p).cells =
    (s.modStream p.lc p.st fun x => { x with running := false, code := [], synFrom := none }).cells := by
  unfold State.endBlock
  dsimp only
  rw [(checkSegment_frame (Nat.or_self _) Fr.rfl).cells_eq]
  split
  · exact (charge_frame (Nat.or_self _) Fr.rfl).cells_eq.trans (journal_cells ..)
  · rfl

theorem stream_endBlock : (s.endBlock p).stream p.lc p.st =
    { s.stream p.lc p.st with running := false, code := [], synFrom := none } :=
  (stream_of_cells endBlock_cells ..).trans (stream_modStream_self ..)

theorem bank_endBlock (j : Nat) : ((s.endBlock p).cell j).bank = (s.cell j).bank := by
  rw [cell_of_cells _ endBlock_cells, bank_modStream]

theorem CourseViolated.endBlock {k : Nat} (h : CourseViolated k s) : CourseViolated k (s.endBlock p) := by
  unfold State.endBlock
  dsimp only
  refine CourseViolated.checkSegment ?_ _
  split
  · exact h.of_crs ((charge_frame (Nat.or_self _) Fr.rfl).crs_eq.trans (report_frame (Nat.or_self _) Fr.rfl).crs_eq)
  · exact h.of_crs rfl

theorem end_answers (h : Stands 0xFF lc st f p s) (h0 : p.op 0 26 = 0) :
    Answers (.endBlock lc st f) s fun t => (t.stream lc st).running = false ∧ (t.stream lc st).code = [] ∧
      ∀ i, (t.cell i).bank = (s.cell i).bank := by
  obtain ⟨rfl, rfl, -⟩ := siteAt_some h.2.1
  refine issue_answers_of_frame rfl (by decide) h (if_pos h0)
    (endBlock_frame (Nat.or_self _) (retire_frame (by decide) Fr.rfl)) ?_
  rw [stream_endBlock]
  exact ⟨rfl, rfl, fun i => (bank_endBlock i).trans (bank_retire ..)⟩

/-- A SYN that has waited 4 rounds ends its block with a plan violation (R70, R484). -/
theorem synTimeout_answers (hlc : lc < 960) (hs : siteAt s lc st 0xF1 {} = some p) {n : Nat} (hn : (s.stream lc st).synFrom = some n)
    (hr : n + 4 ≤ boundaryRnd s) : Answers (.synTimeout lc st) s fun t => (t.stream lc st).running = false ∧
      ∃ c, t.course p.course.id = some c ∧ c.violated = true := by
  refine answers_of_frame rfl (decide_eq_true hlc) (synTimeout_frame (Nat.or_self _) Fr.rfl) ?_
  obtain ⟨rfl, rfl, -, -, -, -, -, hco⟩ := siteAt_some hs
  have ht : s.synTimeout p.lc p.st =
      ((((s.waited p).2.violation p).modStream p.lc p.st fun x => { x with cycles := x.cycles + (s.waited p).1 }).endBlock p) := by
    unfold State.synTimeout
    rw [hn, hs]
    exact if_pos hr
  have hcrs : (s.waited p).2.crs = s.crs := (waited_frame (Nat.or_self _) Fr.rfl).crs_eq
  rw [ht, stream_endBlock]
  have hmark : CourseViolated p.course.id ((s.waited p).2.violation p) := violation_marked ((course_of_crs _ hcrs).trans hco)
  exact ⟨rfl, CourseViolated.endBlock (hmark.of_crs (t := State.modStream _ _ _ _) rfl)⟩

/-! ### The block loader -/

/-- A legal block is fetched into the idle buffer of its stream (R71). -/
theorem blockLoad_answers (hlc : lc < 960) (hi : (s.stream lc st).idle = none) {c : Course} {b : Block} (hc : (s.cell lc).course = some c.id)
    (hco : s.course c.id = some c) (hstop : c.stopped = false) (hlate : (s.cell lc).late = false)
    (hb : (blocksOf c lc st)[(s.stream lc st).next]? = some b) (hlen : b.words.length ≤ 1024) (hend : b.words.any endsBlock = true) :
    Answers (.blockLoad lc st) s fun t => (t.stream lc st).idle = some ((s.stream lc st).next, b.words) ∧
      (t.stream lc st).next = (s.stream lc st).next + 1 ∧ ∀ j, j ≠ lc → t.cell j = s.cell j := by
  have ht : s.loadBlock lc st = s.modStream lc st fun y => { y with idle := some (y.next, b.words), next := y.next + 1 } := by
    unfold State.loadBlock
    simp only [hi, hc, hco, hb, hstop, hlate, hend, Nat.not_lt.mpr hlen, Bool.or_self, Bool.not_true, Bool.false_eq_true, or_self, if_false]
  refine answers_of_frame rfl (decide_eq_true hlc) (loadBlock_frame (Nat.or_self _) Fr.rfl) ?_
  rw [ht, stream_modStream_self]
  exact ⟨rfl, rfl, fun j hj => cell_modStream_ne _ _ hj⟩

/-- Settles O24: each instruction by what it leaves of its stream, the time-out by its violation, the loader by the idle buffer. -/
theorem syncInstructions : Obligations.SyncInstructions :=
  fun _ _ _ _ _ => ⟨nop_answers, syn_passes, syn_waits, rcl_answers, end_answers, fun hlc hs _ => synTimeout_answers hlc hs,
    fun hlc hi _ _ => blockLoad_answers hlc hi⟩

end Sys2Proof.Machine
end

section
/-! PROOFS. The moves between operand bank, table memory and vector registers (R59, R69, R117). -/

namespace Sys2Proof.Machine

-- One theorem after the other: as one text the files are near the memory limit of the check, and every thread that waits counts.
set_option Elab.async false

section
variable {s : State} {opc lc : Nat} {st : Strm} {f : CellWord} {p : Site} {i : Instr} {body : Site → Cell → Option Effect}

theorem CellAnswers.mono {n : Nat} {P Q : Cell → Prop} (h : CellAnswers i lc st n s P) (hPQ : ∀ d, P d → Q d) : CellAnswers i lc st n s Q := by
  obtain ⟨t, ht, hret, hcells, hp⟩ := h
  exact ⟨t, ht, hret, hcells, hPQ _ hp⟩

/-- A cell whose streams stand where those of `c` stand. -/
def SameStreams (c d : Cell) : Prop := ∀ st, (d.stream st).off = (c.stream st).off ∧ (d.stream st).cycles = (c.stream st).cycles

/-- An instruction of which only the cell's streams are known to stay where they are. -/
theorem cellEffect_answers {d : Cell} {n : Nat} {report : Bool} (hx : exec i s = act (okCell lc) s (s.issueCell opc lc st f body))
    (ha : opAssigned opc = true) (hb : body p (s.cell lc) = some { cell := d, cycles := n, report := report })
    (hd : SameStreams (s.cell lc) d) (h : Stands opc lc st f p s) : CellAnswers i lc st n s fun x => x = d.past st n :=
  issueCell_answers hx ha h hb (by rw [stream_eq]; exact hd st) rfl

/-- An instruction that writes `xs` to vector register `r` from element 0 on, and nothing else. -/
theorem setVreg_answers {r n : Nat} {xs : List Nat} {report : Bool} (hx : exec i s = act (okCell lc) s (s.issueCell opc lc st f body))
    (ha : opAssigned opc = true)
    (hb : body p (s.cell lc) = some
      { cell := (s.cell lc).setVreg r (((s.cell lc).vreg r).write 0 xs), cycles := n, report := report }) (h : Stands opc lc st f p s) :
    CellAnswers i lc st n s fun d => WritesVreg r (s.cell lc) d fun i => xs[i]? :=
  (cellEffect_answers hx ha hb (fun st => by cases st <;> exact ⟨rfl, rfl⟩) h).mono fun _ hd => hd ▸ writesVreg_setVreg ..

/-- An instruction that writes the operand bank, and nothing else. -/
theorem setBank_answers {b : Tab Byte} {n : Nat} {report : Bool} (hx : exec i s = act (okCell lc) s (s.issueCell opc lc st f body))
    (ha : opAssigned opc = true) (hb : body p (s.cell lc) = some { cell := { s.cell lc with bank := b }, cycles := n, report := report })
    (h : Stands opc lc st f p s) :
    CellAnswers i lc st n s fun d => d = ({ s.cell lc with bank := d.bank }).past st n ∧ d.bank = b := by
  refine (cellEffect_answers hx ha hb (fun st => by cases st <;> exact ⟨rfl, rfl⟩) h).mono fun d hd => ?_
  have hbank : d.bank = b := by rw [hd]; exact modStream_bank ..
  exact ⟨by rw [hbank]; exact hd, hbank⟩

/-- An instruction that writes table memory, and nothing else. -/
theorem setTable_answers {b : Tab Byte} {n : Nat} {report : Bool} (hx : exec i s = act (okCell lc) s (s.issueCell opc lc st f body))
    (ha : opAssigned opc = true) (hb : body p (s.cell lc) = some { cell := { s.cell lc with table := b }, cycles := n, report := report })
    (h : Stands opc lc st f p s) :
    CellAnswers i lc st n s fun d => d = ({ s.cell lc with table := d.table }).past st n ∧ d.table = b := by
  refine (cellEffect_answers hx ha hb (fun st => by cases st <;> exact ⟨rfl, rfl⟩) h).mono fun d hd => ?_
  have htable : d.table = b := by rw [hd]; exact modStream_table ..
  exact ⟨by rw [htable]; exact hd, htable⟩

end

/-! ### Bytes and packed elements -/

/-- Bytes copied from one table to another. -/
theorem stored_copy (t u : Tab Byte) (a b n : Nat) : Stored t (wrBytes t a (rdBytes u b n)) a n fun i => look 0 u (b + i) := by
  intro k
  have h := stored_wrBytes t a (rdBytes u b n) k
  rw [rdBytes_length] at h
  rw [h]
  split
  · exact rdBytes_getD u b (by omega)
  · rfl

/-- An element lies within the bytes that the elements up to it take (R93). -/
theorem packedLen_le {w i n : Nat} (h : i < n) : i * w / 8 + (i * w % 8 + w + 7) / 8 ≤ packedLen w n := by
  have hle : (i + 1) * w ≤ n * w := Nat.mul_le_mul_right w h
  rw [Nat.add_one_mul] at hle
  rw [packedLen, ceilDiv, Nat.mul_comm w n]
  omega

theorem look_setElem_out {t : Tab Byte} {base w i n v k : Nat} (hi : i < n) (hk : k < base ∨ base + packedLen w n ≤ k) :
    look 0 (setElem t base w i v) k = look 0 t k := by
  have hle := packedLen_le (w := w) hi
  refine look_wrBytes_out _ _ _ ?_
  rw [leBytes_length]
  omega

/-- Elements that are written leave every byte outside the array alone. -/
theorem look_setElems_out {base w k : Nat} (vs : List Nat) {t : Tab Byte} {i n : Nat} (hn : i + vs.length ≤ n)
    (hk : k < base ∨ base + packedLen w n ≤ k) : look 0 (setElems t base w i vs) k = look 0 t k := by
  induction vs generalizing t i with
  | nil => rfl
  | cons v vs ih =>
    rw [List.length_cons] at hn
    exact (ih (by omega)).trans (look_setElem_out (by omega) hk)

/-! ### The effects -/

section
variable {p : Site} (c : Cell)

theorem movEffect_eq (hn : 1 ≤ p.cnt) (h0 : p.op 0 6 = 0) (hd : 1024 * p.op 16 10 + 256 * p.cnt ≤ bankSize)
    (ha : 1024 * p.op 6 10 + 256 * p.cnt ≤ bankSize) :
    movEffect p c = some { cell := { c with bank := wrBytes c.bank (1024 * p.op 16 10) (rdBytes c.bank (1024 * p.op 6 10) (256 * p.cnt)) },
                           cycles := ceilDiv (256 * p.cnt) 1024 } :=
  if_neg (by omega)

theorem tbwEffect_eq (hn : 1 ≤ p.cnt) (h0 : p.op 0 6 = 0) (h15 : p.op 15 1 = 0) (ha : 1024 * p.op 16 10 + 64 * p.cnt ≤ bankSize)
    (ht : 64 * p.op 6 9 + 64 * p.cnt ≤ tableSize) :
    tbwEffect p c = some { cell := { c with table := wrBytes c.table (64 * p.op 6 9) (rdBytes c.bank (1024 * p.op 16 10) (64 * p.cnt)) },
                           cycles := ceilDiv (64 * p.cnt) 1024 } :=
  if_neg (by omega)

theorem vldEffect_eq (hf : p.f.fmtb.toNat = (if isInt p.f.fmta.toNat then 8 else 0)) (hn : 1 ≤ p.cnt) (hm : p.cnt ≤ 4096) (h0 : p.op 4 12 = 0)
    (hb : 1024 * p.op 16 10 + packedLen (fmtWidth p.f.fmta.toNat) p.cnt ≤ bankSize) :
    vldEffect p c = some
      { cell := c.setVreg (p.op 0 4) ((c.vreg (p.op 0 4)).write 0 ((List.range p.cnt).map fun i =>
          convert p.f.fmtb.toNat p.rm (p.u i) p.sat (decElem p.f.fmta.toNat (elemAt c.bank (1024 * p.op 16 10) (fmtWidth p.f.fmta.toNat) i))))
        cycles := ceilDiv p.cnt 64, report := p.badRm } :=
  if_neg (by omega)

theorem vstEffect_eq (hf : p.f.fmta.toNat = 0 ∨ p.f.fmta.toNat = 8) (hn : 1 ≤ p.cnt) (hm : p.cnt ≤ 4096) (h0 : p.op 4 12 = 0)
    (hb : 1024 * p.op 16 10 + packedLen (fmtWidth p.f.fmtb.toNat) p.cnt ≤ bankSize) :
    vstEffect p c = some
      { cell := { c with bank := setElems c.bank (1024 * p.op 16 10) (fmtWidth p.f.fmtb.toNat) 0 ((List.range p.cnt).map fun i =>
          convert p.f.fmtb.toNat p.rm (p.u i) p.sat (decElem p.f.fmta.toNat ((c.vreg (p.op 0 4)).elem i))) }
        cycles := ceilDiv p.cnt 64, report := p.badRm } :=
  if_neg (by omega)

end

/-- Settles O19: each move by the one table or register that it writes. -/
theorem bankMoves : Obligations.BankMoves := by
  refine fun s lc st f p hn => ⟨fun h h0 hd ha => ?mov, fun h h0 h15 ha ht => ?tbw, fun h hf hm h0 hb => ?vld, fun h hf hm h0 hb => ?vst⟩
  case mov =>
    refine (setBank_answers rfl (by decide) (movEffect_eq _ hn h0 hd ha) h).mono fun d ⟨hd, hbank⟩ => ⟨hd, ?_⟩
    rw [hbank]
    exact stored_copy _ _ _ _ _
  case tbw =>
    refine (setTable_answers rfl (by decide) (tbwEffect_eq _ hn h0 h15 ha ht) h).mono fun d ⟨hd, htable⟩ => ⟨hd, ?_⟩
    rw [htable]
    exact stored_copy _ _ _ _ _
  case vld =>
    refine (setVreg_answers rfl (by decide) (vldEffect_eq _ hf hn hm h0 hb) h).mono fun d hd => ?_
    simpa only [getElem?_map_range] using hd
  case vst =>
    refine (setBank_answers rfl (by decide) (vstEffect_eq _ hf hn hm h0 hb) h).mono fun d ⟨hd, hbank⟩ => ⟨hbank ▸ hd, fun k hk => ?_⟩
    rw [hbank]
    exact look_setElems_out _ (by rw [List.length_map, List.length_range, Nat.zero_add]) hk

end Sys2Proof.Machine
end

section
/-! PROOFS. Loads and stores through a window (R233, R234), PUT and SIG (R82, R246), and the completions of what is in flight (R69). -/

namespace Sys2Proof.Machine

-- One theorem after the other: as one text the files are near the memory limit of the check, and every thread that waits counts.
set_option Elab.async false

variable {s : State} {lc : Nat} {st : Strm} {f : CellWord} {p : Site}

/-! ### Event counters and banks -/

theorem addEvc_evc (x : StreamS) (e n k : Nat) :
    look 0 (x.addEvc e n).evc k = if k = e then sat 16 (look 0 x.evc k + n) else look 0 x.evc k := by
  unfold StreamS.addEvc
  split
  · next h => rw [h, look_adj_eq]
  · next h => rw [look_adj_ne _ _ _ h]

/-- An event counter of the stream that a signal names rises, the others stay (R69). -/
theorem signal_cell_evc (j : Nat) (u : Strm) (e n k : Nat) :
    look 0 ((s.signal (.cell j u e) n).stream j u).evc k =
      if k = e then sat 16 (look 0 (s.stream j u).evc k + n) else look 0 (s.stream j u).evc k := by
  show look 0 ((s.modStream j u fun x => x.addEvc e n).stream j u).evc k = _
  rw [stream_modStream_self, addEvc_evc]

theorem signal_cell_bank (j : Nat) (u : Strm) (e n i : Nat) : ((s.signal (.cell j u e) n).cell i).bank = (s.cell i).bank :=
  bank_modStream ..

/-- A signal changes no field of a stream but its event counters. -/
theorem signal_cell_stream {α : Type} (g : StreamS → α) (hg : ∀ x e n, g (StreamS.addEvc x e n) = g x) (j : Nat) (u : Strm) (e n lc : Nat)
    (st : Strm) : g ((s.signal (.cell j u e) n).stream lc st) = g (s.stream lc st) := by
  show g ((s.modStream j u fun x => x.addEvc e n).stream lc st) = _
  rw [stream_modStream, apply_ite g, hg, ite_self]

theorem deliver_cell_stream (j : Nat) (u : Strm) (e base : Nat) (bs : List Byte) (lc : Nat) (st : Strm) :
    (s.deliver (.cell j u e) base bs).stream lc st = s.stream lc st := by
  show (s.modCell j fun c => { c with bank := wrBytes c.bank base bs }).stream lc st = _
  by_cases h : lc = j
  · rw [h, stream_eq, modCell_read, stream_eq]
    cases st <;> rfl
  · exact stream_modCell_ne _ h st

theorem deliver_cell_bank (j : Nat) (u : Strm) (e base : Nat) (bs : List Byte) :
    ((s.deliver (.cell j u e) base bs).cell j).bank = wrBytes (s.cell j).bank base bs := by
  show ((s.modCell j fun c => { c with bank := wrBytes c.bank base bs }).cell j).bank = _
  rw [modCell_read]

theorem deliver_cell_ne (u : Strm) (e base : Nat) (bs : List Byte) {i j : Nat} (h : i ≠ j) :
    (s.deliver (.cell j u e) base bs).cell i = s.cell i := modCell_read_ne _ _ _ h

/-! ### LDW and STW -/

theorem ldwBody_eq {w : Window} {xs : List (Nat × Nat)} {cur : Nat} {bs : List Byte} (hn : 1 ≤ p.cnt) (h0 : p.op 4 4 = 0)
    (hb : 1024 * p.op 16 10 + 256 * p.cnt ≤ bankSize) (hw : windowParts p false = some (w, xs, cur))
    (hr : (s.readParts p.course w.view xs).1 = .ok bs) :
    ldwBody p s = some ((((s.readParts p.course w.view xs).2.moveCursor p cur).modStream p.lc p.st fun x =>
      { x with ldws := x.ldws ++ [{ evc := p.op 0 4, base := 1024 * p.op 16 10, bytes := bs }] }).retire p 1) := by
  unfold ldwBody
  rw [if_neg (by omega), hw]
  simp only [hr]

theorem stwBody_eq {w : Window} {xs : List (Nat × Nat)} {cur : Nat} (hn : 1 ≤ p.cnt) (h0 : p.op 4 4 = 0)
    (hb : 1024 * p.op 16 10 + 256 * p.cnt ≤ bankSize) (hw : windowParts p true = some (w, xs, cur))
    (ha : (xs.all fun x => courseWritable s p.course w.view p.course.ctx x.1 x.2) = true) :
    stwBody p s = some (((s.moveCursor p cur).modStream p.lc p.st fun x =>
      { x with stws := x.stws ++ [{ evc := p.op 0 4, view := w.view,
                                    parts := cutParts xs (rdBytes (s.cell p.lc).bank (1024 * p.op 16 10) (256 * p.cnt)) }] }).retire p 1) := by
  unfold stwBody
  rw [if_neg (by omega), hw]
  simp only [ha, Bool.not_true, Bool.false_eq_true, if_false]

/-- A load reads its window at issue; its bytes are in flight (R69). -/
theorem ldw_answers {w : Window} {xs : List (Nat × Nat)} {cur : Nat} {bs : List Byte} (h : Stands 0x01 lc st f p s) (hn : 1 ≤ p.cnt)
    (h0 : p.op 4 4 = 0) (hb : 1024 * p.op 16 10 + 256 * p.cnt ≤ bankSize) (hw : windowParts p false = some (w, xs, cur))
    (hr : (s.readParts p.course w.view xs).1 = .ok bs) :
    Answers (.ldw lc st f) s fun t => Retired lc st 1 s t ∧ (t.cell lc).bank = (s.cell lc).bank ∧ (∀ j, j ≠ lc → t.cell j = s.cell j) ∧
      (t.stream lc st).ldws = (s.stream lc st).ldws ++ [{ evc := p.op 0 4, base := 1024 * p.op 16 10, bytes := bs }] ∧
      (t.stream lc st).evc = (s.stream lc st).evc := by
  obtain ⟨rfl, rfl, -⟩ := siteAt_some h.2.1
  have hcells : ((s.readParts p.course w.view xs).2.moveCursor p cur).cells = s.cells :=
    (moveCursor_frame (m := 99328) (by decide) (readParts_frame (by decide) Fr.rfl)).cells_eq
  refine issue_answers_of_frame rfl (by decide) h (ldwBody_eq hn h0 hb hw hr)
    (retire_frame (by decide) (modStream_frame (by decide) (moveCursor_frame (m := 99584) (by decide) (readParts_frame (by decide) Fr.rfl)))) ?_
  rw [Retired, stream_retire, stream_modStream_self, stream_of_cells hcells]
  refine ⟨⟨rfl, rfl⟩, ?_, fun j hj => ?_, rfl, rfl⟩
  · rw [bank_retire, bank_modStream, cell_of_cells _ hcells]
  · rw [cell_retire_ne _ hj, cell_modStream_ne _ _ hj, cell_of_cells _ hcells]

/-- A store reads its bank at issue; nothing of memory changes before it is accepted (R69). -/
theorem stw_answers {w : Window} {xs : List (Nat × Nat)} {cur : Nat} (h : Stands 0x02 lc st f p s) (hn : 1 ≤ p.cnt)
    (h0 : p.op 4 4 = 0) (hb : 1024 * p.op 16 10 + 256 * p.cnt ≤ bankSize) (hw : windowParts p true = some (w, xs, cur))
    (ha : (xs.all fun x => courseWritable s p.course w.view p.course.ctx x.1 x.2) = true) :
    Answers (.stw lc st f) s fun t => Retired lc st 1 s t ∧ t.mem = s.mem ∧ (∀ j, j ≠ lc → t.cell j = s.cell j) ∧
      (t.stream lc st).stws = (s.stream lc st).stws ++
        [{ evc := p.op 0 4, view := w.view, parts := cutParts xs (rdBytes (s.cell lc).bank (1024 * p.op 16 10) (256 * p.cnt)) }] := by
  obtain ⟨rfl, rfl, -⟩ := siteAt_some h.2.1
  refine issue_answers_of_frame rfl (by decide) h (stwBody_eq hn h0 hb hw ha)
    (retire_frame (by decide) (modStream_frame (by decide) (moveCursor_frame (m := 1280) (by decide) Fr.rfl))) ?_
  rw [Retired, stream_retire, stream_modStream_self]
  refine ⟨⟨rfl, rfl⟩, rfl, fun j hj => ?_, rfl⟩
  rw [cell_retire_ne _ hj, cell_modStream_ne _ _ hj]
  rfl

/-- The oldest load's bytes are in the bank, and its counter rises by 1 (R69). -/
theorem loadArrives_answers (hlc : lc < 960) {l : Load} {r : List Load} (hl : (s.stream lc st).ldws = l :: r) :
    Answers (.ldwDataArrived lc st) s fun t => (t.stream lc st).ldws = r ∧ (∀ j, j ≠ lc → t.cell j = s.cell j) ∧
      Stored (s.cell lc).bank (t.cell lc).bank l.base l.bytes.length (fun i => l.bytes.getD i 0) ∧
      ∀ e, look 0 (t.stream lc st).evc e =
        if e = l.evc then sat 16 (look 0 (s.stream lc st).evc e + 1) else look 0 (s.stream lc st).evc e := by
  have ht : s.loadArrives lc st = s.modCell lc fun c =>
      ({ c with bank := wrBytes c.bank l.base l.bytes }).modStream st fun x => { x with ldws := r }.addEvc l.evc 1 := by
    unfold State.loadArrives
    rw [hl]
  have hcell : (s.loadArrives lc st).cell lc = ({ s.cell lc with bank := wrBytes (s.cell lc).bank l.base l.bytes }).modStream st
      fun x => { x with ldws := r }.addEvc l.evc 1 := by rw [ht, modCell_read]
  have hstream : (s.loadArrives lc st).stream lc st = { s.stream lc st with ldws := r }.addEvc l.evc 1 := by
    rw [stream_eq, hcell, modStream_stream, stream_eq]
    cases st <;> rfl
  refine answers_of_frame rfl (decide_eq_true hlc) (loadArrives_frame (Nat.or_self _) Fr.rfl) ?_
  rw [hstream, hcell, modStream_bank]
  exact ⟨rfl, fun j hj => by rw [ht, modCell_read_ne _ _ _ hj], stored_wrBytes _ _ _, fun e => addEvc_evc ..⟩

/-- The oldest store's bytes are in memory, and its counter rises by 1 (R69). -/
theorem storeAccepted_answers (hlc : lc < 960) {x : Store} {r : List Store} {c : Course} (hx : (s.stream lc st).stws = x :: r)
    (hc : (s.cell lc).course = some c.id) (hco : s.course c.id = some c) (hw : (s.writeParts c x.view x.parts).1 = .ok ()) :
    Answers (.stwAccepted lc st) s fun t => t.mem = (s.writeParts c x.view x.parts).2.mem ∧ (t.stream lc st).stws = r ∧
      ∀ e, look 0 (t.stream lc st).evc e =
        if e = x.evc then sat 16 (look 0 (s.stream lc st).evc e + 1) else look 0 (s.stream lc st).evc e := by
  have ht : s.storeAccepted lc st =
      (s.writeParts c x.view x.parts).2.modStream lc st fun y => { y with stws := r }.addEvc x.evc 1 := by
    unfold State.storeAccepted
    simp only [hx, hc, hco, hw]
  have hcells : (s.writeParts c x.view x.parts).2.cells = s.cells := (writeParts_frame (Nat.or_self _) Fr.rfl).cells_eq
  refine answers_of_frame rfl (decide_eq_true hlc) (storeAccepted_frame (Nat.or_self _) Fr.rfl) ?_
  rw [ht, stream_modStream_self, stream_of_cells hcells]
  exact ⟨rfl, rfl, fun e => addEvc_evc ..⟩

/-- Settles O20: LDW and STW by what they put in flight, and each completion by the oldest entry in flight. -/
theorem windowLoadsAndStores : Obligations.WindowLoadsAndStores :=
  fun _ _ _ _ _ _ _ _ => ⟨fun h hn h0 hb hw _ hr => ldw_answers h hn h0 hb hw hr, stw_answers, fun hlc _ _ hl => loadArrives_answers hlc hl,
    fun hlc _ _ hx _ hc hco hw => storeAccepted_answers hlc hx hc hco hw⟩

/-! ### PUT and SIG -/

theorem putBody_eq {e : Route} {tgt : SigTo} (hn : 1 ≤ p.cnt) (h0 : p.op 6 10 = 0) (hb : 1024 * p.op 16 10 + 256 * p.cnt ≤ bankSize)
    (hr : routeTarget s p (p.op 0 6) = some (e, tgt)) (hsz : 1024 * e.bankKb + 256 * p.cnt ≤ targetSize s tgt) :
    putBody p s = some ((s.modStream p.lc p.st fun x =>
      { x with puts := x.puts ++ [{ tgt := tgt, base := 1024 * e.bankKb,
                                    bytes := rdBytes (s.cell p.lc).bank (1024 * p.op 16 10) (256 * p.cnt) }] }).retire p 1) := by
  unfold putBody
  rw [if_neg (by omega), hr]
  exact if_neg (Nat.not_lt.mpr hsz)

theorem sigBody_eq {e : Route} {tgt : SigTo} (hn : 1 ≤ p.cnt) (h0 : p.op 6 20 = 0) (hr : routeTarget s p (p.op 0 6) = some (e, tgt)) :
    sigBody p s = some ((s.signal tgt p.cnt).retire p 1) := by
  unfold sigBody
  rw [if_neg (by omega), hr]

theorem put_answers {e : Route} {tgt : SigTo} (h : Stands 0x08 lc st f p s) (hn : 1 ≤ p.cnt) (h0 : p.op 6 10 = 0)
    (hb : 1024 * p.op 16 10 + 256 * p.cnt ≤ bankSize) (hr : routeTarget s p (p.op 0 6) = some (e, tgt))
    (hsz : 1024 * e.bankKb + 256 * p.cnt ≤ targetSize s tgt) :
    Answers (.put lc st f) s fun t => Retired lc st 1 s t ∧ (∀ j, j ≠ lc → t.cell j = s.cell j) ∧ (t.cell lc).bank = (s.cell lc).bank ∧
      (t.stream lc st).puts = (s.stream lc st).puts ++
        [{ tgt := tgt, base := 1024 * e.bankKb, bytes := rdBytes (s.cell lc).bank (1024 * p.op 16 10) (256 * p.cnt) }] := by
  obtain ⟨rfl, rfl, -⟩ := siteAt_some h.2.1
  refine issue_answers_of_frame rfl (by decide) h (putBody_eq hn h0 hb hr hsz)
    (retire_frame (by decide) (modStream_frame (m := 256) (by decide) Fr.rfl)) ?_
  rw [Retired, stream_retire, stream_modStream_self]
  exact ⟨⟨rfl, rfl⟩, fun j hj => by rw [cell_retire_ne _ hj, cell_modStream_ne _ _ hj], by rw [bank_retire, bank_modStream], rfl⟩

/-- The oldest PUT's bytes land at the cell that its route names, and that counter rises by 1 (R69, R246). -/
theorem putDelivered_answers (hlc : lc < 960) {w : Put} {r : List Put} {j : Nat} {u : Strm} {ev : Nat} (hp : (s.stream lc st).puts = w :: r)
    (hw : w.tgt = .cell j u ev) :
    Answers (.putDelivered lc st) s fun t => (t.stream lc st).puts = r ∧
      Stored (s.cell j).bank (t.cell j).bank w.base w.bytes.length (fun i => w.bytes.getD i 0) ∧
      (∀ i, i ≠ j → (t.cell i).bank = (s.cell i).bank) ∧
      ∀ k, look 0 (t.stream j u).evc k = if k = ev then sat 16 (look 0 (s.stream j u).evc k + 1) else look 0 (s.stream j u).evc k := by
  have ht : s.putDelivered lc st =
      ((s.modStream lc st fun x => { x with puts := r }).deliver (.cell j u ev) w.base w.bytes).signal (.cell j u ev) 1 := by
    unfold State.putDelivered
    rw [hp]
    simp only [hw]
  refine answers_of_frame rfl (decide_eq_true hlc) (putDelivered_frame (Nat.or_self _) Fr.rfl) ?_
  rw [ht]
  refine ⟨?puts, ?bank, fun i hi => ?banks, fun k => ?evc⟩
  case puts => rw [signal_cell_stream StreamS.puts (fun _ _ _ => rfl), deliver_cell_stream, stream_modStream_self]
  case bank =>
    rw [signal_cell_bank, deliver_cell_bank, bank_modStream]
    exact stored_wrBytes _ _ _
  case banks => rw [signal_cell_bank, deliver_cell_ne _ _ _ _ hi, bank_modStream]
  case evc =>
    have hevc : ((s.modStream lc st fun x => { x with puts := r }).stream j u).evc = (s.stream j u).evc := by
      rw [stream_modStream, apply_ite StreamS.evc, ite_self]
    rw [signal_cell_evc, deliver_cell_stream, hevc]

theorem sig_answers {e : Route} (h : Stands 0xF2 lc st f p s) (hn : 1 ≤ p.cnt) (h0 : p.op 6 20 = 0) {j : Nat} {u : Strm} {ev : Nat}
    (hr : routeTarget s p (p.op 0 6) = some (e, .cell j u ev)) :
    Answers (.sig lc st f) s fun t => Retired lc st 1 s t ∧ (∀ i, (t.cell i).bank = (s.cell i).bank) ∧
      ∀ k, look 0 (t.stream j u).evc k =
        if k = ev then sat 16 (look 0 (s.stream j u).evc k + p.cnt) else look 0 (s.stream j u).evc k := by
  obtain ⟨rfl, rfl, -⟩ := siteAt_some h.2.1
  refine issue_answers_of_frame rfl (by decide) h (sigBody_eq hn h0 hr)
    (retire_frame (by decide) (signal_frame (m := 65792) (by decide) Fr.rfl)) ⟨?retired, fun i => ?bank, fun k => ?evc⟩
  case retired =>
    rw [Retired, stream_retire]
    exact ⟨congrArg (· + 1) (signal_cell_stream StreamS.off (fun _ _ _ => rfl) ..),
      congrArg (· + 1) (signal_cell_stream StreamS.cycles (fun _ _ _ => rfl) ..)⟩
  case bank => rw [bank_retire, signal_cell_bank]
  case evc =>
    have hevc : ((State.retire p 1 (s.signal (.cell j u ev) p.cnt)).stream j u).evc = ((s.signal (.cell j u ev) p.cnt).stream j u).evc := by
      rw [State.retire, stream_modStream, apply_ite StreamS.evc, ite_self]
    rw [hevc, signal_cell_evc]

/-- Settles O21: PUT by what it puts in flight, its delivery by bank and counter of the routed cell, SIG by that counter. -/
theorem putsAndSignals : Obligations.PutsAndSignals :=
  fun _ _ _ _ _ _ _ => ⟨put_answers, fun hlc _ _ hp _ _ _ hw => putDelivered_answers hlc hp hw, fun h hn h0 _ _ _ hr => sig_answers h hn h0 hr⟩

end Sys2Proof.Machine
end

section
/-! PROOFS. Beats in flight and tray slots (R60, R61, R73): what a beat that is written or issued leaves of its cell, and from this the statements
about the tray instructions (R65 to R67, R75, R124) and the matrix instructions (R60, R61, R63). -/

namespace Sys2Proof.Machine

-- One theorem after the other: as one text the files are near the memory limit of the check, and every thread that waits counts.
set_option Elab.async false

variable {c d e : Cell} {st : Strm}

/-! ### A change of tray slots and of beats in flight -/

/-- A cell that differs from `c` in its tray slots and in the beats in flight only. -/
structure TrayOnly (c d : Cell) : Prop where
  streams : SameStreams c d
  bank : d.bank = c.bank
  table : d.table = c.table
  vregs : d.vregs = c.vregs

theorem TrayOnly.refl (c : Cell) : TrayOnly c c := ⟨fun _ => ⟨rfl, rfl⟩, rfl, rfl, rfl⟩

theorem TrayOnly.trans (h : TrayOnly c d) (h' : TrayOnly d e) : TrayOnly c e :=
  ⟨fun st => ⟨(h'.streams st).1.trans (h.streams st).1, (h'.streams st).2.trans (h.streams st).2⟩, h'.bank.trans h.bank,
    h'.table.trans h.table, h'.vregs.trans h.vregs⟩

theorem trayOnly_foldl {α : Type} {k : Cell → α → Cell} (hk : ∀ c x, TrayOnly c (k c x)) (xs : List α) (c : Cell) : TrayOnly c (xs.foldl k c) :=
  foldl_rel TrayOnly.refl TrayOnly.trans hk xs c

theorem trayOnly_setSlot (c : Cell) (t : Nat) (x : Slot) : TrayOnly c (c.setSlot t x) := ⟨fun st => by cases st <;> exact ⟨rfl, rfl⟩, rfl, rfl, rfl⟩

theorem trayOnly_writeBeat (c : Cell) (b : Beat) : TrayOnly c (c.writeBeat b) := trayOnly_setSlot ..

theorem trayOnly_setBeats (c : Cell) (st : Strm) (g : StreamS → List Beat) : TrayOnly c (c.modStream st fun x => { x with beats := g x }) :=
  ⟨fun u => by cases st <;> cases u <;> exact ⟨rfl, rfl⟩, modStream_bank .., modStream_table .., modStream_vregs ..⟩

theorem trayOnly_settleStream (c : Cell) (st : Strm) (t : Nat) : TrayOnly c (c.settleStream st t) :=
  (trayOnly_foldl trayOnly_writeBeat _ c).trans (trayOnly_setBeats _ _ fun _ => (c.stream st).beats.filter fun b => b.slot != t)

theorem trayOnly_settle (c : Cell) (t : Nat) : TrayOnly c (c.settle t) := (trayOnly_settleStream ..).trans (trayOnly_settleStream ..)

@[simp] theorem past_bank (c : Cell) (st : Strm) (n : Nat) : (c.past st n).bank = c.bank := modStream_bank ..
@[simp] theorem past_table (c : Cell) (st : Strm) (n : Nat) : (c.past st n).table = c.table := modStream_table ..
@[simp] theorem past_vregs (c : Cell) (st : Strm) (n : Nat) : (c.past st n).vregs = c.vregs := modStream_vregs ..
@[simp] theorem past_vreg (c : Cell) (st : Strm) (n r : Nat) : (c.past st n).vreg r = c.vreg r := modStream_vreg ..
@[simp] theorem past_slot (c : Cell) (st : Strm) (n t : Nat) : (c.past st n).slot t = c.slot t := modStream_slot ..

/-! ### Slots -/

@[simp] theorem setSlot_slot (c : Cell) (t : Nat) (x : Slot) : (c.setSlot t x).slot t = x := look_store_eq ..

theorem setSlot_slot_ne (c : Cell) (x : Slot) {t u : Nat} (h : u ≠ t) : (c.setSlot t x).slot u = c.slot u := look_store_ne _ _ _ h

theorem slot_empty (m n : Nat) : ({} : Slot).entry m n = 0 := rfl

/-- Entry `i` of a slot set to the value `v i`. -/
def Slot.putEntry (v : Nat → Nat) (x : Slot) (i : Nat) : Slot := x.setEntry (i / 64) (i % 64) (v i)

/-- Entries written one after the other from entry 0 on. -/
theorem look_putEntries (x : Slot) (v : Nat → Nat) (n k : Nat) :
    look 0 ((List.range n).foldl (Slot.putEntry v) x).entries k = if k < n then BitVec.ofNat 48 (v k) else look 0 x.entries k := by
  induction n with
  | zero => rfl
  | succ n ih =>
    rw [List.range_succ, List.foldl_append, List.foldl_cons, List.foldl_nil]
    show look 0 (store 0 _ (64 * (n / 64) + n % 64) _) k = _
    rw [Nat.div_add_mod]
    by_cases hk : k = n
    · rw [hk, look_store_eq, if_pos (Nat.lt_succ_self n)]
    · rw [look_store_ne _ _ _ hk, ih]
      simp only [show k < n + 1 ↔ k < n by omega]

theorem putEntries_live (x : Slot) (v : Nat → Nat) (is : List Nat) : (is.foldl (Slot.putEntry v) x).live = x.live :=
  foldl_keeps Slot.live (k := Slot.putEntry v) (fun _ _ => rfl) is x

theorem putEntries_fmtI (x : Slot) (v : Nat → Nat) (is : List Nat) : (is.foldl (Slot.putEntry v) x).fmtI = x.fmtI :=
  foldl_keeps Slot.fmtI (k := Slot.putEntry v) (fun _ _ => rfl) is x

/-- Entries of 6 bytes stored one after the other (R65). -/
theorem stored_entries (t : Tab Byte) (a : Nat) (v : Nat → Nat) (n : Nat) :
    Stored t ((List.range n).foldl (fun b i => wrBytes b (a + 6 * i) (leBytes 6 (v i))) t) a (6 * n)
      fun i => (leBytes 6 (v (i / 6))).getD (i % 6) 0 := by
  induction n with
  | zero =>
    intro k
    exact (if_neg (by omega)).symm
  | succ n ih =>
    intro k
    rw [List.range_succ, List.foldl_append, List.foldl_cons, List.foldl_nil, stored_wrBytes, leBytes_length, ih k]
    by_cases hlast : a + 6 * n ≤ k ∧ k < a + 6 * n + 6
    · rw [if_pos hlast, if_pos (by omega)]
      dsimp only
      rw [show (k - a) / 6 = n by omega, show (k - a) % 6 = k - (a + 6 * n) by omega]
    · simp only [if_neg hlast, show (a ≤ k ∧ k < a + 6 * (n + 1)) ↔ (a ≤ k ∧ k < a + 6 * n) by omega]

/-- Rows of 64 elements, one after the other. -/
theorem getElem?_rows (v : Nat → Nat → Nat) (n i : Nat) :
    ((List.range n).flatMap fun m => (List.range 64).map fun k => v m k)[i]? = if i < 64 * n then some (v (i / 64) (i % 64)) else none := by
  induction n with
  | zero => rfl
  | succ n ih =>
    have hlen : ((List.range n).flatMap fun m => (List.range 64).map fun k => v m k).length = 64 * n := by
      simp [List.length_flatMap, Nat.mul_comm]
    rw [List.range_succ (n := n), List.flatMap_append, List.flatMap_singleton, List.getElem?_append, hlen, ih, getElem?_map_range]
    by_cases h1 : i < 64 * n
    · simp only [h1, if_true, show i < 64 * (n + 1) by omega]
    · rw [if_neg h1]
      by_cases h2 : i - 64 * n < 64
      · rw [if_pos h2, if_pos (by omega), show i / 64 = n by omega, show i % 64 = i - 64 * n by omega]
      · rw [if_neg h2, if_neg (by omega)]

/-! ### The tray instructions -/

section
variable {s : State} {lc : Nat} {f : CellWord} {p : Site}

/-- The bank with the entries of a slot stored (R65). -/
def savedBank (b : Tab Byte) (base cnt : Nat) (x : Slot) : Tab Byte :=
  (List.range (64 * cnt)).foldl (fun b i => wrBytes b (base + 6 * i) (leBytes 6 (x.entry (i / 64) (i % 64)))) b

/-- The slot that a TLD of full entries leaves (R66). -/
def loadedSlot (fmtI : Bool) (b : Tab Byte) (base cnt : Nat) : Slot :=
  (List.range (64 * cnt)).foldl (Slot.putEntry fun i => canonTray fmtI (leNat (rdBytes b (base + 6 * i) 6)))
    { fmtI := fmtI, live := true, entries := [] }

theorem loadedSlot_entry (fmtI : Bool) (b : Tab Byte) (base cnt m : Nat) {n : Nat} (hn : n < 64) :
    (loadedSlot fmtI b base cnt).entry m n =
      if m < cnt then canonTray fmtI (leNat (rdBytes b (base + 6 * (64 * m + n)) 6)) % 2 ^ 48 else 0 := by
  rw [Slot.entry, loadedSlot, putEntries_live, if_pos rfl, look_putEntries]
  simp only [show 64 * m + n < 64 * cnt ↔ m < cnt by omega]
  split
  · exact BitVec.toNat_ofNat ..
  · rfl

theorem tsvEffect_eq (hn : 1 ≤ p.cnt) (hm : p.cnt ≤ 64) (h0 : p.op 0 16 = 0) (hb : 1024 * p.op 16 10 + 384 * p.cnt ≤ bankSize) :
    tsvEffect p c = some
      { cell := { c.settle p.f.tidx.toNat with
          bank := savedBank (c.settle p.f.tidx.toNat).bank (1024 * p.op 16 10) p.cnt ((c.settle p.f.tidx.toNat).slot p.f.tidx.toNat) }
        cycles := p.cnt, report := !p.owns p.f.tidx.toNat } :=
  if_neg (by omega)

theorem tldEffect_eq (hn : 1 ≤ p.cnt) (hm : p.cnt ≤ 64) (h0 : p.op 0 14 = 0) (ho : p.owns p.f.tidx.toNat = true) (hfull : p.op 15 1 = 1)
    (hb : 1024 * p.op 16 10 + 384 * p.cnt ≤ bankSize) :
    tldEffect p c = some
      { cell := (c.settle p.f.tidx.toNat).setSlot p.f.tidx.toNat
          (loadedSlot (p.op 14 1 == 1) (c.settle p.f.tidx.toNat).bank (1024 * p.op 16 10) p.cnt)
        cycles := p.cnt } := by
  simp only [tldEffect, hfull, ho, beq_self_eq_true, if_true, Bool.not_true, Bool.false_eq_true, false_or]
  exact if_neg (by omega)

theorem tsv_answers (h : Stands 0x91 lc st f p s) (hn : 1 ≤ p.cnt) (hm : p.cnt ≤ 64) (h0 : p.op 0 16 = 0)
    (hb : 1024 * p.op 16 10 + 384 * p.cnt ≤ bankSize) :
    CellAnswers (.tsv lc st f) lc st p.cnt s fun d =>
      (d.slot p.f.tidx.toNat).entries = (((s.cell lc).settle p.f.tidx.toNat).slot p.f.tidx.toNat).entries ∧ d.vregs = (s.cell lc).vregs ∧
      Stored (s.cell lc).bank d.bank (1024 * p.op 16 10) (384 * p.cnt) fun i =>
        (leBytes 6 ((((s.cell lc).settle p.f.tidx.toNat).slot p.f.tidx.toNat).entry (i / 6 / 64) (i / 6 % 64))).getD (i % 6) 0 := by
  have ht := trayOnly_settle (s.cell lc) p.f.tidx.toNat
  refine (cellEffect_answers rfl (by decide) (tsvEffect_eq hn hm h0 hb) (fun u => ?_) h).mono fun d hd => ?_
  · have hu := ht.streams u
    cases u <;> exact hu
  · rw [hd, past_slot, past_vregs, past_bank]
    refine ⟨rfl, ht.vregs, ?_⟩
    have hst := stored_entries (s.cell lc).bank (1024 * p.op 16 10)
      (fun i => (((s.cell lc).settle p.f.tidx.toNat).slot p.f.tidx.toNat).entry (i / 64) (i % 64)) (64 * p.cnt)
    rw [show 6 * (64 * p.cnt) = 384 * p.cnt by omega] at hst
    rw [show ((s.cell lc).settle p.f.tidx.toNat).bank = (s.cell lc).bank from ht.bank]
    exact hst

/-- An instruction that sets slot `t` of the settled cell and leaves the rest of it. -/
theorem setSlot_answers {i : Instr} {opc n t : Nat} {x : Slot} {report : Bool} {body : Site → Cell → Option Effect}
    (hx : exec i s = act (okCell lc) s (s.issueCell opc lc st f body)) (ha : opAssigned opc = true)
    (hb : body p (s.cell lc) = some { cell := ((s.cell lc).settle t).setSlot t x, cycles := n, report := report })
    (h : Stands opc lc st f p s) :
    CellAnswers i lc st n s fun d => d.slot t = x ∧ (∀ u, u ≠ t → d.slot u = ((s.cell lc).settle t).slot u) ∧ d.bank = (s.cell lc).bank ∧
      d.vregs = (s.cell lc).vregs := by
  have ht := (trayOnly_settle (s.cell lc) t).trans (trayOnly_setSlot _ t x)
  refine (cellEffect_answers hx ha hb ht.streams h).mono fun d hd => ?_
  rw [hd, past_slot, past_bank, past_vregs, setSlot_slot]
  exact ⟨rfl, fun u hu => by rw [past_slot, setSlot_slot_ne _ _ hu], ht.bank, ht.vregs⟩

theorem tld_answers (h : Stands 0x92 lc st f p s) (hn : 1 ≤ p.cnt) (hm : p.cnt ≤ 64) (h0 : p.op 0 14 = 0)
    (ho : p.owns p.f.tidx.toNat = true) (hfull : p.op 15 1 = 1) (hb : 1024 * p.op 16 10 + 384 * p.cnt ≤ bankSize) :
    CellAnswers (.tld lc st f) lc st p.cnt s fun d =>
      d.bank = (s.cell lc).bank ∧ d.vregs = (s.cell lc).vregs ∧ (d.slot p.f.tidx.toNat).live = true ∧
      (d.slot p.f.tidx.toNat).fmtI = (p.op 14 1 == 1) ∧
      ∀ m n, n < 64 → (d.slot p.f.tidx.toNat).entry m n = if m < p.cnt then
          canonTray (p.op 14 1 == 1) (leNat (rdBytes (s.cell lc).bank (1024 * p.op 16 10 + 6 * (64 * m + n)) 6)) % 2 ^ 48 else 0 := by
  refine (setSlot_answers rfl (by decide) (tldEffect_eq hn hm h0 ho hfull hb) h).mono fun d ⟨hslot, _, hbank, hvregs⟩ => ?_
  rw [(trayOnly_settle (s.cell lc) p.f.tidx.toNat).bank] at hslot
  rw [hslot]
  exact ⟨hbank, hvregs, putEntries_live .., putEntries_fmtI .., fun m n h64 => loadedSlot_entry _ _ _ _ m h64⟩

theorem tzr_answers (h : Stands 0x93 lc st f p s) (ho : p.owns p.f.tidx.toNat = true) :
    CellAnswers (.tzr lc st f) lc st 1 s fun d =>
      d.slot p.f.tidx.toNat = {} ∧ (∀ m n, (d.slot p.f.tidx.toNat).entry m n = 0) ∧
      (∀ u, u ≠ p.f.tidx.toNat → d.slot u = ((s.cell lc).settle p.f.tidx.toNat).slot u) ∧ d.bank = (s.cell lc).bank ∧
      d.vregs = (s.cell lc).vregs := by
  have hb : tzrEffect p (s.cell lc) = some { cell := ((s.cell lc).settle p.f.tidx.toNat).setSlot p.f.tidx.toNat {}, cycles := 1 } :=
    if_neg (by simp [ho])
  refine (setSlot_answers rfl (by decide) hb h).mono fun d ⟨hslot, hothers, hbank, hvregs⟩ => ⟨hslot, fun m n => ?_, hothers, hbank, hvregs⟩
  rw [hslot, slot_empty]

/-! ### DRN to a vector register (R75, R124) -/

/-- The settled cell with slot `t` drained to vector register `r` (R124). -/
def Cell.drainedTo (c : Cell) (t r : Nat) (xs : List Nat) (clears : Bool) : Cell :=
  let d := (c.settle t).setVreg r (((c.settle t).vreg r).write 0 xs)
  if clears then d.setSlot t {} else d

theorem drainedTo_streams (c : Cell) (t r : Nat) (xs : List Nat) (clears : Bool) : SameStreams c (c.drainedTo t r xs clears) := by
  intro u
  have hu := (trayOnly_settle c t).streams u
  unfold Cell.drainedTo
  cases clears <;> cases u <;> exact hu

theorem drainedTo_bank (c : Cell) (t r : Nat) (xs : List Nat) (clears : Bool) : (c.drainedTo t r xs clears).bank = c.bank := by
  unfold Cell.drainedTo
  cases clears <;> exact (trayOnly_settle c t).bank

theorem drainedTo_slot (c : Cell) (t r : Nat) (xs : List Nat) (clears : Bool) :
    (c.drainedTo t r xs clears).slot t = if clears then {} else (c.settle t).slot t := by
  unfold Cell.drainedTo
  cases clears
  · rfl
  · exact setSlot_slot ..

theorem drainedTo_vreg (c : Cell) (t r : Nat) (xs : List Nat) (clears : Bool) : (c.drainedTo t r xs clears).vreg r = (c.vreg r).write 0 xs := by
  have hv : (c.settle t).vreg r = c.vreg r := by rw [Cell.vreg, (trayOnly_settle c t).vregs, Cell.vreg]
  have hw : ((c.settle t).setVreg r (((c.settle t).vreg r).write 0 xs)).vreg r = (c.vreg r).write 0 xs := by rw [setVreg_vreg, hv]
  unfold Cell.drainedTo
  cases clears <;> exact hw

theorem drnEffect_eq {e : Epilogue} (hn : 1 ≤ p.cnt) (hm : p.cnt ≤ 64) (hs : p.op 8 3 ≤ 3) (hdst : p.op 4 1 = 1)
    (hf : p.f.fmtb.toNat = 0 ∨ p.f.fmtb.toNat = 8) (he : epilogueAt c.table (p.op 11 5) = some e)
    (hok : e.ok (c.settle p.f.tidx.toNat) p.cnt = true) (hact : e.act < 2) :
    drnEffect p c = some
      { cell := c.drainedTo p.f.tidx.toNat (p.op 0 4)
          ((List.range p.cnt).flatMap fun m => (List.range 64).map fun n =>
            drainElem p (c.settle p.f.tidx.toNat) e none ((c.settle p.f.tidx.toNat).slot p.f.tidx.toNat) m n)
          (p.op 5 1 == 1 && p.owns p.f.tidx.toNat)
        cycles := p.cnt, report := p.badRm || !p.owns p.f.tidx.toNat } := by
  have htab : epilogueAt (c.settle p.f.tidx.toNat).table (p.op 11 5) = some e := by rw [(trayOnly_settle ..).table, he]
  simp only [drnEffect, hdst, beq_self_eq_true, true_and, Bool.not_true, Bool.false_eq_true, false_and, or_false, if_true]
  rw [if_neg (by omega), htab]
  simp only [hok, hact, Bool.not_true, Bool.false_eq_true, if_true, if_false]
  rfl

theorem drn_answers {e : Epilogue} (h : Stands 0x90 lc st f p s) (hn : 1 ≤ p.cnt) (hm : p.cnt ≤ 64) (hs : p.op 8 3 ≤ 3) (hdst : p.op 4 1 = 1)
    (hf : p.f.fmtb.toNat = 0 ∨ p.f.fmtb.toNat = 8) (he : epilogueAt (s.cell lc).table (p.op 11 5) = some e)
    (hok : e.ok ((s.cell lc).settle p.f.tidx.toNat) p.cnt = true) (hact : e.act < 2) :
    CellAnswers (.drn lc st f) lc st p.cnt s fun d =>
      d.bank = (s.cell lc).bank ∧
      (if p.op 5 1 = 1 ∧ p.owns p.f.tidx.toNat then d.slot p.f.tidx.toNat = {}
        else d.slot p.f.tidx.toNat = ((s.cell lc).settle p.f.tidx.toNat).slot p.f.tidx.toNat) ∧
      ∀ i, (d.vreg (p.op 0 4)).elem i = if i < 64 * p.cnt then
          drainElem p ((s.cell lc).settle p.f.tidx.toNat) e none (((s.cell lc).settle p.f.tidx.toNat).slot p.f.tidx.toNat) (i / 64) (i % 64)
            % 2 ^ 32
        else ((s.cell lc).vreg (p.op 0 4)).elem i := by
  refine (cellEffect_answers rfl (by decide) (drnEffect_eq hn hm hs hdst hf he hok hact) (drainedTo_streams _ _ _ _ _) h).mono fun d hd => ?_
  rw [hd, past_bank, past_slot, past_vreg, drainedTo_bank, drainedTo_slot, drainedTo_vreg]
  refine ⟨rfl, ?_, fun i => ?_⟩
  · by_cases hc : p.op 5 1 = 1 ∧ p.owns p.f.tidx.toNat = true
    · rw [if_pos hc, if_pos (by simp [hc])]
    · rw [if_neg hc, if_neg (by simpa using hc)]
  · have hw := VReg.write_elem ((s.cell lc).vreg (p.op 0 4)) 0 ((List.range p.cnt).flatMap fun m => (List.range 64).map fun n =>
      drainElem p ((s.cell lc).settle p.f.tidx.toNat) e none (((s.cell lc).settle p.f.tidx.toNat).slot p.f.tidx.toNat) m n) i
    rw [Nat.zero_add, getElem?_rows] at hw
    rw [hw]
    split <;> rfl

end

/-- Settles O22: TSV by the bytes that it stores, TLD, TZR and DRN by the slot that they set or clear. -/
theorem traySlots : Obligations.TraySlots :=
  fun _ _ _ _ _ => ⟨tsv_answers, tld_answers, tzr_answers, fun h hn hm hs hdst hf _ he hok hact => drn_answers h hn hm hs hdst hf he hok hact⟩

end Sys2Proof.Machine
end

section
/-! PROOFS. The matrix instructions and the write-back of their beats (R60, R61, R63, R73). -/

namespace Sys2Proof.Machine

-- One theorem after the other: as one text the files are near the memory limit of the check, and every thread that waits counts.
set_option Elab.async false

variable {c d e : Cell} {st : Strm}

/-! ### Beats in flight -/

theorem writeBeat_live (x : Slot) (b : Beat) : (x.writeBeat b).live = x.live := by
  unfold Slot.writeBeat
  exact foldl_keeps Slot.live (fun _ _ => by rfl) _ x

theorem writeBeat_fmtI (x : Slot) (b : Beat) : (x.writeBeat b).fmtI = x.fmtI := by
  unfold Slot.writeBeat
  exact foldl_keeps Slot.fmtI (fun _ _ => by rfl) _ x

theorem stream_writeBeat (c : Cell) (b : Beat) (st : Strm) : (c.writeBeat b).stream st = c.stream st := by
  cases st <;> rfl

theorem slot_writeBeat (c : Cell) (b : Beat) (k : Nat) :
    (c.writeBeat b).slot k = if k = b.slot then (c.slot b.slot).writeBeat b else c.slot k := by
  unfold Cell.writeBeat
  split
  · next h => rw [h, setSlot_slot]
  · next h => exact setSlot_slot_ne _ _ h

/-- The oldest beat leaves the beats in flight. -/
theorem oldestBeat_beats (c : Cell) (st : Strm) : ((c.oldestBeat st).stream st).beats = (c.stream st).beats.tail := by
  unfold Cell.oldestBeat
  split
  · next h => rw [h, List.tail_nil]
  · next b r h => rw [modStream_stream, h, List.tail_cons]

/-- A cell in which beats of stream `st` have been written or issued: every slot has kept its marks, and no more than 10 beats are in flight
where there were no more. -/
structure BeatsIssued (st : Strm) (c d : Cell) : Prop where
  tray : TrayOnly c d
  live : ∀ k, (d.slot k).live = (c.slot k).live
  fmtI : ∀ k, (d.slot k).fmtI = (c.slot k).fmtI
  few : (c.stream st).beats.length ≤ 10 → (d.stream st).beats.length ≤ 10

theorem BeatsIssued.refl (c : Cell) : BeatsIssued st c c := ⟨TrayOnly.refl c, fun _ => rfl, fun _ => rfl, id⟩

theorem BeatsIssued.trans (h : BeatsIssued st c d) (h' : BeatsIssued st d e) : BeatsIssued st c e :=
  ⟨h.tray.trans h'.tray, fun k => (h'.live k).trans (h.live k), fun k => (h'.fmtI k).trans (h.fmtI k), h'.few ∘ h.few⟩

theorem oldestBeat_trayOnly (c : Cell) (st : Strm) : TrayOnly c (c.oldestBeat st) := by
  unfold Cell.oldestBeat
  split
  · exact TrayOnly.refl c
  · next b r _ => exact (trayOnly_writeBeat c b).trans (trayOnly_setBeats _ _ fun _ => r)

/-- What every beat that is written into a slot keeps of it, the oldest beat keeps of every slot. -/
theorem oldestBeat_slot {α : Type} (g : Slot → α) (hg : ∀ x b, g (Slot.writeBeat x b) = g x) (c : Cell) (st : Strm) (k : Nat) :
    g ((c.oldestBeat st).slot k) = g (c.slot k) := by
  unfold Cell.oldestBeat
  split
  · rfl
  · rw [modStream_slot, slot_writeBeat]
    split
    · next h => rw [hg, h]
    · rfl

theorem issueBeat_issued (c : Cell) (st : Strm) (b : Beat) : BeatsIssued st c (c.issueBeat st b) := by
  unfold Cell.issueBeat
  dsimp only
  split
  · next h =>
    refine ⟨(oldestBeat_trayOnly c st).trans (trayOnly_setBeats _ _ fun x => x.beats ++ [b]), fun k => ?_, fun k => ?_, fun hfew => ?_⟩
    · rw [modStream_slot, oldestBeat_slot Slot.live writeBeat_live]
    · rw [modStream_slot, oldestBeat_slot Slot.fmtI writeBeat_fmtI]
    · rw [modStream_stream, List.length_append, oldestBeat_beats, List.length_tail, List.length_singleton]
      omega
  · next h =>
    refine ⟨trayOnly_setBeats _ _ fun x => x.beats ++ [b], fun k => ?_, fun k => ?_, fun _ => ?_⟩
    · rw [modStream_slot]
    · rw [modStream_slot]
    · rw [modStream_stream, List.length_append, List.length_singleton]
      omega

theorem runPass_issued (c : Cell) (p : Site) (q : Pass) : BeatsIssued p.st c (c.runPass p q) :=
  foldl_rel BeatsIssued.refl BeatsIssued.trans (fun _ _ => issueBeat_issued ..) _ c

/-! ### A slot that is taken -/

theorem settleStream_beats_le (c : Cell) (u st : Strm) (t : Nat) :
    ((c.settleStream u t).stream st).beats.length ≤ (c.stream st).beats.length := by
  have hstream : ∀ bs : List Beat, (bs.foldl Cell.writeBeat c).stream st = c.stream st :=
    fun bs => foldl_keeps (Cell.stream · st) (fun c b => stream_writeBeat c b st) bs c
  unfold Cell.settleStream
  dsimp only
  by_cases h : u = st
  · subst h
    rw [modStream_stream]
    exact List.length_filter_le ..
  · have hne : ∀ (x : Cell) g, (x.modStream u g).stream st = x.stream st := fun x g => by cases u <;> cases st <;> trivial
    rw [hne, hstream]

theorem settle_beats_le (c : Cell) (st : Strm) (t : Nat) : ((c.settle t).stream st).beats.length ≤ (c.stream st).beats.length :=
  (settleStream_beats_le ..).trans (settleStream_beats_le ..)

/-- A slot that is taken is LIVE in its format, and the beats in flight into it are written (R61). -/
theorem takeSlot_some {t : Nat} {fmtI acc : Bool} {hit : Nat → Bool} (h : c.takeSlot t fmtI acc hit = some d) (st : Strm) :
    TrayOnly c d ∧ (d.slot t).live = true ∧ (d.slot t).fmtI = fmtI ∧ (d.stream st).beats.length ≤ (c.stream st).beats.length := by
  unfold Cell.takeSlot at h
  dsimp only at h
  split at h
  · cases h
  · cases h
    refine ⟨(trayOnly_settle c t).trans (trayOnly_setSlot ..), by rw [setSlot_slot], by rw [setSlot_slot], ?_⟩
    have hstream : ∀ (x : Cell) (y : Slot), (x.setSlot t y).stream st = x.stream st := fun x y => by cases st <;> rfl
    rw [hstream]
    exact settle_beats_le ..

theorem takeSlot_isSome {t : Nat} {fmtI acc : Bool} {hit : Nat → Bool} (h : ((c.settle t).slot t).live = false) :
    (c.takeSlot t fmtI acc hit).isSome = true := by
  simp [Cell.takeSlot, h]

/-! ### MMA and SLR -/

/-- What a matrix instruction leaves of its cell. -/
structure MatrixDone (st : Strm) (t : Nat) (fmtI : Bool) (c d : Cell) : Prop where
  tray : TrayOnly c d
  live : (d.slot t).live = true
  fmtI : (d.slot t).fmtI = fmtI
  few : (c.stream st).beats.length ≤ 10 → (d.stream st).beats.length ≤ 10

/-- A slot is taken, then beats are issued. -/
theorem matrixDone_of_issued {t : Nat} {fmtI acc : Bool} {hit : Nat → Bool} (h : c.takeSlot t fmtI acc hit = some d) (hi : BeatsIssued st d e) :
    MatrixDone st t fmtI c e := by
  obtain ⟨htray, hlive, hfmt, hle⟩ := takeSlot_some h st
  exact ⟨htray.trans hi.tray, (hi.live t).trans hlive, (hi.fmtI t).trans hfmt, fun hc => hi.few (hle.trans hc)⟩

section
variable {s : State} {lc : Nat} {f : CellWord} {p : Site} {x : Effect}

theorem mmaEffect_done (h : mmaEffect p c = some x) :
    x.cycles = 4 + (p.op 2 4 + 1) * max p.cnt 4 ∧ MatrixDone p.st p.f.tidx.toNat (pairInt p.f.fmta.toNat p.f.fmtb.toNat) c x.cell := by
  unfold mmaEffect at h
  dsimp only at h
  split at h
  · cases h
  · rw [Option.map_eq_some_iff] at h
    obtain ⟨y, hy, rfl⟩ := h
    exact ⟨rfl, matrixDone_of_issued hy (runPass_issued ..)⟩

theorem slrEffect_done (h : slrEffect p c = some x) :
    MatrixDone p.st p.f.tidx.toNat (pairInt p.f.fmta.toNat p.f.fmtb.toNat) c x.cell := by
  unfold slrEffect at h
  dsimp only at h
  split at h
  · cases h
  · rw [Option.map_eq_some_iff] at h
    obtain ⟨y, hy, rfl⟩ := h
    exact matrixDone_of_issued hy (foldl_rel BeatsIssued.refl BeatsIssued.trans (fun _ _ => runPass_issued ..) _ y)

theorem matrix_answers {i : Instr} {opc t : Nat} {fmtI : Bool} {body : Site → Cell → Option Effect}
    (hx : exec i s = act (okCell lc) s (s.issueCell opc lc st f body)) (ha : opAssigned opc = true) (hb : body p (s.cell lc) = some x)
    (hd : MatrixDone p.st t fmtI (s.cell lc) x.cell) (h : Stands opc lc st f p s) :
    CellAnswers i lc st x.cycles s fun d => (d.slot t).live = true ∧ (d.slot t).fmtI = fmtI ∧
      d.bank = (s.cell lc).bank ∧ d.table = (s.cell lc).table ∧ d.vregs = (s.cell lc).vregs ∧
      (((s.cell lc).stream st).beats.length ≤ 10 → (d.stream st).beats.length ≤ 10) := by
  obtain ⟨rfl, rfl, -⟩ := siteAt_some h.2.1
  refine (cellEffect_answers hx ha hb hd.tray.streams h).mono fun d hcell => ?_
  rw [hcell, past_slot, past_bank, past_table, past_vregs, Cell.past, modStream_stream]
  exact ⟨hd.live, hd.fmtI, hd.tray.bank, hd.tray.table, hd.tray.vregs, hd.few⟩

/-- An MMA whose operands are legal and lie in the bank has an effect on a slot that is not LIVE (R58, R59, R61). -/
theorem mmaEffect_isSome (hkc : chunkWidth p.f.fmta.toNat p.f.fmtb.toNat ≠ 0) (hn : 1 ≤ p.cnt) (hm : p.cnt ≤ 64) (h0 : p.op 0 1 = 0)
    (ho : p.owns p.f.tidx.toNat = true)
    (hA : 1024 * p.op 16 10 +
        p.cnt * ((p.op 2 4 + 1) * chunkWidth p.f.fmta.toNat p.f.fmtb.toNat * fmtWidth p.f.fmta.toNat / 8) +
        (p.op 2 4 + 1) * chunkWidth p.f.fmta.toNat p.f.fmtb.toNat * fmtWidth p.f.fmta.toNat ≤ bankSize)
    (hB : 1024 * p.op 6 10 + (p.op 2 4 + 1) * (64 * chunkWidth p.f.fmta.toNat p.f.fmtb.toNat * fmtWidth p.f.fmtb.toNat / 8) ≤ bankSize)
    (hl : ((c.settle p.f.tidx.toNat).slot p.f.tidx.toNat).live = false) : (mmaEffect p c).isSome = true := by
  have hrows : ∀ a, (p.cnt - 1) * a ≤ p.cnt * a := fun a => Nat.mul_le_mul_right a (Nat.sub_le ..)
  have hlen : ∀ w n, packedLen w n ≤ n * w := fun w n => by
    rw [packedLen, ceilDiv, Nat.mul_comm w n]
    omega
  have hA' : 1024 * p.op 16 10 +
      (p.cnt - 1) * ((p.op 2 4 + 1) * chunkWidth p.f.fmta.toNat p.f.fmtb.toNat * fmtWidth p.f.fmta.toNat / 8) +
      packedLen (fmtWidth p.f.fmta.toNat) ((p.op 2 4 + 1) * chunkWidth p.f.fmta.toNat p.f.fmtb.toNat) ≤ bankSize :=
    le_trans (Nat.add_le_add (Nat.add_le_add_left (hrows _) _) (hlen ..)) hA
  unfold mmaEffect
  dsimp only
  rw [if_neg (by simp [Pass.inBank, hkc, h0, ho, hA', hB]; omega), Option.isSome_map]
  exact takeSlot_isSome hl

/-- The oldest beat in flight is written to its slot, the others stay in flight (R60, R73). -/
theorem beatWriteback_answers (hlc : lc < 960) {b : Beat} {r : List Beat} (hb : ((s.cell lc).stream st).beats = b :: r) :
    Answers (.beatWriteback lc st) s fun u => (u.stream lc st).beats = r ∧ (∀ j, j ≠ lc → u.cell j = s.cell j) ∧
      (u.cell lc).slot b.slot = ((s.cell lc).slot b.slot).writeBeat b ∧ ∀ k, k ≠ b.slot → (u.cell lc).slot k = (s.cell lc).slot k := by
  have hcell : (s.modCell lc fun c => c.oldestBeat st).cell lc = ((s.cell lc).writeBeat b).modStream st fun x => { x with beats := r } := by
    rw [modCell_read, Cell.oldestBeat, hb]
  refine ⟨_, act_ok (decide_eq_true hlc) rfl rfl, ?_⟩
  dsimp only
  rw [stream_eq, hcell, modStream_stream, modStream_slot, slot_writeBeat, if_pos rfl]
  exact ⟨rfl, fun j hj => modCell_read_ne _ _ _ hj, rfl, fun k hk => by rw [modStream_slot, slot_writeBeat, if_neg hk]⟩

end

/-- Settles O23: MMA and SLR each take their slot and then issue beats; a beat's write takes the oldest. -/
theorem matrixInstructions : Obligations.MatrixInstructions := by
  refine fun s lc st f p => ⟨fun e he h => ?mma, fun e he h => matrix_answers rfl (by decide) he (slrEffect_done he) h,
    mmaEffect_isSome, fun hlc b r hb => beatWriteback_answers hlc hb⟩
  obtain ⟨hcycles, hdone⟩ := mmaEffect_done he
  exact ⟨hcycles, matrix_answers rfl (by decide) he hdone h⟩

end Sys2Proof.Machine
end

section
/-! PROOFS. The round boundary (R30, R31): a source that has been selected and has not ticked is not in effect, and its length is not either. -/

namespace Sys2Proof.Machine

-- One theorem after the other: as one text the files are near the memory limit of the check, and every thread that waits counts.
set_option Elab.async false

/-- A LOCAL device at which FOLLOWER has been selected: the last tick frame named a length of 5 units, and the device's own timer has expired. -/
def followerSelected : State := { State.reset with rnd := { State.reset.rnd with enable := true, src := 2, hoopLen := 5, tick := some {} } }

/-- The boundary leaves LOCAL in effect, and with it the length of LOCAL. -/
theorem followerSelected_lenEff : ∃ t, exec .roundTick followerSelected = .next t ∧ t.rnd.lenEff = 2 := ⟨_, rfl, by decide +kernel⟩

/-- Refutes O27: a round that the device's own timer begins while FOLLOWER is selected and LOCAL in effect has not the length of the hoop. -/
theorem not_roundBoundary : ¬ Obligations.RoundBoundary := by
  intro h
  obtain ⟨t, ht, -, -, -, -, hlen, -⟩ := (h followerSelected).2 {} rfl (by decide +kernel)
  obtain ⟨u, hu, hlocal⟩ := followerSelected_lenEff
  cases ht.symm.trans hu
  have hhoop : t.rnd.lenEff = 5 := hlen
  rw [hlocal] at hhoop
  cases hhoop

end Sys2Proof.Machine
end

section
/-! PROOFS. The halvings of the use counts (R156, R193, R225), the closing of generations (R177), the admission of units (R39, R43, R45) and the parking
of sequences (R159). -/

namespace Sys2Proof.Machine

-- One theorem after the other: as one text the files are near the memory limit of the check, and every thread that waits counts.
set_option Elab.async false

variable {s : State}

/-! ### Listed values changed -/

theorem mem_mapTab {α : Type} [DecidableEq α] {d : α} {g : Nat → α → α} {t : Tab α} {k : Nat} {w : α} :
    (k, w) ∈ mapTab d g t ↔ w ≠ d ∧ ∃ v, (k, v) ∈ t ∧ w = g k v := by
  simp only [mapTab, List.mem_filter, List.mem_map, Prod.exists, Prod.mk.injEq, Bool.not_eq_true', decide_eq_false_iff_not]
  constructor
  · rintro ⟨⟨j, v, hv, rfl, rfl⟩, hw⟩
    exact ⟨hw, v, hv, rfl⟩
  · rintro ⟨hw, v, hv, rfl⟩
    exact ⟨⟨k, v, hv, rfl, rfl⟩, hw⟩

/-- A value that is listed is listed changed, where what tells it from the default stays. -/
theorem mem_mapTab_of_mem {α β : Type} [DecidableEq α] {d : α} {g : Nat → α → α} {t : Tab α} {k : Nat} {v : α} (q : α → β)
    (hq : q (g k v) ≠ q d) (hv : (k, v) ∈ t) : (k, g k v) ∈ mapTab d g t :=
  mem_mapTab.2 ⟨fun h => hq (congrArg q h), v, hv, rfl⟩

/-! ### Use counts -/

theorem weaverDecay_dir (hd : decayDue 256 s.rnd.weaverDecay s = true) :
    s.weaverDecay.weav.dir = mapTab {} (fun _ (w : Weaver) => { w with heat := w.heat / 2 }) s.weav.dir := by
  rw [State.weaverDecay, if_pos hd]

theorem stakeDecay_stakes (hd : decayDue 256 s.rnd.stakeDecay s = true) :
    s.stakeDecay.stakes = mapTab {} (fun _ (k : Stake) => { k with use := k.use / 2 }) s.stakes := by
  rw [State.stakeDecay, if_pos hd]

theorem frameDecay_mem (hd : decayDue (2 ^ s.mem.heatShift) s.rnd.frameDecay s = true) : s.frameDecay.mem =
    { s.mem with
      frames := mapTab {} (fun _ (e : FrameE) => { e with heat := e.heat / 2 }) s.mem.frames
      pte := mapTab {} (fun _ (e : Pte) => { e with heat := e.heat / 2 }) s.mem.pte } := by
  rw [State.frameDecay, if_pos hd]

theorem weaverHeatDecay_answers (hd : decayDue 256 s.rnd.weaverDecay s = true) : Answers .weaverHeatDecay s fun t =>
    (∀ h w, (h, w) ∈ t.weav.dir → ∃ v, (h, v) ∈ s.weav.dir ∧ w = { v with heat := v.heat / 2 }) ∧
    (∀ h v, (h, v) ∈ s.weav.dir → v.state ≠ .free → (h, { v with heat := v.heat / 2 }) ∈ t.weav.dir) := by
  refine answers_of_frame rfl rfl (weaverDecay_frame (Nat.or_self _) Fr.rfl) ?_
  rw [weaverDecay_dir hd]
  exact ⟨fun h w hw => (mem_mapTab.1 hw).2, fun h v hv hstate => mem_mapTab_of_mem Weaver.state hstate hv⟩

theorem stakeUseDecay_answers (hd : decayDue 256 s.rnd.stakeDecay s = true) : Answers .stakeUseDecay s fun t =>
    (∀ h w, (h, w) ∈ t.stakes → ∃ v, (h, v) ∈ s.stakes ∧ w = { v with use := v.use / 2 }) ∧
    (∀ h v, (h, v) ∈ s.stakes → v.reg = true → (h, { v with use := v.use / 2 }) ∈ t.stakes) := by
  refine answers_of_frame rfl rfl (stakeDecay_frame (Nat.or_self _) Fr.rfl) ?_
  rw [stakeDecay_stakes hd]
  exact ⟨fun h w hw => (mem_mapTab.1 hw).2, fun h v hv hreg => mem_mapTab_of_mem Stake.reg (by simp [hreg]) hv⟩

theorem frameHeatDecay_answers (hd : decayDue (2 ^ s.mem.heatShift) s.rnd.frameDecay s = true) : Answers .frameHeatDecay s fun t =>
    (∀ f w, (f, w) ∈ t.mem.frames → ∃ v, (f, v) ∈ s.mem.frames ∧ w = { v with heat := v.heat / 2 }) ∧
    (∀ f v, (f, v) ∈ s.mem.frames → v.state ≠ .free → (f, { v with heat := v.heat / 2 }) ∈ t.mem.frames) ∧
    (∀ k e, (k, e) ∈ t.mem.pte → ∃ v, (k, v) ∈ s.mem.pte ∧ e = { v with heat := v.heat / 2 }) ∧
    t.mem.hbm = s.mem.hbm ∧ t.mem.slow = s.mem.slow := by
  refine answers_of_frame rfl rfl (frameDecay_frame (Nat.or_self _) Fr.rfl) ?_
  rw [frameDecay_mem hd]
  dsimp only
  exact ⟨fun f w hw => (mem_mapTab.1 hw).2, fun f v hv hstate => mem_mapTab_of_mem FrameE.state hstate hv,
    fun k e he => (mem_mapTab.1 he).2, rfl, rfl⟩

/-! ### Generations (R177) -/

/-- A generation at a boundary: an OPEN one whose rounds are over becomes CLOSED. -/
def closedGen (r : Nat) (g : Gen) : Gen := if g.state = .isOpen ∧ g.closeRnd ≤ r then { g with state := .closed } else g

theorem closeGens_gens (sid : Nat) :
    ((s.closeGens sid).stake sid).gens = mapTab {} (fun _ => closedGen (boundaryRnd s)) (s.stake sid).gens := by
  rw [State.closeGens, modStake_read]
  rfl

theorem closedGen_over (r : Nat) (g : Gen) : ¬((closedGen r g).state = .isOpen ∧ (closedGen r g).closeRnd ≤ r) := by
  unfold closedGen
  split
  · exact fun h => nomatch h.1
  · assumption

theorem genClose_answers {sid : Nat} (hsid : sid < 256) : Answers (.genClose sid) s fun t =>
    (∀ i g, (i, g) ∈ (t.stake sid).gens → ¬(g.state = .isOpen ∧ g.closeRnd ≤ boundaryRnd s)) ∧
    (∀ i g, (i, g) ∈ (s.stake sid).gens → g.state = .isOpen → g.closeRnd ≤ boundaryRnd s →
      (i, { g with state := .closed }) ∈ (t.stake sid).gens) ∧
    (∀ i, i ≠ sid → t.stake i = s.stake i) := by
  refine answers_of_frame rfl (decide_eq_true hsid) (closeGens_frame (Nat.or_self _) Fr.rfl) ?_
  rw [closeGens_gens]
  refine ⟨fun i g hg => ?_, fun i g hg hstate hrnd => ?_, fun i hi => modStake_read_ne _ _ _ hi⟩
  · obtain ⟨-, v, -, rfl⟩ := mem_mapTab.1 hg
    exact closedGen_over _ _
  · have hc : closedGen (boundaryRnd s) g = { g with state := .closed } := if_pos ⟨hstate, hrnd⟩
    have hm := mem_mapTab_of_mem (d := ({} : Gen)) (g := fun _ => closedGen (boundaryRnd s)) Gen.state (by rw [hc]; nofun) hg
    rwa [hc] at hm

/-! ### Admission (R39) -/

/-- A unit that fits is charged (R39); a class other than SERVE and TUNE has no part in borrowing. -/
theorem admitUnit_fits {c : Nat} {x : Cost} (hs : c ≠ Act.serve) (ht : c ≠ Act.tune) (ho : admitOpen s c x = true)
    (hf : fitsAll x (tallyOf s c) (effAllowance s c) = true) : s.admitUnit c x = (true, s.charge c x) := by
  simp only [State.admitUnit, ho, hf, if_neg hs, if_neg ht, Bool.not_true, Bool.false_eq_true, if_false, if_true]

theorem admitUnit_refused {c : Nat} {x : Cost} (ht : c ≠ Act.tune) (ho : admitOpen s c x = true)
    (hf : fitsAll x (tallyOf s c) (effAllowance s c) = false) : s.admitUnit c x = (false, s.turnAway c 1) := by
  simp only [State.admitUnit, ho, hf, if_neg ht, Bool.not_true, Bool.false_eq_true, if_false]

/-- A refused unit is counted (R39). -/
theorem turnAway_units (c : Nat) : (look {} (s.turnAway c 1).bud.wait c).units = sat 32 ((look {} s.bud.wait c).units + 1) := by
  unfold State.turnAway
  dsimp only
  rw [look_adj_eq]

/-- Where borrowing has not changed, no TUNE unit asks again. -/
theorem retryTune_same {t : State} (h : t.bud.borrow = s.bud.borrow) : State.retryTune s t = t := by
  unfold State.retryTune
  rw [h]
  refine if_pos ?_
  cases s.bud.borrow
  · exact .inr rfl
  · exact .inl rfl

/-- A unit that no unit held stands for is admitted and started, or held. -/
theorem present_eq {u : WorkUnit} {c : Nat} {x : Cost} (hq : (s.bud.queue.any fun w => w.unit == u) = false) (hu : unitCost s u = some (c, x))
    (ht : c ≠ Act.tune) : s.present u =
      if (s.admitUnit c x).1 then (State.retryTune s (s.admitUnit c x).2).startUnit u else (State.retryTune s (s.admitUnit c x).2).hold u c x := by
  simp only [State.present, State.presentWith, hq, hu, ht, Bool.false_eq_true, if_false, false_and]

theorem present_fits {u : WorkUnit} {c : Nat} {x : Cost} (hq : (s.bud.queue.any fun w => w.unit == u) = false) (hu : unitCost s u = some (c, x))
    (hs : c ≠ Act.serve) (ht : c ≠ Act.tune) (ho : admitOpen s c x = true) (hf : fitsAll x (tallyOf s c) (effAllowance s c) = true) :
    s.present u = (s.charge c x).startUnit u := by
  rw [present_eq hq hu ht, admitUnit_fits hs ht ho hf, if_pos rfl, retryTune_same (s := s) (t := s.charge c x) rfl]

theorem present_refused {u : WorkUnit} {c : Nat} {x : Cost} (hq : (s.bud.queue.any fun w => w.unit == u) = false)
    (hu : unitCost s u = some (c, x)) (ht : c ≠ Act.tune) (ho : admitOpen s c x = true)
    (hf : fitsAll x (tallyOf s c) (effAllowance s c) = false) : s.present u = (s.turnAway c 1).hold u c x := by
  rw [present_eq hq hu ht, admitUnit_refused ht ho hf, if_neg Bool.false_ne_true, retryTune_same (s := s) (t := s.turnAway c 1) rfl]

/-- The unit of an access that fits is charged, and nothing else changes. -/
theorem accessAdmit_fits {c cc hbm link : Nat} (hc : c < 8) (hs : c ≠ Act.serve) (ht : c ≠ Act.tune)
    (hq : (s.bud.queue.any fun w => w.unit == .access c cc hbm link) = false) (ho : admitOpen s c ⟨cc, hbm, link⟩ = true)
    (hf : fitsAll ⟨cc, hbm, link⟩ (tallyOf s c) (effAllowance s c) = true) :
    exec (.unitAdmit (.access c cc hbm link)) s = .next (s.charge c ⟨cc, hbm, link⟩) := by
  show act (okClass c) s (s.present (.access c cc hbm link)) = _
  rw [present_fits hq rfl hs ht ho hf]
  exact act_ok (decide_eq_true hc) rfl rfl

/-- The unit of an access that does not fit is counted and waits. -/
theorem accessAdmit_refused {c cc hbm link : Nat} (hc : c < 8) (ht : c ≠ Act.tune)
    (hq : (s.bud.queue.any fun w => w.unit == .access c cc hbm link) = false) (ho : admitOpen s c ⟨cc, hbm, link⟩ = true)
    (hf : fitsAll ⟨cc, hbm, link⟩ (tallyOf s c) (effAllowance s c) = false) :
    Answers (.unitAdmit (.access c cc hbm link)) s fun t =>
      t.bud.queue = s.bud.queue ++ [{ unit := .access c cc hbm link, cls := c, cost := ⟨cc, hbm, link⟩ }] ∧ t.bud.tally = s.bud.tally ∧
      (look {} t.bud.wait c).units = sat 32 ((look {} s.bud.wait c).units + 1) ∧ t.cells = s.cells := by
  refine answers_of_frame rfl (decide_eq_true hc) (present_frame (Nat.or_self _) Fr.rfl) ?_
  rw [present_refused hq rfl ht ho hf]
  exact ⟨rfl, rfl, turnAway_units c, rfl⟩

/-- A block that fits goes on issue, and its declared cost is charged (R40, R43, R45). -/
theorem blockAdmit_fits {lc i : Nat} {st : Strm} {co : Course} {b : Block} (hlc : lc < 960) (hb : readyBlock s lc st = some (co, i, b))
    (hs : co.plan.cls ≠ Act.serve) (ht : co.plan.cls ≠ Act.tune) (hq : (s.bud.queue.any fun w => w.unit == .block lc st) = false)
    (ho : admitOpen s co.plan.cls b.cost = true) (hf : fitsAll b.cost (tallyOf s co.plan.cls) (effAllowance s co.plan.cls) = true) :
    Answers (.unitAdmit (.block lc st)) s fun t =>
      (t.stream lc st).running = true ∧ (t.stream lc st).code = b.words ∧ (t.stream lc st).off = 0 ∧ (t.stream lc st).blk = i ∧
      (t.stream lc st).idle = none ∧ t.bud = (s.charge co.plan.cls b.cost).bud := by
  have hu : unitCost s (.block lc st) = some (co.plan.cls, b.cost) := by simp only [unitCost, hb, Option.map_some]
  have hready : readyBlock (s.charge co.plan.cls b.cost) lc st = some (co, i, b) := hb
  refine answers_of_frame rfl (decide_eq_true hlc) (present_frame (Nat.or_self _) Fr.rfl) ?_
  rw [present_fits hq hu hs ht ho hf, State.startUnit, hready]
  dsimp only
  rw [stream_modStream_self]
  exact ⟨rfl, rfl, rfl, rfl, rfl, rfl⟩

/-! ### Parking (R159) -/

/-- The end of a sequence takes it from the waiting ones. -/
theorem finishSeq_waiting {r : Seq} (hg : r.gone = false) (status gen wver rnd : Nat) :
    (s.finishSeq r status gen wver rnd).crs.waiting = s.crs.waiting.filter fun x => x.order != r.order := by
  unfold State.finishSeq
  rw [if_neg (by simp [hg])]
  dsimp only
  rw [(openTurn_frame (Nat.or_self _) Fr.rfl).crs_eq]
  have hsession : ∀ (t : State) k f, (State.modSession t k f).crs = t.crs := fun _ _ _ => rfl
  split
  · simp only [apply_ite State.crs, State.closeSession, hsession, ite_self]
  · rw [(outStart_frame (Nat.or_self _) Fr.rfl).crs_eq]
    simp only [apply_ite State.crs, State.closeSession, hsession, ite_self]

theorem parkTimeout_answers {qpn idx : Nat} {r : Seq} (hqpn : qpn < 262144) (hidx : idx < 2 ^ 32)
    (hr : (s.crs.waiting.find? fun r => r.qpn == qpn && r.idx == idx) = some r) (hg : r.gone = false)
    (hpark : (if (s.ctx r.ctx).parkMax = 0 then 64 else (s.ctx r.ctx).parkMax) < r.parkRounds) :
    Answers (.parkTimeout qpn idx) s fun t => t.crs.waiting = s.crs.waiting.filter fun x => x.order != r.order := by
  have ht : s.parkTimeout qpn idx = s.dropSeq r St.parked := by
    unfold State.parkTimeout
    rw [hr]
    exact if_pos hpark
  refine answers_of_frame rfl (by simp only [okQpn, okIdx, hqpn, hidx, decide_true, Bool.and_self]) (parkTimeout_frame (Nat.or_self _) Fr.rfl) ?_
  rw [ht]
  exact finishSeq_waiting (r := { r with produced := 0 }) hg ..

/-- Settles O28: the halvings by the tables that they write, an admission by what `admitUnit` answers, parking by the end of the sequence. -/
theorem budgetsAndUseCounts : Obligations.BudgetsAndUseCounts :=
  ⟨fun _ => ⟨weaverHeatDecay_answers, stakeUseDecay_answers, frameHeatDecay_answers, fun _ hsid => genClose_answers hsid⟩,
    fun _ => ⟨fun _ _ _ _ hc hs ht hq ho => ⟨accessAdmit_fits hc hs ht hq ho, accessAdmit_refused hc ht hq ho⟩,
      fun _ _ _ _ _ hlc hb hs ht hq ho hf => blockAdmit_fits hlc hb hs ht hq ho hf,
      fun _ _ _ hqpn hidx hr hg hpark => parkTimeout_answers hqpn hidx hr hg hpark⟩⟩

end Sys2Proof.Machine
end

section
/-! PROOFS. The tick sources (R27, R29, R331): what asserts a tick, HOLDOVER and ISOLATED, and the tick frames sent and received. -/

namespace Sys2Proof.Machine

-- One theorem after the other: as one text the files are near the memory limit of the check, and every thread that waits counts.
set_option Elab.async false

variable {s : State}

/-! ### The device's own timer -/

theorem localTick_eq (he : s.rnd.enable = true) (ha : s.rnd.awaitHoop = false) (hs : s.rnd.src ≠ 2 ∨ s.rnd.active ≠ 2) :
    s.localTick = { s with rnd := { s.rnd with tick := some {} } } :=
  if_pos ⟨he, by simp [ha], hs⟩

theorem sendTick_eq (he : s.rnd.enable = true) (hs : s.rnd.src = 1) (hb : s.hoop.bypassed = false) (ha : s.rnd.awaitHoop = false) :
    s.sendTick = s.emit (.tickFrame (masterFrame s)) :=
  if_pos ⟨he, by simp [isMaster, hs], by simp [hb], by simp [ha]⟩

/-! ### HOLDOVER and ISOLATED (R29) -/

theorem predictNext_eq {p : Nat} (hp : s.rnd.predicted = some p) :
    s.predictNext = { s with rnd := { s.rnd with predicted := some (p + s.rnd.hoopLen * 1000000) } } := by
  rw [State.predictNext, hp]
  rfl

theorem holdoverEntry_eq {p : Nat} (hf : followerTimed s = true) (hm : s.rnd.mode = .locked) (hp : s.rnd.predicted = some p) :
    s.holdoverEntry = { s with rnd := { s.rnd with
      mode := .holdover, holdCnt := 1, tick := some {}, predicted := some (p + s.rnd.hoopLen * 1000000) } } := by
  rw [State.holdoverEntry, if_pos ⟨hf, hm⟩, predictNext_eq hp]

/-- ISOLATED is not entered before HOLD_MAX rounds of HOLDOVER. -/
theorem isolate_same (h : ¬(s.rnd.mode = .holdover ∧ holdLimit s ≤ s.rnd.holdCnt)) : s.isolate = s := if_neg h

theorem isolate_eq (hm : s.rnd.mode = .holdover) (hh : holdLimit s ≤ s.rnd.holdCnt) : s.isolate =
    ({ s with rnd := { s.rnd with mode := .isolated } }).journal { code := St.groupTiming, cls := Cls.info, blk := Blk.round, detail := 0 } :=
  if_pos ⟨hm, hh⟩

/-- A tick at its predicted moment, where ISOLATED is not entered at it; the rounds are counted in HOLDOVER. -/
theorem holdoverTick_eq {p : Nat} (hf : followerTimed s = true) (hm : s.rnd.mode ≠ .locked) (hp : s.rnd.predicted = some p)
    (hi : ¬(s.rnd.mode = .holdover ∧ holdLimit s ≤ s.rnd.holdCnt)) :
    s.holdoverTick = { s with rnd := { s.rnd with
      tick := some {}, predicted := some (p + s.rnd.hoopLen * 1000000)
      holdCnt := if s.rnd.mode = .holdover then min 255 (s.rnd.holdCnt + 1) else s.rnd.holdCnt } } := by
  have hsame : s.predictNext.isolate = s.predictNext := isolate_same (s := s.predictNext) hi
  rw [State.holdoverTick, if_pos ⟨hf, hm⟩, hsame, predictNext_eq hp]

theorem isolatedEntry_answers (hm : s.rnd.mode = .holdover) (hh : holdLimit s ≤ s.rnd.holdCnt) :
    Answers .isolatedEntry s fun t => t.rnd.mode = .isolated ∧ t.flt.head = s.flt.head + 1 ∧
      (look {} t.flt.ring ((s.flt.head + 1) % 4096)).code = St.groupTiming := by
  refine answers_of_frame rfl rfl (isolate_frame (Nat.or_self _) Fr.rfl) ?_
  rw [isolate_eq hm hh, (journal_frame (Nat.or_self _) Fr.rfl).rnd_eq, journal_head]
  exact ⟨rfl, rfl, journal_code (s := { s with rnd := { s.rnd with mode := .isolated } }) _⟩

/-! ### Tick frames (R331) -/

theorem recvTick_bad {f : TickFrame} (a : Nat) (hc : f.crcOk = false) :
    s.recvTick f a = { s with hoop := { s.hoop with crcErr := sat 16 (s.hoop.crcErr + 1), validRun := 0 } } :=
  if_pos (by simp [hc])

/-- The hoop block after a valid frame has been looked at. -/
def State.frameSeen (f : TickFrame) (s : State) : State :=
  { s with hoop := { s.hoop with origin := some f.originPos, validRun := s.hoop.validRun + 1, lastPos := f.lastPos } }

/-- A FOLLOWER that is not bypassed takes its tick from a valid frame and passes the frame on. -/
theorem recvTick_valid {f : TickFrame} (a : Nat) (hv : tickValid s f = true) (he : s.rnd.enable = true) (hs : s.rnd.src = 2) :
    s.recvTick f a = ((s.frameSeen f).hoopTick f (arrivalDelay s f) a).forwardTick f (arrivalDelay s f) := by
  have hc : f.crcOk = true := by
    simp only [tickValid, Bool.and_eq_true, and_assoc] at hv
    exact hv.1
  unfold State.recvTick
  simp only [hc, hv, he, hs, Bool.not_true, Bool.false_eq_true, if_false, if_true, ne_eq, not_true_eq_false, and_false, beq_self_eq_true,
    Bool.true_or, Bool.and_self, State.frameSeen]

theorem tickFrameReceive_answers {f : TickFrame} (a : Nat) (hv : tickValid s f = true) (he : s.rnd.enable = true) (hs : s.rnd.src = 2)
    (hb : s.hoop.bypassed = false) : Answers (.tickFrameReceive f a) s fun t =>
      t.rnd.tick = some { num := some f.rndNum, gtime := some f.gtime, len := some f.len } ∧ t.rnd.hoopLen = f.len ∧
      t.rnd.num = s.rnd.num ∧ t.hoop.validRun = s.hoop.validRun + 1 ∧ t.hoop.lastPos = f.lastPos ∧
      t.out = .tickFrame { f with lastPos := s.hoop.pos, accDly := arrivalDelay s f + 320 } :: s.out := by
  have hforward : ((s.frameSeen f).hoopTick f (arrivalDelay s f) a).forwardTick f (arrivalDelay s f) =
      ((s.frameSeen f).hoopTick f (arrivalDelay s f) a).emit
        (.tickFrame { f with lastPos := s.hoop.pos, accDly := arrivalDelay s f + 320 }) :=
    if_neg (by simp [State.hoopTick, State.frameSeen, hb, he])
  refine answers_of_frame rfl rfl (recvTick_frame (Nat.or_self _) Fr.rfl) ?_
  rw [recvTick_valid a hv he hs, hforward]
  exact ⟨rfl, rfl, rfl, rfl, rfl, rfl⟩

/-- Settles O29: each source by the tick that it asserts, HOLDOVER by the moment that it predicts, a frame by its check. -/
theorem tickSources : Obligations.TickSources := by
  refine fun s => ⟨fun he ha hs => ?localTick, fun he hs hb ha => ?sendTick, fun p hf hm hp => ?entry, fun p hf hm hp => ?isolatedTick,
    fun p hf hm hh hp => ?heldTick, isolatedEntry_answers, fun f a hc => ?badFrame, fun f a hv he hs hb => tickFrameReceive_answers a hv he hs hb⟩
  case localTick =>
    show act true s s.localTick = _
    rw [localTick_eq he ha hs]
    rfl
  case sendTick =>
    refine answers_of_frame rfl rfl (sendTick_frame (Nat.or_self _) Fr.rfl) ?_
    rw [sendTick_eq he hs hb ha]
    exact ⟨masterFrame s, rfl, rfl, rfl, rfl, rfl, rfl⟩
  case entry =>
    show act true s s.holdoverEntry = _
    rw [holdoverEntry_eq hf hm hp]
    rfl
  case isolatedTick =>
    show act true s s.holdoverTick = _
    rw [holdoverTick_eq hf (by simp [hm]) hp (by simp [hm]), hm]
    rfl
  case heldTick =>
    show act true s s.holdoverTick = _
    rw [holdoverTick_eq hf (by simp [hm]) hp (by simp [hh]), hm]
    rfl
  case badFrame =>
    show act true s (s.recvTick f a) = _
    rw [recvTick_bad a hc]
    rfl

end Sys2Proof.Machine
end

section
/-! PROOFS. The slath engines (R245, R248 to R250, R265): a command of a U list that waits, is stale, runs or breaks a rule, and the list time-out. -/

namespace Sys2Proof.Machine

-- One theorem after the other: as one text the files are near the memory limit of the check, and every thread that waits counts.
set_option Elab.async false

variable {s : State} {cid die : Nat} {c : UCmd}

/-! ### The command at which a list stands -/

theorem uCmdAt_some (h : uCmdAt s cid die = some c) : c.die = die ∧ s.course cid = some c.course := by
  unfold uCmdAt at h
  split at h
  · next x u hx _ =>
    split at h
    · cases h
    · rw [Option.map_eq_some_iff] at h
      obtain ⟨raw, -, rfl⟩ := h
      exact ⟨rfl, hx⟩
  · cases h

/-- A command with an assigned opcode is not skipped. -/
theorem skipUops_assigned (n : Nat) (h : uCmdAt s cid die = some c) (h1 : 1 ≤ c.opc) (h5 : c.opc ≤ 5) : s.skipUops n cid die = s := by
  cases n with
  | zero => rfl
  | succ n =>
    rw [State.skipUops, h]
    exact if_pos (by simp [h1, h5])

/-! ### What is left of the memory-side dies -/

section
variable {α : Type} {g : Msd → α} (hg : ∀ m l, g { m with lists := l } = g m)
include hg

/-- A change of a U list leaves every other field of its die. -/
theorem modList_msd (k d : Nat) (f : UState → UState) (j : Nat) : g ((s.modList k d f).msdOf j) = g (s.msdOf j) := by
  unfold State.modList
  by_cases h : j = d
  · rw [h, modMsd_read, hg]
  · rw [modMsd_read_ne _ _ _ h]

theorem uGate_msd (j : Nat) : g ((s.uGate c).msdOf j) = g (s.msdOf j) := modList_msd hg ..

theorem uNext_msd (j : Nat) : g ((s.uNext c).msdOf j) = g (s.msdOf j) := by
  unfold State.uNext
  dsimp only
  rw [msdOf_of_msd _ ((checkSegment_frame (Nat.or_self _) Fr.rfl).msd_eq.trans (sealAfter_frame (Nat.or_self _) Fr.rfl).msd_eq)]
  exact modList_msd hg ..

end

theorem uNext_mem : (s.uNext c).mem = s.mem := (uNext_frame (Nat.or_self _) Fr.rfl).mem_eq
theorem uNext_cells : (s.uNext c).cells = s.cells := (uNext_frame (Nat.or_self _) Fr.rfl).cells_eq
theorem uGate_mem : (s.uGate c).mem = s.mem := (uGate_frame (Nat.or_self _) Fr.rfl).mem_eq

theorem CourseViolated.uNext {k : Nat} (h : CourseViolated k s) : CourseViolated k (s.uNext c) := by
  unfold State.uNext
  dsimp only
  exact CourseViolated.checkSegment (h.of_crs (t := State.sealAfter c (State.modList _ _ _ s)) ((sealAfter_frame (Nat.or_self _) Fr.rfl).crs_eq.trans rfl)) _

/-! ### A violation (R56, R248) -/

theorem uViolation_viol : ((s.uViolation c).msdOf c.die).viol = sat 16 ((s.msdOf c.die).viol + 1) := by
  unfold State.uViolation
  dsimp only
  rw [uNext_msd (g := Msd.viol) (fun _ _ => rfl), msdOf_of_msd _ ((modCourse_msd ..).trans (journal_frame (Nat.or_self _) Fr.rfl).msd_eq),
    modMsd_read]

theorem uViolation_mem : (s.uViolation c).mem = s.mem := (uViolation_frame (Nat.or_self _) Fr.rfl).mem_eq

theorem uViolation_head : (s.uViolation c).flt.head = s.flt.head + 1 := by
  unfold State.uViolation
  rw [(uNext_frame (Nat.or_self _) Fr.rfl).flt_eq]
  exact journal_head _

theorem uViolation_marks (h : s.course c.course.id = some c.course) : CourseViolated c.course.id (s.uViolation c) := by
  unfold State.uViolation
  dsimp only
  refine CourseViolated.uNext (marked_modCourse (c := c.course) ?_)
  rw [course_of_crs _ (journal_frame (Nat.or_self _) Fr.rfl).crs_eq]
  exact h

/-! ### A command that completes (R250) -/

theorem uDone_mem : (s.uDone c).mem = s.mem := (uDone_frame (Nat.or_self _) Fr.rfl).mem_eq

theorem uDone_done : ((s.uDone c).msdOf c.die).done = sat 32 ((s.msdOf c.die).done + 1) := by
  unfold State.uDone
  dsimp only
  rw [uNext_msd (g := Msd.done) (fun _ _ => rfl)]
  rw [msdOf_of_msd (t := ite _ _ _) (s := s.modMsd c.die fun m => { m with done := sat 32 (m.done + 1) }) _ (by split <;> rfl), modMsd_read]

/-- The event counter that DEVC names, on the stream that it names (R250). -/
theorem uDone_cells : (s.uDone c).cells =
    (if c.dcell = 0x3FF then s else s.signal (.cell c.dcell (if bit (c.at 6 1) 4 then .b else .f) (c.at 6 1 % 16)) 1).cells := by
  unfold State.uDone
  dsimp only
  rw [uNext_cells]
  split <;> rfl

theorem uDone_bank (j : Nat) : ((s.uDone c).cell j).bank = (s.cell j).bank := by
  rw [cell_of_cells _ uDone_cells]
  split
  · rfl
  · exact signal_cell_bank ..

theorem uDone_evc (h : c.dcell ≠ 0x3FF) (k : Nat) :
    look 0 ((s.uDone c).stream c.dcell (if bit (c.at 6 1) 4 then .b else .f)).evc k =
      if k = c.at 6 1 % 16 then sat 16 (look 0 (s.stream c.dcell (if bit (c.at 6 1) 4 then .b else .f)).evc k + 1)
      else look 0 (s.stream c.dcell (if bit (c.at 6 1) 4 then .b else .f)).evc k := by
  rw [stream_of_cells uDone_cells, if_neg h, signal_cell_evc]

/-! ### The issue of a command -/

/-- A row answers with the state that the command's issue leaves. -/
theorem uIssue_answers {x : Instr} {u : BitVec 512} {opc m : Nat} {body : UCmd → State → Option UEffect} {t : State}
    (hx : exec x s = act (okMsd die) s (s.uIssue opc cid die u body)) (hf : Fr m s (s.uIssue opc cid die u body)) (hdie : die < 8)
    (ht : s.uIssue opc cid die u body = t)
    (hm : m.testBit Part.variant.code = false ∧ m.testBit Part.pending.code = false := by decide) : exec x s = .next t :=
  (hx.trans (act_of_frame (decide_eq_true hdie) hf hm)).trans (congrArg _ ht)

section
variable {u : BitVec 512} {opc : Nat} {body : UCmd → State → Option UEffect} {e : UEffect} (hc : uCmdAt s cid die = some c) (hu : c.raw = u)
  (ho : c.opc = opc) (h1 : 1 ≤ c.opc) (h5 : c.opc ≤ 5) (hg : c.at 2 2 ≤ look 0 c.list.gates (c.at 1 1 % 16))
include hc hu ho h1 h5 hg

theorem uIssue_violates (hh : uHeadOk c = false) : s.uIssue opc cid die u body = (s.uGate c).uViolation c := by
  simp only [State.uIssue, skipUops_assigned _ hc h1 h5, hc, hu, ho, hh, Nat.not_lt.mpr hg, ne_eq, not_true_eq_false, or_self, if_false,
    Bool.false_eq_true]

variable (hh : uHeadOk c = true) (hb : body c s = some e) {a : State} (ha : a = if c.list.asked.isSome then s else s.uAsk c e.cost)
include hh hb ha

theorem uIssue_waits (hm : moveLeft a (.ucmd cid die) ≠ 0) : s.uIssue opc cid die u body = a := by
  simp only [State.uIssue, skipUops_assigned _ hc h1 h5, hc, hu, ho, hh, hb, ← ha, hm, Nat.not_lt.mpr hg, ne_eq, not_true_eq_false, or_self,
    if_false, if_true, not_false_eq_true]

theorem uIssue_stale (hm : moveLeft a (.ucmd cid die) = 0) (hs : (c.list.asked.getD (c.ctx, (a.tkey c.ctx).gen)).2 ≠ (a.tkey c.ctx).gen) :
    s.uIssue opc cid die u body = ((a.countStale die).uGate c).uNext c := by
  simp only [State.uIssue, skipUops_assigned _ hc h1 h5, hc, hu, ho, hh, hb, ← ha, hm, hs, Nat.not_lt.mpr hg, ne_eq, not_true_eq_false, or_self,
    if_false, if_true, not_false_eq_true]

theorem uIssue_runs (hm : moveLeft a (.ucmd cid die) = 0) (hs : (c.list.asked.getD (c.ctx, (a.tkey c.ctx).gen)).2 = (a.tkey c.ctx).gen)
    (hr : (e.run a).1 = .ok ()) : s.uIssue opc cid die u body = (((e.run a).2.uGate c).reportRm c).uDone c := by
  simp only [State.uIssue, skipUops_assigned _ hc h1 h5, hc, hu, ho, hh, hb, ← ha, hm, hs, hr, Nat.not_lt.mpr hg, ne_eq, not_true_eq_false, or_self,
    if_false, if_true]

variable {x : Instr} (hx : exec x s = act (okMsd die) s (s.uIssue opc cid die u body)) (hf : Fr 35909000 s (s.uIssue opc cid die u body))
  (hdie : die < 8)
include hx hf hdie

/-- A command whose bytes are admitted retires without effect when its key slot has changed since it asked (R265). -/
theorem uCommand_stale (hm : moveLeft a (.ucmd cid die) = 0) (hs : (c.list.asked.getD (c.ctx, (a.tkey c.ctx).gen)).2 ≠ (a.tkey c.ctx).gen) :
    Answers x s fun t => t.mem = a.mem ∧ t.cells = a.cells ∧ (t.msdOf die).stale = sat 32 ((a.msdOf die).stale + 1) ∧
      (t.msdOf die).done = (a.msdOf die).done := by
  refine ⟨_, uIssue_answers hx hf hdie (uIssue_stale hc hu ho h1 h5 hg hh hb ha hm hs), uNext_mem, uNext_cells, ?_, ?_⟩
  · rw [uNext_msd (g := Msd.stale) (fun _ _ => rfl), uGate_msd (g := Msd.stale) (fun _ _ => rfl)]
    exact congrArg Msd.stale (modMsd_read ..)
  · rw [uNext_msd (g := Msd.done) (fun _ _ => rfl), uGate_msd (g := Msd.done) (fun _ _ => rfl)]
    exact (congrArg Msd.done (modMsd_read ..)).trans rfl

/-- A command whose bytes are admitted runs and completes (R250). -/
theorem uCommand_runs (hm : moveLeft a (.ucmd cid die) = 0) (hs : (c.list.asked.getD (c.ctx, (a.tkey c.ctx).gen)).2 = (a.tkey c.ctx).gen)
    (hr : (e.run a).1 = .ok ()) : Answers x s fun t =>
      t.mem = (e.run a).2.mem ∧ (∀ j, (t.cell j).bank = ((e.run a).2.cell j).bank) ∧
      (t.msdOf die).done = sat 32 (((e.run a).2.msdOf die).done + 1) ∧
      (c.dcell ≠ 0x3FF → ∀ k, look 0 (t.stream c.dcell (if bit (c.at 6 1) 4 then .b else .f)).evc k =
        (if k = c.at 6 1 % 16 then sat 16 (look 0 ((e.run a).2.stream c.dcell (if bit (c.at 6 1) 4 then .b else .f)).evc k + 1)
          else look 0 ((e.run a).2.stream c.dcell (if bit (c.at 6 1) 4 then .b else .f)).evc k)) := by
  have hd : c.die = die := (uCmdAt_some hc).1
  have hrep : Fr 35651720 ((e.run a).2.uGate c) (((e.run a).2.uGate c).reportRm c) := reportRm_frame (by decide) Fr.rfl
  refine ⟨_, uIssue_answers hx hf hdie (uIssue_runs hc hu ho h1 h5 hg hh hb ha hm hs hr), ?_, fun j => ?_, ?_, fun hne k => ?_⟩
  · rw [uDone_mem, hrep.mem_eq, uGate_mem]
  · rw [uDone_bank, cell_of_cells _ hrep.cells_eq]
    rfl
  · rw [← hd, uDone_done, msdOf_of_msd _ hrep.msd_eq, uGate_msd (g := Msd.done) (fun _ _ => rfl)]
  · rw [uDone_evc hne, stream_of_cells hrep.cells_eq]
    rfl

end

/-! ### A list whose command waits for its gate (R249) -/

/-- The list time-out. -/
theorem ulistTimeout_answers (hdie : die < 8) (hc : uCmdAt s cid die = some c) (hg : look 0 c.list.gates (c.at 1 1 % 16) < c.at 2 2)
    (hr : c.list.since + 4 ≤ boundaryRnd s) : Answers (.ulistTimeout cid die) s fun t =>
      (t.msdOf die).timeout = sat 16 ((s.msdOf die).timeout + 1) ∧ t.mem = s.mem ∧ t.flt.head = s.flt.head + 1 ∧
      (∀ x ∈ (t.msdOf die).lists, x.cid = cid → x.ended = true) ∧ CourseViolated cid t := by
  obtain ⟨-, hco⟩ := uCmdAt_some hc
  have hid : c.course.id = cid := course_id hco
  refine answers_of_frame rfl (decide_eq_true hdie) (ulistTimeout_frame (Nat.or_self _) Fr.rfl) ?_
  rw [State.ulistTimeout, hc]
  dsimp only
  rw [if_pos ⟨hr, hg⟩]
  have hmsd : ∀ t : State, (((t.journal c.entry).modCourse cid fun x => { x with violated := true }).checkSegment cid).msd = t.msd := fun t =>
    ((checkSegment_frame (Nat.or_self _) Fr.rfl).msd_eq).trans (journal_frame (Nat.or_self _) Fr.rfl).msd_eq
  refine ⟨?_, ?_, ?_, ?_, ?_⟩
  · rw [msdOf_of_msd _ (hmsd _), modList_msd (g := Msd.timeout) (fun _ _ => rfl), modMsd_read]
  · exact ((checkSegment_frame (Nat.or_self _) Fr.rfl).mem_eq).trans (journal_frame (Nat.or_self _) Fr.rfl).mem_eq
  · rw [(checkSegment_frame (Nat.or_self _) Fr.rfl).flt_eq]
    exact journal_head _
  · rw [msdOf_of_msd _ (hmsd _)]
    intro x hx hk
    rw [State.modList, modMsd_read, List.mem_map] at hx
    obtain ⟨y, -, rfl⟩ := hx
    split at hk <;> simp_all
  · refine CourseViolated.checkSegment ?_ _
    rw [← hid]
    refine marked_modCourse (c := c.course) ?_
    rw [course_of_crs _ (journal_frame (Nat.or_self _) Fr.rfl).crs_eq, hid]
    exact hco

/-! ### A command that breaks a rule -/

/-- An ACC whose header breaks a rule. -/
theorem acc_violates (hdie : die < 8) (hc : uCmdAt s cid die = some c) (hg : c.at 2 2 ≤ look 0 c.list.gates (c.at 1 1 % 16)) (ho : c.opc = 5)
    (hh : uHeadOk c = false) : Answers (.acc cid die c.raw) s fun t =>
      (t.msdOf die).viol = sat 16 ((s.msdOf die).viol + 1) ∧ t.mem = s.mem ∧ t.flt.head = s.flt.head + 1 ∧ CourseViolated cid t := by
  obtain ⟨hd, hco⟩ := uCmdAt_some hc
  have hid : c.course.id = cid := course_id hco
  have hu : s.uIssue 0x05 cid die c.raw accBody = (s.uGate c).uViolation c :=
    uIssue_violates hc rfl ho (by omega) (by omega) hg hh
  refine answers_of_frame rfl (decide_eq_true hdie) (t := s.uIssue 0x05 cid die c.raw accBody) (m := 35849352) ?_ ?_
  · rw [hu]
    exact uViolation_frame (by decide) (uGate_frame (by decide) Fr.rfl)
  rw [hu, ← hd]
  refine ⟨?_, ?_, ?_, ?_⟩
  · rw [uViolation_viol, uGate_msd (g := Msd.viol) (fun _ _ => rfl)]
  · rw [uViolation_mem, uGate_mem]
  · rw [uViolation_head]
    rfl
  · rw [← hid]
    exact uViolation_marks (hid ▸ hco)

/-! ### The obligation -/

/-- Settles O26: a command waits for its bytes, retires stale, or runs and completes; a list time-out and a violation are counted, journalled and
mark the course. -/
theorem slathEngineCommands : Obligations.SlathEngineCommands := by
  refine ⟨fun s cid die u c e hdie hc hu hg hh => ?_, fun s cid die c hdie hc => ⟨ulistTimeout_answers hdie hc, acc_violates hdie hc⟩⟩
  have row : ∀ {x : Instr} {opc : Nat} {body : UCmd → State → Option UEffect}, exec x s = act (okMsd die) s (s.uIssue opc cid die u body) →
      (∀ k t, Fr 35909000 s t → FrU 35909000 s (body k t)) → 1 ≤ opc → opc ≤ 5 → c.opc = opc → body c s = some e → _ :=
    fun hx hf h1 h5 ho hb =>
      have hfr := uIssue_frame (by decide) hf Fr.rfl
      And.intro (fun hm => uIssue_answers hx hfr hdie (uIssue_waits hc hu ho (ho ▸ h1) (ho ▸ h5) hg hh hb rfl hm))
        (And.intro (uCommand_stale hc hu ho (ho ▸ h1) (ho ▸ h5) hg hh hb rfl hx hfr hdie)
          (uCommand_runs hc hu ho (ho ▸ h1) (ho ▸ h5) hg hh hb rfl hx hfr hdie))
  simp only [List.forall_mem_cons]
  refine ⟨row rfl (fun _ _ => attnBody_frame (by decide)) (by decide) (by decide), row rfl (fun _ _ => gemvBody_frame (by decide)) (by decide) (by decide),
    row rfl (fun _ _ => updateBody_frame (by decide)) (by decide) (by decide), row rfl (fun _ _ => updateBody_frame (by decide)) (by decide) (by decide),
    row rfl (fun _ _ => accBody_frame (by decide)) (by decide) (by decide), fun _ h => nomatch h⟩

end Sys2Proof.Machine
end

section
/-! PROOFS. RND_NUM (R32, R337): which operations keep it, and what a reset leaves in it. -/

namespace Sys2Proof.Machine

-- One theorem after the other: as one text the files are near the memory limit of the check, and every thread that waits counts.
set_option Elab.async false

variable {s t : State} {fn off : Nat}

/-! ### Effects of rows -/

/-- The rounds' state after a row is that of its effect. -/
theorem rnd_of_act {c : Instr} {ok : Bool} {u : State} (hx : exec c s = .next t) (hc : exec c s = act ok s u) : t.rnd = u.rnd := by
  cases ok with
  | true => rw [act_true, hx] at hc; cases hc; rfl
  | false => cases hx.symm.trans hc

/-! ### Register writes -/

theorem num_wrRndCtl (v : Nat) : (s.wrRndCtl v).rnd.num = s.rnd.num := by
  unfold State.wrRndCtl
  dsimp only
  split <;> [skip; split] <;> split <;> rfl

theorem num_wrRndLen (v : Nat) : (s.wrRndLen v).rnd.num = s.rnd.num := by
  unfold State.wrRndLen
  dsimp only
  split
  · rfl
  · split
    · rfl
    · split <;> rfl

theorem num_wrRound (o v : Nat) : (s.wrRound o v).rnd.num = s.rnd.num ∨ (s.rnd.enable = false ∧ o = 0x10) := by
  unfold State.wrRound
  split
  · exact .inl (num_wrRndCtl v)
  split
  · exact .inl (num_wrRndLen v)
  split
  · cases he : s.rnd.enable with
    | true => exact .inl (by rw [State.wrRndNum, he]; rfl)
    | false => exact .inr ⟨rfl, ‹_›⟩
  · exact .inl rfl

theorem num_wrHoop (o v : Nat) : (s.wrHoop o v).rnd.num = s.rnd.num := by
  unfold State.wrHoop
  dsimp only
  split
  · rfl
  split
  · split <;> rfl
  split
  · split <;> rfl
  · rfl

/-- What a register write may leave in RND_NUM: a new number at its own offset alone, while ENABLE is 0. -/
def NumWritten (s : State) (off : Nat) (t : State) : Prop := t.rnd.num = s.rnd.num ∨ (s.rnd.enable = false ∧ off = 0x10010)

theorem NumWritten.of_rnd (h : t.rnd = s.rnd) : NumWritten s off t := .inl (congrArg Rnd.num h)

theorem numWritten_barWrite (v : Nat) : NumWritten s off (s.barWrite fn off v) := by
  unfold State.barWrite
  have ite : ∀ {c : Prop} [Decidable c] {a b : State}, (c → NumWritten s off a) → (¬c → NumWritten s off b) → NumWritten s off (if c then a else b) :=
    fun ha hb => iteInduction ha hb
  refine ite (fun _ => .of_rnd rfl) fun _ => ?_
  refine ite (fun _ => .of_rnd (wrMailbox_frame (Nat.or_self _) Fr.rfl).rnd_eq) fun _ => ?_
  refine ite (fun _ => .of_rnd rfl) fun _ => ?_
  refine ite (fun _ => .of_rnd rfl) fun _ => ?_
  refine ite (fun _ => .of_rnd (wrEvent_frame (Nat.or_self _) Fr.rfl).rnd_eq) fun _ => ?_
  refine ite (fun _ => .of_rnd rfl) fun _ => ?_
  refine ite (fun _ => (num_wrRound _ v).imp_right fun ⟨he, ho⟩ => ⟨he, by omega⟩) fun _ => ?_
  refine ite (fun _ => .of_rnd (wrBudget_frame (Nat.or_self _) Fr.rfl).rnd_eq) fun _ => ?_
  refine ite (fun _ => .of_rnd (wrPower_frame (Nat.or_self _) Fr.rfl).rnd_eq) fun _ => ?_
  refine ite (fun _ => .inl (num_wrHoop _ v)) fun _ => ?_
  refine ite (fun _ => .of_rnd (wrFault_frame (Nat.or_self _) Fr.rfl).rnd_eq) fun _ => ?_
  refine ite (fun _ => .of_rnd (wrPort_frame (Nat.or_self _) Fr.rfl).rnd_eq) fun _ => ?_
  exact ite (fun _ => .of_rnd (wrMsd_frame (Nat.or_self _) Fr.rfl).rnd_eq) fun _ => .of_rnd rfl

/-- The rows that write a register. -/
theorem num_of_barWriteOf {c : Instr} {wide : Bool} {v : BitVec 64} (hc : barWriteOf c = some (fn, off, wide, v)) (hx : exec c s = .next t) :
    t.rnd.num = s.rnd.num ∨ (s.rnd.enable = false ∧ wide = true ∧ off = 0x10010) := by
  rw [exec_barWriteOf hc (exec_next_iff_wf.mp ⟨t, hx⟩)] at hx
  cases hx
  unfold State.barAccess
  split
  · exact .inl rfl
  · cases wide with
    | false => exact .inl rfl
    | true => exact (numWritten_barWrite _).imp_right fun ⟨he, ho⟩ => ⟨he, rfl, ho⟩

/-- A row that writes another register than RND_NUM. -/
theorem num_kept_of_barWriteOf {c : Instr} {wide : Bool} {v : BitVec 64} (hx : exec c s = .next t) (hc : barWriteOf c = some (fn, off, wide, v))
    (hne : off ≠ 0x10010) : t.rnd.num = s.rnd.num :=
  (num_of_barWriteOf hc hx).resolve_right fun ⟨_, _, h⟩ => hne h

/-! ### Ticks, clocks and halvings -/

theorem num_localTick : s.localTick.rnd.num = s.rnd.num := by
  unfold State.localTick
  split <;> rfl

theorem num_holdoverEntry : s.holdoverEntry.rnd.num = s.rnd.num := by
  unfold State.holdoverEntry State.predictNext
  split <;> rfl

theorem num_isolate : s.isolate.rnd.num = s.rnd.num := by
  unfold State.isolate
  split
  · rw [(journal_frame (Nat.or_self _) Fr.rfl).rnd_eq]
  · rfl

theorem num_holdoverTick : s.holdoverTick.rnd.num = s.rnd.num := by
  unfold State.holdoverTick
  split
  · exact num_isolate.trans rfl
  · rfl

theorem num_recvTick (f : TickFrame) (a : Nat) : (s.recvTick f a).rnd.num = s.rnd.num := by
  have forward : ∀ (f : TickFrame) (a : Nat) (t : State), (t.forwardTick f a).rnd = t.rnd := fun f a t => by
    unfold State.forwardTick
    split <;> rfl
  unfold State.recvTick
  split
  · rfl
  dsimp only
  split
  · split <;> rfl
  · rw [forward]
    split <;> rfl

theorem num_refBack : s.refBack.rnd.num = s.rnd.num := by
  unfold State.refBack
  split <;> rfl

theorem num_refLost : s.refLost.rnd.num = s.rnd.num := by
  unfold State.refLost
  split
  · rfl
  · dsimp only
    rw [each_keeps State.rnd fun _ _ => (linkDown_frame (Nat.or_self _) Fr.rfl).rnd_eq, (dlDown_frame (Nat.or_self _) Fr.rfl).rnd_eq,
      (journal_frame (Nat.or_self _) Fr.rfl).rnd_eq]

theorem num_dip (rail mv : Nat) : (s.dip rail mv).rnd.num = s.rnd.num := by
  unfold State.dip
  extract_lets first u v
  split
  · rfl
  split
  · rfl
  split
  · exact (congrArg Rnd.num (protectCheck_frame (s := State.modClk _ _ _) (Nat.or_self _) Fr.rfl).rnd_eq).trans rfl
  · rfl

theorem num_weaverDecay : s.weaverDecay.rnd.num = s.rnd.num := by
  unfold State.weaverDecay
  split <;> rfl

theorem num_stakeDecay : s.stakeDecay.rnd.num = s.rnd.num := by
  unfold State.stakeDecay
  split <;> rfl

theorem num_frameDecay : s.frameDecay.rnd.num = s.rnd.num := by
  unfold State.frameDecay
  split <;> rfl

/-! ### Resets -/

/-- What a reset that may not come about leaves in RND_NUM. -/
def NumKeptOrReset (s t : State) : Prop := t.rnd.num = s.rnd.num ∨ t.rnd.num = 0

theorem NumKeptOrReset.of_rnd (h : t.rnd = s.rnd) : NumKeptOrReset s t := .inl (congrArg Rnd.num h)

theorem NumKeptOrReset.trans {u : State} (h : NumKeptOrReset s t) (h' : NumKeptOrReset t u) : NumKeptOrReset s u :=
  h'.elim (fun e => h.imp e.trans e.trans) .inr

theorem num_rekey : s.rekey.rnd.num = s.rnd.num := congrArg Rnd.num (rekey_frame (Nat.or_self _) Fr.rfl).rnd_eq

theorem num_measured : s.measured.rnd.num = s.rnd.num := congrArg Rnd.num (measured_frame (Nat.or_self _) Fr.rfl).rnd_eq

theorem num_coldStart (cls source : Nat) : (s.coldStart cls source).rnd.num = 0 := by
  unfold State.coldStart
  rw [num_rekey]
  rfl

theorem num_cold (source : Nat) : (s.cold source).rnd.num = 0 := num_coldStart ..

theorem num_lidReset (c : LCause) : (s.lidReset c).rnd.num = 0 := by
  unfold State.lidReset
  extract_lets tenants u v dark w
  have h : w.rnd.num = 0 := num_coldStart ..
  split <;> exact h

theorem num_warmFields : s.warmFields.rnd.num = 0 := rfl

theorem num_warm (c : WCause) : NumKeptOrReset s (s.warm c) := by
  unfold State.warm
  split
  · exact .inl rfl
  · refine .inr ?_
    extract_lets counts losses changed ended host u v w r x
    have hw : w.rnd.num = 0 := num_rekey.trans num_warmFields
    clear_value w
    split
    · exact num_measured.trans hw
    · exact hw

theorem num_perstAssert : NumKeptOrReset s s.perstAssert := by
  unfold State.perstAssert
  split
  · exact .inl rfl
  · exact num_warm .perst

theorem num_warmReset (c : WCause) : NumKeptOrReset s (s.warmReset c) := by
  unfold State.warmReset
  split
  · exact num_perstAssert
  · split
    · exact num_warm _
    · exact .inl rfl
  · exact num_warm c

theorem num_domainReset (rail : Nat) : NumKeptOrReset s (s.domainReset rail) := by
  unfold State.domainReset
  extract_lets cls u
  refine NumKeptOrReset.trans (t := u) (.of_rnd (journal_frame (Nat.or_self _) Fr.rfl).rnd_eq) ?_
  clear_value u
  split
  · exact num_warm _
  · refine .of_rnd ?_
    rw [(dlDown_frame (Nat.or_self _) Fr.rfl).rnd_eq, each_keeps State.rnd fun _ _ => (blockReset_frame (Nat.or_self _) Fr.rfl).rnd_eq,
      each_keeps State.rnd fun _ _ => (blockReset_frame (Nat.or_self _) Fr.rfl).rnd_eq]
  · exact .inr (num_cold _)
  · split
    · exact .of_rnd (blockReset_frame (Nat.or_self _) Fr.rfl).rnd_eq
    · exact .inr (num_lidReset _)

theorem num_railCrosses (rail : Nat) : NumKeptOrReset s (s.railCrosses rail) := by
  unfold State.railCrosses
  split
  · exact .inl rfl
  · dsimp only
    split
    · exact .inl rfl
    · exact (num_domainReset rail).imp_left (Eq.trans · rfl)

theorem num_keepSticky (o : State) : (o.keepSticky s).rnd.num = s.rnd.num := rfl

theorem num_d3cold : NumKeptOrReset s s.d3cold := by
  unfold State.d3cold
  split
  · exact .inl rfl
  · extract_lets u
    have h : u.rnd.num = 0 := by rw [num_keepSticky, num_coldStart]
    exact .inr h

theorem num_powerReturns : NumKeptOrReset s s.powerReturns := by
  unfold State.powerReturns
  split
  · exact .inl rfl
  · exact .inr (by rw [num_keepSticky, num_coldStart])

theorem num_windowExpires (xs : List Nat) : NumKeptOrReset s (s.windowExpires xs) := by
  unfold State.windowExpires
  extract_lets crossed
  split
  · exact .inl rfl
  split
  · exact .inl rfl
  · have hv : ∀ ys : List Nat, (s.each ys fun r s => s.countCrossing r).rnd = s.rnd := fun ys =>
      each_keeps State.rnd (f := fun r s => State.countCrossing r s) (fun _ _ => rfl) ys s
    split
    · refine NumKeptOrReset.trans ?_ (num_domainReset _)
      exact .of_rnd (hv _)
    · refine NumKeptOrReset.trans ?_
        (each_rel (R := NumKeptOrReset) (fun _ => .inl rfl) (fun h h' => h.trans h') (fun r _ => num_domainReset r) _ _)
      exact .of_rnd (hv _)

theorem NumKeptOrReset.of_act {c : Instr} {ok : Bool} {u : State} (h : NumKeptOrReset s u) (hx : exec c s = .next t) (hc : exec c s = act ok s u) :
    NumKeptOrReset s t := by
  unfold NumKeptOrReset
  rw [rnd_of_act hx hc]
  exact h

theorem num_operatorSet (n digest : Nat) : (s.operatorSet n digest).rnd.num = s.rnd.num ∨ (digest = 0 ∧ (s.operatorSet n digest).rnd.num = 0) := by
  unfold State.operatorSet
  extract_lets who ok anchor done set u
  have hset : ∀ t : State, Fr 16777224 s t → Fr 16777224 s (set t) := fun t ht =>
    Fr_ite (fun _ => ht) fun _ => measured_frame (by decide) (Fr_mk.mpr (Fr_lid (by decide) ht))
  split
  · next h =>
    rw [Bool.and_eq_true, beq_iff_eq] at h
    exact .inr ⟨h.2, num_lidReset _⟩
  · exact .inl (congrArg Rnd.num (vendor_frame (Nat.or_self _) hset Fr.rfl).rnd_eq)

/-! ### The obligation -/

/-- A row whose list of parts leaves the rounds out keeps RND_NUM. -/
theorem num_kept_of_notMem {c : Instr} (hx : exec c s = .next t) (h : Part.rnd ∉ mayChange c) : t.rnd.num = s.rnd.num :=
  congrArg Rnd.num (((exec_frame c s).out t hx).same .rnd (testBit_partBits_of_notMem h))

/-- Settles O7, by the rows that may change the rounds' state: register writes, ticks, clocks, halvings and resets. -/
theorem roundNumber : Obligations.RoundNumber := by
  intro c s t hx
  cases c with
  | roundTick => exact .inr (.inl rfl)
  | rndNumSet fn v => exact (num_of_barWriteOf rfl hx).imp_right fun ⟨he, _, _⟩ => .inr (.inl ⟨he, .inl ⟨fn, v, rfl⟩⟩)
  | registerWrite fn off wide v =>
    exact (num_of_barWriteOf rfl hx).imp_right fun ⟨he, hw, ho⟩ => .inr (.inl ⟨he, .inr ⟨fn, off, v, by rw [hw], ho⟩⟩)
  | rndSrcSet => exact .inl (num_kept_of_barWriteOf hx rfl (by decide))
  | rndEnableSet => exact .inl (num_kept_of_barWriteOf hx rfl (by decide))
  | rndLock => exact .inl (num_kept_of_barWriteOf hx rfl (by decide))
  | rndLenSet => exact .inl (num_kept_of_barWriteOf hx rfl (by decide))
  | budShareWrite => exact .inl (num_kept_of_barWriteOf hx rfl (by omega))
  | mbGo => exact .inl (num_kept_of_barWriteOf hx rfl (by omega))
  | mbAck => exact .inl (num_kept_of_barWriteOf hx rfl (by omega))
  | hoopJoin => exact .inl (num_kept_of_barWriteOf hx rfl (by decide))
  | hoopBypassReq => exact .inl (num_kept_of_barWriteOf hx rfl (by decide))
  | hoopLock => exact .inl (num_kept_of_barWriteOf hx rfl (by decide))
  | gtimeWrite => exact .inl (num_kept_of_barWriteOf hx rfl (by decide))
  | portEnable => exact .inl (num_kept_of_barWriteOf hx rfl (by omega))
  | portLock => exact .inl (num_kept_of_barWriteOf hx rfl (by omega))
  | blkRstGo => exact .inl (num_kept_of_barWriteOf hx rfl (by decide))
  | eventHeadWrite => exact .inl (num_kept_of_barWriteOf hx rfl (by omega))
  | requestBufferWrite => exact .inl (num_kept_of_barWriteOf hx rfl (by omega))
  | weaverHeatDecay => exact .inl ((congrArg Rnd.num (rnd_of_act (ok := true) hx rfl)).trans num_weaverDecay)
  | stakeUseDecay => exact .inl ((congrArg Rnd.num (rnd_of_act (ok := true) hx rfl)).trans num_stakeDecay)
  | frameHeatDecay => exact .inl ((congrArg Rnd.num (rnd_of_act (ok := true) hx rfl)).trans num_frameDecay)
  | localTick => exact .inl ((congrArg Rnd.num (rnd_of_act (ok := true) hx rfl)).trans num_localTick)
  | holdoverEntry => exact .inl ((congrArg Rnd.num (rnd_of_act (ok := true) hx rfl)).trans num_holdoverEntry)
  | holdoverTick => exact .inl ((congrArg Rnd.num (rnd_of_act (ok := true) hx rfl)).trans num_holdoverTick)
  | isolatedEntry => exact .inl ((congrArg Rnd.num (rnd_of_act (ok := true) hx rfl)).trans num_isolate)
  | tickFrameReceive f a => exact .inl ((congrArg Rnd.num (rnd_of_act (ok := true) hx rfl)).trans (num_recvTick f a))
  | railDip rail mv => exact .inl ((congrArg Rnd.num (rnd_of_act (ok := okRail rail) hx rfl)).trans (num_dip rail mv))
  | refclkLoss => exact .inl ((congrArg Rnd.num (rnd_of_act (ok := true) hx rfl)).trans num_refLost)
  | refclkRestore => exact .inl ((congrArg Rnd.num (rnd_of_act (ok := true) hx rfl)).trans num_refBack)
  | lidSelfCheckFail => exact (NumKeptOrReset.of_act (ok := true) (.inr (num_lidReset _)) hx rfl).imp_right fun h => .inr (.inr (.inl ⟨h, by simp⟩))
  | perstAssert => exact (NumKeptOrReset.of_act (ok := true) num_perstAssert hx rfl).imp_right fun h => .inr (.inr (.inl ⟨h, by simp⟩))
  | pcieHotReset => exact (NumKeptOrReset.of_act (ok := true) (num_warm .hotReset) hx rfl).imp_right fun h => .inr (.inr (.inl ⟨h, by simp⟩))
  | pwrokCycle => exact (NumKeptOrReset.of_act (ok := true) (.inr (num_cold _)) hx rfl).imp_right fun h => .inr (.inr (.inl ⟨h, by simp⟩))
  | vaonPowerOn => exact (NumKeptOrReset.of_act (ok := true) (.inr (num_cold _)) hx rfl).imp_right fun h => .inr (.inr (.inl ⟨h, by simp⟩))
  | d3coldEntry => exact (NumKeptOrReset.of_act (ok := true) num_d3cold hx rfl).imp_right fun h => .inr (.inr (.inl ⟨h, by simp⟩))
  | mainPowerReturn => exact (NumKeptOrReset.of_act (ok := true) num_powerReturns hx rfl).imp_right fun h => .inr (.inr (.inl ⟨h, by simp⟩))
  | warmReset x => exact (NumKeptOrReset.of_act (ok := true) (num_warmReset x) hx rfl).imp_right fun h => .inr (.inr (.inr ⟨h, .inl ⟨x, rfl⟩⟩))
  | lidReset x => exact (NumKeptOrReset.of_act (ok := true) (.inr (num_lidReset x)) hx rfl).imp_right fun h => .inr (.inr (.inr ⟨h, .inr (.inl ⟨x, rfl⟩)⟩))
  | railUvReset r => exact (NumKeptOrReset.of_act (ok := okRail r) (num_railCrosses r) hx rfl).imp_right fun h => .inr (.inr (.inr ⟨h, .inr (.inr (.inl ⟨r, rfl⟩))⟩))
  | d3coldWindowExpiry r => exact (NumKeptOrReset.of_act (ok := true) (num_windowExpires r) hx rfl).imp_right fun h => .inr (.inr (.inr ⟨h, .inr (.inr (.inr (.inl ⟨r, rfl⟩)))⟩))
  | operatorSet n digest =>
    rw [rnd_of_act (ok := okSess n) hx rfl]
    refine (num_operatorSet n digest).imp_right fun ⟨hd, h⟩ => .inr (.inr (.inr ⟨h, .inr (.inr (.inr (.inr ⟨n, by rw [hd]⟩)))⟩))
  | _ => exact .inl (num_kept_of_notMem hx (of_decide_eq_true rfl))

end Sys2Proof.Machine
end

section
/-! PROOFS. Stake-set builds (R178 to R180, R265): the request for a shard, its arrival, the move to the next source, and the answer to a peer. -/

namespace Sys2Proof.Machine

-- One theorem after the other: as one text the files are near the memory limit of the check, and every thread that waits counts.
set_option Elab.async false

variable {s : State} {sid : Nat} {b : Build}

/-! ### Asking for a shard -/

/-- What a request for a shard leaves in its stake set: the build has the generation of the set's key. -/
theorem askShard_stake (hb : (s.stake sid).build = some b) :
    (s.askShard sid).stake sid = { s.stake sid with build := some { b with burst := some (s.skey (s.stake sid).keySlot).gen } } := by
  unfold State.askShard
  rw [hb]
  dsimp only
  rw [stake_of_stakes _ (emit_frame (Nat.or_self _) Fr.rfl).stakes_eq, stake_of_stakes _ (pushMove_frame (Nat.or_self _) Fr.rfl).stakes_eq]
  exact modStake_read (s := s) _ fun x => { x with build := some { b with burst := some (s.skey (s.stake sid).keySlot).gen } }

theorem askShard_out (hb : (s.stake sid).build = some b) : (s.askShard sid).out = .shardAsk sid b.shard b.source :: s.out := by
  unfold State.askShard
  rw [hb]
  dsimp only
  refine congrArg (Out.shardAsk sid b.shard b.source :: ·) ?_
  exact (pushMove_frame (Nat.or_self _) Fr.rfl).out_eq

theorem askShard_mem : (s.askShard sid).mem = s.mem := (askShard_frame (Nat.or_self _) Fr.rfl).mem_eq

theorem askShard_flt : (s.askShard sid).flt = s.flt := (askShard_frame (Nat.or_self _) Fr.rfl).flt_eq

/-- The build `b` entered in its set, and its shard asked for. -/
def State.asksFor (sid : Nat) (b : Build) (s : State) : State := (s.modStake sid fun k => { k with build := some b }).askShard sid

theorem asksFor_stake : (s.asksFor sid b).stake sid =
    { s.stake sid with build := some { b with burst := some (s.skey (s.stake sid).keySlot).gen } } := by
  have hread : (s.modStake sid fun k => { k with build := some b }).stake sid = { s.stake sid with build := some b } := modStake_read ..
  rw [State.asksFor, askShard_stake (b := b) (by rw [hread]), hread]
  rfl

theorem asksFor_out : (s.asksFor sid b).out = .shardAsk sid b.shard b.source :: s.out :=
  askShard_out (s := s.modStake sid fun k => { k with build := some b }) (by rw [modStake_read])

/-! ### The next source (R179) -/

/-- What the move of build `b` to its next source leaves. -/
def OnNextSource (sid : Nat) (b : Build) (s t : State) : Prop :=
  (t.stake sid).build = some { b with source := b.source + 1, since := s.rnd.num, burst := some (s.skey (s.stake sid).keySlot).gen } ∧
    t.flt.head = s.flt.head + 1 ∧ t.out.head? = some (.shardAsk sid b.shard (b.source + 1)) ∧ t.mem = s.mem

theorem onNextSource (h : b.source + 1 < (buildSources ((s.stake sid).gen b.slot)).length) : OnNextSource sid b s (s.nextSource sid b) := by
  have hj : ∀ e, Fr 35651720 s (s.journal e) := fun e => journal_frame (Nat.or_self _) Fr.rfl
  unfold State.nextSource
  extract_lets g u
  rw [if_pos h]
  have hu : u.stake sid = s.stake sid := stake_of_stakes _ (hj _).stakes_eq
  change OnNextSource sid b s (u.asksFor sid { b with source := b.source + 1, since := u.rnd.num })
  refine ⟨?_, ?_, ?_, ?_⟩
  · rw [asksFor_stake, hu, (hj _).rnd_eq, skey_of_lid _ (hj _).lid_eq]
  · rw [State.asksFor, askShard_flt]
    exact journal_head _
  · rw [asksFor_out]
    rfl
  · rw [State.asksFor, askShard_mem]
    exact (hj _).mem_eq

/-! ### The arrival of a shard (R179) -/

/-- A build that has its frames and shards left goes on. -/
theorem build_goes_on {g : Gen} {i : Nat} (hf : g.frames ≠ []) (hn : i < g.nshard) : ¬(g.frames.isEmpty = true ∨ g.nshard ≤ i) := by
  rw [not_or, List.isEmpty_iff, not_le]
  exact ⟨hf, hn⟩

section
variable (hsid : sid < 256) (hb : (s.stake sid).build = some b)
include hsid hb

/-- A shard that does not arrive moves the build to its next source. -/
theorem shardFetched_bad (hf : ((s.stake sid).gen b.slot).frames ≠ []) (hn : b.shard < ((s.stake sid).gen b.slot).nshard)
    (hsrc : b.source + 1 < (buildSources ((s.stake sid).gen b.slot)).length) :
    ∀ r ∈ [ShardIn.refused, .crcBad, .poisoned], Answers (.buildShardFetched sid r) s (OnNextSource sid b s) := by
  have row : ∀ r, s.shardArrives sid r = s.nextSource sid b → Answers (.buildShardFetched sid r) s (OnNextSource sid b s) := fun r hr => by
    refine answers_of_frame rfl (decide_eq_true hsid) (shardArrives_frame (Nat.or_self _) Fr.rfl) ?_
    rw [hr]
    exact onNextSource hsrc
  simp only [List.forall_mem_cons]
  refine ⟨row _ ?_, row _ ?_, row _ ?_, fun _ h => nomatch h⟩ <;>
  · rw [State.shardArrives, hb]
    dsimp only
    rw [if_neg (build_goes_on hf hn)]

/-- A peer that completes no transfer in time. -/
theorem peerTimeout_answers (hp : b.source < ((s.stake sid).gen b.slot).peers.length) (hr : b.since + 4 ≤ boundaryRnd s)
    (hn : b.shard < ((s.stake sid).gen b.slot).nshard) (hsrc : b.source + 1 < (buildSources ((s.stake sid).gen b.slot)).length) :
    Answers (.peerShardTimeout sid) s (OnNextSource sid b s) := by
  refine answers_of_frame rfl (decide_eq_true hsid) (peerTimeout_frame (Nat.or_self _) Fr.rfl) ?_
  rw [State.peerTimeout, hb]
  dsimp only
  rw [if_pos ⟨hp, hr, hn⟩]
  exact onNextSource hsrc

end

/-- The bytes of a build's shard from the source in turn: a peer's ciphertext opened, or read from the slow tier. -/
def shardPlain (s : State) (sid : Nat) (b : Build) (data : List (Nat × Byte)) : List Byte :=
  let g := (s.stake sid).gen b.slot
  let p := imageAt s sid g.image
  let n := shardLen g.imgPages b.shard
  match (buildSources g).getD b.source none with
  | none => mapBlocks p.seal.unlock (ceilDiv n 16) (b.shard * 2097152) (shardBytes n data)
  | some a => slowRead { p.seal with base := a } s (a + b.shard * 33554432) n

/-- Bytes written at the start of a frame, which becomes RESIDENT. -/
def State.fillFrame (f : Nat) (bs : List Byte) (s : State) : State :=
  ({ s with mem := { s.mem with hbm := wrBytes s.mem.hbm (f * frameBytes) bs } }).modFrame f fun e => { e with state := .resident }

/-- A shard's bytes written into the frames of its generation. -/
def State.storeShard (g : Gen) (b : Build) (bs : List Byte) (s : State) : State :=
  s.each ((shardFrames g.frames.length b.shard).filterMap fun k => (g.frames[k]?).map fun f => (f, k)) fun x s =>
    s.fillFrame x.1 ((bs.drop ((x.2 % 16) * frameBytes)).take frameBytes)

theorem storeShard_keeps {α : Type} {g : State → α} (hg : ∀ (f : Nat) (bs : List Byte) (t : State), g (t.fillFrame f bs) = g t) (x : Gen)
    (bs : List Byte) : g (s.storeShard x b bs) = g s :=
  each_keeps g (fun _ t => hg _ _ t) _ s

section
variable (hb : (s.stake sid).build = some b) (hf : ((s.stake sid).gen b.slot).frames ≠ [])
  (hn : b.shard + 1 < ((s.stake sid).gen b.slot).nshard) (data : List (Nat × Byte))
  (hsrc : ((buildSources ((s.stake sid).gen b.slot)).getD b.source none).elim false
    (fun a => !slowUp s a || !(slowBadIn s (a + b.shard * 33554432) (shardLen ((s.stake sid).gen b.slot).imgPages b.shard)).isEmpty) = false)
include hb hf hn hsrc

theorem shardArrives_waits (hm : moveLeft s (.build sid) ≠ 0) : s.shardArrives sid (.ok data) = s := by
  rw [State.shardArrives, hb]
  dsimp only
  rw [if_neg (build_goes_on hf (Nat.lt_of_succ_lt hn)), if_neg (by rw [hsrc]; decide), if_pos hm]

/-- A shard that passes its check is stored, and the next one asked for. -/
theorem shardArrives_good (hm : moveLeft s (.build sid) = 0) (hk : (s.skey (s.stake sid).keySlot).state = .live)
    (hburst : b.burst = some (s.skey (s.stake sid).keySlot).gen)
    (hcrc : crc32c (((shardPlain s sid b data).drop (if b.shard = 0 then 4096 * (imageAt s sid ((s.stake sid).gen b.slot).image).imgHead else 0)).map
        BitVec.toNat) =
      leNat (slowRead (imageAt s sid ((s.stake sid).gen b.slot).image).seal s (((s.stake sid).gen b.slot).image + 64 +
        16 * (imageAt s sid ((s.stake sid).gen b.slot).image).nlayer + 32 * (imageAt s sid ((s.stake sid).gen b.slot).image).imgSect +
        4 * b.shard) 4)) :
    s.shardArrives sid (.ok data) =
      ((s.storeShard ((s.stake sid).gen b.slot) b (shardPlain s sid b data)).modGen sid b.slot fun g => { g with done := g.done + 1 }).asksFor sid
        { b with shard := b.shard + 1, source := 0, since := s.rnd.num } := by
  have hrnd : (s.storeShard ((s.stake sid).gen b.slot) b (shardPlain s sid b data)).rnd = s.rnd := storeShard_keeps (fun _ _ _ => rfl) ..
  rw [State.shardArrives, hb]
  dsimp only
  rw [if_neg (build_goes_on hf (Nat.lt_of_succ_lt hn)), if_neg (by rw [hsrc]; decide), if_neg (not_not.mpr hm), if_neg (not_not.mpr hk), if_neg (not_not.mpr hburst)]
  refine (if_neg (not_not.mpr hcrc)).trans ?_
  rw [if_pos hn, ← hrnd]
  rfl

end

/-! ### A peer's request (R180) -/

variable {q : ShardReq} {x : Gen}

/-- Whole pages are whole blocks. -/
theorem shardLen_blocks (pages i : Nat) : 16 * ceilDiv (shardLen pages i) 16 = shardLen pages i := by
  unfold shardLen ceilDiv
  omega

theorem length_frames (fs : List Nat) : (fs.flatMap fun f => frameRead s f 0 frameBytes).length = fs.length * frameBytes := by
  simp [frameRead, List.length_flatMap]

theorem servePeer_none (h : genOf s q.sid q.gen = none) : s.servePeer q = s.emit (.shardRefused q.peer St.noSourceBudget) := by
  rw [State.servePeer, h]
  rfl

/-- A shard that a held generation serves, as ciphertext of the image part. -/
theorem servePeer_serves (hg : genOf s q.sid q.gen = some x) (hp : x.part = q.part) (hn : q.shard < x.nshard)
    (hst : x.state ∈ [GState.ready, .current, .isOpen, .closed]) (hl : (look ({} : Cost) s.bud.share Act.swap).link ≠ 0)
    (hbad : (((shardFrames x.frames.length q.shard).map fun k => x.frames.getD k 0).any fun f => lineBad s f 0 frameBytes) = false) :
    s.servePeer q = (s.emit (.shardReply q.peer q.sid q.shard (mapBlocks (Seal.lock { key := (s.skey (s.stake q.sid).keySlot).key, base := 0 })
      (ceilDiv (shardLen x.imgPages q.shard) 16) (q.shard * 2097152)
      ((((shardFrames x.frames.length q.shard).map fun k => x.frames.getD k 0).flatMap fun f => frameRead s f 0 frameBytes).take
        (shardLen x.imgPages q.shard))))).charge Act.swap { hbm := shardLen x.imgPages q.shard, link := shardLen x.imgPages q.shard } := by
  have hheld : (x.part == q.part && decide (q.shard < x.nshard) && [GState.ready, .current, .isOpen, .closed].contains x.state &&
      (look ({} : Cost) s.bud.share Act.swap).link != 0) = true := by
    simp only [Bool.and_eq_true, beq_iff_eq, decide_eq_true_eq, List.contains_iff_mem, bne_iff_ne]
    exact ⟨⟨⟨hp, hn⟩, hst⟩, hl⟩
  rw [State.servePeer, hg]
  dsimp only
  rw [Option.filter_some, if_pos hheld]
  dsimp only
  rw [hbad]
  rfl

/-! ### The obligation -/

/-- Settles O32: the next source, the wait for admission, the good shard, and the answer to a peer. -/
theorem buildShards : Obligations.BuildShards := by
  intro s sid b hsid hb
  refine ⟨fun hf hn hsrc => shardFetched_bad hsid hb hf hn hsrc, fun hp hr hn hsrc => ?_, fun hf hn data hsrc => ⟨fun hm => ?_, fun hm hk hburst hcrc => ?_⟩,
    fun q hq hg => ?_, fun q x hq hg hp hn hst hl hbad hlen => ?_⟩
  · exact (peerTimeout_answers hsid hb hp hr hn hsrc).imp fun t ⟨hx, hbuild, hhead, _, _⟩ => ⟨hx, hbuild, hhead⟩
  · exact (act_of_frame (decide_eq_true hsid) (shardArrives_frame (Nat.or_self _) Fr.rfl) (by decide)).trans
      (congrArg _ (shardArrives_waits hb hf hn data hsrc hm))
  · refine answers_of_frame rfl (decide_eq_true hsid) (shardArrives_frame (Nat.or_self _) Fr.rfl) ?_
    rw [shardArrives_good hb hf hn data hsrc hm hk hburst hcrc]
    have hst : (s.storeShard ((s.stake sid).gen b.slot) b (shardPlain s sid b data)).stake sid = s.stake sid :=
      storeShard_keeps (g := fun t => t.stake sid) (fun _ _ _ => rfl) ..
    have hkey : ∀ k, (s.storeShard ((s.stake sid).gen b.slot) b (shardPlain s sid b data)).skey k = s.skey k := fun k =>
      storeShard_keeps (g := fun t => t.skey k) (fun _ _ _ => rfl) ..
    refine ⟨?_, ?_, ?_, ?_⟩
    · rw [asksFor_stake, modGen_stake, hst]
      exact congrArg (fun k : KeySlot => some ({ b with shard := b.shard + 1, source := 0, since := s.rnd.num, burst := some k.gen } : Build)) (hkey _)
    · rw [asksFor_stake]
      exact (congrArg Gen.done (modGen_read ..)).trans (congrArg (fun k : Stake => (k.gen b.slot).done + 1) hst)
    · rw [asksFor_out]
      exact congrArg _ (storeShard_keeps (g := State.out) (fun _ _ _ => rfl) ..)
    · rw [State.asksFor, askShard_mem]
      exact storeShard_keeps (g := fun t => t.mem.slow) (fun _ _ _ => rfl) ..
  · exact (act_of_frame (decide_eq_true hq) (servePeer_frame (Nat.or_self _) Fr.rfl) (by decide)).trans (congrArg _ (servePeer_none hg))
  · refine answers_of_frame rfl (decide_eq_true hq) (servePeer_frame (Nat.or_self _) Fr.rfl) ?_
    rw [servePeer_serves hg hp hn hst hl hbad]
    have hbs : ((((shardFrames x.frames.length q.shard).map fun k => x.frames.getD k 0).flatMap fun f => frameRead s f 0 frameBytes).take
        (shardLen x.imgPages q.shard)).length = 16 * ceilDiv (shardLen x.imgPages q.shard) 16 := by
      rw [List.length_take, length_frames, shardLen_blocks, Nat.min_eq_left hlen]
    exact ⟨_, rfl, rfl, (mapBlocks_length (lock_length _) ..).trans (shardLen_blocks ..), unlock_lock _ _ _ _ hbs, tallyOf_charge ..⟩

end Sys2Proof.Machine
end

section
/-! PROOFS. The end of work, as a halt or a replay orders it, queues no unit, adds no waiting sequence and stops or starts no link (R427). -/

namespace Sys2Proof.Machine

-- One theorem after the other: as one text the files are near the memory limit of the check, and every thread that waits counts.
set_option Elab.async false

variable {s o : State}

/-- From `o` to `s` work ended at most: an empty queue of units stays empty, no sequence joined the waiting ones, the stopped links are the same. -/
structure Unwinds (o s : State) : Prop where
  queue : o.bud.queue = [] → s.bud.queue = []
  links : s.flt.links = o.flt.links
  waiting : s.crs.waiting.length ≤ o.crs.waiting.length

theorem Unwinds.rfl : Unwinds s s := ⟨id, Eq.refl _, Nat.le_refl _⟩

theorem Unwinds.trans {t : State} (h : Unwinds o s) (g : Unwinds s t) : Unwinds o t :=
  ⟨fun hq => g.queue (h.queue hq), g.links.trans h.links, g.waiting.trans h.waiting⟩

/-- A change of other fields. -/
theorem Unwinds.step {t : State} (h : Unwinds o s) (hqueue : t.bud.queue = s.bud.queue := by rfl) (hlinks : t.flt.links = s.flt.links := by rfl)
    (hwaiting : t.crs.waiting = s.crs.waiting := by rfl) : Unwinds o t :=
  h.trans ⟨hqueue.trans, hlinks, Nat.le_of_eq (congrArg List.length hwaiting)⟩

/-- A change outside the budgets, the courses and the journal. -/
theorem Unwinds.frame {t : State} {m : Nat} (h : Unwinds o s) (hf : Fr m s t) (hbud : m.testBit Part.bud.code = false := by decide)
    (hflt : m.testBit Part.flt.code = false := by decide) (hcrs : m.testBit Part.crs.code = false := by decide) : Unwinds o t :=
  h.step (congrArg Bud.queue (hf.same .bud hbud)) (congrArg Flt.links (hf.same .flt hflt)) (congrArg Courses.waiting (hf.same .crs hcrs))

theorem Unwinds.ite {p : Prop} [Decidable p] {t : State} (hs : p → Unwinds o s) (ht : ¬p → Unwinds o t) : Unwinds o (if p then s else t) :=
  iteInduction hs ht

theorem Unwinds.each {α : Type} {f : α → State → State} {xs : List α} (h : Unwinds o s) (hf : ∀ x t, Unwinds o t → Unwinds o (f x t)) :
    Unwinds o (s.each xs f) := by
  induction xs generalizing s with
  | nil => exact h
  | cons x xs ih => exact ih (hf x s h)

/-! ### Events and completion records -/

theorem charge_unwinds {c : Nat} {x : Cost} (h : Unwinds o s) : Unwinds o (s.charge c x) := h.step

theorem event_unwinds {fn ring : Nat} {e : EvRec} (h : Unwinds o s) : Unwinds o (s.event fn ring e) := by
  unfold State.event State.putEvent State.keepEvent
  exact .ite (fun _ => h) fun _ => .ite (fun _ => .ite (fun _ => h.step) fun _ => h.step) fun _ =>
    .ite (fun _ => h.step) fun _ => .ite (fun _ => h.step) fun _ => h.step

theorem journal_unwinds {e : JEntry} (h : Unwinds o s) : Unwinds o (s.journal e) :=
  .ite (fun _ => event_unwinds h.step) fun _ => h.step

theorem writeRec_unwinds {qpn : Nat} {r : Rec} (h : Unwinds o s) : Unwinds o (s.writeRec qpn r) := by
  unfold State.writeRec
  extract_lets q fn r' live t1 t2 t3
  have hw : Unwinds o t2 := h.step
  exact .ite (fun _ => hw) fun _ => .ite (fun _ => event_unwinds hw.step) fun _ => hw.step

theorem record_unwinds {qpn : Nat} {r : Rec} (h : Unwinds o s) : Unwinds o (s.record qpn r) :=
  .ite (fun _ => h) fun _ => .ite (fun _ => h.step) fun _ => writeRec_unwinds h

theorem finalRecord_unwinds {n : Notice} {status progress : Nat} (h : Unwinds o s) : Unwinds o (s.finalRecord n status progress) :=
  record_unwinds h.step

/-! ### Descriptors -/

theorem closeDesc_unwinds {qpn : Nat} {d : DescS} {r : Rec} (h : Unwinds o s) : Unwinds o (s.closeDesc qpn d r) :=
  .ite (fun _ => h.step) fun _ => record_unwinds (.ite (fun _ => h.step) fun _ => h.step)

theorem endDescs_unwinds {qpn status : Nat} (h : Unwinds o s) : Unwinds o (s.endDescs qpn status) :=
  h.each fun _ _ ht => closeDesc_unwinds ht

theorem releaseTurn_unwinds {qpn : Nat} (h : Unwinds o s) : Unwinds o (s.releaseTurn qpn) := by
  unfold State.releaseTurn
  refine h.each fun x t ht => ?_
  split
  · exact ht
  · exact .ite (fun _ => ht) fun _ => .ite (fun _ => ht.step) fun _ => closeDesc_unwinds ht

theorem closeSeq_unwinds {qpn : Nat} {d : DescS} {x : Rec} (h : Unwinds o s) : Unwinds o (s.closeSeq qpn d x) :=
  .ite (fun _ => h.step) fun _ => releaseTurn_unwinds (closeDesc_unwinds h)

/-! ### Transfers that ask for admission -/

theorem testBorrow_unwinds (h : Unwinds o s) : Unwinds o s.testBorrow :=
  .ite (fun _ => h) fun _ => .ite (fun _ => h) fun _ => h.step

theorem admitMany_unwinds {c n : Nat} {x : Cost} (h : Unwinds o s) : Unwinds o (s.admitMany c x n).2 := by
  unfold State.admitMany
  split
  · exact h
  · have ht : Unwinds o (if c = Act.tune then s.testBorrow else s) := .ite (fun _ => testBorrow_unwinds h) fun _ => h
    extract_lets t1 tally e k t2
    have ht2 : Unwinds o t2 := ht.step
    split
    · exact ht2.step
    · exact .ite (fun _ => testBorrow_unwinds ht2) fun _ => ht2

theorem admitMove_unwinds {m : Move} (h : Unwinds o s) : Unwinds o (s.admitMove m).2 := by
  unfold State.admitMove
  dsimp only
  split
  · exact admitMany_unwinds h
  · exact admitMany_unwinds (admitMany_unwinds h)

theorem pushMove_unwinds {m : Move} (h : Unwinds o s) : Unwinds o (s.pushMove m) :=
  have hm := admitMove_unwinds (m := m) h
  .ite (fun _ => hm) fun _ => hm.step

theorem zeroFrame_unwinds {f : Nat} (h : Unwinds o s) : Unwinds o (s.zeroFrame f) :=
  .ite (fun _ => h.step) fun _ => pushMove_unwinds h.step

/-! ### Sequences -/

theorem outDone_unwinds {qpn idx : Nat} (h : Unwinds o s) : Unwinds o (s.outDone qpn idx) := by
  unfold State.outDone
  split
  · exact h
  split
  · exact h
  next c _ =>
    refine .ite (fun _ => closeSeq_unwinds h.step) fun _ => .ite (fun _ => h) fun _ => ?_
    have hread := h.frame (readDva_frame (x0 := (s.qp qpn).ctx) (x1 := 0) (x2 := c.src) (x3 := c.len) (Nat.or_self _) Fr.rfl)
    dsimp only
    split
    · exact closeSeq_unwinds (Unwinds.step (hread.frame (translate_frame (Nat.or_self _) Fr.rfl)))
    · exact closeSeq_unwinds hread

theorem outStart_unwinds {r : Seq} {d : DescS} {x : Rec} (h : Unwinds o s) : Unwinds o (s.outStart r d x) :=
  .ite (fun _ => closeSeq_unwinds h) fun _ => outDone_unwinds (pushMove_unwinds h.step)

theorem finishSeq_unwinds {r : Seq} {status gen wver rnd : Nat} (h : Unwinds o s) : Unwinds o (s.finishSeq r status gen wver rnd) := by
  unfold State.finishSeq
  extract_lets st leaves crs t1 t2 x t3
  have ht1 : Unwinds o t1 := h.trans ⟨id, Eq.refl _, List.length_filter_le ..⟩
  have ht2 : Unwinds o t2 := .ite (fun _ => ht1.step) fun _ => .ite (fun _ => ht1.step) fun _ => ht1
  have ht3 : Unwinds o t3 := by
    dsimp only [t3]
    split
    · exact ht2
    · exact outStart_unwinds ht2
  exact .ite (fun _ => h) fun _ => ht3.frame (openTurn_frame (Nat.or_self _) Fr.rfl)

/-! ### Courses -/

theorem finishWorks_unwinds (h : Unwinds o s) : Unwinds o s.finishWorks :=
  h.each fun _ _ ht => .ite (fun _ => finalRecord_unwinds ht.step) fun _ => ht

theorem unpinCourse_unwinds {c : Course} (h : Unwinds o s) : Unwinds o (s.unpinCourse c) :=
  finishWorks_unwinds (h.each fun _ _ ht => (ht.frame (modFrame_frame (Nat.or_self _) Fr.rfl)).each fun _ _ hu =>
    hu.frame (unpinPage_frame (Nat.or_self _) Fr.rfl))

theorem unqueue_unwinds {c : Course} (h : Unwinds o s) : Unwinds o (s.unqueue c) :=
  h.trans ⟨fun hq => congrArg (List.filter _) hq, Eq.refl _, Nat.le_refl _⟩

theorem releaseCourse_unwinds {c : Course} (h : Unwinds o s) : Unwinds o (s.releaseCourse c) := by
  unfold State.releaseCourse
  extract_lets t1 t2 t3 t4 t5
  have ht2 : Unwinds o t2 := (unqueue_unwinds h).each fun _ _ hu => hu.step
  have ht4 : Unwinds o t4 := unpinCourse_unwinds (s := t3) ht2.step
  have ht5 : Unwinds o t5 := by
    dsimp only [t5]
    split
    · exact zeroFrame_unwinds ht4
    · exact ht4
  exact ht5.step

theorem probeFails_unwinds {c : Course} (h : Unwinds o s) : Unwinds o (s.probeFails c) := by
  unfold State.probeFails
  split
  · exact h
  · exact h.step

theorem endCourse_unwinds {cid status : Nat} (h : Unwinds o s) : Unwinds o (s.endCourse cid status) := by
  unfold State.endCourse
  split
  · exact h
  next c _ =>
    extract_lets t1 t2 t3
    have ht1 : Unwinds o t1 := (releaseCourse_unwinds h).each fun _ _ hu => hu.step
    have ht2 : Unwinds o t2 := ht1.each fun _ _ hu => finishSeq_unwinds hu
    have ht3 : Unwinds o t3 := .ite (fun _ => probeFails_unwinds ht2) fun _ => ht2
    split
    · exact ht3
    · exact ht3.step

/-! ### Jobs -/

theorem saveBucket_unwinds {j : Job} {b : Nat} (h : Unwinds o s) : Unwinds o (s.saveBucket j b) :=
  (charge_unwinds (h.frame (readAll_frame (Nat.or_self _) Fr.rfl))).frame (stateWrite_frame (Nat.or_self _) Fr.rfl)

theorem sendLedger_unwinds {key : Nat} {e : LedgerEntry} (h : Unwinds o s) : Unwinds o (s.sendLedger key e) :=
  (h.frame (writeLedger_frame (Nat.or_self _) Fr.rfl)).step

theorem freeState_unwinds {j : Job} (h : Unwinds o s) : Unwinds o (s.freeState j) :=
  h.each fun _ _ ht => zeroFrame_unwinds ht.step

theorem closeJob_unwinds {key status outcome : Nat} (h : Unwinds o s) : Unwinds o (s.closeJob key status outcome) := by
  unfold State.closeJob
  extract_lets j t1 t2 t3 t4 t5 t6
  have ht1 : Unwinds o t1 := Unwinds.each (s := s.dropJobMoves key) h.step fun _ _ hu => endCourse_unwinds hu
  have ht2 : Unwinds o t2 := .ite (fun _ => sendLedger_unwinds ht1) fun _ => ht1
  have ht3 : Unwinds o t3 := .ite (fun _ => ht2) fun _ => ht2.each fun _ _ hu => saveBucket_unwinds hu
  have ht4 : Unwinds o t4 := .ite (fun _ => ht3.frame (unpinState_frame (Nat.or_self _) Fr.rfl)) fun _ => freeState_unwinds ht3
  have ht6 : Unwinds o t6 := ht4.step
  refine .ite (fun _ => h) fun _ => ?_
  split
  · exact ht6
  · exact record_unwinds ht6.step

/-! ### A halt, and a replay -/

theorem halt_unwinds {code blk unit : Nat} (h : s.flt.halted = false) : Unwinds (s.haltMarks code) (s.halt code blk unit) := by
  unfold State.halt
  rw [h]
  exact ((((journal_unwinds Unwinds.rfl).each fun _ _ ht => endCourse_unwinds ht).each fun _ _ ht => finishSeq_unwinds ht).each fun _ _ ht =>
    closeJob_unwinds ht).each fun _ _ ht => endDescs_unwinds ht

theorem rewindCell_unwinds {c : Course} {x : Nat × Option SaveImage} (h : Unwinds o s) : Unwinds o (State.rewindCell c x s) := by
  unfold State.rewindCell
  split
  · exact h
  · dsimp only
    split
    · exact charge_unwinds h.step
    · exact charge_unwinds h.step

theorem rewindCell_winds {c : Course} {x : Nat × Option SaveImage} (h : Winds o s) : Winds o (State.rewindCell c x s) := by
  unfold State.rewindCell
  split
  · exact h
  · dsimp only
    split
    · exact charge_winds h.step
    · exact charge_winds h.step

theorem replay_unwinds {cid : Nat} (h : Unwinds o s) : Unwinds o (s.replay cid) := by
  unfold State.replay
  split
  · exact h
  next c _ =>
    refine .ite (fun _ => endCourse_unwinds h) fun _ => ?_
    have hback : Unwinds o ((s.undoWrites c).each c.ckCells (State.rewindCell c)) :=
      (h.frame (undoWrites_frame (Nat.or_self _) Fr.rfl)).each fun _ _ hu => rewindCell_unwinds hu
    exact hback.step

theorem replay_winds {cid : Nat} (h : Winds o s) : Winds o (s.replay cid) := by
  unfold State.replay
  split
  · exact h
  next c _ =>
    refine .ite (fun _ => endCourse_winds h) fun _ => ?_
    have hback : Winds o ((s.undoWrites c).each c.ckCells (State.rewindCell c)) :=
      (h.frame (undoWrites_frame (Nat.or_self _) Fr.rfl)).each fun _ _ hu => rewindCell_winds hu
    exact hback.step

theorem replayReady_unwinds (h : Unwinds o s) : Unwinds o s.replayReady :=
  h.each fun _ _ hu => .ite (fun _ => replay_unwinds hu) fun _ => hu

theorem replayReady_winds (h : Winds o s) : Winds o s.replayReady :=
  h.each fun _ _ hu => .ite (fun _ => replay_winds hu) fun _ => hu

end Sys2Proof.Machine
end

section
/-! PROOFS. Cells between contexts (R76 to R80): saved, zeroed and restored; failed cells and spares (R84, R85); the staged image (R83). -/

namespace Sys2Proof.Machine

-- One theorem after the other: as one text the files are near the memory limit of the check, and every thread that waits counts.
set_option Elab.async false

variable {s : State} {lc o : Nat} {i : SaveImage}

/-! ### A cell that may be bound -/

theorem bound_keeps {α : Type} {g : Cell → α} (hg : ∀ (c : Cell) x, g { c with ctx := x, incoming := none } = g c) (c : Cell) : g c.bound = g c := by
  unfold Cell.bound
  split
  · exact hg ..
  · rfl

theorem bound_binds {c : Cell} {x : Nat} (hi : c.incoming = some x) (hl : c.late = false) (hs : c.saving = none) (hz : c.zeroing = false)
    (hr : c.restore = false) : c.bound.ctx = some x ∧ c.bound.incoming = none := by
  unfold Cell.bound
  rw [if_pos (by simp [hi, hl, hs, hz, hr])]
  exact ⟨hi, rfl⟩

/-! ### A save (R78) -/

/-- A fold takes two states that agree on `g` to two that agree on it, when each step does. -/
theorem each_congr {α β : Type} {g : State → β} {f : α → State → State} (hf : ∀ x a b, g a = g b → g (f x a) = g (f x b)) (xs : List α)
    {a b : State} (h : g a = g b) : g (a.each xs f) = g (b.each xs f) := by
  induction xs generalizing a b with
  | nil => exact h
  | cons x xs ih => exact ih (hf x a b h)

/-- Bytes of a save area written over one HBM give what they give over the same HBM. -/
theorem areaWrite_hbm_congr {t : State} {bs : List Byte} (hp : areaPieces t o lc 0 bs.length = areaPieces s o lc 0 bs.length)
    (h : t.mem.hbm = s.mem.hbm) : (t.areaWrite o lc bs).mem.hbm = (s.areaWrite o lc bs).mem.hbm := by
  unfold State.areaWrite
  rw [hp]
  split
  · exact h
  · refine each_congr (g := fun t => t.mem.hbm) (fun x a b hab => ?_) _ h
    dsimp only at hab ⊢
    rw [(clearLines_frame (Nat.or_self _) Fr.rfl).hbm_eq, (clearLines_frame (Nat.or_self _) Fr.rfl).hbm_eq]
    dsimp only
    rw [hab]

theorem areaPieces_dropWait (w : WaitFor) (n : Nat) : areaPieces (s.dropWait w) o lc 0 n = areaPieces s o lc 0 n := rfl

theorem saveImage_mem : (s.saveImage o lc i).mem = (s.areaWrite o lc (imageBytes i)).mem := by
  unfold State.saveImage
  dsimp only

theorem saveImage_saved : saveKey o lc ∈ (s.saveImage o lc i).ups.saved := by
  unfold State.saveImage
  dsimp only
  exact List.mem_append_right _ (List.mem_singleton_self _)

/-- A save whose area has its frames. -/
theorem cellSaved_eq (hs : (s.cell lc).saving = some i) (ho : (s.cell lc).ctx = some o) (hg : ctxGoing s o = false)
    (ha : saveKey o lc ∈ s.ups.areas) (hf : savesFit s o = true) {ps : List (Nat × Nat × Nat × Nat)}
    (hp : areaPieces s o lc 0 (imageSize i) = some ps) :
    s.cellSaved lc = ((s.dropWait (.save o lc)).saveImage o lc i).modCell lc Cell.saved := by
  have htake : s.takeSave o lc = s.dropWait (.save o lc) := by
    unfold State.takeSave State.trySave
    dsimp only
    rw [if_pos (List.contains_iff_mem.mpr ha), if_pos hf]
  rw [State.cellSaved, hs, ho]
  dsimp only
  rw [hg, htake, areaPieces_dropWait, hp]
  rfl

theorem cellSaveDone_answers (hlc : lc < 960) (hs : (s.cell lc).saving = some i) (ho : (s.cell lc).ctx = some o) (hg : ctxGoing s o = false)
    (ha : saveKey o lc ∈ s.ups.areas) (hf : savesFit s o = true) {ps : List (Nat × Nat × Nat × Nat)}
    (hp : areaPieces s o lc 0 (imageSize i) = some ps) :
    Answers (.cellSaveDone lc) s fun t => t.mem.hbm = (s.areaWrite o lc (imageBytes i)).mem.hbm ∧ saveKey o lc ∈ t.ups.saved ∧
      (t.cell lc).saving = none ∧ (t.cell lc).slots = [] ∧ (t.cell lc).vregs = [] ∧ (t.cell lc).bank = (s.cell lc).bank ∧
      (∀ j, j ≠ lc → t.cell j = s.cell j) := by
  refine answers_of_frame rfl (decide_eq_true hlc) (cellSaved_frame (Nat.or_self _) Fr.rfl) ?_
  rw [cellSaved_eq hs ho hg ha hf hp]
  have hcells : ∀ j, ((s.dropWait (.save o lc)).saveImage o lc i).cell j = s.cell j := fun j =>
    cell_of_cells _ (saveImage_frame (Nat.or_self _) Fr.rfl).cells_eq
  refine ⟨?_, ?_, ?_, ?_, ?_, ?_, fun j hj => ?_⟩
  · rw [modCell_mem, saveImage_mem]
    exact areaWrite_hbm_congr (areaPieces_dropWait _ _) rfl
  · rw [modCell_ups]
    exact saveImage_saved
  · rw [modCell_read]
    exact bound_keeps (fun _ _ => rfl) _
  · rw [modCell_read]
    exact bound_keeps (fun _ _ => rfl) _
  · rw [modCell_read]
    exact bound_keeps (fun _ _ => rfl) _
  · rw [modCell_read, hcells]
    exact bound_keeps (g := Cell.bank) (fun _ _ => rfl) _
  · rw [modCell_read_ne _ _ _ hj, hcells]

/-! ### Zeroing and restoring (R77, R79) -/

theorem bankZeroDone_answers (hlc : lc < 960) (hz : (s.cell lc).zeroing = true) :
    Answers (.bankZeroDone lc) s fun t => (t.cell lc).bank = [] ∧ (t.cell lc).table = [] ∧ (t.cell lc).zeroing = false ∧
      (t.cell lc).slots = (s.cell lc).slots ∧ (t.cell lc).vregs = (s.cell lc).vregs ∧ (∀ j, j ≠ lc → t.cell j = s.cell j) := by
  refine answers_of_frame rfl (decide_eq_true hlc) (bankZeroed_frame (Nat.or_self _) Fr.rfl) ?_
  rw [State.bankZeroed, if_pos hz]
  refine ⟨?_, ?_, ?_, ?_, ?_, fun j hj => modCell_read_ne _ _ _ hj⟩ <;> rw [modCell_read] <;> exact bound_keeps (fun _ _ => rfl) _

theorem restoreCheck_answers (hlc : lc < 960) {x : Nat} (hs : (s.cell lc).saving = none) (hr : (s.cell lc).restore = true)
    (hx : (s.cell lc).incoming = some x) (hi : restoredImage s x lc = some i) :
    Answers (.restoreCheck lc) s fun t => (t.cell lc).slots = i.slots ∧ (t.cell lc).restore = false ∧ t.flt.head = s.flt.head ∧
      ((s.cell lc).zeroing = false → (s.cell lc).late = false → (t.cell lc).ctx = some x ∧ (t.cell lc).incoming = none) := by
  refine answers_of_frame rfl (decide_eq_true hlc) (restoreCheck_frame (Nat.or_self _) Fr.rfl) ?_
  unfold State.restoreCheck
  simp only [hs, hr, hx, hi]
  refine ⟨?_, ?_, rfl, fun hz hl => ?_⟩ <;> rw [modCell_read]
  · exact bound_keeps (fun _ _ => rfl) _
  · exact bound_keeps (fun _ _ => rfl) _
  · exact bound_binds hx hl hs hz rfl

/-! ### Courses that stop (R84) -/

/-- A course that has been stopped. -/
def CourseStopped (k : Nat) (t : State) : Prop := ∃ c, t.course k = some c ∧ c.stopped = true

/-- What the stop of a course leaves of the courses: it is marked. -/
theorem stopCourse_crs (cid : Nat) {c : Course} (hc : s.course cid = some c) :
    (s.stopCourse cid).crs = (s.modCourse cid fun c => { c with stopped := true }).crs := by
  have hcells : ((s.unqueue c).each (planCells c.plan) fun lc s => s.modCell lc fun x => if x.course = some cid then
      { x with f := x.f.halted, b := x.b.halted } else x).crs = s.crs := by
    refine (each_keeps State.crs (fun lc t => ?_) _ _).trans ?_
    · rfl
    · rfl
  unfold State.stopCourse
  rw [hc]
  dsimp only
  unfold State.modCourse
  dsimp only
  rw [hcells]

theorem stopCourse_stops {cid : Nat} {c : Course} (hc : s.course cid = some c) : CourseStopped cid (s.stopCourse cid) := by
  refine ⟨if c.id == cid then { c with stopped := true } else c, ?_, ?_⟩
  · rw [course_of_crs _ (stopCourse_crs cid hc), course_modCourse (g := fun c => { c with stopped := true }) (fun _ => rfl), hc]
    rfl
  · rw [course_id hc, if_pos (beq_self_eq_true _)]

/-- The stop of a course leaves no course out, and none that was stopped goes on. -/
theorem stopCourse_course (cid k : Nat) {c : Course} (hk : s.course k = some c) :
    ∃ d, (s.stopCourse cid).course k = some d ∧ (c.stopped = true → d.stopped = true) := by
  cases hc : s.course cid with
  | none => exact ⟨c, by rw [State.stopCourse, hc]; exact hk, id⟩
  | some x =>
    refine ⟨if c.id == cid then { c with stopped := true } else c, ?_, fun h => ?_⟩
    · rw [course_of_crs _ (stopCourse_crs cid hc), course_modCourse (g := fun c => { c with stopped := true }) (fun _ => rfl), hk]
      rfl
    · split
      · rfl
      · exact h

theorem CourseStopped.stopCourse {k : Nat} (h : CourseStopped k s) (cid : Nat) : CourseStopped k (s.stopCourse cid) := by
  obtain ⟨c, hc, hs⟩ := h
  obtain ⟨d, hd, hst⟩ := stopCourse_course cid k hc
  exact ⟨d, hd, hst hs⟩

/-- Every listed course that runs is stopped. -/
theorem each_stopCourse {xs : List Course} {k : Course} (hk : k ∈ xs) (hc : ∃ c, s.course k.id = some c) :
    CourseStopped k.id (s.each xs fun c s => s.stopCourse c.id) := by
  have hkeep : ∀ (ys : List Course) (t : State), CourseStopped k.id t → CourseStopped k.id (t.each ys fun c s => s.stopCourse c.id) := by
    intro ys
    induction ys with
    | nil => exact fun _ h => h
    | cons y ys ih => exact fun t h => ih _ (h.stopCourse y.id)
  induction xs generalizing s with
  | nil => cases hk
  | cons x xs ih =>
    obtain ⟨c, hc⟩ := hc
    rcases List.mem_cons.mp hk with rfl | hk
    · exact hkeep xs _ (stopCourse_stops hc)
    · obtain ⟨d, hd, -⟩ := stopCourse_course x.id k.id hc
      exact ih hk ⟨d, hd⟩

/-! ### Failed cells and spares (R84, R85), the staged image (R83) -/

theorem cellEntry_code (code : Nat) : (cellEntry s lc code).code = code := by
  unfold cellEntry
  split <;> rfl

/-- The failure entered: journalled, and the position fenced. -/
def State.fenceCell (lc : Nat) (s : State) : State :=
  let t := (s.journal (cellEntry s lc St.cellFailed)).keepImage lc
  { t with ups := { t.ups with
    fenced := t.ups.fenced ++ [lc], failed := lc :: t.ups.failed, loading := t.ups.loading.filter fun x => x != lc } }

theorem keepImage_flt : (s.keepImage lc).flt.head = s.flt.head ∧ (s.keepImage lc).flt.ring = s.flt.ring := by
  unfold State.keepImage
  split
  · exact ⟨rfl, rfl⟩
  · split <;> exact ⟨rfl, rfl⟩

theorem cellFailure_answers (hlc : lc < 960) (hh : hasCell s lc = true) (hl : lc ∉ s.ups.lost) (hf : lc ∉ s.ups.fenced) :
    Answers (.cellFailure lc) s fun t => t.ups.fenced = s.ups.fenced ++ [lc] ∧ lc ∈ t.ups.failed ∧ lc ∉ t.ups.loading ∧
      t.flt.head = s.flt.head + 1 ∧ (look {} t.flt.ring ((s.flt.head + 1) % 4096)).code = St.cellFailed ∧
      ∀ k, k ∈ s.crs.running → (planCells k.plan).contains lc = true → (∀ y ∈ s.crs.running, y.id = k.id → y = k) → CourseStopped k.id t := by
  refine answers_of_frame rfl (decide_eq_true hlc) (cellFails_frame (Nat.or_self _) Fr.rfl) ?_
  have hj : Fr 35651720 s (s.journal (cellEntry s lc St.cellFailed)) := journal_frame (Nat.or_self _) Fr.rfl
  have hk : Fr 33554432 (s.journal (cellEntry s lc St.cellFailed)) ((s.journal (cellEntry s lc St.cellFailed)).keepImage lc) :=
    keepImage_frame (Nat.or_self _) Fr.rfl
  have hups : ((s.journal (cellEntry s lc St.cellFailed)).keepImage lc).ups = s.ups := (hk.same .ups (by decide)).trans (hj.same .ups (by decide))
  have hcrs : (s.fenceCell lc).crs = s.crs := (hk.crs_eq).trans hj.crs_eq
  have heq : s.cellFails lc = (s.fenceCell lc).each ((s.fenceCell lc).crs.running.filter fun c => (planCells c.plan).contains lc) fun c s =>
      s.stopCourse c.id := by
    unfold State.cellFails
    rw [if_neg (by simp [hh, hl, hf])]
    rfl
  rw [heq]
  have hkeep : ∀ xs : List Course, ((s.fenceCell lc).each xs fun c s => s.stopCourse c.id).ups = (s.fenceCell lc).ups ∧
      ((s.fenceCell lc).each xs fun c s => s.stopCourse c.id).flt = (s.fenceCell lc).flt := fun xs =>
    ⟨each_keeps State.ups (fun _ _ => (stopCourse_frame (Nat.or_self _) Fr.rfl).same .ups (by decide)) _ _,
      each_keeps State.flt (fun _ _ => (stopCourse_frame (Nat.or_self _) Fr.rfl).flt_eq) _ _⟩
  refine ⟨?_, ?_, ?_, ?_, ?_, fun k hk hlc _ => each_stopCourse (List.mem_filter.mpr ⟨hcrs ▸ hk, hlc⟩) ?_⟩
  · rw [(hkeep _).1]
    exact congrArg (fun u : Upsett => u.fenced ++ [lc]) hups
  · rw [(hkeep _).1]
    exact List.mem_cons_self
  · rw [(hkeep _).1]
    show lc ∉ List.filter _ _
    simp
  · rw [(hkeep _).2]
    exact keepImage_flt.1.trans (journal_head _)
  · rw [(hkeep _).2]
    show (look {} ((s.journal (cellEntry s lc St.cellFailed)).keepImage lc).flt.ring _).code = _
    rw [keepImage_flt.2, journal_code, cellEntry_code]
  · rw [course_of_crs _ hcrs]
    exact Option.isSome_iff_exists.mp (List.find?_isSome.mpr ⟨k, hk, beq_self_eq_true _⟩)

theorem spareLoadDone_answers (hlc : lc < 960) (hl : lc ∈ s.ups.loading) :
    Answers (.spareLoadDone lc) s fun t => lc ∉ t.ups.loading ∧ t.ups.bind = s.ups.bind := by
  refine answers_of_frame rfl (decide_eq_true hlc) (spareLoaded_frame (Nat.or_self _) Fr.rfl) ?_
  unfold State.spareLoaded
  rw [if_neg (by simp [hl])]
  dsimp only
  rw [each_keeps State.ups fun c t => (replay_frame (Nat.or_self _) Fr.rfl).same .ups (by decide)]
  exact ⟨by simp, rfl⟩

end Sys2Proof.Machine
end

section
/-! PROOFS. Faults of links, block memories, engines and processors (R425, R427, R447): what is journalled, what is reset, and when the device halts. -/

namespace Sys2Proof.Machine

-- One theorem after the other: as one text the files are near the memory limit of the check, and every thread that waits counts.
set_option Elab.async false

variable {s : State} {warp : Bool} {link : Nat}

/-! ### Stopped links -/

theorem linkDownNow_of_links {t : State} (h : t.flt.links = s.flt.links) (warp : Bool) (link : Nat) : linkDownNow t warp link = linkDownNow s warp link :=
  congrArg (List.find? _) h

/-- The record of a link after it has been set. -/
theorem linkDownNow_setLink (fails : Option Nat) : linkDownNow (s.setLink warp link fails) warp link =
    fails.map fun n => { warp := warp, link := link, fails := n, since := some s.rnd.num } := by
  have hrest : (s.flt.links.filter fun l => !(l.warp == warp && l.link == link)).find? (fun l => l.warp == warp && l.link == link) = none := by
    rw [List.find?_eq_none]
    intro l hl
    rw [Bool.not_eq_true, ← Bool.not_eq_true']
    exact (List.mem_filter.mp hl).2
  unfold linkDownNow State.setLink
  dsimp only
  rw [List.find?_append, hrest, Option.none_or]
  cases fails with
  | none => rfl
  | some n => exact List.find?_cons_of_pos (by simp)

theorem flitReplayFail_answers (hf : linkFitted s warp link = true) (hd : linkDownNow s warp link = none) (hr : s.crs.running = []) :
    Answers (.flitReplayFail warp link) s fun t =>
      linkDownNow t warp link = some { warp := warp, link := link, fails := 0, since := some s.rnd.num } ∧ t.flt.head = s.flt.head + 1 ∧
      (look {} t.flt.ring ((s.flt.head + 1) % 4096)).code = St.fabricRetrain := by
  refine answers_of_frame rfl rfl (flitFails_frame (Nat.or_self _) Fr.rfl) ?_
  have heq : s.flitFails warp link = (s.setLink warp link (some 0)).journal
      { code := St.fabricRetrain, cls := Cls.recovered, blk := linkBlk warp, unit := link } := by
    unfold State.flitFails State.faultStops
    rw [if_neg (by simp [hf, hd])]
    have hnone : (s.setLink warp link (some 0)).crs.running = [] := hr
    rw [hnone]
    rfl
  rw [heq]
  refine ⟨?_, journal_head _, ?_⟩
  · rw [linkDownNow_of_links (journal_unwinds Unwinds.rfl).links, linkDownNow_setLink]
    rfl
  · exact journal_code (s := s.setLink warp link (some 0)) _

section
variable {l : StoppedLink} (hl : linkDownNow s warp link = some l)
include hl

/-- A link that does not retrain yet stays as it is. -/
theorem link_waits (hr : retrains s l = false) (ok : Bool) :
    exec (.linkRetrainDone warp link ok) s = .next s ∧ exec (.fabricFailed warp link) s = .next s := by
  have hdone : s.retrainDone warp link ok = s := by
    rw [State.retrainDone, hl]
    dsimp only
    rw [hr]
    rfl
  have hfails : s.fabricFails warp link = s := by
    rw [State.fabricFails, hl]
    dsimp only
    rw [hr]
    rfl
  exact ⟨(congrArg (act true s) hdone).trans (act_next rfl rfl), (congrArg (act true s) hfails).trans (act_next rfl rfl)⟩

variable (hr : retrains s l = true)
include hr

theorem retrainDone_ok : s.retrainDone warp link true = (s.setLink warp link none).replayReady := by
  rw [State.retrainDone, hl]
  dsimp only
  rw [hr]
  rfl

theorem retrainDone_fails : s.retrainDone warp link false = s.retrainFails warp link l.fails := by
  rw [State.retrainDone, hl]
  dsimp only
  rw [hr]
  rfl

theorem linkRetrained_answers : Answers (.linkRetrainDone warp link true) s fun t => linkDownNow t warp link = none ∧ t.flt.halted = s.flt.halted := by
  refine answers_of_frame rfl rfl (retrainDone_frame (Nat.or_self _) Fr.rfl) ?_
  rw [retrainDone_ok hl hr]
  refine ⟨?_, (replayReady_winds (s := s.setLink warp link none) Winds.rfl).halted⟩
  rw [linkDownNow_of_links (replayReady_unwinds Unwinds.rfl).links, linkDownNow_setLink]
  rfl

theorem linkRetrainFails_answers (h2 : l.fails < 2) : Answers (.linkRetrainDone warp link false) s fun t =>
    linkDownNow t warp link = some { warp := warp, link := link, fails := l.fails + 1, since := some s.rnd.num } ∧ t.flt.halted = s.flt.halted := by
  refine answers_of_frame rfl rfl (retrainDone_frame (Nat.or_self _) Fr.rfl) ?_
  rw [retrainDone_fails hl hr, State.retrainFails, if_neg (Nat.not_le.mpr h2)]
  exact ⟨linkDownNow_setLink _, rfl⟩

/-- A third retrain that fails halts the device. -/
theorem fabricFails_answers (h2 : 2 ≤ l.fails) (hh : s.flt.halted = false) : ∀ x ∈ [Instr.linkRetrainDone warp link false, .fabricFailed warp link],
    Answers x s fun t => t.flt.halted = true ∧ t.flt.code = St.fabricFailed ∧ t.bud.isOpen = false ∧ t.bud.queue = [] ∧
      t.hoop.bypassed = true ∧ t.hoop.cause = 2 := by
  have hfails : s.retrainFails warp link l.fails = (s.setLink warp link (some (l.fails + 1))).halt St.fabricFailed (linkBlk warp) link :=
    if_pos h2
  have hrun : (s.setLink warp link (some (l.fails + 1))).flt.halted = false := hh
  have hP : ∀ {x : Instr}, exec x s = act true s (s.retrainFails warp link l.fails) → Answers x s fun t =>
      t.flt.halted = true ∧ t.flt.code = St.fabricFailed ∧ t.bud.isOpen = false ∧ t.bud.queue = [] ∧ t.hoop.bypassed = true ∧ t.hoop.cause = 2 := by
    intro x hx
    refine answers_of_frame hx rfl (retrainFails_frame (Nat.or_self _) Fr.rfl) ?_
    rw [hfails]
    have hw := halt_winds (code := St.fabricFailed) (blk := linkBlk warp) (unit := link) hrun
    exact ⟨hw.halted, hw.code, hw.isOpen, (halt_unwinds hrun).queue rfl, congrArg Hoop.bypassed (halt_hoop hrun), congrArg Hoop.cause (halt_hoop hrun)⟩
  have hx2 : s.fabricFails warp link = s.retrainFails warp link l.fails := by
    rw [State.fabricFails, hl]
    dsimp only
    rw [hr, decide_eq_true h2]
    rfl
  simp only [List.forall_mem_cons]
  exact ⟨hP (congrArg (act true s) (retrainDone_fails hl hr)), hP (congrArg (act true s) hx2), fun _ h => nomatch h⟩

end

/-! ### Block memories -/

theorem tallyMemory_answers (hh : s.flt.halted = false) (u : Nat) : Answers (.sramUncorrectable .tally u) s fun t =>
    t.flt.halted = true ∧ t.flt.code = St.sramUncorrectable ∧ t.hoop.bypassed = true ∧ t.crs.waiting.length ≤ s.crs.waiting.length := by
  refine answers_of_frame rfl rfl (sramFails_frame (Nat.or_self _) Fr.rfl) ?_
  have hw := halt_winds (code := St.sramUncorrectable) (blk := Blk.round) (unit := 0) hh
  exact ⟨hw.halted, hw.code, congrArg Hoop.bypassed (halt_hoop hh), (halt_unwinds hh).waiting⟩

theorem directoryCache_answers (u : Nat) : Answers (.sramUncorrectable .directoryCache u) s fun t =>
    t.flt.head = s.flt.head + 1 ∧ t.flt.halted = s.flt.halted ∧ t.crs = s.crs := by
  refine answers_of_frame rfl rfl (sramFails_frame (Nat.or_self _) Fr.rfl) ?_
  rw [State.sramFails]
  exact ⟨journal_head _, (journal_winds Winds.rfl).halted, (journal_frame (Nat.or_self _) Fr.rfl).crs_eq⟩

/-! ### Engines -/

/-- What an entry of a changed table reads as, where the change keeps the default and the entry does not become one. -/
theorem look_mapTab {α : Type} [DecidableEq α] {d : α} {f : Nat → α → α} {t : Tab α} {k : Nat} (hd : f k d = d) (hk : f k (look d t k) ≠ d) :
    look d (mapTab d f t) k = f k (look d t k) := by
  induction t with
  | nil => exact hd.symm
  | cons p t ih =>
    obtain ⟨j, v⟩ := p
    have hcons : mapTab d f ((j, v) :: t) = if f j v = d then mapTab d f t else (j, f j v) :: mapTab d f t := by
      by_cases hv : f j v = d <;> simp [mapTab, hv]
    rw [hcons]
    by_cases hj : j = k
    · subst hj
      have hlook : look d ((j, v) :: t) j = v := if_pos rfl
      rw [hlook] at hk ⊢
      rw [if_neg hk]
      exact if_pos rfl
    · have hskip : ∀ (w : α) (r : Tab α), look d ((j, w) :: r) k = look d r k := fun _ _ => if_neg hj
      rw [hskip] at hk ⊢
      split
      · exact ih hk
      · rw [hskip]
        exact ih hk

/-- Which engines of a die are disabled, and when each last failed. -/
def Msd.engines (m : Msd) : List Nat × List (Nat × Nat) := (m.disabled, m.lastFail)

theorem stopCourse_engines (cid : Nat) {die : Nat} (h : (s.msdOf die).lastFail ≠ []) : ((s.stopCourse cid).msdOf die).engines = (s.msdOf die).engines := by
  unfold State.stopCourse
  split
  · rfl
  next c _ =>
    have hmsd : ((s.unqueue c).each (planCells c.plan) fun lc s => s.modCell lc fun x => if x.course = some cid then
        { x with f := x.f.halted, b := x.b.halted } else x).msd = s.msd := by
      refine (each_keeps State.msd (fun lc t => ?_) _ _).trans ?_
      · rfl
      · rfl
    unfold State.msdOf at h ⊢
    dsimp only [State.modCourse]
    rw [hmsd, look_mapTab]
    · rfl
    · rfl
    · exact fun hd => h (congrArg Msd.lastFail hd)

/-- What a fault that stops courses leaves: the journal has grown, and the engines of a die that has failed are as they were. -/
def FaultKeeps (die : Nat) (s t : State) : Prop :=
  s.flt.head ≤ t.flt.head ∧ ((s.msdOf die).lastFail ≠ [] → (t.msdOf die).engines = (s.msdOf die).engines)

theorem FaultKeeps.rfl {die : Nat} : FaultKeeps die s s := ⟨Nat.le_refl _, fun _ => Eq.refl _⟩

theorem FaultKeeps.trans {die : Nat} {t u : State} (h : FaultKeeps die s t) (g : FaultKeeps die t u) : FaultKeeps die s u := by
  refine ⟨h.1.trans g.1, fun hl => ?_⟩
  have ht := h.2 hl
  have hlt : (t.msdOf die).lastFail = (s.msdOf die).lastFail := congrArg Prod.snd ht
  exact (g.2 (hlt ▸ hl)).trans ht

theorem journal_faultKeeps (die : Nat) (e : JEntry) : FaultKeeps die s (s.journal e) :=
  ⟨(journal_head e).symm ▸ Nat.le_succ _, fun _ => congrArg Msd.engines (msdOf_of_msd _ (journal_frame (Nat.or_self _) Fr.rfl).msd_eq)⟩

theorem stopCourse_faultKeeps (die cid : Nat) : FaultKeeps die s (s.stopCourse cid) :=
  ⟨Nat.le_of_eq (congrArg Flt.head (stopCourse_frame (Nat.or_self _) Fr.rfl).flt_eq).symm, stopCourse_engines cid⟩

/-- A fault that stops courses is journalled at least once. -/
theorem faultStops_keeps (die : Nat) (hit : Course → Bool) (e : JEntry) :
    s.flt.head < (s.faultStops hit e).flt.head ∧ FaultKeeps die s (s.faultStops hit e) := by
  have hone : ∀ (c : Course) (t : State), t.flt.head < ((t.journal (courseEntry c e)).stopCourse c.id).flt.head := fun c t => by
    rw [(stopCourse_frame (Nat.or_self _) Fr.rfl).flt_eq, journal_head]
    exact Nat.lt_succ_self _
  have hstep : ∀ (c : Course) (t : State), FaultKeeps die t ((t.journal (courseEntry c e)).stopCourse c.id) := fun c t =>
    (journal_faultKeeps die _).trans (stopCourse_faultKeeps die _)
  have hall : ∀ (cs : List Course) (t : State), FaultKeeps die t (t.each cs fun c s => (s.journal (courseEntry c e)).stopCourse c.id) :=
    each_rel (R := FaultKeeps die) (fun _ => .rfl) (fun h g => h.trans g) hstep
  unfold State.faultStops
  split
  · exact ⟨(journal_head e).symm ▸ Nat.lt_succ_self _, journal_faultKeeps die e⟩
  next cs hne =>
    obtain ⟨c, rest, hcs⟩ := List.exists_cons_of_ne_nil hne
    rw [hcs]
    exact ⟨(hone c s).trans_le (hall rest _).1, hall (c :: rest) s⟩

theorem slathEngineFault_answers {die eng : Nat} (hd : die < 8) (hm : hasMsd s die = true) (he : eng < 4) (hn : eng ∉ (s.msdOf die).disabled) :
    Answers (.slathEngineFault die eng) s fun t =>
      (eng ∈ (t.msdOf die).disabled ↔ (s.msdOf die).lastFail.any (fun x => x.1 == eng && x.2 + 1 == s.rnd.num) = true) ∧
      (eng, s.rnd.num) ∈ (t.msdOf die).lastFail ∧ s.flt.head < t.flt.head := by
  refine answers_of_frame rfl (decide_eq_true hd) (slathFails_frame (Nat.or_self _) Fr.rfl) ?_
  unfold State.slathFails
  extract_lets m now again u
  rw [if_neg (by simp [m, hm, he, hn])]
  have hu : u.msdOf die = { s.msdOf die with
      lastFail := (eng, now) :: (s.msdOf die).lastFail.filter fun x => x.1 != eng
      disabled := if again then eng :: (s.msdOf die).disabled else (s.msdOf die).disabled } := modMsd_read ..
  obtain ⟨hhead, -, hkeep⟩ := faultStops_keeps (s := u) die (listsOn die) { code := St.engineReset, cls := Cls.recovered, blk := Blk.slath, unit := die * 4 + eng }
  have heng := hkeep (by rw [hu]; exact List.cons_ne_nil _ _)
  have hdisabled := (congrArg Prod.fst heng).trans (congrArg Msd.disabled hu)
  have hfails := (congrArg Prod.snd heng).trans (congrArg Msd.lastFail hu)
  refine ⟨?_, ?_, hhead⟩
  · refine (iff_of_eq (congrArg (eng ∈ ·) hdisabled)).trans ?_
    change eng ∈ (if again = true then eng :: (s.msdOf die).disabled else (s.msdOf die).disabled) ↔ again = true
    cases again with
    | true => simp
    | false => simpa using hn
  · exact (congrArg ((eng, s.rnd.num) ∈ ·) hfails).mpr List.mem_cons_self

theorem migrationEngineFault_answers {die : Nat} (hd : die < 8) (hm : hasMsd s die = true) : Answers (.migrationEngineFault die) s fun t =>
    t.mem = s.mem ∧ t.flt.head = s.flt.head + 1 ∧ (look {} t.flt.ring ((s.flt.head + 1) % 4096)).code = St.engineReset := by
  refine answers_of_frame rfl (decide_eq_true hd) (migrationFails_frame (Nat.or_self _) Fr.rfl) ?_
  rw [State.migrationFails, if_pos hm]
  exact ⟨(journal_frame (Nat.or_self _) Fr.rfl).mem_eq, journal_head _, journal_code _⟩

/-- The count of block resets follows the entries of their class (R435). -/
theorem journal_nBlk {e : JEntry} (he : e.cls = Cls.blockReset) : (s.journal e).flt.nBlk = sat 16 (s.flt.nBlk + 1) := by
  have hevent : Cls.workEnded ≤ e.cls := by
    rw [he]
    decide
  unfold State.journal State.ctxEvent
  extract_lets seq entry f u
  rw [if_pos hevent, (event_frame (Nat.or_self _) Fr.rfl).flt_eq]
  exact if_pos he

theorem copyEngineFault_answers {e : Nat} (he : e < 40) (hr : s.rst.running = true) (hb : (s.rst.busy.any fun b => b.sel == 4 && b.unit == e) = false) :
    Answers (.copyEngineFault e) s fun t => t.rst.busy = s.rst.busy ++ [{ sel := 4, unit := e, reset := false }] ∧
      t.flt.head = s.flt.head + 1 ∧ t.flt.nBlk = sat 16 (s.flt.nBlk + 1) := by
  refine answers_of_frame rfl (decide_eq_true he) (copyEngineFails_frame (Nat.or_self _) Fr.rfl) ?_
  have hrst : (s.journal { code := St.engineReset, cls := Cls.blockReset, blk := Blk.copy, unit := e }).rst = s.rst :=
    (journal_frame (Nat.or_self _) Fr.rfl).rst_eq
  unfold State.copyEngineFails State.blockReset
  rw [hrst, hr, hb]
  exact ⟨rfl, journal_head _, journal_nBlk rfl⟩

/-! ### Processors -/

/-- A key whose entry satisfies `p`, which the default does not, is listed. -/
theorem mem_keysWhere {α : Type} {d : α} {t : Tab α} {k : Nat} {p : α → Bool} (hd : p d = false) (h : p (look d t k) = true) :
    k ∈ keysWhere t fun _ => p := by
  induction t with
  | nil => exact absurd (hd.symm.trans h) Bool.false_ne_true
  | cons x t ih =>
    obtain ⟨j, v⟩ := x
    by_cases hj : j = k
    · subst hj
      have hv : p v = true := by simpa [look] using h
      simp [keysWhere, hv]
    · have ht := ih (by simpa [look, hj] using h)
      rw [keysWhere, List.mem_map] at ht ⊢
      exact ht.imp fun y ⟨hy, hk⟩ => ⟨List.mem_filter.mpr ⟨List.mem_cons_of_mem _ (List.mem_filter.mp hy).1, (List.mem_filter.mp hy).2⟩, hk⟩

/-- A channel that is answered is BUSY no longer, and no answer makes another one BUSY. -/
theorem answer_notBusy {status detail len payload n ch : Nat} (h : n = ch ∨ (s.chan ch).state ≠ Ch.busy) :
    ((s.answer n status detail len payload).chan ch).state ≠ Ch.busy := by
  by_cases hn : n = ch
  · subst hn
    cases hd : (s.chan n).discard with
    | true =>
      rw [State.answer, if_pos hd, modChan_read]
      exact (by decide : Ch.idle ≠ Ch.busy)
    | false =>
      rw [answer_chan hd]
      exact (by decide : Ch.done ≠ Ch.busy)
  · rw [answer_chan_ne (Ne.symm hn)]
    exact h.resolve_left hn

theorem each_answer_notBusy {status ch : Nat} (xs : List Nat) (h : ch ∈ xs ∨ (s.chan ch).state ≠ Ch.busy) :
    ((s.each xs fun n s => s.answer n status 0 0 0).chan ch).state ≠ Ch.busy := by
  induction xs generalizing s with
  | nil => exact h.resolve_left List.not_mem_nil
  | cons x xs ih =>
    refine ih ?_
    rw [List.mem_cons] at h
    by_cases hx : ch ∈ xs
    · exact .inl hx
    · exact .inr (answer_notBusy (h.imp_left fun h => (h.resolve_right hx).symm))

theorem firmwareWatchdog_answers : Answers .firmwareWatchdog s fun t =>
    t.train.probe = none ∧ t.flt.head = s.flt.head + 1 ∧ ∀ ch, chanState (t.chan ch) ≠ Ch.busy := by
  refine answers_of_frame rfl rfl (firmwareRestarts_frame (Nat.or_self _) Fr.rfl) ?_
  unfold State.firmwareRestarts
  extract_lets u train v
  refine ⟨?_, ?_, fun ch => ?_⟩
  · rw [each_keeps State.train fun _ _ => (answer_frame (Nat.or_self _) Fr.rfl).train_eq]
  · rw [each_keeps State.flt fun _ _ => (answer_frame (Nat.or_self _) Fr.rfl).flt_eq]
    exact journal_head _
  · have hbusy : ch ∈ keysWhere v.mb.chans (fun _ c => c.state == Ch.busy) ∨ (v.chan ch).state ≠ Ch.busy := by
      refine or_iff_not_imp_right.mpr fun h => mem_keysWhere (d := {}) (p := fun c : Chan => c.state == Ch.busy) rfl ?_
      exact beq_iff_eq.mpr (not_not.mp h)
    unfold chanState
    split
    · exact each_answer_notBusy _ hbusy
    · decide

theorem coldStart_mem (cls source : Nat) : (s.coldStart cls source).mem = State.reset.mem := rfl
theorem coldStart_ctxs (cls source : Nat) : (s.coldStart cls source).ctxs = State.reset.ctxs := rfl

/-- What a reset of the Lid leaves of memory, contexts and the release, whether main power is there or not (R447). -/
theorem lidReset_clears (c : LCause) :
    (s.lidReset c).mem = State.reset.mem ∧ (s.lidReset c).ctxs = State.reset.ctxs ∧ (s.lidReset c).rst.running = false := by
  unfold State.lidReset
  extract_lets tenants u v dark w
  have hw : w.mem = State.reset.mem ∧ w.ctxs = State.reset.ctxs ∧ w.rst.running = false := ⟨coldStart_mem .., coldStart_ctxs .., by
    show (State.coldStart _ _ _).rst.running = false
    rw [coldStart_rst]⟩
  clear_value w
  split <;> exact hw

theorem lidSelfCheckFail_answers : Answers .lidSelfCheckFail s fun t =>
    t.rst.cls = 1 ∧ t.rst.source = 0x10 ∧ t.rst.running = false ∧ (∀ c, c ≠ 0 → t.ctx c = {}) ∧ t.mem = State.reset.mem ∧
      t.lid.anchor = s.lid.anchor := by
  obtain ⟨hanchor, hcls, hsource⟩ := lidReset_marks (s := s) .lidFail
  obtain ⟨hmem, hctxs, hrunning⟩ := lidReset_clears (s := s) .lidFail
  generalize hu : s.lidReset .lidFail = u at *
  have hx : exec .lidSelfCheckFail s = act true s u := congrArg (act true s) hu
  refine answers_of_act hx rfl ⟨hcls, hsource, hrunning, fun c hc => ?_, hmem, hanchor⟩
  show look {} u.ctxs c = {}
  rw [hctxs]
  exact if_neg hc.symm

/-! ### The obligation -/

/-- Settles O36: saved, zeroed, restored and failed cells, spares and the staged image; faults of links, memories, engines and processors. -/
theorem cellAndBlockFaults : Obligations.CellAndBlockFaults := by
  refine ⟨fun s lc hlc => ⟨fun o i ps hs ho hg ha hf => cellSaveDone_answers hlc hs ho hg ha hf, bankZeroDone_answers hlc, fun i x => restoreCheck_answers hlc,
    cellFailure_answers hlc, spareLoadDone_answers hlc, fun img => rfl⟩, fun s => ⟨fun warp link => flitReplayFail_answers, fun warp link l hl => ?_,
    tallyMemory_answers, directoryCache_answers, fun die eng => slathEngineFault_answers, fun die => migrationEngineFault_answers,
    fun e => copyEngineFault_answers, firmwareWatchdog_answers, fun _ => lidSelfCheckFail_answers⟩⟩
  exact ⟨link_waits hl, linkRetrained_answers hl, linkRetrainFails_answers hl, fabricFails_answers hl⟩

end Sys2Proof.Machine
end
